-- ==== Sys2Proof/Word.lean ====
section
/-! DEFINITION. The word types of the XJW1 model and their plainest arithmetic: bytes, 64-bit register words, little-endian
packing (spec/00 R5: registers are 64 bits wide and little-endian) and bit fields `[msb:lsb]`. -/

namespace Sys2Proof

/-- One byte. -/
abbrev Byte := BitVec 8

/-- One 64-bit word: a register, a scalar, an instruction word. -/
abbrev W64 := BitVec 64

/-- A 256-bit tensor descriptor (spec/04 R66). -/
abbrev Desc := BitVec 256

/-- Bits `lo + n - 1` down to `lo` of a bit vector. -/
abbrev bitsOf {w : Nat} (x : BitVec w) (lo n : Nat) : BitVec n := x.extractLsb' lo n

/-- The same bits as a natural number. -/
abbrev fieldOf {w : Nat} (x : BitVec w) (lo n : Nat) : Nat := (x.extractLsb' lo n).toNat

/-- One bit as a truth value. -/
abbrev flagOf {w : Nat} (x : BitVec w) (i : Nat) : Bool := x.getLsbD i

/-- A truth value as a number. -/
def bit (b : Bool) : Nat := if b then 1 else 0

/-- The little-endian number of a list of bytes (spec/00 R5). -/
def leNat : List Byte → Nat
  | [] => 0
  | b :: bs => b.toNat + 256 * leNat bs

/-- The `n` little-endian bytes of a number. -/
def leBytes : Nat → Nat → List Byte
  | 0, _ => []
  | n + 1, v => BitVec.ofNat 8 v :: leBytes n (v / 256)

/-- The smallest multiple-of-`k` quotient at least `a / k`. -/
def ceilDiv (a k : Nat) : Nat := (a + k - 1) / k

/-- The next multiple of `k` at or above `a`. -/
def roundUp (a k : Nat) : Nat := ceilDiv a k * k

end Sys2Proof
end

