-- ==== Sys2Proof/Syntax.lean ====
section
/-! DEFINITION. The commands of the XJW1 as data: one constructor of `Instr` per row of spec/opcode_table.json, and the
operand structures they carry. A command is one indivisible step of the module (spec/95). The command of an instruction
row is the issue of that instruction by one context: it carries the core, the context and every field of its word
(spec/04 R70, Table 04-4) but `op` and `fn`, which the constructor fixes, and the extension word. A command of an event
row carries what the event brings to the module: a packet, a register value, a sensor reading. -/

namespace Sys2Proof

/-- A format A instruction issued by context `ctx` of core `core` (spec/04 Table 04-4). -/
structure IA where
  core : BitVec 10
  ctx : BitVec 3
  x : Bool := false
  pg : BitVec 3 := 0
  pn : Bool := false
  d : BitVec 5 := 0
  a : BitVec 5 := 0
  b : BitVec 5 := 0
  c : BitVec 5 := 0
  pd : BitVec 3 := 0
  aux : BitVec 21 := 0
  deriving DecidableEq, Repr

/-- A format B instruction (spec/04 Table 04-4); `rsv` is bits [40:39], `ext` the extension word, present when `x`. -/
structure IB where
  core : BitVec 10
  ctx : BitVec 3
  x : Bool := false
  pg : BitVec 3 := 0
  pn : Bool := false
  d : BitVec 5 := 0
  a : BitVec 5 := 0
  rsv : BitVec 2 := 0
  imm : BitVec 32 := 0
  ext : BitVec 64 := 0
  deriving DecidableEq, Repr

/-- A format M instruction (spec/04 Table 04-4); `rsv` is bits [35:32]. -/
structure IM where
  core : BitVec 10
  ctx : BitVec 3
  x : Bool := false
  pg : BitVec 3 := 0
  pn : Bool := false
  d : BitVec 5 := 0
  a : BitVec 5 := 0
  space : BitVec 2 := 0
  sx : Bool := false
  size : BitVec 2 := 0
  rsv : BitVec 4 := 0
  imm : BitVec 32 := 0
  deriving DecidableEq, Repr

/-- A format T instruction (spec/04 Table 04-4); `ext` is the extension word, present when `x`. -/
structure IT where
  core : BitVec 10
  ctx : BitVec 3
  x : Bool := false
  pg : BitVec 3 := 0
  pn : Bool := false
  td : BitVec 4 := 0
  ta : BitVec 4 := 0
  tb : BitVec 4 := 0
  tc : BitVec 4 := 0
  pd : BitVec 3 := 0
  ctl : BitVec 24 := 0
  ext : BitVec 64 := 0
  deriving DecidableEq, Repr

/-- The answer to an external request of a stream or transfer slot (spec/08 R177, R179): data read or a write done, the
request's own node being this engine or another; or a failure code with which the request failed. -/
inductive Response where
  | ok (data : List Byte)
  | fail (code : BitVec 16)
  deriving DecidableEq, Repr

/-- What a scrub of one SRAM line finds (spec/03 R53). -/
inductive EccResult where
  | clean | corrected | uncorrectable
  deriving DecidableEq, Repr

/-- A packet on the wafer fabric (spec/10 R216, Table 10-2). `hdr` is its 64-bit header. The header has no address, length
or atomic operation; a packet carries beside it the global address it is about, and a request its length and operation. -/
structure FabPkt where
  hdr : BitVec 64
  addr : BitVec 64 := 0
  len : Nat := 0
  aop : BitVec 4 := 0
  aw : Bool := false
  data : List Byte := []
  deriving DecidableEq, Repr

/-- One port's reading at the end of a pressure window (spec/10 R230): its level, router position, port and the fraction
of waiting cycles in 1/256. -/
structure PressSample where
  level : Nat
  x : BitVec 5
  y : BitVec 5
  port : BitVec 4
  frac : Nat
  deriving DecidableEq, Repr

/-- A flit as received on a link (spec/11 R240, Table 11-4): four header words and up to 512 data bytes; `fecOk` is false
when it lies in an uncorrectable codeword, `corrected` and `uncorr` count the corrected symbols and the uncorrectable codewords that end
with it, and `reset` marks an INIT or link-reset flit (spec/11 R256). -/
structure Flit where
  w0 : BitVec 64
  w1 : BitVec 64 := 0
  w2 : BitVec 64 := 0
  w3 : BitVec 64 := 0
  data : List Byte := []
  fecOk : Bool := true
  corrected : Nat := 0
  uncorr : Nat := 0
  reset : Bool := false
  deriving DecidableEq, Repr

/-- An OFP packet of the row's type, as its flits deliver it (spec/11 Table 11-4, Table 11-5). `upset` is what meets the next GB16 addition after a GBK
packet (log 182): 0 nothing, 1 an error that the repeat passes, 2 to 4 a second failure of C2 to C4 (spec/13 R289). -/
structure OfpPkt where
  link : BitVec 5
  vc : BitVec 4
  dst : BitVec 22
  addr : BitVec 42
  src : BitVec 22
  srcEp : BitVec 10
  tag : BitVec 16
  op : BitVec 4
  len : Nat := 0
  status : BitVec 16 := 0
  aop : BitVec 4 := 0
  aw : Bool := false
  data : List Byte := []
  upset : Nat := 0
  deriving DecidableEq, Repr

/-- A RoCEv2 message of the row's kind on a queue pair (spec/11 R238): virtual address and key of its RETH, length asked
for, immediate data, whether it carries an ECN mark, whether a response is a NAK and its code (1 invalid request, 2 remote access error, 3 remote
operational error), and its data. -/
structure RoceMsg where
  va : BitVec 64 := 0
  rkey : BitVec 32 := 0
  len : Nat := 0
  imm : Option (BitVec 32) := none
  ecn : Bool := false
  nak : Bool := false
  nakCode : Nat := 0
  psn : Nat := 0
  data : List Byte := []
  deriving DecidableEq, Repr

/-- The join record of the other side and this side's times of the exchange (spec/12 R280, R281). -/
structure JoinRec where
  node : BitVec 22
  fw : BitVec 64
  bc : BitVec 32
  cores : Nat
  needCores : Nat
  halfMode : Bool
  halfFlag : Bool
  digest : BitVec 512
  time : BitVec 64
  tSend : BitVec 64
  tRecv : BitVec 64
  /-- Whether the other side's own check of this engine's record passed, and its code if not. -/
  peerCode : BitVec 16 := 0
  deriving DecidableEq, Repr

/-- The readings of one telemetry frame (spec/15 R343, Tables 15-4, 15-5): 2,128 domain records and 1,094 temperatures. -/
structure FrameIn where
  recs : List (BitVec 128)
  temps : List (BitVec 16)
  deriving DecidableEq, Repr

/-- One power entry's readings in a Crevasse window (spec/15 R355): current in mA, drop in microvolts, temperature in 1/64 degree. -/
structure CrevIn where
  milliAmps : Nat
  microVolts : Nat
  temp : Int
  deriving DecidableEq, Repr

/-- A PTP message as the hardware timestamps it (spec/16 R373): a valid sync or not, its domain and transport, and the offset
of the master from DEV_TIME in nanoseconds. -/
structure PtpMsg where
  domain : BitVec 7
  transport : BitVec 2
  valid : Bool
  offset : Int
  deriving DecidableEq, Repr

/-- What the Lodge measures for a replan (spec/16 R377, R379): the slack at the current point in ps, the temperature in 1/64 degree, the last
Vmin in mV; and the required VCORE at 95 degrees in microvolts of the other points, at which no slack is sampled. -/
structure PlanIn where
  need : List Nat
  vminMv : Nat
  slackPs : BitVec 16
  temp : BitVec 16
  deriving DecidableEq, Repr

/-- What a start-up stage finds (spec/18 R410-R413, spec/17 R391, R395): its duration; for SELFTEST the sites, fields and halves
that fail and the working phases of sites with fewer than 8; for RIM the stacks that fail training and whether the training was
full; for LODGE what flash no longer holds as it was written: the boot stages of firmware copies whose signature fails, and the
record copies, by type and place, newest first, each spoilt, or replaced by an older one with the write count given. -/
structure BootIn where
  ms : Nat
  failSites : List (BitVec 10) := []
  failFields : List (BitVec 6) := []
  phases : List (BitVec 10 × Nat) := []
  failWest : Bool := false
  failEast : Bool := false
  failStacks : List (BitVec 4) := []
  fwBad : List (BitVec 1 × Nat) := []
  recBad : List (Nat × Nat × Option Nat) := []
  pufFail : Bool := false
  deriving DecidableEq, Repr

/-- An external request of a core (spec/08 R172, R182): that of a ring, with its place among those in flight of the ring's running list, or, `src` being
16 + x, that of transfer slot x. -/
structure StreamReq where
  src : BitVec 5
  idx : BitVec 6
  deriving DecidableEq, Repr

/-- The end of a training stage (spec/11 R233, R243): whether it has been reached, else it repeats; at INIT the partner's credit minimums by virtual
channel and after them what it shares, an empty list where it has those of Table 11-6. -/
structure StageEnd where
  up : Bool
  credits : List Nat
  deriving DecidableEq, Repr

/-- A client at the TLS handshake (spec/17 R386): the SHA-512 digest of its key and whether it proved possession of it. -/
structure ClientIn where
  keyDigest : BitVec 512
  proven : Bool
  deriving DecidableEq, Repr

/-- A management request (spec/17 R387): its session, tag, reserved header bytes [15:12], status bytes and body. Its operation is the
row's own unless `op` names a reserved one. -/
structure MgmtReq where
  session : BitVec 4
  tag : BitVec 32
  op : Option (BitVec 16) := none
  status : BitVec 16 := 0
  rsv : BitVec 32 := 0
  body : List Byte
  deriving DecidableEq, Repr


/-- The commands of the XJW1: one constructor per row of spec/opcode_table.json, in the table's order. -/
inductive Instr where
  | add (i : IA)
  | addi (i : IB)
  | sub (i : IA)
  | subi (i : IB)
  | and (i : IA)
  | andi (i : IB)
  | or (i : IA)
  | ori (i : IB)
  | xor (i : IA)
  | xori (i : IB)
  | shl (i : IA)
  | shli (i : IB)
  | shr (i : IA)
  | shri (i : IB)
  | sra (i : IA)
  | srai (i : IB)
  | mul (i : IA)
  | muli (i : IB)
  | mulhu (i : IA)
  | mulhui (i : IB)
  | mulh (i : IA)
  | mulhi (i : IB)
  | divu (i : IA)
  | divui (i : IB)
  | remu (i : IA)
  | remui (i : IB)
  | div (i : IA)
  | divi (i : IB)
  | rem (i : IA)
  | remi (i : IB)
  | min (i : IA)
  | mini (i : IB)
  | max (i : IA)
  | maxi (i : IB)
  | minu (i : IA)
  | minui (i : IB)
  | maxu (i : IA)
  | maxui (i : IB)
  | cmpEq (i : IA)
  | cmpNe (i : IA)
  | cmpLt (i : IA)
  | cmpLtu (i : IA)
  | cmpGe (i : IA)
  | cmpGeu (i : IA)
  | cmpiEq (i : IB)
  | cmpiNe (i : IB)
  | cmpiLt (i : IB)
  | cmpiLtu (i : IB)
  | cmpiGe (i : IB)
  | cmpiGeu (i : IB)
  | pand (i : IA)
  | por (i : IA)
  | pxor (i : IA)
  | pandn (i : IA)
  | pset (i : IA)
  | pget (i : IA)
  | ld (i : IM)
  | st (i : IM)
  | tld (i : IM)
  | tst (i : IM)
  | scalarLoadReturn (core : BitVec 10) (ctx : BitVec 3)
  | tset (i : IA)
  | tget (i : IA)
  | tmov (i : IA)
  | br (i : IB)
  | jal (i : IB)
  | jr (i : IB)
  | cstart (i : IA)
  | endCtx (i : IA)
  | rdsys (i : IA)
  | ifence (i : IA)
  | nop (i : IA)
  | waitp (i : IA)
  | bar (i : IA)
  | evsig (i : IA)
  | evwait (i : IA)
  | ctxSliceExpiry (core : BitVec 10)
  | qcfg (i : IA)
  | qbind (i : IA)
  | qacq (i : IA)
  | qrel (i : IA)
  | qsub (i : IA)
  | slm (i : IA)
  | cmm (i : IT)
  | chb (i : IT)
  | cbwd (i : IT)
  | cdrn (i : IT)
  | czero (i : IT)
  | carveCommandDone (core : BitVec 10) (arr : BitVec 1) (idx : Nat)
  | smv (i : IT)
  | schussCommandDone (core : BitVec 10)
  | gnrm (i : IT)
  | gsmx (i : IT)
  | gnrmb (i : IT)
  | gsmxb (i : IT)
  | groomerCommandDone (core : BitVec 10)
  | vadd (i : IT)
  | vsub (i : IT)
  | vmul (i : IT)
  | vfma (i : IT)
  | vmax (i : IT)
  | vmin (i : IT)
  | vscale (i : IT)
  | vexp (i : IT)
  | vlog (i : IT)
  | vrcp (i : IT)
  | vrsqrt (i : IT)
  | vact (i : IT)
  | vcvt (i : IT)
  | vrsum (i : IT)
  | vamax (i : IT)
  | vgbq (i : IT)
  | vgba (i : IT)
  | vgbd (i : IT)
  | vres (i : IT)
  | vopt (i : IT)
  | viadd (i : IT)
  | vimul (i : IT)
  | vicmp (i : IT)
  | vectorCommandDone (core : BitVec 10)
  | spush (i : IT)
  | spop (i : IT)
  | spskip (i : IT)
  | snowpackCommandDone (core : BitVec 10)
  | snowpackSpillAck (core : BitVec 10)
  | snowpackRefillData (core : BitVec 10)
  | rget (i : IA)
  | rput (i : IA)
  | rcopy (i : IA)
  | ratom (i : IA)
  | rfence (i : IA)
  | rdsub (i : IT)
  | rdrecv (i : IT)
  | ckvote (i : IA)
  | ckdig (i : IT)
  | digestDone (core : BitVec 10)
  | slalomDone (core : BitVec 10)
  | streamResponse (core : BitVec 10) (req : StreamReq) (resp : Response)
  | atuWalkReturn (core : BitVec 10)
  | coreCtxStartWrite (core : BitVec 10) (value : W64)
  | coreCtxResumeWrite (core : BitVec 10) (value : W64)
  | coreCtxKillWrite (core : BitVec 10) (value : W64)
  | coreEvSetWrite (core : BitVec 10) (value : W64)
  | coreSramCfgWrite (core : BitVec 10) (value : W64)
  | coreAtuInvalWrite (core : BitVec 10) (value : W64)
  | atuInvalDone (core : BitVec 10)
  | coreRingResume (core : BitVec 10) (ring : BitVec 4)
  | coreRingAbort (core : BitVec 10) (ring : BitVec 4)
  | coreRingReset (core : BitVec 10) (ring : BitVec 4)
  | coreXslotResume (core : BitVec 10) (slot : BitVec 3)
  | coreXslotAbort (core : BitVec 10) (slot : BitVec 3)
  | sramScrub (core : BitVec 10) (line : Nat) (err : EccResult)
  | heartbeatSample (field : BitVec 6) (missed : BitVec 16)
  | coreRemap (failsTest : List (BitVec 10))
  | fabricPacketArrive (x y : BitVec 5) (pkt : FabPkt)
  | fabricPressWindow (ports : List PressSample)
  | linkTrainStageDone (link : BitVec 5) (stage : StageEnd)
  | linkTrainTimeout (link : BitVec 5)
  | ethPortTrainDone (link : BitVec 5) (port : BitVec 1) (ok : Bool)
  | linkRetrain (link : BitVec 5)
  | laneLoss (link : BitVec 5) (lane : BitVec 4)
  | ofpFlitReceive (link : BitVec 5) (flit : Flit)
  | linkIdleTimeout (link : BitVec 5)
  | linkCreditTimeout (link : BitVec 5) (vc : BitVec 4)
  | linkDrainSwitchDone
  | devLgrpAdmit
  | ofpGet (pkt : OfpPkt)
  | ofpPut (pkt : OfpPkt)
  | ofpAtom (pkt : OfpPkt)
  | ofpCopy (pkt : OfpPkt)
  | ofpData (pkt : OfpPkt)
  | ofpAck (pkt : OfpPkt)
  | ofpAtomr (pkt : OfpPkt)
  | ofpErr (pkt : OfpPkt)
  | ofpCdone (pkt : OfpPkt)
  | ofpWseg (pkt : OfpPkt)
  | ofpGbk (pkt : OfpPkt)
  | ctlHeartbeat (link : BitVec 5) (rec : List Byte)
  | ctlGoodbye (link : BitVec 5) (rec : List Byte)
  | ctlVote (link : BitVec 5) (rec : List Byte)
  | ctlDecision (link : BitVec 5) (rec : List Byte)
  | remoteResponseTimeout (tag : BitVec 16)
  | heartbeatSend
  | peerTimeout (node : BitVec 22)
  | roceSendReceive (qp : BitVec 13) (msg : RoceMsg)
  | roceWriteReceive (qp : BitVec 13) (msg : RoceMsg)
  | roceReadReceive (qp : BitVec 13) (msg : RoceMsg)
  | roceAtomicReceive (qp : BitVec 13) (msg : RoceMsg)
  | roceAckReceive (qp : BitVec 13) (msg : RoceMsg)
  | roceCnpReceive (qp : BitVec 13)
  | roceRetransmitTimeout (qp : BitVec 13)
  | wstreamKeyUnwrap (value : W64)
  | wstreamKeyTimeout (epoch : BitVec 16)
  | wstreamPlanLoad (value : W64)
  | recordDecrypt (stream : BitVec 4) (recNo : Nat)
  | entryComplete (entry : BitVec 16)
  | wstreamWbqWrite (core : BitVec 10) (value : W64)
  | writebackDone
  | wstreamBufRelWrite (core : BitVec 10) (value : W64)
  | wstreamJobGo (value : W64)
  | wstreamJobEnd (value : W64)
  | wstreamTreeTimeout
  | jobJoinCheck (peer : JoinRec)
  | joinRecordRefresh
  | memberLeaveRequest (node : BitVec 22) (leave : Bool)
  | redPlanLoad (value : W64)
  | redChainArm (value : W64)
  | voteSend
  | voteTimerExpiry
  | ckptUpdWrite (value : W64)
  | rollback
  | ckptTensLoad (value : W64)
  | freezeTimer
  | ckptFreezeNow (value : W64)
  | freezeDrainSend
  | freezeDrainAck
  | ckptCompare (owner : BitVec 16)
  | ckptCompareTimeout (owner : BitVec 16)
  | ckptPromote (value : W64) (slot : List Byte)
  | ckptAdopt (value : W64) (slot : List Byte)
  | ckptScan (value : W64) (slots : List (List Byte))
  | ckptLoad (value : W64) (slot shadow : List Byte)
  | ckptBuddyStep (value : W64)
  | siteToOff (site : BitVec 10)
  | siteToRet (site : BitVec 10)
  | siteToIdle (site : BitVec 10)
  | idleTimeout (site : BitVec 10)
  | telemetryFrame (frame : FrameIn)
  | powerLoopIteration (flowDeci : Nat)
  | capWrite (value : W64)
  | capLeaseExpiry
  | pwrBrakeAssert
  | pwrBrakeDeassert
  | inputUndervoltage
  | inputFail
  | holdupEnd
  | crevasseWindow (entry : BitVec 8) (meas : CrevIn)
  | pwrCrevRecal (value : W64) (base : List (Nat × Nat))
  | phaseLoss (site : BitVec 10)
  | regulatorControllerFault (site : BitVec 10)
  | siteShort (site : BitVec 10)
  | vfieldShort (field : BitVec 6)
  | rimConverterFault (segment : BitVec 2)
  | alwaysOnConverterFault (half : BitVec 1)
  | thermalSample (field : BitVec 6) (temps : List (BitVec 16))
  | coolantLeak (sensor : BitVec 2)
  | pwrServiceClear (value : W64)
  | fieldRefDeviation (field : BitVec 6) (neighbour : Option (BitVec 6))
  | devTimeCorrection (elapsed : Nat)
  | ptpMessage (msg : PtpMsg)
  | ptpSyncLoss (secs : Nat)
  | ptpHoldoverExceeded (secs : Nat)
  | devTimeSetWrite (value : W64)
  | wearSlackSample (site : BitVec 10) (slackPs : BitVec 16) (temp : BitVec 16)
  | vminMeasure (site : BitVec 10) (vminMv : BitVec 16) (temp : BitVec 16)
  | wearReplan (site : BitVec 10) (plan : PlanIn)
  | lodgeWatchdogExpiry (lodgeCore : BitVec 3)
  | lodgeMemoryError
  | devLodgeRestart (value : W64)
  | lodgeRestartDone (boot : BootIn)
  | powerLoopWatchdog
  | mgmtConnect (session : BitVec 4) (client : ClientIn)
  | regRead (req : MgmtReq)
  | regWrite (req : MgmtReq)
  | evtRead (req : MgmtReq)
  | telRead (req : MgmtReq)
  | wearRead (req : MgmtReq)
  | attest (req : MgmtReq)
  | cap (req : MgmtReq)
  | keyInstall (req : MgmtReq)
  | fwStage (req : MgmtReq)
  | recWrite (req : MgmtReq)
  | presStage (req : MgmtReq)
  | evtSubscribe (req : MgmtReq)
  | evtSubscribePush (session : BitVec 4)
  | secFwCommit (value : W64)
  | presenceButton
  | serviceJumperClose
  | presenceTimeout
  | counterClear (addr : BitVec 42) (value : W64)
  | prsntAssert
  | prsntDeassert
  | bootStageDone (boot : BootIn)
  | devJoin (value : W64)
  | devResetWarm (value : W64)
  | runoutStart (value : W64)
  | runoutNow (value : W64)
  | runoutWaitExpiry
  | runoutBegin
  | runoutDrainTimeout
  | ejectAssert
  | ejectDeassert
  | registerWrite (addr : BitVec 42) (size : BitVec 2) (value : W64)
  | nullFlitSend (link : BitVec 5)
  | inputReturn (milliVolts : Nat)
  | sitePowerTransitionDone (site : BitVec 10)
  | snowpackDirectoryRefill (core : BitVec 10)
  | priorityFlowControlFrame (link : BitVec 5) (port : BitVec 1) (enable : BitVec 8) (quanta : List (BitVec 16))
  deriving DecidableEq, Repr

end Sys2Proof
end

