-- ==== Sys2Proof/Decode.lean ====
section
/-! DEFINITION. The command that a word of spec/opcode_table.json spells: the table gives no row any bits, so no such word spells a command. And
the instruction that a word of a program spells (spec/04 R70, R74, Tables 04-4 and 04-5). -/

namespace Sys2Proof

/-- The command that the low `nbits` bits of `w` spell: no row of the table has bits, so none. -/
def decodeTableWord (_nbits _w : Nat) : Option Instr := none

/-! ## The fields of an instruction word (spec/04 Table 04-4) -/

/-- Format A. -/
def wordA (core : BitVec 10) (ctx : BitVec 3) (w : W64) : IA :=
  { core := core, ctx := ctx, x := w.getLsbD 55, pg := bitsOf w 52 3, pn := w.getLsbD 51, d := bitsOf w 46 5, a := bitsOf w 41 5
    b := bitsOf w 36 5, c := bitsOf w 31 5, pd := bitsOf w 21 3, aux := bitsOf w 0 21 }

/-- Format B with its extension word. -/
def wordB (core : BitVec 10) (ctx : BitVec 3) (w ext : W64) : IB :=
  { core := core, ctx := ctx, x := w.getLsbD 55, pg := bitsOf w 52 3, pn := w.getLsbD 51, d := bitsOf w 46 5, a := bitsOf w 41 5
    rsv := bitsOf w 39 2, imm := bitsOf w 0 32, ext := ext }

/-- Format M. -/
def wordM (core : BitVec 10) (ctx : BitVec 3) (w : W64) : IM :=
  { core := core, ctx := ctx, x := w.getLsbD 55, pg := bitsOf w 52 3, pn := w.getLsbD 51, d := bitsOf w 46 5, a := bitsOf w 41 5
    space := bitsOf w 39 2, sx := w.getLsbD 38, size := bitsOf w 36 2, rsv := bitsOf w 32 4, imm := bitsOf w 0 32 }

/-- Format T with its extension word. -/
def wordT (core : BitVec 10) (ctx : BitVec 3) (w ext : W64) : IT :=
  { core := core, ctx := ctx, x := w.getLsbD 55, pg := bitsOf w 52 3, pn := w.getLsbD 51, td := bitsOf w 47 4, ta := bitsOf w 43 4
    tb := bitsOf w 39 4, tc := bitsOf w 35 4, pd := bitsOf w 32 3, ctl := bitsOf w 0 24, ext := ext }

/-! ## The instructions of each opcode, by fn -/

/-- Op 0x01 (Table 04-7). -/
def arithA : List (IA → Instr) :=
  [.add, .sub, .and, .or, .xor, .shl, .shr, .sra, .mul, .mulhu, .mulh, .divu, .remu, .div, .rem, .min, .max, .minu, .maxu]

/-- Op 0x02: the same fn values. -/
def arithB : List (IB → Instr) :=
  [.addi, .subi, .andi, .ori, .xori, .shli, .shri, .srai, .muli, .mulhui, .mulhi, .divui, .remui, .divi, .remi, .mini, .maxi, .minui, .maxui]

/-- Ops 0x03 and 0x04 (R81). -/
def comparesA : List (IA → Instr) := [.cmpEq, .cmpNe, .cmpLt, .cmpLtu, .cmpGe, .cmpGeu]
def comparesB : List (IB → Instr) := [.cmpiEq, .cmpiNe, .cmpiLt, .cmpiLtu, .cmpiGe, .cmpiGeu]

/-- Op 0x05 (R81), op 0x0C (R82), ops 0x18 and 0x60 (Table 04-8), op 0x20 (Table 04-9), op 0x50 (Table 04-14) and op 0x5C (R93). -/
def predicates : List (IA → Instr) := [.pand, .por, .pxor, .pandn, .pset, .pget]
def descMoves : List (IA → Instr) := [.tset, .tget, .tmov]
def contexts : List (IA → Instr) := [.cstart, .endCtx, .rdsys, .ifence]
def synchronisation : List (IA → Instr) := [.nop, .waitp, .bar, .evsig, .evwait]
def ringOps : List (IA → Instr) := [.qcfg, .qbind, .qacq, .qrel, .qsub, .slm]
def remotes : List (IA → Instr) := [.rget, .rput, .rcopy, .ratom, .rfence]
def votes : List (IA → Instr) := [.ckvote]

/-- Op 0x30 (Table 04-11), op 0x38 (R87), op 0x3C (Table 04-12), op 0x48 (R90), op 0x58 and op 0x5D (R93). -/
def carves : List (IT → Instr) := [.cmm, .chb, .cbwd, .cdrn, .czero]
def schusses : List (IT → Instr) := [.smv]
def groomers : List (IT → Instr) := [.gnrm, .gsmx, .gnrmb, .gsmxb]
def snowpacks : List (IT → Instr) := [.spush, .spop, .spskip]
def reductions : List (IT → Instr) := [.rdsub, .rdrecv]
def digests : List (IT → Instr) := [.ckdig]

/-- Op 0x40 (Table 04-13). -/
def vectorOp (fn : Nat) : Option (IT → Instr) :=
  match fn with
  | 0x00 => some .vadd | 0x01 => some .vsub | 0x02 => some .vmul | 0x03 => some .vfma | 0x04 => some .vmax | 0x05 => some .vmin
  | 0x06 => some .vscale | 0x07 => some .vexp | 0x08 => some .vlog | 0x09 => some .vrcp | 0x0A => some .vrsqrt | 0x0B => some .vact
  | 0x10 => some .vcvt | 0x11 => some .vrsum | 0x12 => some .vamax
  | 0x18 => some .vgbq | 0x19 => some .vgba | 0x1A => some .vgbd | 0x1B => some .vres | 0x20 => some .vopt
  | 0x28 => some .viadd | 0x29 => some .vimul | 0x2A => some .vicmp
  | _ => none

/-- The instruction that a word and the word after it spell for a context; none for an undefined opcode or an unlisted fn (R74). The fn of BR, JAL and
JR is a field they do not use, so reserved (R70). -/
def decodeWord (core : BitVec 10) (ctx : BitVec 3) (w ext : W64) : Option Instr :=
  let a := fun (l : List (IA → Instr)) => l[fieldOf w 24 7]?.map (fun f => f (wordA core ctx w))
  let b := fun (l : List (IB → Instr)) => l[fieldOf w 32 7]?.map (fun f => f (wordB core ctx w ext))
  let t := fun (l : List (IT → Instr)) => l[fieldOf w 24 8]?.map (fun f => f (wordT core ctx w ext))
  let m := wordM core ctx w
  match fieldOf w 56 8 with
  | 0x01 => a arithA
  | 0x02 => b arithB
  | 0x03 => a comparesA
  | 0x04 => b comparesB
  | 0x05 => a predicates
  | 0x08 => some (.ld m)
  | 0x09 => some (.st m)
  | 0x0A => some (.tld m)
  | 0x0B => some (.tst m)
  | 0x0C => a descMoves
  | 0x10 => b [.br]
  | 0x11 => b [.jal]
  | 0x12 => b [.jr]
  | 0x18 => a contexts
  | 0x20 => a ringOps
  | 0x30 => t carves
  | 0x38 => t schusses
  | 0x3C => t groomers
  | 0x40 => (vectorOp (fieldOf w 24 8)).map (fun f => f (wordT core ctx w ext))
  | 0x48 => t snowpacks
  | 0x50 => a remotes
  | 0x58 => t reductions
  | 0x5C => a votes
  | 0x5D => t digests
  | 0x60 => a synchronisation
  | _ => none

end Sys2Proof
end

