-- ==== Sys2Proof/Machine/Codes.lean ====
section
/-! DEFINITION. Error codes (spec/04 R95 and the code table of each chapter) and event numbers (spec/19 R432). -/

namespace Sys2Proof.Machine

namespace E

/-- `E_ADDR_UNMAPPED`. -/
abbrev ADDR_UNMAPPED : Nat := 0x0201
/-- `E_NODE_RANGE`. -/
abbrev NODE_RANGE : Nat := 0x0202
/-- `E_PAGE_NOT_PRESENT`. -/
abbrev PAGE_NOT_PRESENT : Nat := 0x0301
/-- `E_PAGE_PERM`. -/
abbrev PAGE_PERM : Nat := 0x0302
/-- `E_VA_NONCANON`. -/
abbrev VA_NONCANON : Nat := 0x0303
/-- `E_ACC_RANGE`. -/
abbrev ACC_RANGE : Nat := 0x0304
/-- `E_PT_INVALID`. -/
abbrev PT_INVALID : Nat := 0x0305
/-- `E_ILLEGAL`. -/
abbrev ILLEGAL : Nat := 0x0401
/-- `E_PC_ALIGN`. -/
abbrev PC_ALIGN : Nat := 0x0402
/-- `E_DESC_INVALID`. -/
abbrev DESC_INVALID : Nat := 0x0404
/-- `E_SPACE`. -/
abbrev SPACE : Nat := 0x0407
/-- `E_FORMAT`. -/
abbrev FORMAT : Nat := 0x0405
/-- `E_SHAPE`. -/
abbrev SHAPE : Nat := 0x0406
/-- `E_ALIGN`. -/
abbrev ALIGN : Nat := 0x0403
/-- `E_RING_UNBOUND`. -/
abbrev RING_UNBOUND : Nat := 0x0408
/-- `E_RING_CFG`. -/
abbrev RING_CFG : Nat := 0x0409
/-- `E_SNOW_EMPTY`. -/
abbrev SNOW_EMPTY : Nat := 0x040A
/-- `E_SNOW_SIZE`. -/
abbrev SNOW_SIZE : Nat := 0x040B
/-- `E_SNOW_FULL`. -/
abbrev SNOW_FULL : Nat := 0x040C
/-- `E_BAR_COUNT`. -/
abbrev BAR_COUNT : Nat := 0x040D
/-- `E_OPT_REC`. -/
abbrev OPT_REC : Nat := 0x0701
/-- `E_RING_BUSY`. -/
abbrev RING_BUSY : Nat := 0x0802
/-- `E_RING_ABORTED`. -/
abbrev RING_ABORTED : Nat := 0x0801
/-- `E_XFER_LIST`. -/
abbrev XFER_LIST : Nat := 0x0803
/-- `E_SLM_REC`. -/
abbrev SLM_REC : Nat := 0x0804
/-- `E_SLM_GATE`. -/
abbrev SLM_GATE : Nat := 0x0805
/-- `E_SLM_LINK`. -/
abbrev SLM_LINK : Nat := 0x0806
/-- `E_XFER_DESC`. -/
abbrev XFER_DESC : Nat := 0x0807
/-- `E_SLM_COUNT`. -/
abbrev SLM_COUNT : Nat := 0x0808
/-- `E_MODE_OP`. -/
abbrev MODE_OP : Nat := 0x0903
/-- `E_TIED_WEIGHT`. -/
abbrev TIED_WEIGHT : Nat := 0x0901
/-- `E_PLAN_INVALID`. -/
abbrev PLAN_INVALID : Nat := 0x0902
/-- `E_FABRIC_DEST_DOWN`. -/
abbrev FABRIC_DEST_DOWN : Nat := 0x0A01
/-- `E_LINK_DOWN`. -/
abbrev LINK_DOWN : Nat := 0x0B01
/-- `E_NODE_UNREACH`. -/
abbrev NODE_UNREACH : Nat := 0x0B02
/-- `E_REMOTE_TIMEOUT`. -/
abbrev REMOTE_TIMEOUT : Nat := 0x0B03
/-- `E_REMOTE_OP_UNSUPP`. -/
abbrev REMOTE_OP_UNSUPP : Nat := 0x0B04
/-- `E_REMOTE_VC`. -/
abbrev REMOTE_VC : Nat := 0x0B05
/-- `E_REMOTE_ACCESS`. -/
abbrev REMOTE_ACCESS : Nat := 0x0B06
/-- `E_PEER_LOST`. -/
abbrev PEER_LOST : Nat := 0x0B07
/-- `E_LINK_CFG`. -/
abbrev LINK_CFG : Nat := 0x0B08
/-- `E_NO_MEMORY`. -/
abbrev NO_MEMORY : Nat := 0x0C01
/-- `E_LOAD_PLAN_INVALID`. -/
abbrev LOAD_PLAN_INVALID : Nat := 0x0C02
/-- `E_WSEG_FORMAT`. -/
abbrev WSEG_FORMAT : Nat := 0x0C03
/-- `E_WSEG_AUTH`. -/
abbrev WSEG_AUTH : Nat := 0x0C04
/-- `E_WSEG_VERSION`. -/
abbrev WSEG_VERSION : Nat := 0x0C05
/-- `E_KEY_UNWRAP`. -/
abbrev KEY_UNWRAP : Nat := 0x0C06
/-- `E_IMG_DIGEST`. -/
abbrev IMG_DIGEST : Nat := 0x0C07
/-- `E_TREE_NO_SOURCE`. -/
abbrev TREE_NO_SOURCE : Nat := 0x0C08
/-- `E_ROUTE_REUSE`. -/
abbrev ROUTE_REUSE : Nat := 0x0C09
/-- `E_JOIN_FIRMWARE`. -/
abbrev JOIN_FIRMWARE : Nat := 0x0C0A
/-- `E_JOIN_CLASS`. -/
abbrev JOIN_CLASS : Nat := 0x0C0B
/-- `E_JOIN_CAPACITY`. -/
abbrev JOIN_CAPACITY : Nat := 0x0C0C
/-- `E_JOIN_CONFIG`. -/
abbrev JOIN_CONFIG : Nat := 0x0C0D
/-- `E_JOIN_TIME`. -/
abbrev JOIN_TIME : Nat := 0x0C0E
/-- `E_IV_SPENT`. -/
abbrev IV_SPENT : Nat := 0x0C0F
/-- `E_KEY_EPOCH`. -/
abbrev KEY_EPOCH : Nat := 0x0C10
/-- `E_RED_HALTED`. -/
abbrev RED_HALTED : Nat := 0x0D09
/-- `E_RED_STEP`. -/
abbrev RED_STEP : Nat := 0x0D02
/-- `E_RED_TAG`. -/
abbrev RED_TAG : Nat := 0x0D01
/-- `E_RED_CHAIN`. -/
abbrev RED_CHAIN : Nat := 0x0D03
/-- `E_RED_DUP`. -/
abbrev RED_DUP : Nat := 0x0D04
/-- `E_RED_RESIDUE`. -/
abbrev RED_RESIDUE : Nat := 0x0D05
/-- `E_RED_HOPS`. -/
abbrev RED_HOPS : Nat := 0x0D06
/-- `E_RED_RX_SMALL`. -/
abbrev RED_RX_SMALL : Nat := 0x0D07
/-- `E_RED_CHAIN_CFG`. -/
abbrev RED_CHAIN_CFG : Nat := 0x0D08
/-- `E_CKPT_DESC`. -/
abbrev CKPT_DESC : Nat := 0x0E01
/-- `E_CKPT_SHAPE`. -/
abbrev CKPT_SHAPE : Nat := 0x0E02
/-- `E_CKPT_NO_MANIFEST`. -/
abbrev CKPT_NO_MANIFEST : Nat := 0x0E03
/-- `E_CKPT_SIG`. -/
abbrev CKPT_SIG : Nat := 0x0E04
/-- `E_CKPT_DIGEST`. -/
abbrev CKPT_DIGEST : Nat := 0x0E05
/-- `E_CKPT_STEP_MIX`. -/
abbrev CKPT_STEP_MIX : Nat := 0x0E06
/-- `E_CKPT_PROMOTE`. -/
abbrev CKPT_PROMOTE : Nat := 0x0E07
/-- `E_CKPT_POOL`. -/
abbrev CKPT_POOL : Nat := 0x0E08
/-- `E_CKPT_ADOPT`. -/
abbrev CKPT_ADOPT : Nat := 0x0E09
/-- `E_CAP_SEQ`. -/
abbrev CAP_SEQ : Nat := 0x0F01
/-- `E_SITE_STATE`. -/
abbrev SITE_STATE : Nat := 0x0F02
/-- `E_TIME_STEP`. -/
abbrev TIME_STEP : Nat := 0x1001
/-- `E_FW_SIG`. -/
abbrev FW_SIG : Nat := 0x1101
/-- `E_FW_ROLLBACK`. -/
abbrev FW_ROLLBACK : Nat := 0x1102
/-- `E_REC_SIG`. -/
abbrev REC_SIG : Nat := 0x1103
/-- `E_REC_REPLAY`. -/
abbrev REC_REPLAY : Nat := 0x1104
/-- `E_PRES_TIMEOUT`. -/
abbrev PRES_TIMEOUT : Nat := 0x1105
/-- `E_PRES_BUSY`. -/
abbrev PRES_BUSY : Nat := 0x1106
/-- `E_PRES_JOB`. -/
abbrev PRES_JOB : Nat := 0x1107
/-- `E_PRES_SIG`. -/
abbrev PRES_SIG : Nat := 0x1108
/-- `E_MGMT_ROLE`. -/
abbrev MGMT_ROLE : Nat := 0x1109
/-- `E_MGMT_FORMAT`. -/
abbrev MGMT_FORMAT : Nat := 0x110A
/-- `E_EVT_GAP`. -/
abbrev EVT_GAP : Nat := 0x110B
/-- `E_RIM_TRAIN`. -/
abbrev RIM_TRAIN : Nat := 0x1202
/-- `E_JOIN_CFG`. -/
abbrev JOIN_CFG : Nat := 0x1203
/-- `E_RUNOUT_ACTIVE`. -/
abbrev RUNOUT_ACTIVE : Nat := 0x1201

end E

namespace EV

/-- `EV_NO_COMPUTE`. -/
abbrev NO_COMPUTE : Nat := 0x0201
/-- `EV_SPARE_LOW`. -/
abbrev SPARE_LOW : Nat := 0x0202
/-- `EV_ADDR_CFG_LOCKED`. -/
abbrev ADDR_CFG_LOCKED : Nat := 0x0203
/-- `EV_CORE_REMAP`. -/
abbrev CORE_REMAP : Nat := 0x0204
/-- `EV_ENGINE_DEGRADED`. -/
abbrev ENGINE_DEGRADED : Nat := 0x0205
/-- `EV_CORE_CFG_LOCKED`. -/
abbrev CORE_CFG_LOCKED : Nat := 0x0301
/-- `EV_CTX_FAULT`. -/
abbrev CTX_FAULT : Nat := 0x0302
/-- `EV_STREAM_HALT`. -/
abbrev STREAM_HALT : Nat := 0x0801
/-- `EV_EXEC_CFG_LOCKED`. -/
abbrev EXEC_CFG_LOCKED : Nat := 0x0901
/-- `EV_PLAN_REFUSED`. -/
abbrev PLAN_REFUSED : Nat := 0x0902
/-- `EV_LEAVE_REFUSED`. -/
abbrev LEAVE_REFUSED : Nat := 0x0903
/-- `EV_FABRIC_PRESSURE`. -/
abbrev FABRIC_PRESSURE : Nat := 0x0A01
/-- `EV_FABRIC_BAD_PKT`. -/
abbrev FABRIC_BAD_PKT : Nat := 0x0A02
/-- `EV_LINK_UP`. -/
abbrev LINK_UP : Nat := 0x0B01
/-- `EV_LINK_DOWN`. -/
abbrev LINK_DOWN : Nat := 0x0B02
/-- `EV_LINK_DEGRADED`. -/
abbrev LINK_DEGRADED : Nat := 0x0B03
/-- `EV_LINK_TRAIN_FAIL`. -/
abbrev LINK_TRAIN_FAIL : Nat := 0x0B04
/-- `EV_LINK_BAD_PKT`. -/
abbrev LINK_BAD_PKT : Nat := 0x0B05
/-- `EV_PEER_LOST`. -/
abbrev PEER_LOST : Nat := 0x0B06
/-- `EV_LOAD_REFUSED`. -/
abbrev LOAD_REFUSED : Nat := 0x0C01
/-- `EV_KEY_REFUSED`. -/
abbrev KEY_REFUSED : Nat := 0x0C02
/-- `EV_WSEG_REJECT`. -/
abbrev WSEG_REJECT : Nat := 0x0C03
/-- `EV_WSEG_FAIL`. -/
abbrev WSEG_FAIL : Nat := 0x0C04
/-- `EV_FWD_DROP`. -/
abbrev FWD_DROP : Nat := 0x0C05
/-- `EV_TREE_REPAIR`. -/
abbrev TREE_REPAIR : Nat := 0x0C06
/-- `EV_JOB_READY`. -/
abbrev JOB_READY : Nat := 0x0C07
/-- `EV_JOIN_REFUSED`. -/
abbrev JOIN_REFUSED : Nat := 0x0C08
/-- `EV_RED_RESIDUE`. -/
abbrev RED_RESIDUE : Nat := 0x0D01
/-- `EV_RED_REFUSED`. -/
abbrev RED_REFUSED : Nat := 0x0D02
/-- `EV_GRAD_POISON`. -/
abbrev GRAD_POISON : Nat := 0x0D03
/-- `EV_STEP_POISON`. -/
abbrev STEP_POISON : Nat := 0x0D04
/-- `EV_JOB_HALT`. -/
abbrev JOB_HALT : Nat := 0x0D05
/-- `EV_RED_ABANDON`. -/
abbrev RED_ABANDON : Nat := 0x0D06
/-- `EV_CKPT_REFUSED`. -/
abbrev CKPT_REFUSED : Nat := 0x0E01
/-- `EV_CKPT_MIRROR_FAIL`. -/
abbrev CKPT_MIRROR_FAIL : Nat := 0x0E02
/-- `EV_CKPT_ROLLBACK`. -/
abbrev CKPT_ROLLBACK : Nat := 0x0E03
/-- `EV_SHADOW_DIVERGE`. -/
abbrev SHADOW_DIVERGE : Nat := 0x0E04
/-- `EV_PROMOTED`. -/
abbrev PROMOTED : Nat := 0x0E05
/-- `EV_FREEZE_START`. -/
abbrev FREEZE_START : Nat := 0x0E06
/-- `EV_FREEZE_DONE`. -/
abbrev FREEZE_DONE : Nat := 0x0E07
/-- `EV_FREEZE_FAIL`. -/
abbrev FREEZE_FAIL : Nat := 0x0E08
/-- `EV_FREEZE_OVERLAP`. -/
abbrev FREEZE_OVERLAP : Nat := 0x0E09
/-- `EV_EXPOSURE_END`. -/
abbrev EXPOSURE_END : Nat := 0x0E0A
/-- `EV_CKPT_SHARD_REJECT`. -/
abbrev CKPT_SHARD_REJECT : Nat := 0x0E0B
/-- `EV_CAP_CLAMP`. -/
abbrev CAP_CLAMP : Nat := 0x0F01
/-- `EV_CAP_LEASE`. -/
abbrev CAP_LEASE : Nat := 0x0F02
/-- `EV_CAP_UNMET`. -/
abbrev CAP_UNMET : Nat := 0x0F03
/-- `EV_HOLD_ENTER`. -/
abbrev HOLD_ENTER : Nat := 0x0F04
/-- `EV_HOLD_EXIT`. -/
abbrev HOLD_EXIT : Nat := 0x0F05
/-- `EV_CREVASSE`. -/
abbrev CREVASSE : Nat := 0x0F06
/-- `EV_PHASE_LOST`. -/
abbrev PHASE_LOST : Nat := 0x0F07
/-- `EV_SITE_SHORT`. -/
abbrev SITE_SHORT : Nat := 0x0F08
/-- `EV_FIELD_SHORT`. -/
abbrev FIELD_SHORT : Nat := 0x0F09
/-- `EV_INPUT_FAIL`. -/
abbrev INPUT_FAIL : Nat := 0x0F0A
/-- `EV_THERMAL_LIMIT`. -/
abbrev THERMAL_LIMIT : Nat := 0x0F0B
/-- `EV_THERMAL_TRIP`. -/
abbrev THERMAL_TRIP : Nat := 0x0F0C
/-- `EV_COOLANT_FLOW`. -/
abbrev COOLANT_FLOW : Nat := 0x0F0D
/-- `EV_COOLANT_RANGE`. -/
abbrev COOLANT_RANGE : Nat := 0x0F0E
/-- `EV_COOLANT_LEAK`. -/
abbrev COOLANT_LEAK : Nat := 0x0F0F
/-- `EV_CLK_REF_FAIL`. -/
abbrev CLK_REF_FAIL : Nat := 0x1001
/-- `EV_TIME_LOCK`. -/
abbrev TIME_LOCK : Nat := 0x1002
/-- `EV_TIME_HOLDOVER`. -/
abbrev TIME_HOLDOVER : Nat := 0x1003
/-- `EV_TIME_UNSYNC`. -/
abbrev TIME_UNSYNC : Nat := 0x1004
/-- `EV_WEAR`. -/
abbrev WEAR : Nat := 0x1005
/-- `EV_WEAR_SITE_END`. -/
abbrev WEAR_SITE_END : Nat := 0x1006
/-- `EV_WEAR_FORECAST`. -/
abbrev WEAR_FORECAST : Nat := 0x1007
/-- `EV_LODGE_RESTART`. -/
abbrev LODGE_RESTART : Nat := 0x1101
/-- `EV_MGMT_AUTH_FAIL`. -/
abbrev MGMT_AUTH_FAIL : Nat := 0x1102
/-- `EV_BOOT_FALLBACK`. -/
abbrev BOOT_FALLBACK : Nat := 0x1103
/-- `EV_REC_FAIL`. -/
abbrev REC_FAIL : Nat := 0x1104
/-- `EV_PRES_DONE`. -/
abbrev PRES_DONE : Nat := 0x1105
/-- `EV_PRES_TIMEOUT`. -/
abbrev PRES_TIMEOUT : Nat := 0x1106
/-- `EV_PRES_BLOCK`. -/
abbrev PRES_BLOCK : Nat := 0x1107
/-- `EV_COUNTER_SAT`. -/
abbrev COUNTER_SAT : Nat := 0x1108
/-- `EV_BOOT_STAGE`. -/
abbrev BOOT_STAGE : Nat := 0x1201
/-- `EV_SELFTEST_DONE`. -/
abbrev SELFTEST_DONE : Nat := 0x1202
/-- `EV_ENGINE_READY`. -/
abbrev ENGINE_READY : Nat := 0x1203
/-- `EV_RUNOUT_REQ`. -/
abbrev RUNOUT_REQ : Nat := 0x1204
/-- `EV_RUNOUT_BEGIN`. -/
abbrev RUNOUT_BEGIN : Nat := 0x1205
/-- `EV_RUNOUT_DONE`. -/
abbrev RUNOUT_DONE : Nat := 0x1206
/-- `EV_EJECT`. -/
abbrev EJECT : Nat := 0x1207

end EV

end Sys2Proof.Machine
end

