-- ==== Sys2Proof/Machine/Regs.lean ====
section
/-! DEFINITION. The register map of spec/19 (R427-R441, Tables 19-1 to 19-12) as data: one row per field, with its bits,
access code (spec/00 Table 00-2), reset value, lock mark (R431) and array strides; and, in `F`, the place of each field by
its name in the manual. A row's `maxv` is the greatest encoding that is not reserved, for an enumerated field (R8). -/

namespace Sys2Proof.Machine

/-- Access codes of a field (spec/00 R9; spec/19 R430): `arg` is a write-only argument word that an action reads later,
`act` a write-only action, `ctr` a counter's value, `ctl` the sat and clr bits of its control word. -/
inductive Acc where
  | rw | ro | arg | act | w1c | rs | ctr | ctl
  deriving DecidableEq, Repr

/-- The marks (J) and (F) of a field (spec/19 R431). -/
inductive Lock where
  | none | job | fab
  deriving DecidableEq, Repr

/-- One field of the register map: the address of its first instance, its bits, its rules and its instances. -/
structure Row where
  base : Nat
  lo : Nat
  w : Nat
  acc : Acc
  rst : Nat
  lock : Lock
  ostride : Nat
  ocount : Nat
  istride : Nat
  icount : Nat
  maxv : Option Nat
  deriving DecidableEq, Repr

/-- The place of one field: the address of its word, its lowest bit and its width. -/
structure Fld where
  addr : Nat
  lo : Nat
  w : Nat
  deriving DecidableEq, Repr

namespace Table

/-- Rows of the dev block, part 0 (spec/19 R433). -/
def dev0 : List Row := [
  ⟨0x30000000000, 16, 32, .ro, 1, .none, 0, 1, 0, 1, none⟩ /- DEV_ID_bc -/,
  ⟨0x30000000000, 0, 8, .ro, 176, .none, 0, 1, 0, 1, none⟩ /- DEV_ID_stepping -/,
  ⟨0x30000000008, 0, 64, .ro, 0, .none, 0, 1, 0, 1, none⟩ /- DEV_FW_VERSION -/,
  ⟨0x30000000010, 1, 1, .rw, 0, .none, 0, 1, 0, 1, none⟩ /- DEV_MODE_CFG_keep_half -/,
  ⟨0x30000000010, 0, 1, .rw, 0, .none, 0, 1, 0, 1, none⟩ /- DEV_MODE_CFG_force_half -/,
  ⟨0x30000000018, 3, 1, .ro, 0, .none, 0, 1, 0, 1, none⟩ /- DEV_MODE_STS_no_compute -/,
  ⟨0x30000000018, 2, 1, .ro, 0, .none, 0, 1, 0, 1, none⟩ /- DEV_MODE_STS_degraded -/,
  ⟨0x30000000018, 1, 1, .ro, 0, .none, 0, 1, 0, 1, none⟩ /- DEV_MODE_STS_half -/,
  ⟨0x30000000018, 0, 1, .ro, 0, .none, 0, 1, 0, 1, none⟩ /- DEV_MODE_STS_half_mode -/,
  ⟨0x30000000020, 0, 22, .rw, 0x3fffff, .fab, 0, 1, 0, 1, none⟩ /- DEV_NODE_ID_node_id -/,
  ⟨0x30000000028, 0, 1, .rw, 0, .fab, 0, 1, 0, 1, none⟩ /- DEV_ADDR_CFG_node_format -/,
  ⟨0x30000000030, 12, 30, .rw, 0, .job, 0, 1, 0, 1, none⟩ /- DEV_FLAT_TABLE_BASE -/,
  ⟨0x30000000038, 0, 23, .rw, 0, .job, 0, 1, 0, 1, none⟩ /- DEV_FLAT_TABLE_LEN -/,
  ⟨0x30000000040, 0, 2, .rw, 0, .job, 0, 1, 0, 1, some 1⟩ /- DEV_EXEC_CFG_mode -/,
  ⟨0x30000000048, 32, 6, .rw, 0, .job, 0, 1, 0, 1, none⟩ /- DEV_HIER_GRP_g_unit -/,
  ⟨0x30000000048, 24, 6, .rw, 0, .job, 0, 1, 0, 1, none⟩ /- DEV_HIER_GRP_g_slot -/,
  ⟨0x30000000048, 16, 6, .rw, 0, .job, 0, 1, 0, 1, none⟩ /- DEV_HIER_GRP_g_rack -/,
  ⟨0x30000000048, 8, 6, .rw, 0, .job, 0, 1, 0, 1, none⟩ /- DEV_HIER_GRP_g_row -/,
  ⟨0x30000000048, 0, 6, .rw, 0, .job, 0, 1, 0, 1, none⟩ /- DEV_HIER_GRP_g_hall -/,
  ⟨0x30000000050, 0, 1, .act, 0, .none, 0, 1, 0, 1, none⟩ /- DEV_LGRP_CTL_admit -/,
  ⟨0x30000000058, 0, 20, .rw, 1000, .none, 0, 1, 0, 1, none⟩ /- DEV_RSP_TMO_us -/,
  ⟨0x30000000060, 0, 14, .rw, 1000, .none, 0, 1, 0, 1, none⟩ /- DEV_LODGE_WDT_ms -/,
  ⟨0x30000000068, 0, 1, .act, 0, .none, 0, 1, 0, 1, none⟩ /- DEV_LODGE_CTL_restart -/,
  ⟨0x30000000070, 32, 4, .ro, 0, .none, 0, 1, 0, 1, none⟩ /- DEV_BOOT_STS_stack -/,
  ⟨0x30000000070, 16, 16, .ro, 0, .none, 0, 1, 0, 1, none⟩ /- DEV_BOOT_STS_code -/,
  ⟨0x30000000070, 0, 4, .ro, 0, .none, 0, 1, 0, 1, none⟩ /- DEV_BOOT_STS_stage -/,
  ⟨0x30000000078, 0, 1, .act, 0, .none, 0, 1, 0, 1, none⟩ /- DEV_JOIN_CTL_join -/,
  ⟨0x30000000080, 0, 1, .act, 0, .none, 0, 1, 0, 1, none⟩ /- DEV_RESET_CTL_warm -/,
  ⟨0x30000000088, 1, 1, .act, 0, .none, 0, 1, 0, 1, none⟩ /- DEV_RUNOUT_CTL_now -/,
  ⟨0x30000000088, 0, 1, .act, 0, .none, 0, 1, 0, 1, none⟩ /- DEV_RUNOUT_CTL_start -/]

/-- Rows of the dev block, part 1 (spec/19 R433). -/
def dev1 : List Row := [
  ⟨0x30000000090, 0, 4, .ro, 0, .none, 0, 1, 0, 1, none⟩ /- DEV_RUNOUT_STS_stage -/,
  ⟨0x30000000098, 32, 22, .rw, 0x1d4c0, .none, 0, 1, 0, 1, none⟩ /- DEV_RUNOUT_CFG_drain_ms -/,
  ⟨0x30000000098, 0, 20, .rw, 60000, .none, 0, 1, 0, 1, none⟩ /- DEV_RUNOUT_CFG_wait_ms -/,
  ⟨0x300000000A0, 0, 64, .ro, 0, .none, 0, 1, 0, 1, none⟩ /- DEV_TIME -/,
  ⟨0x300000000A8, 0, 64, .act, 0, .none, 0, 1, 0, 1, none⟩ /- DEV_TIME_SET -/,
  ⟨0x300000000B0, 0, 64, .ctr, 0, .none, 0, 1, 0, 1, none⟩ /- DEV_LATE_RSP_CNT -/,
  ⟨0x300000000B8, 0, 1, .ctl, 0, .none, 0, 1, 0, 1, none⟩ /- DEV_LATE_RSP_CNT_sat -/,
  ⟨0x300000000B8, 1, 1, .ctl, 0, .none, 0, 1, 0, 1, none⟩ /- DEV_LATE_RSP_CNT_clr -/,
  ⟨0x300000000B8, 2, 1, .rw, 0, .none, 0, 1, 0, 1, none⟩ /- DEV_LATE_RSP_CNT_ev_en -/,
  ⟨0x30000000100, 16, 1, .rw, 0, .job, 0, 1, 8, 12, none⟩ /- DEV_PG_VC_valid -/,
  ⟨0x30000000100, 0, 16, .rw, 0, .job, 0, 1, 8, 12, none⟩ /- DEV_PG_VC_group -/,
  ⟨0x30000000200, 63, 1, .rw, 0, .job, 0, 1, 16, 64, none⟩ /- DEV_NODE_OVR_valid -/,
  ⟨0x30000000200, 0, 22, .rw, 0, .job, 0, 1, 16, 64, none⟩ /- DEV_NODE_OVR_node -/,
  ⟨0x30000000208, 0, 64, .rw, 0, .job, 0, 1, 16, 64, none⟩ /- DEV_NODE_OVR_route -/,
  ⟨0x30000000600, 0, 32, .rw, 0, .job, 0, 1, 8, 64, none⟩ /- DEV_LGRP_MASK -/,
  ⟨0x30000000800, 63, 1, .rw, 0, .job, 0, 1, 8, 64, none⟩ /- DEV_HB_LIST_valid -/,
  ⟨0x30000000800, 0, 22, .rw, 0, .job, 0, 1, 8, 64, none⟩ /- DEV_HB_LIST_node -/,
  ⟨0x30000000A00, 12, 30, .rw, 0, .none, 0, 1, 32, 16, none⟩ /- DEV_INB_WIN_base -/,
  ⟨0x30000000A08, 12, 30, .rw, 0, .none, 0, 1, 32, 16, none⟩ /- DEV_INB_WIN_size -/,
  ⟨0x30000000A10, 32, 32, .rw, 0, .none, 0, 1, 32, 16, none⟩ /- DEV_INB_WIN_rkey -/,
  ⟨0x30000000A10, 3, 1, .rw, 0, .none, 0, 1, 32, 16, none⟩ /- DEV_INB_WIN_valid -/,
  ⟨0x30000000A10, 2, 1, .rw, 0, .none, 0, 1, 32, 16, none⟩ /- DEV_INB_WIN_atom -/,
  ⟨0x30000000A10, 1, 1, .rw, 0, .none, 0, 1, 32, 16, none⟩ /- DEV_INB_WIN_w -/,
  ⟨0x30000000A10, 0, 1, .rw, 0, .none, 0, 1, 32, 16, none⟩ /- DEV_INB_WIN_r -/]

/-- All rows of the dev block. -/
def dev : List Row := dev0 ++ dev1

/-- Rows of the field block, part 0 (spec/19 R434). -/
def field0 : List Row := [
  ⟨0x30001000000, 16, 1, .ro, 0, .none, 65536, 64, 0, 1, none⟩ /- FIELD_ID_half -/,
  ⟨0x30001000000, 12, 3, .ro, 0, .none, 65536, 64, 0, 1, none⟩ /- FIELD_ID_fy -/,
  ⟨0x30001000000, 8, 3, .ro, 0, .none, 65536, 64, 0, 1, none⟩ /- FIELD_ID_fx -/,
  ⟨0x30001000000, 0, 6, .ro, 0, .none, 65536, 64, 0, 1, none⟩ /- FIELD_ID_f -/,
  ⟨0x30001000040, 0, 64, .ctr, 0, .none, 65536, 64, 16, 4, none⟩ /- FIELD_SEAM_PRESS_CNT -/,
  ⟨0x30001000048, 0, 1, .ctl, 0, .none, 65536, 64, 16, 4, none⟩ /- FIELD_SEAM_PRESS_CNT_sat -/,
  ⟨0x30001000048, 1, 1, .ctl, 0, .none, 65536, 64, 16, 4, none⟩ /- FIELD_SEAM_PRESS_CNT_clr -/,
  ⟨0x30001000048, 2, 1, .rw, 0, .none, 65536, 64, 16, 4, none⟩ /- FIELD_SEAM_PRESS_CNT_ev_en -/]

/-- All rows of the field block. -/
def field : List Row := field0

/-- Rows of the coreMap block, part 0 (spec/19 R434). -/
def coreMap0 : List Row := [
  ⟨0x30002000000, 0, 11, .ro, 1024, .none, 0, 1, 0, 1, none⟩ /- CORE_MAP_SPARE_CNT -/,
  ⟨0x30002000008, 0, 11, .rw, 8, .none, 0, 1, 0, 1, none⟩ /- CORE_MAP_SPARE_WARN -/,
  ⟨0x30002000010, 0, 64, .ctr, 0, .none, 0, 1, 0, 1, none⟩ /- CORE_MAP_ABSORB_CNT -/,
  ⟨0x30002000018, 0, 1, .ctl, 0, .none, 0, 1, 0, 1, none⟩ /- CORE_MAP_ABSORB_CNT_sat -/,
  ⟨0x30002000018, 1, 1, .ctl, 0, .none, 0, 1, 0, 1, none⟩ /- CORE_MAP_ABSORB_CNT_clr -/,
  ⟨0x30002000018, 2, 1, .rw, 0, .none, 0, 1, 0, 1, none⟩ /- CORE_MAP_ABSORB_CNT_ev_en -/,
  ⟨0x30002001000, 16, 10, .ro, 0, .none, 0, 1, 8, 1024, none⟩ /- CORE_MAP_SITE_STATE_core -/,
  ⟨0x30002001000, 0, 2, .ro, 1, .none, 0, 1, 8, 1024, none⟩ /- CORE_MAP_SITE_STATE_state -/,
  ⟨0x30002004000, 0, 10, .ro, 0, .none, 0, 1, 8, 896, none⟩ /- CORE_MAP_ENTRY_site -/]

/-- All rows of the coreMap block. -/
def coreMap : List Row := coreMap0

/-- Rows of the fabric block, part 0 (spec/19 R434). -/
def fabric0 : List Row := [
  ⟨0x30003000000, 8, 8, .rw, 192, .none, 0, 1, 0, 1, none⟩ /- FABRIC_PRESS_CFG_thr0 -/,
  ⟨0x30003000000, 16, 8, .rw, 192, .none, 0, 1, 0, 1, none⟩ /- FABRIC_PRESS_CFG_thr1 -/,
  ⟨0x30003000000, 24, 8, .rw, 192, .none, 0, 1, 0, 1, none⟩ /- FABRIC_PRESS_CFG_thr2 -/,
  ⟨0x30003000000, 32, 8, .rw, 192, .none, 0, 1, 0, 1, none⟩ /- FABRIC_PRESS_CFG_thr3 -/,
  ⟨0x30003000000, 40, 8, .rw, 192, .none, 0, 1, 0, 1, none⟩ /- FABRIC_PRESS_CFG_thr4 -/,
  ⟨0x30003000000, 0, 5, .rw, 20, .none, 0, 1, 0, 1, none⟩ /- FABRIC_PRESS_CFG_win_log2 -/,
  ⟨0x30003000100, 0, 64, .ctr, 0, .none, 0, 1, 16, 5, none⟩ /- FABRIC_PRESS_CNT -/,
  ⟨0x30003000108, 0, 1, .ctl, 0, .none, 0, 1, 16, 5, none⟩ /- FABRIC_PRESS_CNT_sat -/,
  ⟨0x30003000108, 1, 1, .ctl, 0, .none, 0, 1, 16, 5, none⟩ /- FABRIC_PRESS_CNT_clr -/,
  ⟨0x30003000108, 2, 1, .rw, 0, .none, 0, 1, 16, 5, none⟩ /- FABRIC_PRESS_CNT_ev_en -/,
  ⟨0x30003000200, 0, 64, .ctr, 0, .none, 0, 1, 16, 5, none⟩ /- FABRIC_FLIT_CNT -/,
  ⟨0x30003000208, 0, 1, .ctl, 0, .none, 0, 1, 16, 5, none⟩ /- FABRIC_FLIT_CNT_sat -/,
  ⟨0x30003000208, 1, 1, .ctl, 0, .none, 0, 1, 16, 5, none⟩ /- FABRIC_FLIT_CNT_clr -/,
  ⟨0x30003000208, 2, 1, .rw, 0, .none, 0, 1, 16, 5, none⟩ /- FABRIC_FLIT_CNT_ev_en -/,
  ⟨0x30003000300, 0, 64, .ctr, 0, .none, 0, 1, 0, 1, none⟩ /- FABRIC_PRESS_SUPP_CNT -/,
  ⟨0x30003000308, 0, 1, .ctl, 0, .none, 0, 1, 0, 1, none⟩ /- FABRIC_PRESS_SUPP_CNT_sat -/,
  ⟨0x30003000308, 1, 1, .ctl, 0, .none, 0, 1, 0, 1, none⟩ /- FABRIC_PRESS_SUPP_CNT_clr -/,
  ⟨0x30003000308, 2, 1, .rw, 0, .none, 0, 1, 0, 1, none⟩ /- FABRIC_PRESS_SUPP_CNT_ev_en -/,
  ⟨0x30003000310, 0, 64, .ctr, 0, .none, 0, 1, 0, 1, none⟩ /- FABRIC_BAD_PKT_CNT -/,
  ⟨0x30003000318, 0, 1, .ctl, 0, .none, 0, 1, 0, 1, none⟩ /- FABRIC_BAD_PKT_CNT_sat -/,
  ⟨0x30003000318, 1, 1, .ctl, 0, .none, 0, 1, 0, 1, none⟩ /- FABRIC_BAD_PKT_CNT_clr -/,
  ⟨0x30003000318, 2, 1, .rw, 0, .none, 0, 1, 0, 1, none⟩ /- FABRIC_BAD_PKT_CNT_ev_en -/]

/-- All rows of the fabric block. -/
def fabric : List Row := fabric0

/-- Rows of the rim block, part 0 (spec/19 R434). -/
def rim0 : List Row := [
  ⟨0x30004000000, 8, 3, .ro, 0, .none, 0, 1, 0, 1, none⟩ /- RIM_INTERLEAVE_CFG_gran_active -/,
  ⟨0x30004000000, 0, 3, .rw, 0, .none, 0, 1, 0, 1, some 3⟩ /- RIM_INTERLEAVE_CFG_gran -/,
  ⟨0x30004000100, 8, 1, .ro, 0, .none, 0, 1, 8, 16, none⟩ /- RIM_STACK_STS_stored -/,
  ⟨0x30004000100, 0, 2, .ro, 0, .none, 0, 1, 8, 16, none⟩ /- RIM_STACK_STS_state -/]

/-- All rows of the rim block. -/
def rim : List Row := rim0

/-- Rows of the link block, part 0 (spec/19 R435). -/
def link0 : List Row := [
  ⟨0x30005000000, 8, 1, .rw, 1, .none, 65536, 32, 0, 1, none⟩ /- LINK_CFG_auto_retrain -/,
  ⟨0x30005000000, 4, 2, .rw, 0, .none, 65536, 32, 0, 1, some 2⟩ /- LINK_CFG_eth_if -/,
  ⟨0x30005000000, 0, 2, .rw, 0, .none, 65536, 32, 0, 1, some 2⟩ /- LINK_CFG_mode -/,
  ⟨0x30005000008, 32, 16, .ro, 0, .none, 65536, 32, 0, 1, none⟩ /- LINK_STS_code -/,
  ⟨0x30005000008, 18, 2, .ro, 0, .none, 65536, 32, 0, 1, none⟩ /- LINK_STS_port_b -/,
  ⟨0x30005000008, 16, 2, .ro, 0, .none, 65536, 32, 0, 1, none⟩ /- LINK_STS_port_a -/,
  ⟨0x30005000008, 8, 5, .ro, 0, .none, 65536, 32, 0, 1, none⟩ /- LINK_STS_width -/,
  ⟨0x30005000008, 0, 3, .ro, 0, .none, 65536, 32, 0, 1, none⟩ /- LINK_STS_state -/,
  ⟨0x30005000010, 0, 1, .act, 0, .none, 65536, 32, 0, 1, none⟩ /- LINK_CTL_retrain -/,
  ⟨0x30005000018, 0, 16, .rw, 10000, .none, 65536, 32, 0, 1, none⟩ /- LINK_TRAIN_TMO_ms -/,
  ⟨0x30005000020, 0, 16, .rw, 4096, .none, 65536, 32, 0, 1, none⟩ /- LINK_FEC_CFG_lane_thr -/,
  ⟨0x30005000028, 0, 20, .rw, 1000, .none, 65536, 32, 0, 1, none⟩ /- LINK_CREDIT_TMO_us -/,
  ⟨0x30005000030, 0, 48, .ro, 0, .none, 65536, 32, 8, 2, none⟩ /- LINK_MAC -/,
  ⟨0x30005000100, 0, 13, .rw, 16, .none, 65536, 32, 0, 1, none⟩ /- LINK_VC_CREDIT0_min -/,
  ⟨0x30005000108, 0, 13, .rw, 256, .none, 65536, 32, 0, 1, none⟩ /- LINK_VC_CREDIT1_min -/,
  ⟨0x30005000110, 0, 13, .rw, 512, .none, 65536, 32, 0, 1, none⟩ /- LINK_VC_CREDIT2_min -/,
  ⟨0x30005000118, 0, 13, .rw, 512, .none, 65536, 32, 0, 1, none⟩ /- LINK_VC_CREDIT3_min -/,
  ⟨0x30005000120, 0, 13, .rw, 128, .none, 65536, 32, 8, 12, none⟩ /- LINK_VC_CREDIT4_min -/,
  ⟨0x30005000200, 0, 64, .ctr, 0, .none, 65536, 32, 0, 1, none⟩ /- LINK_FEC_CORR_CNT -/,
  ⟨0x30005000208, 0, 1, .ctl, 0, .none, 65536, 32, 0, 1, none⟩ /- LINK_FEC_CORR_CNT_sat -/,
  ⟨0x30005000208, 1, 1, .ctl, 0, .none, 65536, 32, 0, 1, none⟩ /- LINK_FEC_CORR_CNT_clr -/,
  ⟨0x30005000208, 2, 1, .rw, 0, .none, 65536, 32, 0, 1, none⟩ /- LINK_FEC_CORR_CNT_ev_en -/,
  ⟨0x30005000210, 0, 64, .ctr, 0, .none, 65536, 32, 0, 1, none⟩ /- LINK_FEC_UNCORR_CNT -/,
  ⟨0x30005000218, 0, 1, .ctl, 0, .none, 65536, 32, 0, 1, none⟩ /- LINK_FEC_UNCORR_CNT_sat -/,
  ⟨0x30005000218, 1, 1, .ctl, 0, .none, 65536, 32, 0, 1, none⟩ /- LINK_FEC_UNCORR_CNT_clr -/,
  ⟨0x30005000218, 2, 1, .rw, 0, .none, 65536, 32, 0, 1, none⟩ /- LINK_FEC_UNCORR_CNT_ev_en -/,
  ⟨0x30005000220, 0, 64, .ctr, 0, .none, 65536, 32, 0, 1, none⟩ /- LINK_REPLAY_CNT -/,
  ⟨0x30005000228, 0, 1, .ctl, 0, .none, 65536, 32, 0, 1, none⟩ /- LINK_REPLAY_CNT_sat -/,
  ⟨0x30005000228, 1, 1, .ctl, 0, .none, 65536, 32, 0, 1, none⟩ /- LINK_REPLAY_CNT_clr -/,
  ⟨0x30005000228, 2, 1, .rw, 0, .none, 65536, 32, 0, 1, none⟩ /- LINK_REPLAY_CNT_ev_en -/]

/-- Rows of the link block, part 1 (spec/19 R435). -/
def link1 : List Row := [
  ⟨0x30005000230, 0, 64, .ctr, 0, .none, 65536, 32, 0, 1, none⟩ /- LINK_BAD_PKT_CNT -/,
  ⟨0x30005000238, 0, 1, .ctl, 0, .none, 65536, 32, 0, 1, none⟩ /- LINK_BAD_PKT_CNT_sat -/,
  ⟨0x30005000238, 1, 1, .ctl, 0, .none, 65536, 32, 0, 1, none⟩ /- LINK_BAD_PKT_CNT_clr -/,
  ⟨0x30005000238, 2, 1, .rw, 0, .none, 65536, 32, 0, 1, none⟩ /- LINK_BAD_PKT_CNT_ev_en -/,
  ⟨0x30005008000, 32, 32, .rw, 0, .none, 65536, 32, 64, 256, none⟩ /- LINK_QP_rkey -/,
  ⟨0x30005008000, 24, 8, .rw, 64, .none, 65536, 32, 64, 256, none⟩ /- LINK_QP_cc_step -/,
  ⟨0x30005008000, 16, 5, .rw, 14, .none, 65536, 32, 64, 256, none⟩ /- LINK_QP_timeout -/,
  ⟨0x30005008000, 8, 8, .rw, 7, .none, 65536, 32, 64, 256, none⟩ /- LINK_QP_retry -/,
  ⟨0x30005008000, 4, 2, .rw, 2, .none, 65536, 32, 64, 256, some 2⟩ /- LINK_QP_mtu -/,
  ⟨0x30005008000, 1, 3, .rw, 0, .none, 65536, 32, 64, 256, some 4⟩ /- LINK_QP_state -/,
  ⟨0x30005008000, 0, 1, .rw, 0, .none, 65536, 32, 64, 256, none⟩ /- LINK_QP_port -/,
  ⟨0x30005008008, 0, 64, .rw, 0, .none, 65536, 32, 64, 256, none⟩ /- LINK_QP_remote_base -/,
  ⟨0x30005008010, 0, 24, .rw, 0, .none, 65536, 32, 64, 256, none⟩ /- LINK_QP_dest_qp -/,
  ⟨0x30005008018, 0, 64, .rw, 0, .none, 65536, 32, 64, 256, none⟩ /- LINK_QP_dest_ip -/,
  ⟨0x30005008020, 0, 64, .rw, 0, .none, 65536, 32, 64, 256, none⟩ /- LINK_QP_dest_ip -/,
  ⟨0x30005008028, 48, 16, .rw, 0, .none, 65536, 32, 64, 256, none⟩ /- LINK_QP_udp_sport -/,
  ⟨0x30005008028, 0, 48, .rw, 0, .none, 65536, 32, 64, 256, none⟩ /- LINK_QP_next_hop -/,
  ⟨0x30005008030, 0, 32, .rw, 1000, .none, 65536, 32, 64, 256, none⟩ /- LINK_QP_cc_recover_us -/]

/-- All rows of the link block. -/
def link : List Row := link0 ++ link1

/-- Rows of the wstream block, part 0 (spec/19 R436). -/
def wstream0 : List Row := [
  ⟨0x30006000000, 0, 64, .rw, 0, .none, 0, 1, 0, 1, none⟩ /- WSTREAM_JOB_job_id -/,
  ⟨0x30006000008, 63, 1, .act, 0, .none, 0, 1, 0, 1, none⟩ /- WSTREAM_JOB_go -/,
  ⟨0x30006000008, 16, 1, .rw, 0, .none, 0, 1, 0, 1, none⟩ /- WSTREAM_JOB_half -/,
  ⟨0x30006000008, 0, 10, .rw, 0, .none, 0, 1, 0, 1, none⟩ /- WSTREAM_JOB_cores -/,
  ⟨0x30006000010, 0, 64, .rw, 0, .none, 0, 1, 8, 8, none⟩ /- WSTREAM_JOB_digest -/,
  ⟨0x30006000060, 8, 1, .act, 0, .none, 0, 1, 0, 1, none⟩ /- WSTREAM_JOB_CTL_end -/,
  ⟨0x30006000060, 0, 1, .rw, 0, .none, 0, 1, 0, 1, none⟩ /- WSTREAM_JOB_CTL_route_reuse -/,
  ⟨0x30006000068, 16, 16, .ro, 0, .none, 0, 1, 0, 1, none⟩ /- WSTREAM_JOB_STS_code -/,
  ⟨0x30006000068, 1, 1, .ro, 0, .none, 0, 1, 0, 1, none⟩ /- WSTREAM_JOB_STS_starting -/,
  ⟨0x30006000068, 0, 1, .ro, 0, .none, 0, 1, 0, 1, none⟩ /- WSTREAM_JOB_STS_ready -/,
  ⟨0x30006000070, 49, 1, .ro, 0, .none, 0, 1, 0, 1, none⟩ /- WSTREAM_KEY_STS_valid1 -/,
  ⟨0x30006000070, 48, 1, .ro, 0, .none, 0, 1, 0, 1, none⟩ /- WSTREAM_KEY_STS_valid0 -/,
  ⟨0x30006000070, 32, 16, .ro, 0, .none, 0, 1, 0, 1, none⟩ /- WSTREAM_KEY_STS_epoch1 -/,
  ⟨0x30006000070, 16, 16, .ro, 0, .none, 0, 1, 0, 1, none⟩ /- WSTREAM_KEY_STS_epoch0 -/,
  ⟨0x30006000070, 0, 16, .ro, 0, .none, 0, 1, 0, 1, none⟩ /- WSTREAM_KEY_STS_code -/,
  ⟨0x30006000078, 0, 16, .rw, 1000, .none, 0, 1, 0, 1, none⟩ /- WSTREAM_KEY_TMO_ms -/,
  ⟨0x30006000080, 0, 64, .ro, 0, .none, 0, 1, 0, 1, none⟩ /- WSTREAM_IV_CTR -/,
  ⟨0x30006000088, 0, 42, .rw, 0, .job, 0, 1, 0, 1, none⟩ /- WSTREAM_PLAN_BASE -/,
  ⟨0x30006000090, 0, 17, .rw, 0, .job, 0, 1, 0, 1, none⟩ /- WSTREAM_PLAN_LEN -/,
  ⟨0x30006000098, 12, 30, .rw, 0, .job, 0, 1, 0, 1, none⟩ /- WSTREAM_RESV_BASE -/,
  ⟨0x300060000A0, 0, 16, .rw, 0, .job, 0, 1, 0, 1, none⟩ /- WSTREAM_RESV_LEN -/,
  ⟨0x300060000A8, 0, 1, .act, 0, .none, 0, 1, 0, 1, none⟩ /- WSTREAM_PLAN_CTL_load -/,
  ⟨0x300060000B0, 16, 1, .ro, 0, .none, 0, 1, 0, 1, none⟩ /- WSTREAM_PLAN_STS_loaded -/,
  ⟨0x300060000B0, 0, 16, .ro, 0, .none, 0, 1, 0, 1, none⟩ /- WSTREAM_PLAN_STS_code -/,
  ⟨0x300060000B8, 0, 64, .rw, 0, .none, 0, 1, 0, 1, none⟩ /- WSTREAM_VERSION -/,
  ⟨0x300060000C0, 0, 1, .rw, 1, .none, 0, 1, 0, 1, none⟩ /- WSTREAM_VERSION_CFG_track -/,
  ⟨0x300060000C8, 32, 16, .ro, 0, .none, 0, 1, 0, 1, none⟩ /- WSTREAM_ENTRY_STS_count -/,
  ⟨0x300060000C8, 16, 16, .ro, 0, .none, 0, 1, 0, 1, none⟩ /- WSTREAM_ENTRY_STS_first -/,
  ⟨0x300060000C8, 0, 1, .ro, 0, .none, 0, 1, 0, 1, none⟩ /- WSTREAM_ENTRY_STS_failed -/,
  ⟨0x300060000D0, 0, 16, .act, 0, .none, 0, 1, 0, 1, none⟩ /- WSTREAM_BUF_REL -/]

/-- Rows of the wstream block, part 1 (spec/19 R436). -/
def wstream1 : List Row := [
  ⟨0x300060000D8, 0, 10, .rw, 20, .none, 0, 1, 0, 1, none⟩ /- WSTREAM_TREE_TMO_ms -/,
  ⟨0x300060000E0, 0, 17, .rw, 5000, .none, 0, 1, 0, 1, none⟩ /- WSTREAM_JOIN_TOL_ns -/,
  ⟨0x300060000E8, 16, 22, .ro, 0, .none, 0, 1, 0, 1, none⟩ /- WSTREAM_JOIN_STS_node -/,
  ⟨0x300060000E8, 0, 16, .ro, 0, .none, 0, 1, 0, 1, none⟩ /- WSTREAM_JOIN_STS_code -/,
  ⟨0x30006000100, 0, 42, .arg, 0, .none, 0, 1, 0, 1, none⟩ /- WSTREAM_WBQ_src -/,
  ⟨0x30006000108, 63, 1, .arg, 0, .none, 0, 1, 0, 1, none⟩ /- WSTREAM_WBQ_roce -/,
  ⟨0x30006000108, 48, 13, .arg, 0, .none, 0, 1, 0, 1, none⟩ /- WSTREAM_WBQ_qp -/,
  ⟨0x30006000108, 32, 16, .arg, 0, .none, 0, 1, 0, 1, none⟩ /- WSTREAM_WBQ_entry -/,
  ⟨0x30006000108, 0, 32, .arg, 0, .none, 0, 1, 0, 1, none⟩ /- WSTREAM_WBQ_bytes -/,
  ⟨0x30006000110, 0, 64, .arg, 0, .none, 0, 1, 0, 1, none⟩ /- WSTREAM_WBQ_wver -/,
  ⟨0x30006000118, 0, 64, .arg, 0, .none, 0, 1, 0, 1, none⟩ /- WSTREAM_WBQ_dest -/,
  ⟨0x30006000120, 0, 64, .ro, 0, .none, 0, 1, 8, 8, none⟩ /- WSTREAM_ROUTE_DIGEST -/,
  ⟨0x30006000160, 0, 64, .ro, 0, .none, 0, 1, 8, 8, none⟩ /- WSTREAM_CFG_DIGEST -/,
  ⟨0x300060001A0, 0, 64, .ctr, 0, .none, 0, 1, 0, 1, none⟩ /- WSTREAM_BAD_REC_CNT -/,
  ⟨0x300060001A8, 0, 1, .ctl, 0, .none, 0, 1, 0, 1, none⟩ /- WSTREAM_BAD_REC_CNT_sat -/,
  ⟨0x300060001A8, 1, 1, .ctl, 0, .none, 0, 1, 0, 1, none⟩ /- WSTREAM_BAD_REC_CNT_clr -/,
  ⟨0x300060001A8, 2, 1, .rw, 0, .none, 0, 1, 0, 1, none⟩ /- WSTREAM_BAD_REC_CNT_ev_en -/,
  ⟨0x300060001B0, 0, 64, .ctr, 0, .none, 0, 1, 0, 1, none⟩ /- WSTREAM_DROP_CNT -/,
  ⟨0x300060001B8, 0, 1, .ctl, 0, .none, 0, 1, 0, 1, none⟩ /- WSTREAM_DROP_CNT_sat -/,
  ⟨0x300060001B8, 1, 1, .ctl, 0, .none, 0, 1, 0, 1, none⟩ /- WSTREAM_DROP_CNT_clr -/,
  ⟨0x300060001B8, 2, 1, .rw, 0, .none, 0, 1, 0, 1, none⟩ /- WSTREAM_DROP_CNT_ev_en -/,
  ⟨0x300060001C0, 0, 64, .ctr, 0, .none, 0, 1, 0, 1, none⟩ /- WSTREAM_AUTH_FAIL_CNT -/,
  ⟨0x300060001C8, 0, 1, .ctl, 0, .none, 0, 1, 0, 1, none⟩ /- WSTREAM_AUTH_FAIL_CNT_sat -/,
  ⟨0x300060001C8, 1, 1, .ctl, 0, .none, 0, 1, 0, 1, none⟩ /- WSTREAM_AUTH_FAIL_CNT_clr -/,
  ⟨0x300060001C8, 2, 1, .rw, 0, .none, 0, 1, 0, 1, none⟩ /- WSTREAM_AUTH_FAIL_CNT_ev_en -/,
  ⟨0x300060001D0, 0, 64, .ctr, 0, .none, 0, 1, 0, 1, none⟩ /- WSTREAM_ENTRY_DONE_CNT -/,
  ⟨0x300060001D8, 0, 1, .ctl, 0, .none, 0, 1, 0, 1, none⟩ /- WSTREAM_ENTRY_DONE_CNT_sat -/,
  ⟨0x300060001D8, 1, 1, .ctl, 0, .none, 0, 1, 0, 1, none⟩ /- WSTREAM_ENTRY_DONE_CNT_clr -/,
  ⟨0x300060001D8, 2, 1, .rw, 0, .none, 0, 1, 0, 1, none⟩ /- WSTREAM_ENTRY_DONE_CNT_ev_en -/,
  ⟨0x300060001E0, 0, 64, .ctr, 0, .none, 0, 1, 0, 1, none⟩ /- WSTREAM_REL_ERR_CNT -/]

/-- Rows of the wstream block, part 2 (spec/19 R436). -/
def wstream2 : List Row := [
  ⟨0x300060001E8, 0, 1, .ctl, 0, .none, 0, 1, 0, 1, none⟩ /- WSTREAM_REL_ERR_CNT_sat -/,
  ⟨0x300060001E8, 1, 1, .ctl, 0, .none, 0, 1, 0, 1, none⟩ /- WSTREAM_REL_ERR_CNT_clr -/,
  ⟨0x300060001E8, 2, 1, .rw, 0, .none, 0, 1, 0, 1, none⟩ /- WSTREAM_REL_ERR_CNT_ev_en -/,
  ⟨0x30006000200, 0, 64, .arg, 0, .none, 0, 1, 8, 64, none⟩ /- WSTREAM_KEY_SLOT -/,
  ⟨0x30006000400, 0, 16, .rw, 0, .none, 0, 1, 0, 1, none⟩ /- WSTREAM_KEY_EPOCH -/,
  ⟨0x30006001000, 48, 16, .rw, 0, .job, 0, 1, 128, 16, none⟩ /- WSTREAM_STREAM_slots -/,
  ⟨0x30006001000, 32, 16, .rw, 0, .job, 0, 1, 128, 16, none⟩ /- WSTREAM_STREAM_first_slot -/,
  ⟨0x30006001000, 24, 4, .rw, 0, .none, 0, 1, 128, 16, none⟩ /- WSTREAM_STREAM_ndown -/,
  ⟨0x30006001000, 16, 1, .rw, 0, .none, 0, 1, 128, 16, none⟩ /- WSTREAM_STREAM_valid -/,
  ⟨0x30006001000, 0, 16, .rw, 0, .none, 0, 1, 128, 16, none⟩ /- WSTREAM_STREAM_id -/,
  ⟨0x30006001008, 63, 1, .rw, 0, .none, 0, 1, 128, 16, none⟩ /- WSTREAM_STREAM_roce -/,
  ⟨0x30006001008, 48, 13, .rw, 0, .none, 0, 1, 128, 16, none⟩ /- WSTREAM_STREAM_qp -/,
  ⟨0x30006001008, 0, 22, .rw, 0, .none, 0, 1, 128, 16, none⟩ /- WSTREAM_STREAM_up_node -/,
  ⟨0x30006001010, 0, 64, .rw, 0, .none, 0, 1, 128, 16, none⟩ /- WSTREAM_STREAM_up_base -/,
  ⟨0x30006001018, 0, 16, .rw, 0, .none, 0, 1, 128, 16, none⟩ /- WSTREAM_STREAM_up_slots -/,
  ⟨0x30006001020, 0, 22, .rw, 0, .none, 0, 1, 128, 16, none⟩ /- WSTREAM_STREAM_down -/,
  ⟨0x30006001028, 0, 22, .rw, 0, .none, 0, 1, 128, 16, none⟩ /- WSTREAM_STREAM_down -/,
  ⟨0x30006001030, 0, 22, .rw, 0, .none, 0, 1, 128, 16, none⟩ /- WSTREAM_STREAM_down -/,
  ⟨0x30006001038, 0, 22, .rw, 0, .none, 0, 1, 128, 16, none⟩ /- WSTREAM_STREAM_down -/,
  ⟨0x30006001040, 0, 22, .rw, 0, .none, 0, 1, 128, 16, none⟩ /- WSTREAM_STREAM_down -/,
  ⟨0x30006001048, 0, 22, .rw, 0, .none, 0, 1, 128, 16, none⟩ /- WSTREAM_STREAM_down -/,
  ⟨0x30006001050, 0, 22, .rw, 0, .none, 0, 1, 128, 16, none⟩ /- WSTREAM_STREAM_down -/,
  ⟨0x30006001058, 0, 22, .rw, 0, .none, 0, 1, 128, 16, none⟩ /- WSTREAM_STREAM_down -/,
  ⟨0x30006001800, 63, 1, .rw, 0, .none, 0, 1, 16, 5, none⟩ /- WSTREAM_TREE_valid -/,
  ⟨0x30006001800, 32, 16, .rw, 0, .none, 0, 1, 16, 5, none⟩ /- WSTREAM_TREE_slots -/,
  ⟨0x30006001800, 0, 22, .rw, 0, .none, 0, 1, 16, 5, none⟩ /- WSTREAM_TREE_node -/,
  ⟨0x30006001808, 0, 64, .rw, 0, .none, 0, 1, 16, 5, none⟩ /- WSTREAM_TREE_base -/,
  ⟨0x30006001850, 0, 4, .rw, 0, .none, 0, 1, 0, 1, none⟩ /- WSTREAM_TREE_nchild -/,
  ⟨0x30006001858, 0, 22, .rw, 0, .none, 0, 1, 8, 8, none⟩ /- WSTREAM_TREE_child -/]

/-- All rows of the wstream block. -/
def wstream : List Row := wstream0 ++ wstream1 ++ wstream2

/-- Rows of the red block, part 0 (spec/19 R437). -/
def red0 : List Row := [
  ⟨0x30007000000, 0, 42, .rw, 0, .job, 0, 1, 0, 1, none⟩ /- RED_PLAN_BASE -/,
  ⟨0x30007000008, 0, 17, .rw, 0, .job, 0, 1, 0, 1, none⟩ /- RED_PLAN_LEN -/,
  ⟨0x30007000010, 0, 1, .act, 0, .none, 0, 1, 0, 1, none⟩ /- RED_PLAN_CTL_load -/,
  ⟨0x30007000018, 0, 16, .ro, 0, .none, 0, 1, 0, 1, none⟩ /- RED_PLAN_STS_code -/,
  ⟨0x30007000020, 0, 64, .ro, 0, .none, 0, 1, 8, 8, none⟩ /- RED_PLAN_STS_digest -/,
  ⟨0x30007000060, 13, 29, .rw, 0, .none, 0, 1, 0, 1, none⟩ /- RED_CHAIN_BASE -/,
  ⟨0x30007000068, 19, 23, .rw, 0, .none, 0, 1, 0, 1, none⟩ /- RED_OWNER_BASE -/,
  ⟨0x30007000070, 0, 16, .rw, 0, .job, 0, 1, 0, 1, none⟩ /- RED_OWNER_LEN -/,
  ⟨0x30007000078, 0, 1, .act, 0, .none, 0, 1, 0, 1, none⟩ /- RED_CHAIN_CTL_arm -/,
  ⟨0x30007000080, 18, 1, .ro, 0, .none, 0, 1, 0, 1, none⟩ /- RED_STS_armed -/,
  ⟨0x30007000080, 17, 1, .ro, 0, .none, 0, 1, 0, 1, none⟩ /- RED_STS_bank -/,
  ⟨0x30007000080, 16, 1, .w1c, 0, .none, 0, 1, 0, 1, none⟩ /- RED_STS_abandoned -/,
  ⟨0x30007000080, 0, 16, .ro, 0, .none, 0, 1, 0, 1, none⟩ /- RED_STS_code -/,
  ⟨0x30007000088, 12, 30, .rw, 0, .job, 0, 1, 0, 1, none⟩ /- RED_RX_BASE -/,
  ⟨0x30007000090, 0, 38, .rw, 0, .job, 0, 1, 0, 1, none⟩ /- RED_RX_SIZE -/,
  ⟨0x30007000098, 0, 8, .ro, 0, .none, 0, 1, 0, 1, none⟩ /- RED_EPOCH -/,
  ⟨0x300070000A0, 0, 64, .rw, 0, .none, 0, 1, 8, 8, none⟩ /- RED_MEMB_DIGEST -/,
  ⟨0x300070000E0, 8, 8, .rw, 16, .none, 0, 1, 0, 1, none⟩ /- RED_POISON_CFG_ev_max -/,
  ⟨0x300070000E0, 0, 2, .rw, 0, .job, 0, 1, 0, 1, some 2⟩ /- RED_POISON_CFG_policy -/,
  ⟨0x300070000E8, 32, 1, .ro, 0, .none, 0, 1, 0, 1, none⟩ /- RED_PSN_STS_received -/,
  ⟨0x300070000E8, 0, 32, .ro, 0, .none, 0, 1, 0, 1, none⟩ /- RED_PSN_STS_count -/,
  ⟨0x300070000F0, 40, 1, .ro, 0, .none, 0, 1, 0, 1, none⟩ /- RED_PSN_STS_cause -/,
  ⟨0x300070000F0, 32, 5, .ro, 0, .none, 0, 1, 0, 1, none⟩ /- RED_PSN_STS_element -/,
  ⟨0x300070000F0, 16, 16, .ro, 0, .none, 0, 1, 0, 1, none⟩ /- RED_PSN_STS_bucket -/,
  ⟨0x300070000F0, 0, 16, .ro, 0, .none, 0, 1, 0, 1, none⟩ /- RED_PSN_STS_layer -/,
  ⟨0x300070000F8, 0, 32, .ro, 0, .none, 0, 1, 0, 1, none⟩ /- RED_PSN_STS_block -/,
  ⟨0x30007000108, 0, 32, .rw, 0x47800000, .none, 0, 1, 0, 1, none⟩ /- RED_LOSS_SCALE -/,
  ⟨0x30007000110, 0, 64, .ctr, 0, .none, 0, 1, 0, 1, none⟩ /- RED_RES_RETRY_CNT -/,
  ⟨0x30007000118, 0, 1, .ctl, 0, .none, 0, 1, 0, 1, none⟩ /- RED_RES_RETRY_CNT_sat -/,
  ⟨0x30007000118, 1, 1, .ctl, 0, .none, 0, 1, 0, 1, none⟩ /- RED_RES_RETRY_CNT_clr -/]

/-- Rows of the red block, part 1 (spec/19 R437). -/
def red1 : List Row := [
  ⟨0x30007000118, 2, 1, .rw, 0, .none, 0, 1, 0, 1, none⟩ /- RED_RES_RETRY_CNT_ev_en -/,
  ⟨0x30007000120, 0, 64, .ctr, 0, .none, 0, 1, 0, 1, none⟩ /- RED_RES_FAIL_CNT -/,
  ⟨0x30007000128, 0, 1, .ctl, 0, .none, 0, 1, 0, 1, none⟩ /- RED_RES_FAIL_CNT_sat -/,
  ⟨0x30007000128, 1, 1, .ctl, 0, .none, 0, 1, 0, 1, none⟩ /- RED_RES_FAIL_CNT_clr -/,
  ⟨0x30007000128, 2, 1, .rw, 0, .none, 0, 1, 0, 1, none⟩ /- RED_RES_FAIL_CNT_ev_en -/,
  ⟨0x30007000130, 0, 64, .ctr, 0, .none, 0, 1, 0, 1, none⟩ /- RED_STALE_CNT -/,
  ⟨0x30007000138, 0, 1, .ctl, 0, .none, 0, 1, 0, 1, none⟩ /- RED_STALE_CNT_sat -/,
  ⟨0x30007000138, 1, 1, .ctl, 0, .none, 0, 1, 0, 1, none⟩ /- RED_STALE_CNT_clr -/,
  ⟨0x30007000138, 2, 1, .rw, 0, .none, 0, 1, 0, 1, none⟩ /- RED_STALE_CNT_ev_en -/,
  ⟨0x30007000140, 0, 64, .ctr, 0, .none, 0, 1, 0, 1, none⟩ /- RED_PSN_ZERO_CNT -/,
  ⟨0x30007000148, 0, 1, .ctl, 0, .none, 0, 1, 0, 1, none⟩ /- RED_PSN_ZERO_CNT_sat -/,
  ⟨0x30007000148, 1, 1, .ctl, 0, .none, 0, 1, 0, 1, none⟩ /- RED_PSN_ZERO_CNT_clr -/,
  ⟨0x30007000148, 2, 1, .rw, 0, .none, 0, 1, 0, 1, none⟩ /- RED_PSN_ZERO_CNT_ev_en -/,
  ⟨0x30007000150, 0, 64, .ctr, 0, .none, 0, 1, 0, 1, none⟩ /- RED_PSN_SUPP_CNT -/,
  ⟨0x30007000158, 0, 1, .ctl, 0, .none, 0, 1, 0, 1, none⟩ /- RED_PSN_SUPP_CNT_sat -/,
  ⟨0x30007000158, 1, 1, .ctl, 0, .none, 0, 1, 0, 1, none⟩ /- RED_PSN_SUPP_CNT_clr -/,
  ⟨0x30007000158, 2, 1, .rw, 0, .none, 0, 1, 0, 1, none⟩ /- RED_PSN_SUPP_CNT_ev_en -/]

/-- All rows of the red block. -/
def red : List Row := red0 ++ red1

/-- Rows of the ckpt block, part 0 (spec/19 R438). -/
def ckpt0 : List Row := [
  ⟨0x30008000000, 0, 64, .rw, 0, .job, 0, 1, 0, 1, none⟩ /- CKPT_STEP_step -/,
  ⟨0x30008000008, 0, 10, .rw, 1, .none, 0, 1, 0, 1, none⟩ /- CKPT_VOTE_NCORES -/,
  ⟨0x30008000010, 0, 14, .rw, 200, .none, 0, 1, 0, 1, none⟩ /- CKPT_VOTE_TMO_ms -/,
  ⟨0x30008000018, 0, 3, .ro, 0, .none, 0, 1, 0, 1, none⟩ /- CKPT_VOTE_STS_outcome -/,
  ⟨0x30008000020, 0, 64, .ro, 0, .none, 0, 1, 0, 1, none⟩ /- CKPT_VOTE_STS_step -/,
  ⟨0x30008000028, 0, 13, .rw, 0, .job, 0, 1, 0, 1, none⟩ /- CKPT_SREC_CFG_count -/,
  ⟨0x30008000030, 0, 42, .rw, 0, .job, 0, 1, 0, 1, none⟩ /- CKPT_TENS_BASE -/,
  ⟨0x30008000038, 0, 9, .rw, 0, .job, 0, 1, 0, 1, none⟩ /- CKPT_TENS_LEN -/,
  ⟨0x30008000040, 0, 1, .act, 0, .none, 0, 1, 0, 1, none⟩ /- CKPT_TENS_CTL_load -/,
  ⟨0x30008000048, 48, 1, .ro, 0, .none, 0, 1, 0, 1, none⟩ /- CKPT_STS_owner_valid -/,
  ⟨0x30008000048, 32, 16, .ro, 0, .none, 0, 1, 0, 1, none⟩ /- CKPT_STS_owner_index -/,
  ⟨0x30008000048, 16, 3, .ro, 0, .none, 0, 1, 0, 1, none⟩ /- CKPT_STS_phase -/,
  ⟨0x30008000048, 0, 16, .ro, 0, .none, 0, 1, 0, 1, none⟩ /- CKPT_STS_code -/,
  ⟨0x30008000050, 0, 64, .ro, 0, .none, 0, 1, 8, 8, none⟩ /- CKPT_STS_map_digest -/,
  ⟨0x30008000090, 0, 42, .rw, 0, .job, 0, 1, 0, 1, none⟩ /- CKPT_BASE_addr -/,
  ⟨0x30008000098, 32, 3, .rw, 0, .none, 0, 1, 0, 1, none⟩ /- CKPT_REC_PARTNER_area -/,
  ⟨0x30008000098, 0, 22, .rw, 0, .none, 0, 1, 0, 1, none⟩ /- CKPT_REC_PARTNER_node -/,
  ⟨0x300080000A0, 0, 42, .rw, 0, .job, 0, 1, 0, 1, none⟩ /- CKPT_REC_STORE_base -/,
  ⟨0x300080000A8, 0, 32, .rw, 0, .job, 0, 1, 0, 1, none⟩ /- CKPT_REC_STORE_slot_bytes -/,
  ⟨0x300080000B0, 0, 64, .rw, 0, .none, 0, 1, 0, 1, none⟩ /- CKPT_UPD_done_step -/,
  ⟨0x300080000B8, 32, 32, .rw, 10000, .none, 0, 1, 0, 1, none⟩ /- CKPT_CMP_CFG_tmo_ms -/,
  ⟨0x300080000B8, 0, 32, .rw, 0, .none, 0, 1, 0, 1, none⟩ /- CKPT_CMP_CFG_steps -/,
  ⟨0x300080000C0, 0, 42, .rw, 0, .job, 0, 1, 0, 1, none⟩ /- CKPT_CMP_AREA -/,
  ⟨0x300080000C8, 32, 32, .rw, 0, .none, 0, 1, 0, 1, none⟩ /- CKPT_FRZ_CFG_steps -/,
  ⟨0x300080000C8, 0, 17, .rw, 300, .none, 0, 1, 0, 1, none⟩ /- CKPT_FRZ_CFG_period_s -/,
  ⟨0x300080000D0, 0, 32, .ro, 0, .none, 0, 1, 0, 1, none⟩ /- CKPT_FRZ_ID -/,
  ⟨0x300080000D8, 0, 32, .ro, 0, .none, 0, 1, 0, 1, none⟩ /- CKPT_FRZ_STS_done_id -/,
  ⟨0x300080000E0, 16, 26, .rw, 0, .job, 0, 1, 0, 1, none⟩ /- CKPT_SIDE_base -/,
  ⟨0x300080000E8, 16, 26, .rw, 0, .job, 0, 1, 0, 1, none⟩ /- CKPT_SIDE_size -/,
  ⟨0x300080000F0, 0, 19, .rw, 20000, .none, 0, 1, 0, 1, none⟩ /- CKPT_DRAIN_RATE_mbps -/]

/-- Rows of the ckpt block, part 1 (spec/19 R438). -/
def ckpt1 : List Row := [
  ⟨0x300080000F8, 0, 64, .rw, 0, .none, 0, 1, 0, 1, none⟩ /- CKPT_POOL_addr -/,
  ⟨0x30008000100, 63, 1, .rw, 0, .none, 0, 1, 0, 1, none⟩ /- CKPT_POOL_roce -/,
  ⟨0x30008000100, 0, 13, .rw, 0, .none, 0, 1, 0, 1, none⟩ /- CKPT_POOL_qp -/,
  ⟨0x30008000108, 8, 4, .rw, 1, .none, 0, 1, 0, 1, none⟩ /- CKPT_POOL_vc -/,
  ⟨0x30008000108, 0, 4, .rw, 2, .none, 0, 1, 0, 1, none⟩ /- CKPT_POOL_keep -/,
  ⟨0x30008000110, 0, 48, .rw, 0, .job, 0, 1, 0, 1, none⟩ /- CKPT_POOL_slot_bytes -/,
  ⟨0x30008000118, 16, 16, .rw, 0, .job, 0, 1, 0, 1, none⟩ /- CKPT_MEMBER_count -/,
  ⟨0x30008000118, 0, 16, .rw, 0, .job, 0, 1, 0, 1, none⟩ /- CKPT_MEMBER_index -/,
  ⟨0x30008000120, 1, 1, .act, 0, .none, 0, 1, 0, 1, none⟩ /- CKPT_CTL_scan -/,
  ⟨0x30008000120, 0, 1, .act, 0, .none, 0, 1, 0, 1, none⟩ /- CKPT_CTL_freeze_now -/,
  ⟨0x30008000128, 0, 16, .act, 0, .none, 0, 1, 0, 1, none⟩ /- CKPT_CTL_promote -/,
  ⟨0x30008000130, 0, 32, .rw, 0, .none, 0, 1, 0, 1, none⟩ /- CKPT_CTL_promote_freeze -/,
  ⟨0x30008000138, 0, 64, .rw, 0, .none, 0, 1, 0, 1, none⟩ /- CKPT_CTL_promote_pool -/,
  ⟨0x30008000140, 0, 32, .act, 0, .none, 0, 1, 0, 1, none⟩ /- CKPT_CTL_load -/,
  ⟨0x30008000148, 24, 3, .rw, 0, .none, 0, 1, 0, 1, none⟩ /- CKPT_CTL_adopt_area -/,
  ⟨0x30008000148, 0, 22, .rw, 0, .none, 0, 1, 0, 1, none⟩ /- CKPT_CTL_adopt_node -/,
  ⟨0x30008000150, 0, 64, .act, 0, .none, 0, 1, 0, 1, none⟩ /- CKPT_CTL_adopt_step -/,
  ⟨0x30008000158, 0, 64, .rw, 0, .none, 0, 1, 0, 1, none⟩ /- CKPT_RESTORE_shadow_pool -/,
  ⟨0x30008000160, 16, 1, .ro, 0, .none, 0, 1, 0, 1, none⟩ /- CKPT_RESTORE_STS_done -/,
  ⟨0x30008000160, 0, 16, .ro, 0, .none, 0, 1, 0, 1, none⟩ /- CKPT_RESTORE_STS_code -/,
  ⟨0x30008000168, 0, 22, .rw, 0, .none, 0, 1, 0, 1, none⟩ /- CKPT_BUDDY_node -/,
  ⟨0x30008000170, 0, 64, .act, 0, .none, 0, 1, 0, 1, none⟩ /- CKPT_BUDDY_step -/,
  ⟨0x30008000178, 0, 42, .rw, 0, .none, 0, 1, 0, 1, none⟩ /- CKPT_BUDDY_bases -/,
  ⟨0x30008000188, 0, 42, .rw, 0, .none, 0, 1, 0, 1, none⟩ /- CKPT_BUDDY_FLAG -/,
  ⟨0x30008000190, 0, 64, .ro, 0, .none, 0, 1, 0, 1, none⟩ /- CKPT_EXPOSE_STS_start -/,
  ⟨0x30008000198, 0, 64, .ro, 0, .none, 0, 1, 0, 1, none⟩ /- CKPT_EXPOSE_STS_end -/,
  ⟨0x300080001A0, 0, 64, .ctr, 0, .none, 0, 1, 0, 1, none⟩ /- CKPT_CA_CNT -/,
  ⟨0x300080001A8, 0, 1, .ctl, 0, .none, 0, 1, 0, 1, none⟩ /- CKPT_CA_CNT_sat -/,
  ⟨0x300080001A8, 1, 1, .ctl, 0, .none, 0, 1, 0, 1, none⟩ /- CKPT_CA_CNT_clr -/,
  ⟨0x300080001A8, 2, 1, .rw, 0, .none, 0, 1, 0, 1, none⟩ /- CKPT_CA_CNT_ev_en -/]

/-- Rows of the ckpt block, part 2 (spec/19 R438). -/
def ckpt2 : List Row := [
  ⟨0x300080001B0, 0, 64, .ctr, 0, .none, 0, 1, 0, 1, none⟩ /- CKPT_CA_WAIT_CNT -/,
  ⟨0x300080001B8, 0, 1, .ctl, 0, .none, 0, 1, 0, 1, none⟩ /- CKPT_CA_WAIT_CNT_sat -/,
  ⟨0x300080001B8, 1, 1, .ctl, 0, .none, 0, 1, 0, 1, none⟩ /- CKPT_CA_WAIT_CNT_clr -/,
  ⟨0x300080001B8, 2, 1, .rw, 0, .none, 0, 1, 0, 1, none⟩ /- CKPT_CA_WAIT_CNT_ev_en -/,
  ⟨0x30008000200, 18, 1, .ro, 0, .none, 0, 1, 8, 16, none⟩ /- CKPT_SHADOW_STS_diverged -/,
  ⟨0x30008000200, 17, 1, .ro, 0, .none, 0, 1, 8, 16, none⟩ /- CKPT_SHADOW_STS_role -/,
  ⟨0x30008000200, 16, 1, .ro, 0, .none, 0, 1, 8, 16, none⟩ /- CKPT_SHADOW_STS_valid -/,
  ⟨0x30008000200, 0, 16, .ro, 0, .none, 0, 1, 8, 16, none⟩ /- CKPT_SHADOW_STS_owner -/,
  ⟨0x30008000300, 32, 1, .ro, 0, .none, 0, 1, 8, 256, none⟩ /- CKPT_OWNER_CLEAN_clean -/,
  ⟨0x30008000300, 0, 32, .ro, 0, .none, 0, 1, 8, 256, none⟩ /- CKPT_OWNER_CLEAN_freeze_id -/,
  ⟨0x30008001000, 0, 64, .rw, 0, .none, 0, 1, 64, 64, none⟩ /- CKPT_TRUST -/,
  ⟨0x30008001008, 0, 64, .rw, 0, .none, 0, 1, 64, 64, none⟩ /- CKPT_TRUST -/,
  ⟨0x30008001010, 0, 64, .rw, 0, .none, 0, 1, 64, 64, none⟩ /- CKPT_TRUST -/,
  ⟨0x30008001018, 0, 64, .rw, 0, .none, 0, 1, 64, 64, none⟩ /- CKPT_TRUST -/,
  ⟨0x30008001020, 0, 64, .rw, 0, .none, 0, 1, 64, 64, none⟩ /- CKPT_TRUST -/,
  ⟨0x30008001028, 0, 64, .rw, 0, .none, 0, 1, 64, 64, none⟩ /- CKPT_TRUST -/,
  ⟨0x30008001030, 0, 64, .rw, 0, .none, 0, 1, 64, 64, none⟩ /- CKPT_TRUST -/,
  ⟨0x30008001038, 0, 64, .rw, 0, .none, 0, 1, 64, 64, none⟩ /- CKPT_TRUST -/,
  ⟨0x30008002000, 32, 16, .ro, 0, .none, 0, 1, 16, 8, none⟩ /- CKPT_SCAN_RES_code -/,
  ⟨0x30008002000, 0, 32, .ro, 0, .none, 0, 1, 16, 8, none⟩ /- CKPT_SCAN_RES_freeze_id -/,
  ⟨0x30008002008, 0, 64, .ro, 0, .none, 0, 1, 16, 8, none⟩ /- CKPT_SCAN_RES_step -/]

/-- All rows of the ckpt block. -/
def ckpt : List Row := ckpt0 ++ ckpt1 ++ ckpt2

/-- Rows of the pwr block, part 0 (spec/19 R439). -/
def pwr0 : List Row := [
  ⟨0x30009000000, 32, 32, .ro, 30000, .none, 0, 1, 0, 1, none⟩ /- PWR_STS_eff_cap_watts -/,
  ⟨0x30009000000, 18, 1, .ro, 0, .none, 0, 1, 0, 1, none⟩ /- PWR_STS_cap_unmet -/,
  ⟨0x30009000000, 17, 1, .ro, 0, .none, 0, 1, 0, 1, none⟩ /- PWR_STS_hold -/,
  ⟨0x30009000000, 16, 1, .ro, 0, .none, 0, 1, 0, 1, none⟩ /- PWR_STS_clamp -/,
  ⟨0x30009000000, 0, 14, .ro, 3600, .none, 0, 1, 0, 1, none⟩ /- PWR_STS_common_mhz -/,
  ⟨0x30009000008, 32, 32, .rw, 0, .none, 0, 1, 0, 1, none⟩ /- PWR_CAP_CTL_seq -/,
  ⟨0x30009000008, 16, 1, .rw, 0, .none, 0, 1, 0, 1, none⟩ /- PWR_CAP_CTL_urgent -/,
  ⟨0x30009000008, 0, 16, .rw, 30000, .none, 0, 1, 0, 1, none⟩ /- PWR_CAP_CTL_cap_watts -/,
  ⟨0x30009000010, 32, 32, .ro, 0, .none, 0, 1, 0, 1, none⟩ /- PWR_CAP_STS_seq -/,
  ⟨0x30009000010, 0, 16, .ro, 0, .none, 0, 1, 0, 1, none⟩ /- PWR_CAP_STS_code -/,
  ⟨0x30009000018, 48, 16, .rw, 15000, .none, 0, 1, 0, 1, none⟩ /- PWR_CAP_CFG_fallback_watts -/,
  ⟨0x30009000018, 32, 16, .rw, 0, .none, 0, 1, 0, 1, none⟩ /- PWR_CAP_CFG_lease_ms -/,
  ⟨0x30009000018, 16, 13, .rw, 2000, .none, 0, 1, 0, 1, none⟩ /- PWR_CAP_CFG_rise_w -/,
  ⟨0x30009000018, 0, 13, .rw, 1000, .none, 0, 1, 0, 1, none⟩ /- PWR_CAP_CFG_step_w -/,
  ⟨0x30009000020, 8, 3, .ro, 0, .none, 0, 1, 0, 1, none⟩ /- PWR_CLAMP_STS_trigger -/,
  ⟨0x30009000020, 0, 7, .ro, 64, .none, 0, 1, 0, 1, none⟩ /- PWR_CLAMP_STS_stretch -/,
  ⟨0x30009000028, 0, 16, .rw, 12000, .none, 0, 1, 0, 1, none⟩ /- PWR_CLAMP_CFG_floor_watts -/,
  ⟨0x30009000030, 0, 16, .ro, 0, .none, 0, 1, 0, 1, none⟩ /- PWR_MIN_OP -/,
  ⟨0x30009000038, 0, 16, .ro, 0, .none, 0, 1, 0, 1, none⟩ /- PWR_HOLD_W -/,
  ⟨0x30009000040, 0, 16, .rw, 500, .none, 0, 1, 0, 1, none⟩ /- PWR_HOLD_CFG_hyst_w -/,
  ⟨0x30009000048, 0, 1, .act, 0, .job, 0, 1, 0, 1, none⟩ /- PWR_CREV_CTL_recal -/,
  ⟨0x30009000050, 1, 1, .rs, 0, .none, 0, 1, 0, 1, none⟩ /- PWR_SERVICE_STS_leak -/,
  ⟨0x30009000050, 0, 1, .rs, 0, .none, 0, 1, 0, 1, none⟩ /- PWR_SERVICE_STS_crevasse -/,
  ⟨0x30009000058, 0, 7, .rw, 92, .none, 0, 1, 0, 1, none⟩ /- PWR_THERM_CFG_target -/,
  ⟨0x30009000060, 0, 2, .rw, 1, .none, 0, 1, 0, 1, some 2⟩ /- PWR_LEAK_CFG_action -/,
  ⟨0x30009000068, 0, 17, .rw, 1024, .none, 0, 1, 0, 1, none⟩ /- PWR_TEL_RING_frames -/,
  ⟨0x30009000070, 32, 32, .ro, 0, .none, 0, 1, 0, 1, none⟩ /- PWR_IN_STS_amps -/,
  ⟨0x30009000070, 0, 32, .ro, 0, .none, 0, 1, 0, 1, none⟩ /- PWR_IN_STS_volts -/,
  ⟨0x30009000078, 0, 32, .ro, 0, .none, 0, 1, 0, 1, none⟩ /- PWR_IN_STS_watts -/,
  ⟨0x30009000080, 0, 64, .ctr, 0, .none, 0, 1, 0, 1, none⟩ /- PWR_CLAMP_CNT -/]

/-- Rows of the pwr block, part 1 (spec/19 R439). -/
def pwr1 : List Row := [
  ⟨0x30009000088, 0, 1, .ctl, 0, .none, 0, 1, 0, 1, none⟩ /- PWR_CLAMP_CNT_sat -/,
  ⟨0x30009000088, 1, 1, .ctl, 0, .none, 0, 1, 0, 1, none⟩ /- PWR_CLAMP_CNT_clr -/,
  ⟨0x30009000088, 2, 1, .rw, 0, .none, 0, 1, 0, 1, none⟩ /- PWR_CLAMP_CNT_ev_en -/,
  ⟨0x30009000090, 0, 64, .ctr, 0, .none, 0, 1, 0, 1, none⟩ /- PWR_CAP_STALE_CNT -/,
  ⟨0x30009000098, 0, 1, .ctl, 0, .none, 0, 1, 0, 1, none⟩ /- PWR_CAP_STALE_CNT_sat -/,
  ⟨0x30009000098, 1, 1, .ctl, 0, .none, 0, 1, 0, 1, none⟩ /- PWR_CAP_STALE_CNT_clr -/,
  ⟨0x30009000098, 2, 1, .rw, 0, .none, 0, 1, 0, 1, none⟩ /- PWR_CAP_STALE_CNT_ev_en -/,
  ⟨0x30009001000, 0, 2, .rw, 0, .none, 0, 1, 8, 1024, some 2⟩ /- PWR_SITE_CTL_state -/,
  ⟨0x30009003000, 16, 16, .ro, 0, .none, 0, 1, 8, 1024, none⟩ /- PWR_SITE_STS_code -/,
  ⟨0x30009003000, 13, 1, .ro, 0, .none, 0, 1, 8, 1024, none⟩ /- PWR_SITE_STS_derated -/,
  ⟨0x30009003000, 12, 1, .ro, 1, .none, 0, 1, 8, 1024, none⟩ /- PWR_SITE_STS_isolated -/,
  ⟨0x30009003000, 8, 4, .ro, 8, .none, 0, 1, 8, 1024, none⟩ /- PWR_SITE_STS_phases -/,
  ⟨0x30009003000, 0, 2, .ro, 0, .none, 0, 1, 8, 1024, none⟩ /- PWR_SITE_STS_state -/]

/-- All rows of the pwr block. -/
def pwr : List Row := pwr0 ++ pwr1

/-- Rows of the clk block, part 0 (spec/19 R439). -/
def clk0 : List Row := [
  ⟨0x3000A000000, 0, 20, .rw, 2000, .none, 0, 1, 0, 1, none⟩ /- CLK_IDLE_TO_ns -/,
  ⟨0x3000A000008, 32, 32, .rw, 5000, .none, 0, 1, 0, 1, none⟩ /- CLK_PTP_CFG_holdover_ns -/,
  ⟨0x3000A000008, 16, 16, .rw, 3000, .none, 0, 1, 0, 1, none⟩ /- CLK_PTP_CFG_loss_ms -/,
  ⟨0x3000A000008, 8, 7, .rw, 0, .none, 0, 1, 0, 1, none⟩ /- CLK_PTP_CFG_domain -/,
  ⟨0x3000A000008, 0, 2, .rw, 0, .none, 0, 1, 0, 1, some 2⟩ /- CLK_PTP_CFG_transport -/,
  ⟨0x3000A000010, 32, 32, .ro, 0xffffffff, .none, 0, 1, 0, 1, none⟩ /- CLK_PTP_STS_err_ns -/,
  ⟨0x3000A000010, 16, 16, .ro, 0, .none, 0, 1, 0, 1, none⟩ /- CLK_PTP_STS_code -/,
  ⟨0x3000A000010, 0, 3, .ro, 0, .none, 0, 1, 0, 1, none⟩ /- CLK_PTP_STS_state -/,
  ⟨0x3000A000018, 16, 16, .rw, 180, .none, 0, 1, 0, 1, none⟩ /- CLK_WEAR_CFG_warn_days -/,
  ⟨0x3000A000018, 8, 7, .rw, 30, .none, 0, 1, 0, 1, none⟩ /- CLK_WEAR_CFG_plan_days -/,
  ⟨0x3000A000018, 0, 6, .rw, 15, .none, 0, 1, 0, 1, none⟩ /- CLK_WEAR_CFG_guard_ps -/,
  ⟨0x3000A000020, 0, 16, .ro, 0, .none, 0, 1, 0, 1, none⟩ /- CLK_WEAR_LOG_HEAD -/,
  ⟨0x3000A000028, 32, 32, .ro, 0xffffffff, .none, 0, 1, 0, 1, none⟩ /- CLK_WEAR_STS_days_spare -/,
  ⟨0x3000A000028, 0, 32, .ro, 0xffffffff, .none, 0, 1, 0, 1, none⟩ /- CLK_WEAR_STS_days_top -/,
  ⟨0x3000A000100, 8, 6, .ro, 0, .none, 0, 1, 8, 64, none⟩ /- CLK_FIELD_STS_neighbour -/,
  ⟨0x3000A000100, 0, 1, .ro, 0, .none, 0, 1, 8, 64, none⟩ /- CLK_FIELD_STS_borrowed -/,
  ⟨0x3000A001000, 0, 64, .ctr, 0, .none, 0, 1, 16, 1024, none⟩ /- CLK_DROOP_CNT -/,
  ⟨0x3000A001008, 0, 1, .ctl, 0, .none, 0, 1, 16, 1024, none⟩ /- CLK_DROOP_CNT_sat -/,
  ⟨0x3000A001008, 1, 1, .ctl, 0, .none, 0, 1, 16, 1024, none⟩ /- CLK_DROOP_CNT_clr -/,
  ⟨0x3000A001008, 2, 1, .rw, 0, .none, 0, 1, 16, 1024, none⟩ /- CLK_DROOP_CNT_ev_en -/,
  ⟨0x3000A005000, 0, 64, .ctr, 0, .none, 0, 1, 16, 1024, none⟩ /- CLK_KICK_CNT -/,
  ⟨0x3000A005008, 0, 1, .ctl, 0, .none, 0, 1, 16, 1024, none⟩ /- CLK_KICK_CNT_sat -/,
  ⟨0x3000A005008, 1, 1, .ctl, 0, .none, 0, 1, 16, 1024, none⟩ /- CLK_KICK_CNT_clr -/,
  ⟨0x3000A005008, 2, 1, .rw, 0, .none, 0, 1, 16, 1024, none⟩ /- CLK_KICK_CNT_ev_en -/,
  ⟨0x3000A010000, 31, 1, .ro, 1, .none, 0, 1, 8, 16384, none⟩ /- CLK_SITE_VF_valid -/,
  ⟨0x3000A010000, 16, 10, .ro, 550, .none, 0, 1, 8, 16384, none⟩ /- CLK_SITE_VF_vsram_mv -/,
  ⟨0x3000A010000, 0, 10, .ro, 450, .none, 0, 1, 8, 16384, none⟩ /- CLK_SITE_VF_vcore_mv -/]

/-- All rows of the clk block. -/
def clk : List Row := clk0

/-- Rows of the sec block, part 0 (spec/19 R440). -/
def sec0 : List Row := [
  ⟨0x3000B000000, 0, 64, .ro, 0, .none, 0, 1, 64, 8, none⟩ /- SEC_MEAS -/,
  ⟨0x3000B000008, 0, 64, .ro, 0, .none, 0, 1, 64, 8, none⟩ /- SEC_MEAS -/,
  ⟨0x3000B000010, 0, 64, .ro, 0, .none, 0, 1, 64, 8, none⟩ /- SEC_MEAS -/,
  ⟨0x3000B000018, 0, 64, .ro, 0, .none, 0, 1, 64, 8, none⟩ /- SEC_MEAS -/,
  ⟨0x3000B000020, 0, 64, .ro, 0, .none, 0, 1, 64, 8, none⟩ /- SEC_MEAS -/,
  ⟨0x3000B000028, 0, 64, .ro, 0, .none, 0, 1, 64, 8, none⟩ /- SEC_MEAS -/,
  ⟨0x3000B000030, 0, 64, .ro, 0, .none, 0, 1, 64, 8, none⟩ /- SEC_MEAS -/,
  ⟨0x3000B000038, 0, 64, .ro, 0, .none, 0, 1, 64, 8, none⟩ /- SEC_MEAS -/,
  ⟨0x3000B000200, 16, 16, .ro, 0, .none, 0, 1, 0, 1, none⟩ /- SEC_FW_STS_code -/,
  ⟨0x3000B000200, 8, 2, .ro, 0, .none, 0, 1, 0, 1, none⟩ /- SEC_FW_STS_staged -/,
  ⟨0x3000B000200, 0, 1, .ro, 0, .none, 0, 1, 0, 1, none⟩ /- SEC_FW_STS_active -/,
  ⟨0x3000B000208, 0, 1, .act, 0, .none, 0, 1, 0, 1, none⟩ /- SEC_FW_CTL_commit -/,
  ⟨0x3000B000210, 16, 16, .ro, 0, .none, 0, 1, 0, 1, none⟩ /- SEC_PRES_STS_code -/,
  ⟨0x3000B000210, 8, 3, .ro, 0, .none, 0, 1, 0, 1, none⟩ /- SEC_PRES_STS_cmd -/,
  ⟨0x3000B000210, 0, 1, .ro, 0, .none, 0, 1, 0, 1, none⟩ /- SEC_PRES_STS_pending -/,
  ⟨0x3000B000218, 0, 64, .ro, 0, .none, 0, 1, 8, 8, none⟩ /- SEC_PRES_NONCE -/,
  ⟨0x3000B000260, 0, 64, .ctr, 0, .none, 0, 1, 0, 1, none⟩ /- SEC_PRES_IDLE_CNT -/,
  ⟨0x3000B000268, 0, 1, .ctl, 0, .none, 0, 1, 0, 1, none⟩ /- SEC_PRES_IDLE_CNT_sat -/,
  ⟨0x3000B000268, 1, 1, .ctl, 0, .none, 0, 1, 0, 1, none⟩ /- SEC_PRES_IDLE_CNT_clr -/,
  ⟨0x3000B000268, 2, 1, .rw, 0, .none, 0, 1, 0, 1, none⟩ /- SEC_PRES_IDLE_CNT_ev_en -/]

/-- All rows of the sec block. -/
def sec : List Row := sec0

/-- Rows of the evt block, part 0 (spec/19 R440). -/
def evt0 : List Row := [
  ⟨0x3000C000000, 0, 21, .rw, 65536, .none, 0, 1, 0, 1, none⟩ /- EVT_RING_CFG_entries -/,
  ⟨0x3000C000008, 0, 32, .ro, 0, .none, 0, 1, 0, 1, none⟩ /- EVT_HEAD -/,
  ⟨0x3000C000010, 0, 64, .ctr, 0, .none, 0, 1, 0, 1, none⟩ /- EVT_LOST_CNT -/,
  ⟨0x3000C000018, 0, 1, .ctl, 0, .none, 0, 1, 0, 1, none⟩ /- EVT_LOST_CNT_sat -/,
  ⟨0x3000C000018, 1, 1, .ctl, 0, .none, 0, 1, 0, 1, none⟩ /- EVT_LOST_CNT_clr -/,
  ⟨0x3000C000018, 2, 1, .rw, 0, .none, 0, 1, 0, 1, none⟩ /- EVT_LOST_CNT_ev_en -/,
  ⟨0x3000C000020, 0, 64, .ctr, 0, .none, 0, 1, 0, 1, none⟩ /- EVT_MASKED_CNT -/,
  ⟨0x3000C000028, 0, 1, .ctl, 0, .none, 0, 1, 0, 1, none⟩ /- EVT_MASKED_CNT_sat -/,
  ⟨0x3000C000028, 1, 1, .ctl, 0, .none, 0, 1, 0, 1, none⟩ /- EVT_MASKED_CNT_clr -/,
  ⟨0x3000C000028, 2, 1, .rw, 0, .none, 0, 1, 0, 1, none⟩ /- EVT_MASKED_CNT_ev_en -/,
  ⟨0x3000C000100, 1, 5, .rw, 31, .none, 0, 1, 0, 1, none⟩ /- EVT_ENABLE_02 -/,
  ⟨0x3000C000120, 1, 2, .rw, 3, .none, 0, 1, 0, 1, none⟩ /- EVT_ENABLE_03 -/,
  ⟨0x3000C0001C0, 1, 1, .rw, 1, .none, 0, 1, 0, 1, none⟩ /- EVT_ENABLE_08 -/,
  ⟨0x3000C0001E0, 1, 3, .rw, 7, .none, 0, 1, 0, 1, none⟩ /- EVT_ENABLE_09 -/,
  ⟨0x3000C000200, 1, 2, .rw, 3, .none, 0, 1, 0, 1, none⟩ /- EVT_ENABLE_0A -/,
  ⟨0x3000C000220, 1, 6, .rw, 63, .none, 0, 1, 0, 1, none⟩ /- EVT_ENABLE_0B -/,
  ⟨0x3000C000240, 1, 8, .rw, 255, .none, 0, 1, 0, 1, none⟩ /- EVT_ENABLE_0C -/,
  ⟨0x3000C000260, 1, 6, .rw, 63, .none, 0, 1, 0, 1, none⟩ /- EVT_ENABLE_0D -/,
  ⟨0x3000C000280, 1, 11, .rw, 2047, .none, 0, 1, 0, 1, none⟩ /- EVT_ENABLE_0E -/,
  ⟨0x3000C0002A0, 1, 15, .rw, 32767, .none, 0, 1, 0, 1, none⟩ /- EVT_ENABLE_0F -/,
  ⟨0x3000C0002C0, 1, 7, .rw, 127, .none, 0, 1, 0, 1, none⟩ /- EVT_ENABLE_10 -/,
  ⟨0x3000C0002E0, 1, 8, .rw, 255, .none, 0, 1, 0, 1, none⟩ /- EVT_ENABLE_11 -/,
  ⟨0x3000C000300, 1, 7, .rw, 127, .none, 0, 1, 0, 1, none⟩ /- EVT_ENABLE_12 -/]

/-- All rows of the evt block. -/
def evt : List Row := evt0

/-- Rows of the core block, part 0 (spec/19 R441). -/
def core0 : List Row := [
  ⟨0x20003000000, 0, 32, .ro, 0, .none, 67108864, 896, 0, 1, none⟩ /- CORE_CTX_STATE -/,
  ⟨0x20003000008, 0, 16, .rw, 4096, .none, 67108864, 896, 0, 1, none⟩ /- CORE_CTX_SLICE_cycles -/,
  ⟨0x20003000010, 0, 8, .act, 0, .none, 67108864, 896, 0, 1, none⟩ /- CORE_CTX_RESUME -/,
  ⟨0x20003000018, 0, 8, .act, 0, .none, 67108864, 896, 0, 1, none⟩ /- CORE_CTX_KILL -/,
  ⟨0x20003000020, 0, 32, .act, 0, .none, 67108864, 896, 0, 1, none⟩ /- CORE_EV_SET -/,
  ⟨0x20003000028, 0, 1, .rw, 1, .none, 67108864, 896, 0, 1, none⟩ /- CORE_SRAM_CFG_swizzle -/,
  ⟨0x20003000030, 6, 20, .rw, 0, .none, 67108864, 896, 0, 1, none⟩ /- CORE_SREC_BASE -/,
  ⟨0x20003000038, 21, 21, .rw, 0, .none, 67108864, 896, 0, 1, none⟩ /- CORE_ATU_ROOT -/,
  ⟨0x20003000040, 63, 1, .act, 0, .none, 67108864, 896, 0, 1, none⟩ /- CORE_ATU_INVAL_all -/,
  ⟨0x20003000040, 0, 48, .act, 0, .none, 67108864, 896, 0, 1, none⟩ /- CORE_ATU_INVAL_va -/,
  ⟨0x20003000048, 0, 1, .ro, 0, .none, 67108864, 896, 0, 1, none⟩ /- CORE_ATU_STS_inval_busy -/,
  ⟨0x20003000050, 48, 10, .rw, 0, .none, 67108864, 896, 0, 1, none⟩ /- CORE_SNOW_TOP_size -/,
  ⟨0x20003000050, 12, 14, .rw, 0, .none, 67108864, 896, 0, 1, none⟩ /- CORE_SNOW_TOP_base -/,
  ⟨0x20003000058, 12, 30, .rw, 0, .none, 67108864, 896, 0, 1, none⟩ /- CORE_SNOW_BODY_base -/,
  ⟨0x20003000060, 12, 25, .rw, 0, .none, 67108864, 896, 0, 1, none⟩ /- CORE_SNOW_BODY_size -/,
  ⟨0x20003000068, 0, 38, .ro, 0, .none, 67108864, 896, 0, 1, none⟩ /- CORE_SNOW_STS_depth -/,
  ⟨0x20003000070, 0, 32, .ro, 0, .none, 67108864, 896, 0, 1, none⟩ /- CORE_SNOW_STS_records -/,
  ⟨0x20003000080, 0, 3, .act, 0, .none, 67108864, 896, 0, 1, none⟩ /- CORE_CTX_START_ctx -/,
  ⟨0x20003000088, 3, 23, .rw, 0, .none, 67108864, 896, 0, 1, none⟩ /- CORE_CTX_START_pc -/,
  ⟨0x20003000090, 0, 64, .rw, 0, .none, 67108864, 896, 0, 1, none⟩ /- CORE_CTX_START_arg -/,
  ⟨0x20003000098, 32, 16, .rw, 0, .none, 67108864, 896, 0, 1, none⟩ /- CORE_CTX_START_mask -/,
  ⟨0x20003000098, 5, 21, .rw, 0, .none, 67108864, 896, 0, 1, none⟩ /- CORE_CTX_START_desc -/,
  ⟨0x20003000100, 32, 26, .ro, 0, .none, 67108864, 896, 16, 8, none⟩ /- CORE_CTX_FAULT_pc -/,
  ⟨0x20003000100, 0, 16, .ro, 0, .none, 67108864, 896, 16, 8, none⟩ /- CORE_CTX_FAULT_code -/,
  ⟨0x20003000108, 0, 64, .ro, 0, .none, 67108864, 896, 16, 8, none⟩ /- CORE_CTX_FAULT_addr -/,
  ⟨0x20003000200, 0, 16, .ro, 0, .none, 67108864, 896, 16, 8, none⟩ /- CORE_CTX_RERR_code -/,
  ⟨0x20003000208, 0, 64, .ro, 0, .none, 67108864, 896, 16, 8, none⟩ /- CORE_CTX_RERR_va -/,
  ⟨0x20003000300, 0, 64, .ctr, 0, .none, 67108864, 896, 0, 1, none⟩ /- CORE_BANK_CONFLICT_CNT -/,
  ⟨0x20003000308, 0, 1, .ctl, 0, .none, 67108864, 896, 0, 1, none⟩ /- CORE_BANK_CONFLICT_CNT_sat -/,
  ⟨0x20003000308, 1, 1, .ctl, 0, .none, 67108864, 896, 0, 1, none⟩ /- CORE_BANK_CONFLICT_CNT_clr -/]

/-- Rows of the core block, part 1 (spec/19 R441). -/
def core1 : List Row := [
  ⟨0x20003000308, 2, 1, .rw, 0, .none, 67108864, 896, 0, 1, none⟩ /- CORE_BANK_CONFLICT_CNT_ev_en -/,
  ⟨0x20003000310, 0, 64, .ctr, 0, .none, 67108864, 896, 0, 1, none⟩ /- CORE_CTX_SWITCH_CNT -/,
  ⟨0x20003000318, 0, 1, .ctl, 0, .none, 67108864, 896, 0, 1, none⟩ /- CORE_CTX_SWITCH_CNT_sat -/,
  ⟨0x20003000318, 1, 1, .ctl, 0, .none, 67108864, 896, 0, 1, none⟩ /- CORE_CTX_SWITCH_CNT_clr -/,
  ⟨0x20003000318, 2, 1, .rw, 0, .none, 67108864, 896, 0, 1, none⟩ /- CORE_CTX_SWITCH_CNT_ev_en -/,
  ⟨0x20003000320, 0, 64, .ctr, 0, .none, 67108864, 896, 0, 1, none⟩ /- CORE_SRAM_CE_CNT -/,
  ⟨0x20003000328, 0, 1, .ctl, 0, .none, 67108864, 896, 0, 1, none⟩ /- CORE_SRAM_CE_CNT_sat -/,
  ⟨0x20003000328, 1, 1, .ctl, 0, .none, 67108864, 896, 0, 1, none⟩ /- CORE_SRAM_CE_CNT_clr -/,
  ⟨0x20003000328, 2, 1, .rw, 0, .none, 67108864, 896, 0, 1, none⟩ /- CORE_SRAM_CE_CNT_ev_en -/,
  ⟨0x20003000330, 0, 64, .ctr, 0, .none, 67108864, 896, 0, 1, none⟩ /- CORE_ATU_MISS_CNT -/,
  ⟨0x20003000338, 0, 1, .ctl, 0, .none, 67108864, 896, 0, 1, none⟩ /- CORE_ATU_MISS_CNT_sat -/,
  ⟨0x20003000338, 1, 1, .ctl, 0, .none, 67108864, 896, 0, 1, none⟩ /- CORE_ATU_MISS_CNT_clr -/,
  ⟨0x20003000338, 2, 1, .rw, 0, .none, 67108864, 896, 0, 1, none⟩ /- CORE_ATU_MISS_CNT_ev_en -/,
  ⟨0x20003000340, 0, 64, .ctr, 0, .none, 67108864, 896, 0, 1, none⟩ /- CORE_STR_HOL_CNT -/,
  ⟨0x20003000348, 0, 1, .ctl, 0, .none, 67108864, 896, 0, 1, none⟩ /- CORE_STR_HOL_CNT_sat -/,
  ⟨0x20003000348, 1, 1, .ctl, 0, .none, 67108864, 896, 0, 1, none⟩ /- CORE_STR_HOL_CNT_clr -/,
  ⟨0x20003000348, 2, 1, .rw, 0, .none, 67108864, 896, 0, 1, none⟩ /- CORE_STR_HOL_CNT_ev_en -/,
  ⟨0x20003000350, 0, 64, .ctr, 0, .none, 67108864, 896, 0, 1, none⟩ /- CORE_STR_REQ_CNT -/,
  ⟨0x20003000358, 0, 1, .ctl, 0, .none, 67108864, 896, 0, 1, none⟩ /- CORE_STR_REQ_CNT_sat -/,
  ⟨0x20003000358, 1, 1, .ctl, 0, .none, 67108864, 896, 0, 1, none⟩ /- CORE_STR_REQ_CNT_clr -/,
  ⟨0x20003000358, 2, 1, .rw, 0, .none, 67108864, 896, 0, 1, none⟩ /- CORE_STR_REQ_CNT_ev_en -/,
  ⟨0x20003000360, 0, 64, .ctr, 0, .none, 67108864, 896, 0, 1, none⟩ /- CORE_STR_MERGE_CNT -/,
  ⟨0x20003000368, 0, 1, .ctl, 0, .none, 67108864, 896, 0, 1, none⟩ /- CORE_STR_MERGE_CNT_sat -/,
  ⟨0x20003000368, 1, 1, .ctl, 0, .none, 67108864, 896, 0, 1, none⟩ /- CORE_STR_MERGE_CNT_clr -/,
  ⟨0x20003000368, 2, 1, .rw, 0, .none, 67108864, 896, 0, 1, none⟩ /- CORE_STR_MERGE_CNT_ev_en -/,
  ⟨0x20003000370, 0, 64, .ctr, 0, .none, 67108864, 896, 0, 1, none⟩ /- CORE_STR_HALT_CNT -/,
  ⟨0x20003000378, 0, 1, .ctl, 0, .none, 67108864, 896, 0, 1, none⟩ /- CORE_STR_HALT_CNT_sat -/,
  ⟨0x20003000378, 1, 1, .ctl, 0, .none, 67108864, 896, 0, 1, none⟩ /- CORE_STR_HALT_CNT_clr -/,
  ⟨0x20003000378, 2, 1, .rw, 0, .none, 67108864, 896, 0, 1, none⟩ /- CORE_STR_HALT_CNT_ev_en -/,
  ⟨0x20003000380, 0, 64, .ctr, 0, .none, 67108864, 896, 0, 1, none⟩ /- CORE_SLM_WAIT_CNT -/]

/-- Rows of the core block, part 2 (spec/19 R441). -/
def core2 : List Row := [
  ⟨0x20003000388, 0, 1, .ctl, 0, .none, 67108864, 896, 0, 1, none⟩ /- CORE_SLM_WAIT_CNT_sat -/,
  ⟨0x20003000388, 1, 1, .ctl, 0, .none, 67108864, 896, 0, 1, none⟩ /- CORE_SLM_WAIT_CNT_clr -/,
  ⟨0x20003000388, 2, 1, .rw, 0, .none, 67108864, 896, 0, 1, none⟩ /- CORE_SLM_WAIT_CNT_ev_en -/,
  ⟨0x20003000390, 0, 64, .ctr, 0, .none, 67108864, 896, 0, 1, none⟩ /- CORE_SNOW_SPILL_CNT -/,
  ⟨0x20003000398, 0, 1, .ctl, 0, .none, 67108864, 896, 0, 1, none⟩ /- CORE_SNOW_SPILL_CNT_sat -/,
  ⟨0x20003000398, 1, 1, .ctl, 0, .none, 67108864, 896, 0, 1, none⟩ /- CORE_SNOW_SPILL_CNT_clr -/,
  ⟨0x20003000398, 2, 1, .rw, 0, .none, 67108864, 896, 0, 1, none⟩ /- CORE_SNOW_SPILL_CNT_ev_en -/,
  ⟨0x200030003A0, 0, 64, .ctr, 0, .none, 67108864, 896, 0, 1, none⟩ /- CORE_SNOW_REFILL_CNT -/,
  ⟨0x200030003A8, 0, 1, .ctl, 0, .none, 67108864, 896, 0, 1, none⟩ /- CORE_SNOW_REFILL_CNT_sat -/,
  ⟨0x200030003A8, 1, 1, .ctl, 0, .none, 67108864, 896, 0, 1, none⟩ /- CORE_SNOW_REFILL_CNT_clr -/,
  ⟨0x200030003A8, 2, 1, .rw, 0, .none, 67108864, 896, 0, 1, none⟩ /- CORE_SNOW_REFILL_CNT_ev_en -/,
  ⟨0x200030003B0, 0, 64, .ctr, 0, .none, 67108864, 896, 0, 1, none⟩ /- CORE_SNOW_WAIT_CNT -/,
  ⟨0x200030003B8, 0, 1, .ctl, 0, .none, 67108864, 896, 0, 1, none⟩ /- CORE_SNOW_WAIT_CNT_sat -/,
  ⟨0x200030003B8, 1, 1, .ctl, 0, .none, 67108864, 896, 0, 1, none⟩ /- CORE_SNOW_WAIT_CNT_clr -/,
  ⟨0x200030003B8, 2, 1, .rw, 0, .none, 67108864, 896, 0, 1, none⟩ /- CORE_SNOW_WAIT_CNT_ev_en -/,
  ⟨0x20003000400, 0, 64, .ctr, 0, .none, 67108864, 896, 128, 2, none⟩ /- CORE_CRV_ISSUE_CNT -/,
  ⟨0x20003000408, 0, 1, .ctl, 0, .none, 67108864, 896, 128, 2, none⟩ /- CORE_CRV_ISSUE_CNT_sat -/,
  ⟨0x20003000408, 1, 1, .ctl, 0, .none, 67108864, 896, 128, 2, none⟩ /- CORE_CRV_ISSUE_CNT_clr -/,
  ⟨0x20003000408, 2, 1, .rw, 0, .none, 67108864, 896, 128, 2, none⟩ /- CORE_CRV_ISSUE_CNT_ev_en -/,
  ⟨0x20003000410, 0, 64, .ctr, 0, .none, 67108864, 896, 128, 2, none⟩ /- CORE_CRV_IN_DRY_CNT -/,
  ⟨0x20003000418, 0, 1, .ctl, 0, .none, 67108864, 896, 128, 2, none⟩ /- CORE_CRV_IN_DRY_CNT_sat -/,
  ⟨0x20003000418, 1, 1, .ctl, 0, .none, 67108864, 896, 128, 2, none⟩ /- CORE_CRV_IN_DRY_CNT_clr -/,
  ⟨0x20003000418, 2, 1, .rw, 0, .none, 67108864, 896, 128, 2, none⟩ /- CORE_CRV_IN_DRY_CNT_ev_en -/,
  ⟨0x20003000420, 0, 64, .ctr, 0, .none, 67108864, 896, 128, 2, none⟩ /- CORE_CRV_FRONT_WAIT_CNT -/,
  ⟨0x20003000428, 0, 1, .ctl, 0, .none, 67108864, 896, 128, 2, none⟩ /- CORE_CRV_FRONT_WAIT_CNT_sat -/,
  ⟨0x20003000428, 1, 1, .ctl, 0, .none, 67108864, 896, 128, 2, none⟩ /- CORE_CRV_FRONT_WAIT_CNT_clr -/,
  ⟨0x20003000428, 2, 1, .rw, 0, .none, 67108864, 896, 128, 2, none⟩ /- CORE_CRV_FRONT_WAIT_CNT_ev_en -/,
  ⟨0x20003000430, 0, 64, .ctr, 0, .none, 67108864, 896, 128, 2, none⟩ /- CORE_CRV_DRAIN_WAIT_CNT -/,
  ⟨0x20003000438, 0, 1, .ctl, 0, .none, 67108864, 896, 128, 2, none⟩ /- CORE_CRV_DRAIN_WAIT_CNT_sat -/,
  ⟨0x20003000438, 1, 1, .ctl, 0, .none, 67108864, 896, 128, 2, none⟩ /- CORE_CRV_DRAIN_WAIT_CNT_clr -/]

/-- Rows of the core block, part 3 (spec/19 R441). -/
def core3 : List Row := [
  ⟨0x20003000438, 2, 1, .rw, 0, .none, 67108864, 896, 128, 2, none⟩ /- CORE_CRV_DRAIN_WAIT_CNT_ev_en -/,
  ⟨0x20003000440, 0, 64, .ctr, 0, .none, 67108864, 896, 128, 2, none⟩ /- CORE_CRV_REG_WAIT_CNT -/,
  ⟨0x20003000448, 0, 1, .ctl, 0, .none, 67108864, 896, 128, 2, none⟩ /- CORE_CRV_REG_WAIT_CNT_sat -/,
  ⟨0x20003000448, 1, 1, .ctl, 0, .none, 67108864, 896, 128, 2, none⟩ /- CORE_CRV_REG_WAIT_CNT_clr -/,
  ⟨0x20003000448, 2, 1, .rw, 0, .none, 67108864, 896, 128, 2, none⟩ /- CORE_CRV_REG_WAIT_CNT_ev_en -/,
  ⟨0x20003001000, 58, 6, .ro, 0, .none, 67108864, 896, 128, 16, none⟩ /- CORE_RING_CFG_nm1 -/,
  ⟨0x20003001000, 32, 26, .ro, 0, .none, 67108864, 896, 128, 16, none⟩ /- CORE_RING_CFG_cbytes -/,
  ⟨0x20003001000, 31, 1, .ro, 0, .none, 67108864, 896, 128, 16, none⟩ /- CORE_RING_CFG_configured -/,
  ⟨0x20003001000, 6, 20, .ro, 0, .none, 67108864, 896, 128, 16, none⟩ /- CORE_RING_CFG_base -/,
  ⟨0x20003001008, 24, 7, .ro, 0, .none, 67108864, 896, 128, 16, none⟩ /- CORE_RING_PTR_CR -/,
  ⟨0x20003001008, 16, 7, .ro, 0, .none, 67108864, 896, 128, 16, none⟩ /- CORE_RING_PTR_CA -/,
  ⟨0x20003001008, 8, 7, .ro, 0, .none, 67108864, 896, 128, 16, none⟩ /- CORE_RING_PTR_PR -/,
  ⟨0x20003001008, 0, 7, .ro, 0, .none, 67108864, 896, 128, 16, none⟩ /- CORE_RING_PTR_PA -/,
  ⟨0x20003001010, 4, 2, .ro, 0, .none, 67108864, 896, 128, 16, none⟩ /- CORE_RING_STS_cons -/,
  ⟨0x20003001010, 2, 2, .ro, 0, .none, 67108864, 896, 128, 16, none⟩ /- CORE_RING_STS_prod -/,
  ⟨0x20003001010, 1, 1, .ro, 0, .none, 67108864, 896, 128, 16, none⟩ /- CORE_RING_STS_halted -/,
  ⟨0x20003001010, 0, 1, .ro, 0, .none, 67108864, 896, 128, 16, none⟩ /- CORE_RING_STS_aborted -/,
  ⟨0x20003001018, 2, 1, .act, 0, .none, 67108864, 896, 128, 16, none⟩ /- CORE_RING_CTL_reset -/,
  ⟨0x20003001018, 1, 1, .act, 0, .none, 67108864, 896, 128, 16, none⟩ /- CORE_RING_CTL_abort -/,
  ⟨0x20003001018, 0, 1, .act, 0, .none, 67108864, 896, 128, 16, none⟩ /- CORE_RING_CTL_resume -/,
  ⟨0x20003001020, 0, 16, .ro, 0, .none, 67108864, 896, 128, 16, none⟩ /- CORE_RING_FAULT_code -/,
  ⟨0x20003001028, 0, 64, .ro, 0, .none, 67108864, 896, 128, 16, none⟩ /- CORE_RING_FAULT_addr -/,
  ⟨0x20003001030, 32, 6, .ro, 0, .none, 67108864, 896, 128, 16, none⟩ /- CORE_RING_FPOS_chair -/,
  ⟨0x20003001030, 16, 16, .ro, 0, .none, 67108864, 896, 128, 16, none⟩ /- CORE_RING_FPOS_row -/,
  ⟨0x20003001030, 4, 12, .ro, 0, .none, 67108864, 896, 128, 16, none⟩ /- CORE_RING_FPOS_desc -/,
  ⟨0x20003001030, 0, 2, .ro, 0, .none, 67108864, 896, 128, 16, none⟩ /- CORE_RING_FPOS_slot -/,
  ⟨0x20003001038, 32, 32, .ro, 0, .none, 67108864, 896, 128, 16, none⟩ /- CORE_RING_FPOS_chair_off -/,
  ⟨0x20003001038, 0, 32, .ro, 0, .none, 67108864, 896, 128, 16, none⟩ /- CORE_RING_FPOS_byte -/,
  ⟨0x20003001040, 0, 64, .ctr, 0, .none, 67108864, 896, 128, 16, none⟩ /- CORE_RING_WAIT_CNT -/,
  ⟨0x20003001048, 0, 1, .ctl, 0, .none, 67108864, 896, 128, 16, none⟩ /- CORE_RING_WAIT_CNT_sat -/]

/-- Rows of the core block, part 4 (spec/19 R441). -/
def core4 : List Row := [
  ⟨0x20003001048, 1, 1, .ctl, 0, .none, 67108864, 896, 128, 16, none⟩ /- CORE_RING_WAIT_CNT_clr -/,
  ⟨0x20003001048, 2, 1, .rw, 0, .none, 67108864, 896, 128, 16, none⟩ /- CORE_RING_WAIT_CNT_ev_en -/,
  ⟨0x20003001800, 0, 16, .ro, 0, .none, 67108864, 896, 64, 8, none⟩ /- CORE_XSLOT_FAULT_code -/,
  ⟨0x20003001808, 0, 64, .ro, 0, .none, 67108864, 896, 64, 8, none⟩ /- CORE_XSLOT_FAULT_addr -/,
  ⟨0x20003001810, 0, 64, .ro, 0, .none, 67108864, 896, 64, 8, none⟩ /- CORE_XSLOT_FPOS -/,
  ⟨0x20003001818, 1, 1, .act, 0, .none, 67108864, 896, 64, 8, none⟩ /- CORE_XSLOT_CTL_abort -/,
  ⟨0x20003001818, 0, 1, .act, 0, .none, 67108864, 896, 64, 8, none⟩ /- CORE_XSLOT_CTL_resume -/]

/-- All rows of the core block. -/
def core : List Row := core0 ++ core1 ++ core2 ++ core3 ++ core4

end Table

/-! The place of each field by name (spec/19); an array field takes the instance numbers, outer first. -/
namespace F

@[reducible] def DEV_ID_bc : Fld := ⟨0x30000000000, 16, 32⟩
@[reducible] def DEV_ID_stepping : Fld := ⟨0x30000000000, 0, 8⟩
@[reducible] def DEV_FW_VERSION : Fld := ⟨0x30000000008, 0, 64⟩
@[reducible] def DEV_MODE_CFG_keep_half : Fld := ⟨0x30000000010, 1, 1⟩
@[reducible] def DEV_MODE_CFG_force_half : Fld := ⟨0x30000000010, 0, 1⟩
@[reducible] def DEV_MODE_STS_no_compute : Fld := ⟨0x30000000018, 3, 1⟩
@[reducible] def DEV_MODE_STS_degraded : Fld := ⟨0x30000000018, 2, 1⟩
@[reducible] def DEV_MODE_STS_half : Fld := ⟨0x30000000018, 1, 1⟩
@[reducible] def DEV_MODE_STS_half_mode : Fld := ⟨0x30000000018, 0, 1⟩
@[reducible] def DEV_NODE_ID_node_id : Fld := ⟨0x30000000020, 0, 22⟩
@[reducible] def DEV_ADDR_CFG_node_format : Fld := ⟨0x30000000028, 0, 1⟩
@[reducible] def DEV_FLAT_TABLE_BASE : Fld := ⟨0x30000000030, 12, 30⟩
@[reducible] def DEV_FLAT_TABLE_LEN : Fld := ⟨0x30000000038, 0, 23⟩
@[reducible] def DEV_EXEC_CFG_mode : Fld := ⟨0x30000000040, 0, 2⟩
@[reducible] def DEV_HIER_GRP_g_unit : Fld := ⟨0x30000000048, 32, 6⟩
@[reducible] def DEV_HIER_GRP_g_slot : Fld := ⟨0x30000000048, 24, 6⟩
@[reducible] def DEV_HIER_GRP_g_rack : Fld := ⟨0x30000000048, 16, 6⟩
@[reducible] def DEV_HIER_GRP_g_row : Fld := ⟨0x30000000048, 8, 6⟩
@[reducible] def DEV_HIER_GRP_g_hall : Fld := ⟨0x30000000048, 0, 6⟩
@[reducible] def DEV_LGRP_CTL_admit : Fld := ⟨0x30000000050, 0, 1⟩
@[reducible] def DEV_RSP_TMO_us : Fld := ⟨0x30000000058, 0, 20⟩
@[reducible] def DEV_LODGE_WDT_ms : Fld := ⟨0x30000000060, 0, 14⟩
@[reducible] def DEV_LODGE_CTL_restart : Fld := ⟨0x30000000068, 0, 1⟩
@[reducible] def DEV_BOOT_STS_stack : Fld := ⟨0x30000000070, 32, 4⟩
@[reducible] def DEV_BOOT_STS_code : Fld := ⟨0x30000000070, 16, 16⟩
@[reducible] def DEV_BOOT_STS_stage : Fld := ⟨0x30000000070, 0, 4⟩
@[reducible] def DEV_JOIN_CTL_join : Fld := ⟨0x30000000078, 0, 1⟩
@[reducible] def DEV_RESET_CTL_warm : Fld := ⟨0x30000000080, 0, 1⟩
@[reducible] def DEV_RUNOUT_CTL_now : Fld := ⟨0x30000000088, 1, 1⟩
@[reducible] def DEV_RUNOUT_CTL_start : Fld := ⟨0x30000000088, 0, 1⟩
@[reducible] def DEV_RUNOUT_STS_stage : Fld := ⟨0x30000000090, 0, 4⟩
@[reducible] def DEV_RUNOUT_CFG_drain_ms : Fld := ⟨0x30000000098, 32, 22⟩
@[reducible] def DEV_RUNOUT_CFG_wait_ms : Fld := ⟨0x30000000098, 0, 20⟩
@[reducible] def DEV_TIME : Fld := ⟨0x300000000A0, 0, 64⟩
@[reducible] def DEV_TIME_SET : Fld := ⟨0x300000000A8, 0, 64⟩
@[reducible] def DEV_LATE_RSP_CNT : Fld := ⟨0x300000000B0, 0, 64⟩
@[reducible] def DEV_LATE_RSP_CNT_sat : Fld := ⟨0x300000000B8, 0, 1⟩
@[reducible] def DEV_LATE_RSP_CNT_clr : Fld := ⟨0x300000000B8, 1, 1⟩
@[reducible] def DEV_LATE_RSP_CNT_ev_en : Fld := ⟨0x300000000B8, 2, 1⟩
@[reducible] def DEV_PG_VC_valid (i : Nat) : Fld := ⟨0x30000000100 + 8 * i, 16, 1⟩
@[reducible] def DEV_PG_VC_group (i : Nat) : Fld := ⟨0x30000000100 + 8 * i, 0, 16⟩
@[reducible] def DEV_NODE_OVR_valid (i : Nat) : Fld := ⟨0x30000000200 + 16 * i, 63, 1⟩
@[reducible] def DEV_NODE_OVR_node (i : Nat) : Fld := ⟨0x30000000200 + 16 * i, 0, 22⟩
@[reducible] def DEV_NODE_OVR_route (i : Nat) : Fld := ⟨0x30000000208 + 16 * i, 0, 64⟩
@[reducible] def DEV_LGRP_MASK (i : Nat) : Fld := ⟨0x30000000600 + 8 * i, 0, 32⟩
@[reducible] def DEV_HB_LIST_valid (i : Nat) : Fld := ⟨0x30000000800 + 8 * i, 63, 1⟩
@[reducible] def DEV_HB_LIST_node (i : Nat) : Fld := ⟨0x30000000800 + 8 * i, 0, 22⟩
@[reducible] def DEV_INB_WIN_base (i : Nat) : Fld := ⟨0x30000000A00 + 32 * i, 12, 30⟩
@[reducible] def DEV_INB_WIN_size (i : Nat) : Fld := ⟨0x30000000A08 + 32 * i, 12, 30⟩
@[reducible] def DEV_INB_WIN_rkey (i : Nat) : Fld := ⟨0x30000000A10 + 32 * i, 32, 32⟩
@[reducible] def DEV_INB_WIN_valid (i : Nat) : Fld := ⟨0x30000000A10 + 32 * i, 3, 1⟩
@[reducible] def DEV_INB_WIN_atom (i : Nat) : Fld := ⟨0x30000000A10 + 32 * i, 2, 1⟩
@[reducible] def DEV_INB_WIN_w (i : Nat) : Fld := ⟨0x30000000A10 + 32 * i, 1, 1⟩
@[reducible] def DEV_INB_WIN_r (i : Nat) : Fld := ⟨0x30000000A10 + 32 * i, 0, 1⟩
@[reducible] def FIELD_ID_half (n : Nat) : Fld := ⟨0x30001000000 + 65536 * n, 16, 1⟩
@[reducible] def FIELD_ID_fy (n : Nat) : Fld := ⟨0x30001000000 + 65536 * n, 12, 3⟩
@[reducible] def FIELD_ID_fx (n : Nat) : Fld := ⟨0x30001000000 + 65536 * n, 8, 3⟩
@[reducible] def FIELD_ID_f (n : Nat) : Fld := ⟨0x30001000000 + 65536 * n, 0, 6⟩
@[reducible] def FIELD_SEAM_PRESS_CNT (n i : Nat) : Fld := ⟨0x30001000040 + 65536 * n + 16 * i, 0, 64⟩
@[reducible] def FIELD_SEAM_PRESS_CNT_sat (n i : Nat) : Fld := ⟨0x30001000048 + 65536 * n + 16 * i, 0, 1⟩
@[reducible] def FIELD_SEAM_PRESS_CNT_clr (n i : Nat) : Fld := ⟨0x30001000048 + 65536 * n + 16 * i, 1, 1⟩
@[reducible] def FIELD_SEAM_PRESS_CNT_ev_en (n i : Nat) : Fld := ⟨0x30001000048 + 65536 * n + 16 * i, 2, 1⟩
@[reducible] def CORE_MAP_SPARE_CNT : Fld := ⟨0x30002000000, 0, 11⟩
@[reducible] def CORE_MAP_SPARE_WARN : Fld := ⟨0x30002000008, 0, 11⟩
@[reducible] def CORE_MAP_ABSORB_CNT : Fld := ⟨0x30002000010, 0, 64⟩
@[reducible] def CORE_MAP_ABSORB_CNT_sat : Fld := ⟨0x30002000018, 0, 1⟩
@[reducible] def CORE_MAP_ABSORB_CNT_clr : Fld := ⟨0x30002000018, 1, 1⟩
@[reducible] def CORE_MAP_ABSORB_CNT_ev_en : Fld := ⟨0x30002000018, 2, 1⟩
@[reducible] def CORE_MAP_SITE_STATE_core (i : Nat) : Fld := ⟨0x30002001000 + 8 * i, 16, 10⟩
@[reducible] def CORE_MAP_SITE_STATE_state (i : Nat) : Fld := ⟨0x30002001000 + 8 * i, 0, 2⟩
@[reducible] def CORE_MAP_ENTRY_site (i : Nat) : Fld := ⟨0x30002004000 + 8 * i, 0, 10⟩
@[reducible] def FABRIC_PRESS_CFG_thr0 : Fld := ⟨0x30003000000, 8, 8⟩
@[reducible] def FABRIC_PRESS_CFG_thr1 : Fld := ⟨0x30003000000, 16, 8⟩
@[reducible] def FABRIC_PRESS_CFG_thr2 : Fld := ⟨0x30003000000, 24, 8⟩
@[reducible] def FABRIC_PRESS_CFG_thr3 : Fld := ⟨0x30003000000, 32, 8⟩
@[reducible] def FABRIC_PRESS_CFG_thr4 : Fld := ⟨0x30003000000, 40, 8⟩
@[reducible] def FABRIC_PRESS_CFG_win_log2 : Fld := ⟨0x30003000000, 0, 5⟩
@[reducible] def FABRIC_PRESS_CNT (i : Nat) : Fld := ⟨0x30003000100 + 16 * i, 0, 64⟩
@[reducible] def FABRIC_PRESS_CNT_sat (i : Nat) : Fld := ⟨0x30003000108 + 16 * i, 0, 1⟩
@[reducible] def FABRIC_PRESS_CNT_clr (i : Nat) : Fld := ⟨0x30003000108 + 16 * i, 1, 1⟩
@[reducible] def FABRIC_PRESS_CNT_ev_en (i : Nat) : Fld := ⟨0x30003000108 + 16 * i, 2, 1⟩
@[reducible] def FABRIC_FLIT_CNT (i : Nat) : Fld := ⟨0x30003000200 + 16 * i, 0, 64⟩
@[reducible] def FABRIC_FLIT_CNT_sat (i : Nat) : Fld := ⟨0x30003000208 + 16 * i, 0, 1⟩
@[reducible] def FABRIC_FLIT_CNT_clr (i : Nat) : Fld := ⟨0x30003000208 + 16 * i, 1, 1⟩
@[reducible] def FABRIC_FLIT_CNT_ev_en (i : Nat) : Fld := ⟨0x30003000208 + 16 * i, 2, 1⟩
@[reducible] def FABRIC_PRESS_SUPP_CNT : Fld := ⟨0x30003000300, 0, 64⟩
@[reducible] def FABRIC_PRESS_SUPP_CNT_sat : Fld := ⟨0x30003000308, 0, 1⟩
@[reducible] def FABRIC_PRESS_SUPP_CNT_clr : Fld := ⟨0x30003000308, 1, 1⟩
@[reducible] def FABRIC_PRESS_SUPP_CNT_ev_en : Fld := ⟨0x30003000308, 2, 1⟩
@[reducible] def FABRIC_BAD_PKT_CNT : Fld := ⟨0x30003000310, 0, 64⟩
@[reducible] def FABRIC_BAD_PKT_CNT_sat : Fld := ⟨0x30003000318, 0, 1⟩
@[reducible] def FABRIC_BAD_PKT_CNT_clr : Fld := ⟨0x30003000318, 1, 1⟩
@[reducible] def FABRIC_BAD_PKT_CNT_ev_en : Fld := ⟨0x30003000318, 2, 1⟩
@[reducible] def RIM_INTERLEAVE_CFG_gran_active : Fld := ⟨0x30004000000, 8, 3⟩
@[reducible] def RIM_INTERLEAVE_CFG_gran : Fld := ⟨0x30004000000, 0, 3⟩
@[reducible] def RIM_STACK_STS_stored (i : Nat) : Fld := ⟨0x30004000100 + 8 * i, 8, 1⟩
@[reducible] def RIM_STACK_STS_state (i : Nat) : Fld := ⟨0x30004000100 + 8 * i, 0, 2⟩
@[reducible] def LINK_CFG_auto_retrain (n : Nat) : Fld := ⟨0x30005000000 + 65536 * n, 8, 1⟩
@[reducible] def LINK_CFG_eth_if (n : Nat) : Fld := ⟨0x30005000000 + 65536 * n, 4, 2⟩
@[reducible] def LINK_CFG_mode (n : Nat) : Fld := ⟨0x30005000000 + 65536 * n, 0, 2⟩
@[reducible] def LINK_STS_code (n : Nat) : Fld := ⟨0x30005000008 + 65536 * n, 32, 16⟩
@[reducible] def LINK_STS_port_b (n : Nat) : Fld := ⟨0x30005000008 + 65536 * n, 18, 2⟩
@[reducible] def LINK_STS_port_a (n : Nat) : Fld := ⟨0x30005000008 + 65536 * n, 16, 2⟩
@[reducible] def LINK_STS_width (n : Nat) : Fld := ⟨0x30005000008 + 65536 * n, 8, 5⟩
@[reducible] def LINK_STS_state (n : Nat) : Fld := ⟨0x30005000008 + 65536 * n, 0, 3⟩
@[reducible] def LINK_CTL_retrain (n : Nat) : Fld := ⟨0x30005000010 + 65536 * n, 0, 1⟩
@[reducible] def LINK_TRAIN_TMO_ms (n : Nat) : Fld := ⟨0x30005000018 + 65536 * n, 0, 16⟩
@[reducible] def LINK_FEC_CFG_lane_thr (n : Nat) : Fld := ⟨0x30005000020 + 65536 * n, 0, 16⟩
@[reducible] def LINK_CREDIT_TMO_us (n : Nat) : Fld := ⟨0x30005000028 + 65536 * n, 0, 20⟩
@[reducible] def LINK_MAC_w0 (n : Nat) : Fld := ⟨0x30005000030 + 65536 * n, 0, 48⟩
@[reducible] def LINK_MAC_w1 (n : Nat) : Fld := ⟨0x30005000038 + 65536 * n, 0, 48⟩
@[reducible] def LINK_VC_CREDIT0_min (n : Nat) : Fld := ⟨0x30005000100 + 65536 * n, 0, 13⟩
@[reducible] def LINK_VC_CREDIT1_min (n : Nat) : Fld := ⟨0x30005000108 + 65536 * n, 0, 13⟩
@[reducible] def LINK_VC_CREDIT2_min (n : Nat) : Fld := ⟨0x30005000110 + 65536 * n, 0, 13⟩
@[reducible] def LINK_VC_CREDIT3_min (n : Nat) : Fld := ⟨0x30005000118 + 65536 * n, 0, 13⟩
@[reducible] def LINK_VC_CREDIT4_min (n i : Nat) : Fld := ⟨0x30005000120 + 65536 * n + 8 * i, 0, 13⟩
@[reducible] def LINK_FEC_CORR_CNT (n : Nat) : Fld := ⟨0x30005000200 + 65536 * n, 0, 64⟩
@[reducible] def LINK_FEC_CORR_CNT_sat (n : Nat) : Fld := ⟨0x30005000208 + 65536 * n, 0, 1⟩
@[reducible] def LINK_FEC_CORR_CNT_clr (n : Nat) : Fld := ⟨0x30005000208 + 65536 * n, 1, 1⟩
@[reducible] def LINK_FEC_CORR_CNT_ev_en (n : Nat) : Fld := ⟨0x30005000208 + 65536 * n, 2, 1⟩
@[reducible] def LINK_FEC_UNCORR_CNT (n : Nat) : Fld := ⟨0x30005000210 + 65536 * n, 0, 64⟩
@[reducible] def LINK_FEC_UNCORR_CNT_sat (n : Nat) : Fld := ⟨0x30005000218 + 65536 * n, 0, 1⟩
@[reducible] def LINK_FEC_UNCORR_CNT_clr (n : Nat) : Fld := ⟨0x30005000218 + 65536 * n, 1, 1⟩
@[reducible] def LINK_FEC_UNCORR_CNT_ev_en (n : Nat) : Fld := ⟨0x30005000218 + 65536 * n, 2, 1⟩
@[reducible] def LINK_REPLAY_CNT (n : Nat) : Fld := ⟨0x30005000220 + 65536 * n, 0, 64⟩
@[reducible] def LINK_REPLAY_CNT_sat (n : Nat) : Fld := ⟨0x30005000228 + 65536 * n, 0, 1⟩
@[reducible] def LINK_REPLAY_CNT_clr (n : Nat) : Fld := ⟨0x30005000228 + 65536 * n, 1, 1⟩
@[reducible] def LINK_REPLAY_CNT_ev_en (n : Nat) : Fld := ⟨0x30005000228 + 65536 * n, 2, 1⟩
@[reducible] def LINK_BAD_PKT_CNT (n : Nat) : Fld := ⟨0x30005000230 + 65536 * n, 0, 64⟩
@[reducible] def LINK_BAD_PKT_CNT_sat (n : Nat) : Fld := ⟨0x30005000238 + 65536 * n, 0, 1⟩
@[reducible] def LINK_BAD_PKT_CNT_clr (n : Nat) : Fld := ⟨0x30005000238 + 65536 * n, 1, 1⟩
@[reducible] def LINK_BAD_PKT_CNT_ev_en (n : Nat) : Fld := ⟨0x30005000238 + 65536 * n, 2, 1⟩
@[reducible] def LINK_QP_rkey (n i : Nat) : Fld := ⟨0x30005008000 + 65536 * n + 64 * i, 32, 32⟩
@[reducible] def LINK_QP_cc_step (n i : Nat) : Fld := ⟨0x30005008000 + 65536 * n + 64 * i, 24, 8⟩
@[reducible] def LINK_QP_timeout (n i : Nat) : Fld := ⟨0x30005008000 + 65536 * n + 64 * i, 16, 5⟩
@[reducible] def LINK_QP_retry (n i : Nat) : Fld := ⟨0x30005008000 + 65536 * n + 64 * i, 8, 8⟩
@[reducible] def LINK_QP_mtu (n i : Nat) : Fld := ⟨0x30005008000 + 65536 * n + 64 * i, 4, 2⟩
@[reducible] def LINK_QP_state (n i : Nat) : Fld := ⟨0x30005008000 + 65536 * n + 64 * i, 1, 3⟩
@[reducible] def LINK_QP_port (n i : Nat) : Fld := ⟨0x30005008000 + 65536 * n + 64 * i, 0, 1⟩
@[reducible] def LINK_QP_remote_base (n i : Nat) : Fld := ⟨0x30005008008 + 65536 * n + 64 * i, 0, 64⟩
@[reducible] def LINK_QP_dest_qp (n i : Nat) : Fld := ⟨0x30005008010 + 65536 * n + 64 * i, 0, 24⟩
@[reducible] def LINK_QP_dest_ip_w3 (n i : Nat) : Fld := ⟨0x30005008018 + 65536 * n + 64 * i, 0, 64⟩
@[reducible] def LINK_QP_dest_ip_w4 (n i : Nat) : Fld := ⟨0x30005008020 + 65536 * n + 64 * i, 0, 64⟩
@[reducible] def LINK_QP_udp_sport (n i : Nat) : Fld := ⟨0x30005008028 + 65536 * n + 64 * i, 48, 16⟩
@[reducible] def LINK_QP_next_hop (n i : Nat) : Fld := ⟨0x30005008028 + 65536 * n + 64 * i, 0, 48⟩
@[reducible] def LINK_QP_cc_recover_us (n i : Nat) : Fld := ⟨0x30005008030 + 65536 * n + 64 * i, 0, 32⟩
@[reducible] def WSTREAM_JOB_job_id : Fld := ⟨0x30006000000, 0, 64⟩
@[reducible] def WSTREAM_JOB_go : Fld := ⟨0x30006000008, 63, 1⟩
@[reducible] def WSTREAM_JOB_half : Fld := ⟨0x30006000008, 16, 1⟩
@[reducible] def WSTREAM_JOB_cores : Fld := ⟨0x30006000008, 0, 10⟩
@[reducible] def WSTREAM_JOB_digest_w2 : Fld := ⟨0x30006000010, 0, 64⟩
@[reducible] def WSTREAM_JOB_digest_w3 : Fld := ⟨0x30006000018, 0, 64⟩
@[reducible] def WSTREAM_JOB_digest_w4 : Fld := ⟨0x30006000020, 0, 64⟩
@[reducible] def WSTREAM_JOB_digest_w5 : Fld := ⟨0x30006000028, 0, 64⟩
@[reducible] def WSTREAM_JOB_digest_w6 : Fld := ⟨0x30006000030, 0, 64⟩
@[reducible] def WSTREAM_JOB_digest_w7 : Fld := ⟨0x30006000038, 0, 64⟩
@[reducible] def WSTREAM_JOB_digest_w8 : Fld := ⟨0x30006000040, 0, 64⟩
@[reducible] def WSTREAM_JOB_digest_w9 : Fld := ⟨0x30006000048, 0, 64⟩
@[reducible] def WSTREAM_JOB_CTL_end : Fld := ⟨0x30006000060, 8, 1⟩
@[reducible] def WSTREAM_JOB_CTL_route_reuse : Fld := ⟨0x30006000060, 0, 1⟩
@[reducible] def WSTREAM_JOB_STS_code : Fld := ⟨0x30006000068, 16, 16⟩
@[reducible] def WSTREAM_JOB_STS_starting : Fld := ⟨0x30006000068, 1, 1⟩
@[reducible] def WSTREAM_JOB_STS_ready : Fld := ⟨0x30006000068, 0, 1⟩
@[reducible] def WSTREAM_KEY_STS_valid1 : Fld := ⟨0x30006000070, 49, 1⟩
@[reducible] def WSTREAM_KEY_STS_valid0 : Fld := ⟨0x30006000070, 48, 1⟩
@[reducible] def WSTREAM_KEY_STS_epoch1 : Fld := ⟨0x30006000070, 32, 16⟩
@[reducible] def WSTREAM_KEY_STS_epoch0 : Fld := ⟨0x30006000070, 16, 16⟩
@[reducible] def WSTREAM_KEY_STS_code : Fld := ⟨0x30006000070, 0, 16⟩
@[reducible] def WSTREAM_KEY_TMO_ms : Fld := ⟨0x30006000078, 0, 16⟩
@[reducible] def WSTREAM_IV_CTR : Fld := ⟨0x30006000080, 0, 64⟩
@[reducible] def WSTREAM_PLAN_BASE : Fld := ⟨0x30006000088, 0, 42⟩
@[reducible] def WSTREAM_PLAN_LEN : Fld := ⟨0x30006000090, 0, 17⟩
@[reducible] def WSTREAM_RESV_BASE : Fld := ⟨0x30006000098, 12, 30⟩
@[reducible] def WSTREAM_RESV_LEN : Fld := ⟨0x300060000A0, 0, 16⟩
@[reducible] def WSTREAM_PLAN_CTL_load : Fld := ⟨0x300060000A8, 0, 1⟩
@[reducible] def WSTREAM_PLAN_STS_loaded : Fld := ⟨0x300060000B0, 16, 1⟩
@[reducible] def WSTREAM_PLAN_STS_code : Fld := ⟨0x300060000B0, 0, 16⟩
@[reducible] def WSTREAM_VERSION : Fld := ⟨0x300060000B8, 0, 64⟩
@[reducible] def WSTREAM_VERSION_CFG_track : Fld := ⟨0x300060000C0, 0, 1⟩
@[reducible] def WSTREAM_ENTRY_STS_count : Fld := ⟨0x300060000C8, 32, 16⟩
@[reducible] def WSTREAM_ENTRY_STS_first : Fld := ⟨0x300060000C8, 16, 16⟩
@[reducible] def WSTREAM_ENTRY_STS_failed : Fld := ⟨0x300060000C8, 0, 1⟩
@[reducible] def WSTREAM_BUF_REL : Fld := ⟨0x300060000D0, 0, 16⟩
@[reducible] def WSTREAM_TREE_TMO_ms : Fld := ⟨0x300060000D8, 0, 10⟩
@[reducible] def WSTREAM_JOIN_TOL_ns : Fld := ⟨0x300060000E0, 0, 17⟩
@[reducible] def WSTREAM_JOIN_STS_node : Fld := ⟨0x300060000E8, 16, 22⟩
@[reducible] def WSTREAM_JOIN_STS_code : Fld := ⟨0x300060000E8, 0, 16⟩
@[reducible] def WSTREAM_WBQ_src : Fld := ⟨0x30006000100, 0, 42⟩
@[reducible] def WSTREAM_WBQ_roce : Fld := ⟨0x30006000108, 63, 1⟩
@[reducible] def WSTREAM_WBQ_qp : Fld := ⟨0x30006000108, 48, 13⟩
@[reducible] def WSTREAM_WBQ_entry : Fld := ⟨0x30006000108, 32, 16⟩
@[reducible] def WSTREAM_WBQ_bytes : Fld := ⟨0x30006000108, 0, 32⟩
@[reducible] def WSTREAM_WBQ_wver : Fld := ⟨0x30006000110, 0, 64⟩
@[reducible] def WSTREAM_WBQ_dest : Fld := ⟨0x30006000118, 0, 64⟩
@[reducible] def WSTREAM_ROUTE_DIGEST_w0 : Fld := ⟨0x30006000120, 0, 64⟩
@[reducible] def WSTREAM_ROUTE_DIGEST_w1 : Fld := ⟨0x30006000128, 0, 64⟩
@[reducible] def WSTREAM_ROUTE_DIGEST_w2 : Fld := ⟨0x30006000130, 0, 64⟩
@[reducible] def WSTREAM_ROUTE_DIGEST_w3 : Fld := ⟨0x30006000138, 0, 64⟩
@[reducible] def WSTREAM_ROUTE_DIGEST_w4 : Fld := ⟨0x30006000140, 0, 64⟩
@[reducible] def WSTREAM_ROUTE_DIGEST_w5 : Fld := ⟨0x30006000148, 0, 64⟩
@[reducible] def WSTREAM_ROUTE_DIGEST_w6 : Fld := ⟨0x30006000150, 0, 64⟩
@[reducible] def WSTREAM_ROUTE_DIGEST_w7 : Fld := ⟨0x30006000158, 0, 64⟩
@[reducible] def WSTREAM_CFG_DIGEST_w0 : Fld := ⟨0x30006000160, 0, 64⟩
@[reducible] def WSTREAM_CFG_DIGEST_w1 : Fld := ⟨0x30006000168, 0, 64⟩
@[reducible] def WSTREAM_CFG_DIGEST_w2 : Fld := ⟨0x30006000170, 0, 64⟩
@[reducible] def WSTREAM_CFG_DIGEST_w3 : Fld := ⟨0x30006000178, 0, 64⟩
@[reducible] def WSTREAM_CFG_DIGEST_w4 : Fld := ⟨0x30006000180, 0, 64⟩
@[reducible] def WSTREAM_CFG_DIGEST_w5 : Fld := ⟨0x30006000188, 0, 64⟩
@[reducible] def WSTREAM_CFG_DIGEST_w6 : Fld := ⟨0x30006000190, 0, 64⟩
@[reducible] def WSTREAM_CFG_DIGEST_w7 : Fld := ⟨0x30006000198, 0, 64⟩
@[reducible] def WSTREAM_BAD_REC_CNT : Fld := ⟨0x300060001A0, 0, 64⟩
@[reducible] def WSTREAM_BAD_REC_CNT_sat : Fld := ⟨0x300060001A8, 0, 1⟩
@[reducible] def WSTREAM_BAD_REC_CNT_clr : Fld := ⟨0x300060001A8, 1, 1⟩
@[reducible] def WSTREAM_BAD_REC_CNT_ev_en : Fld := ⟨0x300060001A8, 2, 1⟩
@[reducible] def WSTREAM_DROP_CNT : Fld := ⟨0x300060001B0, 0, 64⟩
@[reducible] def WSTREAM_DROP_CNT_sat : Fld := ⟨0x300060001B8, 0, 1⟩
@[reducible] def WSTREAM_DROP_CNT_clr : Fld := ⟨0x300060001B8, 1, 1⟩
@[reducible] def WSTREAM_DROP_CNT_ev_en : Fld := ⟨0x300060001B8, 2, 1⟩
@[reducible] def WSTREAM_AUTH_FAIL_CNT : Fld := ⟨0x300060001C0, 0, 64⟩
@[reducible] def WSTREAM_AUTH_FAIL_CNT_sat : Fld := ⟨0x300060001C8, 0, 1⟩
@[reducible] def WSTREAM_AUTH_FAIL_CNT_clr : Fld := ⟨0x300060001C8, 1, 1⟩
@[reducible] def WSTREAM_AUTH_FAIL_CNT_ev_en : Fld := ⟨0x300060001C8, 2, 1⟩
@[reducible] def WSTREAM_ENTRY_DONE_CNT : Fld := ⟨0x300060001D0, 0, 64⟩
@[reducible] def WSTREAM_ENTRY_DONE_CNT_sat : Fld := ⟨0x300060001D8, 0, 1⟩
@[reducible] def WSTREAM_ENTRY_DONE_CNT_clr : Fld := ⟨0x300060001D8, 1, 1⟩
@[reducible] def WSTREAM_ENTRY_DONE_CNT_ev_en : Fld := ⟨0x300060001D8, 2, 1⟩
@[reducible] def WSTREAM_REL_ERR_CNT : Fld := ⟨0x300060001E0, 0, 64⟩
@[reducible] def WSTREAM_REL_ERR_CNT_sat : Fld := ⟨0x300060001E8, 0, 1⟩
@[reducible] def WSTREAM_REL_ERR_CNT_clr : Fld := ⟨0x300060001E8, 1, 1⟩
@[reducible] def WSTREAM_REL_ERR_CNT_ev_en : Fld := ⟨0x300060001E8, 2, 1⟩
@[reducible] def WSTREAM_KEY_SLOT_w0 : Fld := ⟨0x30006000200, 0, 64⟩
@[reducible] def WSTREAM_KEY_SLOT_w1 : Fld := ⟨0x30006000208, 0, 64⟩
@[reducible] def WSTREAM_KEY_SLOT_w2 : Fld := ⟨0x30006000210, 0, 64⟩
@[reducible] def WSTREAM_KEY_SLOT_w3 : Fld := ⟨0x30006000218, 0, 64⟩
@[reducible] def WSTREAM_KEY_SLOT_w4 : Fld := ⟨0x30006000220, 0, 64⟩
@[reducible] def WSTREAM_KEY_SLOT_w5 : Fld := ⟨0x30006000228, 0, 64⟩
@[reducible] def WSTREAM_KEY_SLOT_w6 : Fld := ⟨0x30006000230, 0, 64⟩
@[reducible] def WSTREAM_KEY_SLOT_w7 : Fld := ⟨0x30006000238, 0, 64⟩
@[reducible] def WSTREAM_KEY_SLOT_w8 : Fld := ⟨0x30006000240, 0, 64⟩
@[reducible] def WSTREAM_KEY_SLOT_w9 : Fld := ⟨0x30006000248, 0, 64⟩
@[reducible] def WSTREAM_KEY_SLOT_w10 : Fld := ⟨0x30006000250, 0, 64⟩
@[reducible] def WSTREAM_KEY_SLOT_w11 : Fld := ⟨0x30006000258, 0, 64⟩
@[reducible] def WSTREAM_KEY_SLOT_w12 : Fld := ⟨0x30006000260, 0, 64⟩
@[reducible] def WSTREAM_KEY_SLOT_w13 : Fld := ⟨0x30006000268, 0, 64⟩
@[reducible] def WSTREAM_KEY_SLOT_w14 : Fld := ⟨0x30006000270, 0, 64⟩
@[reducible] def WSTREAM_KEY_SLOT_w15 : Fld := ⟨0x30006000278, 0, 64⟩
@[reducible] def WSTREAM_KEY_SLOT_w16 : Fld := ⟨0x30006000280, 0, 64⟩
@[reducible] def WSTREAM_KEY_SLOT_w17 : Fld := ⟨0x30006000288, 0, 64⟩
@[reducible] def WSTREAM_KEY_SLOT_w18 : Fld := ⟨0x30006000290, 0, 64⟩
@[reducible] def WSTREAM_KEY_SLOT_w19 : Fld := ⟨0x30006000298, 0, 64⟩
@[reducible] def WSTREAM_KEY_SLOT_w20 : Fld := ⟨0x300060002A0, 0, 64⟩
@[reducible] def WSTREAM_KEY_SLOT_w21 : Fld := ⟨0x300060002A8, 0, 64⟩
@[reducible] def WSTREAM_KEY_SLOT_w22 : Fld := ⟨0x300060002B0, 0, 64⟩
@[reducible] def WSTREAM_KEY_SLOT_w23 : Fld := ⟨0x300060002B8, 0, 64⟩
@[reducible] def WSTREAM_KEY_SLOT_w24 : Fld := ⟨0x300060002C0, 0, 64⟩
@[reducible] def WSTREAM_KEY_SLOT_w25 : Fld := ⟨0x300060002C8, 0, 64⟩
@[reducible] def WSTREAM_KEY_SLOT_w26 : Fld := ⟨0x300060002D0, 0, 64⟩
@[reducible] def WSTREAM_KEY_SLOT_w27 : Fld := ⟨0x300060002D8, 0, 64⟩
@[reducible] def WSTREAM_KEY_SLOT_w28 : Fld := ⟨0x300060002E0, 0, 64⟩
@[reducible] def WSTREAM_KEY_SLOT_w29 : Fld := ⟨0x300060002E8, 0, 64⟩
@[reducible] def WSTREAM_KEY_SLOT_w30 : Fld := ⟨0x300060002F0, 0, 64⟩
@[reducible] def WSTREAM_KEY_SLOT_w31 : Fld := ⟨0x300060002F8, 0, 64⟩
@[reducible] def WSTREAM_KEY_SLOT_w32 : Fld := ⟨0x30006000300, 0, 64⟩
@[reducible] def WSTREAM_KEY_SLOT_w33 : Fld := ⟨0x30006000308, 0, 64⟩
@[reducible] def WSTREAM_KEY_SLOT_w34 : Fld := ⟨0x30006000310, 0, 64⟩
@[reducible] def WSTREAM_KEY_SLOT_w35 : Fld := ⟨0x30006000318, 0, 64⟩
@[reducible] def WSTREAM_KEY_SLOT_w36 : Fld := ⟨0x30006000320, 0, 64⟩
@[reducible] def WSTREAM_KEY_SLOT_w37 : Fld := ⟨0x30006000328, 0, 64⟩
@[reducible] def WSTREAM_KEY_SLOT_w38 : Fld := ⟨0x30006000330, 0, 64⟩
@[reducible] def WSTREAM_KEY_SLOT_w39 : Fld := ⟨0x30006000338, 0, 64⟩
@[reducible] def WSTREAM_KEY_SLOT_w40 : Fld := ⟨0x30006000340, 0, 64⟩
@[reducible] def WSTREAM_KEY_SLOT_w41 : Fld := ⟨0x30006000348, 0, 64⟩
@[reducible] def WSTREAM_KEY_SLOT_w42 : Fld := ⟨0x30006000350, 0, 64⟩
@[reducible] def WSTREAM_KEY_SLOT_w43 : Fld := ⟨0x30006000358, 0, 64⟩
@[reducible] def WSTREAM_KEY_SLOT_w44 : Fld := ⟨0x30006000360, 0, 64⟩
@[reducible] def WSTREAM_KEY_SLOT_w45 : Fld := ⟨0x30006000368, 0, 64⟩
@[reducible] def WSTREAM_KEY_SLOT_w46 : Fld := ⟨0x30006000370, 0, 64⟩
@[reducible] def WSTREAM_KEY_SLOT_w47 : Fld := ⟨0x30006000378, 0, 64⟩
@[reducible] def WSTREAM_KEY_SLOT_w48 : Fld := ⟨0x30006000380, 0, 64⟩
@[reducible] def WSTREAM_KEY_SLOT_w49 : Fld := ⟨0x30006000388, 0, 64⟩
@[reducible] def WSTREAM_KEY_SLOT_w50 : Fld := ⟨0x30006000390, 0, 64⟩
@[reducible] def WSTREAM_KEY_SLOT_w51 : Fld := ⟨0x30006000398, 0, 64⟩
@[reducible] def WSTREAM_KEY_SLOT_w52 : Fld := ⟨0x300060003A0, 0, 64⟩
@[reducible] def WSTREAM_KEY_SLOT_w53 : Fld := ⟨0x300060003A8, 0, 64⟩
@[reducible] def WSTREAM_KEY_SLOT_w54 : Fld := ⟨0x300060003B0, 0, 64⟩
@[reducible] def WSTREAM_KEY_SLOT_w55 : Fld := ⟨0x300060003B8, 0, 64⟩
@[reducible] def WSTREAM_KEY_SLOT_w56 : Fld := ⟨0x300060003C0, 0, 64⟩
@[reducible] def WSTREAM_KEY_SLOT_w57 : Fld := ⟨0x300060003C8, 0, 64⟩
@[reducible] def WSTREAM_KEY_SLOT_w58 : Fld := ⟨0x300060003D0, 0, 64⟩
@[reducible] def WSTREAM_KEY_SLOT_w59 : Fld := ⟨0x300060003D8, 0, 64⟩
@[reducible] def WSTREAM_KEY_SLOT_w60 : Fld := ⟨0x300060003E0, 0, 64⟩
@[reducible] def WSTREAM_KEY_SLOT_w61 : Fld := ⟨0x300060003E8, 0, 64⟩
@[reducible] def WSTREAM_KEY_SLOT_w62 : Fld := ⟨0x300060003F0, 0, 64⟩
@[reducible] def WSTREAM_KEY_SLOT_w63 : Fld := ⟨0x300060003F8, 0, 64⟩
@[reducible] def WSTREAM_KEY_EPOCH : Fld := ⟨0x30006000400, 0, 16⟩
@[reducible] def WSTREAM_STREAM_slots (i : Nat) : Fld := ⟨0x30006001000 + 128 * i, 48, 16⟩
@[reducible] def WSTREAM_STREAM_first_slot (i : Nat) : Fld := ⟨0x30006001000 + 128 * i, 32, 16⟩
@[reducible] def WSTREAM_STREAM_ndown (i : Nat) : Fld := ⟨0x30006001000 + 128 * i, 24, 4⟩
@[reducible] def WSTREAM_STREAM_valid (i : Nat) : Fld := ⟨0x30006001000 + 128 * i, 16, 1⟩
@[reducible] def WSTREAM_STREAM_id (i : Nat) : Fld := ⟨0x30006001000 + 128 * i, 0, 16⟩
@[reducible] def WSTREAM_STREAM_roce (i : Nat) : Fld := ⟨0x30006001008 + 128 * i, 63, 1⟩
@[reducible] def WSTREAM_STREAM_qp (i : Nat) : Fld := ⟨0x30006001008 + 128 * i, 48, 13⟩
@[reducible] def WSTREAM_STREAM_up_node (i : Nat) : Fld := ⟨0x30006001008 + 128 * i, 0, 22⟩
@[reducible] def WSTREAM_STREAM_up_base (i : Nat) : Fld := ⟨0x30006001010 + 128 * i, 0, 64⟩
@[reducible] def WSTREAM_STREAM_up_slots (i : Nat) : Fld := ⟨0x30006001018 + 128 * i, 0, 16⟩
@[reducible] def WSTREAM_STREAM_down_w4 (i : Nat) : Fld := ⟨0x30006001020 + 128 * i, 0, 22⟩
@[reducible] def WSTREAM_STREAM_down_w5 (i : Nat) : Fld := ⟨0x30006001028 + 128 * i, 0, 22⟩
@[reducible] def WSTREAM_STREAM_down_w6 (i : Nat) : Fld := ⟨0x30006001030 + 128 * i, 0, 22⟩
@[reducible] def WSTREAM_STREAM_down_w7 (i : Nat) : Fld := ⟨0x30006001038 + 128 * i, 0, 22⟩
@[reducible] def WSTREAM_STREAM_down_w8 (i : Nat) : Fld := ⟨0x30006001040 + 128 * i, 0, 22⟩
@[reducible] def WSTREAM_STREAM_down_w9 (i : Nat) : Fld := ⟨0x30006001048 + 128 * i, 0, 22⟩
@[reducible] def WSTREAM_STREAM_down_w10 (i : Nat) : Fld := ⟨0x30006001050 + 128 * i, 0, 22⟩
@[reducible] def WSTREAM_STREAM_down_w11 (i : Nat) : Fld := ⟨0x30006001058 + 128 * i, 0, 22⟩
@[reducible] def WSTREAM_TREE_valid (i : Nat) : Fld := ⟨0x30006001800 + 16 * i, 63, 1⟩
@[reducible] def WSTREAM_TREE_slots (i : Nat) : Fld := ⟨0x30006001800 + 16 * i, 32, 16⟩
@[reducible] def WSTREAM_TREE_node (i : Nat) : Fld := ⟨0x30006001800 + 16 * i, 0, 22⟩
@[reducible] def WSTREAM_TREE_base (i : Nat) : Fld := ⟨0x30006001808 + 16 * i, 0, 64⟩
@[reducible] def WSTREAM_TREE_nchild : Fld := ⟨0x30006001850, 0, 4⟩
@[reducible] def WSTREAM_TREE_child_w11 : Fld := ⟨0x30006001858, 0, 22⟩
@[reducible] def WSTREAM_TREE_child_w12 : Fld := ⟨0x30006001860, 0, 22⟩
@[reducible] def WSTREAM_TREE_child_w13 : Fld := ⟨0x30006001868, 0, 22⟩
@[reducible] def WSTREAM_TREE_child_w14 : Fld := ⟨0x30006001870, 0, 22⟩
@[reducible] def WSTREAM_TREE_child_w15 : Fld := ⟨0x30006001878, 0, 22⟩
@[reducible] def WSTREAM_TREE_child_w16 : Fld := ⟨0x30006001880, 0, 22⟩
@[reducible] def WSTREAM_TREE_child_w17 : Fld := ⟨0x30006001888, 0, 22⟩
@[reducible] def WSTREAM_TREE_child_w18 : Fld := ⟨0x30006001890, 0, 22⟩
@[reducible] def RED_PLAN_BASE : Fld := ⟨0x30007000000, 0, 42⟩
@[reducible] def RED_PLAN_LEN : Fld := ⟨0x30007000008, 0, 17⟩
@[reducible] def RED_PLAN_CTL_load : Fld := ⟨0x30007000010, 0, 1⟩
@[reducible] def RED_PLAN_STS_code : Fld := ⟨0x30007000018, 0, 16⟩
@[reducible] def RED_PLAN_STS_digest_w1 : Fld := ⟨0x30007000020, 0, 64⟩
@[reducible] def RED_PLAN_STS_digest_w2 : Fld := ⟨0x30007000028, 0, 64⟩
@[reducible] def RED_PLAN_STS_digest_w3 : Fld := ⟨0x30007000030, 0, 64⟩
@[reducible] def RED_PLAN_STS_digest_w4 : Fld := ⟨0x30007000038, 0, 64⟩
@[reducible] def RED_PLAN_STS_digest_w5 : Fld := ⟨0x30007000040, 0, 64⟩
@[reducible] def RED_PLAN_STS_digest_w6 : Fld := ⟨0x30007000048, 0, 64⟩
@[reducible] def RED_PLAN_STS_digest_w7 : Fld := ⟨0x30007000050, 0, 64⟩
@[reducible] def RED_PLAN_STS_digest_w8 : Fld := ⟨0x30007000058, 0, 64⟩
@[reducible] def RED_CHAIN_BASE : Fld := ⟨0x30007000060, 13, 29⟩
@[reducible] def RED_OWNER_BASE : Fld := ⟨0x30007000068, 19, 23⟩
@[reducible] def RED_OWNER_LEN : Fld := ⟨0x30007000070, 0, 16⟩
@[reducible] def RED_CHAIN_CTL_arm : Fld := ⟨0x30007000078, 0, 1⟩
@[reducible] def RED_STS_armed : Fld := ⟨0x30007000080, 18, 1⟩
@[reducible] def RED_STS_bank : Fld := ⟨0x30007000080, 17, 1⟩
@[reducible] def RED_STS_abandoned : Fld := ⟨0x30007000080, 16, 1⟩
@[reducible] def RED_STS_code : Fld := ⟨0x30007000080, 0, 16⟩
@[reducible] def RED_RX_BASE : Fld := ⟨0x30007000088, 12, 30⟩
@[reducible] def RED_RX_SIZE : Fld := ⟨0x30007000090, 0, 38⟩
@[reducible] def RED_EPOCH : Fld := ⟨0x30007000098, 0, 8⟩
@[reducible] def RED_MEMB_DIGEST_w0 : Fld := ⟨0x300070000A0, 0, 64⟩
@[reducible] def RED_MEMB_DIGEST_w1 : Fld := ⟨0x300070000A8, 0, 64⟩
@[reducible] def RED_MEMB_DIGEST_w2 : Fld := ⟨0x300070000B0, 0, 64⟩
@[reducible] def RED_MEMB_DIGEST_w3 : Fld := ⟨0x300070000B8, 0, 64⟩
@[reducible] def RED_MEMB_DIGEST_w4 : Fld := ⟨0x300070000C0, 0, 64⟩
@[reducible] def RED_MEMB_DIGEST_w5 : Fld := ⟨0x300070000C8, 0, 64⟩
@[reducible] def RED_MEMB_DIGEST_w6 : Fld := ⟨0x300070000D0, 0, 64⟩
@[reducible] def RED_MEMB_DIGEST_w7 : Fld := ⟨0x300070000D8, 0, 64⟩
@[reducible] def RED_POISON_CFG_ev_max : Fld := ⟨0x300070000E0, 8, 8⟩
@[reducible] def RED_POISON_CFG_policy : Fld := ⟨0x300070000E0, 0, 2⟩
@[reducible] def RED_PSN_STS_received : Fld := ⟨0x300070000E8, 32, 1⟩
@[reducible] def RED_PSN_STS_count : Fld := ⟨0x300070000E8, 0, 32⟩
@[reducible] def RED_PSN_STS_cause : Fld := ⟨0x300070000F0, 40, 1⟩
@[reducible] def RED_PSN_STS_element : Fld := ⟨0x300070000F0, 32, 5⟩
@[reducible] def RED_PSN_STS_bucket : Fld := ⟨0x300070000F0, 16, 16⟩
@[reducible] def RED_PSN_STS_layer : Fld := ⟨0x300070000F0, 0, 16⟩
@[reducible] def RED_PSN_STS_block : Fld := ⟨0x300070000F8, 0, 32⟩
@[reducible] def RED_LOSS_SCALE : Fld := ⟨0x30007000108, 0, 32⟩
@[reducible] def RED_RES_RETRY_CNT : Fld := ⟨0x30007000110, 0, 64⟩
@[reducible] def RED_RES_RETRY_CNT_sat : Fld := ⟨0x30007000118, 0, 1⟩
@[reducible] def RED_RES_RETRY_CNT_clr : Fld := ⟨0x30007000118, 1, 1⟩
@[reducible] def RED_RES_RETRY_CNT_ev_en : Fld := ⟨0x30007000118, 2, 1⟩
@[reducible] def RED_RES_FAIL_CNT : Fld := ⟨0x30007000120, 0, 64⟩
@[reducible] def RED_RES_FAIL_CNT_sat : Fld := ⟨0x30007000128, 0, 1⟩
@[reducible] def RED_RES_FAIL_CNT_clr : Fld := ⟨0x30007000128, 1, 1⟩
@[reducible] def RED_RES_FAIL_CNT_ev_en : Fld := ⟨0x30007000128, 2, 1⟩
@[reducible] def RED_STALE_CNT : Fld := ⟨0x30007000130, 0, 64⟩
@[reducible] def RED_STALE_CNT_sat : Fld := ⟨0x30007000138, 0, 1⟩
@[reducible] def RED_STALE_CNT_clr : Fld := ⟨0x30007000138, 1, 1⟩
@[reducible] def RED_STALE_CNT_ev_en : Fld := ⟨0x30007000138, 2, 1⟩
@[reducible] def RED_PSN_ZERO_CNT : Fld := ⟨0x30007000140, 0, 64⟩
@[reducible] def RED_PSN_ZERO_CNT_sat : Fld := ⟨0x30007000148, 0, 1⟩
@[reducible] def RED_PSN_ZERO_CNT_clr : Fld := ⟨0x30007000148, 1, 1⟩
@[reducible] def RED_PSN_ZERO_CNT_ev_en : Fld := ⟨0x30007000148, 2, 1⟩
@[reducible] def RED_PSN_SUPP_CNT : Fld := ⟨0x30007000150, 0, 64⟩
@[reducible] def RED_PSN_SUPP_CNT_sat : Fld := ⟨0x30007000158, 0, 1⟩
@[reducible] def RED_PSN_SUPP_CNT_clr : Fld := ⟨0x30007000158, 1, 1⟩
@[reducible] def RED_PSN_SUPP_CNT_ev_en : Fld := ⟨0x30007000158, 2, 1⟩
@[reducible] def CKPT_STEP_step : Fld := ⟨0x30008000000, 0, 64⟩
@[reducible] def CKPT_VOTE_NCORES : Fld := ⟨0x30008000008, 0, 10⟩
@[reducible] def CKPT_VOTE_TMO_ms : Fld := ⟨0x30008000010, 0, 14⟩
@[reducible] def CKPT_VOTE_STS_outcome : Fld := ⟨0x30008000018, 0, 3⟩
@[reducible] def CKPT_VOTE_STS_step : Fld := ⟨0x30008000020, 0, 64⟩
@[reducible] def CKPT_SREC_CFG_count : Fld := ⟨0x30008000028, 0, 13⟩
@[reducible] def CKPT_TENS_BASE : Fld := ⟨0x30008000030, 0, 42⟩
@[reducible] def CKPT_TENS_LEN : Fld := ⟨0x30008000038, 0, 9⟩
@[reducible] def CKPT_TENS_CTL_load : Fld := ⟨0x30008000040, 0, 1⟩
@[reducible] def CKPT_STS_owner_valid : Fld := ⟨0x30008000048, 48, 1⟩
@[reducible] def CKPT_STS_owner_index : Fld := ⟨0x30008000048, 32, 16⟩
@[reducible] def CKPT_STS_phase : Fld := ⟨0x30008000048, 16, 3⟩
@[reducible] def CKPT_STS_code : Fld := ⟨0x30008000048, 0, 16⟩
@[reducible] def CKPT_STS_map_digest_w1 : Fld := ⟨0x30008000050, 0, 64⟩
@[reducible] def CKPT_STS_map_digest_w2 : Fld := ⟨0x30008000058, 0, 64⟩
@[reducible] def CKPT_STS_map_digest_w3 : Fld := ⟨0x30008000060, 0, 64⟩
@[reducible] def CKPT_STS_map_digest_w4 : Fld := ⟨0x30008000068, 0, 64⟩
@[reducible] def CKPT_STS_map_digest_w5 : Fld := ⟨0x30008000070, 0, 64⟩
@[reducible] def CKPT_STS_map_digest_w6 : Fld := ⟨0x30008000078, 0, 64⟩
@[reducible] def CKPT_STS_map_digest_w7 : Fld := ⟨0x30008000080, 0, 64⟩
@[reducible] def CKPT_STS_map_digest_w8 : Fld := ⟨0x30008000088, 0, 64⟩
@[reducible] def CKPT_BASE_addr : Fld := ⟨0x30008000090, 0, 42⟩
@[reducible] def CKPT_REC_PARTNER_area : Fld := ⟨0x30008000098, 32, 3⟩
@[reducible] def CKPT_REC_PARTNER_node : Fld := ⟨0x30008000098, 0, 22⟩
@[reducible] def CKPT_REC_STORE_base : Fld := ⟨0x300080000A0, 0, 42⟩
@[reducible] def CKPT_REC_STORE_slot_bytes : Fld := ⟨0x300080000A8, 0, 32⟩
@[reducible] def CKPT_UPD_done_step : Fld := ⟨0x300080000B0, 0, 64⟩
@[reducible] def CKPT_CMP_CFG_tmo_ms : Fld := ⟨0x300080000B8, 32, 32⟩
@[reducible] def CKPT_CMP_CFG_steps : Fld := ⟨0x300080000B8, 0, 32⟩
@[reducible] def CKPT_CMP_AREA : Fld := ⟨0x300080000C0, 0, 42⟩
@[reducible] def CKPT_FRZ_CFG_steps : Fld := ⟨0x300080000C8, 32, 32⟩
@[reducible] def CKPT_FRZ_CFG_period_s : Fld := ⟨0x300080000C8, 0, 17⟩
@[reducible] def CKPT_FRZ_ID : Fld := ⟨0x300080000D0, 0, 32⟩
@[reducible] def CKPT_FRZ_STS_done_id : Fld := ⟨0x300080000D8, 0, 32⟩
@[reducible] def CKPT_SIDE_base : Fld := ⟨0x300080000E0, 16, 26⟩
@[reducible] def CKPT_SIDE_size : Fld := ⟨0x300080000E8, 16, 26⟩
@[reducible] def CKPT_DRAIN_RATE_mbps : Fld := ⟨0x300080000F0, 0, 19⟩
@[reducible] def CKPT_POOL_addr : Fld := ⟨0x300080000F8, 0, 64⟩
@[reducible] def CKPT_POOL_roce : Fld := ⟨0x30008000100, 63, 1⟩
@[reducible] def CKPT_POOL_qp : Fld := ⟨0x30008000100, 0, 13⟩
@[reducible] def CKPT_POOL_vc : Fld := ⟨0x30008000108, 8, 4⟩
@[reducible] def CKPT_POOL_keep : Fld := ⟨0x30008000108, 0, 4⟩
@[reducible] def CKPT_POOL_slot_bytes : Fld := ⟨0x30008000110, 0, 48⟩
@[reducible] def CKPT_MEMBER_count : Fld := ⟨0x30008000118, 16, 16⟩
@[reducible] def CKPT_MEMBER_index : Fld := ⟨0x30008000118, 0, 16⟩
@[reducible] def CKPT_CTL_scan : Fld := ⟨0x30008000120, 1, 1⟩
@[reducible] def CKPT_CTL_freeze_now : Fld := ⟨0x30008000120, 0, 1⟩
@[reducible] def CKPT_CTL_promote : Fld := ⟨0x30008000128, 0, 16⟩
@[reducible] def CKPT_CTL_promote_freeze : Fld := ⟨0x30008000130, 0, 32⟩
@[reducible] def CKPT_CTL_promote_pool : Fld := ⟨0x30008000138, 0, 64⟩
@[reducible] def CKPT_CTL_load : Fld := ⟨0x30008000140, 0, 32⟩
@[reducible] def CKPT_CTL_adopt_area : Fld := ⟨0x30008000148, 24, 3⟩
@[reducible] def CKPT_CTL_adopt_node : Fld := ⟨0x30008000148, 0, 22⟩
@[reducible] def CKPT_CTL_adopt_step : Fld := ⟨0x30008000150, 0, 64⟩
@[reducible] def CKPT_RESTORE_shadow_pool : Fld := ⟨0x30008000158, 0, 64⟩
@[reducible] def CKPT_RESTORE_STS_done : Fld := ⟨0x30008000160, 16, 1⟩
@[reducible] def CKPT_RESTORE_STS_code : Fld := ⟨0x30008000160, 0, 16⟩
@[reducible] def CKPT_BUDDY_node : Fld := ⟨0x30008000168, 0, 22⟩
@[reducible] def CKPT_BUDDY_step : Fld := ⟨0x30008000170, 0, 64⟩
@[reducible] def CKPT_BUDDY_bases : Fld := ⟨0x30008000178, 0, 42⟩
@[reducible] def CKPT_BUDDY_FLAG : Fld := ⟨0x30008000188, 0, 42⟩
@[reducible] def CKPT_EXPOSE_STS_start : Fld := ⟨0x30008000190, 0, 64⟩
@[reducible] def CKPT_EXPOSE_STS_end : Fld := ⟨0x30008000198, 0, 64⟩
@[reducible] def CKPT_CA_CNT : Fld := ⟨0x300080001A0, 0, 64⟩
@[reducible] def CKPT_CA_CNT_sat : Fld := ⟨0x300080001A8, 0, 1⟩
@[reducible] def CKPT_CA_CNT_clr : Fld := ⟨0x300080001A8, 1, 1⟩
@[reducible] def CKPT_CA_CNT_ev_en : Fld := ⟨0x300080001A8, 2, 1⟩
@[reducible] def CKPT_CA_WAIT_CNT : Fld := ⟨0x300080001B0, 0, 64⟩
@[reducible] def CKPT_CA_WAIT_CNT_sat : Fld := ⟨0x300080001B8, 0, 1⟩
@[reducible] def CKPT_CA_WAIT_CNT_clr : Fld := ⟨0x300080001B8, 1, 1⟩
@[reducible] def CKPT_CA_WAIT_CNT_ev_en : Fld := ⟨0x300080001B8, 2, 1⟩
@[reducible] def CKPT_SHADOW_STS_diverged (i : Nat) : Fld := ⟨0x30008000200 + 8 * i, 18, 1⟩
@[reducible] def CKPT_SHADOW_STS_role (i : Nat) : Fld := ⟨0x30008000200 + 8 * i, 17, 1⟩
@[reducible] def CKPT_SHADOW_STS_valid (i : Nat) : Fld := ⟨0x30008000200 + 8 * i, 16, 1⟩
@[reducible] def CKPT_SHADOW_STS_owner (i : Nat) : Fld := ⟨0x30008000200 + 8 * i, 0, 16⟩
@[reducible] def CKPT_OWNER_CLEAN_clean (i : Nat) : Fld := ⟨0x30008000300 + 8 * i, 32, 1⟩
@[reducible] def CKPT_OWNER_CLEAN_freeze_id (i : Nat) : Fld := ⟨0x30008000300 + 8 * i, 0, 32⟩
@[reducible] def CKPT_TRUST_w0 (i : Nat) : Fld := ⟨0x30008001000 + 64 * i, 0, 64⟩
@[reducible] def CKPT_TRUST_w1 (i : Nat) : Fld := ⟨0x30008001008 + 64 * i, 0, 64⟩
@[reducible] def CKPT_TRUST_w2 (i : Nat) : Fld := ⟨0x30008001010 + 64 * i, 0, 64⟩
@[reducible] def CKPT_TRUST_w3 (i : Nat) : Fld := ⟨0x30008001018 + 64 * i, 0, 64⟩
@[reducible] def CKPT_TRUST_w4 (i : Nat) : Fld := ⟨0x30008001020 + 64 * i, 0, 64⟩
@[reducible] def CKPT_TRUST_w5 (i : Nat) : Fld := ⟨0x30008001028 + 64 * i, 0, 64⟩
@[reducible] def CKPT_TRUST_w6 (i : Nat) : Fld := ⟨0x30008001030 + 64 * i, 0, 64⟩
@[reducible] def CKPT_TRUST_w7 (i : Nat) : Fld := ⟨0x30008001038 + 64 * i, 0, 64⟩
@[reducible] def CKPT_SCAN_RES_code (i : Nat) : Fld := ⟨0x30008002000 + 16 * i, 32, 16⟩
@[reducible] def CKPT_SCAN_RES_freeze_id (i : Nat) : Fld := ⟨0x30008002000 + 16 * i, 0, 32⟩
@[reducible] def CKPT_SCAN_RES_step (i : Nat) : Fld := ⟨0x30008002008 + 16 * i, 0, 64⟩
@[reducible] def PWR_STS_eff_cap_watts : Fld := ⟨0x30009000000, 32, 32⟩
@[reducible] def PWR_STS_cap_unmet : Fld := ⟨0x30009000000, 18, 1⟩
@[reducible] def PWR_STS_hold : Fld := ⟨0x30009000000, 17, 1⟩
@[reducible] def PWR_STS_clamp : Fld := ⟨0x30009000000, 16, 1⟩
@[reducible] def PWR_STS_common_mhz : Fld := ⟨0x30009000000, 0, 14⟩
@[reducible] def PWR_CAP_CTL_seq : Fld := ⟨0x30009000008, 32, 32⟩
@[reducible] def PWR_CAP_CTL_urgent : Fld := ⟨0x30009000008, 16, 1⟩
@[reducible] def PWR_CAP_CTL_cap_watts : Fld := ⟨0x30009000008, 0, 16⟩
@[reducible] def PWR_CAP_STS_seq : Fld := ⟨0x30009000010, 32, 32⟩
@[reducible] def PWR_CAP_STS_code : Fld := ⟨0x30009000010, 0, 16⟩
@[reducible] def PWR_CAP_CFG_fallback_watts : Fld := ⟨0x30009000018, 48, 16⟩
@[reducible] def PWR_CAP_CFG_lease_ms : Fld := ⟨0x30009000018, 32, 16⟩
@[reducible] def PWR_CAP_CFG_rise_w : Fld := ⟨0x30009000018, 16, 13⟩
@[reducible] def PWR_CAP_CFG_step_w : Fld := ⟨0x30009000018, 0, 13⟩
@[reducible] def PWR_CLAMP_STS_trigger : Fld := ⟨0x30009000020, 8, 3⟩
@[reducible] def PWR_CLAMP_STS_stretch : Fld := ⟨0x30009000020, 0, 7⟩
@[reducible] def PWR_CLAMP_CFG_floor_watts : Fld := ⟨0x30009000028, 0, 16⟩
@[reducible] def PWR_MIN_OP : Fld := ⟨0x30009000030, 0, 16⟩
@[reducible] def PWR_HOLD_W : Fld := ⟨0x30009000038, 0, 16⟩
@[reducible] def PWR_HOLD_CFG_hyst_w : Fld := ⟨0x30009000040, 0, 16⟩
@[reducible] def PWR_CREV_CTL_recal : Fld := ⟨0x30009000048, 0, 1⟩
@[reducible] def PWR_SERVICE_STS_leak : Fld := ⟨0x30009000050, 1, 1⟩
@[reducible] def PWR_SERVICE_STS_crevasse : Fld := ⟨0x30009000050, 0, 1⟩
@[reducible] def PWR_THERM_CFG_target : Fld := ⟨0x30009000058, 0, 7⟩
@[reducible] def PWR_LEAK_CFG_action : Fld := ⟨0x30009000060, 0, 2⟩
@[reducible] def PWR_TEL_RING_frames : Fld := ⟨0x30009000068, 0, 17⟩
@[reducible] def PWR_IN_STS_amps : Fld := ⟨0x30009000070, 32, 32⟩
@[reducible] def PWR_IN_STS_volts : Fld := ⟨0x30009000070, 0, 32⟩
@[reducible] def PWR_IN_STS_watts : Fld := ⟨0x30009000078, 0, 32⟩
@[reducible] def PWR_CLAMP_CNT : Fld := ⟨0x30009000080, 0, 64⟩
@[reducible] def PWR_CLAMP_CNT_sat : Fld := ⟨0x30009000088, 0, 1⟩
@[reducible] def PWR_CLAMP_CNT_clr : Fld := ⟨0x30009000088, 1, 1⟩
@[reducible] def PWR_CLAMP_CNT_ev_en : Fld := ⟨0x30009000088, 2, 1⟩
@[reducible] def PWR_CAP_STALE_CNT : Fld := ⟨0x30009000090, 0, 64⟩
@[reducible] def PWR_CAP_STALE_CNT_sat : Fld := ⟨0x30009000098, 0, 1⟩
@[reducible] def PWR_CAP_STALE_CNT_clr : Fld := ⟨0x30009000098, 1, 1⟩
@[reducible] def PWR_CAP_STALE_CNT_ev_en : Fld := ⟨0x30009000098, 2, 1⟩
@[reducible] def PWR_SITE_CTL_state (i : Nat) : Fld := ⟨0x30009001000 + 8 * i, 0, 2⟩
@[reducible] def PWR_SITE_STS_code (i : Nat) : Fld := ⟨0x30009003000 + 8 * i, 16, 16⟩
@[reducible] def PWR_SITE_STS_derated (i : Nat) : Fld := ⟨0x30009003000 + 8 * i, 13, 1⟩
@[reducible] def PWR_SITE_STS_isolated (i : Nat) : Fld := ⟨0x30009003000 + 8 * i, 12, 1⟩
@[reducible] def PWR_SITE_STS_phases (i : Nat) : Fld := ⟨0x30009003000 + 8 * i, 8, 4⟩
@[reducible] def PWR_SITE_STS_state (i : Nat) : Fld := ⟨0x30009003000 + 8 * i, 0, 2⟩
@[reducible] def CLK_IDLE_TO_ns : Fld := ⟨0x3000A000000, 0, 20⟩
@[reducible] def CLK_PTP_CFG_holdover_ns : Fld := ⟨0x3000A000008, 32, 32⟩
@[reducible] def CLK_PTP_CFG_loss_ms : Fld := ⟨0x3000A000008, 16, 16⟩
@[reducible] def CLK_PTP_CFG_domain : Fld := ⟨0x3000A000008, 8, 7⟩
@[reducible] def CLK_PTP_CFG_transport : Fld := ⟨0x3000A000008, 0, 2⟩
@[reducible] def CLK_PTP_STS_err_ns : Fld := ⟨0x3000A000010, 32, 32⟩
@[reducible] def CLK_PTP_STS_code : Fld := ⟨0x3000A000010, 16, 16⟩
@[reducible] def CLK_PTP_STS_state : Fld := ⟨0x3000A000010, 0, 3⟩
@[reducible] def CLK_WEAR_CFG_warn_days : Fld := ⟨0x3000A000018, 16, 16⟩
@[reducible] def CLK_WEAR_CFG_plan_days : Fld := ⟨0x3000A000018, 8, 7⟩
@[reducible] def CLK_WEAR_CFG_guard_ps : Fld := ⟨0x3000A000018, 0, 6⟩
@[reducible] def CLK_WEAR_LOG_HEAD : Fld := ⟨0x3000A000020, 0, 16⟩
@[reducible] def CLK_WEAR_STS_days_spare : Fld := ⟨0x3000A000028, 32, 32⟩
@[reducible] def CLK_WEAR_STS_days_top : Fld := ⟨0x3000A000028, 0, 32⟩
@[reducible] def CLK_FIELD_STS_neighbour (i : Nat) : Fld := ⟨0x3000A000100 + 8 * i, 8, 6⟩
@[reducible] def CLK_FIELD_STS_borrowed (i : Nat) : Fld := ⟨0x3000A000100 + 8 * i, 0, 1⟩
@[reducible] def CLK_DROOP_CNT (i : Nat) : Fld := ⟨0x3000A001000 + 16 * i, 0, 64⟩
@[reducible] def CLK_DROOP_CNT_sat (i : Nat) : Fld := ⟨0x3000A001008 + 16 * i, 0, 1⟩
@[reducible] def CLK_DROOP_CNT_clr (i : Nat) : Fld := ⟨0x3000A001008 + 16 * i, 1, 1⟩
@[reducible] def CLK_DROOP_CNT_ev_en (i : Nat) : Fld := ⟨0x3000A001008 + 16 * i, 2, 1⟩
@[reducible] def CLK_KICK_CNT (i : Nat) : Fld := ⟨0x3000A005000 + 16 * i, 0, 64⟩
@[reducible] def CLK_KICK_CNT_sat (i : Nat) : Fld := ⟨0x3000A005008 + 16 * i, 0, 1⟩
@[reducible] def CLK_KICK_CNT_clr (i : Nat) : Fld := ⟨0x3000A005008 + 16 * i, 1, 1⟩
@[reducible] def CLK_KICK_CNT_ev_en (i : Nat) : Fld := ⟨0x3000A005008 + 16 * i, 2, 1⟩
@[reducible] def CLK_SITE_VF_valid (i : Nat) : Fld := ⟨0x3000A010000 + 8 * i, 31, 1⟩
@[reducible] def CLK_SITE_VF_vsram_mv (i : Nat) : Fld := ⟨0x3000A010000 + 8 * i, 16, 10⟩
@[reducible] def CLK_SITE_VF_vcore_mv (i : Nat) : Fld := ⟨0x3000A010000 + 8 * i, 0, 10⟩
@[reducible] def SEC_MEAS_w0 (i : Nat) : Fld := ⟨0x3000B000000 + 64 * i, 0, 64⟩
@[reducible] def SEC_MEAS_w1 (i : Nat) : Fld := ⟨0x3000B000008 + 64 * i, 0, 64⟩
@[reducible] def SEC_MEAS_w2 (i : Nat) : Fld := ⟨0x3000B000010 + 64 * i, 0, 64⟩
@[reducible] def SEC_MEAS_w3 (i : Nat) : Fld := ⟨0x3000B000018 + 64 * i, 0, 64⟩
@[reducible] def SEC_MEAS_w4 (i : Nat) : Fld := ⟨0x3000B000020 + 64 * i, 0, 64⟩
@[reducible] def SEC_MEAS_w5 (i : Nat) : Fld := ⟨0x3000B000028 + 64 * i, 0, 64⟩
@[reducible] def SEC_MEAS_w6 (i : Nat) : Fld := ⟨0x3000B000030 + 64 * i, 0, 64⟩
@[reducible] def SEC_MEAS_w7 (i : Nat) : Fld := ⟨0x3000B000038 + 64 * i, 0, 64⟩
@[reducible] def SEC_FW_STS_code : Fld := ⟨0x3000B000200, 16, 16⟩
@[reducible] def SEC_FW_STS_staged : Fld := ⟨0x3000B000200, 8, 2⟩
@[reducible] def SEC_FW_STS_active : Fld := ⟨0x3000B000200, 0, 1⟩
@[reducible] def SEC_FW_CTL_commit : Fld := ⟨0x3000B000208, 0, 1⟩
@[reducible] def SEC_PRES_STS_code : Fld := ⟨0x3000B000210, 16, 16⟩
@[reducible] def SEC_PRES_STS_cmd : Fld := ⟨0x3000B000210, 8, 3⟩
@[reducible] def SEC_PRES_STS_pending : Fld := ⟨0x3000B000210, 0, 1⟩
@[reducible] def SEC_PRES_NONCE_w0 : Fld := ⟨0x3000B000218, 0, 64⟩
@[reducible] def SEC_PRES_NONCE_w1 : Fld := ⟨0x3000B000220, 0, 64⟩
@[reducible] def SEC_PRES_NONCE_w2 : Fld := ⟨0x3000B000228, 0, 64⟩
@[reducible] def SEC_PRES_NONCE_w3 : Fld := ⟨0x3000B000230, 0, 64⟩
@[reducible] def SEC_PRES_NONCE_w4 : Fld := ⟨0x3000B000238, 0, 64⟩
@[reducible] def SEC_PRES_NONCE_w5 : Fld := ⟨0x3000B000240, 0, 64⟩
@[reducible] def SEC_PRES_NONCE_w6 : Fld := ⟨0x3000B000248, 0, 64⟩
@[reducible] def SEC_PRES_NONCE_w7 : Fld := ⟨0x3000B000250, 0, 64⟩
@[reducible] def SEC_PRES_IDLE_CNT : Fld := ⟨0x3000B000260, 0, 64⟩
@[reducible] def SEC_PRES_IDLE_CNT_sat : Fld := ⟨0x3000B000268, 0, 1⟩
@[reducible] def SEC_PRES_IDLE_CNT_clr : Fld := ⟨0x3000B000268, 1, 1⟩
@[reducible] def SEC_PRES_IDLE_CNT_ev_en : Fld := ⟨0x3000B000268, 2, 1⟩
@[reducible] def EVT_RING_CFG_entries : Fld := ⟨0x3000C000000, 0, 21⟩
@[reducible] def EVT_HEAD : Fld := ⟨0x3000C000008, 0, 32⟩
@[reducible] def EVT_LOST_CNT : Fld := ⟨0x3000C000010, 0, 64⟩
@[reducible] def EVT_LOST_CNT_sat : Fld := ⟨0x3000C000018, 0, 1⟩
@[reducible] def EVT_LOST_CNT_clr : Fld := ⟨0x3000C000018, 1, 1⟩
@[reducible] def EVT_LOST_CNT_ev_en : Fld := ⟨0x3000C000018, 2, 1⟩
@[reducible] def EVT_MASKED_CNT : Fld := ⟨0x3000C000020, 0, 64⟩
@[reducible] def EVT_MASKED_CNT_sat : Fld := ⟨0x3000C000028, 0, 1⟩
@[reducible] def EVT_MASKED_CNT_clr : Fld := ⟨0x3000C000028, 1, 1⟩
@[reducible] def EVT_MASKED_CNT_ev_en : Fld := ⟨0x3000C000028, 2, 1⟩
@[reducible] def EVT_ENABLE (i : Nat) : Fld := ⟨0x3000C000100 + 8 * i, 0, 64⟩
@[reducible] def CORE_CTX_STATE (n : Nat) : Fld := ⟨0x20003000000 + 67108864 * n, 0, 32⟩
@[reducible] def CORE_CTX_SLICE_cycles (n : Nat) : Fld := ⟨0x20003000008 + 67108864 * n, 0, 16⟩
@[reducible] def CORE_CTX_RESUME (n : Nat) : Fld := ⟨0x20003000010 + 67108864 * n, 0, 8⟩
@[reducible] def CORE_CTX_KILL (n : Nat) : Fld := ⟨0x20003000018 + 67108864 * n, 0, 8⟩
@[reducible] def CORE_EV_SET (n : Nat) : Fld := ⟨0x20003000020 + 67108864 * n, 0, 32⟩
@[reducible] def CORE_SRAM_CFG_swizzle (n : Nat) : Fld := ⟨0x20003000028 + 67108864 * n, 0, 1⟩
@[reducible] def CORE_SREC_BASE (n : Nat) : Fld := ⟨0x20003000030 + 67108864 * n, 6, 20⟩
@[reducible] def CORE_ATU_ROOT (n : Nat) : Fld := ⟨0x20003000038 + 67108864 * n, 21, 21⟩
@[reducible] def CORE_ATU_INVAL_all (n : Nat) : Fld := ⟨0x20003000040 + 67108864 * n, 63, 1⟩
@[reducible] def CORE_ATU_INVAL_va (n : Nat) : Fld := ⟨0x20003000040 + 67108864 * n, 0, 48⟩
@[reducible] def CORE_ATU_STS_inval_busy (n : Nat) : Fld := ⟨0x20003000048 + 67108864 * n, 0, 1⟩
@[reducible] def CORE_SNOW_TOP_size (n : Nat) : Fld := ⟨0x20003000050 + 67108864 * n, 48, 10⟩
@[reducible] def CORE_SNOW_TOP_base (n : Nat) : Fld := ⟨0x20003000050 + 67108864 * n, 12, 14⟩
@[reducible] def CORE_SNOW_BODY_base (n : Nat) : Fld := ⟨0x20003000058 + 67108864 * n, 12, 30⟩
@[reducible] def CORE_SNOW_BODY_size (n : Nat) : Fld := ⟨0x20003000060 + 67108864 * n, 12, 25⟩
@[reducible] def CORE_SNOW_STS_depth (n : Nat) : Fld := ⟨0x20003000068 + 67108864 * n, 0, 38⟩
@[reducible] def CORE_SNOW_STS_records (n : Nat) : Fld := ⟨0x20003000070 + 67108864 * n, 0, 32⟩
@[reducible] def CORE_CTX_START_ctx (n : Nat) : Fld := ⟨0x20003000080 + 67108864 * n, 0, 3⟩
@[reducible] def CORE_CTX_START_pc (n : Nat) : Fld := ⟨0x20003000088 + 67108864 * n, 3, 23⟩
@[reducible] def CORE_CTX_START_arg (n : Nat) : Fld := ⟨0x20003000090 + 67108864 * n, 0, 64⟩
@[reducible] def CORE_CTX_START_mask (n : Nat) : Fld := ⟨0x20003000098 + 67108864 * n, 32, 16⟩
@[reducible] def CORE_CTX_START_desc (n : Nat) : Fld := ⟨0x20003000098 + 67108864 * n, 5, 21⟩
@[reducible] def CORE_CTX_FAULT_pc (n i : Nat) : Fld := ⟨0x20003000100 + 67108864 * n + 16 * i, 32, 26⟩
@[reducible] def CORE_CTX_FAULT_code (n i : Nat) : Fld := ⟨0x20003000100 + 67108864 * n + 16 * i, 0, 16⟩
@[reducible] def CORE_CTX_FAULT_addr (n i : Nat) : Fld := ⟨0x20003000108 + 67108864 * n + 16 * i, 0, 64⟩
@[reducible] def CORE_CTX_RERR_code (n i : Nat) : Fld := ⟨0x20003000200 + 67108864 * n + 16 * i, 0, 16⟩
@[reducible] def CORE_CTX_RERR_va (n i : Nat) : Fld := ⟨0x20003000208 + 67108864 * n + 16 * i, 0, 64⟩
@[reducible] def CORE_BANK_CONFLICT_CNT (n : Nat) : Fld := ⟨0x20003000300 + 67108864 * n, 0, 64⟩
@[reducible] def CORE_BANK_CONFLICT_CNT_sat (n : Nat) : Fld := ⟨0x20003000308 + 67108864 * n, 0, 1⟩
@[reducible] def CORE_BANK_CONFLICT_CNT_clr (n : Nat) : Fld := ⟨0x20003000308 + 67108864 * n, 1, 1⟩
@[reducible] def CORE_BANK_CONFLICT_CNT_ev_en (n : Nat) : Fld := ⟨0x20003000308 + 67108864 * n, 2, 1⟩
@[reducible] def CORE_CTX_SWITCH_CNT (n : Nat) : Fld := ⟨0x20003000310 + 67108864 * n, 0, 64⟩
@[reducible] def CORE_CTX_SWITCH_CNT_sat (n : Nat) : Fld := ⟨0x20003000318 + 67108864 * n, 0, 1⟩
@[reducible] def CORE_CTX_SWITCH_CNT_clr (n : Nat) : Fld := ⟨0x20003000318 + 67108864 * n, 1, 1⟩
@[reducible] def CORE_CTX_SWITCH_CNT_ev_en (n : Nat) : Fld := ⟨0x20003000318 + 67108864 * n, 2, 1⟩
@[reducible] def CORE_SRAM_CE_CNT (n : Nat) : Fld := ⟨0x20003000320 + 67108864 * n, 0, 64⟩
@[reducible] def CORE_SRAM_CE_CNT_sat (n : Nat) : Fld := ⟨0x20003000328 + 67108864 * n, 0, 1⟩
@[reducible] def CORE_SRAM_CE_CNT_clr (n : Nat) : Fld := ⟨0x20003000328 + 67108864 * n, 1, 1⟩
@[reducible] def CORE_SRAM_CE_CNT_ev_en (n : Nat) : Fld := ⟨0x20003000328 + 67108864 * n, 2, 1⟩
@[reducible] def CORE_ATU_MISS_CNT (n : Nat) : Fld := ⟨0x20003000330 + 67108864 * n, 0, 64⟩
@[reducible] def CORE_ATU_MISS_CNT_sat (n : Nat) : Fld := ⟨0x20003000338 + 67108864 * n, 0, 1⟩
@[reducible] def CORE_ATU_MISS_CNT_clr (n : Nat) : Fld := ⟨0x20003000338 + 67108864 * n, 1, 1⟩
@[reducible] def CORE_ATU_MISS_CNT_ev_en (n : Nat) : Fld := ⟨0x20003000338 + 67108864 * n, 2, 1⟩
@[reducible] def CORE_STR_HOL_CNT (n : Nat) : Fld := ⟨0x20003000340 + 67108864 * n, 0, 64⟩
@[reducible] def CORE_STR_HOL_CNT_sat (n : Nat) : Fld := ⟨0x20003000348 + 67108864 * n, 0, 1⟩
@[reducible] def CORE_STR_HOL_CNT_clr (n : Nat) : Fld := ⟨0x20003000348 + 67108864 * n, 1, 1⟩
@[reducible] def CORE_STR_HOL_CNT_ev_en (n : Nat) : Fld := ⟨0x20003000348 + 67108864 * n, 2, 1⟩
@[reducible] def CORE_STR_REQ_CNT (n : Nat) : Fld := ⟨0x20003000350 + 67108864 * n, 0, 64⟩
@[reducible] def CORE_STR_REQ_CNT_sat (n : Nat) : Fld := ⟨0x20003000358 + 67108864 * n, 0, 1⟩
@[reducible] def CORE_STR_REQ_CNT_clr (n : Nat) : Fld := ⟨0x20003000358 + 67108864 * n, 1, 1⟩
@[reducible] def CORE_STR_REQ_CNT_ev_en (n : Nat) : Fld := ⟨0x20003000358 + 67108864 * n, 2, 1⟩
@[reducible] def CORE_STR_MERGE_CNT (n : Nat) : Fld := ⟨0x20003000360 + 67108864 * n, 0, 64⟩
@[reducible] def CORE_STR_MERGE_CNT_sat (n : Nat) : Fld := ⟨0x20003000368 + 67108864 * n, 0, 1⟩
@[reducible] def CORE_STR_MERGE_CNT_clr (n : Nat) : Fld := ⟨0x20003000368 + 67108864 * n, 1, 1⟩
@[reducible] def CORE_STR_MERGE_CNT_ev_en (n : Nat) : Fld := ⟨0x20003000368 + 67108864 * n, 2, 1⟩
@[reducible] def CORE_STR_HALT_CNT (n : Nat) : Fld := ⟨0x20003000370 + 67108864 * n, 0, 64⟩
@[reducible] def CORE_STR_HALT_CNT_sat (n : Nat) : Fld := ⟨0x20003000378 + 67108864 * n, 0, 1⟩
@[reducible] def CORE_STR_HALT_CNT_clr (n : Nat) : Fld := ⟨0x20003000378 + 67108864 * n, 1, 1⟩
@[reducible] def CORE_STR_HALT_CNT_ev_en (n : Nat) : Fld := ⟨0x20003000378 + 67108864 * n, 2, 1⟩
@[reducible] def CORE_SLM_WAIT_CNT (n : Nat) : Fld := ⟨0x20003000380 + 67108864 * n, 0, 64⟩
@[reducible] def CORE_SLM_WAIT_CNT_sat (n : Nat) : Fld := ⟨0x20003000388 + 67108864 * n, 0, 1⟩
@[reducible] def CORE_SLM_WAIT_CNT_clr (n : Nat) : Fld := ⟨0x20003000388 + 67108864 * n, 1, 1⟩
@[reducible] def CORE_SLM_WAIT_CNT_ev_en (n : Nat) : Fld := ⟨0x20003000388 + 67108864 * n, 2, 1⟩
@[reducible] def CORE_SNOW_SPILL_CNT (n : Nat) : Fld := ⟨0x20003000390 + 67108864 * n, 0, 64⟩
@[reducible] def CORE_SNOW_SPILL_CNT_sat (n : Nat) : Fld := ⟨0x20003000398 + 67108864 * n, 0, 1⟩
@[reducible] def CORE_SNOW_SPILL_CNT_clr (n : Nat) : Fld := ⟨0x20003000398 + 67108864 * n, 1, 1⟩
@[reducible] def CORE_SNOW_SPILL_CNT_ev_en (n : Nat) : Fld := ⟨0x20003000398 + 67108864 * n, 2, 1⟩
@[reducible] def CORE_SNOW_REFILL_CNT (n : Nat) : Fld := ⟨0x200030003A0 + 67108864 * n, 0, 64⟩
@[reducible] def CORE_SNOW_REFILL_CNT_sat (n : Nat) : Fld := ⟨0x200030003A8 + 67108864 * n, 0, 1⟩
@[reducible] def CORE_SNOW_REFILL_CNT_clr (n : Nat) : Fld := ⟨0x200030003A8 + 67108864 * n, 1, 1⟩
@[reducible] def CORE_SNOW_REFILL_CNT_ev_en (n : Nat) : Fld := ⟨0x200030003A8 + 67108864 * n, 2, 1⟩
@[reducible] def CORE_SNOW_WAIT_CNT (n : Nat) : Fld := ⟨0x200030003B0 + 67108864 * n, 0, 64⟩
@[reducible] def CORE_SNOW_WAIT_CNT_sat (n : Nat) : Fld := ⟨0x200030003B8 + 67108864 * n, 0, 1⟩
@[reducible] def CORE_SNOW_WAIT_CNT_clr (n : Nat) : Fld := ⟨0x200030003B8 + 67108864 * n, 1, 1⟩
@[reducible] def CORE_SNOW_WAIT_CNT_ev_en (n : Nat) : Fld := ⟨0x200030003B8 + 67108864 * n, 2, 1⟩
@[reducible] def CORE_CRV_ISSUE_CNT (n i : Nat) : Fld := ⟨0x20003000400 + 67108864 * n + 128 * i, 0, 64⟩
@[reducible] def CORE_CRV_ISSUE_CNT_sat (n i : Nat) : Fld := ⟨0x20003000408 + 67108864 * n + 128 * i, 0, 1⟩
@[reducible] def CORE_CRV_ISSUE_CNT_clr (n i : Nat) : Fld := ⟨0x20003000408 + 67108864 * n + 128 * i, 1, 1⟩
@[reducible] def CORE_CRV_ISSUE_CNT_ev_en (n i : Nat) : Fld := ⟨0x20003000408 + 67108864 * n + 128 * i, 2, 1⟩
@[reducible] def CORE_CRV_IN_DRY_CNT (n i : Nat) : Fld := ⟨0x20003000410 + 67108864 * n + 128 * i, 0, 64⟩
@[reducible] def CORE_CRV_IN_DRY_CNT_sat (n i : Nat) : Fld := ⟨0x20003000418 + 67108864 * n + 128 * i, 0, 1⟩
@[reducible] def CORE_CRV_IN_DRY_CNT_clr (n i : Nat) : Fld := ⟨0x20003000418 + 67108864 * n + 128 * i, 1, 1⟩
@[reducible] def CORE_CRV_IN_DRY_CNT_ev_en (n i : Nat) : Fld := ⟨0x20003000418 + 67108864 * n + 128 * i, 2, 1⟩
@[reducible] def CORE_CRV_FRONT_WAIT_CNT (n i : Nat) : Fld := ⟨0x20003000420 + 67108864 * n + 128 * i, 0, 64⟩
@[reducible] def CORE_CRV_FRONT_WAIT_CNT_sat (n i : Nat) : Fld := ⟨0x20003000428 + 67108864 * n + 128 * i, 0, 1⟩
@[reducible] def CORE_CRV_FRONT_WAIT_CNT_clr (n i : Nat) : Fld := ⟨0x20003000428 + 67108864 * n + 128 * i, 1, 1⟩
@[reducible] def CORE_CRV_FRONT_WAIT_CNT_ev_en (n i : Nat) : Fld := ⟨0x20003000428 + 67108864 * n + 128 * i, 2, 1⟩
@[reducible] def CORE_CRV_DRAIN_WAIT_CNT (n i : Nat) : Fld := ⟨0x20003000430 + 67108864 * n + 128 * i, 0, 64⟩
@[reducible] def CORE_CRV_DRAIN_WAIT_CNT_sat (n i : Nat) : Fld := ⟨0x20003000438 + 67108864 * n + 128 * i, 0, 1⟩
@[reducible] def CORE_CRV_DRAIN_WAIT_CNT_clr (n i : Nat) : Fld := ⟨0x20003000438 + 67108864 * n + 128 * i, 1, 1⟩
@[reducible] def CORE_CRV_DRAIN_WAIT_CNT_ev_en (n i : Nat) : Fld := ⟨0x20003000438 + 67108864 * n + 128 * i, 2, 1⟩
@[reducible] def CORE_CRV_REG_WAIT_CNT (n i : Nat) : Fld := ⟨0x20003000440 + 67108864 * n + 128 * i, 0, 64⟩
@[reducible] def CORE_CRV_REG_WAIT_CNT_sat (n i : Nat) : Fld := ⟨0x20003000448 + 67108864 * n + 128 * i, 0, 1⟩
@[reducible] def CORE_CRV_REG_WAIT_CNT_clr (n i : Nat) : Fld := ⟨0x20003000448 + 67108864 * n + 128 * i, 1, 1⟩
@[reducible] def CORE_CRV_REG_WAIT_CNT_ev_en (n i : Nat) : Fld := ⟨0x20003000448 + 67108864 * n + 128 * i, 2, 1⟩
@[reducible] def CORE_RING_CFG_nm1 (n i : Nat) : Fld := ⟨0x20003001000 + 67108864 * n + 128 * i, 58, 6⟩
@[reducible] def CORE_RING_CFG_cbytes (n i : Nat) : Fld := ⟨0x20003001000 + 67108864 * n + 128 * i, 32, 26⟩
@[reducible] def CORE_RING_CFG_configured (n i : Nat) : Fld := ⟨0x20003001000 + 67108864 * n + 128 * i, 31, 1⟩
@[reducible] def CORE_RING_CFG_base (n i : Nat) : Fld := ⟨0x20003001000 + 67108864 * n + 128 * i, 6, 20⟩
@[reducible] def CORE_RING_PTR_CR (n i : Nat) : Fld := ⟨0x20003001008 + 67108864 * n + 128 * i, 24, 7⟩
@[reducible] def CORE_RING_PTR_CA (n i : Nat) : Fld := ⟨0x20003001008 + 67108864 * n + 128 * i, 16, 7⟩
@[reducible] def CORE_RING_PTR_PR (n i : Nat) : Fld := ⟨0x20003001008 + 67108864 * n + 128 * i, 8, 7⟩
@[reducible] def CORE_RING_PTR_PA (n i : Nat) : Fld := ⟨0x20003001008 + 67108864 * n + 128 * i, 0, 7⟩
@[reducible] def CORE_RING_STS_cons (n i : Nat) : Fld := ⟨0x20003001010 + 67108864 * n + 128 * i, 4, 2⟩
@[reducible] def CORE_RING_STS_prod (n i : Nat) : Fld := ⟨0x20003001010 + 67108864 * n + 128 * i, 2, 2⟩
@[reducible] def CORE_RING_STS_halted (n i : Nat) : Fld := ⟨0x20003001010 + 67108864 * n + 128 * i, 1, 1⟩
@[reducible] def CORE_RING_STS_aborted (n i : Nat) : Fld := ⟨0x20003001010 + 67108864 * n + 128 * i, 0, 1⟩
@[reducible] def CORE_RING_CTL_reset (n i : Nat) : Fld := ⟨0x20003001018 + 67108864 * n + 128 * i, 2, 1⟩
@[reducible] def CORE_RING_CTL_abort (n i : Nat) : Fld := ⟨0x20003001018 + 67108864 * n + 128 * i, 1, 1⟩
@[reducible] def CORE_RING_CTL_resume (n i : Nat) : Fld := ⟨0x20003001018 + 67108864 * n + 128 * i, 0, 1⟩
@[reducible] def CORE_RING_FAULT_code (n i : Nat) : Fld := ⟨0x20003001020 + 67108864 * n + 128 * i, 0, 16⟩
@[reducible] def CORE_RING_FAULT_addr (n i : Nat) : Fld := ⟨0x20003001028 + 67108864 * n + 128 * i, 0, 64⟩
@[reducible] def CORE_RING_FPOS_chair (n i : Nat) : Fld := ⟨0x20003001030 + 67108864 * n + 128 * i, 32, 6⟩
@[reducible] def CORE_RING_FPOS_row (n i : Nat) : Fld := ⟨0x20003001030 + 67108864 * n + 128 * i, 16, 16⟩
@[reducible] def CORE_RING_FPOS_desc (n i : Nat) : Fld := ⟨0x20003001030 + 67108864 * n + 128 * i, 4, 12⟩
@[reducible] def CORE_RING_FPOS_slot (n i : Nat) : Fld := ⟨0x20003001030 + 67108864 * n + 128 * i, 0, 2⟩
@[reducible] def CORE_RING_FPOS_chair_off (n i : Nat) : Fld := ⟨0x20003001038 + 67108864 * n + 128 * i, 32, 32⟩
@[reducible] def CORE_RING_FPOS_byte (n i : Nat) : Fld := ⟨0x20003001038 + 67108864 * n + 128 * i, 0, 32⟩
@[reducible] def CORE_RING_WAIT_CNT (n i : Nat) : Fld := ⟨0x20003001040 + 67108864 * n + 128 * i, 0, 64⟩
@[reducible] def CORE_RING_WAIT_CNT_sat (n i : Nat) : Fld := ⟨0x20003001048 + 67108864 * n + 128 * i, 0, 1⟩
@[reducible] def CORE_RING_WAIT_CNT_clr (n i : Nat) : Fld := ⟨0x20003001048 + 67108864 * n + 128 * i, 1, 1⟩
@[reducible] def CORE_RING_WAIT_CNT_ev_en (n i : Nat) : Fld := ⟨0x20003001048 + 67108864 * n + 128 * i, 2, 1⟩
@[reducible] def CORE_XSLOT_FAULT_code (n i : Nat) : Fld := ⟨0x20003001800 + 67108864 * n + 64 * i, 0, 16⟩
@[reducible] def CORE_XSLOT_FAULT_addr (n i : Nat) : Fld := ⟨0x20003001808 + 67108864 * n + 64 * i, 0, 64⟩
@[reducible] def CORE_XSLOT_FPOS (n i : Nat) : Fld := ⟨0x20003001810 + 67108864 * n + 64 * i, 0, 64⟩
@[reducible] def CORE_XSLOT_CTL_abort (n i : Nat) : Fld := ⟨0x20003001818 + 67108864 * n + 64 * i, 1, 1⟩
@[reducible] def CORE_XSLOT_CTL_resume (n i : Nat) : Fld := ⟨0x20003001818 + 67108864 * n + 64 * i, 0, 1⟩

end F

end Sys2Proof.Machine
end

