-- ==== Sys2Proof/Config.lean ====
section
/-! DEFINITION. Values the specification leaves open, as constants without a body: nothing can evaluate them, so a statement
that mentions one holds whatever it is. Each is named in a row of notes/assumptions. -/

namespace Sys2Proof

/-- The free 64-bit value of generation `g` (log 1): what an undefined or timing-dependent scalar reads as. -/
opaque Config.freeWord (g : Nat) : W64

/-- The free byte of generation `g` at address `a` (log 1): undefined contents of memory (spec/03 R48, spec/04 R92). -/
opaque Config.freeByte (g a : Nat) : Byte

/-- The free contents of an accumulator entry (log 4): array, word, format and generation (spec/03 R55). -/
opaque Config.freeAcc (gen arr word : Nat) (wacc : Bool) : BitVec 80

/-- An image that a job's manifest lists (spec/12 "Job start"): number, size, local address it is written to, the SRAM range reserved for
a core program (core, offset, length), and the SHA-512 digest of its plaintext. -/
structure Image where
  num : Nat
  size : Nat
  dest : Nat
  prog : Option (Nat × Nat × Nat)
  digest : List Byte
  deriving DecidableEq, Repr, Inhabited

/-- The images that a manifest lists, and the route digest a new job declares in it (log 50): the manual gives a manifest no layout. -/
opaque Config.images (manifest : List Byte) : List Image
opaque Config.routeOf (manifest : List Byte) : BitVec 512

/-- The route digest of the registers and tables that route reuse keeps (log 51): the manual names them and gives no order. -/
opaque Config.routeDigest (words : List Byte) : BitVec 512

/-- An RSA-4096 key: modulus, public and private exponent. -/
structure RsaKey where
  n : Nat
  e : Nat
  d : Nat
  deriving DecidableEq, Repr, Inhabited

/-- The keys of the module by identity, counting identity resets (spec/17 Table 17-8; log 52): attestation, weight unwrap, device. -/
opaque Config.ak (gen : Nat) : RsaKey
opaque Config.wk (gen : Nat) : RsaKey
opaque Config.dk : RsaKey

/-- The AES-256 key derived from the SRAM PUF at each boot (Table 17-8; log 52). -/
opaque Config.puf : List Byte

/-- The input power in watts that the power loop predicts with the common cap at a point and the clock at `stretch` 64ths (log 80); the
predicted power with every exposed core at its lowest point, and in HOLD (spec/15 R346, R349, R351, R354), by generation. -/
opaque Config.watts (gen point stretch : Nat) : Nat
opaque Config.minOp (gen : Nat) : BitVec 16
opaque Config.holdWatts (gen : Nat) : BitVec 16

/-- The highest point of a site whose current fits the limit of its working phases (spec/15 R356), and the one that a derated power
entry allows it (R355; log 81). -/
opaque Config.phasePoint (site phases : Nat) : Nat
opaque Config.crevPoint (entry site : Nat) : Nat

/-- The highest point of a site with which its half keeps within half of 30,000 W (spec/15 R355; log 81). -/
opaque Config.halfPoint (site : Nat) : Nat

/-- The calibration of a site at manufacture (spec/16 R377; log 85): the VCORE in microvolts that a picosecond of slack is worth, and that a degree of
temperature is worth. -/
opaque Config.slope (site : Nat) : Nat × Int

/-- The current rating in mA of a power entry that the manual does not rate, and the sites' share of a half (log 82). -/
opaque Config.entryRating (entry : Nat) : Nat

/-- A firmware bundle as it is verified (spec/17 R390-R393): SHA-512 of the root key in its header, version, security version, and the
digests of its five stages. -/
structure Bundle where
  root : BitVec 512 := 0
  version : BitVec 64 := 0
  svn : BitVec 32 := 0
  digests : List (List Byte) := []
  deriving DecidableEq, Repr, Inhabited

/-- The bytes of the IV under which the private key `which` of an identity is wrapped in flash (spec/17 R397; log 52): the manual gives it no form. -/
opaque Config.keyIv (gen which j : Nat) : Byte

/-- The bundle that bytes hold, none when a signature fails (log 83): the manual gives a bundle no layout. -/
opaque Config.bundle (bytes : List Byte) : Option Bundle

/-- Payloads whose layout the manual does not give (log 84): the register values that a configuration record names, the client key
digests of an access list with their roles, and the core-map record of map entries and site states. -/
opaque Config.confRegs (payload : List Byte) : List (Nat × W64)
opaque Config.accessList (payload : List Byte) : List (List Byte × Nat)
opaque Config.mapPayload (entries states : List Nat) : List Byte

/-- The payload of a calibration record (spec/17 Table 17-7): the Crevasse baselines by entry and the wear slopes by site; the manual gives it no
layout (log 84). -/
opaque Config.calPayload (crev : List (Nat × Nat × Nat)) (slopes : List (Nat × Nat × Int)) : List Byte

/-- The DER certificates of DK, AK and WK, by identity (log 52). -/
opaque Config.cert (which gen : Nat) : List Byte

/-- What a slot of a checkpoint pool holds, where a command brings no contents (log 95), and the baselines that a calibration of the
Crevasse detector measures: impedance in nanoohm and temperature in 1/64 degree, by power entry (spec/15 R355). -/
opaque Config.poolSlot (gen k : Nat) : List Byte
opaque Config.crevBase (gen : Nat) : List (Nat × Nat)

/-- The Ethernet priority, modulo 8, of a queue pair's packets (log 125), and the MAC addresses of the identity record by link and port
(spec/11 Table 11-3). -/
opaque Config.priority (qp : Nat) : Nat
opaque Config.mac (link port : Nat) : BitVec 48

end Sys2Proof
end

