-- ==== Sys2Proof/Machine/Sparse.lean ====
section
/-! DEFINITION. Finite maps from numbers as lists of pairs with rising keys: register files, cores, links, sites. A map reads
as a default where it lists no pair. -/

namespace Sys2Proof.Machine

/-- A finite map from numbers: a list of pairs. -/
abbrev Sparse (α : Type) := List (Nat × α)

/-- The value listed at a key. -/
def Sparse.find {α : Type} : Sparse α → Nat → Option α
  | [], _ => none
  | (k, v) :: m, j => if j = k then some v else Sparse.find m j

/-- The value at a key, or the default. -/
def Sparse.get {α : Type} (m : Sparse α) (d : α) (j : Nat) : α := (Sparse.find m j).getD d

/-- The map with one key set; keys stay rising. -/
def Sparse.put {α : Type} : Sparse α → Nat → α → Sparse α
  | [], j, x => [(j, x)]
  | (k, v) :: m, j, x =>
    if j < k then (j, x) :: (k, v) :: m
    else if j = k then (j, x) :: m
    else (k, v) :: Sparse.put m j x

/-- The map without a key. -/
def Sparse.drop {α : Type} (m : Sparse α) (j : Nat) : Sparse α := m.filter (fun p => p.1 ≠ j)

end Sys2Proof.Machine
end

