-- ==== Sys2Proof/Machine/State.lean ====
section
/-! DEFINITION. The state of one XJW1 module as plain data, its reasons to stop, and the state after reset. -/

namespace Sys2Proof.Machine

/-! ## Memory -/

/-- A range of addresses whose bytes the manual calls undefined: start, length and the generation of their free bytes. -/
structure Region where
  start : Nat
  len : Nat
  gen : Nat
  deriving DecidableEq, Repr

/-- The bytes of the local address map (spec/02 Table 02-5): `cells` lists address and byte in rising order; an address that
is not listed reads as 0 (log 2), or as a free byte where a region of `undef` holds it. -/
structure Mem where
  cells : List Host.Cell
  undef : List Region
  deriving DecidableEq, Repr

/-- One entry of an accumulator store (spec/03 R54, Table 03-7): its format and mode and its value, an FP32 pattern or a WACC
pattern (spec/05). -/
structure AccCell where
  wacc : Bool
  tile : Bool
  val : BitVec 80
  deriving DecidableEq, Repr

/-! ## The compute core -/

/-- States of a context (spec/03 Table 03-2). -/
inductive CtxSt where
  | free | ready | running | waiting | faulted
  deriving DecidableEq, Repr

/-- The units of a core that have a command queue (spec/03 Table 03-1, spec/04 R93): the digest unit runs CKDIG. -/
inductive UnitId where
  | a0 | a1 | schuss | groomer | vector | snow | stream | digest
  deriving DecidableEq, Repr

/-- What a WAITING context waits for (spec/03 Table 03-3). -/
inductive Wait where
  | none
  | ring (r : Nat) (consumer : Bool)
  | queue (us : List UnitId)
  | walk
  | endFence
  | rfence
  | barrier (b : Nat)
  | event (f : Nat)
  | pred (p : Nat)
  deriving DecidableEq, Repr

/-- A handle q (spec/04 Table 04-1): ring, role and whether it is bound, and the chair it holds, as the count at which it
acquired it (spec/08 R167). -/
structure Handle where
  ring : Nat := 0
  producer : Bool := false
  bound : Bool := false
  held : Option Nat := none
  deriving DecidableEq, Repr

/-- A scalar or descriptor load that has issued and not returned (spec/04 R76): its register and its data. -/
structure Load where
  desc : Bool
  reg : Nat
  data : BitVec 256
  deriving DecidableEq, Repr

/-- The registers of one context (spec/04 Table 04-1) and its state. `inc` counts its starts, so that a completion for an
earlier program is discarded (spec/04 R79). The sticky flags of the CSW are `nv`, `of`, `sat` and `psn`; `rfail` says that a remote operation has failed since the
last RFENCE (R92). -/
structure Ctx where
  st : CtxSt := .free
  wait : Wait := .none
  s : Sparse W64 := []
  t : Sparse Desc := []
  q : Sparse Handle := []
  p : BitVec 8 := 1
  pc : Nat := 0
  nv : Bool := false
  of : Bool := false
  sat : Bool := false
  psn : Bool := false
  loads : List Load := []
  inc : Nat := 0
  rfail : Bool := false
  deriving DecidableEq, Repr

/-- The operation of a unit command (spec/04 Tables 04-11 to 04-14, R87, R90, R93). -/
inductive UOp where
  | cmm | chb | cbwd | cdrn | czero
  | smv
  | gnrm | gsmx | gnrmb | gsmxb
  | vadd | vsub | vmul | vfma | vmax | vmin | vscale | vexp | vlog | vrcp | vrsqrt | vact | vcvt | vrsum | vamax
  | vgbq | vgba | vgbd | vres | vopt | viadd | vimul | vicmp
  | spush | spop | spskip
  | ckdig | rdsub | rdrecv | ckvote
  deriving DecidableEq, Repr

/-- A command in a unit's queue with the operands it captured at issue (spec/04 R68): its descriptors, the scale descriptors
their tsc fields name, scalars, control and extension fields, completion predicate, the chain it is a gate of, and the conditions it met (nv, of,
sat, psn) once its effect is in place before its end (spec/06 R139), the SRAM ranges that are undefined once it ends (spec/08 R169), and whether
a Herringbone command has the register H1 (spec/06 R140). -/
structure UCmd where
  op : UOp
  ctx : Nat := 0
  inc : Nat := 0
  pd : Nat := 0
  td : Desc := 0
  ta : Desc := 0
  tb : Desc := 0
  tc : Desc := 0
  sd : Desc := 0
  sa : Desc := 0
  sb : Desc := 0
  sc : Desc := 0
  xa : W64 := 0
  xb : W64 := 0
  ctl : BitVec 24 := 0
  ext : W64 := 0
  chain : Option Nat := none
  ran : Option (Bool × Bool × Bool × Bool) := none
  spoils : List (Nat × Nat) := []
  useH1 : Bool := false
  deriving DecidableEq, Repr

/-- A unit: the command it executes, and up to 8 that wait (spec/03 Table 03-3, R43). -/
structure Eng where
  run : Option UCmd := none
  queue : List UCmd := []
  deriving DecidableEq, Repr

/-- A barrier (spec/04 R84): the count its first arrival fixed and the contexts that wait at it. -/
structure Barrier where
  count : Nat := 0
  arrived : List Nat := []
  deriving DecidableEq, Repr

/-- A cached translation (spec/03 R60): page number (VA shifted by the page size), frame and permissions. -/
structure TlbEntry where
  page : Nat
  frame : Nat
  r : Bool
  w : Bool
  dev : Bool
  atom : Bool
  deriving DecidableEq, Repr

/-- What an access does, for the permission check (spec/03 Table 03-9). -/
inductive Access where
  | read | write | atomic
  deriving DecidableEq, Repr

/-- A page-table walk that a scalar access waits for (spec/03 R60): its context and start, the address, the access, and whether
the address is misaligned for it. -/
structure Walk where
  ctx : Nat
  inc : Nat
  va : Nat
  acc : Access
  misaligned : Bool
  deriving DecidableEq, Repr

/-- Who waits for the answer to a request: a ring stream, a transfer slot, an engine of the module by kind and argument, or an endpoint whose
packet reached a link on the fabric (spec/11 R247), with its tag and the operation. -/
inductive ReqSrc where
  | ring (core r : Nat)
  | slot (core x : Nat)
  | engine (kind arg : Nat)
  | fabric (link ep tag op : Nat)
  deriving DecidableEq, Repr

/-- One piece of an external request (spec/08 R178): descriptor, row, first byte of the row, length, and whether the chair closes
after it. -/
structure Seg where
  desc : Nat
  row : Nat
  off : Nat
  len : Nat
  eoc : Bool
  deriving DecidableEq, Repr

/-- How far a request has come: its bytes are being gathered, it is to be issued, it waits for the up-sets to change (spec/11 R256),
it has no answer yet, its data is being placed, it is done, or it has failed; the last two wait for the requests before it (spec/08 R180). -/
inductive Stage where
  | gather | issue | held | wait | place | done | failed
  deriving DecidableEq, Repr

/-- An external request of a stream or slot: address space and address, length, link virtual channel, data, pieces, the position
after it (descriptor, row, byte), stage, its local physical address when it stays on this engine, the tag it was sent with
otherwise, the piece and byte reached, the chair and offset where it began, the chairs it has read in full, the code it failed with, and its number among the requests held at the rim. -/
structure Req where
  space : Nat := 0
  addr : Nat := 0
  len : Nat := 0
  vc : Nat := 0
  zero : Bool := false
  data : List Byte := []
  segs : List Seg := []
  next : Nat × Nat × Nat := (0, 0, 0)
  stage : Stage := .issue
  phys : Option Nat := none
  tag : Option Nat := none
  si : Nat := 0
  so : Nat := 0
  mark : Option Nat := none
  moff : Nat := 0
  rel : List Nat := []
  code : Nat := 0
  ord : Nat := 0
  deriving DecidableEq, Repr

/-- A transfer list on a ring (spec/08 R175): direction, place and count, its command's context and completion predicate, the Slalom
command it is a stream gate of and the bytes that gate moves, the next position, the chair held with its fill or read offset,
the bytes moved, the list slot it runs in, its requests in flight in stream order (spec/08 R172, R180), and the SRAM ranges that are undefined once
it ends (R169). -/
structure XList where
  inbound : Bool
  base : Nat
  count : Nat
  ctx : Nat := 0
  inc : Nat := 0
  pd : Nat := 0
  chain : Option Nat := none
  total : Nat := 0
  desc : Nat := 0
  row : Nat := 0
  off : Nat := 0
  chair : Option Nat := none
  coff : Nat := 0
  moved : Nat := 0
  slot : Nat := 0
  reqs : List Req := []
  spoils : List (Nat × Nat) := []
  deriving DecidableEq, Repr

/-- A Lift ring (spec/08 Table 08-1): its place, the four counters, the counts of chairs released out of order at each end,
its transfer lists, the running one first, the list slot that the next one takes, its halt code, its aborted bit, and whether an aborted
stream or gate has left acquired chairs at the producer end and at the consumer end (R168, R181). -/
structure Ring where
  configured : Bool := false
  base : Nat := 0
  cbytes : Nat := 0
  n : Nat := 0
  pa : Nat := 0
  pr : Nat := 0
  ca : Nat := 0
  cr : Nat := 0
  pdone : List Nat := []
  cdone : List Nat := []
  lists : List XList := []
  slot : Nat := 0
  halt : Option Nat := none
  aborted : Bool := false
  pleft : Bool := false
  cleft : Bool := false
  deriving DecidableEq, Repr

/-- The kind of a remote instruction (spec/04 Table 04-14). -/
inductive ROp where
  | rget | rput | rcopy | ratom
  deriving DecidableEq, Repr

/-- A remote instruction (spec/04 R91, spec/08 R182): its operands (local offset, remote address, second address of RCOPY, length,
operand and compare value, operation and width, virtual channel), its position, whether an RCOPY from this engine has read the piece
it is about to write, its halt code with the address, its request, and the SRAM ranges that are undefined once it ends (spec/08 R169). -/
structure XSlot where
  op : ROp
  ctx : Nat := 0
  inc : Nat := 0
  pd : Nat := 0
  loc : Nat := 0
  rem : Nat := 0
  dst : Nat := 0
  len : Nat := 0
  opnd : W64 := 0
  cmp : W64 := 0
  aop : Nat := 0
  wide : Bool := false
  vc : Nat := 0
  pos : Nat := 0
  half : Bool := false
  halt : Option (Nat × Nat) := none
  req : Option Req := none
  spoils : List (Nat × Nat) := []
  deriving DecidableEq, Repr

/-- A command in the stream engine's queue (spec/08 R172): a list for a ring, a remote instruction, or a fence. -/
inductive SCmd where
  | list (r : Nat) (l : XList)
  | remote (x : XSlot)
  | rfence (ctx inc pd : Nat)
  deriving DecidableEq, Repr

/-- A gate of a Slalom command (spec/08 R183): its units, its command, the ring of a stream gate, the operand that the gate before
it feeds (0 none), whether its output is linked onward, and whether it is also written to SRAM. -/
structure Gate where
  units : List UnitId
  cmd : UCmd
  ring : Option Nat := none
  linkOp : Nat := 0
  linked : Bool := false
  tee : Bool := false
  deriving DecidableEq, Repr

/-- A Slalom command in progress (spec/08 R186-R189): its gates, the rings that feed it and that take its output, the chair of its input ring that it
holds with the bytes taken from it, the bytes it needs and has taken, how many bytes its last gate has handed over and those of them that wait to leave, whether its gates have completed (`fin`), and
the flags they set. What lies on a link follows from what the gates have taken and handed over (log 186). -/
structure Chain where
  id : Nat
  gates : List Gate
  ctx : Nat := 0
  inc : Nat := 0
  pd : Nat := 0
  inRing : Option Nat := none
  outRing : Option Nat := none
  inChair : Option (Nat × Nat) := none
  need : Nat := 0
  inBuf : List Byte := []
  outBuf : List Byte := []
  handed : Nat := 0
  fin : Bool := false
  flags : Bool × Bool × Bool × Bool := (false, false, false, false)
  deriving DecidableEq, Repr

/-- The Snowpack of a core (spec/09 R196-R200). The stack as executed: depth D, the bytes of the top with the lowest first, push
sequence number, data sizes of its records with the newest first. The stack as the control processor sees it at issue, counting
queued commands: depth and data sizes. `known` is how many of the newest sizes its directory holds, `dirWait` says that an
instruction is held for the directory; `spilling` and `refilling` say that a spill or a refill has begun. -/
structure Snow where
  depth : Nat := 0
  top : List Byte := []
  seq : Nat := 0
  recs : List Nat := []
  qdepth : Nat := 0
  sizes : List Nat := []
  known : Nat := 0
  dirWait : Bool := false
  spilling : Bool := false
  refilling : Bool := false
  deriving DecidableEq, Repr

/-- What the registers and buffers of one Carve array hold (spec/06 Table 06-1), an element as its code and its block scale: the weight column of each
unit; the cell registers H0 and H1, cell (i, j) at 128 · i + j; the last two blocks of the front staging; the rows of the gradient tile buffer;
the last 16 vectors or steps that the input buffers took and the last 4 rows of results that the result queues took, as they lie there once
they have passed. -/
structure CarveSt where
  weights : Sparse (List (Nat × Nat)) := []
  h0 : Sparse AccCell := []
  h1 : Sparse AccCell := []
  staging : List (List (List (Nat × Nat))) := []
  gtile : List (List (Nat × Nat)) := []
  input : Sparse (List (List (Nat × Nat))) := []
  results : Sparse (List (List Nat)) := []
  deriving DecidableEq, Repr

/-- One logical core (spec/03): contexts, event flags, barriers, units, rings, stream queue, transfer slots, Slalom commands,
Snowpack, translation caches and walks in flight. Bit a of `turns` says that the next Herringbone command of array a uses H1 (spec/06 R140); `arrays` holds the registers of its arrays. -/
structure Core where
  ctxs : Sparse Ctx := []
  cur : Nat := 0
  ev : BitVec 32 := 0
  bars : Sparse Barrier := []
  a0 : Eng := {}
  a1 : Eng := {}
  schuss : Eng := {}
  groomer : Eng := {}
  vector : Eng := {}
  snowU : Eng := {}
  digest : Eng := {}
  rings : Sparse Ring := []
  sq : List SCmd := []
  slots : Sparse XSlot := []
  chains : List Chain := []
  chainNo : Nat := 0
  snow : Snow := {}
  tlb2 : List TlbEntry := []
  tlb1 : List TlbEntry := []
  walks : List Walk := []
  invalBusy : Bool := false
  turns : BitVec 2 := 0
  arrays : Sparse CarveSt := []
  deriving DecidableEq, Repr

/-! ## The module -/

/-! ## Links (spec/11) -/

/-- A flit in a replay buffer: how often it was sent again, and its contents (spec/11 R242). -/
structure TxFlit where
  seq : Nat
  tries : Nat
  flit : Flit
  deriving DecidableEq, Repr

/-- The link layer of one link: next sequence number to send, highest one received in order, replay buffer, whether a nak goes with the
next flit, the lanes that do not work (spec/11 R236, R242); of the receive buffer, by virtual channel, the flits that it holds and those freed
and not yet returned as credit; of the partner's, its reserves, what it shares, and the flits sent that it has not returned (R243); packets
that wait for the replay buffer or for credit, the rest of the packet granted, the last virtual channel granted, packets granted since one
of VC0 (R245); flits of the packet that is arriving, none between packets, whether it has been found malformed, and by virtual channel the header
of the last packet; whether the link has been UP since the last start. -/
structure LinkSt where
  tx : Nat := 0
  rx : Nat := 4095
  replay : List TxFlit := []
  nak : Bool := false
  lost : BitVec 16 := 0
  held : Sparse Nat := []
  freed : Sparse Nat := []
  reserves : List Nat := [16, 256, 512, 512, 128, 128, 128, 128, 128, 128, 128, 128, 128, 128, 128, 128]
  shared : Nat := 1264
  used : Sparse Nat := []
  queue : List OfpPkt := []
  out : List Flit := []
  lastVc : Nat := 0
  since0 : Nat := 15
  part : Option Nat := none
  bad : Bool := false
  heads : Sparse (List Byte) := []
  once : Bool := false
  deriving DecidableEq, Repr

/-- A request of an endpoint to another node. -/
structure NetReq where
  src : ReqSrc
  ep : Nat
  vc : Nat
  node : Nat
  op : Nat
  addr : Nat
  len : Nat := 0
  aop : Nat := 0
  aw : Bool := false
  data : List Byte := []
  deriving DecidableEq, Repr

/-- A request sent to another node that has no answer yet: tag, link or queue pair, node, virtual channel, endpoint, operation, who
waits for it, and on a queue pair the message, to send again. -/
structure OutReq where
  tag : Nat
  link : Nat
  qp : Option Nat := none
  node : Nat
  vc : Nat := 1
  ep : Nat := 0
  op : Nat
  src : ReqSrc
  msg : RoceMsg := {}
  deriving DecidableEq, Repr

/-- A packet or message of another node that waits to take effect, with those of its flow behind it (spec/11 R247): an OFP packet, or a message
of a queue pair with its kind as an operation. -/
inductive Inb where
  | ofp (p : OfpPkt)
  | roce (kind qp : Nat) (m : RoceMsg)
  deriving DecidableEq, Repr

/-- A COPY that this engine executes for another node (spec/11 R252): where its answer goes, its flow, and the PUTs not yet acknowledged. -/
structure CopyJob where
  id : Nat
  link : Nat
  node : Nat
  ep : Nat
  vc : Nat := 1
  tag : Nat
  left : Nat
  code : Nat := 0
  deriving DecidableEq, Repr

/-- What leaves the module, or a router of its wafer: a flit on a link, a packet of a message of a kind on a queue pair, a message on a management
session, a packet that a router at (x, y) sends out of a port (0 N, 1 E, 2 S, 3 W, 4 core, 5 rim). -/
inductive Out where
  | flit (link : Nat) (f : Flit)
  | roce (qp kind : Nat) (m : RoceMsg)
  | mgmt (session : Nat) (body : List Byte)
  | fab (x y port : Nat) (p : FabPkt)
  deriving DecidableEq, Repr

/-- A queue pair's transport (spec/11 R238): the sequence number of the next request packet, that of the request packet expected next, none before the
first; the last sequence numbers of requests that have failed without an answer; retries of the oldest message, and the rate in 1/256 that the last
notification left, with its time. -/
structure QpSt where
  tx : Nat := 0
  rx : Option Nat := none
  late : List Nat := []
  tries : Nat := 0
  rate : Nat := 256
  cut : W64 := 0
  deriving DecidableEq, Repr

/-- Links and requests: link layers, queue pairs, requests without an answer, the next tag, COPYs in execution, the admitted links, those
that join at the next drain-and-switch, the link groups whose new requests are held, paused Ethernet priorities and the packets that wait for
them, oldest first, the peers declared lost, the engines' requests that wait at the rim, the number that the next request of a core takes which is held there, what other nodes sent and waits, oldest first, and
everything sent, newest first. -/
structure Net where
  links : Sparse LinkSt := []
  qps : Sparse QpSt := []
  reqs : List OutReq := []
  tag : Nat := 0
  copies : List CopyJob := []
  up : List Nat := []
  joining : List Nat := []
  held : List Nat := []
  paused : Sparse Nat := []
  ethq : List (Nat × Out) := []
  gone : List Nat := []
  rim : List NetReq := []
  holdNo : Nat := 0
  inb : List Inb := []
  sent : List Out := []
  deriving DecidableEq, Repr

/-! ## The on-wafer fabric (spec/10) -/

/-- The mesh: the packets that wait in the routers' input buffers, by router, input port and virtual channel, oldest first; those that wait at
endpoints for a credit of their own router, under the key of the buffer that they enter; and by router and output port the pair of input port and
virtual channel granted last, as 4 * port + channel; an endpoint's injection has a key of its own (R215, R222, R226). -/
structure Fab where
  bufs : Sparse (List FabPkt) := []
  waits : Sparse (List FabPkt) := []
  last : Sparse Nat := []
  deriving DecidableEq, Repr

/-! ## Weight intake (spec/12) -/

/-- A load-plan entry (Table 12-2): its number, the fields of the entry, and whether its destination is the SRAM of cores. -/
structure PlanEnt where
  num : Nat
  bytes : Nat
  dbase : Nat
  perCore : Nat
  first : Nat
  ncores : Nat
  sram : Bool
  evflag : Nat
  buf : Nat
  deriving DecidableEq, Repr

/-- A reservation (Table 12-3). -/
structure Resv where
  base : Nat
  size : Nat
  kind : Nat
  deriving DecidableEq, Repr

/-- A record in a retention slot: stream entry, number, bytes that have arrived, how often it failed authentication, whether it comes again out
of turn, the bytes sent on to each node downstream, and whether it has been decrypted or rejected and only waits to be sent on (spec/12
R267, R274). -/
structure WRec where
  stream : Nat
  no : Nat
  got : Nat := 0
  fails : Nat := 0
  again : Bool := false
  sent : List (Nat × Nat) := []
  done : Bool := false
  deriving DecidableEq, Repr

/-- A record that is fetched from a holder (spec/12 R275): the kind, entry or image, and index that its header must name where they are known, the
next byte and how many there are, as far as known. -/
structure Fetch where
  stream : Nat
  no : Nat
  holder : Option Nat
  want : Option (Nat × Nat × Nat) := none
  again : Bool := false
  off : Nat := 0
  len : Nat := 2048
  deriving DecidableEq, Repr

/-- A write-back request (spec/12 R272): the core, the fields of WSTREAM_WBQ, the records encrypted so far, and once some are sent the writes
without an acknowledgement and whether one failed. -/
structure WbReq where
  core : Nat
  src : Nat
  roce : Bool
  qp : Nat
  entry : Nat
  bytes : Nat
  wver : Nat
  dest : Nat
  next : Nat := 0
  left : Option Nat := none
  bad : Bool := false
  deriving DecidableEq, Repr

/-- The arguments of a job start as they stood at its go (spec/19 R429): job identifier, manifest digest, cores needed, half-wafer flag. -/
structure JobArgs where
  id : Nat := 0
  digest : List Byte := []
  cores : Nat := 0
  half : Bool := false
  deriving DecidableEq, Repr

/-- WSTREAM: the arguments of the last job start since reset, installed keys by epoch, whether the next install is the first after a job start, IVs the newest install may still use, the plans, the manifest as verified, verified images, the
segments written of each entry and of each image, the image records written with number and index, failed fetches of each image; records in slots,
the next record of each stream, per buffer group the entries released in this pass and the cores that have released the next;
the fetch in progress and those that wait, the holder that replaces the parent, the stream that brought an image record, streams and nodes
dropped, write-back requests, the code with which the last one discarded was, failed entries, the time of the join record, whether the last
job ended normally, and the immediate data received with its queue pair, newest first. -/
structure Wstream where
  args : Option JobArgs := none
  keys : Sparse (List Byte) := []
  fresh : Bool := true
  ivLeft : Nat := 0
  plan : Option (List PlanEnt × List Resv) := none
  manifest : Option (List Byte) := none
  verified : List Nat := []
  segs : Sparse (List Nat) := []
  isegs : Sparse (List Nat) := []
  irecs : List (Nat × Nat × Nat) := []
  itries : Sparse Nat := []
  recs : List WRec := []
  next : Sparse Nat := []
  released : Sparse (List Nat) := []
  relBy : Sparse (List Nat) := []
  fetch : Option Fetch := none
  waiting : List Fetch := []
  source : Option Nat := none
  istream : Option Nat := none
  dropped : List (Nat × Nat) := []
  wbq : List WbReq := []
  wbCode : Nat := 0
  failed : List Nat := []
  joinTime : W64 := 0
  normal : Bool := false
  imms : List (Nat × BitVec 32) := []
  deriving DecidableEq, Repr

/-! ## Gradient reduction (spec/13) -/

/-- A trainable entry of the gradient plan (spec/09 Table 09-7). -/
structure GEnt where
  layer : Nat
  first : Nat
  count : Nat
  owner : Nat
  elems : Nat
  deriving DecidableEq, Repr

/-- An RDSUB or RDRECV in progress: its core and captured command, its tag, the next block, whether it met a poisoned block, and whether RED has
abandoned its step while its core was stopped. -/
structure RCmd where
  recv : Bool
  core : Nat
  cmd : UCmd
  layer : Nat
  bucket : Nat
  chain : Nat
  next : Nat := 0
  step : Nat := 0
  psn : Bool := false
  gone : Bool := false
  deriving DecidableEq, Repr

/-- A block in the receive area (spec/13 R295): its tag, the kind of its packet, its index, its step and its bytes. -/
structure RxBlk where
  layer : Nat
  bucket : Nat
  chain : Nat
  kind : Nat
  no : Nat
  step : Nat
  data : List Byte
  deriving DecidableEq, Repr

/-- RED: the plan, submissions and receipts in progress, the receive area, the instructions issued in this step by tag, poison events
raised in this step, whether a bucket failed in this step, the failed ones by layer, bucket and code (R289, R296), whether the step has
been abandoned, the digest of the current membership and of the armed one, whether the job's last arm
was taken, what meets the next addition (spec/13 R289; 0 nothing), and whether the job has halted. -/
structure Red where
  plan : List GEnt := []
  cmds : List RCmd := []
  rx : List RxBlk := []
  issued : List (Bool × Nat × Nat × Nat) := []
  events : Nat := 0
  bad : Bool := false
  fails : List (Nat × Nat × Nat) := []
  dropped : Bool := false
  mdig : List Byte := []
  armed : List Byte := []
  armOk : Bool := false
  upset : Nat := 0
  halted : Bool := false
  deriving DecidableEq, Repr

/-! ## Checkpoint and recovery (spec/14) -/

/-- A checkpoint descriptor (Table 14-1) as installed: identifier, range, owner index, method, role, the freeze since which the owner has
not written it, and whether its dirty notice is on the way. -/
structure CDesc where
  tid : Nat
  base : Nat
  bytes : Nat
  owner : Nat
  freeze : Bool
  held : Bool
  clean : Option Nat := none
  noted : Bool := false
  deriving DecidableEq, Repr

/-- A page that holds marked content (Table 14-6): its number, the side-buffer slot when it is AHEAD, and whether a write waits for it. -/
structure Page where
  no : Nat
  slot : Option Nat := none
  want : Bool := false
  deriving DecidableEq, Repr

/-- What a drain is writing, or reading: the replica bases of a buddy copy (spec/14 R323, R324, R332). -/
inductive DrainItem where
  | zero
  | bases
  | page (no : Nat)
  | header (k : Nat)
  | manifest
  | record
  deriving DecidableEq, Repr

/-- A shard: tensor identifier (none for the member state), its range here, its offset in the slot, and whether its header is written. -/
structure Shard where
  tid : Option Nat
  base : Nat
  bytes : Nat
  off : Nat
  done : Bool := false
  deriving DecidableEq, Repr

/-- A marking and its drain: a Freeze or a buddy copy, its freeze identifier, step and owner index, the pages not yet clean, digests of
drained pages, shards, whether the slot has been cleared, what is being written, its writes without an acknowledgement, whether one
failed, failures so far; the node of a buddy copy, the address of the replica bases there and their bytes as read so far; and whether no
manifest is to be written. -/
structure Drain where
  buddy : Bool
  id : Nat
  step : Nat
  owner : Nat := 0
  pages : List Page
  digests : Sparse (List Byte) := []
  shards : List Shard := []
  zeroed : Bool := false
  item : Option DrainItem := none
  left : Nat := 0
  bad : Bool := false
  tries : Nat := 0
  node : Nat := 0
  table : Nat := 0
  bases : List Byte := []
  barren : Bool := false
  deriving DecidableEq, Repr

/-- A context that executed CKVOTE for the step in flight: core, context, its start, completion predicate and decision predicate. -/
structure Voter where
  core : Nat
  ctx : Nat
  inc : Nat
  pd : Nat
  dp : Nat
  deriving DecidableEq, Repr

/-- What an engine has for a core that HOLD keeps exactly as it is, and gives it at the exit (spec/15 R352): an event flag, or the result of a
CKVOTE. -/
inductive Later where
  | event (core flag : Nat)
  | answer (v : Voter) (outcome : Nat)
  deriving DecidableEq, Repr

/-- A comparison that an owner waits for (spec/14 R317): owner index, step, digests of the owner's tensors with their identifiers. -/
structure Compare where
  owner : Nat
  step : Nat
  own : List (Nat × List Byte)
  deriving DecidableEq, Repr

/-- CKPT: installed descriptors; the cores that have executed CKVOTE for the step, contexts that wait for the decision, the candidate's mirror writes without
an acknowledgement (none before they are sent), whether the first step of a job or restore is in flight, the stored decision with
its step, whether this engine's vote for the step has left; the root's votes, its timer, whether the root has been inherited in this step, the
members, the nodes that join and leave at the next step, engines that have passed the join checks; whether a Freeze is due and the step of the
last one; the marking in progress, comparisons waiting, a buddy copy asked for, with its step, node and address of the bases; whether the
restore of a rollback is done and the abort decision is in; notices sent, heartbeats sent to each peer; the registers of the cores at the
step base. -/
structure Ckpt where
  descs : List CDesc := []
  cast : List Nat := []
  voters : List Voter := []
  mirror : Option Nat := none
  first : Bool := false
  stored : Option (Nat × Nat) := none
  voted : Bool := false
  votes : List (List Byte) := []
  timer : Bool := false
  heir : Bool := false
  members : List Nat := []
  joins : List Nat := []
  leaves : List Nat := []
  standby : List Nat := []
  due : Bool := false
  lastFreeze : Nat := 0
  drain : Option Drain := none
  compares : List Compare := []
  buddy : Option (Nat × Nat × Nat) := none
  rolled : Bool := false
  aborted : Bool := false
  seq : Nat := 0
  beats : Sparse Nat := []
  coreRegs : Sparse W64 := []
  wrote : Bool := false
  deriving DecidableEq, Repr

/-- A write to CORE_CTX_START that waits for its site to leave RET (spec/15 R341), with the arguments as they stood. -/
structure HeldStart where
  core : Nat
  ctx : Nat
  pc : Nat
  arg : W64
  mask : Nat
  desc : Nat
  deriving DecidableEq, Repr

/-- An event record (spec/17 Table 17-11) before it is cut into continuation records. -/
structure EvtRec where
  time : W64
  seq : Nat
  code : Nat
  kind : Nat
  flags : Nat
  src : Nat
  payload : List Byte
  deriving DecidableEq, Repr

/-! ## Power, clocks and wear (spec/15, spec/16) -/

/-- A telemetry frame (Table 15-4): time, sequence number, domain records, temperatures. -/
structure TelFrame where
  time : W64
  seq : Nat
  recs : List (BitVec 128)
  temps : List (BitVec 16)
  deriving DecidableEq, Repr

/-- A power entry of the Crevasse detector (spec/15 R355): baseline impedance in nanoohm and temperature in 1/64 degree, qualifying
windows in a row at or above 1.30 and at or above 2.00, whether it is derated, and whether it limits its half. -/
structure Crev where
  zb : Nat
  tb : Nat
  n13 : Nat := 0
  n20 : Nat := 0
  derated : Bool := false
  limits : Bool := false
  deriving DecidableEq, Repr

/-- Power and cooling: telemetry ring with the newest frame first, the next sequence number and the size of the ring; the newest reading of each
sensor since a trip, in 1/64 degree; whether the lease
has expired; the brake, the undervoltage; clamp triggers that persist; points of the thermal caps below the top; sites in the site
clamp, sites whose last sample was at or above 105 degrees; power entries with a baseline, by index; causes of HOLD in force, when it
began, iterations in a row without a cause, iterations with the cap unmet; coolant alarms that persist (0 flow, 1 range); whether a leak asks for HOLD; whether the field
converters are off; rim segments and the half that are lost; whether the module has tripped, whether its input has failed, and
whether it has failed since the start reached stage 3. -/
structure Power where
  frames : List TelFrame := []
  frameSeq : Nat := 0
  telCap : Nat := 1024
  temps : Sparse Int := []
  lapsed : Bool := false
  brake : Bool := false
  low : Bool := false
  trig : List Nat := []
  thermal : Sparse Nat := []
  hot : List Nat := []
  hot105 : List Nat := []
  crev : Sparse Crev := []
  causes : List Nat := []
  since : W64 := 0
  clear : Nat := 0
  unmet : Nat := 0
  alarms : List Nat := []
  leak : Bool := false
  off : Bool := true
  segs : List Nat := []
  half : Option Nat := none
  tripped : Bool := false
  failed : Bool := false
  dry : Bool := false
  deriving DecidableEq, Repr

/-- Time and wear: sync intervals in a row within 1 microsecond, the correction of DEV_TIME still to be slewed in nanoseconds; the wear
log with the newest record first; by site, slack samples in a row below the guard, Vmin of the last plan, the last plans' VCORE of the
top point and of point 0 with the newest first, the last readings of slack, Vmin and temperature, the calibrated slopes where they are not those
of manufacture, and the valid points in force where a new table waits for the next iteration of the loop; by field, its copy of DEV_TIME;
whether the time has been locked since the cold start, and no bound of a HOLDOVER exceeded since; the fields left without a reference. -/
structure Wear where
  good : Nat := 0
  slew : Int := 0
  log : List (List Byte) := []
  low : Sparse Nat := []
  vmin : Sparse Nat := []
  plans : Sparse (List (Nat × Nat)) := []
  last : Sparse (Nat × Nat × Nat) := []
  slopes : Sparse (Nat × Int) := []
  force : Sparse (List Nat) := []
  copies : Sparse W64 := []
  lock : Bool := false
  noRef : List Nat := []
  deriving DecidableEq, Repr

/-! ## Lodge, start and removal (spec/17, spec/18) -/

/-- A management session (spec/17 R386): role 0 MONITOR, 1 RACK, 2 OPERATOR; the next event number pushed when it has subscribed, and
whether its next response reports a gap. -/
structure Session where
  role : Nat
  sub : Option Nat := none
  gap : Bool := false
  deriving DecidableEq, Repr

/-- A presence command that is staged (Table 17-10), with its argument. -/
structure Staged where
  cmd : Nat
  arg : List Byte
  deriving DecidableEq, Repr

/-- A bundle that arrives in pieces (spec/17 R392): its size and the bytes so far. -/
structure Piece where
  total : Nat
  data : List Byte
  deriving DecidableEq, Repr

/-- A copy of a record in flash (spec/17 R394): its write count, its payload, and whether flash still holds it as it was written, so that its
signature by DK verifies. -/
structure RecCopy where
  wcount : Nat
  payload : List Byte
  intact : Bool := true
  deriving DecidableEq, Repr

/-- A slot of the key store as flash holds it (spec/17 R398): the purpose it names, and its entry wrapped with the PUF key. -/
structure KeySlot where
  purpose : Nat
  iv : List Byte
  ct : List Byte
  tag : List Byte
  deriving DecidableEq, Repr

/-- The Lodge: the cause of a restart in progress; sessions; the SHA-512 hash of the root key in mask ROM; the firmware copies A and B, the
bundle whose microcode stages 3 and 4 run, the bundle
that arrives, the SHA-512 digest of the last one staged; the counter n_svn and its value burned at manufacture; by record type the payload in
use, the copies in flash, newest first, and the highest write count accepted, which the RPMB block holds; whether calibration and the IV
reservation have no valid copy; whether the private keys have been
unwrapped at this boot; whether the copy of the firmware not in use is a verified bundle that the next boot takes; the seal opened, debug unlocked, recovery; presence command staged; whether a downgrade is permitted and a
map rebuild is due; key-store slots; the service log; events buffered at the bridges of the halves, newest first. -/
structure Lodge where
  restart : Option Nat := none
  sessions : Sparse Session := []
  rom : BitVec 512 := 0
  fw : List (Option Bundle) := [some {}, some {}]
  micro : Option Bundle := some {}
  piece : Option Piece := none
  fwDigest : List Byte := []
  nsvn : Nat := 0
  burned : Nat := 0
  recs : Sparse (List Byte) := []
  flash : Sparse (List RecCopy) := [(6, [{ wcount := 1, payload := [] }]), (9, [{ wcount := 1, payload := [0, 0, 0, 0, 0, 0, 0, 0] }])]
  held : Sparse Nat := [(6, 1), (9, 1)]
  noCal : Bool := false
  noIv : Bool := false
  keys : Bool := false
  ready : Bool := false
  opened : Bool := false
  debug : Bool := false
  recovery : Bool := false
  staged : Option Staged := none
  downgrade : Bool := false
  rebuild : Bool := false
  store : Sparse KeySlot := []
  service : List EvtRec := []
  buf : List (Nat × EvtRec) := []
  deriving DecidableEq, Repr

/-- Start, Run-out and removal: whether the start is a cold one; PRSNT_N and EJECT_N asserted; whether the module is quiesced after
EJECT_N; the halves and stacks that failed in this start; the time of the Run-out request, whether it was made in HOLD, whether its wait has expired,
the last step of a worker that is released; the ready-to-remove indicator. -/
structure Boot where
  cold : Bool := true
  present : Bool := false
  eject : Bool := false
  quiet : Bool := false
  badHalves : List Nat := []
  badStacks : List Nat := []
  since : W64 := 0
  inHold : Bool := false
  expired : Bool := false
  lastStep : Option Nat := none
  lamp : Bool := false
  deriving DecidableEq, Repr

/-- Why a step stops. No command of this model stops with a fault: context faults, stream halts and refusal codes are next
states. The one constructor is never raised (safe). -/
inductive Fault where
  /-- Raised by no command; safe. -/
  | none
  deriving DecidableEq, Repr

/-- Why a step is refused. -/
inductive Refusal where
  /-- Raised by `exec` for a command that has no meaning yet; safe. -/
  | notModelled (mnemonic : String)
  deriving DecidableEq, Repr

/-- The whole module: registers and their snapshots, memory, accumulator stores, cores, the event ring, job and join state, site
power transitions, starts and kicks that wait, whether every core is stopped, heartbeats missed in a row by site, the logical cores
declared failed, what HOLD keeps back from cores, and the parts of the chapters. -/
structure State where
  regs : Sparse W64
  snap : Sparse W64
  mem : Mem
  acc : Sparse (Sparse AccCell)
  accGen : Nat
  cores : Sparse Core
  events : List EvtRec
  evSeq : Nat
  evHead : Nat
  evCap : Nat
  jobLoaded : Bool
  joined : Bool
  trans : Sparse Nat
  heldStarts : List HeldStart
  kickWait : List Nat
  stopAll : Bool
  miss : Sparse Nat
  dead : List Nat
  later : List Later
  net : Net
  fab : Fab
  ws : Wstream
  red : Red
  ckpt : Ckpt
  pwr : Power
  wear : Wear
  lodge : Lodge
  boot : Boot
  idGen : Nat
  ivRecord : Nat
  free : Nat
  pending : List Instr
  deriving DecidableEq, Repr

/-- The module right after reset: before stage PRESENCE, nothing powered, every register at its reset value, no memory listed. -/
def State.reset : State where
  regs := []
  snap := []
  mem := ⟨[], []⟩
  acc := []
  accGen := 0
  cores := []
  events := []
  evSeq := 0
  evHead := 0
  evCap := 65536
  jobLoaded := false
  joined := false
  trans := []
  heldStarts := []
  kickWait := []
  stopAll := false
  miss := []
  dead := []
  later := []
  net := {}
  fab := {}
  ws := {}
  red := {}
  ckpt := {}
  pwr := {}
  wear := {}
  lodge := {}
  boot := {}
  idGen := 0
  ivRecord := 0
  free := 0
  pending := []

end Sys2Proof.Machine
end

