-- ==== Sys2Proof/Machine/Ops.lean ====
section
/-! DEFINITION. The named operations over memory, registers, counters, events and cores that every meaning is built from. -/

namespace Sys2Proof.Machine

/-! ## Memory -/

/-- The region of undefined bytes that holds an address, newest first. -/
def Mem.regionOf (m : Mem) (a : Nat) : Option Region :=
  m.undef.find? (fun r => decide (r.start ≤ a ∧ a < r.start + r.len))

/-- What an address that `cells` does not list reads as: 0, or a free byte of its region (log 1, log 2). -/
def Mem.blank (m : Mem) (a : Nat) : Byte :=
  match m.regionOf a with
  | some r => Config.freeByte r.gen a
  | none => 0

/-- One byte of memory. -/
def Mem.read (m : Mem) (a : Nat) : Byte :=
  match Sparse.find m.cells a with
  | some b => b
  | none => m.blank a

/-- Memory with one byte written; a zero outside an undefined region is not listed. -/
def Mem.write (m : Mem) (a : Nat) (b : Byte) : Mem :=
  match m.regionOf a with
  | some _ => { m with cells := Sparse.put m.cells a b }
  | none => if b = 0 then { m with cells := Sparse.drop m.cells a } else { m with cells := Sparse.put m.cells a b }

/-- The bytes of a range, lowest address first. -/
def Mem.bytes (m : Mem) (a : Nat) : Nat → List Byte
  | 0 => []
  | n + 1 => m.read a :: Mem.bytes m (a + 1) n

/-- Memory with a list of bytes written from an address upward. -/
def Mem.writeBytes (m : Mem) (a : Nat) : List Byte → Mem
  | [] => m
  | b :: bs => Mem.writeBytes (m.write a b) (a + 1) bs

/-- The little-endian number of `n` bytes at an address (spec/00 R5). -/
def Mem.nat (m : Mem) (a n : Nat) : Nat := leNat (m.bytes a n)

/-- Memory with the `n` little-endian bytes of a number written. -/
def Mem.writeNat (m : Mem) (a n v : Nat) : Mem := m.writeBytes a (leBytes n v)

/-- Memory in which a range has become undefined, with free bytes of generation `gen`. -/
def Mem.undefine (m : Mem) (start len gen : Nat) : Mem :=
  { cells := m.cells.filter (fun c => decide (c.1 < start ∨ start + len ≤ c.1)),
    undef := ⟨start, len, gen⟩ :: m.undef }

/-- Strictly rising keys. -/
def Mem.rising : List Host.Cell → Bool
  | (a, _) :: (b, y) :: m => decide (a < b) && Mem.rising ((b, y) :: m)
  | _ => true

/-- The canonical form of memory: rising addresses, and no listed zero outside the undefined regions. -/
def Mem.wf (m : Mem) : Bool :=
  Mem.rising m.cells && m.cells.all (fun c => (m.regionOf c.1).isSome || decide (c.2 ≠ 0))

/-! ## The register file -/

/-- Whether a row of the register map has an instance in the word at an address. -/
def Row.hits (r : Row) (a : Nat) : Bool :=
  if a < r.base then false
  else
    let d := a - r.base
    let i := if r.ocount ≤ 1 then 0 else d / r.ostride
    let e := d - i * r.ostride
    let j := if r.icount ≤ 1 then 0 else e / r.istride
    (r.ocount ≤ 1 || decide (i < r.ocount)) && (r.icount ≤ 1 || decide (j < r.icount)) && decide (e = j * r.istride)

/-- The rows of the block that an address lies in (spec/19 Table 19-1). -/
def Table.ofAddr (a : Nat) : List Row :=
  if a < 0x30000000000 then Table.core
  else
    match (a - 0x30000000000) / 0x1000000 with
    | 0 => Table.dev | 1 => Table.field | 2 => Table.coreMap | 3 => Table.fabric | 4 => Table.rim | 5 => Table.link
    | 6 => Table.wstream | 7 => Table.red | 8 => Table.ckpt | 9 => Table.pwr | 10 => Table.clk | 11 => Table.sec
    | 12 => Table.evt | _ => []

/-- The rows that lie in one word. -/
def rowsAt (a : Nat) : List Row := (Table.ofAddr a).filter (fun r => r.hits a)

/-- The reset value of a word (spec/19). -/
def resetWord (a : Nat) : W64 := (rowsAt a).foldl (fun x r => x ||| (BitVec.ofNat 64 r.rst <<< r.lo)) 0

/-- The stored value of a register word. -/
def State.reg (s : State) (a : Nat) : W64 := (Sparse.find s.regs a).getD (resetWord a)

/-- A state with one register word stored. -/
def State.setReg (s : State) (a : Nat) (v : W64) : State := { s with regs := Sparse.put s.regs a v }

/-- A word with bits `lo + w - 1` down to `lo` replaced. -/
def insertBits (x : W64) (lo w : Nat) (v : Nat) : W64 :=
  let mask : W64 := BitVec.ofNat 64 (2 ^ w - 1) <<< lo
  (x &&& ~~~mask) ||| (BitVec.ofNat 64 (v % 2 ^ w) <<< lo)

/-- The value of one field. -/
def State.fld (s : State) (f : Fld) : Nat := ((s.reg f.addr).extractLsb' f.lo f.w).toNat

/-- A state with one field set. -/
def State.setFld (s : State) (f : Fld) (v : Nat) : State := s.setReg f.addr (insertBits (s.reg f.addr) f.lo f.w v)

/-- One-bit fields as truth values. -/
def State.flag (s : State) (f : Fld) : Bool := s.fld f ≠ 0

/-- A state with a one-bit field set. -/
def State.setFlag (s : State) (f : Fld) (b : Bool) : State := s.setFld f (bit b)

/-- The 512-bit value of an eight-word group, word 0 lowest. -/
def State.group (s : State) (a n : Nat) : List W64 := (List.range n).map (fun k => s.reg (a + 8 * k))

/-- A state with the words of a group stored from an address upward. -/
def State.setGroup (s : State) (a : Nat) : List W64 → State
  | [] => s
  | v :: vs => State.setGroup (s.setReg a v) (a + 8) vs

/-! ## Modes -/

/-- Whether the module is in half-wafer mode (spec/02 R22). -/
def State.halfMode (s : State) : Bool := s.flag F.DEV_MODE_STS_half_mode

/-- The number of logical cores (spec/02 Table 02-3). -/
def State.ncores (s : State) : Nat := if s.halfMode then 448 else 896

/-- The size of the edge-memory range (spec/02 Table 02-3). -/
def State.edgeSize (s : State) : Nat := if s.halfMode then 0x10000000000 else 0x20000000000

/-- The node identifier of this engine. -/
def State.node (s : State) : Nat := s.fld F.DEV_NODE_ID_node_id

/-- Whether a node identifier names this engine (spec/02 R34). -/
def State.isSelf (s : State) (n : Nat) : Bool := n = 0x3FFFFF || n = s.node

/-- DEV_TIME, nanoseconds (spec/16 R372). -/
def State.now (s : State) : W64 := s.reg F.DEV_TIME.addr

/-- A field's copy of DEV_TIME. -/
def State.fieldTime (s : State) (f : Nat) : W64 := Sparse.get s.wear.copies 0 f

/-! ## Events and counters -/

/-- Whether EVT_ENABLE enables an event number (spec/19 R432). -/
def State.evEnabled (s : State) (code : Nat) : Bool :=
  let k := code - 0x200
  (s.reg (F.EVT_ENABLE (k / 64)).addr).getLsbD (k % 64)

/-- The records of one event: 12 payload bytes in the first, 16 in each continuation (spec/17 R404). -/
def evPieces (fuel : Nat) (first : Bool) (p : List Byte) : List (Nat × List Byte) :=
  match fuel with
  | 0 => []
  | k + 1 =>
    let n := if first then 12 else 16
    let rest := p.drop n
    let more := !rest.isEmpty
    (bit more + 2 * bit (!first), p.take n) :: (if more then evPieces k false rest else [])

/-- Add to a counter without raising an event; whether it saturated now and must report it (spec/17 R407). -/
def State.bumpQuiet (s : State) (f : Fld) (n : Nat) : State × Bool :=
  let v := (s.reg f.addr).toNat
  let u := Nat.min (v + n) (2 ^ 64 - 1)
  let s1 := s.setReg f.addr (BitVec.ofNat 64 u)
  if u = 2 ^ 64 - 1 ∧ v ≠ 2 ^ 64 - 1 then
    let c := s1.reg (f.addr + 8)
    (s1.setReg (f.addr + 8) (insertBits c 0 1 1), c.getLsbD 2)
  else (s1, false)

/-- Append one record to the event ring; a full ring loses its oldest record (spec/17 R404). -/
def State.appendEvent (s : State) (r : EvtRec) : State :=
  let full := decide (s.evCap ≤ s.events.length)
  let s1 := { s with
    events := (r :: s.events).take s.evCap
    evSeq := (s.evSeq + 1) % 2 ^ 32
    evHead := (s.evHead + 1) % s.evCap }
  if full then (s1.bumpQuiet F.EVT_LOST_CNT 1).1 else s1

/-- The half of the wafer whose bridge carries an event of a source (log 86). -/
def State.halfOfSrc (s : State) (kind src : Nat) : Nat :=
  let ofField := fun (f : Nat) => bit (decide (4 ≤ f % 8))
  match kind with
  | 1 => ofField (src / 16)
  | 2 => ofField (s.fld (F.CORE_MAP_ENTRY_site src) / 16)
  | 3 => ofField src
  | 4 => bit (decide (4 ≤ src ∧ src < 20))
  | 5 => bit (src = 1)
  | 6 => bit (decide (2 ≤ src ∧ src < 10))
  | _ => 0

/-- A record enters the ring, or during a Lodge restart the buffer of a bridge, which keeps 4,096 (spec/17 R385). -/
def State.putEvent (s : State) (r : EvtRec) : State :=
  if s.lodge.restart.isNone then s.appendEvent r
  else
    let h := s.halfOfSrc r.kind r.src
    if s.lodge.buf.countP (fun p => p.1 = h) < 4096 then { s with lodge := { s.lodge with buf := (h, r) :: s.lodge.buf } }
    else (s.bumpQuiet F.EVT_LOST_CNT 1).1

/-- DEV_TIME where an event arises: the copy of the field of its site or core, or of the field itself; elsewhere DEV_TIME (spec/16 R372, spec/17
Table 17-11). -/
def State.timeOf (s : State) (kind src : Nat) : W64 :=
  match kind with
  | 1 => s.fieldTime (src / 16)
  | 2 => s.fieldTime (s.fld (F.CORE_MAP_ENTRY_site src) / 16)
  | 3 => s.fieldTime src
  | _ => s.now

/-- Write the records of an event, or count it when it is disabled (spec/17 R404, R406). -/
def State.raiseQuiet (s : State) (code kind src : Nat) (payload : List Byte) : State :=
  if s.evEnabled code then
    (evPieces (payload.length + 1) true payload).foldl
      (fun st p => st.putEvent
        { time := st.timeOf kind src, seq := st.evSeq, code := code, kind := kind, flags := p.1, src := src, payload := p.2 }) s
  else (s.bumpQuiet F.EVT_MASKED_CNT 1).1

/-- A counter of the ring that has saturated between two states is reported, where its ev_en is set. -/
def State.satReport (s0 : State) (f : Fld) (s : State) : State :=
  let c := s.reg (f.addr + 8)
  if !(s0.reg (f.addr + 8)).getLsbD 0 && c.getLsbD 0 && c.getLsbD 2 then s.raiseQuiet EV.COUNTER_SAT 0 0 (leBytes 6 f.addr) else s

/-- The ring's own counters report their saturation as any counter does; a report may itself be lost or masked. -/
def State.ringReports (s0 s : State) : State :=
  let s1 := s0.satReport F.EVT_LOST_CNT s
  let s2 := s0.satReport F.EVT_MASKED_CNT s1
  s1.satReport F.EVT_LOST_CNT s2

/-- Add to a counter; saturation with ev_en raises EV_COUNTER_SAT with the register's address (spec/17 R407). -/
def State.bumpBy (s : State) (f : Fld) (n : Nat) : State :=
  match s.bumpQuiet f n with
  | (s1, true) => s1.ringReports (s1.raiseQuiet EV.COUNTER_SAT 0 0 (leBytes 6 f.addr))
  | (s1, false) => s1

/-- Add one to a counter. -/
def State.bump (s : State) (f : Fld) : State := s.bumpBy f 1

/-- Raise an event: its source kind and index, and the bytes it carries (spec/17 R404). -/
def State.raise (s : State) (code kind src : Nat) (payload : List Byte) : State := s.ringReports (s.raiseQuiet code kind src payload)

/-- An event of the module itself. -/
def State.raiseDev (s : State) (code : Nat) (payload : List Byte) : State := s.raise code 0 0 payload

/-- An event of a logical core. -/
def State.raiseCore (s : State) (code core : Nat) (payload : List Byte) : State := s.raise code 2 core payload

/-- Advance the free-value generation (log 1). -/
def State.tick (s : State) : State := { s with free := s.free + 1 }

/-! ## Records in flash (spec/17 R394) -/

/-- A record gets a new copy with the next write count, in place of the older of its two (R394); in hold-up and after EJECT_N no record
write starts (spec/20 R446, spec/18 R422). -/
def recordPut (type : Nat) (payload : List Byte) (s : State) : State :=
  if s.pwr.failed || s.boot.quiet then s
  else
    let l := s.lodge
    let w := Sparse.get l.held 0 type + 1
    { s with
      lodge := { l with
        recs := Sparse.put l.recs type payload
        flash := Sparse.put l.flash type ({ wcount := w, payload := payload } :: (Sparse.get l.flash [] type).take 1)
        held := Sparse.put l.held type w } }

/-! ## Cores and contexts -/

/-- A logical core. -/
def State.core (s : State) (n : Nat) : Core := Sparse.get s.cores {} n

/-- A state with one core replaced. -/
def State.setCore (s : State) (n : Nat) (c : Core) : State := { s with cores := Sparse.put s.cores n c }

/-- A context of a core. -/
def Core.ctx (c : Core) (k : Nat) : Ctx := Sparse.get c.ctxs {} k

/-- A core with one context replaced. -/
def Core.setCtx (c : Core) (k : Nat) (x : Ctx) : Core := { c with ctxs := Sparse.put c.ctxs k x }

/-- A context of a core of the module. -/
def State.ctx (s : State) (n k : Nat) : Ctx := (s.core n).ctx k

/-- A state with one context replaced. -/
def State.setCtx (s : State) (n k : Nat) (x : Ctx) : State := s.setCore n ((s.core n).setCtx k x)

/-- A scalar register; s0 reads as 0 (spec/04 Table 04-1). -/
def Ctx.sr (x : Ctx) (i : Nat) : W64 := if i = 0 then 0 else Sparse.get x.s 0 i

/-- A context with a scalar register written; a write to s0 is ignored. A load still outstanding for that register no longer
writes it (log 20). -/
def Ctx.setSr (x : Ctx) (i : Nat) (v : W64) : Ctx :=
  if i = 0 then x else { x with s := Sparse.put x.s i v, loads := x.loads.filter (fun l => l.desc || decide (l.reg ≠ i)) }

/-- A descriptor register. -/
def Ctx.tr (x : Ctx) (i : Nat) : Desc := Sparse.get x.t 0 i

/-- A context with a descriptor register written. -/
def Ctx.setTr (x : Ctx) (i : Nat) (v : Desc) : Ctx := { x with t := Sparse.put x.t i v }

/-- A handle. -/
def Ctx.hd (x : Ctx) (i : Nat) : Handle := Sparse.get x.q {} i

/-- A context with a handle replaced. -/
def Ctx.setHd (x : Ctx) (i : Nat) (h : Handle) : Ctx := { x with q := Sparse.put x.q i h }

/-- A predicate; p0 reads as 1 (spec/04 Table 04-1). -/
def Ctx.pr (x : Ctx) (i : Nat) : Bool := i = 0 || x.p.getLsbD i

/-- A context with a predicate written; a write to p0 is ignored. -/
def Ctx.setPr (x : Ctx) (i : Nat) (b : Bool) : Ctx :=
  if i = 0 then x
  else { x with p := if b then x.p ||| (1 <<< i : BitVec 8) else x.p &&& ~~~(1 <<< i : BitVec 8) }

/-- The CSW of context `k` (spec/04 Table 04-1). -/
def Ctx.csw (x : Ctx) (k : Nat) : W64 :=
  BitVec.ofNat 64 (k % 8 + 256 * bit x.nv + 512 * bit x.of + 1024 * bit x.sat + 2048 * bit x.psn)

/-- The first READY context after `k` in ascending order, wrapping (spec/03 R42). -/
def Core.nextReady (c : Core) (k : Nat) : Option Nat :=
  ((List.range 8).map (fun i => (k + 1 + i) % 8)).find? (fun j => (c.ctx j).st = .ready)

/-- Whether a context is RUNNING. -/
def Core.running (c : Core) : Option Nat := (List.range 8).find? (fun j => (c.ctx j).st = .running)

/-- Whether a core is stopped: every core is (spec/02 R28, spec/14 R313), or the module is in HOLD (spec/15 R352), or the core has been
declared failed. -/
def State.stoppedAt (s : State) (n : Nat) : Bool := s.stopAll || s.flag F.PWR_STS_hold || s.dead.contains n

/-- What a core does unless it is stopped: a stopped core keeps everything as it is (spec/15 R352). -/
def State.unlessStopped (s : State) (n : Nat) (f : State → State) : State := if s.stoppedAt n then s else f s

/-- The control processor selects a context when none is RUNNING and one is READY (spec/03 R42), and counts the switch. A core
that is stopped (spec/02 R28) selects none. -/
def State.select (s : State) (n : Nat) : State :=
  let c := s.core n
  if s.stoppedAt n || c.running.isSome then s
  else
    match c.nextReady c.cur with
    | none => s
    | some j => ((s.setCore n { c.setCtx j { c.ctx j with st := .running, wait := .none } with cur := j })).bump (F.CORE_CTX_SWITCH_CNT n)

/-- The physical site of a logical core (spec/02 R23). -/
def State.siteOf (s : State) (n : Nat) : Nat := s.fld (F.CORE_MAP_ENTRY_site n)

/-- The power state of a site (spec/15 Table 15-2): 0 OFF, 1 RET, 2 IDLE, 3 RUN. -/
def State.sitePower (s : State) (p : Nat) : Nat := s.fld (F.PWR_SITE_STS_state p)

/-- Work for a site (spec/16 R367): an IDLE site starts its fast clock and counts a Kick; in HOLD the work waits (R369); a site in
RET or OFF is not kicked. -/
def State.kickSite (s : State) (p : Nat) : State :=
  if s.sitePower p = 2 then
    if s.flag F.PWR_STS_hold then { s with kickWait := if s.kickWait.contains p then s.kickWait else p :: s.kickWait }
    else (s.setFld (F.PWR_SITE_STS_state p) 3).bump (F.CLK_KICK_CNT p)
  else s

/-- Work for the site of a core. -/
def State.kick (s : State) (n : Nat) : State := s.kickSite (s.siteOf n)

/-- Whether the core port of a core's site takes packets (spec/10 R220). -/
def State.portOpen (s : State) (n : Nat) : Bool :=
  let p := s.siteOf n
  decide (2 ≤ s.sitePower p) && decide (s.fld (F.CORE_MAP_SITE_STATE_state p) ≠ 3)

/-- A register write that comes to a core: absorbed and counted unless its port takes packets (spec/10 R220); in HOLD it waits, as work for the
site (spec/15 R352, spec/16 R369), and its command is taken up again. -/
def State.atCore (s : State) (n : Nat) (f : State → State) : State :=
  if s.ncores ≤ n then s
  else if !s.portOpen n then s.bump F.CORE_MAP_ABSORB_CNT
  else if s.flag F.PWR_STS_hold then s.kick n
  else f s

/-- A context becomes READY; an idle control processor takes it up (spec/03 R42). -/
def State.makeReady (s : State) (n k : Nat) : State :=
  ((s.setCtx n k { s.ctx n k with st := .ready, wait := .none }).kick n).select n

/-- The RUNNING context becomes WAITING on a cause (spec/03 R41) and the control processor switches. -/
def State.makeWait (s : State) (n k : Nat) (w : Wait) : State :=
  (s.setCtx n k { s.ctx n k with st := .waiting, wait := w }).select n

/-- Every WAITING context whose cause satisfies a test becomes READY, lowest first. -/
def State.wakeAll (s : State) (n : Nat) (t : Wait → Bool) : State :=
  (List.range 8).foldl (fun st k =>
    let x := st.ctx n k
    if x.st = .waiting && t x.wait then st.makeReady n k else st) s

/-- A context fault (spec/03 R62, spec/04 R94): FAULTED, with code, pc and address in CORE_CTX_FAULT, and EV_CTX_FAULT. -/
def State.faultCtx (s : State) (n k code addr : Nat) : State :=
  let x := s.ctx n k
  let s1 := s.setCtx n k { x with st := .faulted, wait := .none }
  let s2 := ((s1.setFld (F.CORE_CTX_FAULT_pc n k) x.pc).setFld (F.CORE_CTX_FAULT_code n k) code).setFld (F.CORE_CTX_FAULT_addr n k) addr
  (s2.raiseCore EV.CTX_FAULT n (leBytes 2 n ++ leBytes 1 k)).select n

/-- A context becomes FREE and its handles unbound (spec/04 R457). -/
def State.freeCtx (s : State) (n k : Nat) : State :=
  let x := s.ctx n k
  (s.setCtx n k { x with st := .free, wait := .none, q := [], loads := [] }).select n

/-- A predicate of a context is written from outside it; a WAITP of that predicate is complete once it reads 1 (spec/04 R83). -/
def State.putPr (s : State) (n k p : Nat) (v : Bool) : State :=
  let x := s.ctx n k
  let y := x.setPr p v
  if v ∧ x.st = .waiting ∧ x.wait = .pred p then (s.setCtx n k { y with pc := (x.pc + 8) % 2 ^ 26 }).makeReady n k else s.setCtx n k y

/-- A unit command's completion writes its predicate (spec/04 R77), unless its context has ended since (R79), and wakes a
context that waits for that predicate. -/
def State.complete (s : State) (n k inc pd : Nat) : State :=
  let x := s.ctx n k
  if x.inc = inc ∧ x.st ≠ .free ∧ pd ≠ 0 then s.putPr n k pd true else s

/-- Start a FREE context (spec/04 R65): its registers take their start values. -/
def State.startCtx (s : State) (n k pc : Nat) (arg : W64) (ts : Sparse Desc) : State :=
  let x := s.ctx n k
  (s.setCtx n k { st := .ready, s := [(1, arg)], t := ts, pc := pc, inc := x.inc + 1 }).kick n |>.select n

/-! ## Local spaces of a core -/

/-- The address of an offset in a local space of core `n` (spec/02 R32): SRAM, or the side memory; a Slalom link's value lies beyond
every address. -/
def localAddr (n space off : Nat) : Nat :=
  if space = 3 then 2 ^ 62 + n * 2 ^ 52 + off
  else 0x20000000000 + 0x4000000 * n + (if space = 2 then 0x3800000 else 0) + off

/-! ### The place of a Snowpack (spec/09 R196) -/

/-- The top and the body: bases and sizes in bytes. -/
structure SnowCfg where
  tb : Nat
  ts : Nat
  bb : Nat
  bs : Nat

/-- The registers as they stand. -/
def State.snowCfg (s : State) (n : Nat) : SnowCfg :=
  { tb := s.fld (F.CORE_SNOW_TOP_base n) * 4096, ts := s.fld (F.CORE_SNOW_TOP_size n) * 65536,
    bb := s.fld (F.CORE_SNOW_BODY_base n) * 4096, bs := s.fld (F.CORE_SNOW_BODY_size n) * 4096 }

/-- The Snowpack of a core and its replacement. -/
def State.snow (s : State) (n : Nat) : Snow := (s.core n).snow
def State.setSnow (s : State) (n : Nat) (w : Snow) : State := s.setCore n { s.core n with snow := w }

/-- Whether a range touches the body of a Snowpack that holds records, that of core `own` excepted: the overlap leaves both undefined. -/
def State.bodyHit (s : State) (own : Option Nat) (a len : Nat) : Bool :=
  s.cores.any (fun p =>
    decide (own ≠ some p.1 ∧ 0 < p.2.snow.depth ∧ 0 < len) &&
      (let c := s.snowCfg p.1
       decide (a < c.bb + c.bs ∧ c.bb < a + len)))

/-- Whether a range touches the top of a Snowpack that holds records. -/
def State.topHit (s : State) (a len : Nat) : Bool :=
  s.cores.any (fun p =>
    decide (0 < p.2.snow.depth ∧ 0 < len) &&
      (let c := s.snowCfg p.1
       let b := localAddr p.1 1 c.tb
       decide (a < b + c.ts ∧ b < a + len)))

/-- What a write of bytes at an address really writes: free bytes over the top or the body of a Snowpack that holds records. -/
def State.overSnow (s : State) (own : Option Nat) (a : Nat) (bs : List Byte) : State × List Byte :=
  if s.topHit a bs.length || s.bodyHit own a bs.length then (s.tick, (List.range bs.length).map (fun j => Config.freeByte s.free j)) else (s, bs)

end Sys2Proof.Machine
end

