-- ==== Sys2Proof/Machine/Mesh.lean ====
section
/-! DEFINITION. The mesh of routers (spec/10): packets, ports and endpoints, the interleave of edge memory over the stacks (spec/02 R33), input
buffers with their credits, and the flits that accesses send. -/

namespace Sys2Proof

/-- The fields of a packet's header (spec/10 Table 10-2). -/
def FabPkt.tag (p : FabPkt) : Nat := fieldOf p.hdr 43 16
def FabPkt.type (p : FabPkt) : Nat := fieldOf p.hdr 39 4
def FabPkt.flits (p : FabPkt) : Nat := 1 + fieldOf p.hdr 38 1

/-- Whether the payload is what the length of the header carries (R216). -/
def FabPkt.fits (p : FabPkt) : Bool := decide (p.data.length ≤ 512 * p.flits)
def FabPkt.vc (p : FabPkt) : Nat := fieldOf p.hdr 36 2
def FabPkt.dst (p : FabPkt) : Nat := fieldOf p.hdr 24 12
def FabPkt.src (p : FabPkt) : Nat := fieldOf p.hdr 12 12
def FabPkt.dport (p : FabPkt) : Nat := fieldOf p.hdr 10 2
def FabPkt.dy (p : FabPkt) : Nat := fieldOf p.hdr 5 5
def FabPkt.dx (p : FabPkt) : Nat := fieldOf p.hdr 0 5

/-- The local part of the address a packet carries, and its node part. -/
def FabPkt.local_ (p : FabPkt) : Nat := p.addr.toNat % 2 ^ 42
def FabPkt.node (p : FabPkt) : Nat := p.addr.toNat / 2 ^ 42

end Sys2Proof

namespace Sys2Proof.Machine

/-- A state in which something has left the module. -/
def State.out (s : State) (o : Out) : State := { s with net := { s.net with sent := o :: s.net.sent } }

/-! ## Edge memory over the stacks (spec/02 R33) -/

/-- The lowest stack index bit for the granule in force; none without interleaving. -/
def granBit (gran : Nat) : Option Nat :=
  match gran with
  | 0 => some 12
  | 1 => some 16
  | 2 => some 21
  | _ => none

/-- The stacks of the half kept: West, then East. -/
def halfStacks (east : Bool) : List Nat := if east then [2, 3, 4, 5, 6, 7, 8, 9] else [0, 1, 10, 11, 12, 13, 14, 15]

/-- The stack that holds a byte of edge memory. -/
def State.stackOf (s : State) (a : Nat) : Nat :=
  let low := (granBit (s.fld F.RIM_INTERLEAVE_CFG_gran_active)).getD 37
  if s.halfMode then (halfStacks (decide (s.fld F.DEV_MODE_STS_half = 1))).getD (a / 2 ^ low % 8) 0 else a / 2 ^ low % 16

/-- The address within its stack: the index bits are taken out and the higher bits close the gap. -/
def State.addrInStack (s : State) (a : Nat) : Nat :=
  let low := (granBit (s.fld F.RIM_INTERLEAVE_CFG_gran_active)).getD 37
  a / 2 ^ (low + (if s.halfMode then 3 else 4)) * 2 ^ low + a % 2 ^ low

/-! ## Routers and ports (R215, Table 10-1) -/

/-- The virtual channel of a packet type; none when the type is reserved (Table 10-4). -/
def fabVc (type : Nat) : Option Nat :=
  match type with
  | 0 | 1 | 2 => some 0
  | 3 | 4 | 5 | 15 => some 1
  | 6 => some 2
  | 8 | 9 => some 3
  | _ => none

/-- The ports of a router: toward its neighbours, the core, and on an edge site a stack and a link port for each rim side it lies on. -/
abbrev ptN : Nat := 0
abbrev ptE : Nat := 1
abbrev ptS : Nat := 2
abbrev ptW : Nat := 3
abbrev ptCore : Nat := 4
abbrev ptStackNS : Nat := 5
abbrev ptStackEW : Nat := 6
abbrev ptLinkNS : Nat := 7
abbrev ptLinkEW : Nat := 8

/-- The rim port of an exit (1 N or S side, 2 E or W side) toward a stack or a link. -/
def rimPort (dport : Nat) (link : Bool) : Nat := (if link then 6 else 4) + dport

/-- Whether an endpoint number is a link's. -/
def isLinkEp (ep : Nat) : Bool := decide (0x420 ≤ ep ∧ ep < 0x440)

/-- The output port that dimension order gives a packet at a router (R218). -/
def fabPort (x y : Nat) (p : FabPkt) : Nat :=
  if x < p.dx then ptE else if p.dx < x then ptW else if y < p.dy then ptS else if p.dy < y then ptN
  else if p.dport = 0 then ptCore else rimPort p.dport (isLinkEp p.dst)

/-- Whether a link between routers crosses a seam: the port is on a field boundary (R215). -/
def seamPort (x y port : Nat) : Bool :=
  decide ((port = ptE ∧ x % 4 = 3) ∨ (port = ptW ∧ x % 4 = 0) ∨ (port = ptS ∧ y % 4 = 3) ∨ (port = ptN ∧ y % 4 = 0))

/-- The pressure level of an output port (Table 10-7). -/
def fabLevel (x y port : Nat) : Nat :=
  if port = ptCore then 0
  else if 5 ≤ port then 4
  else if (port = ptE ∧ x = 15) ∨ (port = ptW ∧ x = 16) then 3
  else if seamPort x y port then 2
  else 1

/-- The router that a port toward a neighbour leads to, with its input port. -/
def fabNext (x y port : Nat) : Nat × Nat × Nat :=
  match port with
  | 0 => (x, y - 1, ptS)
  | 1 => (x + 1, y, ptW)
  | 2 => (x, y + 1, ptN)
  | _ => (x - 1, y, ptE)

/-- The flits that an input buffer of one virtual channel holds (Table 10-1). -/
def fabCap (x y port : Nat) : Nat := if 5 ≤ port ∨ seamPort x y port then 16 else 8

/-! ## Endpoints (R217) -/

/-- The rim port of link `k`, or of stack `i`, with number `j`, clockwise along its rim (R215, Table 02-2): position and exit. -/
def linkPort (k j : Nat) : Nat × Nat × Nat :=
  if k < 8 then (4 * k + j, 0, 1)
  else if k < 16 then (31, 4 * (k - 8) + j, 2)
  else if k < 24 then (31 - 4 * (k - 16) - j, 31, 1)
  else (0, 31 - 4 * (k - 24) - j, 2)
def stackPort (i j : Nat) : Nat × Nat × Nat :=
  if i < 4 then (8 * i + j, 0, 1)
  else if i < 8 then (31, 8 * (i - 4) + j, 2)
  else if i < 12 then (31 - 8 * (i - 8) - j, 31, 1)
  else (0, 31 - 8 * (i - 12) - j, 2)

/-- The position of a site (spec/02 R17). -/
def siteX (p : Nat) : Nat := 4 * (p / 16 % 8) + p % 4
def siteY (p : Nat) : Nat := 4 * (p / 128) + p % 16 / 4

/-- Where an endpoint is attached, for traffic with endpoint `other` about a local address: position and exit; none for a reserved one. -/
def State.endpointAt (s : State) (ep other a : Nat) : Option (Nat × Nat × Nat) :=
  if ep < 896 then some (siteX (s.siteOf ep), siteY (s.siteOf ep), 0)
  else if isLinkEp ep then some (linkPort (ep - 0x420) (other % 4))
  else if 0x400 ≤ ep ∧ ep < 0x410 then some (stackPort (ep - 0x400) (s.addrInStack a / 2 ^ 11 % 8))
  else none

/-- The port by which an endpoint at a position injects. -/
def injectPort (ep dport : Nat) : Nat := if dport = 0 then ptCore else rimPort dport (isLinkEp ep)

/-- The header that the source router's route table gives a packet (R218, step 1); a reserved destination has no entry. -/
def State.translate (s : State) (p : FabPkt) : FabPkt :=
  match s.endpointAt p.dst p.src p.local_ with
  | some (dx, dy, port) => { p with hdr := insertBits (insertBits (insertBits p.hdr 0 5 dx) 5 5 dy) 10 2 port }
  | none => p

/-- Whether the router at a column is held in reset, being in the lost half (spec/02 R22). -/
def State.routerLost (s : State) (x : Nat) : Bool := s.halfMode && decide (bit (decide (16 ≤ x)) ≠ s.fld F.DEV_MODE_STS_half)

/-- Whether the router at a column has lost its always-on rail (spec/15 R338) and the module has not started again since: packets that come to it are
lost. The manual says that the fault removes the half, and nothing of its packets before the next reset (DESIGN CHOICE, log 206). -/
def State.routerDead (s : State) (x : Nat) : Bool := s.pwr.half.any (fun h => decide (bit (decide (16 ≤ x)) = h))

/-! ## Buffers and credits (R215, R222) -/

/-- The key of an input buffer: router, input port, virtual channel; and of an output port. -/
def fabKey (x y port vc : Nat) : Nat := ((32 * y + x) * 16 + port) * 4 + vc
def fabOut (x y port : Nat) : Nat := (32 * y + x) * 16 + port

/-- The packets that wait in an input buffer, oldest first. -/
def State.fabBuf (s : State) (key : Nat) : List FabPkt := Sparse.get s.fab.bufs [] key

/-- Whether the core port of a core holds a packet: one that the core has injected, or one that waits to enter it. -/
def State.coreHolds (s : State) (n : Nat) : Bool :=
  let x := siteX (s.siteOf n)
  let y := siteY (s.siteOf n)
  s.fab.bufs.any (fun b => decide (b.1 / 64 = 32 * y + x) && (decide (b.1 / 4 % 16 = ptCore) || b.2.any (fun p => decide (fabPort x y p = ptCore))))

/-- A state with an input buffer replaced; an empty one is not listed. -/
def State.setFabBuf (s : State) (key : Nat) (l : List FabPkt) : State :=
  { s with fab := { s.fab with bufs := if l.isEmpty then Sparse.drop s.fab.bufs key else Sparse.put s.fab.bufs key l } }

/-- Whether an input buffer has room for the first flit of a packet: the credit of R222. -/
def State.fabRoom (s : State) (x y port vc : Nat) : Bool := decide (((s.fabBuf (fabKey x y port vc)).map FabPkt.flits).sum < fabCap x y port)

/-- A packet enters an input buffer behind those that wait there (R224). -/
def State.fabPush (s : State) (x y port : Nat) (p : FabPkt) : State :=
  s.setFabBuf (fabKey x y port p.vc) (s.fabBuf (fabKey x y port p.vc) ++ [p])

/-- A packet enters its source router by an endpoint's port: its flits are counted at the level of the port (R229). -/
def State.fabEnter (s : State) (x y port : Nat) (p : FabPkt) : State :=
  (s.fabPush x y port p).bumpBy (F.FABRIC_FLIT_CNT (fabLevel x y port)) p.flits

/-- The packets of a channel that wait at an endpoint for a credit of its router, oldest first. -/
def State.fabWaits (s : State) (key : Nat) : List FabPkt := Sparse.get s.fab.waits [] key
def State.setFabWaits (s : State) (key : Nat) (l : List FabPkt) : State :=
  { s with fab := { s.fab with waits := if l.isEmpty then Sparse.drop s.fab.waits key else Sparse.put s.fab.waits key l } }

/-- A packet is injected by an endpoint; without a credit, or behind packets of its channel that have none, it waits there (R222, R224). -/
def State.fabInject (s : State) (x y port : Nat) (p : FabPkt) : State :=
  let key := fabKey x y port p.vc
  if (s.fabWaits key).isEmpty && s.fabRoom x y port p.vc then s.fabEnter x y port p else s.setFabWaits key (s.fabWaits key ++ [p])

/-- A response to a packet is injected at the router and port that the packet reached, with the packet's tag. -/
def State.fabRespond (s : State) (x y port : Nat) (p : FabPkt) (type : Nat) (data : List Byte) : State :=
  s.fabInject x y port (s.translate
    { hdr := BitVec.ofNat 64 (p.tag * 2 ^ 43 + type * 2 ^ 39 + bit (decide (512 < data.length)) * 2 ^ 38 + 2 ^ 36 + p.src * 2 ^ 24 + p.dst * 2 ^ 12)
      addr := p.addr, data := data })

/-- Read data: more than 1 KiB goes in two packets, the lower address first. -/
def State.fabData (s : State) (x y port : Nat) (p : FabPkt) (data : List Byte) : State :=
  let s1 := s.fabRespond x y port p 3 (data.take 1024)
  if 1024 < data.length then s1.fabRespond x y port p 3 (data.drop 1024) else s1

/-- The failure of a request: its code goes back to the source; a packet of another channel is absorbed with no reply (R220). -/
def State.fabFail (s : State) (x y port : Nat) (p : FabPkt) (code : Nat) : State :=
  if p.vc = 0 then s.fabRespond x y port p 15 (leBytes 2 code) else s

/-- An access across the mid-seam in half-wafer mode completes with E_ADDR_UNMAPPED, a bulk write too (spec/02 R22). -/
def State.fabRefuse (s : State) (x y port : Nat) (p : FabPkt) : State :=
  if p.vc = 0 ∨ p.vc = 2 then s.fabRespond x y port p 15 (leBytes 2 E.ADDR_UNMAPPED) else s

/-- The answer of another node to a packet that left by a link (spec/11 R247): injected where the link injects for that core. -/
def State.fabAnswer (s : State) (link ep tag op : Nat) (ok : Bool) (code : Nat) (data : List Byte) : State :=
  let p : FabPkt := { hdr := BitVec.ofNat 64 (tag % 65536 * 2 ^ 43 + (0x420 + link) * 2 ^ 24 + ep * 2 ^ 12) }
  match s.endpointAt (0x420 + link) ep 0 with
  | some (x, y, port) =>
    let i := rimPort port true
    if !ok then s.fabFail x y i p code
    else if op = 0 then s.fabData x y i p data
    else s.fabRespond x y i p (if op = 1 then 4 else 5) data
  | none => s

/-! ## Flits of accesses (R229) -/

/-- The levels of the output ports on a path along one dimension. -/
def hopLevels (fwd back : Nat) (at_ : Nat → Nat → Nat) (from_ dst : Nat) : List Nat :=
  if from_ ≤ dst then (List.range (dst - from_)).map (fun i => at_ (from_ + i) fwd) else (List.range (from_ - dst)).map (fun i => at_ (from_ - i) back)

/-- The levels of the output ports between two endpoints: injection, X hops, Y hops, exit. -/
def pathLevels (p q : Nat × Nat × Nat) : List Nat :=
  bit (decide (p.2.2 ≠ 0)) * 4 :: bit (decide (q.2.2 ≠ 0)) * 4 ::
    (hopLevels ptE ptW (fun x port => fabLevel x p.2.1 port) p.1 q.1 ++ hopLevels ptS ptN (fun y port => fabLevel q.1 y port) p.2.1 q.2.1)

/-- Flits travel between two endpoints about a local address: they are counted at every level of their path. -/
def State.travel (s : State) (src dst a flits : Nat) : State :=
  match s.endpointAt src dst a, s.endpointAt dst src a with
  | some p, some q =>
    (List.range 5).foldl (fun (st : State) l =>
      let k := (pathLevels p q).countP (· = l)
      if k = 0 then st else st.bumpBy (F.FABRIC_FLIT_CNT l) (k * flits)) s
  | _, _ => s

/-- The input buffers on the path between two attachments by dimension order, that of the injection first (R218). -/
def pathBufs (inj : Nat) (p q : Nat × Nat × Nat) : List (Nat × Nat × Nat) :=
  let along := fun (a b : Nat) => if a ≤ b then (List.range (b - a)).map (fun i => a + 1 + i) else (List.range (a - b)).map (fun i => a - 1 - i)
  (p.1, p.2.1, inj) :: ((along p.1 q.1).map (fun x => (x, p.2.1, if p.1 ≤ q.1 then ptW else ptE))
    ++ (along p.2.1 q.2.1).map (fun y => (q.1, y, if p.2.1 ≤ q.2.1 then ptN else ptS)))

/-- Whether a packet between two endpoints about a local address passes at once on a channel: every buffer of its path has a credit (R222), and no
earlier packet of its source, destination and channel waits (R224). -/
def State.fabClear (s : State) (src dst a vc : Nat) : Bool :=
  (s.fab.bufs.isEmpty && s.fab.waits.isEmpty) ||
    match s.endpointAt src dst a, s.endpointAt dst src a with
    | some p, some q =>
      (pathBufs (injectPort src p.2.2) p q).all (fun b => s.fabRoom b.1 b.2.1 b.2.2 vc)
        && !(s.fab.bufs ++ s.fab.waits).any (fun b => b.2.any (fun k => decide (k.src = src ∧ k.dst = dst ∧ k.vc = vc)))
    | _, _ => true

/-- The endpoint that holds a local address; none for device registers and reserved ranges. -/
def State.endpointOf (s : State) (a : Nat) : Option Nat :=
  if a < s.edgeSize then some (0x400 + s.stackOf a)
  else if 0x20000000000 ≤ a ∧ a < 0x20000000000 + 0x4000000 * s.ncores then some ((a - 0x20000000000) / 0x4000000)
  else none

/-- Whether an access by an endpoint to a local address passes at once on a channel: 0 for a read, a write or an atomic, 2 for a bulk write. -/
def State.fabOpen (s : State) (src a vc : Nat) : Bool := (s.endpointOf a).all (fun dst => s.fabClear src dst a vc)

/-- The flits of data. -/
def dataFlits (n : Nat) : Nat := Nat.max 1 (ceilDiv n 512)

/-- The packets of an access by an endpoint to a local address and of its answer: `out` bytes go, `back` bytes return (R225). -/
def State.carry (s : State) (src a out back : Nat) : State :=
  match s.endpointOf a with
  | some dst => (s.travel src dst a (dataFlits out)).travel dst src a (dataFlits back)
  | none => s

end Sys2Proof.Machine
end

