-- ==== Sys2Proof/Machine/Link.lean ====
section
/-! DEFINITION. What leaves past the links (spec/11): flits and packets, egress, routing of requests, requests waiting for an answer. -/

namespace Sys2Proof.Machine

/-! ## Flits (spec/11 R240, Table 11-4) -/

/-- One bit of the CRC-32 of IEEE 802.3, least significant bit first. -/
def crcBit (c : Nat) : Nat := if c % 2 = 1 then (c / 2) ^^^ 0xEDB88320 else c / 2

/-- One byte. -/
def crcByte (c : Nat) (b : Byte) : Nat :=
  crcBit (crcBit (crcBit (crcBit (crcBit (crcBit (crcBit (crcBit (c ^^^ b.toNat))))))))

/-- The CRC-32 of IEEE 802.3. -/
def crc32 (bs : List Byte) : Nat := bs.foldl crcByte 0xFFFFFFFF ^^^ 0xFFFFFFFF

/-- The operations of Table 11-5 that a packet of the model may carry. -/
abbrev opGet : Nat := 0
abbrev opPut : Nat := 1
abbrev opAtom : Nat := 2
abbrev opCopy : Nat := 3
abbrev opData : Nat := 4
abbrev opAck : Nat := 5
abbrev opAtomr : Nat := 6
abbrev opErr : Nat := 7
abbrev opCdone : Nat := 8
abbrev opWseg : Nat := 9
abbrev opGbk : Nat := 10
abbrev opCtl : Nat := 11

end Sys2Proof.Machine

namespace Sys2Proof

/-- The data of a flit, 512 bytes. -/
def Flit.body (f : Flit) : List Byte := f.data ++ List.replicate (512 - f.data.length) 0

/-- The CRC past the other 540 bytes of a flit. -/
def Flit.crc (f : Flit) : Nat :=
  Machine.crc32 (leBytes 8 f.w0.toNat ++ leBytes 8 f.w1.toNat ++ leBytes 8 f.w2.toNat ++ leBytes 4 f.w3.toNat ++ f.body)

/-- Whether the CRC a flit carries is right. -/
def Flit.crcOk (f : Flit) : Bool := decide (fieldOf f.w3 32 32 = f.crc)

/-- Words W1 to W3 of a packet's head flit. A GET has no data and says in len_m1 how many bytes it asks for (log 30). -/
def OfpPkt.w1 (p : OfpPkt) : W64 := BitVec.ofNat 64 (p.addr.toNat + p.dst.toNat * 2 ^ 42)
def OfpPkt.w2 (p : OfpPkt) : W64 :=
  let n : Nat := if p.data.isEmpty then p.len - 1 else p.data.length - 1
  BitVec.ofNat 64 (p.src.toNat + p.srcEp.toNat * 2 ^ 22 + p.tag.toNat * 2 ^ 32 + p.op.toNat * 2 ^ 48 + n % 2048 * 2 ^ 52
    + bit p.data.isEmpty * 2 ^ 63)
def OfpPkt.w3 (p : OfpPkt) : W64 := BitVec.ofNat 64 (p.status.toNat + p.aop.toNat * 2 ^ 16 + bit p.aw * 2 ^ 20)

/-- The flits of a packet, 1 to 4, before the link layer numbers them. -/
def OfpPkt.flits (p : OfpPkt) : List Flit :=
  let n := Nat.max 1 (ceilDiv p.data.length 512)
  (List.range n).map (fun j =>
    let head := decide (j = 0)
    { w0 := BitVec.ofNat 64 (bit head * 2 ^ 25 + bit (decide (j + 1 = n)) * 2 ^ 26 + p.vc.toNat * 2 ^ 27)
      w1 := if head then p.w1 else 0
      w2 := if head then p.w2 else 0
      w3 := if head then p.w3 else 0
      data := (p.data.drop (512 * j)).take 512 })

/-- The answer to a packet, past the link it came by, with its tag, on VC2 (spec/11 R241, R252; log 31). -/
def OfpPkt.answer (p : OfpPkt) (node op : Nat) (status : Nat) (data : List Byte) : OfpPkt :=
  { link := p.link, vc := 2, dst := p.src, addr := 0, src := BitVec.ofNat 22 node, srcEp := p.srcEp, tag := p.tag,
    op := BitVec.ofNat 4 op, len := data.length, status := BitVec.ofNat 16 status, data := data }

end Sys2Proof

namespace Sys2Proof.Machine

/-! ## Egress (spec/11 R242, R245) -/

/-- The link layer of a link and its replacement. -/
def State.lnk (s : State) (k : Nat) : LinkSt := Sparse.get s.net.links {} k
def State.setLnk (s : State) (k : Nat) (l : LinkSt) : State := { s with net := { s.net with links := Sparse.put s.net.links k l } }

/-- A flit with the acknowledgement of the moment and its CRC. -/
def LinkSt.seal (l : LinkSt) (f : Flit) : Flit :=
  let w0 := insertBits (insertBits f.w0 12 12 l.rx) 24 1 (bit l.nak)
  let g := { f with w0 := w0 }
  { g with w3 := insertBits g.w3 32 32 g.crc }

/-- A flit leaves for the first time: it takes the next sequence number, carries the credits of the lowest virtual channel that has
some, and enters the replay buffer. -/
def LinkSt.sendNew (l : LinkSt) (f : Flit) : LinkSt × Flit :=
  let (v, c) := (l.freed.find? (fun p => decide (0 < p.2))).getD (0, 0)
  let n := Nat.min c 4095
  let w0 := insertBits (insertBits (insertBits f.w0 0 12 l.tx) 31 4 v) 35 12 n
  let g := { f with w0 := w0 }
  ({ l with
      tx := (l.tx + 1) % 4096
      replay := l.replay ++ [{ seq := l.tx, tries := 0, flit := g }]
      nak := false
      freed := if n = 0 then l.freed else Sparse.put l.freed v (c - n) }, l.seal g)

/-- The flits of a packet. -/
def pktFlits (p : OfpPkt) : Nat := Nat.max 1 (ceilDiv p.data.length 512)

/-- The flits that a virtual channel may send (R243): what is left of its reserve, then of the shared pool. -/
def LinkSt.credit (l : LinkSt) (v : Nat) : Nat :=
  let past := ((List.range 16).map (fun w => Sparse.get l.used 0 w - l.reserves.getD w 0)).sum
  (l.reserves.getD v 0 - Sparse.get l.used 0 v) + (l.shared - past)

/-- The place in the queue of the packet that is granted next, among the virtual channels whose first packet has credit: a packet of VC0, at most
one in 16 packets granted unless nothing else waits (log 128); else the next virtual channel in turn. -/
def LinkSt.grant (l : LinkSt) : Option Nat :=
  let has := fun (v : Nat) => (l.queue.find? (fun p => decide (p.vc.toNat = v))).any (fun p => decide (pktFlits p ≤ l.credit v))
  let order := (List.range 15).map (fun i => (l.lastVc + i) % 15 + 1)
  let other := order.find? has
  let v := if has 0 ∧ (15 ≤ l.since0 ∨ other.isNone) then some 0 else other
  v.bind (fun v => l.queue.findIdx? (fun p => decide (p.vc.toNat = v)))

/-- Grant and send while the replay buffer has room: the link layer and what it sent, oldest first. -/
def LinkSt.pump : Nat → LinkSt → List Flit → LinkSt × List Flit
  | 0, l, done => (l, done)
  | fuel + 1, l, done =>
    if 2048 ≤ l.replay.length then (l, done)
    else
      match l.out with
      | f :: fs =>
        let r := { l with out := fs }.sendNew f
        LinkSt.pump fuel r.1 (done ++ [r.2])
      | [] =>
        match l.grant with
        | none => (l, done)
        | some i =>
          match l.queue[i]? with
          | none => (l, done)
          | some p =>
            let v := p.vc.toNat
            LinkSt.pump fuel
              { l with
                queue := l.queue.eraseIdx i
                out := p.flits
                used := Sparse.put l.used v (Sparse.get l.used 0 v + pktFlits p)
                lastVc := if v = 0 then l.lastVc else v
                since0 := if v = 0 then 0 else l.since0 + 1 } done

/-- Flits of the receive buffer are freed: credit to return (R243). -/
def State.freeFlits (s : State) (k v n : Nat) : State :=
  let l := s.lnk k
  let m := Nat.min n (Sparse.get l.held 0 v)
  if m = 0 then s
  else s.setLnk k { l with held := Sparse.put l.held v (Sparse.get l.held 0 v - m), freed := Sparse.put l.freed v (Sparse.get l.freed 0 v + m) }

/-- A packet has taken effect: the receive buffer no longer holds it. -/
def State.release (s : State) (p : OfpPkt) : State := s.freeFlits p.link.toNat p.vc.toNat (pktFlits p)

/-- A state after a link has sent what it can. -/
def State.pumpLink (s : State) (k : Nat) : State :=
  let l := s.lnk k
  let r := l.pump (5 * l.queue.length + l.out.length + 1) []
  r.2.foldl (fun st f => st.out (.flit k f)) (s.setLnk k r.1)

/-- Whether a link runs and is UP in native mode (spec/11 R233). -/
def State.linkUp (s : State) (k : Nat) : Bool := s.fld (F.LINK_STS_state k) = 5

/-- Put a packet in a link's egress; a link that is not UP takes none. -/
def State.sendPkt (s : State) (k : Nat) (p : OfpPkt) : State :=
  if s.linkUp k then (s.setLnk k { s.lnk k with queue := (s.lnk k).queue ++ [p] }).pumpLink k else s

/-- Answer a packet, which has taken effect. -/
def State.reply (s : State) (p : OfpPkt) (op status : Nat) (data : List Byte) : State :=
  (s.release p).sendPkt p.link.toNat (p.answer s.node op status data)

/-! ## Queue pairs (spec/11 R237, R238) -/

/-- The packets of a message: its data in pieces of the path MTU, immediate data with the last. -/
def rocePackets (mtu : Nat) (m : RoceMsg) : List RoceMsg :=
  let n := Nat.max 1 (ceilDiv m.data.length mtu)
  (List.range n).map (fun j =>
    { m with data := (m.data.drop (mtu * j)).take mtu, imm := if j + 1 = n then m.imm else none, psn := (m.psn + j) % 2 ^ 24 })

/-- The paused priority that a queue pair's packets would wait for: by link, port and priority. The manual does not say which of the eight
priorities a queue pair has (log 125). -/
def State.pauseKey (s : State) (q : Nat) : Nat := 16 * (q / 256) + 8 * s.fld (F.LINK_QP_port (q / 256) (q % 256)) + Config.priority q % 8

/-- A message leaves on a queue pair, in packets; while its priority is paused, or packets wait for it, they wait. -/
def State.roceOut (s : State) (q kind : Nat) (m : RoceMsg) : State :=
  let key := s.pauseKey q
  let mtu := 1024 * 2 ^ s.fld (F.LINK_QP_mtu (q / 256) (q % 256))
  (rocePackets mtu m).foldl (fun (st : State) p =>
    if (Sparse.find st.net.paused key).isSome || st.net.ethq.any (fun e => decide (e.1 = key)) then
      { st with net := { st.net with ethq := st.net.ethq ++ [(key, .roce q kind p)] } }
    else st.out (.roce q kind p)) s

/-- The packets whose priority is no longer paused leave. -/
def State.ethGo (s : State) : State :=
  let on := fun (e : Nat × Out) => (Sparse.find s.net.paused e.1).isNone
  (s.net.ethq.filter on).foldl (fun (st : State) e => st.out e.2) { s with net := { s.net with ethq := s.net.ethq.filter (fun e => !on e) } }

/-! ## Routing (spec/11 R248-R251) -/

/-- Where a request goes: a link group or a queue pair, or the code with which it fails. -/
inductive Route where
  | group (g : Nat)
  | qp (q : Nat)
  | fail (code : Nat)
  deriving DecidableEq, Repr

/-- The state of queue pair `q` of the module: link q div 256, entry q mod 256. -/
def State.qpState (s : State) (q : Nat) : Nat := s.fld (F.LINK_QP_state (q / 256) (q % 256))

/-- A route entry (Table 11-8). -/
def State.routeEntry (s : State) (e : W64) : Route :=
  if !e.getLsbD 63 ∨ fieldOf e 21 42 ≠ 0 ∨ e.getLsbD 7 then .fail E.NODE_UNREACH
  else if e.getLsbD 6 then
    if s.qpState (fieldOf e 8 13) = 3 then .qp (fieldOf e 8 13) else .fail E.NODE_UNREACH
  else .group (fieldOf e 0 6)

/-- The route to a node that is not this engine. -/
def State.route (s : State) (node : Nat) : Route :=
  match (List.range 64).find? (fun i => s.flag (F.DEV_NODE_OVR_valid i) && decide (s.fld (F.DEV_NODE_OVR_node i) = node)) with
  | some i => s.routeEntry (s.reg (F.DEV_NODE_OVR_route i).addr)
  | none =>
    if s.flag F.DEV_ADDR_CFG_node_format then
      if s.fld F.DEV_FLAT_TABLE_LEN ≤ node then .fail E.NODE_RANGE
      else
        let a := s.fld F.DEV_FLAT_TABLE_BASE * 4096 + 8 * node
        if s.edgeSize < a + 8 then .fail E.NODE_UNREACH
        else s.routeEntry (BitVec.ofNat 64 (s.mem.nat a 8))
    else
      let d := node ^^^ s.node
      if d / 2 ^ 20 ≠ 0 then .group (s.fld F.DEV_HIER_GRP_g_hall)
      else if d / 2 ^ 14 ≠ 0 then .group (s.fld F.DEV_HIER_GRP_g_row)
      else if d / 2 ^ 8 ≠ 0 then .group (s.fld F.DEV_HIER_GRP_g_rack)
      else if d / 2 ^ 4 ≠ 0 then .group (s.fld F.DEV_HIER_GRP_g_slot)
      else .group (s.fld F.DEV_HIER_GRP_g_unit)

/-- The up-set of a group, in ascending order (R249): its links that are admitted. -/
def State.upSet (s : State) (g : Nat) : List Nat :=
  (List.range 32).filter (fun k => (s.reg (F.DEV_LGRP_MASK g).addr).getLsbD k && s.net.up.contains k)

/-- The member of an up-set that a flow uses (R250). -/
def flowLink (ep node vc : Nat) (up : List Nat) : Nat := up.getD ((ep + 3 * (node % 65536) + 7 * vc) % up.length) 0

/-- The link virtual channel that a vc value selects (R251). -/
def vcOf (vc : Nat) : Nat := if vc = 0 then 1 else vc

/-! ## Requests -/

/-- What became of a request: sent with a tag, held at the rim until the up-sets change (R256), or failed. -/
inductive Sent where
  | sent (tag : Nat)
  | held
  | fail (code : Nat)
  deriving DecidableEq, Repr

/-- The next tag that no request uses. -/
def Net.freeTag (n : Net) : Nat :=
  ((List.range (n.reqs.length + 1)).map (fun i => (n.tag + i) % 65536)).find? (fun t => !n.reqs.any (fun r => decide (r.tag = t)))
    |>.getD n.tag

/-- A request of a core is held at the rim: the next one takes the next number. -/
def State.holdNext (s : State) : State := { s with net := { s.net with holdNo := s.net.holdNo + 1 } }

/-- The state of a queue pair's transport, and its replacement. -/
def State.qpT (s : State) (q : Nat) : QpSt := Sparse.get s.net.qps {} q
def State.setQpT (s : State) (q : Nat) (t : QpSt) : State := { s with net := { s.net with qps := Sparse.put s.net.qps q t } }

/-- The packets of a request on a queue pair, as it counts them: those that carry its data, or for a read those that its answer takes. -/
def State.qpCount (s : State) (q op : Nat) (m : RoceMsg) : Nat :=
  Nat.max 1 (ceilDiv (if op = opGet then m.len else m.data.length) (1024 * 2 ^ s.fld (F.LINK_QP_mtu (q / 256) (q % 256))))

/-- Send a request to a queue pair: the local part of the address plus remote_base, with the queue pair's key (R255), under its next sequence
numbers (R238). -/
def State.sendRoce (s : State) (q : NetReq) (qp : Nat) (base : Nat) : State × Sent :=
  let t := s.net.freeTag
  let k := qp / 256
  let m : RoceMsg :=
    { va := BitVec.ofNat 64 (q.addr + base)
      rkey := BitVec.ofNat 32 (s.fld (F.LINK_QP_rkey k (qp % 256)))
      len := if q.op = opPut then q.data.length else q.len, data := q.data, psn := (s.qpT qp).tx }
  let s0 := s.setQpT qp { s.qpT qp with tx := ((s.qpT qp).tx + s.qpCount qp q.op m) % 2 ^ 24 }
  let s1 := { s0 with net := { s0.net with
    tag := (t + 1) % 65536
    reqs := s.net.reqs ++ [({ tag := t, link := k, qp := some qp, node := q.node, vc := 0, ep := q.ep, op := q.op, src := q.src, msg := m } : OutReq)] } }
  (s1.roceOut qp q.op m, .sent t)

/-- Send a request by R248 to R251. A core's crosses the wafer to its link (R247). A RoCE route carries no atomics and no COPY (R254) and ignores vc. -/
def State.sendReq (s : State) (q : NetReq) : State × Sent :=
  match s.route q.node with
  | .fail code => (s, .fail code)
  | .qp qp =>
    if q.op = opAtom ∨ q.op = opCopy then (s, .fail E.REMOTE_OP_UNSUPP)
    else s.sendRoce q qp (s.fld (F.LINK_QP_remote_base (qp / 256) (qp % 256)))
  | .group g =>
    if q.vc = 2 then (s, .fail E.REMOTE_VC)
    else if s.net.held.contains g then (s, .held)
    else
      let up := s.upSet g
      if up.isEmpty then (s, .fail E.LINK_DOWN)
      else
        let v := vcOf q.vc
        let k := flowLink q.ep q.node v up
        let t := s.net.freeTag
        let p : OfpPkt :=
          { link := BitVec.ofNat 5 k, vc := BitVec.ofNat 4 v, dst := BitVec.ofNat 22 q.node, addr := BitVec.ofNat 42 q.addr,
            src := BitVec.ofNat 22 s.node, srcEp := BitVec.ofNat 10 q.ep, tag := BitVec.ofNat 16 t, op := BitVec.ofNat 4 q.op,
            len := q.len, aop := BitVec.ofNat 4 q.aop, aw := q.aw, data := q.data }
        let s1 := { s with net := { s.net with
          tag := (t + 1) % 65536
          reqs := s.net.reqs ++ [({ tag := t, link := k, node := q.node, vc := v, ep := q.ep, op := q.op, src := q.src } : OutReq)] } }
        let s2 := match q.src with
          | .ring n _ | .slot n _ => s1.travel n (0x420 + k) 0 (dataFlits q.data.length)
          | _ => s1
        (s2.sendPkt k p, .sent t)

/-- A state without the request of a tag. -/
def State.dropReq (s : State) (t : Nat) : State := { s with net := { s.net with reqs := s.net.reqs.filter (fun r => r.tag ≠ t) } }

/-- The last sequence number of a request on a queue pair: that of its answer (R238). -/
def State.lastPsn (s : State) (q : Nat) (r : OutReq) : Nat := (r.msg.psn + s.qpCount q r.op r.msg + 2 ^ 24 - 1) % 2 ^ 24

/-- A request is given up without an answer: one of a queue pair is remembered, so that its late answer completes no other one. -/
def lateNote (s : State) (r : OutReq) : State :=
  match r.qp with
  | some q => s.setQpT q { s.qpT q with late := s.lastPsn q r :: (s.qpT q).late }
  | none => s

/-- A state without the requests of a source: their answers will come late. -/
def State.forget (s : State) (src : ReqSrc) : State :=
  (s.net.reqs.filter (fun r => r.src = src)).foldl lateNote { s with net := { s.net with reqs := s.net.reqs.filter (fun r => r.src ≠ src) } }

/-- A request of an engine of the module: while its link group is held it waits at the rim (R256); the code when it cannot leave. -/
def State.sendEng (s : State) (q : NetReq) : State × Option Nat :=
  match s.sendReq q with
  | (s1, .sent _) => (s1, none)
  | (s1, .held) => ({ s1 with net := { s1.net with rim := s1.net.rim ++ [q] } }, none)
  | (s1, .fail c) => (s1, some c)

/-- A packet that no answer is awaited for: a control record, a weight segment, gradient blocks. Sent by the same routes; whether it
left. -/
def State.sendOne (s : State) (ep vc node op tag addr : Nat) (data : List Byte) : State × Bool :=
  match s.route node with
  | .group g =>
    let up := s.upSet g
    if up.isEmpty then (s, false)
    else
      let k := flowLink ep node vc up
      (s.sendPkt k
        { link := BitVec.ofNat 5 k, vc := BitVec.ofNat 4 vc, dst := BitVec.ofNat 22 node, addr := BitVec.ofNat 42 addr,
          src := BitVec.ofNat 22 s.node, srcEp := BitVec.ofNat 10 ep, tag := BitVec.ofNat 16 tag, op := BitVec.ofNat 4 op, len := data.length,
          data := data }, true)
  | _ => (s, false)

/-! ## Endpoints (Table 11-4) -/

abbrev epWstream : Nat := 0x3F0
abbrev epRed : Nat := 0x3F1
abbrev epCkpt : Nat := 0x3F2
abbrev epLodge : Nat := 0x3F3

end Sys2Proof.Machine
end

