-- ==== Sys2Proof/Machine/Edge.lean ====
section
/-! DEFINITION. Writes to this engine's memory by any agent, and the marked pages they touch (spec/14 R318, R322): copy-ahead, waiting
writes, dirty notices. A write that must wait leaves its command to be taken up again. -/

namespace Sys2Proof.Machine

/-- A state with CKPT replaced. -/
def State.setCk (s : State) (c : Ckpt) : State := { s with ckpt := c }

/-- The nodes that the current owner table names for an owner index: owner and Shadow (spec/13 R291). -/
def State.ownerNodes (s : State) (k : Nat) : Nat × Nat :=
  let a := s.fld F.RED_OWNER_BASE * 2 ^ 19 + s.fld F.RED_STS_bank * 0x80000 + 8 * k
  (s.mem.nat a 4 % 2 ^ 22, s.mem.nat (a + 4) 4 % 2 ^ 22)

/-- The Shadow of an owner index; none when the table names none (spec/14 R316) or it is lost. -/
def State.shadowOf (s : State) (k : Nat) : Option Nat :=
  let p := s.ownerNodes k
  if p.1 = p.2 ∨ s.isSelf p.2 ∨ s.net.gone.contains p.2 then none else some p.2

/-- The 64 KiB pages of a range of edge memory. -/
def State.pagesOf (s : State) (a n : Nat) : List Nat :=
  if n = 0 ∨ s.edgeSize ≤ a then [] else (List.range ((a + n - 1) / 65536 - a / 65536 + 1)).map (fun k => a / 65536 + k)

/-- Whether a descriptor covers a page. -/
def CDesc.covers (d : CDesc) (p : Nat) : Bool := decide (d.base / 65536 ≤ p ∧ p ≤ (d.base + d.bytes - 1) / 65536)

/-- The pages of the marking in progress. -/
def State.marked (s : State) : List Page := (s.ckpt.drain.map (·.pages)).getD []

/-- The side-buffer slots that hold no page. -/
def State.freeSlots (s : State) : List Nat :=
  (List.range (s.fld F.CKPT_SIDE_size)).filter (fun j => !s.marked.any (fun p => decide (p.slot = some j)))

/-- The pages of a range that are MARKED and not AHEAD. -/
def State.heldPages (s : State) (a n : Nat) : List Nat :=
  (s.pagesOf a n).filter (fun q => s.marked.any (fun p => decide (p.no = q ∧ p.slot = none)))

/-- The descriptors whose dirty notice a write to a range must await: Freeze-method tensors owned here that are clean. -/
def State.cleanDescs (s : State) (a n : Nat) : List Nat :=
  (List.range s.ckpt.descs.length).filter (fun i =>
    match s.ckpt.descs[i]? with
    | some d => d.freeze && !d.held && d.clean.isSome && (s.shadowOf d.owner).isSome && (s.pagesOf a n).any d.covers
    | none => false)

/-- Whether a write may proceed. -/
def State.clear (s : State) (a n : Nat) : Bool :=
  decide ((s.heldPages a n).length ≤ s.freeSlots.length) && (s.cleanDescs a n).isEmpty

/-- Send a PUT of CKPT of at most 2 KiB that crosses no 2 KiB boundary; the code when it cannot leave. -/
def State.ckSend (s : State) (arg vc node addr : Nat) (data : List Byte) : State × Option Nat :=
  s.sendEng { src := .engine epCkpt arg, ep := epCkpt, vc := vc, node := node, op := opPut, addr := addr % 2 ^ 42, len := data.length, data := data }

/-- A notice to the Shadow of an owner index (R318): kind, freeze identifier, tensor. -/
def notice (kind fid tid owner seq : Nat) : List Byte :=
  leBytes 1 kind ++ leBytes 3 0 ++ leBytes 4 fid ++ leBytes 8 tid ++ leBytes 2 owner ++ leBytes 6 0 ++ leBytes 8 seq ++ List.replicate 32 0

/-- The dirty notice of a descriptor; one that cannot be sent is tried again when a write asks again (log 60). -/
def noteDirty (i : Nat) (s : State) : State :=
  match s.ckpt.descs[i]? with
  | none => s
  | some d =>
    if d.noted then s
    else
      let seq := s.ckpt.seq + 1
      let r := s.ckSend (16 + i) 1 ((s.shadowOf d.owner).getD 0) (s.fld F.CKPT_CMP_AREA + 0x8000) (notice 1 (d.clean.getD 0) d.tid d.owner seq)
      if r.2.isSome then r.1
      else r.1.setCk { r.1.ckpt with seq := seq, descs := r.1.ckpt.descs.set i { d with noted := true } }

/-- A write waits: the pages it needs are drained next, and the notices it needs are sent. -/
def State.ask (s : State) (a n : Nat) : State :=
  let held := s.heldPages a n
  let s1 := match s.ckpt.drain with
    | some d => s.setCk { s.ckpt with drain := some { d with pages := d.pages.map (fun (p : Page) => if held.contains p.no then { p with want := true } else p) } }
    | none => s
  (s1.cleanDescs a n).foldl (fun st i => noteDirty i st) s1

/-- Copy a MARKED page to a free side-buffer slot before a write changes it (R322); no write waits for it then. -/
def copyAhead (q : Nat) (s : State) : State :=
  match s.ckpt.drain, s.freeSlots with
  | some d, j :: _ =>
    let a := s.fld F.CKPT_SIDE_base * 65536 + j * 65536
    let s1 := { s with mem := s.mem.writeBytes a (s.mem.bytes (q * 65536) 65536) }
    (s1.setCk { s1.ckpt with drain := some { d with pages := d.pages.map (fun (p : Page) => if p.no = q then { p with slot := some j, want := false } else p) } }).bump F.CKPT_CA_CNT
  | _, _ => s

/-- A state with bytes written at a local address, by the Snowpack of core `own` or by another agent; over the top or the body of another Snowpack
that holds records, what is written is undefined on both sides (spec/09 R196, log 196). -/
def State.storeBy (s : State) (own : Option Nat) (a : Nat) (bs : List Byte) : State :=
  let s1 := (s.heldPages a bs.length).foldl (fun st q => copyAhead q st) s
  let w := s1.overSnow own a bs
  { w.1 with mem := w.1.mem.writeBytes a w.2 }

/-- A state with bytes written at a local address. -/
def State.store (s : State) (a : Nat) (bs : List Byte) : State := s.storeBy none a bs

/-- A state in which a range of memory has become undefined: what is marked there is copied ahead as for a write. -/
def State.undefAt (s : State) (a n : Nat) : State :=
  let s1 := (s.heldPages a n).foldl (fun st q => copyAhead q st) s
  { s1 with mem := s1.mem.undefine a n s1.free }.tick

/-! ## Edge memory over a Snowpack's body (spec/09 R196) -/

/-- A write of edge memory by a Snowpack; over another's body what it writes is undefined. -/
def State.storeEdge (s : State) (own : Option Nat) (a : Nat) (bs : List Byte) : State := s.storeBy own a bs

/-- A read of edge memory; what it reads over a Snowpack's body is undefined. -/
def State.loadEdge (s : State) (a len : Nat) : State × List Byte :=
  if s.bodyHit none a len then (s.tick, (List.range len).map (fun j => Config.freeByte s.free j)) else (s, s.mem.bytes a len)

end Sys2Proof.Machine
end

