-- ==== Sys2Proof/Machine/Operands.lean ====
section
/-! DEFINITION. Issue of an instruction (spec/04 R70-R77): which context may issue, E_PC_ALIGN of the fetch, E_ILLEGAL of the
word, the guard, holds, operand forms and the advance of the pc; and the shared shape of the scalar instructions. -/

namespace Sys2Proof

/-- The core and context of the four formats as numbers. -/
abbrev IA.n (i : IA) : Nat := i.core.toNat
abbrev IA.k (i : IA) : Nat := i.ctx.toNat
abbrev IB.n (i : IB) : Nat := i.core.toNat
abbrev IB.k (i : IB) : Nat := i.ctx.toNat
abbrev IM.n (i : IM) : Nat := i.core.toNat
abbrev IM.k (i : IM) : Nat := i.ctx.toNat
abbrev IT.n (i : IT) : Nat := i.core.toNat
abbrev IT.k (i : IT) : Nat := i.ctx.toNat

/-- The reserved fields of a format A word are zero and x is 0 (spec/04 R70, Table 04-5): `ud` to `up` say which fields the
instruction uses, `auxUsed` the mask of the auxiliary bits it uses. -/
def IA.legal (i : IA) (ud ua ub uc up : Bool) (auxUsed : BitVec 21) : Bool :=
  !i.x && (ud || i.d = 0) && (ua || i.a = 0) && (ub || i.b = 0) && (uc || i.c = 0) && (up || i.pd = 0)
    && decide (i.aux &&& ~~~auxUsed = 0)

/-- The reserved fields of a format B word (spec/04 R70): bits [40:39]; imm when x = 1; fields not used. `ext` says whether an
extension word is allowed. -/
def IB.legal (i : IB) (ext ud ua : Bool) : Bool :=
  decide (i.rsv = 0) && (if i.x then ext && decide (i.imm = 0) else true) && (ud || i.d = 0) && (ua || i.a = 0)

/-- The immediate of a format B instruction: the sign-extended field, or the extension word. -/
def IB.value (i : IB) : W64 := if i.x then i.ext else i.imm.signExtend 64

/-- The length of a format B instruction. -/
def IB.len (i : IB) : Nat := if i.x then 16 else 8

/-- The length of a format T instruction. -/
def IT.len (i : IT) : Nat := if i.x then 16 else 8

end Sys2Proof

namespace Sys2Proof.Machine

/-- The SRAM limit of a program counter (spec/04 R73). -/
def pcLimit : Nat := 0x3000000

/-- Whether a program counter or a target is legal (spec/04 R73). -/
def pcOk (pc : Nat) : Bool := pc % 8 = 0 && decide (pc < pcLimit)

/-- Whether context `k` of core `n` issues: the core is in the current mode and not stopped, and the context is RUNNING. -/
def State.issues (s : State) (n k : Nat) : Bool :=
  decide (n < s.ncores) && !s.stoppedAt n && decide ((s.ctx n k).st = .running)

/-- The guard of an instruction (spec/04 R71). -/
def Ctx.guard (x : Ctx) (pg : BitVec 3) (pn : Bool) : Bool := xor (x.pr pg.toNat) pn

/-- Whether an instruction that reads these scalars or names these descriptor registers is held (spec/04 R76). -/
def Ctx.held (x : Ctx) (rs ts : List Nat) : Bool :=
  x.loads.any (fun l => if l.desc then ts.contains l.reg else rs.contains l.reg)

/-- A context past an instruction of `len` bytes. -/
def Ctx.adv (x : Ctx) (len : Nat) : Ctx := { x with pc := (x.pc + len) % 2 ^ 26 }

/-- A state whose context has passed an instruction of `len` bytes. -/
def State.advance (s : State) (n k len : Nat) : State := s.setCtx n k ((s.ctx n k).adv len)

/-- Issue of one instruction of `len` bytes by context `k` of core `n`. `legal` is its E_ILLEGAL check, `rs` and `ts` the
registers whose outstanding load holds it, `body` its effect when it executes. A command that no context can issue has no
effect (log 7), and a held instruction does not issue (log 8). An instruction with an extension word at 0x2FF_FFF8 executes with the word its
command carries: whether the fetch of that word faults the manual does not say (DESIGN CHOICE, log 15). -/
def issue (n k : Nat) (pg : BitVec 3) (pn : Bool) (len : Nat) (legal : Bool) (rs ts : List Nat) (s : State)
    (body : State → State) : State :=
  if !s.issues n k then s
  else if !pcOk (s.ctx n k).pc then s.faultCtx n k E.PC_ALIGN (s.ctx n k).pc
  else if !legal then s.faultCtx n k E.ILLEGAL (s.ctx n k).pc
  else if !(s.ctx n k).guard pg pn then s.advance n k len
  else if (s.ctx n k).held rs ts then s
  else body s

/-- A field that names a predicate uses bits [2:0]; bits [4:3] are reserved (spec/04 R81). -/
def predField (f : BitVec 5) : Bool := decide (f.toNat < 8)

/-- A field that names a descriptor register uses bits [3:0]; bit 4 is reserved (spec/04 R82). -/
def descField (f : BitVec 5) : Bool := decide (f.toNat < 16)

/-- A register-register scalar instruction (spec/04 R80, op 0x01): s[d] = f(s[a], s[b]). -/
def scalarA (f : W64 → W64 → W64) (i : IA) (s : State) : State :=
  issue i.n i.k i.pg i.pn 8 (i.legal true true true false false 0) [i.a.toNat, i.b.toNat] [] s fun s =>
    let x := s.ctx i.n i.k
    s.setCtx i.n i.k ((x.setSr i.d.toNat (f (x.sr i.a.toNat) (x.sr i.b.toNat))).adv 8)

/-- A scalar instruction with an immediate (spec/04 R80, op 0x02): s[d] = f(s[a], imm). -/
def scalarB (f : W64 → W64 → W64) (i : IB) (s : State) : State :=
  issue i.n i.k i.pg i.pn i.len (i.legal true true true) [i.a.toNat] [] s fun s =>
    let x := s.ctx i.n i.k
    s.setCtx i.n i.k ((x.setSr i.d.toNat (f (x.sr i.a.toNat) i.value)).adv i.len)

/-- A compare of two registers (spec/04 R81, op 0x03): p[d] = s[a] op s[b]. -/
def compareA (f : W64 → W64 → Bool) (i : IA) (s : State) : State :=
  issue i.n i.k i.pg i.pn 8 (i.legal true true true false false 0 && predField i.d) [i.a.toNat, i.b.toNat] [] s fun s =>
    let x := s.ctx i.n i.k
    s.setCtx i.n i.k ((x.setPr i.d.toNat (f (x.sr i.a.toNat) (x.sr i.b.toNat))).adv 8)

/-- A compare with an immediate (spec/04 R81, op 0x04): p[d] = s[a] op imm. -/
def compareB (f : W64 → W64 → Bool) (i : IB) (s : State) : State :=
  issue i.n i.k i.pg i.pn i.len (i.legal true true true && predField i.d) [i.a.toNat] [] s fun s =>
    let x := s.ctx i.n i.k
    s.setCtx i.n i.k ((x.setPr i.d.toNat (f (x.sr i.a.toNat) i.value)).adv i.len)

/-- Predicate logic (spec/04 R81, op 0x05): p[d] = f(p[a], p[b]). -/
def predicateA (f : Bool → Bool → Bool) (i : IA) (s : State) : State :=
  issue i.n i.k i.pg i.pn 8
    (i.legal true true true false false 0 && predField i.d && predField i.a && predField i.b) [] [] s fun s =>
    let x := s.ctx i.n i.k
    s.setCtx i.n i.k ((x.setPr i.d.toNat (f (x.pr i.a.toNat) (x.pr i.b.toNat))).adv 8)

/-- The outcome of a meaning that always has a next state. -/
abbrev go (s : State) : Host.Outcome State Fault Refusal := .next s

end Sys2Proof.Machine
end

