-- ==== Sys2Proof/Machine/Flags.lean ====
section
/-! DEFINITION. The sticky flags of the CSW (spec/05 R109, Table 05-3) and how a command's completion sets them. -/

namespace Sys2Proof.Machine

/-- The four conditions of Table 05-3 that a command met. -/
structure Flags where
  nv : Bool := false
  of : Bool := false
  sat : Bool := false
  psn : Bool := false
  deriving DecidableEq, Repr

/-- No condition. -/
def Flags.none : Flags := {}

/-- The conditions of two parts of a command together. -/
def Flags.or (a b : Flags) : Flags := ⟨a.nv || b.nv, a.of || b.of, a.sat || b.sat, a.psn || b.psn⟩

/-- NaN read or produced. -/
def Flags.invalid : Flags := { nv := true }

/-- All flags of a list of parts. -/
def Flags.all (l : List Flags) : Flags := l.foldl Flags.or Flags.none

/-- A context with a command's conditions added to its sticky flags. -/
def Ctx.addFlags (x : Ctx) (f : Flags) : Ctx :=
  { x with nv := x.nv || f.nv, of := x.of || f.of, sat := x.sat || f.sat, psn := x.psn || f.psn }

/-- Set the sticky flags of the context that issued a command (spec/05 R109), unless it has ended since (spec/04 R79). -/
def State.setFlags (s : State) (n k inc : Nat) (f : Flags) : State :=
  let x := s.ctx n k
  if x.inc = inc ∧ x.st ≠ .free then s.setCtx n k (x.addFlags f) else s

end Sys2Proof.Machine
end

