-- ==== Sys2Proof/Machine/Num.lean ====
section
/-! DEFINITION. Number formats and arithmetic (spec/05 R96-R115): exact values, their sums and products, the formats, rounding,
overflow and the conversion of one element. -/

namespace Sys2Proof.Machine

/-- An exact value: NaN, an infinity, or (−1)^neg · m · 2^e. A zero keeps its sign. -/
inductive Val where
  | nan
  | inf (neg : Bool)
  | num (neg : Bool) (m : Nat) (e : Int)
  deriving DecidableEq, Repr

/-- +0. -/
abbrev Val.zero : Val := .num false 0 0
/-- 1. -/
abbrev Val.one : Val := .num false 1 0

/-- Whether a value is NaN. -/
def Val.isNan : Val → Bool | .nan => true | _ => false

/-- A value with its sign turned. -/
def Val.neg : Val → Val
  | .nan => .nan
  | .inf s => .inf (!s)
  | .num s m e => .num (!s) m e

/-- A value with a positive sign. -/
def Val.abs : Val → Val
  | .nan => .nan
  | .inf _ => .inf false
  | .num _ m e => .num false m e

/-- The signed mantissa. -/
def signedMant (neg : Bool) (m : Nat) : Int := if neg then -(m : Int) else m

/-- m · 2^e times 2^k as an integer, for k ≥ −e. -/
def shiftTo (m : Int) (e base : Int) : Int := m * 2 ^ (e - base).toNat

/-- A running exact sum: M · 2^E, and what kinds of term it has met (spec/05 R99, R113). -/
structure Sum where
  m : Int := 0
  e : Int := 0
  nan : Bool := false
  pinf : Bool := false
  ninf : Bool := false
  allNegZero : Bool := true
  some : Bool := false

/-- A sum with one more term. -/
def Sum.add (s : Sum) (v : Val) : Sum :=
  match v with
  | .nan => { s with nan := true, some := true }
  | .inf false => { s with pinf := true, allNegZero := false, some := true }
  | .inf true => { s with ninf := true, allNegZero := false, some := true }
  | .num neg m e =>
    if m = 0 then { s with allNegZero := s.allNegZero && neg, some := true }
    else if s.m = 0 then { s with m := signedMant neg m, e := e, allNegZero := false, some := true }
    else
      let b := if e ≤ s.e then e else s.e
      { s with m := shiftTo s.m s.e b + shiftTo (signedMant neg m) e b, e := b, allNegZero := false, some := true }

/-- The value of a sum: an exact zero is +0 unless every term is −0 (spec/05 R99). -/
def Sum.val (s : Sum) : Val :=
  if s.nan || (s.pinf && s.ninf) then .nan
  else if s.pinf then .inf false
  else if s.ninf then .inf true
  else if s.m = 0 then .num (s.some && s.allNegZero) 0 0
  else .num (decide (s.m < 0)) s.m.natAbs s.e

/-- The exact sum of a list of values. -/
def sumVals (l : List Val) : Val := (l.foldl Sum.add {}).val

/-- The exact sum of two values. -/
def Val.add (a b : Val) : Val := sumVals [a, b]

/-- The exact difference. -/
def Val.sub (a b : Val) : Val := a.add b.neg

/-- The exact product; 0 × ∞ is NaN. -/
def Val.mul (a b : Val) : Val :=
  match a, b with
  | .nan, _ => .nan
  | _, .nan => .nan
  | .inf s, .inf t => .inf (xor s t)
  | .inf s, .num t m _ => if m = 0 then .nan else .inf (xor s t)
  | .num s m _, .inf t => if m = 0 then .nan else .inf (xor s t)
  | .num s m e, .num t n f => .num (xor s t) (m * n) (e + f)

/-- A value scaled by a power of two. -/
def Val.scale (v : Val) (k : Int) : Val :=
  match v with
  | .num s m e => .num s m (e + k)
  | x => x

/-- The order of two magnitudes m · 2^e and n · 2^f: whether the first is at most the second. -/
def magLe (m : Nat) (e : Int) (n : Nat) (f : Int) : Bool :=
  let b := if e ≤ f then e else f
  decide (m * 2 ^ (e - b).toNat ≤ n * 2 ^ (f - b).toNat)

/-- Whether a value is below or equal to another, −0 below +0; NaN is below nothing (spec/05 R114). -/
def Val.le (a b : Val) : Bool :=
  match a, b with
  | .nan, _ => false
  | _, .nan => false
  | .inf true, _ => true
  | _, .inf false => true
  | .inf false, _ => false
  | _, .inf true => false
  | .num s m e, .num t n f =>
    match s, t with
    | true, false => true
    | false, true => false
    | false, false => magLe m e n f
    | true, true => magLe n f m e

/-- The integer of a value that is one. -/
def Val.toInt (v : Val) : Int :=
  match v with
  | .num s m e => if 0 ≤ e then signedMant s (m * 2 ^ e.toNat) else signedMant s (m / 2 ^ (-e).toNat)
  | _ => 0

/-- The value of an integer. -/
def Val.ofInt (i : Int) : Val := .num (decide (i < 0)) i.natAbs 0

/-! ## Rounding -/

/-- The floor of the base-two logarithm of m · 2^e. -/
def ilog (m : Nat) (e : Int) : Int := (Nat.log2 m : Int) + e

/-- Round m · 2^e to a multiple of 2^u (spec/05 R103, R106): `sticky` says that the exact value lies strictly above m · 2^e,
below (m + 1) · 2^e. Mode 0 is to nearest even, 1 stochastic with the 32-bit draw, 2 toward zero. The result counts 2^u. -/
def roundAt (rnd draw : Nat) (m : Nat) (e u : Int) (sticky : Bool) : Nat :=
  if u ≤ e then m * 2 ^ (e - u).toNat
  else
    let d := (u - e).toNat
    let q := m / 2 ^ d
    let r := m % 2 ^ d
    match rnd with
    | 0 =>
      let half := 2 ^ (d - 1)
      if half < r ∨ (r = half ∧ (sticky = true ∨ q % 2 = 1)) then q + 1 else q
    | 1 => if draw < r * 2 ^ 32 / 2 ^ d then q + 1 else q
    | _ => q

/-- A binary floating-point format: mantissa bits, exponent of the smallest normal number, the largest finite value
maxM · 2^maxE, and how its exponent field of all ones is used (spec/05 Table 05-1). -/
structure FF where
  mb : Nat
  emin : Int
  eb : Nat
  maxM : Nat
  maxE : Int
  hasInf : Bool

/-- FP32. -/
def ffFp32 : FF := ⟨23, -126, 8, 2 ^ 24 - 1, 104, true⟩
/-- BF16. -/
def ffBf16 : FF := ⟨7, -126, 8, 255, 120, true⟩
/-- FP16. -/
def ffFp16 : FF := ⟨10, -14, 5, 2047, 5, true⟩
/-- FP8 E4M3. -/
def ffE4m3 : FF := ⟨3, -6, 4, 14, 5, false⟩
/-- FP8 E5M2. -/
def ffE5m2 : FF := ⟨2, -14, 5, 7, 13, true⟩
/-- MXFP6 E3M2 elements. -/
def ffE3m2 : FF := ⟨2, -2, 3, 7, 2, false⟩
/-- MXFP6 E2M3 elements. -/
def ffE2m3 : FF := ⟨3, 0, 2, 15, -1, false⟩
/-- MXFP4 E2M1 elements. -/
def ffE2m1 : FF := ⟨1, 0, 2, 3, 1, false⟩
/-- WACC, whose significand shows its leading bit. -/
def ffWacc : FF := ⟨63, -16382, 15, 2 ^ 64 - 1, 16320, true⟩

/-- The floating-point format of a format code (spec/05 R96). -/
def ffOf (fmt : Nat) : FF :=
  match fmt with
  | 0x00 => ffFp32 | 0x01 => ffBf16 | 0x02 => ffFp16 | 0x03 => ffE4m3 | 0x04 => ffE5m2
  | 0x05 => ffE4m3 | 0x06 => ffE3m2 | 0x07 => ffE2m3 | 0x08 => ffE2m1 | _ => ffWacc

/-- The spacing exponent of a format at m · 2^e (spec/05 R106). -/
def FF.ulp (f : FF) (m : Nat) (e : Int) : Int :=
  let a := ilog m e
  (if a ≤ f.emin then f.emin else a) - f.mb

/-- The bits of q · 2^u in a format with a hidden leading bit. -/
def FF.encode (f : FF) (neg : Bool) (q : Nat) (u : Int) : Nat :=
  let field := (u - (f.emin - f.mb) + 1).toNat
  let body := if q = 0 then 0 else field * 2 ^ f.mb + q - 2 ^ f.mb
  bit neg * 2 ^ (f.eb + f.mb) + body

/-- The bits of q · 2^u as a WACC value (spec/05 R101). -/
def encodeWacc (neg : Bool) (q : Nat) (u : Int) : Nat :=
  let field := (u - (ffWacc.emin - 63) + 1).toNat
  let body := if q = 0 then 0
    else if q < 2 ^ 63 then q
    else if q = 2 ^ 64 then (field + 1) * 2 ^ 64 + 2 ^ 63
    else field * 2 ^ 64 + q
  bit neg * 2 ^ 79 + body

/-- The value of the bits of a format with a hidden leading bit (spec/05 R96-R98). `nanE4` marks the NaN codes of E4M3. -/
def FF.decode (f : FF) (nanE4 : Bool) (raw : Nat) : Val :=
  let man := raw % 2 ^ f.mb
  let ex : Nat := raw / 2 ^ f.mb % 2 ^ f.eb
  let neg := decide (raw / 2 ^ (f.mb + f.eb) % 2 = 1)
  if f.hasInf ∧ ex = 2 ^ f.eb - 1 then (if man = 0 then .inf neg else .nan)
  else if nanE4 ∧ ex = 15 ∧ man = 7 then .nan
  else if ex = 0 then .num neg man (f.emin - f.mb)
  else .num neg (2 ^ f.mb + man) (f.emin - f.mb + ex - 1)

/-- The value of a WACC pattern (spec/05 R101). -/
def decodeWacc (raw : Nat) : Val :=
  let sig : Nat := raw % 2 ^ 64
  let ex : Nat := raw / 2 ^ 64 % 2 ^ 15
  let neg := decide (raw / 2 ^ 79 % 2 = 1)
  if ex = 0x7FFF then (if sig = 0 then .inf neg else .nan)
  else if ex = 0 then .num neg sig (-16382 - 63)
  else .num neg sig ((ex : Int) - 16383 - 63)

/-- A two's-complement integer of `w` bits. -/
def signedOf (w raw : Nat) : Int := if raw < 2 ^ (w - 1) then (raw : Int) else (raw : Int) - (2 : Int) ^ w

/-- The value of an element's code, without block scale or scale record (spec/05 Table 05-1). -/
def decodeElem (fmt raw : Nat) : Val :=
  match fmt with
  | 0x09 => Val.ofInt (signedOf 8 raw)
  | 0x0B => Val.ofInt (signedOf 32 raw)
  | 0x0C => decodeWacc raw
  | 0x03 => ffE4m3.decode true raw
  | 0x05 => ffE4m3.decode true raw
  | _ => (ffOf fmt).decode false raw

/-- Width of an element in bits (spec/04 Table 04-3). -/
def elemBits (fmt : Nat) : Nat :=
  match fmt with
  | 0x00 => 32 | 0x0B => 32 | 0x01 => 16 | 0x02 => 16 | 0x03 => 8 | 0x04 => 8 | 0x09 => 8
  | 0x05 => 8 | 0x06 => 6 | 0x07 => 6 | 0x08 => 4 | 0x0C => 128 | _ => 16

/-- The canonical NaN of a format that has one (spec/05 R99). -/
def canonNan (fmt : Nat) : Nat :=
  match fmt with
  | 0x00 => 0x7FC00000 | 0x01 => 0x7FC0 | 0x02 => 0x7E00 | 0x03 => 0x7F | 0x04 => 0x7E
  | _ => 0x7FFF * 2 ^ 64 + 0xC000000000000000

/-- The bits of an infinity in a format that has one. -/
def encodeInf (fmt : Nat) (neg : Bool) : Nat :=
  if fmt = 0x0C then bit neg * 2 ^ 79 + 0x7FFF * 2 ^ 64
  else
    let f := ffOf fmt
    bit neg * 2 ^ (f.eb + f.mb) + (2 ^ f.eb - 1) * 2 ^ f.mb

/-- The bits of q · 2^u in a floating-point format. -/
def encodeFin (fmt : Nat) (neg : Bool) (q : Nat) (u : Int) : Nat :=
  if fmt = 0x0C then encodeWacc neg q u else (ffOf fmt).encode neg q u

/-- The bits of the largest finite value of a floating-point format. -/
def encodeMax (fmt : Nat) (neg : Bool) : Nat := encodeFin fmt neg (ffOf fmt).maxM (ffOf fmt).maxE

/-- Convert a value into an integer format of `w` bits (spec/05 R103-R105): NaN gives 0; beyond the range, the bound. -/
def convInt (w rnd draw : Nat) (v : Val) (sticky : Bool) : Nat × Flags :=
  let top : Nat := 2 ^ (w - 1) - 1
  let low : Nat := 2 ^ (w - 1)
  match v with
  | .nan => (0, { nv := true })
  | .inf neg => (if neg then low else top, { nv := true, sat := true })
  | .num neg m e =>
    let q := roundAt rnd draw m e 0 sticky
    if neg then
      if low < q then (low, { of := true, sat := true }) else ((2 ^ w - q) % 2 ^ w, Flags.none)
    else if top < q then (top, { of := true, sat := true }) else (q, Flags.none)

/-- Convert a value into a floating-point format that is not an MX element (spec/05 R103-R105, Table 05-2). -/
def convFloat (fmt rnd draw : Nat) (sat : Bool) (v : Val) (sticky : Bool) : Nat × Flags :=
  let f := ffOf fmt
  match v with
  | .nan => (canonNan fmt, { nv := true })
  | .inf neg =>
    if fmt = 0x03 then
      (if sat || rnd = 2 then (encodeMax fmt neg, { nv := true, sat := true }) else (canonNan fmt, { nv := true }))
    else if sat || rnd = 2 then (encodeMax fmt neg, { sat := true })
    else (encodeInf fmt neg, Flags.none)
  | .num neg m e =>
    if m = 0 ∧ !sticky then (encodeFin fmt neg 0 0, Flags.none)
    else
      let u := f.ulp m e
      let q := roundAt rnd draw m e u sticky
      if magLe q u f.maxM f.maxE then (encodeFin fmt neg q u, Flags.none)
      else if sat || rnd = 2 then (encodeMax fmt neg, { of := true, sat := true })
      else if fmt = 0x03 then (canonNan fmt, { of := true, nv := true })
      else (encodeInf fmt neg, { of := true })

/-- Convert one element into a format that is neither MX nor GB16. -/
def convElem (fmt rnd draw : Nat) (sat : Bool) (v : Val) : Nat × Flags :=
  match fmt with
  | 0x09 => convInt 8 rnd draw v false
  | 0x0B => convInt 32 rnd draw v false
  | _ => convFloat fmt rnd draw sat v false

/-- Round a value to FP32, to nearest even, as a lane or an accumulator does: the rounded value, and `of` on overflow. A NaN sets
nothing here: reading or producing it does. -/
def toF32s (v : Val) (sticky : Bool) : Val × Flags :=
  match v with
  | .num neg m e =>
    if m = 0 ∧ !sticky then (.num neg 0 0, Flags.none)
    else
      let u := ffFp32.ulp m e
      let q := roundAt 0 0 m e u sticky
      if magLe q u ffFp32.maxM ffFp32.maxE then (.num neg q u, Flags.none) else (.inf neg, { of := true })
  | x => (x, Flags.none)

/-- Round an exact value to FP32. -/
def toF32 (v : Val) : Val × Flags := toF32s v false

/-- The value of an FP32 pattern. -/
def ofF32 (raw : Nat) : Val := ffFp32.decode false (raw % 2 ^ 32)

/-- The FP32 pattern of a value that FP32 holds. -/
def f32Bits (v : Val) : Nat := (convFloat 0 0 0 false v false).1

/-! ## Quotients and roots -/

/-- The quotient of two magnitudes to at least 100 bits: mantissa, exponent and whether a remainder is left. -/
def divMag (m : Nat) (e : Int) (n : Nat) (f : Int) : Nat × Int × Bool :=
  let k := 100 + Nat.log2 n
  let a := m * 2 ^ k
  (a / n, e - f - k, decide (a % n ≠ 0))

/-- The integer square root, by `fuel` binary digits from the top. -/
def isqrtGo (n : Nat) : Nat → Nat → Nat
  | 0, r => r
  | k + 1, r => if (r + 2 ^ k) * (r + 2 ^ k) ≤ n then isqrtGo n k (r + 2 ^ k) else isqrtGo n k r

/-- The integer square root. -/
def isqrt (n : Nat) : Nat := isqrtGo n (Nat.log2 n / 2 + 1) 0

/-- The square root of the quotient of two magnitudes to at least 64 bits. -/
def sqrtMag (m : Nat) (e : Int) (n : Nat) (f : Int) : Nat × Int × Bool :=
  let d := e - f
  let h : Int := d % (2 : Int)
  let k := 130 + Nat.log2 n
  let a := m * 2 ^ (2 * k + h.toNat)
  let q := a / n
  let r := isqrt q
  (r, (d - h) / 2 - k, decide (r * r ≠ q ∨ a % n ≠ 0))

/-- IEEE 754 division, rounded once to FP32 (spec/05 R114). -/
def divF32 (a b : Val) : Val × Flags :=
  match a, b with
  | .nan, _ => (.nan, Flags.none)
  | _, .nan => (.nan, Flags.none)
  | .inf _, .inf _ => (.nan, { nv := true })
  | .inf s, .num t _ _ => (.inf (xor s t), Flags.none)
  | .num s _ _, .inf t => (.num (xor s t) 0 0, Flags.none)
  | .num s m e, .num t n f =>
    if n = 0 then (if m = 0 then (.nan, { nv := true }) else (.inf (xor s t), Flags.none))
    else if m = 0 then (.num (xor s t) 0 0, Flags.none)
    else
      let (q, x, st) := divMag m e n f
      toF32s (.num (xor s t) q x) st

/-- 1/√x, rounded once to FP32 (spec/07 R160). -/
def rsqrtF32 (v : Val) : Val × Flags :=
  match v with
  | .nan => (.nan, Flags.none)
  | .inf false => (.num false 0 0, Flags.none)
  | .inf true => (.nan, { nv := true })
  | .num s m e =>
    if m = 0 then (.inf s, Flags.none)
    else if s then (.nan, { nv := true })
    else
      let (q, x, st) := sqrtMag 1 0 m e
      toF32s (.num false q x) st

/-- √x, rounded once to FP32 (spec/07 R164). -/
def sqrtF32 (v : Val) : Val × Flags :=
  match v with
  | .nan => (.nan, Flags.none)
  | .inf false => (.inf false, Flags.none)
  | .inf true => (.nan, { nv := true })
  | .num s m e =>
    if m = 0 then (.num s 0 0, Flags.none)
    else if s then (.nan, { nv := true })
    else
      let (q, x, st) := sqrtMag m e 1 0
      toF32s (.num false q x) st

/-- The flag of a result: NaN from operands none of which is NaN sets nv (spec/05 Table 05-3). -/
def invalidOf (args : List Val) (r : Val) : Flags :=
  if r.isNan && !(args.any Val.isNan) then { nv := true } else Flags.none

/-- An exact result rounded once to FP32, with its flags. -/
def lane (args : List Val) (exact : Val) : Val × Flags :=
  let (r, f) := toF32 exact
  (r, f.or (invalidOf args r))

/-- Binary32 add, sub, mul and fused multiply-add (spec/05 R114). -/
def addF32 (a b : Val) : Val × Flags := lane [a, b] (a.add b)
def subF32 (a b : Val) : Val × Flags := lane [a, b] (a.sub b)
def mulF32 (a b : Val) : Val × Flags := lane [a, b] (a.mul b)
def fmaF32 (a b c : Val) : Val × Flags := lane [a, b, c] ((a.mul b).add c)

/-- Maximum and minimum of IEEE 754-2019 (spec/05 R114): a NaN operand gives NaN and sets nv. -/
def maxF32 (a b : Val) : Val × Flags :=
  if a.isNan || b.isNan then (.nan, { nv := true }) else (if a.le b then b else a, Flags.none)
def minF32 (a b : Val) : Val × Flags :=
  if a.isNan || b.isNan then (.nan, { nv := true }) else (if a.le b then a else b, Flags.none)

/-! ## Exponential and logarithm (spec/07 R160) -/

/-- Bits of the fixed-point series below. -/
def serP : Nat := 320

/-- The Taylor series of the exponential: the sum of y^k / k! from term k on, in fixed point. -/
def expSeries (y : Int) : Nat → Nat → Int → Int → Int
  | 0, _, _, acc => acc
  | fuel + 1, k, term, acc =>
    let t := term * y / 2 ^ serP / (k : Int)
    expSeries y fuel (k + 1) t (acc + t)

/-- Repeated squaring in fixed point. -/
def squareN : Nat → Int → Int
  | 0, x => x
  | n + 1, x => squareN n (x * x / 2 ^ serP)

/-- e^x of a nonzero number of magnitude below 256, in fixed point: the series at x / 1,024, squared ten times. -/
def expFixed (neg : Bool) (m : Nat) (e : Int) : Int :=
  let x := signedMant neg m * 2 ^ (e + serP).toNat
  let one : Int := 2 ^ serP
  squareN 10 (expSeries (x / 1024) 60 1 one one)

/-- VEXP (spec/07 R160): e^x, correctly rounded to FP32 (log 12). -/
def expF32 (v : Val) : Val × Flags :=
  match v with
  | .nan => (.nan, Flags.none)
  | .inf true => (.num false 0 0, Flags.none)
  | .inf false => (.inf false, Flags.none)
  | .num neg m e =>
    if m = 0 then (.one, Flags.none)
    else if !neg ∧ 7 ≤ ilog m e then (.inf false, { of := true })
    else if neg ∧ 7 ≤ ilog m e then (.num false 0 0, Flags.none)
    else toF32s (.num false (expFixed neg m e).toNat (-(serP : Int))) true

/-- The series of the inverse hyperbolic tangent: the sum of z^(2j+1) / (2j+1), in fixed point. -/
def atanhSeries (z2 : Int) : Nat → Nat → Int → Int → Int
  | 0, _, _, acc => acc
  | fuel + 1, d, p, acc => atanhSeries z2 fuel (d + 2) (p * z2 / 2 ^ serP) (acc + p / (d : Int))

/-- ln f for f = F / 2^P in [1, 2], in fixed point. -/
def lnFixed (F : Int) : Int :=
  let one : Int := 2 ^ serP
  let z := (F - one) * one / (F + one)
  2 * atanhSeries (z * z / one) 110 1 z 0

/-- VLOG (spec/07 R160): ln x, correctly rounded to FP32 (log 12). -/
def logF32 (v : Val) : Val × Flags :=
  match v with
  | .nan => (.nan, Flags.none)
  | .inf false => (.inf false, Flags.none)
  | .inf true => (.nan, { nv := true })
  | .num neg m e =>
    if m = 0 then (.inf true, Flags.none)
    else if neg then (.nan, { nv := true })
    else
      let k := ilog m e
      let F : Int := (m : Int) * 2 ^ (serP - Nat.log2 m)
      let r := k * lnFixed (2 ^ (serP + 1)) + lnFixed F
      if r = 0 then (.zero, Flags.none)
      else toF32s (.num (decide (r < 0)) r.natAbs (-(serP : Int))) true

end Sys2Proof.Machine
end

