-- ==== Sys2Proof/Machine/Tensor.lean ====
section
/-! DEFINITION. Tensor descriptors (spec/04 R66-R69, R456), the elements of a tensor, MX blocks (spec/05 R100, R115), scale
records (R116-R120), stochastic draws (R106-R108), and reading and writing a whole tensor in linear order. -/

namespace Sys2Proof.Machine

/-! ## Descriptors -/

/-- The fields of a descriptor (spec/04 Table 04-2), sizes as counts. -/
structure Tens where
  base : Nat
  n0 : Nat
  n1 : Nat
  n2 : Nat
  n3 : Nat
  s1 : Nat
  s2 : Nat
  s3 : Nat
  fmt : Nat
  space : Nat
  rnd : Nat
  sat : Bool
  tr : Bool
  tsc : Nat
  srec : Nat
  srecEn : Bool
  rsv : Nat
  deriving DecidableEq, Repr

/-- The fields of a descriptor word. -/
def Tens.of (d : Desc) : Tens :=
  { base := fieldOf d 0 64, n0 := fieldOf d 64 16 + 1, n1 := fieldOf d 80 16 + 1, n2 := fieldOf d 96 16 + 1,
    n3 := fieldOf d 112 16 + 1, s1 := fieldOf d 128 32, s2 := fieldOf d 160 32, s3 := fieldOf d 192 32,
    fmt := fieldOf d 224 6, space := fieldOf d 230 2, rnd := fieldOf d 232 2, sat := d.getLsbD 234, tr := d.getLsbD 235,
    tsc := fieldOf d 236 4, srec := fieldOf d 240 12, srecEn := d.getLsbD 252, rsv := fieldOf d 253 3 }

/-- Whether a format has block scales (spec/05 R100). -/
def isMx (fmt : Nat) : Bool := decide (5 ≤ fmt ∧ fmt ≤ 8)

/-- Whether the scale of a scale record applies to a format (spec/05 R117). -/
def isScaled (fmt : Nat) : Bool := fmt = 3 || fmt = 4 || fmt = 9

/-- The alignment of base and strides (spec/04 Table 04-3). -/
def fmtAlign (fmt : Nat) : Nat :=
  match fmt with
  | 0x00 => 4 | 0x0B => 4 | 0x01 => 2 | 0x02 => 2 | 0x05 => 32 | 0x06 => 24 | 0x07 => 24 | 0x08 => 16 | 0x0A => 4 | 0x0C => 16
  | _ => 1

/-- The bytes of one row of a tensor (spec/04 R456). -/
def Tens.rowBytes (t : Tens) : Nat := if t.fmt = 0x0A then t.n0 / 32 * 68 else (t.n0 * elemBits t.fmt + 7) / 8

/-- The number of rows. -/
def Tens.rows (t : Tens) : Nat := t.n1 * t.n2 * t.n3

/-- The number of elements. -/
def Tens.count (t : Tens) : Nat := t.n0 * t.rows

/-- The byte size of a tensor (spec/04 R456). -/
def Tens.bytes (t : Tens) : Nat := t.rowBytes * t.rows

/-- The offset of row `r` in linear order (spec/04 R67). Space 3 is the model's own place for the value of a Slalom link
(spec/08 R187), row after row. -/
def Tens.rowAddr (t : Tens) (r : Nat) : Nat :=
  if t.space = 3 then t.base + r * t.rowBytes
  else t.base + r % t.n1 * t.s1 + r / t.n1 % t.n2 * t.s2 + r / (t.n1 * t.n2) * t.s3

/-- The sizes of a tensor. -/
def Tens.shape (t : Tens) : Nat × Nat × Nat × Nat := (t.n0, t.n1, t.n2, t.n3)

/-- Sizes n2 and n3 are 1. -/
def Tens.flat (t : Tens) : Bool := t.n2 = 1 && t.n3 = 1

/-- The first offset beyond a tensor whose rows take `rb` bytes. -/
def Tens.limit (t : Tens) (rb : Nat) : Nat := t.base + (t.n1 - 1) * t.s1 + (t.n2 - 1) * t.s2 + (t.n3 - 1) * t.s3 + rb

/-- The size of a local space (spec/04 Table 04-2). -/
def spaceSize (space : Nat) : Nat := if space = 1 then 0x3000000 else 0x100000

/-- Whether a local tensor leaves its space (spec/04 R69). -/
def Tens.outside (t : Tens) (rb : Nat) : Bool := (t.space = 1 || t.space = 2) && decide (spaceSize t.space < t.limit rb)

/-- The SRAM offset of a tensor's scale record (spec/04 R67). -/
def State.srecAt (s : State) (n : Nat) (t : Tens) : Nat := s.fld (F.CORE_SREC_BASE n) * 64 + 64 * t.srec

/-- The descriptor check of R69 for operand `t` in register `own`, with the scale descriptor `sc` its tsc names; `trOk` for the
weight operand of a Carve or Schuss command. tr = 1 in a scale descriptor is accepted: whether R69 counts it as tr of an operand the manual does not
say (DESIGN CHOICE, log 200). -/
def descOk (s : State) (n : Nat) (own : Nat) (t sc : Tens) (trOk : Bool) : Bool :=
  decide (t.rsv = 0 ∧ t.fmt ≤ 0x0C ∧ t.space ≠ 3 ∧ t.rnd ≠ 3)
    && decide (t.base % fmtAlign t.fmt = 0)
    && (t.n1 = 1 || t.s1 % fmtAlign t.fmt = 0) && (t.n2 = 1 || t.s2 % fmtAlign t.fmt = 0) && (t.n3 = 1 || t.s3 % fmtAlign t.fmt = 0)
    && (!(isMx t.fmt || t.fmt = 0x0A) || t.n0 % 32 = 0)
    && (!isMx t.fmt || (t.tsc ≠ own && decide (sc.rsv = 0 ∧ sc.space = t.space ∧ sc.rnd ≠ 3
          ∧ sc.shape = (t.n0 / 32, t.n1, t.n2, t.n3))))
    && (!t.srecEn || decide (s.srecAt n t + 64 ≤ 0x3000000))
    && (!(isMx t.fmt && sc.srecEn) || decide (s.srecAt n sc + 64 ≤ 0x3000000))
    && (!t.tr || trOk)

/-! ## Bytes of the local spaces of a core -/

/-- Bytes of a local space. -/
def State.lbytes (s : State) (n space off len : Nat) : List Byte := s.mem.bytes (localAddr n space off) len

/-- A state with bytes of a local space written; over the top of a Snowpack that holds records they are undefined (spec/09 R196). -/
def State.lstore (s : State) (n space off : Nat) (bs : List Byte) : State :=
  let w := s.overSnow none (localAddr n space off) bs
  { w.1 with mem := w.1.mem.writeBytes (localAddr n space off) w.2 }

/-- A state with a range of a local space undefined (spec/04 R92, spec/08 R189). -/
def State.lundef (s : State) (n space off len : Nat) : State :=
  { s with mem := s.mem.undefine (localAddr n space off) len s.free, free := s.free + 1 }

/-! ## Reading -/

/-- Element `k` of the packed bytes of a row (spec/05 R97). -/
def unpackElem (fmt : Nat) (row : List Byte) (k : Nat) : Nat :=
  match elemBits fmt with
  | 4 => (row.getD (k / 2) 0).toNat / 16 ^ (k % 2) % 16
  | 6 => leNat ((row.drop (3 * (k / 4))).take 3) / 64 ^ (k % 4) % 64
  | w => leNat ((row.drop (k * (w / 8))).take (w / 8))

/-- The value of an MX element with its block scale (spec/05 R100). -/
def mxVal (fmt raw scale : Nat) : Val :=
  if scale = 0xFF then .nan else (decodeElem fmt raw).scale ((scale : Int) - 127)

/-- The exponent of the power of two that a record's scale stands for (spec/05 R116). -/
def scaleExp (raw : Nat) : Int :=
  let e : Nat := raw / 2 ^ 23 % 256
  if e = 0 then -126 else if e = 255 then 127 else (e : Int) - 127

/-- The values of one row: the data row, the block-scale row, and the exponent of the record's scale. -/
def rowVals (fmt n0 : Nat) (row scales : List Byte) (se : Int) : List Val :=
  if fmt = 0x0A then
    (List.range n0).map (fun k =>
      let b := (row.drop (68 * (k / 32))).take 68
      let m := signedOf 16 (leNat ((b.drop (4 + 2 * (k % 32))).take 2))
      (Val.ofInt m).scale (((b.getD 0 0).toNat : Int) - 141))
  else if isMx fmt then (List.range n0).map (fun k => mxVal fmt (unpackElem fmt row k) (scales.getD (k / 32) 0).toNat)
  else (List.range n0).map (fun k => (decodeElem fmt (unpackElem fmt row k)).scale se)

/-- The exponent of the scale of a tensor's record when it applies to a read (spec/05 R117). -/
def State.readScale (s : State) (n : Nat) (t : Tens) : Int :=
  if t.srecEn && isScaled t.fmt then scaleExp (s.mem.nat (localAddr n 1 (s.srecAt n t)) 4) else 0

/-- The rows of a tensor as values, in linear order of rows; the stored dimensions, before any exchange. -/
def State.readRows (s : State) (n : Nat) (t sc : Tens) : List (List Val) :=
  let se := s.readScale n t
  (List.range t.rows).map (fun r =>
    rowVals t.fmt t.n0 (s.lbytes n t.space (t.rowAddr r) t.rowBytes)
      (if isMx t.fmt then s.lbytes n sc.space (sc.rowAddr r) (t.n0 / 32) else []) se)

/-- The values of a tensor in linear order. -/
def State.readTens (s : State) (n : Nat) (t sc : Tens) : List Val := (s.readRows n t sc).flatten

/-- The condition of reading values: a NaN sets nv (spec/05 R109). -/
def readFlags (vs : List Val) : Flags := { nv := vs.any Val.isNan }

/-- The rows of a two-dimensional operand with dimensions 0 and 1 exchanged when tr = 1 (spec/04 R66): row j, element i. -/
def exchanged (t : Tens) (rows : List (List Val)) : List (List Val) :=
  if t.tr then (List.range t.n0).map (fun k => rows.map (fun r => r.getD k .zero)) else rows

/-- Whether a GB16 block's header has its poison bit (spec/05 R102, spec/13). -/
def poisonBit (b : List Byte) : Bool := (b.getD 2 0).getLsbD 0

/-- The 68 B blocks of a GB16 tensor in linear order. -/
def State.readBlocks (s : State) (n : Nat) (t : Tens) : List (List Byte) :=
  ((List.range t.rows).map (fun r =>
    (List.range (t.n0 / 32)).map (fun b => s.lbytes n t.space (t.rowAddr r + 68 * b) 68))).flatten

/-- The packed bytes of a tensor (spec/04 R456). -/
def State.packed (s : State) (n : Nat) (t : Tens) : List Byte :=
  ((List.range t.rows).map (fun r => s.lbytes n t.space (t.rowAddr r) t.rowBytes)).flatten

/-- A state with packed bytes written to the rows of a tensor. -/
def State.unpack (s : State) (n : Nat) (t : Tens) (bs : List Byte) : State :=
  (List.range t.rows).foldl (fun st r =>
    st.lstore n t.space (t.rowAddr r) ((bs.drop (r * t.rowBytes)).take t.rowBytes)) s

/-! ## Stochastic draws (spec/05 R107, R108) -/

/-- mix64 of R107. -/
def mix64 (z : Nat) : Nat :=
  let a := (z ^^^ (z >>> 30)) * 0xBF58476D1CE4E5B9 % 2 ^ 64
  let b := (a ^^^ (a >>> 27)) * 0x94D049BB133111EB % 2 ^ 64
  b ^^^ (b >>> 31)

/-- The 32-bit draw of element `i`. -/
def srBits (seed i : Nat) : Nat := mix64 ((seed + (i + 1) * 0x9E3779B97F4A7C15) % 2 ^ 64) >>> 32

/-- The seed of the next write. -/
def nextSeed (seed : Nat) : Nat := mix64 (seed ^^^ 0x5851F42D4C957F2D)

/-! ## Scale records (spec/05 R116-R120) -/

/-- A scale record. -/
structure SRec where
  scale : Nat
  fmt : Nat
  count : Nat
  head : Nat
  policy : Nat
  amax : List Nat
  seed : Nat

/-- A record from its 64 bytes; a count or head out of range is an empty history (spec/05 R116). -/
def SRec.of (b : List Byte) : SRec :=
  let c := (b.getD 5 0).toNat
  let h := (b.getD 6 0).toNat
  let bad := decide (12 < c ∨ 11 < h)
  { scale := leNat (b.take 4), fmt := (b.getD 4 0).toNat, count := if bad then 0 else c, head := if bad then 0 else h,
    policy := (b.getD 7 0).toNat, amax := (List.range 12).map (fun j => leNat ((b.drop (8 + 4 * j)).take 4)),
    seed := leNat ((b.drop 56).take 8) }

/-- The 64 bytes of a record. -/
def SRec.toBytes (r : SRec) : List Byte :=
  leBytes 4 r.scale ++ [BitVec.ofNat 8 r.fmt, BitVec.ofNat 8 r.count, BitVec.ofNat 8 r.head, BitVec.ofNat 8 r.policy]
    ++ (r.amax.map (leBytes 4)).flatten ++ leBytes 8 r.seed

/-- A magnitude entered in the history: FP32 rounded toward +∞, at most the largest finite value (spec/05 R118). -/
def amaxBits (v : Val) : Nat :=
  match v with
  | .num _ m e =>
    let (raw, _) := convFloat 0 2 0 true (.num false m e) false
    if raw < 0x7F7FFFFF ∧ !((Val.num false m e).le (ofF32 raw)) then raw + 1 else raw
  | _ => 0

/-- The largest of a list of magnitudes, finite values only; 0 when there is none (spec/05 R118). -/
def amaxOf (vs : List Val) : Val :=
  vs.foldl (fun a v => match v with | .num _ m e => if a.le (.num false m e) then .num false m e else a | _ => a) .zero

/-- A history entry read as a magnitude (spec/05 R119). -/
def histVal (raw : Nat) : Val :=
  match ofF32 (raw % 2 ^ 31) with
  | .nan => .zero
  | .inf _ => .num false (2 ^ 24 - 1) 104
  | v => v

/-- The largest finite value of a scaled format (spec/05 R119). -/
def scaledMax (fmt : Nat) : Nat := if fmt = 3 then 448 else if fmt = 4 then 57344 else 127

/-- Step 3 of R119: the FP32 bits of 2^e for the least e with A ≤ F · 2^e, raised by the margin and clamped. -/
def deriveScale (a : Val) (fmt margin : Nat) : Nat :=
  match a with
  | .num _ m e =>
    let f := scaledMax fmt
    let e0 := ilog m e - Nat.log2 f - 1
    let e1 := if magLe m e f e0 then e0 else if magLe m e f (e0 + 1) then e0 + 1 else e0 + 2
    let e2 := e1 + margin
    let e3 := if e2 < -126 then -126 else if 127 < e2 then 127 else e2
    (e3 + 127).toNat * 2 ^ 23
  | _ => 0

/-- The update of a record by a command's amax (spec/05 R119), and by its seed when it rounded stochastically. -/
def SRec.update (r : SRec) (amax : Val) (advance : Bool) : SRec :=
  let am := r.amax.set r.head (amaxBits amax)
  let head := (r.head + 1) % 12
  let count := Nat.min (r.count + 1) 12
  let f := r.fmt % 64
  let hist := (List.range count).map (fun k => histVal (am.getD ((head + 11 - k) % 12) 0))
  let a := if r.policy % 4 = 1 then hist.headD .zero else amaxOf hist
  let zero := decide (f32Bits a = 0)
  let scale := if (r.policy / 4 % 2 = 0 && isScaled f) && !zero then deriveScale a f (r.policy / 16) else r.scale
  { r with scale := scale, count := count, head := head, amax := am, seed := if advance then nextSeed r.seed else r.seed }

/-- The record of a tensor. -/
def State.srecOf (s : State) (n : Nat) (t : Tens) : SRec := SRec.of (s.lbytes n 1 (s.srecAt n t) 64)

/-- A state with the record of a tensor stored. -/
def State.setSrec (s : State) (n : Nat) (t : Tens) (r : SRec) : State := s.lstore n 1 (s.srecAt n t) r.toBytes

/-! ## Writing -/

/-- emax of an MX element format (spec/05 R115). -/
def mxEmax (fmt : Nat) : Int := match fmt with | 5 => 8 | 6 => 4 | _ => 2

/-- Convert one MX block (spec/05 R115, R105): its block scale, its element codes and its flags. `draws` gives the draw of each
element. Where A = 0 every element has code 0, which is +0; R115 says only that it is zero, and the sign is a DESIGN CHOICE (log 14). -/
def mxBlock (fmt rnd : Nat) (draws : List Nat) (vs : List Val) : Nat × List Nat × Flags :=
  if vs.any (fun v => match v with | .num _ _ _ => false | _ => true) then (0xFF, vs.map (fun _ => 0), { nv := true })
  else
    match amaxOf vs with
    | .num _ m e =>
      if m = 0 then (0, vs.map (fun _ => 0), Flags.none)
      else
        let x0 := ilog m e - mxEmax fmt
        let x := if x0 < -127 then -127 else if 127 < x0 then 127 else x0
        let f := ffOf fmt
        let out := (vs.zip draws).map (fun p =>
          match p.1.scale (-x) with
          | .num neg a b =>
            if a = 0 then (f.encode neg 0 0, Flags.none)
            else
              let u := f.ulp a b
              let q := roundAt rnd p.2 a b u false
              if magLe q u f.maxM f.maxE then (f.encode neg q u, Flags.none)
              else (f.encode neg f.maxM f.maxE, { sat := true, of := decide (127 < x0) })
          | _ => (0, Flags.none))
        ((x + 127).toNat, out.map Prod.fst, Flags.all (out.map Prod.snd))
    | _ => (0, vs.map (fun _ => 0), Flags.none)

/-- The packed bytes of a row of element codes (spec/05 R97). -/
def packRow (fmt : Nat) (codes : List Nat) : List Byte :=
  match elemBits fmt with
  | 4 => (List.range ((codes.length + 1) / 2)).map (fun j => BitVec.ofNat 8 (codes.getD (2 * j) 0 + 16 * codes.getD (2 * j + 1) 0))
  | 6 => ((List.range (codes.length / 4)).map (fun j =>
      leBytes 3 (codes.getD (4 * j) 0 + 64 * codes.getD (4 * j + 1) 0 + 4096 * codes.getD (4 * j + 2) 0
        + 262144 * codes.getD (4 * j + 3) 0))).flatten
  | w => (codes.map (leBytes (w / 8))).flatten

/-- One row of values converted for a tensor: data bytes, block scales, flags. `i` is the linear index of its first element, `se` the
exponent of the record's scale. -/
def convRow (t : Tens) (seed : Nat) (rnd : Nat) (se : Int) (i : Nat) (vs : List Val) : List Byte × List Byte × Flags :=
  let draw := fun k => if rnd = 1 then srBits seed (i + k) else 0
  if isMx t.fmt then
    let blocks := (List.range (vs.length / 32)).map (fun b =>
      mxBlock t.fmt rnd ((List.range 32).map (fun k => draw (32 * b + k))) ((vs.drop (32 * b)).take 32))
    (packRow t.fmt (blocks.map (fun x => x.2.1)).flatten, blocks.map (fun x => BitVec.ofNat 8 x.1),
      Flags.all (blocks.map (fun x => x.2.2)))
  else
    let out := (vs.zip (List.range vs.length)).map (fun p => convElem t.fmt rnd (draw p.2) t.sat (p.1.scale (-se)))
    (packRow t.fmt (out.map Prod.fst), [], Flags.all (out.map Prod.snd))

/-- Write a tensor that is not GB16 from its values in linear order, `none` for an element that keeps what it has (spec/07 R165;
never in part of an MX block): the state, the flags. The scale record is read at the start, measured when its history is empty
(spec/05 R120), and updated at the end (R119). Elements that are not written keep their bytes. `rnd0` and `sat` are the rounding and saturation
of the conversion. -/
def State.writeAs (s : State) (n rnd0 : Nat) (sat : Bool) (t sc : Tens) (vs : List (Option Val)) : State × Flags :=
  let t0 := { t with sat := sat }
  let vals := vs.filterMap id
  let amax := amaxOf vals
  let r0 := s.srecOf n t
  let useScale := t.srecEn && isScaled t.fmt
  let measure := useScale && r0.count = 0 && decide (r0.policy / 4 % 2 = 0)
  let zero := decide (amaxBits amax = 0)
  let r1 := if measure then { r0 with scale := if zero then 127 * 2 ^ 23 else deriveScale (histVal (amaxBits amax)) t.fmt (r0.policy / 16) } else r0
  let se := if useScale then scaleExp r1.scale else 0
  let rnd := if rnd0 = 1 && !t.srecEn then 0 else rnd0
  let rowOf := fun r => (vs.drop (r * t.n0)).take t.n0
  let res := (List.range t.rows).foldl (fun (p : State × Flags) r =>
    let row := rowOf r
    let filled := row.map (fun v => v.getD .zero)
    let (bytes, scales, f) := convRow t0 r0.seed rnd se (r * t.n0) filled
    let old := p.1.lbytes n t.space (t.rowAddr r) t.rowBytes
    let eb := elemBits t.fmt
    let keep := fun j => ((row.getD (8 * j / eb) (some .zero)).isNone)
    let merged := (bytes.zip (List.range bytes.length)).map (fun q => if keep q.2 then old.getD q.2 0 else q.1)
    let st := p.1.lstore n t.space (t.rowAddr r) merged
    let st2 := if isMx t.fmt then
        let oldS := st.lbytes n sc.space (sc.rowAddr r) (t.n0 / 32)
        st.lstore n sc.space (sc.rowAddr r)
          ((scales.zip (List.range scales.length)).map (fun q => if (row.getD (32 * q.2) (some .zero)).isNone then oldS.getD q.2 0 else q.1))
      else st
    (st2, p.2.or f)) (s, Flags.none)
  if t.srecEn then
    let r2 := if useScale then { r1 with fmt := t.fmt } else r1
    (res.1.setSrec n t (r2.update amax (t.rnd = 1)), res.2)
  else res

/-- Write a tensor with the rounding and saturation of its descriptor. -/
def State.writeTens (s : State) (n : Nat) (t sc : Tens) (vs : List (Option Val)) : State × Flags := s.writeAs n t.rnd t.sat t sc vs

/-- Write the results of lanes, FP32 or INT32 as `int` says: into a td of the lane's own format no second conversion takes place (spec/05
R114). -/
def State.writeLane (s : State) (n : Nat) (int : Bool) (t sc : Tens) (vs : List (Option Val)) : State × Flags :=
  if t.fmt = (if int then 0x0B else 0) then s.writeAs n 0 false t sc vs else s.writeTens n t sc vs

/-- A state in which every byte of a tensor is undefined (spec/07 R163, spec/08 R189). -/
def State.undefTens (s : State) (n : Nat) (t : Tens) : State :=
  (List.range t.rows).foldl (fun st r =>
    let a := t.rowAddr r
    let len := Nat.min t.rowBytes (spaceSize t.space - a)
    if a < spaceSize t.space ∧ 0 < len then st.lundef n t.space a len else st) s

end Sys2Proof.Machine
end

