-- ==== Sys2Proof/Machine/Units.lean ====
section
/-! DEFINITION. Unit commands (spec/04 R68, R69, R77, R79): capture of operands at issue, the order of the checks of Table 04-16,
the queues of a core's units, and the completion of a command. -/

namespace Sys2Proof.Machine

/-! ## The operands of a command -/

/-- The fields of a captured command's descriptors. -/
abbrev UCmd.tD (x : UCmd) : Tens := Tens.of x.td
abbrev UCmd.tA (x : UCmd) : Tens := Tens.of x.ta
abbrev UCmd.tB (x : UCmd) : Tens := Tens.of x.tb
abbrev UCmd.tC (x : UCmd) : Tens := Tens.of x.tc
abbrev UCmd.tSd (x : UCmd) : Tens := Tens.of x.sd
abbrev UCmd.tSa (x : UCmd) : Tens := Tens.of x.sa
abbrev UCmd.tSb (x : UCmd) : Tens := Tens.of x.sb
abbrev UCmd.tSc (x : UCmd) : Tens := Tens.of x.sc

/-- Whether an instruction of an operation uses td, ta, tb and tc (spec/04 Tables 04-11 to 04-14, R87-R90, R93). -/
def UCmd.uses (x : UCmd) : Bool × Bool × Bool × Bool :=
  match x.op with
  | .cmm | .chb => (false, true, true, false)
  | .cbwd => (false, true, true, !x.ctl.getLsbD 3)
  | .cdrn | .spop | .rdrecv => (true, false, false, false)
  | .czero | .spskip | .ckvote => (false, false, false, false)
  | .spush | .vamax | .ckdig | .rdsub => (false, true, false, false)
  | .gnrm => (true, true, !x.ctl.getLsbD 3, false)
  | .gnrmb => (true, true, !x.ctl.getLsbD 3, true)
  | .gsmxb => (true, true, false, true)
  | .smv | .vadd | .vsub | .vmul | .vmax | .vmin | .vgba | .viadd | .vimul | .vicmp => (true, true, true, false)
  | .vfma | .vopt => (true, true, true, true)
  | _ => (true, true, false, false)

/-- The operands that a command uses, each with its scale descriptor and whether the command writes it. -/
def UCmd.operands (x : UCmd) : List (Tens × Tens × Bool) :=
  let u := x.uses
  (if u.1 then [(x.tD, x.tSd, true)] else []) ++ (if u.2.1 then [(x.tA, x.tSa, decide (x.op = .vopt))] else [])
    ++ (if u.2.2.1 then [(x.tB, x.tSb, false)] else []) ++ (if u.2.2.2 then [(x.tC, x.tSc, decide (x.op = .vopt))] else [])

/-- The scale records that a command uses, as their offsets, and whether it updates them: those of the tensors it writes, and VAMAX the one of ta
(spec/05 R118). Snowpack commands and CKDIG move bytes without reading their values and use none (R109). -/
def UCmd.records (x : UCmd) (s : State) (n : Nat) : List (Nat × Bool) :=
  if x.op = .spush ∨ x.op = .spop ∨ x.op = .ckdig then []
  else (x.operands.filter (fun o => o.1.srecEn)).map (fun o => (s.srecAt n o.1, o.2.2 || decide (x.op = .vamax)))

/-- The data address of a fault at issue (spec/04 R94), or the pc where there is none: of a misaligned offset or record the offset, of an operand
that leaves its space the operand's base (log 15). -/
def UCmd.faultAddr (x : UCmd) (code pc : Nat) : Nat :=
  let off := fieldOf x.ext 0 26
  if code = E.ALIGN ∨ code = E.OPT_REC then off
  else if code = E.ADDR_UNMAPPED then
    match x.operands.find? (fun o => o.1.outside o.1.rowBytes || (isMx o.1.fmt && o.2.1.outside (o.1.n0 / 32))) with
    | some o => if o.1.outside o.1.rowBytes then o.1.base else o.2.1.base
    | none => off
  else pc

/-- A unit of a core. -/
def Core.eng (c : Core) : UnitId → Eng
  | .a0 => c.a0 | .a1 => c.a1 | .schuss => c.schuss | .groomer => c.groomer | .vector => c.vector | .snow => c.snowU
  | .stream => {} | .digest => c.digest

/-! ## Scale records used without order (spec/05 R121) -/

/-- The commands in flight in a core with their units, the running ones first; RED counts as one unit. -/
def State.inFlight (s : State) (n : Nat) : List (UnitId × UCmd) :=
  let c := s.core n
  ([UnitId.a0, .a1, .schuss, .groomer, .vector, .snow, .digest].flatMap (fun u => ((c.eng u).run.toList ++ (c.eng u).queue).map (fun y => (u, y))))
    ++ (s.red.cmds.filter (fun r => r.core = n)).map (fun r => (UnitId.stream, r.cmd))

/-- The records that a command shares with another one in flight that R121 does not order against it, and that one of the two updates: the two
are not of one context and one unit, nor of one Slalom command (spec/08 R190), and neither had completed when the other was issued. -/
def State.clashes (s : State) (n : Nat) (u : UnitId) (x : UCmd) : List Nat :=
  let mine := x.records s n
  if mine.isEmpty then []
  else
    let other := (s.inFlight n).filter (fun p => p.2 ≠ x && !(x.chain.isSome && p.2.chain = x.chain) && !(p.1 = u && decide (p.2.ctx = x.ctx ∧ p.2.inc = x.inc)))
    let theirs := other.flatMap (fun p => p.2.records s n)
    (mine.filter (fun r => theirs.any (fun q => decide (q.1 = r.1) && (q.2 || r.2)))).map Prod.fst

/-! ## Ranges that end undefined (spec/08 R169, spec/05 R121) -/

/-- A command that ends with a range of SRAM undefined. -/
def UCmd.spoiling (x : UCmd) (a len : Nat) : UCmd := { x with spoils := (a, len) :: x.spoils }

/-- A state in which the ranges that a command leaves undefined are. -/
def UCmd.spoil (x : UCmd) (n : Nat) (s : State) : State := x.spoils.foldl (fun st p => st.lundef n 1 p.1 p.2) s

/-- A unit with its commands replaced, and a core. -/
def Eng.map (f : UCmd → UCmd) (e : Eng) : Eng := { run := e.run.map f, queue := e.queue.map f }
def Core.mapCmds (f : UCmd → UCmd) (c : Core) : Core :=
  { c with
    a0 := c.a0.map f, a1 := c.a1.map f, schuss := c.schuss.map f, groomer := c.groomer.map f, vector := c.vector.map f
    snowU := c.snowU.map f, digest := c.digest.map f }

/-- A core and RED with every command in flight replaced: those in the queues of units, gates, RDSUB and RDRECV. -/
def State.mapFlying (s : State) (n : Nat) (f : UCmd → UCmd) : State :=
  let c := s.core n
  let t := s.setCore n { c.mapCmds f with
    chains := c.chains.map (fun ch => { ch with gates := ch.gates.map (fun g => if g.ring.isNone then { g with cmd := f g.cmd } else g) }) }
  { t with red := { t.red with cmds := t.red.cmds.map (fun r => if r.core = n then { r with cmd := f r.cmd } else r) } }

/-- The ranges of SRAM that become undefined with records: the records and the rows of the tensors that a command writes with them. -/
def UCmd.racedRanges (x : UCmd) (s : State) (n : Nat) (recs : List Nat) : List (Nat × Nat) :=
  recs.map (fun a => (a, 64)) ++ (x.operands.filter (fun o => o.2.2 && o.1.srecEn && recs.contains (s.srecAt n o.1))).flatMap (fun o =>
    (List.range o.1.rows).map (fun r => (o.1.rowAddr r, o.1.rowBytes)))

/-- A state in which the records named, and the tensors that a command wrote with them, are undefined, and so will be those that the other commands
in flight that use the records write with them. -/
def State.raced (s : State) (n : Nat) (x : UCmd) (recs : List Nat) : State :=
  if recs.isEmpty then s
  else
    let s1 := s.mapFlying n (fun y =>
      if y ≠ x ∧ (y.records s n).any (fun r => recs.contains r.1) then { y with spoils := y.racedRanges s n recs ++ y.spoils } else y)
    (x.racedRanges s n recs).foldl (fun st p => st.lundef n 1 p.1 p.2) s1

/-! ## Chairs released early (spec/08 R169) -/

/-- Whether a command reads or writes a range of SRAM: operands, block scales, scale records, the digest of CKDIG, and of VOPT the hyperparameter
record and the second moment. -/
def UCmd.reaches (s : State) (n : Nat) (x : UCmd) (a len : Nat) : Bool :=
  let meets := fun (b k : Nat) => decide (0 < k ∧ b < a + len ∧ a < b + k)
  let hits := fun (t : Tens) => t.space = 1 && (List.range t.rows).any (fun r => meets (t.rowAddr r) t.rowBytes)
  let off := fieldOf x.ext 0 26
  x.operands.any (fun o => hits o.1 || (isMx o.1.fmt && hits { o.2.1 with fmt := 9 }))
    || (x.records s n).any (fun r => meets r.1 64)
    || ((x.op = .ckdig || x.op = .vopt) && meets off 64)
    || (x.op = .vopt && hits { x.tC with base := x.tC.base + leNat (s.lbytes n 1 (off + 32) 4) / 4 * 4 })

/-! ## Queues -/

/-- A core with one unit replaced; the stream engine has queues of its own. -/
def Core.setEng (c : Core) (u : UnitId) (e : Eng) : Core :=
  match u with
  | .a0 => { c with a0 := e } | .a1 => { c with a1 := e } | .schuss => { c with schuss := e }
  | .groomer => { c with groomer := e } | .vector => { c with vector := e } | .snow => { c with snowU := e }
  | .stream => c | .digest => { c with digest := e }

/-- Whether a unit takes another command: up to 8 wait behind the one it executes (spec/03 Table 03-3, R43). The stream engine's
queue also holds 8 (spec/08 R172). -/
def Core.room (c : Core) (u : UnitId) : Bool :=
  match u with
  | .stream => decide (c.sq.length < 8)
  | _ => (c.eng u).run.isNone || decide ((c.eng u).queue.length < 8)

/-- Put a command in a unit's queue; an idle unit takes it. -/
def Eng.push (e : Eng) (x : UCmd) : Eng :=
  match e.run with
  | none => { e with run := some x }
  | some _ => { e with queue := e.queue ++ [x] }

/-- The command a unit executes is done; the next one starts. -/
def Eng.pop (e : Eng) : Eng := { run := e.queue.head?, queue := e.queue.drop 1 }

/-- The array of a Carve command; whether it is frozen, and whether it runs in Herringbone mode (spec/06 R140, R143). -/
def UCmd.arr (x : UCmd) : Nat := fieldOf x.ctl 0 1
def UCmd.frz (x : UCmd) : Bool := x.ctl.getLsbD 3
def UCmd.heron (x : UCmd) : Bool := x.op = .chb || (x.op = .cbwd && !x.frz)

/-- A state with a command put in a unit's queue. Herringbone commands take H0 and H1 of their array in turn, in the order of the queue; a CBWD
with frz = 1 uses neither (spec/06 R140, log 186). -/
def State.push (s : State) (n : Nat) (u : UnitId) (x : UCmd) : State :=
  let c := s.core n
  if x.heron then
    s.setCore n { c.setEng u ((c.eng u).push { x with useH1 := c.turns.getLsbD x.arr }) with turns := c.turns ^^^ (1 <<< x.arr) }
  else s.setCore n (c.setEng u ((c.eng u).push x))

/-- Contexts that wait for room in a unit's queue, and all the queues they wait for have room, become READY (spec/03 Table 03-3). -/
def State.wakeRoom (s : State) (n : Nat) : State :=
  s.wakeAll n (fun w => match w with | .queue us => us.all (fun u => (s.core n).room u) | _ => false)

/-- A state in which a unit has finished its command and starts the next one. -/
def State.pop (s : State) (n : Nat) (u : UnitId) : State :=
  (s.setCore n ((s.core n).setEng u ((s.core n).eng u).pop)).wakeRoom n

/-- A command is done: its sticky flags, its place in the queue, then its completion predicate (spec/04 R77, spec/05 R109). -/
def State.finish (s : State) (n : Nat) (u : UnitId) (x : UCmd) (f : Flags) : State :=
  ((s.setFlags n x.ctx x.inc f).pop n u).complete n x.ctx x.inc x.pd

/-- The command a unit executes reports its end: `run` is its effect. A gate of a Slalom command ends with its chain instead, and a
stopped core's units do nothing. A command whose effect is in place (spec/06 R139) only ends. -/
def unitDone (n : Nat) (u : UnitId) (run : State → Nat → UCmd → State × Flags) (s : State) : State :=
  if s.stoppedAt n then s
  else
    match ((s.core n).eng u).run with
    | none => s
    | some x =>
      if x.chain.isSome then s
      else
        match x.ran with
        | some f => (x.spoil n s).finish n u x ⟨f.1, f.2.1, f.2.2.1, f.2.2.2⟩
        | none =>
          let r := run (x.spoil n s) n x
          ((x.spoil n r.1).raced n x (r.1.clashes n u x)).finish n u x r.2

/-! ## Capture and checks -/

/-- A descriptor operand of a command: the register that holds it, its fields and the fields of the scale descriptor that its tsc
names; `trOk` for a weight operand of a Carve or Schuss command. -/
structure Opnd where
  reg : Nat
  t : Tens
  sc : Tens
  trOk : Bool := false

/-- The operands of a captured command. -/
def UCmd.opD (x : UCmd) (i : IT) : Opnd := ⟨i.td.toNat, Tens.of x.td, Tens.of x.sd, false⟩
def UCmd.opA (x : UCmd) (i : IT) : Opnd := ⟨i.ta.toNat, Tens.of x.ta, Tens.of x.sa, false⟩
def UCmd.opB (x : UCmd) (i : IT) (trOk : Bool) : Opnd := ⟨i.tb.toNat, Tens.of x.tb, Tens.of x.sb, trOk⟩
def UCmd.opC (x : UCmd) (i : IT) : Opnd := ⟨i.tc.toNat, Tens.of x.tc, Tens.of x.sc, false⟩

/-- The command that a format T instruction issues, with every operand captured (spec/04 R68). -/
def capture (op : UOp) (i : IT) (x : Ctx) : UCmd :=
  let scaleOf := fun (r : BitVec 4) => x.tr (fieldOf (x.tr r.toNat) 236 4)
  { op := op, ctx := i.k, inc := x.inc, pd := i.pd.toNat,
    td := x.tr i.td.toNat, ta := x.tr i.ta.toNat, tb := x.tr i.tb.toNat, tc := x.tr i.tc.toNat,
    sd := scaleOf i.td, sa := scaleOf i.ta, sb := scaleOf i.tb, sc := scaleOf i.tc,
    xa := x.sr (fieldOf i.ctl 0 5), xb := x.sr (fieldOf i.ctl 5 5), ctl := i.ctl, ext := if i.x then i.ext else 0 }

/-- What the checks of Table 04-16 that depend on the instruction find, in the table's order after E_DESC_INVALID and E_SPACE. -/
structure Checks where
  format : Bool := false
  shape : Bool := false
  align : Bool := false
  acc : Bool := false
  unmapped : Bool := false
  late : Option Nat := none

/-- The code with which a command faults at issue, if any (spec/04 R69, R94): every operand in space 1. For CKDIG, RDSUB and RDRECV the manual names
no space, and E_SPACE for the others is a DESIGN CHOICE (log 15). -/
def firstFault (s : State) (n : Nat) (ops : List Opnd) (c : Checks) : Option Nat :=
  if !ops.all (fun o => descOk s n o.reg o.t o.sc o.trOk) then some E.DESC_INVALID
  else if !ops.all (fun o => o.t.space = 1) then some E.SPACE
  else if c.format then some E.FORMAT
  else if c.shape then some E.SHAPE
  else if c.align then some E.ALIGN
  else if c.acc then some E.ACC_RANGE
  else if c.unmapped || ops.any (fun o => o.t.outside o.t.rowBytes || (isMx o.t.fmt && o.sc.outside (o.t.n0 / 32))) then
    some E.ADDR_UNMAPPED
  else c.late

/-- The reserved fields of a format T word (spec/04 R70): descriptor registers not used, control bits outside `cm`, and the extension
word: `xReq` when it is required, none allowed unless `xOpt`; extension bits outside `em` are zero. -/
def legalT (i : IT) (ud ua ub uc : Bool) (cm : BitVec 24) (xReq xOpt : Bool) (em : W64) : Bool :=
  (ud || i.td = 0) && (ua || i.ta = 0) && (ub || i.tb = 0) && (uc || i.tc = 0) && decide (i.ctl &&& ~~~cm = 0)
    && (if i.x then (xReq || xOpt) && decide (i.ext &&& ~~~em = 0) else !xReq)

/-- The descriptor registers that an instruction names, with those that hold the block scales of its MX operands. -/
def heldDescs (i : IT) (s : State) (ud ua ub uc : Bool) : List Nat :=
  let x := s.ctx i.n i.k
  let one := fun (u : Bool) (r : BitVec 4) =>
    if u then
      let d := x.tr r.toNat
      if isMx (fieldOf d 224 6) then [r.toNat, fieldOf d 236 4] else [r.toNat]
    else []
  one ud i.td ++ one ua i.ta ++ one ub i.tb ++ one uc i.tc

/-- Issue of a command of format T to the units `us`: `legal` its E_ILLEGAL check, `check` the code it faults with; a full queue
makes the context wait and the instruction issues again; else pd is written 0 and the command is queued (spec/04 R77). `put` is what
issue does beyond queueing. -/
def issueUnits (us : UCmd → List UnitId) (op : UOp) (i : IT) (legal ud ua ub uc : Bool) (rs : List Nat)
    (check : State → UCmd → Option Nat) (put : State → UCmd → State) (s : State) : State :=
  issue i.n i.k i.pg i.pn i.len legal rs (heldDescs i s ud ua ub uc) s fun s =>
    let x := s.ctx i.n i.k
    let cmd := capture op i x
    if !(us cmd).all (fun u => (s.core i.n).room u) then s.makeWait i.n i.k (.queue (us cmd))
    else
      match check s cmd with
      | some code => s.faultCtx i.n i.k code (cmd.faultAddr code x.pc)
      | none =>
        let s1 := s.setCtx i.n i.k ((x.setPr cmd.pd false).adv i.len)
        put ((us cmd).foldl (fun st u => st.push i.n u cmd) s1) cmd

/-- Nothing beyond queueing. -/
def noPut (s : State) (_ : UCmd) : State := s

/-- Issue of a command to one unit. -/
def issueUnit (u : UnitId) (op : UOp) (i : IT) (legal ud ua ub uc : Bool) (rs : List Nat)
    (check : State → UCmd → Option Nat) (put : State → UCmd → State) (s : State) : State :=
  issueUnits (fun _ => [u]) op i legal ud ua ub uc rs check put s

/-- Whether two lists of ranges have a common point. -/
def overlap (a b : List (Nat × Nat)) : Bool := a.any (fun p => b.any (fun q => decide (p.1 < q.2 ∧ q.1 < p.2)))

/-- The ranges of the rows of a tensor. -/
def Tens.ranges (t : Tens) : List (Nat × Nat) := (List.range t.rows).map (fun r => (t.rowAddr r, t.rowAddr r + t.rowBytes))

end Sys2Proof.Machine
end

