-- ==== Sys2Proof/Machine/Snow.lean ====
section
/-! DEFINITION. The Snowpack (spec/04 R90, spec/09 R196-R200): the checks at issue, the records, the top with its spill and refill,
and its commands. -/

namespace Sys2Proof.Machine

/-! ## Configuration (spec/09 R196) -/

/-- Whether the values meet their constraints (Table 09-2). -/
def SnowCfg.ok (c : SnowCfg) (edge : Nat) : Bool :=
  decide (65536 ≤ c.ts ∧ c.ts ≤ 0x2000000 ∧ c.tb + c.ts ≤ 0x3000000 ∧ c.bs ≤ 0x1000000000 ∧ c.bb + c.bs ≤ edge)

/-- The bytes of stack that a record takes (spec/09 R197). -/
def snowPad (b : Nat) : Nat := 64 + 64 * ceilDiv b 64

/-! ## Issue (spec/04 R90, spec/09 R199) -/

/-- The code of a push of `b` bytes at issue. -/
def snowPushFault (s : State) (n b : Nat) : Option Nat :=
  let c := s.snowCfg n
  if c.ok s.edgeSize && decide ((s.snow n).qdepth + snowPad b ≤ c.bs) then none else some E.SNOW_FULL

/-- The code of a pop at issue; `b` is the size it must have, none for SPSKIP. -/
def snowPopFault (s : State) (n : Nat) (b : Option Nat) : Option Nat :=
  match (s.snow n).sizes with
  | [] => some E.SNOW_EMPTY
  | h :: _ => if b = none ∨ b = some h then none else some E.SNOW_SIZE

/-- A push takes its place in the stack at issue. -/
def snowQueuePush (s : State) (n b : Nat) : State :=
  let w := s.snow n
  s.setSnow n { w with qdepth := w.qdepth + snowPad b, sizes := b :: w.sizes, known := Nat.min (w.known + 1) 1024 }

/-- A pop takes its place. -/
def snowQueuePop (s : State) (n : Nat) : State :=
  let w := s.snow n
  s.setSnow n { w with qdepth := w.qdepth - snowPad (w.sizes.headD 0), sizes := w.sizes.drop 1, known := w.known - 1 }

/-- A pop is held when its record lies deeper than the directory (spec/09 R199). -/
def State.snowHeld (s : State) (n : Nat) : Bool := (s.snow n).known = 0 && !(s.snow n).sizes.isEmpty

/-- A held pop starts the read of the record's header. -/
def snowAskDir (n : Nat) (s : State) : State := s.setSnow n { s.snow n with dirWait := true }

/-! ## Records -/

/-- A record is large when it exceeds half the top (spec/09 R198). -/
def snowLarge (c : SnowCfg) (b : Nat) : Bool := decide (c.ts < 2 * snowPad b)

/-- Whether a push of `b` bytes can be made now: it fits in the free part of the top, or the top is empty for a large one and its writes can leave. -/
def snowFits (s : State) (n b : Nat) : Bool :=
  let c := s.snowCfg n
  let u := (s.snow n).top.length
  if snowLarge c b then u = 0 && s.clear (c.bb + (s.snow n).depth) (snowPad b) && s.fabOpen n (c.bb + (s.snow n).depth) 2 else decide (u + snowPad b ≤ c.ts)

/-- Whether a pop of the top record can be made now: all of it is in the top, or the read of what lies below can leave. -/
def snowPopOpen (s : State) (n : Nat) : Bool :=
  let w := s.snow n
  let rb := snowPad (w.recs.headD 0)
  decide (rb ≤ w.top.length) || s.fabOpen n ((s.snowCfg n).bb + (w.depth - rb)) 0

/-- Whether something else has written to the range of the top since the first record made it undefined for other uses. -/
def snowSpoilt (s : State) (n : Nat) : Bool :=
  let a := localAddr n 1 (s.snowCfg n).tb
  decide (0 < (s.snow n).depth) && s.mem.cells.any (fun c => decide (a ≤ c.1 ∧ c.1 < a + (s.snowCfg n).ts))

/-- An overlap leaves the bytes of the top and what was written there undefined (R196). -/
def snowChecked (n : Nat) (s : State) : State :=
  if snowSpoilt s n then
    let c := s.snowCfg n
    let w := s.snow n
    (s.lundef n 1 c.tb c.ts).setSnow n { w with top := (List.range w.top.length).map (fun j => Config.freeByte s.free j) }
  else s

/-- The Snowpack after its occupancy has changed: a spill begins above three quarters of the top and ends at half of it, a refill begins below a
quarter and ends at half or with nothing below. -/
def Snow.moved (c : SnowCfg) (w : Snow) : Snow :=
  let u := w.top.length
  { w with
    spilling := (w.spilling || decide (3 * c.ts < 4 * u)) && decide (c.ts < 2 * u)
    refilling := (w.refilling || decide (4 * u < c.ts)) && decide (2 * u < c.ts ∧ u < w.depth) }

/-- Push a record of a kind for a context: header, data, padding of free bytes. The first record makes the range of the top
undefined for other uses. -/
def snowPush (s : State) (n k kind : Nat) (data : List Byte) : State :=
  let s := snowChecked n s
  let c := s.snowCfg n
  let w := s.snow n
  let b := data.length
  let hdr := leBytes 4 b ++ leBytes 1 kind ++ leBytes 1 k ++ leBytes 2 0 ++ leBytes 8 w.seq ++ List.replicate 48 0
  let pad := (List.range (snowPad b - 64 - b)).map (fun j => Config.freeByte s.free j)
  let bytes := hdr ++ data ++ pad
  let s1 := (if w.depth = 0 then s.lundef n 1 c.tb c.ts else s).tick
  let w1 := { w with depth := w.depth + snowPad b, seq := (w.seq + 1) % 2 ^ 64, recs := b :: w.recs }
  if snowLarge c b then
    ((s1.storeEdge (some n) (c.bb + w.depth) bytes).carry n (c.bb + w.depth) bytes.length 0).setSnow n (w1.moved c)
  else s1.setSnow n ({ w1 with top := w.top ++ bytes }.moved c)

/-- Pop the top record: its data, from the top and, for the part that lies below, from its home. -/
def snowPop (s : State) (n : Nat) : State × List Byte :=
  let s := snowChecked n s
  let c := s.snowCfg n
  let w := s.snow n
  let b := w.recs.headD 0
  let rb := snowPad b
  let u := w.top.length
  let below := rb - u
  let bytes := s.mem.bytes (c.bb + (w.depth - rb)) below ++ w.top.drop (u - rb)
  let top := w.top.take (u - rb)
  let d := w.depth - rb
  ((if below = 0 then s else s.carry n (c.bb + (w.depth - rb)) 0 below).setSnow n
      ({ w with depth := d, top := top, recs := w.recs.drop 1 }.moved c), (bytes.drop 64).take b)

/-! ## Statistics that spill (spec/07 R156, R157) -/

/-- Whether a Groomer command writes or reads statistics records. -/
def UCmd.stats (x : UCmd) : Bool :=
  match x.op with | .gnrm | .gsmx => !x.ctl.getLsbD 4 | .gnrmb => true | _ => false

/-- The index of the first record, and how many of a Groomer command's records lie beyond the side memory. -/
def UCmd.recBase (x : UCmd) : Nat := fieldOf x.ext 0 17
def UCmd.spillRows (x : UCmd) : Nat := if x.stats then x.tA.rows - (131072 - x.recBase) else 0

/-- The data size that the push at the head of the Snowpack queue needs, if it is a push. -/
def UCmd.pushSize (x : UCmd) : Option Nat :=
  match x.op with
  | .spush => some x.tA.bytes
  | .gnrm | .gsmx => some (8 * x.spillRows)
  | _ => none

/-! ## Spill and refill (spec/09 R198) -/

/-- Whether the push at the head of the queue waits for the top, and the occupancy it waits for. -/
def snowWaits (s : State) (n : Nat) : Option Nat :=
  match (s.core n).snowU.run with
  | none => none
  | some x =>
    match x.pushSize with
    | none => none
    | some b => if snowFits s n b then none else some (if snowLarge (s.snowCfg n) b then 0 else (s.snowCfg n).ts / 2)

/-- The occupancy down to which a spill runs. -/
def snowTarget (s : State) (n : Nat) : Nat := (snowWaits s n).getD ((s.snowCfg n).ts / 2)

/-- Whether a spill has data to move, and a refill: none begins while a push waits. -/
def snowSpills (s : State) (n : Nat) : Bool :=
  ((s.snow n).spilling || (snowWaits s n).isSome) && decide (snowTarget s n < (s.snow n).top.length)
def snowRefills (s : State) (n : Nat) : Bool :=
  let w := s.snow n
  (snowWaits s n).isNone && (w.moved (s.snowCfg n)).refilling

/-- One spill unit is acknowledged: the lowest bytes of the top, up to a 4 KiB boundary of the stack, are at their home. Data to move kicks the
site (spec/16 R367). -/
def snowSpillAck (n : Nat) (s : State) : State :=
  if !snowSpills s n then s
  else
    let s := snowChecked n (s.kick n)
    let c := s.snowCfg n
    let w := s.snow n
    let low := w.depth - w.top.length
    let len := Nat.min ((low / 4096 + 1) * 4096) w.depth - low
    if !s.clear (c.bb + low) len then s.ask (c.bb + low) len
    else if !s.fabOpen n (c.bb + low) 2 then s
    else
      let s1 := (s.storeEdge (some n) (c.bb + low) (w.top.take len)).bump (F.CORE_SNOW_SPILL_CNT n)
      (s1.carry n (c.bb + low) len 0).setSnow n ({ w with top := w.top.drop len, spilling := true }.moved c)

/-- One refill unit returns: the highest bytes below the top, from a 4 KiB boundary of the stack. -/
def snowRefill (n : Nat) (s : State) : State :=
  if !snowRefills s n then s
  else
    let s := snowChecked n (s.kick n)
    let c := s.snowCfg n
    let w := s.snow n
    let low := w.depth - w.top.length
    let from4 := (low - 1) / 4096 * 4096
    if !s.fabOpen n (c.bb + from4) 0 then s
    else
    let top := s.mem.bytes (c.bb + from4) (low - from4) ++ w.top
    ((s.carry n (c.bb + from4) 0 (low - from4)).setSnow n ({ w with top := top }.moved c)).bump (F.CORE_SNOW_REFILL_CNT n)

/-- SNOWPACK_SPILL_ACK. -/
def execSnowpackSpillAck (core : BitVec 10) (s : State) : Host.Outcome State Fault Refusal :=
  go (s.unlessStopped core.toNat (snowSpillAck core.toNat))

/-- SNOWPACK_REFILL_DATA. -/
def execSnowpackRefillData (core : BitVec 10) (s : State) : Host.Outcome State Fault Refusal :=
  go (s.unlessStopped core.toNat (snowRefill core.toNat))

/-- Where the header lies that the next directory refill reads: the home of the newest record whose size the directory does not hold. -/
def snowDirHome (s : State) (n : Nat) : Nat :=
  let w := s.snow n
  (s.snowCfg n).bb + (w.qdepth - ((w.sizes.take (w.known + 1)).map snowPad).sum)

/-- SNOWPACK_DIRECTORY_REFILL (spec/09 R199): the directory holds the size of one more record, of at most 1,024. -/
def snowDirRefill (n : Nat) (s : State) : State :=
  let w := s.snow n
  if w.dirWait then
    (s.carry n (snowDirHome s n) 0 64).setSnow n
      { w with dirWait := false, known := Nat.min (Nat.min (w.known + 1) w.sizes.length) 1024 }
  else s

/-- SNOWPACK_DIRECTORY_REFILL. -/
def execSnowpackDirectoryRefill (core : BitVec 10) (s : State) : Host.Outcome State Fault Refusal :=
  go (s.unlessStopped core.toNat (snowDirRefill core.toNat))

/-! ## Commands -/

/-- The effect of a Snowpack command that can be made now. -/
def snowRun (s : State) (n : Nat) (x : UCmd) : State × Flags :=
  match x.op with
  | .spush => (snowPush s n x.ctx 0 (s.packed n x.tA), Flags.none)
  | .spop =>
    let r := snowPop s n
    (r.1.unpack n x.tD r.2, Flags.none)
  | _ => ((snowPop s n).1, Flags.none)

/-- Whether the command at the head of the Snowpack queue is one of its own and can be made now; a statistics record ends with its
Groomer command. -/
def snowReady (s : State) (n : Nat) : Bool :=
  match (s.core n).snowU.run with
  | some x =>
    (match x.op with
      | .spush => snowFits s n x.tA.bytes
      | .spop | .spskip => snowPopOpen s n
      | _ => false)
  | none => false

/-- A large record whose home is marked waits for its pages (spec/14 R322). -/
def snowAsk (n : Nat) (s : State) : State :=
  match (s.core n).snowU.run with
  | some x =>
    match x.pushSize with
    | some b => if snowLarge (s.snowCfg n) b && (s.snow n).top.isEmpty then s.ask ((s.snowCfg n).bb + (s.snow n).depth) (snowPad b) else s
    | none => s
  | none => s

/-- SNOWPACK_COMMAND_DONE. -/
def execSnowpackCommandDone (core : BitVec 10) (s : State) : Host.Outcome State Fault Refusal :=
  go (s.unlessStopped core.toNat fun s =>
    if snowReady s core.toNat then unitDone core.toNat .snow snowRun s else snowAsk core.toNat s)

/-- SPUSH: E_SHAPE beyond 2^32 - 1 bytes. -/
def spushCheck (i : IT) (s : State) (x : UCmd) : Option Nat :=
  firstFault s i.n [x.opA i] { shape := decide (2 ^ 32 ≤ x.tA.bytes), late := snowPushFault s i.n x.tA.bytes }

/-- SPUSH. -/
def execSpush (i : IT) (s : State) : Host.Outcome State Fault Refusal :=
  go (issueUnit .snow .spush i (legalT i false true false false 0 false false 0) false true false false [] (spushCheck i)
    (fun s x => snowQueuePush s i.n x.tA.bytes) s)

/-- SPOP. -/
def spopCheck (i : IT) (s : State) (x : UCmd) : Option Nat :=
  firstFault s i.n [x.opD i] { late := snowPopFault s i.n (some x.tD.bytes) }

/-- Issue of a pop: held while its record is deeper than the directory. -/
def issuePop (op : UOp) (i : IT) (ud : Bool) (check : IT → State → UCmd → Option Nat) (s : State) : State :=
  let legal := legalT i ud false false false 0 false false 0
  if s.snowHeld i.n then issue i.n i.k i.pg i.pn i.len legal [] (heldDescs i s ud false false false) s (snowAskDir i.n)
  else issueUnit .snow op i legal ud false false false [] (check i) (fun s _ => snowQueuePop s i.n) s

/-- SPOP. -/
def execSpop (i : IT) (s : State) : Host.Outcome State Fault Refusal := go (issuePop .spop i true spopCheck s)

/-- SPSKIP. -/
def execSpskip (i : IT) (s : State) : Host.Outcome State Fault Refusal :=
  go (issuePop .spskip i false (fun i s _ => firstFault s i.n [] { late := snowPopFault s i.n none }) s)

end Sys2Proof.Machine
end

