-- ==== Sys2Proof/Machine/Gb16.lean ====
section
/-! DEFINITION. GB16 blocks (spec/05 R102, spec/13 R283-R289): layout, residues, conversion from FP32 and the checked adder. -/

namespace Sys2Proof.Machine

/-- A block: exponent, residue field, poison bit and index, hop count, elements (spec/13 Table 13-1). -/
structure GBlk where
  exp : Nat
  res : Nat
  psn : Bool
  pidx : Nat
  hop : Nat
  m : List Int
  deriving DecidableEq, Repr

/-- A block from its 68 bytes. -/
def GBlk.of (b : List Byte) : GBlk :=
  let h : W64 := BitVec.ofNat 64 (leNat (b.take 4))
  { exp := fieldOf h 0 8, res := fieldOf h 8 8, psn := h.getLsbD 16, pidx := fieldOf h 17 5, hop := fieldOf h 22 6,
    m := (List.range 32).map (fun i => signedOf 16 (leNat ((b.drop (4 + 2 * i)).take 2))) }

/-- The 16-bit pattern of an element. -/
def elem16 (x : Int) : Nat := (x % (65536 : Int)).toNat

/-- The 68 bytes of a block. -/
def GBlk.toBytes (g : GBlk) : List Byte :=
  leBytes 4 (g.exp + 2 ^ 8 * g.res + 2 ^ 16 * bit g.psn + 2 ^ 17 * g.pidx + 2 ^ 22 * g.hop)
    ++ (g.m.map (fun x => leBytes 2 (elem16 x))).flatten

/-- The residue of a list of integers, in 0-254 (spec/13 R284). -/
def residue (m : List Int) : Nat := ((m.foldl (· + ·) 0) % (255 : Int)).toNat

/-- The exact values of the elements (spec/05 R102). -/
def GBlk.vals (g : GBlk) : List Val := g.m.map (fun x => (Val.ofInt x).scale ((g.exp : Int) - 141))

/-- An integer as the nearest even of `x / 2^k` for k > 0, exactly `x · 2^(-k)` otherwise. -/
def shiftRne (x : Int) (k : Int) : Int :=
  if k ≤ 0 then x * 2 ^ (-k).toNat
  else
    let d : Int := 2 ^ k.toNat
    let q := x / d
    let r := x % d
    if 2 * r < d then q else if d < 2 * r then q + 1 else if q % (2 : Int) = 0 then q else q + 1

/-- The largest magnitude of a list of integers. -/
def maxMag (l : List Int) : Nat := l.foldl (fun a x => Nat.max a x.natAbs) 0

/-- The zero block. -/
def GBlk.zero (psn : Bool) (pidx hop : Nat) : GBlk :=
  { exp := 0, res := 0, psn := psn, pidx := pidx, hop := hop, m := List.replicate 32 0 }

/-- VGBQ of one group of 32 values (spec/13 R285). -/
def gbQuantise (xs : List Val) : GBlk :=
  let bad := fun (v : Val) => match v with | .num _ _ _ => false | _ => true
  let first := (xs.findIdx? bad)
  let ys := xs.map (fun v => if bad v then .zero else v)
  match amaxOf ys with
  | .num _ m e =>
    if m = 0 then GBlk.zero first.isSome (first.getD 0) 0
    else
      let e0 := ilog m e + 127
      let ex := if e0 < 0 then 0 else e0
      let conv := fun (ex : Int) => ys.map (fun v =>
        match v.scale (141 - ex) with
        | .num neg a b => signedMant neg (roundAt 0 0 a b 0 false)
        | _ => 0)
      let ms := conv ex
      let up := ms.any (fun x => x.natAbs = 32768)
      let out := if up then conv (ex + 1) else ms
      { exp := (if up then ex + 1 else ex).toNat, res := residue out, psn := first.isSome, pidx := first.getD 0, hop := 0, m := out }
  | _ => GBlk.zero first.isSome (first.getD 0) 0

/-- Renormalisation of the wide elements (spec/13 R287, R288): the exponent, the elements, and the lowest clamped index if the block
overflowed. -/
def gbRenorm (w : List Int) (ew : Nat) : Nat × List Int × Option Nat :=
  let mm := maxMag w
  if mm = 0 then (0, List.replicate 32 0, none)
  else
    let sg : Int := (Nat.log2 mm : Int) - 14
    let e : Int := (ew : Int) - 22 + sg
    let fix := fun (p : Int × Int) => if p.2 < 0 then (p.1 - p.2, (0 : Int)) else p
    let p1 := fix (sg, e)
    let ms1 := w.map (fun x => shiftRne x p1.1)
    let again := decide (0 < p1.1) && ms1.any (fun x => x.natAbs = 32768)
    let p2 := if again then fix (p1.1 + 1, p1.2 + 1) else p1
    let ms2 := if again then w.map (fun x => shiftRne x p2.1) else ms1
    if 255 < p2.2 then
      let sh := p2.1 - (p2.2 - 255)
      let ms := w.map (fun x => shiftRne x sh)
      let big := fun (x : Int) => decide (32767 < x.natAbs)
      (255, ms.map (fun x => if x > 32767 then 32767 else if x < -32767 then -32767 else x), some ((ms.findIdx? big).getD 0))
    else (p2.2.toNat, ms2, none)

/-- Alignment of an operand's elements at the wide exponent (spec/13 R286 step 2). -/
def gbAlign (m : List Int) (delta : Nat) : List Int := m.map (fun x => shiftRne x ((delta : Int) - 22))

/-- What an addition gives: the block, whether check C1 failed, and the lowest clamped index if this adder overflowed (spec/13 R288). -/
structure GSum where
  blk : GBlk
  bad : Bool
  ovf : Option Nat
  deriving DecidableEq, Repr

/-- The checked addition of an incoming block and a contribution (spec/13 R286-R289). The four residue checks hold of exact
arithmetic but for C1, which compares each operand with its own res field; a repeat reads the same bytes, so a failed C1 fails
again, and the block is written as R289 gives it. -/
def gbAdd (a b : GBlk) : GSum :=
  let hop := (a.hop + 1) % 64
  if residue a.m ≠ a.res % 255 ∨ residue b.m ≠ b.res % 255 then ⟨GBlk.zero true 0 hop, true, none⟩
  else
    let ew := Nat.max a.exp b.exp
    let w := ((gbAlign a.m (ew - a.exp)).zip (gbAlign b.m (ew - b.exp))).map (fun p => p.1 + p.2)
    let (e, ms, ov) := gbRenorm w ew
    let idx := (if a.psn then [a.pidx] else []) ++ (if b.psn then [b.pidx] else []) ++ ov.toList
    ⟨{ exp := e, res := residue ms, psn := !idx.isEmpty, pidx := idx.foldl Nat.min 31 * bit (!idx.isEmpty), hop := hop, m := ms },
      false, ov⟩

/-- The blocks of a GB16 tensor in linear order. -/
def State.gblks (s : State) (n : Nat) (t : Tens) : List GBlk := (s.readBlocks n t).map GBlk.of

/-- A state with the blocks of a GB16 tensor written in linear order. -/
def State.putBlks (s : State) (n : Nat) (t : Tens) (bs : List GBlk) : State :=
  let per := t.n0 / 32
  (List.range t.rows).foldl (fun st r =>
    st.lstore n t.space (t.rowAddr r) (((bs.drop (r * per)).take per).map GBlk.toBytes).flatten) s

/-- The number of the check with which an addition fails a second time, 0 when it passes (spec/13 R289). `upset` is what meets the adder (log
182): 0 nothing, 1 an error that the repeat does not meet, 2 to 4 one of C2 to C4 that the repeat meets again. -/
def failedCheck (upset : Nat) (g : GSum) : Nat := if g.bad then 1 else if 2 ≤ upset then upset else 0

/-- The block that a failed addition writes (spec/13 R289). -/
def failedBlk (a : GBlk) : GBlk := GBlk.zero true 0 ((a.hop + 1) % 64)

/-- What met the adder is past; a repeat that passed is counted (spec/13 R289). -/
def State.upsetDone (s : State) (passed : Bool) : State :=
  let t := { s with red := { s.red with upset := 0 } }
  if s.red.upset = 1 && passed then t.bump F.RED_RES_RETRY_CNT else t

/-- The scale record of a tensor written without a scale takes the amax of the exact values (spec/05 R117-R119); `advance` says that the
command counts as one that writes with rnd = 1. -/
def State.history (s : State) (n : Nat) (t : Tens) (vs : List Val) (advance : Bool) : State :=
  if t.srecEn then s.setSrec n t ((s.srecOf n t).update (amaxOf vs) advance) else s

end Sys2Proof.Machine
end

