-- ==== Sys2Proof/Machine/Vector.lean ====
section
/-! DEFINITION. The vector engine (spec/04 R89, spec/05 R114, spec/07 R159-R165): elementwise arithmetic and functions, conversion,
row sums, GB16 operations, INT32 operations and the optimizer kernels. -/

namespace Sys2Proof.Machine

/-! ## Loads and lane results -/

/-- The exact values of an operand, with nv for a NaN and psn for a poisoned block when `psn` counts (spec/05 Table 05-3). -/
def State.exactVals (s : State) (n : Nat) (t sc : Tens) (psn : Bool) : List Val × Flags :=
  if t.fmt = 0x0A then
    let bs := s.gblks n t
    ((bs.map GBlk.vals).flatten, { psn := psn && bs.any (·.psn) })
  else
    let vs := s.readTens n t sc
    (vs, readFlags vs)

/-- Values converted with flags. -/
def mapFlags (f : Val → Val × Flags) (p : List Val × Flags) : List Val × Flags :=
  let out := p.1.map f
  (out.map Prod.fst, p.2.or (Flags.all (out.map Prod.snd)))

/-- An operand as FP32 lanes (spec/05 R114). An INT32 value beyond 2^24 rounds to nearest even with no flag, and a scaled FP8 value beyond the
range of FP32 follows R104 with sat = 0: the rule names neither conversion, and both are a DESIGN CHOICE (log 14). -/
def State.loadF32 (s : State) (n : Nat) (t sc : Tens) (psn : Bool) : List Val × Flags := mapFlags toF32 (s.exactVals n t sc psn)

/-- An operand as INT32 lanes. A floating-point value is rounded to nearest even with the flags of R104: the rule names no rounding for
it, and this is a DESIGN CHOICE (log 14). -/
def State.loadInt (s : State) (n : Nat) (t sc : Tens) : List Int × Flags :=
  let p := s.exactVals n t sc false
  let out := p.1.map (fun v => convInt 32 0 0 v false)
  (out.map (fun o => signedOf 32 o.1), p.2.or (Flags.all (out.map Prod.snd)))

/-- Write values into td and add the flags. -/
def State.putVals (s : State) (n : Nat) (x : UCmd) (r : List Val × Flags) : State × Flags :=
  let w := s.writeTens n x.tD x.tSd (r.1.map some)
  (w.1, r.2.or w.2)

/-- Write lane results into td and add the flags (spec/05 R114). -/
def State.putLane (s : State) (n : Nat) (int : Bool) (x : UCmd) (r : List Val × Flags) : State × Flags :=
  let w := s.writeLane n int x.tD x.tSd (r.1.map some)
  (w.1, r.2.or w.2)

/-- An elementwise operation of one, two or three FP32 operands. -/
def map1 (f : Val → Val × Flags) (a : List Val × Flags) : List Val × Flags := mapFlags f a
def map2 (f : Val → Val → Val × Flags) (a b : List Val × Flags) : List Val × Flags :=
  let out := (a.1.zip b.1).map (fun p => f p.1 p.2)
  (out.map Prod.fst, (a.2.or b.2).or (Flags.all (out.map Prod.snd)))
def map3 (f : Val → Val → Val → Val × Flags) (a b c : List Val × Flags) : List Val × Flags :=
  let out := (a.1.zip (b.1.zip c.1)).map (fun p => f p.1 p.2.1 p.2.2)
  (out.map Prod.fst, ((a.2.or b.2).or c.2).or (Flags.all (out.map Prod.snd)))

/-- Chain a lane operation onto a flagged value. -/
def andThen (a : Val × Flags) (f : Val → Val × Flags) : Val × Flags :=
  let r := f a.1
  (r.1, a.2.or r.2)

/-- Chain a lane operation of two flagged values. -/
def andThen2 (a b : Val × Flags) (f : Val → Val → Val × Flags) : Val × Flags :=
  let r := f a.1 b.1
  (r.1, (a.2.or b.2).or r.2)

/-! ## Functions (spec/07 R160) -/

/-- SiLU. -/
def siluF32 (x : Val) : Val × Flags :=
  andThen (andThen (expF32 x.neg) (addF32 .one)) (divF32 x)

/-- The FP32 values nearest to 0.044715 and 1.5957691216. -/
def geluC1 : Val := (divF32 (Val.ofInt 44715) (Val.ofInt 1000000)).1
def geluC2 : Val := (divF32 (Val.ofInt 15957691216) (Val.ofInt 10000000000)).1

/-- GELU in tanh form. -/
def geluF32 (x : Val) : Val × Flags :=
  let x3 := andThen (mulF32 x x) (fun y => mulF32 y x)
  let i := andThen x3 (fun y => fmaF32 geluC1 y x)
  let e := andThen (andThen i (mulF32 geluC2)) (fun y => expF32 y.neg)
  andThen (andThen e (addF32 .one)) (divF32 x)

/-- VACT by kind. -/
def actF32 (kind : Nat) (x : Val) : Val × Flags :=
  match kind with
  | 0 => maxF32 x .zero
  | 1 => geluF32 x
  | _ => siluF32 x

/-! ## Effects -/

/-- The kind field of a vector instruction. -/
def UCmd.kind (x : UCmd) : Nat := fieldOf x.ctl 10 3

/-- The FP32 elementwise instructions. -/
def vecFloat (s : State) (n : Nat) (x : UCmd) : State × Flags :=
  let a := s.loadF32 n x.tA x.tSa true
  let b := s.loadF32 n x.tB x.tSb true
  s.putLane n false x (match x.op with
    | .vadd => map2 addF32 a b
    | .vsub => map2 subF32 a b
    | .vmul => map2 mulF32 a b
    | .vfma => map3 fmaF32 a b (s.loadF32 n x.tC x.tSc true)
    | .vmax => map2 maxF32 a b
    | .vmin => map2 minF32 a b
    | .vscale =>
      let k := ofF32 (x.xa.toNat % 2 ^ 32)
      let r := map1 (fun v => mulF32 v k) a
      (r.1, r.2.or { nv := k.isNan })
    | .vexp => map1 expF32 a
    | .vlog => map1 logF32 a
    | .vrcp => map1 (divF32 .one) a
    | .vrsqrt => map1 rsqrtF32 a
    | _ => map1 (actF32 x.kind) a)

/-- An INT32 comparison by kind (spec/04 R81, R89). -/
def icmp (kind : Nat) (a b : Int) : Bool :=
  let u := fun (x : Int) => x % (2 ^ 32 : Int)
  match kind with
  | 0 => a = b
  | 1 => a ≠ b
  | 2 => a < b
  | 3 => u a < u b
  | 4 => b ≤ a
  | _ => u b ≤ u a

/-- The INT32 instructions: modulo 2^32, no flag. -/
def vecInt (s : State) (n : Nat) (x : UCmd) : State × Flags :=
  let a := s.loadInt n x.tA x.tSa
  let b := s.loadInt n x.tB x.tSb
  let f := fun (p : Int × Int) =>
    match x.op with
    | .viadd => signedOf 32 ((p.1 + p.2) % (2 ^ 32 : Int)).toNat
    | .vimul => signedOf 32 ((p.1 * p.2) % (2 ^ 32 : Int)).toNat
    | _ => (bit (icmp x.kind p.1 p.2) : Int)
  s.putLane n true x (((a.1.zip b.1).map f).map Val.ofInt, a.2.or b.2)

/-- Blocks of 32 values converted into GB16 (spec/13 R285), which takes no notice of td's rnd; psn when one is poisoned and `psn` counts. An infinity
poisons its block and sets no nv: whether GB16 counts as a format without an encoding for it the manual does not say (DESIGN CHOICE, log 200). -/
def vecQuantise (s : State) (n : Nat) (x : UCmd) (a : List Val × Flags) (psn : Bool) : State × Flags :=
  let bs := (List.range (a.1.length / 32)).map (fun i => gbQuantise ((a.1.drop (32 * i)).take 32))
  ((s.putBlks n x.tD bs).history n x.tD a.1 false, a.2.or { psn := psn && bs.any (·.psn) })

/-- The operand of VCVT as FP32 lanes: a poisoned block has no numeric value, and its elements are NaN (spec/05 R102, Table 05-1). -/
def State.loadCvt (s : State) (n : Nat) (t sc : Tens) : List Val × Flags :=
  if t.fmt = 0x0A then
    let vs := (s.gblks n t).flatMap (fun b => if b.psn then List.replicate 32 .nan else b.vals)
    mapFlags toF32 (vs, readFlags vs)
  else s.loadF32 n t sc false

/-- VCVT: through an FP32 lane; INT32 to INT32 stays in INT32 lanes (log 13). -/
def vecCvt (s : State) (n : Nat) (x : UCmd) : State × Flags :=
  if x.tA.fmt = 0x0B ∧ x.tD.fmt = 0x0B then
    let a := s.loadInt n x.tA x.tSa
    s.putLane n true x (a.1.map Val.ofInt, a.2)
  else
    let a := s.loadCvt n x.tA x.tSa
    if x.tD.fmt = 0x0A then vecQuantise s n x a false else s.putLane n false x a

/-- VRSUM: the exact sum along dimension 0, one rounding. -/
def vecRsum (s : State) (n : Nat) (x : UCmd) : State × Flags :=
  let a := s.loadF32 n x.tA x.tSa true
  let rows := (List.range x.tA.rows).map (fun r => (a.1.drop (r * x.tA.n0)).take x.tA.n0)
  let out := rows.map (fun row => lane row (sumVals row))
  s.putLane n false x (out.map Prod.fst, a.2.or (Flags.all (out.map Prod.snd)))

/-- VAMAX: the amax of ta enters its scale record (spec/05 R118). -/
def vecAmax (s : State) (n : Nat) (x : UCmd) : State × Flags :=
  let a := s.exactVals n x.tA x.tSa true
  (if x.tA.srecEn then s.setSrec n x.tA ((s.srecOf n x.tA).update (amaxOf a.1) false) else s, a.2)

/-- EV_RED_RESIDUE: the check, layer, bucket, block and the core whose adder ran (spec/13 R289). -/
def State.raiseResidue (s : State) (core check layer bucket block : Nat) : State :=
  s.raiseCore EV.RED_RESIDUE core (leBytes 1 check ++ leBytes 2 layer ++ leBytes 2 bucket ++ leBytes 2 block ++ leBytes 2 core)

/-- VGBA: block sums with residue checks; what meets the adder meets its first addition (spec/13 R289). The scale record measures the exact sums
that are written, and zeros where a failed block is (spec/05 R118). -/
def vecGba (s : State) (n : Nat) (x : UCmd) : State × Flags :=
  let as := s.gblks n x.tA
  let bs := s.gblks n x.tB
  let sums := (as.zip bs).map (fun p => gbAdd p.1 p.2)
  let codes := (sums.zip (List.range sums.length)).map (fun p => failedCheck (if p.2 = 0 then s.red.upset else 0) p.1)
  let out := (as.zip (sums.zip codes)).map (fun p => if p.2.2 = 0 then p.2.1.blk else failedBlk p.1)
  let vs := ((as.zip bs).zip codes).flatMap (fun p =>
    if p.2 = 0 then (p.1.1.vals.zip p.1.2.vals).map (fun q => q.1.add q.2) else List.replicate 32 .zero)
  let s1 := ((s.upsetDone (codes.headD 0 = 0)).putBlks n x.tD out).history n x.tD vs (x.tD.rnd = 1)
  let s2 := (codes.zip (List.range codes.length)).foldl (fun st p => if p.1 = 0 then st else st.raiseResidue n p.1 0 0 p.2) s1
  (s2, { psn := as.any (·.psn) || bs.any (·.psn) || out.any (·.psn) })

/-- VRES: the residue of the elements of each block; the res field is not read. -/
def vecRes (s : State) (n : Nat) (x : UCmd) : State × Flags :=
  let bs := s.gblks n x.tA
  s.putVals n x (bs.map (fun b => Val.ofInt (residue b.m)), { psn := bs.any (·.psn) })

/-! ### Optimizer kernels (spec/07 R163-R165) -/

/-- The hyperparameters of Table 07-5. -/
structure Hyper where
  lr : Val
  beta1 : Val
  beta2 : Val
  eps : Val
  wd : Val
  c1 : Val
  c2 : Val
  gmul : Val
  off : Nat
  nesterov : Bool

/-- The record's fields. -/
def Hyper.of (b : List Byte) : Hyper :=
  let f := fun (k : Nat) => ofF32 (leNat ((b.drop (4 * k)).take 4))
  { lr := f 0, beta1 := f 1, beta2 := f 2, eps := f 3, wd := f 4, c1 := f 5, c2 := f 6, gmul := f 7,
    off := leNat ((b.drop 32).take 4) / 4 * 4, nesterov := (b.getD 36 0).getLsbD 0 }

/-- A flagged constant. -/
def pureV (v : Val) : Val × Flags := (v, Flags.none)

/-- fma of flagged operands. -/
def fma3 (a : Val) (b c : Val × Flags) : Val × Flags := andThen2 b c (fun x y => fmaF32 a x y)

/-- One AdamW element (spec/07 R164): w, m, v. -/
def adamw (h : Hyper) (w g0 m0 v0 : Val) : (Val × Flags) × (Val × Flags) × (Val × Flags) :=
  let g := mulF32 h.gmul g0
  let m := fma3 h.beta1 (pureV m0) (andThen2 (subF32 .one h.beta1) g mulF32)
  let v := fma3 h.beta2 (pureV v0) (andThen2 (subF32 .one h.beta2) (andThen2 g g mulF32) mulF32)
  let den := andThen (andThen (andThen v (fun y => mulF32 y h.c2)) sqrtF32) (fun y => addF32 y h.eps)
  let d := andThen2 (andThen m (fun y => mulF32 y h.c1)) den divF32
  let w2 := andThen (andThen (andThen d (fun y => fmaF32 h.wd w y)) (mulF32 h.lr)) (subF32 w)
  (w2, m, v)

/-- One SGD element: w and the momentum buffer. -/
def sgd (h : Hyper) (w g0 b0 : Val) : (Val × Flags) × (Val × Flags) :=
  let g := andThen (mulF32 h.gmul g0) (fmaF32 h.wd w)
  let b := andThen g (fmaF32 h.beta1 b0)
  let step := if h.nesterov then andThen2 b g (fun y z => fmaF32 h.beta1 y z) else b
  (andThen (andThen step (mulF32 h.lr)) (subF32 w), b)

/-- The range of the second moment: the layout of tc at its base plus state_off. Whether it counts in the amax of tc's scale record the
manual does not say; only the first moment does here, a DESIGN CHOICE (log 14). -/
def vTens (tc : Tens) (off : Nat) : Tens := { tc with base := tc.base + off, srecEn := false }

/-- VOPT. A second-moment range that leaves SRAM or overlaps another operand leaves the destinations undefined (spec/07 R163,
R164); the flags are then those of the operands read, psn of a poisoned block among them, and the scale records stay as they were. The flags of
every operand element are set, those inside a poisoned block that is left unchanged too. Both are a DESIGN CHOICE (log 200). -/
def vecOpt (s : State) (n : Nat) (x : UCmd) : State × Flags :=
  let h := Hyper.of (s.lbytes n 1 (fieldOf x.ext 0 26) 64)
  let vt := vTens x.tC h.off
  let adam := x.kind = 0
  let w := s.loadF32 n x.tA x.tSa true
  let g := s.loadF32 n x.tB x.tSb true
  let m := s.loadF32 n x.tC x.tSc true
  let clash := overlap vt.ranges (x.tA.ranges ++ x.tB.ranges ++ x.tC.ranges ++ x.tD.ranges)
  if adam ∧ (vt.outside vt.rowBytes ∨ clash) then
    let s1 := (((s.undefTens n x.tA).undefTens n x.tC).undefTens n vt).undefTens n x.tD
    (if isMx x.tD.fmt then s1.undefTens n { x.tSd with fmt := 0x09 } else s1, (w.2.or g.2).or m.2)
  else
    let v := if adam then s.loadF32 n vt x.tSc true else (m.1, Flags.none)
    let bad := if x.tB.fmt = 0x0A then (s.gblks n x.tB).map (·.psn) else []
    let res := ((w.1.zip (g.1.zip (m.1.zip v.1))).zip (List.range w.1.length)).map (fun p =>
      if bad.getD (p.2 / 32) false then none
      else if adam then some (adamw h p.1.1 p.1.2.1 p.1.2.2.1 p.1.2.2.2)
      else
        let r := sgd h p.1.1 p.1.2.1 p.1.2.2.1
        some (r.1, r.2, pureV .zero))
    let nw := res.map (Option.map (fun r => r.1.1))
    let nm := res.map (Option.map (fun r => r.2.1.1))
    let nv := res.map (Option.map (fun r => r.2.2.1))
    let fl := Flags.all ((res.filterMap id).map (fun r => (r.1.2.or r.2.1.2).or r.2.2.2))
    let w1 := s.writeLane n false x.tA x.tSa nw
    let w2 := w1.1.writeLane n false x.tC x.tSc nm
    let w3 := if adam then w2.1.writeLane n false vt x.tSc nv else w2
    let w4 := w3.1.writeLane n false x.tD x.tSd nw
    (w4.1, (((w.2.or g.2).or (m.2.or v.2)).or fl).or ((w1.2.or w2.2).or (w3.2.or w4.2)))

/-- The effect of a vector command. Its operands are read before its destination is written: what a later group reads where td overlaps a source at
another place the manual does not say (DESIGN CHOICE, log 201). -/
def vecRun (s : State) (n : Nat) (x : UCmd) : State × Flags :=
  match x.op with
  | .viadd | .vimul | .vicmp => vecInt s n x
  | .vcvt => vecCvt s n x
  | .vrsum => vecRsum s n x
  | .vamax => vecAmax s n x
  | .vgbq => vecQuantise s n x (s.loadF32 n x.tA x.tSa true) true
  | .vgba => vecGba s n x
  | .vgbd => s.putVals n x (s.exactVals n x.tA x.tSa true)
  | .vres => vecRes s n x
  | .vopt => vecOpt s n x
  | _ => vecFloat s n x

/-! ## Issue -/

/-- The formats of ordinary operations (spec/04 R89). -/
def ordinary (fmt : Nat) : Bool := decide (fmt ≤ 4) || fmt = 0x09 || fmt = 0x0B

/-- The operands of a vector instruction as used: td unless VAMAX; ta; tb and tc by the instruction. -/
def vecOps (i : IT) (x : UCmd) (ud ub uc : Bool) : List Opnd :=
  (if ud then [x.opD i] else []) ++ [x.opA i] ++ (if ub then [x.opB i false] else []) ++ (if uc then [x.opC i] else [])

/-- Checks of an elementwise instruction of ordinary formats: all operands have the shape of td. -/
def elementwise (ub uc : Bool) (i : IT) (s : State) (x : UCmd) : Option Nat :=
  firstFault s i.n (vecOps i x true ub uc)
    { format := !(ordinary x.tD.fmt && ordinary x.tA.fmt && (!ub || ordinary x.tB.fmt) && (!uc || ordinary x.tC.fmt)),
      shape := !(x.tA.shape = x.tD.shape && (!ub || x.tB.shape = x.tD.shape) && (!uc || x.tC.shape = x.tD.shape)) }

/-- A vector instruction: the extension word is optional, and only VOPT uses it. -/
def issueVec (op : UOp) (i : IT) (legal ud ub uc : Bool) (cm : BitVec 24) (em : W64) (rs : List Nat)
    (check : IT → State → UCmd → Option Nat) (s : State) : State :=
  issueUnit .vector op i (legal && legalT i ud true ub uc cm false true em) ud true ub uc rs (check i) noPut s

/-- VADD. -/
def execVadd (i : IT) (s : State) : Host.Outcome State Fault Refusal :=
  go (issueVec .vadd i true true true false 0 0 [] (elementwise true false) s)

/-- VSUB. -/
def execVsub (i : IT) (s : State) : Host.Outcome State Fault Refusal :=
  go (issueVec .vsub i true true true false 0 0 [] (elementwise true false) s)

/-- VMUL. -/
def execVmul (i : IT) (s : State) : Host.Outcome State Fault Refusal :=
  go (issueVec .vmul i true true true false 0 0 [] (elementwise true false) s)

/-- VFMA. -/
def execVfma (i : IT) (s : State) : Host.Outcome State Fault Refusal :=
  go (issueVec .vfma i true true true true 0 0 [] (elementwise true true) s)

/-- VMAX. -/
def execVmax (i : IT) (s : State) : Host.Outcome State Fault Refusal :=
  go (issueVec .vmax i true true true false 0 0 [] (elementwise true false) s)

/-- VMIN. -/
def execVmin (i : IT) (s : State) : Host.Outcome State Fault Refusal :=
  go (issueVec .vmin i true true true false 0 0 [] (elementwise true false) s)

/-- VSCALE: the scalar is s[ctl[4:0]]. -/
def execVscale (i : IT) (s : State) : Host.Outcome State Fault Refusal :=
  go (issueVec .vscale i true true false false 0x1F 0 [fieldOf i.ctl 0 5] (elementwise false false) s)

/-- VEXP. -/
def execVexp (i : IT) (s : State) : Host.Outcome State Fault Refusal :=
  go (issueVec .vexp i true true false false 0 0 [] (elementwise false false) s)

/-- VLOG. -/
def execVlog (i : IT) (s : State) : Host.Outcome State Fault Refusal :=
  go (issueVec .vlog i true true false false 0 0 [] (elementwise false false) s)

/-- VRCP. -/
def execVrcp (i : IT) (s : State) : Host.Outcome State Fault Refusal :=
  go (issueVec .vrcp i true true false false 0 0 [] (elementwise false false) s)

/-- VRSQRT. -/
def execVrsqrt (i : IT) (s : State) : Host.Outcome State Fault Refusal :=
  go (issueVec .vrsqrt i true true false false 0 0 [] (elementwise false false) s)

/-- VACT: kinds 0 to 2. -/
def execVact (i : IT) (s : State) : Host.Outcome State Fault Refusal :=
  go (issueVec .vact i (decide (fieldOf i.ctl 10 3 ≤ 2)) true false false 0x1C00 0 [] (elementwise false false) s)

/-- VCVT: every format code on both sides. -/
def cvtCheck (i : IT) (s : State) (x : UCmd) : Option Nat :=
  firstFault s i.n (vecOps i x true false false) { shape := !(x.tA.shape = x.tD.shape) }

/-- VCVT. -/
def execVcvt (i : IT) (s : State) : Host.Outcome State Fault Refusal :=
  go (issueVec .vcvt i true true false false 0 0 [] cvtCheck s)

/-- VRSUM: td has n0 = 1 and otherwise the sizes of ta. -/
def rsumCheck (i : IT) (s : State) (x : UCmd) : Option Nat :=
  firstFault s i.n (vecOps i x true false false)
    { format := !(ordinary x.tD.fmt && ordinary x.tA.fmt), shape := !(x.tD.shape = (1, x.tA.n1, x.tA.n2, x.tA.n3)) }

/-- VRSUM. -/
def execVrsum (i : IT) (s : State) : Host.Outcome State Fault Refusal :=
  go (issueVec .vrsum i true true false false 0 0 [] rsumCheck s)

/-- VAMAX uses ta alone. -/
def amaxCheck (i : IT) (s : State) (x : UCmd) : Option Nat :=
  firstFault s i.n (vecOps i x false false false) { format := !ordinary x.tA.fmt }

/-- VAMAX. -/
def execVamax (i : IT) (s : State) : Host.Outcome State Fault Refusal :=
  go (issueVec .vamax i true false false false 0 0 [] amaxCheck s)

/-- VGBQ. -/
def gbqCheck (i : IT) (s : State) (x : UCmd) : Option Nat :=
  firstFault s i.n (vecOps i x true false false)
    { format := x.tD.fmt ≠ 0x0A || !ordinary x.tA.fmt, shape := x.tA.count ≠ x.tD.count }

/-- VGBQ. -/
def execVgbq (i : IT) (s : State) : Host.Outcome State Fault Refusal :=
  go (issueVec .vgbq i true true false false 0 0 [] gbqCheck s)

/-- VGBA. -/
def gbaCheck (i : IT) (s : State) (x : UCmd) : Option Nat :=
  firstFault s i.n (vecOps i x true true false)
    { format := x.tD.fmt ≠ 0x0A || x.tA.fmt ≠ 0x0A || x.tB.fmt ≠ 0x0A,
      shape := x.tA.count ≠ x.tD.count || x.tB.count ≠ x.tD.count }

/-- VGBA. -/
def execVgba (i : IT) (s : State) : Host.Outcome State Fault Refusal :=
  go (issueVec .vgba i true true true false 0 0 [] gbaCheck s)

/-- VGBD. -/
def gbdCheck (i : IT) (s : State) (x : UCmd) : Option Nat :=
  firstFault s i.n (vecOps i x true false false)
    { format := x.tA.fmt ≠ 0x0A || !ordinary x.tD.fmt, shape := x.tA.count ≠ x.tD.count }

/-- VGBD. -/
def execVgbd (i : IT) (s : State) : Host.Outcome State Fault Refusal :=
  go (issueVec .vgbd i true true false false 0 0 [] gbdCheck s)

/-- VRES. -/
def resCheck (i : IT) (s : State) (x : UCmd) : Option Nat :=
  firstFault s i.n (vecOps i x true false false)
    { format := x.tA.fmt ≠ 0x0A || x.tD.fmt ≠ 0x0B, shape := !(x.tD.shape = (x.tA.n0 / 32, x.tA.n1, x.tA.n2, x.tA.n3)) }

/-- VRES. -/
def execVres (i : IT) (s : State) : Host.Outcome State Fault Refusal :=
  go (issueVec .vres i true true false false 0 0 [] resCheck s)

/-- VOPT (spec/07 R163): E_OPT_REC ranks directly after E_ALIGN. -/
def optCheck (i : IT) (s : State) (x : UCmd) : Option Nat :=
  let rec0 := fieldOf x.ext 0 26
  let base : Checks :=
    { format := x.tA.fmt ≠ 0 || (x.tB.fmt ≠ 0 && x.tB.fmt ≠ 0x0A) || x.tC.fmt ≠ 0 || decide (8 < x.tD.fmt),
      shape := x.tA.count ≠ x.tD.count || x.tB.count ≠ x.tD.count || x.tC.count ≠ x.tD.count,
      unmapped := decide (0x3000000 < rec0 + 64) }
  let code := firstFault s i.n (vecOps i x true true true) base
  if rec0 % 64 ≠ 0 ∧ (code = none ∨ code = some E.ADDR_UNMAPPED) then some E.OPT_REC else code

/-- VOPT: kinds 0 and 1; the hyperparameter record lies at ext[25:0]. -/
def execVopt (i : IT) (s : State) : Host.Outcome State Fault Refusal :=
  go (issueVec .vopt i (decide (fieldOf i.ctl 10 3 ≤ 1)) true true true 0x1C00 0x3FFFFFF [] optCheck s)

/-- VIADD. -/
def execViadd (i : IT) (s : State) : Host.Outcome State Fault Refusal :=
  go (issueVec .viadd i true true true false 0 0 [] (elementwise true false) s)

/-- VIMUL. -/
def execVimul (i : IT) (s : State) : Host.Outcome State Fault Refusal :=
  go (issueVec .vimul i true true true false 0 0 [] (elementwise true false) s)

/-- VICMP: kinds 0 to 5. -/
def execVicmp (i : IT) (s : State) : Host.Outcome State Fault Refusal :=
  go (issueVec .vicmp i (decide (fieldOf i.ctl 10 3 ≤ 5)) true true false 0x1C00 0 [] (elementwise true false) s)

/-- VECTOR_COMMAND_DONE. -/
def execVectorCommandDone (core : BitVec 10) (s : State) : Host.Outcome State Fault Refusal :=
  go (s.unlessStopped core.toNat (unitDone core.toNat .vector vecRun))

end Sys2Proof.Machine
end

