-- ==== Sys2Proof/Machine/Groomer.lean ====
section
/-! DEFINITION. The Groomer (spec/04 R88, spec/07 R150-R158): row normalisation and soft-maximum, forward and backward, and their
statistics records with the spill to the Snowpack. -/

namespace Sys2Proof.Machine

/-! ## Row arithmetic (spec/07 R152-R155) -/

/-- rn(sum(l) / n). -/
def meanF32 (l : List Val) (n : Nat) : Val × Flags := divF32 (sumVals l) (Val.ofInt n)

/-- An exact value rounded once to FP32. -/
def rn (v : Val) : Val × Flags :=
  let r := toF32 v
  (r.1, r.2.or { nv := r.1.isNan })

/-- The mean and reciprocal standard deviation of a row; `rms` for the RMS norm. -/
def normStats (rms : Bool) (eps : Val) (xs : List Val) : (Val × Flags) × (Val × Flags) :=
  let mu := if rms then pureV .zero else meanF32 xs xs.length
  let sq := xs.map (fun x => let d := if rms then x else x.sub mu.1; d.mul d)
  let var := meanF32 sq xs.length
  let rho := rsqrtF32 (var.1.add eps)
  (mu, (rho.1, (var.2.or rho.2).or { nv := rho.1.isNan }))

/-- A normalised element. -/
def normElem (rms : Bool) (mu rho x : Val) : Val × Flags := rn ((if rms then x else x.sub mu).mul rho)

/-- All flags of flagged values. -/
def flagsOf (l : List (Val × Flags)) : Flags := Flags.all (l.map Prod.snd)

/-- What a row gives: its outputs, its record's two fields, its flags. -/
structure RowOut where
  out : List Val
  r0 : Val
  r1 : Val
  flags : Flags

/-- A row with a NaN among its unmasked inputs (spec/07 R155): every output and both fields of the record are NaN, masked elements among them, for
which R151 alone would give +0 (DESIGN CHOICE, log 200). -/
def nanRow (n : Nat) : RowOut := ⟨List.replicate n .nan, .nan, .nan, { nv := true }⟩

/-- GNRM of a row; `gain` none when ctl[3] = 1, `bias` none when tb has one row. -/
def gnrmRow (rms : Bool) (eps : Val) (gain bias : Option (List Val)) (xs : List Val) : RowOut :=
  if xs.any Val.isNan then nanRow xs.length
  else
    let st := normStats rms eps xs
    let ys := (xs.zip (List.range xs.length)).map (fun p =>
      let h := normElem rms st.1.1 st.2.1 p.1
      match gain with
      | none => h
      | some g =>
        let e := h.1.mul (g.getD p.2 .zero)
        andThen h (fun _ => rn (match bias with | none => e | some b => e.add (b.getD p.2 .zero))))
    ⟨ys.map Prod.fst, st.1.1, st.2.1, (st.1.2.or st.2.2).or (flagsOf ys)⟩

/-- GSMX of a row; `masked j` says that element j is masked. -/
def gsmxRow (masked : Nat → Bool) (xs : List Val) : RowOut :=
  let idx := (xs.zip (List.range xs.length))
  let live := (idx.filter (fun p => !masked p.2)).map Prod.fst
  match live with
  | [] => ⟨List.replicate xs.length .zero, .inf true, .inf true, Flags.none⟩
  | l0 :: ls =>
    if live.any Val.isNan then nanRow xs.length
    else
      let m := ls.foldl (fun a v => (maxF32 a v).1) l0
      let es := idx.map (fun p => if masked p.2 then pureV .zero else andThen (rn (p.1.sub m)) expF32)
      let sum := rn (sumVals ((es.zip (List.range xs.length)).filterMap (fun q => if masked q.2 then none else some q.1.1)))
      let lg := logF32 sum.1
      let ys := (es.zip (List.range xs.length)).map (fun q => if masked q.2 then pureV .zero else divF32 q.1.1 sum.1)
      ⟨ys.map Prod.fst, m, lg.1, (flagsOf es).or ((sum.2.or lg.2).or (flagsOf ys))⟩

/-- GNRMB of a row: the input gradient from the stored mean and reciprocal deviation. -/
def gnrmbRow (rms : Bool) (gain : Option (List Val)) (mu rho : Val) (xs dy : List Val) : RowOut :=
  if xs.any Val.isNan || dy.any Val.isNan then nanRow xs.length
  else
    let hs := xs.map (normElem rms mu rho)
    let as := (dy.zip (List.range dy.length)).map (fun p => match gain with | none => p.1 | some g => (g.getD p.2 .zero).mul p.1)
    let ab := meanF32 as as.length
    let bb := meanF32 ((as.zip hs).map (fun p => p.1.mul p.2.1)) as.length
    let out := (as.zip hs).map (fun p =>
      let c := p.2.1.mul bb.1
      rn (rho.mul (if rms then p.1.sub c else (p.1.sub ab.1).sub c)))
    ⟨out.map Prod.fst, mu, rho, ((flagsOf hs).or (if rms then Flags.none else ab.2)).or ((bb.2).or (flagsOf out))⟩

/-- GSMXB of a row: the gradient from the forward output y and dy. -/
def gsmxbRow (masked : Nat → Bool) (ys dy : List Val) : RowOut :=
  let idx := ((ys.zip dy).zip (List.range ys.length))
  let live := (idx.filter (fun p => !masked p.2)).map Prod.fst
  if live.any (fun p => p.1.isNan || p.2.isNan) then nanRow ys.length
  else
    let d := rn (sumVals (live.map (fun p => p.2.mul p.1)))
    let out := idx.map (fun p => if masked p.2 then pureV .zero else rn (p.1.1.mul (p.1.2.sub d.1)))
    ⟨out.map Prod.fst, .zero, .zero, (if live.isEmpty then Flags.none else d.2).or (flagsOf out)⟩

/-! ## Commands -/

/-- Whether element j of row r of a tensor is masked (spec/07 R151): j > i1 + o. -/
def UCmd.masked (x : UCmd) (r j : Nat) : Bool :=
  x.ctl.getLsbD 2 && decide ((r % x.tA.n1 : Int) + signedOf 32 (fieldOf x.ext 32 32) < (j : Int))

/-- The rows of an operand as FP32, each element with the flags of its load. -/
def State.rowsF32 (s : State) (n : Nat) (t sc : Tens) : List (List (Val × Flags)) :=
  let l := (s.readTens n t sc).map toF32
  (List.range t.rows).map (fun r => (l.drop (r * t.n0)).take t.n0)

/-- The values of a loaded row. -/
def rowOf (l : List (Val × Flags)) : List Val := l.map Prod.fst

/-- Whether the load of an element that counts overflowed: element `j` of row `r` counts when `live r j` (spec/07 R151, spec/05 R109). -/
def loadOf (live : Nat → Nat → Bool) (rows : List (List (Val × Flags))) : Bool :=
  (rows.zip (List.range rows.length)).any (fun p => (p.1.zip (List.range p.1.length)).any (fun q => q.1.2.of && live p.2 q.2))

/-- The flags of the rows of tb that a normalisation uses: gain and bias (spec/05 Table 05-3). -/
def gainFlags (rows : List (List (Val × Flags))) : Flags :=
  { nv := rows.any (fun l => (rowOf l).any Val.isNan), of := loadOf (fun _ _ => true) rows }

/-- The 8 bytes of a statistics record. -/
def statBytes (o : RowOut) : List Byte := leBytes 4 (f32Bits o.r0) ++ leBytes 4 (f32Bits o.r1)

/-- The two values of a record. -/
def statVals (b : List Byte) : Val × Val := (ofF32 (leNat (b.take 4)), ofF32 (leNat ((b.drop 4).take 4)))

/-- The flags of inputs read, without those of masked elements. -/
def inputFlags (of : Bool) (l : List RowOut) : Flags := (Flags.all (l.map (·.flags))).or { of := of }

/-- Write the outputs and, when the command writes statistics, its records: to the side memory, and those beyond it to the Snowpack as
one record of kind 1. -/
def groomStore (s : State) (n : Nat) (x : UCmd) (rows : List RowOut) (fl : Flags) : State × Flags :=
  let w := s.writeTens n x.tD x.tSd ((rows.map (·.out)).flatten.map some)
  if x.stats then
    let fit := 131072 - x.recBase
    let recs := rows.map statBytes
    let s1 := w.1.lstore n 2 (8 * x.recBase) (recs.take fit).flatten
    (if x.spillRows = 0 then s1 else snowPush s1 n x.ctx 1 (recs.drop fit).flatten, fl.or w.2)
  else (w.1, fl.or w.2)

/-- GNRM and GSMX. -/
def groomFwd (s : State) (n : Nat) (x : UCmd) : State × Flags :=
  let xs := s.rowsF32 n x.tA x.tSa
  let tb := if x.op = .gnrm ∧ ¬x.ctl.getLsbD 3 then s.rowsF32 n x.tB x.tSb else []
  let rows :=
    if x.op = .gnrm then
      let gain := if x.ctl.getLsbD 3 then none else some (rowOf (tb.getD 0 []))
      let bias := if x.ctl.getLsbD 3 ∨ x.tB.n1 = 1 then none else some (rowOf (tb.getD 1 []))
      xs.map (fun l => gnrmRow (x.ctl.getLsbD 0) (ofF32 (fieldOf x.ext 32 32)) gain bias (rowOf l))
    else (xs.zip (List.range xs.length)).map (fun p => gsmxRow (x.masked p.2) (rowOf p.1))
  groomStore s n x rows ((inputFlags (loadOf (fun r j => !(x.op = .gsmx && x.masked r j)) xs) rows).or (gainFlags tb))

/-- The stored records of a GNRMB: from the side memory, and from the Snowpack record it pops. -/
def groomRecs (s : State) (n : Nat) (x : UCmd) : State × List (Val × Val) :=
  let fit := Nat.min x.tA.rows (131072 - x.recBase)
  let side := s.lbytes n 2 (8 * x.recBase) (8 * fit)
  let p := if x.spillRows = 0 then (s, []) else snowPop s n
  let all := side ++ p.2
  (p.1, (List.range x.tA.rows).map (fun r => statVals ((all.drop (8 * r)).take 8)))

/-- GNRMB and GSMXB: ta is the forward input or output, tc the upstream gradient. -/
def groomBwd (s : State) (n : Nat) (x : UCmd) : State × Flags :=
  let a := s.rowsF32 n x.tA x.tSa
  let dy := s.rowsF32 n x.tC x.tSc
  let of := fun (live : Nat → Nat → Bool) => loadOf live a || loadOf live dy
  if x.op = .gnrmb then
    let tb := if x.ctl.getLsbD 3 then [] else (s.rowsF32 n x.tB x.tSb).take 1
    let gain := if x.ctl.getLsbD 3 then none else some (rowOf (tb.getD 0 []))
    let rs := groomRecs s n x
    let rows := ((a.zip dy).zip rs.2).map (fun p => gnrmbRow (x.ctl.getLsbD 0) gain p.2.1 p.2.2 (rowOf p.1.1) (rowOf p.1.2))
    let w := rs.1.writeTens n x.tD x.tSd ((rows.map (·.out)).flatten.map some)
    (w.1, ((inputFlags (of (fun _ _ => true)) rows).or (gainFlags tb)).or w.2)
  else
    let rows := ((a.zip dy).zip (List.range a.length)).map (fun p => gsmxbRow (x.masked p.2) (rowOf p.1.1) (rowOf p.1.2))
    let w := s.writeTens n x.tD x.tSd ((rows.map (·.out)).flatten.map some)
    (w.1, (inputFlags (of (fun r j => !x.masked r j)) rows).or w.2)

/-- The effect of a Groomer command. -/
def groomRun (s : State) (n : Nat) (x : UCmd) : State × Flags :=
  match x.op with
  | .gnrm | .gsmx => groomFwd s n x
  | _ => groomBwd s n x

/-- Whether a Groomer command's Snowpack record can be moved now: the Snowpack queue has reached it, and a push fits. -/
def groomSnowReady (s : State) (n : Nat) (x : UCmd) : Bool :=
  x.spillRows = 0 ||
    (match (s.core n).snowU.run with
      | some y => y = x && (match y.pushSize with | some b => snowFits s n b | none => snowPopOpen s n)
      | none => false)

/-- GROOMER_COMMAND_DONE: the command at the head ends, and with it its place in the Snowpack queue. -/
def groomDone (n : Nat) (s : State) : State :=
  match (s.core n).groomer.run with
  | none => s
  | some x =>
    if groomSnowReady s n x then
      let t := unitDone n .groomer groomRun s
      if x.spillRows = 0 ∨ x.chain.isSome ∨ s.stoppedAt n then t else t.pop n .snow
    else s

/-- GROOMER_COMMAND_DONE. -/
def execGroomerCommandDone (core : BitVec 10) (s : State) : Host.Outcome State Fault Refusal :=
  go (s.unlessStopped core.toNat (groomDone core.toNat))

/-! ## Issue -/

/-- The formats of the Groomer (spec/07 R150). -/
def groomFmt (t : Tens) : Bool := decide (t.fmt ≤ 4)

/-- Checks of a Groomer instruction; `ub` and `uc` say which of tb and tc are used. -/
def groomCheck (ub uc : Bool) (i : IT) (s : State) (x : UCmd) : Option Nat :=
  let a := x.tA
  firstFault s i.n ([x.opD i, x.opA i] ++ (if ub then [x.opB i false] else []) ++ (if uc then [x.opC i] else []))
    { format := !(groomFmt x.tD && groomFmt a && (!ub || groomFmt x.tB) && (!uc || groomFmt x.tC)),
      shape := !(x.tD.shape = a.shape && decide (a.n0 ≤ 32768)
        && (!ub || (x.tB.flat && decide (x.tB.n0 = a.n0 ∧ x.tB.n1 ≤ 2))) && (!uc || x.tC.shape = a.shape)
        && decide (8 * x.spillRows < 2 ^ 32)),
      late :=
        if x.spillRows = 0 then none
        else if x.op = .gnrmb then snowPopFault s i.n (some (8 * x.spillRows)) else snowPushFault s i.n (8 * x.spillRows) }

/-- The units of a Groomer command. -/
def groomUnits (x : UCmd) : List UnitId := if x.spillRows = 0 then [.groomer] else [.groomer, .snow]

/-- The place of a spilled record in the stack. -/
def groomPut (n : Nat) (s : State) (x : UCmd) : State :=
  if x.spillRows = 0 then s
  else if x.op = .gnrmb then snowQueuePop s n
  else snowQueuePush s n (8 * x.spillRows)

/-- Issue of a Groomer instruction: extension word required. A GNRMB whose record lies deeper than the directory is held. -/
def issueGroom (op : UOp) (i : IT) (legal ub uc : Bool) (cm : BitVec 24) (em : W64) (s : State) : State :=
  let lg := legal && legalT i true true (op = .gnrm || op = .gnrmb) uc cm true false em
  let x := capture op i (s.ctx i.n i.k)
  if op = .gnrmb ∧ x.spillRows ≠ 0 ∧ s.snowHeld i.n then
    issue i.n i.k i.pg i.pn i.len lg [] (heldDescs i s true true ub uc) s (snowAskDir i.n)
  else issueUnits groomUnits op i lg true true ub uc [] (groomCheck ub uc i) (groomPut i.n) s

/-- GNRM: kinds 0 layer norm, 1 RMS norm; tb is ignored when ctl[3] = 1. -/
def execGnrm (i : IT) (s : State) : Host.Outcome State Fault Refusal :=
  go (issueGroom .gnrm i (!i.ctl.getLsbD 1) (!i.ctl.getLsbD 3) false 0x1B 0xFFFFFFFF0001FFFF s)

/-- GSMX. -/
def execGsmx (i : IT) (s : State) : Host.Outcome State Fault Refusal :=
  go (issueGroom .gsmx i true false false 0x14 0xFFFFFFFF0001FFFF s)

/-- GNRMB: kinds as GNRM. -/
def execGnrmb (i : IT) (s : State) : Host.Outcome State Fault Refusal :=
  go (issueGroom .gnrmb i (!i.ctl.getLsbD 1) (!i.ctl.getLsbD 3) true 0xB 0x1FFFF s)

/-- GSMXB. -/
def execGsmxb (i : IT) (s : State) : Host.Outcome State Fault Refusal :=
  go (issueGroom .gsmxb i true false true 4 0xFFFFFFFF00000000 s)

end Sys2Proof.Machine
end

