-- ==== Sys2Proof/Machine/Carve.lean ====
section
/-! DEFINITION. The Carve arrays (spec/04 R86, spec/05 R110-R113, spec/06): accumulator stores, dot mode, Herringbone mode, CBWD,
CDRN and CZERO, and the order in which an array's commands end (R139). -/

namespace Sys2Proof.Machine

/-! ## The accumulator store (spec/03 R54, Table 03-7) -/

/-- The first 4 B word of an entry: row or tile `idx`, line `i` of a tile (0 for a row), column `j`. -/
def accKey (wacc tile : Bool) (idx i j : Nat) : Nat :=
  let entry := (if tile then 16384 * idx + 128 * i else 128 * idx) + j
  if wacc then 4 * entry else entry

/-- Rows or tiles of a store. -/
def accCap (wacc tile : Bool) : Nat :=
  match wacc, tile with
  | false, false => 4096 | true, false => 1024 | false, true => 32 | true, true => 8

/-- The words that entries `idx` to `idx + cnt - 1` take. -/
def accSpan (wacc tile : Bool) (idx cnt : Nat) : Nat × Nat := (accKey wacc tile idx 0 0, accKey wacc tile (idx + cnt) 0 0)

/-- The store of array `arr` of core `n`. -/
def State.accOf (s : State) (n arr : Nat) : Sparse AccCell := Sparse.get s.acc [] (2 * n + arr)

/-- The bits of an entry: what was written there in that format and mode, or a free value (spec/03 R55, log 4). -/
def State.accRaw (s : State) (n arr : Nat) (wacc tile : Bool) (key : Nat) : BitVec 80 :=
  match Sparse.find (s.accOf n arr) key with
  | some c => if c.wacc = wacc ∧ c.tile = tile then c.val else Config.freeAcc s.accGen (2 * n + arr) key wacc
  | none => Config.freeAcc s.accGen (2 * n + arr) key wacc

/-- The value of an entry. -/
def State.accVal (s : State) (n arr : Nat) (wacc tile : Bool) (key : Nat) : Val :=
  let b := s.accRaw n arr wacc tile key
  if wacc then decodeWacc b.toNat else ofF32 b.toNat

/-- A store with one entry written; entries of the other format that it overlaps are gone. -/
def accPut (m : Sparse AccCell) (wacc tile : Bool) (key raw : Nat) : Sparse AccCell :=
  let cell : AccCell := { wacc := wacc, tile := tile, val := BitVec.ofNat 80 raw }
  if wacc then Sparse.put (Sparse.drop (Sparse.drop (Sparse.drop m (key + 1)) (key + 2)) (key + 3)) key cell
  else
    match Sparse.find m (key / 4 * 4) with
    | some c => Sparse.put (if c.wacc then Sparse.drop m (key / 4 * 4) else m) key cell
    | none => Sparse.put m key cell

/-- A state with entries of one array written. -/
def State.accStore (s : State) (n arr : Nat) (wacc tile : Bool) (l : List (Nat × Nat)) : State :=
  { s with
    acc := Sparse.put s.acc (2 * n + arr) (l.foldl (fun m p => accPut m wacc tile p.1 p.2) (s.accOf n arr)),
    accGen := s.accGen + 1 }

/-- A state in which the entries of a span of words of one array are undefined. -/
def State.accUndef (s : State) (n arr : Nat) (span : Nat × Nat) : State :=
  { s with
    acc := Sparse.put s.acc (2 * n + arr) ((s.accOf n arr).filter (fun p => decide (p.1 < span.1 ∨ span.2 ≤ p.1)))
    accGen := s.accGen + 1 }

/-! ## Arithmetic (spec/05 R110-R113) -/

/-- Round into the accumulator format: the bits and the flags; a NaN was read or produced. -/
def roundAcc (wacc : Bool) (v : Val) : Nat × Flags := convFloat (if wacc then 0x0C else 0x00) 0 0 false v false

/-- The value of accumulator bits. -/
def accDecode (wacc : Bool) (raw : Nat) : Val := if wacc then decodeWacc raw else ofF32 raw

/-- The exact sum of the products of two lists. -/
def dot (x w : List Val) : Val := sumVals ((x.zip w).map (fun p => p.1.mul p.2))

/-- The exact chunk sums of a row and a column, chunks of `kappa` elements in ascending order. Zeros enter a last chunk that runs past the end
(spec/06 R128): their products are +0, and one such term gives the same sum as any number of them. -/
def chunkSums (kappa : Nat) (x w : List Val) : List Val :=
  (List.range (ceilDiv x.length kappa)).map (fun c =>
    let k := (x.drop (kappa * c)).take kappa
    dot (if k.length < kappa then k ++ [.zero] else k) ((w.drop (kappa * c)).take k.length ++ [.zero]))

/-- Accumulate sums one after another, one rounding each (R110, R111); `start` is the entry's value when the first one adds to it. -/
def accumulate (wacc : Bool) (start : Option Val) (sums : List Val) : Option Val × Nat × Flags :=
  sums.foldl (fun (p : Option Val × Nat × Flags) v =>
    let r := roundAcc wacc (match p.1 with | none => v | some a => a.add v)
    (some (accDecode wacc r.1), r.1, p.2.2.or r.2)) (start, 0, Flags.none)

/-- The chunk size of two input formats (spec/06 Table 06-2). -/
def kappaOf (fmt : Nat) : Nat := if fmt = 8 then 256 else 128

/-- The row of Table 03-10 that a Carve or Schuss input format belongs to. -/
def carveRow (fmt : Nat) : Option Nat :=
  match fmt with
  | 0x08 => some 0
  | 0x03 | 0x04 | 0x05 | 0x06 | 0x07 => some 1
  | 0x01 | 0x02 => some 2
  | _ => none

/-- Whether input formats come from one row. -/
def sameRow (fs : List Nat) : Bool :=
  match fs with
  | [] => true
  | f :: rest => (carveRow f).isSome && rest.all (fun g => carveRow g = carveRow f)

/-! ## Fields -/

def UCmd.wacc (x : UCmd) : Bool := x.ctl.getLsbD 1
def UCmd.accBit (x : UCmd) : Bool := x.ctl.getLsbD 2
def UCmd.tile (x : UCmd) : Bool := x.ctl.getLsbD 4
def UCmd.row (x : UCmd) : Nat := fieldOf x.ext 0 12
def UCmd.tno (x : UCmd) : Nat := fieldOf x.ext 16 5
def UCmd.cnt (x : UCmd) : Nat := fieldOf x.ext 21 12 + 1

/-- The effective sizes of a weight operand: exchanged when tr = 1 (spec/04 R66). -/
def Tens.k0 (t : Tens) : Nat := if t.tr then t.n1 else t.n0
def Tens.k1 (t : Tens) : Nat := if t.tr then t.n0 else t.n1

/-- A list of rows as a list of columns, `w` of them. -/
def columns (w : Nat) (rows : List (List Val)) : List (List Val) :=
  (List.range w).map (fun j => rows.map (fun r => r.getD j .zero))

/-! ## Effects -/

/-- The value that the first product of a command adds to in an entry: none where acc = 0 overwrites it (R110, R111). -/
def State.accStart (s : State) (n arr : Nat) (wacc tile accBit : Bool) (key : Nat) : Option Val :=
  if accBit then some (s.accVal n arr wacc tile key) else none

/-- Write a block of accumulated cells: line `m` of `sums m`, for columns in order; the state and the flags. -/
def accBlock (s : State) (n arr : Nat) (wacc tile accBit : Bool) (key : Nat → Nat → Nat) (lines cols : Nat)
    (sums : Nat → Nat → List Val) : State × Flags :=
  let cells := ((List.range lines).map (fun m => (List.range cols).map (fun j =>
    let a := key m j
    let r := accumulate wacc (s.accStart n arr wacc tile accBit a) (sums m j)
    (a, r.2.1, r.2.2)))).flatten
  (s.accStore n arr wacc tile (cells.map (fun c => (c.1, c.2.1))), Flags.all (cells.map (fun c => c.2.2)))

/-- The chunk sums of dot mode in row `m` and column `j` of a CMM, and of the dX products of a CBWD (spec/06 R128). -/
def State.dotSums (s : State) (n : Nat) (x : UCmd) : Nat → Nat → List Val :=
  let xs := s.readRows n x.tA x.tSa
  let ws := exchanged x.tB (s.readRows n x.tB x.tSb)
  let cols := if x.op = .cbwd then columns x.tB.k0 ws else ws
  fun m j => chunkSums (kappaOf x.tA.fmt) (xs.getD m []) (cols.getD j [])

/-- The columns of dot mode of a command. -/
def UCmd.dotCols (x : UCmd) : Nat := if x.op = .cbwd then x.tB.k0 else x.tB.k1

/-- The dot-mode products of a command, added to its rows of the store. -/
def dotRun (s : State) (n : Nat) (x : UCmd) (sums : Nat → Nat → List Val) : State × Flags :=
  accBlock s n x.arr x.wacc false x.accBit (fun m j => accKey x.wacc false (x.row + m) 0 j) x.tA.n1 x.dotCols sums

/-- CMM (spec/04 Table 04-11). -/
def cmmRun (s : State) (n : Nat) (x : UCmd) : State × Flags :=
  dotRun (s.bumpBy (F.CORE_CRV_ISSUE_CNT n x.arr) (ceilDiv x.tA.n0 (kappaOf x.tA.fmt) * x.tA.n1)) n x (s.dotSums n x)

/-- CHB: cell (i, j) takes one k at a time. -/
def chbRun (s : State) (n : Nat) (x : UCmd) : State × Flags :=
  let as := columns x.tA.n0 (s.readRows n x.tA x.tSa)
  let bs := columns x.tB.n0 (s.readRows n x.tB x.tSb)
  let s1 := s.bumpBy (F.CORE_CRV_ISSUE_CNT n x.arr) x.tA.n1
  accBlock s1 n x.arr x.wacc true x.accBit (fun i j => accKey x.wacc true x.tno i j) x.tA.n0 x.tB.n0
    (fun i j => ((as.getD i []).zip (bs.getD j [])).map (fun p => p.1.mul p.2))

/-- CBWD (spec/06 R142, R143): dX rows in dot mode, and dW into a tile unless frz = 1. -/
def cbwdRun (s : State) (n : Nat) (x : UCmd) : State × Flags :=
  let ys := s.readRows n x.tA x.tSa
  let s1 := s.bumpBy (F.CORE_CRV_ISSUE_CNT n x.arr) (if x.frz then x.tA.n1 else 2 * x.tA.n1)
  let r1 := dotRun s1 n x (s.dotSums n x)
  if x.frz then r1
  else
    let xs := columns x.tC.n0 (s.readRows n x.tC x.tSc)
    let gs := columns x.tA.n0 ys
    let r2 := accBlock r1.1 n x.arr x.wacc true x.accBit (fun i j => accKey x.wacc true x.tno i j) x.tC.n0 x.tA.n0
      (fun i j => ((xs.getD i []).zip (gs.getD j [])).map (fun p => p.1.mul p.2))
    (r2.1, r1.2.or r2.2)

/-- CDRN: each entry converted once from its exact value (spec/05 R113). -/
def cdrnRun (s : State) (n : Nat) (x : UCmd) : State × Flags :=
  let t := x.tD
  let vs := ((List.range t.n1).map (fun r => (List.range t.n0).map (fun j =>
    s.accVal n x.arr x.wacc x.tile
      (if x.tile then accKey x.wacc true x.tno r j else accKey x.wacc false (x.row + r) 0 j)))).flatten
  let r := s.writeTens n t x.tSd (vs.map some)
  (r.1, r.2.or (readFlags vs))

/-- CZERO: every entry of the rows or tiles is +0 in the format wacc. -/
def czeroRun (s : State) (n : Nat) (x : UCmd) : State × Flags :=
  let start := if x.tile then x.tno else x.row
  let span := accSpan x.wacc x.tile start x.cnt
  let step := if x.wacc then 4 else 1
  (s.accStore n x.arr x.wacc x.tile ((List.range ((span.2 - span.1) / step)).map (fun k => (span.1 + step * k, 0))), Flags.none)

/-! ### The registers and buffers of an array (spec/06 Table 06-1) -/

/-- The registers and buffers of array `arr` of core `n`. -/
def State.crv (s : State) (n arr : Nat) : CarveSt := Sparse.get (s.core n).arrays {} arr

/-- A state with them replaced. -/
def State.setCrv (s : State) (n arr : Nat) (c : CarveSt) : State := s.setCore n { s.core n with arrays := Sparse.put (s.core n).arrays arr c }

/-- The rows of a tensor as codes with their block scales. -/
def State.codeRows (s : State) (n : Nat) (t sc : Tens) : List (List (Nat × Nat)) :=
  (List.range t.rows).map (fun r =>
    let row := s.lbytes n t.space (t.rowAddr r) t.rowBytes
    let scales := if isMx t.fmt then s.lbytes n sc.space (sc.rowAddr r) (t.n0 / 32) else []
    (List.range t.n0).map (fun k => (unpackElem t.fmt row k, (scales.getD (k / 32) 0).toNat)))

/-- Rows of codes as `w` columns. -/
def codeColumns (w : Nat) (rows : List (List (Nat × Nat))) : List (List (Nat × Nat)) :=
  (List.range w).map (fun j => rows.map (fun r => r.getD j (0, 0)))

/-- The last `k` elements of a list. -/
def lastOf {α : Type} (k : Nat) (l : List α) : List α := l.drop (l.length - k)

/-- Vectors pass the input buffers of all eight column groups (R127, R140). -/
def CarveSt.feed (c : CarveSt) (vs : List (List (Nat × Nat))) : CarveSt :=
  { c with input := (List.range 8).foldl (fun m g => Sparse.put m g (lastOf 16 (Sparse.get m [] g ++ vs))) c.input }

/-- Weight columns `ws` pass the front staging and the weight registers in `n` chunks of `kappa` elements (R128, R130, R131). -/
def CarveSt.front (c : CarveSt) (kappa n : Nat) (ws : List (List (Nat × Nat))) : CarveSt :=
  let chunk := fun (i : Nat) (l : List (Nat × Nat)) => (l.drop (kappa * i)).take kappa
  { c with
    weights := (ws.zip (List.range ws.length)).foldl (fun m p => Sparse.put m p.2 (chunk (n - 1) p.1)) c.weights
    staging := lastOf 2 (c.staging ++ (List.range n).map (fun i => ws.map (chunk i))) }

/-- Rows of results pass the result queues of the column groups that hold their columns; what columns beyond them give is discarded (R128). -/
def CarveSt.queueRows (c : CarveSt) (rows : List (List Nat)) : CarveSt :=
  { c with
    results := (List.range (ceilDiv (rows.headD []).length 16)).foldl (fun m g =>
      Sparse.put m g (lastOf 4 (Sparse.get m [] g ++ rows.map (fun r => (r.drop (16 * g)).take 16)))) c.results }

/-- Rows of dY copied into the gradient tile buffer. -/
def CarveSt.copyTile (c : CarveSt) (rows : List (List (Nat × Nat))) : CarveSt := { c with gtile := rows ++ c.gtile.drop rows.length }

/-- The cells of H0 or H1 after a command (R140, R141). -/
def CarveSt.cells (c : CarveSt) (h1 : Bool) (cells : List (Nat × AccCell)) : CarveSt :=
  let put := fun (m : Sparse AccCell) => cells.foldl (fun m p => Sparse.put m p.1 p.2) m
  if h1 then { c with h1 := put c.h1 } else { c with h0 := put c.h0 }

/-- The bits of row `m` of dot mode after the chunks up to `k`. -/
def State.partRow (s : State) (n : Nat) (x : UCmd) (sums : Nat → Nat → List Val) (k m : Nat) : List Nat :=
  (List.range x.dotCols).map (fun j =>
    (accumulate x.wacc (s.accStart n x.arr x.wacc false x.accBit (accKey x.wacc false (x.row + m) 0 j)) ((sums m j).take (k + 1))).2.1)

/-- The last four rows of results that the passes of a command give: chunk ascending, row ascending (R128). -/
def State.lastRows (s : State) (n : Nat) (x : UCmd) : List (List Nat) :=
  let sums := s.dotSums n x
  (lastOf 4 ((List.range (ceilDiv x.tA.n0 (kappaOf x.tA.fmt))).flatMap (fun k => (List.range x.tA.n1).map (fun m => (k, m))))).map
    (fun p => s.partRow n x sums p.1 p.2)

/-- The cells that a command's register holds after it, in a state that holds its tile: with acc = 1 the whole tile, since it was loaded first; with
acc = 0 the cells of its shape (R141). -/
def State.tileCells (s : State) (n : Nat) (x : UCmd) (rows cols : Nat) : List (Nat × AccCell) :=
  (List.range (if x.accBit then 128 else rows)).flatMap (fun i => (List.range (if x.accBit then 128 else cols)).map (fun j =>
    (128 * i + j, { wacc := x.wacc, tile := true, val := s.accRaw n x.arr x.wacc true (accKey x.wacc true x.tno i j) })))

/-- Whether a Herringbone command has the register H1: a gate's command stands in its array's queue as well. -/
def State.hasH1 (s : State) (n : Nat) (x : UCmd) : Bool :=
  if x.chain.isSome then (((s.core n).eng (if x.arr = 0 then .a0 else .a1)).run.map (·.useH1)).getD false else x.useH1

/-- The m-tiles of a CBWD: runs of up to 128 rows (R142). -/
def tilesOf {α : Type} (rows : List α) : List (List α) :=
  (List.range (ceilDiv rows.length 128)).map (fun t => (rows.drop (128 * t)).take 128)

/-- The registers and buffers of its array after a compute command, from the state `s0` before it and the state `s` that holds its results. -/
def State.crvAfter (s0 s : State) (n : Nat) (x : UCmd) : State :=
  let c := s.crv n x.arr
  let h1 := s.hasH1 n x
  let a := s0.codeRows n x.tA x.tSa
  let b0 := s0.codeRows n x.tB x.tSb
  let b := if x.tB.tr then codeColumns x.tB.n0 b0 else b0
  let kappa := kappaOf x.tA.fmt
  match x.op with
  | .cmm =>
    let k := ceilDiv x.tA.n0 kappa
    let fed := (List.range k).flatMap (fun i => a.map (fun r => (r.drop (kappa * i)).take kappa))
    s.setCrv n x.arr (((c.front kappa k b).feed fed).queueRows (s0.lastRows n x))
  | .chb =>
    s.setCrv n x.arr (({ c.feed a with staging := lastOf 2 (c.staging ++ b0.map (fun v => [v])) } : CarveSt).cells h1
      (s.tileCells n x x.tA.n0 x.tB.n0))
  | .cbwd =>
    let c1 := (c.front kappa 1 (codeColumns x.tB.k0 b)).queueRows (s0.lastRows n x)
    if x.frz then s.setCrv n x.arr (c1.feed a)
    else
      let tiles := (tilesOf a).zip (tilesOf (s0.codeRows n x.tC x.tSc))
      let c2 := tiles.foldl (fun d t => ((d.feed t.1).copyTile t.1).feed t.2) c1
      s.setCrv n x.arr (c2.cells h1 (s.tileCells n x x.tC.n0 x.tA.n0))
  | _ => s

/-- A compute command's results, from the state before it, with the registers of its array. -/
def crvDone (s : State) (r : State × Flags) (n : Nat) (x : UCmd) : State × Flags := (s.crvAfter r.1 n x, r.2)

/-- The effect of a Carve command. -/
def carveRun (s : State) (n : Nat) (x : UCmd) : State × Flags :=
  match x.op with
  | .cmm => crvDone s (cmmRun s n x) n x
  | .chb => crvDone s (chbRun s n x) n x
  | .cbwd => crvDone s (cbwdRun s n x) n x
  | .cdrn => cdrnRun s n x
  | .czero => czeroRun s n x
  | _ => (s, Flags.none)

/-! ## Issue -/

/-- The unit of an array number. -/
def carveUnit (arr : Nat) : UnitId := if arr = 0 then .a0 else .a1

/-- E_ACC_RANGE (spec/03 R54). -/
def accOver (wacc tile : Bool) (start cnt : Nat) : Bool := decide (accCap wacc tile < start + cnt)

/-- CMM. -/
def cmmCheck (i : IT) (s : State) (x : UCmd) : Option Nat :=
  firstFault s i.n [x.opA i, x.opB i true]
    { format := !sameRow [x.tA.fmt, x.tB.fmt],
      shape := !(x.tA.flat && x.tB.flat && decide (x.tA.n0 = x.tB.k0 ∧ x.tB.k1 ≤ 128)),
      acc := accOver x.wacc false x.row x.tA.n1 }

/-- CHB. -/
def chbCheck (i : IT) (s : State) (x : UCmd) : Option Nat :=
  firstFault s i.n [x.opA i, x.opB i false]
    { format := !sameRow [x.tA.fmt, x.tB.fmt],
      shape := !(x.tA.flat && x.tB.flat && decide (x.tA.n0 ≤ 128 ∧ x.tB.n0 ≤ 128 ∧ x.tA.n1 = x.tB.n1)),
      acc := accOver x.wacc true x.tno 1 }

/-- CBWD; with frz = 1 tc is ignored (spec/06 R143). -/
def cbwdCheck (i : IT) (s : State) (x : UCmd) : Option Nat :=
  let a := x.tA
  let b := x.tB
  let c := x.tC
  firstFault s i.n ([x.opA i, x.opB i true] ++ (if x.frz then [] else [x.opC i]))
    { format := !sameRow ([a.fmt, b.fmt] ++ (if x.frz then [] else [c.fmt])),
      shape := !(a.flat && b.flat && decide (a.n0 ≤ 128 ∧ b.k0 ≤ 128 ∧ b.k1 = a.n0)
        && (x.frz || (c.flat && decide (c.n0 = b.k0 ∧ c.n1 = a.n1)))),
      acc := accOver x.wacc false x.row a.n1 || (!x.frz && accOver x.wacc true x.tno 1) }

/-- CDRN. -/
def cdrnCheck (i : IT) (s : State) (x : UCmd) : Option Nat :=
  let d := x.tD
  firstFault s i.n [x.opD i]
    { format := d.fmt = 0x0A,
      shape := !(d.flat && decide (d.n0 ≤ 128) && (!x.tile || decide (d.n1 ≤ 128))),
      acc := if x.tile then accOver x.wacc true x.tno 1 else accOver x.wacc false x.row d.n1 }

/-- CZERO. -/
def czeroCheck (i : IT) (s : State) (x : UCmd) : Option Nat :=
  firstFault s i.n [] { acc := accOver x.wacc x.tile (if x.tile then x.tno else x.row) x.cnt }

/-- A Carve instruction: extension word required (spec/04 Table 04-5). -/
def issueCarve (op : UOp) (i : IT) (ud ua ub uc : Bool) (cm : BitVec 24) (em : W64)
    (check : IT → State → UCmd → Option Nat) (s : State) : State :=
  issueUnit (carveUnit (fieldOf i.ctl 0 1)) op i (legalT i ud ua ub uc cm true false em) ud ua ub uc [] (check i) noPut s

/-- CMM: acc[row + m][n] = Σ over k of X[m][k]·W[k][n]. -/
def execCmm (i : IT) (s : State) : Host.Outcome State Fault Refusal :=
  go (issueCarve .cmm i false true true false 7 0xFFF cmmCheck s)

/-- CHB: tile[tno][i][j] = Σ over k of A[k][i]·B[k][j]. -/
def execChb (i : IT) (s : State) : Host.Outcome State Fault Refusal :=
  go (issueCarve .chb i false true true false 7 0x1F0000 chbCheck s)

/-- CBWD: dX rows and, unless frz = 1, the weight gradient tile. With frz = 1 the field tc names nothing that is used, but it stays a
field of the instruction. -/
def execCbwd (i : IT) (s : State) : Host.Outcome State Fault Refusal :=
  go (issueUnit (carveUnit (fieldOf i.ctl 0 1)) .cbwd i (legalT i false true true true 0xF true false 0x1F0FFF)
    false true true (!i.ctl.getLsbD 3) [] (cbwdCheck i) noPut s)

/-- CDRN: rows or a tile into td. -/
def execCdrn (i : IT) (s : State) : Host.Outcome State Fault Refusal :=
  go (issueCarve .cdrn i true false false false 0x13 0x1F0FFF cdrnCheck s)

/-- CZERO. -/
def execCzero (i : IT) (s : State) : Host.Outcome State Fault Refusal :=
  go (issueCarve .czero i false false false false 0x13 0x1FFFF0FFF czeroCheck s)

/-! ## The end of a command (spec/06 R139) -/

/-- The words of the store that a command writes (compute, CZERO) or reads (CDRN). -/
def accTouch (x : UCmd) : List (Nat × Nat) :=
  match x.op with
  | .cmm => [accSpan x.wacc false x.row x.tA.n1]
  | .chb => [accSpan x.wacc true x.tno 1]
  | .cbwd => accSpan x.wacc false x.row x.tA.n1 :: (if x.frz then [] else [accSpan x.wacc true x.tno 1])
  | .cdrn => [if x.tile then accSpan x.wacc true x.tno 1 else accSpan x.wacc false x.row x.tD.n1]
  | _ => [accSpan x.wacc x.tile (if x.tile then x.tno else x.row) x.cnt]

/-- The SRAM offsets that a tensor and its block scales lie between. -/
def sramHull (t sc : Tens) : List (Nat × Nat) :=
  (t.base, t.limit t.rowBytes) :: (if isMx t.fmt then [(sc.base, sc.limit (t.n0 / 32))] else [])

/-- The SRAM ranges that a Carve command reads, or, a CDRN, writes, its scale record included. -/
def sramTouch (s : State) (n : Nat) (x : UCmd) : List (Nat × Nat) :=
  match x.op with
  | .cmm | .chb => sramHull x.tA x.tSa ++ sramHull x.tB x.tSb
  | .cbwd => sramHull x.tA x.tSa ++ sramHull x.tB x.tSb ++ (if x.frz then [] else sramHull x.tC x.tSc)
  | .cdrn => sramHull x.tD x.tSd ++ (if x.tD.srecEn then [(s.srecAt n x.tD, s.srecAt n x.tD + 64)] else [])
  | _ => []

/-- Whether one of two commands writes SRAM that the other reads or writes; only a CDRN writes any. -/
def sramMeet (s : State) (n : Nat) (z x : UCmd) : Bool :=
  (z.op = .cdrn || x.op = .cdrn) && overlap (sramTouch s n z) (sramTouch s n x)

/-- Whether a command drains or zeroes. -/
def UCmd.drains (x : UCmd) : Bool := x.op = .cdrn || x.op = .czero

/-- The words that a compute command writes last: its last row, or its tile (R141). -/
def lastWrite (x : UCmd) : Nat × Nat :=
  if x.heron then accSpan x.wacc true x.tno 1 else accSpan x.wacc false (x.row + x.tA.n1 - 1) 1

/-- Whether a CDRN or CZERO may end before a compute command ahead of it although that writes rows it touches: they have had their last write
before the command's own last write (rules 2 and 3). -/
def drainsEarly (z x : UCmd) : Bool :=
  x.drains && !z.drains && z.chain.isNone && overlap (accTouch z) (accTouch x) && !overlap [lastWrite z] (accTouch x)

/-- Whether a CMM is held at its drain by a CDRN or CZERO of the same rows ahead of it with all its vectors admitted: from the first held row on it
has at most the four rows that a result queue takes (rule 4, R134, R135). -/
def heldAtDrain (pre : List UCmd) (z : UCmd) : Bool :=
  z.op = .cmm && pre.any (fun d => d.drains && (accTouch z).any (fun p => (accTouch d).any (fun q =>
    decide (p.1 < q.2 ∧ q.1 < p.2) &&
      decide (ceilDiv z.tA.n0 (kappaOf z.tA.fmt) * z.tA.n1 ≤ 4 + (q.1 - p.1) / (if z.wacc then 512 else 128)))))

/-- Whether command `x` may end before `z`, which stands behind `pre`, when they touch nothing in common. Two dot-mode commands end in order, since
the second issues after the first, and so does a Herringbone command behind a dot-mode one (R132), unless that is held at its drain. -/
def endsApart (pre : List UCmd) (z x : UCmd) : Bool :=
  (x.drains || z.drains || z.heron || (x.op = .chb && heldAtDrain pre z)) && !overlap (accTouch z) (accTouch x)

/-- Whether a command may end before those ahead of it, the nearest first, with the results of queue order (rules 1-5): of each it touches no rows,
tiles or SRAM ranges that one of the two writes, but for rows that have had their last write from a command that may itself go before those
ahead of it. -/
def mayPass (s : State) (n : Nat) : List UCmd → UCmd → Bool
  | [], _ => true
  | z :: pre, x => mayPass s n pre x && !sramMeet s n z x && (endsApart pre z x || (drainsEarly z x && mayPass s n pre z))

/-- The command at a place of a unit, 0 the one it executes, and a unit with it replaced or taken out. -/
def Eng.at? (e : Eng) : Nat → Option UCmd
  | 0 => e.run
  | k + 1 => e.queue[k]?
def Eng.setAt (e : Eng) (k : Nat) (x : UCmd) : Eng :=
  match k with
  | 0 => { e with run := some x }
  | k + 1 => { e with queue := e.queue.set k x }

/-- The effect of the command at a place is in place, so that a later command may read its rows; it ends later. -/
def runEarly (n : Nat) (u : UnitId) (k : Nat) (s : State) : State :=
  match ((s.core n).eng u).at? k with
  | some z =>
    if z.ran.isSome then s
    else
      let r := carveRun (z.spoil n s) n z
      r.1.setCore n ((r.1.core n).setEng u (((r.1.core n).eng u).setAt k { z with ran := some (r.2.nv, r.2.of, r.2.sat, r.2.psn) }))
  | none => s

/-- The effects that a command needs in place before it ends at place `k`: those ahead of it that it drains early. -/
def runAhead (n : Nat) (u : UnitId) (k : Nat) (x : UCmd) (s : State) : State :=
  (List.range k).foldl (fun st j => match ((st.core n).eng u).at? j with | some z => if drainsEarly z x then runEarly n u j st else st | none => st) s

/-- The effect of a command at its end, with its flags: nothing more where it is in place. -/
def carveEffect (n : Nat) (u : UnitId) (x : UCmd) (s : State) : State × Flags :=
  match x.ran with
  | some f => (x.spoil n s, ⟨f.1, f.2.1, f.2.2.1, f.2.2.2⟩)
  | none =>
    let r := carveRun (x.spoil n s) n x
    ((x.spoil n r.1).raced n x (r.1.clashes n u x), r.2)

/-- CARVE_COMMAND_DONE: command `idx` of the array, 0 the one it executes, ends. -/
def carveDone (n arr idx : Nat) (s : State) : State :=
  let u := carveUnit arr
  let e := (s.core n).eng u
  match idx with
  | 0 => unitDone n u carveRun s
  | k + 1 =>
    if s.stoppedAt n then s
    else
      match e.run, e.queue[k]? with
      | some y, some x =>
        if x.chain.isNone && mayPass s n (y :: e.queue.take k).reverse x then
          let r := carveEffect n u x (runAhead n u (k + 1) x s)
          let t := r.1.setFlags n x.ctx x.inc r.2
          ((t.setCore n ((t.core n).setEng u { (t.core n).eng u with queue := ((t.core n).eng u).queue.eraseIdx k })).wakeRoom n).complete
            n x.ctx x.inc x.pd
        else s
      | _, _ => s

/-- CARVE_COMMAND_DONE. -/
def execCarveCommandDone (core : BitVec 10) (arr : BitVec 1) (idx : Nat) (s : State) : Host.Outcome State Fault Refusal :=
  go (s.unlessStopped core.toNat (carveDone core.toNat arr.toNat idx))

end Sys2Proof.Machine
end

