-- ==== Sys2Proof/Machine/Schuss.lean ====
section
/-! DEFINITION. The Schuss path (spec/04 R87, spec/05 R112, spec/07 R145-R149): SMV. -/

namespace Sys2Proof.Machine

/-- Bytes of the vectors of an SMV in the vector buffer (spec/07 R147): elements, block scales, and the starting values of td. -/
def smvBytes (ta td : Tens) (add : Bool) : Nat :=
  ta.bytes + (if isMx ta.fmt then ta.count / 32 else 0) + (if add then 4 * td.count else 0)

/-- SMV: td[v][n] = Σ over k of ta[v][k]·tb[k][n], FP32 sums by chunks, then one conversion. The weights are read before td is written, also those of
later column groups that td overlaps (DESIGN CHOICE, log 201). -/
def smvRun (s : State) (n : Nat) (x : UCmd) : State × Flags :=
  let vs := s.readRows n x.tA x.tSa
  let ws := exchanged x.tB (s.readRows n x.tB x.tSb)
  let old := s.readRows n x.tD x.tSd
  let cells := ((List.range x.tA.n1).map (fun v => (List.range x.tB.k1).map (fun j =>
    let start := if x.ctl.getLsbD 0 then some ((old.getD v []).getD j .zero) else none
    let r := accumulate false start (chunkSums (kappaOf x.tA.fmt) (vs.getD v []) (ws.getD j []))
    (r.2.1, r.2.2)))).flatten
  let r := s.writeTens n x.tD x.tSd (cells.map (fun c => some (ofF32 c.1)))
  (r.1, r.2.or (Flags.all (cells.map Prod.snd)))

/-- The checks of SMV. -/
def smvCheck (i : IT) (s : State) (x : UCmd) : Option Nat :=
  let a := x.tA
  let b := x.tB
  let d := x.tD
  let add := x.ctl.getLsbD 0
  firstFault s i.n [x.opD i, x.opA i, x.opB i true]
    { format := !sameRow [a.fmt, b.fmt] || decide (2 < d.fmt) || (add && d.fmt ≠ 0),
      shape := !(a.flat && b.flat && d.flat
        && decide (a.n1 ≤ 8 ∧ a.n0 = b.k0 ∧ d.n0 = b.k1 ∧ d.n1 = a.n1 ∧ smvBytes a d add ≤ 262144)) }

/-- SMV. -/
def execSmv (i : IT) (s : State) : Host.Outcome State Fault Refusal :=
  go (issueUnit .schuss .smv i (legalT i true true true false 1 false false 0) true true true false [] (smvCheck i) noPut s)

/-- SCHUSS_COMMAND_DONE. -/
def execSchussCommandDone (core : BitVec 10) (s : State) : Host.Outcome State Fault Refusal :=
  go (s.unlessStopped core.toNat (unitDone core.toNat .schuss smvRun))

end Sys2Proof.Machine
end

