-- ==== Sys2Proof/Machine/Chain.lean ====
section
/-! DEFINITION. The values that a Slalom command passes along its links and the effect of its gates (spec/08 R184, R187, R190): the
gates run one after another in gate order, each linked value laid down beyond every address and read back. -/

namespace Sys2Proof.Machine

/-! ## The value of a link -/

/-- A tensor as it travels: element codes in order (bytes, of a GB16 tensor) and the block scales of an MX tensor. -/
structure LinkVal where
  codes : List Nat := []
  scales : List Byte := []

/-- The element codes of packed bytes of a tensor, in element order. -/
def Tens.codesOf (t : Tens) (bs : List Byte) : List Nat :=
  if t.fmt = 0x0A then bs.map BitVec.toNat
  else ((List.range t.rows).map (fun r =>
    (List.range t.n0).map (fun k => unpackElem t.fmt ((bs.drop (r * t.rowBytes)).take t.rowBytes) k))).flatten

/-- The packed bytes of a tensor from its element codes. -/
def Tens.bytesOf (t : Tens) (cs : List Nat) : List Byte :=
  if t.fmt = 0x0A then cs.map (BitVec.ofNat 8)
  else ((List.range t.rows).map (fun r => packRow t.fmt ((cs.drop (r * t.n0)).take t.n0))).flatten

/-- The block scales of an MX tensor. -/
def State.scaleBytes (s : State) (n : Nat) (t sc : Tens) : List Byte :=
  if isMx t.fmt then ((List.range t.rows).map (fun r => s.lbytes n sc.space (sc.rowAddr r) (t.n0 / 32))).flatten else []

/-- The value of a tensor in memory. -/
def State.linkRead (s : State) (n : Nat) (t sc : Tens) : LinkVal :=
  { codes := t.codesOf (s.packed n t), scales := s.scaleBytes n t sc }

/-- A state with a value laid down as a tensor. -/
def State.linkWrite (s : State) (n : Nat) (t sc : Tens) (v : LinkVal) : State :=
  let s1 := s.unpack n t (t.bytesOf v.codes)
  if isMx t.fmt then
    (List.range t.rows).foldl (fun st r =>
      st.lstore n sc.space (sc.rowAddr r) ((v.scales.drop (r * (t.n0 / 32))).take (t.n0 / 32))) s1
  else s1

/-- A descriptor moved to the place of a link's value: space 3 and a base. -/
def linkDesc (d : Desc) (base : Nat) : Desc :=
  let m : Desc := BitVec.ofNat 256 (2 ^ 64 - 1) ||| (BitVec.ofNat 256 3 <<< 230)
  (d &&& ~~~m) ||| BitVec.ofNat 256 base ||| (BitVec.ofNat 256 3 <<< 230)

/-- A scale descriptor moved there; its format, which is ignored (spec/04 Table 04-3), becomes that of one byte per block. -/
def linkScale (d : Desc) (base : Nat) : Desc :=
  let m : Desc := BitVec.ofNat 256 0x3F <<< 224
  (linkDesc d base &&& ~~~m) ||| (BitVec.ofNat 256 9 <<< 224)

/-- Memory without the values of links. -/
def Mem.dropLinks (m : Mem) : Mem := { m with cells := m.cells.filter (fun c => decide (c.1 < 2 ^ 62)) }

/-! ## Operands -/

/-- An operand of a command by its number: 1 ta, 2 tb, 3 tc. -/
def UCmd.operand (x : UCmd) (k : Nat) : Tens := match k with | 1 => x.tA | 2 => x.tB | _ => x.tC

/-- A command with one operand moved to a link's place. -/
def UCmd.linkIn (x : UCmd) (k : Nat) : UCmd :=
  match k with
  | 1 => { x with ta := linkDesc x.ta (2 ^ 50), sa := linkScale x.sa (2 ^ 50 + 2 ^ 49) }
  | 2 => { x with tb := linkDesc x.tb (2 ^ 50), sb := linkScale x.sb (2 ^ 50 + 2 ^ 49) }
  | 3 => { x with tc := linkDesc x.tc (2 ^ 50), sc := linkScale x.sc (2 ^ 50 + 2 ^ 49) }
  | _ => x

/-- The fields of an operand and of its scale descriptor. -/
def UCmd.operandSc (x : UCmd) (k : Nat) : Tens := match k with | 1 => x.tSa | 2 => x.tSb | _ => x.tSc

/-- A command with its destination moved to a link's place. -/
def UCmd.linkOut (x : UCmd) : UCmd := { x with td := linkDesc x.td 0, sd := linkScale x.sd (2 ^ 49) }

/-! ## Bytes from and to a ring or a stream (Table 08-7) -/

/-- The bytes that a linked operand takes from outside: those of the feed for CMM, else its packed bytes. -/
def feedBytes (x : UCmd) (k : Nat) : Nat :=
  let t := x.operand k
  if x.op = .cmm ∧ isMx t.fmt then t.bytes + t.count / 32 else t.bytes

/-- The pieces of a CMM's feed: chunk ascending, row ascending; first element and length. -/
def feedPieces (t : Tens) : List (Nat × Nat × Nat) :=
  let kappa := kappaOf t.fmt
  ((List.range (ceilDiv t.n0 kappa)).map (fun c =>
    (List.range t.n1).map (fun m => (m, c * kappa, Nat.min kappa (t.n0 - c * kappa))))).flatten

/-- The rows of a CMM's ta from its feed: codes and block scales by row. -/
def feedRows (t : Tens) (bs : List Byte) : List (List Nat × List Byte) :=
  let one := fun (acc : List Byte × Sparse (List Nat × List Byte)) (p : Nat × Nat × Nat) =>
    let nb := (p.2.2 * elemBits t.fmt + 7) / 8
    let ns := if isMx t.fmt then p.2.2 / 32 else 0
    let cs := (List.range p.2.2).map (unpackElem t.fmt (acc.1.take nb))
    let old := Sparse.get acc.2 ([], []) p.1
    (acc.1.drop (nb + ns), Sparse.put acc.2 p.1 (old.1 ++ cs, old.2 ++ ((acc.1.drop nb).take ns)))
  let r := (feedPieces t).foldl one (bs, [])
  (List.range t.n1).map (fun m => Sparse.get r.2 ([], []) m)

/-- The value of a linked operand from the bytes fed to it. The block scales that do not come with the bytes are read where its scale
descriptor names them (log 41). -/
def feedVal (s : State) (n : Nat) (x : UCmd) (k : Nat) (bs : List Byte) : LinkVal :=
  let t := x.operand k
  if x.op = .cmm then
    let rows := feedRows t bs
    { codes := (rows.map Prod.fst).flatten, scales := (rows.map Prod.snd).flatten }
  else { codes := t.codesOf bs, scales := s.scaleBytes n t (x.operandSc k) }

/-- The order in which an SMV hands over its elements: column group, vector, column (spec/07 R146). -/
def smvOrder (t : Tens) (cs : List Nat) : List Nat :=
  ((List.range (ceilDiv t.n0 4)).map (fun g =>
    (List.range t.n1).map (fun v =>
      (List.range (Nat.min 4 (t.n0 - 4 * g))).map (fun u => cs.getD (v * t.n0 + 4 * g + u) 0)))).flatten.flatten

/-- The value that a gate hands on, in the order it hands it over. -/
def handVal (x : UCmd) (v : LinkVal) : LinkVal := if x.op = .smv then { v with codes := smvOrder x.tD v.codes } else v

/-- The bytes of an output that goes to a ring or a stream. -/
def handBytes (x : UCmd) (v : LinkVal) : List Byte :=
  if x.op = .smv then packRow x.tD.fmt v.codes else x.tD.bytesOf v.codes

/-- The bytes an output takes. -/
def outBytes (x : UCmd) : Nat := x.tD.bytes

/-! ## Gates -/

/-- The effect of a gate's command, operands in place. A CMM that hands on its rows converts them as a CDRN does. -/
def gateRun (s : State) (n : Nat) (x : UCmd) (linked : Bool) : State × Flags :=
  match x.op with
  | .cmm =>
    let r := crvDone s (cmmRun s n x) n x
    if linked then
      let c := cdrnRun r.1 n { x with op := .cdrn }
      (c.1, r.2.or c.2)
    else r
  | .chb => crvDone s (chbRun s n x) n x
  | .smv => smvRun s n x
  | .gnrm | .gsmx | .gnrmb | .gsmxb => groomRun s n x
  | .spush | .spop | .spskip => snowRun s n x
  | _ => vecRun s n x

/-- One gate: lay its linked input down, run it, take its output up, write that to SRAM too when it has a tee. An SMV that adds to td (spec/05
R112) adds to the value held in td in SRAM, whether or not its output is linked. -/
def gateStep (s : State) (n : Nat) (g : Gate) (inp : Option LinkVal) : State × Flags × Option LinkVal :=
  let x := g.cmd
  let x1 := if inp.isSome then x.linkIn g.linkOp else x
  let x2 := if g.linked then x1.linkOut else x1
  let s1 := match inp with
    | some v => s.linkWrite n (x2.operand g.linkOp) (x2.operandSc g.linkOp) v
    | none => s
  let s1 := if x.op = .smv && x.ctl.getLsbD 0 && g.linked then s1.linkWrite n x2.tD x2.tSd (s.linkRead n x.tD x.tSd) else s1
  let r := gateRun (x.spoil n s1) n x2 g.linked
  if g.linked then
    let v := r.1.linkRead n x2.tD x2.tSd
    let s2 := x.spoil n (if g.tee then r.1.linkWrite n x.tD x.tSd v else r.1)
    ({ s2 with mem := s2.mem.dropLinks }, r.2, some (handVal x v))
  else
    let s2 := x.spoil n r.1
    ({ s2 with mem := s2.mem.dropLinks }, r.2, none)

/-- The gates of a command that compute, in order, from the bytes fed to the first: the state, the flags, the bytes handed out. -/
def gatesRun (s : State) (n : Nat) (gs : List Gate) (feed : Option (List Byte)) : State × Flags × List Byte :=
  match gs with
  | [] => (s, Flags.none, feed.getD [])
  | g0 :: _ =>
    let start := feed.map (fun bs => feedVal s n g0.cmd g0.linkOp bs)
    let r := gs.foldl (fun (p : State × Flags × Option LinkVal × Option UCmd) g =>
      let q := gateStep p.1 n g p.2.2.1
      (q.1, p.2.1.or q.2.1, q.2.2, some g.cmd)) (s, Flags.none, start, none)
    (r.1, r.2.1,
      match r.2.2.1, r.2.2.2 with
      | some v, some x => handBytes x v
      | _, _ => [])

/-! ## Aborts (spec/08 R189, spec/14 R313) -/

/-- A state in which a tensor and its block scales are undefined. -/
def State.undefBoth (s : State) (n : Nat) (t sc : Tens) : State :=
  let s1 := s.undefTens n t
  if isMx t.fmt then s1.undefTens n { sc with fmt := 9 } else s1

/-- A state in which what a command writes beside accumulators is undefined: its destination where that lies in SRAM, what a VOPT updates, the
statistics of a Groomer command, the digest of a CKDIG, the scale records it updates. -/
def undefDests (n : Nat) (x : UCmd) (td : Bool) (s : State) : State :=
  let s1 := if td && x.uses.1 then s.undefBoth n x.tD x.tSd else s
  let s2 :=
    if x.op = .vopt then
      ((s1.undefBoth n x.tA x.tSa).undefBoth n x.tC x.tSc).undefTens n (vTens x.tC (Hyper.of (s.lbytes n 1 (fieldOf x.ext 0 26) 64)).off)
    else s1
  let s3 := if x.stats && x.op ≠ .gnrmb then s2.lundef n 2 (8 * x.recBase) (8 * Nat.min x.tA.rows (131072 - x.recBase)) else s2
  let s4 := if x.op = .ckdig then s3.lundef n 1 (fieldOf x.ext 0 26) 64 else s3
  ((x.records s n).filter (·.2)).foldl (fun st r => st.lundef n 1 r.1 64) s4

/-- A state in which what a gate's command writes is undefined: the accumulator rows or tiles it names, and its destinations. A CMM that hands on its
rows converts them into td. -/
def undefGate (s : State) (n : Nat) (g : Gate) : State :=
  let x := g.cmd
  let s1 :=
    match x.op with
    | .cmm => s.accUndef n x.arr (accSpan x.wacc false x.row x.tA.n1)
    | .chb => s.accUndef n x.arr (accSpan x.wacc true x.tno 1)
    | _ => s
  undefDests n (if x.op = .cmm && g.linked then { x with op := .cdrn } else x) (!g.linked || g.tee) s1

end Sys2Proof.Machine
end

