-- ==== Sys2Proof/Machine/Atu.lean ====
section
/-! DEFINITION. Address translation (spec/03 R57-R61): page-table entries, walks, the two TLBs, and their commands. -/

namespace Sys2Proof.Machine

/-- What a translation gives: a global address, or a fault code. -/
inductive Xlat where
  | ok (gaddr : Nat)
  | fail (code : Nat)
  deriving DecidableEq, Repr

/-- Whether a local address lies in the device-register range (spec/02 Table 02-5). -/
def isDevice (a : Nat) : Bool := decide (0x30000000000 ≤ a ∧ a < 0x3000D000000)

/-- The permission check of a page for an access at a global address (spec/03 Table 03-9): an atomic needs `atom` alone. -/
def TlbEntry.allows (e : TlbEntry) (acc : Access) (gaddr : Nat) : Bool :=
  (match acc with | .read => e.r | .write => e.w | .atomic => e.atom) && (e.dev || !isDevice (gaddr % 2 ^ 42))

/-- The entry of a page made from a page-table word (spec/03 Table 03-8). -/
def tlbOf (page : Nat) (frame : Nat) (pte : W64) : TlbEntry :=
  { page := page, frame := frame, r := pte.getLsbD 2, w := pte.getLsbD 3, dev := pte.getLsbD 4, atom := pte.getLsbD 5 }

/-- A walk of the page tables of core `n` for a canonical address (spec/03 R57, R58, Table 03-9): whether the page is a 1 GiB
page, and its entry; or the code. -/
def State.walkTables (s : State) (n va : Nat) : Nat ⊕ (Bool × TlbEntry) :=
  let root := s.fld (F.CORE_ATU_ROOT n) * 2 ^ 21
  if s.edgeSize < root + 2 ^ 21 then .inl E.PT_INVALID
  else
    let e1 : W64 := BitVec.ofNat 64 (s.mem.nat (root + 8 * (va / 2 ^ 30)) 8)
    if !e1.getLsbD 0 then .inl E.PAGE_NOT_PRESENT
    else if e1.getLsbD 1 then
      if fieldOf e1 6 24 ≠ 0 then .inl E.PT_INVALID
      else .inr (true, tlbOf (va / 2 ^ 30) (fieldOf e1 30 34 * 2 ^ 30) e1)
    else
      let table := fieldOf e1 12 30 * 2 ^ 12
      if fieldOf e1 42 22 ≠ 0 ∨ fieldOf e1 6 6 ≠ 0 ∨ s.edgeSize < table + 4096 then .inl E.PT_INVALID
      else
        let e2 : W64 := BitVec.ofNat 64 (s.mem.nat (table + 8 * (va / 2 ^ 21 % 512)) 8)
        if !e2.getLsbD 0 then .inl E.PAGE_NOT_PRESENT
        else if fieldOf e2 6 15 ≠ 0 ∨ !e2.getLsbD 1 then .inl E.PT_INVALID
        else .inr (false, tlbOf (va / 2 ^ 21) (fieldOf e2 21 43 * 2 ^ 21) e2)

/-- The entries that a walk reads: that of the root table, and that of the second table where the first entry leads to one. -/
def State.walkReads (s : State) (n va : Nat) : List Nat :=
  let root := s.fld (F.CORE_ATU_ROOT n) * 2 ^ 21
  let a1 := root + 8 * (va / 2 ^ 30)
  let e1 : W64 := BitVec.ofNat 64 (s.mem.nat a1 8)
  let table := fieldOf e1 12 30 * 2 ^ 12
  if s.edgeSize < root + 2 ^ 21 then []
  else if !e1.getLsbD 0 ∨ e1.getLsbD 1 ∨ fieldOf e1 42 22 ≠ 0 ∨ fieldOf e1 6 6 ≠ 0 ∨ s.edgeSize < table + 4096 then [a1]
  else [a1, table + 8 * (va / 2 ^ 21 % 512)]

/-- The reads of a walk cross the fabric: their flits are counted (spec/10 R229). -/
def State.walkFlits (s : State) (n va : Nat) : State := (s.walkReads n va).foldl (fun st a => st.carry n a 0 8) s

/-- The cached translation of an address: whether it is of a 1 GiB page, and the entry. -/
def Core.tlbFind (c : Core) (va : Nat) : Option (Bool × TlbEntry) :=
  match c.tlb2.find? (fun e => e.page = va / 2 ^ 21) with
  | some e => some (false, e)
  | none => (c.tlb1.find? (fun e => e.page = va / 2 ^ 30)).map (fun e => (true, e))

/-- A core with an entry most recently used; a full TLB drops its least recently used entry (spec/03 R60). -/
def Core.tlbUse (c : Core) (big : Bool) (e : TlbEntry) : Core :=
  if big then { c with tlb1 := (e :: c.tlb1.filter (fun x => x.page ≠ e.page)).take 16 }
  else { c with tlb2 := (e :: c.tlb2.filter (fun x => x.page ≠ e.page)).take 64 }

/-- The global address of a virtual address on a page. -/
def TlbEntry.addr (e : TlbEntry) (big : Bool) (va : Nat) : Nat := e.frame + va % (if big then 2 ^ 30 else 2 ^ 21)

/-- Whether an entry leads to another node: a scalar access there faults with E_SPACE, which ranks before E_ALIGN and the codes of
translation (spec/04 Table 04-16). -/
def TlbEntry.elsewhere (e : TlbEntry) (s : State) (big : Bool) (va : Nat) : Bool := !s.isSelf (e.addr big va / 2 ^ 42)

/-- Check a found entry for an access. -/
def checkEntry (big : Bool) (e : TlbEntry) (va : Nat) (acc : Access) : Xlat :=
  let g := e.addr big va
  if e.allows acc g then .ok g else .fail E.PAGE_PERM

/-- Translation for a stream or a unit command (spec/03 R60): a miss only stalls it, so the walk is made in place and counted. -/
def State.xlat (s : State) (n va : Nat) (acc : Access) : State × Xlat :=
  if 2 ^ 48 ≤ va then (s, .fail E.VA_NONCANON)
  else
    match (s.core n).tlbFind va with
    | some (big, e) => (s.setCore n ((s.core n).tlbUse big e), checkEntry big e va acc)
    | none =>
      let s1 := (s.bump (F.CORE_ATU_MISS_CNT n)).walkFlits n va
      match s1.walkTables n va with
      | .inl code => (s1, .fail code)
      | .inr (big, e) =>
        match checkEntry big e va acc with
        | .fail code => (s1, .fail code)
        | .ok g => (s1.setCore n ((s1.core n).tlbUse big e), .ok g)

/-- ATU_WALK_RETURN (spec/03 R60): the oldest walk returns; the TLB fills and the context becomes READY, or the walk's fault is
taken. A page of another node faults with E_SPACE and a misaligned access with E_ALIGN, in this order before the translation codes (spec/04
Table 04-16). A walk whose entry forbids the access
does not fill the TLB: the manual says nothing of it (DESIGN CHOICE, log 16). -/
def walkReturn (n : Nat) (s : State) : State :=
  let c := s.core n
  match c.walks with
  | [] => s
  | w :: ws =>
    let s1 := (s.setCore n { c with walks := ws }).walkFlits n w.va
    let x := s1.ctx n w.ctx
    if x.inc ≠ w.inc ∨ x.st ≠ .waiting ∨ x.wait ≠ .walk then s1
    else
      let bad := fun (code : Nat) => s1.faultCtx n w.ctx (if w.misaligned then E.ALIGN else code) w.va
      match s1.walkTables n w.va with
      | .inl code => bad code
      | .inr (big, e) =>
        match checkEntry big e w.va w.acc with
        | .fail code => if e.elsewhere s1 big w.va then s1.faultCtx n w.ctx E.SPACE w.va else bad code
        | .ok _ => (s1.setCore n ((s1.core n).tlbUse big e)).makeReady n w.ctx

/-- ATU_WALK_RETURN. -/
def execAtuWalkReturn (core : BitVec 10) (s : State) : Host.Outcome State Fault Refusal :=
  go (s.unlessStopped core.toNat (walkReturn core.toNat))

/-- A write to CORE_ATU_INVAL (spec/03 R61): one address, or all with its all bit. A walk in flight is read from the tables when
it returns, so it cannot install a stale entry. -/
def atuInval (n : Nat) (v : W64) (s : State) : State :=
  let c := s.core n
  let va := fieldOf v 0 48
  if v.getLsbD 63 then s.setCore n { c with tlb1 := [], tlb2 := [], invalBusy := true }
  else s.setCore n { c with
    tlb1 := c.tlb1.filter (fun e => e.page ≠ va / 2 ^ 30)
    tlb2 := c.tlb2.filter (fun e => e.page ≠ va / 2 ^ 21)
    invalBusy := true }

/-- ATU_INVAL_DONE (spec/03 R61): inval_busy reads 0 again; not in HOLD, in which no unit advances (spec/15 R352). -/
def execAtuInvalDone (core : BitVec 10) (s : State) : Host.Outcome State Fault Refusal :=
  go (if s.flag F.PWR_STS_hold then s else s.setCore core.toNat { s.core core.toNat with invalBusy := false })

end Sys2Proof.Machine
end

