-- ==== Sys2Proof/Machine/Control.lean ====
section
/-! DEFINITION. Branches, context control, synchronisation and descriptor moves (spec/04 R79, R82-R84), and the writes to the
context registers of a core (spec/19 R441). -/

namespace Sys2Proof.Machine

/-! ## Descriptor moves (spec/04 R82, op 0x0C) -/

/-- A descriptor with one 64-bit word replaced. -/
def Desc.setWord (t : Desc) (w : Nat) (v : W64) : Desc :=
  let mask : Desc := BitVec.ofNat 256 (2 ^ 64 - 1) <<< (64 * w)
  (t &&& ~~~mask) ||| (v.setWidth 256 <<< (64 * w))

/-- TSET: word aux[1:0] of t[d] = s[a]. -/
def execTset (i : IA) (s : State) : Host.Outcome State Fault Refusal :=
  go (issue i.n i.k i.pg i.pn 8 (i.legal true true false false false 3 && descField i.d) [i.a.toNat] [i.d.toNat] s fun s =>
    let x := s.ctx i.n i.k
    s.setCtx i.n i.k ((x.setTr i.d.toNat (Desc.setWord (x.tr i.d.toNat) (fieldOf i.aux 0 2) (x.sr i.a.toNat))).adv 8))

/-- TGET: s[d] = word aux[1:0] of t[a]. -/
def execTget (i : IA) (s : State) : Host.Outcome State Fault Refusal :=
  go (issue i.n i.k i.pg i.pn 8 (i.legal true true false false false 3 && descField i.a) [] [i.a.toNat] s fun s =>
    let x := s.ctx i.n i.k
    s.setCtx i.n i.k ((x.setSr i.d.toNat (bitsOf (x.tr i.a.toNat) (64 * fieldOf i.aux 0 2) 64)).adv 8))

/-- TMOV: t[d] = t[a]. -/
def execTmov (i : IA) (s : State) : Host.Outcome State Fault Refusal :=
  go (issue i.n i.k i.pg i.pn 8 (i.legal true true false false false 0 && descField i.d && descField i.a) []
      [i.d.toNat, i.a.toNat] s fun s =>
    let x := s.ctx i.n i.k
    s.setCtx i.n i.k ((x.setTr i.d.toNat (x.tr i.a.toNat)).adv 8))

/-- SCALAR_LOAD_RETURN (spec/04 R76): the oldest outstanding load of a context writes its register. -/
def loadReturn (n k : Nat) (s : State) : State :=
  let x := s.ctx n k
  match x.loads with
  | [] => s
  | l :: ls =>
    let y := { x with loads := ls }
    s.setCtx n k
      (if l.desc then y.setTr l.reg l.data else if l.reg = 0 then y else { y with s := Sparse.put y.s l.reg (l.data.setWidth 64) })

/-- SCALAR_LOAD_RETURN. -/
def execScalarLoadReturn (core : BitVec 10) (ctx : BitVec 3) (s : State) : Host.Outcome State Fault Refusal :=
  go (s.unlessStopped core.toNat (loadReturn core.toNat ctx.toNat))

/-! ## Branches (spec/04 R73, R83) -/

/-- Go to a target, or fault with E_PC_ALIGN without effect; `f` is the rest of the branch's effect. -/
def branchTo (n k : Nat) (target : W64) (f : Ctx → Ctx) (s : State) : State :=
  if pcOk target.toNat then s.setCtx n k { f (s.ctx n k) with pc := target.toNat }
  else s.faultCtx n k E.PC_ALIGN (s.ctx n k).pc

/-- The target of a relative branch: PC + 8·imm. -/
def relTarget (pc : Nat) (imm : W64) : W64 := BitVec.ofNat 64 pc + 8 * imm

/-- BR. -/
def execBr (i : IB) (s : State) : Host.Outcome State Fault Refusal :=
  go (issue i.n i.k i.pg i.pn 8 (i.legal false false false) [] [] s fun s =>
    branchTo i.n i.k (relTarget (s.ctx i.n i.k).pc i.value) id s)

/-- JAL: s[d] = PC + 8. -/
def execJal (i : IB) (s : State) : Host.Outcome State Fault Refusal :=
  go (issue i.n i.k i.pg i.pn 8 (i.legal false true false) [] [] s fun s =>
    let pc := (s.ctx i.n i.k).pc
    branchTo i.n i.k (relTarget pc i.value) (fun x => x.setSr i.d.toNat (BitVec.ofNat 64 (pc + 8))) s)

/-- JR: PC = s[a] + imm. -/
def execJr (i : IB) (s : State) : Host.Outcome State Fault Refusal :=
  go (issue i.n i.k i.pg i.pn 8 (i.legal false false true) [i.a.toNat] [] s fun s =>
    branchTo i.n i.k ((s.ctx i.n i.k).sr i.a.toNat + i.value) id s)

/-! ## Contexts (spec/04 R79, R83) -/

/-- Whether a context still has a remote operation in the stream engine (spec/04 R79, spec/08 R173). -/
def Core.remoteBusy (c : Core) (k inc : Nat) : Bool :=
  c.sq.any (fun q => match q with | .remote x => decide (x.ctx = k ∧ x.inc = inc) | _ => false)
    || c.slots.any (fun p => decide (p.2.ctx = k ∧ p.2.inc = inc))

/-- A context that waits in END becomes FREE once its remote operations have completed. -/
def State.endWaiters (s : State) (n : Nat) : State :=
  (List.range 8).foldl (fun st k =>
    let x := st.ctx n k
    if x.st = .waiting ∧ x.wait = .endFence ∧ !(st.core n).remoteBusy k x.inc then st.freeCtx n k else st) s

/-- CSTART: starts context s[a] at PC s[b] with s1 = s[c]; pd says whether it did (spec/04 R83). -/
def execCstart (i : IA) (s : State) : Host.Outcome State Fault Refusal :=
  go (issue i.n i.k i.pg i.pn 8 (i.legal false true true true true 0) [i.a.toNat, i.b.toNat, i.c.toNat] [] s fun s =>
    let x := s.ctx i.n i.k
    let j := (x.sr i.a.toNat).toNat
    let pc := (x.sr i.b.toNat).toNat
    if !pcOk pc then s.faultCtx i.n i.k E.PC_ALIGN x.pc
    else if j < 8 ∧ (s.ctx i.n j).st = .free then
      (s.setCtx i.n i.k ((x.setPr i.pd.toNat true).adv 8)).startCtx i.n j pc (x.sr i.c.toNat) []
    else s.setCtx i.n i.k ((x.setPr i.pd.toNat false).adv 8))

/-- END: waits for the context's remote operations, then frees the context (spec/04 R79, R457). -/
def execEndCtx (i : IA) (s : State) : Host.Outcome State Fault Refusal :=
  go (issue i.n i.k i.pg i.pn 8 (i.legal false false false false false 0) [] [] s fun s =>
    if (s.core i.n).remoteBusy i.k (s.ctx i.n i.k).inc then s.makeWait i.n i.k .endFence
    else s.freeCtx i.n i.k)

/-- The value of an RDSYS item (spec/04 Table 04-8). The cycles of item 3 are a free value (log 5). -/
def sysItem (n k : Nat) (item : Nat) (s : State) : W64 :=
  match item with
  | 0 => BitVec.ofNat 64 n
  | 1 => BitVec.ofNat 64 k
  | 2 => s.fieldTime (s.siteOf n / 16)
  | 3 => Config.freeWord s.free
  | 4 => BitVec.ofNat 64 s.node
  | 5 => BitVec.ofNat 64 (bit s.halfMode)
  | _ => (s.ctx n k).csw k

/-- A context with its sticky flags clear. -/
def Ctx.clearFlags (x : Ctx) : Ctx := { x with nv := false, of := false, sat := false, psn := false }

/-- RDSYS. -/
def execRdsys (i : IA) (s : State) : Host.Outcome State Fault Refusal :=
  let item := fieldOf i.aux 0 4
  go (issue i.n i.k i.pg i.pn 8 (i.legal true false false false false 0xF && decide (item < 8)) [] [] s fun s =>
    let x := s.ctx i.n i.k
    let y := if item = 7 then x.clearFlags else x
    (s.setCtx i.n i.k ((y.setSr i.d.toNat (sysItem i.n i.k item s)).adv 8)).tick)

/-- IFENCE: fetch resumes from SRAM. An issue command carries its word, so nothing fetched is held in the state (log 10). -/
def execIfence (i : IA) (s : State) : Host.Outcome State Fault Refusal :=
  go (issue i.n i.k i.pg i.pn 8 (i.legal false false false false false 0) [] [] s fun s => s.advance i.n i.k 8)

/-- NOP. -/
def execNop (i : IA) (s : State) : Host.Outcome State Fault Refusal :=
  go (issue i.n i.k i.pg i.pn 8 (i.legal false false false false false 0) [] [] s fun s => s.advance i.n i.k 8)

/-- WAITP: waits while predicate aux[2:0] reads 0. -/
def execWaitp (i : IA) (s : State) : Host.Outcome State Fault Refusal :=
  go (issue i.n i.k i.pg i.pn 8 (i.legal false false false false false 7) [] [] s fun s =>
    let p := fieldOf i.aux 0 3
    if (s.ctx i.n i.k).pr p then s.advance i.n i.k 8 else s.makeWait i.n i.k (.pred p))

/-! ## Barriers and event flags (spec/04 R84) -/

/-- A context that waits has its instruction complete: it passes it and becomes READY. -/
def State.releaseCtx (s : State) (n k : Nat) : State := (s.advance n k 8).makeReady n k

/-- BAR: arrives at barrier aux[2:0] with count s[a]. -/
def execBar (i : IA) (s : State) : Host.Outcome State Fault Refusal :=
  go (issue i.n i.k i.pg i.pn 8 (i.legal false true false false false 7) [i.a.toNat] [] s fun s =>
    let x := s.ctx i.n i.k
    let c := s.core i.n
    let b := fieldOf i.aux 0 3
    let bar := Sparse.get c.bars {} b
    let cnt := (x.sr i.a.toNat).toNat
    if cnt = 0 ∨ 8 < cnt ∨ (bar.count ≠ 0 ∧ bar.count ≠ cnt) then s.faultCtx i.n i.k E.BAR_COUNT x.pc
    else if bar.arrived.length + 1 = cnt then
      let s1 := (s.setCore i.n { c with bars := Sparse.put c.bars b {} }).advance i.n i.k 8
      bar.arrived.foldl (fun st k => st.releaseCtx i.n k) s1
    else
      (s.setCore i.n { c with bars := Sparse.put c.bars b { count := cnt, arrived := bar.arrived ++ [i.k] } }).makeWait i.n i.k (.barrier b))

/-- Set one event flag of a core: the lowest-numbered context that waits on it is released and the flag reads clear, or the flag is
set. -/
def State.setEvent (s : State) (n f : Nat) : State :=
  match (List.range 8).find? (fun k => decide ((s.ctx n k).st = .waiting ∧ (s.ctx n k).wait = .event f)) with
  | some k => s.releaseCtx n k
  | none => s.setCore n { s.core n with ev := (s.core n).ev ||| (1 <<< f : BitVec 32) }

/-- An engine sets an event flag of a core; in HOLD the core is kept as it is, and gets the flag at the exit (spec/15 R352). -/
def State.giveEvent (s : State) (n f : Nat) : State :=
  if s.flag F.PWR_STS_hold then { s with later := s.later ++ [.event n f] } else s.setEvent n f

/-- Set the event flags of a mask, lowest first (spec/04 R84). -/
def State.setEvents (s : State) (n : Nat) (mask : BitVec 32) : State :=
  (List.range 32).foldl (fun st f => if mask.getLsbD f then st.setEvent n f else st) s

/-- EVSIG: sets flag aux[4:0]. -/
def execEvsig (i : IA) (s : State) : Host.Outcome State Fault Refusal :=
  go (issue i.n i.k i.pg i.pn 8 (i.legal false false false false false 31) [] [] s fun s =>
    (s.advance i.n i.k 8).setEvent i.n (fieldOf i.aux 0 5))

/-- EVWAIT: waits until flag aux[4:0] is set, then clears it. -/
def execEvwait (i : IA) (s : State) : Host.Outcome State Fault Refusal :=
  go (issue i.n i.k i.pg i.pn 8 (i.legal false false false false false 31) [] [] s fun s =>
    let f := fieldOf i.aux 0 5
    let c := s.core i.n
    if c.ev.getLsbD f then (s.setCore i.n { c with ev := c.ev &&& ~~~(1 <<< f : BitVec 32) }).advance i.n i.k 8
    else s.makeWait i.n i.k (.event f))

/-- CTX_SLICE_EXPIRY (spec/03 R43): with the slice on and another context READY, the RUNNING context returns to READY and the
control processor switches. -/
def sliceExpiry (n : Nat) (s : State) : State :=
  match (s.core n).running with
  | none => s
  | some k =>
    if s.fld (F.CORE_CTX_SLICE_cycles n) = 0 ∨ ((s.core n).nextReady k).isNone then s
    else (s.setCtx n k { s.ctx n k with st := .ready }).select n

/-- CTX_SLICE_EXPIRY. -/
def execCtxSliceExpiry (core : BitVec 10) (s : State) : Host.Outcome State Fault Refusal :=
  go (s.unlessStopped core.toNat (sliceExpiry core.toNat))

/-! ## Writes to the context registers of a core -/

/-- The descriptors a start by register loads (spec/19 R441): t_i from 32 B at desc + 32·i for each bit i of the mask; one that
leaves SRAM is zero (log 11). -/
def startDescs (n mask desc : Nat) (s : State) : Sparse Desc :=
  ((List.range 16).filter (fun i => Nat.testBit mask i)).map (fun i =>
    (i, if desc + 32 * i + 32 ≤ 0x3000000
        then BitVec.ofNat 256 (s.mem.nat (0x20000000000 + 0x4000000 * n + desc + 32 * i) 32) else 0))

/-- A held or immediate start by register. -/
def startNow (h : HeldStart) (s : State) : State :=
  if (s.ctx h.core h.ctx).st = .free then
    s.startCtx h.core h.ctx h.pc h.arg (startDescs h.core h.mask h.desc s)
  else s

/-- A write to W0 of CORE_CTX_START (spec/19 R441, spec/15 R341): the arguments are taken as they stand; at a site in RET the start
is held until the site is in IDLE, and the site leaves RET; at a site in OFF it has no effect. -/
def ctxStart (n : Nat) (v : W64) (s : State) : State :=
  let h : HeldStart :=
    { core := n, ctx := fieldOf v 0 3, pc := s.fld (F.CORE_CTX_START_pc n) * 8,
      arg := s.reg (F.CORE_CTX_START_arg n).addr, mask := s.fld (F.CORE_CTX_START_mask n),
      desc := s.fld (F.CORE_CTX_START_desc n) * 32 }
  let p := s.siteOf n
  if s.sitePower p = 0 then s
  else if s.sitePower p = 1 then
    { s with heldStarts := s.heldStarts ++ [h], trans := Sparse.put s.trans p 2 }
  else startNow h (s.kick n)

/-- CORE_CTX_START_WRITE. -/
def execCoreCtxStartWrite (core : BitVec 10) (value : W64) (s : State) : Host.Outcome State Fault Refusal :=
  go (if core.toNat < s.ncores ∧ s.sitePower (s.siteOf core.toNat) = 1 then ctxStart core.toNat value s
    else s.atCore core.toNat (ctxStart core.toNat value))

/-- A write to CORE_CTX_RESUME (spec/03 R63): each named FAULTED context becomes READY; it executes its instruction again. -/
def ctxResume (n : Nat) (v : W64) (s : State) : State :=
  (List.range 8).foldl (fun st k => if v.getLsbD k && decide ((st.ctx n k).st = .faulted) then st.makeReady n k else st) s

/-- CORE_CTX_RESUME_WRITE. -/
def execCoreCtxResumeWrite (core : BitVec 10) (value : W64) (s : State) : Host.Outcome State Fault Refusal :=
  go (s.atCore core.toNat (ctxResume core.toNat value))

/-- A write to CORE_CTX_KILL (spec/03 R63): each named FAULTED context becomes FREE. -/
def ctxKill (n : Nat) (v : W64) (s : State) : State :=
  (List.range 8).foldl (fun st k => if v.getLsbD k && decide ((st.ctx n k).st = .faulted) then st.freeCtx n k else st) s

/-- CORE_CTX_KILL_WRITE. -/
def execCoreCtxKillWrite (core : BitVec 10) (value : W64) (s : State) : Host.Outcome State Fault Refusal :=
  go (s.atCore core.toNat (ctxKill core.toNat value))

/-- A write to CORE_EV_SET (spec/04 R84): work for the site, and the flags are set. -/
def evSet (n : Nat) (v : W64) (s : State) : State := (s.kick n).setEvents n (v.setWidth 32)

/-- CORE_EV_SET_WRITE. -/
def execCoreEvSetWrite (core : BitVec 10) (value : W64) (s : State) : Host.Outcome State Fault Refusal :=
  go (s.atCore core.toNat (evSet core.toNat value))

/-- CORE_ATU_INVAL_WRITE. -/
def execCoreAtuInvalWrite (core : BitVec 10) (value : W64) (s : State) : Host.Outcome State Fault Refusal :=
  go (s.atCore core.toNat (atuInval core.toNat value))

end Sys2Proof.Machine
end

