-- ==== Sys2Proof/Machine/Streams.lean ====
section
/-! DEFINITION. The stream engine of a core (spec/08 R166-R182, spec/04 R92): rings and chairs, transfer lists, transfer slots, Slalom
commands in progress, halts. `settle` lets everything go on that can go on without an answer from outside. -/

namespace Sys2Proof.Machine

/-! ## Rings and chairs (spec/08 R166, R167) -/

/-- A ring of a core and its replacement. -/
def State.ring (s : State) (n r : Nat) : Ring := Sparse.get (s.core n).rings {} r
def State.setRing (s : State) (n r : Nat) (g : Ring) : State := s.setCore n { s.core n with rings := Sparse.put (s.core n).rings r g }

/-- d(a, b) = (a − b) mod 2n. -/
def Ring.dist (g : Ring) (a b : Nat) : Nat := (a + 2 * g.n - b) % (2 * g.n)

/-- The SRAM offset of the chair that a count names. -/
def Ring.chairAt (g : Ring) (x : Nat) : Nat := g.base + x % g.n * g.cbytes

/-- Acquire the next chair at an end. -/
def Ring.take (g : Ring) (producer : Bool) : Option (Nat × Ring) :=
  if producer then
    if g.dist g.pa g.cr < g.n then some (g.pa, { g with pa := (g.pa + 1) % (2 * g.n) }) else none
  else
    if 0 < g.dist g.pr g.ca then some (g.ca, { g with ca := (g.ca + 1) % (2 * g.n) }) else none

/-- Advance a release count over every consecutive done chair. -/
def doneAdvance (m : Nat) : Nat → Nat → List Nat → Nat × List Nat
  | 0, p, d => (p, d)
  | fuel + 1, p, d => if d.contains p then doneAdvance m fuel ((p + 1) % m) (d.filter (· ≠ p)) else (p, d)

/-- Release a chair at an end. -/
def Ring.give (g : Ring) (producer : Bool) (x : Nat) : Ring :=
  if producer then
    let r := doneAdvance (2 * g.n) g.n g.pr (x :: g.pdone)
    { g with pr := r.1, pdone := r.2 }
  else
    let r := doneAdvance (2 * g.n) g.n g.cr (x :: g.cdone)
    { g with cr := r.1, cdone := r.2 }

/-- Wake the contexts that wait at an end of a ring (R170). -/
def State.wakeRing (s : State) (n r : Nat) (consumer : Bool) : State := s.wakeAll n (fun w => w = .ring r consumer)

/-- A state with a ring replaced; contexts wake at the end that a published or returned chair concerns. -/
def State.putRing (s : State) (n r : Nat) (g : Ring) : State :=
  let old := s.ring n r
  let s1 := s.setRing n r g
  let s2 := if g.pr ≠ old.pr then s1.wakeRing n r true else s1
  if g.cr ≠ old.cr then s2.wakeRing n r false else s2

/-- Whether a command waits in the stream engine's queue or runs as a list of a ring, in a direction, as a stream or for a chain. -/
def Core.hasList (c : Core) (r : Nat) (inbound : Bool) : Bool :=
  (Sparse.get c.rings {} r).lists.any (fun l => l.chain.isNone && l.inbound = inbound)
    || c.sq.any (fun q => match q with | .list r' l => decide (r' = r) && l.chain.isNone && l.inbound = inbound | _ => false)

/-- Whether a Slalom command holds an end of a ring (R168, R187, R188). -/
def Core.gateHolds (c : Core) (r : Nat) (producer : Bool) : Bool :=
  c.chains.any (fun ch => ch.gates.any (fun g => g.ring = some r) || (if producer then ch.outRing = some r else ch.inRing = some r))

/-- Whether a context holds an acquired chair at an end, a forgotten one included; a chair that an aborted stream or gate has left is no
context's (R168). -/
def Ring.acquired (g : Ring) (producer : Bool) : Bool := if producer then !g.pleft && g.pa ≠ g.pr else !g.cleft && g.ca ≠ g.cr

/-- Who holds an end (spec/19 CORE_RING_STS): 0 none, 1 context, 2 stream, 3 gate. -/
def State.endHolder (s : State) (n r : Nat) (producer : Bool) : Nat :=
  let c := s.core n
  if c.gateHolds r producer then 3
  else if c.hasList r producer then 2
  else if (s.ring n r).acquired producer then 1 else 0

/-! ## Transfer descriptors (spec/08 R176) -/

/-- The fields of a transfer descriptor. -/
structure XDesc where
  addr : Nat
  len : Nat
  rows : Nat
  space : Nat
  eoc : Bool
  nomerge : Bool
  zero : Bool
  vc : Nat
  pitch : Nat

/-- Read a descriptor; none when it is faulty (R177). -/
def readDesc (s : State) (n off : Nat) (inbound : Bool) : Option XDesc :=
  let d : Desc := BitVec.ofNat 256 (leNat (s.lbytes n 1 off 32))
  let x : XDesc :=
    { addr := fieldOf d 0 64, len := fieldOf d 64 32, rows := fieldOf d 96 16 + 1, space := fieldOf d 112 2,
      eoc := d.getLsbD 114, nomerge := d.getLsbD 115, zero := d.getLsbD 116, vc := fieldOf d 117 4, pitch := fieldOf d 128 32 }
  if fieldOf d 121 7 ≠ 0 ∨ fieldOf d 160 96 ≠ 0 ∨ x.space = 3 ∨ (x.zero ∧ !inbound) then none else some x

/-- Whether a descriptor may be merged with its neighbours (R178). -/
def XDesc.merges (d : XDesc) : Bool := d.rows = 1 && !d.nomerge && !d.zero

/-- The bytes of a request that starts at an address: up to the next 2 KiB boundary. -/
def cutAt (a len : Nat) : Nat := Nat.min len (2048 - a % 2048)

/-- Merge the descriptors that follow one that ends here into the request. -/
def extendReq (s : State) (n : Nat) (l : XList) : Nat → Nat → Nat → Req → Req
  | 0, _, _, q => q
  | fuel + 1, j, ends, q =>
    if l.count ≤ j ∨ (0 < q.len ∧ (q.addr + q.len) % 2048 = 0) then q
    else
      match readDesc s n (l.base + 32 * j) l.inbound with
      | none => q
      | some e =>
        if e.merges && decide (e.space = q.space ∧ e.vc = q.vc ∧ e.addr = ends) then
          let k := cutAt (q.addr + q.len) e.len
          let q1 := { q with
            len := q.len + k
            segs := q.segs ++ [{ desc := j, row := 0, off := 0, len := k, eoc := e.eoc && k = e.len }]
            next := if k = e.len then (j + 1, 0, 0) else (j, 0, k) }
          if k = e.len then extendReq s n l fuel (j + 1) (e.addr + e.len) q1 else q1
        else q

/-- Whether a list has still to read or write a range of SRAM: through its own descriptors or a place of space 1 that one of them names (R169). -/
def XList.reaches (s : State) (n : Nat) (l : XList) (a len : Nat) : Bool :=
  let meets := fun (b k : Nat) => decide (0 < k ∧ b < a + len ∧ a < b + k)
  meets (l.base + 32 * l.desc) (32 * (l.count - l.desc)) ||
    (List.range (l.count - l.desc)).any (fun j =>
      match readDesc s n (l.base + 32 * (l.desc + j)) l.inbound with
      | some d => d.space = 1 && !d.zero && (List.range d.rows).any (fun k => meets (d.addr + k * d.pitch) d.len)
      | none => false)

/-- What comes next in a list: a faulty descriptor, or a request (spec/08 R178). A descriptor of empty rows is one piece of no bytes. -/
def nextReq (s : State) (n : Nat) (l : XList) : Option Req :=
  (readDesc s n (l.base + 32 * l.desc) l.inbound).map (fun d =>
    if d.len = 0 then
      { space := d.space, addr := d.addr, vc := d.vc, zero := d.zero,
        segs := [{ desc := l.desc, row := d.rows - 1, off := 0, len := 0, eoc := d.eoc }], next := (l.desc + 1, 0, 0) }
    else
      let a := (d.addr + l.row * d.pitch + l.off) % 2 ^ 64
      let k := if d.zero then Nat.min (d.len - l.off) 2048 else cutAt a (d.len - l.off)
      let ends := decide (l.off + k = d.len)
      let last := decide (l.row + 1 = d.rows)
      let q : Req :=
        { space := d.space, addr := a, len := k, vc := d.vc, zero := d.zero,
          segs := [{ desc := l.desc, row := l.row, off := l.off, len := k, eoc := d.eoc && ends && last }]
          next := if !ends then (l.desc, l.row, l.off + k) else if last then (l.desc + 1, 0, 0) else (l.desc, l.row + 1, 0) }
      if d.merges && ends then extendReq s n l 63 (l.desc + 1) (d.addr + d.len) q else q)

/-- The first `k` bytes of a request, and the position after them. -/
def Req.trim (q : Req) (k : Nat) : Req :=
  let r := q.segs.foldl (fun (p : Nat × List Seg × (Nat × Nat × Nat)) g =>
    if p.1 = 0 then p
    else if g.len ≤ p.1 then (p.1 - g.len, p.2.1 ++ [g], (g.desc, g.row, g.off + g.len))
    else (0, p.2.1 ++ [{ g with len := p.1, eoc := false }], (g.desc, g.row, g.off + p.1))) (k, [], q.next)
  if q.len ≤ k then q else { q with len := k, segs := r.2.1, next := r.2.2 }

/-! ## Halts (spec/08 R179, R180) -/

/-- A stream halts at the position of its list: the registers, the event and the counter; requests after the position are forgotten. -/
def ringHalt (n r : Nat) (l : XList) (code addr : Nat) (s0 : State) : State :=
  let s := s0.forget (.ring n r)
  let g := s.ring n r
  let (chair, off) := match l.chair with
    | some x => (x % g.n, l.coff)
    | none => (if l.chain.isSome then (0, 0) else ((if l.inbound then g.pa else g.ca) % g.n, 0))
  let s1 := s.setRing n r { g with halt := some code, lists := { l with reqs := [] } :: g.lists.drop 1 }
  let s2 := (s1.setFld (F.CORE_RING_FAULT_code n r) code).setFld (F.CORE_RING_FAULT_addr n r) addr
  let s3 := (((s2.setFld (F.CORE_RING_FPOS_slot n r) l.slot).setFld (F.CORE_RING_FPOS_desc n r) l.desc).setFld
    (F.CORE_RING_FPOS_row n r) l.row).setFld (F.CORE_RING_FPOS_byte n r) l.off
  let s4 := (s3.setFld (F.CORE_RING_FPOS_chair n r) chair).setFld (F.CORE_RING_FPOS_chair_off n r) off
  (s4.raiseCore EV.STREAM_HALT n (leBytes 2 n ++ leBytes 1 r ++ leBytes 2 code)).bump (F.CORE_STR_HALT_CNT n)

/-- The list whose first request failed, back at its position: an outbound one acquires its chairs again. -/
def failReq (g : Ring) (l : XList) (q : Req) : Ring × XList :=
  match l.inbound, q.mark with
  | false, some x => ({ g with ca := (x + 1) % (2 * g.n) }, { l with reqs := [], chair := some x, coff := q.moff })
  | _, _ => (g, { l with reqs := [] })

/-- A state with request `j` of the running list replaced. -/
def setReq (n r : Nat) (s : State) (g : Ring) (l : XList) (j : Nat) (q : Req) : State :=
  s.setRing n r { g with lists := { l with reqs := l.reqs.set j q } :: g.lists.drop 1 }

/-- Request `j` of the running list fails: the stream halts once every request before it has ended (R180). -/
def ringFail (n r j code : Nat) (s : State) : State :=
  let g := s.ring n r
  match g.lists with
  | [] => s
  | l :: _ =>
    match l.reqs[j]? with
    | none => s
    | some q =>
      if j ≠ 0 then setReq n r s g l j { q with stage := .failed, code := code }
      else
        let p := failReq g l q
        ringHalt n r p.2 code q.addr (s.setRing n r p.1)

/-! ## Moving bytes (spec/08 R177) -/

/-- Place the data of an inbound request in chairs, as far as chairs can be acquired. -/
def placeLoop (n : Nat) : Nat → State → Ring → XList → Req → State × Ring × XList × Req
  | 0, s, g, l, q => (s, g, l, q)
  | fuel + 1, s, g, l, q =>
    match q.segs[q.si]? with
    | none => (s, g, l, q)
    | some sg =>
      if q.so < sg.len then
        match l.chair with
        | none =>
          match g.take true with
          | none => (s, g, l, q)
          | some (x, g1) => placeLoop n fuel s g1 { l with chair := some x, coff := 0 } q
        | some x =>
          let c := Nat.min (sg.len - q.so) (g.cbytes - l.coff)
          let s1 := s.lstore n 1 (g.chairAt x + l.coff) (q.data.take c)
          let q1 := { q with so := q.so + c, data := q.data.drop c }
          if l.coff + c = g.cbytes then placeLoop n fuel s1 (g.give true x) { l with chair := none, coff := 0 } q1
          else placeLoop n fuel s1 g { l with coff := l.coff + c } q1
      else
        let q1 := { q with si := q.si + 1, so := 0 }
        match sg.eoc, l.chair with
        | true, some x =>
          placeLoop n fuel (s.lundef n 1 (g.chairAt x + l.coff) (g.cbytes - l.coff)) (g.give true x) { l with chair := none, coff := 0 } q1
        | _, _ => placeLoop n fuel s g l q1

/-- Collect the data of an outbound request from chairs. A request that has read every chair of its ring ends there (log 32). -/
def gatherLoop (s : State) (n : Nat) : Nat → Ring → XList → Req → Ring × XList × Req
  | 0, g, l, q => (g, l, q)
  | fuel + 1, g, l, q =>
    match q.segs[q.si]? with
    | none => (g, l, q)
    | some sg =>
      if q.so < sg.len then
        match l.chair with
        | none =>
          match g.take false with
          | none =>
            if g.n ≤ q.rel.length then
              let t := q.trim q.data.length
              (g, l, { t with si := t.segs.length, so := 0 })
            else (g, l, q)
          | some (x, g1) =>
            gatherLoop s n fuel g1 { l with chair := some x, coff := 0 }
              (if q.mark.isNone then { q with mark := some x, moff := 0 } else q)
        | some x =>
          let c := Nat.min (sg.len - q.so) (g.cbytes - l.coff)
          let q1 := { q with so := q.so + c, data := q.data ++ s.lbytes n 1 (g.chairAt x + l.coff) c }
          if l.coff + c = g.cbytes then
            gatherLoop s n fuel g { l with chair := none, coff := 0 } { q1 with rel := q1.rel ++ [x] }
          else gatherLoop s n fuel g { l with coff := l.coff + c } q1
      else
        let q1 := { q with si := q.si + 1, so := 0 }
        match sg.eoc, l.chair with
        | true, some x => gatherLoop s n fuel g { l with chair := none, coff := 0 } { q1 with rel := q1.rel ++ [x] }
        | _, _ => gatherLoop s n fuel g l q1

/-- Steps that the loops may take for a request. -/
def Req.fuel (q : Req) : Nat := 3 * (q.len + q.segs.length + 1)

/-- A chain of a core, and a core with one replaced. -/
def Core.chain (c : Core) (id : Nat) : Option Chain := c.chains.find? (fun ch => ch.id = id)
def Core.setChain (c : Core) (ch : Chain) : Core := { c with chains := c.chains.map (fun x => if x.id = ch.id then ch else x) }

/-- A state in which a stream-out gate has given away bytes of its chain's output. -/
def chainTaken (n : Nat) (l : XList) (k : Nat) (s : State) : State :=
  match l.inbound, l.chain.bind ((s.core n).chain ·) with
  | false, some ch => s.setCore n ((s.core n).setChain { ch with outBuf := ch.outBuf.drop k })
  | _, _ => s

/-- The first request of the running list has ended: the list moves on; chairs read in full are released. -/
def reqDone (n r : Nat) (s : State) (g : Ring) (l : XList) (q : Req) : State :=
  let s := chainTaken n l q.len s
  let g1 := q.rel.foldl (fun g x => g.give false x) g
  let l1 := { l with desc := q.next.1, row := q.next.2.1, off := q.next.2.2, moved := l.moved + q.len, reqs := l.reqs.drop 1 }
  s.putRing n r { g1 with lists := l1 :: g.lists.drop 1 }

/-- The last descriptor of a list is done: its chair is closed and its predicate written. -/
def listEnd (n r : Nat) (s : State) (g : Ring) (l : XList) : State :=
  let s1 := match l.inbound, l.chair with
    | true, some x => s.lundef n 1 (g.chairAt x + l.coff) (g.cbytes - l.coff)
    | _, _ => s
  let g1 := match l.chair with
    | some x => g.give l.inbound x
    | none => g
  ((l.spoils.foldl (fun (st : State) p => st.lundef n 1 p.1 p.2) s1).putRing n r { g1 with lists := g.lists.drop 1 }).complete n l.ctx l.inc l.pd

/-- The bytes of the requests of a list that have not ended. -/
def XList.flying (l : XList) : Nat := (l.reqs.map (·.len)).sum

/-- The list as its next request finds it: after the requests in flight. -/
def XList.front (l : XList) : XList :=
  match l.reqs.getLast? with
  | some q => { l with desc := q.next.1, row := q.next.2.1, off := q.next.2.2 }
  | none => l

/-- Whether a request is in flight: issued, and not answered. -/
def Req.flies (q : Req) : Bool := q.stage = .wait || q.stage = .held

/-- The external requests of a core in flight; another is issued while they are fewer than 128 (spec/08 Table 08-2). -/
def Core.flying (c : Core) : Nat :=
  (c.rings.map (fun p => (p.2.lists.map (fun l => (l.reqs.filter Req.flies).length)).sum)).sum
    + (c.slots.filter (fun p => p.2.req.any Req.flies)).length
def Core.mayIssue (c : Core) : Bool := decide (c.flying < 128)

/-- Whether a list may make another request: it has up to 64 (spec/08 Table 08-2), and an outbound request takes chairs only after the one before it
has its bytes. -/
def XList.mayAsk (l : XList) : Bool :=
  l.reqs.isEmpty || (decide (l.reqs.length < 64) && !l.reqs.any (fun q => q.stage = .gather || q.stage = .failed))

/-- The bytes that a stream gate's list has still to ask for, where its total is known (R188). -/
def XList.left (l : XList) (s : State) (n : Nat) : Option Nat :=
  match l.chain.bind ((s.core n).chain ·) with
  | some ch =>
    if l.total ≠ 0 then some (l.total - l.moved - l.flying) else if l.inbound then none else some (ch.outBuf.length - l.flying)
  | none => none

/-- Begin the next request of a list, or end the list; none when it cannot go on before a request has ended. A stream gate's list whose bytes do
not match what it feeds halts (R188). -/
def listNext (n r : Nat) (s : State) (g : Ring) (l : XList) : Option State :=
  let f := l.front
  let left := l.left s n
  let idle := l.reqs.isEmpty
  if l.count ≤ f.desc then
    if !idle then none
    else if left.any (0 < ·) then some (ringHalt n r l E.SLM_COUNT (l.base + 32 * l.count) s)
    else some (listEnd n r s g l)
  else
    match nextReq s n f with
    | none => if idle then some (ringHalt n r l E.XFER_DESC (l.base + 32 * l.desc) s) else none
    | some q =>
      if left = some 0 ∧ 0 < q.len then (if idle then some (ringHalt n r l E.SLM_COUNT q.addr s) else none)
      else
        let q1 := match left with | some k => q.trim k | none => q
        let q2 := if l.inbound then q1 else { q1 with stage := .gather, mark := l.chair, moff := l.coff }
        let s1 := s.setRing n r { g with lists := { l with reqs := l.reqs ++ [q2] } :: g.lists.drop 1 }
        if q2.len = 0 ∨ q2.zero then some s1
        else some ((s1.bump (F.CORE_STR_REQ_CNT n)).bumpBy (F.CORE_STR_MERGE_CNT n) (q2.segs.length - 1))

/-! ## What a Slalom command may take and hand over (spec/08 R187) -/

/-- The bytes of a link: 16 chairs of 2 KiB. -/
def linkBytes : Nat := 32768

/-- Whether a gate's command is at the head of the queue of each of its units. -/
def Core.gateAtHead (c : Core) (id : Nat) (g : Gate) : Bool :=
  g.units.all (fun u => match (c.eng u).run with | some x => decide (x.chain = some id) | none => false)

/-- The gates of a chain that compute. -/
def Chain.computing (ch : Chain) : List Gate := ch.gates.filter (fun g => g.ring.isNone)

/-- The steps in which a gate turns its linked operand into its output, each once its part of the operand is there: rows of a Groomer gate and of
VRSUM, groups of 32 elements of another vector gate, rows of a CMM; 1 where the whole operand must be there, as for SMV and for a measuring pass
(spec/05 R120). -/
def State.gateSteps (s : State) (n : Nat) (g : Gate) : Nat :=
  let x := g.cmd
  let t := x.operand g.linkOp
  let measures := x.tD.srecEn && isScaled x.tD.fmt && decide ((s.srecOf n x.tD).count = 0)
  if measures then 1
  else
    match x.op with
    | .smv | .spush | .vamax | .chb => 1
    | .gnrm | .gsmx | .gnrmb | .gsmxb | .vrsum | .cmm => Nat.max 1 t.rows
    | _ => Nat.max 1 (ceilDiv t.count 32)

/-- The bytes of a gate's linked operand that its last steps wait for alone: all but for a CMM, whose rows end with their last chunk. -/
def gateTail (x : UCmd) (k total : Nat) : Nat :=
  if x.op = .cmm then
    let t := x.operand k
    let last := t.n0 - (ceilDiv t.n0 (kappaOf t.fmt) - 1) * kappaOf t.fmt
    Nat.min total (t.n1 * ((last * elemBits t.fmt + 7) / 8 + (if isMx t.fmt then last / 32 else 0)))
  else total

/-- The bytes of output that a gate has after `c` bytes of its linked operand. -/
def State.gateOut (s : State) (n : Nat) (g : Gate) (c : Nat) : Nat :=
  let total := feedBytes g.cmd g.linkOp
  let steps := s.gateSteps n g
  let tail := gateTail g.cmd g.linkOp total
  if total ≤ c ∨ tail = 0 then outBytes g.cmd else (c - (total - tail)) * steps / tail * outBytes g.cmd / steps

/-- The bytes of its linked operand that a gate takes with room for `o` bytes of output: those of its next step, too. -/
def State.gateIn (s : State) (n : Nat) (g : Gate) (o : Nat) : Nat :=
  let total := feedBytes g.cmd g.linkOp
  let steps := s.gateSteps n g
  let tail := gateTail g.cmd g.linkOp total
  if outBytes g.cmd ≤ o then total
  else total - tail + ceilDiv (Nat.min steps (o * steps / Nat.max 1 (outBytes g.cmd) + 1) * tail) steps

/-- The bytes of output that a chain has with `c` bytes of input, full chairs crossing each link. -/
def State.chainReady (s : State) (n : Nat) : List Gate → Nat → Nat
  | [], c => c
  | [g], c => s.gateOut n g c
  | g :: gs, c =>
    let o := s.gateOut n g c
    s.chainReady n gs (if outBytes g.cmd ≤ o then o else o / 2048 * 2048)

/-- The bytes of input that a chain's gates may take when its last one may have handed over `o`: a gate that does not run takes none, and a link
holds 16 chairs. -/
def State.chainTakes (s : State) (n id : Nat) (o : Nat) : List Gate → Nat
  | [] => o
  | g :: gs =>
    if !(s.core n).gateAtHead id g then 0
    else
      match gs with
      | [] => if outBytes g.cmd = 0 ∨ !g.linked then feedBytes g.cmd g.linkOp else s.gateIn n g o
      | _ :: _ => s.gateIn n g (s.chainTakes n id o gs + linkBytes)

/-- Whether a chain ends in a stream-out gate. -/
def Chain.streamsOut (ch : Chain) : Bool := (ch.gates.getLast?.bind (·.ring)).isSome

/-- The bytes of input that a chain may have taken now. -/
def State.chainRoom (s : State) (n : Nat) (ch : Chain) : Nat :=
  let o :=
    match ch.outRing with
    | some r => ch.handed + (match (s.ring n r).take true with | some _ => (s.ring n r).cbytes | none => 0)
    | none => if ch.streamsOut then ch.handed + linkBytes - ch.outBuf.length else 2 ^ 64
  s.chainTakes n ch.id o ch.computing

/-- Where an address of a stream leads: a local physical address, another node, or a code. -/
inductive Target where
  | here (a : Nat)
  | node (n a : Nat)
  | fail (code : Nat)

/-- Resolve an address of a space (spec/08 R176, spec/02 R34). -/
def resolve (n space addr len : Nat) (acc : Access) (s : State) : State × Target :=
  if space = 0 then
    match s.xlat n addr acc with
    | (s1, .fail c) => (s1, .fail c)
    | (s1, .ok ga) =>
      if s1.isSelf (ga / 2 ^ 42) then (s1, .here (ga % 2 ^ 42)) else (s1, .node (ga / 2 ^ 42) (ga % 2 ^ 42))
  else if spaceSize space < addr + len then (s, .fail E.ADDR_UNMAPPED)
  else (s, .here (localAddr n space addr))

/-- Issue request `j` of the running list. -/
def ringIssue (n r : Nat) (s : State) (g : Ring) (l : XList) (j : Nat) (q : Req) : State :=
  if q.len = 0 ∨ q.zero then
    setReq n r s g l j (if l.inbound then { q with stage := .place, data := List.replicate q.len 0 } else { q with stage := .done })
  else
    let p := resolve n q.space q.addr q.len (if l.inbound then .read else .write) s
    match p.2 with
    | .fail c => ringFail n r j c p.1
    | .here a => setReq n r p.1 (p.1.ring n r) l j { q with stage := .wait, phys := some a }
    | .node node a =>
      let t := p.1.sendReq
        { src := .ring n r, ep := n, vc := q.vc, node := node, op := if l.inbound then opGet else opPut, addr := a, len := q.len,
          data := q.data }
      match t.2 with
      | .sent tag => setReq n r t.1 (t.1.ring n r) l j { q with stage := .wait, tag := some tag, phys := none }
      | .held => setReq n r t.1.holdNext (t.1.ring n r) l j { q with stage := .held, ord := t.1.net.holdNo }
      | .fail c => ringFail n r j c t.1

/-- Place what can be placed of the first request; none when nothing can. A stream-in gate's bytes go to the link to
the gate after it, 16 chairs beyond what that gate may take (R187). -/
def ringPlace (n r : Nat) (s : State) (g : Ring) (l : XList) (q : Req) : Option State :=
  match l.chain with
  | some id =>
    match (s.core n).chain id with
    | some ch =>
      if q.len = 0 ∨ ch.inBuf.length + q.len ≤ s.chainRoom n ch + linkBytes then
        some (reqDone n r (s.setCore n ((s.core n).setChain { ch with inBuf := ch.inBuf ++ q.data })) g l q)
      else none
    | none => none
  | none =>
    let p := placeLoop n q.fuel s g l q
    let q1 := p.2.2.2
    if q1.segs.length ≤ q1.si then some (reqDone n r p.1 p.2.1 p.2.2.1 q1)
    else if q1.si = q.si ∧ q1.so = q.so then none
    else some (p.1.putRing n r { p.2.1 with lists := { p.2.2.1 with reqs := q1 :: l.reqs.drop 1 } :: g.lists.drop 1 })

/-- Gather what can be gathered for request `j`, the last one; none when nothing can. -/
def ringGather (n r : Nat) (s : State) (g : Ring) (l : XList) (j : Nat) (q : Req) : Option State :=
  match l.chain with
  | some id =>
    match (s.core n).chain id with
    | some ch =>
      let got := ch.outBuf.drop (l.flying - q.len)
      if ch.fin ∨ q.len ≤ got.length then some (setReq n r s g l j { q with data := got.take q.len, stage := .issue }) else none
    | none => none
  | none =>
    let p := gatherLoop s n q.fuel g l q
    let q1 := p.2.2
    if q1.segs.length ≤ q1.si then some (setReq n r s p.1 p.2.1 j { q1 with stage := .issue })
    else if q1.si = q.si ∧ q1.so = q.so then none
    else some (setReq n r s p.1 p.2.1 j q1)

/-- What the first request of the running list allows: it ends, fails, or its data is placed. -/
def ringHead (n r : Nat) (s : State) (g : Ring) (l : XList) : Option State :=
  match l.reqs with
  | [] => none
  | q :: _ =>
    match q.stage with
    | .done => some (reqDone n r s g l q)
    | .failed => some (ringFail n r 0 q.code s)
    | .place => ringPlace n r s g l q
    | _ => none

/-- What a later or the first request that is not issued yet allows. -/
def ringTail (n r : Nat) (s : State) (g : Ring) (l : XList) : Option State :=
  (l.reqs.zip (List.range l.reqs.length)).findSome? (fun p =>
    match p.1.stage with
    | .gather => ringGather n r s g l p.2 p.1
    | .issue => if p.1.len = 0 ∨ p.1.zero ∨ (s.core n).mayIssue then some (ringIssue n r s g l p.2 p.1) else none
    | _ => none)

/-- The stream of a ring goes on; none when it cannot without an answer or a chair. A stream-out gate whose total is not known waits for its
chain. -/
def ringStep (n r : Nat) (s : State) : Option State :=
  let g := s.ring n r
  if g.halt.isSome || g.aborted then none
  else
    match g.lists with
    | [] => none
    | l :: _ =>
      (ringHead n r s g l).or ((ringTail n r s g l).or
        (if (!l.inbound && l.total = 0 && (l.chain.bind ((s.core n).chain ·)).any (fun ch => !ch.fin)) || !l.mayAsk then none
        else listNext n r s g l))

/-- The answer to request `j` of the running list. -/
def ringAnswer (n r j : Nat) (resp : Response) (s : State) : State :=
  let g := s.ring n r
  match g.lists with
  | [] => s
  | l :: _ =>
    match l.reqs[j]? with
    | none => s
    | some q =>
      if q.stage ≠ .wait then s
      else
        match resp with
        | .fail code => ringFail n r j code.toNat s
        | .ok data =>
          setReq n r s g l j
            (if l.inbound then { q with stage := .place, data := (data ++ List.replicate (q.len - data.length) 0).take q.len }
            else { q with stage := .done })

/-! ## Transfer slots (spec/08 R182, spec/04 R91, R92) -/

/-- A state with a transfer slot replaced. -/
def State.setSlot (s : State) (n x : Nat) (v : XSlot) : State := s.setCore n { s.core n with slots := Sparse.put (s.core n).slots x v }

/-- The bytes an operation moves. -/
def XSlot.total (x : XSlot) : Nat := if x.op = .ratom then (if x.wide then 8 else 4) else x.len

/-- The next piece of an operation. -/
def XSlot.piece (x : XSlot) : Nat :=
  match x.op with
  | .ratom => x.total
  | .rcopy => Nat.min (cutAt (x.rem + x.pos) (x.len - x.pos)) (2048 - (x.dst + x.pos) % 2048)
  | _ => cutAt (x.rem + x.pos) (x.len - x.pos)

/-- The virtual address of the access an operation makes next. -/
def XSlot.va (x : XSlot) : Nat := (if x.half then x.dst + x.pos else x.rem + x.pos) % 2 ^ 64

/-- The codes that halt a remote instruction: those of translation (spec/04 R91). Every other code makes it fail (log 33). -/
def haltsSlot (code : Nat) : Bool :=
  code = E.VA_NONCANON || code = E.PT_INVALID || code = E.PAGE_NOT_PRESENT || code = E.PAGE_PERM

/-- Whether a local address is memory: edge memory, SRAM or side memory of a core that exists. -/
def State.isMemory (s : State) (a : Nat) : Bool :=
  decide (a < s.edgeSize)
    || (decide (0x20000000000 ≤ a ∧ a < 0x20000000000 + 0x4000000 * s.ncores)
        && (let o := (a - 0x20000000000) % 0x4000000; decide (o < 0x3000000 ∨ (0x3800000 ≤ o ∧ o < 0x3900000))))

/-- A state in which what a virtual range names on this engine is undefined, page by page. -/
def undefVirt (n : Nat) : Nat → Nat → Nat → State → State
  | 0, _, _, s => s
  | fuel + 1, va, len, s =>
    if len = 0 then s
    else
      let k := Nat.min len (2 ^ 21 - va % 2 ^ 21)
      let s1 := match (s.xlat n va .write).2 with
        | .ok ga =>
          if s.isSelf (ga / 2 ^ 42) && s.isMemory (ga % 2 ^ 42) then s.undefAt (ga % 2 ^ 42) k else s
        | .fail _ => s
      undefVirt n fuel ((va + k) % 2 ^ 64) (len - k) s1

/-- An operation that ended frees its slot. -/
def slotFree (n x : Nat) (s : State) : State := s.setCore n { s.core n with slots := Sparse.drop (s.core n).slots x }

/-- A failed operation (spec/04 R92): its destination undefined, the context's first failure recorded, its predicate written. -/
def slotFail (n x : Nat) (v : XSlot) (code addr : Nat) (s : State) : State :=
  let s1 := slotFree n x s
  let s2 := match v.op with
    | .rget | .ratom => s1.lundef n 1 v.loc v.total
    | .rput => undefVirt n (v.len / 2 ^ 21 + 2) v.rem v.len s1
    | .rcopy => undefVirt n (v.len / 2 ^ 21 + 2) v.dst v.len s1
  let c := s2.ctx n v.ctx
  let s3 :=
    if c.inc = v.inc ∧ c.st ≠ .free ∧ !c.rfail then
      ((s2.setCtx n v.ctx { c with rfail := true }).setFld (F.CORE_CTX_RERR_code n v.ctx) code).setFld (F.CORE_CTX_RERR_va n v.ctx) addr
    else s2
  s3.complete n v.ctx v.inc v.pd

/-- A slot halts (R182). -/
def slotHalt (n x : Nat) (v : XSlot) (code : Nat) (s : State) : State :=
  let s1 := s.setSlot n x { v with halt := some (code, v.va), req := none, half := false }
  let s2 := ((s1.setFld (F.CORE_XSLOT_FAULT_code n x) code).setFld (F.CORE_XSLOT_FAULT_addr n x) v.va).setFld (F.CORE_XSLOT_FPOS n x) v.pos
  (s2.raiseCore EV.STREAM_HALT n (leBytes 2 n ++ leBytes 1 (16 + x) ++ leBytes 2 code)).bump (F.CORE_STR_HALT_CNT n)

/-- A slot meets a code. -/
def slotCode (n x : Nat) (v : XSlot) (code : Nat) (s : State) : State :=
  if haltsSlot code then slotHalt n x v code s else slotFail n x v code v.va s

/-- Send a slot's request to another node. -/
def slotSend (n x : Nat) (v : XSlot) (q : Req) (r : NetReq) (s : State) : State :=
  let t := s.sendReq r
  match t.2 with
  | .sent tag => t.1.setSlot n x { v with req := some { q with stage := .wait, tag := some tag, phys := none } }
  | .held => t.1.holdNext.setSlot n x { v with req := some { q with stage := .held, ord := t.1.net.holdNo } }
  | .fail c => slotCode n x v c t.1

/-- Issue the access a slot makes next; `data` is what an RCOPY from this engine has read. -/
def slotIssue (n x : Nat) (v : XSlot) (data : List Byte) (s : State) : State :=
  let k := v.piece
  let acc : Access := match v.op with
    | .rget => .read
    | .rput => .write
    | .ratom => .atomic
    | .rcopy => if v.half then .write else .read
  let p := resolve n 0 v.va k acc s
  let q : Req := { addr := v.va, len := k, vc := v.vc, data := data }
  match p.2 with
  | .fail c => slotCode n x v c p.1
  | .here a => p.1.setSlot n x { v with req := some { q with stage := .wait, phys := some a } }
  | .node node a =>
    let base : NetReq := { src := .slot n x, ep := n, vc := v.vc, node := node, op := opGet, addr := a, len := k }
    match v.op with
    | .rget => slotSend n x v q base p.1
    | .rput => slotSend n x v q { base with op := opPut, data := data } p.1
    | .ratom =>
      slotSend n x v q { base with op := opAtom, aop := v.aop, aw := v.wide, data := leBytes 8 v.opnd.toNat ++ leBytes 8 v.cmp.toNat } p.1
    | .rcopy =>
      if v.half then slotSend n x v q { base with op := opPut, data := data } p.1
      else
        match p.1.xlat n ((v.dst + v.pos) % 2 ^ 64) .write with
        | (s2, .fail c) => slotCode n x { v with half := true } c s2
        | (s2, .ok ga) =>
          let far := !s2.isSelf (ga / 2 ^ 42)
          match far, s2.route (ga / 2 ^ 42) with
          | true, .qp _ => slotFail n x v E.REMOTE_OP_UNSUPP v.va s2
          | _, _ =>
            let dest := if far then ga else s2.node * 2 ^ 42 + ga % 2 ^ 42
            slotSend n x v q { base with op := opCopy, data := leBytes 8 dest ++ leBytes 8 k } s2

/-- A transfer slot goes on; none when it waits. -/
def slotStep (n x : Nat) (s : State) : Option State :=
  match Sparse.find (s.core n).slots x with
  | none => none
  | some v =>
    if v.halt.isSome then none
    else
      match v.req with
      | none =>
        let s := v.spoils.foldl (fun (st : State) p => st.lundef n 1 p.1 p.2) s
        if v.total ≤ v.pos then some ((slotFree n x s).complete n v.ctx v.inc v.pd)
        else if !(s.core n).mayIssue then none
        else
          let s1 := s.bump (F.CORE_STR_REQ_CNT n)
          some (slotIssue n x v (if v.op = .rput then s.lbytes n 1 (v.loc + v.pos) v.piece else []) s1)
      | some q => if q.stage = .issue && (s.core n).mayIssue then some (slotIssue n x v q.data s) else none

/-- The answer to a slot's request. -/
def slotAnswer (n x : Nat) (resp : Response) (s : State) : State :=
  match Sparse.find (s.core n).slots x with
  | none => s
  | some v =>
    match v.req with
    | none => s
    | some q =>
      if q.stage ≠ .wait then s
      else
        match resp with
        | .fail code => slotCode n x { v with req := none } code.toNat s
        | .ok data =>
          let got := (data ++ List.replicate (q.len - data.length) 0).take q.len
          let past := { v with req := none, pos := v.pos + q.len, half := false }
          match v.op with
          | .rget => (s.lstore n 1 (v.loc + v.pos) got).setSlot n x past
          | .ratom => (s.lstore n 1 v.loc got).setSlot n x past
          | .rput => s.setSlot n x past
          | .rcopy =>
            if v.half ∨ q.phys.isNone then s.setSlot n x past
            else (s.bump (F.CORE_STR_REQ_CNT n)).setSlot n x { v with half := true, req := some { q with stage := .issue, data := got } }

/-! ## The command queue (spec/08 R173) -/

/-- RFENCE ends: pd says whether no operation has failed; a context that waits for it goes on (spec/04 R92). CORE_CTX_RERR keeps the code and the
address it holds until the next failure: what it reads after a fence with no failure since, the manual does not say (DESIGN CHOICE, log 15). -/
def fenceDone (n k inc pd : Nat) (s : State) : State :=
  let x := s.ctx n k
  if x.inc = inc ∧ x.st ≠ .free then
    let y := { x.setPr pd (!x.rfail) with rfail := false }
    if x.st = .waiting ∧ x.wait = .rfence then (s.setCtx n k { y with pc := (x.pc + 8) % 2 ^ 26 }).makeReady n k else s.setCtx n k y
  else s

/-- The head of the stream engine's queue leaves it. -/
def sqDrop (n : Nat) (s : State) : State := (s.setCore n { s.core n with sq := (s.core n).sq.drop 1 }).wakeRoom n

/-- The head of the queue takes the slot it needs, if that is free. A list for an aborted ring is discarded with its predicate. -/
def sqStep (n : Nat) (s : State) : Option State :=
  let c := s.core n
  match c.sq with
  | [] => none
  | .list r l :: _ =>
    let g := s.ring n r
    if g.aborted then some ((sqDrop n s).complete n l.ctx l.inc l.pd)
    else if g.lists.length < 4 then
      some (sqDrop n (s.setRing n r { g with lists := g.lists ++ [{ l with slot := g.slot }], slot := (g.slot + 1) % 4 }))
    else none
  | .remote x :: _ =>
    if x.op ≠ .ratom ∧ x.len = 0 then some ((sqDrop n s).complete n x.ctx x.inc x.pd)
    else
      match (List.range 8).find? (fun j => (Sparse.find c.slots j).isNone) with
      | some j => some ((sqDrop n s).setSlot n j x)
      | none => none
  | .rfence k inc pd :: _ =>
    if c.slots.any (fun p => decide (p.2.ctx = k ∧ p.2.inc = inc)) then none else some (fenceDone n k inc pd (sqDrop n s))

/-! ## Slalom commands in progress (spec/08 R186-R189) -/

/-- Whether a stream gate of a chain still has its list. -/
def Core.chainList (c : Core) (id : Nat) (inbound : Bool) : Bool :=
  c.rings.any (fun p => p.2.lists.any (fun l => decide (l.chain = some id) && l.inbound = inbound))
    || c.sq.any (fun q => match q with | .list _ l => decide (l.chain = some id) && l.inbound = inbound | _ => false)

/-- Whether a chain is fed from outside. -/
def Chain.fed (ch : Chain) : Bool := ch.inRing.isSome || (ch.gates.head?.bind (·.ring)).isSome

/-- Whether a chain has its whole input. -/
def Chain.full (c : Core) (ch : Chain) : Bool :=
  if ch.inRing.isSome then decide (ch.need ≤ ch.inBuf.length)
  else if ch.fed then !c.chainList ch.id true
  else true

/-- Whether a gate's Snowpack record can be moved. -/
def gateReady (s : State) (n : Nat) (g : Gate) : Bool :=
  let x := g.cmd
  match x.op with
  | .spush => snowFits s n x.tA.bytes
  | .gnrm | .gsmx => x.spillRows = 0 || snowFits s n (8 * x.spillRows)
  | .spop => snowPopOpen s n
  | .gnrmb => x.spillRows = 0 || snowPopOpen s n
  | _ => true

/-- What a chain's gates hand over of the input taken so far: the rest of the input, which cannot change it, reads as zeros. -/
def State.chainHead (s : State) (n : Nat) (ch : Chain) : List Byte :=
  let total := (ch.computing.head?.map (fun g => feedBytes g.cmd g.linkOp)).getD 0
  (gatesRun s n ch.computing (some (ch.inBuf ++ List.replicate (total - ch.inBuf.length) 0))).2.2

/-- The gates compute: their effects on the state, once their input is whole. From the first one that shares a scale record without order (spec/05
R121), what they write and hand over is undefined. -/
def chainCompute (n : Nat) (s : State) (ch : Chain) : Option State :=
  let c := s.core n
  if ch.full c && ch.computing.all (fun g => c.gateAtHead ch.id g && gateReady s n g) then
    let feed := if ch.fed then some ch.inBuf else none
    let r := gatesRun s n ch.computing feed
    let late := ch.computing.dropWhile (fun g => (r.1.clashes n (g.units.headD .vector) g.cmd).isEmpty)
    let bytes := if late.isEmpty then r.2.2 else (List.range r.2.2.length).map (fun j => Config.freeByte r.1.free j)
    let s1 := if late.isEmpty then r.1 else late.foldl (fun st g => undefGate st n g) r.1.tick
    let out := if ch.outRing.isSome || ch.streamsOut then bytes.drop ch.handed else []
    let f := r.2.1
    some (s1.setCore n ((s1.core n).setChain
      { ch with inBuf := [], outBuf := ch.outBuf ++ out, handed := ch.handed + out.length, fin := true, flags := (f.nv, f.of, f.sat, f.psn) }))
  else none

/-- A chain takes bytes of the chair of its input ring that it holds, or acquires the next one, once its first gate runs and as far as its gates may
take input; it releases a chair as it empties it, and the last one when its operand is complete (R187). -/
def chainTake (n : Nat) (s : State) (ch : Chain) : Option State :=
  match ch.inRing with
  | none => none
  | some r =>
    let g := s.ring n r
    let want := Nat.min ch.need (s.chainRoom n ch) - ch.inBuf.length
    if want = 0 then none
    else
      match ch.inChair with
      | none => (g.take false).map (fun p => (s.setRing n r p.2).setCore n (((s.setRing n r p.2).core n).setChain { ch with inChair := some (p.1, 0) }))
      | some (c, off) =>
        let k := Nat.min (g.cbytes - off) want
        let ch1 := { ch with inBuf := ch.inBuf ++ s.lbytes n 1 (g.chairAt c + off) k }
        if off + k = g.cbytes ∨ ch.need ≤ ch1.inBuf.length then
          some ((s.setCore n ((s.core n).setChain { ch1 with inChair := none })).putRing n r (g.give false c))
        else some (s.setCore n ((s.core n).setChain { ch1 with inChair := some (c, off + k) }))

/-- A chair of a chain's output ring is filled with bytes and published. -/
def chainGive (n r : Nat) (bs : List Byte) (ch : Chain) (s : State) : Option State :=
  ((s.ring n r).take true).map (fun p =>
    let s1 := s.lstore n 1 (p.2.chairAt p.1) bs
    let s2 := if bs.length < p.2.cbytes then s1.lundef n 1 (p.2.chairAt p.1 + bs.length) (p.2.cbytes - bs.length) else s1
    (s2.setCore n ((s2.core n).setChain ch)).putRing n r (p.2.give true p.1))

/-- A chain that has not computed hands over what its gates have: a full chair of its output ring, or full chairs of the link to its stream-out
gate. -/
def chainEarly (n : Nat) (s : State) (ch : Chain) : Option State :=
  let ready := if ch.fed && ch.computing.all (fun g => (s.core n).gateAtHead ch.id g) then
    s.chainReady n ch.computing (Nat.min ch.inBuf.length (s.chainRoom n ch)) else 0
  match ch.outRing with
  | some r =>
    let k := (s.ring n r).cbytes
    if 0 < k ∧ ch.handed + k ≤ ready then
      chainGive n r (((s.chainHead n ch).drop ch.handed).take k) { ch with handed := ch.handed + k } s
    else none
  | none =>
    let k := Nat.min (ready - ch.handed) (linkBytes - ch.outBuf.length) / 2048 * 2048
    if ch.streamsOut ∧ 0 < k then
      some (s.setCore n ((s.core n).setChain
        { ch with outBuf := ch.outBuf ++ ((s.chainHead n ch).drop ch.handed).take k, handed := ch.handed + k }))
    else none

/-- A chain goes on: it takes input, computes when every gate is at the head of its queue and its input is whole, or hands over output. The chair
of an output ring is published when it is full or the output ends. -/
def chainGo (n : Nat) (s : State) (ch : Chain) : Option State :=
  if !ch.fin then (chainCompute n s ch).or ((chainEarly n s ch).or (chainTake n s ch))
  else
    match ch.outRing, ch.outBuf with
    | some r, _ :: _ => chainGive n r (ch.outBuf.take (s.ring n r).cbytes) { ch with outBuf := ch.outBuf.drop (s.ring n r).cbytes } s
    | _, _ => none

/-- The first chain that can go on. -/
def chainStep (n : Nat) (s : State) : Option State := (s.core n).chains.findSome? (chainGo n s)

/-- Unit queues without the commands of a chain; what waits behind them starts. -/
def Eng.without (e : Eng) (id : Nat) : Eng :=
  let l := (e.run.toList ++ e.queue).filter (fun x => x.chain ≠ some id)
  { run := l.head?, queue := l.drop 1 }

/-- A core without the commands and lists of a chain. -/
def Core.without (c : Core) (id : Nat) : Core :=
  { c with
    a0 := c.a0.without id, a1 := c.a1.without id, schuss := c.schuss.without id, groomer := c.groomer.without id
    vector := c.vector.without id, snowU := c.snowU.without id
    rings := c.rings.map (fun p => (p.1, { p.2 with
      lists := p.2.lists.filter (fun l => l.chain ≠ some id)
      halt := if p.2.lists.head?.any (fun l => decide (l.chain = some id)) then none else p.2.halt }))
    sq := c.sq.filter (fun q => match q with | .list _ l => decide (l.chain ≠ some id) | _ => true)
    chains := c.chains.filter (fun x => x.id ≠ id) }

/-- The Snowpack as the control processor sees it, from the stack and the commands that still wait. -/
def Snow.resync (w : Snow) (queue : List UCmd) : Snow :=
  let sizes := queue.foldl (fun (l : List Nat) x =>
    match x.pushSize with
    | some b => if x.op = .spush ∨ 0 < x.spillRows then b :: l else l
    | none => l.drop 1) w.recs
  { w with sizes := sizes, qdepth := (sizes.map snowPad).foldl (· + ·) 0, known := Nat.min w.known sizes.length }

/-- A Slalom command is aborted (R189): every destination undefined, its predicate written. A chair of its input ring that it holds stays acquired,
and no context holds it (R168). -/
def abortChain (n id : Nat) (s : State) : State :=
  match (s.core n).chain id with
  | none => s
  | some ch =>
    let s1 := ch.computing.foldl (fun st g => undefGate st n g) s
    let s2 := s1.setCore n ((s1.core n).without id)
    let c := s2.core n
    let s2 := s2.setCore n { c with snow := c.snow.resync (c.snowU.run.toList ++ c.snowU.queue) }
    let s3 := match ch.inRing, ch.inChair with
      | some r, some _ => s2.setRing n r { s2.ring n r with cleft := true }
      | _, _ => s2
    let s4 := (s3.forget (.ring n ((ch.gates.filterMap (·.ring)).headD 16))).forget (.ring n ((ch.gates.filterMap (·.ring)).getLastD 16))
    (s4.wakeRoom n).complete n ch.ctx ch.inc ch.pd

/-! ## Going on -/

/-- The first thing of a core's stream engine that can go on. -/
def coreStep (n : Nat) (s : State) : Option State :=
  match sqStep n s with
  | some t => some t
  | none =>
    match chainStep n s with
    | some t => some t
    | none =>
      match (List.range 16).findSome? (fun r => ringStep n r s) with
      | some t => some t
      | none => (List.range 8).findSome? (fun x => slotStep n x s)

/-- Go on while something can. -/
def settleLoop (n : Nat) : Nat → State → State
  | 0, s => s
  | fuel + 1, s =>
    match coreStep n s with
    | some t => settleLoop n fuel t
    | none => s

/-- Let a core's stream engine go on until everything waits; contexts that end with it become FREE. A stopped core does nothing. -/
def State.settle (s : State) (n : Nat) : State :=
  if s.stoppedAt n then s else (settleLoop n (2 ^ 24) s).endWaiters n

/-- The answer to request `j` of a stream, or to that of a slot. -/
def streamAnswer (n src j : Nat) (resp : Response) (s : State) : State :=
  (if src < 16 then ringAnswer n src j resp s else slotAnswer n (src - 16) resp s).settle n

/-- The place of the request of a ring's running list that was sent with a tag. -/
def State.tagIndex (s : State) (n r tag : Nat) : Nat :=
  ((s.ring n r).lists.head?.map (fun l => l.reqs.findIdx (fun q => q.tag = some tag))).getD 0

end Sys2Proof.Machine
end

