-- ==== Sys2Proof/Machine/Lift.lean ====
section
/-! DEFINITION. Ring instructions, remote instructions and the control of rings and transfer slots (spec/04 R85, R91, R92; spec/08
R166-R182). -/

namespace Sys2Proof

/-- The handle that aux[3:0] names. -/
def IA.q (i : IA) : Nat := fieldOf i.aux 0 4

end Sys2Proof

namespace Sys2Proof.Machine

/-! ## Rings -/

/-- Whether a stream or a gate holds an end. -/
def State.endTaken (s : State) (n r : Nat) (producer : Bool) : Bool := decide (2 ≤ s.endHolder n r producer)

/-- QCFG: configures ring s[a] at s[b] with aux[6:0] chairs of s[c] bytes and empties it. -/
def execQcfg (i : IA) (s : State) : Host.Outcome State Fault Refusal :=
  go (issue i.n i.k i.pg i.pn 8 (i.legal false true true true false 0x7F) [i.a.toNat, i.b.toNat, i.c.toNat] [] s fun s =>
    let x := s.ctx i.n i.k
    let r := (x.sr i.a.toNat).toNat
    let base := (x.sr i.b.toNat).toNat
    let cb := (x.sr i.c.toNat).toNat
    let n := fieldOf i.aux 0 7
    let bound := (List.range 8).any (fun k => (s.ctx i.n k).q.any (fun h => h.2.bound && decide (h.2.ring = r)))
    if 15 < r ∨ base % 64 ≠ 0 ∨ cb % 64 ≠ 0 ∨ cb < 64 ∨ n < 3 ∨ 64 < n ∨ 0x3000000 < base + n * cb ∨ bound
        ∨ s.endTaken i.n r true ∨ s.endTaken i.n r false then s.faultCtx i.n i.k E.RING_CFG x.pc
    else
      (s.setRing i.n r { configured := true, base := base, cbytes := cb, n := n }).advance i.n i.k 8)

/-- QBIND: binds handle q to ring s[a] with role aux[4], 1 producer; a held chair is forgotten. -/
def execQbind (i : IA) (s : State) : Host.Outcome State Fault Refusal :=
  go (issue i.n i.k i.pg i.pn 8 (i.legal false true false false false 0x1F) [i.a.toNat] [] s fun s =>
    let x := s.ctx i.n i.k
    let r := (x.sr i.a.toNat).toNat
    if 15 < r then s.faultCtx i.n i.k E.RING_CFG x.pc
    else s.setCtx i.n i.k ((x.setHd i.q { ring := r, producer := i.aux.getLsbD 4, bound := true }).adv 8))

/-- QACQ: s[d] is the offset of the next chair, or of the chair held. On an aborted ring it faults even when a chair is held. -/
def execQacq (i : IA) (s : State) : Host.Outcome State Fault Refusal :=
  go (issue i.n i.k i.pg i.pn 8 (i.legal true false false false false 0xF) [] [] s fun s =>
    let x := s.ctx i.n i.k
    let h := x.hd i.q
    let g := s.ring i.n h.ring
    if !h.bound then s.faultCtx i.n i.k E.RING_UNBOUND x.pc
    else if !g.configured then s.faultCtx i.n i.k E.RING_CFG x.pc
    else if s.endTaken i.n h.ring h.producer then s.faultCtx i.n i.k E.RING_BUSY x.pc
    else if g.aborted then s.faultCtx i.n i.k E.RING_ABORTED x.pc
    else
      match h.held with
      | some c => s.setCtx i.n i.k ((x.setSr i.d.toNat (BitVec.ofNat 64 (g.chairAt c))).adv 8)
      | none =>
        match g.take h.producer with
        | none => s.makeWait i.n i.k (.ring h.ring (!h.producer))
        | some (c, g1) =>
          (s.setRing i.n h.ring g1).setCtx i.n i.k
            (((x.setHd i.q { h with held := some c }).setSr i.d.toNat (BitVec.ofNat 64 (g.chairAt c))).adv 8))

/-- The SRAM range of a remote instruction. -/
def XSlot.reaches (x : XSlot) (a len : Nat) : Bool := x.op ≠ .rcopy && decide (0 < x.total ∧ x.loc < a + len ∧ a < x.loc + x.total)

/-- A state in which a range of SRAM is undefined, now and once each command in flight that reads or writes it has ended (R169): commands of units,
gates of Slalom commands, RDSUB and RDRECV, remote instructions, transfer lists. -/
def spoilRange (n a len : Nat) (s : State) : State :=
  let hit := fun (x : UCmd) => x.reaches s n a len
  let hitGate := fun (g : Gate) =>
    let y := if g.linkOp = 0 then g.cmd else g.cmd.linkIn g.linkOp
    let z := if g.linked && !g.tee then y.linkOut else y
    z.reaches s n a len
  let hitSlot := fun (x : XSlot) => x.reaches a len
  let hitList := fun (l : XList) => l.reaches s n a len
  let c := s.core n
  let unit := (s.inFlight n).any (fun p => p.2.chain.isNone && hit p.2)
  let gate := c.chains.any (fun ch => ch.gates.any (fun g => g.ring.isNone && hitGate g))
  let slot := c.slots.any (fun p => hitSlot p.2) || c.rings.any (fun p => p.2.lists.any hitList)
    || c.sq.any (fun q => match q with | .remote x => hitSlot x | .list _ l => hitList l | _ => false)
  if !(unit || gate || slot) then s
  else
    let mark := fun (x : UCmd) => if x.chain.isNone && hit x then x.spoiling a len else x
    let markSlot := fun (x : XSlot) => if hitSlot x then { x with spoils := (a, len) :: x.spoils } else x
    let markList := fun (l : XList) => if hitList l then { l with spoils := (a, len) :: l.spoils } else l
    let c1 := { c.mapCmds mark with
      chains := c.chains.map (fun ch => { ch with
        gates := ch.gates.map (fun g => if g.ring.isNone && hitGate g then { g with cmd := g.cmd.spoiling a len } else g) })
      slots := c.slots.map (fun p => (p.1, markSlot p.2))
      rings := c.rings.map (fun p => (p.1, { p.2 with lists := p.2.lists.map markList }))
      sq := c.sq.map (fun q => match q with | .remote x => .remote (markSlot x) | .list r l => .list r (markList l) | y => y) }
    let s1 := s.setCore n c1
    State.lundef { s1 with red := { s1.red with cmds := s1.red.cmds.map (fun r => if r.core = n then { r with cmd := mark r.cmd } else r) } }
      n 1 a len

/-- QREL: releases the held chair; with none held, nothing happens. A chair that a command still reads or writes is undefined. -/
def execQrel (i : IA) (s : State) : Host.Outcome State Fault Refusal :=
  go (issue i.n i.k i.pg i.pn 8 (i.legal false false false false false 0xF) [] [] s fun s =>
    let x := s.ctx i.n i.k
    let h := x.hd i.q
    if !h.bound then s.faultCtx i.n i.k E.RING_UNBOUND x.pc
    else
      match h.held with
      | none => s.advance i.n i.k 8
      | some c =>
        let g := s.ring i.n h.ring
        let s1 := spoilRange i.n (g.chairAt c) g.cbytes (s.setCtx i.n i.k ((x.setHd i.q { h with held := none }).adv 8))
        (s1.putRing i.n h.ring (g.give h.producer c)).settle i.n)

/-- The code with which a ring named by a handle refuses a stream that would take the ends named, if any (R166, R168, R181, in the
order of Table 08-10 after E_RING_CFG). `continues` says whether a stream of the handle's role may be continued at its end. -/
def ringRefuses (s : State) (n : Nat) (h : Handle) (prod cons continues : Bool) : Option Nat :=
  let bad := fun (producer : Bool) =>
    let e := s.endHolder n h.ring producer
    if continues then e = 1 ∨ e = 3 else e ≠ 0
  if !h.bound then some E.RING_UNBOUND
  else if !(s.ring n h.ring).configured then some E.RING_CFG
  else if (prod ∧ bad true) ∨ (cons ∧ bad false) then some E.RING_BUSY
  else if (s.ring n h.ring).aborted then some E.RING_ABORTED
  else none

/-- The code of a transfer list (R175). -/
def listFault (off count : Nat) : Option Nat := if off % 32 ≠ 0 ∨ 4096 < count then some E.XFER_LIST else none

/-- A list beyond SRAM. -/
def listOutside (off count : Nat) : Bool := decide (0x3000000 < off + 32 * count)

/-- QSUB: gives a list to the stream at the end opposite to the handle's role. -/
def execQsub (i : IA) (s : State) : Host.Outcome State Fault Refusal :=
  go (issue i.n i.k i.pg i.pn 8 (i.legal false true true false true 0xF) [i.a.toNat, i.b.toNat] [] s fun s =>
    let x := s.ctx i.n i.k
    let h := x.hd i.q
    let off := (x.sr i.a.toNat).toNat
    let cnt := (x.sr i.b.toNat).toNat
    if !(s.core i.n).room .stream then s.makeWait i.n i.k (.queue [.stream])
    else if listOutside off cnt then s.faultCtx i.n i.k E.ADDR_UNMAPPED off
    else
      match ringRefuses s i.n h (!h.producer) h.producer true with
      | some code => s.faultCtx i.n i.k code x.pc
      | none =>
        match listFault off cnt with
        | some code => s.faultCtx i.n i.k code x.pc
        | none =>
          let l : XList := { inbound := !h.producer, base := off, count := cnt, ctx := i.k, inc := x.inc, pd := i.pd.toNat }
          let s1 := s.setCtx i.n i.k ((x.setPr i.pd.toNat false).adv 8)
          (s1.setCore i.n { s1.core i.n with sq := (s1.core i.n).sq ++ [.list h.ring l] }).settle i.n)

/-! ## Remote instructions -/

/-- Put a remote instruction in the stream engine's queue. -/
def queueRemote (n k pd : Nat) (x : XSlot) (s : State) : State :=
  let c := s.ctx n k
  let s1 := s.setCtx n k ((c.setPr pd false).adv 8)
  (s1.setCore n { s1.core n with sq := (s1.core n).sq ++ [.remote x] }).settle n

/-- Issue of a remote instruction: a full queue makes the context wait; `check` the code it faults with and the data address (spec/04 R94). -/
def issueRemote (i : IA) (uc : Bool) (auxUsed : BitVec 21) (ok : Bool) (check : Ctx → Option (Nat × Nat)) (make : Ctx → XSlot) (s : State) :
    State :=
  let rs := [i.d.toNat, i.a.toNat, i.b.toNat] ++ (if uc then [i.c.toNat] else [])
  issue i.n i.k i.pg i.pn 8 (i.legal true true true uc true auxUsed && ok) rs [] s fun s =>
    let x := s.ctx i.n i.k
    if !(s.core i.n).room .stream then s.makeWait i.n i.k (.queue [.stream])
    else
      match check x with
      | some f => s.faultCtx i.n i.k f.1 f.2
      | none => queueRemote i.n i.k i.pd.toNat (make x) s

/-- A local range that leaves SRAM: the code and its offset. -/
def localFault (off len : Nat) : Option (Nat × Nat) := if 0 < len ∧ 0x3000000 < off + len then some (E.ADDR_UNMAPPED, off) else none

/-- The operands that RGET, RPUT and RCOPY share. -/
def remoteOf (op : ROp) (i : IA) (x : Ctx) : XSlot :=
  { op := op, ctx := i.k, inc := x.inc, pd := i.pd.toNat, loc := (x.sr i.d.toNat).toNat, rem := (x.sr i.a.toNat).toNat,
    dst := (x.sr i.d.toNat).toNat, len := (x.sr i.b.toNat).toNat, vc := fieldOf i.aux 5 4 }

/-- RGET: s[b] bytes from s[a] to SRAM offset s[d]. -/
def execRget (i : IA) (s : State) : Host.Outcome State Fault Refusal :=
  go (issueRemote i false 0x1E0 true (fun x => localFault (x.sr i.d.toNat).toNat (x.sr i.b.toNat).toNat) (remoteOf .rget i) s)

/-- RPUT: s[b] bytes from SRAM offset s[d] to s[a]. -/
def execRput (i : IA) (s : State) : Host.Outcome State Fault Refusal :=
  go (issueRemote i false 0x1E0 true (fun x => localFault (x.sr i.d.toNat).toNat (x.sr i.b.toNat).toNat) (remoteOf .rput i) s)

/-- RCOPY: s[b] bytes from s[a] to s[d], both virtual. -/
def execRcopy (i : IA) (s : State) : Host.Outcome State Fault Refusal :=
  go (issueRemote i false 0x1E0 true (fun _ => none) (remoteOf .rcopy i) s)

/-- RATOM: operation aux[3:0] at s[a] with operand s[b] and compare value s[c], width aux[4]. -/
def execRatom (i : IA) (s : State) : Host.Outcome State Fault Refusal :=
  let w := if i.aux.getLsbD 4 then 8 else 4
  go (issueRemote i true 0x1FF (decide (fieldOf i.aux 0 4 ≤ 9))
    (fun x =>
      if (x.sr i.a.toNat).toNat % w ≠ 0 then some (E.ALIGN, (x.sr i.a.toNat).toNat) else localFault (x.sr i.d.toNat).toNat w)
    (fun x => { remoteOf .ratom i x with
      opnd := x.sr i.b.toNat, cmp := x.sr i.c.toNat, aop := fieldOf i.aux 0 4, wide := i.aux.getLsbD 4 }) s)

/-- RFENCE: the context waits until its remote operations have completed; pd says whether none failed. -/
def execRfence (i : IA) (s : State) : Host.Outcome State Fault Refusal :=
  go (issue i.n i.k i.pg i.pn 8 (i.legal false false false false true 0) [] [] s fun s =>
    let x := s.ctx i.n i.k
    if !(s.core i.n).room .stream then s.makeWait i.n i.k (.queue [.stream])
    else if (s.core i.n).sq.isEmpty ∧ !(s.core i.n).remoteBusy i.k x.inc then
      s.setCtx i.n i.k ({ x.setPr i.pd.toNat (!x.rfail) with rfail := false }.adv 8)
    else
      let s1 := s.setCore i.n { s.core i.n with sq := (s.core i.n).sq ++ [.rfence i.k x.inc i.pd.toNat] }
      (s1.makeWait i.n i.k .rfence).settle i.n)

/-! ## Control of rings and slots (spec/08 R181, R182) -/

/-- A halted stream continues from its halt position. -/
def ringResume (n r : Nat) (s : State) : State :=
  let g := s.ring n r
  if g.halt.isSome then ((s.setRing n r { g with halt := none }).kick n).settle n else s

/-- Abort of a ring's stream: its lists, those that still wait among them, are discarded. A chair that the stream or a gate held stays acquired, and no
context holds it (R168). -/
def ringAbort (n r : Nat) (s : State) : State :=
  let ids := ((s.core n).chains.filter (fun ch =>
    ch.gates.any (fun g => g.ring = some r) || ch.inRing = some r || ch.outRing = some r)).map (·.id)
  let left := fun (producer : Bool) => decide (2 ≤ s.endHolder n r producer)
  let s1 := ids.foldl (fun st id => abortChain n id st) s
  let g := s1.ring n r
  let c := s1.core n
  let waits := c.sq.filterMap (fun q => match q with | .list j l => if j = r then some l else none | _ => none)
  let s2 := ((s1.setCore n { c with sq := c.sq.filter (fun q => match q with | .list j _ => decide (j ≠ r) | _ => true) }).setRing n r
    { g with lists := [], halt := none, aborted := true, pleft := g.pleft || left true, cleft := g.cleft || left false }).forget (.ring n r)
  let s3 := (g.lists ++ waits).foldl (fun st l =>
    (l.spoils.foldl (fun (u : State) p => u.lundef n 1 p.1 p.2) st).complete n l.ctx l.inc l.pd) (s2.wakeRoom n)
  ((s3.wakeRing n r true).wakeRing n r false).settle n

/-- Reset of an aborted ring: counters 0, every held chair dropped; base, cbytes and n stay. -/
def ringReset (n r : Nat) (s : State) : State :=
  let g := s.ring n r
  if !g.aborted then s
  else
    let s1 := s.setRing n r { g with pa := 0, pr := 0, ca := 0, cr := 0, pdone := [], cdone := [], aborted := false, pleft := false, cleft := false }
    (List.range 8).foldl (fun st k =>
      let x := st.ctx n k
      if x.q.isEmpty then st
      else st.setCtx n k { x with q := x.q.map (fun h => (h.1, if h.2.ring = r then { h.2 with held := none } else h.2)) }) s1

/-- A write to CORE_RING_CTL: abort acts alone; reset, also beside resume, acts on an aborted ring. -/
def ringCtl (n r : Nat) (v : W64) (s : State) : State :=
  if v.getLsbD 1 then ringAbort n r s
  else if v.getLsbD 2 then ringReset n r s
  else if v.getLsbD 0 then ringResume n r s
  else s

/-- A halted remote instruction continues. -/
def slotResume (n x : Nat) (s : State) : State :=
  match Sparse.find (s.core n).slots x with
  | some v => if v.halt.isSome then ((s.setSlot n x { v with halt := none }).kick n).settle n else s
  | none => s

/-- A halted remote instruction ends as a failed operation. -/
def slotAbort (n x : Nat) (s : State) : State :=
  match Sparse.find (s.core n).slots x with
  | some v =>
    match v.halt with
    | some (code, va) => (slotFail n x v code va s).settle n
    | none => s
  | none => s

/-- A write to CORE_XSLOT_CTL. -/
def slotCtl (n x : Nat) (v : W64) (s : State) : State :=
  if v.getLsbD 1 then slotAbort n x s else if v.getLsbD 0 then slotResume n x s else s

/-- CORE_RING_RESUME. -/
def execCoreRingResume (core : BitVec 10) (ring : BitVec 4) (s : State) : Host.Outcome State Fault Refusal :=
  go (s.atCore core.toNat (ringResume core.toNat ring.toNat))

/-- CORE_RING_ABORT. -/
def execCoreRingAbort (core : BitVec 10) (ring : BitVec 4) (s : State) : Host.Outcome State Fault Refusal :=
  go (s.atCore core.toNat (ringAbort core.toNat ring.toNat))

/-- CORE_RING_RESET. -/
def execCoreRingReset (core : BitVec 10) (ring : BitVec 4) (s : State) : Host.Outcome State Fault Refusal :=
  go (s.atCore core.toNat (ringReset core.toNat ring.toNat))

/-- CORE_XSLOT_RESUME. -/
def execCoreXslotResume (core : BitVec 10) (slot : BitVec 3) (s : State) : Host.Outcome State Fault Refusal :=
  go (s.atCore core.toNat (slotResume core.toNat slot.toNat))

/-- CORE_XSLOT_ABORT. -/
def execCoreXslotAbort (core : BitVec 10) (slot : BitVec 3) (s : State) : Host.Outcome State Fault Refusal :=
  go (s.atCore core.toNat (slotAbort core.toNat slot.toNat))

end Sys2Proof.Machine
end

