-- ==== Sys2Proof/Machine/Slalom.lean ====
section
/-! DEFINITION. Slalom commands (spec/08 R183-R190): the record and its gates, the checks at issue, SLM and SLALOM_DONE. -/

namespace Sys2Proof.Machine

/-! ## The words of gates (spec/04 Table 04-4) -/

/-- The instructions of a gate's word in formats T and A. -/
def itOf (n k : Nat) (w e : W64) : IT := wordT (BitVec.ofNat 10 n) (BitVec.ofNat 3 k) w e
def iaOf (n k : Nat) (w : W64) : IA := wordA (BitVec.ofNat 10 n) (BitVec.ofNat 3 k) w

/-- What a gate's word is: a command of Table 08-7, or a QSUB. -/
inductive GateOp where
  | unit (op : UOp)
  | stream
  deriving DecidableEq, Repr

/-- The vector instructions that may be gates, by fn. -/
def vectorFn (f : Nat) : Option UOp :=
  match f with
  | 0x00 => some .vadd | 0x01 => some .vsub | 0x02 => some .vmul | 0x03 => some .vfma | 0x04 => some .vmax | 0x05 => some .vmin
  | 0x06 => some .vscale | 0x07 => some .vexp | 0x08 => some .vlog | 0x09 => some .vrcp | 0x0A => some .vrsqrt | 0x0B => some .vact
  | 0x10 => some .vcvt | 0x11 => some .vrsum | 0x12 => some .vamax
  | 0x18 => some .vgbq | 0x19 => some .vgba | 0x1A => some .vgbd | 0x1B => some .vres
  | 0x28 => some .viadd | 0x29 => some .vimul | 0x2A => some .vicmp
  | _ => none

/-- The command of a gate's word, when Table 08-7 lists it. -/
def gateOp (w : W64) : Option GateOp :=
  let f := fieldOf w 24 8
  match fieldOf w 56 8 with
  | 0x20 => if fieldOf w 24 7 = 4 then some .stream else none
  | 0x30 => if f = 0 then some (.unit .cmm) else if f = 1 then some (.unit .chb) else none
  | 0x38 => if f = 0 then some (.unit .smv) else none
  | 0x3C =>
    match f with
    | 0 => some (.unit .gnrm) | 1 => some (.unit .gsmx) | 2 => some (.unit .gnrmb) | 3 => some (.unit .gsmxb) | _ => none
  | 0x40 => (vectorFn f).map .unit
  | 0x48 => if f = 0 then some (.unit .spush) else if f = 1 then some (.unit .spop) else none
  | _ => none

/-- The unit of a command. -/
def UOp.unitOf (op : UOp) (arr : Nat) : UnitId :=
  match op with
  | .cmm | .chb | .cbwd | .cdrn | .czero => carveUnit arr
  | .smv => .schuss
  | .gnrm | .gsmx | .gnrmb | .gsmxb => .groomer
  | .spush | .spop | .spskip => .snow
  | .ckdig | .rdsub | .rdrecv | .ckvote => .digest
  | _ => .vector

/-- Whether the extension word is required, and whether it is allowed (spec/04 Table 04-5). -/
def UOp.extReq (op : UOp) : Bool := match op.unitOf 0 with | .a0 | .groomer => true | _ => false
def UOp.extOpt (op : UOp) : Bool := op.unitOf 0 = .vector

/-! ## The checks of a gate's command -/

/-- Which of tb and tc a vector instruction uses. -/
def UOp.uses (op : UOp) (k : Nat) : Bool :=
  match op, k with
  | .vamax, 1 => true
  | _, 1 => op ≠ .spop
  | .vfma, _ => true
  | .vadd, 2 | .vsub, 2 | .vmul, 2 | .vmax, 2 | .vmin, 2 | .vgba, 2 | .viadd, 2 | .vimul, 2 | .vicmp, 2 => true
  | _, _ => false

/-- Control bits that a gate's command uses, beyond those of every instruction. -/
def gateCtl (op : UOp) : BitVec 24 :=
  match op with
  | .cmm | .chb => 7 | .smv => 1 | .gnrm => 0x1B | .gsmx => 0x14 | .gnrmb => 0xB | .gsmxb => 4
  | .vscale => 0x1F | .vact | .vicmp => 0x1C00 | _ => 0

/-- Extension bits that a gate's command uses. -/
def gateExt (op : UOp) : W64 :=
  match op with
  | .cmm => 0xFFF | .chb => 0x1F0000 | .gnrm => 0xFFFFFFFF0001FFFF | .gsmx => 0xFFFFFFFF0001FFFF | .gnrmb => 0x1FFFF
  | .gsmxb => 0xFFFFFFFF00000000 | _ => 0

/-- E_ILLEGAL of a gate's word; a CMM with a linked output names its conversion descriptor in td, and tb of GNRM and GNRMB is ignored when ctl[3] = 1
(spec/04 R88). -/
def gateLegal (op : UOp) (i : IT) (linked : Bool) : Bool :=
  let l := fun (ud ua ub uc : Bool) => legalT i ud ua ub uc (gateCtl op) op.extReq op.extOpt (gateExt op)
  match op with
  | .cmm => l linked true true false
  | .chb => l false true true false
  | .smv => l true true true false
  | .gnrm => l true true true false && !i.ctl.getLsbD 1
  | .gsmx => l true true false false
  | .gnrmb => l true true true true && !i.ctl.getLsbD 1
  | .gsmxb => l true true false true
  | .spush => l false true false false
  | .spop => l true false false false
  | .vact => l true true false false && decide (fieldOf i.ctl 10 3 ≤ 2)
  | .vicmp => l true true true false && decide (fieldOf i.ctl 10 3 ≤ 5)
  | .vamax => l false true false false
  | _ => l true true (op.uses 2) (op.uses 3)

/-- The checks of a gate's command at issue. -/
def gateCheck (op : UOp) (i : IT) (linked : Bool) (s : State) (x : UCmd) : Option Nat :=
  match op with
  | .cmm => (cmmCheck i s x).or (if linked then cdrnCheck i s { x with op := .cdrn } else none)
  | .chb => chbCheck i s x
  | .smv => smvCheck i s x
  | .gnrm => groomCheck (!i.ctl.getLsbD 3) false i s x
  | .gsmx => groomCheck false false i s x
  | .gnrmb => groomCheck (!i.ctl.getLsbD 3) true i s x
  | .gsmxb => groomCheck false true i s x
  | .spush => spushCheck i s x
  | .spop => spopCheck i s x
  | .vcvt => cvtCheck i s x
  | .vrsum => rsumCheck i s x
  | .vamax => amaxCheck i s x
  | .vgbq => gbqCheck i s x
  | .vgba => gbaCheck i s x
  | .vgbd => gbdCheck i s x
  | .vres => resCheck i s x
  | _ => elementwise (op.uses 2) (op.uses 3) i s x

/-- A linked operand's descriptor for the checks: base, space and strides are ignored (R185). -/
def ignorePlace (d : Desc) : Desc :=
  let m : Desc := BitVec.ofNat 256 (2 ^ 64 - 1) ||| (BitVec.ofNat 256 (2 ^ 96 - 1) <<< 128) ||| (BitVec.ofNat 256 3 <<< 230)
  (d &&& ~~~m) ||| (BitVec.ofNat 256 1 <<< 230)

/-- A command for the checks: operand `k` linked, and its destination when it is linked and has no tee. An SMV that adds to td reads it in SRAM
(log 41), so that its place is checked. -/
def UCmd.forCheck (x : UCmd) (k : Nat) (out : Bool) : UCmd :=
  let y := match k with
    | 1 => { x with ta := ignorePlace x.ta }
    | 2 => { x with tb := ignorePlace x.tb }
    | 3 => { x with tc := ignorePlace x.tc }
    | _ => x
  if out && !(x.op = .smv && x.ctl.getLsbD 0) then { y with td := ignorePlace y.td } else y

/-! ## Links (Table 08-7) -/

/-- The operands that may be linked. -/
def GateOp.allows (g : GateOp) (k : Nat) : Bool :=
  match g with
  | .stream => k ≠ 0
  | .unit op =>
    match op with
    | .cmm | .chb | .smv | .gnrm | .gsmx | .spush => k = 1
    | .gnrmb | .gsmxb => k = 3
    | .spop => false
    | _ => k ≠ 0 && op.uses k

/-- Whether a gate has a linked output. -/
def GateOp.gives (g : GateOp) : Bool :=
  match g with
  | .unit op => op ≠ .chb && op ≠ .spush && op ≠ .vamax
  | .stream => true

/-- A Groomer gate's linked row beyond the row buffer of 128 KiB (R185). -/
def rowTooLong (op : UOp) (t : Tens) : Bool :=
  match op with
  | .gnrm | .gsmx => decide (131072 < 4 * t.n0)
  | .gnrmb | .gsmxb => decide (131072 < 8 * t.n0)
  | _ => false

/-! ## The record (R183, Table 08-6) -/

/-- A gate as the record gives it. -/
structure RecGate where
  op : Option GateOp
  w : W64
  e : W64
  it : IT
  ia : IA
  cmd : UCmd
  linkOp : Nat
  tee : Bool

/-- A record. -/
structure SlmRec where
  hdr : List Byte
  gates : List RecGate

/-- A byte of the header, and its fields. -/
def SlmRec.byte (r : SlmRec) (k : Nat) : Byte := r.hdr.getD k 0
def SlmRec.inEn (r : SlmRec) : Bool := (r.byte 1).getLsbD 7
def SlmRec.outEn (r : SlmRec) : Bool := (r.byte 2).getLsbD 7
def SlmRec.inQ (r : SlmRec) : Nat := fieldOf (r.byte 1) 0 4
def SlmRec.outQ (r : SlmRec) : Nat := fieldOf (r.byte 2) 0 4
def SlmRec.outTee (r : SlmRec) : Bool := (r.byte 2).getLsbD 6
def SlmRec.inOp (r : SlmRec) : Nat := fieldOf (r.byte 1) 4 2

/-- Read a record with `ng` gates. -/
def readRec (s : State) (n k off ng : Nat) : SlmRec :=
  let hdr := s.lbytes n 1 off 64
  let x := s.ctx n k
  { hdr := hdr
    gates := (List.range ng).map (fun j =>
      let w : W64 := BitVec.ofNat 64 (leNat (s.lbytes n 1 (off + 64 + 16 * j) 8))
      let e : W64 := BitVec.ofNat 64 (leNat (s.lbytes n 1 (off + 72 + 16 * j) 8))
      let it := itOf n k w e
      let lb := hdr.getD (2 + j) 0
      { op := gateOp w, w := w, e := e, it := it, ia := iaOf n k w,
        cmd := match gateOp w with | some (.unit op) => capture op it x | _ => { op := .cmm }
        linkOp := if j = 0 then (if (hdr.getD 1 0).getLsbD 7 then fieldOf (hdr.getD 1 0) 4 2 else 0) else fieldOf lb 0 2
        tee := if j = 0 then false else lb.getLsbD 2 }) }

/-- Reserved bits and link bytes beyond ngates. -/
def SlmRec.reservedOk (r : SlmRec) (ng : Nat) : Bool :=
  decide (fieldOf (r.byte 0) 3 5 = 0) && !(r.byte 1).getLsbD 6 && decide (fieldOf (r.byte 2) 4 2 = 0)
    && (List.range 5).all (fun j => decide (fieldOf (r.byte (3 + j)) 3 5 = 0) && (decide (j + 1 < ng) || r.byte (3 + j) = 0))
    && (r.hdr.drop 8).all (· = 0)

/-- Whether gate `j` is not the last. -/
def SlmRec.feeds (r : SlmRec) (j : Nat) : Bool := decide (j + 1 < r.gates.length)

/-- Whether gate `j`'s output is linked, to a gate or to out_q. -/
def SlmRec.linkedOut (r : SlmRec) (j : Nat) : Bool := r.feeds j || r.outEn

/-- Whether the output of gate `j` is also written to SRAM. -/
def SlmRec.teeOf (r : SlmRec) (j : Nat) : Bool :=
  if r.feeds j then ((r.gates[j + 1]?).map (·.tee)).getD false else r.outEn && r.outTee

/-- The unit a gate takes, for the rule that none appears twice. -/
def RecGate.unit (g : RecGate) : Option UnitId :=
  match g.op with
  | some (.unit op) => some (op.unitOf (fieldOf g.it.ctl 0 1))
  | some .stream => some .stream
  | none => none

/-- Step 2 for one gate: the word itself. -/
def RecGate.wordOk (g : RecGate) : Bool :=
  match g.op with
  | none => false
  | some .stream => g.ia.pg = 0 && !g.ia.pn && g.ia.pd = 0 && !g.ia.x
  | some (.unit op) => g.it.pg = 0 && !g.it.pn && g.it.pd = 0 && (if g.it.x then op.extReq || op.extOpt else !op.extReq)

/-- Step 2 for gate `j`: the word, no unit twice, the stream engine only first as stream in and last as stream out, no in_q beside a
stream in and no out_q beside a stream out. -/
def SlmRec.gateOk (r : SlmRec) (x : Ctx) (j : Nat) (g : RecGate) : Bool :=
  let h := x.hd g.ia.q
  let first := decide (j = 0)
  let last := !r.feeds j
  let streamIn := first && !(h.bound && h.producer) && !(last && r.inEn)
  let streamOut := last && !(h.bound && !h.producer)
  g.wordOk
    && (g.op = some .stream || (r.gates.take j).all (fun f => f.unit ≠ g.unit))
    && (g.op ≠ some .stream ||
        (if streamIn then !r.inEn else streamOut && !r.outEn))

/-- Whether gate `j` is a stream in (else a stream gate is a stream out). -/
def SlmRec.isStreamIn (r : SlmRec) (x : Ctx) (j : Nat) : Bool :=
  match r.gates[j]? with
  | some g =>
    let h := x.hd g.ia.q
    g.op = some .stream && j = 0 && !(h.bound && h.producer) && !(!r.feeds j && r.inEn)
  | none => false

/-- Step 3 for gate `j`: the checks of its command; of a stream gate, those of its list. -/
def SlmRec.ownCode (r : SlmRec) (s : State) (x : Ctx) (j : Nat) (g : RecGate) : Option Nat :=
  match g.op with
  | some (.unit op) =>
    let linked := r.linkedOut j && (GateOp.unit op).gives
    if !gateLegal op g.it linked then some E.ILLEGAL
    else gateCheck op g.it linked s (g.cmd.forCheck g.linkOp (linked && !r.teeOf j))
  | _ =>
    if !g.ia.legal false true true false true 0xF then some E.ILLEGAL
    else
      let off := (x.sr g.ia.a.toNat).toNat
      let cnt := (x.sr g.ia.b.toNat).toNat
      if listOutside off cnt then some E.ADDR_UNMAPPED else listFault off cnt

/-- The handles that a Slalom command uses: the handle, the ends it takes (producer, consumer), and the offset to record. -/
def SlmRec.handles (r : SlmRec) (x : Ctx) (off : Nat) : List (Handle × Bool × Bool × Nat) :=
  (if r.inEn then [(x.hd r.inQ, false, true, off)] else [])
    ++ (if r.outEn then [(x.hd r.outQ, true, false, off)] else [])
    ++ ((r.gates.zip (List.range r.gates.length)).filter (fun p => p.1.op = some .stream)).map
        (fun p => (x.hd p.1.ia.q, true, true, off + 64 + 16 * p.2))

/-- Step 4: the codes of the rings, each over every handle before the next code. -/
def ringCodes (s : State) (n : Nat) (hs : List (Handle × Bool × Bool × Nat)) : Option (Nat × Nat) :=
  let busy := fun (p : Handle × Bool × Bool × Nat) =>
    (p.2.1 && decide (s.endHolder n p.1.ring true ≠ 0)) || (p.2.2.1 && decide (s.endHolder n p.1.ring false ≠ 0))
      || decide (1 < (hs.filter (fun q => q.1.ring = p.1.ring && ((q.2.1 && p.2.1) || (q.2.2.1 && p.2.2.1)))).length)
  let find := fun (code : Nat) (t : Handle × Bool × Bool × Nat → Bool) => (hs.find? t).map (fun p => (code, p.2.2.2))
  (find E.RING_UNBOUND (fun p => !p.1.bound)).or
    ((find E.RING_CFG (fun p => !(s.ring n p.1.ring).configured)).or
      ((find E.RING_ABORTED (fun p => (s.ring n p.1.ring).aborted)).or (find E.RING_BUSY busy)))

/-- Step 5 for gate `j`: its linked operand, its output, formats and counts, the rows of a Groomer gate. out_q may take the flat output of an SMV:
R185 gives no code for it (DESIGN CHOICE, log 203). -/
def SlmRec.linkOk (r : SlmRec) (j : Nat) (g : RecGate) : Bool :=
  let fed := decide (0 < j) || r.inEn
  match g.op with
  | none => false
  | some go =>
    let opnd := g.cmd.operand g.linkOp
    let pair :=
      match r.gates[j - 1]?, go with
      | some p, .unit op =>
        (match j, p.op with
          | 0, _ => true
          | _, some (.unit pop) =>
            opnd.fmt = p.cmd.tD.fmt && decide (opnd.count = p.cmd.tD.count)
              && (pop ≠ .smv || op.unitOf 0 = .vector || op = .spush)
          | _, _ => true)
      | _, _ => true
    let rows := match go with
      | .unit op => !rowTooLong op g.cmd.tA
      | .stream => true
    (!fed || (go.allows g.linkOp && pair && rows)) && (!(r.feeds j || r.outEn) || go.gives)

/-- The first gate that fails a test: its index. -/
def SlmRec.badGate (r : SlmRec) (t : Nat → RecGate → Bool) : Option Nat :=
  (List.range r.gates.length).find? (fun j => match r.gates[j]? with | some g => !t j g | none => false)

/-- The gates of a command as they run. -/
def SlmRec.toGates (r : SlmRec) (x : Ctx) (id : Nat) : List Gate :=
  (r.gates.zip (List.range r.gates.length)).map (fun p =>
    let j := p.2
    let g := p.1
    match g.op with
    | some (.unit op) =>
      let cmd := { g.cmd with chain := some id, pd := 0 }
      let us := match op with
        | .gnrm | .gsmx | .gnrmb | .gsmxb => groomUnits cmd
        | _ => [op.unitOf (fieldOf g.it.ctl 0 1)]
      { units := us, cmd := cmd, linkOp := g.linkOp, linked := r.linkedOut j && (GateOp.unit op).gives, tee := r.teeOf j }
    | _ => { units := [], cmd := g.cmd, ring := some (x.hd g.ia.q).ring, linkOp := g.linkOp })

/-- A gate's command takes its place in the Snowpack as the control processor sees it. -/
def gatePut (n : Nat) (s : State) (g : Gate) : State :=
  match g.cmd.op with
  | .spush => if g.ring.isNone then snowQueuePush s n g.cmd.tA.bytes else s
  | .spop => snowQueuePop s n
  | .gnrm | .gsmx | .gnrmb | .gsmxb => groomPut n s g.cmd
  | _ => s

/-- Whether a gate pops a record that lies deeper than the directory. -/
def gatePops (g : Gate) : Bool := g.cmd.op = .spop || (g.cmd.op = .gnrmb && decide (g.cmd.spillRows ≠ 0))

/-- Step 3 over the gates, each checked after those before it have taken their places in the Snowpack (spec/04 R90, spec/09 R197). A pop that is held
finds nothing yet, and no gate after it is checked (R199). -/
def SlmRec.ownFault (r : SlmRec) (n : Nat) (x : Ctx) (off : Nat) : List (RecGate × Gate × Nat) → State → Option (Nat × Nat)
  | [], _ => none
  | p :: ps, s =>
    if gatePops p.2.1 && s.snowHeld n then none
    else match r.ownCode s x p.2.2 p.1 with
    | some c => some (c, off + 64 + 16 * p.2.2)
    | none => r.ownFault n x off ps (gatePut n s p.2.1)

/-- Whether a pop of the gates is held (R199), each seen after those before it. -/
def gatesHeld (n : Nat) : List Gate → State → Bool
  | [], _ => false
  | g :: gs, s => (gatePops g && s.snowHeld n) || gatesHeld n gs (gatePut n s g)

/-- The checks of SLM in the order of R185: the code and the SRAM offset to record. An SLM whose pop is held has passed those before it (R199). -/
def slmFault (s : State) (n k off : Nat) : Option (Nat × Nat) :=
  let x := s.ctx n k
  if off % 64 ≠ 0 then some (E.SLM_REC, off)
  else if 0x3000000 < off + 64 then some (E.ADDR_UNMAPPED, off)
  else
    let ng := fieldOf ((s.lbytes n 1 off 1).getD 0 0) 0 3
    if ng = 0 ∨ ng = 7 then some (E.SLM_REC, off)
    else if 0x3000000 < off + 64 + 16 * ng then some (E.ADDR_UNMAPPED, off)
    else
      let r := readRec s n k off ng
      let entry := fun (j : Nat) => off + 64 + 16 * j
      if !r.reservedOk ng then some (E.SLM_REC, off)
      else
        match r.badGate (r.gateOk x) with
        | some j => some (E.SLM_GATE, entry j)
        | none =>
          match r.ownFault n x off (r.gates.zip ((r.toGates x 0).zip (List.range ng))) s with
          | some f => some f
          | none =>
            if gatesHeld n (r.toGates x 0) s then none
            else match ringCodes s n (r.handles x off) with
            | some f => some f
            | none =>
              let badRole := (r.inEn && (x.hd r.inQ).producer) || (r.outEn && !(x.hd r.outQ).producer)
              if badRole then some (E.SLM_LINK, off) else (r.badGate r.linkOk).map (fun j => (E.SLM_LINK, entry j))

/-! ## Issue (R186) -/

/-- The lists of the stream gates. -/
def SlmRec.lists (r : SlmRec) (x : Ctx) (k id : Nat) : List SCmd :=
  ((r.gates.zip (List.range r.gates.length)).filter (fun p => p.1.op = some .stream)).map (fun p =>
    let g := p.1
    let inb := r.isStreamIn x p.2
    let total := match (if inb then r.gates[p.2 + 1]? else r.gates[p.2 - 1]?) with
      | some h => (match h.op with | some (.unit _) => if inb then feedBytes h.cmd h.linkOp else outBytes h.cmd | _ => 0)
      | none => 0
    .list (x.hd g.ia.q).ring
      { inbound := inb, base := (x.sr g.ia.a.toNat).toNat, count := (x.sr g.ia.b.toNat).toNat, ctx := k, inc := x.inc,
        chain := some id, total := total })

/-- Registers that an SLM's gates name, for the hold on outstanding loads (R186). -/
def SlmRec.regs (r : SlmRec) (s : State) : List Nat × List Nat :=
  r.gates.foldl (fun p g =>
    match g.op with
    | some (.unit .vscale) => (fieldOf g.it.ctl 0 5 :: p.1, p.2 ++ heldDescs g.it s true true true true)
    | some (.unit _) => (p.1, p.2 ++ heldDescs g.it s true true true true)
    | some .stream => (g.ia.a.toNat :: g.ia.b.toNat :: p.1, p.2)
    | none => p) ([], [])

/-- The record that an SLM at an offset reads, when it lies in SRAM. -/
def slmRec (s : State) (n k off : Nat) : SlmRec :=
  let ng := fieldOf ((s.lbytes n 1 off 1).getD 0 0) 0 3
  if off % 64 ≠ 0 ∨ 0x3000000 < off + 64 + 16 * ng ∨ ng = 7 then { hdr := [], gates := [] } else readRec s n k off ng

/-- The units that a command's gates need room in; the stream engine once for each stream gate. -/
def gateUnits (r : SlmRec) (gs : List Gate) : List UnitId :=
  (gs.map (·.units)).flatten ++ (if r.gates.any (fun g => g.op = some .stream) then [.stream] else [])

/-- Whether every queue has room for all the commands that it is to take: a unit executes one and 8 wait. -/
def slmRoom (c : Core) (r : SlmRec) (gs : List Gate) : Bool :=
  let us := (gs.map (·.units)).flatten
  us.all (fun u => decide ((c.eng u).run.toList.length + (c.eng u).queue.length + us.count u ≤ 9))
    && decide (c.sq.length + (r.gates.filter (fun g => g.op = some .stream)).length ≤ 8)

/-- Place a checked Slalom command in its queues. -/
def slmPlace (n k : Nat) (pd : Nat) (r : SlmRec) (s : State) : State :=
  let x := s.ctx n k
  let id := (s.core n).chainNo
  let gs := r.toGates x id
  let need := if r.inEn then ((gs.head?).map (fun g => if g.ring.isSome then 0 else feedBytes g.cmd g.linkOp)).getD 0 else 0
  let ch : Chain :=
    { id := id, gates := gs, ctx := k, inc := x.inc, pd := pd,
      inRing := if r.inEn then some (x.hd r.inQ).ring else none
      outRing := if r.outEn then some (x.hd r.outQ).ring else none
      need := need }
  let s1 := s.setCtx n k ((x.setPr pd false).adv 8)
  let c := s1.core n
  let s2 := s1.setCore n { c with chains := c.chains ++ [ch], chainNo := id + 1, sq := c.sq ++ r.lists x k id }
  let s3 := gs.foldl (fun st g => gatePut n (g.units.foldl (fun st u => st.push n u g.cmd) st) g) s2
  s3.settle n

/-- SLM: the Slalom command whose record is at SRAM offset s[a]. -/
def execSlm (i : IA) (s : State) : Host.Outcome State Fault Refusal :=
  let off := ((s.ctx i.n i.k).sr i.a.toNat).toNat
  let rg := (slmRec s i.n i.k off).regs s
  go (issue i.n i.k i.pg i.pn 8 (i.legal false true false false true 0) (i.a.toNat :: rg.1) rg.2 s fun s =>
    match slmFault s i.n i.k off with
    | some (code, addr) => s.faultCtx i.n i.k code addr
    | none =>
      let r := slmRec s i.n i.k off
      let gs := r.toGates (s.ctx i.n i.k) 0
      if gatesHeld i.n gs s then snowAskDir i.n s
      else if !slmRoom (s.core i.n) r gs then s.makeWait i.n i.k (.queue (gateUnits r gs))
      else slmPlace i.n i.k i.pd.toNat r s)

/-! ## The end of a Slalom command (R189) -/

/-- Whether a chain has handed out everything. -/
def Chain.over (c : Core) (ch : Chain) : Bool := ch.fin && ch.outBuf.isEmpty && !c.chainList ch.id false && !c.chainList ch.id true

/-- The flags of a chain. -/
def Chain.flagsOf (ch : Chain) : Flags := ⟨ch.flags.1, ch.flags.2.1, ch.flags.2.2.1, ch.flags.2.2.2⟩

/-- The oldest chain whose last gate has completed ends: flags, queues, predicate. -/
def slalomDone (n : Nat) (s : State) : State :=
  if s.stoppedAt n then s
  else
    let s1 := s.settle n
    match (s1.core n).chains.find? (fun ch => ch.over (s1.core n)) with
    | none => s1
    | some ch =>
      let s2 := (s1.setFlags n ch.ctx ch.inc ch.flagsOf).setCore n (((s1.setFlags n ch.ctx ch.inc ch.flagsOf).core n).without ch.id)
      ((s2.wakeRoom n).complete n ch.ctx ch.inc ch.pd).settle n

/-- SLALOM_DONE. -/
def execSlalomDone (core : BitVec 10) (s : State) : Host.Outcome State Fault Refusal :=
  go (s.unlessStopped core.toNat (slalomDone core.toNat))

end Sys2Proof.Machine
end

