-- ==== Sys2Proof/Machine/Cores.lean ====
section
/-! DEFINITION. Stopping the cores of the engine (spec/14 R313) and the configuration of a core's SRAM (spec/03 R48). -/

namespace Sys2Proof.Machine

/-- A state in which what a started unit command writes is undefined. -/
def undefCmd (n arr : Nat) (x : UCmd) (s : State) : State :=
  let s1 := if arr < 2 then (accTouch x).foldl (fun st p => st.accUndef n arr p) s else s
  undefDests n x true s1

/-- A state in which what a started outbound list writes on this engine is undefined, descriptor by descriptor. -/
def undefList (n : Nat) (l : XList) (s : State) : State :=
  if l.inbound then s
  else
    (List.range l.count).foldl (fun st i =>
      match readDesc st n (l.base + 32 * i) false with
      | none => st
      | some d =>
        (List.range d.rows).foldl (fun st r =>
          let a := (d.addr + r * d.pitch) % 2 ^ 64
          if d.space = 1 then (if a + d.len ≤ 0x3000000 then st.lundef n 1 a d.len else st)
          else undefVirt n (d.len / 2 ^ 21 + 2) a d.len st) st) s

/-- What the core's started commands write is undefined: unit commands, Slalom gates, running lists, remote instructions. -/
def undefStarted (n : Nat) (s : State) : State :=
  let c := s.core n
  let one := fun (st : State) (p : Nat × Option UCmd) =>
    match p.2 with
    | some x => if x.chain.isSome then st else undefCmd n p.1 x st
    | none => st
  let s1 := [(0, c.a0.run), (1, c.a1.run), (2, c.schuss.run), (2, c.groomer.run), (2, c.vector.run), (2, c.snowU.run), (2, c.digest.run)].foldl one s
  let s2 := c.chains.foldl (fun st ch => ch.computing.foldl (fun st g => undefGate st n g) st) s1
  let s3 := c.rings.foldl (fun st p => match p.2.lists.head? with | some l => undefList n l st | none => st) s2
  c.slots.foldl (fun st p => match p.2.op with
    | .rget | .ratom => st.lundef n 1 p.2.loc p.2.total
    | .rput => undefVirt n (p.2.len / 2 ^ 21 + 2) p.2.rem p.2.len st
    | .rcopy => undefVirt n (p.2.len / 2 ^ 21 + 2) p.2.dst p.2.len st) s3

/-- A core as a stop leaves it: contexts FREE and everything in progress gone; event flags, translations, the configuration of its
rings, the registers of its arrays with the turn of H0 and H1 (spec/06 R140: it starts over at a reset only) and the numbers of its contexts' starts
stay. -/
def Core.halted (c : Core) : Core :=
  { ctxs := c.ctxs.map (fun p => (p.1, ({ p.2 with st := .free, wait := .none, q := [], loads := [], rfail := false } : Ctx)))
    cur := c.cur
    ev := c.ev
    rings := c.rings.map (fun p => (p.1, ({ configured := p.2.configured, base := p.2.base, cbytes := p.2.cbytes, n := p.2.n } : Ring)))
    chainNo := c.chainNo
    tlb2 := c.tlb2
    tlb1 := c.tlb1
    invalBusy := c.invalBusy
    turns := c.turns
    arrays := c.arrays }

/-- A core stops (R313, steps 1 and 2): what its started commands write is undefined, its requests are forgotten, its Snowpack is
empty. -/
def coreStop (n : Nat) (s : State) : State :=
  let s1 := undefStarted n s
  let mine := fun (r : OutReq) => match r.src with
    | .ring c _ | .slot c _ => decide (c = n)
    | .engine _ _ | .fabric _ _ _ _ => false
  let s2 := { s1 with
    net := { s1.net with reqs := s1.net.reqs.filter (fun r => !mine r) }
    heldStarts := s1.heldStarts.filter (fun h => h.core ≠ n) }
  s2.setCore n (s2.core n).halted

/-- Every core of the engine stops and stays stopped. -/
def stopCores (s : State) : State := { s.cores.foldl (fun st p => coreStop p.1 st) s with stopAll := true }

/-- The cores go on. -/
def resumeCores (s : State) : State := s.cores.foldl (fun st p => st.select p.1) { s with stopAll := false }

/-! ## SRAM placement (spec/03 R48) -/

/-- Whether every context of a core is FREE and every unit's command queue empty. -/
def Core.quiet (c : Core) : Bool :=
  c.ctxs.all (fun p => decide (p.2.st = .free)) && [c.a0, c.a1, c.schuss, c.groomer, c.vector, c.snowU, c.digest].all (fun e => e.queue.isEmpty)
    && c.sq.isEmpty

/-- A write to CORE_SRAM_CFG: SRAM is undefined after it; at any other time it is ignored and reported. -/
def sramCfg (n : Nat) (v : W64) (s : State) : State :=
  if (s.core n).quiet then (s.setFld (F.CORE_SRAM_CFG_swizzle n) (fieldOf v 0 1)).lundef n 1 0 0x3000000
  else s.raiseCore EV.CORE_CFG_LOCKED n (leBytes 2 n)

/-- CORE_SRAM_CFG_WRITE. -/
def execCoreSramCfgWrite (core : BitVec 10) (value : W64) (s : State) : Host.Outcome State Fault Refusal :=
  go (s.atCore core.toNat (sramCfg core.toNat value))

end Sys2Proof.Machine
end

