-- ==== Sys2Proof/Machine/Crypto.lean ====
section
/-! DEFINITION. The cryptography that the manual names by its standards: SHA-512 (FIPS 180-4), MGF1, RSAES-OAEP and RSASSA-PSS (RFC 8017) with
SHA-512 and RSA-4096, and AES-256-GCM (NIST SP 800-38D) with a 96-bit IV (spec/12 R260, R263; spec/14 R328; spec/17 R390). -/

namespace Sys2Proof.Machine

/-! ## SHA-512 -/

/-- The round constants. -/
def shaK : List Nat :=
  [0x428A2F98D728AE22, 0x7137449123EF65CD, 0xB5C0FBCFEC4D3B2F, 0xE9B5DBA58189DBBC, 0x3956C25BF348B538, 0x59F111F1B605D019, 0x923F82A4AF194F9B, 0xAB1C5ED5DA6D8118, 0xD807AA98A3030242, 0x12835B0145706FBE] ++
  [0x243185BE4EE4B28C, 0x550C7DC3D5FFB4E2, 0x72BE5D74F27B896F, 0x80DEB1FE3B1696B1, 0x9BDC06A725C71235, 0xC19BF174CF692694, 0xE49B69C19EF14AD2, 0xEFBE4786384F25E3, 0x0FC19DC68B8CD5B5, 0x240CA1CC77AC9C65] ++
  [0x2DE92C6F592B0275, 0x4A7484AA6EA6E483, 0x5CB0A9DCBD41FBD4, 0x76F988DA831153B5, 0x983E5152EE66DFAB, 0xA831C66D2DB43210, 0xB00327C898FB213F, 0xBF597FC7BEEF0EE4, 0xC6E00BF33DA88FC2, 0xD5A79147930AA725] ++
  [0x06CA6351E003826F, 0x142929670A0E6E70, 0x27B70A8546D22FFC, 0x2E1B21385C26C926, 0x4D2C6DFC5AC42AED, 0x53380D139D95B3DF, 0x650A73548BAF63DE, 0x766A0ABB3C77B2A8, 0x81C2C92E47EDAEE6, 0x92722C851482353B] ++
  [0xA2BFE8A14CF10364, 0xA81A664BBC423001, 0xC24B8B70D0F89791, 0xC76C51A30654BE30, 0xD192E819D6EF5218, 0xD69906245565A910, 0xF40E35855771202A, 0x106AA07032BBD1B8, 0x19A4C116B8D2D0C8, 0x1E376C085141AB53] ++
  [0x2748774CDF8EEB99, 0x34B0BCB5E19B48A8, 0x391C0CB3C5C95A63, 0x4ED8AA4AE3418ACB, 0x5B9CCA4F7763E373, 0x682E6FF3D6B2B8A3, 0x748F82EE5DEFB2FC, 0x78A5636F43172F60, 0x84C87814A1F0AB72, 0x8CC702081A6439EC] ++
  [0x90BEFFFA23631E28, 0xA4506CEBDE82BDE9, 0xBEF9A3F7B2C67915, 0xC67178F2E372532B, 0xCA273ECEEA26619C, 0xD186B8C721C0C207, 0xEADA7DD6CDE0EB1E, 0xF57D4F7FEE6ED178, 0x06F067AA72176FBA, 0x0A637DC5A2C898A6] ++
  [0x113F9804BEF90DAE, 0x1B710B35131C471B, 0x28DB77F523047D84, 0x32CAAB7B40C72493, 0x3C9EBE0A15C9BEBC, 0x431D67C49C100D4C, 0x4CC5D4BECB3E42B6, 0x597F299CFC657E2A, 0x5FCB6FAB3AD6FAEC, 0x6C44198C4A475817]

/-- The initial hash value. -/
def shaH : List Nat :=
  [0x6A09E667F3BCC908, 0xBB67AE8584CAA73B, 0x3C6EF372FE94F82B, 0xA54FF53A5F1D36F1, 0x510E527FADE682D1, 0x9B05688C2B3E6C1F, 0x1F83D9ABFB41BD6B, 0x5BE0CD19137E2179]

/-- Rotation right of a 64-bit word. -/
def rotr64 (x n : Nat) : Nat := (x >>> n) ||| (x <<< (64 - n)) % 2 ^ 64

/-- The small sigma functions of the message schedule. -/
def shaS0 (x : Nat) : Nat := rotr64 x 1 ^^^ rotr64 x 8 ^^^ (x >>> 7)
def shaS1 (x : Nat) : Nat := rotr64 x 19 ^^^ rotr64 x 61 ^^^ (x >>> 6)

/-- Big-endian numbers. -/
def beNat (bs : List Byte) : Nat := bs.foldl (fun n b => n * 256 + b.toNat) 0
def beBytes (n v : Nat) : List Byte := (leBytes n v).reverse

/-- Pieces of `k` elements. -/
def pieces {α : Type} (k : Nat) : Nat → List α → List (List α)
  | 0, _ => []
  | n + 1, l => l.take k :: pieces k n (l.drop k)

/-- Extend the schedule: `w` holds the words so far, newest first. -/
def shaSched : Nat → List Nat → List Nat
  | 0, w => w.reverse
  | n + 1, w => shaSched n ((shaS1 (w.getD 1 0) + w.getD 6 0 + shaS0 (w.getD 14 0) + w.getD 15 0) % 2 ^ 64 :: w)

/-- One round on the eight working variables. -/
def shaRound (v : List Nat) (k w : Nat) : List Nat :=
  match v with
  | [a, b, c, d, e, f, g, h] =>
    let s1 := rotr64 e 14 ^^^ rotr64 e 18 ^^^ rotr64 e 41
    let ch := (e &&& f) ^^^ ((2 ^ 64 - 1 - e) &&& g)
    let t1 := h + s1 + ch + k + w
    let s0 := rotr64 a 28 ^^^ rotr64 a 34 ^^^ rotr64 a 39
    let mj := (a &&& b) ^^^ (a &&& c) ^^^ (b &&& c)
    [(t1 + s0 + mj) % 2 ^ 64, a, b, c, (d + t1) % 2 ^ 64, e, f, g]
  | _ => v

/-- One block. -/
def shaBlock (h : List Nat) (b : List Byte) : List Nat :=
  let w := shaSched 64 ((pieces 8 16 b).map beNat).reverse
  let v := (List.zip shaK w).foldl (fun v p => shaRound v p.1 p.2) h
  (List.zip h v).map (fun p => (p.1 + p.2) % 2 ^ 64)

/-- A padded message. -/
def shaPad (bs : List Byte) : List Byte :=
  let n := bs.length
  bs ++ [0x80#8] ++ List.replicate ((239 - n % 128) % 128) 0 ++ beBytes 16 (8 * n)

/-- The SHA-512 digest of a message, 64 bytes. -/
def sha512 (bs : List Byte) : List Byte :=
  let p := shaPad bs
  ((pieces 128 (p.length / 128) p).foldl shaBlock shaH).flatMap (beBytes 8)

/-! ## RSA (RFC 8017) -/

/-- Modular exponentiation, by squaring; `n` is the number of bits of the exponent. -/
def powMod (m : Nat) : Nat → Nat → Nat → Nat → Nat
  | 0, _, _, acc => acc
  | n + 1, b, e, acc => powMod m n (b * b % m) (e / 2) (if e % 2 = 1 then acc * b % m else acc)

/-- The RSA primitive on 4096-bit numbers. -/
def rsa (n e x : Nat) : Nat := powMod n 4096 (x % n) e 1

/-- MGF1 with SHA-512. -/
def mgf1 (seed : List Byte) (len : Nat) : List Byte :=
  ((List.range (ceilDiv len 64)).flatMap (fun i => sha512 (seed ++ beBytes 4 i))).take len

/-- Exclusive or of two byte strings. -/
def xorBytes (a b : List Byte) : List Byte := (List.zip a b).map (fun p => p.1 ^^^ p.2)

/-- EME-OAEP decoding of a 512-byte message with a label; none on any failure. -/
def oaepDecode (label em : List Byte) : Option (List Byte) :=
  let seed := xorBytes ((em.drop 1).take 64) (mgf1 (em.drop 65) 64)
  let db := xorBytes (em.drop 65) (mgf1 seed 447)
  let rest := (db.drop 64).dropWhile (· = 0)
  if em.length = 512 ∧ em.head? = some 0 ∧ db.take 64 = sha512 label ∧ rest.head? = some 1 then some (rest.drop 1) else none

/-- RSAES-OAEP decryption of 512 bytes. -/
def oaepOpen (n d : Nat) (label c : List Byte) : Option (List Byte) :=
  if beNat c < n then oaepDecode label (beBytes 512 (rsa n d (beNat c))) else none

/-- EMSA-PSS encoding of a message for a 4096-bit modulus with a 64-byte salt. -/
def pssEncode (m salt : List Byte) : List Byte :=
  let h := sha512 (List.replicate 8 0 ++ sha512 m ++ salt)
  let db := List.replicate 382 0 ++ [1#8] ++ salt
  let masked := xorBytes db (mgf1 h 447)
  (masked.head?.getD 0 &&& 0x7F) :: masked.drop 1 ++ h ++ [0xBC#8]

/-- EMSA-PSS verification. -/
def pssCheck (m em : List Byte) : Bool :=
  let masked := em.take 447
  let h := (em.drop 447).take 64
  let db0 := xorBytes masked (mgf1 h 447)
  let db := (db0.head?.getD 0 &&& 0x7F) :: db0.drop 1
  decide (em.length = 512 ∧ em.getLast? = some 0xBC ∧ (em.head?.getD 0).toNat < 128
    ∧ db.take 383 = List.replicate 382 0 ++ [1#8] ∧ h = sha512 (List.replicate 8 0 ++ sha512 m ++ db.drop 383))

/-- RSASSA-PSS signature with a salt, and its verification. -/
def pssSign (n d : Nat) (m salt : List Byte) : List Byte := beBytes 512 (rsa n d (beNat (pssEncode m salt)))
def pssVerify (n e : Nat) (m sig : List Byte) : Bool :=
  sig.length = 512 && decide (beNat sig < n) && pssCheck m (beBytes 512 (rsa n e (beNat sig)))

/-! ## AES-256-GCM -/

/-- The S-box, entry 0 in the lowest byte. -/
def aesTable : Nat :=
  0x16BB54B00F2D99416842E6BF0D89A18CDF2855CEE9871E9B948ED9691198F8E19E1DC186B95735610EF6034866B53E708A8BBD4B1F74DDE8C6B4A61C2E2578BA08AE7A65EAF4566CA94ED58D6D37C8E779E4959162ACD3C25C2406490A3A32E0DB0B5EDE14B8EE4688902A22DC4F816073195D643D7EA7C41744975FEC130CCDD2F3FF1021DAB6BCF5389D928F40A351A89F3C507F02F94585334D43FBAAEFD0CF584C4A39BECB6A5BB1FC20ED00D153842FE329B3D63B52A05A6E1B1A2C830975B227EBE28012079A059618C323C7041531D871F1E5A534CCF73F362693FDB7C072A49CAFA2D4ADF04759FA7DC982CA76ABD7FE2B670130C56F6BF27B777C63

/-- One substitution. -/
def aesSub (b : Byte) : Byte := BitVec.ofNat 8 (aesTable >>> (8 * b.toNat))

/-- Multiplication by x. -/
def aesX (b : Byte) : Byte := (b <<< 1) ^^^ (if b.toNat < 128 then 0 else 0x1B)

/-- The key schedule of AES-256 as words of 4 bytes, newest first. -/
def aesKeys : Nat → Byte → List (List Byte) → List (List Byte)
  | 0, _, w => w.reverse
  | n + 1, rc, w =>
    let i := w.length
    let t := w.headD []
    let u :=
      if i % 8 = 0 then
        match (t.drop 1 ++ t.take 1).map aesSub with
        | a :: r => (a ^^^ rc) :: r
        | [] => []
      else if i % 8 = 4 then t.map aesSub else t
    aesKeys n (if i % 8 = 0 then aesX rc else rc) (xorBytes (w.getD 7 []) u :: w)

/-- The 15 round keys. -/
def aesRoundKeys (key : List Byte) : List (List Byte) :=
  (pieces 4 15 (aesKeys 52 1 (pieces 4 8 key).reverse)).map List.flatten

/-- ShiftRows on 16 bytes in column order. -/
def aesShift (s : List Byte) : List Byte := (List.range 16).map (fun i => s.getD ((i + 4 * (i % 4)) % 16) 0)

/-- MixColumns on one column. -/
def aesMix (c : List Byte) : List Byte :=
  (List.range 4).map (fun i =>
    let b := fun j => c.getD ((i + j) % 4) 0
    aesX (b 0) ^^^ aesX (b 1) ^^^ b 1 ^^^ b 2 ^^^ b 3)

/-- One block encrypted. -/
def aesBlock (ks : List (List Byte)) (x : List Byte) : List Byte :=
  match ks with
  | [] => x
  | k0 :: rest =>
    let mid := rest.take 13
    let y := mid.foldl (fun s k => xorBytes (((pieces 4 4 (aesShift (s.map aesSub))).map aesMix).flatten) k) (xorBytes x k0)
    xorBytes (aesShift (y.map aesSub)) (rest.getD 13 [])

/-- Multiplication in the field of GHASH; the first bit of a block is its highest. -/
def ghashMul : Nat → Nat → Nat → Nat → Nat
  | 0, _, _, z => z
  | n + 1, x, v, z =>
    ghashMul n (x * 2 % 2 ^ 128) (if v % 2 = 1 then (v / 2) ^^^ (0xE1 <<< 120) else v / 2)
      (if 2 ^ 127 ≤ x then z ^^^ v else z)

/-- Zeros up to a multiple of 16 bytes. -/
def pad16 (bs : List Byte) : List Byte := bs ++ List.replicate (roundUp bs.length 16 - bs.length) 0

/-- GHASH of whole blocks. -/
def ghash (h : Nat) (bs : List Byte) : Nat :=
  (pieces 16 (bs.length / 16) bs).foldl (fun y b => ghashMul 128 (y ^^^ beNat b) h 0) 0

/-- Counter-mode encryption from counter 2. -/
def gcmCtr (ks : List (List Byte)) (iv bs : List Byte) : List Byte :=
  xorBytes bs ((List.range (ceilDiv bs.length 16)).flatMap (fun i => aesBlock ks (iv ++ beBytes 4 (i + 2))))

/-- The authentication tag of a ciphertext. -/
def gcmTag (ks : List (List Byte)) (iv aad ct : List Byte) : List Byte :=
  let h := beNat (aesBlock ks (List.replicate 16 0))
  let s := ghash h (pad16 aad ++ pad16 ct ++ beBytes 8 (8 * aad.length) ++ beBytes 8 (8 * ct.length))
  xorBytes (beBytes 16 s) (aesBlock ks (iv ++ beBytes 4 1))

/-- Encrypt: ciphertext and tag. -/
def gcmSeal (key iv aad pt : List Byte) : List Byte × List Byte :=
  let ks := aesRoundKeys key
  let ct := gcmCtr ks iv pt
  (ct, gcmTag ks iv aad ct)

/-- Decrypt; none when the tag does not authenticate. -/
def gcmOpen (key iv aad ct tag : List Byte) : Option (List Byte) :=
  let ks := aesRoundKeys key
  if gcmTag ks iv aad ct = tag then some (gcmCtr ks iv ct) else none

end Sys2Proof.Machine
end

