-- ==== Sys2Proof/Machine/Reduce.lean ====
section
/-! DEFINITION. Gradient reduction (spec/13, spec/09 R210, R211): the plan, chain and owner tables, submissions and receipts, the chain
additions, delivery, poison, abandoned steps. -/

namespace Sys2Proof.Machine

/-- A state with RED replaced. -/
def State.setRed (s : State) (r : Red) : State := { s with red := r }

/-! ## The gradient plan (spec/09 R210, R211) -/

/-- The blocks of a tensor (spec/13 R292). -/
def blocksOf (elems : Nat) : Nat := ceilDiv elems 32

/-- Entry `e` of the plan in memory: tensor identifier, entry, trainable, and whether its reserved bits are 0. -/
def readGEnt (s : State) (base e : Nat) : Nat × GEnt × Bool × Bool :=
  let n := fun o k => s.mem.nat (base + 32 * e + o) k
  (n 0 8, { layer := n 8 2, first := n 10 2, count := n 12 2, owner := n 14 2, elems := n 16 4 }, decide (n 20 1 % 2 = 1),
    decide (n 20 1 < 2 ∧ n 21 11 = 0))

/-- Whether two elements of a list, an earlier and a later one, satisfy a test. -/
def somePair {α : Type} (t : α → α → Bool) : List α → Bool
  | [] => false
  | x :: xs => xs.any (t x) || somePair t xs

/-- The checks of a plan load in order: the trainable entries, or the first failure (R211). -/
def gradPlanCheck (s : State) : List GEnt ⊕ Nat :=
  let base := s.fld F.RED_PLAN_BASE
  let len := s.fld F.RED_PLAN_LEN
  let inside := decide (0 < len ∧ base + 32 * len ≤ s.edgeSize)
  let l := if inside then (List.range len).map (readGEnt s base) else []
  let bad := fun (x : Nat × GEnt × Bool × Bool) =>
    let g := x.2.1
    !x.2.2.2 || decide (s.fld F.RED_OWNER_LEN ≤ g.owner ∨ g.elems = 0)
      || (if x.2.2.1 then decide (g.count = 0 ∨ blocksOf g.elems < g.count ∨ 65536 < ceilDiv (blocksOf g.elems) g.count) else g.count ≠ 0)
  let train := (l.filter (fun x => x.2.2.1)).map (fun x => x.2.1)
  if somePair (fun (a b : Nat × GEnt × Bool × Bool) => decide (a.1 = b.1)) l then .inr E.TIED_WEIGHT
  else if !inside || l.any bad
      || somePair (fun (a b : GEnt) => decide (a.layer = b.layer ∧ a.first < b.first + b.count ∧ b.first < a.first + a.count)) train then
    .inr E.PLAN_INVALID
  else .inl train

/-- Write of 1 to RED_PLAN_CTL.load. -/
def gradPlanLoad (s : State) : State :=
  if s.jobLoaded then s
  else
    match gradPlanCheck s with
    | .inr code => (s.setFld F.RED_PLAN_STS_code code).raiseDev EV.PLAN_REFUSED (leBytes 2 code)
    | .inl l =>
      let d := sha512 (s.mem.bytes (s.fld F.RED_PLAN_BASE) (32 * s.fld F.RED_PLAN_LEN))
      ((s.setRed { s.red with plan := l }).setFld F.RED_PLAN_STS_code 0).setGroup F.RED_PLAN_STS_digest_w1.addr
        ((pieces 8 8 d).map (fun b => BitVec.ofNat 64 (leNat b)))

/-- RED_PLAN_LOAD. -/
def execRedPlanLoad (value : W64) (s : State) : Host.Outcome State Fault Refusal :=
  go (if value.getLsbD 0 then gradPlanLoad s else s)

/-- The trainable bucket of a layer: its entry and its number of blocks (R292). -/
def Red.bucket (r : Red) (layer b : Nat) : Option (GEnt × Nat) :=
  (r.plan.find? (fun g => decide (g.layer = layer ∧ g.first ≤ b ∧ b < g.first + g.count))).map (fun g =>
    let n := blocksOf g.elems
    (g, n / g.count + bit (decide (b - g.first < n % g.count))))

/-! ## Chain and owner tables (R290, R291, R295) -/

/-- A chain table entry (Table 13-2); `clean` says that its reserved bits are 0. -/
structure ChainEnt where
  valid : Bool
  pg : Nat
  len : Nat
  pos : Nat
  up : Nat
  down : Nat
  clean : Bool

/-- Entry `c` of a bank. -/
def State.chainEnt (s : State) (bank c : Nat) : ChainEnt :=
  let a := s.fld F.RED_CHAIN_BASE * 2 ^ 13 + bank * 0x2000 + 32 * c
  let n := fun o k => s.mem.nat (a + o) k
  { valid := decide (n 0 1 % 2 = 1), pg := n 2 2, len := n 4 2, pos := n 6 2, up := n 8 4, down := n 12 4,
    clean := decide (n 0 1 < 2 ∧ n 1 1 = 0 ∧ n 16 16 = 0) }

/-- The entry of a chain in the current bank. -/
def State.chain (s : State) (c : Nat) : ChainEnt := s.chainEnt (s.fld F.RED_STS_bank) c

/-- The virtual channel of a parallel group (spec/11 R244). -/
def State.pgVc (s : State) (pg : Nat) : Option Nat :=
  ((List.range 12).find? (fun i => s.flag (F.DEV_PG_VC_valid i) && decide (s.fld (F.DEV_PG_VC_group i) = pg))).map (· + 4)

/-- Whether a node that a chain needs is there, its field has no reserved bit set, and it is not reached by RoCE (R295; log 70). -/
def chainNode (s : State) (node : Nat) : Bool :=
  decide (node < 2 ^ 22) && !s.isSelf node && (match s.route node with | .group _ => true | _ => false)

/-- Whether a valid chain entry is in order; the head's up and the tail's down are ignored (Table 13-2). -/
def ChainEnt.ok (s : State) (e : ChainEnt) : Bool :=
  decide (1 ≤ e.len ∧ e.len ≤ 4096 ∧ e.pos < e.len) && (e.pos = 0 || chainNode s e.up) && (e.pos + 1 = e.len || chainNode s e.down)

/-- The blocks of the largest layer. -/
def Red.layerMax (r : Red) : Nat :=
  (r.plan.map (fun g => ((r.plan.filter (fun h => h.layer = g.layer)).map (fun h => blocksOf h.elems)).sum)).foldl Nat.max 0

/-- The words of a register group as bytes. -/
def State.groupBytes (s : State) (f : Fld) (n : Nat) : List Byte := (s.group f.addr n).flatMap (fun x => leBytes 8 x.toNat)

/-- Write of 1 to RED_CHAIN_CTL.arm: the bank not in use is checked and armed for the next step boundary (R295). -/
def chainArm (s : State) : State :=
  let bank := 1 - s.fld F.RED_STS_bank
  let es := (List.range 256).map (s.chainEnt bank)
  let ownersOk := (List.range (s.fld F.RED_OWNER_LEN)).all (fun k =>
    let a := s.fld F.RED_OWNER_BASE * 2 ^ 19 + bank * 0x80000 + 8 * k
    decide (s.mem.nat a 4 < 2 ^ 22 ∧ s.mem.nat (a + 4) 4 < 2 ^ 22))
  let refuse := fun (code : Nat) => ((s.setRed { s.red with armOk := false }).setFld F.RED_STS_code code).raiseDev EV.RED_REFUSED (leBytes 2 code)
  if !ownersOk || !es.all (fun e => e.clean && (!e.valid || e.ok s)) then refuse E.RED_CHAIN_CFG
  else if s.fld F.RED_RX_SIZE < 2 * 68 * s.red.layerMax then refuse E.RED_RX_SMALL
  else ((s.setRed { s.red with armed := s.groupBytes F.RED_MEMB_DIGEST_w0 8, armOk := true }).setFld F.RED_STS_code 0).setFlag F.RED_STS_armed true

/-- RED_CHAIN_ARM. -/
def execRedChainArm (value : W64) (s : State) : Host.Outcome State Fault Refusal := go (if value.getLsbD 0 then chainArm s else s)

/-- A step begins: an armed bank becomes current, what RED keeps for one step is cleared, and blocks and commands of other steps go (R295,
spec/19 RED_PSN_STS). -/
def redStepStart (s : State) : State :=
  let s1 :=
    if s.flag F.RED_STS_armed then
      ((s.setRed { s.red with mdig := s.red.armed }).setFld F.RED_STS_bank (1 - s.fld F.RED_STS_bank)).setFlag F.RED_STS_armed false
    else s
  ((((s1.setRed { s1.red with
    issued := [], events := 0, bad := false, fails := [], dropped := false
    rx := s1.red.rx.filter (fun b => b.step = s.fld F.CKPT_STEP_step)
    cmds := s1.red.cmds.filter (fun c => decide (c.step = s.fld F.CKPT_STEP_step) || c.gone) }).setReg F.RED_PSN_STS_count.addr 0).setReg
    F.RED_PSN_STS_layer.addr 0)).setReg F.RED_PSN_STS_block.addr 0

/-! ## Poison (R297) -/

/-- A poison source at this engine: recorded, and reported up to ev_max times in a step. -/
def poisonSource (layer bucket block elem cause : Nat) (s : State) : State :=
  let n := s.fld F.RED_PSN_STS_count
  let s1 := s.setFld F.RED_PSN_STS_count (Nat.min (n + 1) (2 ^ 32 - 1))
  let s2 :=
    if n = 0 then
      ((((s1.setFld F.RED_PSN_STS_layer layer).setFld F.RED_PSN_STS_bucket bucket).setFld F.RED_PSN_STS_element elem).setFld
        F.RED_PSN_STS_cause cause).setFld F.RED_PSN_STS_block block
    else s1
  if s2.red.events < s2.fld F.RED_POISON_CFG_ev_max then
    (s2.setRed { s2.red with events := s2.red.events + 1 }).raiseDev EV.GRAD_POISON
      (leBytes 3 s2.node ++ leBytes 2 layer ++ leBytes 2 bucket ++ leBytes 2 block ++ leBytes 1 elem ++ leBytes 1 cause)
  else s2.bump F.RED_PSN_SUPP_CNT

/-- The contribution of a submitted block: under policy 1 its poison is cleared (R297). -/
def contribution (s : State) (b : GBlk) : GBlk := if s.fld F.RED_POISON_CFG_policy = 1 ∧ b.psn then { b with psn := false, pidx := 0 } else b

/-! ## Sending and delivery (R290, R294, R296) -/

/-- The data of a GBK packet: step and epoch, then blocks. -/
def gbkData (s : State) (bs : List (List Byte)) : List Byte :=
  leBytes 7 (s.fld F.CKPT_STEP_step) ++ leBytes 1 (s.fld F.RED_EPOCH) ++ bs.flatten

/-- Send blocks of a bucket, the first of index `no`, to a node as packets of up to 30; to this engine, into the receive area. -/
def redSend (layer bucket chain kind node no : Nat) (bs : List (List Byte)) (s : State) : State :=
  if s.isSelf node then
    s.setRed { s.red with rx := s.red.rx ++ (bs.zip (List.range bs.length)).map (fun p => ⟨layer, bucket, chain, kind, no + p.2, s.fld F.CKPT_STEP_step, p.1⟩) }
  else
    match s.pgVc (s.chain chain).pg with
    | none => s
    | some vc =>
      (List.range (ceilDiv bs.length 30)).foldl (fun st k =>
        (st.sendOne epRed vc node opGbk (no + 30 * k) (layer + bucket * 2 ^ 16 + chain * 2 ^ 32 + kind * 2 ^ 40)
          (gbkData st ((bs.drop (30 * k)).take 30))).1) s

/-- Blocks leave a member: to the next, or from the tail to the owner and the Shadow. -/
def redOut (c : RCmd) (no : Nat) (bs : List (List Byte)) (s : State) : State :=
  let e := s.chain c.chain
  if bs.isEmpty then s
  else if e.pos + 1 < e.len then redSend c.layer c.bucket c.chain 0 e.down no bs s
  else
    match s.red.bucket c.layer c.bucket with
    | none => s
    | some (g, _) =>
      let o := s.ownerNodes g.owner
      let s1 := redSend c.layer c.bucket c.chain 1 o.1 no bs s
      if o.2 = o.1 then s1 else redSend c.layer c.bucket c.chain 2 o.2 no bs s1

/-- The block of the receive area for a command's next index in its step, of one of the kinds. -/
def Red.waiting (r : Red) (c : RCmd) (kinds : List Nat) : Option RxBlk :=
  r.rx.find? (fun b => decide (b.layer = c.layer ∧ b.bucket = c.bucket ∧ b.chain = c.chain ∧ b.no = c.next ∧ b.step = c.step) && kinds.contains b.kind)

/-- RED with a command replaced. -/
def Red.putCmd (r : Red) (c : RCmd) : Red :=
  { r with cmds := r.cmds.map (fun d => if d.recv = c.recv ∧ d.layer = c.layer ∧ d.bucket = c.bucket ∧ d.chain = c.chain then c else d) }

/-- A bucket is failed for the step (R289): counted, reported, kept with its code, and this engine does not vote. -/
def redFails (c : RCmd) (check code : Nat) (psn : Bool) (s0 : State) : State :=
  let s := s0.upsetDone false
  ((s.setRed { s.red.putCmd { c with psn := c.psn || psn } with bad := true, fails := s.red.fails ++ [(c.layer, c.bucket, code)] }).raiseResidue
    c.core check c.layer c.bucket c.next).bump F.RED_RES_FAIL_CNT

/-- Whether a command's bucket has failed in this step; RED then sends nothing more for it. -/
def Red.hasFailed (r : Red) (c : RCmd) : Bool := r.fails.any (fun f => decide (f.1 = c.layer ∧ f.2.1 = c.bucket))

/-- A command is done: its scale record where it writes td (spec/05 R118), undefined with td where another use has no order against it (R121), its
sticky flag and its predicate. -/
def redDone (c : RCmd) (s0 : State) : State :=
  let t := c.cmd.tD
  let h := if c.recv then s0.history c.core t ((s0.gblks c.core t).map GBlk.vals).flatten (t.rnd = 1) else s0
  let s := c.cmd.spoil c.core (h.raced c.core c.cmd (h.clashes c.core .stream c.cmd))
  let s1 := s.setRed { s.red with
    cmds := s.red.cmds.filter (fun d => ¬(d.recv = c.recv ∧ d.layer = c.layer ∧ d.bucket = c.bucket ∧ d.chain = c.chain)) }
  (s1.setFlags c.core c.cmd.ctx c.cmd.inc { psn := c.psn }).complete c.core c.cmd.ctx c.cmd.inc c.cmd.pd

/-- How many of `k` blocks a member may send now: those that a tail delivers to this engine need room in the receive area (R295, R296), where the sum
of a later member takes the place of the block that it adds to. -/
def redRoom (c : RCmd) (k : Nat) (s : State) : Nat :=
  let e := s.chain c.chain
  let here := (s.red.bucket c.layer c.bucket).any (fun g => let o := s.ownerNodes g.1.owner; s.isSelf o.1 || s.isSelf o.2)
  if e.pos + 1 < e.len || !here then k else Nat.min k (s.fld F.RED_RX_SIZE / 68 + bit (decide (e.pos ≠ 0)) - s.red.rx.length)

/-- A submission goes on: the head sends its contribution; a later member adds the next block that has arrived. -/
def subStep (c : RCmd) (s : State) : Option State :=
  let e := s.chain c.chain
  let own := s.gblks c.core c.cmd.tA
  let k := redRoom c (own.length - c.next) s
  if own.length ≤ c.next then some (redDone c s)
  else if k = 0 then none
  else if e.pos = 0 then
    let bs := (own.drop c.next).take k
    let out := bs.map (fun b => { contribution s b with hop := 0 }.toBytes)
    some (redOut c c.next out (s.setRed (s.red.putCmd { c with next := c.next + k, psn := c.psn || bs.any (·.psn) })))
  else
    match s.red.waiting c [0] with
    | none => none
    | some x =>
      let b := own.getD c.next (GBlk.zero false 0 0)
      let a := GBlk.of x.data
      let r := gbAdd a (contribution s b)
      let code := failedCheck s.red.upset r
      if code ≠ 0 then some (redFails c code E.RED_RESIDUE (a.psn || b.psn) s)
      else
        let s0 := s.upsetDone true
        let s1 := match r.ovf with | some i => poisonSource c.layer c.bucket c.next i 1 s0 | none => s0
        let c1 := { c with next := c.next + 1, psn := c.psn || a.psn || b.psn || r.blk.psn }
        some (redOut c c.next [r.blk.toBytes] (s1.setRed { s1.red.putCmd c1 with rx := s1.red.rx.erase x }))

/-- A receipt goes on: the next final block is checked and written to td (R296). -/
def recvStep (c : RCmd) (s : State) : Option State :=
  let t := c.cmd.tD
  let per := t.n0 / 32
  if per * t.rows ≤ c.next then some (redDone c s)
  else
    match s.red.waiting c [1, 2] with
    | none => none
    | some x =>
      let b := GBlk.of x.data
      if residue b.m ≠ b.res % 255 ∨ 2 ≤ s.red.upset then some (redFails c 1 E.RED_RESIDUE b.psn s)
      else if b.hop ≠ ((s.chain c.chain).len - 1) % 64 then some (redFails c 0 E.RED_HOPS b.psn s)
      else
        let s1 := (s.upsetDone true).lstore c.core t.space (t.rowAddr (c.next / per) + c.next % per * 68) x.data
        let s2 := if b.psn then s1.setFlag F.RED_PSN_STS_received true else s1
        some (s2.setRed { s2.red.putCmd { c with next := c.next + 1, psn := c.psn || b.psn } with rx := s2.red.rx.erase x })

/-- RED has abandoned the step: a command writes pd, with td undefined, and nothing is sent (R301). The scale record of td stays as it was (DESIGN
CHOICE, log 202). -/
def redDrops (c : RCmd) (s : State) : State :=
  ((if c.recv then s.undefTens c.core c.cmd.tD else s).setFlags c.core c.cmd.ctx c.cmd.inc { psn := c.psn }).complete c.core c.cmd.ctx c.cmd.inc
    c.cmd.pd

/-- The first command that can go on does; one of a stopped core waits (spec/15 R352), and one of a failed bucket goes no further. -/
def redStep (s : State) : Option State :=
  s.red.cmds.findSome? (fun c =>
    if s.stoppedAt c.core then none
    else if c.gone then some (redDrops c (s.setRed { s.red with cmds := s.red.cmds.erase c }))
    else if s.red.hasFailed c then none
    else if c.recv then recvStep c s else subStep c s)

/-- Go on while something can. -/
def redLoop : Nat → State → State
  | 0, s => s
  | fuel + 1, s =>
    match redStep s with
    | some t => redLoop fuel t
    | none => s

/-- RED goes on until everything waits. -/
def State.redGo (s : State) : State := redLoop (2 ^ 24) s

/-! ## RDSUB and RDRECV (spec/04 R93, R293) -/

/-- The codes of R293 before the shape. -/
def redCode (s : State) (recv : Bool) (x : UCmd) : Option Nat :=
  let layer := fieldOf x.ext 0 16
  let bucket := fieldOf x.ext 16 16
  let chain := fieldOf x.ext 32 8
  let e := s.chain chain
  let here := fun (g : GEnt) => let o := s.ownerNodes g.owner; s.isSelf o.1 || s.isSelf o.2
  if s.red.halted then some E.RED_HALTED
  else if x.xa.toNat ≠ s.fld F.CKPT_STEP_step then some E.RED_STEP
  else
    match s.red.bucket layer bucket with
    | none => some E.RED_TAG
    | some (g, _) =>
      if recv && !here g then some E.RED_TAG
      else if !e.valid || (s.pgVc e.pg).isNone then some E.RED_CHAIN
      else if s.red.issued.contains (recv, layer, bucket, chain) then some E.RED_DUP
      else none

/-- The check of RDSUB and RDRECV: E_MODE_OP follows E_FORMAT, the codes of R293 follow E_SHAPE (spec/09 R193, spec/13 R293). -/
def redCheck (recv : Bool) (i : IT) (s : State) (x : UCmd) : Option Nat :=
  let t := if recv then x.tD else x.tA
  let size := (s.red.bucket (fieldOf x.ext 0 16) (fieldOf x.ext 16 16)).map (·.2)
  let f := firstFault s i.n [if recv then x.opD i else x.opA i]
    { format := t.fmt ≠ 0x0A, shape := size.any (fun n => decide (n ≠ t.n0 / 32 * t.rows)) }
  let early := fun (c : Nat) => decide (c = E.DESC_INVALID ∨ c = E.SPACE ∨ c = E.FORMAT)
  if f.any early then f
  else if s.fld F.DEV_EXEC_CFG_mode = 1 then some E.MODE_OP
  else if f = some E.SHAPE then f
  else match redCode s recv x with | some c => some c | none => f

/-- RED takes the command; each poisoned block of a submission is a source, and under policy 1 is counted (R297). -/
def redTake (recv : Bool) (n : Nat) (s : State) (x : UCmd) : State :=
  let c : RCmd :=
    { recv := recv, core := n, cmd := x, layer := fieldOf x.ext 0 16, bucket := fieldOf x.ext 16 16, chain := fieldOf x.ext 32 8
      step := s.fld F.CKPT_STEP_step }
  let s1 := s.setRed { s.red with cmds := s.red.cmds ++ [c], issued := (recv, c.layer, c.bucket, c.chain) :: s.red.issued }
  let s2 := if recv then s1 else
    ((s1.gblks n x.tA).zip (List.range (s1.gblks n x.tA).length)).foldl (fun st p =>
      if p.1.psn then
        let u := poisonSource c.layer c.bucket p.2 p.1.pidx 0 st
        if u.fld F.RED_POISON_CFG_policy = 1 then u.bump F.RED_PSN_ZERO_CNT else u
      else st) s1
  if s.red.dropped then
    redDrops { c with psn := !recv && (s1.gblks n x.tA).any (·.psn) } (s2.setRed { s2.red with cmds := s2.red.cmds.erase c })
  else s2.redGo

/-- Issue of RDSUB or RDRECV: no unit queue of the core takes part. -/
def issueRed (recv : Bool) (i : IT) (s : State) : State :=
  issueUnits (fun _ => []) (if recv then .rdrecv else .rdsub) i
    (legalT i recv (!recv) false false 0x1F true false 0x000000FFFFFFFFFF) recv (!recv) false false [fieldOf i.ctl 0 5]
    (redCheck recv i) (redTake recv i.n) s

/-- RDSUB. -/
def execRdsub (i : IT) (s : State) : Host.Outcome State Fault Refusal := go (issueRed false i s)

/-- RDRECV. -/
def execRdrecv (i : IT) (s : State) : Host.Outcome State Fault Refusal := go (issueRed true i s)

/-! ## Arrival (R294, R295) -/

/-- The blocks of a GBK packet arrive, and whether RED takes them: stale ones are discarded and counted, those of an abandoned step are
discarded; without room in the receive area the packet is held back. `upset` is what meets the next addition (log 182). -/
def gbkArrive (layer bucket chain kind no upset : Nat) (data : List Byte) (s : State) : State × Bool :=
  if leNat (data.take 7) ≠ s.fld F.CKPT_STEP_step % 2 ^ 56 ∨ leNat ((data.drop 7).take 1) ≠ s.fld F.RED_EPOCH then
    (s.bump F.RED_STALE_CNT, true)
  else if s.red.dropped then (s, true)
  else
    let bs := pieces 68 ((data.length - 8) / 68) (data.drop 8)
    if s.fld F.RED_RX_SIZE < 68 * (s.red.rx.length + bs.length) then (s, false)
    else ((s.setRed { s.red with
      rx := s.red.rx ++ (bs.zip (List.range bs.length)).map (fun p => ⟨layer, bucket, chain, kind, no + p.2, s.fld F.CKPT_STEP_step, p.1⟩)
      upset := if upset = 0 then s.red.upset else upset }).redGo, true)

/-! ## Abandoned steps (R301) -/

/-- RED abandons the step in flight: reason 0 an abort decision, 1 a lost peer, 2 a rollback begun by this engine (log 71). Its commands end at once;
those of a stopped core end when it runs again (spec/15 R352). -/
def redAbandon (reason : Nat) (s : State) : State :=
  let cmds := s.red.cmds
  let s1 := s.setRed { s.red with
    cmds := (cmds.filter (fun c => s.stoppedAt c.core)).map (fun c => { c with gone := true }), rx := [], dropped := true }
  let s2 := (cmds.filter (fun c => !s.stoppedAt c.core)).foldl (fun st c => redDrops c st) s1
  let s3 :=
    if s.red.dropped then s2
    else (s2.setFlag F.RED_STS_abandoned true).raiseDev EV.RED_ABANDON (leBytes 8 (s2.fld F.CKPT_STEP_step) ++ leBytes 1 reason)
  if reason = 0 then s3.setFld F.RED_EPOCH ((s3.fld F.RED_EPOCH + 1) % 256) else s3

/-- Whether the current tables name a node as a neighbour, an owner or a Shadow (R301). -/
def State.redPeer (s : State) (node : Nat) : Bool :=
  (List.range 256).any (fun c =>
    let e := s.chain c
    e.valid && ((decide (0 < e.pos) && e.up = node) || (decide (e.pos + 1 < e.len) && e.down = node)))
  || (List.range (s.fld F.RED_OWNER_LEN)).any (fun k => let o := s.ownerNodes k; o.1 = node || o.2 = node)

end Sys2Proof.Machine
end

