-- ==== Sys2Proof/Machine/Wstream.lean ====
section
/-! DEFINITION. Weight intake (spec/12): keys, plans, records in retention slots, decryption, buffer groups, fetches, write-backs. -/

namespace Sys2Proof.Machine

/-- A number in bytes. -/
def numAt (b : List Byte) (o k : Nat) : Nat := leNat ((b.drop o).take k)

/-! ## Registers and plans -/

/-- A state with WSTREAM replaced. -/
def State.setWs (s : State) (w : Wstream) : State := { s with ws := w }

/-- One retention slot (R267), and the plaintext of a full segment (R261). -/
abbrev slotBytes : Nat := 0x101000
abbrev segBytes : Nat := 1048576

/-- The arguments of the job: while one starts or is loaded as they stood at its go, else as the registers stand (spec/19 R429, R436). -/
def State.jobLive (s : State) : JobArgs :=
  { id := s.fld F.WSTREAM_JOB_job_id, cores := s.fld F.WSTREAM_JOB_cores, half := s.flag F.WSTREAM_JOB_half
    digest := (List.range 8).flatMap (fun k => leBytes 8 (s.reg (F.WSTREAM_JOB_digest_w2.addr + 8 * k)).toNat) }
def State.jobArgs (s : State) : JobArgs := if s.jobLoaded || s.flag F.WSTREAM_JOB_STS_starting then s.ws.args.getD s.jobLive else s.jobLive

/-- The first reservation of a kind in the loaded plan. -/
def Wstream.resv (w : Wstream) (kind : Nat) : Resv := ((w.plan.map (·.2)).getD []).find? (fun r => r.kind = kind) |>.getD ⟨0, 0, kind⟩

/-- The load-plan entries, and one of them. -/
def Wstream.ents (w : Wstream) : List PlanEnt := (w.plan.map (·.1)).getD []
def Wstream.ent (w : Wstream) (e : Nat) : Option PlanEnt := w.ents[e]?

/-- The number of retention slots. -/
def Wstream.nslots (w : Wstream) : Nat := (w.resv 3).size / slotBytes

/-- The images of the verified manifest. -/
def Wstream.images (w : Wstream) : List Image := (w.manifest.map Config.images).getD []

/-- Where a record of a stream lies (R267). -/
def State.slotAddr (s : State) (i r : Nat) : Nat :=
  (s.ws.resv 3).base + (s.fld (F.WSTREAM_STREAM_first_slot i) + r % s.fld (F.WSTREAM_STREAM_slots i)) * slotBytes

/-- The stream entry of an identifier. -/
def State.streamOf (s : State) (id : Nat) : Option Nat :=
  (List.range 16).find? (fun i => s.flag (F.WSTREAM_STREAM_valid i) && decide (s.fld (F.WSTREAM_STREAM_id i) = id))

/-- A holder of the tree descriptor (R278): valid, node, first slot and slot count. -/
def State.holder (s : State) (h : Nat) : Bool × Nat × Nat × Nat :=
  (s.flag (F.WSTREAM_TREE_valid h), s.fld (F.WSTREAM_TREE_node h), s.fld (F.WSTREAM_TREE_base h), s.fld (F.WSTREAM_TREE_slots h))

/-- The image stream: the one whose source is the parent in the tree; at an engine without a parent the one that brought an image record; with
route reuse, which takes no part in a tree, the one whose source is the root, else the first (log 53). -/
def State.imageStream (s : State) : Option Nat :=
  let from_ := fun (p : Bool × Nat × Nat × Nat) => (List.range 16).find? (fun i =>
    s.flag (F.WSTREAM_STREAM_valid i) && !s.flag (F.WSTREAM_STREAM_roce i) && p.1 && decide (s.fld (F.WSTREAM_STREAM_up_node i) = p.2.1))
  if s.flag F.WSTREAM_JOB_CTL_route_reuse then
    (from_ (s.holder 4)).orElse (fun _ => (List.range 16).find? (fun i => s.flag (F.WSTREAM_STREAM_valid i)))
  else (from_ (s.holder 0)).orElse (fun _ => s.ws.istream)

/-- The weight version expected now (R271). -/
def State.wver (s : State) : Nat :=
  if s.flag F.WSTREAM_VERSION_CFG_track then s.fld F.CKPT_STEP_step else s.fld F.WSTREAM_VERSION

/-- Read load-plan entry `e`; none when a reserved value or bit is set or a length is 0 (R265, R266). -/
def readEnt (s : State) (base e : Nat) : Option PlanEnt :=
  let n := fun o k => s.mem.nat (base + 32 * e + o) k
  let flags := n 26 1
  let x : PlanEnt :=
    { num := e, bytes := n 0 8, dbase := n 8 8, perCore := n 16 4, first := n 20 2, ncores := n 22 2, sram := decide (flags % 2 = 1),
      evflag := n 27 1, buf := n 28 1 }
  if x.bytes = 0 ∨ 1 < flags ∨ 31 < x.evflag ∨ n 29 3 ≠ 0 ∨ x.ncores = 0 ∨ 896 < x.ncores
    ∨ (if x.sram then x.perCore = 0 ∨ x.perCore % 64 ≠ 0 else x.perCore ≠ 0) then none else some x

/-- Read reservation `e`. -/
def readResv (s : State) (base e : Nat) : Option Resv :=
  let n := fun o k => s.mem.nat (base + 16 * e + o) k
  let r : Resv := ⟨n 0 8, n 8 7, n 15 1⟩
  if r.size = 0 ∨ r.size % 4096 ≠ 0 ∨ r.base % 4096 ≠ 0 ∨ r.kind = 0 ∨ 4 < r.kind then none else some r

/-- The destination of an entry: the ranges of the local address map that its bytes fill. -/
def PlanEnt.dests (e : PlanEnt) : List (Nat × Nat) :=
  if e.sram then (List.range e.ncores).filterMap (fun c =>
    if c * e.perCore < e.bytes then
      some (0x20000000000 + 0x4000000 * (e.first + c) + e.dbase, Nat.min e.perCore (e.bytes - c * e.perCore)) else none)
  else [(e.dbase, e.bytes)]

/-- Whether two ranges meet. -/
def meets (a b : Nat × Nat) : Bool := decide (a.1 < b.1 + b.2 ∧ b.1 < a.1 + a.2)

/-- A test on every pair of a list, earlier element first. -/
def pairs {α : Type} (t : α → α → Bool) : List α → Bool
  | [] => true
  | x :: xs => xs.all (t x) && pairs t xs

/-- The checks of a load in which the image manifest takes part (R266). -/
def manifestFits (s : State) (es : List PlanEnt) (rs : List Resv) (im : List Image) : Bool :=
  let size := fun k => (rs.find? (fun r => r.kind = k)).map (·.size) |>.getD 0
  let root := (s.holder 4).1 && s.isSelf (s.holder 4).2.1
  let man := (s.ws.manifest.map (·.length)).getD 0
  es.all (fun e => !e.sram || im.all (fun g => match g.prog with
    | some (c, o, l) => e.dests.all (fun d => !meets d (0x20000000000 + 0x4000000 * c + o, l))
    | none => true))
  && decide (roundUp man 64 + ((im.filter (fun g => decide (g.num ≠ 0))).map (fun g => roundUp g.size 64)).sum ≤ size 2)
  && (!root || decide (ceilDiv man segBytes + ((im.filter (fun g => decide (g.num ≠ 0))).map (fun g => ceilDiv g.size segBytes)).sum
      ≤ size 3 / slotBytes))

/-- The checks of a plan load in order (R266): the plans, or the first failure. -/
def planCheck (s : State) : (List PlanEnt × List Resv) ⊕ Nat :=
  let el := (List.range (s.fld F.WSTREAM_PLAN_LEN)).map (readEnt s (s.fld F.WSTREAM_PLAN_BASE))
  let rl := (List.range (s.fld F.WSTREAM_RESV_LEN)).map (readResv s (s.fld F.WSTREAM_RESV_BASE * 4096))
  let es := el.filterMap id
  let rs := rl.filterMap id
  let same := fun (a b : PlanEnt) => a.buf = 0 || a.buf ≠ b.buf
    || (decide (a.bytes = b.bytes) && a.sram = b.sram && decide (a.dbase = b.dbase) && decide (a.perCore = b.perCore))
  if el.any (·.isNone) || rl.any (·.isNone) || el.isEmpty || rl.isEmpty || decide (65536 < el.length)
    || decide (1 < rs.countP (fun r => r.kind = 3)) || !pairs same es then .inr E.LOAD_PLAN_INVALID
  else
    let inside := fun (e : PlanEnt) =>
      if e.sram then decide (e.bytes ≤ e.perCore * e.ncores ∧ e.dbase + e.perCore ≤ 0x3000000 ∧ e.first + e.ncores ≤ s.ncores)
      else rs.any (fun r => decide (r.kind = 1 ∧ r.base ≤ e.dbase ∧ e.dbase + e.bytes ≤ r.base + r.size))
    let apart := fun (a b : PlanEnt) =>
      (a.buf ≠ 0 && a.buf = b.buf) || a.dests.all (fun x => b.dests.all (fun y => !meets x y))
    let ret := (rs.find? (fun r => r.kind = 3)).map (·.size) |>.getD 0
    if rs.all (fun r => decide (r.base + r.size ≤ s.edgeSize)) && pairs (fun a b => !meets (a.base, a.size) (b.base, b.size)) rs
      && es.all inside && pairs apart es && decide (64 * slotBytes ≤ ret) && manifestFits s es rs s.ws.images
    then .inl (es, rs) else .inr E.NO_MEMORY

/-- A load is refused: nothing is installed and no earlier plan kept. -/
def loadRefused (code : Nat) (s : State) : State :=
  (((s.setWs { s.ws with plan := none }).setFld F.WSTREAM_PLAN_STS_code code).setFlag F.WSTREAM_PLAN_STS_loaded false).raiseDev
    EV.LOAD_REFUSED (leBytes 2 code)

/-- Write of 1 to WSTREAM_PLAN_CTL.load (R266). -/
def planLoad (s : State) : State :=
  if s.jobLoaded then s
  else
    match planCheck s with
    | .inr code => loadRefused code s
    | .inl p =>
      ((s.setWs { s.ws with plan := some p, segs := [], released := [], relBy := [], failed := [] }).setFld F.WSTREAM_PLAN_STS_code 0).setFlag
        F.WSTREAM_PLAN_STS_loaded true

/-- WSTREAM_PLAN_LOAD. -/
def execWstreamPlanLoad (value : W64) (s : State) : Host.Outcome State Fault Refusal :=
  go (if value.getLsbD 0 then planLoad s else s)

/-! ## Keys (R263, R264) -/

/-- The registers that show the key slots: e and e + 1. -/
def State.showKeys (s : State) : State :=
  let k := s.ws.keys
  let e0 := (k.head?.map (·.1)).getD 0
  let e1 := ((k[1]?).map (·.1)).getD 0
  (((s.setFlag F.WSTREAM_KEY_STS_valid0 (!k.isEmpty)).setFld F.WSTREAM_KEY_STS_epoch0 e0).setFlag F.WSTREAM_KEY_STS_valid1
    (decide (1 < k.length))).setFld F.WSTREAM_KEY_STS_epoch1 e1

/-- Both key slots cleared. -/
def State.clearKeys (s : State) : State := (s.setWs { s.ws with keys := [], ivLeft := 0 }).showKeys

/-- A key install is refused. -/
def keyRefused (code epoch : Nat) (s : State) : State :=
  (s.setFld F.WSTREAM_KEY_STS_code code).raiseDev EV.KEY_REFUSED (leBytes 2 epoch)

/-- The header of a record in its slot. -/
def State.recHdr (s : State) (i r : Nat) : Nat → Nat → Nat := fun o k => s.mem.nat (s.slotAddr i r + o) k

/-- Whether a record of an epoch waits in a slot. -/
def epochWaits (s : State) (epoch : Nat) : Bool :=
  s.ws.recs.any (fun r => !r.done && decide (64 ≤ r.got) && decide (s.recHdr r.stream r.no 2 2 = epoch))

/-- A key is installed: the Lodge advances the IV-reservation record by 2⁴⁰ and WSTREAM takes the IVs below. -/
def keyInstall (keys : Sparse (List Byte)) (s : State) : State :=
  ((((recordPut 9 (leBytes 8 (s.ivRecord + 2 ^ 40)) { s with ivRecord := s.ivRecord + 2 ^ 40 }).setWs
    { s.ws with keys := keys, fresh := false, ivLeft := 2 ^ 40 }).setFld F.WSTREAM_IV_CTR
    s.ivRecord).setFld F.WSTREAM_KEY_STS_code 0).showKeys

/-- Unwrap a 512-byte wrapped key for an epoch. The first install after a job start fixes e. Where the last boot has not unwrapped WK (spec/17 R397),
with debug unlocked (Table 17-10) or with no IV-reservation record (Table 17-7) every install is refused. -/
def keyUnwrap (epoch : Nat) (wrapped : List Byte) (s : State) : State :=
  let k := Config.wk s.idGen
  if !s.lodge.keys || s.lodge.debug || s.lodge.noIv then keyRefused E.KEY_UNWRAP epoch s
  else
  match oaepOpen k.n k.d (leBytes 8 s.jobArgs.id ++ leBytes 2 epoch) wrapped with
  | none => keyRefused E.KEY_UNWRAP epoch s
  | some key =>
    if key.length ≠ 32 then keyRefused E.KEY_UNWRAP epoch s
    else if s.ws.fresh then keyInstall [(epoch, key)] s
    else
      match s.ws.keys with
      | [] => keyInstall [(epoch, key)] s
      | [(e, k0)] => if epoch = e + 1 then keyInstall [(e, k0), (epoch, key)] s else keyRefused E.KEY_EPOCH epoch s
      | (e, _) :: k1 :: _ =>
        if epoch = e + 2 ∧ !epochWaits s e then keyInstall [k1, (epoch, key)] s else keyRefused E.KEY_EPOCH epoch s

/-! ## Records -/

/-- A record that WSTREAM rejects, for EV_WSEG_REJECT: stream identifier, number, code. -/
def rejectEvent (i rec code : Nat) (s : State) : State :=
  s.raiseDev EV.WSEG_REJECT (leBytes 2 (s.fld (F.WSTREAM_STREAM_id i)) ++ leBytes 4 rec ++ leBytes 2 code)

/-- The record of a stream. -/
def Wstream.find (w : Wstream) (i r : Nat) : Option WRec := w.recs.find? (fun x => x.stream = i ∧ x.no = r)

/-- WSTREAM with a record replaced. -/
def Wstream.putRec (w : Wstream) (x : WRec) : Wstream :=
  { w with recs := x :: w.recs.filter (fun y => ¬(y.stream = x.stream ∧ y.no = x.no)) }

/-- A record has been handled: the next of the stream may follow. Its slot is free once it has been sent on (R267). -/
def Wstream.dropRec (w : Wstream) (x : WRec) : Wstream :=
  { w.putRec { x with done := true } with next := if x.again then w.next else Sparse.put w.next x.stream (x.no + 1) }

/-- The bytes of a record that have been sent on to a node. -/
def WRec.sentTo (x : WRec) (n : Nat) : Nat := ((x.sent.find? (fun p => decide (p.1 = n))).map (·.2)).getD 0

/-- The nodes that a stream's records are sent on to (R274, R277). -/
def State.downs (s : State) (i : Nat) : List Nat :=
  let a := (List.range (s.fld (F.WSTREAM_STREAM_ndown i))).map (fun k => fieldOf (s.reg ((F.WSTREAM_STREAM_down_w4 i).addr + 8 * k)) 0 22)
  let b :=
    if s.imageStream = some i ∧ !s.flag F.WSTREAM_JOB_CTL_route_reuse then
      (List.range (s.fld F.WSTREAM_TREE_nchild)).map (fun k => fieldOf (s.reg (F.WSTREAM_TREE_child_w11.addr + 8 * k)) 0 22)
    else []
  (a ++ b).dedup.filter (fun n => !s.ws.dropped.contains (i, n))

/-- Send what has come of a record on to one node, in packets of up to 2,048 bytes on VC3 (R262, R274), until one cannot leave. -/
def forwardTo (n : Nat) : Nat → WRec → State → State × WRec
  | 0, x, s => (s, x)
  | fuel + 1, x, s =>
    let off := x.sentTo n
    if x.got ≤ off then (s, x)
    else
      let k := Nat.min 2048 (x.got - off)
      let r := s.sendOne epWstream 3 n opWseg (s.fld (F.WSTREAM_STREAM_id x.stream)) (x.no * 2 ^ 21 + off) (s.mem.bytes (s.slotAddr x.stream x.no + off) k)
      if r.2 then forwardTo n fuel { x with sent := (n, off + k) :: x.sent.filter (fun p => decide (p.1 ≠ n)) } r.1 else (r.1, x)

/-- Whether an earlier record of the stream still has bytes to send to a node: records are sent on in their order (R274). -/
def State.sendsBefore (s : State) (x : WRec) (n : Nat) : Bool :=
  s.ws.recs.any (fun y => decide (y.stream = x.stream ∧ y.no < x.no ∧ y.sentTo n < y.got))

/-- Send a record on to every node downstream, and free its slot when it has been handled and all of it has been sent. -/
def forward (x : WRec) (s : State) : State :=
  let r := (s.downs x.stream).foldl (fun (q : State × WRec) n => if s.sendsBefore x n then q else forwardTo n 514 q.2 q.1) (s, x)
  let w := r.1.ws
  let recs := w.recs.filter (fun y => ¬(y.stream = x.stream ∧ y.no = x.no))
  if r.2.done && (r.1.downs x.stream).all (fun n => decide (r.2.got ≤ r.2.sentTo n)) then r.1.setWs { w with recs := recs }
  else r.1.setWs (w.putRec r.2)

/-- Every record is sent on as far as it can be, those of a stream in ascending number. -/
def forwardAll (s : State) : State :=
  (s.ws.recs.mergeSort (fun a b => decide (a.no ≤ b.no))).foldl (fun st x => forward ((st.ws.find x.stream x.no).getD x) st) s

/-- Whether the slot of a record is in use by another one (R267); at the tree root an image record keeps its slot for the whole job (R275). -/
def State.slotTaken (s : State) (i r : Nat) : Bool :=
  let n := s.fld (F.WSTREAM_STREAM_slots i)
  let root := (s.holder 4).1 && s.isSelf (s.holder 4).2.1 && decide (s.imageStream = some i)
  decide (n = 0) || s.ws.recs.any (fun x => decide (x.stream = i ∧ x.no ≠ r ∧ x.no % n = r % n))
    || (root && s.ws.irecs.any (fun p => decide (p.2.1 ≠ r ∧ p.2.1 % n = r % n)))

/-- The record has been handled: it is sent on, and its slot is free when that is done. -/
def recDone (x : WRec) (s : State) : State := forward { x with done := true } (s.setWs (s.ws.dropRec x))

/-- Bytes of a record arrive (R266, R267): dropped while no plan is loaded, the record being counted once; not taken while its slot is in use or a
Freeze holds it. The flag says that they have been taken. -/
def wsegArrive (id rec off : Nat) (data : List Byte) (s : State) : State × Bool :=
  match s.ws.plan, s.streamOf id with
  | some _, some i =>
    let a := s.slotAddr i rec + off
    match s.ws.find i rec with
    | none =>
      if rec < Sparse.get s.ws.next 0 i then (s, true)
      else if s.slotTaken i rec then (s, false)
      else if !s.clear a data.length then (s.ask a data.length, false)
      else (put i { stream := i, no := rec }, true)
    | some x => if x.done then (s, true) else if !s.clear a data.length then (s.ask a data.length, false) else (put i x, true)
  | _, _ => (if off = 0 then s.bump F.WSTREAM_DROP_CNT else s, true)
where
  /-- Bytes go to the slot and on to the nodes downstream. -/
  put (i : Nat) (x : WRec) : State :=
    let y := { x with got := Nat.max x.got (off + data.length) }
    let w := s.ws.putRec y
    forward y ((s.store (s.slotAddr i rec + off) data).setWs
      { w with istream := if off = 0 ∧ numAt data 1 1 = 1 ∧ w.istream.isNone then some i else w.istream })

/-- The start of a job fails (R277): its images are no longer known. -/
def startFails (code : Nat) (s : State) : State :=
  ((s.setWs { s.ws with manifest := none, verified := [] }).setFld F.WSTREAM_JOB_STS_code code).setFlag F.WSTREAM_JOB_STS_starting false

/-- An entry is marked failed (R269). -/
def entryFails (e : Nat) (s : State) : State :=
  let w := s.ws
  if w.failed.contains e then s.raiseDev EV.WSEG_FAIL (leBytes 2 e)
  else
    let l := w.failed ++ [e]
    ((((s.setWs { w with failed := l }).setFlag F.WSTREAM_ENTRY_STS_failed true).setFld F.WSTREAM_ENTRY_STS_first (l.headD 0)).setFld
      F.WSTREAM_ENTRY_STS_count l.length).raiseDev EV.WSEG_FAIL (leBytes 2 e)

/-- Every image is verified. -/
def Wstream.imagesDone (w : Wstream) : Bool := w.manifest.isSome && w.images.all (fun g => w.verified.contains g.num)

/-! ## Fetches (R269, R275, R278) -/

/-- Where a fetch reads: node and address of the record's slot. -/
def Fetch.place (f : Fetch) (s : State) : Nat × Nat :=
  match f.holder with
  | some h => let p := s.holder h; (p.2.1, p.2.2.1 + f.no % p.2.2.2 * slotBytes)
  | none =>
    (s.fld (F.WSTREAM_STREAM_up_node f.stream),
      s.fld (F.WSTREAM_STREAM_up_base f.stream) + f.no % s.fld (F.WSTREAM_STREAM_up_slots f.stream) * slotBytes)

/-- The next usable holder after one: a listed ancestor or the root that is not lost. -/
def State.nextHolder (s : State) (h : Nat) : Option Nat :=
  (List.range 5).find? (fun k => decide (h < k) && (s.holder k).1 && !s.net.gone.contains (s.holder k).2.1 && !s.isSelf (s.holder k).2.1)

/-- Whether a fetch is one of an image record, whose holders are those of the tree. -/
def Fetch.ofImage (f : Fetch) (s : State) : Bool :=
  match f.want with
  | some w => decide (w.1 = 1)
  | none => f.holder.isSome || decide (s.imageStream = some f.stream)

/-- A fetch goes on to the next holder, or finds none: the repair reports the node that it leaves (R278). -/
def Fetch.leave (f : Fetch) (s : State) : State := s.raiseDev EV.TREE_REPAIR (leBytes 3 (f.place s).1)

/-- A record of a weight stream has failed once more (R269): counted and reported; with the third failure its entry fails. The flag says that it is to be
fetched again. -/
def recordFailed (x : WRec) (e : Nat) (s : State) : State × Bool :=
  let s1 := rejectEvent x.stream x.no E.WSEG_AUTH (s.bump F.WSTREAM_AUTH_FAIL_CNT)
  let y := { x with fails := x.fails + 1 }
  if y.fails < 3 then (s1.setWs (s1.ws.putRec { y with got := 0 }), true) else (entryFails e (recDone y s1), false)

/-- Ask for the next bytes of a fetch; a request that cannot leave is a failed fetch: of an image record the next holder is asked (R278), of a
weight record the upstream again (R269). -/
def fetchSend : Nat → Fetch → State → State
  | 0, _, s => s
  | fuel + 1, f, s =>
    let p := f.place s
    let r := s.sendEng
      { src := .engine epWstream 0, ep := epWstream, vc := 0, node := p.1, op := opGet, addr := (p.2 + f.off) % 2 ^ 42,
        len := Nat.min 2048 (f.len - f.off) }
    match r.2 with
    | some _ =>
      if f.ofImage s then
        let s1 := f.leave s
        match s.nextHolder ((f.holder).getD 0) with
        | some h => fetchSend fuel { f with holder := some h, off := 0, len := 2048 } (s1.setWs { s1.ws with source := some h })
        | none => startFails E.TREE_NO_SOURCE (s1.setWs { s1.ws with fetch := none })
      else
        let q := recordFailed ((s.ws.find f.stream f.no).getD { stream := f.stream, no := f.no }) ((f.want.map (·.2.1)).getD 0)
          (s.setWs { s.ws with fetch := none })
        if q.2 then fetchSend fuel { f with off := 0, len := 2048 } q.1 else q.1
    | none => r.1.setWs { r.1.ws with fetch := some f }

/-- The resend request to a weight server (R269), with the entry or image and the index of the record where its header is known; a queue pair that is
not ready to send sends none. -/
def resendSend (i rec : Nat) (want : Option (Nat × Nat × Nat)) (s : State) : State :=
  let body := leBytes 1 1 ++ leBytes 1 1 ++ leBytes 2 (s.fld (F.WSTREAM_STREAM_id i)) ++ leBytes 4 rec ++
    leBytes 8 s.jobArgs.id ++ leBytes 8 s.wver ++ leBytes 4 ((want.map (·.2.2)).getD (2 ^ 32 - 1)) ++
    leBytes 2 ((want.map (·.2.1)).getD (2 ^ 16 - 1)) ++ leBytes 2 0
  let q := s.fld (F.WSTREAM_STREAM_qp i)
  if s.qpState q = 3 then
    (s.sendRoce { src := .engine epWstream 2, ep := epWstream, vc := 0, node := s.fld (F.WSTREAM_STREAM_up_node i), op := 12, addr := 0, data := body } q 0).1
  else s

/-- A fetch begins: its record takes its slot, and is asked for: from a weight server, or from a holder. -/
def fetchBegin (f : Fetch) (s : State) : State :=
  let x := (s.ws.find f.stream f.no).getD { stream := f.stream, no := f.no }
  let s1 := s.setWs (s.ws.putRec { x with got := 0, done := false, again := x.again || f.again })
  if s.flag (F.WSTREAM_STREAM_roce f.stream) then resendSend f.stream f.no f.want s1 else fetchSend 6 f s1

/-- With no fetch in progress, the first of those that wait whose slot is free begins (R267). -/
def fetchWake (s : State) : State :=
  if s.ws.fetch.isSome then s
  else
    match s.ws.waiting.findIdx? (fun f => !s.slotTaken f.stream f.no) with
    | some j => (s.ws.waiting[j]?).elim s (fun f => fetchBegin f (s.setWs { s.ws with waiting := s.ws.waiting.eraseIdx j }))
    | none => s

/-- Begin a fetch, or let it wait for the one in progress and for its slot. -/
def fetchStart (f : Fetch) (s : State) : State := fetchWake (s.setWs { s.ws with waiting := s.ws.waiting ++ [f] })

/-- A fetch is over; the next that waits begins. -/
def fetchNext (s : State) : State := fetchWake (s.setWs { s.ws with fetch := none })

/-- A source did not give what is expected: of an image record the next holder is tried (R278), of a weight record the upstream again (R269). -/
def fetchFails (f : Fetch) (s : State) : State :=
  if f.ofImage s then
    let s1 := f.leave s
    match s.nextHolder ((f.holder).getD 0) with
    | some h => fetchSend 6 { f with holder := some h, off := 0, len := 2048 } (s1.setWs { s1.ws with source := some h, fetch := none })
    | none => startFails E.TREE_NO_SOURCE (fetchNext s1)
  else
    let q := recordFailed ((s.ws.find f.stream f.no).getD { stream := f.stream, no := f.no }) ((f.want.map (·.2.1)).getD 0)
      (s.setWs { s.ws with fetch := none })
    if q.2 then fetchSend 6 { f with off := 0, len := 2048 } q.1 else fetchNext q.1

/-- Whether the header of a fetched record names what is expected (R275): the entry or image and index where they are known, the weight version, and
of an image a segment that has not been verified. -/
def fetchFits (s : State) (f : Fetch) : Bool :=
  let h := s.recHdr f.stream f.no
  let plen := h 4 4
  decide (h 0 1 = 1 ∧ h 8 8 = s.jobArgs.id ∧ 1 ≤ plen ∧ plen ≤ segBytes)
    && (match f.want with | some w => decide ((h 1 1, h 28 2, h 24 4) = w) | none => true)
    && (if h 1 1 = 1 then decide (h 16 8 = 0) && !s.ws.verified.contains (h 28 2) && !(Sparse.get s.ws.isegs [] (h 28 2)).contains (h 24 4)
        else decide (h 16 8 = s.wver))

/-- Fetch a record of a stream again: from the weight server, or from the upstream; an image record, after a repair, from the source. `want` is what
its header names, where it is known. Where its slot has gone to another record it waits (R267). -/
def refetch (x : WRec) (want : Option (Nat × Nat × Nat)) (s : State) : State :=
  fetchStart { stream := x.stream, no := x.no, want := want, again := x.again
               holder := if s.imageStream = some x.stream ∧ want.all (fun w => w.1 = 1) then s.ws.source else none } s

/-- Whether a record has come whole. -/
def recWhole (s : State) (x : WRec) : Bool :=
  let plen := s.recHdr x.stream x.no 4 4
  decide (64 ≤ x.got ∧ (plen = 0 ∨ segBytes < plen ∨ 80 + plen ≤ x.got))

/-- What the header of an image record names by its place in the stream (R275): the manifest first, then the images in its order, the segments of each
in ascending order (log 53); none where the record before it is not known. -/
def imageWant (s : State) (r : Nat) : Option (Nat × Nat × Nat) :=
  if r = 0 then some (1, 0, 0)
  else
    match s.ws.irecs.find? (fun p => decide (p.2.1 + 1 = r)) with
    | none => none
    | some (g, _, j) =>
      let size := if g = 0 then (match s.ws.manifest with | some m => m.length | none => (j + 2) * segBytes)
        else ((s.ws.images.find? (fun x => decide (x.num = g))).map (·.size)).getD 0
      if (j + 1) * segBytes < size then some (1, g, j + 1)
      else
        let rest := if g = 0 then s.ws.images else (s.ws.images.dropWhile (fun x => decide (x.num ≠ g))).drop 1
        (rest.find? (fun x => decide (x.num ≠ 0))).map (fun x => (1, x.num, 0))

/-- With the images still incomplete, a repaired or reused engine goes on to the next record (R278, R279). -/
def fetchOn (s : State) : State :=
  match s.ws.source, s.imageStream with
  | some h, some i =>
    if s.ws.imagesDone ∨ !s.flag F.WSTREAM_JOB_STS_starting ∨ s.ws.fetch.isSome then s
    else
      let r := Sparse.get s.ws.next 0 i
      if (s.ws.find i r).any (recWhole s) ∨ s.ws.waiting.any (fun f => decide (f.stream = i ∧ f.no = r)) then s
      else fetchStart { stream := i, no := r, holder := some h, want := imageWant s r } s
  | _, _ => s

/-! ## Decryption (R268-R271) -/

/-- The ranges of the local map that bytes `o` to `o + n - 1` of an entry go to (R265). -/
def PlanEnt.spread (e : PlanEnt) (o n : Nat) : List (Nat × Nat) :=
  if e.sram then
    (List.range (n / e.perCore + 2)).filterMap (fun k =>
      let c := o / e.perCore + k
      let lo := Nat.max o (c * e.perCore)
      let hi := Nat.min (o + n) ((c + 1) * e.perCore)
      if lo < hi then some (0x20000000000 + 0x4000000 * (e.first + c) + e.dbase + (lo - c * e.perCore), hi - lo) else none)
  else [(e.dbase + o, n)]

/-- The core whose SRAM an address lies in. -/
def coreAt (a : Nat) : Option Nat := if 0x20000000000 ≤ a ∧ a < 0x20E00000000 then some ((a - 0x20000000000) / 0x4000000) else none

/-- A bulk write on the wafer (R268, spec/10 R220): the port of a core that takes no packets absorbs it with no answer. The flag says that it has been
acknowledged. The packets leave by the endpoint `src` and carry up to 1 KiB each (R220, R229). -/
def State.swr (src : Nat) (s : State) (a : Nat) (bs : List Byte) : State × Bool :=
  match coreAt a with
  | none => ((s.store a bs).carry src a bs.length 0, true)
  | some n =>
    if s.portOpen n then (((s.kick n).store a bs).carry src a bs.length 0, true)
    else ((s.bumpBy F.CORE_MAP_ABSORB_CNT (ceilDiv bs.length 1024)).travel src n a (dataFlits bs.length), false)

/-- Bulk writes over a list of ranges; whether every one was acknowledged. -/
def spreadStore (src : Nat) : List (Nat × Nat) → List Byte → State → State × Bool
  | [], _, s => (s, true)
  | r :: rs, bs, s =>
    let p := s.swr src r.1 (bs.take r.2)
    let q := spreadStore src rs (bs.drop r.2) p.1
    (q.1, p.2 && q.2)

/-- Whether writes to ranges can be made now: a Freeze may hold them, HOLD holds a core's port (spec/15 R352), and the fabric may hold them back. -/
def State.spreadFree (src : Nat) (s : State) (l : List (Nat × Nat)) : Bool :=
  l.all (fun r => s.fabOpen src r.1 2 && match coreAt r.1 with
    | none => s.clear r.1 r.2
    | some n => !(s.portOpen n && s.flag F.PWR_STS_hold))

/-- The stack endpoint that holds an address of edge memory: WSTREAM's packets leave by it (spec/10 R217). -/
def State.stackEp (s : State) (a : Nat) : Nat := 0x400 + s.stackOf a

/-- Writes to ranges wait: marked pages are asked for, and they are work for the sites of their cores. -/
def State.spreadAsk (s : State) (l : List (Nat × Nat)) : State :=
  l.foldl (fun st r => match coreAt r.1 with
    | none => st.ask r.1 r.2
    | some n => if st.portOpen n then st.kick n else st) s

/-- Where image `g` is kept in the image-copy reservation (R277; log 54): the manifest first, then the images in its order. -/
def State.imageAt (s : State) (g : Nat) : Nat :=
  let b := (s.ws.resv 2).base
  if g = 0 then b
  else
    b + roundUp ((s.ws.manifest.map (·.length)).getD 0) 64
      + (((s.ws.images.takeWhile (fun x => decide (x.num ≠ g))).filter (fun x => decide (x.num ≠ 0))).map (fun x => roundUp x.size 64)).sum

/-- The destination ranges of a record. -/
def recDest (s : State) (kind e idx plen : Nat) : List (Nat × Nat) :=
  if kind = 1 then [(s.imageAt e + idx * segBytes, plen)]
  else ((s.ws.ent e).map (fun x => x.spread (idx * segBytes) plen)).getD []

/-- Whether a buffer group lets a record of an entry through: every earlier entry of the group in this pass has been released, and the
entry itself has not. -/
def Wstream.bufFree (w : Wstream) (e : Nat) : Bool :=
  match w.ent e with
  | none => true
  | some x =>
    if x.buf = 0 then true
    else
      let done := Sparse.get w.released [] x.buf
      !done.contains e && (w.ents.filter (fun y => y.buf = x.buf && decide (y.num < e))).all (fun y => done.contains y.num)

/-- An image whose segments are all there is verified against its digest; a third mismatch fails the start (R277). The size of the manifest is not known before:
one of full segments only is whole when its digest is right, or, `last`, when a record of another image has come after it. -/
def imageVerify (last : Bool) (g : Nat) (s : State) : State :=
  let w := s.ws
  let have_ := Sparse.get w.isegs [] g
  let lens := Sparse.get w.segs [] (2 ^ 20 + g)
  let size := if g = 0 then lens.sum else ((w.images.find? (fun x => decide (x.num = g))).map (·.size)).getD 0
  let whole := decide (have_.length * segBytes < size + segBytes ∧ size ≤ have_.length * segBytes)
    && (List.range have_.length).all have_.contains && !have_.isEmpty
  if !whole then s
  else
    let pt := s.mem.bytes (s.imageAt g) size
    let want := if g = 0 then s.jobArgs.digest
      else ((w.images.find? (fun x => decide (x.num = g))).map (·.digest)).getD []
    if sha512 pt = want then
      let s1 := s.setWs { w with verified := g :: w.verified, manifest := if g = 0 then some pt else w.manifest }
      if g = 0 then
        if s1.flag F.WSTREAM_JOB_CTL_route_reuse &&
            decide (leBytes 64 (Config.routeOf pt).toNat ≠ (s1.group F.WSTREAM_ROUTE_DIGEST_w0.addr 8).flatMap (fun x => leBytes 8 x.toNat)) then
          startFails E.ROUTE_REUSE s1
        else
          match w.plan with
          | some p => if manifestFits s1 p.1 p.2 s1.ws.images then s1 else startFails E.NO_MEMORY (loadRefused E.NO_MEMORY s1)
          | none => s1
      else
        match w.images.find? (fun x => decide (x.num = g)) with
        | some x => (s1.swr (s.stackEp (s.imageAt g)) x.dest pt).1
        | none => s1
    else if g = 0 ∧ lens.all (· = segBytes) ∧ !last then s
    else
      let t := Sparse.get w.itries 0 g + 1
      let mine := w.irecs.filter (fun p => decide (p.1 = g))
      let s1 := rejectEvent ((s.imageStream).getD 0) ((mine.head?.map (·.2.1)).getD 0) E.IMG_DIGEST
        (s.setWs { w with
          itries := Sparse.put w.itries g t, isegs := Sparse.drop w.isegs g, segs := Sparse.drop w.segs (2 ^ 20 + g)
          irecs := w.irecs.filter (fun p => decide (p.1 ≠ g)) })
      if 3 ≤ t then startFails E.IMG_DIGEST s1
      else mine.foldl (fun st p => refetch { stream := (s.imageStream).getD 0, no := p.2.1, again := true } (some (1, g, p.2.2)) st) s1

/-- A record is rejected: discarded, counted and reported. -/
def recReject (x : WRec) (code : Nat) (s : State) : State := rejectEvent x.stream x.no code (recDone x (s.bump F.WSTREAM_BAD_REC_CNT))

/-- A record fails authentication (R269): counted, reported, its destination undefined, and fetched again up to the third failure; an image record
then goes on to the next holder, and at once where it was fetched from a holder in a repair or a route reuse (R275, R278). -/
def authFails (x : WRec) (s : State) : State :=
  let h := s.recHdr x.stream x.no
  let want := (h 1 1, h 28 2, h 24 4)
  let s1 := (recDest s (h 1 1) (h 28 2) (h 24 4) (h 4 4)).foldl (fun st r => st.undefAt r.1 r.2) s
  if h 1 1 = 1 ∧ (2 ≤ x.fails ∨ s.ws.source.isSome) then
    let s2 := rejectEvent x.stream x.no E.WSEG_AUTH (s1.bump F.WSTREAM_AUTH_FAIL_CNT)
    fetchFails { stream := x.stream, no := x.no, want := some want, holder := some ((s.ws.source).getD 0) }
      (s2.setWs (s2.ws.putRec { x with got := 0, fails := 0 }))
  else
    let q := recordFailed x (h 28 2) s1
    if q.2 then refetch { x with fails := x.fails + 1 } (some want) q.1 else q.1

/-- Whether a record's header is malformed (R260, R261). -/
def recBad (s : State) (h : Nat → Nat → Nat) : Bool :=
  let kind := h 1 1
  let plen := h 4 4
  let stop := h 24 4 * segBytes + plen
  decide (h 0 1 ≠ 1 ∨ 1 < kind ∨ plen = 0 ∨ segBytes < plen ∨ h 30 2 ≠ 0 ∨ h 44 20 ≠ 0 ∨ h 8 8 ≠ s.jobArgs.id
    ∨ (kind = 1 ∧ h 16 8 ≠ 0))
  || (if kind = 0 then (match s.ws.ent (h 28 2) with | some e => decide (e.bytes < stop) | none => true)
      else if h 28 2 = 0 ∨ s.ws.manifest.isNone then false
      else match s.ws.images.find? (fun g => decide (g.num = h 28 2)) with | some g => decide (g.size < stop) | none => true)

/-- A retained record whose turn it is: decrypted, rejected, or left to wait (R268). A segment counts as written when it has the length that its place
in the entry asks for and every write of it has been acknowledged (R261, R270). -/
def recordDecrypt (i rec : Nat) (s : State) : State :=
  match s.ws.find i rec with
  | none => s
  | some x =>
    let h := s.recHdr i rec
    let plen := h 4 4
    if x.done ∨ !recWhole s x ∨ !(x.again ∨ rec = Sparse.get s.ws.next 0 i) then s
    else if recBad s h then fetchOn (recReject x E.WSEG_FORMAT s)
    else
      let kind := h 1 1
      let epoch := h 2 2
      let e := h 28 2
      let idx := h 24 4
      let oldest := (s.ws.keys.head?.map (·.1))
      if oldest.any (fun e => decide (epoch < e)) then recReject x E.KEY_EPOCH s
      else
        match Sparse.find s.ws.keys epoch with
        | none => s
        | some key =>
          if kind = 0 ∧ h 16 8 < s.wver then recReject x E.WSEG_VERSION s
          else if kind = 0 ∧ (s.wver < h 16 8 ∨ !s.ws.bufFree e) then s
          else if kind = 1 ∧ e ≠ 0 ∧ s.ws.manifest.isNone then
            if s.ws.recs.any (fun y => y.again && !y.done) ∨ s.ws.waiting.any (·.again) then s else imageVerify true 0 s
          else
            let a := s.slotAddr i rec
            match gcmOpen key (s.mem.bytes (a + 32) 12) (s.mem.bytes a 64) (s.mem.bytes (a + 64) plen) (s.mem.bytes (a + 64 + plen) 16) with
            | none => authFails x s
            | some pt =>
              let dest := recDest s kind e idx plen
              if !s.spreadFree (s.stackEp a) dest then s.spreadAsk dest
              else
                let r := spreadStore (s.stackEp a) dest pt s
                let s1 := recDone x r.1
                let w := s1.ws
                if kind = 0 then
                  let l := Sparse.get w.segs [] e
                  let whole := r.2 && (w.ent e).any (fun y => decide (plen = Nat.min segBytes (y.bytes - idx * segBytes)))
                  s1.setWs { w with segs := if whole && !l.contains idx then Sparse.put w.segs e (idx :: l) else w.segs }
                else
                  let l := Sparse.get w.isegs [] e
                  let s2 := if l.contains idx then s1 else s1.setWs { w with
                    isegs := Sparse.put w.isegs e (idx :: l)
                    segs := Sparse.put w.segs (2 ^ 20 + e) (plen :: Sparse.get w.segs [] (2 ^ 20 + e))
                    irecs := (e, rec, idx) :: w.irecs }
                  fetchOn (imageVerify false e s2)

/-- RECORD_DECRYPT: a slot that it frees may be what a fetch waits for. -/
def execRecordDecrypt (stream : BitVec 4) (recNo : Nat) (s : State) : Host.Outcome State Fault Refusal :=
  go (fetchWake (recordDecrypt stream.toNat recNo s))

/-- WSTREAM_KEY_TIMEOUT: the records whose turn it is and whose epoch was not installed in time fail authentication. -/
def execWstreamKeyTimeout (epoch : BitVec 16) (s : State) : Host.Outcome State Fault Refusal :=
  let top := (s.ws.keys.getLast?.map (·.1))
  if top.any (fun e => decide (epoch.toNat ≤ e)) then go s
  else
    go ((s.ws.recs.filter (fun x =>
      !x.done && decide (64 ≤ x.got) && (x.again || decide (x.no = Sparse.get s.ws.next 0 x.stream)) && decide (s.recHdr x.stream x.no 2 2 = epoch.toNat))).foldl
      (fun st x => authFails x st) s)

/-! ## Entries and buffer groups (R270, R273) -/

/-- ENTRY_COMPLETE: every byte of an entry is written: the event flag of each core of its region is set. -/
def entryComplete (e : Nat) (s : State) : State :=
  match s.ws.ent e with
  | none => s
  | some x =>
    if (Sparse.get s.ws.segs [] e).length < ceilDiv x.bytes segBytes ∨ s.ws.failed.contains e then s
    else
      (List.range x.ncores).foldl (fun st k => (st.kick (x.first + k)).giveEvent (x.first + k) x.evflag)
        ((s.setWs { s.ws with segs := Sparse.drop s.ws.segs e }).bump F.WSTREAM_ENTRY_DONE_CNT)

/-- ENTRY_COMPLETE. -/
def execEntryComplete (entry : BitVec 16) (s : State) : Host.Outcome State Fault Refusal := go (entryComplete entry.toNat s)

/-- A core releases an entry (R273). -/
def bufRelease (core e : Nat) (s : State) : State :=
  match s.ws.ent e with
  | none => s.bump F.WSTREAM_REL_ERR_CNT
  | some x =>
    let done := Sparse.get s.ws.released [] x.buf
    let mine := s.ws.ents.filter (fun y => y.buf = x.buf)
    let oldest := mine.find? (fun y => !done.contains y.num)
    if x.buf = 0 ∨ oldest.map (·.num) ≠ some e ∨ core < x.first ∨ x.first + x.ncores ≤ core then s.bump F.WSTREAM_REL_ERR_CNT
    else
      let by_ := Sparse.get s.ws.relBy [] x.buf
      let all := if by_.contains core then by_ else core :: by_
      if all.length < x.ncores then s.setWs { s.ws with relBy := Sparse.put s.ws.relBy x.buf all }
      else
        let d := e :: done
        s.setWs { s.ws with
          relBy := Sparse.drop s.ws.relBy x.buf
          released := if mine.all (fun y => d.contains y.num) then Sparse.drop s.ws.released x.buf else Sparse.put s.ws.released x.buf d }

/-- WSTREAM_BUF_REL_WRITE. -/
def execWstreamBufRelWrite (core : BitVec 10) (value : W64) (s : State) : Host.Outcome State Fault Refusal :=
  go (bufRelease core.toNat (fieldOf value 0 16) s)

/-! ## Write-backs (R264, R272) -/

/-- The record of segment `idx` of a write-back, encrypted under the highest epoch with the next IV. -/
def wbRecord (s : State) (r : WbReq) (idx : Nat) (epoch ctr : Nat) (key : List Byte) : List Byte :=
  let off := idx * segBytes
  let plen := Nat.min segBytes (r.bytes - off)
  let iv := leBytes 8 ctr ++ leBytes 4 s.node
  let hdr := leBytes 1 1 ++ leBytes 1 0 ++ leBytes 2 epoch ++ leBytes 4 plen ++ leBytes 8 s.jobArgs.id ++ leBytes 8 r.wver ++
    leBytes 4 idx ++ leBytes 2 r.entry ++ leBytes 2 0 ++ iv ++ List.replicate 20 0
  let c := gcmSeal key iv hdr (s.mem.bytes (r.src + off) plen)
  hdr ++ c.1 ++ c.2

/-- Cut a write at the 2 KiB boundaries of its address. -/
def cutWrites : Nat → Nat → List Byte → List (Nat × List Byte)
  | 0, _, _ => []
  | fuel + 1, a, bs =>
    if bs.isEmpty then []
    else
      let k := 2048 - a % 2048
      (a, bs.take k) :: cutWrites fuel (a + k) (bs.drop k)

/-- Send one write of a write-back and count it; one to this engine is made here (spec/02 R34). -/
def wbSend (r : WbReq) (p : Nat × List Byte) (q : State × Nat × Bool) : State × Nat × Bool :=
  let req : NetReq :=
    { src := .engine epWstream 1, ep := epWstream, vc := 0, node := p.1 / 2 ^ 42, op := opPut, addr := p.1 % 2 ^ 42, len := p.2.length,
      data := p.2 }
  let a := p.1 % 2 ^ 42
  if !r.roce && q.1.isSelf (p.1 / 2 ^ 42) then
    if (q.1.endpointOf a).isSome then
      let t := q.1.swr (q.1.stackEp r.src) a p.2
      (t.1, q.2.1, q.2.2 || !t.2)
    else (q.1, q.2.1, true)
  else
  let t :=
    if r.roce then (if q.1.qpState r.qp = 3 then ((q.1.sendRoce { req with addr := p.1 } r.qp 0).1, none) else (q.1, some E.NODE_UNREACH))
    else q.1.sendEng req
  match t.2 with
  | none => (t.1, q.2.1 + 1, q.2.2)
  | some _ => (t.1, q.2.1, true)

/-- Take write-back requests from the queue. One of another version is discarded with E_WSEG_VERSION, which no register shows (log 181). The records
of the one at the head are encrypted while a key may encrypt and its install has IVs left, and sent; the rest waits for a higher epoch. The code of the
key status reads E_IV_SPENT from the last IV of an install on (R264). -/
def wbGo : Nat → State → State
  | 0, s => s
  | fuel + 1, s =>
    match s.ws.wbq with
    | [] => s
    | r :: rest =>
      let n := ceilDiv r.bytes segBytes
      if r.left.isSome ∧ n ≤ r.next then s
      else if r.left.isNone ∧ r.wver ≠ s.fld F.CKPT_STEP_step then wbGo fuel (s.setWs { s.ws with wbq := rest, wbCode := E.WSEG_VERSION })
      else
        match s.ws.keys.getLast? with
        | none => s
        | some (epoch, key) =>
          let m := Nat.min (n - r.next) s.ws.ivLeft
          if m = 0 ∧ r.next < n then s
          else
            let ctr := s.fld F.WSTREAM_IV_CTR
            let recs := (List.range m).flatMap (fun k => wbRecord s r (r.next + k) epoch (ctr + k) key)
            let q := (cutWrites (recs.length / 2048 + 2) (r.dest + r.next * (80 + segBytes)) recs).foldl (fun q p => wbSend r p q)
              ((s.setFld F.WSTREAM_IV_CTR (ctr + m)).setWs { s.ws with ivLeft := s.ws.ivLeft - m }, 0, false)
            let s1 := q.1.setWs { q.1.ws with
              wbq := { r with next := r.next + m, left := some (r.left.getD 0 + q.2.1), bad := r.bad || q.2.2 } :: rest }
            if 0 < m ∧ m = s.ws.ivLeft then s1.setFld F.WSTREAM_KEY_STS_code E.IV_SPENT else s1

/-- Take what can be taken. -/
def State.wbRun (s : State) : State := wbGo (s.ws.wbq.length + 1) s

/-- A wrapped key is unwrapped for an epoch; requests that waited for a key go on once it is installed. A module that EJECT_N has stopped, or that
Run-out has made ready to remove, takes no key (spec/18 R419, R422). -/
def keyTake (epoch : Nat) (wrapped : List Byte) (s : State) : State :=
  if s.boot.quiet ∨ s.fld F.DEV_RUNOUT_STS_stage = 7 then s
  else
    let t := keyUnwrap epoch wrapped s
    if t.fld F.WSTREAM_KEY_STS_code = 0 then t.wbRun else t

/-- WSTREAM_KEY_UNWRAP: write of W63 of WSTREAM_KEY_SLOT. -/
def keySlotWrite (value : W64) (s : State) : State :=
  let s1 := s.setReg F.WSTREAM_KEY_SLOT_w63.addr value
  keyTake (s1.fld F.WSTREAM_KEY_EPOCH) ((s1.group F.WSTREAM_KEY_SLOT_w0.addr 64).flatMap (fun x => leBytes 8 x.toNat)) s1

/-- WSTREAM_KEY_UNWRAP. -/
def execWstreamKeyUnwrap (value : W64) (s : State) : Host.Outcome State Fault Refusal := go (keySlotWrite value s)

/-- Write of W3 of WSTREAM_WBQ: the request as its words stand, and the core that wrote it. -/
def wbqWrite (core : Nat) (value : W64) (s : State) : State :=
  let s1 := s.setReg F.WSTREAM_WBQ_dest.addr value
  let r : WbReq :=
    { core := core, src := s1.fld F.WSTREAM_WBQ_src, roce := s1.flag F.WSTREAM_WBQ_roce, qp := s1.fld F.WSTREAM_WBQ_qp,
      entry := s1.fld F.WSTREAM_WBQ_entry, bytes := s1.fld F.WSTREAM_WBQ_bytes, wver := s1.fld F.WSTREAM_WBQ_wver, dest := value.toNat }
  (s1.setWs { s1.ws with wbq := s1.ws.wbq ++ [r] }).wbRun

/-- WSTREAM_WBQ_WRITE. -/
def execWstreamWbqWrite (core : BitVec 10) (value : W64) (s : State) : Host.Outcome State Fault Refusal := go (wbqWrite core.toNat value s)

/-- WRITEBACK_DONE: every write of the request in progress is acknowledged; the event flag of its entry is set in the requesting core. -/
def writebackDone (s : State) : State :=
  match s.ws.wbq with
  | r :: rest =>
    if r.left = some 0 ∧ ceilDiv r.bytes segBytes ≤ r.next then
      let s1 := s.setWs { s.ws with wbq := rest }
      let s2 := match r.bad, s.ws.ent r.entry with
        | false, some x => if r.core < s1.ncores then (s1.kick r.core).giveEvent r.core x.evflag else s1
        | _, _ => s1
      s2.wbRun
    else s
  | [] => s

/-- WRITEBACK_DONE. -/
def execWritebackDone (s : State) : Host.Outcome State Fault Refusal := go (writebackDone s)

/-! ## Answers -/

/-- The answer to a request of WSTREAM: a piece of a fetched record, the acknowledgement of a write-back (1) or of a resend request (2). -/
def wsAnswer (arg : Nat) (resp : Response) (s : State) : State :=
  if arg = 1 then
    match s.ws.wbq with
    | r :: rest =>
      let bad := match resp with | .ok _ => r.bad | .fail _ => true
      s.setWs { s.ws with wbq := { r with left := r.left.map (· - 1), bad := bad } :: rest }
    | [] => s
  else if arg = 2 then s
  else
    match s.ws.fetch with
    | none => s
    | some f =>
      match resp with
      | .fail _ => fetchFails f (s.setWs { s.ws with fetch := none })
      | .ok data =>
        let s1 := s.store (s.slotAddr f.stream f.no + f.off) data
        let plen := s1.recHdr f.stream f.no 4 4
        if f.off = 0 ∧ !fetchFits s1 f then fetchFails f (s1.setWs { s1.ws with fetch := none })
        else
          let g := { f with off := f.off + data.length, len := if f.off = 0 then 80 + plen else f.len }
          if g.off < g.len ∧ !data.isEmpty then fetchSend 6 g s1
          else
            let x := (s1.ws.find f.stream f.no).getD { stream := f.stream, no := f.no }
            let y := { x with got := 80 + plen }
            fetchNext (forward y (s1.setWs (s1.ws.putRec y)))

/-! ## Tree repair and lost nodes -/

/-- WSTREAM_TREE_TIMEOUT (R278): images are missing and none came from the source: the nearest ancestor that is not lost replaces it. -/
def treeTimeout (s : State) : State :=
  if s.flag F.WSTREAM_JOB_STS_starting ∧ !s.ws.imagesDone ∧ !s.flag F.WSTREAM_JOB_CTL_route_reuse then
    let from_ := s.ws.source.getD 0
    let s1 := s.raiseDev EV.TREE_REPAIR (leBytes 3 (s.holder from_).2.1)
    match s.nextHolder from_ with
    | some h => fetchOn (s1.setWs { s1.ws with source := some h })
    | none => startFails E.TREE_NO_SOURCE s1
  else s

/-- WSTREAM_TREE_TIMEOUT. -/
def execWstreamTreeTimeout (s : State) : Host.Outcome State Fault Refusal := go (treeTimeout s)

/-- A lost node is dropped from every stream that sends to it (R274). -/
def streamsDrop (node : Nat) (s : State) : State :=
  (List.range 16).foldl (fun st i =>
    if st.flag (F.WSTREAM_STREAM_valid i) && (st.downs i).contains node then
      (st.setWs { st.ws with dropped := (i, node) :: st.ws.dropped }).raiseDev EV.FWD_DROP
        (leBytes 2 (st.fld (F.WSTREAM_STREAM_id i)) ++ leBytes 3 node)
    else st) s

/-- The checks of the stream entries at job start (R274). -/
def streamsValid (s : State) : Bool :=
  let l := (List.range 16).filter (fun i => s.flag (F.WSTREAM_STREAM_valid i))
  let share := fun i => (s.fld (F.WSTREAM_STREAM_first_slot i), s.fld (F.WSTREAM_STREAM_slots i))
  l.all (fun i => decide (0 < (share i).2 ∧ (share i).1 + (share i).2 ≤ s.ws.nslots)) && pairs (fun i j => !meets (share i) (share j)) l

end Sys2Proof.Machine
end

