-- ==== Sys2Proof/Machine/Ckpt.lean ====
section
/-! DEFINITION. The step boundary (spec/09 R203-R208, spec/14 R304-R318): member state, votes, decisions, abandonment, rollback, marking. -/

namespace Sys2Proof.Machine

/-! ## Phases and member state (R304, R309, R312) -/

abbrev phIdle : Nat := 0
abbrev phRun : Nat := 1
abbrev phVoting : Nat := 2
abbrev phVoted : Nat := 3
abbrev phRollback : Nat := 4
abbrev phHalted : Nat := 5

/-- The phase (Table 14-5), its replacement, and the step in flight. -/
def State.phase (s : State) : Nat := s.fld F.CKPT_STS_phase
def State.setPhase (s : State) (p : Nat) : State := s.setFld F.CKPT_STS_phase p
def State.stepNo (s : State) : Nat := s.fld F.CKPT_STEP_step

/-- The local address of a core's scale records, and the bytes of the protected ones, those that lie in SRAM. -/
def State.srecPlace (s : State) (n : Nat) : Nat := 0x20000000000 + 0x4000000 * n + s.fld (F.CORE_SREC_BASE n) * 64
def State.srecLen (s : State) (n : Nat) : Nat := Nat.min (64 * s.fld F.CKPT_SREC_CFG_count) (0x3000000 - s.fld (F.CORE_SREC_BASE n) * 64)

/-- The size of a member-state record. -/
def State.memberLen (s : State) : Nat := 64 + 64 * s.fld F.CKPT_SREC_CFG_count * s.ncores

/-- The header of a member-state record (Table 14-3). -/
def memberHdr (s : State) (step : Nat) (valid : Bool) : List Byte :=
  leBytes 8 step ++ leBytes 4 (s.fld F.RED_LOSS_SCALE) ++ leBytes 4 s.node ++ leBytes 2 s.ncores ++
    leBytes 2 (s.fld F.CKPT_SREC_CFG_count) ++ leBytes 1 (bit valid) ++ List.replicate 43 0

/-- The member-state record of the moment. -/
def memberRec (s : State) (step : Nat) : List Byte :=
  memberHdr s step false ++ (List.range s.ncores).flatMap (fun n =>
    let b := s.mem.bytes (s.srecPlace n) (s.srecLen n)
    b ++ List.replicate (64 * s.fld F.CKPT_SREC_CFG_count - b.length) 0)

/-- The step-base slot of a step (R309). -/
def State.baseSlot (s : State) (step : Nat) : Nat := s.fld F.CKPT_BASE_addr + step % 2 * s.fld F.CKPT_REC_STORE_slot_bytes

/-- Write a member-state record into the cores, the step counter and the loss scale. -/
def memberLoad (rec : List Byte) (s : State) : State :=
  let c := 64 * s.fld F.CKPT_SREC_CFG_count
  let s1 := (List.range s.ncores).foldl (fun st n =>
    { st with mem := st.mem.writeBytes (st.srecPlace n) ((rec.drop (64 + c * n)).take (st.srecLen n)) }) s
  (s1.setFld F.CKPT_STEP_step (leNat (rec.take 8))).setFld F.RED_LOSS_SCALE (leNat ((rec.drop 8).take 4))

/-- The registers of the cores, to be restored in a remapped core (spec/19 R441). -/
def takeCoreRegs (s : State) : State :=
  s.setCk { s.ckpt with coreRegs := s.regs.filter (fun p => decide (0x20000000000 ≤ p.1 ∧ p.1 < 0x30000000000)) }

/-- Half of a loss scale: the exponent field lowered by 1, no further than 2⁻¹²⁶ (spec/13 R298). -/
def halfScale (v : Nat) : Nat := if v / 2 ^ 23 % 256 ≤ 1 then v else v - 2 ^ 23

/-- Whether the current owner table names this engine as an owner or a Shadow. -/
def State.hasRole (s : State) : Bool :=
  (List.range (s.fld F.RED_OWNER_LEN)).any (fun k => let o := s.ownerNodes k; s.isSelf o.1 || s.isSelf o.2)

/-- Whether the update of the step before the one in flight is complete here, or is not waited for (R309, R313). -/
def State.updDone (s : State) : Bool := s.ckpt.first || !s.hasRole || decide (s.stepNo ≤ s.fld F.CKPT_UPD_done_step + 1)

/-! ## Sending -/

/-- Send bytes as writes cut at 2 KiB boundaries, to a global address or a queue pair's remote address; on this engine they are written
at once. The number sent and whether one could not leave. -/
def ckPuts (arg vc : Nat) (roce : Option Nat) (dest : Nat) (data : List Byte) (s : State) : State × Nat × Bool :=
  (cutWrites (data.length / 2048 + 2) dest data).foldl (fun (q : State × Nat × Bool) p =>
    let st := q.1
    let node := p.1 / 2 ^ 42
    let req : NetReq :=
      { src := .engine epCkpt arg, ep := epCkpt, vc := vc, node := node, op := opPut, addr := p.1 % 2 ^ 42, len := p.2.length, data := p.2 }
    match roce with
    | some qp =>
      if st.qpState qp = 3 then ((st.sendRoce { req with addr := p.1 } qp 0).1, q.2.1 + 1, q.2.2) else (st, q.2.1, true)
    | none =>
      if st.isSelf node then (st.store (p.1 % 2 ^ 42) p.2, q.2)
      else
        match st.sendEng req with
        | (t, none) => (t, q.2.1 + 1, q.2.2)
        | (t, some _) => (t, q.2.1, true)) (s, 0, false)

/-- The nodes named in a CTL record's destination get it on VC0. -/
def sendCtl (node : Nat) (rec : List Byte) (s : State) : State := (s.sendOne epCkpt 0 node opCtl 0 0 rec).1

/-! ## Digests and shards (R306, R317, R326) -/

/-- The descriptors this engine owns, with their indexes. -/
def State.owned (s : State) : List (Nat × CDesc) :=
  ((List.range s.ckpt.descs.length).zip s.ckpt.descs).filter (fun p => !p.2.held)

/-- The owner index of the first role-0 descriptor. -/
def State.firstOwner (s : State) : Option Nat := s.owned.head?.map (fun p => p.2.owner)

/-- The owner index this engine owns: at a load that of its first role-0 descriptor, after a promotion the one it was promoted to (R306, R319). -/
def State.ownIndex (s : State) : Option Nat := if s.flag F.CKPT_STS_owner_valid then some (s.fld F.CKPT_STS_owner_index) else none

/-- The shard-map digest for an owner index. -/
def mapDigest (s : State) (k : Option Nat) : List Byte :=
  sha512 ((s.owned.filter (fun p => some p.2.owner = k)).flatMap (fun p =>
    leBytes 8 p.2.tid ++ leBytes 8 p.2.bytes ++ leBytes 2 p.2.owner ++ leBytes 1 (bit p.2.freeze) ++ List.replicate 5 0))

/-- The words of 64 bytes, lowest first. -/
def wordsOf (bs : List Byte) : List W64 := (pieces 8 (bs.length / 8) bs).map (fun b => BitVec.ofNat 64 (leNat b))

/-- CKPT_STS and CKPT_SHADOW_STS show the descriptors, with an owner index as this engine's. -/
def showOwner (k : Option Nat) (s : State) : State :=
  let s1 := s.setGroup F.CKPT_STS_map_digest_w1.addr (wordsOf (mapDigest s k))
  let s2 := (s1.setFld F.CKPT_STS_owner_index (k.getD 0)).setFlag F.CKPT_STS_owner_valid k.isSome
  let l := (s.ckpt.descs.map (fun d => (d.owner, d.held))).dedup
  (List.range 16).foldl (fun st i =>
    match l[i]? with
    | some (k, held) =>
      (((st.setFld (F.CKPT_SHADOW_STS_owner i) k).setFlag (F.CKPT_SHADOW_STS_role i) held).setFlag (F.CKPT_SHADOW_STS_valid i) true)
    | none => st.setReg (F.CKPT_SHADOW_STS_owner i).addr 0) s2

/-- They show the descriptors as installed. -/
def showDescs (s : State) : State := showOwner s.firstOwner s

/-- The entry of CKPT_SHADOW_STS for an owner index. -/
def State.shadowSts (s : State) (k : Nat) : Option Nat :=
  (List.range 16).find? (fun i => s.flag (F.CKPT_SHADOW_STS_valid i) && decide (s.fld (F.CKPT_SHADOW_STS_owner i) = k))

/-- Whether an owner index has diverged, and the mark of it. -/
def State.diverged (s : State) (k : Nat) : Bool := (s.shadowSts k).any (fun i => s.flag (F.CKPT_SHADOW_STS_diverged i))
def State.diverge (s : State) (k : Nat) : State :=
  match s.shadowSts k with
  | some i => s.setFlag (F.CKPT_SHADOW_STS_diverged i) true
  | none => s

/-- The shards of a slot: the member state first, then the tensors owned here, each a header and data at 4 KiB-aligned offsets. -/
def shardsFrom : Nat → List (Option Nat × Nat × Nat) → List Shard
  | _, [] => []
  | off, (tid, base, bytes) :: l => { tid := tid, base := base, bytes := bytes, off := off } :: shardsFrom (roundUp (off + 256 + bytes) 4096) l
def shardsOf (s : State) (step : Nat) : List Shard :=
  shardsFrom 65536 ((none, s.baseSlot step, s.memberLen) :: s.owned.map (fun p => (some p.2.tid, p.2.base, p.2.bytes)))

/-! ## Descriptors (R305, R306) -/

/-- Entry `e` of the descriptor table, and whether its reserved bits are 0 and its base aligned. -/
def readCDesc (s : State) (e : Nat) : CDesc × Bool :=
  let n := fun o k => s.mem.nat (s.fld F.CKPT_TENS_BASE + 32 * e + o) k
  ({ tid := n 0 8, base := n 8 8, bytes := n 16 8, owner := n 24 2, freeze := decide (n 26 1 % 2 = 1), held := decide (n 26 1 / 2 % 2 = 1) },
    decide (n 26 1 < 4 ∧ n 27 5 = 0 ∧ n 8 8 % 65536 = 0 ∧ 1 ≤ n 16 8))

/-- The range of a tensor's Freeze pages. -/
def CDesc.range (d : CDesc) : Nat × Nat := (d.base, roundUp d.bytes 65536)

/-- The owner and the Shadow that the bank to be used next names for an owner index. -/
def State.armedNodes (s : State) (k : Nat) : Nat × Nat :=
  let b := if s.flag F.RED_STS_armed then 1 - s.fld F.RED_STS_bank else s.fld F.RED_STS_bank
  let a := s.fld F.RED_OWNER_BASE * 2 ^ 19 + b * 0x80000 + 8 * k
  (s.mem.nat a 4 % 2 ^ 22, s.mem.nat (a + 4) 4 % 2 ^ 22)

/-- Whether the table of descriptors is installed. -/
def descsOk (s : State) (l : List (CDesc × Bool)) : Bool :=
  let ds := l.map (·.1)
  let rs := ((s.ws.plan.map (·.2)).getD []).filter (fun r => r.kind = 4)
  let n := s.fld F.RED_OWNER_LEN
  let partner := s.fld F.CKPT_REC_PARTNER_node
  let inside := fun (d : CDesc) => (List.range (d.range.2 / 65536)).all (fun i =>
    rs.any (fun r => decide (r.base ≤ d.base + 65536 * i ∧ d.base + 65536 * i + 65536 ≤ r.base + r.size)))
  let t := s.setCk { s.ckpt with descs := ds }
  let last := (shardsOf t 0).getLast?
  decide (0 < l.length ∧ l.length ≤ 256) && l.all (·.2) && ds.all inside && pairs (fun a b => !meets a.range b.range) ds
    && ds.all (fun d =>
      let o := s.armedNodes d.owner
      decide (d.owner < n) && (if d.held then s.isSelf o.2 && decide (o.1 ≠ o.2) else s.isSelf o.1))
    && !s.isSelf partner
    && (List.range n).all (fun k => let o := s.armedNodes k; !s.isSelf o.1 || decide (o.1 = o.2 ∨ o.2 = partner))
    && last.all (fun h => decide (h.off + 256 + h.bytes ≤ s.fld F.CKPT_POOL_slot_bytes))

/-- Write of 1 to CKPT_TENS_CTL.load. -/
def tensLoad (s : State) : State :=
  let l := (List.range (s.fld F.CKPT_TENS_LEN)).map (readCDesc s)
  if s.jobLoaded then s
  else if descsOk s l then
    let s1 := (showDescs (s.setCk { s.ckpt with descs := l.map (·.1) })).setFld F.CKPT_STS_code 0
    (List.range 256).foldl (fun st i => st.setReg (F.CKPT_OWNER_CLEAN_clean i).addr 0) s1
  else (s.setFld F.CKPT_STS_code E.CKPT_DESC).raiseDev EV.CKPT_REFUSED (leBytes 2 E.CKPT_DESC)

/-- CKPT_TENS_LOAD. -/
def execCkptTensLoad (value : W64) (s : State) : Host.Outcome State Fault Refusal := go (if value.getLsbD 0 then tensLoad s else s)

/-! ## Points of a decision (R317, R318, R320, R321, R332) -/

/-- EV_FREEZE_OVERLAP: kind 0 a Freeze, 1 a comparison, 2 a buddy copy. -/
def overlapEvent (kind : Nat) (s : State) : State := s.raiseDev EV.FREEZE_OVERLAP (leBytes 1 kind)

/-- The clean notice of an owner index. -/
def cleanNotice (fid k : Nat) (s : State) : State :=
  match s.shadowOf k with
  | none => s
  | some node =>
    let seq := s.ckpt.seq + 1
    let r := s.ckSend 3 1 node (s.fld F.CKPT_CMP_AREA + 0x8000) (notice 0 fid 0 k seq)
    if r.2.isSome then r.1 else r.1.setCk { r.1.ckpt with seq := seq }

/-- The Freeze point of a decision for a step. -/
def freezePoint (fid step : Nat) (s : State) : State :=
  let shards := shardsOf s step
  let nos := (shards.flatMap (fun h => s.pagesOf h.base h.bytes)).dedup.mergeSort
  let d : Drain := { buddy := false, id := fid, step := step, owner := (s.ownIndex).getD 0xFFFF, pages := nos.map (fun q => { no := q }), shards := shards }
  let s1 := s.setCk { s.ckpt with
    drain := some d
    descs := s.ckpt.descs.map (fun (x : CDesc) => if x.freeze && !x.held then { x with clean := some fid, noted := false } else x) }
  let s2 := s1.raiseDev EV.FREEZE_START (leBytes 4 fid ++ leBytes 8 step)
  (((s.owned.map (fun p => p.2.owner)).dedup).foldl (fun st k => cleanNotice fid k st) s2)

/-- The tensors of an owner index with the Shadow method, in table order. -/
def State.shadowed (s : State) (k : Nat) (held : Bool) : List CDesc := s.ckpt.descs.filter (fun d => !d.freeze && d.held = held && decide (d.owner = k))

/-- The compare point: an owner keeps its digests, a Shadow writes its own to the owner. -/
def comparePoint (step : Nat) (s : State) : State :=
  let digest := fun (d : CDesc) => (d.tid, sha512 (s.mem.bytes d.base d.bytes))
  let ks := fun (held : Bool) => ((s.ckpt.descs.filter (fun d => d.held = held)).map (·.owner)).dedup
  let s1 := (ks false).foldl (fun st k =>
    if (st.shadowOf k).isSome then st.setCk { st.ckpt with compares := st.ckpt.compares ++ [⟨k, step, (st.shadowed k false).map digest⟩] } else st) s
  (ks true).foldl (fun st k =>
    (ckPuts 2 1 none ((st.ownerNodes k).1 * 2 ^ 42 + st.fld F.CKPT_CMP_AREA) (((st.shadowed k true).map digest).flatMap (·.2)) st).1) s1

/-- The marking of a buddy copy. -/
def buddyPoint (step : Nat) (s : State) : State :=
  match s.ckpt.buddy with
  | some (from_, node, table) =>
    if step < from_ then s
    else
      let k := (s.ownIndex).getD 0
      let nos := ((s.shadowed k false).flatMap (fun d => s.pagesOf d.base d.bytes)).dedup.mergeSort
      let d : Drain :=
        { buddy := true, id := 0, step := step, owner := k, pages := nos.map (fun q => { no := q }), node := node, table := table
          shards := (s.shadowed k false).map (fun d => { tid := some d.tid, base := d.base, bytes := d.bytes, off := 0 }) }
      if s.ckpt.drain.isSome then overlapEvent 2 (s.setCk { s.ckpt with buddy := none })
      else s.setCk { s.ckpt with buddy := none, drain := some d }
  | none => s

/-! ## Decisions (R206-R208, R299, R300, R310, R311) -/

abbrev outCommit : Nat := 1
abbrev outSkip : Nat := 2
abbrev outAbort : Nat := 3
abbrev outHalt : Nat := 4
abbrev outStale : Nat := 5

/-- A decision: outcome, freeze and compare flags, freeze identifier, step. -/
structure Decision where
  outcome : Nat
  freeze : Bool := false
  compare : Bool := false
  fid : Nat := 0
  step : Nat
  deriving DecidableEq, Repr

/-- The digest of the membership of the step: the armed one that became current, else the register's. -/
def State.mdig16 (s : State) : List Byte := (if s.red.mdig.isEmpty then s.groupBytes F.RED_MEMB_DIGEST_w0 8 else s.red.mdig).take 16

/-- The decision record (Table 14-4), and a decision read from one. -/
def Decision.bytes (d : Decision) (s : State) : List Byte :=
  leBytes 1 3 ++ leBytes 1 d.outcome ++ leBytes 1 (bit d.freeze + 2 * bit d.compare) ++ leBytes 1 0 ++ leBytes 4 d.fid ++ leBytes 8 d.step ++
    leBytes 4 s.node ++ List.replicate 12 0 ++ s.mdig16 ++ List.replicate 16 0
def Decision.of (b : List Byte) : Decision :=
  let n := fun o k => leNat ((b.drop o).take k)
  { outcome := n 1 1, freeze := decide (n 2 1 % 2 = 1), compare := decide (n 2 1 / 2 % 2 = 1), fid := n 4 4, step := n 8 8 }

/-- A context that voted receives the result. -/
def answerVoter (v : Voter) (outcome : Nat) (s : State) : State :=
  let x := s.ctx v.core v.ctx
  if x.inc = v.inc ∧ x.st ≠ .free then (s.putPr v.core v.ctx v.dp (outcome = outCommit)).complete v.core v.ctx v.inc v.pd else s

/-- The contexts that voted receive the result, in HOLD at its exit (spec/15 R352). -/
def answerVoters (outcome : Nat) (s : State) : State :=
  let vs := s.ckpt.voters
  let s1 := s.setCk { s.ckpt with voters := [] }
  if s.flag F.PWR_STS_hold then { s1 with later := s1.later ++ vs.map (fun v => .answer v outcome) }
  else vs.foldl (fun st v => answerVoter v outcome st) s1

/-- What HOLD kept back from the cores reaches them. -/
def runLater (s : State) : State :=
  s.later.foldl (fun st l => match l with | .event n f => st.setEvent n f | .answer v o => answerVoter v o st) { s with later := [] }

/-- The slots of this engine's record store and its own step-base slot in which a candidate for a step may lie. -/
def candidates (s : State) (step : Nat) : List Nat :=
  let b := s.fld F.CKPT_REC_STORE_slot_bytes
  (if s.ckpt.mirror.isSome then [s.baseSlot step] else [])
    ++ (if b = 0 then [] else
      ((List.range 8).map (fun a => s.fld F.CKPT_REC_STORE_base + (2 * a + step % 2) * b)).filter (fun p => decide (s.mem.nat p 8 = step)))

/-- Mark the candidates of a step valid, on a skip with a halved loss scale. -/
def validate (step : Nat) (skip : Bool) (s : State) : State :=
  (candidates s step).foldl (fun st p =>
    let v := st.mem.nat (p + 8) 4
    (st.store (p + 8) (leBytes 4 (if skip then halfScale v else v))).store (p + 20) (leBytes 1 1)) s

/-- Discard the candidates of a step. -/
def discard (step : Nat) (s : State) : State := (candidates s step).foldl (fun st p => st.store p (List.replicate 64 0)) s

/-- A step begins, or begins again: votes and candidates of the last are gone, an armed bank becomes current. -/
def stepAgain (s : State) : State :=
  (redStepStart ((s.forget (.engine epCkpt 0)).setCk { s.ckpt with
    cast := [], voters := [], mirror := none, voted := false, votes := [], timer := false, heir := false, rolled := false, aborted := false }))

/-- A new step begins at its step base, which takes the registers of the cores (R311, spec/19 R441). -/
def stepStart (s : State) : State := takeCoreRegs (stepAgain s)

/-- The rollback is complete once the member state is restored, the abort decision is in and no remap is awaited: RUN again. In stage STEP of
Run-out the cores stay stopped (spec/18 R419). -/
def rollbackEnd (s : State) : State :=
  if s.phase = phRollback ∧ s.ckpt.rolled ∧ s.ckpt.aborted ∧ s.dead.isEmpty then
    let s1 := (stepAgain s).setCk { (stepAgain s).ckpt with stored := none }
    let s2 := (s1.setPhase phRun).raiseDev EV.CKPT_ROLLBACK (leBytes 8 s1.stepNo)
    if s2.fld F.DEV_RUNOUT_STS_stage = 3 then s2 else resumeCores s2
  else s

/-- A commit or skip decision is written (R311). -/
def advance (d : Decision) (s : State) : State :=
  let busy := s.ckpt.drain.isSome
  let next := (d.step + 1) % 2 ^ 64
  let s1 := s.setFld F.CKPT_STEP_step next
  let s2 := if d.outcome = outSkip then s1.setFld F.RED_LOSS_SCALE (halfScale (s1.fld F.RED_LOSS_SCALE)) else s1
  let s3 := validate next (d.outcome = outSkip) s2
  let s4 := if d.freeze then
      let t := s3.setFld F.CKPT_FRZ_ID d.fid
      if busy then overlapEvent 0 t else freezePoint d.fid d.step t
    else s3
  let s5 := if d.compare then (if busy then overlapEvent 1 s4 else comparePoint d.step s4) else s4
  let s6 := answerVoters d.outcome (buddyPoint d.step s5)
  let c := s6.ckpt
  let s7 := stepStart (s6.setCk { c with
    first := false, members := (c.members.filter (fun n => !c.leaves.contains n)) ++ c.joins, joins := [], leaves := []
    lastFreeze := if d.freeze then d.step else c.lastFreeze })
  if s.phase = phRollback then s7 else s7.setPhase phRun

/-- An engine writes a decision. One for another step than the one in flight changes nothing. -/
def applyDecision (d : Decision) (s : State) : State :=
  if d.step ≠ s.stepNo ∨ s.phase = phIdle ∨ s.phase = phHalted ∨ s.ckpt.aborted then s
  else
    let s0 := (s.setFld F.CKPT_VOTE_STS_outcome d.outcome).setFld F.CKPT_VOTE_STS_step d.step
    let s1 := s0.setCk { s0.ckpt with stored := some (d.step, d.outcome), wrote := true }
    if d.outcome = outCommit ∨ d.outcome = outSkip then advance d s1
    else if d.outcome = outAbort then
      let s2 := answerVoters outAbort (discard ((d.step + 1) % 2 ^ 64) (redAbandon 0 s1))
      rollbackEnd ((s2.setCk { s2.ckpt with aborted := true, votes := [], timer := false }).setPhase phRollback)
    else if d.outcome = outHalt then
      ((answerVoters outHalt (s1.setRed { s1.red with halted := true })).setPhase phHalted).raiseDev EV.JOB_HALT []
    else s

/-! ## Votes (R206, R299) -/

/-- The vote root: owner 0, or its Shadow when owner 0 is lost. -/
def State.rootNode (s : State) : Nat :=
  let o := s.ownerNodes 0
  if s.net.gone.contains o.1 then o.2 else o.1

/-- This engine's vote record (Table 13-5); the vote of an abandoned step has an mdig of zeros (R314). -/
def voteRec (s : State) (dropped : Bool) : List Byte :=
  leBytes 1 2 ++ leBytes 1 (bit (decide (0 < s.fld F.RED_PSN_STS_count)) + 2 * s.fld F.RED_PSN_STS_received) ++
    leBytes 1 (s.fld F.RED_PSN_STS_element) ++ leBytes 1 0 ++ leBytes 4 (s.fld F.RED_PSN_STS_count) ++ leBytes 8 s.stepNo ++ leBytes 4 s.node ++
    leBytes 2 (s.fld F.RED_PSN_STS_layer) ++ leBytes 2 (s.fld F.RED_PSN_STS_bucket) ++ leBytes 4 (s.fld F.RED_PSN_STS_block) ++ leBytes 4 0 ++
    (if dropped then List.replicate 16 0 else s.mdig16) ++ List.replicate 16 0

/-- Fields of a vote record. -/
def vNode (b : List Byte) : Nat := leNat ((b.drop 16).take 4) % 2 ^ 22
def vStep (b : List Byte) : Nat := leNat ((b.drop 8).take 8)
def vFlags (b : List Byte) : Nat := leNat ((b.drop 1).take 1)
def vDig (b : List Byte) : List Byte := (b.drop 32).take 16

/-- The root decides: its decision is written here and multicast to every member (R206, R310, R320). -/
def decide_ (outcome : Nat) (s : State) : State :=
  let go_ := outcome = outCommit ∨ outcome = outSkip
  let step := s.stepNo
  let fs := s.fld F.CKPT_FRZ_CFG_steps
  let due := s.ckpt.due ∨ (fs ≠ 0 ∧ s.ckpt.lastFreeze + fs ≤ step)
  let freeze : Bool := go_ ∧ due
  let cs := s.fld F.CKPT_CMP_CFG_steps
  let d : Decision :=
    { outcome := outcome, freeze := freeze, compare := freeze || decide (outcome = outCommit ∧ cs ≠ 0 ∧ step % cs = 0)
      fid := if freeze then (s.fld F.CKPT_FRZ_ID + 1) % 2 ^ 32 else 0, step := step }
  let poisoned := s.ckpt.votes.filter (fun v => vFlags v % 4 ≠ 0)
  let first := fun (m : Nat) => ((poisoned.filter (fun v => vFlags v / m % 2 = 1)).mergeSort (fun a b => vNode a ≤ vNode b)).head?
  let s1 := match (first 1).orElse (fun _ => first 2) with
    | some v =>
      if outcome = outAbort then s
      else s.raiseDev EV.STEP_POISON (leBytes 1 outcome ++ leBytes 3 (vNode v) ++ (v.drop 20).take 8 ++ (v.drop 2).take 1)
    | none => s
  let s2 := if freeze then s1.setCk { s1.ckpt with due := false } else s1
  let s3 := (s2.ckpt.members.filter (fun n => !s2.isSelf n)).foldl (fun st n => sendCtl n (d.bytes s2) st) s2
  applyDecision d s3

/-- A vote reaches the root. One of a step already decided, of no member or given twice is ignored. The Shadow that has inherited the root's role
waits for its timer, whatever votes it holds (R208). -/
def rootVote (v : List Byte) (s : State) : State :=
  if !s.isSelf s.rootNode ∨ s.phase = phIdle ∨ s.phase = phHalted ∨ s.ckpt.aborted ∨ vStep v < s.stepNo ∨ !s.ckpt.members.contains (vNode v)
    ∨ s.ckpt.votes.any (fun w => decide (vNode w = vNode v)) then s
  else
    let s1 := s.setCk { s.ckpt with votes := s.ckpt.votes ++ [v], timer := true }
    let vs := s1.ckpt.votes
    if s1.ckpt.heir then s1
    else if vStep v = s.stepNo ∧ (vDig v).all (· = 0) then decide_ outAbort s1
    else if !s1.ckpt.members.all (fun n => vs.any (fun w => decide (vNode w = n))) then s1
    else if !vs.all (fun w => decide (vStep w = s.stepNo ∧ vDig w = vDig v)) then decide_ outAbort s1
    else if vs.all (fun w => vFlags w % 4 = 0) then decide_ outCommit s1
    else
      match s.fld F.RED_POISON_CFG_policy with
      | 0 => decide_ outSkip s1
      | 2 => decide_ outHalt s1
      | _ => decide_ outCommit s1

/-- This engine's vote for the step leaves. -/
def castVote (dropped : Bool) (s : State) : State :=
  let v := voteRec s dropped
  let s1 := s.setCk { s.ckpt with voted := true }
  if s.isSelf s.rootNode then rootVote v s1 else sendCtl s.rootNode v s1

/-- An engine that a decision has left in ROLLBACK for the next step abandons that step, too, and votes so at once (R314, log 172). -/
def abandonNext (s : State) : State :=
  if s.phase = phRollback ∧ !s.ckpt.voted ∧ !s.ckpt.aborted then castVote true s else s

/-- A decision record arrives; a vote arrives at the root. -/
def decisionArrive (d : Decision) (s : State) : State := abandonNext (applyDecision d s)
def voteArrive (v : List Byte) (s : State) : State := abandonNext (rootVote v s)

/-- The engine abandons the step in flight (R314). -/
def abandon (s : State) : State :=
  if s.phase = phRun ∨ s.phase = phVoting ∨ s.phase = phVoted then
    let s1 := s.setPhase phRollback
    if s1.ckpt.voted then s1 else castVote true s1
  else s

/-- The mirror of the candidate has failed (R309). -/
def mirrorFails (s : State) : State :=
  abandon (s.raiseDev EV.CKPT_MIRROR_FAIL (leBytes 3 (s.fld F.CKPT_REC_PARTNER_node) ++ leBytes 8 s.stepNo))

/-- The candidate is copied and sent to the record partner, once (R309, conditions 2 and 3); the copy waits for marked pages. -/
def candidate (s : State) : State :=
  if s.phase ≠ phVoting ∨ s.ckpt.mirror.isSome then s
  else
    let next := (s.stepNo + 1) % 2 ^ 64
    let a := s.baseSlot next
    let rec_ := memberRec s next
    if !s.clear a rec_.length then s.ask a rec_.length
    else
      let slot := s.fld F.CKPT_REC_STORE_base + (2 * s.fld F.CKPT_REC_PARTNER_area + next % 2) * s.fld F.CKPT_REC_STORE_slot_bytes
      let r := ckPuts 0 1 none (s.fld F.CKPT_REC_PARTNER_node * 2 ^ 42 + slot) rec_ (s.store a rec_)
      let s1 := r.1.setCk { r.1.ckpt with mirror := some r.2.1 }
      if r.2.2 then mirrorFails s1 else s1

/-- VOTE_SEND: the vote leaves once its conditions hold; an engine with a failed bucket does not vote (spec/13 R289). -/
def voteSend (s : State) : State :=
  let s1 := candidate s
  if s1.phase = phVoting ∧ s1.ckpt.mirror = some 0 ∧ s1.updDone ∧ !s1.red.bad then castVote false (s1.setPhase phVoted) else s1

/-- VOTE_SEND. -/
def execVoteSend (s : State) : Host.Outcome State Fault Refusal := go (voteSend s)

/-- CKVOTE (R93, R206, R208): p[d] and pd are written with the decision. The vote leaves once CKPT_VOTE_NCORES cores have executed it, each counted
once. -/
def ckvote (i : IA) (s : State) : State :=
  issue i.n i.k i.pg i.pn 8 (i.legal true true false false true 0 && predField i.d) [i.a.toNat] [] s fun s =>
    let x := s.ctx i.n i.k
    let step := (x.sr i.a.toNat).toNat
    if s.fld F.DEV_EXEC_CFG_mode = 1 then s.faultCtx i.n i.k E.MODE_OP x.pc
    else if s.red.halted then s.faultCtx i.n i.k E.RED_HALTED x.pc
    else
      match s.ckpt.stored.filter (fun q => q.1 = step) with
      | some q => s.setCtx i.n i.k (((x.setPr i.d.toNat (q.2 = outCommit)).setPr i.pd.toNat true).adv 8)
      | none =>
        if step ≠ s.stepNo then
          let s1 := s.setCtx i.n i.k (((x.setPr i.d.toNat false).setPr i.pd.toNat true).adv 8)
          (s1.setFld F.CKPT_VOTE_STS_outcome outStale).setFld F.CKPT_VOTE_STS_step step
        else
          let v : Voter := ⟨i.n, i.k, x.inc, i.pd.toNat, i.d.toNat⟩
          let cast := if s.ckpt.cast.contains i.n then s.ckpt.cast else s.ckpt.cast ++ [i.n]
          let s1 := (s.setCtx i.n i.k ((x.setPr i.pd.toNat false).adv 8)).setCk { s.ckpt with cast := cast, voters := s.ckpt.voters ++ [v] }
          if Nat.max 1 (s1.fld F.CKPT_VOTE_NCORES) ≤ cast.length ∧ s1.phase = phRun then candidate (s1.setPhase phVoting) else s1

/-- CKVOTE. -/
def execCkvote (i : IA) (s : State) : Host.Outcome State Fault Refusal := go (ckvote i s)

/-- VOTE_TIMER_EXPIRY: the root's timer, or that of the Shadow that has inherited the root's role in this step (R208). -/
def voteTimer (s : State) : State :=
  if s.isSelf s.rootNode ∧ (s.ckpt.timer ∨ s.ckpt.heir) ∧ s.phase ≠ phIdle ∧ s.phase ≠ phHalted then decide_ outAbort s else s

/-- VOTE_TIMER_EXPIRY. -/
def execVoteTimerExpiry (s : State) : Host.Outcome State Fault Refusal := go (voteTimer s)

/-! ## Rollback (R313) -/

/-- The member state of the step is restored from its step-base slot when that holds a valid record of the step. -/
def restoreMember (s : State) : State :=
  let a := s.baseSlot s.stepNo
  if s.mem.nat a 8 = s.stepNo ∧ s.mem.nat (a + 20) 1 % 2 = 1 then memberLoad (s.mem.bytes a s.memberLen) s else s

/-- ROLLBACK: the cores stop, RED abandons the step, the member state is restored; RUN follows the abort decision. In HOLD the cores stay as they
are, and the rollback waits (spec/15 R352). -/
def rollback (s : State) : State :=
  if s.phase ≠ phRollback ∨ s.flag F.PWR_STS_hold then s
  else
    if s.ckpt.rolled ∨ !s.updDone then rollbackEnd s
    else
      let s1 := stopCores s
      let s2 := restoreMember (if s1.red.dropped then s1 else redAbandon 2 s1)
      rollbackEnd (s2.setCk { s2.ckpt with rolled := true })

/-- ROLLBACK. -/
def execRollback (s : State) : Host.Outcome State Fault Refusal := go (rollback s)

/-- CKPT_UPD_WRITE: an update is complete; a waiting vote leaves, a waiting rollback goes on (R308). -/
def updWrite (value : W64) (s : State) : State :=
  let s1 := s.setFld F.CKPT_UPD_done_step value.toNat
  if s1.phase = phVoting then voteSend s1 else if s1.phase = phRollback then rollback s1 else s1

/-- CKPT_UPD_WRITE. -/
def execCkptUpdWrite (value : W64) (s : State) : Host.Outcome State Fault Refusal := go (updWrite value s)

/-! ## Triggers of a Freeze (R320) -/

/-- FREEZE_TIMER: the root's period or step count is met. -/
def freezeTimer (s : State) : State :=
  if s.isSelf s.rootNode ∧ (s.fld F.CKPT_FRZ_CFG_period_s ≠ 0 ∨ s.fld F.CKPT_FRZ_CFG_steps ≠ 0) then s.setCk { s.ckpt with due := true } else s

/-- FREEZE_TIMER. -/
def execFreezeTimer (s : State) : Host.Outcome State Fault Refusal := go (freezeTimer s)

/-- CKPT_FREEZE_NOW: write of CKPT_CTL. -/
def execCkptFreezeNow (value : W64) (s : State) : Host.Outcome State Fault Refusal :=
  go (if value.getLsbD 0 ∧ s.isSelf s.rootNode then s.setCk { s.ckpt with due := true } else s)

/-- CKPT_BUDDY_STEP: write of CKPT_BUDDY.step (R332). -/
def execCkptBuddyStep (value : W64) (s : State) : Host.Outcome State Fault Refusal :=
  go (s.setCk { s.ckpt with buddy := some (value.toNat, s.fld F.CKPT_BUDDY_node, s.fld F.CKPT_BUDDY_bases) })

end Sys2Proof.Machine
end

