-- ==== Sys2Proof/Machine/Freeze.lean ====
section
/-! DEFINITION. The drain of a Freeze or buddy copy, comparisons and notices (spec/14 R317, R318, R322-R328, R332). -/

namespace Sys2Proof.Machine

/-! ## Contents of a slot (R326-R328) -/

/-- A state with the marking in progress replaced. -/
def State.setDrain (s : State) (d : Option Drain) : State := s.setCk { s.ckpt with drain := d }

/-- The marked content of a page. -/
def pageBytes (s : State) (p : Page) : List Byte :=
  match p.slot with
  | some j => s.mem.bytes (s.fld F.CKPT_SIDE_base * 65536 + j * 65536) 65536
  | none => s.mem.bytes (p.no * 65536) 65536

/-- The part of a shard in a page: first address and length. -/
def Shard.part (h : Shard) (q : Nat) : Nat × Nat :=
  let lo := Nat.max h.base (q * 65536)
  (lo, Nat.min (h.base + h.bytes) (q * 65536 + 65536) - lo)

/-- The pages of a shard. -/
def Shard.pages (s : State) (h : Shard) : List Nat := s.pagesOf h.base h.bytes

/-- The key of the digest of a page of shard `k`. -/
def digestKey (k q : Nat) : Nat := k * 2 ^ 40 + q

/-- The digest of shard `k` (R327). -/
def shardDigest (s : State) (d : Drain) (k : Nat) (h : Shard) : List Byte :=
  sha512 ((h.pages s).flatMap (fun q => Sparse.get d.digests [] (digestKey k q)))

/-- A shard header (Table 14-8). -/
def shardHdr (s : State) (d : Drain) (k : Nat) (h : Shard) : List Byte :=
  [0x58, 0x4A, 0x53, 0x48] ++ leBytes 1 1 ++ leBytes 1 (bit h.tid.isNone) ++ leBytes 2 0 ++ leBytes 8 s.jobArgs.id ++
    leBytes 8 d.step ++ leBytes 8 (d.id * 2 ^ 32 + s.node) ++ leBytes 8 (h.tid.getD 0) ++ leBytes 8 h.bytes ++ shardDigest s d k h ++
    List.replicate 144 0

/-- The digest of the entries of DEV_PG_VC. -/
def pgDigest (s : State) : List Byte := sha512 ((List.range 12).flatMap (fun i => leBytes 8 (s.reg (F.DEV_PG_VC_valid i).addr).toNat))

/-- The manifest without its signature (Table 14-9). -/
def manifestBody (s : State) (d : Drain) : List Byte :=
  let key := Config.ak s.idGen
  let hdr :=
    [0x58, 0x4A, 0x4D, 0x46] ++ leBytes 1 1 ++ leBytes 3 0 ++ leBytes 8 s.jobArgs.id ++ leBytes 8 d.step ++ leBytes 4 d.id ++
      leBytes 4 s.node ++ leBytes 2 (s.fld F.CKPT_MEMBER_index) ++ leBytes 2 (s.fld F.CKPT_MEMBER_count) ++
      leBytes 2 (s.fld F.RED_OWNER_LEN) ++ leBytes 2 d.owner ++ leBytes 2 d.shards.length ++ leBytes 2 (s.fld F.CKPT_SREC_CFG_count) ++
      leBytes 4 (s.fld F.DEV_ID_bc) ++ s.groupBytes F.CKPT_STS_map_digest_w1 8 ++ pgDigest s ++ s.mdig16 ++ leBytes 512 key.n ++
      leBytes 4 key.e ++ List.replicate 316 0
  hdr ++ (d.shards.zip (List.range d.shards.length)).flatMap (fun p =>
    leBytes 8 (p.1.tid.getD 0) ++ leBytes 8 p.1.off ++ leBytes 8 p.1.bytes ++ leBytes 1 (bit p.1.tid.isNone) ++ List.replicate 39 0 ++
      shardDigest s d p.2 p.1)

/-- The manifest with its signature; the salt is free. -/
def manifestBytes (s : State) (d : Drain) : List Byte :=
  let key := Config.ak s.idGen
  let b := manifestBody s d
  b ++ pssSign key.n key.d b ((List.range 64).map (fun i => Config.freeByte s.free i))

/-! ## The drain (R323-R325, R332) -/

/-- Where an offset in the slot of a Freeze lies in the pool. -/
def poolPlace (s : State) (fid off : Nat) : Nat :=
  s.fld F.CKPT_POOL_addr + fid % Nat.max 1 (s.fld F.CKPT_POOL_keep) * s.fld F.CKPT_POOL_slot_bytes + off

/-- Write bytes to the slot of the Freeze in progress. -/
def poolPut (d : Drain) (off : Nat) (data : List Byte) (s : State) : State × Nat × Bool :=
  ckPuts 1 (s.fld F.CKPT_POOL_vc) (if s.flag F.CKPT_POOL_roce then some (s.fld F.CKPT_POOL_qp) else none) (poolPlace s d.id off) data s

/-- The next page: one with a waiting write, then the AHEAD one of lowest slot, then the first MARKED one. -/
def Drain.nextPage (d : Drain) : Option Page :=
  match d.pages.find? (·.want) with
  | some p => some p
  | none =>
    match ((d.pages.filter (fun p => p.slot.isSome)).mergeSort (fun a b => a.slot.getD 0 ≤ b.slot.getD 0)).head? with
    | some p => some p
    | none => d.pages.head?

/-- The first shard whose pages have drained and whose header is not written. -/
def Drain.nextHeader (s : State) (d : Drain) : Option Nat :=
  (List.range d.shards.length).find? (fun k =>
    match d.shards[k]? with
    | some h => !h.done && !d.pages.any (fun p => (h.pages s).contains p.no)
    | none => false)

/-- What the drain writes next; none when all is done. -/
def Drain.next (s : State) (d : Drain) : Option DrainItem :=
  let page := d.nextPage.map (fun p => DrainItem.page p.no)
  if d.buddy then
    if d.bases.length < 8 * d.shards.length then some .bases else some (page.getD .record)
  else if !d.zeroed then some .zero
  else if d.pages.any (·.want) then page
  else
    match d.nextHeader s with
    | some k => some (.header k)
    | none => if page.isSome then page else if d.barren then none else some .manifest

/-- The completion record of a buddy copy. -/
def buddyRecord (d : Drain) : List Byte :=
  leBytes 1 2 ++ leBytes 7 0 ++ leBytes 8 d.step ++ leBytes 2 d.owner ++ leBytes 2 d.shards.length ++ List.replicate 44 0

/-- Write an item of the drain. -/
def drainPut (d : Drain) (it : DrainItem) (s : State) : State × Nat × Bool :=
  match it with
  | .zero => poolPut d 0 (List.replicate 4096 0) s
  | .bases =>
    let a := d.table + d.bases.length
    let r := s.sendEng
      { src := .engine epCkpt 4, ep := epCkpt, vc := 1, node := d.node, op := opGet, addr := a % 2 ^ 42,
        len := Nat.min (8 * d.shards.length - d.bases.length) (2048 - a % 2048) }
    (r.1, if r.2.isSome then 0 else 1, r.2.isSome)
  | .page q =>
    match d.pages.find? (fun p => p.no = q) with
    | none => (s, 0, false)
    | some p =>
      (List.range d.shards.length).foldl (fun (x : State × Nat × Bool) k =>
        match d.shards[k]? with
        | none => x
        | some h =>
          let w := h.part q
          if w.2 = 0 then x
          else
            let data := ((pageBytes s p).drop (w.1 - q * 65536)).take w.2
            let y :=
              if d.buddy then ckPuts 1 1 none (d.node * 2 ^ 42 + (leNat ((d.bases.drop (8 * k)).take 8) + (w.1 - h.base)) % 2 ^ 42) data x.1
              else poolPut d (h.off + 256 + (w.1 - h.base)) data x.1
            (y.1, x.2.1 + y.2.1, x.2.2 || y.2.2)) (s, 0, false)
  | .header k =>
    match d.shards[k]? with
    | some h => poolPut d h.off (shardHdr s d k h) s
    | none => (s, 0, false)
  | .manifest => poolPut d 0 (manifestBytes s d) s.tick
  | .record => ckPuts 1 1 none (d.node * 2 ^ 42 + s.fld F.CKPT_BUDDY_FLAG) (buddyRecord d) s

/-- The marking ends: its pages are CLEAN and its side-buffer slots free. -/
def drainEnd (s : State) : State := (s.forget (.engine epCkpt 1)).setDrain none

/-- A Freeze is abandoned at this member. -/
def freezeFail (code : Nat) (s : State) : State :=
  match s.ckpt.drain with
  | some d => (drainEnd s).raiseDev EV.FREEZE_FAIL (leBytes 4 d.id ++ leBytes 2 code)
  | none => s

/-- FREEZE_DRAIN_SEND. -/
def drainSend (s : State) : State :=
  match s.ckpt.drain with
  | none => s
  | some d =>
    if d.item.isSome then s
    else
      match d.next s with
      | none => drainEnd s
      | some it =>
        let r := drainPut d it s
        r.1.setDrain ((r.1.ckpt.drain.map (fun (e : Drain) => { e with item := some it, left := r.2.1, bad := r.2.2 })))

/-- FREEZE_DRAIN_SEND. -/
def execFreezeDrainSend (s : State) : Host.Outcome State Fault Refusal := go (drainSend s)

/-- An item of the drain is acknowledged. -/
def drainDone (d : Drain) (it : DrainItem) (s : State) : State :=
  let e : Drain := { d with item := none, tries := 0 }
  match it with
  | .zero => s.setDrain (some { e with zeroed := true })
  | .bases => s.setDrain (some e)
  | .page q =>
    let data := (d.pages.find? (fun p => p.no = q)).map (pageBytes s) |>.getD []
    let digests := (List.range d.shards.length).foldl (fun m k =>
      match d.shards[k]? with
      | some h => let w := h.part q; if w.2 = 0 then m else Sparse.put m (digestKey k q) (sha512 ((data.drop (w.1 - q * 65536)).take w.2))
      | none => m) d.digests
    s.setDrain (some { e with digests := digests, pages := d.pages.filter (fun p => p.no ≠ q) })
  | .header k => s.setDrain (some { e with shards := (d.shards.zip (List.range d.shards.length)).map (fun (p : Shard × Nat) => if p.2 = k then { p.1 with done := true } else p.1) })
  | .manifest => ((drainEnd s).setFld F.CKPT_FRZ_STS_done_id d.id).raiseDev EV.FREEZE_DONE (leBytes 4 d.id)
  | .record =>
    let s1 := (drainEnd s).setReg F.CKPT_EXPOSE_STS_end.addr s.now
    s1.raiseDev EV.EXPOSURE_END (leBytes 2 d.owner ++ leBytes 8 (s.now - s.reg F.CKPT_EXPOSE_STS_start.addr).toNat)

/-- FREEZE_DRAIN_ACK: every write of the item is answered: it is done, or is written again, up to the third failure; headers, manifest and
completion record follow at once. A candidate that waits for a page goes on. -/
def drainAck (s : State) : State :=
  match s.ckpt.drain with
  | none => s
  | some d =>
    match d.item with
    | none => s
    | some it =>
      if d.left ≠ 0 then s
      else if d.bad then
        if 2 ≤ d.tries then freezeFail E.CKPT_POOL s else s.setDrain (some { d with item := none, tries := d.tries + 1 })
      else
        let s1 := drainDone d it s
        let more := match s1.ckpt.drain with
          | none => false
          | some e => match e.next s1 with | some (.page _) => false | _ => true
        candidate (if more then drainSend s1 else s1)


/-! ## Comparison (R317, spec/19 R438) -/

/-- The result record that the owner writes to the Shadow (log 75). -/
def resultRecord (k : Nat) (bad : Bool) : List Byte := leBytes 1 (bit bad) ++ leBytes 15 0 ++ leBytes 2 k ++ List.replicate 46 0

/-- A comparison ends; `wrong` is the tensor that differs. -/
def compareEnd (c : Compare) (wrong : Option Nat) (s : State) : State :=
  let s1 := s.setCk { s.ckpt with compares := s.ckpt.compares.filter (fun x => x.owner ≠ c.owner) }
  let s2 := match wrong with
    | none => s1
    | some t =>
      let u := (s1.diverge c.owner).raiseDev EV.SHADOW_DIVERGE (leBytes 2 c.owner ++ leBytes 8 t ++ leBytes 8 c.step)
      u.setDrain (u.ckpt.drain.map (fun (d : Drain) => if !d.buddy ∧ d.step = c.step then { d with barren := true } else d))
  match s2.shadowOf c.owner with
  | some node => (ckPuts 2 1 none (node * 2 ^ 42 + s2.fld F.CKPT_CMP_AREA + 0x4000) (resultRecord c.owner wrong.isSome) s2).1
  | none => s2

/-- CKPT_COMPARE: the Shadow's digests have arrived. -/
def compare (k : Nat) (s : State) : State :=
  match s.ckpt.compares.find? (fun c => c.owner = k) with
  | none => s
  | some c =>
    let wrong := (c.own.zip (List.range c.own.length)).find? (fun p => decide (s.mem.bytes (s.fld F.CKPT_CMP_AREA + 64 * p.2) 64 ≠ p.1.2))
    compareEnd c (wrong.map (fun p => p.1.1)) s

/-- CKPT_COMPARE. -/
def execCkptCompare (owner : BitVec 16) (s : State) : Host.Outcome State Fault Refusal := go (compare owner.toNat s)

/-- CKPT_COMPARE_TIMEOUT: the digests did not come. -/
def compareTimeout (k : Nat) (s : State) : State :=
  match s.ckpt.compares.find? (fun c => c.owner = k) with
  | none => s
  | some c => compareEnd c (some ((c.own.head?.map (·.1)).getD 0)) s

/-- CKPT_COMPARE_TIMEOUT. -/
def execCkptCompareTimeout (owner : BitVec 16) (s : State) : Host.Outcome State Fault Refusal := go (compareTimeout owner.toNat s)

/-! ## Notices and results as they land (R318) -/

/-- A notice lands at the Shadow. -/
def noticeLands (b : List Byte) (s : State) : State :=
  let n := fun o k => leNat ((b.drop o).take k)
  let k := n 16 2
  let mine := fun (st : State) (t : CDesc → Bool) (v : Nat) =>
    ((List.range s.ckpt.descs.length).zip s.ckpt.descs).foldl (fun (st : State) p =>
      if p.2.freeze && p.2.held && decide (p.2.owner = k) && t p.2 then st.setReg (F.CKPT_OWNER_CLEAN_clean p.1).addr (BitVec.ofNat 64 v) else st) st
  if n 1 3 ≠ 0 ∨ n 18 6 ≠ 0 ∨ n 32 32 ≠ 0 ∨ !s.isSelf (s.ownerNodes k).2 ∨ (s.ownerNodes k).1 = (s.ownerNodes k).2 then s
  else if n 0 1 = 0 then mine s (fun _ => true) (2 ^ 32 + n 4 4)
  else if n 0 1 = 1 then mine s (fun d => d.tid = n 8 8) 0
  else s

/-- A write of CKPT of another engine lands in the comparison area. -/
def ckLands (addr : Nat) (b : List Byte) (s : State) : State :=
  let a := s.fld F.CKPT_CMP_AREA
  if b.length ≠ 64 then s
  else if addr = a + 0x8000 then noticeLands b s
  else if addr = a + 0x4000 then (if leNat (b.take 1) % 2 = 1 then s.diverge (leNat ((b.drop 16).take 2)) else s)
  else s

/-! ## Answers to requests of CKPT -/

/-- The answer to a request: 0 mirror, 1 drain, 4 replica bases, 16 + i the dirty notice of descriptor i. A notice that is not acknowledged holds the
write, and the next one that asks sends it again (R318). -/
def ckAnswer (arg : Nat) (resp : Response) (s : State) : State :=
  let failed := match resp with | .ok _ => false | .fail _ => true
  match arg with
  | 0 => if failed then (if s.phase = phVoting ∧ s.ckpt.mirror.isSome then mirrorFails s else s) else s.setCk { s.ckpt with mirror := s.ckpt.mirror.map (· - 1) }
  | 1 => s.setDrain (s.ckpt.drain.map (fun (d : Drain) => { d with left := d.left - 1, bad := d.bad || failed }))
  | 2 => s
  | 3 => s
  | 4 => s.setDrain (s.ckpt.drain.map (fun (d : Drain) => { d with
      left := d.left - 1, bad := d.bad || failed, bases := d.bases ++ (match resp with | .ok b => b | .fail _ => []) }))
  | n =>
    match s.ckpt.descs[n - 16]? with
    | some d =>
      if d.noted then s.setCk { s.ckpt with
        descs := s.ckpt.descs.set (n - 16) { d with clean := if failed then d.clean else none, noted := false } }
      else s
    | none => s

end Sys2Proof.Machine
end

