-- ==== Sys2Proof/Machine/Restore.lean ====
section
/-! DEFINITION. Promotion, adoption, scan and restore (spec/14 R319, R331, R334, R335). What is read from a pool or a record partner comes
with the command. -/

namespace Sys2Proof.Machine

/-! ## Reading a slot (R327, R328, R334) -/

/-- A manifest entry: tensor identifier, offset, bytes, kind, digest. -/
structure MEnt where
  tid : Nat
  off : Nat
  bytes : Nat
  kind : Nat
  digest : List Byte

/-- The entries of the manifest in a slot. -/
def entriesOf (b : List Byte) : List MEnt :=
  (List.range (numAt b 40 2)).map (fun i =>
    let e := (b.drop (1024 + 128 * i)).take 128
    { tid := numAt e 0 8, off := numAt e 8 8, bytes := numAt e 16 8, kind := numAt e 24 1, digest := e.drop 64 })

/-- Whether a slot holds a manifest of the right magic and version. -/
def hasManifest (b : List Byte) : Bool := decide ((b.take 4) = [0x58, 0x4A, 0x4D, 0x46] ∧ numAt b 4 1 = 1)

/-- Whether the manifest is signed by a trusted key. -/
def signedOk (s : State) (b : List Byte) : Bool :=
  let n := 1024 + 128 * numAt b 40 2
  let dig := wordsOf (sha512 ((b.drop 192).take 516))
  (List.range 64).any (fun i => let w := s.group (F.CKPT_TRUST_w0 i).addr 8; decide (w = dig ∧ w.any (· ≠ 0)))
    && pssVerify (numAt b 192 512) (numAt b 704 4) (b.take n) ((b.drop n).take 512)

/-- Whether the manifest fits the engine as it is configured (R335, check 2). -/
def shapeOk (s : State) (b : List Byte) : Bool :=
  decide (numAt b 32 2 = s.fld F.CKPT_MEMBER_index ∧ numAt b 34 2 = s.fld F.CKPT_MEMBER_count ∧ numAt b 36 2 = s.fld F.RED_OWNER_LEN
    ∧ numAt b 42 2 = s.fld F.CKPT_SREC_CFG_count ∧ (b.drop 48).take 64 = s.groupBytes F.CKPT_STS_map_digest_w1 8
    ∧ (b.drop 112).take 64 = pgDigest s)

/-- Whether a shard header agrees with the manifest. -/
def headerOk (b : List Byte) (e : MEnt) : Bool :=
  let h := b.drop e.off
  decide ((h.take 4) = [0x58, 0x4A, 0x53, 0x48] ∧ numAt h 8 8 = numAt b 8 8 ∧ numAt h 16 8 = numAt b 16 8
    ∧ numAt h 24 8 = numAt b 24 4 * 2 ^ 32 + numAt b 28 4)

/-- The data of a shard and its digest (R327): the digest of the digests of its pages, the last one cut. -/
def shardData (b : List Byte) (e : MEnt) : List Byte := (b.drop (e.off + 256)).take e.bytes
def dataDigest (first : Nat) (d : List Byte) : List Byte :=
  let head := d.take first
  let rest := d.drop first
  sha512 ((if head.isEmpty then [] else sha512 head) ++ (pieces 65536 (ceilDiv rest.length 65536) rest).flatMap sha512)

/-- Whether a shard's data has the digest of its entry; `base` is its address here, which cuts it into pages. -/
def shardOk (b : List Byte) (e : MEnt) (base : Nat) : Bool :=
  let d := shardData b e
  d.length = e.bytes && decide (dataDigest (65536 - base % 65536) d = e.digest)

/-! ## Scan (R334) -/

/-- Check slot `j` of the pool. -/
def scanSlot (j : Nat) (b : List Byte) (s : State) : State :=
  let es := entriesOf b
  let bad := es.find? (fun e => !headerOk b e)
  let code :=
    if !hasManifest b then E.CKPT_NO_MANIFEST
    else if !signedOk s b then E.CKPT_SIG
    else if bad.isSome then E.CKPT_STEP_MIX
    else if !shapeOk s b then E.CKPT_SHAPE
    else 0
  let known := code ≠ E.CKPT_NO_MANIFEST
  let s1 := ((s.setFld (F.CKPT_SCAN_RES_code j) code).setFld (F.CKPT_SCAN_RES_freeze_id j) (if known then numAt b 24 4 else 0)).setFld
    (F.CKPT_SCAN_RES_step j) (if known then numAt b 16 8 else 0)
  match bad with
  | some e => if code = E.CKPT_STEP_MIX then s1.raiseDev EV.CKPT_SHARD_REJECT (leBytes 1 j ++ leBytes 8 e.tid) else s1
  | none => s1

/-- CKPT_SCAN: write of 1 to CKPT_CTL.scan. -/
def execCkptScan (value : W64) (slots : List (List Byte)) (s : State) : Host.Outcome State Fault Refusal :=
  go (if value.getLsbD 1 then (List.range (Nat.min 8 (s.fld F.CKPT_POOL_keep))).foldl (fun st j => scanSlot j (slots.getD j []) st) s else s)

/-! ## Restore (R335) -/

/-- The result of a restore. -/
def restoreSts (code : Nat) (s : State) : State := (s.setFld F.CKPT_RESTORE_STS_code code).setFlag F.CKPT_RESTORE_STS_done true

/-- The tensors to restore: base, entry and slot of each; none where the manifest has no entry of the right size. -/
def restoreList (s : State) (slot shadow : List Byte) : List (Option (CDesc × MEnt × List Byte)) :=
  s.ckpt.descs.filterMap (fun d =>
    if d.held && d.freeze then none
    else
      let b := if d.held then shadow else slot
      some (((entriesOf b).find? (fun e => decide (e.kind = 0 ∧ e.tid = d.tid ∧ e.bytes = d.bytes))).map (fun e => (d, e, b))))

/-- The phase after a restore or an adoption: RUN, with the first step of a restore in flight. -/
def restored (s : State) : State :=
  stepStart ((s.setCk { s.ckpt with first := true, stored := none }).setPhase phRun)

/-- Load the Freeze `f`: the result code of each refused load changes nothing else. -/
def ckptLoad (f : Nat) (slot shadow : List Byte) (s : State) : State :=
  let j := f % Nat.max 1 (s.fld F.CKPT_POOL_keep)
  if s.fld F.CKPT_VOTE_STS_outcome ≠ 0 then s
  else if s.fld (F.CKPT_SCAN_RES_freeze_id j) ≠ f ∨ s.fld (F.CKPT_SCAN_RES_code j) ≠ 0 ∨ !hasManifest slot then restoreSts E.CKPT_NO_MANIFEST s
  else if !shapeOk s slot then restoreSts E.CKPT_SHAPE s
  else
    let l := restoreList s slot shadow
    let step := numAt slot 16 8
    let mem := (entriesOf slot).find? (fun e => e.kind = 1)
    let good := l.all (fun x => x.any (fun y => shardOk y.2.2 y.2.1 y.1.base))
      && mem.any (fun e => decide (e.bytes = s.memberLen) && shardOk slot e (s.baseSlot step))
    if good then
      let s1 := (l.filterMap id).foldl (fun st y => st.store y.1.base (shardData y.2.2 y.2.1)) s
      let s2 := match mem with | some e => memberLoad (shardData slot e) s1 | none => s1
      let s3 := (s2.setFld F.CKPT_STEP_step step).setFld F.CKPT_FRZ_ID f
      let s4 := s3.setCk { s3.ckpt with descs := s3.ckpt.descs.map (fun (d : CDesc) => if d.freeze && !d.held then { d with clean := some f, noted := false } else d) }
      let s5 := ((List.range s4.ckpt.descs.length).zip s4.ckpt.descs).foldl (fun st p =>
        if p.2.freeze && p.2.held then st.setReg (F.CKPT_OWNER_CLEAN_clean p.1).addr (BitVec.ofNat 64 (2 ^ 32 + f)) else st) s4
      let s6 := (List.range 16).foldl (fun st i => st.setFlag (F.CKPT_SHADOW_STS_diverged i) false) s5
      restored (restoreSts 0 s6)
    else
      let s1 := (s.ckpt.descs.filter (fun d => !(d.held && d.freeze))).foldl (fun st d => st.undefAt d.base d.bytes) s
      let s2 := (List.range s.ncores).foldl (fun st n => if st.srecLen n = 0 then st else st.undefAt (st.srecPlace n) (st.srecLen n)) s1
      restoreSts E.CKPT_DIGEST s2

/-- CKPT_LOAD: write of CKPT_CTL.load; `slot` is what slot f of this engine's pool area holds, `shadow` that of the owner's area. -/
def execCkptLoad (value : W64) (slot shadow : List Byte) (s : State) : Host.Outcome State Fault Refusal :=
  go (ckptLoad (fieldOf value 0 32) slot shadow s)

/-! ## Adoption (R331) -/

/-- What a read of `len` bytes at `addr` of `node` answers: this engine's own memory, the bytes that `node` returns, or nothing where no
route leads there (R248). -/
def slotRead (node addr len : Nat) (answer : List Byte) (s : State) : Option (List Byte) :=
  if s.isSelf node then some (s.mem.bytes addr len)
  else match s.route node with
    | .fail _ => none
    | _ => some answer

/-- What the slot of `step` in the area that CKPT_CTL.adopt names holds (R331, R438). -/
def adoptSlot (step : Nat) (answer : List Byte) (s : State) : Option (List Byte) :=
  let b := s.fld F.CKPT_REC_STORE_slot_bytes
  slotRead (s.fld F.CKPT_CTL_adopt_node) (s.fld F.CKPT_REC_STORE_base + (2 * s.fld F.CKPT_CTL_adopt_area + step % 2) * b) b answer s

/-- Adopt a lost member's state from its record partner; `answer` is what the partner returns for that slot. A partner to which no route
leads gives no valid slot (log 95). -/
def adopt (step : Nat) (answer : List Byte) (s : State) : State :=
  match adoptSlot step answer s with
  | none => s.setFld F.CKPT_STS_code E.CKPT_ADOPT
  | some slot =>
    if numAt slot 20 1 % 2 ≠ 1 ∨ numAt slot 0 8 ≠ step then s.setFld F.CKPT_STS_code E.CKPT_ADOPT
    else restored (memberLoad slot s)

/-- CKPT_ADOPT: write of CKPT_CTL.adopt_step; `slot` is what the slot of the partner's area holds. -/
def execCkptAdopt (value : W64) (slot : List Byte) (s : State) : Host.Outcome State Fault Refusal := go (adopt value.toNat slot s)

/-! ## Promotion (R319) -/

/-- What slot f of the pool area at CKPT_CTL.promote_pool holds: slot f mod keep (R319, R326); nothing where it can't be read. -/
def promoteSlot (answer : List Byte) (s : State) : List Byte :=
  let b := s.fld F.CKPT_POOL_slot_bytes
  let a := s.fld F.CKPT_CTL_promote_pool + s.fld F.CKPT_CTL_promote_freeze % Nat.max 1 (s.fld F.CKPT_POOL_keep) * b
  (slotRead (a / 2 ^ 42 % 2 ^ 22) (a % 2 ^ 42) b answer s).getD []

/-- Promote this Shadow to owner of index `k`; `answer` is what the owner's pool area returns for slot f. -/
def promote (k : Nat) (answer : List Byte) (s : State) : State :=
  let slot := promoteSlot answer s
  let f := s.fld F.CKPT_CTL_promote_freeze
  let mine := ((List.range s.ckpt.descs.length).zip s.ckpt.descs).filter (fun p => p.2.held && decide (p.2.owner = k))
  let frozen := mine.filter (fun p => p.2.freeze)
  let dirty := frozen.any (fun p => s.reg (F.CKPT_OWNER_CLEAN_clean p.1).addr ≠ BitVec.ofNat 64 (2 ^ 32 + f))
  if !s.net.gone.contains (s.ownerNodes k).1 || s.diverged k || dirty then s.setFld F.CKPT_STS_code E.CKPT_PROMOTE
  else
    let s1 := s.setCk { s.ckpt with descs := s.ckpt.descs.map (fun (d : CDesc) => if d.held && decide (d.owner = k) then { d with held := false } else d) }
    let s2 := showOwner (some k) s1
    let find := fun (d : CDesc) => (entriesOf slot).find? (fun e => decide (e.kind = 0 ∧ e.tid = d.tid ∧ e.bytes = d.bytes) && shardOk slot e d.base)
    let s3 := frozen.foldl (fun st p => match find p.2 with
      | some e => st.store p.2.base (shardData slot e)
      | none => (st.undefAt p.2.base p.2.bytes).setFld F.CKPT_STS_code E.CKPT_DIGEST) s2
    let s4 := s3.setReg F.CKPT_EXPOSE_STS_start.addr s.now
    if frozen.all (fun p => (find p.2).isSome) then s4.raiseDev EV.PROMOTED (leBytes 2 k) else s4

/-- CKPT_PROMOTE: write of CKPT_CTL.promote. -/
def execCkptPromote (value : W64) (slot : List Byte) (s : State) : Host.Outcome State Fault Refusal := go (promote (fieldOf value 0 16) slot s)

end Sys2Proof.Machine
end

