-- ==== Sys2Proof/Machine/Peers.lean ====
section
/-! DEFINITION. Answers to requests by who waits for them (spec/11 R252, R257), control records, heartbeats, goodbyes and the loss of a peer
(spec/11 R257, R258). -/

namespace Sys2Proof.Machine

/-! ## Answers -/

/-- The source kind of the PUTs of a COPY that this engine executes; its argument is the number of the COPY. -/
abbrev epCopyJob : Nat := 0x400

/-- A packet that answers a COPY, on VC2 over the link the COPY came by (R252). -/
def CopyJob.packet (j : CopyJob) (s : State) (code : Nat) : OfpPkt :=
  { link := BitVec.ofNat 5 j.link, vc := 2, dst := BitVec.ofNat 22 j.node, addr := 0, src := BitVec.ofNat 22 s.node,
    srcEp := BitVec.ofNat 10 j.ep, tag := BitVec.ofNat 16 j.tag, op := BitVec.ofNat 4 (if code = 0 then opCdone else opErr),
    status := BitVec.ofNat 16 code }

/-- A PUT of a COPY is answered; after the last one the issuer gets CDONE, or ERR with the first failure (R252). -/
def copyAnswer (id : Nat) (resp : Response) (s : State) : State :=
  match s.net.copies.find? (fun j => j.id = id) with
  | none => s
  | some j =>
    let code := if j.code ≠ 0 then j.code else match resp with | .fail c => c.toNat | .ok _ => 0
    let rest := s.net.copies.filter (fun k => k.id ≠ id)
    if j.left ≤ 1 then ({ s with net := { s.net with copies := rest } }).sendPkt j.link (j.packet s code)
    else { s with net := { s.net with copies := { j with left := j.left - 1, code := code } :: rest } }

/-- The answer to a request, sent with a tag, reaches who waits for it; an answer for a core kicks its site (spec/16 R367). -/
def answer (src : ReqSrc) (tag : Nat) (resp : Response) (s : State) : State :=
  match src with
  | .ring n r => streamAnswer n r (s.tagIndex n r tag) resp (s.kick n)
  | .slot n x => streamAnswer n (16 + x) 0 resp (s.kick n)
  | .engine kind arg =>
    if kind = epWstream then wsAnswer arg resp s
    else if kind = epCkpt then ckAnswer arg resp s
    else if kind = epCopyJob then copyAnswer arg resp s
    else s
  | .fabric link ep tag op =>
    match resp with
    | .ok data => s.fabAnswer link ep tag op true 0 data
    | .fail code => s.fabAnswer link ep tag op false code.toNat []

/-- Requests fail with a code: they are no longer outstanding, then each is answered. -/
def failReqs (t : OutReq → Bool) (code : Nat) (s : State) : State :=
  let l := s.net.reqs.filter t
  l.foldl (fun st r => answer r.src r.tag (.fail (BitVec.ofNat 16 code)) st)
    (l.foldl lateNote { s with net := { s.net with reqs := s.net.reqs.filter (fun r => !t r) } })

/-- REMOTE_RESPONSE_TIMEOUT (R257): a request fails with E_REMOTE_TIMEOUT. -/
def execRemoteResponseTimeout (tag : BitVec 16) (s : State) : Host.Outcome State Fault Refusal :=
  go (failReqs (fun r => r.tag = tag.toNat) E.REMOTE_TIMEOUT s)

/-! ## Control records (R257) -/

/-- The nodes of DEV_HB_LIST. -/
def State.hbList (s : State) : List Nat :=
  (List.range 64).filterMap (fun i => if s.flag (F.DEV_HB_LIST_valid i) then some (s.fld (F.DEV_HB_LIST_node i)) else none)

/-- A heartbeat record and a goodbye record. -/
def heartbeatRec (s : State) (seq : Nat) : List Byte :=
  leBytes 1 0 ++ List.replicate 7 0 ++ leBytes 8 seq ++ leBytes 8 s.now.toNat ++ leBytes 8 s.stepNo ++ leBytes 4 s.node ++
    leBytes 1 s.phase ++ List.replicate 27 0
def goodbyeRec (s : State) (reason : Nat) : List Byte :=
  leBytes 1 1 ++ leBytes 1 reason ++ List.replicate 6 0 ++ leBytes 8 s.now.toNat ++ leBytes 8 s.stepNo ++ leBytes 4 s.node ++
    List.replicate 36 0

/-- Goodbye records leave on every link that is UP, to every listed node (R258; log 90). -/
def sayGoodbye (reason : Nat) (s : State) : State :=
  let rec_ := goodbyeRec s reason
  ((List.range 32).filter s.linkUp).foldl (fun st k =>
    st.hbList.foldl (fun (u : State) n => u.sendPkt k
      { link := BitVec.ofNat 5 k, vc := 0, dst := BitVec.ofNat 22 n, addr := 0, src := BitVec.ofNat 22 u.node,
        srcEp := BitVec.ofNat 10 epLodge, tag := 0, op := BitVec.ofNat 4 opCtl, len := 64, data := rec_ }) st) s

/-- HEARTBEAT_SEND (R258): a heartbeat record to each listed peer, numbered by peer since the job start; one that can't leave takes no number. -/
def heartbeatSend (s : State) : State :=
  if !s.jobLoaded then s
  else
    s.hbList.foldl (fun st n =>
      let q := Sparse.get st.ckpt.beats 0 n + 1
      let st1 := st.setCk { st.ckpt with beats := Sparse.put st.ckpt.beats n q }
      let t := st1.sendOne epLodge 0 n opCtl 0 0 (heartbeatRec st1 q)
      if t.2 then t.1 else st) s

/-- HEARTBEAT_SEND. -/
def execHeartbeatSend (s : State) : Host.Outcome State Fault Refusal := go (heartbeatSend s)

/-! ## Peer loss (R258) -/

/-- The members as a Shadow that inherits the root's role knows them: those it has, else every node that the owner table and its own list
name (log 92). -/
def State.heirMembers (s : State) : List Nat :=
  let known := if s.ckpt.members.isEmpty then
      s.node :: ((List.range (s.fld F.RED_OWNER_LEN)).flatMap (fun k => [(s.ownerNodes k).1, (s.ownerNodes k).2]) ++ s.hbList)
    else s.ckpt.members
  known.dedup.filter (fun n => !s.net.gone.contains n)

/-- The roles of a lost node: an owner whose Shadow is lost is exposed (spec/14 R332), the Shadow of owner 0 inherits the root's role (spec/09
R206), the root leaves a lost member out (R205). -/
def rolesLost (node : Nat) (s : State) : State :=
  let exposed := (List.range (s.fld F.RED_OWNER_LEN)).any (fun k =>
    let o := s.ownerNodes k; s.isSelf o.1 && o.2 = node && decide (o.1 ≠ o.2))
  let s1 := if exposed then s.setReg F.CKPT_EXPOSE_STS_start.addr s.now else s
  let o := s1.ownerNodes 0
  if o.1 = node ∧ s1.isSelf o.2 then s1.setCk { s1.ckpt with heir := true, members := s1.heirMembers }
  else s1.setCk { s1.ckpt with members := s1.ckpt.members.filter (· ≠ node), joins := s1.ckpt.joins.filter (· ≠ node) }

/-- A listed peer is declared lost, once in a job: reason 0 timeout, 1 goodbye. What RED and CKPT do is spec/13 R301 and spec/14 R314. -/
def peerLost (node reason : Nat) (s : State) : State :=
  if !(s.jobLoaded || s.flag F.WSTREAM_JOB_STS_starting) || !s.hbList.contains node || s.net.gone.contains node then s
  else
    let member := s.ckpt.members.contains node
    let s1 := { s with net := { s.net with gone := node :: s.net.gone } }
    let s2 := (failReqs (fun r => r.node = node) E.PEER_LOST s1).raise EV.PEER_LOST 8 node (leBytes 3 node ++ leBytes 1 reason)
    let s3 := streamsDrop node s2
    if !s3.jobLoaded then s3
    else
      let s4 := rolesLost node s3
      let s5 := if s4.redPeer node then abandon (redAbandon 1 s4) else s4
      if member ∧ s5.isSelf s5.rootNode ∧ !s5.ckpt.heir ∧ !s5.ckpt.aborted then decide_ outAbort s5 else s5

/-- PEER_TIMEOUT. -/
def execPeerTimeout (node : BitVec 22) (s : State) : Host.Outcome State Fault Refusal := go (peerLost node.toNat 0 s)

end Sys2Proof.Machine
end

