-- ==== Sys2Proof/Machine/Job.lean ====
section
/-! DEFINITION. Job start, job join, members, job end (spec/12 R277-R281, spec/09 R205, spec/19 R431, R436). -/

namespace Sys2Proof.Machine

/-! ## Digests (R279, R280) -/

/-- The configuration digest. -/
def cfgDigest (s : State) : List Byte :=
  let w := fun (f : Fld) => leBytes 8 (s.fld f)
  sha512 (leBytes 8 s.jobArgs.id ++ w F.DEV_ADDR_CFG_node_format ++ w F.DEV_EXEC_CFG_mode
    ++ (List.range 12).flatMap (fun i => leBytes 8 (s.reg (F.DEV_PG_VC_valid i).addr).toNat)
    ++ s.groupBytes F.RED_PLAN_STS_digest_w1 8 ++ w F.RED_POISON_CFG_policy)

/-- The route digest of this engine as it is configured (log 51). -/
def routeDigest (s : State) : BitVec 512 :=
  let ws := fun (a n : Nat) => (s.group a n).flatMap (fun x => leBytes 8 x.toNat)
  Config.routeDigest (ws (F.DEV_LGRP_MASK 0).addr 64 ++ ws F.DEV_HIER_GRP_g_hall.addr 1 ++ ws (F.DEV_NODE_OVR_node 0).addr 128
    ++ s.mem.bytes (s.fld F.DEV_FLAT_TABLE_BASE * 4096) (8 * s.fld F.DEV_FLAT_TABLE_LEN) ++ ws (F.DEV_PG_VC_valid 0).addr 12
    ++ ws (F.DEV_HB_LIST_node 0).addr 64
    ++ (List.range 32).flatMap (fun k => (List.range 256).flatMap (fun i => ws (F.LINK_QP_state k i).addr 8)))

/-! ## Job start (R277) -/

/-- Whether Run-out has passed its request (spec/18 R419) and refuses jobs and joins. -/
def State.runout (s : State) : Bool := decide (2 ≤ s.fld F.DEV_RUNOUT_STS_stage)

/-- The fields of W1 of WSTREAM_JOB that a write stores. -/
def jobFields (v : W64) (s : State) : State := (s.setFld F.WSTREAM_JOB_cores (fieldOf v 0 10)).setFlag F.WSTREAM_JOB_half (v.getLsbD 16)

/-- Job start begins with the arguments as they stand (spec/19 R429): intake starts afresh, and peers lost in the last job count as listed again (spec/11 R258). -/
def jobBegin (s : State) : State :=
  let w := s.ws
  let s1 := { s with
    ws := { w with
      args := some s.jobLive
      manifest := none, verified := [], segs := [], isegs := [], irecs := [], itries := [], recs := [], next := [], released := []
      relBy := [], fetch := none, waiting := [], source := none, istream := none, dropped := [], failed := [], normal := false, fresh := true }
    net := { s.net with gone := [] }
    boot := { s.boot with lastStep := none }
    ckpt := { s.ckpt with beats := [], members := [], joins := [], leaves := [], standby := [], seq := 0 } }
  (((s1.setReg F.WSTREAM_ENTRY_STS_count.addr 0).setFld F.WSTREAM_JOB_STS_code 0).setFlag F.WSTREAM_JOB_STS_ready false).setFlag
    F.WSTREAM_JOB_STS_starting true

/-- A write of another word of WSTREAM_JOB; in Run-out every word is refused (spec/18 R419). -/
def jobWord (a : Nat) (v : W64) (s : State) : State :=
  if s.runout then s.setFld F.WSTREAM_JOB_STS_code E.RUNOUT_ACTIVE else s.setReg a v

/-- A write of W1 of WSTREAM_JOB. A pending presence command, Run-out, a job, a bad stream entry or a route that may not be reused refuses
the start; a module that is not READY, or has no compute, starts none. -/
def jobGo (v : W64) (s : State) : State :=
  if !v.getLsbD 63 then (if s.runout then s.setFld F.WSTREAM_JOB_STS_code E.RUNOUT_ACTIVE else jobFields v s)
  else if s.lodge.staged.isSome then s.raiseDev EV.PRES_BLOCK []
  else if s.runout then s.setFld F.WSTREAM_JOB_STS_code E.RUNOUT_ACTIVE
  else if s.jobLoaded || s.flag F.WSTREAM_JOB_STS_starting then s.setFld F.WSTREAM_JOB_STS_code E.LOAD_PLAN_INVALID
  else
    let s1 := jobFields v s
    if s1.fld F.DEV_BOOT_STS_stage ≠ 9 ∨ s1.flag F.DEV_MODE_STS_no_compute then s1
    else if !streamsValid s1 then startFails E.LOAD_PLAN_INVALID s1
    else if s1.flag F.WSTREAM_JOB_CTL_route_reuse then
      if s1.ws.normal then
        let s2 := jobBegin s1
        fetchOn (s2.setWs { s2.ws with source := some 4 })
      else startFails E.ROUTE_REUSE s1
    else jobBegin s1

/-- WSTREAM_JOB_GO. -/
def execWstreamJobGo (value : W64) (s : State) : Host.Outcome State Fault Refusal := go (jobGo value s)

/-! ## Job join (R281) -/

/-- The time field that this engine publishes in its join record: all ones while its time is FREE (spec/16 R376). -/
def State.joinTime (s : State) : W64 := if s.fld F.CLK_PTP_STS_state = 0 then BitVec.allOnes 64 else s.now

/-- The first check of Table 12-4 that a record of the other side fails. A time of all ones on either side fails the check of times. -/
def joinCheck (p : JoinRec) (s : State) : Option Nat :=
  let off := 2 * (p.time.toNat : Int) - (p.tSend.toNat + p.tRecv.toNat : Int)
  if p.fw ≠ s.reg F.DEV_FW_VERSION.addr then some E.JOIN_FIRMWARE
  else if p.bc.toNat ≠ s.fld F.DEV_ID_bc then some E.JOIN_CLASS
  else if p.cores < s.jobArgs.cores ∨ s.ncores < p.needCores ∨ (p.halfMode ∧ !s.jobArgs.half)
      ∨ (s.halfMode ∧ !p.halfFlag) then some E.JOIN_CAPACITY
  else if leBytes 64 p.digest.toNat ≠ cfgDigest s then some E.JOIN_CONFIG
  else if p.time = BitVec.allOnes 64 ∨ s.joinTime = BitVec.allOnes 64 ∨ 2 * s.fld F.WSTREAM_JOIN_TOL_ns < off.natAbs then some E.JOIN_TIME
  else none

/-- A join is refused. -/
def joinRefused (node code : Nat) (s : State) : State :=
  ((s.setFld F.WSTREAM_JOIN_STS_code code).setFld F.WSTREAM_JOIN_STS_node node).raiseDev EV.JOIN_REFUSED (leBytes 3 node ++ leBytes 2 code)

/-- The engine is ready: the job is loaded, its first step is in flight, and the root counts the engines that have joined it as members. -/
def jobReady (s : State) : State :=
  let s1 := { s with
    jobLoaded := true
    ckpt := { s.ckpt with
      members := if s.isSelf s.rootNode then s.node :: s.ckpt.standby else [], joins := [], leaves := [], standby := []
      due := false, lastFreeze := s.stepNo }
    red := { s.red with halted := false } }
  let s2 := (((s1.setFld F.WSTREAM_JOB_STS_code 0).setFlag F.WSTREAM_JOB_STS_starting false).setFlag F.WSTREAM_JOB_STS_ready true).setReg
    F.CKPT_VOTE_STS_outcome.addr 0
  (restored s2).raiseDev EV.JOB_READY []

/-- The join checks of both sides are known. A joining engine becomes ready, but not before its chain tables are armed (spec/13 R295) nor while a
presence command is pending (spec/17 R403); the root takes
the other side among the members of the first step, or lets it wait for a join request. -/
def jobJoin (p : JoinRec) (s : State) : State :=
  let node := p.node.toNat
  let root := s.isSelf s.rootNode
  let starting := s.flag F.WSTREAM_JOB_STS_starting
  if !(starting && s.ws.imagesDone && decide (s.fld F.RED_PLAN_STS_code = 0) && s.red.armOk) && !(s.jobLoaded && root) then s
  else if s.runout then joinRefused node E.RUNOUT_ACTIVE s
  else
    match joinCheck p s with
    | some code => joinRefused node code s
    | none =>
      if p.peerCode ≠ 0 then joinRefused node p.peerCode.toNat s
      else if starting && !(root && !s.isSelf node) then (if s.lodge.staged.isSome then s else jobReady s)
      else
        let c := s.ckpt
        if s.jobLoaded && c.first && c.votes.isEmpty then
          s.setCk { c with members := if c.members.contains node then c.members else c.members ++ [node] }
        else s.setCk { c with standby := if c.standby.contains node then c.standby else c.standby ++ [node] }

/-- JOB_JOIN_CHECK. -/
def execJobJoinCheck (peer : JoinRec) (s : State) : Host.Outcome State Fault Refusal := go (jobJoin peer s)

/-- JOIN_RECORD_REFRESH: the root's hardware refreshes the time of its join record. -/
def execJoinRecordRefresh (s : State) : Host.Outcome State Fault Refusal :=
  go (if s.isSelf s.rootNode then s.setWs { s.ws with joinTime := s.joinTime } else s)

/-! ## Members (R205) -/

/-- A request to join or to leave. The root grants it from the next step; owners and Shadows may not leave; an engine that is not the
root notes its own last step (spec/18 R418). -/
def memberRequest (node : Nat) (leave : Bool) (s : State) : State :=
  if !s.jobLoaded then s
  else if !s.isSelf s.rootNode then
    if leave && s.isSelf node then { s with boot := { s.boot with lastStep := some s.stepNo } } else s
  else
    let c := s.ckpt
    if leave then
      if (List.range (s.fld F.RED_OWNER_LEN)).any (fun k => let o := s.ownerNodes k; o.1 = node || o.2 = node) then
        s.raiseDev EV.LEAVE_REFUSED (leBytes 3 node)
      else if c.members.contains node && !c.leaves.contains node then s.setCk { c with leaves := c.leaves ++ [node] }
      else s
    else if s.runout then joinRefused node E.RUNOUT_ACTIVE s
    else if c.standby.contains node then
      s.setCk { c with standby := c.standby.filter (· ≠ node), joins := c.joins ++ [node] }
    else s

/-- MEMBER_LEAVE_REQUEST. -/
def execMemberLeaveRequest (node : BitVec 22) (leave : Bool) (s : State) : Host.Outcome State Fault Refusal :=
  go (memberRequest node.toNat leave s)

/-! ## Job end (R431) -/

/-- No step is in flight any more: key slots cleared (R263), IDLE, no members; the next job needs an arm of its own (spec/13 R295). -/
def jobStops (s : State) : State :=
  let s1 := { s with
    ws := { s.ws with manifest := none, verified := [] }
    red := { s.red with halted := false, armOk := false }
    boot := { s.boot with lastStep := none }
    ckpt := { s.ckpt with
      members := [], joins := [], leaves := [], standby := [], timer := false, heir := false, coreRegs := [] } }
  (s1.clearKeys.setFlag F.WSTREAM_JOB_STS_starting false).setPhase phIdle

/-- The engine has no job. -/
def jobGone (s : State) : State := ({ jobStops s with jobLoaded := false }).setFlag F.WSTREAM_JOB_STS_ready false

/-- A write of WSTREAM_JOB_CTL. -/
def jobCtl (v : W64) (s : State) : State :=
  let s1 := s.setFlag F.WSTREAM_JOB_CTL_route_reuse (v.getLsbD 0)
  if v.getLsbD 8 ∧ s1.jobLoaded then
    let s2 := jobGone s1
    (s2.setWs { s2.ws with normal := true }).setGroup F.WSTREAM_ROUTE_DIGEST_w0.addr (wordsOf (leBytes 64 (routeDigest s2).toNat))
  else s1

/-- WSTREAM_JOB_END. -/
def execWstreamJobEnd (value : W64) (s : State) : Host.Outcome State Fault Refusal := go (jobCtl value s)

end Sys2Proof.Machine
end

