-- ==== Sys2Proof/Machine/Site.lean ====
section
/-! DEFINITION. Sites and the core map: power off, failure of a core, remap and map build (spec/02 R23-R30, spec/03 R53). -/

namespace Sys2Proof.Machine

/-! ## Sites -/

/-- The state of a site in the core map (Table 02-4). -/
abbrev siAssigned : Nat := 0
abbrev siSpare : Nat := 1
abbrev siDefective : Nat := 2
abbrev siRetired : Nat := 3

/-- Its field, and the half of a field (spec/02 R21). -/
def fieldOfSite (p : Nat) : Nat := p / 16
def halfOfField (f : Nat) : Nat := bit (decide (4 ≤ f % 8))

/-- The state of a site and its replacement; the logical core that an ASSIGNED site carries. -/
def State.siteState (s : State) (p : Nat) : Nat := s.fld (F.CORE_MAP_SITE_STATE_state p)
def State.coreAt (s : State) (p : Nat) : Option Nat :=
  if s.siteState p = siAssigned then some (s.fld (F.CORE_MAP_SITE_STATE_core p)) else none
def State.setSite (s : State) (p st core : Nat) : State :=
  (s.setFld (F.CORE_MAP_SITE_STATE_state p) st).setFld (F.CORE_MAP_SITE_STATE_core p) core

/-- A field distance (R25). -/
def fieldDist (a b : Nat) : Nat :=
  ((a % 8 : Int) - (b % 8 : Int)).natAbs + ((a / 8 : Int) - (b / 8 : Int)).natAbs

/-- What stays of a core whose site goes OFF: the numbers of its contexts' starts. -/
def Core.cold (c : Core) : Core :=
  { ctxs := c.ctxs.map (fun p => (p.1, ({ inc := p.2.inc } : Ctx))), chainNo := c.chainNo }

/-- SRAM, side memory and accumulator stores of a core are undefined (spec/15 Table 15-2, R340). -/
def coreMemLost (n : Nat) (s : State) : State :=
  let s1 := (s.lundef n 1 0 0x3000000).lundef n 2 0 0x100000
  { s1 with acc := Sparse.drop (Sparse.drop s1.acc (2 * n)) (2 * n + 1), accGen := s1.accGen + 1 }

/-- The registers of a core, by address. -/
def coreRegAt (n a : Nat) : Bool := decide (0x20000000000 + 0x4000000 * n + 0x3000000 ≤ a ∧ a < 0x20000000000 + 0x4000000 * n + 0x3800000)

/-- The registers of a core whose rails are off are lost: they are at reset when power comes back (Table 15-2; log 171). -/
def coreRegsLost (n : Nat) (s : State) : State := { s with regs := s.regs.filter (fun p => !coreRegAt n p.1) }

/-- A power state takes hold; OFF opens the isolation switch (spec/15 Table 15-2). -/
def sitePut (p st : Nat) (s : State) : State :=
  (s.setFld (F.PWR_SITE_STS_state p) st).setFlag (F.PWR_SITE_STS_isolated p) (st = 0)

/-- A site goes OFF (spec/15 R339): its core keeps nothing. -/
def siteOff (p : Nat) (s : State) : State :=
  let s1 := match s.coreAt p with
    | some n =>
      if s.sitePower p = 0 then s
      else
        let t := coreRegsLost n (coreMemLost n (coreStop n s))
        t.setCore n (t.core n).cold
    | none => s
  let s2 := { s1 with
    trans := Sparse.drop s1.trans p, miss := Sparse.drop s1.miss p, kickWait := s1.kickWait.filter (· ≠ p) }
  sitePut p 0 s2

/-! ## Failure (R27, R28) -/

/-- A core is declared failed: every core of the engine stops and the step in flight is abandoned. -/
def declareFail (n : Nat) (s : State) : State :=
  if s.dead.contains n || decide (s.ncores ≤ n) then s
  else abandon { s with dead := s.dead ++ [n], stopAll := true }

/-- The cores go on, with their streams and with RED. -/
def resumeAll (s : State) : State := (s.cores.foldl (fun st p => st.settle p.1) (resumeCores s)).redGo

/-- Sites fail with the cores they carry, in the order listed. -/
def failSites (ps : List Nat) (s : State) : State :=
  ps.foldl (fun st p => match st.coreAt p with | some n => declareFail n st | none => st) s

/-- HEARTBEAT_SAMPLE: a field samples its sites in RUN or IDLE; a third missed sample in a row declares the core failed. In HOLD it samples
none (spec/15 R352). The sites of a field without a reference send none (spec/16 R371). -/
def heartbeatSample (f : Nat) (missed : BitVec 16) (s : State) : State :=
  if s.flag F.PWR_STS_hold then s
  else (List.range 16).foldl (fun st j =>
    let p := 16 * f + j
    if st.sitePower p < 2 then st
    else if missed.getLsbD j || st.wear.noRef.contains f then
      let k := Sparse.get st.miss 0 p + 1
      let st1 := { st with miss := Sparse.put st.miss p k }
      if k = 3 then failSites [p] st1 else st1
    else { st with miss := Sparse.drop st.miss p }) s

/-- HEARTBEAT_SAMPLE. -/
def execHeartbeatSample (field : BitVec 6) (missed : BitVec 16) (s : State) : Host.Outcome State Fault Refusal :=
  go (heartbeatSample field.toNat missed s)

/-- SRAM_SCRUB (spec/03 R53, spec/02 R27): what the code finds at a place of the core: an SRAM line, met by the scrub or by an access, a row of an
accumulator store, a side-memory record, or control state (log 17). A corrected error is counted, an uncorrectable one declares the core failed; a
site in OFF holds nothing. -/
def sramScrub (n : Nat) (err : EccResult) (s : State) : State :=
  if s.ncores ≤ n ∨ s.sitePower (s.siteOf n) = 0 then s
  else
    match err with
    | .clean => s
    | .corrected => s.bump (F.CORE_SRAM_CE_CNT n)
    | .uncorrectable => declareFail n s

/-- SRAM_SCRUB. -/
def execSramScrub (core : BitVec 10) (_line : Nat) (err : EccResult) (s : State) : Host.Outcome State Fault Refusal :=
  go (sramScrub core.toNat err s)

/-! ## Spares and the map build (R24-R26) -/

/-- The fields in use, in ascending order, and the home field of a core. -/
def usedFields (half : Option Nat) : List Nat :=
  match half with
  | none => List.range 64
  | some h => (List.range 64).filter (fun f => halfOfField f = h)
def homeField (half : Option Nat) (n : Nat) : Nat := (usedFields half).getD (n / 14) 0

/-- The kept half in half-wafer mode. -/
def State.keptHalf (s : State) : Option Nat := if s.halfMode then some (s.fld F.DEV_MODE_STS_half) else none

/-- The place of a site in the order of R25 for a home field: half, distance, field, site. -/
def spareKey (home p : Nat) : Nat :=
  let f := fieldOfSite p
  bit (halfOfField f ≠ halfOfField home) * 2 ^ 20 + fieldDist f home * 2 ^ 12 + p

/-- The spare that R25 chooses among sites; in half-wafer mode only those of the home half. -/
def spareFor (half : Option Nat) (home : Nat) (spares : List Nat) : Option Nat :=
  (spares.filter (fun p => half.isNone || halfOfField (fieldOfSite p) = halfOfField home)).foldl (fun best p =>
    match best with
    | none => some p
    | some q => if spareKey home p < spareKey home q then some p else some q) none

/-- The map of R24: the site of every core that gets one, in ascending core, and the sites left over. -/
def buildMap (half : Option Nat) (good : List Nat) : List (Nat × Nat) × List Nat :=
  let fs := usedFields half
  let own := (List.range fs.length).map (fun k => (k, good.filter (fun p => decide (some (fieldOfSite p) = fs[k]?))))
  let home := own.flatMap (fun q => (q.2.take 14).zip (List.range 14) |>.map (fun r => (14 * q.1 + r.2, r.1)))
  let left := own.flatMap (fun q => q.2.drop 14)
  let short := own.flatMap (fun q => (List.range (14 - q.2.length)).map (fun j => 14 * q.1 + q.2.length + j))
  short.foldl (fun (r : List (Nat × Nat) × List Nat) n =>
    match spareFor half (homeField half n) r.2 with
    | some p => (r.1 ++ [(n, p)], r.2.filter (· ≠ p))
    | none => r) (home, left)

/-- CORE_MAP_SPARE_CNT always reads the number of SPARE sites; EV_SPARE_LOW follows R26. -/
def countSpares (s : State) : State :=
  let k := (List.range 1024).countP (fun p => s.siteState p = siSpare)
  s.setFld F.CORE_MAP_SPARE_CNT k
def spareLow (s : State) : State :=
  if s.fld F.CORE_MAP_SPARE_CNT ≤ s.fld F.CORE_MAP_SPARE_WARN then s.raiseDev EV.SPARE_LOW [] else s

/-- The core-map record is written (type 4; log 84). -/
def mapRecord (s : State) : State :=
  recordPut 4 (Config.mapPayload ((List.range 896).map (fun n => s.siteOf n)) ((List.range 1024).map s.siteState)) s

/-! ## Remap (R28-R30) -/

/-- The bits of a word that RW fields hold. -/
def rwMask (a : Nat) : W64 :=
  (rowsAt a).foldl (fun m r => if r.acc = .rw then m ||| (BitVec.ofNat 64 (2 ^ r.w - 1) <<< r.lo) else m) 0

/-- The registers of a remapped core: RW fields as at the step base, everything else at reset (spec/19 R441). -/
def coreRegsBack (n : Nat) (s : State) : State :=
  (s.ckpt.coreRegs.filter (fun p => coreRegAt n p.1)).foldl (fun st p =>
    let m := rwMask p.1
    st.setReg p.1 ((resetWord p.1 &&& ~~~m) ||| (p.2 &&& m))) (coreRegsLost n s)

/-- The images that lie in a core's window are loaded again from their copies (spec/12 R277). -/
def imagesBack (n : Nat) (s : State) : State :=
  (s.ws.images.filter (fun g => s.ws.verified.contains g.num && meets (g.dest, g.size) (0x20000000000 + 0x4000000 * n, 0x4000000))).foldl
    (fun st g => st.store g.dest (st.mem.bytes (st.imageAt g.num) g.size)) s

/-- A spare takes a core: it is started, and loaded with the core's registers and images. -/
def spareStart (n p : Nat) (s : State) : State :=
  let s1 := sitePut p 2 ((s.setSite p siAssigned n).setFld (F.CORE_MAP_ENTRY_site n) p)
  imagesBack n (coreRegsBack n s1)

/-- Find a spare for a core; one that fails its self-test is RETIRED and the next is tried. -/
def remapOne (fails : List Nat) (n : Nat) : Nat → State → State × Bool
  | 0, s => (s, false)
  | fuel + 1, s =>
    match spareFor s.keptHalf (homeField s.keptHalf n) ((List.range 1024).filter (fun p => s.siteState p = siSpare)) with
    | none => (s, false)
    | some p =>
      if fails.contains p then remapOne fails n fuel (s.setSite p siRetired 0)
      else (spareStart n p s, true)

/-- The engine is degraded: it does not rejoin (R30), and its peers learn it (spec/11 R257). -/
def degrade (s : State) : State :=
  if s.flag F.DEV_MODE_STS_degraded then s
  else sayGoodbye 4 (((abandon { s with stopAll := true }).setFlag F.DEV_MODE_STS_degraded true).raiseDev EV.ENGINE_DEGRADED [])

/-- The site of a failed core is isolated and RETIRED (R28, step 2). -/
def retireCore (s : State) (n : Nat) : State := (siteOff (s.siteOf n) s).setSite (s.siteOf n) siRetired 0

/-- Find spares for failed cores, in the order listed: the state, and the cores that found none. -/
def remapAll (fails : List Nat) (ns : List Nat) (s : State) : State × List Nat :=
  ns.foldl (fun (q : State × List Nat) n =>
    let t := remapOne fails n 1024 q.1
    (t.1, if t.2 then q.2 else q.2 ++ [n])) (s, [])

/-- CORE_REMAP: the sites of the failed cores are RETIRED, the batch is remapped in ascending order, and the engine goes on: it rejoins at the
rolled-back step. A degraded engine takes no spare any more, nor one whose converters are off (spec/15 R362). A core that has found a spare in a
batch that degrades the engine is not failed any more (log 184). -/
def coreRemap (fails : List Nat) (s : State) : State :=
  if s.dead.isEmpty then s
  else
    let batch := s.dead.mergeSort
    let s1 := batch.foldl retireCore s
    if s.flag F.DEV_MODE_STS_degraded || s.pwr.off then s1
    else
    let r := remapAll fails batch s1
    let s2 := countSpares { r.1 with dead := r.2 }
    if !r.2.isEmpty then degrade (spareLow s2)
    else
      let s3 := if s2.phase = phRollback then restoreMember s2 else s2
      let s4 := spareLow ((mapRecord s3).raiseDev EV.CORE_REMAP [])
      if s4.phase = phRollback then rollbackEnd s4 else resumeAll s4

/-- CORE_REMAP. -/
def execCoreRemap (failsTest : List (BitVec 10)) (s : State) : Host.Outcome State Fault Refusal :=
  go (coreRemap (failsTest.map (·.toNat)) s)

end Sys2Proof.Machine
end

