-- ==== Sys2Proof/Machine/Train.lean ====
section
/-! DEFINITION. Links: training, lanes, going down, drain-and-switch (spec/11 R232-R236, R243, R249, R256). -/

namespace Sys2Proof.Machine

/-! ## States (Table 11-2) -/

abbrev lsDown : Nat := 0
abbrev lsSignal : Nat := 1
abbrev lsInit : Nat := 4
abbrev lsUp : Nat := 5
abbrev lsFailed : Nat := 6
abbrev lsDisabled : Nat := 7

/-- The causes of R256, in its order; 5 stands for a retrain or a change of supply that the module makes itself (log 96). -/
abbrev caIdle : Nat := 0
abbrev caReplay : Nat := 1
abbrev caLane : Nat := 2
abbrev caReset : Nat := 3
abbrev caCredit : Nat := 4
abbrev caSelf : Nat := 5

/-- The state of a link, and its replacement; a link that is not UP has width 0. -/
def State.linkState (s : State) (k : Nat) : Nat := s.fld (F.LINK_STS_state k)
def State.setLink (s : State) (k st : Nat) : State :=
  let s1 := s.setFld (F.LINK_STS_state k) st
  if st = lsUp then s1 else s1.setFld (F.LINK_STS_width k) 0

/-- Whether a link is one of the kept half, or the module has both (spec/02 R22, Table 02-2). -/
def linkHalf (k : Nat) : Nat := bit (decide (4 ≤ k ∧ k < 20))
def State.linkKept (s : State) (k : Nat) : Bool := !s.halfMode || decide (linkHalf k = s.fld F.DEV_MODE_STS_half)

/-- The lanes that a native link uses: all 16, one half of 8, or none (R236). -/
def lanesUsed (lost : BitVec 16) : Option Nat :=
  if lost = 0 then some 16 else if lost.extractLsb' 0 8 = 0 then some 8 else if lost.extractLsb' 8 8 = 0 then some 8 else none
def lanesKept (lost : BitVec 16) : BitVec 16 :=
  if lost = 0 then 0xFFFF else if lost.extractLsb' 0 8 = 0 then 0x00FF else 0xFF00

/-- Training begins: a native link goes to SIGNAL, the ports of an Ethernet link train, a disabled link stays so. -/
def linkTrain (k : Nat) (s : State) : State :=
  if !s.linkKept k then s.setLink k lsDisabled
  else
    match s.fld (F.LINK_CFG_mode k) with
    | 0 => ((s.setLink k lsSignal).setFld (F.LINK_STS_port_a k) 0).setFld (F.LINK_STS_port_b k) 0
    | 1 => ((s.setLink k lsDown).setFld (F.LINK_STS_port_a k) 1).setFld (F.LINK_STS_port_b k) 1
    | _ => ((s.setLink k lsDisabled).setFld (F.LINK_STS_port_a k) 0).setFld (F.LINK_STS_port_b k) 0

/-! ## Going down (R256) -/

/-- The groups that a link belongs to. -/
def State.groupsOf (s : State) (k : Nat) : List Nat := (List.range 64).filter (fun g => (s.reg (F.DEV_LGRP_MASK g).addr).getLsbD k)

/-- A native link goes down: it leaves every up-set, its requests without an answer fail, and new requests for its groups are held. -/
def linkDown (k cause : Nat) (s : State) : State :=
  if s.linkState k ≠ lsUp then s
  else
    let l := s.lnk k
    let s1 := { s with net := { s.net with
      up := s.net.up.filter (· ≠ k), joining := s.net.joining.filter (· ≠ k)
      held := (s.net.held ++ s.groupsOf k).dedup
      links := Sparse.put s.net.links k { lost := l.lost, once := l.once } } }
    let s2 := (s1.setLink k lsDown).raise EV.LINK_DOWN 4 k (leBytes 1 k ++ leBytes 1 cause)
    failReqs (fun r => r.qp.isNone && decide (r.link = k)) E.LINK_DOWN s2

/-- A link goes down and, with auto_retrain, trains again. -/
def linkFault (k cause : Nat) (s : State) : State :=
  if s.linkState k ≠ lsUp then s
  else
    let s1 := linkDown k cause s
    if s1.flag (F.LINK_CFG_auto_retrain k) then linkTrain k s1 else s1

/-- LINK_IDLE_TIMEOUT. -/
def execLinkIdleTimeout (link : BitVec 5) (s : State) : Host.Outcome State Fault Refusal := go (linkFault link.toNat caIdle s)

/-- LINK_CREDIT_TIMEOUT. -/
def execLinkCreditTimeout (link : BitVec 5) (_vc : BitVec 4) (s : State) : Host.Outcome State Fault Refusal :=
  go (linkFault link.toNat caCredit s)

/-- The queue pairs of an Ethernet port go to the error state, and their operations fail with E_LINK_DOWN (R238, R256). -/
def qpError (k : Nat) (t : Nat → Bool) (s : State) : State :=
  let s1 := (List.range 256).foldl (fun st i => if t i && decide (st.fld (F.LINK_QP_state k i) ≠ 0) then st.setFld (F.LINK_QP_state k i) 4 else st) s
  failReqs (fun r => match r.qp with | some q => decide (q / 256 = k) && t (q % 256) | none => false) E.LINK_DOWN s1

/-- An Ethernet port goes down. -/
def portDown (k port : Nat) (s : State) : State :=
  let f := if port = 0 then F.LINK_STS_port_a k else F.LINK_STS_port_b k
  let s1 := s.setFld f 0
  qpError k (fun i => decide (s1.fld (F.LINK_QP_port k i) = port)) s1

/-- A link is taken out of service by the module itself: DISABLED. -/
def linkOff (k : Nat) (s : State) : State :=
  let s1 := linkDown k caSelf s
  let s2 := [0, 1].foldl (fun st p => if st.fld (if p = 0 then F.LINK_STS_port_a k else F.LINK_STS_port_b k) = 2 then portDown k p st else st) s1
  ((s2.setLink k lsDisabled).setFld (F.LINK_STS_port_a k) 0).setFld (F.LINK_STS_port_b k) 0

/-- LANE_LOSS: a native link retrains at width 8 while one half of its lanes works; an Ethernet port goes down. -/
def laneLoss (k lane : Nat) (s : State) : State :=
  if 1 ≤ s.linkState k ∧ s.linkState k ≤ lsUp then
    let l := s.lnk k
    let used := (lanesKept l.lost).getLsbD lane
    let lost := l.lost ||| (1 <<< lane : BitVec 16)
    let s1 := s.setLnk k { l with lost := lost }
    if !used then s1
    else
      let s2 := linkDown k caLane s1
      if (lanesUsed lost).isNone then s2.setLink k lsFailed else s2.setLink k lsSignal
  else
    let port := lane / 8
    if s.fld (if port = 0 then F.LINK_STS_port_a k else F.LINK_STS_port_b k) = 2 then portDown k port s else s

/-- LANE_LOSS. -/
def execLaneLoss (link : BitVec 5) (lane : BitVec 4) (s : State) : Host.Outcome State Fault Refusal := go (laneLoss link.toNat lane.toNat s)

/-! ## Training (R233, R235) -/

/-- The event of a link or port that failed to train. -/
def trainFail (k last : Nat) (s : State) : State := s.raise EV.LINK_TRAIN_FAIL 4 k (leBytes 1 k ++ leBytes 1 last)

/-- The minimums of a link's receive buffer (R243). -/
def State.creditSum (s : State) (k : Nat) : Nat := ((List.range 16).map (fun v => fieldOf (s.reg ((F.LINK_VC_CREDIT0_min k).addr + 8 * v)) 0 13)).sum

/-- A link layer after INIT: sequence numbers start again, and the partner has told its reserves by virtual channel and after them what it shares;
one that tells none has those of Table 11-6 (R243). -/
def freshLink (lost : BitVec 16) (credits : List Nat) : LinkSt :=
  if credits.isEmpty then { lost := lost, once := true }
  else { lost := lost, once := true, reserves := credits.take 16, shared := credits.getD 16 0 }

/-- A link comes UP; the first time since a start it joins its up-sets at once (log 97). -/
def linkComesUp (k : Nat) (credits : List Nat) (s : State) : State :=
  let l := s.lnk k
  let w := (lanesUsed l.lost).getD 8
  let s1 := s.setLnk k (freshLink l.lost credits)
  let s2 := { s1 with net := { s1.net with up := if l.once || s1.net.up.contains k then s1.net.up else (k :: s1.net.up).mergeSort } }
  let s3 := ((s2.setLink k lsUp).setFld (F.LINK_STS_width k) w).raise EV.LINK_UP 4 k (leBytes 1 k ++ leBytes 1 w)
  if w = 16 then s3 else s3.raise EV.LINK_DEGRADED 4 k (leBytes 1 k ++ leBytes 2 (lanesKept l.lost).toNat)

/-- LINK_TRAIN_STAGE_DONE: the work of the state a link is in has ended; `up` is false when it must be done again; INIT tells the partner's
credits. -/
def trainStage (k : Nat) (up : Bool) (credits : List Nat) (s : State) : State :=
  let st := s.linkState k
  if !up ∨ st < lsSignal ∨ lsInit < st then s
  else if st < lsInit then s.setLink k (st + 1)
  else if 4096 < s.creditSum k then trainFail k lsInit ((s.setLink k lsFailed).setFld (F.LINK_STS_code k) E.LINK_CFG)
  else linkComesUp k credits s

/-- LINK_TRAIN_STAGE_DONE. -/
def execLinkTrainStageDone (link : BitVec 5) (stage : StageEnd) (s : State) : Host.Outcome State Fault Refusal :=
  go (trainStage link.toNat stage.up stage.credits s)

/-- LINK_TRAIN_TIMEOUT: a link or a port that still trains becomes FAILED. -/
def trainTimeout (k : Nat) (s : State) : State :=
  let st := s.linkState k
  if lsSignal ≤ st ∧ st ≤ lsInit then trainFail k st (s.setLink k lsFailed)
  else
    [F.LINK_STS_port_a k, F.LINK_STS_port_b k].foldl (fun u f => if u.fld f = 1 then trainFail k 1 (u.setFld f 3) else u) s

/-- LINK_TRAIN_TIMEOUT. -/
def execLinkTrainTimeout (link : BitVec 5) (s : State) : Host.Outcome State Fault Refusal := go (trainTimeout link.toNat s)

/-- ETH_PORT_TRAIN_DONE. -/
def portTrained (k port : Nat) (ok : Bool) (s : State) : State :=
  let f := if port = 0 then F.LINK_STS_port_a k else F.LINK_STS_port_b k
  if s.fld f ≠ 1 then s else if ok then s.setFld f 2 else trainFail k 1 (s.setFld f 3)

/-- ETH_PORT_TRAIN_DONE. -/
def execEthPortTrainDone (link : BitVec 5) (port : BitVec 1) (ok : Bool) (s : State) : Host.Outcome State Fault Refusal :=
  go (portTrained link.toNat port.toNat ok s)

/-- A write of 1 to LINK_CTL.retrain: the link trains again, at full width. A module whose rim converters are off trains none. -/
def linkRetrain (k : Nat) (s : State) : State :=
  if s.pwr.off then s
  else
    let s1 := linkDown k caSelf s
    let s2 := [0, 1].foldl (fun st p =>
      if st.fld (if p = 0 then F.LINK_STS_port_a k else F.LINK_STS_port_b k) = 2 then portDown k p st else st) s1
    linkTrain k ((s2.setLnk k { s2.lnk k with lost := 0 }).setFld (F.LINK_STS_code k) 0)

/-- LINK_RETRAIN. -/
def execLinkRetrain (link : BitVec 5) (s : State) : Host.Outcome State Fault Refusal := go (linkRetrain link.toNat s)

/-! ## Drain-and-switch (R256) -/

/-- A write of 1 to DEV_LGRP_CTL.admit: links that are UP and in no up-set join at the end of a drain-and-switch. -/
def lgrpAdmit (s : State) : State :=
  let l := (List.range 32).filter (fun k => s.linkUp k && !s.net.up.contains k && !s.net.joining.contains k)
  { s with net := { s.net with joining := s.net.joining ++ l, held := (s.net.held ++ l.flatMap s.groupsOf).dedup } }

/-- DEV_LGRP_ADMIT. -/
def execDevLgrpAdmit (s : State) : Host.Outcome State Fault Refusal := go (lgrpAdmit s)

/-- The requests of a core that are held at the rim: number, core, ring or 16 + slot, place in its list. -/
def heldOf (n : Nat) (c : Core) : List (Nat × Nat × Nat × Nat) :=
  (c.rings.flatMap (fun p => ((p.2.lists.head?.map (·.reqs)).getD []).zipIdx.filterMap (fun q =>
      if q.1.stage = .held then some (q.1.ord, n, p.1, q.2) else none)))
    ++ c.slots.filterMap (fun p => p.2.req.bind (fun q => if q.stage = .held then some (q.ord, n, 16 + p.1, 0) else none))

/-- Every request of a core that is held, in the order in which they were issued (R253). -/
def State.heldReqs (s : State) : List (Nat × Nat × Nat × Nat) :=
  (s.cores.flatMap (fun p => heldOf p.1 p.2)).mergeSort (fun a b => decide (a.1 ≤ b.1))

/-- A held request of a core is issued again; a core that is stopped has issued it before. -/
def reissue (s : State) (h : Nat × Nat × Nat × Nat) : State :=
  let n := h.2.1
  let src := h.2.2.1
  if src < 16 then
    match (s.ring n src).lists with
    | l :: _ =>
      match l.reqs[h.2.2.2]? with
      | some q => if q.stage = .held then ringIssue n src s (s.ring n src) l h.2.2.2 q else s
      | none => s
    | [] => s
  else
    match Sparse.find (s.core n).slots (src - 16) with
    | some v => (match v.req with | some q => if q.stage = .held then slotIssue n (src - 16) v q.data s else s | none => s)
    | none => s

/-- Send an engine's request that waited at the rim. -/
def rimSend (s : State) (q : NetReq) : State :=
  match s.sendEng q with
  | (s1, none) => s1
  | (s1, some code) => answer q.src 0 (.fail (BitVec.ofNat 16 code)) s1

/-- LINK_DRAIN_SWITCH_DONE: no request of the groups concerned is outstanding; the new up-sets apply and what was held goes on, in the order in
which it was issued. -/
def drainSwitch (s : State) : State :=
  let busy := s.net.reqs.any (fun r => r.qp.isNone && s.net.held.any (fun g => (s.reg (F.DEV_LGRP_MASK g).addr).getLsbD r.link))
  if busy then s
  else
    let rim := s.net.rim
    let s1 := { s with
      net := { s.net with held := [], joining := [], rim := [], up := (s.net.up ++ s.net.joining).dedup.mergeSort } }
    let s2 := s1.heldReqs.foldl reissue (rim.foldl rimSend s1)
    s2.cores.foldl (fun st p => st.settle p.1) s2

/-- LINK_DRAIN_SWITCH_DONE. -/
def execLinkDrainSwitchDone (s : State) : Host.Outcome State Fault Refusal := go (drainSwitch s)

/-- NULL_FLIT_SEND: an idle sender of a native link sends a flit that is no part of a packet. -/
def nullFlit (k : Nat) (s : State) : State :=
  let l := s.lnk k
  if !s.linkUp k ∨ !l.queue.isEmpty ∨ !l.out.isEmpty ∨ 2048 ≤ l.replay.length then s
  else
    let r := l.sendNew { w0 := 0 }
    (s.setLnk k r.1).out (.flit k r.2)

/-- NULL_FLIT_SEND. -/
def execNullFlitSend (link : BitVec 5) (s : State) : Host.Outcome State Fault Refusal := go (nullFlit link.toNat s)

end Sys2Proof.Machine
end

