-- ==== Sys2Proof/Machine/Power.lean ====
section
/-! DEFINITION. Power and cooling: site power states, telemetry, the 1 ms loop, the Snowplough clamp, HOLD, faults of the power chain,
temperature (spec/15, spec/16 R365-R369, spec/20 R446). -/

namespace Sys2Proof.Machine

/-! ## Site power states (R339-R341, spec/16 R368) -/

/-- Whether a site belongs to a half in use (spec/02 R22). -/
def State.siteKept (s : State) (p : Nat) : Bool := match s.keptHalf with | none => true | some h => decide (halfOfField (fieldOfSite p) = h)

/-- Whether a stream request of a core has data to move here: it addresses this engine and is not answered. -/
def Core.moving (c : Core) : Bool :=
  let here := fun (q : Option Req) => q.any (fun r => decide (r.stage = .wait) && r.phys.isSome)
  c.rings.any (fun p => p.2.lists.any (fun l => l.reqs.any (fun q => here (some q)))) || c.slots.any (fun p => here p.2.req)

/-- Whether a site in RUN is idle (spec/16 R368). -/
def State.siteIdle (s : State) (p : Nat) : Bool :=
  match s.coreAt p with
  | none => true
  | some n =>
    let c := s.core n
    c.ctxs.all (fun q => decide (q.2.st ≠ .ready ∧ q.2.st ≠ .running)) &&
      [c.a0, c.a1, c.schuss, c.groomer, c.vector, c.snowU, c.digest].all (fun e => e.run.isNone && e.queue.isEmpty) && c.sq.isEmpty &&
      !s.coreHolds n &&
      (coreStep n s).isNone && !c.moving && !snowSpills s n && !snowRefills s n

/-- Whether a core keeps its site from RET: a context that is not FREE, or a stream that has not completed (R341). -/
def Core.keepsRet (c : Core) : Bool :=
  !c.ctxs.all (fun q => decide (q.2.st = .free)) || !c.sq.isEmpty || !c.rings.all (fun q => q.2.lists.isEmpty) || !c.slots.isEmpty

/-- A write of OFF. -/
def siteToOff (p : Nat) (s : State) : State := if s.siteKept p then siteOff p (s.setFld (F.PWR_SITE_CTL_state p) 0) else s

/-- A write of RET: refused unless the site is in IDLE and its core has nothing in progress. -/
def siteToRet (p : Nat) (s : State) : State :=
  if !s.siteKept p then s
  else if s.sitePower p ≠ 2 ∨ (Sparse.find s.trans p).isSome ∨ (s.coreAt p).any (fun n => (s.core n).keepsRet) then
    s.setFld (F.PWR_SITE_STS_code p) E.SITE_STATE
  else
    let s1 := s.setFld (F.PWR_SITE_CTL_state p) 1
    { s1 with trans := Sparse.put s1.trans p 1 }

/-- A write of IDLE: a site in RET, or an ASSIGNED site in OFF whose converters are on, begins to leave it. -/
def siteToIdle (p : Nat) (s : State) : State :=
  if !s.siteKept p then s
  else
    let s1 := s.setFld (F.PWR_SITE_CTL_state p) 2
    let fit := match s1.sitePower p with
      | 0 => !s1.pwr.off && (s1.coreAt p).any (fun n => !s1.dead.contains n)
      | 1 => true
      | _ => decide (Sparse.find s1.trans p = some 1)
    if fit then { s1 with trans := Sparse.put s1.trans p 2 } else s1

/-- A write of PWR_SITE_CTL.state; RUN is a reserved encoding (spec/19 R439). -/
def siteCtl (p st : Nat) (s : State) : State :=
  match st with
  | 0 => siteToOff p s
  | 1 => siteToRet p s
  | 2 => siteToIdle p s
  | _ => s

/-- SITE_TO_OFF. -/
def execSiteToOff (site : BitVec 10) (s : State) : Host.Outcome State Fault Refusal := go (siteToOff site.toNat s)

/-- SITE_TO_RET. -/
def execSiteToRet (site : BitVec 10) (s : State) : Host.Outcome State Fault Refusal := go (siteToRet site.toNat s)

/-- SITE_TO_IDLE. -/
def execSiteToIdle (site : BitVec 10) (s : State) : Host.Outcome State Fault Refusal := go (siteToIdle site.toNat s)

/-- What a core keeps in RET besides its memories: the configuration of its rings (Table 15-2). -/
def Core.retained (c : Core) : Core :=
  { ctxs := c.ctxs.map (fun p => (p.1, ({ inc := p.2.inc } : Ctx))), chainNo := c.chainNo
    rings := c.rings.map (fun p => (p.1, ({ configured := p.2.configured, base := p.2.base, cbytes := p.2.cbytes, n := p.2.n } : Ring))) }

/-- Held starts of a core take effect in the order of their writes. -/
def heldGo (n : Nat) (s : State) : State :=
  (s.heldStarts.filter (fun h => h.core = n)).foldl (fun st h => startNow h (st.kick n))
    { s with heldStarts := s.heldStarts.filter (fun h => h.core ≠ n) }

/-- A transition between power states completes. One to RET for which work has arrived since is given up. -/
def transitionDone (p : Nat) (s : State) : State :=
  let s1 := { s with trans := Sparse.drop s.trans p }
  match Sparse.find s.trans p with
  | none => s
  | some 1 =>
    match s.coreAt p with
    | none => sitePut p 1 s1
    | some n =>
      if s.sitePower p ≠ 2 ∨ (s.core n).keepsRet then s1 else sitePut p 1 (coreRegsLost n (s1.setCore n (s1.core n).retained))
  | some _ =>
    match s.coreAt p with
    | none => s1
    | some n =>
      let s2 := if s.sitePower p = 0 then coreMemLost n s1 else s1
      heldGo n (sitePut p 2 s2)

/-- SITE_POWER_TRANSITION_DONE. -/
def execSitePowerTransitionDone (site : BitVec 10) (s : State) : Host.Outcome State Fault Refusal := go (transitionDone site.toNat s)

/-- The idle timer of a site expires; CLK_IDLE_TO.ns of 0 has none. -/
def idleTimeout (p : Nat) (s : State) : State :=
  if s.sitePower p = 3 ∧ s.fld F.CLK_IDLE_TO_ns ≠ 0 ∧ s.siteIdle p then s.setFld (F.PWR_SITE_STS_state p) 2 else s

/-- IDLE_TIMEOUT. -/
def execIdleTimeout (site : BitVec 10) (s : State) : Host.Outcome State Fault Refusal := go (idleTimeout site.toNat s)

/-! ## Telemetry (R343) -/

/-- The record of a domain in a frame; its fields. -/
def recOf (recs : List (BitVec 128)) (domain : Nat) : Option (BitVec 128) := recs.find? (fun r => (r.extractLsb' 0 16).toNat = domain)
def recVolts (r : BitVec 128) : Nat := (r.extractLsb' 32 32).toNat
def recAmps (r : BitVec 128) : Nat := (r.extractLsb' 64 32).toNat
def recWatts (r : BitVec 128) : Nat := (r.extractLsb' 96 32).toNat

/-- Whether the Lodge firmware runs: its boot chain has ended and no restart is in progress (spec/17 R384). -/
def State.lodgeRuns (s : State) : Bool := s.lodge.restart.isNone && decide (4 ≤ s.fld F.DEV_BOOT_STS_stage)

/-- Whether a domain's rail lies in the lost half: a site's, a field's, or the half's always-on rail (spec/02 R22; log 138). -/
def State.domainLost (s : State) (d : Nat) : Bool :=
  let lost := fun (h : Nat) => s.halfMode && decide (h ≠ s.fld F.DEV_MODE_STS_half)
  if d < 0x800 then lost (halfOfField (fieldOfSite (d % 0x400)))
  else if d < 0x840 then lost (halfOfField (d - 0x800))
  else if d = 0x852 then lost 0
  else if d = 0x853 then lost 1
  else false

/-- A record with its flags (Table 15-4): the rails of a site show whether it is derated and isolated; those of the lost half are stale. -/
def State.telRec (s : State) (r : BitVec 128) : BitVec 128 :=
  let d := (r.extractLsb' 0 16).toNat
  let p := d % 0x400
  let r1 := if d < 0x800 then
      (r &&& ~~~(3 <<< 16 : BitVec 128)) ||| BitVec.ofNat 128 (65536 * bit (s.flag (F.PWR_SITE_STS_derated p)) + 131072 * bit (s.flag (F.PWR_SITE_STS_isolated p)))
    else r
  if s.domainLost d then r1 ||| (4 <<< 16 : BitVec 128) else r1

/-- A frame enters the ring; PWR_IN_STS holds its module-input record. -/
def telFrame (f : FrameIn) (s : State) : State :=
  if !s.lodgeRuns then s
  else
    let fr : TelFrame := { time := s.now, seq := s.pwr.frameSeq, recs := f.recs.map s.telRec, temps := f.temps }
    let s1 := { s with pwr := { s.pwr with
      frames := (fr :: s.pwr.frames).take s.pwr.telCap, frameSeq := s.pwr.frameSeq + 1
      temps := (List.range 1094).map (fun j => (j, (f.temps.getD j 0).toInt)) } }
    match recOf f.recs 0x851 with
    | some r => ((s1.setFld F.PWR_IN_STS_volts (recVolts r)).setFld F.PWR_IN_STS_amps (recAmps r)).setFld F.PWR_IN_STS_watts (recWatts r)
    | none => s1

/-- TELEMETRY_FRAME. -/
def execTelemetryFrame (frame : FrameIn) (s : State) : Host.Outcome State Fault Refusal := go (telFrame frame s)

/-- A temperature of the latest frame, in 1/64 degree; the coolant's inlet and outlet. -/
def State.frameTemp (s : State) (j : Nat) : Int := match s.pwr.frames with | f :: _ => (f.temps.getD j 0).toInt | [] => 0
def State.inlet (s : State) : Int := s.frameTemp 1092
def State.outlet (s : State) : Int := s.frameTemp 1093

/-! ## Operating points and the effective cap (R344-R348, R360, spec/16 R365) -/

/-- The point of the common cap, and the common cap of a point, in MHz. -/
def State.commonPoint (s : State) : Nat := (s.fld F.PWR_STS_common_mhz - 1350) / 150
def mhzOf (k : Nat) : Nat := 1350 + 150 * k

/-- The power entries that feed a site: its half's input contact groups, its field's converter input and its VFIELD bond. -/
def entriesOfSite (p : Nat) : List Nat :=
  let f := fieldOfSite p
  (List.range 4).map (fun g => 4 * halfOfField f + g) ++ [8 + f, 72 + f]

/-- Whether a power entry is derated. -/
def State.crevDerated (s : State) (e : Nat) : Bool := (Sparse.find s.pwr.crev e).any (·.derated)

/-- Whether a power entry limits its half (R355). -/
def State.crevLimits (s : State) (e : Nat) : Bool := (Sparse.find s.pwr.crev e).any (·.limits)

/-- The valid points of a site's table in force: a new table takes effect at the next iteration of the loop (spec/16 R379). -/
def State.points (s : State) (p : Nat) : List Nat :=
  (Sparse.find s.wear.force p).getD ((List.range 16).filter (fun k => s.flag (F.CLK_SITE_VF_valid (16 * p + k))))

/-- The operating point of a site: the highest valid point at or below its caps (R344, spec/16 R365), none when they allow no valid point. A site
left with no valid point runs at point 0, whatever its caps (spec/16 R379). -/
def State.sitePoint (s : State) (p : Nat) : Option Nat :=
  let thermal := 15 - Sparse.get s.pwr.thermal 0 p
  let phases := s.fld (F.PWR_SITE_STS_phases p)
  let phase := if phases < 8 then Config.phasePoint p phases else 15
  let crev := ((entriesOfSite p).filter s.crevDerated).map (fun e => Config.crevPoint e p)
  let half := if (entriesOfSite p).any s.crevLimits then Config.halfPoint p else 15
  let cap := crev.foldl Nat.min (Nat.min s.commonPoint (Nat.min half (Nat.min thermal phase)))
  if (s.points p).isEmpty then some 0 else ((s.points p).filter (fun k => decide (k ≤ cap))).getLast?

/-- The rack cap: the accepted one, or the fallback once its lease has expired. -/
def State.rackCap (s : State) : Nat :=
  if s.pwr.lapsed then s.fld F.PWR_CAP_CFG_fallback_watts else Nat.min (s.fld F.PWR_CAP_CTL_cap_watts) 30000

/-- The coolant limit (R360): `flowDeci` is the flow in tenths of a litre per minute. -/
def coolantLimit (flowDeci : Nat) (inlet : Int) : Nat :=
  let flow := flowDeci * 1000 / 15
  if inlet ≤ 45 * 64 then flow else Nat.min flow (30000 - 3000 * ((if inlet ≤ 50 * 64 then inlet else 50 * 64) - 45 * 64).toNat / 64)

/-- The effective cap (R345), with the limit that a cracked input contact group puts on its half (R355). -/
def State.effCap (s : State) (flowDeci : Nat) : Nat :=
  let volts := s.fld F.PWR_IN_STS_volts * 652 / 1000000
  let half := if (List.range 8).any s.crevLimits then 15000 else 30000
  Nat.min s.rackCap (Nat.min 30000 (Nat.min volts (Nat.min half (coolantLimit flowDeci s.inlet))))

/-- The next common point: with the clamp engaged the highest that fits, else toward it by at most step_w or rise_w; it stays where no point lies
that near (R346). `watts` predicts the input power of a point without stretch. -/
def nextPoint (watts : Nat → Nat) (eff cur step rise : Nat) (clamped : Bool) : Nat :=
  let fit := ((List.range 16).filter (fun k => decide (watts k ≤ eff))).getLast?.getD 0
  if clamped ∨ fit = cur then fit
  else if fit < cur then
    ((List.range cur).find? (fun k => decide (fit ≤ k ∧ watts cur ≤ watts k + step))).getD cur
  else
    ((List.range (fit + 1)).filter (fun k => decide (cur < k ∧ watts k ≤ watts cur + rise))).getLast?.getD cur

/-! ## The Snowplough clamp (R349, R350, spec/17 R385) -/

/-- The largest stretch in 64ths whose predicted power is at most a bound, at least 1. -/
def stretchFor (watts : Nat → Nat) (bound : Nat) : Nat :=
  ((List.range 65).filter (fun k => decide (1 ≤ k ∧ watts k ≤ bound))).getLast?.getD 1

/-- A trigger engages the clamp: 1 and 2 a cap write, 3 the brake, 4 undervoltage, 5 the watchdog of the loop (spec/17 R385). While
the loop does not run, the stretch is 32/64. -/
def engage (t : Nat) (s : State) : State :=
  let s1 := { s with pwr := { s.pwr with trig := if s.pwr.trig.contains t then s.pwr.trig else t :: s.pwr.trig } }
  let s2 := s1.setFld F.PWR_CLAMP_STS_trigger t
  if s2.flag F.PWR_STS_clamp then s2
  else
    let k := if s2.lodgeRuns then stretchFor (Config.watts s2.free s2.commonPoint) (s2.fld F.PWR_CLAMP_CFG_floor_watts) else 32
    (((s2.setFlag F.PWR_STS_clamp true).setFld F.PWR_CLAMP_STS_stretch k).raiseDev EV.CAP_CLAMP (leBytes 1 t)).bump F.PWR_CLAMP_CNT

/-- Triggers end. -/
def untrig (ts : List Nat) (s : State) : State := { s with pwr := { s.pwr with trig := s.pwr.trig.filter (fun t => !ts.contains t) } }

/-- A write of PWR_CAP_CTL. -/
def capWrite (v : W64) (s : State) : State :=
  let seq := fieldOf v 32 32
  if seq ≤ s.fld F.PWR_CAP_STS_seq then (s.setFld F.PWR_CAP_STS_code E.CAP_SEQ).bump F.PWR_CAP_STALE_CNT
  else
    let s1 := ((s.setFld F.PWR_CAP_CTL_seq seq).setFld F.PWR_CAP_CTL_urgent (fieldOf v 16 1)).setFld F.PWR_CAP_CTL_cap_watts (fieldOf v 0 16)
    let s2 := s1.setFld F.PWR_CAP_STS_seq seq
    let s3 := { s2 with pwr := { s2.pwr with lapsed := false } }
    let cap := Nat.min (fieldOf v 0 16) 30000
    let mw := s3.fld F.PWR_IN_STS_watts
    if s3.pwr.off then s3
    else if v.getLsbD 16 ∧ cap * 1000 < mw then engage 1 s3
    else if cap * 1000 + 10000 * s3.fld F.PWR_CAP_CFG_step_w < mw then engage 2 s3
    else s3

/-- CAP_WRITE. -/
def execCapWrite (value : W64) (s : State) : Host.Outcome State Fault Refusal := go (capWrite value s)

/-- CAP_LEASE_EXPIRY. -/
def capLease (s : State) : State :=
  if s.fld F.PWR_CAP_CFG_lease_ms = 0 ∨ s.pwr.lapsed then s
  else ({ s with pwr := { s.pwr with lapsed := true } }).raiseDev EV.CAP_LEASE []

/-- CAP_LEASE_EXPIRY. -/
def execCapLeaseExpiry (s : State) : Host.Outcome State Fault Refusal := go (capLease s)

/-- PWR_BRAKE_ASSERT: without effect while no site runs (spec/20 R450). -/
def brakeOn (s : State) : State :=
  let s1 := { s with pwr := { s.pwr with brake := true } }
  if s1.pwr.off then s1 else engage 3 s1

/-- PWR_BRAKE_ASSERT. -/
def execPwrBrakeAssert (s : State) : Host.Outcome State Fault Refusal := go (brakeOn s)

/-- PWR_BRAKE_DEASSERT. -/
def execPwrBrakeDeassert (s : State) : Host.Outcome State Fault Refusal := go (untrig [3] { s with pwr := { s.pwr with brake := false } })

/-- INPUT_UNDERVOLTAGE. -/
def inputLow (s : State) : State :=
  let s1 := { s with pwr := { s.pwr with low := true } }
  if s1.pwr.off then s1 else engage 4 s1

/-- INPUT_UNDERVOLTAGE. -/
def execInputUndervoltage (s : State) : Host.Outcome State Fault Refusal := go (inputLow s)

/-! ## HOLD (R351-R354) -/

/-- The module enters HOLD: every site's clock stops; a site that is not idle has work waiting (spec/16 R369). -/
def enterHold (cause : Nat) (s : State) : State :=
  if s.flag F.PWR_STS_hold then { s with pwr := { s.pwr with causes := if s.pwr.causes.contains cause then s.pwr.causes else cause :: s.pwr.causes } }
  else
    let runs := (List.range 1024).filter (fun p => decide (s.sitePower p = 3))
    let s1 := { s with
      kickWait := (s.kickWait ++ runs.filter (fun p => !s.siteIdle p)).dedup
      pwr := { s.pwr with causes := [cause], since := s.now, clear := 0, unmet := 0 } }
    let s2 := runs.foldl (fun st p => st.setFld (F.PWR_SITE_STS_state p) 2) s1
    (s2.setFlag F.PWR_STS_hold true).raiseDev EV.HOLD_ENTER (leBytes 1 cause)

/-- The module leaves HOLD: sites whose work waits are Kicked, what came for contexts in HOLD reaches them, and every unit goes on. -/
def exitHold (s : State) : State :=
  let waits := s.kickWait.mergeSort
  let s1 := ({ s with kickWait := [], pwr := { s.pwr with causes := [], clear := 0, unmet := 0 } }).setFlag F.PWR_STS_hold false
  let s2 := waits.foldl (fun st p => st.kickSite p) (s1.setFlag F.PWR_STS_cap_unmet false)
  let s3 := if s2.stopAll then runLater s2 else resumeAll (runLater s2)
  s3.raiseDev EV.HOLD_EXIT (leBytes 8 (s3.now - s3.pwr.since).toNat)

/-- Whether a cause of HOLD arises, and whether it has cleared: 0 the cap, 1 the coolant, 2 a leak. -/
def causeOn (s : State) (eff : Nat) (c : Nat) : Bool :=
  match c with
  | 0 => decide (eff < s.fld F.PWR_MIN_OP)
  | 1 => decide (50 * 64 < s.inlet)
  | _ => s.pwr.leak
def causeGone (s : State) (eff : Nat) (c : Nat) : Bool :=
  match c with
  | 0 => decide (s.fld F.PWR_MIN_OP + s.fld F.PWR_HOLD_CFG_hyst_w ≤ eff)
  | _ => !causeOn s eff c

/-- The cap is below what HOLD needs: reported once in 1,000 iterations. -/
def capUnmet (eff : Nat) (s : State) : State :=
  if eff < s.fld F.PWR_HOLD_W then
    let s1 := ({ s with pwr := { s.pwr with unmet := s.pwr.unmet + 1 } }).setFlag F.PWR_STS_cap_unmet true
    if s.pwr.unmet % 1000 = 0 then s1.raiseDev EV.CAP_UNMET (leBytes 4 eff) else s1
  else ({ s with pwr := { s.pwr with unmet := 0 } }).setFlag F.PWR_STS_cap_unmet false

/-- HOLD in an iteration of the loop. -/
def holdStep (eff : Nat) (s : State) : State :=
  let on := [0, 1, 2].filter (causeOn s eff)
  if s.flag F.PWR_STS_hold then
    let causes := (s.pwr.causes ++ on).dedup
    let s1 := { s with pwr := { s.pwr with causes := causes, clear := if causes.all (causeGone s eff) then s.pwr.clear + 1 else 0 } }
    let s2 := capUnmet eff s1
    if 10 ≤ s2.pwr.clear then exitHold s2 else s2
  else
    match on with
    | c :: _ => enterHold c s
    | [] => s

/-! ## The 1 ms loop (R346, R350, R358, R360) -/

/-- Thermal caps follow the site temperatures of the frame. -/
def thermalCaps (s : State) : State :=
  let target : Int := s.fld F.PWR_THERM_CFG_target
  let caps := (List.range 1024).foldl (fun m p =>
    let t := s.frameTemp p
    let k := Sparse.get m 0 p
    if target * 64 < t then Sparse.put m p (Nat.min 15 (k + 1))
    else if t ≤ (target - 3) * 64 then (if k ≤ 1 then Sparse.drop m p else Sparse.put m p (k - 1)) else m) s.pwr.thermal
  { s with pwr := { s.pwr with thermal := caps } }

/-- The alarms of the coolant, raised when they begin. -/
def coolantAlarms (flowDeci : Nat) (s : State) : State :=
  let t2 := fun (x : Int) => leBytes 2 (BitVec.ofInt 16 x).toNat
  let flow := decide (15 * 64 < s.outlet - s.inlet)
  let range := decide (s.inlet < 18 * 64)
  let s1 := if flow && !s.pwr.alarms.contains 0 then
    s.raiseDev EV.COOLANT_FLOW (leBytes 2 flowDeci ++ t2 s.inlet ++ t2 s.outlet) else s
  let s2 := if range && !s.pwr.alarms.contains 1 then s1.raiseDev EV.COOLANT_RANGE (t2 s1.inlet) else s1
  { s2 with pwr := { s2.pwr with alarms := (if flow then [0] else []) ++ (if range then [1] else []) } }

/-- The clamp after an iteration: `eff` the effective cap, `g` the generation of the predictions. -/
def clampStep (g eff : Nat) (s : State) : State :=
  if !s.flag F.PWR_STS_clamp then s
  else
    let watts := Config.watts g s.commonPoint
    let cut := s.pwr.trig.any (fun t => t = 1 || t = 2)
    let met := decide (watts 64 ≤ eff)
    let s1 := untrig ([5] ++ if met then [1, 2] else []) s
    if !s1.pwr.trig.isEmpty then s1.setFld F.PWR_CLAMP_STS_stretch (stretchFor watts (s1.fld F.PWR_CLAMP_CFG_floor_watts))
    else if (cut && met) || decide (eff * 1000 < s1.fld F.PWR_IN_STS_watts) then s1
    else
      let cur := s1.fld F.PWR_CLAMP_STS_stretch
      let k := Nat.max cur (stretchFor watts (watts cur + s1.fld F.PWR_CAP_CFG_rise_w))
      let s2 := s1.setFld F.PWR_CLAMP_STS_stretch k
      if k = 64 then s2.setFlag F.PWR_STS_clamp false else s2

/-- Whether the loop runs: the Lodge firmware does, the converters are on, and it has a frame. -/
def State.loopRuns (s : State) : Bool := s.lodgeRuns && !s.pwr.off && !s.pwr.frames.isEmpty

/-- POWER_LOOP_ITERATION: the effective cap, thermal caps, new tables, the common cap, the clamp and HOLD. -/
def powerLoop (flowDeci : Nat) (s : State) : State :=
  if !s.loopRuns then s
  else
    let g := s.free
    let eff := s.effCap flowDeci
    let s1 := thermalCaps (coolantAlarms flowDeci s)
    let s2 := (s1.setReg F.PWR_MIN_OP.addr ((Config.minOp g).setWidth 64)).setReg F.PWR_HOLD_W.addr ((Config.holdWatts g).setWidth 64)
    let k := nextPoint (fun k => Config.watts g k 64) eff s2.commonPoint (s2.fld F.PWR_CAP_CFG_step_w) (s2.fld F.PWR_CAP_CFG_rise_w)
      (s2.flag F.PWR_STS_clamp)
    let s3 := { (s2.setFld F.PWR_STS_eff_cap_watts eff).setFld F.PWR_STS_common_mhz (mhzOf k) with wear := { s2.wear with force := [] } }
    (holdStep eff (clampStep g eff s3)).tick

/-- POWER_LOOP_ITERATION. -/
def execPowerLoopIteration (flowDeci : Nat) (s : State) : Host.Outcome State Fault Refusal := go (powerLoop flowDeci s)

/-! ## Converters and input (R357, R358, R362, spec/20 R446) -/

/-- Every field converter is off: every site is, and none leaves OFF. -/
def convertersOff (s : State) : State :=
  let s1 := (List.range 1024).foldl (fun st p => if st.sitePower p = 0 then st else siteOff p st) s
  { s1 with pwr := { s1.pwr with off := true }, trans := [] }

/-- Every rim converter is off: links are DISABLED, stacks untrained, edge memory undefined. -/
def rimOff (s : State) : State :=
  let s1 := (List.range 32).foldl (fun st k => linkOff k st) s
  let s2 := (List.range 16).foldl (fun st m => st.setFld (F.RIM_STACK_STS_state m) 0) s1
  s2.undefAt 0 s2.edgeSize

/-- INPUT_FAIL: every converter shuts down; the Lodge runs on hold-up. -/
def inputFail (s : State) : State :=
  if s.pwr.failed then s
  else
    let s1 := s.raiseDev EV.INPUT_FAIL []
    let s2 := if s1.pwr.off then s1 else rimOff (convertersOff s1)
    { s2 with pwr := { s2.pwr with failed := true, dry := s2.pwr.dry || decide (3 ≤ s2.fld F.DEV_BOOT_STS_stage) } }

/-- INPUT_FAIL. -/
def execInputFail (s : State) : Host.Outcome State Fault Refusal := go (inputFail s)

/-- INPUT_RETURN: above 44.0 V trigger 4 ends; above 46 V hold-up ends, and the converters stay off. -/
def inputReturn (milliVolts : Nat) (s : State) : State :=
  let s1 := if 44000 < milliVolts then untrig [4] { s with pwr := { s.pwr with low := false } } else s
  if 46000 < milliVolts then { s1 with pwr := { s1.pwr with failed := false } } else s1

/-- INPUT_RETURN. -/
def execInputReturn (milliVolts : Nat) (s : State) : Host.Outcome State Fault Refusal := go (inputReturn milliVolts s)

/-! ## Faults of the power chain (R356, R357) -/

/-- Sites that a fault has taken dark are RETIRED (spec/02 R28), those that are good. EV_SPARE_LOW follows R26 where a SPARE site is among
them. -/
def retireSites (ps : List Nat) (s : State) : State :=
  let s1 := countSpares (ps.foldl (fun st p => if st.siteState p ≤ siSpare then st.setSite p siRetired 0 else st) s)
  if ps.any (fun p => decide (s.siteState p = siSpare)) then spareLow s1 else s1

/-- A site is taken dark: kind 0 its regulator's controller, 1 a short. -/
def siteDark (p kind : Nat) (s : State) : State :=
  let s1 := (siteOff p s).raise EV.SITE_SHORT 1 p (leBytes 2 p ++ leBytes 1 kind)
  retireSites [p] (failSites [p] s1)

/-- REGULATOR_CONTROLLER_FAULT. -/
def execRegulatorControllerFault (site : BitVec 10) (s : State) : Host.Outcome State Fault Refusal := go (siteDark site.toNat 0 s)

/-- SITE_SHORT. -/
def execSiteShort (site : BitVec 10) (s : State) : Host.Outcome State Fault Refusal := go (siteDark site.toNat 1 s)

/-- PHASE_LOSS: one or two lost phases derate the site, a third is a controller fault. -/
def phaseLoss (p : Nat) (s : State) : State :=
  let k := s.fld (F.PWR_SITE_STS_phases p)
  if k ≤ 6 then siteDark p 0 s
  else
    ((s.setFld (F.PWR_SITE_STS_phases p) (k - 1)).setFlag (F.PWR_SITE_STS_derated p) true).raise EV.PHASE_LOST 1 p
      (leBytes 2 p ++ leBytes 1 (k - 1))

/-- PHASE_LOSS. -/
def execPhaseLoss (site : BitVec 10) (s : State) : Host.Outcome State Fault Refusal := go (phaseLoss site.toNat s)

/-- The sites of a field, and of a half. -/
def sitesOfField (f : Nat) : List Nat := (List.range 16).map (fun j => 16 * f + j)
def sitesOfHalf (h : Nat) : List Nat := (List.range 1024).filter (fun p => halfOfField (fieldOfSite p) = h)

/-- A field goes dark: its 16 sites are OFF, and their cores form one batch (spec/02 R29). -/
def fieldDark (f : Nat) (s : State) : State :=
  let ps := sitesOfField f
  let s1 := (ps.foldl (fun st p => siteOff p st) s).raise EV.FIELD_SHORT 3 f (leBytes 1 f)
  retireSites ps (failSites ps s1)

/-- VFIELD_SHORT. -/
def execVfieldShort (field : BitVec 6) (s : State) : Host.Outcome State Fault Refusal := go (fieldDark field.toNat s)

/-- The stacks and links of a rim segment: N, E, S, W (spec/01). -/
def stacksOf (seg : Nat) : List Nat :=
  (List.range 4).map (fun j => 4 * seg + j)
def linksOf (seg : Nat) : List Nat := (List.range 8).map (fun j => 8 * seg + j)

/-- RIM_CONVERTER_FAULT: the segment's stacks and links go down; edge memory is lost and the engine degraded (spec/02 R30). -/
def rimFault (seg : Nat) (s : State) : State :=
  let s1 := (linksOf seg).foldl (fun st k => linkOff k st) s
  let s2 := (stacksOf seg).foldl (fun st m => st.setFld (F.RIM_STACK_STS_state m) 2) s1
  let s3 := s2.undefAt 0 s2.edgeSize
  degrade { s3 with pwr := { s3.pwr with segs := if s3.pwr.segs.contains seg then s3.pwr.segs else seg :: s3.pwr.segs } }

/-- RIM_CONVERTER_FAULT. -/
def execRimConverterFault (segment : BitVec 2) (s : State) : Host.Outcome State Fault Refusal := go (rimFault segment.toNat s)

/-- The stacks of a half (spec/01). -/
def stackHalf (m : Nat) : Nat := bit (decide (2 ≤ m ∧ m < 10))

/-- ALWAYS_ON_CONVERTER_FAULT: the half is lost, with its sites, stacks, links, routers and the packets in them; it stays so at the next start (spec/02 R21). -/
def halfFault (h : Nat) (s : State) : State :=
  let s1 := (sitesOfHalf h).foldl (fun st p => if st.sitePower p = 0 then st else siteOff p st) s
  let s2 := ((List.range 32).filter (fun k => linkHalf k = h)).foldl (fun st k => linkOff k st) s1
  let s3 := ((List.range 16).filter (fun m => stackHalf m = h)).foldl (fun st m => st.setFld (F.RIM_STACK_STS_state m) 2) s2
  let s4 := s3.undefAt 0 s3.edgeSize
  let here := fun (b : Nat × List FabPkt) => decide (bit (decide (16 ≤ b.1 / 64 % 32)) = h)
  degrade { s4 with
    pwr := { s4.pwr with half := some h }
    fab := { s4.fab with bufs := s4.fab.bufs.filter (fun b => !here b), waits := s4.fab.waits.filter (fun b => !here b) } }

/-- ALWAYS_ON_CONVERTER_FAULT. -/
def execAlwaysOnConverterFault (half : BitVec 1) (s : State) : Host.Outcome State Fault Refusal := go (halfFault half.toNat s)

/-! ## The Crevasse detector (R355) -/

/-- The rating of a power entry in mA (spec/20 R444; log 82). -/
def ratingOf (e : Nat) : Nat := if e < 8 then 100000 else Config.entryRating e

/-- The sites that a power entry feeds. -/
def sitesFed (e : Nat) : List Nat := if e < 8 then sitesOfHalf (e / 4) else sitesOfField ((e - 8) % 64)

/-- The measured drop and the predicted one, on a common scale: q is their quotient. -/
def crevDrop (m : CrevIn) : Int := (m.microVolts : Int) * 1000000 * 640000
def crevPredicted (c : Crev) (m : CrevIn) : Int := (c.zb : Int) * m.milliAmps * (640000 + 39 * (m.temp - c.tb))

/-- One window of a power entry. -/
def crevWindow (e : Nat) (m : CrevIn) (s : State) : State :=
  match Sparse.find s.pwr.crev e with
  | none => s
  | some c =>
    if 5 * m.milliAmps < ratingOf e then s
    else
      let d := crevDrop m
      let p := crevPredicted c m
      let n13 := if 130 * p ≤ 100 * d then c.n13 + 1 else 0
      let n20 := if 2 * p ≤ d then c.n20 + 1 else 0
      let put := fun (x : Crev) (st : State) => { st with pwr := { st.pwr with crev := Sparse.put st.pwr.crev e x } }
      let c1 : Crev := { c with n13 := n13, n20 := n20 }
      let s1 := if 100 ≤ n13 ∧ !c.derated then
          let q := (100 * d / p).toNat
          let t := ((sitesFed e).foldl (fun st x => st.setFlag (F.PWR_SITE_STS_derated x) true) (put { c1 with derated := true } s)).setFlag
            F.PWR_SERVICE_STS_crevasse true
          t.raise EV.CREVASSE 7 e (leBytes 1 e ++ leBytes 2 q)
        else put c1 s
      if n20 = 10 then
        if e < 8 then
          (sitesFed e).foldl (fun st x => st.setFlag (F.PWR_SITE_STS_derated x) true) (put { (Sparse.get s1.pwr.crev c1 e) with limits := true } s1)
        else fieldDark ((e - 8) % 64) s1
      else s1

/-- CREVASSE_WINDOW. -/
def execCrevasseWindow (entry : BitVec 8) (meas : CrevIn) (s : State) : Host.Outcome State Fault Refusal := go (crevWindow entry.toNat meas s)

/-- The calibration record is written (spec/17 Table 17-7). -/
def calRecord (s : State) : State :=
  recordPut 6 (Config.calPayload (s.pwr.crev.map (fun q => (q.1, q.2.zb, q.2.tb))) s.wear.slopes) s

/-- New baselines for the 136 entries, kept in the calibration record; every derate of an entry ends. -/
def crevBaseline (base : List (Nat × Nat)) (s : State) : State :=
  let crev := (List.range 136).map (fun e => (e, ({ zb := (base.getD e (0, 0)).1, tb := (base.getD e (0, 0)).2 } : Crev)))
  calRecord ((List.range 1024).foldl (fun st p => st.setFlag (F.PWR_SITE_STS_derated p) (decide (st.fld (F.PWR_SITE_STS_phases p) < 8)))
    { s with pwr := { s.pwr with crev := crev }, lodge := { s.lodge with noCal := false } })

/-- A write of 1 to PWR_CREV_CTL.recal, while no job is loaded. -/
def crevRecal (v : W64) (base : List (Nat × Nat)) (s : State) : State := if v.getLsbD 0 && !s.jobLoaded then crevBaseline base s else s

/-- PWR_CREV_RECAL. -/
def execPwrCrevRecal (value : W64) (base : List (Nat × Nat)) (s : State) : Host.Outcome State Fault Refusal := go (crevRecal value base s)

/-! ## Temperature (R358) -/

/-- A site at 105 degrees twice trips the module: converters off, goodbye records, rim off. -/
def thermalTrip (p : Nat) (s : State) : State :=
  if s.pwr.tripped then s
  else
    let s1 := rimOff (sayGoodbye 3 (convertersOff s))
    ({ s1 with pwr := { s1.pwr with tripped := true, temps := [] } }).raise EV.THERMAL_TRIP 1 p (leBytes 2 p)

/-- One sample of a site. -/
def thermalSite (p : Nat) (t : Int) (s0 : State) : State :=
  let s := { s0 with pwr := { s0.pwr with temps := Sparse.put s0.pwr.temps p t } }
  let hot := s.pwr.hot.contains p
  let s1 := if 100 * 64 ≤ t ∧ !hot then
      ({ s with pwr := { s.pwr with hot := p :: s.pwr.hot } }).raise EV.THERMAL_LIMIT 1 p (leBytes 2 p)
    else if t < 97 * 64 ∧ hot then { s with pwr := { s.pwr with hot := s.pwr.hot.filter (· ≠ p) } }
    else s
  if t < 105 * 64 then { s1 with pwr := { s1.pwr with hot105 := s1.pwr.hot105.filter (· ≠ p) } }
  else if s1.pwr.hot105.contains p then thermalTrip p s1
  else { s1 with pwr := { s1.pwr with hot105 := p :: s1.pwr.hot105 } }

/-- THERMAL_SAMPLE: the 16 sites of a field. -/
def thermalSample (f : Nat) (temps : List (BitVec 16)) (s : State) : State :=
  (List.range 16).foldl (fun st j => match temps[j]? with | some t => thermalSite (16 * f + j) t.toInt st | none => st) s

/-- THERMAL_SAMPLE. -/
def execThermalSample (field : BitVec 6) (temps : List (BitVec 16)) (s : State) : Host.Outcome State Fault Refusal :=
  go (thermalSample field.toNat temps s)

/-- The stretch of a site's clock in 64ths: the lower of the Snowplough stretch and the site clamp (R358, R362). -/
def State.siteStretch (s : State) (p : Nat) : Nat :=
  let a := if s.flag F.PWR_STS_clamp then s.fld F.PWR_CLAMP_STS_stretch else 64
  if s.pwr.hot.contains p then Nat.min 32 a else a

/-- A write of PWR_SERVICE_STS (spec/19 R439): each bit written 1 is cleared while no job is loaded. -/
def serviceClear (v : W64) (s : State) : State :=
  if s.jobLoaded then s
  else
    let s1 := if v.getLsbD 0 then s.setFlag F.PWR_SERVICE_STS_crevasse false else s
    if v.getLsbD 1 then s1.setFlag F.PWR_SERVICE_STS_leak false else s1

/-- PWR_SERVICE_CLEAR. -/
def execPwrServiceClear (value : W64) (s : State) : Host.Outcome State Fault Refusal := go (serviceClear value s)

end Sys2Proof.Machine
end

