-- ==== Sys2Proof/Machine/Time.lean ====
section
/-! DEFINITION. Field references, device time and wear (spec/16). -/

namespace Sys2Proof.Machine

/-! ## Field references (R371) -/

/-- The neighbouring fields of a field in its half: those one field away (log 151). -/
def neighbours (f : Nat) : List Nat := (List.range 64).filter (fun m => decide (halfOfField m = halfOfField f ∧ fieldDist m f = 1))

/-- A field takes the slow clock of a neighbour, which the command names; it keeps a borrowed one until the next start. With no usable neighbour its
sites' heartbeats stop, and they fail by the samples that they miss (spec/02 R27). -/
def refFail (f : Nat) (neighbour : Option Nat) (s : State) : State :=
  match neighbour with
  | some m =>
    if s.flag (F.CLK_FIELD_STS_borrowed f) || !(neighbours f).contains m then s
    else
      let s1 := { s with wear := { s.wear with noRef := s.wear.noRef.filter (· ≠ f) } }
      ((s1.setFlag (F.CLK_FIELD_STS_borrowed f) true).setFld (F.CLK_FIELD_STS_neighbour f) m).raise EV.CLK_REF_FAIL 3 f
        (leBytes 1 f ++ leBytes 1 m)
  | none => if s.wear.noRef.contains f then s else { s with wear := { s.wear with noRef := f :: s.wear.noRef } }

/-- FIELD_REF_DEVIATION. -/
def execFieldRefDeviation (field : BitVec 6) (neighbour : Option (BitVec 6)) (s : State) : Host.Outcome State Fault Refusal :=
  go (refFail field.toNat (neighbour.map (·.toNat)) s)

/-! ## Device time (R372-R375) -/

/-- DEV_TIME moved forward by `n` nanoseconds; it never goes backward. -/
def State.addTime (s : State) (n : Nat) : State := s.setReg F.DEV_TIME.addr (BitVec.ofNat 64 (s.now.toNat + n))

/-- The part of a correction that is slewed in a time: at most 200 parts per million of it. -/
def slewOf (slew : Int) (elapsed : Nat) : Int :=
  let m : Int := elapsed * 200 / 1000000
  if slew < -m then -m else if m < slew then m else slew

/-- The copies of the fields are corrected from DEV_TIME. -/
def copyTime (s : State) : State := { s with wear := { s.wear with copies := (List.range 64).map (fun f => (f, s.now)) } }

/-- DEV_TIME_CORRECTION: `elapsed` nanoseconds have passed since the last one. DEV_TIME moves on, and each field's copy is corrected from it; between
two corrections a copy does not follow a step of DEV_TIME. -/
def timeCorrection (elapsed : Nat) (s : State) : State :=
  let d := slewOf s.wear.slew elapsed
  copyTime (({ s with wear := { s.wear with slew := s.wear.slew - d } }).addTime (elapsed + d).toNat)

/-- DEV_TIME_CORRECTION. -/
def execDevTimeCorrection (elapsed : Nat) (s : State) : Host.Outcome State Fault Refusal := go (timeCorrection elapsed s)

/-- The states of Table 16-4. -/
abbrev ptpFree : Nat := 0
abbrev ptpAcquiring : Nat := 1
abbrev ptpLocked : Nat := 2
abbrev ptpHoldover : Nat := 3

/-- The time state and its error bound in nanoseconds. -/
def State.setPtp (s : State) (st err : Nat) : State := (s.setFld F.CLK_PTP_STS_state st).setFld F.CLK_PTP_STS_err_ns (Nat.min err 0xFFFFFFFF)

/-- PTP_MESSAGE: a valid sync of the configured domain and transport disciplines DEV_TIME. -/
def ptpSync (m : PtpMsg) (s : State) : State :=
  if !(s.lodgeRuns && m.valid && decide (m.domain.toNat = s.fld F.CLK_PTP_CFG_domain) && decide (m.transport.toNat = s.fld F.CLK_PTP_CFG_transport))
  then s
  else
    let near := decide (m.offset.natAbs ≤ 1000)
    let good := if near then Nat.min 16 (s.wear.good + 1) else 0
    let s1 := { s with wear := { s.wear with good := good } }
    let s2 := if !s1.jobLoaded && decide (100000 < m.offset) then ({ s1 with wear := { s1.wear with slew := 0 } }).addTime m.offset.toNat
      else { s1 with wear := { s1.wear with slew := m.offset } }
    let locked := decide (s2.fld F.CLK_PTP_STS_state = ptpLocked)
    if near ∧ (locked ∨ 16 ≤ good) then
      let s3 := { s2 with wear := { s2.wear with lock := true } }.setPtp ptpLocked 1000
      if locked then s3 else s3.raiseDev EV.TIME_LOCK []
    else s2.setPtp ptpAcquiring m.offset.natAbs

/-- PTP_MESSAGE. -/
def execPtpMessage (msg : PtpMsg) (s : State) : Host.Outcome State Fault Refusal := go (ptpSync msg s)

/-- The bound in HOLDOVER, `secs` seconds after lock was lost. -/
def holdoverBound (secs : Nat) : Nat := 1000 + 100 * secs

/-- PTP_SYNC_LOSS, `secs` seconds after lock was lost: HOLDOVER after a lock, also where the time was being acquired again; FREE where there has
been no lock since the cold start, or none since the bound of a HOLDOVER was exceeded (Table 16-4). -/
def syncLoss (secs : Nat) (s : State) : State :=
  let s1 := { s with wear := { s.wear with good := 0 } }
  let hold := s1.setPtp ptpHoldover (holdoverBound secs)
  match s.fld F.CLK_PTP_STS_state with
  | 0 => s
  | 1 => if s.wear.lock then hold.raiseDev EV.TIME_HOLDOVER [] else s1.setPtp ptpFree 0xFFFFFFFF
  | 2 => hold.raiseDev EV.TIME_HOLDOVER []
  | _ => hold

/-- PTP_SYNC_LOSS. -/
def execPtpSyncLoss (secs : Nat) (s : State) : Host.Outcome State Fault Refusal := go (syncLoss secs s)

/-- PTP_HOLDOVER_EXCEEDED. -/
def holdoverEnd (secs : Nat) (s : State) : State :=
  if s.fld F.CLK_PTP_STS_state = ptpHoldover ∧ s.fld F.CLK_PTP_CFG_holdover_ns < holdoverBound secs then
    ({ s with wear := { s.wear with lock := false } }.setPtp ptpFree 0xFFFFFFFF).raiseDev EV.TIME_UNSYNC (leBytes 4 (holdoverBound secs))
  else s

/-- PTP_HOLDOVER_EXCEEDED. -/
def execPtpHoldoverExceeded (secs : Nat) (s : State) : Host.Outcome State Fault Refusal := go (holdoverEnd secs s)

/-- A write of DEV_TIME_SET: ignored while a job is loaded; a step forward; a backward one is slewed. -/
def timeSet (v : W64) (s : State) : State :=
  if s.jobLoaded then s.setFld F.CLK_PTP_STS_code E.TIME_STEP
  else if s.now ≤ v then ({ s with wear := { s.wear with slew := 0 } }).setReg F.DEV_TIME.addr v
  else { s with wear := { s.wear with slew := (v.toNat : Int) - s.now.toNat } }

/-- DEV_TIME_SET_WRITE. -/
def execDevTimeSetWrite (value : W64) (s : State) : Host.Outcome State Fault Refusal := go (timeSet value s)

/-! ## Wear (R377-R381) -/

/-- Point `k` of a site: whether it is valid, its set points. -/
def State.vfValid (s : State) (p k : Nat) : Bool := s.flag (F.CLK_SITE_VF_valid (16 * p + k))
def State.vcore (s : State) (p k : Nat) : Nat := s.fld (F.CLK_SITE_VF_vcore_mv (16 * p + k))
def State.vsram (s : State) (p k : Nat) : Nat := s.fld (F.CLK_SITE_VF_vsram_mv (16 * p + k))

/-- The highest valid point of a site. -/
def State.topPoint (s : State) (p : Nat) : Option Nat := ((List.range 16).filter (s.vfValid p)).getLast?

/-- The VCORE at which a site runs at a point: that of its table, but 0.90 V where no point is valid (R379). -/
def State.runVcore (s : State) (p k : Nat) : Nat := if (s.topPoint p).isSome then s.vcore p k else 900

/-- A wear log record (Table 16-5). -/
def wearRec (s : State) (p kind : Nat) : List Byte :=
  let top := s.topPoint p
  let k := top.getD 0
  let m := Sparse.get s.wear.last (0, 0, 0) p
  leBytes 8 s.now.toNat ++ leBytes 2 p ++ leBytes 1 kind ++ leBytes 1 (top.getD 0xFF) ++ leBytes 2 (s.runVcore p k) ++ leBytes 2 (s.vsram p k) ++
    leBytes 2 m.1 ++ leBytes 2 m.2.1 ++ leBytes 2 m.2.2 ++ List.replicate 42 0

/-- Append a record; the log holds 65,536. -/
def wearLog (p kind : Nat) (s : State) : State :=
  let s1 := { s with wear := { s.wear with log := (wearRec s p kind :: s.wear.log).take 65536 } }
  s1.setFld F.CLK_WEAR_LOG_HEAD ((s.fld F.CLK_WEAR_LOG_HEAD + 1) % 65536)

/-- A site left with no valid point goes on at point 0 with VCORE 0.90 V, and reports it (R379); its table keeps what the plans have set. -/
def siteEnd (p : Nat) (s : State) : State :=
  if (s.topPoint p).isSome then s else s.raise EV.WEAR_SITE_END 1 p (leBytes 2 p)

/-- A wear event: kind 1 by a replica, 2 by Vmin. -/
def wearEvent (p kind value : Nat) (s : State) : State := wearLog p kind (s.raise EV.WEAR 1 p (leBytes 2 p ++ leBytes 1 kind ++ leBytes 2 value))

/-- WEAR_SLACK_SAMPLE: the hundredth sample in a row below the guard removes the highest valid point. -/
def slackSample (p : Nat) (slack temp : BitVec 16) (s : State) : State :=
  if s.sitePower p ≠ 3 then s
  else
    let m := Sparse.get s.wear.last (0, 0, 0) p
    let s1 := { s with wear := { s.wear with last := Sparse.put s.wear.last p (slack.toNat, m.2.1, temp.toNat) } }
    if slack.toInt < s.fld F.CLK_WEAR_CFG_guard_ps then
      let k := Sparse.get s1.wear.low 0 p + 1
      if k < 100 then { s1 with wear := { s1.wear with low := Sparse.put s1.wear.low p k } }
      else
        let s2 := { s1 with wear := { s1.wear with low := Sparse.drop s1.wear.low p } }
        match s2.topPoint p with
        | some k =>
          let s3 := s2.setFlag (F.CLK_SITE_VF_valid (16 * p + k)) false
          siteEnd p (wearEvent p 1 slack.toNat { s3 with wear := { s3.wear with
            force := s3.wear.force.map (fun q => if q.1 = p then (p, q.2.filter (· ≠ k)) else q) } })
        | none => wearEvent p 1 slack.toNat s2
    else { s1 with wear := { s1.wear with low := Sparse.drop s1.wear.low p } }

/-- WEAR_SLACK_SAMPLE. -/
def execWearSlackSample (site : BitVec 10) (slackPs temp : BitVec 16) (s : State) : Host.Outcome State Fault Refusal :=
  go (slackSample site.toNat slackPs temp s)

/-- VMIN_MEASURE: in IDLE or RET only; more than 10 mV above the Vmin of the last plan is a wear event. -/
def vminMeasure (p : Nat) (vmin temp : Nat) (s : State) : State :=
  if s.sitePower p = 1 ∨ s.sitePower p = 2 then
    let m := Sparse.get s.wear.last (0, 0, 0) p
    let s1 := { s with wear := { s.wear with last := Sparse.put s.wear.last p (m.1, vmin, temp) } }
    match Sparse.find s1.wear.vmin p with
    | some v => if v + 10 < vmin then wearEvent p 2 vmin s1 else s1
    | none => s1
  else s

/-- VMIN_MEASURE. -/
def execVminMeasure (site : BitVec 10) (vminMv temp : BitVec 16) (s : State) : Host.Outcome State Fault Refusal :=
  go (vminMeasure site.toNat vminMv.toNat temp.toNat s)

/-- The slopes of a site (R377). -/
def State.slopes (s : State) (p : Nat) : Nat × Int := (Sparse.find s.wear.slopes p).getD (Config.slope p)

/-- The required VCORE at 95 degrees of the current point, in microvolts (R377): its set point less what the slack is worth, referred to 95 degrees by the
temperature slope (log 85). -/
def needNow (s : State) (p k : Nat) (slack temp : BitVec 16) : Nat :=
  ((1000 * s.runVcore p k : Int) - (s.slopes p).1 * slack.toInt + (s.slopes p).2 * (95 * 64 - temp.toInt) / 64).toNat

/-- The required VCORE of a point in a plan. -/
def planNeed (s : State) (p : Nat) (q : PlanIn) (k : Nat) : Nat :=
  if s.sitePoint p = some k then needNow s p k q.slackPs q.temp else q.need.getD k 0

/-- The guard in microvolts: CLK_WEAR_CFG.guard_ps by the site's slope (log 85). -/
def State.guardUv (s : State) (p : Nat) : Nat := (s.slopes p).1 * s.fld F.CLK_WEAR_CFG_guard_ps

/-- One point of a plan: VCORE in steps of 5 mV with the guard, never below the previous plan; valid up to 0.90 V and 0.85 V. `now` is the state
that the plan starts from. -/
def planPoint (p : Nat) (q : PlanIn) (now s : State) (k : Nat) : State :=
  let v := Nat.max (5 * ceilDiv (planNeed now p q k + now.guardUv p) 5000) (s.vcore p k)
  let m := Nat.max (Nat.max 550 (q.vminMv + 50)) (s.vsram p k)
  ((s.setFld (F.CLK_SITE_VF_vcore_mv (16 * p + k)) (Nat.min v 1023)).setFld (F.CLK_SITE_VF_vsram_mv (16 * p + k)) (Nat.min m 1023)).setFlag
    (F.CLK_SITE_VF_valid (16 * p + k)) (decide (v ≤ 900 ∧ m ≤ 850))

/-- The days in which a line through plans' VCORE values, newest first, exceeds 0.90 V, with `days` between plans: the newest value rises by the
median of the rises from plan to plan (R381; log 85). No rise, or one plan only: never. -/
def lineDays (values : List Nat) (days : Nat) : Nat :=
  let rises := (List.zipWith (fun (a b : Nat) => (a : Int) - b) values (values.drop 1)).mergeSort
  let slope := rises.getD (rises.length / 2) 0
  let v := values.headD 0
  if 900 < v then 0 else if slope ≤ 0 then 0xFFFFFFFF else Nat.min 0xFFFFFFFF ((900 - v) * days / slope.toNat)

/-- The forecasts (R381): days_top until the first site needs more than 0.90 V at its top point; days_spare until the sites with no valid point, those whose
point 0 needs more than 0.90 V, outnumber CORE_MAP_SPARE_CNT. -/
def forecast (s : State) : State :=
  let every := s.fld F.CLK_WEAR_CFG_plan_days
  let top := (s.wear.plans.map (fun q => lineDays (q.2.map (·.1)) every)).foldl Nat.min 0xFFFFFFFF
  let low := (s.wear.plans.map (fun q => if (s.topPoint q.1).isNone then 0 else lineDays (q.2.map (·.2)) every)).mergeSort
  let spare := low.getD (s.fld F.CORE_MAP_SPARE_CNT) 0xFFFFFFFF
  let s1 := (s.setFld F.CLK_WEAR_STS_days_top top).setFld F.CLK_WEAR_STS_days_spare spare
  if top ≤ s1.fld F.CLK_WEAR_CFG_warn_days then s1.raiseDev EV.WEAR_FORECAST (leBytes 4 top ++ leBytes 4 spare) else s1

/-- WEAR_REPLAN: the table is planned anew; it takes effect at the next iteration of the loop, and the points valid until then stay in force. -/
def replan (p : Nat) (q : PlanIn) (s : State) : State :=
  let before := (List.range 16).filter (s.vfValid p)
  let s1 := (List.range 16).foldl (planPoint p q s) s
  let gone := before.any (fun k => !s1.vfValid p k)
  let kind := if (s1.topPoint p).isNone then 4 else if gone then 3 else 0
  let plans := ((s1.vcore p 15, s1.vcore p 0) :: Sparse.get s1.wear.plans [] p).take 12
  let s2 := { s1 with wear := { s1.wear with
    vmin := Sparse.put s1.wear.vmin p q.vminMv, plans := Sparse.put s1.wear.plans p plans
    last := Sparse.put s1.wear.last p (q.slackPs.toNat, q.vminMv, q.temp.toNat)
    force := Sparse.put s1.wear.force p (s.points p) } }
  forecast (wearLog p kind (siteEnd p s2))

/-- WEAR_REPLAN. -/
def execWearReplan (site : BitVec 10) (plan : PlanIn) (s : State) : Host.Outcome State Fault Refusal := go (replan site.toNat plan s)

end Sys2Proof.Machine
end

