-- ==== Sys2Proof/Machine/Lodge.lean ====
section
/-! DEFINITION. The Lodge: restart, boot chain, records, presence, sessions and pushed events (spec/17 R384-R386, R390-R397, R400-R406). -/

namespace Sys2Proof.Machine

/-! ## Records (R394, R395, Tables 17-6, 17-7) -/

/-- The bytes of a copy before its signature (Table 17-6), and its signature by DK with a salt. -/
def recordBody (type : Nat) (c : RecCopy) : List Byte :=
  let b := [0x58#8, 0x4A#8, 0x52#8, 0x43#8] ++ leBytes 1 type ++ [1#8] ++ leBytes 2 0 ++ leBytes 8 c.wcount ++ leBytes 4 c.payload.length
    ++ leBytes 44 0 ++ c.payload
  b ++ List.replicate (roundUp b.length 64 - b.length) 0
def recordSig (type : Nat) (c : RecCopy) (salt : List Byte) : List Byte := pssSign Config.dk.n Config.dk.d (recordBody type c) salt

/-- The payload of a record type that is in use; none when no copy is valid. An erased record has an empty payload. -/
def State.record (s : State) (type : Nat) : Option (List Byte) := (Sparse.find s.lodge.recs type).filter (fun b => !b.isEmpty)

/-- The valid copy of a type: its signature verifies and its write count is the one held (R395). -/
def State.recordCopy (s : State) (type : Nat) : Option RecCopy :=
  (Sparse.get s.lodge.flash [] type).find? (fun c => c.intact && decide (c.wcount = Sparse.get s.lodge.held 0 type))

/-- Why no copy of a type is valid: the newer copy is an old one, or its signature fails, as erased flash does (log 6). -/
def State.recordCode (s : State) (type : Nat) : Nat :=
  match Sparse.get s.lodge.flash [] type with
  | c :: _ => if c.intact then E.REC_REPLAY else E.REC_SIG
  | [] => E.REC_SIG

/-- A record type has no valid copy: its default applies (Table 17-7) and EV_REC_FAIL reports it. Without the
record of the core map the next self-test makes a new one. -/
def recordFails (type : Nat) (s : State) : State :=
  let l := { s.lodge with recs := Sparse.drop s.lodge.recs type }
  let s1 := match type with
    | 3 => { s with lodge := { l with nsvn := l.burned } }
    | 6 => { s with lodge := { l with noCal := true }, pwr := { s.pwr with crev := [] } }
    | 7 => { s with lodge := { l with store := [] } }
    | 8 => { s with lodge := { l with opened := false } }
    | 9 => { s with lodge := { l with noIv := true } }
    | _ => { s with lodge := l }
  s1.raiseDev EV.REC_FAIL (leBytes 1 type ++ leBytes 2 (s.recordCode type))

/-- The valid copy of a type comes into use. -/
def recordUse (type : Nat) (c : RecCopy) (s : State) : State :=
  let l := { s.lodge with recs := Sparse.put s.lodge.recs type c.payload }
  match type with
  | 3 => { s with lodge := { l with nsvn := leNat (c.payload.take 4) } }
  | 6 => { s with lodge := { l with noCal := false } }
  | 8 => { s with lodge := { l with opened := l.opened || !c.payload.isEmpty } }
  | 9 => { s with lodge := { l with noIv := false }, ivRecord := leNat (c.payload.take 8) }
  | _ => { s with lodge := l }

/-- At boot the Lodge uses the valid copy of each type (R395). -/
def recordBoot (s : State) (type : Nat) : State :=
  match s.recordCopy type with
  | some c => recordUse type c s
  | none => recordFails type s

/-- A copy that flash no longer holds as it was written: it is spoilt, or an older one stands in its place. -/
def recordSpoil (s : State) (p : Nat × Nat × Option Nat) : State :=
  let cs := Sparse.get s.lodge.flash [] p.1
  match cs[p.2.1]? with
  | none => s
  | some c =>
    let d : RecCopy := match p.2.2 with | none => { c with intact := false } | some w => { c with wcount := w }
    { s with lodge := { s.lodge with flash := Sparse.put s.lodge.flash p.1 (cs.set p.2.1 d) } }

/-- The owner key (record type 2): 512 B modulus, 4 B exponent. -/
def State.ownerKey (s : State) : Option (Nat × Nat) := (s.record 2).map (fun b => (leNat (b.take 512), leNat ((b.drop 512).take 4)))

/-! ## Keys at rest (R396-R398) -/

/-- A private key or a key-store slot as flash holds it: ciphertext and tag of AES-256-GCM under the PUF key. The IV and the form of the plaintext
are not stated (log 52). -/
def keyWrap (iv key : List Byte) : List Byte × List Byte := gcmSeal Config.puf iv [] key

/-- What is read of a wrapped key: nothing where the PUF key cannot be derived, or the tag fails. -/
def keyUnseal (derived : Bool) (iv ct tag : List Byte) : Option (List Byte) := if derived then gcmOpen Config.puf iv [] ct tag else none

/-- The bytes of a private key, and DK, AK and WK of the identity in force, each wrapped in flash under an IV of its own (R397). -/
def keyText (k : RsaKey) : List Byte := leBytes 512 k.n ++ leBytes 4 k.e ++ leBytes 512 k.d
def State.sealedKeys (s : State) : List (List Byte × List Byte × List Byte) :=
  [(0, Config.dk), (1, Config.ak s.idGen), (2, Config.wk s.idGen)].map (fun p =>
    let iv := (List.range 12).map (fun j => Config.keyIv s.idGen p.1 j)
    (iv, keyWrap iv (keyText p.2)))

/-- The boot unwraps DK, AK and WK, which open exactly where the PUF key is derived (`keyUnseal_keyWrap`). -/
def keysBoot (derived : Bool) (s : State) : State := { s with lodge := { s.lodge with keys := derived } }

/-- The key-store record's payload. -/
def storePayload (st : Sparse KeySlot) : List Byte :=
  st.flatMap (fun p => leBytes 1 p.1 ++ leBytes 4 p.2.purpose ++ leBytes 2 p.2.ct.length ++ p.2.iv ++ p.2.tag ++ p.2.ct)

/-- The owner deposits an entry of at most 512 bytes, wrapped with WK, in one of 64 slots; flash holds it wrapped with the PUF key (R398). The manual
gives the deposit no message, so no command of the table sends one (log 207). -/
def keyDeposit (slot purpose : Nat) (wrapped : List Byte) (s : State) : State :=
  let k := Config.wk s.idGen
  if 64 ≤ slot ∨ !s.lodge.keys ∨ s.lodge.debug then s
  else
    match oaepOpen k.n k.d [] wrapped with
    | none => s
    | some key =>
      if 512 < key.length then s
      else
        let iv := (List.range 12).map (fun j => Config.freeByte s.free j)
        let w := keyWrap iv key
        let st := Sparse.put s.lodge.store slot { purpose := purpose, iv := iv, ct := w.1, tag := w.2 }
        (recordPut 7 (storePayload st) { s with lodge := { s.lodge with store := st } }).tick

/-- The entry of a slot, for the purpose that the slot names and no other (R398). -/
def State.storeEntry (s : State) (slot purpose : Nat) : Option (List Byte) :=
  match Sparse.find s.lodge.store slot with
  | some e => if e.purpose = purpose then keyUnseal s.lodge.keys e.iv e.ct e.tag else none
  | none => none

/-! ## The boot chain (R390-R393) -/

/-- SEC_MEAS[i], and a digest extended into it. -/
def measFld (i : Nat) : Fld := F.SEC_MEAS_w0 i
def measReset (i : Nat) (s : State) : State := s.setGroup (measFld i).addr (List.replicate 8 0)
def measure (i : Nat) (digest : List Byte) (s : State) : State :=
  s.setGroup (measFld i).addr (wordsOf (sha512 (s.groupBytes (measFld i) 8 ++ digest)))

/-- A copy of the firmware, 0 A and 1 B; the active one. -/
def State.fwCopy (s : State) (c : Nat) : Option Bundle := (s.lodge.fw[c]?).join
def State.fwActive (s : State) : Nat := s.fld F.SEC_FW_STS_active

/-- Why stage `st` of a copy does not verify: its signature fails, the key in the loader's header does not hash to the value in mask ROM, or
the copy is below n_svn and no downgrade permits it (R390, R393). -/
def fwFails (b : BootIn) (down : Option Nat) (c : Nat) (s : State) (st : Nat) : Option Nat :=
  match s.fwCopy c with
  | none => some E.FW_SIG
  | some f =>
    if b.fwBad.any (fun p => decide (p.1.toNat = c ∧ p.2 = st)) ∨ (st = 0 ∧ f.root ≠ s.lodge.rom) then some E.FW_SIG
    else if f.svn.toNat < s.lodge.nsvn ∧ down ≠ some c then some E.FW_ROLLBACK
    else none

/-- SEC_FW_STS.staged: 0 none, 1 verified, 2 failed. The copy not in use is tried at the next boot exactly when it is verified. -/
def fwStaged (k : Nat) (s : State) : State := ({ s with lodge := { s.lodge with ready := decide (k = 1) } }).setFld F.SEC_FW_STS_staged k

/-- The first of some stages of a copy that does not verify, with its code. -/
def fwFirst (b : BootIn) (down : Option Nat) (c : Nat) (sts : List Nat) (s : State) : Option (Nat × Nat) :=
  sts.findSome? (fun st => (fwFails b down c s st).map (fun code => (st, code)))

/-- Stages of a copy are measured (R390). -/
def fwMeasure (c : Nat) (sts : List Nat) (s : State) : State :=
  match s.fwCopy c with
  | none => s
  | some f => sts.foldl (fun st i => measure i (f.digests.getD i []) st) s

/-- Stages boot from a copy, else from the other one, with EV_BOOT_FALLBACK; with both failing the mask ROM stays in recovery (R391). The copy
they boot from. -/
def fwLoad (b : BootIn) (down : Option Nat) (c : Nat) (sts : List Nat) (s : State) : State × Option Nat :=
  match fwFirst b down c sts s with
  | none => (fwMeasure c sts s, some c)
  | some (st, code) =>
    let s1 := (s.raiseDev EV.BOOT_FALLBACK (leBytes 1 st ++ leBytes 2 code)).setFld F.SEC_FW_STS_code code
    let s2 := if c = s1.fwActive then s1 else fwStaged 2 s1
    match fwFirst b none (1 - c) sts s2 with
    | none => (fwMeasure (1 - c) sts s2, some (1 - c))
    | some _ => ({ s2 with lodge := { s2.lodge with recovery := true } }, none)

/-- The copy that a boot tries first: the one not in use when a verified bundle is staged there, or the downgrade permits it. -/
def fwWanted (down : Bool) (s : State) : Nat := if s.lodge.ready ∨ down then 1 - s.fwActive else s.fwActive

/-- Stages 1 and 2 run a copy: it is the active one, and DEV_FW_VERSION is its version. -/
def fwActivate (c : Nat) (s : State) : State :=
  let s1 := if s.fwActive = c then s else fwStaged 0 s
  let s2 := s1.setFld F.SEC_FW_STS_active c
  { s2.setReg F.DEV_FW_VERSION.addr (((s2.fwCopy c).map (·.version)).getD 0) with lodge := { s2.lodge with recovery := false } }

/-- Stages 3 and 4 run a copy's microcode. -/
def fwMicro (c : Nat) (s : State) : State := { s with lodge := { s.lodge with micro := s.fwCopy c } }

/-- A permitted downgrade has booted: n_svn takes the bundle's svn (Table 17-10). The permission ends with this start. -/
def fwDowngrade (down : Option Nat) (c : Nat) (s : State) : State :=
  let s1 := { s with lodge := { s.lodge with downgrade := false } }
  match s1.fwCopy c with
  | some f => if down = some c ∧ f.svn.toNat < s1.lodge.nsvn then
      recordPut 3 (leBytes 4 f.svn.toNat) { s1 with lodge := { s1.lodge with nsvn := f.svn.toNat } } else s1
  | none => s1

/-- The firmware boots stage by stage: mask ROM verifies the stage-1 loader, the loader verifies the Lodge OS and the management firmware, and
at a start the Lodge OS verifies the microcode (Table 17-5). -/
def fwBoot (full : Bool) (b : BootIn) (s : State) : State :=
  let down := if full && s.lodge.downgrade then some (1 - s.fwActive) else none
  let c := fwWanted down.isSome s
  let p := fwLoad b down c [0] s
  if p.2.isNone then p.1
  else
    let q := fwLoad b down c [1, 2] p.1
    match q.2 with
    | none => q.1
    | some c1 =>
      let s1 := fwActivate c1 q.1
      if !full then s1
      else
        let r := fwLoad b down c1 [3, 4] s1
        match r.2 with
        | none => r.1
        | some c2 => fwDowngrade down c1 (fwMicro c2 r.1)

/-- Records are read: what flash holds comes into use, types with no valid copy take their defaults, and the records are measured. -/
def recsBoot (b : BootIn) (s : State) : State :=
  let s1 := [1, 2, 3, 4, 5, 6, 7, 8, 9].foldl recordBoot (b.recBad.foldl recordSpoil s)
  [(5, 1), (6, 4), (7, 5), (7, 2)].foldl (fun st p => match st.recordCopy p.2 with
    | some c => measure p.1 (sha512 (recordBody p.2 c)) st
    | none => st) s1

/-- The boot chain: measurement registers are reset (Table 17-5); a PUF key that cannot be derived, or no firmware, leaves the module in
recovery. -/
def bootChain (full : Bool) (b : BootIn) (s : State) : State :=
  let s0 := ([0, 1, 2, 5, 6, 7] ++ if full then [3, 4] else []).foldl (fun st i => measReset i st) s
  if b.pufFail then
    let s1 := keysBoot false s0
    ({ s1 with lodge := { s1.lodge with recovery := true } }).raiseDev EV.REC_FAIL (leBytes 1 0 ++ leBytes 2 E.REC_SIG)
  else
    let s1 := fwBoot full b (keysBoot true s0)
    if s1.lodge.recovery then s1 else recsBoot b s1

/-! ## Presence (R400-R403) -/

/-- A staged command is discarded. -/
def presDiscard (s : State) : State :=
  if s.lodge.staged.isNone then s
  else
    (({ s with lodge := { s.lodge with staged := none } }).setFlag F.SEC_PRES_STS_pending false).setFld F.SEC_PRES_STS_code E.PRES_TIMEOUT

/-- The effect of a command of Table 17-10. -/
def presEffect (c : Staged) (s : State) : State :=
  let l := s.lodge
  match c.cmd with
  | 1 =>
    let old := (s.fwCopy (1 - s.fwActive)).any (fun f => decide (f.svn.toNat < l.nsvn))
    if c.arg = l.fwDigest ∧ old then { s with lodge := { l with downgrade := true } } else s
  | 2 =>
    let s1 := { s with
      idGen := s.idGen + 1, ivRecord := if l.noIv then 0 else s.ivRecord
      lodge := { l with noIv := false, store := [] } }
    let s2 := if l.noIv then recordPut 9 (leBytes 8 0) s1 else s1
    [2, 5, 1, 7].foldl (fun st t => recordPut t [] st) s2
  | 3 => { s with lodge := { l with debug := true } }
  | 4 => recordPut 7 [] ({ s with lodge := { l with store := [] } }).clearKeys
  | 5 => recordPut 2 c.arg s
  | 6 => { s with lodge := { l with rebuild := true } }
  | _ => s

/-- Presence is confirmed: the staged command executes; with none staged, the press is counted. -/
def presConfirm (s : State) : State :=
  match s.lodge.staged with
  | none => s.bump F.SEC_PRES_IDLE_CNT
  | some c =>
    let s1 := presEffect c ({ s with lodge := { s.lodge with staged := none } })
    (s1.setFlag F.SEC_PRES_STS_pending false).raiseDev EV.PRES_DONE (leBytes 1 c.cmd)

/-- PRESENCE_BUTTON. -/
def execPresenceButton (s : State) : Host.Outcome State Fault Refusal := go (presConfirm s)

/-- SERVICE_JUMPER_CLOSE: the broken seal is recorded. -/
def jumper (s : State) : State :=
  presConfirm (if s.lodge.opened then s else recordPut 8 [1] { s with lodge := { s.lodge with opened := true } })

/-- SERVICE_JUMPER_CLOSE. -/
def execServiceJumperClose (s : State) : Host.Outcome State Fault Refusal := go (jumper s)

/-- PRESENCE_TIMEOUT. -/
def presTimeout (s : State) : State :=
  match s.lodge.staged with
  | none => s
  | some c => (presDiscard s).raiseDev EV.PRES_TIMEOUT (leBytes 1 c.cmd)

/-- PRESENCE_TIMEOUT. -/
def execPresenceTimeout (s : State) : Host.Outcome State Fault Refusal := go (presTimeout s)

/-- A write of 1 to SEC_FW_CTL.commit: accepted when the active bundle's svn is greater than n_svn and stages 3 and 4 run it (R393). -/
def fwCommit (v : W64) (s : State) : State :=
  match s.fwCopy s.fwActive with
  | some f =>
    if v.getLsbD 0 ∧ s.lodge.nsvn < f.svn.toNat ∧ s.lodge.micro = some f then
      recordPut 3 (leBytes 4 f.svn.toNat) { s with lodge := { s.lodge with nsvn := f.svn.toNat } }
    else s
  | none => s

/-- SEC_FW_COMMIT. -/
def execSecFwCommit (value : W64) (s : State) : Host.Outcome State Fault Refusal := go (fwCommit value s)

/-! ## Restart (R384, R385) -/

/-- A Lodge restart begins: 0 a watchdog, 1 a memory error, 2 a write. Sessions close, a staged command is discarded, recovery is left, and
from now on events wait at the bridges. A cause that comes during a restart begins it again; one that comes in stage 3 begins that stage's
boot chain again; before it no Lodge runs. -/
def lodgeRestart (cause : Nat) (s : State) : State :=
  if s.fld F.DEV_BOOT_STS_stage < 3 then s
  else
    let s1 := presDiscard s
    let r := if s.fld F.DEV_BOOT_STS_stage = 3 then s1.lodge.restart else some cause
    ({ s1 with lodge := { s1.lodge with restart := r, sessions := [], recovery := false } }).raiseDev EV.LODGE_RESTART (leBytes 1 cause)

/-- LODGE_WATCHDOG_EXPIRY. -/
def execLodgeWatchdogExpiry (_lodgeCore : BitVec 3) (s : State) : Host.Outcome State Fault Refusal := go (lodgeRestart 0 s)

/-- LODGE_MEMORY_ERROR. -/
def execLodgeMemoryError (s : State) : Host.Outcome State Fault Refusal := go (lodgeRestart 1 s)

/-- DEV_LODGE_RESTART. -/
def execDevLodgeRestart (value : W64) (s : State) : Host.Outcome State Fault Refusal := go (if value.getLsbD 0 then lodgeRestart 2 s else s)

/-- The buffered records enter the ring, and the Lodge's own settings apply again (spec/15 R343). -/
def lodgeBack (s : State) : State :=
  let k := s.fld F.PWR_TEL_RING_frames
  let s1 := { s with
    lodge := { s.lodge with restart := none, buf := [] }, pwr := { s.pwr with telCap := k, frames := s.pwr.frames.take k } }
  s1.ringReports (s.lodge.buf.foldr (fun p (st : State) => st.appendEvent { p.2 with seq := st.evSeq }) s1)

/-- LODGE_RESTART_DONE. -/
def lodgeDone (b : BootIn) (s : State) : State :=
  if s.lodge.restart.isNone then s
  else
    let s1 := bootChain false b { s with lodge := { s.lodge with sessions := [] } }
    if s1.lodge.recovery then s1 else lodgeBack s1

/-- LODGE_RESTART_DONE. -/
def execLodgeRestartDone (boot : BootIn) (s : State) : Host.Outcome State Fault Refusal := go (lodgeDone boot s)

/-- POWER_LOOP_WATCHDOG: five missed iterations engage the clamp at 32/64. In a restart the loop is stopped on purpose and its watchdog
does not act. -/
def loopWatchdog (s : State) : State :=
  if !s.lodgeRuns || s.pwr.off then s
  else
    let s1 := engage 5 s
    if s.flag F.PWR_STS_clamp then s1 else s1.setFld F.PWR_CLAMP_STS_stretch 32

/-- POWER_LOOP_WATCHDOG. -/
def execPowerLoopWatchdog (s : State) : Host.Outcome State Fault Refusal := go (loopWatchdog s)

/-! ## Sessions and pushed events (R386, R406) -/

/-- Whether the management port answers: the boot chain has run, or ended in recovery. -/
def State.portUp (s : State) : Bool := s.lodgeRuns || s.lodge.recovery

/-- The role of a client: 2 OPERATOR by the owner key, else by the access list; with no owner key MONITOR for every client that holds its
key. -/
def clientRole (c : ClientIn) (s : State) : Option Nat :=
  let dig := leBytes 64 c.keyDigest.toNat
  if !c.proven then none
  else
    match s.record 2 with
    | none => some 0
    | some k =>
      if sha512 k = dig then some 2
      else (((s.record 5).map Config.accessList).getD []).find? (fun p => p.1 = dig) |>.map (·.2)

/-- MGMT_CONNECT: a session is opened under a free identifier, or the client is refused. -/
def mgmtConnect (k : Nat) (c : ClientIn) (s : State) : State :=
  if !s.portUp then s
  else
    match clientRole c s with
    | none => s.raiseDev EV.MGMT_AUTH_FAIL (leBytes 8 (c.keyDigest.toNat % 2 ^ 64))
    | some r =>
      if (Sparse.find s.lodge.sessions k).isSome then s
      else { s with lodge := { s.lodge with sessions := Sparse.put s.lodge.sessions k { role := r } } }

/-- MGMT_CONNECT. -/
def execMgmtConnect (session : BitVec 4) (client : ClientIn) (s : State) : Host.Outcome State Fault Refusal :=
  go (mgmtConnect session.toNat client s)

/-- A message of a session (R387). -/
def mgmtMsg (op status tag : Nat) (body : List Byte) : List Byte :=
  leBytes 2 op ++ leBytes 2 status ++ leBytes 4 tag ++ leBytes 4 body.length ++ leBytes 4 0 ++ body

/-- An event record (Table 17-11). -/
def evtBytes (r : EvtRec) : List Byte :=
  let head := leBytes 8 r.time.toNat ++ leBytes 4 r.seq ++ leBytes 2 r.code ++ leBytes 1 r.kind ++ leBytes 1 r.flags
  let pad := fun (n : Nat) => (r.payload ++ List.replicate n 0).take n
  if r.flags / 2 % 2 = 1 then head ++ pad 16 else head ++ leBytes 4 r.src ++ pad 12

/-- The records from a sequence number on, at most `n`, oldest first; whether the first one asked for has been overwritten. Sequence numbers
count modulo 2³². -/
def evtFrom (first n : Nat) (s : State) : List EvtRec × Bool :=
  let len := s.events.length
  let back := (s.evSeq + 2 ^ 32 - first % 2 ^ 32) % 2 ^ 32
  let gone := decide (len < back ∧ back < 2 ^ 31)
  let k := if 2 ^ 31 ≤ back then 0 else Nat.min back len
  (((s.events.take k).reverse).take n, gone)

/-- The body of EVT_READ's response. -/
def evtBody (rs : List EvtRec) (next : Nat) : List Byte :=
  leBytes 4 rs.length ++ leBytes 4 ((rs.head?.map (·.seq)).getD next) ++ rs.flatMap evtBytes

/-- EVT_SUBSCRIBE_PUSH: the records since the last push go to a subscribed session; one that has fallen behind the ring has a gap. -/
def evtPush (k : Nat) (s : State) : State :=
  match Sparse.find s.lodge.sessions k with
  | some ({ sub := some next, .. } : Session) =>
    if !s.lodgeRuns then s
    else
      let r := evtFrom next 32767 s
      match r.1 with
      | [] => s
      | _ :: _ =>
        let ses := Sparse.get s.lodge.sessions ({ role := 0 } : Session) k
        let e : Session := { ses with sub := some (((r.1.getLast?.map (·.seq)).getD next + 1) % 2 ^ 32), gap := ses.gap || r.2 }
        ({ s with lodge := { s.lodge with sessions := Sparse.put s.lodge.sessions k e } }).out (.mgmt k (mgmtMsg 0x000C 0 0 (evtBody r.1 next)))
  | _ => s

/-- EVT_SUBSCRIBE_PUSH. -/
def execEvtSubscribePush (session : BitVec 4) (s : State) : Host.Outcome State Fault Refusal := go (evtPush session.toNat s)

end Sys2Proof.Machine
end

