-- ==== Sys2Proof/Machine/Boot.lean ====
section
/-! DEFINITION. Start, warm reset, fabric join, Run-out and removal (spec/18, spec/02 R21-R24). -/

namespace Sys2Proof.Machine

/-! ## What a start keeps (Table 18-3, spec/19 R427) -/

/-- The bits of a register word that a start keeps. What stands in flash stays in every case: the copy of the firmware in use, site states, the plans
of the sites, the head of the wear log, the sticky service bits, the size of the event ring, the route digest of the last job. -/
def keptMask (cold : Bool) (a : Nat) : W64 :=
  let flash := [F.DEV_FW_VERSION.addr, F.PWR_SERVICE_STS_leak.addr, F.CLK_WEAR_LOG_HEAD.addr, F.EVT_RING_CFG_entries.addr].contains a
    || decide (0x30002001000 ≤ a ∧ a < 0x30002003000) || decide (0x3000A010000 ≤ a ∧ a < 0x3000A030000)
    || decide (F.WSTREAM_ROUTE_DIGEST_w0.addr ≤ a ∧ a < F.WSTREAM_ROUTE_DIGEST_w0.addr + 64)
  let warm := [F.DEV_TIME.addr, F.DEV_MODE_CFG_keep_half.addr, F.DEV_NODE_ID_node_id.addr, F.DEV_ADDR_CFG_node_format.addr].contains a
    || decide (0x3000C000000 ≤ a ∧ a < 0x3000D000000) || decide (0x3000B000218 ≤ a ∧ a < 0x3000B000258)
  if a = F.SEC_FW_STS_active.addr then 1
  else if a = F.RIM_INTERLEAVE_CFG_gran.addr then (if cold then 0 else 7)
  else if flash || (!cold && warm) then BitVec.allOnes 64
  else 0

/-- The register words after a start: the bits that are kept, and the reset value in the others. -/
def keptRegs (cold : Bool) (regs : Sparse W64) : Sparse W64 :=
  regs.filterMap (fun p =>
    let v := (resetWord p.1 &&& ~~~keptMask cold p.1) ||| (p.2 &&& keptMask cold p.1)
    if v = resetWord p.1 then none else some (p.1, v))

/-- The module before stage 1 of a cold start, or stage 3 of a warm reset: everything that is not kept is reset, and memory is undefined. The
sites of cores declared failed are RETIRED, remapped or not (spec/02 R28). -/
def startReset (cold : Bool) (s : State) : State :=
  let s0 := s.dead.foldl (fun st n => st.setSite (st.siteOf n) siRetired 0) (if s.lodge.restart.isSome then lodgeBack s else s)
  let w := s0.wear
  let l := s0.lodge
  let b : State := { State.reset with
    regs := keptRegs cold s0.regs
    mem := ⟨[], [⟨0, 0x30000000000, s0.free⟩]⟩
    accGen := s0.accGen + 1
    cores := s0.cores.map (fun p => (p.1, ({ ctxs := p.2.ctxs.map (fun q => (q.1, ({ inc := q.2.inc } : Ctx))), chainNo := p.2.chainNo } : Core)))
    events := if cold then [] else s0.events
    evSeq := if cold then 0 else s0.evSeq
    evHead := if cold then 0 else s0.evHead
    evCap := if cold then s0.fld F.EVT_RING_CFG_entries else s0.evCap
    net := { sent := s0.net.sent }
    wear := { log := w.log, vmin := w.vmin, plans := w.plans, last := w.last, slopes := w.slopes, copies := if cold then [] else w.copies, lock := !cold && w.lock }
    pwr := { frames := if cold then [] else s0.pwr.frames, frameSeq := if cold then 0 else s0.pwr.frameSeq, crev := s0.pwr.crev
             brake := s0.pwr.brake, low := s0.pwr.low, failed := !cold && s0.pwr.failed }
    lodge := { l with keys := false, restart := none, sessions := [], staged := none, piece := none, buf := [], debug := !cold && l.debug, recovery := false }
    boot := { cold := cold, present := s0.boot.present, eject := s0.boot.eject, badHalves := s0.pwr.half.toList }
    idGen := s0.idGen
    ivRecord := s0.ivRecord
    free := s0.free + 1
    pending := s0.pending }
  countSpares ((List.range 16).foldl (fun st m => if s0.flag (F.RIM_STACK_STS_stored m) then st.setFlag (F.RIM_STACK_STS_stored m) true else st) b)

/-- The stage of the start, and its end with EV_BOOT_STAGE. -/
def State.bootStage (s : State) : Nat := s.fld F.DEV_BOOT_STS_stage
def stageEvent (k ms : Nat) (s : State) : State := s.raiseDev EV.BOOT_STAGE (leBytes 1 k ++ leBytes 4 ms)
def stageEnd (k ms : Nat) (s : State) : State := stageEvent k ms (s.setFld F.DEV_BOOT_STS_stage (k + 1))

/-! ## Insertion (R416, spec/20 R448) -/

/-- PRSNT_ASSERT: a module that has not passed stage 1 begins a cold start. -/
def present (s : State) : State :=
  if s.boot.present then s
  else if s.bootStage ≤ 1 then
    let s1 := startReset true s
    ({ s1 with boot := { s1.boot with present := true } }).setFld F.DEV_BOOT_STS_stage 1
  else { s with boot := { s.boot with present := true } }

/-- PRSNT_ASSERT. -/
def execPrsntAssert (s : State) : Host.Outcome State Fault Refusal := go (present s)

/-! ## The mode and the map (R411-R413, spec/02 R21-R24) -/

/-- The sites that self-test has found good: those that are neither DEFECTIVE nor RETIRED. -/
def goodSites (s : State) : List Nat := (List.range 1024).filter (fun p => decide (s.siteState p = siAssigned ∨ s.siteState p = siSpare))

/-- The half to keep, none for full-wafer mode (R21). Where its conditions name different halves, a half that has failed goes first, then
force_half, then the count of good sites: the manual gives no order (DESIGN CHOICE, log 18). -/
def chooseHalf (bad : List Nat) (good : List Nat) (s : State) : Option Nat :=
  let count := fun (h : Nat) => good.countP (fun p => halfOfField (fieldOfSite p) = h)
  if bad.contains 0 && bad.contains 1 then some 0
  else if bad.contains 0 then some 1
  else if bad.contains 1 then some 0
  else if s.flag F.DEV_MODE_CFG_force_half then some (s.fld F.DEV_MODE_CFG_keep_half)
  else if good.length < 896 then some (if count 0 < count 1 then 1 else 0)
  else none

/-- The map of a mode: assigned sites carry their cores and are in IDLE; the other good sites are SPARE, in OFF. The entry of a core that gets no site
stays as it is: after a fall back to half-wafer mode in stage 5 those of cores 448 to 895 show the earlier map (DESIGN CHOICE, log 205). -/
def putMap (half : Option Nat) (good : List Nat) (s : State) : State :=
  let m := (buildMap half good).1
  let s1 := (List.range 1024).foldl (fun st p =>
    let t := if st.siteState p = siAssigned then st.setSite p siSpare 0 else st
    if t.sitePower p = 0 then t else siteOff p t) s
  let s2 := m.foldl (fun st q => sitePut q.2 2 ((st.setSite q.2 siAssigned q.1).setFld (F.CORE_MAP_ENTRY_site q.1) q.2)) s1
  mapRecord (countSpares s2)

/-- The module can keep no half: no compute, EV_NO_COMPUTE (R21), and every site is off. -/
def noCompute (s : State) : State :=
  let s1 := ((s.setFlag F.DEV_MODE_STS_half_mode false).setFlag F.DEV_MODE_STS_no_compute true).raiseDev EV.NO_COMPUTE []
  mapRecord (countSpares ((List.range 1024).foldl (fun st p =>
    let t := if st.siteState p = siAssigned then st.setSite p siSpare 0 else st
    if t.sitePower p = 0 then t else siteOff p t) s1))

/-- Choose the mode and build the map. A kept half with fewer than 448 good sites, or none to keep, leaves no compute. -/
def modeAndMap (bad : List Nat) (s : State) : State :=
  let good := goodSites s
  let half := chooseHalf bad good s
  let kept := fun (h : Nat) => good.filter (fun p => halfOfField (fieldOfSite p) = h)
  let dead := match half with
    | some h => bad.contains h || decide ((kept h).length < 448)
    | none => false
  let s1 := { s with boot := { s.boot with badHalves := bad } }
  if dead then noCompute s1
  else
    let s2 := ((s1.setFlag F.DEV_MODE_STS_half_mode half.isSome).setFld F.DEV_MODE_STS_half (half.getD 0)).setFlag F.DEV_MODE_STS_no_compute false
    putMap half (match half with | some h => kept h | none => good) s2

/-- The self-test of one site, by Table 18-2: a failed converter, rail or reference fails every site of its field. DEFECTIVE and RETIRED sites are not tested, unless a rebuild tests RETIRED ones again. -/
def selfTestSite (b : BootIn) (rebuild : Bool) (s : State) (p : Nat) : State :=
  let st := s.siteState p
  if st = siDefective ∨ (st = siRetired ∧ !rebuild) then s
  else
    let phases : Nat := ((b.phases.find? (fun q => q.1.toNat = p)).map (·.2)).getD 8
    if b.failSites.any (fun q => q.toNat = p) ∨ b.failFields.any (fun f => f.toNat = fieldOfSite p) ∨ phases < 6 ∨ (s.topPoint p).isNone then s.setSite p siRetired 0
    else
      let t := if st = siRetired then s.setSite p siSpare 0 else s
      let derated := decide (phases < 8) || (entriesOfSite p).any t.crevDerated
      if phases = 8 ∧ !derated then t
      else (t.setFld (F.PWR_SITE_STS_phases p) (Nat.min phases 8)).setFlag (F.PWR_SITE_STS_derated p) derated

/-- Without a core-map record every site counts as SPARE before the self-test (spec/17 Table 17-7). -/
def newMap (s : State) : State :=
  if (Sparse.find s.lodge.recs 4).isSome then s else (List.range 1024).foldl (fun st p => st.setSite p siSpare 0) s

/-- Stage 4: self-test, mode and map; the converters are on. At a cold start that has no baseline yet the Crevasse detector takes one. -/
def selfTest (b : BootIn) (s : State) : State :=
  let base := s.boot.cold && !s.lodge.noCal && s.pwr.crev.isEmpty
  let s0 := if base then (crevBaseline (Config.crevBase s.free) s).tick else s
  let s1 := (List.range 1024).foldl (selfTestSite b s0.lodge.rebuild) (newMap { s0 with pwr := { s0.pwr with off := false } })
  let bad := (s1.boot.badHalves ++ (if b.failWest then [0] else []) ++ (if b.failEast then [1] else [])).dedup
  let s2 := modeAndMap bad { s1 with lodge := { s1.lodge with rebuild := false } }
  let s3 := spareLow (s2.raiseDev EV.SELFTEST_DONE (leBytes 2 (goodSites s2).length ++ leBytes 2 (s2.fld F.CORE_MAP_SPARE_CNT)))
  let s4 := if s3.pwr.brake then engage 3 s3 else s3
  if s4.pwr.low then engage 4 s4 else s4

/-- Stage 5: the stacks of the halves in use train; one that fails is a failure of its half: the mode is chosen again, or, in half-wafer mode
already, there is no compute. -/
def rimTrain (b : BootIn) (s : State) : State :=
  let fails := b.failStacks.map (·.toNat)
  let used := fun (st : State) (m : Nat) => match st.keptHalf with | none => true | some h => decide (stackHalf m = h)
  let one := fun (st : State) (m : Nat) =>
    if !used s m then st.setFld (F.RIM_STACK_STS_state m) 0
    else if fails.contains m then
      ((st.setFld (F.RIM_STACK_STS_state m) 2).setFld F.DEV_BOOT_STS_code E.RIM_TRAIN).setFld F.DEV_BOOT_STS_stack m
    else
      let full := st.boot.cold || !st.flag (F.RIM_STACK_STS_stored m)
      let t := st.setFld (F.RIM_STACK_STS_state m) 1
      if full then t.setFlag (F.RIM_STACK_STS_stored m) true else t
  let s1 := (List.range 16).foldl one (s.setFld F.RIM_INTERLEAVE_CFG_gran_active (s.fld F.RIM_INTERLEAVE_CFG_gran))
  let lost := (fails.filter (used s)).map stackHalf
  if lost.isEmpty then s1
  else
    let bad := (s1.boot.badHalves ++ lost).dedup
    let s2 := if s.keptHalf.isSome then noCompute { s1 with boot := { s1.boot with badHalves := bad } } else modeAndMap bad s1
    let s3 := (List.range 16).foldl (fun st m => if used st m ∨ fails.contains m then st else st.setFld (F.RIM_STACK_STS_state m) 0) s2
    spareLow s3

/-- A fresh SEC_PRES_NONCE. -/
def newNonce (s : State) : State := (s.setGroup F.SEC_PRES_NONCE_w0.addr ((List.range 8).map (fun i => Config.freeWord (8 * s.free + i)))).tick

/-- The RW fields of the registers that a configuration record names; those kept at a warm reset keep their values. A value that is a reserved
encoding of its field is stored as it is: whether it is (spec/02 R33) or the field keeps its value (spec/00 R8) the manual leaves open (DESIGN
CHOICE, log 165). -/
def confApply (s : State) : State :=
  match s.record 1 with
  | none => s
  | some b => (Config.confRegs b).foldl (fun st p =>
      let m := rwMask p.1 &&& ~~~(if st.boot.cold then 0 else keptMask false p.1)
      if m = 0 then st else st.setReg p.1 ((st.reg p.1 &&& ~~~m) ||| (p.2 &&& m))) s

/-- Stage 3: the boot chain; a module in recovery stays in it. -/
def lodgeBoots (b : BootIn) (s : State) : State :=
  let s1 := bootChain true b { s with lodge := { s.lodge with sessions := [] } }
  if s1.lodge.recovery then s1
  else
    let s2 := newNonce (confApply s1)
    let k := s2.fld F.PWR_TEL_RING_frames
    let s3 := { s2 with pwr := { s2.pwr with telCap := k, frames := s2.pwr.frames.take k } }
    stageEnd 3 b.ms s3

/-- BOOT_STAGE_DONE: the work of the current stage is done. A module without PRSNT_N stays in stages 1 and 2, one with EJECT_N in stage 2; stage 7
ends by the join write. A module that Run-out or EJECT_N has stopped goes no further, nor does one whose input has failed in or after stage 3: its
converters stay off until a warm reset (spec/20 R446). -/
def bootStageDone (b : BootIn) (s : State) : State :=
  if s.boot.quiet || s.pwr.failed || s.pwr.dry || s.pwr.tripped || s.runout then s
  else
    match s.bootStage with
    | 1 => if s.boot.present then stageEnd 1 b.ms s else s
    | 2 => if s.boot.present && !s.boot.eject then stageEnd 2 b.ms s else s
    | 3 => lodgeBoots b s
    | 4 => stageEnd 4 b.ms (selfTest b s)
    | 5 => (List.range 32).foldl (fun st k => linkTrain k st) (stageEnd 5 b.ms (rimTrain b s))
    | 6 => stageEnd 6 b.ms s
    | _ => s

/-- BOOT_STAGE_DONE. -/
def execBootStageDone (boot : BootIn) (s : State) : Host.Outcome State Fault Refusal := go (bootStageDone boot s)

/-! ## Fabric join (R414) -/

/-- Whether a link, or a port of an Ethernet link, is UP. -/
def State.anyUp (s : State) : Bool :=
  (List.range 32).any (fun k => s.linkUp k || decide (s.fld (F.LINK_STS_port_a k) = 2 ∨ s.fld (F.LINK_STS_port_b k) = 2))

/-- Whether the flat table lies in edge memory. -/
def State.flatOk (s : State) : Bool := decide (s.fld F.DEV_FLAT_TABLE_BASE * 4096 + 8 * s.fld F.DEV_FLAT_TABLE_LEN ≤ s.edgeSize)

/-- A write of 1 to DEV_JOIN_CTL.join. The durations of stages 7 and 8 are free. -/
def join (s : State) : State :=
  if s.runout then s.setFld F.DEV_BOOT_STS_code E.RUNOUT_ACTIVE
  else if s.bootStage ≠ 7 then s
  else if s.node = 0x3FFFFF ∨ !s.anyUp ∨ (s.flag F.DEV_ADDR_CFG_node_format ∧ !s.flatOk) then s.setFld F.DEV_BOOT_STS_code E.JOIN_CFG
  else
    let d := fun (i : Nat) => (Config.freeWord (2 * s.free + i)).toNat
    let s1 := ({ s with joined := true }).setFld F.DEV_BOOT_STS_stage 9
    (stageEvent 8 (d 1) (stageEvent 7 (d 0) s1)).tick.raiseDev EV.ENGINE_READY []

/-- DEV_JOIN. -/
def execDevJoin (value : W64) (s : State) : Host.Outcome State Fault Refusal := go (if value.getLsbD 0 then join s else s)

/-! ## Warm reset (R415) and the end of hold-up (spec/20 R446) -/

/-- Whether every sensor has read since the trip, and reads below 85 degrees (spec/15 R358). -/
def State.cooled (s : State) : Bool := (List.range 1094).all (fun j => (Sparse.find s.pwr.temps j).any (fun t => decide (t < 85 * 64)))

/-- A write of 1 to DEV_RESET_CTL.warm: goodbye records, then the module starts again at stage 3. After a thermal trip every sensor must read below
85 degrees; without input no reset is possible. -/
def resetWarm (s : State) : State :=
  let hot := s.pwr.tripped && !s.cooled
  if s.bootStage < 3 ∨ s.pwr.failed ∨ hot then s
  else
    let staged := s.lodge.staged.isSome
    let s1 := (startReset false (sayGoodbye 0 s)).setFld F.DEV_BOOT_STS_stage 3
    if staged then s1.setFld F.SEC_PRES_STS_code E.PRES_TIMEOUT else s1

/-- DEV_RESET_WARM. -/
def execDevResetWarm (value : W64) (s : State) : Host.Outcome State Fault Refusal := go (if value.getLsbD 0 then resetWarm s else s)

/-- HOLDUP_END: the module has no power; its next start is a cold one. -/
def execHoldupEnd (s : State) : Host.Outcome State Fault Refusal :=
  go (if s.pwr.failed then
      let s1 := startReset true s
      { s1 with boot := { s1.boot with present := false } }
    else s)

/-! ## Run-out (R417-R420) -/

/-- The stages of DEV_RUNOUT_STS. -/
abbrev roNone : Nat := 0
abbrev roRequested : Nat := 1
abbrev roStop : Nat := 2
abbrev roStep : Nat := 3
abbrev roDrain : Nat := 4
abbrev roGoodbye : Nat := 5
abbrev roPower : Nat := 6
abbrev roReady : Nat := 7
abbrev roEject : Nat := 8

/-- The stage of Run-out. -/
def State.roStage (s : State) : Nat := s.fld F.DEV_RUNOUT_STS_stage
def State.setRo (s : State) (k : Nat) : State := s.setFld F.DEV_RUNOUT_STS_stage k

/-- Whether the current bank names this engine an owner, or a Shadow. -/
def State.isOwner (s : State) : Bool := (List.range (s.fld F.RED_OWNER_LEN)).any (fun k => s.isSelf (s.ownerNodes k).1)
def State.isShadow (s : State) : Bool :=
  (List.range (s.fld F.RED_OWNER_LEN)).any (fun k => let o := s.ownerNodes k; s.isSelf o.2 && decide (o.1 ≠ o.2))

/-- The roles that EV_RUNOUT_REQ carries: bit 0 worker, bit 1 owner, bit 2 Shadow; 0 with no job. -/
def State.roles (s : State) : Nat := if s.jobLoaded then bit (!s.isOwner && !s.isShadow) + 2 * bit s.isOwner + 4 * bit s.isShadow else 0

/-- Whether the point of Table 18-4 has come: no job; the last step of a released worker is decided; an owner or Shadow has written a decision
since the request (DEDUCED, log 189) and completed the update of its step. A worker that is not released waits for wait_ms. -/
def State.runoutPoint (s : State) : Bool :=
  if !s.jobLoaded then true
  else
    match s.ckpt.stored with
    | none => false
    | some (step, _) =>
      if s.isOwner || s.isShadow then s.ckpt.wrote && decide (step ≤ (s.reg F.CKPT_UPD_done_step.addr).toNat)
      else s.boot.lastStep.any (fun l => decide (l ≤ step))

/-- Whether Run-out goes on: a thermal trip, an input failure or EJECT_N takes precedence, and its stage is kept (R420). -/
def State.runoutRuns (s : State) : Bool := !s.boot.quiet && !s.pwr.tripped && !s.pwr.failed && !s.pwr.dry

/-- Run-out from DRAIN on: a Freeze that drains here is awaited; then goodbye records, power off, ready to remove. -/
def runoutGo (s : State) : State :=
  if s.roStage ≠ roDrain ∨ !s.runoutRuns ∨ s.ckpt.drain.any (fun d => !d.buddy) then s
  else
    let s1 := sayGoodbye 1 ((drainEnd s).setRo roGoodbye)
    let s2 := rimOff (convertersOff (s1.setRo roPower))
    let s3 := { (s2.setRo roReady) with boot := { s2.boot with lamp := true } }
    s3.raiseDev EV.RUNOUT_DONE (leBytes 8 (s3.now - s3.boot.since).toNat)

/-- Run-out in STEP: not in HOLD, whose end its bounds count from; a rollback is completed, but for the restart of the step program; then the cores
stop and the job is gone. -/
def runoutStep (s : State) : State :=
  if s.roStage ≠ roStep ∨ !s.runoutRuns ∨ s.flag F.PWR_STS_hold then s
  else
    let s1 := rollback s
    if s1.phase = phRollback ∧ !(s1.ckpt.rolled && s1.ckpt.aborted) then s1
    else runoutGo ((jobGone (stopCores s1)).setRo roDrain)

/-- Run-out begins: keys go, and a step in RUN or VOTING is abandoned. -/
def runoutBegin (s : State) : State :=
  let s1 := ((presDiscard (s.setRo roStop).clearKeys).raiseDev EV.RUNOUT_BEGIN []).setRo roStep
  runoutStep (if s1.phase = phRun ∨ s1.phase = phVoting then abandon s1 else s1)

/-- A request for Run-out. -/
def runoutAsk (s : State) : State :=
  let s1 := { s with
    boot := { s.boot with since := s.now, inHold := s.flag F.PWR_STS_hold, expired := false }, ckpt := { s.ckpt with wrote := false } }
  (s1.setRo roRequested).raiseDev EV.RUNOUT_REQ (leBytes 1 s1.roles)

/-- A write of 1 to DEV_RUNOUT_CTL.start. -/
def runoutStart (s : State) : State := if s.roStage = roNone ∧ s.runoutRuns then runoutAsk s else s

/-- RUNOUT_START. -/
def execRunoutStart (value : W64) (s : State) : Host.Outcome State Fault Refusal := go (if value.getLsbD 0 then runoutStart s else s)

/-- A write of 1 to DEV_RUNOUT_CTL.now: a request, if there is none, and Run-out begins at once; one requested in HOLD begins after it (R420). -/
def runoutNow (s : State) : State :=
  let s1 := runoutStart s
  if s1.roStage ≠ roRequested ∨ !s1.runoutRuns ∨ (s1.flag F.PWR_STS_hold ∧ s1.boot.inHold) then s1 else runoutBegin s1

/-- RUNOUT_NOW. -/
def execRunoutNow (value : W64) (s : State) : Host.Outcome State Fault Refusal := go (if value.getLsbD 1 then runoutNow s else s)

/-- RUNOUT_WAIT_EXPIRY: Run-out begins, in HOLD as well. -/
def runoutExpiry (s : State) : State :=
  if s.roStage = roRequested ∧ s.runoutRuns then runoutBegin { s with boot := { s.boot with expired := true } } else s

/-- RUNOUT_WAIT_EXPIRY. -/
def execRunoutWaitExpiry (s : State) : Host.Outcome State Fault Refusal := go (runoutExpiry s)

/-- RUNOUT_BEGIN: a pending Run-out begins once its point has come, and not in HOLD; one requested in HOLD begins when that ends. One that waits in
STEP for a rollback, or in DRAIN for a Freeze, goes on. -/
def runoutPoint (s : State) : State :=
  if !s.runoutRuns then s
  else if s.roStage = roRequested then
    if (s.runoutPoint || s.boot.expired || s.boot.inHold) && !s.flag F.PWR_STS_hold then runoutBegin s else s
  else runoutGo (runoutStep s)

/-- RUNOUT_BEGIN. -/
def execRunoutBegin (s : State) : Host.Outcome State Fault Refusal := go (runoutPoint s)

/-- RUNOUT_DRAIN_TIMEOUT: the Freeze is abandoned at this member. -/
def runoutDrainTimeout (s : State) : State :=
  if s.roStage = roDrain ∧ s.runoutRuns ∧ s.ckpt.drain.any (fun d => !d.buddy) then runoutGo (freezeFail E.CKPT_POOL s) else s

/-- RUNOUT_DRAIN_TIMEOUT. -/
def execRunoutDrainTimeout (s : State) : Host.Outcome State Fault Refusal := go (runoutDrainTimeout s)

/-- FREEZE_DRAIN_ACK; a Run-out that waits for the Freeze goes on when it has ended. -/
def execFreezeDrainAck (s : State) : Host.Outcome State Fault Refusal := go (runoutGo (drainAck s))

/-! ## Removal (R420-R423, spec/20 R448, R450) -/

/-- EJECT_N acts: keys and pool writes end, goodbye records leave, the step in flight is abandoned, cores and converters stop, the service log is
copied, but not in hold-up (spec/20 R446). The job stays loaded for the locks of (J) (spec/19 R431). -/
def ejectNow (s : State) : State :=
  let s1 := (presDiscard s.clearKeys).raiseDev EV.EJECT (leBytes 1 s.roStage)
  let s2 := (drainEnd (s1.setRo roEject)).forget (.engine epCkpt 0)
  let s3 := jobStops (stopCores (sayGoodbye 2 s2))
  let s4 := rimOff (convertersOff s3)
  { s4 with
    lodge := { s4.lodge with service := if s4.pwr.failed then s4.lodge.service else s4.events.take 4096 }
    boot := { s4.boot with quiet := true, lamp := false } }

/-- The first low sample of EJECT_N from stage 3 on. A module that it has stopped already, or that Run-out has made ready, only discards a presence
command (spec/17 R403). -/
def ejectActs (s : State) : State :=
  if s.bootStage < 3 then s else if s.boot.quiet ∨ s.roStage = roReady then presDiscard s else ejectNow s

/-- EJECT_ASSERT. -/
def ejectOn (s : State) : State := ejectActs { s with boot := { s.boot with eject := true } }

/-- EJECT_ASSERT. -/
def execEjectAssert (s : State) : Host.Outcome State Fault Refusal := go (ejectOn s)

/-- EJECT_DEASSERT: a module that has acted on EJECT_N does not resume. -/
def execEjectDeassert (s : State) : Host.Outcome State Fault Refusal := go { s with boot := { s.boot with eject := false } }

/-- PRSNT_DEASSERT: in stages 1 and 2 back to stage 1, later as EJECT_N; with EJECT_N already asserted it changes nothing (spec/20 R450). -/
def absent (s : State) : State :=
  if !s.boot.present then s
  else
    let s1 := { s with boot := { s.boot with present := false } }
    if s1.bootStage = 2 then s1.setFld F.DEV_BOOT_STS_stage 1
    else if s1.boot.eject then s1
    else ejectActs s1

/-- PRSNT_DEASSERT. -/
def execPrsntDeassert (s : State) : Host.Outcome State Fault Refusal := go (absent s)

/-! ## Leaks (spec/15 R361) -/

/-- COOLANT_LEAK: the event and the sticky bit, then PWR_LEAK_CFG.action. -/
def coolantLeak (sensor : Nat) (s : State) : State :=
  let s1 := (s.raiseDev EV.COOLANT_LEAK (leBytes 1 sensor)).setFlag F.PWR_SERVICE_STS_leak true
  match s1.fld F.PWR_LEAK_CFG_action with
  | 1 => runoutNow s1
  | 2 => if s1.pwr.off then s1 else enterHold 2 { s1 with pwr := { s1.pwr with leak := true } }
  | _ => s1

/-- COOLANT_LEAK. -/
def execCoolantLeak (sensor : BitVec 2) (s : State) : Host.Outcome State Fault Refusal := go (coolantLeak sensor.toNat s)

end Sys2Proof.Machine
end

