-- ==== Sys2Proof/Machine/Bus.lean ====
section
/-! DEFINITION. Accesses to the local address map (spec/02 R31, R32; spec/10 R220): register reads and writes by the rules of spec/00 R6-R9
and spec/19 R428-R431, and reads, writes and atomics by any agent. -/

namespace Sys2Proof.Machine

/-! ## Places (spec/02 Tables 02-5, 02-6) -/

/-- What a range of local addresses is: edge memory, SRAM or side memory of a core, registers of a core, device registers, or
reserved. -/
inductive Place where
  | edge
  | mem (n : Nat)
  | regs (n : Nat)
  | dev
  | hole
  deriving DecidableEq, Repr

/-- The place of a range; a range that is not wholly in one place is reserved. -/
def State.place (s : State) (a len : Nat) : Place :=
  if a + len ≤ s.edgeSize then .edge
  else if 0x20000000000 ≤ a ∧ a < 0x20000000000 + 0x4000000 * s.ncores then
    let n := (a - 0x20000000000) / 0x4000000
    let o := (a - 0x20000000000) % 0x4000000
    if o + len ≤ 0x3000000 then .mem n
    else if 0x3000000 ≤ o ∧ o + len ≤ 0x3800000 then .regs n
    else if 0x3800000 ≤ o ∧ o + len ≤ 0x3900000 then .mem n
    else .hole
  else if 0x30000000000 ≤ a ∧ a + len ≤ 0x3000D000000 then .dev
  else .hole

/-- The base of a core's registers. -/
def coreBase (n : Nat) : Nat := 0x20000000000 + 0x4000000 * n + 0x3000000

/-- Whether an address is a register of the lost half (spec/02 R22): FIELD instances, and entries by site or field of PWR and CLK. -/
def State.lostReg (s : State) (a : Nat) : Bool :=
  let field : Option Nat :=
    if 0x30001000000 ≤ a ∧ a < 0x30001400000 then some ((a - 0x30001000000) / 0x10000)
    else if 0x30009001000 ≤ a ∧ a < 0x30009003000 then some ((a - 0x30009001000) / 128)
    else if 0x30009003000 ≤ a ∧ a < 0x30009005000 then some ((a - 0x30009003000) / 128)
    else if 0x3000A000100 ≤ a ∧ a < 0x3000A000300 then some ((a - 0x3000A000100) / 8)
    else if 0x3000A001000 ≤ a ∧ a < 0x3000A005000 then some ((a - 0x3000A001000) / 256)
    else if 0x3000A005000 ≤ a ∧ a < 0x3000A009000 then some ((a - 0x3000A005000) / 256)
    else if 0x3000A010000 ≤ a ∧ a < 0x3000A030000 then some ((a - 0x3000A010000) / 2048)
    else none
  s.halfMode && field.any (fun f => bit (decide (4 ≤ f % 8)) ≠ s.fld F.DEV_MODE_STS_half)

/-! ## Reading a register -/

/-- The number of a context state (spec/19 CORE_CTX_STATE). -/
def CtxSt.code : CtxSt → Nat
  | .free => 0
  | .ready => 1
  | .running => 2
  | .waiting => 3
  | .faulted => 4

/-- What the registers of a ring show: CORE_RING_CFG, CORE_RING_PTR, CORE_RING_STS. -/
def ringShows (s : State) (n r o : Nat) : Option W64 :=
  let g := s.ring n r
  match o with
  | 0 => some (BitVec.ofNat 64 ((g.n - 1) % 64 * 2 ^ 58 + g.cbytes % 2 ^ 26 * 2 ^ 32 + bit g.configured * 2 ^ 31 + g.base % 2 ^ 26))
  | 8 => some (BitVec.ofNat 64 (g.cr * 2 ^ 24 + g.ca * 2 ^ 16 + g.pr * 2 ^ 8 + g.pa))
  | 0x10 =>
    some (BitVec.ofNat 64 (s.endHolder n r false * 16 + s.endHolder n r true * 4 + bit g.halt.isSome * 2 + bit g.aborted))
  | _ => none

/-- What the registers of a core that have no storage of their own show, by offset (spec/19 Table 19-12). -/
def coreShows (s : State) (n o : Nat) : Option W64 :=
  let c := s.core n
  if o = 0 then some (BitVec.ofNat 64 (((List.range 8).map (fun k => (c.ctx k).st.code * 16 ^ k)).sum))
  else if o = 0x48 then some (BitVec.ofNat 64 (bit c.invalBusy))
  else if o = 0x68 then some (BitVec.ofNat 64 (c.snow.depth % 2 ^ 38))
  else if o = 0x70 then some (BitVec.ofNat 64 (c.snow.recs.length % 2 ^ 32))
  else if 0x1000 ≤ o ∧ o < 0x1800 then ringShows s n ((o - 0x1000) / 0x80) ((o - 0x1000) % 0x80)
  else none

/-- What a register shows that has no storage of its own. -/
def State.shown (s : State) (a : Nat) : Option W64 :=
  if a < 0x30000000000 then coreShows s ((a - 0x20000000000) / 0x4000000) ((a - 0x20000000000) % 0x4000000 - 0x3000000)
  else if 0x30001000000 ≤ a ∧ a < 0x30001400000 ∧ a % 0x10000 = 0 then
    let f := (a - 0x30001000000) / 0x10000
    some (BitVec.ofNat 64 (bit (decide (4 ≤ f % 8)) * 2 ^ 16 + f / 8 * 2 ^ 12 + f % 8 * 2 ^ 8 + f))
  else if 0x30005000000 ≤ a ∧ a < 0x30005200000 ∧ (a % 0x10000 = 0x30 ∨ a % 0x10000 = 0x38) then
    some ((Config.mac ((a - 0x30005000000) / 0x10000) (if a % 0x10000 = 0x30 then 0 else 1)).setWidth 64)
  else if a = F.WSTREAM_VERSION.addr then some (BitVec.ofNat 64 s.wver)
  else if F.WSTREAM_CFG_DIGEST_w0.addr ≤ a ∧ a < F.WSTREAM_CFG_DIGEST_w0.addr + 64 then
    some (if s.ws.args.isNone then 0 else BitVec.ofNat 64 (numAt (cfgDigest s) (a - F.WSTREAM_CFG_DIGEST_w0.addr) 8))
  else if a = F.EVT_HEAD.addr then some (BitVec.ofNat 64 s.evHead)
  else none

/-- The bits of a word that a read returns (spec/00 Table 00-2): all but those of write-only fields and reserved ones. -/
def readMask (a : Nat) : W64 :=
  (rowsAt a).foldl (fun m r => if r.acc = .act ∨ r.acc = .arg then m else m ||| (BitVec.ofNat 64 (2 ^ r.w - 1) <<< r.lo)) 0

/-- The value of a word at this moment. -/
def State.regLive (s : State) (a : Nat) : W64 :=
  if s.lostReg a then 0
  else
    match s.shown a with
    | some v => v
    | none => s.reg a &&& readMask a

/-- The read-only status groups of more than one word (spec/19 R429): first word, stride and number of instances, words. -/
def roGroups : List (Nat × Nat × Nat × Nat) :=
  [(0x30005000030, 0x10000, 32, 2), (0x30006000120, 0, 1, 8), (0x30006000160, 0, 1, 8), (0x30007000018, 0, 1, 9), (0x300070000E8, 0, 1, 3),
   (0x30008000018, 0, 1, 2), (0x30008000048, 0, 1, 9), (0x30008000190, 0, 1, 2), (0x30008002000, 16, 8, 2), (0x30009000070, 0, 1, 2),
   (0x3000B000000, 64, 8, 8), (0x3000B000218, 0, 1, 8)]

/-- The same groups of a core, by offset. -/
def roGroupsCore : List (Nat × Nat × Nat × Nat) :=
  [(0x68, 0, 1, 2), (0x100, 16, 8, 2), (0x200, 16, 8, 2), (0x1020, 0x80, 16, 2), (0x1030, 0x80, 16, 2), (0x1800, 0x40, 8, 2)]

/-- The first word and the words of the group of a list that holds an address. -/
def groupIn (l : List (Nat × Nat × Nat × Nat)) (a : Nat) : Option (Nat × Nat) :=
  l.findSome? (fun g =>
    if a < g.1 then none
    else
      let i := if g.2.2.1 ≤ 1 then 0 else (a - g.1) / g.2.1
      let b := g.1 + i * g.2.1
      if i < g.2.2.1 ∧ a < b + 8 * g.2.2.2 then some (b, g.2.2.2) else none)

/-- The read-only status group that holds an address. -/
def roGroup (a : Nat) : Option (Nat × Nat) :=
  if a < 0x30000000000 then
    let base := 0x20000000000 + (a - 0x20000000000) / 0x4000000 * 0x4000000 + 0x3000000
    (groupIn roGroupsCore (a - base)).map (fun p => (base + p.1, p.2))
  else groupIn roGroups a

/-- The counters that count cycles (spec/03 R52, spec/06 R136, spec/08 R170, R173, R187, spec/09 R198, spec/14 R322, spec/16 R366). -/
def cycleCounter (a : Nat) : Bool :=
  if a < 0x30000000000 then
    let o := (a - 0x20000000000) % 0x4000000 - 0x3000000
    [0x300, 0x340, 0x380, 0x3B0, 0x410, 0x420, 0x430, 0x440, 0x490, 0x4A0, 0x4B0, 0x4C0].contains o || decide (0x1000 ≤ o ∧ o < 0x1800 ∧ o % 0x80 = 0x40)
  else decide (a = F.CKPT_CA_WAIT_CNT.addr) || decide (0x3000A001000 ≤ a ∧ a < 0x3000A005000 ∧ a % 16 = 0)

/-- A counter of cycles at a moment at which it is observed: it has risen by a free number since, and saturates as any counter (log 190). -/
def cyclesPass (a : Nat) (s : State) : State := (s.bumpBy ⟨a, 0, 64⟩ (Config.freeWord s.free).toNat).tick

/-- A read of an aligned word of register space. W0 of a status group takes a snapshot of the group (R429). A counter of cycles has
risen by a free number since it was last read or cleared: the model keeps no time (log 190). -/
def State.regRead (s : State) (a : Nat) : State × W64 :=
  if cycleCounter a && !s.lostReg a then (cyclesPass a s, (cyclesPass a s).reg a) else
  match roGroup a with
  | none => (s, s.regLive a)
  | some (b, k) =>
    if a = b then
      ({ s with snap := (List.range k).foldl (fun m j => Sparse.put m (b + 8 * j) (s.regLive (b + 8 * j))) s.snap }, s.regLive a)
    else (s, (Sparse.find s.snap a).getD (s.regLive a))

/-- A read of bytes of register space: only aligned 64-bit words are read; a narrower or misaligned access reads zero (spec/00 R6). -/
def State.regBytes (s : State) (a len : Nat) : State × List Byte :=
  if a % 8 ≠ 0 ∨ len % 8 ≠ 0 then (s, List.replicate len 0)
  else
    (List.range (len / 8)).foldl (fun p j =>
      let r := p.1.regRead (a + 8 * j)
      (r.1, p.2 ++ leBytes 8 r.2.toNat)) (s, [])

/-! ## Writing a register -/

/-- Whether the lock of a field allows a write (spec/19 R431). -/
def State.unlocked (s : State) : Lock → Bool
  | .none => true
  | .job => !s.jobLoaded
  | .fab => !s.joined

/-- Whether a value is one that a field of a word accepts: not a reserved encoding (spec/00 R8), within the values that the field is said to
accept (spec/10 R230), and in a state in which the field takes writes (spec/11 R232). -/
def State.accepts (s : State) (r : Row) (a x : Nat) : Bool :=
  !r.maxv.any (fun m => decide (m < x))
    && (if a = F.FABRIC_PRESS_CFG_win_log2.addr ∧ r.lo = 0 then decide (10 ≤ x ∧ x ≤ 24) else true)
    && (if (F.LINK_CFG_mode 0).addr ≤ a ∧ a < (F.LINK_CFG_mode 0).addr + 0x200000 ∧ a % 0x10000 = 0 ∧ r.lo = 0 then
          let st := s.fld (F.LINK_STS_state ((a - (F.LINK_CFG_mode 0).addr) / 0x10000))
          decide (st = 0 ∨ st = 6)
        else true)

/-- A write of one field. -/
def writeField (a : Nat) (v : W64) (s : State) (r : Row) : State :=
  let x := fieldOf v r.lo r.w
  match r.acc with
  | .rw => if s.unlocked r.lock && s.accepts r a x then s.setReg a (insertBits (s.reg a) r.lo r.w x) else s
  | .arg => s.setReg a (insertBits (s.reg a) r.lo r.w x)
  | .w1c => s.setReg a (s.reg a &&& ~~~(BitVec.ofNat 64 x <<< r.lo))
  | .ctl =>
    if r.lo = 1 ∧ x = 1 then (s.setReg (a - 8) 0).setReg a (insertBits (s.reg a) 0 1 0) else s
  | .ro | .act | .rs | .ctr => s

/-- The event of the rule that owns a locked word (spec/02 R35, spec/09 R192, spec/11 R249). -/
def lockedEvent (a : Nat) : Option Nat :=
  if a = F.DEV_NODE_ID_node_id.addr ∨ a = F.DEV_ADDR_CFG_node_format.addr ∨ a = F.DEV_HIER_GRP_g_hall.addr
      ∨ (0x30000000200 ≤ a ∧ a < 0x30000000800) then some EV.ADDR_CFG_LOCKED
  else if a = F.DEV_EXEC_CFG_mode.addr then some EV.EXEC_CFG_LOCKED
  else none

/-- A write of the fields of a word that are not actions. -/
def plainWrite (a : Nat) (v : W64) (s : State) : State :=
  let rows := rowsAt a
  let s1 := rows.foldl (writeField a v) s
  match lockedEvent a with
  | some ev => if rows.any (fun r => !s.unlocked r.lock) then s1.raiseDev ev [] else s1
  | none => s1

/-- The free contents of slot `k` of a checkpoint pool (log 95). -/
def poolBytes (s : State) (k : Nat) : List Byte := Config.poolSlot s.free k

/-- A write of CKPT_CTL W0: scan and freeze_now. -/
def ckptCtl (v : W64) (s : State) : State :=
  let s1 := if v.getLsbD 0 ∧ s.isSelf s.rootNode then s.setCk { s.ckpt with due := true } else s
  if v.getLsbD 1 then
    ((List.range (Nat.min 8 (s1.fld F.CKPT_POOL_keep))).foldl (fun st j => scanSlot j (poolBytes s j) st) s1).tick
  else s1

/-- A write of the action words of device registers: none for a word that has no action. `org` is the core that writes. -/
def devAction (org : Option Nat) (a : Nat) (v : W64) (s : State) : Option State :=
  let one := v.getLsbD 0
  if a = F.DEV_LGRP_CTL_admit.addr then some (if one then lgrpAdmit s else s)
  else if a = F.DEV_LODGE_CTL_restart.addr then some (if one then lodgeRestart 2 s else s)
  else if a = F.DEV_JOIN_CTL_join.addr then some (if one then join s else s)
  else if a = F.DEV_RESET_CTL_warm.addr then some (if one then resetWarm s else s)
  else if a = F.DEV_RUNOUT_CTL_start.addr then
    some (let s1 := if one then runoutStart s else s; if v.getLsbD 1 then runoutNow s1 else s1)
  else if a = F.DEV_TIME_SET.addr then some (timeSet v s)
  else if 0x30005000000 ≤ a ∧ a < 0x30005200000 ∧ a % 0x10000 = 0x10 then
    some (if one then linkRetrain ((a - 0x30005000000) / 0x10000) s else s)
  else if 0x30005000000 ≤ a ∧ a < 0x30005200000 ∧ 0x8000 ≤ a % 0x10000 ∧ a % 0x10000 < 0xC000 ∧ a % 64 = 0 then
    let q := (a - 0x30005000000) / 0x10000 * 256 + (a % 0x10000 - 0x8000) / 64
    some (let s1 := plainWrite a v s; if s1.qpState q = 0 then s1.setQpT q {} else s1)
  else if a = F.WSTREAM_JOB_go.addr then some (jobGo v s)
  else if F.WSTREAM_JOB_job_id.addr ≤ a ∧ a < F.WSTREAM_JOB_job_id.addr + 80 then some (jobWord a v s)
  else if a = F.WSTREAM_JOB_CTL_end.addr then some (jobCtl v s)
  else if a = F.WSTREAM_PLAN_CTL_load.addr then some (if one then planLoad s else s)
  else if a = F.WSTREAM_VERSION.addr then some (if s.flag F.WSTREAM_VERSION_CFG_track then s else plainWrite a v s)
  else if a = F.WSTREAM_BUF_REL.addr then some (bufRelease (org.getD 1023) (fieldOf v 0 16) s)
  else if a = F.WSTREAM_WBQ_dest.addr then some (wbqWrite (org.getD 1023) v s)
  else if a = F.WSTREAM_KEY_SLOT_w63.addr then some (keySlotWrite v s)
  else if a = F.RED_PLAN_CTL_load.addr then some (if one then gradPlanLoad s else s)
  else if a = F.RED_CHAIN_CTL_arm.addr then some (if one then chainArm s else s)
  else if a = F.CKPT_TENS_CTL_load.addr then some (if one then tensLoad s else s)
  else if a = F.CKPT_UPD_done_step.addr then some (updWrite v s)
  else if a = F.CKPT_CTL_scan.addr then some (ckptCtl v s)
  else if a = F.CKPT_CTL_promote.addr then
    some (promote (fieldOf v 0 16) (poolBytes s (s.fld F.CKPT_CTL_promote_freeze % Nat.max 1 (s.fld F.CKPT_POOL_keep))) s).tick
  else if a = F.CKPT_CTL_load.addr then some (ckptLoad (fieldOf v 0 32) (poolBytes s 0) (poolBytes s 1) s).tick
  else if a = F.CKPT_CTL_adopt_step.addr then some (adopt v.toNat (poolBytes s 0) s).tick
  else if a = F.CKPT_BUDDY_step.addr then
    some (s.setCk { s.ckpt with buddy := some (v.toNat, s.fld F.CKPT_BUDDY_node, s.fld F.CKPT_BUDDY_bases) })
  else if a = F.PWR_CAP_CTL_cap_watts.addr then some (capWrite v s)
  else if a = F.PWR_CREV_CTL_recal.addr then some (crevRecal v (Config.crevBase s.free) s).tick
  else if a = F.PWR_SERVICE_STS_leak.addr then some (serviceClear v s)
  else if 0x30009001000 ≤ a ∧ a < 0x30009003000 then some (siteCtl ((a - 0x30009001000) / 8) (fieldOf v 0 2) s)
  else if a = F.SEC_FW_CTL_commit.addr then some (fwCommit v s)
  else none

/-- A write of the Snowpack's configuration (spec/09 R196). -/
def snowCfg (n a : Nat) (v : W64) (s : State) : State :=
  let c := s.core n
  if c.snow.depth = 0 ∧ c.snowU.run.isNone ∧ c.snowU.queue.isEmpty then plainWrite a v s
  else s.raiseCore EV.CORE_CFG_LOCKED n (leBytes 2 n)

/-- A write of a core's registers, by offset (spec/19 R441). -/
def coreWrite (n o : Nat) (v : W64) (s : State) : State :=
  if o = 0x10 then ctxResume n v s
  else if o = 0x18 then ctxKill n v s
  else if o = 0x20 then evSet n v s
  else if o = 0x28 then sramCfg n v s
  else if o = 0x40 then atuInval n v s
  else if o = 0x50 ∨ o = 0x58 ∨ o = 0x60 then snowCfg n (coreBase n + o) v s
  else if o = 0x80 then ctxStart n v s
  else if 0x1000 ≤ o ∧ o < 0x1800 ∧ o % 0x80 = 0x18 then ringCtl n ((o - 0x1000) / 0x80) v s
  else if 0x1800 ≤ o ∧ o < 0x1A00 ∧ o % 0x40 = 0x18 then slotCtl n ((o - 0x1800) / 0x40) v s
  else plainWrite (coreBase n + o) v s

/-- A write of an aligned word of register space. -/
def regWrite (org : Option Nat) (a : Nat) (v : W64) (s : State) : State :=
  if s.lostReg a then s
  else if a < 0x30000000000 then coreWrite ((a - 0x20000000000) / 0x4000000) ((a - 0x20000000000) % 0x4000000 - 0x3000000) v s
  else (devAction org a v s).getD (plainWrite a v s)

/-- A write of bytes of register space: only aligned 64-bit words act (spec/00 R6). -/
def regWriteBytes (org : Option Nat) (a : Nat) (bs : List Byte) (s : State) : State :=
  if a % 8 ≠ 0 ∨ bs.length % 8 ≠ 0 then s
  else (List.range (bs.length / 8)).foldl (fun st j => regWrite org (a + 8 * j) (BitVec.ofNat 64 (numAt bs (8 * j) 8)) st) s

/-! ## Accesses (spec/10 R220, R221) -/

/-- What became of an access: done, with the bytes read; failed with a code; absorbed with no answer; or it waits, and its command is
taken up again. -/
inductive Bus where
  | ok (data : List Byte)
  | fail (code : Nat)
  | lost
  | wait
  deriving DecidableEq, Repr

/-- An access through the core port of a core: absorbed and counted unless the port takes packets; a request is answered with
E_FABRIC_DEST_DOWN, a bulk write is not answered. In HOLD it waits, and is work for the site (spec/15 R352, spec/16 R369). -/
def throughPort (n : Nat) (bulk : Bool) (s : State) (f : State → State × Bus) : State × Bus :=
  if !s.portOpen n then (s.bump F.CORE_MAP_ABSORB_CNT, if bulk then .lost else .fail E.FABRIC_DEST_DOWN)
  else if s.flag F.PWR_STS_hold then (s.kick n, .wait)
  else f (s.kick n)

/-- A read of a local range. `remote` says that another node asks (spec/02 R37). -/
def busRead (remote : Bool) (a len : Nat) (s : State) : State × Bus :=
  match s.place a len with
  | .hole => (s, .fail E.ADDR_UNMAPPED)
  | .edge => let r := s.loadEdge a len; (r.1, .ok r.2)
  | .mem n => throughPort n false s (fun t => (t, .ok (t.mem.bytes a len)))
  | .regs n => throughPort n false s (fun t => let r := t.regBytes a len; (r.1, .ok r.2))
  | .dev => if remote then (s, .fail E.ADDR_UNMAPPED) else let r := s.regBytes a len; (r.1, .ok r.2)

/-- A write of a local range: `bulk` says that it travels as a bulk write (Table 10-4). A write of edge memory
that a Freeze or a dirty notice holds waits (spec/14 R318, R322). A start by register reaches a site in RET (spec/15 R341). -/
def busWrite (org : Option Nat) (remote bulk : Bool) (a : Nat) (bs : List Byte) (s : State) : State × Bus :=
  match s.place a bs.length with
  | .hole => (s, .fail E.ADDR_UNMAPPED)
  | .edge => if s.clear a bs.length then (s.storeEdge none a bs, .ok []) else (s.ask a bs.length, .wait)
  | .mem n => throughPort n bulk s (fun t => (t.store a bs, .ok []))
  | .regs n =>
    if a = coreBase n + 0x80 ∧ bs.length = 8 ∧ s.sitePower (s.siteOf n) = 1 then (regWriteBytes org a bs s, .ok [])
    else throughPort n bulk s (fun t => (regWriteBytes org a bs t, .ok []))
  | .dev => if remote then (s, .fail E.ADDR_UNMAPPED) else (regWriteBytes org a bs s, .ok [])

/-- An integer atomic (spec/04 R91): the new value from the old one, the operand and the compare value, at width `w` bytes. -/
def atomVal (op w : Nat) (old opnd cmp : Nat) : Nat :=
  let m := 2 ^ (8 * w)
  let x := old % m
  let y := opnd % m
  let sgn := fun (z : Nat) => if 2 * z < m then (z : Int) else (z : Int) - (m : Int)
  match op with
  | 0 => (x + y) % m
  | 1 => x &&& y
  | 2 => x ||| y
  | 3 => x ^^^ y
  | 4 => y
  | 5 => if x = cmp % m then y else x
  | 6 => if sgn x ≤ sgn y then x else y
  | 7 => if sgn x ≤ sgn y then y else x
  | 8 => Nat.min x y
  | _ => Nat.max x y

/-- An atomic at a local address: the old value. A misaligned one fails with a code that the manual does not give (log 1). -/
def busAtom (remote : Bool) (op w a opnd cmp : Nat) (s : State) : State × Bus :=
  if a % w ≠ 0 then (s.tick, .fail (fieldOf (Config.freeWord s.free) 0 16))
  else
    match s.place a w with
    | .edge =>
      if s.clear a w then
        let r := s.loadEdge a w
        (r.1.storeEdge none a (leBytes w (atomVal op w (leNat r.2) opnd cmp)), .ok r.2)
      else (s.ask a w, .wait)
    | _ =>
      match busRead remote a w s with
      | (s1, .ok old) => ((busWrite none remote false a (leBytes w (atomVal op w (leNat old) opnd cmp)) s1).1, .ok old)
      | r => r

end Sys2Proof.Machine
end

