-- ==== Sys2Proof/Machine/Access.lean ====
section
/-! DEFINITION. Scalar loads and stores and descriptor transfers (spec/04 R82), the completion of a stream's or slot's request (spec/08
R177-R182) and register writes by the runtime (spec/19 R428-R431). -/

namespace Sys2Proof

/-- The bytes of a format M access. -/
def IM.bytes (i : IM) : Nat := 2 ^ i.size.toNat

/-- The reserved fields of a format M word (spec/04 R70): x, bits [35:32], and sx unless the instruction loads; space 3. -/
def IM.legal (i : IM) (loads : Bool) : Bool := !i.x && decide (i.rsv = 0) && (loads || !i.sx) && decide (i.space.toNat ≠ 3)

/-- A descriptor transfer: size 3, and d names a descriptor register. -/
def IM.legalDesc (i : IM) : Bool := i.legal false && decide (i.size.toNat = 3) && decide (i.d.toNat < 16)

/-- The address: s[a] + imm modulo 2⁶⁴. -/
def IM.addr (i : IM) (x : Machine.Ctx) : Nat := (x.sr i.a.toNat + i.imm.signExtend 64).toNat

end Sys2Proof

namespace Sys2Proof.Machine

/-! ## Scalar accesses -/

/-- Where a scalar access leads: a place in the local space, a local physical address, a fault code, or a page-table walk. -/
inductive Lead where
  | own (a : Nat)
  | phys (a : Nat)
  | fault (code : Nat)
  | walk
  deriving DecidableEq, Repr

/-- Where an access of `w` bytes at an address leads (spec/04 R82, with the order of Table 04-16). -/
def leadOf (s : State) (n space addr w : Nat) (acc : Access) : Lead :=
  let bad := decide (addr % w ≠ 0)
  let code := fun (c : Nat) => Lead.fault (if bad then E.ALIGN else c)
  if space ≠ 0 then
    if bad ∨ spaceSize space < addr + w then code E.ADDR_UNMAPPED else .own (localAddr n space addr)
  else if 2 ^ 48 ≤ addr then code E.VA_NONCANON
  else
    match (s.core n).tlbFind addr with
    | none => .walk
    | some (big, e) =>
      if e.elsewhere s big addr then .fault E.SPACE
      else
        match checkEntry big e addr acc with
        | .fail c => code c
        | .ok ga => if bad then .fault E.ALIGN else .phys (ga % 2 ^ 42)

/-- A miss: it is counted, and the context waits for the walk (spec/03 R60). -/
def startWalk (n k addr w : Nat) (acc : Access) (s : State) : State :=
  let s1 := s.bump (F.CORE_ATU_MISS_CNT n)
  let c := s1.core n
  (s1.setCore n { c with
    walks := c.walks ++ [{ ctx := k, inc := (c.ctx k).inc, va := addr, acc := acc, misaligned := decide (addr % w ≠ 0) }] }).makeWait n k .walk

/-- The page of a hit becomes the most recently used of its TLB. -/
def touchTlb (n addr : Nat) (s : State) : State :=
  match (s.core n).tlbFind addr with
  | some (big, e) => s.setCore n ((s.core n).tlbUse big e)
  | none => s

/-- A scalar load of `w` bytes: its data returns later (spec/04 R76); `reg` says what register it is for. It waits while the fabric holds its request
back (spec/10 R222, R224). -/
def scalarLoad (n k space addr w : Nat) (reg : List Byte → Load) (s : State) : State :=
  let done := fun (st : State) (bs : List Byte) =>
    let x := st.ctx n k
    st.setCtx n k ({ x with loads := x.loads ++ [reg bs] }.adv 8)
  match leadOf s n space addr w .read with
  | .fault code => s.faultCtx n k code addr
  | .walk => startWalk n k addr w .read s
  | .own a => done s (s.mem.bytes a w)
  | .phys a =>
    if !s.fabOpen n a 0 then s
    else
    let s1 := touchTlb n addr s
    match busRead false a w s1 with
    | (s2, .ok bs) => done (s2.carry n a 0 w) bs
    | (s2, .fail code) => (s2.carry n a 0 0).faultCtx n k code addr
    | (s2, _) => s2

/-- A scalar store of bytes. The pc advances before the write, which may change anything. It waits as a load does. -/
def scalarStore (n k space addr : Nat) (bs : List Byte) (s : State) : State :=
  match leadOf s n space addr bs.length .write with
  | .fault code => s.faultCtx n k code addr
  | .walk => startWalk n k addr bs.length .write s
  | .own a => (s.store a bs).advance n k 8
  | .phys a =>
    if !s.fabOpen n a 0 then s
    else
    let s1 := touchTlb n addr s
    match busWrite (some n) false false a bs s1 with
    | (s2, .fail code) => (s2.carry n a bs.length 0).faultCtx n k code addr
    | (s2, .wait) => s2
    | _ => (busWrite (some n) false false a bs ((s1.carry n a bs.length 0).advance n k 8)).1

/-- LD: s[d] from s[a] + imm. -/
def execLd (i : IM) (s : State) : Host.Outcome State Fault Refusal :=
  go (issue i.n i.k i.pg i.pn 8 (i.legal true) [i.a.toNat] [] s fun s =>
    scalarLoad i.n i.k i.space.toNat (i.addr (s.ctx i.n i.k)) i.bytes
      (fun bs => { desc := false, reg := i.d.toNat,
                   data := BitVec.ofNat 256 (if i.sx then ((BitVec.ofNat (8 * i.bytes) (leNat bs)).signExtend 64).toNat else leNat bs) }) s)

/-- ST: the low bytes of s[d] to s[a] + imm. -/
def execSt (i : IM) (s : State) : Host.Outcome State Fault Refusal :=
  go (issue i.n i.k i.pg i.pn 8 (i.legal false) [i.a.toNat, i.d.toNat] [] s fun s =>
    scalarStore i.n i.k i.space.toNat (i.addr (s.ctx i.n i.k)) (leBytes i.bytes ((s.ctx i.n i.k).sr i.d.toNat).toNat) s)

/-- TLD: t[d] from s[a] + imm. -/
def execTld (i : IM) (s : State) : Host.Outcome State Fault Refusal :=
  go (issue i.n i.k i.pg i.pn 8 i.legalDesc [i.a.toNat] [i.d.toNat] s fun s =>
    scalarLoad i.n i.k i.space.toNat (i.addr (s.ctx i.n i.k)) 32
      (fun bs => { desc := true, reg := i.d.toNat, data := BitVec.ofNat 256 (leNat bs) }) s)

/-- TST: t[d] to s[a] + imm. -/
def execTst (i : IM) (s : State) : Host.Outcome State Fault Refusal :=
  go (issue i.n i.k i.pg i.pn 8 i.legalDesc [i.a.toNat] [i.d.toNat] s fun s =>
    scalarStore i.n i.k i.space.toNat (i.addr (s.ctx i.n i.k)) (leBytes 32 ((s.ctx i.n i.k).tr i.d.toNat).toNat) s)

/-! ## Requests of streams and slots -/

/-- Request `j` of a stream, or the request of a slot, when it waits for its answer. -/
def waitingReq (s : State) (n src j : Nat) : Option Req :=
  let q := if src < 16 then (s.ring n src).lists.head?.bind (fun l => l.reqs[j]?) else (Sparse.find (s.core n).slots (src - 16)).bind (·.req)
  q.filter (fun q => decide (q.stage = .wait))

/-- The access that a request makes at a local address. -/
def reqAccess (n src a : Nat) (q : Req) (s : State) : State × Bus :=
  if src < 16 then
    if (s.ring n src).lists.head?.any (·.inbound) then busRead false a q.len s else busWrite (some n) false true a q.data s
  else
    match Sparse.find (s.core n).slots (src - 16) with
    | none => (s, .wait)
    | some v =>
      match v.op with
      | .rget => busRead false a q.len s
      | .rput => busWrite (some n) false true a q.data s
      | .ratom => busAtom false v.aop v.total a v.opnd.toNat v.cmp.toNat s
      | .rcopy => if v.half then busWrite (some n) false true a q.data s else busRead false a q.len s

/-- The channel of the packet that makes the access of a request: STREAM for a bulk write, REQ for a read or an atomic (spec/10 Table 10-4). -/
def reqVc (s : State) (n src : Nat) : Nat :=
  if src < 16 then (if (s.ring n src).lists.head?.any (·.inbound) then 0 else 2)
  else match Sparse.find (s.core n).slots (src - 16) with
    | some v => (match v.op with | .rput => 2 | .rcopy => if v.half then 2 else 0 | _ => 0)
    | none => 0

/-- A request whose bulk write was absorbed: no answer will come (spec/10 R220). -/
def reqLost (n src j : Nat) (q : Req) (s : State) : State :=
  let q1 := { q with phys := none }
  if src < 16 then
    let g := s.ring n src
    match g.lists with
    | l :: _ => setReq n src s g l j q1
    | [] => s
  else
    match Sparse.find (s.core n).slots (src - 16) with
    | some v => s.setSlot n (src - 16) { v with req := some q1 }
    | none => s

/-- A request completes. One to this engine makes its access now, unless the fabric holds its packet back (spec/10 R222, R224); one to another node is answered by `resp`. -/
def streamResponse (n src j : Nat) (resp : Response) (s : State) : State :=
  match waitingReq s n src j with
  | none => s
  | some q =>
    match q.phys, q.tag with
    | some a, _ =>
      if !s.fabOpen n a (reqVc s n src) then s
      else
      match reqAccess n src a q s with
      | (s1, .ok data) => streamAnswer n src j (.ok data) ((s1.carry n a q.data.length data.length).kick n)
      | (s1, .fail code) => streamAnswer n src j (.fail (BitVec.ofNat 16 code)) ((s1.carry n a q.data.length 0).kick n)
      | (s1, .lost) => reqLost n src j q s1
      | (s1, .wait) => s1
    | none, some t => streamAnswer n src j resp ((s.dropReq t).kick n)
    | none, none => s

/-- STREAM_RESPONSE. -/
def execStreamResponse (core : BitVec 10) (req : StreamReq) (resp : Response) (s : State) : Host.Outcome State Fault Refusal :=
  go (s.unlessStopped core.toNat (streamResponse core.toNat req.src.toNat req.idx.toNat resp))

/-! ## Register writes -/

/-- Whether a word of register space lies at an address. -/
def State.isRegister (s : State) (a : Nat) : Bool :=
  match s.place a 8 with
  | .regs _ | .dev => true
  | _ => false

/-- REGISTER_WRITE: an access of 2^size bytes; only an aligned 64-bit one acts (spec/00 R6). -/
def execRegisterWrite (addr : BitVec 42) (size : BitVec 2) (value : W64) (s : State) : Host.Outcome State Fault Refusal :=
  go (if size.toNat = 3 ∧ addr.toNat % 8 = 0 ∧ s.isRegister addr.toNat then regWrite none addr.toNat value s else s)

/-- COUNTER_CLEAR: a write of a counter's control word. -/
def execCounterClear (addr : BitVec 42) (value : W64) (s : State) : Host.Outcome State Fault Refusal :=
  go (if addr.toNat % 8 = 0 ∧ s.isRegister addr.toNat ∧ (rowsAt addr.toNat).any (fun r => decide (r.acc = .ctl)) then
      regWrite none addr.toNat value s else s)

end Sys2Proof.Machine
end

