-- ==== Sys2Proof/Machine/Digest.lean ====
section
/-! DEFINITION. CKDIG, the digest of a tensor (spec/04 R93). -/

namespace Sys2Proof.Machine

/-- The SRAM offset of the result. -/
def digOff (x : UCmd) : Nat := fieldOf x.ext 0 26

/-- The check of CKDIG. -/
def ckdigCheck (i : IT) (s : State) (x : UCmd) : Option Nat :=
  firstFault s i.n [x.opA i] { align := decide (digOff x % 64 ≠ 0), unmapped := decide (0x3000000 < digOff x + 64) }

/-- CKDIG. -/
def execCkdig (i : IT) (s : State) : Host.Outcome State Fault Refusal :=
  go (issueUnit .digest .ckdig i (legalT i false true false false 0 true false 0x3FFFFFF) false true false false [] (ckdigCheck i) noPut s)

/-- The digest of the packed bytes, without the block scales of an MX tensor, goes to SRAM. -/
def digRun (s : State) (n : Nat) (x : UCmd) : State × Flags := (s.lstore n 1 (digOff x) (sha512 (s.packed n x.tA)), Flags.none)

/-- DIGEST_DONE. -/
def execDigestDone (core : BitVec 10) (s : State) : Host.Outcome State Fault Refusal := go (unitDone core.toNat .digest digRun s)

end Sys2Proof.Machine
end

