-- ==== Sys2Proof/Machine/Fabric.lean ====
section
/-! DEFINITION. Packets on the fabric (spec/10): injection, arbitration and transport through the mesh, execution at their destination, and the
pressure windows. -/

namespace Sys2Proof.Machine

/-! ## Execution (R220, R221) -/

/-- A request or bulk write is executed at its destination and answered by the port it came to, once there is room for the answer (R223); a
response, or a packet of the reduction, ends here: its command is another one (log 99). The flag says that it has been taken. The manual gives
an AT of an operation 10 to 15 no effect; here it acts as 9 (DESIGN CHOICE, log 98). -/
def fabExecute (x y port : Nat) (p : FabPkt) (s : State) : State × Bool :=
  let a := p.local_
  let org := if p.src < 896 then some p.src else none
  if (p.type = 0 ∨ p.type = 1 ∨ p.type = 2 ∨ p.type = 6) ∧ !s.fabRoom x y port 1 then (s, false)
  else
    match p.type with
    | 0 =>
      if p.len = 0 ∨ 2048 < p.len then (s, true)
      else
        match busRead false a p.len s with
        | (s1, .ok data) => (s1.fabData x y port p data, true)
        | (s1, .fail code) => (s1.fabFail x y port p code, true)
        | (s1, .lost) => (s1, true)
        | (s1, .wait) => (s1, false)
    | 1 | 6 =>
      if p.data.isEmpty ∨ !p.fits then (s, true)
      else
        match busWrite org false (decide (p.type = 6)) a p.data s with
        | (s1, .ok _) => (s1.fabRespond x y port p 4 [], true)
        | (s1, .fail code) => (s1.fabFail x y port p code, true)
        | (s1, .lost) => (s1, true)
        | (s1, .wait) => (s1, false)
    | 2 =>
      match busAtom false p.aop.toNat (if p.aw then 8 else 4) a (numAt p.data 0 8) (numAt p.data 8 8) s with
      | (s1, .ok old) => (s1.fabRespond x y port p 5 old, true)
      | (s1, .fail code) => (s1.fabFail x y port p code, true)
      | (s1, .lost) => (s1, true)
      | (s1, .wait) => (s1, false)
    | _ => (s, true)

/-- A packet reaches a link (spec/11 R247): its rim logic sends it on to the node of its address, on VC1; what cannot leave yet waits, what
cannot leave at all is answered with its code. One whose payload is not what its length says (R216) does not. A reduction packet ends at RED (log 99). -/
def fabToLink (x y port k : Nat) (p : FabPkt) (s : State) : State × Bool :=
  let op : Option Nat := match p.type with | 0 => some opGet | 1 | 6 => some opPut | 2 => some opAtom | _ => none
  match op.filter (fun _ => p.fits) with
  | none => (s, true)
  | some op =>
    match s.sendReq { src := .fabric k p.src p.tag op, ep := p.src, vc := 0, node := p.node, op := op, addr := p.local_, len := p.len,
                      aop := p.aop.toNat, aw := p.aw, data := p.data } with
    | (s1, .sent _) => (s1, true)
    | (s1, .held) => (s1, false)
    | (s1, .fail code) => if s1.fabRoom x y port 1 then (s1.fabFail x y port p code, true) else (s1, false)

/-! ## Transport (R218, R222, R226) -/

/-- A packet leaves a router by an output port when there is a credit for it: into the next router's buffer, or to its endpoint. The flag says
that it has left. -/
def fabPass (x y port : Nat) (p : FabPkt) (s : State) : State × Bool :=
  let count := fun (st : State) => st.bumpBy (F.FABRIC_FLIT_CNT (fabLevel x y port)) p.flits
  if port < ptCore then
    if s.halfMode && decide (fabLevel x y port = 3) then (s.fabRefuse x y ptCore p, true)
    else
      let n := fabNext x y port
      if s.routerDead n.1 then (count s, true)
      else if s.fabRoom n.1 n.2.1 n.2.2 p.vc then (count ((s.out (.fab x y port p)).fabPush n.1 n.2.1 n.2.2 p), true) else (s, false)
  else if port = ptCore then
    let site := 16 * (8 * (y / 4) + x / 4) + 4 * (y % 4) + x % 4
    if s.sitePower site < 2 ∨ s.fld (F.CORE_MAP_SITE_STATE_state site) = 3 then
      if p.vc = 0 ∧ !s.fabRoom x y port 1 then (s, false) else ((s.bump F.CORE_MAP_ABSORB_CNT).fabFail x y port p E.FABRIC_DEST_DOWN, true)
    else if s.flag F.PWR_STS_hold then (s.kickSite site, false)
    else
      let r := fabExecute x y port p (s.kickSite site)
      (if r.2 then count r.1 else r.1, r.2)
  else
    let r := if isLinkEp p.dst then fabToLink x y port (p.dst - 0x420) p s else fabExecute x y port p s
    (if r.2 then count r.1 else r.1, r.2)

/-- The first of a list of requesters, as 4 * input + channel, whose packet for an output can leave is granted. -/
def fabFirst (x y port : Nat) : List Nat → State → State × Bool
  | [], s => (s, false)
  | r :: rs, s =>
    let key := fabKey x y (r / 4) (r % 4)
    match s.fabBuf key with
    | [] => fabFirst x y port rs s
    | p :: _ =>
      if fabPort x y p ≠ port then fabFirst x y port rs s
      else
        let q := fabPass x y port p s
        if q.2 then
          let t := q.1.setFabBuf key ((q.1.fabBuf key).drop 1)
          ({ t with fab := { t.fab with last := Sparse.put t.fab.last (fabOut x y port) r } }, true)
        else fabFirst x y port rs q.1

/-- An output port grants one packet, in turn after the pair granted last (R226). The manual names no order of the pairs and no pair to start from:
here they go by input, N, E, S, W, core, rim, then channel, and before any grant the first pair's turn is next (DESIGN CHOICE, log 204). -/
def fabGrant (x y port : Nat) (s : State) : State × Bool :=
  let last := Sparse.get s.fab.last 35 (fabOut x y port)
  fabFirst x y port ((List.range 36).map (fun j => (last + 1 + j) % 36)) s

/-- The output ports that a packet at the head of some buffer asks for. -/
def fabHeads (s : State) : List (Nat × Nat × Nat) :=
  (s.fab.bufs.filterMap (fun b =>
    let r := b.1 / 64
    b.2.head?.map (fun p => (r % 32, r / 32, fabPort (r % 32) (r / 32) p)))).eraseDups

/-- Every output port that is asked for grants one packet if it can. -/
def fabSweep (s : State) : State × Bool :=
  (fabHeads s).foldl (fun (q : State × Bool) t =>
    let r := fabGrant t.1 t.2.1 t.2.2 q.1
    (r.1, q.2 || r.2)) (s, false)

/-- The endpoints' ports at which packets wait for a credit. -/
def fabPorts (s : State) : List (Nat × Nat × Nat) := (s.fab.waits.map (fun b => (b.1 / 64 % 32, b.1 / 64 / 32, b.1 / 4 % 16))).eraseDups

/-- An endpoint injects one of the packets that wait there: its channels take turns (R226, Table 10-6). -/
def fabEndpoint (x y port : Nat) (s : State) : State × Bool :=
  let out := fabOut x y (port + 5)
  let last := Sparse.get s.fab.last 3 out
  match ((List.range 4).map (fun j => (last + 1 + j) % 4)).find? (fun v => !(s.fabWaits (fabKey x y port v)).isEmpty && s.fabRoom x y port v) with
  | none => (s, false)
  | some v =>
    match s.fabWaits (fabKey x y port v) with
    | [] => (s, false)
    | p :: ps =>
      let t := (s.setFabWaits (fabKey x y port v) ps).fabEnter x y port p
      ({ t with fab := { t.fab with last := Sparse.put t.fab.last out v } }, true)

/-- Every endpoint at which packets wait injects one if it can. -/
def fabSources (s : State) : State × Bool :=
  (fabPorts s).foldl (fun (q : State × Bool) t =>
    let r := fabEndpoint t.1 t.2.1 t.2.2 q.1
    (r.1, q.2 || r.2)) (s, false)

/-- Packets advance until every one that is left waits. -/
def fabGo : Nat → State → State
  | 0, s => s
  | fuel + 1, s =>
    if s.fab.bufs.isEmpty && s.fab.waits.isEmpty then s
    else
      let q := fabSources s
      let r := fabSweep q.1
      if q.2 || r.2 then fabGo fuel r.1 else r.1

/-- The mesh runs: each packet has at most 64 hops, and its answers as many. -/
def fabTick (s : State) : State := fabGo (256 * ((s.fab.bufs ++ s.fab.waits).map (fun b => b.2.length)).sum) s

/-! ## Arrival (R218, R221, R223) -/

/-- The input port by which a packet comes to a router: its source's own port there, else the side on which dimension order brings it. -/
def State.fabIn (s : State) (x y : Nat) (p : FabPkt) : Nat :=
  match s.endpointAt p.src p.dst p.local_ with
  | some (sx, sy, dport) =>
    if sx = x ∧ sy = y then injectPort p.src dport
    else if sy = y then (if sx < x then ptW else ptE)
    else if sy < y then ptN
    else ptS
  | none => ptCore

/-- Whether an exit exists at a site: the core's, or a rim port on a side that the site lies on. -/
def exitAt (x y dport : Nat) : Bool :=
  decide (dport = 0) || (decide (dport = 1) && decide (y = 0 ∨ y = 31)) || (decide (dport = 2) && decide (x = 0 ∨ x = 31))

/-- A packet reaches the router at (x, y). From its source's port it is injected: the route table gives it its coordinates, and one for the
lost half is refused (R22). A packet from another router for which its buffer has no room waits where it is: the command is sent again (log 193). -/
def fabArrive (x y : Nat) (p : FabPkt) (s : State) : State :=
  if s.routerLost x || s.routerDead x then s
  else if fabVc p.type ≠ some p.vc then
    (s.bump F.FABRIC_BAD_PKT_CNT).raiseDev EV.FABRIC_BAD_PKT (leBytes 1 x ++ leBytes 1 y ++ leBytes 8 p.hdr.toNat)
  else
    let i := s.fabIn x y p
    let q := if ptCore ≤ i then s.translate p else p
    if !exitAt q.dx q.dy q.dport then s
    else if ptCore ≤ i ∧ s.routerLost q.dx then fabTick (s.fabRefuse x y i q)
    else if ptCore ≤ i then fabTick (s.fabInject x y i q)
    else if s.fabRoom x y i q.vc then fabTick (s.fabPush x y i q)
    else s

/-- FABRIC_PACKET_ARRIVE. -/
def execFabricPacketArrive (x y : BitVec 5) (pkt : FabPkt) (s : State) : Host.Outcome State Fault Refusal := go (fabArrive x.toNat y.toNat pkt s)

/-! ## Pressure (R229, R230) -/

/-- One port's reading: its waiting cycles are counted, the reading giving them up to 1/256 of the window (log 193); at its level's threshold it raises the event, or is counted when its level has raised
one in this window. -/
def pressPort (p : State × List Nat) (g : PressSample) : State × List Nat :=
  let s := p.1
  let win := 2 ^ s.fld F.FABRIC_PRESS_CFG_win_log2
  let cycles := Nat.min win (g.frac * (win / 256) + (Config.freeWord s.free).toNat % (win / 256))
  let s1 := (s.bumpBy (F.FABRIC_PRESS_CNT g.level) cycles).tick
  let s2 :=
    if g.level = 2 ∨ g.level = 3 then s1.bumpBy (F.FIELD_SEAM_PRESS_CNT (8 * (g.y.toNat / 4) + g.x.toNat / 4) (g.port.toNat % 4)) cycles else s1
  let thr := fieldOf (s.reg F.FABRIC_PRESS_CFG_win_log2.addr) (8 + 8 * g.level) 8
  if 4 < g.level then p
  else if thr = 0 ∨ g.frac < thr then (s2, p.2)
  else if p.2.contains g.level then (s2.bump F.FABRIC_PRESS_SUPP_CNT, p.2)
  else
    (s2.raiseDev EV.FABRIC_PRESSURE
      (leBytes 1 g.level ++ leBytes 1 g.x.toNat ++ leBytes 1 g.y.toNat ++ leBytes 1 g.port.toNat ++ leBytes 2 g.frac), g.level :: p.2)

/-- FABRIC_PRESS_WINDOW. -/
def execFabricPressWindow (ports : List PressSample) (s : State) : Host.Outcome State Fault Refusal := go (ports.foldl pressPort (s, [])).1

end Sys2Proof.Machine
end

