-- ==== Sys2Proof/Machine/Mgmt.lean ====
section
/-! DEFINITION. The requests of the management protocol (spec/17 R386-R389, R392, R399, R401, Tables 17-4, 17-9, 17-13). -/

namespace Sys2Proof.Machine

/-! ## Requests and responses (R387) -/

end Sys2Proof.Machine

/-- The operation of a request when it is a reserved one (spec/17 Table 17-4). -/
def Sys2Proof.MgmtReq.reserved (r : Sys2Proof.MgmtReq) : Option (BitVec 16) := r.op.filter (fun o => decide (o.toNat = 0 ∨ 12 < o.toNat))

namespace Sys2Proof.Machine

/-- What a request does, from its body in a session of a role: the state, the status and the body of the response. -/
abbrev MgmtOp : Type := Session → List Byte → State → State × Nat × List Byte

/-- A response. A session that has missed records has E_EVT_GAP in its next good response (R406). -/
def respond (op k tag status : Nat) (body : List Byte) (s : State) : State :=
  let ses := Sparse.get s.lodge.sessions ({ role := 0 } : Session) k
  if ses.gap ∧ (status = 0 ∨ status = E.EVT_GAP) then
    ({ s with lodge := { s.lodge with sessions := Sparse.put s.lodge.sessions k ({ ses with gap := false } : Session) } }).out
      (.mgmt k (mgmtMsg op E.EVT_GAP tag body))
  else s.out (.mgmt k (mgmtMsg op status tag (if status = 0 ∨ status = E.EVT_GAP then body else [])))

/-- A request of an open session: its operation, the layout of its body, then the role, then its effect. In recovery only FW_STAGE is accepted. -/
def request (op : Nat) (layout : List Byte → Bool) (allowed : Session → List Byte → Bool) (f : MgmtOp) (r : MgmtReq) (s : State) : State :=
  let k := r.session.toNat
  let tag := r.tag.toNat
  match Sparse.find s.lodge.sessions k with
  | none => s
  | some ses =>
    if !s.portUp then s
    else if r.reserved.isSome then respond ((r.reserved.map (·.toNat)).getD op) k tag E.MGMT_FORMAT [] s
    else if r.rsv ≠ 0 ∨ r.status ≠ 0 ∨ 2 ^ 20 < r.body.length ∨ !layout r.body ∨ (s.lodge.recovery ∧ op ≠ 0x0009) then
      respond op k tag E.MGMT_FORMAT [] s
    else if !allowed ses r.body then respond op k tag E.MGMT_ROLE [] s
    else
      let p := f ses r.body s
      respond op k tag p.2.1 p.2.2 p.1

/-- The roles that may send a request. -/
def anyRole (_ : Session) (_ : List Byte) : Bool := true
def rackRole (ses : Session) (_ : List Byte) : Bool := decide (1 ≤ ses.role)
def operatorRole (ses : Session) (_ : List Byte) : Bool := decide (ses.role = 2)

/-- Whether bytes of a body are zero. -/
def zeroAt (b : List Byte) (o k : Nat) : Bool := decide (numAt b o k = 0)

/-! ## Registers (R389) -/

/-- Whether the words of a request lie in register space: device registers, and the registers in core windows. SRAM and side memory are not
reached, since no weight, activation or gradient passes the management port (spec/01 R12). -/
def State.wordsOk (s : State) (a n : Nat) : Bool :=
  (List.range n).all (fun i => match s.place (a + 8 * i) 8 with | .dev | .regs _ => true | _ => false)

/-- REG_READ. -/
def regReadOp : MgmtOp := fun _ b s =>
  let a := numAt b 0 8
  let n := numAt b 8 2
  if !s.wordsOk a n then (s, E.MGMT_FORMAT, [])
  else
    let p := (List.range n).foldl (fun (p : State × List Byte) i => let q := p.1.regBytes (a + 8 * i) 8; (q.1, p.2 ++ q.2)) (s, [])
    (p.1, 0, p.2)

/-- REG_READ. -/
def execRegRead (req : MgmtReq) (s : State) : Host.Outcome State Fault Refusal :=
  go (request 0x0001 (fun b => b.length = 16 && decide (1 ≤ numAt b 8 2 ∧ numAt b 8 2 ≤ 256) && zeroAt b 10 6) anyRole regReadOp req s)

/-- REG_WRITE: the SEC block is not written through it. -/
def regWriteOp : MgmtOp := fun _ b s =>
  let a := numAt b 0 8
  if !s.wordsOk a 1 then (s, E.MGMT_FORMAT, [])
  else if 0x3000B000000 ≤ a ∧ a < 0x3000C000000 then (s, E.MGMT_ROLE, [])
  else (regWriteBytes none a (b.drop 8) s, 0, [])

/-- REG_WRITE. -/
def execRegWrite (req : MgmtReq) (s : State) : Host.Outcome State Fault Refusal :=
  go (request 0x0002 (fun b => b.length = 16) operatorRole regWriteOp req s)

/-! ## Events, telemetry, wear -/

/-- EVT_READ. -/
def evtReadOp : MgmtOp := fun _ b s =>
  let r := evtFrom (numAt b 0 4) (numAt b 4 4) s
  (s, if r.2 then E.EVT_GAP else 0, evtBody r.1 (numAt b 0 4))

/-- EVT_READ. -/
def execEvtRead (req : MgmtReq) (s : State) : Host.Outcome State Fault Refusal :=
  go (request 0x0003 (fun b => b.length = 8 && decide (1 ≤ numAt b 4 4 ∧ numAt b 4 4 ≤ 32767)) anyRole evtReadOp req s)

/-- EVT_SUBSCRIBE: the records present, and from then on the new ones. -/
def evtSubOp (k : Nat) : MgmtOp := fun ses b s =>
  let first := numAt b 0 4
  let r := evtFrom first 32767 s
  let next := (r.1.getLast?.map (fun (e : EvtRec) => (e.seq + 1) % 2 ^ 32)).getD first
  ({ s with lodge := { s.lodge with sessions := Sparse.put s.lodge.sessions k ({ ses with sub := some next } : Session) } },
    if r.2 then E.EVT_GAP else 0, evtBody r.1 first)

/-- EVT_SUBSCRIBE. -/
def execEvtSubscribe (req : MgmtReq) (s : State) : Host.Outcome State Fault Refusal :=
  go (request 0x000C (fun b => b.length = 8 && zeroAt b 4 4) anyRole (evtSubOp req.session.toNat) req s)

/-- A telemetry frame in its slot (spec/15 Table 15-4). -/
def frameSlot (f : TelFrame) : List Byte :=
  let rec16 := fun (r : BitVec 128) => leBytes 16 r.toNat
  let recs := (f.recs.take 2128).flatMap rec16
  let temps := (f.temps.take 1094).flatMap (fun t => leBytes 2 t.toNat)
  leBytes 8 f.time.toNat ++ leBytes 8 f.seq ++ leBytes 2 2128 ++ leBytes 2 1094 ++ List.replicate 44 0
    ++ recs ++ List.replicate (34048 - recs.length) 0 ++ temps ++ List.replicate (2752 - temps.length) 0

/-- TEL_READ: from the first frame asked for, or the oldest still present. -/
def telReadOp : MgmtOp := fun _ b s =>
  let first := numAt b 0 8
  let fs := ((s.pwr.frames.filter (fun f => decide (first ≤ f.seq))).reverse).take (numAt b 8 4)
  (s, 0, leBytes 4 fs.length ++ leBytes 4 0 ++ leBytes 8 ((fs.head?.map (·.seq)).getD first) ++ fs.flatMap frameSlot)

/-- TEL_READ. -/
def execTelRead (req : MgmtReq) (s : State) : Host.Outcome State Fault Refusal :=
  go (request 0x0004 (fun b => b.length = 16 && decide (1 ≤ numAt b 8 4 ∧ numAt b 8 4 ≤ 28) && zeroAt b 12 4) anyRole telReadOp req s)

/-- The record of the wear log at an index of its ring, if one has been written there. -/
def State.wearAt (s : State) (i : Nat) : Option (List Byte) :=
  s.wear.log[(s.fld F.CLK_WEAR_LOG_HEAD + 65535 - i % 65536) % 65536]?

/-- WEAR_READ: the records from an index, up to the first that has not been written. -/
def wearReadOp : MgmtOp := fun _ b s =>
  let rs := ((List.range (numAt b 4 4)).map (fun j => s.wearAt (numAt b 0 4 + j))).takeWhile (·.isSome)
  (s, 0, leBytes 4 rs.length ++ leBytes 4 0 ++ rs.flatMap (fun r => r.getD []))

/-- WEAR_READ. -/
def execWearRead (req : MgmtReq) (s : State) : Host.Outcome State Fault Refusal :=
  go (request 0x0005 (fun b => b.length = 8 && decide (numAt b 0 4 ≤ 65535 ∧ 1 ≤ numAt b 4 4 ∧ numAt b 4 4 ≤ 16383)) anyRole wearReadOp req s)

/-! ## Attestation (R399) -/

/-- Bytes [1791:0] of a report. -/
def reportBody (nonce : List Byte) (s : State) : List Byte :=
  let ak := Config.ak s.idGen
  let wk := Config.wk s.idGen
  let flags := bit s.lodge.debug + 2 * bit s.lodge.opened + 4 * bit (s.flag F.DEV_MODE_STS_half_mode)
    + 8 * bit (s.flag F.DEV_MODE_STS_degraded) + 16 * bit s.lodge.recovery
  [0x58#8, 0x4A#8, 0x41#8, 0x54#8, 1#8] ++ leBytes 1 flags ++ leBytes 2 0 ++ leBytes 4 1 ++ [0xB0#8] ++ leBytes 3 0
    ++ leBytes 8 (s.reg F.DEV_FW_VERSION.addr).toNat ++ leBytes 4 (((s.fwCopy s.fwActive).map (·.svn.toNat)).getD 0)
    ++ leBytes 4 s.lodge.nsvn ++ leBytes 8 s.now.toNat ++ leBytes 4 (s.fld F.DEV_NODE_ID_node_id) ++ leBytes 20 0 ++ nonce
    ++ (List.range 8).flatMap (fun i => s.groupBytes (measFld i) 8) ++ sha512 ((s.record 4).getD [])
    ++ leBytes 512 ak.n ++ leBytes 4 ak.e ++ leBytes 512 wk.n ++ leBytes 4 wk.e ++ leBytes 56 0

/-- The report with its signature, and the certificates. -/
def attestOp : MgmtOp := fun _ b s =>
  let body := reportBody b s
  let ak := Config.ak s.idGen
  let sig := pssSign ak.n ak.d body ((List.range 64).map (fun i => Config.freeByte s.free i))
  let certs := (List.range 3).flatMap (fun i => let c := Config.cert i s.idGen; leBytes 4 c.length ++ c)
  (s.tick, 0, body ++ sig ++ certs)

/-- ATTEST. -/
def execAttest (req : MgmtReq) (s : State) : Host.Outcome State Fault Refusal :=
  go (request 0x0006 (fun b => b.length = 64) anyRole attestOp req s)

/-! ## Cap and keys -/

/-- CAP: written to PWR_CAP_CTL; E_CAP_SEQ when the write is ignored (spec/15 R347). -/
def capOp : MgmtOp := fun _ b s =>
  let seq := numAt b 8 4
  let v := BitVec.ofNat 64 (seq * 2 ^ 32 + numAt b 4 1 * 2 ^ 16 + Nat.min (numAt b 0 4) 30000)
  (capWrite v s, if seq ≤ s.fld F.PWR_CAP_STS_seq then E.CAP_SEQ else 0, [])

/-- CAP. -/
def execCap (req : MgmtReq) (s : State) : Host.Outcome State Fault Refusal :=
  go (request 0x0007 (fun b => b.length = 16 && decide (numAt b 4 1 ≤ 1) && zeroAt b 5 3 && zeroAt b 12 4) rackRole capOp req s)

/-- KEY_INSTALL: the epoch and the key go to WSTREAM_KEY_EPOCH and WSTREAM_KEY_SLOT; the outcome is WSTREAM_KEY_STS.code. -/
def keyOp : MgmtOp := fun _ b s =>
  let ws := wordsOf (b.drop 8)
  let s1 := (s.setFld F.WSTREAM_KEY_EPOCH (numAt b 0 2)).setGroup F.WSTREAM_KEY_SLOT_w0.addr ws
  let s2 := keySlotWrite (ws.getD 63 0) s1
  (s2, s2.fld F.WSTREAM_KEY_STS_code, [])

/-- KEY_INSTALL. -/
def execKeyInstall (req : MgmtReq) (s : State) : Host.Outcome State Fault Refusal :=
  go (request 0x0008 (fun b => b.length = 520 && zeroAt b 2 6) operatorRole keyOp req s)

/-! ## Firmware and records (R392-R394) -/

/-- A bundle has arrived whole: it is verified, and the copy not in use holds it. One below n_svn is kept for the firmware downgrade only. -/
def fwWhole (bytes : List Byte) (s : State) : State × Nat :=
  let c := 1 - s.fwActive
  let put := fun (x : Option Bundle) => ({ s with
    lodge := { s.lodge with piece := none, fw := s.lodge.fw.set c x, fwDigest := sha512 bytes } } : State)
  match (Config.bundle bytes).filter (fun f => decide (f.root = s.lodge.rom)) with
  | none => ((fwStaged 2 (put none)).setFld F.SEC_FW_STS_code E.FW_SIG, E.FW_SIG)
  | some f =>
    if f.svn.toNat < s.lodge.nsvn then
      ((fwStaged 2 (put (some f))).setFld F.SEC_FW_STS_code E.FW_ROLLBACK, E.FW_ROLLBACK)
    else ((fwStaged 1 (put (some f))).setFld F.SEC_FW_STS_code 0, 0)

/-- FW_STAGE: pieces follow one another; the first one begins to overwrite the copy not in use, and ends the permission to boot what was
there. -/
def fwOp : MgmtOp := fun _ b s =>
  let off := numAt b 0 4
  let total := numAt b 4 4
  let s1 := if off = 0 then
      fwStaged 0 { s with lodge := { s.lodge with piece := some { total := total, data := [] }, fw := s.lodge.fw.set (1 - s.fwActive) none, downgrade := false } }
    else s
  match s1.lodge.piece with
  | none => (s, E.MGMT_FORMAT, [])
  | some p =>
    if p.total ≠ total ∨ p.data.length ≠ off then (s, E.MGMT_FORMAT, [])
    else
      let data := p.data ++ b.drop 16
      if data.length < total then ({ s1 with lodge := { s1.lodge with piece := some { total := total, data := data } } }, 0, [])
      else
        let r := fwWhole data s1
        (r.1, r.2, [])

/-- FW_STAGE. -/
def execFwStage (req : MgmtReq) (s : State) : Host.Outcome State Fault Refusal :=
  go (request 0x0009 (fun b => decide (16 ≤ b.length ∧ b.length = 16 + numAt b 8 4 ∧ numAt b 0 4 + numAt b 8 4 ≤ numAt b 4 4) && zeroAt b 12 4)
    operatorRole fwOp req s)

/-- Whether the last 512 bytes of a body are the owner's signature of those before; never with no owner. -/
def State.ownerSigned (s : State) (b : List Byte) : Bool :=
  match s.ownerKey with
  | none => false
  | some k => pssVerify k.1 k.2 (b.take (b.length - 512)) (b.drop (b.length - 512))

/-- REC_WRITE. -/
def recOp : MgmtOp := fun _ b s =>
  if s.ownerSigned b then (recordPut (numAt b 0 1) ((b.drop 16).take (numAt b 8 4)) s, 0, []) else (s, E.REC_SIG, [])

/-- REC_WRITE. -/
def execRecWrite (req : MgmtReq) (s : State) : Host.Outcome State Fault Refusal :=
  go (request 0x000A (fun b => decide (b.length = 528 + numAt b 8 4 ∧ (numAt b 0 1 = 1 ∨ numAt b 0 1 = 5)) && zeroAt b 1 7 && zeroAt b 12 4)
    operatorRole recOp req s)

/-! ## Presence commands (R400, R401, R403) -/

/-- The bytes of a command's argument. -/
def presArg (cmd : Nat) : Nat := if cmd = 1 then 64 else if cmd = 5 then 516 else 0

/-- The layout of PRES_STAGE: the first owner key comes without a signature. -/
def presLayout (s : State) (b : List Byte) : Bool :=
  let c := numAt b 0 1
  decide (1 ≤ c ∧ c ≤ 6 ∧ b.length = 72 + presArg c + (if c = 5 ∧ s.ownerKey.isNone then 0 else 512)) && zeroAt b 1 7

/-- The roles that may stage a command. -/
def presRole (s : State) (ses : Session) (b : List Byte) : Bool :=
  match s.ownerKey with
  | none => decide (numAt b 0 1 = 5)
  | some _ => decide (ses.role = 2)

/-- PRES_STAGE. Every attempt changes the nonce. -/
def presOp : MgmtOp := fun _ b s =>
  let c := numAt b 0 1
  let s1 := newNonce s
  if s.jobLoaded then (s1, E.PRES_JOB, [])
  else if s.lodge.staged.isSome then (s1, E.PRES_BUSY, [])
  else if (b.drop 8).take 64 ≠ s.groupBytes F.SEC_PRES_NONCE_w0 8 ∨ (s.ownerKey.isSome ∧ !s.ownerSigned b) then (s1, E.PRES_SIG, [])
  else
    let s2 := { s1 with lodge := { s1.lodge with staged := some { cmd := c, arg := (b.drop 72).take (presArg c) } } }
    ((s2.setFld F.SEC_PRES_STS_cmd c).setFlag F.SEC_PRES_STS_pending true, 0, [])

/-- PRES_STAGE. -/
def execPresStage (req : MgmtReq) (s : State) : Host.Outcome State Fault Refusal :=
  go (request 0x000B (presLayout s) (presRole s) presOp req s)

end Sys2Proof.Machine
end

