-- ==== Sys2Proof/Machine/Packets.lean ====
section
/-! DEFINITION. What arrives over the links (spec/11): flits, OFP packets, control records, RoCEv2 messages, flow-control frames. -/

namespace Sys2Proof.Machine

/-! ## Flits (R234, R241, R242) -/

/-- Whether a packet type travels on a virtual channel (Table 11-5). -/
def vcFits (op vc : Nat) : Bool :=
  if op ≤ 3 then decide (vc = 1 ∨ 3 ≤ vc)
  else if op ≤ 8 then decide (vc = 2)
  else if op = 9 then decide (vc = 3)
  else if op = 10 then decide (4 ≤ vc)
  else decide (op = 11 ∧ vc = 0)

/-- A malformed packet is dropped, counted and reported with its 32-byte header (R241). -/
def badPkt (k : Nat) (hdr : List Byte) (s : State) : State :=
  (s.bump (F.LINK_BAD_PKT_CNT k)).raise EV.LINK_BAD_PKT 4 k (leBytes 1 k ++ hdr)

/-- Whether a flit of a packet is malformed: a reserved bit, and in a head flit a reserved op, a type on the wrong virtual channel or an
undefined atomic operation (log 98). -/
def flitBad (f : Flit) (head : Bool) : Bool :=
  let op := fieldOf f.w2 48 4
  decide (fieldOf f.w0 47 17 ≠ 0 ∨ fieldOf f.w3 21 11 ≠ 0)
    || (if head then !vcFits op (fieldOf f.w0 27 4) || (decide (op = opAtom) && decide (9 < fieldOf f.w3 16 4)) else decide (f.w1 ≠ 0 ∨ f.w2 ≠ 0))

/-- The replay buffer after an acknowledgement: everything up to the flit named is gone. -/
def LinkSt.acked (l : LinkSt) (a : Nat) : LinkSt :=
  match l.replay.findIdx? (fun t => decide (t.seq = a)) with
  | some i => { l with replay := l.replay.drop (i + 1) }
  | none => l

/-- Every flit of the replay buffer is sent again. -/
def replayAll (k : Nat) (s : State) : State :=
  let l := s.lnk k
  let s1 := l.replay.foldl (fun (st : State) t =>
    let m := st.lnk k
    (st.setLnk k { m with nak := false }).out (.flit k (m.seal t.flit))) s
  let m := s1.lnk k
  (s1.setLnk k { m with replay := m.replay.map (fun (t : TxFlit) => { t with tries := t.tries + 1 }) }).bumpBy (F.LINK_REPLAY_CNT k)
    l.replay.length

/-- The flit is accepted in order: it returns credit (R243), and a flit of a packet lies in the receive buffer until the packet has taken effect. A
malformed packet is counted and reported once, and at its end its flits are free again. -/
def flitAccept (k : Nat) (f : Flit) (s : State) : State :=
  let l := s.lnk k
  let head := f.w0.getLsbD 25
  let tail := f.w0.getLsbD 26
  let inside := head || l.part.isSome
  let vc := fieldOf f.w0 27 4
  let cv := fieldOf f.w0 31 4
  let n := (if head then 0 else l.part.getD 0) + 1
  let was := !head && l.bad
  let isBad := inside && flitBad f head
  let heads :=
    if head then Sparse.put l.heads vc (leBytes 8 f.w0.toNat ++ leBytes 8 f.w1.toNat ++ leBytes 8 f.w2.toNat ++ leBytes 8 f.w3.toNat) else l.heads
  let s1 := s.setLnk k { l with
    rx := fieldOf f.w0 0 12
    used := if fieldOf f.w0 35 12 = 0 then l.used else Sparse.put l.used cv (Sparse.get l.used 0 cv - fieldOf f.w0 35 12)
    held := if inside then Sparse.put l.held vc (Sparse.get l.held 0 vc + 1) else l.held
    heads := heads
    part := if inside && !tail then some n else none
    bad := (was || isBad) && !tail }
  let s2 := if isBad && !was then badPkt k (Sparse.get heads [] vc) s1 else s1
  if tail && (was || isBad) then s2.freeFlits k vc n else s2

/-- A flit that arrived whole: its acknowledgement and nak act, then it is accepted if it is the next one, or answered by a nak. -/
def flitWhole (k : Nat) (f : Flit) (s : State) : State :=
  let s1 := s.setLnk k ((s.lnk k).acked (fieldOf f.w0 12 12))
  let nak := f.w0.getLsbD 24
  if nak && (s1.lnk k).replay.any (fun t => decide (8 ≤ t.tries)) then linkFault k caReplay s1
  else
    let s2 := if nak then replayAll k s1 else s1
    let l := s2.lnk k
    let s3 := if fieldOf f.w0 0 12 = (l.rx + 1) % 4096 then flitAccept k f s2 else s2.setLnk k { l with nak := true }
    s3.pumpLink k

/-- A flit arrives on a link. Codewords are counted with the flit that they end with (R234, log 127). -/
def flitReceive (k : Nat) (f : Flit) (s : State) : State :=
  if !s.linkUp k then s
  else if f.reset then linkFault k caReset s
  else
    let s1 := s.bumpBy (F.LINK_FEC_CORR_CNT k) f.corrected
    let s2 := s1.bumpBy (F.LINK_FEC_UNCORR_CNT k) f.uncorr
    if f.fecOk && f.crcOk then flitWhole k f s2 else s2.setLnk k { s2.lnk k with nak := true }

/-- OFP_FLIT_RECEIVE. -/
def execOfpFlitReceive (link : BitVec 5) (flit : Flit) (s : State) : Host.Outcome State Fault Refusal := go (flitReceive link.toNat flit s)

/-! ## Inbound requests (R252-R255) -/

/-- Whether a range lies wholly in one valid window with a permission (0 r, 1 w, 2 atom) and, for RoCE, its key (R255). -/
def State.inWindow (s : State) (perm a len : Nat) (rkey : Option Nat) : Bool :=
  (List.range 16).any (fun i =>
    let base := s.fld (F.DEV_INB_WIN_base i) * 4096
    s.flag (F.DEV_INB_WIN_valid i) && s.flag (match perm with | 0 => F.DEV_INB_WIN_r i | 1 => F.DEV_INB_WIN_w i | _ => F.DEV_INB_WIN_atom i)
      && decide (base ≤ a ∧ a + len ≤ base + s.fld (F.DEV_INB_WIN_size i) * 4096)
      && (match rkey with | some k => decide (s.fld (F.DEV_INB_WIN_rkey i) = k) | none => true))

/-- The code that a memory request of another node is refused with before it is executed: device registers are reached only locally (spec/02 R37,
log 19); else it must lie in a window with the permission (R255). -/
def State.refusal (s : State) (perm a len : Nat) (rkey : Option Nat) : Option Nat :=
  if s.place a len = .dev then some E.ADDR_UNMAPPED
  else if s.inWindow perm a len rkey then none
  else some E.REMOTE_ACCESS

/-- Whether a packet is taken up: its link is UP and its type travels on its virtual channel (R241). -/
def State.takes (s : State) (p : OfpPkt) (op : Nat) : Bool := s.linkUp p.link.toNat && vcFits op p.vc.toNat

/-- A request fails at the target. -/
def replyErr (p : OfpPkt) (code : Nat) (s : State) : State := s.reply p opErr code []

/-- A GET takes effect, or waits: the flag says that it has been taken. -/
def getTake (p : OfpPkt) (s : State) : State × Bool :=
  match s.refusal 0 p.addr.toNat p.len none with
  | some code => (replyErr p code s, true)
  | none =>
    if !s.fabOpen (0x420 + p.link.toNat) p.addr.toNat 0 then (s, false)
    else
    match busRead true p.addr.toNat p.len s with
    | (s1, .ok data) => ((s1.carry (0x420 + p.link.toNat) p.addr.toNat 0 data.length).reply p opData 0 data, true)
    | (s1, .fail code) => (replyErr p code s1, true)
    | (s1, .lost) => (s1.release p, true)
    | (s1, .wait) => (s1, false)

/-- PUT: a bulk write on the wafer (Table 11-7); what CKPT of another engine writes in the comparison area acts there. -/
def putTake (p : OfpPkt) (s : State) : State × Bool :=
  match s.refusal 1 p.addr.toNat p.data.length none with
  | some code => (replyErr p code s, true)
  | none =>
    if !s.fabOpen (0x420 + p.link.toNat) p.addr.toNat 2 then (s, false)
    else
    match busWrite none true true p.addr.toNat p.data s with
    | (s1, .ok _) =>
      let s2 := s1.carry (0x420 + p.link.toNat) p.addr.toNat p.data.length 0
      ((if p.srcEp.toNat = epCkpt then ckLands p.addr.toNat p.data s2 else s2).reply p opAck 0 [], true)
    | (s1, .fail code) => (replyErr p code s1, true)
    | (s1, .lost) => (s1.release p, true)
    | (s1, .wait) => (s1, false)

/-- ATOM: 16 bytes of data hold the operand and the compare value. -/
def atomTake (p : OfpPkt) (s : State) : State × Bool :=
  let w := if p.aw then 8 else 4
  match s.refusal 2 p.addr.toNat w none with
  | some code => (replyErr p code s, true)
  | none =>
    if !s.fabOpen (0x420 + p.link.toNat) p.addr.toNat 0 then (s, false)
    else
    match busAtom true p.aop.toNat w p.addr.toNat (numAt p.data 0 8) (numAt p.data 8 8) s with
    | (s1, .ok old) => ((s1.carry (0x420 + p.link.toNat) p.addr.toNat 0 0).reply p opAtomr 0 (leBytes 8 (leNat old)), true)
    | (s1, .fail code) => (replyErr p code s1, true)
    | (s1, .lost) => (s1.release p, true)
    | (s1, .wait) => (s1, false)

/-- The pieces of a COPY: offsets and lengths, each within one 2 KiB block of source and destination. -/
def copyPieces : Nat → Nat → Nat → Nat → Nat → List (Nat × Nat)
  | 0, _, _, _, _ => []
  | fuel + 1, src, dst, off, len =>
    if len ≤ off then []
    else
      let k := Nat.min (Nat.min (2048 - (src + off) % 2048) (2048 - (dst + off) % 2048)) (len - off)
      (off, k) :: copyPieces fuel src dst (off + k) len

/-- A COPY as it proceeds: the state, the PUTs without an acknowledgement, the first failure. -/
structure CopyRun where
  st : State
  left : Nat := 0
  code : Nat := 0

/-- One piece of a COPY: read here, then a PUT to the destination; one to this engine is made at once. -/
def copyPiece (p : OfpPkt) (ep id dst : Nat) (c : CopyRun) (g : Nat × Nat) : CopyRun :=
  if c.code ≠ 0 then c
  else
    match busRead true (p.addr.toNat + g.1) g.2 c.st with
    | (s1, .fail code) => { c with st := s1, code := code }
    | (s0, .ok data) =>
      let s1 := s0.carry (0x420 + p.link.toNat) (p.addr.toNat + g.1) 0 g.2
      let node := dst / 2 ^ 42
      let a := (dst + g.1) % 2 ^ 42
      if s1.isSelf node then
        match s1.refusal 1 a g.2 none with
        | some code => { c with st := s1, code := code }
        | none =>
        match busWrite none true true a data s1 with
        | (s2, .ok _) => { c with st := s2.carry (0x420 + p.link.toNat) a g.2 0 }
        | (s2, .fail code) => { c with st := s2, code := code }
        | (s2, _) => { c with st := s2, left := c.left + 1 }
      else
        match s1.sendEng { src := .engine epCopyJob id, ep := ep, vc := p.vc.toNat, node := node, op := opPut, addr := a, len := g.2, data := data } with
        | (s2, none) => { c with st := s2, left := c.left + 1 }
        | (s2, some code) => { c with st := s2, code := code }
    | (s1, _) => { c with st := s1 }

/-- Whether a COPY must wait before it begins: a core of its source or destination is in HOLD, or its destination here is held by a
Freeze. -/
def copyWaits (s : State) (src dst len : Nat) : Bool :=
  let held := fun (a : Nat) => match s.place a 1 with | .mem n | .regs n => s.portOpen n && s.flag F.PWR_STS_hold | _ => false
  let here := s.isSelf (dst / 2 ^ 42)
  held src || (here && held (dst % 2 ^ 42)) || (here && decide (dst % 2 ^ 42 + len ≤ s.edgeSize) && !s.clear (dst % 2 ^ 42) len)

/-- COPY: 16 bytes of data hold the destination and the length. CDONE follows the last acknowledgement. -/
def copyTake (p : OfpPkt) (s : State) : State × Bool :=
  let a := p.addr.toNat
  let dst := numAt p.data 0 8
  let len := numAt p.data 8 8
  match s.refusal 0 a len none with
  | some code => (replyErr p code s, true)
  | none =>
    let far := !s.isSelf (dst / 2 ^ 42)
    match far, s.route (dst / 2 ^ 42) with
    | true, .qp _ => (replyErr p E.REMOTE_OP_UNSUPP s, true)
    | _, _ =>
      if copyWaits s a dst len then (if far then s else s.ask (dst % 2 ^ 42) len, false)
      else
        let ep := match s.place a 1 with | .mem n | .regs n => n | _ => p.srcEp.toNat
        let id := (s.net.copies.map (·.id)).foldl Nat.max 0 + 1
        let r := (copyPieces (len / 1024 + 4) a dst 0 len).foldl (copyPiece p ep id dst) { st := s }
        if r.left = 0 then (r.st.reply p (if r.code = 0 then opCdone else opErr) r.code [], true)
        else
          let job : CopyJob :=
            { id := id, link := p.link.toNat, node := p.src.toNat, ep := p.srcEp.toNat, vc := p.vc.toNat, tag := p.tag.toNat, left := r.left
              code := r.code }
          (({ r.st with net := { r.st.net with copies := job :: r.st.net.copies } }).release p, true)

/-! ## Responses (R252, R257) -/

/-- A response of type `op` to a request of operation `want`: the request with its tag is answered; a response that answers none is discarded
and counted. One for a core crosses the wafer to it. -/
def respArrive (op : Nat) (want : Nat → Bool) (p : OfpPkt) (resp : Response) (s : State) : State :=
  if !s.takes p op then s
  else
    match s.net.reqs.find? (fun r => r.qp.isNone && decide (r.tag = p.tag.toNat ∧ r.link = p.link.toNat ∧ r.node = p.src.toNat) && want r.op) with
    | none => (s.release p).bump F.DEV_LATE_RSP_CNT
    | some r =>
      let s1 := s.release p
      let s2 := match r.src with
        | .ring n _ | .slot n _ => s1.travel (0x420 + r.link) n 0 (dataFlits p.data.length)
        | _ => s1
      answer r.src r.tag resp (s2.dropReq r.tag)

/-- OFP_DATA. -/
def execOfpData (pkt : OfpPkt) (s : State) : Host.Outcome State Fault Refusal := go (respArrive opData (· = opGet) pkt (.ok pkt.data) s)

/-- OFP_ACK. -/
def execOfpAck (pkt : OfpPkt) (s : State) : Host.Outcome State Fault Refusal := go (respArrive opAck (· = opPut) pkt (.ok []) s)

/-- OFP_ATOMR. -/
def execOfpAtomr (pkt : OfpPkt) (s : State) : Host.Outcome State Fault Refusal := go (respArrive opAtomr (· = opAtom) pkt (.ok pkt.data) s)

/-- OFP_ERR. -/
def execOfpErr (pkt : OfpPkt) (s : State) : Host.Outcome State Fault Refusal := go (respArrive opErr (fun _ => true) pkt (.fail pkt.status) s)

/-- OFP_CDONE. -/
def execOfpCdone (pkt : OfpPkt) (s : State) : Host.Outcome State Fault Refusal := go (respArrive opCdone (· = opCopy) pkt (.ok []) s)

/-! ## Control records (R257, R258) -/

/-- The bytes of a control record's reserved bits, with the mask of each, by kind. -/
def ctlReserved (kind : Nat) : List (Nat × Nat × Nat) :=
  match kind with
  | 0 => [(1, 7, 0xFF), (34, 1, 0xC0), (35, 1, 0xFF), (37, 27, 0xFF)]
  | 1 => [(2, 6, 0xFF), (26, 1, 0xC0), (27, 1, 0xFF), (28, 36, 0xFF)]
  | 2 => [(1, 1, 0xFC), (3, 1, 0xFF), (18, 1, 0xC0), (19, 1, 0xFF), (28, 4, 0xFF), (48, 16, 0xFF)]
  | _ => [(2, 1, 0xFC), (3, 1, 0xFF), (18, 1, 0xC0), (19, 1, 0xFF), (20, 12, 0xFF), (48, 16, 0xFF)]

/-- Whether a record is one of a kind with every reserved bit 0. -/
def ctlOk (kind : Nat) (rec_ : List Byte) : Bool :=
  rec_.length = 64 && decide (numAt rec_ 0 1 = kind)
    && (ctlReserved kind).all (fun p => ((rec_.drop p.1).take p.2.1).all (fun b => decide (b.toNat &&& p.2.2 = 0)))

/-- A control record arrives: a malformed one is dropped by R241. The event carries the header of the last packet of VC0 on the link, and free
bytes when none has come (log 98). -/
def ctlArrive (kind : Nat) (link : BitVec 5) (rec_ : List Byte) (f : State → State) (s : State) : State :=
  let k := link.toNat
  if !s.linkUp k then s
  else if ctlOk kind rec_ then f (s.freeFlits k 0 1)
  else
    match Sparse.find (s.lnk k).heads 0 with
    | some hdr => badPkt k hdr (s.freeFlits k 0 1)
    | none => (badPkt k ((List.range 32).map (fun i => Config.freeByte s.free i)) (s.freeFlits k 0 1)).tick

/-- CTL_HEARTBEAT: it refreshes the peer's time, which is kept outside the model; PEER_TIMEOUT says when it has passed. -/
def execCtlHeartbeat (link : BitVec 5) (rec_ : List Byte) (s : State) : Host.Outcome State Fault Refusal := go (ctlArrive 0 link rec_ id s)

/-- CTL_GOODBYE. -/
def execCtlGoodbye (link : BitVec 5) (rec_ : List Byte) (s : State) : Host.Outcome State Fault Refusal :=
  go (ctlArrive 1 link rec_ (peerLost (numAt rec_ 24 4) 1) s)

/-- CTL_VOTE. -/
def execCtlVote (link : BitVec 5) (rec_ : List Byte) (s : State) : Host.Outcome State Fault Refusal := go (ctlArrive 2 link rec_ (voteArrive rec_) s)

/-- CTL_DECISION. -/
def execCtlDecision (link : BitVec 5) (rec_ : List Byte) (s : State) : Host.Outcome State Fault Refusal :=
  go (ctlArrive 3 link rec_ (decisionArrive
    { outcome := numAt rec_ 1 1, freeze := (numAt rec_ 2 1).testBit 0, compare := (numAt rec_ 2 1).testBit 1, fid := numAt rec_ 4 4,
      step := numAt rec_ 8 8 }) s)

/-! ## RoCEv2 (R238) -/

/-- The kinds of messages that leave on a queue pair beside those of a request: a congestion notification is 16. -/
abbrev roceCnp : Nat := 16

/-- Whether a queue pair takes messages: ready to receive or to send, on a port that is UP. -/
def State.qpTakes (s : State) (q : Nat) : Bool :=
  let k := q / 256
  let i := q % 256
  decide (s.qpState q = 2 ∨ s.qpState q = 3)
    && decide (s.fld (if s.fld (F.LINK_QP_port k i) = 0 then F.LINK_STS_port_a k else F.LINK_STS_port_b k) = 2)

/-- The answer to a message of a queue pair, under its last sequence number: an acknowledgement, the data of a read, or a NAK (0 sequence error, 1
invalid request, 2 remote access error, 3 remote operational error). -/
def State.ackPsn (s : State) (q kind : Nat) (m : RoceMsg) : Nat := (m.psn + s.qpCount q kind m + 2 ^ 24 - 1) % 2 ^ 24
def roceAck (q : Nat) (m : RoceMsg) (s : State) : State := s.roceOut q opAck { psn := s.ackPsn q opPut m }
def roceData (q : Nat) (m : RoceMsg) (data : List Byte) (s : State) : State := s.roceOut q opData { psn := m.psn, len := data.length, data := data }
def roceNak (q code : Nat) (kind : Nat) (m : RoceMsg) (s : State) : State := s.roceOut q opErr { nak := true, nakCode := code, psn := s.ackPsn q kind m }

/-- The record of a stream that a number modulo 65,536 names: one being handled, else the next one with that remainder (spec/12 R262). -/
def State.recordNo (s : State) (i low : Nat) : Nat :=
  match s.ws.recs.find? (fun x => decide (x.stream = i ∧ x.no % 65536 = low)) with
  | some x => x.no
  | none => let n := Sparse.get s.ws.next 0 i; n + (low + 65536 - n % 65536) % 65536


/-- Immediate data goes to WSTREAM. -/
def State.immediate (s : State) (q : Nat) (m : RoceMsg) : State :=
  match m.imm with
  | some x => s.setWs { s.ws with imms := (q, x) :: s.ws.imms }
  | none => s

/-- A SEND goes to WSTREAM: one with immediate data is a record, another is dropped and counted. While no slot is free the acknowledgement
is withheld and the message waits. -/
def sendTake (q : Nat) (m : RoceMsg) (s : State) : State × Bool :=
  match m.imm with
  | none => (roceAck q m (s.bump F.WSTREAM_DROP_CNT), true)
  | some imm =>
    let id := fieldOf imm 0 16
    match s.streamOf id with
    | some i =>
      let r := wsegArrive id (s.recordNo i (fieldOf imm 16 16)) 0 m.data (s.immediate q m)
      if r.2 then (roceAck q m r.1, true) else (s, false)
    | none => (roceAck q m (s.bump F.WSTREAM_DROP_CNT), true)

/-- The link endpoint of a queue pair. -/
def qpEp (q : Nat) : Nat := 0x420 + q / 256

/-- An RDMA WRITE. -/
def writeTake (q : Nat) (m : RoceMsg) (s : State) : State × Bool :=
  let a := m.va.toNat
  if m.data.isEmpty then (roceAck q m (s.immediate q m), true)
  else
    match s.refusal 1 a m.data.length (some m.rkey.toNat) with
    | some _ => (roceNak q 2 opPut m s, true)
    | none =>
      if !s.fabOpen (qpEp q) a 2 then (s, false)
      else
      match busWrite none true true a m.data s with
      | (s1, .ok _) => (roceAck q m ((s1.carry (qpEp q) a m.data.length 0).immediate q m), true)
      | (s1, .fail _) => (roceNak q 3 opPut m s1, true)
      | (s1, .lost) => (s1, true)
      | (s1, .wait) => (s1, false)

/-- An RDMA READ. -/
def readTake (q : Nat) (m : RoceMsg) (s : State) : State × Bool :=
  let a := m.va.toNat
  if m.len = 0 then (roceData q m [] s, true)
  else
    match s.refusal 0 a m.len (some m.rkey.toNat) with
    | some _ => (roceNak q 2 opGet m s, true)
    | none =>
      if !s.fabOpen (qpEp q) a 0 then (s, false)
      else
      match busRead true a m.len s with
      | (s1, .ok data) => (roceData q m data (s1.carry (qpEp q) a 0 data.length), true)
      | (s1, .fail _) => (roceNak q 3 opGet m s1, true)
      | (s1, .lost) => (s1, true)
      | (s1, .wait) => (s1, false)

/-! ## Order of what arrives (R247, R253) -/

/-- The flow of a packet or message: node, endpoint and virtual channel, or the queue pair. -/
def Inb.flow : Inb → Nat × Nat × Nat × Nat
  | .ofp p => (0, p.src.toNat, p.srcEp.toNat, p.vc.toNat)
  | .roce _ q _ => (1, q, 0, 0)

/-- Whether an earlier request of a flow has not taken effect yet: it waits, or it is a COPY in progress. -/
def State.flowBusy (s : State) (i : Inb) : Bool :=
  s.net.inb.any (fun j => decide (j.flow = i.flow)) || s.net.copies.any (fun c => decide ((0, c.node, c.ep, c.vc) = i.flow))

/-- It waits behind what waits already. -/
def State.waits (s : State) (i : Inb) : State := { s with net := { s.net with inb := s.net.inb ++ [i] } }

/-- A packet or message takes effect if it can. -/
def takeUp (i : Inb) (s : State) : State × Bool :=
  match i with
  | .ofp p =>
    match p.op.toNat with
    | 0 => getTake p s
    | 1 => putTake p s
    | 2 => atomTake p s
    | 3 => copyTake p s
    | 9 =>
      let r := wsegArrive p.tag.toNat (p.addr.toNat / 2 ^ 21) (p.addr.toNat % 2 ^ 21) p.data s
      (if r.2 then r.1.release p else r.1, r.2)
    | 10 =>
      let r := gbkArrive (fieldOf p.addr 0 16) (fieldOf p.addr 16 16) (fieldOf p.addr 32 8) (fieldOf p.addr 40 2) p.tag.toNat p.upset p.data s
      (if r.2 then r.1.release p else r.1, r.2)
    | _ => (s, true)
  | .roce kind q m =>
    match kind with
    | 0 => readTake q m s
    | 1 => writeTake q m s
    | _ => sendTake q m s

/-- It takes effect in its turn, or waits. -/
def inbTurn (s : State) (i : Inb) : State :=
  if s.flowBusy i then s.waits i
  else
    let r := takeUp i s
    if r.2 then r.1 else r.1.waits i

/-- What waits takes effect where it now can, in order of arrival. -/
def inbGo (s : State) : State := if s.net.inb.isEmpty then s else s.net.inb.foldl inbTurn { s with net := { s.net with inb := [] } }

/-- A packet or message arrives. -/
def inbound (i : Inb) (s : State) : State := inbTurn (inbGo s) i

/-- An OFP packet of a type arrives with a length that the type allows. -/
def ofpIn (op : BitVec 4) (ok : Bool) (p : OfpPkt) (s : State) : State := if s.takes p op.toNat && ok then inbound (.ofp { p with op := op }) s else s

/-- OFP_GET. -/
def execOfpGet (pkt : OfpPkt) (s : State) : Host.Outcome State Fault Refusal := go (ofpIn 0 (decide (0 < pkt.len ∧ pkt.len ≤ 2048)) pkt s)

/-- OFP_PUT. -/
def execOfpPut (pkt : OfpPkt) (s : State) : Host.Outcome State Fault Refusal :=
  go (ofpIn 1 (decide (0 < pkt.data.length ∧ pkt.data.length ≤ 2048)) pkt s)

/-- OFP_ATOM. -/
def execOfpAtom (pkt : OfpPkt) (s : State) : Host.Outcome State Fault Refusal :=
  go (ofpIn 2 (decide (pkt.data.length = 16 ∧ pkt.aop.toNat ≤ 9)) pkt s)

/-- OFP_COPY. -/
def execOfpCopy (pkt : OfpPkt) (s : State) : Host.Outcome State Fault Refusal := go (ofpIn 3 (decide (pkt.data.length = 16)) pkt s)

/-- OFP_WSEG. -/
def execOfpWseg (pkt : OfpPkt) (s : State) : Host.Outcome State Fault Refusal := go (ofpIn 9 true pkt s)

/-- OFP_GBK. -/
def execOfpGbk (pkt : OfpPkt) (s : State) : Host.Outcome State Fault Refusal := go (ofpIn 10 (decide (fieldOf pkt.addr 40 2 < 3)) pkt s)

/-- A message arrives on a queue pair: with an ECN mark a congestion notification leaves. -/
def roceSeen (q : Nat) (m : RoceMsg) (f : State → State) (s : State) : State :=
  if !s.qpTakes q then s
  else
    let s1 := f s
    if m.ecn then s1.roceOut q roceCnp {} else s1

/-- A request message in its order (R238): the next one takes effect, and the first one on a queue pair whatever its sequence number, which no
register sets; one behind a gap is refused by a NAK that names the packet expected; one that has come before is answered again, a read by reading again, unless
it still waits (log 124). -/
def roceOrder (q kind : Nat) (m : RoceMsg) (f : State → State) (s : State) : State :=
  let t := s.qpT q
  let next := (m.psn + s.qpCount q kind m) % 2 ^ 24
  match t.rx with
  | none => f (s.setQpT q { t with rx := some next })
  | some e =>
    if m.psn = e then f (s.setQpT q { t with rx := some next })
    else if (m.psn + 2 ^ 24 - e) % 2 ^ 24 < 2 ^ 23 then s.roceOut q opErr { nak := true, psn := e }
    else if s.net.inb.any (fun j => decide (j.flow = (1, q, 0, 0))) then s
    else if kind = opGet then f s
    else roceAck q m s

/-- A request message arrives on a queue pair. -/
def roceArrive (q kind : Nat) (m : RoceMsg) (f : State → State) (s : State) : State := roceSeen q m (roceOrder q kind m f) s

/-- ROCE_SEND_RECEIVE. -/
def execRoceSendReceive (qp : BitVec 13) (msg : RoceMsg) (s : State) : Host.Outcome State Fault Refusal :=
  go (roceArrive qp.toNat 12 msg (inbound (.roce 12 qp.toNat msg)) s)

/-- ROCE_WRITE_RECEIVE. -/
def execRoceWriteReceive (qp : BitVec 13) (msg : RoceMsg) (s : State) : Host.Outcome State Fault Refusal :=
  go (roceArrive qp.toNat opPut msg (inbound (.roce 1 qp.toNat msg)) s)

/-- ROCE_READ_RECEIVE. -/
def execRoceReadReceive (qp : BitVec 13) (msg : RoceMsg) (s : State) : Host.Outcome State Fault Refusal :=
  go (roceArrive qp.toNat opGet msg (inbound (.roce 0 qp.toNat msg)) s)

/-- ROCE_ATOMIC_RECEIVE: a NAK for an invalid request. -/
def execRoceAtomicReceive (qp : BitVec 13) (msg : RoceMsg) (s : State) : Host.Outcome State Fault Refusal :=
  go (roceArrive qp.toNat opAtom msg (roceNak qp.toNat 1 opAtom msg) s)

/-! ## Requests of queue pairs (R238) -/

/-- The requests on a queue pair without an answer, oldest first. -/
def State.qpReqs (s : State) (q : Nat) : List OutReq := s.net.reqs.filter (fun r => decide (r.qp = some q))

/-- A request of a queue pair is answered. -/
def qpAnswer (q : Nat) (resp : Response) (s : State) (r : OutReq) : State :=
  answer r.src r.tag resp ((s.dropReq r.tag).setQpT q { s.qpT q with tries := 0 })

/-- Requests of a queue pair are sent again, oldest first: go-back-N (R238). With the retries used up the queue pair goes to the error state, and its
operations fail with E_LINK_DOWN. -/
def goBack (q : Nat) (l : List OutReq) (s : State) : State :=
  let t := s.qpT q
  if l.isEmpty ∨ s.qpState q ≠ 3 then s
  else if t.tries < s.fld (F.LINK_QP_retry (q / 256) (q % 256)) then
    l.foldl (fun (st : State) r => st.roceOut q r.op r.msg) (s.setQpT q { t with tries := t.tries + 1 })
  else qpError (q / 256) (fun i => decide (i = q % 256)) (s.setQpT q { t with tries := 0 })

/-- An answer on a queue pair, by its sequence number: the last one of a request without an answer completes it, and with it the writes issued before it,
up to a read whose data has not come; a NAK fails it with E_REMOTE_ACCESS, or, with code 0, a sequence error, has the requests from there on sent
again. The answer of a request that has failed is discarded and counted (R257); any other one, an answer that comes a second time, is
discarded. -/
def ackArrive (q : Nat) (m : RoceMsg) (s : State) : State :=
  let l := s.qpReqs q
  let hit := fun (r : OutReq) => decide (s.lastPsn q r = m.psn)
  if (s.qpT q).late.contains m.psn ∧ !l.any hit then
    (s.setQpT q { s.qpT q with late := (s.qpT q).late.filter (· ≠ m.psn) }).bump F.DEV_LATE_RSP_CNT
  else if m.nak && decide (m.nakCode = 0) then goBack q (l.dropWhile (fun r => decide (r.msg.psn ≠ m.psn))) s
  else
    match l.find? hit with
    | none => s
    | some r =>
      let before := (l.takeWhile (fun r => !hit r)).takeWhile (fun r => decide (r.op ≠ opGet))
      let s1 := before.foldl (qpAnswer q (.ok [])) s
      if before.length < l.findIdx hit then s1
      else qpAnswer q (if m.nak then .fail (BitVec.ofNat 16 E.REMOTE_ACCESS) else .ok m.data) s1 r

/-- ROCE_ACK_RECEIVE. -/
def execRoceAckReceive (qp : BitVec 13) (msg : RoceMsg) (s : State) : Host.Outcome State Fault Refusal :=
  go (roceSeen qp.toNat msg (ackArrive qp.toNat msg) s)

/-- The rate of a queue pair in 1/256 now: since the last notification it has recovered linearly over cc_recover_us. -/
def State.qpRate (s : State) (q : Nat) : Nat :=
  let t := s.qpT q
  let span := s.fld (F.LINK_QP_cc_recover_us (q / 256) (q % 256)) * 1000
  let past := (s.now - t.cut).toNat
  if span ≤ past then 256 else t.rate + (256 - t.rate) * past / span

/-- A congestion notification cuts the rate by cc_step/256 of itself. -/
def cnpArrive (q : Nat) (s : State) : State :=
  if s.qpTakes q then
    s.setQpT q { s.qpT q with rate := s.qpRate q * (256 - s.fld (F.LINK_QP_cc_step (q / 256) (q % 256))) / 256, cut := s.now }
  else s

/-- ROCE_CNP_RECEIVE. -/
def execRoceCnpReceive (qp : BitVec 13) (s : State) : Host.Outcome State Fault Refusal := go (cnpArrive qp.toNat s)

/-- The oldest request has no acknowledgement in time: every request is sent again. -/
def retransmit (q : Nat) (s : State) : State := goBack q (s.qpReqs q) s

/-- ROCE_RETRANSMIT_TIMEOUT. -/
def execRoceRetransmitTimeout (qp : BitVec 13) (s : State) : Host.Outcome State Fault Refusal := go (retransmit qp.toNat s)

/-- A priority flow control frame (R237): each priority that it enables is paused for its quanta, or resumed by 0; what waited for a resumed one
leaves. -/
def pfcFrame (k port : Nat) (enable : BitVec 8) (quanta : List (BitVec 16)) (s : State) : State :=
  if s.fld (if port = 0 then F.LINK_STS_port_a k else F.LINK_STS_port_b k) ≠ 2 then s
  else
    let paused := (List.range 8).foldl (fun m i =>
      if enable.getLsbD i then
        let key := 16 * k + 8 * port + i
        let t := (quanta.getD i 0).toNat
        if t = 0 then Sparse.drop m key else Sparse.put m key t
      else m) s.net.paused
    ({ s with net := { s.net with paused := paused } } : State).ethGo

/-- The time of the pauses has passed (log 125): what waited leaves. -/
def pausesEnd (s : State) : State := if s.net.paused.isEmpty then s else ({ s with net := { s.net with paused := [] } } : State).ethGo

/-- Time passes at the links: pauses end, records that could not be sent on are, and what waited takes effect where it can. -/
def linksTick (s : State) : State := inbGo (if s.ws.recs.isEmpty then fetchWake (pausesEnd s) else fetchWake (forwardAll (pausesEnd s)))

/-- PRIORITY_FLOW_CONTROL_FRAME. -/
def execPriorityFlowControlFrame (link : BitVec 5) (port : BitVec 1) (enable : BitVec 8) (quanta : List (BitVec 16)) (s : State) :
    Host.Outcome State Fault Refusal :=
  go (pfcFrame link.toNat port.toNat enable quanta s)

end Sys2Proof.Machine
end

