-- ==== Sys2Proof/Machine/Scalar.lean ====
section
/-! DEFINITION. Scalar arithmetic, compares and predicate logic (spec/04 R80, R81, Table 04-7). -/

namespace Sys2Proof.Machine

/-! ## The operations of Table 04-7 -/

/-- Shifts use bits [5:0] of the shift operand. -/
def shAmt (b : W64) : Nat := b.toNat % 64

/-- SHL. -/
def opShl (a b : W64) : W64 := a <<< shAmt b
/-- SHR. -/
def opShr (a b : W64) : W64 := a >>> shAmt b
/-- SRA. -/
def opSra (a b : W64) : W64 := a.sshiftRight (shAmt b)
/-- MULHU: the high 64 bits of the unsigned product. -/
def opMulhu (a b : W64) : W64 := BitVec.ofNat 64 (a.toNat * b.toNat / 2 ^ 64)
/-- MULH: the high 64 bits of the signed product. -/
def opMulh (a b : W64) : W64 := BitVec.ofInt 64 (a.toInt * b.toInt / 2 ^ 64)
/-- DIVU: all ones when the divisor is zero. -/
def opDivu (a b : W64) : W64 := if b = 0 then BitVec.allOnes 64 else BitVec.ofNat 64 (a.toNat / b.toNat)
/-- REMU: the dividend when the divisor is zero. -/
def opRemu (a b : W64) : W64 := if b = 0 then a else BitVec.ofNat 64 (a.toNat % b.toNat)
/-- DIV: quotient rounded toward zero, all ones when the divisor is zero; −2⁶³ by −1 gives −2⁶³. -/
def opDiv (a b : W64) : W64 := if b = 0 then BitVec.allOnes 64 else BitVec.ofInt 64 (Int.tdiv a.toInt b.toInt)
/-- REM: the dividend when the divisor is zero; −2⁶³ by −1 gives 0. -/
def opRem (a b : W64) : W64 := if b = 0 then a else BitVec.ofInt 64 (Int.tmod a.toInt b.toInt)
/-- MIN, signed. -/
def opMin (a b : W64) : W64 := if a.toInt ≤ b.toInt then a else b
/-- MAX, signed. -/
def opMax (a b : W64) : W64 := if a.toInt ≤ b.toInt then b else a
/-- MINU. -/
def opMinu (a b : W64) : W64 := if a.toNat ≤ b.toNat then a else b
/-- MAXU. -/
def opMaxu (a b : W64) : W64 := if a.toNat ≤ b.toNat then b else a
/-- EQ. -/
def cEq (a b : W64) : Bool := decide (a = b)
/-- NE. -/
def cNe (a b : W64) : Bool := decide (a ≠ b)
/-- LT, signed. -/
def cLt (a b : W64) : Bool := decide (a.toInt < b.toInt)
/-- LTU. -/
def cLtu (a b : W64) : Bool := decide (a.toNat < b.toNat)
/-- GE, signed. -/
def cGe (a b : W64) : Bool := decide (b.toInt ≤ a.toInt)
/-- GEU. -/
def cGeu (a b : W64) : Bool := decide (b.toNat ≤ a.toNat)

/-! ## Meanings -/

/-- ADD (spec/04 R80). -/
def execAdd (i : IA) (s : State) : Host.Outcome State Fault Refusal := go (scalarA (· + ·) i s)
/-- ADDI (spec/04 R80). -/
def execAddi (i : IB) (s : State) : Host.Outcome State Fault Refusal := go (scalarB (· + ·) i s)
/-- SUB (spec/04 R80). -/
def execSub (i : IA) (s : State) : Host.Outcome State Fault Refusal := go (scalarA (· - ·) i s)
/-- SUBI (spec/04 R80). -/
def execSubi (i : IB) (s : State) : Host.Outcome State Fault Refusal := go (scalarB (· - ·) i s)
/-- AND (spec/04 R80). -/
def execAnd (i : IA) (s : State) : Host.Outcome State Fault Refusal := go (scalarA (· &&& ·) i s)
/-- ANDI (spec/04 R80). -/
def execAndi (i : IB) (s : State) : Host.Outcome State Fault Refusal := go (scalarB (· &&& ·) i s)
/-- OR (spec/04 R80). -/
def execOr (i : IA) (s : State) : Host.Outcome State Fault Refusal := go (scalarA (· ||| ·) i s)
/-- ORI (spec/04 R80). -/
def execOri (i : IB) (s : State) : Host.Outcome State Fault Refusal := go (scalarB (· ||| ·) i s)
/-- XOR (spec/04 R80). -/
def execXor (i : IA) (s : State) : Host.Outcome State Fault Refusal := go (scalarA (· ^^^ ·) i s)
/-- XORI (spec/04 R80). -/
def execXori (i : IB) (s : State) : Host.Outcome State Fault Refusal := go (scalarB (· ^^^ ·) i s)
/-- SHL (spec/04 R80). -/
def execShl (i : IA) (s : State) : Host.Outcome State Fault Refusal := go (scalarA opShl i s)
/-- SHLI (spec/04 R80). -/
def execShli (i : IB) (s : State) : Host.Outcome State Fault Refusal := go (scalarB opShl i s)
/-- SHR (spec/04 R80). -/
def execShr (i : IA) (s : State) : Host.Outcome State Fault Refusal := go (scalarA opShr i s)
/-- SHRI (spec/04 R80). -/
def execShri (i : IB) (s : State) : Host.Outcome State Fault Refusal := go (scalarB opShr i s)
/-- SRA (spec/04 R80). -/
def execSra (i : IA) (s : State) : Host.Outcome State Fault Refusal := go (scalarA opSra i s)
/-- SRAI (spec/04 R80). -/
def execSrai (i : IB) (s : State) : Host.Outcome State Fault Refusal := go (scalarB opSra i s)
/-- MUL (spec/04 R80). -/
def execMul (i : IA) (s : State) : Host.Outcome State Fault Refusal := go (scalarA (· * ·) i s)
/-- MULI (spec/04 R80). -/
def execMuli (i : IB) (s : State) : Host.Outcome State Fault Refusal := go (scalarB (· * ·) i s)
/-- MULHU (spec/04 R80). -/
def execMulhu (i : IA) (s : State) : Host.Outcome State Fault Refusal := go (scalarA opMulhu i s)
/-- MULHUI (spec/04 R80). -/
def execMulhui (i : IB) (s : State) : Host.Outcome State Fault Refusal := go (scalarB opMulhu i s)
/-- MULH (spec/04 R80). -/
def execMulh (i : IA) (s : State) : Host.Outcome State Fault Refusal := go (scalarA opMulh i s)
/-- MULHI (spec/04 R80). -/
def execMulhi (i : IB) (s : State) : Host.Outcome State Fault Refusal := go (scalarB opMulh i s)
/-- DIVU (spec/04 R80). -/
def execDivu (i : IA) (s : State) : Host.Outcome State Fault Refusal := go (scalarA opDivu i s)
/-- DIVUI (spec/04 R80). -/
def execDivui (i : IB) (s : State) : Host.Outcome State Fault Refusal := go (scalarB opDivu i s)
/-- REMU (spec/04 R80). -/
def execRemu (i : IA) (s : State) : Host.Outcome State Fault Refusal := go (scalarA opRemu i s)
/-- REMUI (spec/04 R80). -/
def execRemui (i : IB) (s : State) : Host.Outcome State Fault Refusal := go (scalarB opRemu i s)
/-- DIV (spec/04 R80). -/
def execDiv (i : IA) (s : State) : Host.Outcome State Fault Refusal := go (scalarA opDiv i s)
/-- DIVI (spec/04 R80). -/
def execDivi (i : IB) (s : State) : Host.Outcome State Fault Refusal := go (scalarB opDiv i s)
/-- REM (spec/04 R80). -/
def execRem (i : IA) (s : State) : Host.Outcome State Fault Refusal := go (scalarA opRem i s)
/-- REMI (spec/04 R80). -/
def execRemi (i : IB) (s : State) : Host.Outcome State Fault Refusal := go (scalarB opRem i s)
/-- MIN (spec/04 R80). -/
def execMin (i : IA) (s : State) : Host.Outcome State Fault Refusal := go (scalarA opMin i s)
/-- MINI (spec/04 R80). -/
def execMini (i : IB) (s : State) : Host.Outcome State Fault Refusal := go (scalarB opMin i s)
/-- MAX (spec/04 R80). -/
def execMax (i : IA) (s : State) : Host.Outcome State Fault Refusal := go (scalarA opMax i s)
/-- MAXI (spec/04 R80). -/
def execMaxi (i : IB) (s : State) : Host.Outcome State Fault Refusal := go (scalarB opMax i s)
/-- MINU (spec/04 R80). -/
def execMinu (i : IA) (s : State) : Host.Outcome State Fault Refusal := go (scalarA opMinu i s)
/-- MINUI (spec/04 R80). -/
def execMinui (i : IB) (s : State) : Host.Outcome State Fault Refusal := go (scalarB opMinu i s)
/-- MAXU (spec/04 R80). -/
def execMaxu (i : IA) (s : State) : Host.Outcome State Fault Refusal := go (scalarA opMaxu i s)
/-- MAXUI (spec/04 R80). -/
def execMaxui (i : IB) (s : State) : Host.Outcome State Fault Refusal := go (scalarB opMaxu i s)
/-- CMP_EQ (spec/04 R81). -/
def execCmpEq (i : IA) (s : State) : Host.Outcome State Fault Refusal := go (compareA cEq i s)
/-- CMP_NE (spec/04 R81). -/
def execCmpNe (i : IA) (s : State) : Host.Outcome State Fault Refusal := go (compareA cNe i s)
/-- CMP_LT (spec/04 R81). -/
def execCmpLt (i : IA) (s : State) : Host.Outcome State Fault Refusal := go (compareA cLt i s)
/-- CMP_LTU (spec/04 R81). -/
def execCmpLtu (i : IA) (s : State) : Host.Outcome State Fault Refusal := go (compareA cLtu i s)
/-- CMP_GE (spec/04 R81). -/
def execCmpGe (i : IA) (s : State) : Host.Outcome State Fault Refusal := go (compareA cGe i s)
/-- CMP_GEU (spec/04 R81). -/
def execCmpGeu (i : IA) (s : State) : Host.Outcome State Fault Refusal := go (compareA cGeu i s)
/-- CMPI_EQ (spec/04 R81). -/
def execCmpiEq (i : IB) (s : State) : Host.Outcome State Fault Refusal := go (compareB cEq i s)
/-- CMPI_NE (spec/04 R81). -/
def execCmpiNe (i : IB) (s : State) : Host.Outcome State Fault Refusal := go (compareB cNe i s)
/-- CMPI_LT (spec/04 R81). -/
def execCmpiLt (i : IB) (s : State) : Host.Outcome State Fault Refusal := go (compareB cLt i s)
/-- CMPI_LTU (spec/04 R81). -/
def execCmpiLtu (i : IB) (s : State) : Host.Outcome State Fault Refusal := go (compareB cLtu i s)
/-- CMPI_GE (spec/04 R81). -/
def execCmpiGe (i : IB) (s : State) : Host.Outcome State Fault Refusal := go (compareB cGe i s)
/-- CMPI_GEU (spec/04 R81). -/
def execCmpiGeu (i : IB) (s : State) : Host.Outcome State Fault Refusal := go (compareB cGeu i s)
/-- PAND (spec/04 R81). -/
def execPand (i : IA) (s : State) : Host.Outcome State Fault Refusal := go (predicateA (· && ·) i s)
/-- POR (spec/04 R81). -/
def execPor (i : IA) (s : State) : Host.Outcome State Fault Refusal := go (predicateA (· || ·) i s)
/-- PXOR (spec/04 R81). -/
def execPxor (i : IA) (s : State) : Host.Outcome State Fault Refusal := go (predicateA xor i s)
/-- PANDN (spec/04 R81). -/
def execPandn (i : IA) (s : State) : Host.Outcome State Fault Refusal := go (predicateA (fun a b => a && !b) i s)
/-- PSET (spec/04 R81): p[d] = (s[a] ≠ 0). -/
def execPset (i : IA) (s : State) : Host.Outcome State Fault Refusal :=
  go (issue i.n i.k i.pg i.pn 8 (i.legal true true false false false 0 && predField i.d) [i.a.toNat] [] s fun s =>
    let x := s.ctx i.n i.k
    s.setCtx i.n i.k ((x.setPr i.d.toNat (decide (x.sr i.a.toNat ≠ 0))).adv 8))
/-- PGET (spec/04 R81): s[d] = p[a]. -/
def execPget (i : IA) (s : State) : Host.Outcome State Fault Refusal :=
  go (issue i.n i.k i.pg i.pn 8 (i.legal true true false false false 0 && predField i.a) [] [] s fun s =>
    let x := s.ctx i.n i.k
    s.setCtx i.n i.k ((x.setSr i.d.toNat (BitVec.ofNat 64 (bit (x.pr i.a.toNat)))).adv 8))

end Sys2Proof.Machine
end

