-- ==== Sys2Proof/Machine/Dispatch.lean ====
section
/-! DEFINITION. The meaning of every command: one arm per constructor of `Instr`, each a direct call of its meaning. -/

namespace Sys2Proof.Machine

def exec (i : Instr) (s : State) : Host.Outcome State Fault Refusal :=
  match i with
  | .add ins => Sys2Proof.Machine.execAdd ins s
  | .addi ins => Sys2Proof.Machine.execAddi ins s
  | .sub ins => Sys2Proof.Machine.execSub ins s
  | .subi ins => Sys2Proof.Machine.execSubi ins s
  | .and ins => Sys2Proof.Machine.execAnd ins s
  | .andi ins => Sys2Proof.Machine.execAndi ins s
  | .or ins => Sys2Proof.Machine.execOr ins s
  | .ori ins => Sys2Proof.Machine.execOri ins s
  | .xor ins => Sys2Proof.Machine.execXor ins s
  | .xori ins => Sys2Proof.Machine.execXori ins s
  | .shl ins => Sys2Proof.Machine.execShl ins s
  | .shli ins => Sys2Proof.Machine.execShli ins s
  | .shr ins => Sys2Proof.Machine.execShr ins s
  | .shri ins => Sys2Proof.Machine.execShri ins s
  | .sra ins => Sys2Proof.Machine.execSra ins s
  | .srai ins => Sys2Proof.Machine.execSrai ins s
  | .mul ins => Sys2Proof.Machine.execMul ins s
  | .muli ins => Sys2Proof.Machine.execMuli ins s
  | .mulhu ins => Sys2Proof.Machine.execMulhu ins s
  | .mulhui ins => Sys2Proof.Machine.execMulhui ins s
  | .mulh ins => Sys2Proof.Machine.execMulh ins s
  | .mulhi ins => Sys2Proof.Machine.execMulhi ins s
  | .divu ins => Sys2Proof.Machine.execDivu ins s
  | .divui ins => Sys2Proof.Machine.execDivui ins s
  | .remu ins => Sys2Proof.Machine.execRemu ins s
  | .remui ins => Sys2Proof.Machine.execRemui ins s
  | .div ins => Sys2Proof.Machine.execDiv ins s
  | .divi ins => Sys2Proof.Machine.execDivi ins s
  | .rem ins => Sys2Proof.Machine.execRem ins s
  | .remi ins => Sys2Proof.Machine.execRemi ins s
  | .min ins => Sys2Proof.Machine.execMin ins s
  | .mini ins => Sys2Proof.Machine.execMini ins s
  | .max ins => Sys2Proof.Machine.execMax ins s
  | .maxi ins => Sys2Proof.Machine.execMaxi ins s
  | .minu ins => Sys2Proof.Machine.execMinu ins s
  | .minui ins => Sys2Proof.Machine.execMinui ins s
  | .maxu ins => Sys2Proof.Machine.execMaxu ins s
  | .maxui ins => Sys2Proof.Machine.execMaxui ins s
  | .cmpEq ins => Sys2Proof.Machine.execCmpEq ins s
  | .cmpNe ins => Sys2Proof.Machine.execCmpNe ins s
  | .cmpLt ins => Sys2Proof.Machine.execCmpLt ins s
  | .cmpLtu ins => Sys2Proof.Machine.execCmpLtu ins s
  | .cmpGe ins => Sys2Proof.Machine.execCmpGe ins s
  | .cmpGeu ins => Sys2Proof.Machine.execCmpGeu ins s
  | .cmpiEq ins => Sys2Proof.Machine.execCmpiEq ins s
  | .cmpiNe ins => Sys2Proof.Machine.execCmpiNe ins s
  | .cmpiLt ins => Sys2Proof.Machine.execCmpiLt ins s
  | .cmpiLtu ins => Sys2Proof.Machine.execCmpiLtu ins s
  | .cmpiGe ins => Sys2Proof.Machine.execCmpiGe ins s
  | .cmpiGeu ins => Sys2Proof.Machine.execCmpiGeu ins s
  | .pand ins => Sys2Proof.Machine.execPand ins s
  | .por ins => Sys2Proof.Machine.execPor ins s
  | .pxor ins => Sys2Proof.Machine.execPxor ins s
  | .pandn ins => Sys2Proof.Machine.execPandn ins s
  | .pset ins => Sys2Proof.Machine.execPset ins s
  | .pget ins => Sys2Proof.Machine.execPget ins s
  | .ld ins => Sys2Proof.Machine.execLd ins s
  | .st ins => Sys2Proof.Machine.execSt ins s
  | .tld ins => Sys2Proof.Machine.execTld ins s
  | .tst ins => Sys2Proof.Machine.execTst ins s
  | .scalarLoadReturn core ctx => Sys2Proof.Machine.execScalarLoadReturn core ctx s
  | .tset ins => Sys2Proof.Machine.execTset ins s
  | .tget ins => Sys2Proof.Machine.execTget ins s
  | .tmov ins => Sys2Proof.Machine.execTmov ins s
  | .br ins => Sys2Proof.Machine.execBr ins s
  | .jal ins => Sys2Proof.Machine.execJal ins s
  | .jr ins => Sys2Proof.Machine.execJr ins s
  | .cstart ins => Sys2Proof.Machine.execCstart ins s
  | .endCtx ins => Sys2Proof.Machine.execEndCtx ins s
  | .rdsys ins => Sys2Proof.Machine.execRdsys ins s
  | .ifence ins => Sys2Proof.Machine.execIfence ins s
  | .nop ins => Sys2Proof.Machine.execNop ins s
  | .waitp ins => Sys2Proof.Machine.execWaitp ins s
  | .bar ins => Sys2Proof.Machine.execBar ins s
  | .evsig ins => Sys2Proof.Machine.execEvsig ins s
  | .evwait ins => Sys2Proof.Machine.execEvwait ins s
  | .ctxSliceExpiry core => Sys2Proof.Machine.execCtxSliceExpiry core s
  | .qcfg ins => Sys2Proof.Machine.execQcfg ins s
  | .qbind ins => Sys2Proof.Machine.execQbind ins s
  | .qacq ins => Sys2Proof.Machine.execQacq ins s
  | .qrel ins => Sys2Proof.Machine.execQrel ins s
  | .qsub ins => Sys2Proof.Machine.execQsub ins s
  | .slm ins => Sys2Proof.Machine.execSlm ins s
  | .cmm ins => Sys2Proof.Machine.execCmm ins s
  | .chb ins => Sys2Proof.Machine.execChb ins s
  | .cbwd ins => Sys2Proof.Machine.execCbwd ins s
  | .cdrn ins => Sys2Proof.Machine.execCdrn ins s
  | .czero ins => Sys2Proof.Machine.execCzero ins s
  | .carveCommandDone core arr idx => Sys2Proof.Machine.execCarveCommandDone core arr idx s
  | .smv ins => Sys2Proof.Machine.execSmv ins s
  | .schussCommandDone core => Sys2Proof.Machine.execSchussCommandDone core s
  | .gnrm ins => Sys2Proof.Machine.execGnrm ins s
  | .gsmx ins => Sys2Proof.Machine.execGsmx ins s
  | .gnrmb ins => Sys2Proof.Machine.execGnrmb ins s
  | .gsmxb ins => Sys2Proof.Machine.execGsmxb ins s
  | .groomerCommandDone core => Sys2Proof.Machine.execGroomerCommandDone core s
  | .vadd ins => Sys2Proof.Machine.execVadd ins s
  | .vsub ins => Sys2Proof.Machine.execVsub ins s
  | .vmul ins => Sys2Proof.Machine.execVmul ins s
  | .vfma ins => Sys2Proof.Machine.execVfma ins s
  | .vmax ins => Sys2Proof.Machine.execVmax ins s
  | .vmin ins => Sys2Proof.Machine.execVmin ins s
  | .vscale ins => Sys2Proof.Machine.execVscale ins s
  | .vexp ins => Sys2Proof.Machine.execVexp ins s
  | .vlog ins => Sys2Proof.Machine.execVlog ins s
  | .vrcp ins => Sys2Proof.Machine.execVrcp ins s
  | .vrsqrt ins => Sys2Proof.Machine.execVrsqrt ins s
  | .vact ins => Sys2Proof.Machine.execVact ins s
  | .vcvt ins => Sys2Proof.Machine.execVcvt ins s
  | .vrsum ins => Sys2Proof.Machine.execVrsum ins s
  | .vamax ins => Sys2Proof.Machine.execVamax ins s
  | .vgbq ins => Sys2Proof.Machine.execVgbq ins s
  | .vgba ins => Sys2Proof.Machine.execVgba ins s
  | .vgbd ins => Sys2Proof.Machine.execVgbd ins s
  | .vres ins => Sys2Proof.Machine.execVres ins s
  | .vopt ins => Sys2Proof.Machine.execVopt ins s
  | .viadd ins => Sys2Proof.Machine.execViadd ins s
  | .vimul ins => Sys2Proof.Machine.execVimul ins s
  | .vicmp ins => Sys2Proof.Machine.execVicmp ins s
  | .vectorCommandDone core => Sys2Proof.Machine.execVectorCommandDone core s
  | .spush ins => Sys2Proof.Machine.execSpush ins s
  | .spop ins => Sys2Proof.Machine.execSpop ins s
  | .spskip ins => Sys2Proof.Machine.execSpskip ins s
  | .snowpackCommandDone core => Sys2Proof.Machine.execSnowpackCommandDone core s
  | .snowpackSpillAck core => Sys2Proof.Machine.execSnowpackSpillAck core s
  | .snowpackRefillData core => Sys2Proof.Machine.execSnowpackRefillData core s
  | .rget ins => Sys2Proof.Machine.execRget ins s
  | .rput ins => Sys2Proof.Machine.execRput ins s
  | .rcopy ins => Sys2Proof.Machine.execRcopy ins s
  | .ratom ins => Sys2Proof.Machine.execRatom ins s
  | .rfence ins => Sys2Proof.Machine.execRfence ins s
  | .rdsub ins => Sys2Proof.Machine.execRdsub ins s
  | .rdrecv ins => Sys2Proof.Machine.execRdrecv ins s
  | .ckvote ins => Sys2Proof.Machine.execCkvote ins s
  | .ckdig ins => Sys2Proof.Machine.execCkdig ins s
  | .digestDone core => Sys2Proof.Machine.execDigestDone core s
  | .slalomDone core => Sys2Proof.Machine.execSlalomDone core s
  | .streamResponse core req resp => Sys2Proof.Machine.execStreamResponse core req resp s
  | .atuWalkReturn core => Sys2Proof.Machine.execAtuWalkReturn core s
  | .coreCtxStartWrite core value => Sys2Proof.Machine.execCoreCtxStartWrite core value s
  | .coreCtxResumeWrite core value => Sys2Proof.Machine.execCoreCtxResumeWrite core value s
  | .coreCtxKillWrite core value => Sys2Proof.Machine.execCoreCtxKillWrite core value s
  | .coreEvSetWrite core value => Sys2Proof.Machine.execCoreEvSetWrite core value s
  | .coreSramCfgWrite core value => Sys2Proof.Machine.execCoreSramCfgWrite core value s
  | .coreAtuInvalWrite core value => Sys2Proof.Machine.execCoreAtuInvalWrite core value s
  | .atuInvalDone core => Sys2Proof.Machine.execAtuInvalDone core s
  | .coreRingResume core ring => Sys2Proof.Machine.execCoreRingResume core ring s
  | .coreRingAbort core ring => Sys2Proof.Machine.execCoreRingAbort core ring s
  | .coreRingReset core ring => Sys2Proof.Machine.execCoreRingReset core ring s
  | .coreXslotResume core slot => Sys2Proof.Machine.execCoreXslotResume core slot s
  | .coreXslotAbort core slot => Sys2Proof.Machine.execCoreXslotAbort core slot s
  | .sramScrub core line err => Sys2Proof.Machine.execSramScrub core line err s
  | .heartbeatSample field missed => Sys2Proof.Machine.execHeartbeatSample field missed s
  | .coreRemap failsTest => Sys2Proof.Machine.execCoreRemap failsTest s
  | .fabricPacketArrive x y pkt => Sys2Proof.Machine.execFabricPacketArrive x y pkt s
  | .fabricPressWindow ports => Sys2Proof.Machine.execFabricPressWindow ports s
  | .linkTrainStageDone link stage => Sys2Proof.Machine.execLinkTrainStageDone link stage s
  | .linkTrainTimeout link => Sys2Proof.Machine.execLinkTrainTimeout link s
  | .ethPortTrainDone link port ok => Sys2Proof.Machine.execEthPortTrainDone link port ok s
  | .linkRetrain link => Sys2Proof.Machine.execLinkRetrain link s
  | .laneLoss link lane => Sys2Proof.Machine.execLaneLoss link lane s
  | .ofpFlitReceive link flit => Sys2Proof.Machine.execOfpFlitReceive link flit s
  | .linkIdleTimeout link => Sys2Proof.Machine.execLinkIdleTimeout link s
  | .linkCreditTimeout link vc => Sys2Proof.Machine.execLinkCreditTimeout link vc s
  | .linkDrainSwitchDone => Sys2Proof.Machine.execLinkDrainSwitchDone s
  | .devLgrpAdmit => Sys2Proof.Machine.execDevLgrpAdmit s
  | .ofpGet pkt => Sys2Proof.Machine.execOfpGet pkt s
  | .ofpPut pkt => Sys2Proof.Machine.execOfpPut pkt s
  | .ofpAtom pkt => Sys2Proof.Machine.execOfpAtom pkt s
  | .ofpCopy pkt => Sys2Proof.Machine.execOfpCopy pkt s
  | .ofpData pkt => Sys2Proof.Machine.execOfpData pkt s
  | .ofpAck pkt => Sys2Proof.Machine.execOfpAck pkt s
  | .ofpAtomr pkt => Sys2Proof.Machine.execOfpAtomr pkt s
  | .ofpErr pkt => Sys2Proof.Machine.execOfpErr pkt s
  | .ofpCdone pkt => Sys2Proof.Machine.execOfpCdone pkt s
  | .ofpWseg pkt => Sys2Proof.Machine.execOfpWseg pkt s
  | .ofpGbk pkt => Sys2Proof.Machine.execOfpGbk pkt s
  | .ctlHeartbeat link rec => Sys2Proof.Machine.execCtlHeartbeat link rec s
  | .ctlGoodbye link rec => Sys2Proof.Machine.execCtlGoodbye link rec s
  | .ctlVote link rec => Sys2Proof.Machine.execCtlVote link rec s
  | .ctlDecision link rec => Sys2Proof.Machine.execCtlDecision link rec s
  | .remoteResponseTimeout tag => Sys2Proof.Machine.execRemoteResponseTimeout tag s
  | .heartbeatSend => Sys2Proof.Machine.execHeartbeatSend s
  | .peerTimeout node => Sys2Proof.Machine.execPeerTimeout node s
  | .roceSendReceive qp msg => Sys2Proof.Machine.execRoceSendReceive qp msg s
  | .roceWriteReceive qp msg => Sys2Proof.Machine.execRoceWriteReceive qp msg s
  | .roceReadReceive qp msg => Sys2Proof.Machine.execRoceReadReceive qp msg s
  | .roceAtomicReceive qp msg => Sys2Proof.Machine.execRoceAtomicReceive qp msg s
  | .roceAckReceive qp msg => Sys2Proof.Machine.execRoceAckReceive qp msg s
  | .roceCnpReceive qp => Sys2Proof.Machine.execRoceCnpReceive qp s
  | .roceRetransmitTimeout qp => Sys2Proof.Machine.execRoceRetransmitTimeout qp s
  | .wstreamKeyUnwrap value => Sys2Proof.Machine.execWstreamKeyUnwrap value s
  | .wstreamKeyTimeout epoch => Sys2Proof.Machine.execWstreamKeyTimeout epoch s
  | .wstreamPlanLoad value => Sys2Proof.Machine.execWstreamPlanLoad value s
  | .recordDecrypt stream recNo => Sys2Proof.Machine.execRecordDecrypt stream recNo s
  | .entryComplete entry => Sys2Proof.Machine.execEntryComplete entry s
  | .wstreamWbqWrite core value => Sys2Proof.Machine.execWstreamWbqWrite core value s
  | .writebackDone => Sys2Proof.Machine.execWritebackDone s
  | .wstreamBufRelWrite core value => Sys2Proof.Machine.execWstreamBufRelWrite core value s
  | .wstreamJobGo value => Sys2Proof.Machine.execWstreamJobGo value s
  | .wstreamJobEnd value => Sys2Proof.Machine.execWstreamJobEnd value s
  | .wstreamTreeTimeout => Sys2Proof.Machine.execWstreamTreeTimeout s
  | .jobJoinCheck peer => Sys2Proof.Machine.execJobJoinCheck peer s
  | .joinRecordRefresh => Sys2Proof.Machine.execJoinRecordRefresh s
  | .memberLeaveRequest node leave => Sys2Proof.Machine.execMemberLeaveRequest node leave s
  | .redPlanLoad value => Sys2Proof.Machine.execRedPlanLoad value s
  | .redChainArm value => Sys2Proof.Machine.execRedChainArm value s
  | .voteSend => Sys2Proof.Machine.execVoteSend s
  | .voteTimerExpiry => Sys2Proof.Machine.execVoteTimerExpiry s
  | .ckptUpdWrite value => Sys2Proof.Machine.execCkptUpdWrite value s
  | .rollback => Sys2Proof.Machine.execRollback s
  | .ckptTensLoad value => Sys2Proof.Machine.execCkptTensLoad value s
  | .freezeTimer => Sys2Proof.Machine.execFreezeTimer s
  | .ckptFreezeNow value => Sys2Proof.Machine.execCkptFreezeNow value s
  | .freezeDrainSend => Sys2Proof.Machine.execFreezeDrainSend s
  | .freezeDrainAck => Sys2Proof.Machine.execFreezeDrainAck s
  | .ckptCompare owner => Sys2Proof.Machine.execCkptCompare owner s
  | .ckptCompareTimeout owner => Sys2Proof.Machine.execCkptCompareTimeout owner s
  | .ckptPromote value slot => Sys2Proof.Machine.execCkptPromote value slot s
  | .ckptAdopt value slot => Sys2Proof.Machine.execCkptAdopt value slot s
  | .ckptScan value slots => Sys2Proof.Machine.execCkptScan value slots s
  | .ckptLoad value slot shadow => Sys2Proof.Machine.execCkptLoad value slot shadow s
  | .ckptBuddyStep value => Sys2Proof.Machine.execCkptBuddyStep value s
  | .siteToOff site => Sys2Proof.Machine.execSiteToOff site s
  | .siteToRet site => Sys2Proof.Machine.execSiteToRet site s
  | .siteToIdle site => Sys2Proof.Machine.execSiteToIdle site s
  | .idleTimeout site => Sys2Proof.Machine.execIdleTimeout site s
  | .telemetryFrame frame => Sys2Proof.Machine.execTelemetryFrame frame s
  | .powerLoopIteration flowDeci => Sys2Proof.Machine.execPowerLoopIteration flowDeci s
  | .capWrite value => Sys2Proof.Machine.execCapWrite value s
  | .capLeaseExpiry => Sys2Proof.Machine.execCapLeaseExpiry s
  | .pwrBrakeAssert => Sys2Proof.Machine.execPwrBrakeAssert s
  | .pwrBrakeDeassert => Sys2Proof.Machine.execPwrBrakeDeassert s
  | .inputUndervoltage => Sys2Proof.Machine.execInputUndervoltage s
  | .inputFail => Sys2Proof.Machine.execInputFail s
  | .holdupEnd => Sys2Proof.Machine.execHoldupEnd s
  | .crevasseWindow entry meas => Sys2Proof.Machine.execCrevasseWindow entry meas s
  | .pwrCrevRecal value base => Sys2Proof.Machine.execPwrCrevRecal value base s
  | .phaseLoss site => Sys2Proof.Machine.execPhaseLoss site s
  | .regulatorControllerFault site => Sys2Proof.Machine.execRegulatorControllerFault site s
  | .siteShort site => Sys2Proof.Machine.execSiteShort site s
  | .vfieldShort field => Sys2Proof.Machine.execVfieldShort field s
  | .rimConverterFault segment => Sys2Proof.Machine.execRimConverterFault segment s
  | .alwaysOnConverterFault half => Sys2Proof.Machine.execAlwaysOnConverterFault half s
  | .thermalSample field temps => Sys2Proof.Machine.execThermalSample field temps s
  | .coolantLeak sensor => Sys2Proof.Machine.execCoolantLeak sensor s
  | .pwrServiceClear value => Sys2Proof.Machine.execPwrServiceClear value s
  | .fieldRefDeviation field neighbour => Sys2Proof.Machine.execFieldRefDeviation field neighbour s
  | .devTimeCorrection elapsed => Sys2Proof.Machine.execDevTimeCorrection elapsed s
  | .ptpMessage msg => Sys2Proof.Machine.execPtpMessage msg s
  | .ptpSyncLoss secs => Sys2Proof.Machine.execPtpSyncLoss secs s
  | .ptpHoldoverExceeded secs => Sys2Proof.Machine.execPtpHoldoverExceeded secs s
  | .devTimeSetWrite value => Sys2Proof.Machine.execDevTimeSetWrite value s
  | .wearSlackSample site slackPs temp => Sys2Proof.Machine.execWearSlackSample site slackPs temp s
  | .vminMeasure site vminMv temp => Sys2Proof.Machine.execVminMeasure site vminMv temp s
  | .wearReplan site plan => Sys2Proof.Machine.execWearReplan site plan s
  | .lodgeWatchdogExpiry lodgeCore => Sys2Proof.Machine.execLodgeWatchdogExpiry lodgeCore s
  | .lodgeMemoryError => Sys2Proof.Machine.execLodgeMemoryError s
  | .devLodgeRestart value => Sys2Proof.Machine.execDevLodgeRestart value s
  | .lodgeRestartDone boot => Sys2Proof.Machine.execLodgeRestartDone boot s
  | .powerLoopWatchdog => Sys2Proof.Machine.execPowerLoopWatchdog s
  | .mgmtConnect session client => Sys2Proof.Machine.execMgmtConnect session client s
  | .regRead req => Sys2Proof.Machine.execRegRead req s
  | .regWrite req => Sys2Proof.Machine.execRegWrite req s
  | .evtRead req => Sys2Proof.Machine.execEvtRead req s
  | .telRead req => Sys2Proof.Machine.execTelRead req s
  | .wearRead req => Sys2Proof.Machine.execWearRead req s
  | .attest req => Sys2Proof.Machine.execAttest req s
  | .cap req => Sys2Proof.Machine.execCap req s
  | .keyInstall req => Sys2Proof.Machine.execKeyInstall req s
  | .fwStage req => Sys2Proof.Machine.execFwStage req s
  | .recWrite req => Sys2Proof.Machine.execRecWrite req s
  | .presStage req => Sys2Proof.Machine.execPresStage req s
  | .evtSubscribe req => Sys2Proof.Machine.execEvtSubscribe req s
  | .evtSubscribePush session => Sys2Proof.Machine.execEvtSubscribePush session s
  | .secFwCommit value => Sys2Proof.Machine.execSecFwCommit value s
  | .presenceButton => Sys2Proof.Machine.execPresenceButton s
  | .serviceJumperClose => Sys2Proof.Machine.execServiceJumperClose s
  | .presenceTimeout => Sys2Proof.Machine.execPresenceTimeout s
  | .counterClear addr value => Sys2Proof.Machine.execCounterClear addr value s
  | .prsntAssert => Sys2Proof.Machine.execPrsntAssert s
  | .prsntDeassert => Sys2Proof.Machine.execPrsntDeassert s
  | .bootStageDone boot => Sys2Proof.Machine.execBootStageDone boot s
  | .devJoin value => Sys2Proof.Machine.execDevJoin value s
  | .devResetWarm value => Sys2Proof.Machine.execDevResetWarm value s
  | .runoutStart value => Sys2Proof.Machine.execRunoutStart value s
  | .runoutNow value => Sys2Proof.Machine.execRunoutNow value s
  | .runoutWaitExpiry => Sys2Proof.Machine.execRunoutWaitExpiry s
  | .runoutBegin => Sys2Proof.Machine.execRunoutBegin s
  | .runoutDrainTimeout => Sys2Proof.Machine.execRunoutDrainTimeout s
  | .ejectAssert => Sys2Proof.Machine.execEjectAssert s
  | .ejectDeassert => Sys2Proof.Machine.execEjectDeassert s
  | .registerWrite addr size value => Sys2Proof.Machine.execRegisterWrite addr size value s
  | .nullFlitSend link => Sys2Proof.Machine.execNullFlitSend link s
  | .inputReturn milliVolts => Sys2Proof.Machine.execInputReturn milliVolts s
  | .sitePowerTransitionDone site => Sys2Proof.Machine.execSitePowerTransitionDone site s
  | .snowpackDirectoryRefill core => Sys2Proof.Machine.execSnowpackDirectoryRefill core s
  | .priorityFlowControlFrame link port enable quanta => Sys2Proof.Machine.execPriorityFlowControlFrame link port enable quanta s

end Sys2Proof.Machine
end

