-- ==== Sys2Proof/Machine/Words.lean ====
section
/-! DEFINITION. The issue of a program's words (spec/04 R70, R73, R74): the instruction that a word spells runs; a word with an undefined opcode or an
unlisted fn takes E_ILLEGAL. The commands of the queue carry instructions that have been decoded (log 7); on an empty queue the cores run the words
that their programs hold in SRAM (log 9). -/

namespace Sys2Proof.Machine

/-- A word that spells no instruction: E_ILLEGAL, which no guard suppresses (R74). -/
def illegalWord (n k : Nat) (s : State) : State := issue n k 0 false 8 false [] [] s id

/-- A context issues a word, followed by another one in SRAM. -/
def issueWord (core : BitVec 10) (ctx : BitVec 3) (w ext : W64) (s : State) : Host.Outcome State Fault Refusal :=
  match decodeWord core ctx w ext with
  | some i => exec i s
  | none => .next (illegalWord core.toNat ctx.toNat s)

/-- The word at an SRAM offset of a core (R73). -/
def State.wordAt (s : State) (n off : Nat) : W64 := BitVec.ofNat 64 (leNat (s.lbytes n 1 off 8))

/-- A context issues the word that its PC names. -/
def issueAtPc (core : BitVec 10) (ctx : BitVec 3) (s : State) : Host.Outcome State Fault Refusal :=
  let pc := (s.ctx core.toNat ctx.toNat).pc
  issueWord core ctx (s.wordAt core.toNat pc) (s.wordAt core.toNat (pc + 8)) s

/-- The context of core `n` that may issue: the one that is RUNNING, on a core that is not stopped. -/
def State.issuer (s : State) (n : Nat) : Option Nat := (List.range 8).find? (fun k => s.issues n k)

/-- Core `n` issues the next word of its program (R73). -/
def coreTick (n : Nat) (s : State) : State :=
  match s.issuer n with
  | none => s
  | some k =>
    match issueAtPc (BitVec.ofNat 10 n) (BitVec.ofNat 3 k) s with
    | .next t => t
    | .fault _ => s
    | .refused _ => s

/-- Every core with a RUNNING context issues the next word of its program, in the order of the core numbers (log 9). -/
def coresTick (s : State) : State := s.cores.foldl (fun st p => coreTick p.1 st) s

end Sys2Proof.Machine
end

