-- ==== Sys2Proof/Safety.lean ====
section
/-! DEFINITION. What counts as a safe run, and the terms the statements use: when an instruction issues and executes, and what a step leaves as
it was. -/

namespace Sys2Proof

/-- A state from which the next step has a next state. -/
def Safe (s : Machine.State) : Prop := ∃ t, Machine.step s = .next t

/-- A state whose memory is in canonical form. -/
abbrev MemOk (s : Machine.State) : Prop := s.mem.wf = true

namespace Machine

/-- Context `k` of core `n` issues an instruction and it executes (spec/04 R71, R73, R76): the core exists and is not stopped, the
context is RUNNING at a legal pc, its guard holds, and no outstanding load holds a register that the instruction reads. -/
structure State.Executes (s : State) (n k : Nat) (pg : BitVec 3) (pn : Bool) (rs ts : List Nat) : Prop where
  issues : s.issues n k = true
  pc : pcOk (s.ctx n k).pc = true
  guard : (s.ctx n k).guard pg pn = true
  free : (s.ctx n k).held rs ts = false

/-- A context of a core that is not stopped. -/
def State.Live (s : State) (n : Nat) : Prop := n < s.ncores ∧ s.stoppedAt n = false

/-- A command that leaves every byte of memory as it was. -/
def SameMem (s t : State) : Prop := ∀ a, t.mem.read a = s.mem.read a

/-- A command that changes no register but those at the addresses listed. -/
def SameRegs (s t : State) (but : List Nat) : Prop := ∀ a, a ∉ but → t.reg a = s.reg a

/-- A command that leaves every core but `n` as it was. -/
def SameCores (s t : State) (n : Nat) : Prop := ∀ m, m ≠ n → t.core m = s.core m

/-- A command that leaves the scalars, descriptors, predicates, handles and sticky flags of a context as they were. -/
def SameRegisters (x y : Ctx) : Prop :=
  (∀ i, y.sr i = x.sr i) ∧ (∀ i, y.tr i = x.tr i) ∧ (∀ i, y.pr i = x.pr i) ∧ (∀ i, y.hd i = x.hd i)
    ∧ y.nv = x.nv ∧ y.of = x.of ∧ y.sat = x.sat ∧ y.psn = x.psn

end Machine

end Sys2Proof
end

