-- ==== Sys2Proof/Certificates/Slice0/Obligations.lean ====
section
/-! DEFINITION. The statements about the XJW1 model: each formalises numbered rules of the specification or a property of the whole machine. -/

open Sys2Proof Sys2Proof.Machine

/-! ## The machine -/

/-- A step takes the command at the front of the queue and is `exec` of it with the queue's rest. On an empty queue what waits on the links and in
the mesh goes on where it can and each core issues the next word of its program; with nothing waiting and no context RUNNING the module idles (the
model's choice, log 9). -/
def Obligations.StepRunsFrontCommand : Prop :=
  (∀ (c : Instr) (rest : List Instr) (s : State), step { s with pending := c :: rest } = exec c { s with pending := rest })
    ∧ (∀ s : State, s.pending = [] → step s = .next (coresTick (fabTick (linksTick s))))
    ∧ (∀ s : State, s.pending = [] → s.ws.recs = [] → s.ws.waiting = [] → s.net.paused = [] → s.net.inb = [] → s.fab.bufs = [] →
        s.fab.waits = [] → (∀ n, s.issuer n = none) → step s = .next s)

/-- No command stops the machine: faults of a context, halts and refused requests are next states. -/
def Obligations.EveryCommandCompletes : Prop :=
  ∀ (c : Instr) (s : State), ∃ t, exec c s = .next t

/-- Memory is in canonical form at reset. -/
def Obligations.ResetMemoryCanonical : Prop := MemOk State.reset

/-- Every step from a state whose memory is in canonical form gives one whose memory is. -/
def Obligations.StepKeepsMemoryCanonical : Prop :=
  ∀ s t : State, MemOk s → step s = .next t → MemOk t

/-! ## Scalar instructions (spec/04 R80-R83) -/

/-- A command answers a next state that has a property. -/
def Slice0.Does (c : Instr) (s : State) (P : State → Prop) : Prop := ∃ t, exec c s = .next t ∧ P t

/-- The instructions of op 0x01 with the value that Table 04-7 gives each. -/
def Slice0.scalarA : List ((IA → Instr) × (W64 → W64 → W64)) :=
  [(.add, fun a b => a + b), (.sub, fun a b => a - b), (.and, fun a b => a &&& b), (.or, fun a b => a ||| b), (.xor, fun a b => a ^^^ b),
   (.shl, fun a b => a <<< (b.toNat % 64)), (.shr, fun a b => a >>> (b.toNat % 64)), (.sra, fun a b => a.sshiftRight (b.toNat % 64)),
   (.mul, fun a b => a * b), (.mulhu, fun a b => BitVec.ofNat 64 (a.toNat * b.toNat / 2 ^ 64)),
   (.mulh, fun a b => BitVec.ofInt 64 (a.toInt * b.toInt / 2 ^ 64)),
   (.divu, fun a b => if b = 0 then BitVec.allOnes 64 else a / b), (.remu, fun a b => if b = 0 then a else a % b),
   (.div, fun a b => if b = 0 then BitVec.allOnes 64 else a.sdiv b), (.rem, fun a b => if b = 0 then a else a.srem b),
   (.min, fun a b => if a.slt b then a else b), (.max, fun a b => if a.slt b then b else a),
   (.minu, fun a b => if a.ult b then a else b), (.maxu, fun a b => if a.ult b then b else a)]

/-- The instructions of op 0x02, by the same table. -/
def Slice0.scalarB : List ((IB → Instr) × (W64 → W64 → W64)) :=
  [(.addi, fun a b => a + b), (.subi, fun a b => a - b), (.andi, fun a b => a &&& b), (.ori, fun a b => a ||| b), (.xori, fun a b => a ^^^ b),
   (.shli, fun a b => a <<< (b.toNat % 64)), (.shri, fun a b => a >>> (b.toNat % 64)), (.srai, fun a b => a.sshiftRight (b.toNat % 64)),
   (.muli, fun a b => a * b), (.mulhui, fun a b => BitVec.ofNat 64 (a.toNat * b.toNat / 2 ^ 64)),
   (.mulhi, fun a b => BitVec.ofInt 64 (a.toInt * b.toInt / 2 ^ 64)),
   (.divui, fun a b => if b = 0 then BitVec.allOnes 64 else a / b), (.remui, fun a b => if b = 0 then a else a % b),
   (.divi, fun a b => if b = 0 then BitVec.allOnes 64 else a.sdiv b), (.remi, fun a b => if b = 0 then a else a.srem b),
   (.mini, fun a b => if a.slt b then a else b), (.maxi, fun a b => if a.slt b then b else a),
   (.minui, fun a b => if a.ult b then a else b), (.maxui, fun a b => if a.ult b then b else a)]

/-- R80, op 0x01: s[d] takes f(s[a], s[b]), a write to s0 being ignored, the pc advances by 8, and everything else is as before. -/
def Slice0.ScalarRegister : Prop :=
  ∀ p ∈ Slice0.scalarA, ∀ (i : IA) (s : State), s.Executes i.n i.k i.pg i.pn [i.a.toNat, i.b.toNat] [] →
    i.legal true true true false false 0 = true →
    exec (p.1 i) s = .next (s.setCtx i.n i.k
      (((s.ctx i.n i.k).setSr i.d.toNat (p.2 ((s.ctx i.n i.k).sr i.a.toNat) ((s.ctx i.n i.k).sr i.b.toNat))).adv 8))

/-- R80, op 0x02: the same with the immediate, the pc advancing by the instruction's length. -/
def Slice0.ScalarImmediate : Prop :=
  ∀ p ∈ Slice0.scalarB, ∀ (i : IB) (s : State), s.Executes i.n i.k i.pg i.pn [i.a.toNat] [] → i.legal true true true = true →
    exec (p.1 i) s = .next (s.setCtx i.n i.k
      (((s.ctx i.n i.k).setSr i.d.toNat (p.2 ((s.ctx i.n i.k).sr i.a.toNat) (if i.x then i.ext else i.imm.signExtend 64))).adv
        (if i.x then 16 else 8)))

/-- R80: every instruction of op 0x01 and op 0x02. -/
def Obligations.ScalarArithmetic : Prop := Slice0.ScalarRegister ∧ Slice0.ScalarImmediate

/-- A context that issues at a legal pc: its instruction may yet be skipped, held or illegal. -/
structure Slice0.Issues (s : State) (n k : Nat) : Prop where
  issues : s.issues n k = true
  pc : pcOk (s.ctx n k).pc = true

/-- The compares of op 0x03 and op 0x04 with their relations (R81). -/
def Slice0.compareA : List ((IA → Instr) × (W64 → W64 → Bool)) :=
  [(.cmpEq, fun a b => a == b), (.cmpNe, fun a b => a != b), (.cmpLt, fun a b => a.slt b), (.cmpLtu, fun a b => a.ult b),
   (.cmpGe, fun a b => !a.slt b), (.cmpGeu, fun a b => !a.ult b)]
def Slice0.compareB : List ((IB → Instr) × (W64 → W64 → Bool)) :=
  [(.cmpiEq, fun a b => a == b), (.cmpiNe, fun a b => a != b), (.cmpiLt, fun a b => a.slt b), (.cmpiLtu, fun a b => a.ult b),
   (.cmpiGe, fun a b => !a.slt b), (.cmpiGeu, fun a b => !a.ult b)]

/-- The predicate logic of op 0x05 (R81). -/
def Slice0.logicA : List ((IA → Instr) × (Bool → Bool → Bool)) :=
  [(.pand, fun a b => a && b), (.por, fun a b => a || b), (.pxor, fun a b => a != b), (.pandn, fun a b => a && !b)]

/-- R81: compares and predicate logic write p[d], a write to p0 being ignored; PSET writes p[d] = (s[a] ≠ 0), PGET s[d] = p[a]. A nonzero bit in bits
[4:3] of a field that names a predicate, or in a field that is not used, faults with E_ILLEGAL. -/
def Obligations.ComparesAndPredicates : Prop :=
  (∀ p ∈ Slice0.compareA, ∀ (i : IA) (s : State), s.Executes i.n i.k i.pg i.pn [i.a.toNat, i.b.toNat] [] →
    i.legal true true true false false 0 = true → i.d.toNat < 8 →
    exec (p.1 i) s = .next (s.setCtx i.n i.k
      (((s.ctx i.n i.k).setPr i.d.toNat (p.2 ((s.ctx i.n i.k).sr i.a.toNat) ((s.ctx i.n i.k).sr i.b.toNat))).adv 8)))
  ∧ (∀ p ∈ Slice0.compareB, ∀ (i : IB) (s : State), s.Executes i.n i.k i.pg i.pn [i.a.toNat] [] →
    i.legal true true true = true → i.d.toNat < 8 →
    exec (p.1 i) s = .next (s.setCtx i.n i.k
      (((s.ctx i.n i.k).setPr i.d.toNat (p.2 ((s.ctx i.n i.k).sr i.a.toNat) i.value)).adv i.len)))
  ∧ (∀ p ∈ Slice0.logicA, ∀ (i : IA) (s : State), s.Executes i.n i.k i.pg i.pn [] [] →
    i.legal true true true false false 0 = true → i.d.toNat < 8 → i.a.toNat < 8 → i.b.toNat < 8 →
    exec (p.1 i) s = .next (s.setCtx i.n i.k
      (((s.ctx i.n i.k).setPr i.d.toNat (p.2 ((s.ctx i.n i.k).pr i.a.toNat) ((s.ctx i.n i.k).pr i.b.toNat))).adv 8)))
  ∧ (∀ (i : IA) (s : State), s.Executes i.n i.k i.pg i.pn [i.a.toNat] [] → i.legal true true false false false 0 = true → i.d.toNat < 8 →
    exec (.pset i) s = .next (s.setCtx i.n i.k
      (((s.ctx i.n i.k).setPr i.d.toNat ((s.ctx i.n i.k).sr i.a.toNat != 0)).adv 8)))
  ∧ (∀ (i : IA) (s : State), s.Executes i.n i.k i.pg i.pn [] [] → i.legal true true false false false 0 = true → i.a.toNat < 8 →
    exec (.pget i) s = .next (s.setCtx i.n i.k
      (((s.ctx i.n i.k).setSr i.d.toNat (if (s.ctx i.n i.k).pr i.a.toNat then 1 else 0)).adv 8)))
  ∧ (∀ (i : IA) (s : State), Slice0.Issues s i.n i.k →
    let ill := fun (c : Instr) => exec c s = .next (s.faultCtx i.n i.k E.ILLEGAL (s.ctx i.n i.k).pc)
    let regs := i.legal true true true false false 0
    let one := i.legal true true false false false 0
    (∀ p ∈ Slice0.compareA, regs = false ∨ 8 ≤ i.d.toNat → ill (p.1 i))
    ∧ (∀ p ∈ Slice0.logicA, regs = false ∨ 8 ≤ i.d.toNat ∨ 8 ≤ i.a.toNat ∨ 8 ≤ i.b.toNat → ill (p.1 i))
    ∧ (one = false ∨ 8 ≤ i.d.toNat → ill (.pset i)) ∧ (one = false ∨ 8 ≤ i.a.toNat → ill (.pget i)))
  ∧ (∀ p ∈ Slice0.compareB, ∀ (i : IB) (s : State), Slice0.Issues s i.n i.k → i.legal true true true = false ∨ 8 ≤ i.d.toNat →
    exec (p.1 i) s = .next (s.faultCtx i.n i.k E.ILLEGAL (s.ctx i.n i.k).pc))

/-! ## Scalar memory (spec/04 R76, R82; spec/03 R57-R60) -/

/-- The instructions of R82 that access memory: the constructor, the check of its word, the registers that hold it, its width and its access. -/
structure Slice0.Acc where
  make : IM → Instr
  legal : IM → Bool
  rs : IM → List Nat
  ts : IM → List Nat
  w : IM → Nat
  acc : Access

def Slice0.accesses : List Slice0.Acc :=
  [⟨.ld, fun i => i.legal true, fun i => [i.a.toNat], fun _ => [], fun i => 2 ^ i.size.toNat, .read⟩,
   ⟨.st, fun i => i.legal false, fun i => [i.a.toNat, i.d.toNat], fun _ => [], fun i => 2 ^ i.size.toNat, .write⟩,
   ⟨.tld, IM.legalDesc, fun i => [i.a.toNat], fun i => [i.d.toNat], fun _ => 32, .read⟩,
   ⟨.tst, IM.legalDesc, fun i => [i.a.toNat], fun i => [i.d.toNat], fun _ => 32, .write⟩]

/-- The address s[a] + imm modulo 2^64. -/
def Slice0.ea (i : IM) (s : State) : Nat := ((s.ctx i.n i.k).sr i.a.toNat + i.imm.signExtend 64).toNat

/-- Where a local space of a core lies in the local address map, and its size (spec/02 Table 02-6). -/
def Slice0.home (n space : Nat) : Nat := 0x20000000000 + 0x4000000 * n + (if space = 2 then 0x3800000 else 0)
def Slice0.room (space : Nat) : Nat := if space = 2 then 0x100000 else 0x3000000

/-- An access to space 1 or 2 that is aligned and stays in the space. -/
def Slice0.Local (i : IM) (w : Nat) (s : State) : Prop :=
  (i.space.toNat = 1 ∨ i.space.toNat = 2) ∧ Slice0.ea i s % w = 0 ∧ Slice0.ea i s + w ≤ Slice0.room i.space.toNat

/-- What LD keeps for its register: the bytes, sign-extended when sx = 1. -/
def Slice0.loaded (i : IM) (v : Nat) : BitVec 256 :=
  BitVec.ofNat 256 (if i.sx then ((BitVec.ofNat (8 * 2 ^ i.size.toNat) v).signExtend 64).toNat else v)

/-- R82: LD and TLD of a local space read the little-endian bytes at s[a] + imm; the data waits for SCALAR_LOAD_RETURN (R76), the pc advances by 8
and everything else is as before. -/
def Slice0.LocalLoad : Prop :=
  (∀ (i : IM) (s : State), s.Executes i.n i.k i.pg i.pn [i.a.toNat] [] → i.legal true = true → Slice0.Local i (2 ^ i.size.toNat) s →
    exec (.ld i) s = .next (s.setCtx i.n i.k (Ctx.adv { s.ctx i.n i.k with loads := (s.ctx i.n i.k).loads ++
      [⟨false, i.d.toNat, Slice0.loaded i (s.mem.nat (Slice0.home i.n i.space.toNat + Slice0.ea i s) (2 ^ i.size.toNat))⟩] } 8)))
  ∧ (∀ (i : IM) (s : State), s.Executes i.n i.k i.pg i.pn [i.a.toNat] [i.d.toNat] → i.legalDesc = true → Slice0.Local i 32 s →
    exec (.tld i) s = .next (s.setCtx i.n i.k (Ctx.adv { s.ctx i.n i.k with loads := (s.ctx i.n i.k).loads ++
      [⟨true, i.d.toNat, BitVec.ofNat 256 (s.mem.nat (Slice0.home i.n i.space.toNat + Slice0.ea i s) 32)⟩] } 8)))

/-- R76: the oldest outstanding load of a context writes its register, a write to s0 being ignored, and no other register changes. -/
def Slice0.LoadReturn : Prop :=
  ∀ (core : BitVec 10) (ctx : BitVec 3) (s : State) (l : Load) (ls : List Load),
    s.stoppedAt core.toNat = false → (s.ctx core.toNat ctx.toNat).loads = l :: ls →
    ∃ y : Ctx, exec (.scalarLoadReturn core ctx) s = .next (s.setCtx core.toNat ctx.toNat y) ∧ y.loads = ls
      ∧ (∀ j, y.sr j = if l.desc = false ∧ j = l.reg ∧ j ≠ 0 then l.data.setWidth 64 else (s.ctx core.toNat ctx.toNat).sr j)
      ∧ (∀ j, y.tr j = if l.desc = true ∧ j = l.reg then l.data else (s.ctx core.toNat ctx.toNat).tr j)
      ∧ y.p = (s.ctx core.toNat ctx.toNat).p ∧ y.q = (s.ctx core.toNat ctx.toNat).q ∧ y.pc = (s.ctx core.toNat ctx.toNat).pc
      ∧ y.st = (s.ctx core.toNat ctx.toNat).st ∧ y.wait = (s.ctx core.toNat ctx.toNat).wait

/-- R76, R82: a load of a local space and the return of its data. -/
def Obligations.LocalLoads : Prop := Slice0.LocalLoad ∧ Slice0.LoadReturn

/-- The bytes that a store writes: the low bytes of s[d] for ST, t[d] for TST. -/
def Slice0.stored (desc : Bool) (i : IM) (s : State) : Nat :=
  if desc then ((s.ctx i.n i.k).tr i.d.toNat).toNat else ((s.ctx i.n i.k).sr i.d.toNat).toNat

/-- Memory after `w` little-endian bytes of `v` are stored at `a`: those bytes, and every other one as it was. -/
def Slice0.Stored (a w v : Nat) (m m' : Mem) : Prop :=
  (∀ j, j < w → m'.read (a + j) = BitVec.ofNat 8 (v / 256 ^ j)) ∧ (∀ b, b < a ∨ a + w ≤ b → m'.read b = m.read b)

/-- A range that touches neither the top nor the body of a Snowpack that holds records. -/
def Slice0.OffSnow (s : State) (a w : Nat) : Prop := s.topHit a w = false ∧ s.bodyHit none a w = false

/-- What a store of a local space leaves: its bytes, and every other byte as it was; over a Snowpack that holds records the bytes that it writes are free
values, drawn from the next generation (R196; the form of the free values is the model's, log 196). -/
def Slice0.StoredLocal (c : Instr) (i : IM) (s : State) (w v : Nat) : Prop :=
  let a := Slice0.home i.n i.space.toNat + Slice0.ea i s
  (Slice0.OffSnow s a w → ∃ m, exec c s = .next (State.advance { s with mem := m } i.n i.k 8) ∧ Slice0.Stored a w v s.mem m)
  ∧ (¬ Slice0.OffSnow s a w → ∃ m, exec c s = .next (State.advance { s with mem := m, free := s.free + 1 } i.n i.k 8)
      ∧ ∀ b, b < a ∨ a + w ≤ b → m.read b = s.mem.read b)

/-- R82: ST and TST to a local space store their bytes at s[a] + imm and change no other byte of memory; the pc advances by 8 and everything
else is as before. Over a Snowpack that holds records what they store is undefined (R196). -/
def Obligations.LocalStore : Prop :=
  (∀ (i : IM) (s : State), s.Executes i.n i.k i.pg i.pn [i.a.toNat, i.d.toNat] [] → i.legal false = true →
    Slice0.Local i (2 ^ i.size.toNat) s → Slice0.StoredLocal (.st i) i s (2 ^ i.size.toNat) (Slice0.stored false i s))
  ∧ (∀ (i : IM) (s : State), s.Executes i.n i.k i.pg i.pn [i.a.toNat] [i.d.toNat] → i.legalDesc = true → Slice0.Local i 32 s →
    Slice0.StoredLocal (.tst i) i s 32 (Slice0.stored true i s))

/-- A virtual address whose page a TLB of the core holds. -/
structure Slice0.Hit (s : State) (n va : Nat) (big : Bool) (e : TlbEntry) : Prop where
  canon : va < 2 ^ 48
  hit : (s.core n).tlbFind va = some (big, e)

/-- An aligned virtual access of `w` bytes that a TLB translates, with permission, to edge memory of this engine. -/
structure Slice0.Edge (i : IM) (s : State) (big : Bool) (e : TlbEntry) (w : Nat) (acc : Access) : Prop where
  space : i.space.toNat = 0
  page : Slice0.Hit s i.n (Slice0.ea i s) big e
  self : s.isSelf (e.addr big (Slice0.ea i s) / 2 ^ 42) = true
  allowed : e.allows acc (e.addr big (Slice0.ea i s)) = true
  aligned : Slice0.ea i s % w = 0
  edge : e.addr big (Slice0.ea i s) % 2 ^ 42 + w ≤ s.edgeSize

/-- R225, R229: the packets of an access count flits and change nothing else. -/
def Slice0.CarryFrame : Prop :=
  ∀ (src a out back : Nat) (s : State),
    let t := s.carry src a out back
    t = { s with regs := t.regs, events := t.events, evSeq := t.evSeq, evHead := t.evHead, lodge := { s.lodge with buf := t.lodge.buf } }
    ∧ ∀ r, (∀ l, l < 5 → r ≠ (F.FABRIC_FLIT_CNT l).addr ∧ r ≠ (F.FABRIC_FLIT_CNT l).addr + 8) →
        r ∉ [F.EVT_LOST_CNT.addr, F.EVT_LOST_CNT.addr + 8, F.EVT_MASKED_CNT.addr, F.EVT_MASKED_CNT.addr + 8] → t.reg r = s.reg r

/-- R82 with R60: a load or store of a virtual address that a TLB translates to edge memory of this engine reads or writes it there, and the
entry becomes the most recently used of its TLB. The stores are those that no Freeze or dirty notice holds; the memory holds no Snowpack's body.
The flits of the access are counted. While the fabric has no credit for its packets, or an earlier one of the same path waits, the instruction waits (R222,
R224; the model's form of it, log 193). -/
def Slice0.EdgeAccess : Prop :=
  ∀ (i : IM) (s : State) (big : Bool) (e : TlbEntry),
    let a := e.addr big (Slice0.ea i s) % 2 ^ 42
    let s0 := s.setCore i.n ((s.core i.n).tlbUse big e)
    let w := 2 ^ i.size.toNat
    let s1 := s0.carry i.n a 0 w
    let s2 := s0.carry i.n a 0 32
    let s3 := s0.carry i.n a w 0
    let s4 := s0.carry i.n a 32 0
    (s.fabOpen i.n a 0 = false →
      (s.Executes i.n i.k i.pg i.pn [i.a.toNat] [] → i.legal true = true → Slice0.Edge i s big e w .read → exec (.ld i) s = .next s)
      ∧ (s.Executes i.n i.k i.pg i.pn [i.a.toNat] [i.d.toNat] → i.legalDesc = true → Slice0.Edge i s big e 32 .read → exec (.tld i) s = .next s)
      ∧ (s.Executes i.n i.k i.pg i.pn [i.a.toNat, i.d.toNat] [] → i.legal false = true → Slice0.Edge i s big e w .write → exec (.st i) s = .next s)
      ∧ (s.Executes i.n i.k i.pg i.pn [i.a.toNat] [i.d.toNat] → i.legalDesc = true → Slice0.Edge i s big e 32 .write → exec (.tst i) s = .next s))
    ∧ (s.fabOpen i.n a 0 = true → Slice0.OffSnow s a 32 →
    (s.Executes i.n i.k i.pg i.pn [i.a.toNat] [] → i.legal true = true → Slice0.Edge i s big e w .read →
      exec (.ld i) s = .next (s1.setCtx i.n i.k (Ctx.adv { s.ctx i.n i.k with loads :=
        (s.ctx i.n i.k).loads ++ [⟨false, i.d.toNat, Slice0.loaded i (s.mem.nat a w)⟩] } 8)))
    ∧ (s.Executes i.n i.k i.pg i.pn [i.a.toNat] [i.d.toNat] → i.legalDesc = true → Slice0.Edge i s big e 32 .read →
      exec (.tld i) s = .next (s2.setCtx i.n i.k (Ctx.adv { s.ctx i.n i.k with loads :=
        (s.ctx i.n i.k).loads ++ [⟨true, i.d.toNat, BitVec.ofNat 256 (s.mem.nat a 32)⟩] } 8)))
    ∧ (s.Executes i.n i.k i.pg i.pn [i.a.toNat, i.d.toNat] [] → i.legal false = true → Slice0.Edge i s big e w .write →
      s.clear a w = true → exec (.st i) s = .next ((s3.advance i.n i.k 8).store a (leBytes w (Slice0.stored false i s))))
    ∧ (s.Executes i.n i.k i.pg i.pn [i.a.toNat] [i.d.toNat] → i.legalDesc = true → Slice0.Edge i s big e 32 .write →
      s.clear a 32 = true → exec (.tst i) s = .next ((s4.advance i.n i.k 8).store a (leBytes 32 (Slice0.stored true i s)))))

/-- A store to edge memory writes its bytes and no others, where no Freeze marks a page of the range and no Snowpack holds records there. -/
def Slice0.EdgeStore : Prop :=
  ∀ (s : State) (a w v : Nat), s.heldPages a w = [] → Slice0.OffSnow s a w → Slice0.Stored a w v s.mem (s.store a (leBytes w v)).mem
    ∧ (s.store a (leBytes w v)) = { s with mem := (s.store a (leBytes w v)).mem }

/-- R60, R82, R225: virtual accesses to edge memory, what they store, and the flits they count. -/
def Obligations.VirtualEdgeAccess : Prop := Slice0.EdgeAccess ∧ Slice0.EdgeStore ∧ Slice0.CarryFrame

/-- R82, R62, R94 and Tables 03-9 and 04-16: the faults of a scalar access, for every one of the four instructions, the first that applies; each
records the address of the access. A local address that is misaligned, or out of its space; a virtual one that is not canonical, whose page lies on another
node (E_SPACE), which is misaligned, or whose page forbids the access. -/
def Obligations.AccessFaults : Prop :=
  ∀ p ∈ Slice0.accesses, ∀ (i : IM) (s : State), s.Executes i.n i.k i.pg i.pn (p.rs i) (p.ts i) → p.legal i = true →
    let va := Slice0.ea i s
    let faults := fun (code : Nat) => exec (p.make i) s = .next (s.faultCtx i.n i.k code va)
    (i.space.toNat ≠ 0 → va % p.w i ≠ 0 → faults E.ALIGN)
    ∧ (i.space.toNat ≠ 0 → va % p.w i = 0 → Slice0.room i.space.toNat < va + p.w i → faults E.ADDR_UNMAPPED)
    ∧ (i.space.toNat = 0 → 2 ^ 48 ≤ va → va % p.w i = 0 → faults E.VA_NONCANON)
    ∧ (∀ big e, i.space.toNat = 0 → Slice0.Hit s i.n va big e →
        (s.isSelf (e.addr big va / 2 ^ 42) = false → faults E.SPACE)
        ∧ (s.isSelf (e.addr big va / 2 ^ 42) = true → va % p.w i ≠ 0 → faults E.ALIGN)
        ∧ (s.isSelf (e.addr big va / 2 ^ 42) = true → va % p.w i = 0 → e.allows p.acc (e.addr big va) = false → faults E.PAGE_PERM))

/-- R60: a scalar access that no TLB translates is counted and waits for a page-table walk; ATU_WALK_RETURN of the oldest walk, whose reads count their
flits (R229), fills a TLB and makes its context READY at the same pc, or takes the fault of the walk. A misaligned access walks first (log 102), and a walk
whose entry forbids the access fills no TLB (log 16): both are the model's choices. -/
def Obligations.TranslationWalk : Prop :=
  (∀ p ∈ Slice0.accesses, ∀ (i : IM) (s : State), s.Executes i.n i.k i.pg i.pn (p.rs i) (p.ts i) → p.legal i = true →
    i.space.toNat = 0 → Slice0.ea i s < 2 ^ 48 → (s.core i.n).tlbFind (Slice0.ea i s) = none →
    exec (p.make i) s = .next (let s1 := s.bump (F.CORE_ATU_MISS_CNT i.n)
      (s1.setCore i.n { s1.core i.n with walks := (s1.core i.n).walks ++
        [⟨i.k, (s1.ctx i.n i.k).inc, Slice0.ea i s, p.acc, decide (Slice0.ea i s % p.w i ≠ 0)⟩] }).makeWait i.n i.k .walk))
  ∧ (∀ (core : BitVec 10) (s : State) (w : Walk) (ws : List Walk), s.stoppedAt core.toNat = false →
    (s.core core.toNat).walks = w :: ws → (s.ctx core.toNat w.ctx).inc = w.inc → (s.ctx core.toNat w.ctx).st = .waiting →
    (s.ctx core.toNat w.ctx).wait = .walk →
    let s1 := (s.setCore core.toNat { s.core core.toNat with walks := ws }).walkFlits core.toNat w.va
    (∀ big e, s1.walkTables core.toNat w.va = .inr (big, e) → e.allows w.acc (e.addr big w.va) = true →
      exec (.atuWalkReturn core) s = .next ((s1.setCore core.toNat ((s1.core core.toNat).tlbUse big e)).makeReady core.toNat w.ctx))
    ∧ (∀ big e, s1.walkTables core.toNat w.va = .inr (big, e) → e.allows w.acc (e.addr big w.va) = false →
      let code := if s.isSelf (e.addr big w.va / 2 ^ 42) = false then E.SPACE else if w.misaligned then E.ALIGN else E.PAGE_PERM
      exec (.atuWalkReturn core) s = .next (s1.faultCtx core.toNat w.ctx code w.va))
    ∧ (∀ code, s1.walkTables core.toNat w.va = .inl code →
      exec (.atuWalkReturn core) s = .next (s1.faultCtx core.toNat w.ctx (if w.misaligned then E.ALIGN else code) w.va)))

/-! ## Descriptors, branches and contexts (spec/04 R73, R79, R82, R83) -/

/-- R82: TSET writes 64-bit word aux[1:0] of t[d] and keeps its other words, TGET reads one of t[a], TMOV copies t[a] to t[d]. -/
def Obligations.DescriptorMoves : Prop :=
  (∀ (i : IA) (s : State), s.Executes i.n i.k i.pg i.pn [i.a.toNat] [i.d.toNat] → i.legal true true false false false 3 = true → i.d.toNat < 16 →
    ∃ v : Desc, exec (.tset i) s = .next (s.setCtx i.n i.k (((s.ctx i.n i.k).setTr i.d.toNat v).adv 8))
      ∧ ∀ j, j < 4 → v.extractLsb' (64 * j) 64 =
          if j = fieldOf i.aux 0 2 then (s.ctx i.n i.k).sr i.a.toNat else ((s.ctx i.n i.k).tr i.d.toNat).extractLsb' (64 * j) 64)
  ∧ (∀ (i : IA) (s : State), s.Executes i.n i.k i.pg i.pn [] [i.a.toNat] → i.legal true true false false false 3 = true → i.a.toNat < 16 →
    exec (.tget i) s = .next (s.setCtx i.n i.k
      (((s.ctx i.n i.k).setSr i.d.toNat (((s.ctx i.n i.k).tr i.a.toNat).extractLsb' (64 * fieldOf i.aux 0 2) 64)).adv 8)))
  ∧ (∀ (i : IA) (s : State), s.Executes i.n i.k i.pg i.pn [] [i.d.toNat, i.a.toNat] → i.legal true true false false false 0 = true →
    i.d.toNat < 16 → i.a.toNat < 16 →
    exec (.tmov i) s = .next (s.setCtx i.n i.k (((s.ctx i.n i.k).setTr i.d.toNat ((s.ctx i.n i.k).tr i.a.toNat)).adv 8)))

/-- A target that R73 allows. -/
abbrev Slice0.Target (v : W64) : Prop := v.toNat % 8 = 0 ∧ v.toNat < 0x3000000

/-- R83 with R73: where BR, JAL and JR go, and that one with an illegal target faults with E_PC_ALIGN and has no other effect. -/
def Obligations.Branches : Prop :=
  (∀ (i : IB) (s : State), s.Executes i.n i.k i.pg i.pn [] [] → i.legal false false false = true →
    let x := s.ctx i.n i.k
    let t := BitVec.ofNat 64 x.pc + 8 * i.imm.signExtend 64
    (Slice0.Target t → exec (.br i) s = .next (s.setCtx i.n i.k { x with pc := t.toNat }))
      ∧ (¬ Slice0.Target t → exec (.br i) s = .next (s.faultCtx i.n i.k E.PC_ALIGN x.pc)))
  ∧ (∀ (i : IB) (s : State), s.Executes i.n i.k i.pg i.pn [] [] → i.legal false true false = true →
    let x := s.ctx i.n i.k
    let t := BitVec.ofNat 64 x.pc + 8 * i.imm.signExtend 64
    (Slice0.Target t →
        exec (.jal i) s = .next (s.setCtx i.n i.k { x.setSr i.d.toNat (BitVec.ofNat 64 (x.pc + 8)) with pc := t.toNat }))
      ∧ (¬ Slice0.Target t → exec (.jal i) s = .next (s.faultCtx i.n i.k E.PC_ALIGN x.pc)))
  ∧ (∀ (i : IB) (s : State), s.Executes i.n i.k i.pg i.pn [i.a.toNat] [] → i.legal false false true = true →
    let x := s.ctx i.n i.k
    let t := x.sr i.a.toNat + i.imm.signExtend 64
    (Slice0.Target t → exec (.jr i) s = .next (s.setCtx i.n i.k { x with pc := t.toNat }))
      ∧ (¬ Slice0.Target t → exec (.jr i) s = .next (s.faultCtx i.n i.k E.PC_ALIGN x.pc)))

/-- R83 and R65: CSTART starts a FREE context with s1 = s[c] and everything else clear, says in pd whether it did, and does nothing else for
a context that is not FREE or does not exist. -/
def Slice0.ContextStart : Prop :=
  ∀ (i : IA) (s : State), s.Executes i.n i.k i.pg i.pn [i.a.toNat, i.b.toNat, i.c.toNat] [] → i.legal false true true true true 0 = true →
    let x := s.ctx i.n i.k
    let j := (x.sr i.a.toNat).toNat
    Slice0.Target (x.sr i.b.toNat) →
    (j < 8 → (s.ctx i.n j).st = .free →
      exec (.cstart i) s = .next (((((s.setCtx i.n i.k ((x.setPr i.pd.toNat true).adv 8)).setCtx i.n j
        { st := .ready, s := [(1, x.sr i.c.toNat)], pc := (x.sr i.b.toNat).toNat,
          inc := (s.ctx i.n j).inc + 1 }).kick i.n)).select i.n))
    ∧ (¬ (j < 8 ∧ (s.ctx i.n j).st = .free) →
      exec (.cstart i) s = .next (s.setCtx i.n i.k ((x.setPr i.pd.toNat false).adv 8)))

/-- A context that END or CORE_CTX_KILL frees: its handles unbound, its outstanding loads forgotten (spec/04 R79, R457). -/
def Slice0.freed (x : Ctx) : Ctx := { x with st := .free, wait := .none, q := [], loads := [] }

/-- R79, R83: END frees its context, at once when it has no remote operation in the stream engine and else when they have completed; IFENCE and
NOP only advance the pc. -/
def Slice0.EndAndNop : Prop :=
  (∀ (i : IA) (s : State), s.Executes i.n i.k i.pg i.pn [] [] → i.legal false false false false false 0 = true →
    ((s.core i.n).remoteBusy i.k (s.ctx i.n i.k).inc = false →
      exec (.endCtx i) s = .next ((s.setCtx i.n i.k (Slice0.freed (s.ctx i.n i.k))).select i.n))
    ∧ ((s.core i.n).remoteBusy i.k (s.ctx i.n i.k).inc = true → exec (.endCtx i) s = .next (s.makeWait i.n i.k .endFence)))
  ∧ (∀ c ∈ [Instr.ifence, Instr.nop], ∀ (i : IA) (s : State), s.Executes i.n i.k i.pg i.pn [] [] →
    i.legal false false false false false 0 = true → exec (c i) s = .next (s.advance i.n i.k 8))

/-- The items of RDSYS that Table 04-8 and Table 04-1 give a value; item 3 depends on timing and is a free value (log 5). -/
def Slice0.sysValue (i : IA) (s : State) : Nat → Option Nat
  | 0 => some i.n
  | 1 => some i.k
  | 2 => some (s.fieldTime (s.siteOf i.n / 16)).toNat
  | 3 => none
  | 4 => some (s.fld F.DEV_NODE_ID_node_id)
  | 5 => some (if s.fld F.DEV_MODE_STS_half_mode = 0 then 0 else 1)
  | _ => some (i.k + (if (s.ctx i.n i.k).nv then 256 else 0) + (if (s.ctx i.n i.k).of then 512 else 0)
      + (if (s.ctx i.n i.k).sat then 1024 else 0) + (if (s.ctx i.n i.k).psn then 2048 else 0))

/-- R83, Table 04-8: RDSYS writes s[d] with its item; item 7 also clears the sticky flags. -/
def Slice0.ReadSystem : Prop :=
  ∀ (i : IA) (s : State), s.Executes i.n i.k i.pg i.pn [] [] → i.legal true false false false false 0xF = true → fieldOf i.aux 0 4 < 8 →
    ∃ v : W64, exec (.rdsys i) s = .next (State.tick (s.setCtx i.n i.k (Ctx.adv (Ctx.setSr
        (if fieldOf i.aux 0 4 = 7 then { s.ctx i.n i.k with nv := false, of := false, sat := false, psn := false } else s.ctx i.n i.k)
        i.d.toNat v) 8)))
      ∧ ∀ n ∈ Slice0.sysValue i s (fieldOf i.aux 0 4), v = BitVec.ofNat 64 n

/-- R79, R83: CSTART, END, IFENCE, NOP and RDSYS. -/
def Obligations.ContextInstructions : Prop := Slice0.ContextStart ∧ Slice0.EndAndNop ∧ Slice0.ReadSystem

/-- R220, R352: a register write reaches a core: the core exists, its port takes packets, and the module is not in HOLD. -/
structure Slice0.Reached (s : State) (n : Nat) : Prop where
  exists_ : n < s.ncores
  opened : s.portOpen n = true
  moving : s.flag F.PWR_STS_hold = false

/-- R84: a write to CORE_EV_SET sets each flag of its mask for which no context waits, and leaves every other flag. -/
def Slice0.EventFlags : Prop :=
  ∀ (core : BitVec 10) (v : W64) (s : State), Slice0.Reached s core.toNat →
    Slice0.Does (.coreEvSetWrite core v) s (fun t => ∀ f, f < 32 → (t.core core.toNat).ev.getLsbD f =
      ((s.core core.toNat).ev.getLsbD f ||
        (v.getLsbD f && !(List.range 8).any (fun k => decide ((s.ctx core.toNat k).st = .waiting ∧ (s.ctx core.toNat k).wait = .event f)))))

/-- R83, R84 and R43: event flags and barriers by WAITP, BAR, EVSIG, EVWAIT and CORE_EV_SET, and the expiry of a slice. A wait leaves the pc at its instruction; what it waits for
passes it (that WAITP, BAR and EVWAIT complete at their release is log 104). The reach of a register of a core in HOLD or without power is R220 and R352. -/
def Obligations.Synchronisation : Prop :=
  Slice0.EventFlags ∧ (∀ (i : IA) (s : State), s.Executes i.n i.k i.pg i.pn [] [] → i.legal false false false false false 7 = true →
    ((s.ctx i.n i.k).pr (fieldOf i.aux 0 3) = true → exec (.waitp i) s = .next (s.advance i.n i.k 8))
    ∧ ((s.ctx i.n i.k).pr (fieldOf i.aux 0 3) = false → exec (.waitp i) s = .next (s.makeWait i.n i.k (.pred (fieldOf i.aux 0 3)))))
  ∧ (∀ (i : IA) (s : State), s.Executes i.n i.k i.pg i.pn [i.a.toNat] [] → i.legal false true false false false 7 = true →
    let cnt := ((s.ctx i.n i.k).sr i.a.toNat).toNat
    let b := fieldOf i.aux 0 3
    let bar := Sparse.get (s.core i.n).bars {} b
    let good := 1 ≤ cnt ∧ cnt ≤ 8 ∧ (bar.count = 0 ∨ bar.count = cnt)
    (¬ good → exec (.bar i) s = .next (s.faultCtx i.n i.k E.BAR_COUNT (s.ctx i.n i.k).pc))
    ∧ (good → bar.arrived.length + 1 = cnt →
      exec (.bar i) s = .next (bar.arrived.foldl (fun st k => (st.advance i.n k 8).makeReady i.n k)
        ((s.setCore i.n { s.core i.n with bars := Sparse.put (s.core i.n).bars b {} }).advance i.n i.k 8)))
    ∧ (good → bar.arrived.length + 1 ≠ cnt →
      exec (.bar i) s = .next ((s.setCore i.n { s.core i.n with bars := Sparse.put (s.core i.n).bars b ⟨cnt, bar.arrived ++ [i.k]⟩ }).makeWait
        i.n i.k (.barrier b))))
  ∧ (∀ (i : IA) (s : State), s.Executes i.n i.k i.pg i.pn [] [] → i.legal false false false false false 31 = true →
    let f := fieldOf i.aux 0 5
    let s1 := s.advance i.n i.k 8
    ((∀ k, k < 8 → ¬ ((s1.ctx i.n k).st = .waiting ∧ (s1.ctx i.n k).wait = .event f)) →
      exec (.evsig i) s = .next (s1.setCore i.n { s1.core i.n with ev := (s1.core i.n).ev ||| (1 <<< f : BitVec 32) }))
    ∧ (∀ k, k < 8 → (s1.ctx i.n k).st = .waiting → (s1.ctx i.n k).wait = .event f →
        (∀ j, j < k → ¬ ((s1.ctx i.n j).st = .waiting ∧ (s1.ctx i.n j).wait = .event f)) →
      exec (.evsig i) s = .next ((s1.advance i.n k 8).makeReady i.n k))
    ∧ ((s.core i.n).ev.getLsbD f = true →
      exec (.evwait i) s = .next ((s.setCore i.n { s.core i.n with ev := (s.core i.n).ev &&& ~~~(1 <<< f : BitVec 32) }).advance i.n i.k 8))
    ∧ ((s.core i.n).ev.getLsbD f = false → exec (.evwait i) s = .next (s.makeWait i.n i.k (.event f))))
  ∧ (∀ (core : BitVec 10) (s : State) (k : Nat), s.stoppedAt core.toNat = false → (s.core core.toNat).running = some k →
    (s.fld (F.CORE_CTX_SLICE_cycles core.toNat) ≠ 0 → ((s.core core.toNat).nextReady k).isSome = true →
      exec (.ctxSliceExpiry core) s = .next ((s.setCtx core.toNat k { s.ctx core.toNat k with st := .ready }).select core.toNat))
    ∧ (s.fld (F.CORE_CTX_SLICE_cycles core.toNat) = 0 ∨ ((s.core core.toNat).nextReady k).isSome = false →
      exec (.ctxSliceExpiry core) s = .next s))

/-! ## Issue: guards, reserved words, faults (spec/04 R70-R74, R94; spec/03 R62) -/

/-- The instructions of the four formats, format T by what Table 04-5 says of the extension word. -/
def Slice0.formA : List (IA → Instr) :=
  [.add, .sub, .and, .or, .xor, .shl, .shr, .sra, .mul, .mulhu, .mulh, .divu, .remu, .div, .rem, .min, .max, .minu, .maxu,
   .cmpEq, .cmpNe, .cmpLt, .cmpLtu, .cmpGe, .cmpGeu, .pand, .por, .pxor, .pandn, .pset, .pget, .tset, .tget, .tmov,
   .cstart, .endCtx, .rdsys, .ifence, .nop, .waitp, .bar, .evsig, .evwait, .qcfg, .qbind, .qacq, .qrel, .qsub, .slm,
   .rget, .rput, .rcopy, .ratom, .rfence, .ckvote]
def Slice0.formB : List (IB → Instr) :=
  [.addi, .subi, .andi, .ori, .xori, .shli, .shri, .srai, .muli, .mulhui, .mulhi, .divui, .remui, .divi, .remi, .mini, .maxi, .minui, .maxui,
   .cmpiEq, .cmpiNe, .cmpiLt, .cmpiLtu, .cmpiGe, .cmpiGeu]
def Slice0.formBr : List (IB → Instr) := [.br, .jal, .jr]
def Slice0.formM : List (IM → Instr) := [.ld, .st, .tld, .tst]
def Slice0.formTnone : List (IT → Instr) := [.smv, .spush, .spop, .spskip]
def Slice0.formTreq : List (IT → Instr) :=
  [.cmm, .chb, .cbwd, .cdrn, .czero, .gnrm, .gsmx, .gnrmb, .gsmxb, .rdsub, .rdrecv, .ckdig]
def Slice0.formTopt : List (IT → Instr) :=
  [.vadd, .vsub, .vmul, .vfma, .vmax, .vmin, .vscale, .vexp, .vlog, .vrcp, .vrsqrt, .vact, .vcvt, .vrsum, .vamax, .vgbq, .vgba, .vgbd,
   .vres, .vopt, .viadd, .vimul, .vicmp]

/-- R72, R74: an instruction of a format without an extension word faults with E_ILLEGAL when x is 1, and one that requires an extension word when
x is 0; no guard suppresses it. -/
def Slice0.ExtensionWordIllegal : Prop :=
  (∀ f ∈ Slice0.formA, ∀ (i : IA) (s : State), Slice0.Issues s i.n i.k → i.x = true →
    exec (f i) s = .next (s.faultCtx i.n i.k E.ILLEGAL (s.ctx i.n i.k).pc))
  ∧ (∀ f ∈ Slice0.formM, ∀ (i : IM) (s : State), Slice0.Issues s i.n i.k → i.x = true →
    exec (f i) s = .next (s.faultCtx i.n i.k E.ILLEGAL (s.ctx i.n i.k).pc))
  ∧ (∀ f ∈ Slice0.formBr, ∀ (i : IB) (s : State), Slice0.Issues s i.n i.k → i.x = true →
    exec (f i) s = .next (s.faultCtx i.n i.k E.ILLEGAL (s.ctx i.n i.k).pc))
  ∧ (∀ f ∈ Slice0.formTnone, ∀ (i : IT) (s : State), Slice0.Issues s i.n i.k → i.x = true →
    exec (f i) s = .next (s.faultCtx i.n i.k E.ILLEGAL (s.ctx i.n i.k).pc))
  ∧ (∀ f ∈ Slice0.formTreq, ∀ (i : IT) (s : State), Slice0.Issues s i.n i.k → i.x = false →
    exec (f i) s = .next (s.faultCtx i.n i.k E.ILLEGAL (s.ctx i.n i.k).pc))

/-- R73: an instruction of a context whose pc is not a multiple of 8 or lies at or above 0x300_0000 faults with E_PC_ALIGN, and the address recorded
is the pc. -/
def Obligations.FetchAlign : Prop :=
  (∀ f ∈ Slice0.formA, ∀ (i : IA) (s : State), s.issues i.n i.k = true → pcOk (s.ctx i.n i.k).pc = false →
    exec (f i) s = .next (s.faultCtx i.n i.k E.PC_ALIGN (s.ctx i.n i.k).pc))
  ∧ (∀ f ∈ Slice0.formB ++ Slice0.formBr, ∀ (i : IB) (s : State), s.issues i.n i.k = true → pcOk (s.ctx i.n i.k).pc = false →
    exec (f i) s = .next (s.faultCtx i.n i.k E.PC_ALIGN (s.ctx i.n i.k).pc))
  ∧ (∀ f ∈ Slice0.formM, ∀ (i : IM) (s : State), s.issues i.n i.k = true → pcOk (s.ctx i.n i.k).pc = false →
    exec (f i) s = .next (s.faultCtx i.n i.k E.PC_ALIGN (s.ctx i.n i.k).pc))
  ∧ (∀ f ∈ Slice0.formTnone ++ Slice0.formTreq ++ Slice0.formTopt, ∀ (i : IT) (s : State), s.issues i.n i.k = true →
    pcOk (s.ctx i.n i.k).pc = false → exec (f i) s = .next (s.faultCtx i.n i.k E.PC_ALIGN (s.ctx i.n i.k).pc))

/-- R62: a context fault leaves the context FAULTED with its registers and pc as they were, records the code, the pc and the address in its
CORE_CTX_FAULT and raises EV_CTX_FAULT with the core and the context. It issues nothing more, so no later fault of it can occur; another context keeps its
registers, and at most becomes RUNNING; memory and every other core stay as they were. -/
def Obligations.ContextFault : Prop :=
  ∀ (s : State) (n k code addr : Nat), n < 896 → k < 8 → code < 2 ^ 16 → addr < 2 ^ 64 → (s.ctx n k).pc < 2 ^ 26 →
    let t := s.faultCtx n k code addr
    t.ctx n k = { s.ctx n k with st := .faulted, wait := .none }
    ∧ t.fld (F.CORE_CTX_FAULT_code n k) = code ∧ t.fld (F.CORE_CTX_FAULT_pc n k) = (s.ctx n k).pc ∧ t.fld (F.CORE_CTX_FAULT_addr n k) = addr
    ∧ (∃ u : State, u.events = s.events ∧ t = (u.raise EV.CTX_FAULT 2 n (leBytes 2 n ++ leBytes 1 k)).select n)
    ∧ t.issues n k = false
    ∧ (∀ j, j < 8 → j ≠ k → t.ctx n j = s.ctx n j
      ∨ ((s.ctx n j).st = .ready ∧ t.ctx n j = { s.ctx n j with st := .running, wait := .none }))
    ∧ t.mem = s.mem ∧ (∀ m, m ≠ n → t.core m = s.core m)

/-! ## Rings and streams (spec/04 R85; spec/08 R166-R182) -/

/-- A ring that a context's handle may use at the end of its role: configured, not aborted, and no stream or Slalom gate holds that end. -/
structure Slice0.RingOpen (s : State) (n : Nat) (h : Handle) : Prop where
  bound : h.bound = true
  configured : (s.ring n h.ring).configured = true
  free : s.endHolder n h.ring h.producer < 2
  alive : (s.ring n h.ring).aborted = false

/-- R85, R166 and R167: QCFG configures and empties a ring; QBIND binds a handle, forgetting a chair it held; QACQ acquires the next chair of its
end, or gives again the one held, and waits when there is none; QREL releases the held chair. -/
def Slice0.RingInstructionSet : Prop :=
  (∀ (i : IA) (s : State), s.Executes i.n i.k i.pg i.pn [i.a.toNat, i.b.toNat, i.c.toNat] [] → i.legal false true true true false 0x7F = true →
    let x := s.ctx i.n i.k
    let r := (x.sr i.a.toNat).toNat
    let base := (x.sr i.b.toNat).toNat
    let cb := (x.sr i.c.toNat).toNat
    let n := fieldOf i.aux 0 7
    let good := r ≤ 15 ∧ base % 64 = 0 ∧ cb % 64 = 0 ∧ 64 ≤ cb ∧ 3 ≤ n ∧ n ≤ 64 ∧ base + n * cb ≤ 0x3000000
      ∧ (∀ k, k < 8 → ∀ h ∈ (s.ctx i.n k).q, h.2.bound = true → h.2.ring ≠ r)
      ∧ s.endHolder i.n r true < 2 ∧ s.endHolder i.n r false < 2
    (good → exec (.qcfg i) s = .next ((s.setRing i.n r { configured := true, base := base, cbytes := cb, n := n }).advance i.n i.k 8))
    ∧ (¬ good → exec (.qcfg i) s = .next (s.faultCtx i.n i.k E.RING_CFG x.pc)))
  ∧ (∀ (i : IA) (s : State), s.Executes i.n i.k i.pg i.pn [i.a.toNat] [] → i.legal false true false false false 0x1F = true →
    let x := s.ctx i.n i.k
    let r := (x.sr i.a.toNat).toNat
    (r ≤ 15 → exec (.qbind i) s = .next (s.setCtx i.n i.k ((x.setHd (fieldOf i.aux 0 4)
        { ring := r, producer := i.aux.getLsbD 4, bound := true, held := none }).adv 8)))
    ∧ (15 < r → exec (.qbind i) s = .next (s.faultCtx i.n i.k E.RING_CFG x.pc)))
  ∧ (∀ (i : IA) (s : State), s.Executes i.n i.k i.pg i.pn [] [] → i.legal true false false false false 0xF = true →
    let x := s.ctx i.n i.k
    let h := x.hd (fieldOf i.aux 0 4)
    let g := s.ring i.n h.ring
    let place := fun (c : Nat) => (BitVec.ofNat 64 (g.base + c % g.n * g.cbytes) : W64)
    (h.bound = false → exec (.qacq i) s = .next (s.faultCtx i.n i.k E.RING_UNBOUND x.pc))
    ∧ (∀ c, Slice0.RingOpen s i.n h → h.held = some c →
      exec (.qacq i) s = .next (s.setCtx i.n i.k ((x.setSr i.d.toNat (place c)).adv 8)))
    ∧ (Slice0.RingOpen s i.n h → h.held = none → h.producer = true → (g.pa + 2 * g.n - g.cr) % (2 * g.n) < g.n →
      exec (.qacq i) s = .next ((s.setRing i.n h.ring { g with pa := (g.pa + 1) % (2 * g.n) }).setCtx i.n i.k
        (((x.setHd (fieldOf i.aux 0 4) { h with held := some g.pa }).setSr i.d.toNat (place g.pa)).adv 8)))
    ∧ (Slice0.RingOpen s i.n h → h.held = none → h.producer = false → 0 < (g.pr + 2 * g.n - g.ca) % (2 * g.n) →
      exec (.qacq i) s = .next ((s.setRing i.n h.ring { g with ca := (g.ca + 1) % (2 * g.n) }).setCtx i.n i.k
        (((x.setHd (fieldOf i.aux 0 4) { h with held := some g.ca }).setSr i.d.toNat (place g.ca)).adv 8)))
    ∧ (Slice0.RingOpen s i.n h → h.held = none →
        (if h.producer then g.n ≤ (g.pa + 2 * g.n - g.cr) % (2 * g.n) else (g.pr + 2 * g.n - g.ca) % (2 * g.n) = 0) →
      exec (.qacq i) s = .next (s.makeWait i.n i.k (.ring h.ring (!h.producer)))))
  ∧ (∀ (i : IA) (s : State), s.Executes i.n i.k i.pg i.pn [] [] → i.legal false false false false false 0xF = true →
    let x := s.ctx i.n i.k
    let h := x.hd (fieldOf i.aux 0 4)
    (h.bound = false → exec (.qrel i) s = .next (s.faultCtx i.n i.k E.RING_UNBOUND x.pc))
    ∧ (h.bound = true → h.held = none → exec (.qrel i) s = .next (s.advance i.n i.k 8))
    ∧ (∀ c, h.bound = true → h.held = some c →
      let g := s.ring i.n h.ring
      let s1 := spoilRange i.n (g.base + c % g.n * g.cbytes) g.cbytes (s.setCtx i.n i.k ((x.setHd (fieldOf i.aux 0 4) { h with held := none }).adv 8))
      exec (.qrel i) s = .next ((s1.putRing i.n h.ring (g.give h.producer c)).settle i.n)))

/-- R167, R169: a released chair moves the release count of its end on when it is the next one, and else is remembered. Its contents stay as they are
when no command, stream or remote instruction of the core is in flight. -/
def Slice0.ReleasedChairs : Prop :=
  (∀ (g : Ring) (c : Nat), 0 < g.n →
    (c = g.pr → g.pdone = [] → g.give true c = { g with pr := (c + 1) % (2 * g.n) })
    ∧ (g.pr ∉ c :: g.pdone → g.give true c = { g with pdone := c :: g.pdone })
    ∧ (c = g.cr → g.cdone = [] → g.give false c = { g with cr := (c + 1) % (2 * g.n) })
    ∧ (g.cr ∉ c :: g.cdone → g.give false c = { g with cdone := c :: g.cdone }))
  ∧ (∀ (s : State) (n a len : Nat), s.inFlight n = [] → (s.core n).chains = [] → (s.core n).slots = [] → (s.core n).sq = [] →
    (∀ p ∈ (s.core n).rings, p.2.lists = []) → spoilRange n a len s = s)

/-- R85, R166, R167, R169: the ring instructions and what a release does. -/
def Obligations.RingInstructions : Prop := Slice0.RingInstructionSet ∧ Slice0.ReleasedChairs

/-- R91, R172 and R173: a transfer list or a remote instruction takes its operands at issue, writes 0 to its completion predicate, goes to the end
of the stream engine's queue, and what can go on in that engine goes on; a full queue makes the context wait at the instruction. -/
def Obligations.StreamQueue : Prop :=
  (∀ (i : IA) (s : State), s.Executes i.n i.k i.pg i.pn [i.a.toNat, i.b.toNat] [] → i.legal false true true false true 0xF = true →
    let x := s.ctx i.n i.k
    let h := x.hd (fieldOf i.aux 0 4)
    let off := (x.sr i.a.toNat).toNat
    let cnt := (x.sr i.b.toNat).toNat
    let s1 := s.setCtx i.n i.k ((x.setPr i.pd.toNat false).adv 8)
    (8 ≤ (s.core i.n).sq.length → exec (.qsub i) s = .next (s.makeWait i.n i.k (.queue [.stream])))
    ∧ ((s.core i.n).sq.length < 8 → off + 32 * cnt ≤ 0x3000000 → off % 32 = 0 → cnt ≤ 4096 → h.bound = true →
        (s.ring i.n h.ring).configured = true → (s.ring i.n h.ring).aborted = false →
        (s.endHolder i.n h.ring (!h.producer) = 0 ∨ s.endHolder i.n h.ring (!h.producer) = 2) →
      exec (.qsub i) s = .next ((s1.setCore i.n { s1.core i.n with sq := (s1.core i.n).sq ++
        [.list h.ring { inbound := !h.producer, base := off, count := cnt, ctx := i.k, inc := x.inc, pd := i.pd.toNat }] }).settle i.n)))
  ∧ (∀ c ∈ ([(ROp.rget, Instr.rget), (.rput, .rput), (.rcopy, .rcopy), (.ratom, .ratom)] : List (ROp × (IA → Instr))), ∀ (i : IA) (s : State),
    let x := s.ctx i.n i.k
    let atom := decide (c.1 = .ratom)
    s.Executes i.n i.k i.pg i.pn ([i.d.toNat, i.a.toNat, i.b.toNat] ++ (if atom then [i.c.toNat] else [])) [] →
    i.legal true true true atom true (if atom then 0x1FF else 0x1E0) = true → (atom = true → fieldOf i.aux 0 4 ≤ 9) →
    let w := if i.aux.getLsbD 4 then 8 else 4
    let len := if atom then w else (x.sr i.b.toNat).toNat
    let slot : XSlot :=
      { op := c.1, ctx := i.k, inc := x.inc, pd := i.pd.toNat, loc := (x.sr i.d.toNat).toNat, rem := (x.sr i.a.toNat).toNat,
        dst := (x.sr i.d.toNat).toNat, len := (x.sr i.b.toNat).toNat, vc := fieldOf i.aux 5 4,
        opnd := if atom then x.sr i.b.toNat else 0, cmp := if atom then x.sr i.c.toNat else 0,
        aop := if atom then fieldOf i.aux 0 4 else 0, wide := if atom then i.aux.getLsbD 4 else false }
    let s1 := s.setCtx i.n i.k ((x.setPr i.pd.toNat false).adv 8)
    (8 ≤ (s.core i.n).sq.length → exec (c.2 i) s = .next (s.makeWait i.n i.k (.queue [.stream])))
    ∧ ((s.core i.n).sq.length < 8 → (atom = true → (x.sr i.a.toNat).toNat % w = 0) →
        (c.1 = .rcopy ∨ len = 0 ∨ (x.sr i.d.toNat).toNat + len ≤ 0x3000000) →
      exec (c.2 i) s = .next ((s1.setCore i.n { s1.core i.n with sq := (s1.core i.n).sq ++ [.remote slot] }).settle i.n)))
  ∧ (∀ (i : IA) (s : State), s.Executes i.n i.k i.pg i.pn [] [] → i.legal false false false false true 0 = true →
    let x := s.ctx i.n i.k
    ((s.core i.n).sq = [] → (s.core i.n).remoteBusy i.k x.inc = false →
      exec (.rfence i) s = .next (s.setCtx i.n i.k (Ctx.adv { x.setPr i.pd.toNat (!x.rfail) with rfail := false } 8)))
    ∧ ((s.core i.n).sq.length < 8 → (s.core i.n).sq ≠ [] ∨ (s.core i.n).remoteBusy i.k x.inc = true →
      exec (.rfence i) s = .next (((s.setCore i.n { s.core i.n with sq := (s.core i.n).sq ++ [.rfence i.k x.inc i.pd.toNat] }).makeWait
        i.n i.k .rfence).settle i.n)))

/-! ## Unit commands (spec/04 R68, R69, R77) -/

/-- A unit command of format T: its constructor, its operation, the units whose queues it enters, whether its word is legal, which of td, ta, tb
and tc it uses, the scalars it reads, the code with which the operands it captures fault, and what issue does beyond queueing. -/
structure Slice0.Unit where
  make : IT → Instr
  op : UOp
  units : IT → UCmd → List UnitId
  legal : IT → Bool
  uses : IT → Bool × Bool × Bool × Bool
  rs : IT → List Nat := fun _ => []
  check : IT → State → UCmd → Option Nat
  put : Nat → State → UCmd → State := fun _ s _ => s

/-- The Carve array that ctl[0] names. -/
def Slice0.array (i : IT) : UnitId := if fieldOf i.ctl 0 1 = 0 then .a0 else .a1

/-- The vector instructions with two or three tensor operands and no control bits. -/
def Slice0.vec (make : IT → Instr) (op : UOp) (ud ub uc : Bool) (check : IT → State → UCmd → Option Nat) : Slice0.Unit :=
  { make := make, op := op, units := fun _ _ => [.vector], legal := fun i => legalT i ud true ub uc 0 false true 0,
    uses := fun _ => (ud, true, ub, uc), check := check }

def Slice0.carveUnits : List Slice0.Unit :=
  [{ make := .cmm, op := .cmm, units := fun i _ => [Slice0.array i], legal := fun i => legalT i false true true false 7 true false 0xFFF,
     uses := fun _ => (false, true, true, false), check := cmmCheck },
   { make := .chb, op := .chb, units := fun i _ => [Slice0.array i], legal := fun i => legalT i false true true false 7 true false 0x1F0000,
     uses := fun _ => (false, true, true, false), check := chbCheck },
   { make := .cbwd, op := .cbwd, units := fun i _ => [Slice0.array i], legal := fun i => legalT i false true true true 0xF true false 0x1F0FFF,
     uses := fun i => (false, true, true, !i.ctl.getLsbD 3), check := cbwdCheck },
   { make := .cdrn, op := .cdrn, units := fun i _ => [Slice0.array i], legal := fun i => legalT i true false false false 0x13 true false 0x1F0FFF,
     uses := fun _ => (true, false, false, false), check := cdrnCheck },
   { make := .czero, op := .czero, units := fun i _ => [Slice0.array i], legal := fun i => legalT i false false false false 0x13 true false 0x1FFFF0FFF,
     uses := fun _ => (false, false, false, false), check := czeroCheck },
   { make := .smv, op := .smv, units := fun _ _ => [.schuss], legal := fun i => legalT i true true true false 1 false false 0,
     uses := fun _ => (true, true, true, false), check := smvCheck }]

def Slice0.vectorUnits : List Slice0.Unit :=
  [Slice0.vec .vadd .vadd true true false (elementwise true false), Slice0.vec .vsub .vsub true true false (elementwise true false),
   Slice0.vec .vmul .vmul true true false (elementwise true false), Slice0.vec .vfma .vfma true true true (elementwise true true),
   Slice0.vec .vmax .vmax true true false (elementwise true false), Slice0.vec .vmin .vmin true true false (elementwise true false),
   { make := .vscale, op := .vscale, units := fun _ _ => [.vector], legal := fun i => legalT i true true false false 0x1F false true 0,
     uses := fun _ => (true, true, false, false), rs := fun i => [fieldOf i.ctl 0 5], check := elementwise false false },
   Slice0.vec .vexp .vexp true false false (elementwise false false), Slice0.vec .vlog .vlog true false false (elementwise false false),
   Slice0.vec .vrcp .vrcp true false false (elementwise false false), Slice0.vec .vrsqrt .vrsqrt true false false (elementwise false false),
   { make := .vact, op := .vact, units := fun _ _ => [.vector],
     legal := fun i => decide (fieldOf i.ctl 10 3 ≤ 2) && legalT i true true false false 0x1C00 false true 0,
     uses := fun _ => (true, true, false, false), check := elementwise false false },
   Slice0.vec .vcvt .vcvt true false false cvtCheck, Slice0.vec .vrsum .vrsum true false false rsumCheck,
   Slice0.vec .vamax .vamax false false false amaxCheck, Slice0.vec .vgbq .vgbq true false false gbqCheck,
   Slice0.vec .vgba .vgba true true false gbaCheck, Slice0.vec .vgbd .vgbd true false false gbdCheck,
   Slice0.vec .vres .vres true false false resCheck,
   { make := .vopt, op := .vopt, units := fun _ _ => [.vector],
     legal := fun i => decide (fieldOf i.ctl 10 3 ≤ 1) && legalT i true true true true 0x1C00 false true 0x3FFFFFF,
     uses := fun _ => (true, true, true, true), check := optCheck },
   Slice0.vec .viadd .viadd true true false (elementwise true false), Slice0.vec .vimul .vimul true true false (elementwise true false),
   { make := .vicmp, op := .vicmp, units := fun _ _ => [.vector],
     legal := fun i => decide (fieldOf i.ctl 10 3 ≤ 5) && legalT i true true true false 0x1C00 false true 0,
     uses := fun _ => (true, true, true, false), check := elementwise true false }]

def Slice0.otherUnits : List Slice0.Unit :=
  [{ make := .gnrm, op := .gnrm, units := fun _ => groomUnits,
     legal := fun i => !i.ctl.getLsbD 1 && legalT i true true true false 0x1B true false 0xFFFFFFFF0001FFFF,
     uses := fun i => (true, true, !i.ctl.getLsbD 3, false), check := fun i => groomCheck (!i.ctl.getLsbD 3) false i, put := groomPut },
   { make := .gsmx, op := .gsmx, units := fun _ => groomUnits, legal := fun i => legalT i true true false false 0x14 true false 0xFFFFFFFF0001FFFF,
     uses := fun _ => (true, true, false, false), check := groomCheck false false, put := groomPut },
   { make := .gsmxb, op := .gsmxb, units := fun _ => groomUnits, legal := fun i => legalT i true true false true 4 true false 0xFFFFFFFF00000000,
     uses := fun _ => (true, true, false, true), check := groomCheck false true, put := groomPut },
   { make := .spush, op := .spush, units := fun _ _ => [.snow], legal := fun i => legalT i false true false false 0 false false 0,
     uses := fun _ => (false, true, false, false), check := spushCheck, put := fun n s x => snowQueuePush s n x.tA.bytes },
   { make := .ckdig, op := .ckdig, units := fun _ _ => [.digest], legal := fun i => legalT i false true false false 0 true false 0x3FFFFFF,
     uses := fun _ => (false, true, false, false), check := ckdigCheck },
   { make := .rdsub, op := .rdsub, units := fun _ _ => [], legal := fun i => legalT i false true false false 0x1F true false 0xFFFFFFFFFF,
     uses := fun _ => (false, true, false, false), rs := fun i => [fieldOf i.ctl 0 5], check := redCheck false, put := redTake false },
   { make := .rdrecv, op := .rdrecv, units := fun _ _ => [], legal := fun i => legalT i true false false false 0x1F true false 0xFFFFFFFFFF,
     uses := fun _ => (true, false, false, false), rs := fun i => [fieldOf i.ctl 0 5], check := redCheck true, put := redTake true }]

/-- The commands that take a record off the Snowpack: they issue as the others do unless the record lies deeper than the directory. -/
def Slice0.popUnits : List Slice0.Unit :=
  [{ make := .spop, op := .spop, units := fun _ _ => [.snow], legal := fun i => legalT i true false false false 0 false false 0,
     uses := fun _ => (true, false, false, false), check := spopCheck, put := fun n s _ => snowQueuePop s n },
   { make := .spskip, op := .spskip, units := fun _ _ => [.snow], legal := fun i => legalT i false false false false 0 false false 0,
     uses := fun _ => (false, false, false, false), check := fun i s _ => firstFault s i.n [] { late := snowPopFault s i.n none },
     put := fun n s _ => snowQueuePop s n },
   { make := .gnrmb, op := .gnrmb, units := fun _ => groomUnits,
     legal := fun i => !i.ctl.getLsbD 1 && legalT i true true true true 0xB true false 0x1FFFF,
     uses := fun i => (true, true, !i.ctl.getLsbD 3, true), check := fun i => groomCheck (!i.ctl.getLsbD 3) true i, put := groomPut }]

/-- The instructions of format A with the check of their words (Table 04-5, Table 04-6, R81, R82, R91). -/
def Slice0.wordsA : List ((IA → Instr) × (IA → Bool)) :=
  (Slice0.scalarA.map (fun p => (p.1, fun (i : IA) => i.legal true true true false false 0)))
  ++ (Slice0.compareA.map (fun p => (p.1, fun (i : IA) => i.legal true true true false false 0 && decide (i.d.toNat < 8))))
  ++ (Slice0.logicA.map (fun p => (p.1, fun (i : IA) =>
    i.legal true true true false false 0 && decide (i.d.toNat < 8 ∧ i.a.toNat < 8 ∧ i.b.toNat < 8))))
  ++ [(.pset, fun i => i.legal true true false false false 0 && decide (i.d.toNat < 8)),
   (.pget, fun i => i.legal true true false false false 0 && decide (i.a.toNat < 8)),
   (.tset, fun i => i.legal true true false false false 3 && decide (i.d.toNat < 16)),
   (.tget, fun i => i.legal true true false false false 3 && decide (i.a.toNat < 16)),
   (.tmov, fun i => i.legal true true false false false 0 && decide (i.d.toNat < 16 ∧ i.a.toNat < 16)),
   (.cstart, fun i => i.legal false true true true true 0), (.endCtx, fun i => i.legal false false false false false 0),
   (.rdsys, fun i => i.legal true false false false false 0xF && decide (fieldOf i.aux 0 4 < 8)),
   (.ifence, fun i => i.legal false false false false false 0), (.nop, fun i => i.legal false false false false false 0),
   (.waitp, fun i => i.legal false false false false false 7), (.bar, fun i => i.legal false true false false false 7),
   (.evsig, fun i => i.legal false false false false false 31), (.evwait, fun i => i.legal false false false false false 31),
   (.qcfg, fun i => i.legal false true true true false 0x7F), (.qbind, fun i => i.legal false true false false false 0x1F),
   (.qacq, fun i => i.legal true false false false false 0xF), (.qrel, fun i => i.legal false false false false false 0xF),
   (.qsub, fun i => i.legal false true true false true 0xF), (.slm, fun i => i.legal false true false false true 0),
   (.rget, fun i => i.legal true true true false true 0x1E0), (.rput, fun i => i.legal true true true false true 0x1E0),
   (.rcopy, fun i => i.legal true true true false true 0x1E0),
   (.ratom, fun i => i.legal true true true true true 0x1FF && decide (fieldOf i.aux 0 4 ≤ 9)),
   (.rfence, fun i => i.legal false false false false true 0),
   (.ckvote, fun i => i.legal true true false false true 0 && decide (i.d.toNat < 8))]

/-- The instructions of format B with the check of their words. -/
def Slice0.wordsB : List ((IB → Instr) × (IB → Bool)) :=
  (Slice0.scalarB.map (fun p => (p.1, fun (i : IB) => i.legal true true true)))
  ++ (Slice0.compareB.map (fun p => (p.1, fun (i : IB) => i.legal true true true && decide (i.d.toNat < 8))))
  ++ [(.br, fun i => i.legal false false false), (.jal, fun i => i.legal false true false), (.jr, fun i => i.legal false false true)]

/-- R71: an instruction whose guard does not hold only advances the pc, past its extension word when it has one; one whose word is illegal faults with
E_ILLEGAL all the same (R74). -/
def Slice0.SkippedInstruction : Prop :=
  (∀ p ∈ Slice0.wordsA, ∀ (i : IA) (s : State), Slice0.Issues s i.n i.k → (s.ctx i.n i.k).guard i.pg i.pn = false →
    exec (p.1 i) s = .next (if p.2 i then s.advance i.n i.k 8 else s.faultCtx i.n i.k E.ILLEGAL (s.ctx i.n i.k).pc))
  ∧ (∀ p ∈ Slice0.wordsB, ∀ (i : IB) (s : State), Slice0.Issues s i.n i.k → (s.ctx i.n i.k).guard i.pg i.pn = false →
    exec (p.1 i) s = .next (if p.2 i then s.advance i.n i.k (if i.x then 16 else 8) else s.faultCtx i.n i.k E.ILLEGAL (s.ctx i.n i.k).pc))
  ∧ (∀ p ∈ Slice0.accesses, ∀ (i : IM) (s : State), Slice0.Issues s i.n i.k → (s.ctx i.n i.k).guard i.pg i.pn = false →
    exec (p.make i) s = .next (if p.legal i then s.advance i.n i.k 8 else s.faultCtx i.n i.k E.ILLEGAL (s.ctx i.n i.k).pc))
  ∧ (∀ u ∈ Slice0.carveUnits ++ Slice0.vectorUnits ++ Slice0.otherUnits ++ Slice0.popUnits, ∀ (i : IT) (s : State), Slice0.Issues s i.n i.k →
    (s.ctx i.n i.k).guard i.pg i.pn = false →
    exec (u.make i) s = .next (if u.legal i then s.advance i.n i.k (if i.x then 16 else 8)
      else s.faultCtx i.n i.k E.ILLEGAL (s.ctx i.n i.k).pc))

/-- Table 04-5 and the fn values of Tables 04-7 to 04-14: opcode, low bit and width of fn, and the values listed. Format M has no fn; BR, JAL and JR do
not use theirs, so it is reserved (R70). -/
def Slice0.listed : List (Nat × Nat × Nat × List Nat) :=
  [(0x01, 24, 7, List.range 0x13), (0x02, 32, 7, List.range 0x13), (0x03, 24, 7, List.range 6), (0x04, 32, 7, List.range 6), (0x05, 24, 7, List.range 6),
   (0x08, 0, 0, [0]), (0x09, 0, 0, [0]), (0x0A, 0, 0, [0]), (0x0B, 0, 0, [0]), (0x0C, 24, 7, List.range 3), (0x10, 32, 7, [0]), (0x11, 32, 7, [0]),
   (0x12, 32, 7, [0]), (0x18, 24, 7, List.range 4), (0x20, 24, 7, List.range 6), (0x30, 24, 8, List.range 5), (0x38, 24, 8, [0]), (0x3C, 24, 8, List.range 4),
   (0x40, 24, 8, List.range 0x0C ++ [0x10, 0x11, 0x12, 0x18, 0x19, 0x1A, 0x1B, 0x20, 0x28, 0x29, 0x2A]), (0x48, 24, 8, List.range 3),
   (0x50, 24, 7, List.range 5), (0x58, 24, 8, List.range 2), (0x5C, 24, 7, [0]), (0x5D, 24, 8, [0]), (0x60, 24, 7, List.range 5)]

/-- R74: a word spells an instruction exactly when its opcode and its fn are listed. R73, R74: a core issues the word at the pc of its RUNNING context: the
instruction that it spells, and one that spells none faults with E_ILLEGAL, whatever its guard bits say. -/
def Slice0.WordsIssued : Prop :=
  (∀ (core : BitVec 10) (ctx : BitVec 3) (w ext : W64), (decodeWord core ctx w ext).isSome = true ↔
    ∃ p ∈ Slice0.listed, fieldOf w 56 8 = p.1 ∧ fieldOf w p.2.1 p.2.2.1 ∈ p.2.2.2)
  ∧ (∀ (s : State) (n : Nat), s.issuer n = none → coreTick n s = s)
  ∧ (∀ (s : State) (n k : Nat), s.issuer n = some k →
    let pc := (s.ctx n k).pc
    let d := decodeWord (BitVec.ofNat 10 n) (BitVec.ofNat 3 k) (s.wordAt n pc) (s.wordAt n (pc + 8))
    (∀ i t, d = some i → exec i s = .next t → coreTick n s = t)
    ∧ (d = none → coreTick n s = s.faultCtx n k (if pcOk pc then E.ILLEGAL else E.PC_ALIGN) pc)
    ∧ (s.cores.map Prod.fst = [n] → s.pending = [] → s.ws.recs = [] → s.ws.waiting = [] → s.net.paused = [] → s.net.inb = [] → s.fab.bufs = [] →
      s.fab.waits = [] → step s = .next (coreTick n s)))

/-- R71-R74: words that are illegal, instructions whose guard does not hold, and the issue of a program's words, which cores do on an empty queue (log
9). -/
def Obligations.GuardsAndReservedWords : Prop := Slice0.ExtensionWordIllegal ∧ Slice0.SkippedInstruction ∧ Slice0.WordsIssued

/-- A unit command issues: one that faults has no effect and is not queued; one whose queues have room writes 0 to its completion predicate, the pc
advances past it, and the command with every operand captured goes to the end of each queue; else the context waits at it. -/
def Slice0.Queues (u : Slice0.Unit) (i : IT) (s : State) : Prop :=
  s.Executes i.n i.k i.pg i.pn (u.rs i) (heldDescs i s (u.uses i).1 (u.uses i).2.1 (u.uses i).2.2.1 (u.uses i).2.2.2) → u.legal i = true →
    let cmd := capture u.op i (s.ctx i.n i.k)
    let room := (u.units i cmd).all (fun q => (s.core i.n).room q) = true
    (room → u.check i s cmd = none →
      exec (u.make i) s = .next (u.put i.n ((u.units i cmd).foldl (fun st q => st.push i.n q cmd)
        (s.setCtx i.n i.k (((s.ctx i.n i.k).setPr i.pd.toNat false).adv (if i.x then 16 else 8)))) cmd))
    ∧ (∀ code, room → u.check i s cmd = some code →
      exec (u.make i) s = .next (s.faultCtx i.n i.k code (cmd.faultAddr code (s.ctx i.n i.k).pc)))
    ∧ (¬ room → exec (u.make i) s = .next (s.makeWait i.n i.k (.queue (u.units i cmd))))

/-- R77, R199: every unit command issues so; one that takes a record off the Snowpack, unless the record lies deeper than the directory: then it is
held, and the header of the record is asked for. -/
def Slice0.UnitCommandIssue : Prop :=
  (∀ u ∈ Slice0.carveUnits ++ Slice0.vectorUnits ++ Slice0.otherUnits, ∀ (i : IT) (s : State), Slice0.Queues u i s)
  ∧ (∀ u ∈ Slice0.popUnits, ∀ (i : IT) (s : State),
    let pops := u.op = .gnrmb → (capture u.op i (s.ctx i.n i.k)).spillRows ≠ 0
    (s.snowHeld i.n = false ∨ ¬ pops → Slice0.Queues u i s)
    ∧ (s.snowHeld i.n = true → pops →
        s.Executes i.n i.k i.pg i.pn (u.rs i) (heldDescs i s (u.uses i).1 (u.uses i).2.1 (u.uses i).2.2.1 (u.uses i).2.2.2) → u.legal i = true →
      exec (u.make i) s = .next (s.setSnow i.n { s.snow i.n with dirWait := true })))

/-- R94: the data address that a fault at issue records: of a misaligned offset or record the offset, of an operand outside its space its base, and
the pc where there is no data address. -/
def Slice0.FaultAddress : Prop :=
  ∀ (c : UCmd) (code pc : Nat),
    (code ≠ E.ALIGN → code ≠ E.OPT_REC → code ≠ E.ADDR_UNMAPPED → c.faultAddr code pc = pc)
    ∧ (code = E.ALIGN ∨ code = E.OPT_REC → c.faultAddr code pc = fieldOf c.ext 0 26)
    ∧ (∀ o l, code = E.ADDR_UNMAPPED → c.operands = o :: l → o.1.outside o.1.rowBytes = true → c.faultAddr code pc = o.1.base)
    ∧ (code = E.ADDR_UNMAPPED → c.operands = [] → c.faultAddr code pc = fieldOf c.ext 0 26)

/-- R68, R69: a command captures its operands at issue: the descriptors of its registers, the scale descriptors their tsc fields name, the two
scalars its control field names. -/
def Slice0.CommandCapture : Prop :=
  ∀ (op : UOp) (i : IT) (x : Ctx),
    let c := capture op i x
    c.op = op ∧ c.ctx = i.k ∧ c.inc = x.inc ∧ c.pd = i.pd.toNat ∧ c.ctl = i.ctl ∧ c.ext = (if i.x then i.ext else 0)
    ∧ c.td = x.tr i.td.toNat ∧ c.ta = x.tr i.ta.toNat ∧ c.tb = x.tr i.tb.toNat ∧ c.tc = x.tr i.tc.toNat
    ∧ c.sd = x.tr (fieldOf c.td 236 4) ∧ c.sa = x.tr (fieldOf c.ta 236 4) ∧ c.sb = x.tr (fieldOf c.tb 236 4) ∧ c.sc = x.tr (fieldOf c.tc 236 4)
    ∧ c.xa = x.sr (fieldOf i.ctl 0 5) ∧ c.xb = x.sr (fieldOf i.ctl 5 5) ∧ c.chain = none

/-- R68, R69, R77, R94, R199: unit commands issue with their operands captured. The order of the checks is log 101, the data address that a fault of a unit command records log 15. -/
def Obligations.UnitCommands : Prop := Slice0.UnitCommandIssue ∧ Slice0.FaultAddress ∧ Slice0.CommandCapture

/-- The end of a command of a unit: its effect, the sticky flags it sets, the next command of its queue started, its completion predicate written 1
(unless its context has ended), each as R77, R79 and R109 say. The records that it shares with a command in flight, without order, are undefined
(R121), and so are the ranges that a chair released early has spoilt (R169). A command whose effect is in place already (R139) only ends. -/
def Slice0.Ends (c : Instr) (n : Nat) (u : UnitId) (run : State → Nat → UCmd → State × Flags) (ready : State → UCmd → Prop) : Prop :=
  ∀ (s : State) (x : UCmd), s.stoppedAt n = false → ((s.core n).eng u).run = some x → x.chain = none → ready s x →
    let past := fun (t : State) => ((t.setCore n ((t.core n).setEng u { run := ((t.core n).eng u).queue.head?, queue := ((t.core n).eng u).queue.drop 1 })).wakeRoom
      n).complete n x.ctx x.inc x.pd
    (x.ran = none → exec c s = .next (past (
      let r := run (x.spoil n s) n x
      ((x.spoil n r.1).raced n x (r.1.clashes n u x)).setFlags n x.ctx x.inc r.2)))
    ∧ (∀ f, x.ran = some f → exec c s = .next (past ((x.spoil n s).setFlags n x.ctx x.inc ⟨f.1, f.2.1, f.2.2.1, f.2.2.2⟩)))
    ∧ (x.spoils = [] → x.spoil n s = s)

/-- R77, R79: the commands at the head of the queues of the arrays, the Schuss path, the Groomer, the vector unit, the Snowpack and the digest unit
end so. A Groomer command that spills statistics ends with its place in the Snowpack's queue. A stopped core ends none. -/
def Slice0.UnitCommandEnd : Prop :=
  ∀ core : BitVec 10,
    Slice0.Ends (.carveCommandDone core 0 0) core.toNat .a0 carveRun (fun _ _ => True)
    ∧ Slice0.Ends (.carveCommandDone core 1 0) core.toNat .a1 carveRun (fun _ _ => True)
    ∧ Slice0.Ends (.schussCommandDone core) core.toNat .schuss smvRun (fun _ _ => True)
    ∧ Slice0.Ends (.groomerCommandDone core) core.toNat .groomer groomRun (fun _ x => x.spillRows = 0)
    ∧ Slice0.Ends (.vectorCommandDone core) core.toNat .vector vecRun (fun _ _ => True)
    ∧ Slice0.Ends (.snowpackCommandDone core) core.toNat .snow snowRun
        (fun s x => (x.op = .spop ∨ x.op = .spskip) ∧ snowPopOpen s core.toNat = true ∨ (x.op = .spush ∧ snowFits s core.toNat x.tA.bytes = true))
    ∧ Slice0.Ends (.digestDone core) core.toNat .digest
        (fun s n x => (s.lstore n 1 (fieldOf x.ext 0 26) (sha512 (s.packed n x.tA)), {})) (fun _ _ => True)
    ∧ (∀ (s : State) (x : UCmd), s.stoppedAt core.toNat = false → (s.core core.toNat).groomer.run = some x → x.chain = none → x.spillRows ≠ 0 →
        groomSnowReady s core.toNat x = true →
      exec (.groomerCommandDone core) s = .next ((unitDone core.toNat .groomer groomRun s).pop core.toNat .snow))
    ∧ (∀ s : State, s.stoppedAt core.toNat = true → ∀ c ∈ [Instr.carveCommandDone core 0 0, .carveCommandDone core 1 0, .schussCommandDone core,
        .groomerCommandDone core, .vectorCommandDone core, .snowpackCommandDone core, .digestDone core], exec c s = .next s)

/-- R139: a command of an array behind others ends before them where the rules let it pass; what it drains early of those ahead is in place first. It
leaves the queue from its place, and one that may not pass, or is a gate, stays. -/
def Slice0.EndsBehind : Prop :=
  ∀ (core : BitVec 10) (arr : BitVec 1) (k : Nat) (s : State) (y x : UCmd), s.stoppedAt core.toNat = false →
    let n := core.toNat
    let u := if arr = 0 then UnitId.a0 else UnitId.a1
    let e := (s.core n).eng u
    let ahead := (y :: e.queue.take k).reverse
    e.run = some y → e.queue[k]? = some x →
    (x.chain.isSome = true ∨ mayPass s n ahead x = false → exec (.carveCommandDone core arr (k + 1)) s = .next s)
    ∧ (x.chain = none → mayPass s n ahead x = true →
      let r := carveEffect n u x (runAhead n u (k + 1) x s)
      let t := r.1.setFlags n x.ctx x.inc r.2
      exec (.carveCommandDone core arr (k + 1)) s = .next (((t.setCore n ((t.core n).setEng u
        { (t.core n).eng u with queue := ((t.core n).eng u).queue.eraseIdx k })).wakeRoom n).complete n x.ctx x.inc x.pd))
    ∧ ((∀ z ∈ ahead, drainsEarly z x = false) → runAhead n u (k + 1) x s = s)

/-- R139: which commands pass. One passes what touches no entries of the store in common, and no SRAM that one of the two writes, when one of them
drains, zeroes, or runs in Herringbone mode; two dot-mode commands end in order; SRAM that one of them writes keeps the order; entries in common do, but
for a CDRN or CZERO of rows that a compute command has written for the last time. -/
def Slice0.PassRules : Prop :=
  ∀ (s : State) (n : Nat) (z x : UCmd), mayPass s n [] x = true
    ∧ (sramMeet s n z x = true → mayPass s n [z] x = false)
    ∧ (z.drains = false → z.heron = false → x.drains = false → x.op ≠ .chb → mayPass s n [z] x = false)
    ∧ (sramMeet s n z x = false → (x.drains || z.drains || z.heron) = true → overlap (accTouch z) (accTouch x) = false → mayPass s n [z] x = true)
    ∧ (overlap (accTouch z) (accTouch x) = true → x.drains = false ∨ z.drains = true ∨ overlap [lastWrite z] (accTouch x) = true → mayPass s n [z] x = false)
    ∧ (sramMeet s n z x = false → z.chain = none → overlap (accTouch z) (accTouch x) = true → x.drains = true → z.drains = false →
      overlap [lastWrite z] (accTouch x) = false → mayPass s n [z] x = true)

/-- R121: commands that share no record without order leave nothing undefined, and a command alone in its core shares none. -/
def Slice0.RecordsInOrder : Prop :=
  ∀ (s : State) (n : Nat) (u : UnitId) (x : UCmd), s.raced n x [] = s ∧ (s.inFlight n = [(u, x)] ∨ s.inFlight n = [] → s.clashes n u x = [])

/-- R77: a completion writes 1 to the predicate of the context that issued the command, and lets a context that waits for it go on past its WAITP;
one whose context has ended, or has been started again, is discarded (R79). -/
def Slice0.CompletionPredicate : Prop :=
  ∀ (s : State) (n k inc pd : Nat), k < 8 → 0 < pd → pd < 8 →
    ((s.ctx n k).inc ≠ inc ∨ (s.ctx n k).st = .free → s.complete n k inc pd = s)
    ∧ ((s.ctx n k).inc = inc → (s.ctx n k).st ≠ .free →
      ((s.complete n k inc pd).ctx n k).pr pd = true
      ∧ (¬ ((s.ctx n k).st = .waiting ∧ (s.ctx n k).wait = .pred pd) → s.complete n k inc pd = s.setCtx n k ((s.ctx n k).setPr pd true))
      ∧ ((s.ctx n k).st = .waiting → (s.ctx n k).wait = .pred pd →
        ((s.complete n k inc pd).ctx n k).pc = ((s.ctx n k).pc + 8) % 2 ^ 26 ∧ ((s.complete n k inc pd).ctx n k).st ≠ .waiting))

/-- R77, R79, R121, R139: unit commands end, and what a completion does to its context. That passing its WAITP is part of a waiting context's
completion is log 104, and the predicate of a Groomer command that spills log 113. -/
def Obligations.UnitCompletion : Prop :=
  Slice0.UnitCommandEnd ∧ Slice0.EndsBehind ∧ Slice0.PassRules ∧ Slice0.RecordsInOrder ∧ Slice0.CompletionPredicate

/-! ### What unit commands write -/

/-- Table 04-11: CZERO writes +0 to the entries of its rows or tiles in the format it names, and nothing of another array or of memory. -/
def Slice0.Zeroes : Prop :=
  ∀ (s : State) (n : Nat) (x : UCmd), x.op = .czero →
    let t := (carveRun s n x).1
    (x.tile = false → x.row + x.cnt ≤ accCap x.wacc false →
      ∀ r j, x.row ≤ r → r < x.row + x.cnt → j < 128 → t.accRaw n x.arr x.wacc false (accKey x.wacc false r 0 j) = 0)
    ∧ (x.tile = true → x.tno + x.cnt ≤ accCap x.wacc true →
      ∀ r i j, x.tno ≤ r → r < x.tno + x.cnt → i < 128 → j < 128 → t.accRaw n x.arr x.wacc true (accKey x.wacc true r i j) = 0)
    ∧ (∀ a, a ≠ 2 * n + x.arr → Sparse.get t.acc [] a = Sparse.get s.acc [] a) ∧ t.mem = s.mem

/-- R110-R112: the bits of an accumulator to which exact sums are added one after another, each addition rounded once. With nothing there before, the
first sum is rounded by itself. -/
def Slice0.summed (wacc : Bool) (start : Option Val) (sums : List Val) : Nat :=
  (sums.foldl (fun (p : Option Val × Nat) v =>
    let b := (roundAcc wacc (match p.1 with | none => v | some a => a.add v)).1
    (some (accDecode wacc b), b)) (start, 0)).2

/-- What the first sum of a command adds to in an entry: with acc = 0 nothing, with acc = 1 the bits that the entry holds in the command's format. -/
def Slice0.Starts (s : State) (n : Nat) (x : UCmd) (tile : Bool) (key : Nat) (v0 : Option Val) : Prop :=
  (x.accBit = false ∧ v0 = none)
  ∨ (x.accBit = true ∧ ∃ b : BitVec 80, Sparse.find (s.accOf n x.arr) key = some { wacc := x.wacc, tile := tile, val := b }
    ∧ v0 = some (if x.wacc then decodeWacc b.toNat else ofF32 b.toNat))

/-- R128, R140-R143, Table 04-11: the entries that CMM, CHB and CBWD leave. The rows of X and the columns of W (stored along dimension 0, or exchanged by
tr); CHB and the weight gradient of CBWD take one outer product after another. -/
def Slice0.Products : Prop :=
  ∀ (s : State) (n : Nat) (x : UCmd),
    let t := (carveRun s n x).1
    let a := s.readRows n x.tA x.tSa
    let b := s.readRows n x.tB x.tSb
    let w := exchanged x.tB b
    let column := fun (rows : List (List Val)) (j : Nat) => rows.map (fun r => r.getD j .zero)
    let outer := fun (u v : List Val) => (u.zip v).map (fun p => p.1.mul p.2)
    (x.op = .cmm → x.row + x.tA.n1 ≤ accCap x.wacc false → x.tB.k1 ≤ 128 → ∀ m j v0, m < x.tA.n1 → j < x.tB.k1 →
      let key := accKey x.wacc false (x.row + m) 0 j
      Slice0.Starts s n x false key v0 →
      t.accRaw n x.arr x.wacc false key = BitVec.ofNat 80 (Slice0.summed x.wacc v0 (chunkSums (kappaOf x.tA.fmt) (a.getD m []) (w.getD j []))))
    ∧ (x.op = .chb → x.tno < accCap x.wacc true → x.tA.n0 ≤ 128 → x.tB.n0 ≤ 128 → ∀ i j v0, i < x.tA.n0 → j < x.tB.n0 →
      let key := accKey x.wacc true x.tno i j
      Slice0.Starts s n x true key v0 →
      t.accRaw n x.arr x.wacc true key = BitVec.ofNat 80 (Slice0.summed x.wacc v0 (outer (column a i) (column b j))))
    ∧ (x.op = .cbwd → x.row + x.tA.n1 ≤ accCap x.wacc false → x.tB.k0 ≤ 128 → x.tA.n0 ≤ 128 → x.tC.n0 ≤ 128 → x.tno < accCap x.wacc true →
      (x.frz = true ∨ overlap [accSpan x.wacc false x.row x.tA.n1] [accSpan x.wacc true x.tno 1] = false → ∀ m k v0, m < x.tA.n1 → k < x.tB.k0 →
        let key := accKey x.wacc false (x.row + m) 0 k
        Slice0.Starts s n x false key v0 →
        t.accRaw n x.arr x.wacc false key = BitVec.ofNat 80 (Slice0.summed x.wacc v0 (chunkSums (kappaOf x.tA.fmt) (a.getD m []) (column w k))))
      ∧ (x.frz = false → overlap [accSpan x.wacc false x.row x.tA.n1] [accSpan x.wacc true x.tno 1] = false → ∀ k j v0, k < x.tC.n0 → j < x.tA.n0 →
        let key := accKey x.wacc true x.tno k j
        Slice0.Starts s n x true key v0 →
        t.accRaw n x.arr x.wacc true key = BitVec.ofNat 80 (Slice0.summed x.wacc v0 (outer (column (s.readRows n x.tC x.tSc) k) (column a j)))))

/-- R113, R145-R149: CDRN gives td its rows or its tile, each entry converted once; SMV gives it the sums of its chunks, added to what td holds when
ctl[0] = 1, converted once. -/
def Slice0.Drained : Prop :=
  ∀ (s : State) (n : Nat) (x : UCmd),
    (x.op = .cdrn → (carveRun s n x).1 = (s.writeTens n x.tD x.tSd ((List.range x.tD.n1).flatMap (fun r => (List.range x.tD.n0).map (fun j =>
      some (s.accVal n x.arr x.wacc x.tile (if x.tile then accKey x.wacc true x.tno r j else accKey x.wacc false (x.row + r) 0 j)))))).1)
    ∧ (smvRun s n x).1 = (s.writeTens n x.tD x.tSd ((List.range x.tA.n1).flatMap (fun v => (List.range x.tB.k1).map (fun j =>
        let old := ((s.readRows n x.tD x.tSd).getD v []).getD j .zero
        let sums := chunkSums (kappaOf x.tA.fmt) ((s.readRows n x.tA x.tSa).getD v []) ((exchanged x.tB (s.readRows n x.tB x.tSb)).getD j [])
        some (ofF32 (Slice0.summed false (if x.ctl.getLsbD 0 then some old else none) sums)))))).1

/-- R114, R160, Table 04-14: the elementwise vector instructions, one result of each element of their operands. -/
def Slice0.vector1 : List (UOp × (UCmd → Val → Val)) :=
  [(.vscale, fun x v => (mulF32 v (ofF32 (x.xa.toNat % 2 ^ 32))).1), (.vexp, fun _ v => (expF32 v).1), (.vlog, fun _ v => (logF32 v).1),
    (.vrcp, fun _ v => (divF32 .one v).1), (.vrsqrt, fun _ v => (rsqrtF32 v).1),
    (.vact, fun x v => if fieldOf x.ctl 10 3 = 0 then (maxF32 v .zero).1 else if fieldOf x.ctl 10 3 = 1 then (geluF32 v).1
      else (divF32 v (addF32 .one (expF32 v.neg).1).1).1)]
def Slice0.vector2 : List (UOp × (Val → Val → Val)) :=
  [(.vadd, fun a b => (toF32 (a.add b)).1), (.vsub, fun a b => (toF32 (a.sub b)).1), (.vmul, fun a b => (toF32 (a.mul b)).1),
    (.vmax, fun a b => (maxF32 a b).1), (.vmin, fun a b => (minF32 a b).1)]
def Slice0.vectorInt : List (UOp × (UCmd → Int → Int → Int)) :=
  [(.viadd, fun _ a b => (a + b).bmod (2 ^ 32)), (.vimul, fun _ a b => (a * b).bmod (2 ^ 32)),
    (.vicmp, fun x a b => if icmp (fieldOf x.ctl 10 3) a b then 1 else 0)]

/-- R114, R159-R162, R285, R287, R288: what vector commands write into td: lane results by element, sums of rows, GB16 blocks. -/
def Slice0.VectorResults : Prop :=
  ∀ (s : State) (n : Nat) (x : UCmd),
    let t := (vecRun s n x).1
    let a := (s.loadF32 n x.tA x.tSa true).1
    let b := (s.loadF32 n x.tB x.tSb true).1
    let c := (s.loadF32 n x.tC x.tSc true).1
    let lanes := fun (vs : List Val) => (s.writeLane n false x.tD x.tSd (vs.map some)).1
    (∀ p ∈ Slice0.vector1, x.op = p.1 → t = lanes (a.map (p.2 x)))
    ∧ (∀ p ∈ Slice0.vector2, x.op = p.1 → t = lanes (List.zipWith p.2 a b))
    ∧ (x.op = .vfma → t = lanes (List.zipWith (fun u p => (toF32 ((u.mul p.1).add p.2)).1) a (b.zip c)))
    ∧ (∀ p ∈ Slice0.vectorInt, x.op = p.1 → t = (s.writeLane n true x.tD x.tSd
        ((List.zipWith (p.2 x) (s.loadInt n x.tA x.tSa).1 (s.loadInt n x.tB x.tSb).1).map (fun v => some (Val.ofInt v)))).1)
    ∧ (x.op = .vrsum → t = lanes ((List.range x.tA.rows).map (fun r => (toF32 (sumVals ((a.drop (r * x.tA.n0)).take x.tA.n0))).1)))
    ∧ (x.op = .vcvt → x.tA.fmt ≠ 0x0A → x.tD.fmt ≠ 0x0A → ¬ (x.tA.fmt = 0x0B ∧ x.tD.fmt = 0x0B) → t = (s.writeLane n false x.tD x.tSd
        ((s.loadF32 n x.tA x.tSa false).1.map some)).1)
    ∧ (x.op = .vgbd → t = (s.writeTens n x.tD x.tSd ((s.exactVals n x.tA x.tSa true).1.map some)).1)
    ∧ (x.op = .vres → t = (s.writeTens n x.tD x.tSd ((s.gblks n x.tA).map (fun g => some (Val.ofInt (residue g.m))))).1)
    ∧ (x.op = .vgbq → x.tD.srecEn = false → t = s.putBlks n x.tD ((List.range (a.length / 32)).map (fun i => gbQuantise ((a.drop (32 * i)).take 32))))
    ∧ (x.op = .vgba → x.tD.srecEn = false → s.red.upset = 0 → (∀ p ∈ (s.gblks n x.tA).zip (s.gblks n x.tB), failedCheck 0 (gbAdd p.1 p.2) = 0) →
      t = s.putBlks n x.tD (((s.gblks n x.tA).zip (s.gblks n x.tB)).map (fun p => (gbAdd p.1 p.2).blk)))

/-- R152-R155: the rows that the Groomer gives. A row with a NaN among its unmasked inputs is all NaN; else a normalised row is (x - mu) * rho rounded
once, with mu 0 for RMS, then the gain and the bias; a soft-maximum row the quotients of the exponentials of the unmasked inputs less their largest. -/
def Slice0.GroomerRows : Prop :=
  (∀ (rms : Bool) (eps : Val) (g b : List Val) (xs : List Val), xs.any Val.isNan = false →
    let mu := if rms then Val.zero else (divF32 (sumVals xs) (Val.ofInt xs.length)).1
    let d := fun (v : Val) => if rms then v else v.sub mu
    let rho := (rsqrtF32 ((divF32 (sumVals (xs.map (fun v => (d v).mul (d v)))) (Val.ofInt xs.length)).1.add eps)).1
    let y := fun (v : Val) => (toF32 ((d v).mul rho)).1
    (gnrmRow rms eps none none xs).out = xs.map y
    ∧ (g.length = xs.length → (gnrmRow rms eps (some g) none xs).out = List.zipWith (fun v u => (toF32 ((y v).mul u)).1) xs g)
    ∧ (g.length = xs.length → b.length = xs.length → (gnrmRow rms eps (some g) (some b) xs).out
        = List.zipWith (fun v p => (toF32 (((y v).mul p.1).add p.2)).1) xs (g.zip b))
    ∧ (gnrmRow rms eps none none xs).r0 = mu ∧ (gnrmRow rms eps none none xs).r1 = rho)
  ∧ (∀ (rms : Bool) (eps : Val) (g b : Option (List Val)) (xs : List Val), xs.any Val.isNan = true → (gnrmRow rms eps g b xs).out = xs.map (fun _ => .nan))
  ∧ (∀ (masked : Nat → Bool) (xs : List Val) (m : Val) (ms : List Val),
    let at_ := fun (j : Nat) => xs.getD j .zero
    let live := (List.range xs.length).filter (fun j => !masked j)
    live.map at_ = m :: ms → (m :: ms).any Val.isNan = false →
      let top := ms.foldl (fun u v => (maxF32 u v).1) m
      let e := fun (j : Nat) => (expF32 (toF32 ((at_ j).sub top)).1).1
      let sum := (toF32 (sumVals (live.map e))).1
      (gsmxRow masked xs).out = (List.range xs.length).map (fun j => if masked j then .zero else (divF32 (e j) sum).1)
      ∧ (gsmxRow masked xs).r0 = top ∧ (gsmxRow masked xs).r1 = (logF32 sum).1)
  ∧ (∀ (masked : Nat → Bool) (xs : List Val), (∀ j < xs.length, masked j = true) → (gsmxRow masked xs).out = xs.map (fun _ => .zero))

/-- R150-R157: what Groomer commands write: td by rows, from the rows of ta (and of tc, backward), and the statistics records of their rows, to the side
memory and, those beyond it, to the Snowpack. -/
def Slice0.GroomerResults : Prop :=
  ∀ (s : State) (n : Nat) (x : UCmd),
    let a := (s.rowsF32 n x.tA x.tSa).map rowOf
    let dy := (s.rowsF32 n x.tC x.tSc).map rowOf
    let tb := (s.rowsF32 n x.tB x.tSb).map rowOf
    let rms := x.ctl.getLsbD 0
    let gain := if x.ctl.getLsbD 3 then none else some (tb.getD 0 [])
    let td := fun (rows : List (List Val)) => (s.writeTens n x.tD x.tSd (rows.flatten.map some)).1
    let bias := if x.ctl.getLsbD 3 ∨ x.tB.n1 = 1 then none else some (tb.getD 1 [])
    let fwd := if x.op = .gnrm then a.map (gnrmRow rms (ofF32 (fieldOf x.ext 32 32)) gain bias)
      else a.zipIdx.map (fun p => gsmxRow (x.masked p.2) p.1)
    let side := (td (fwd.map (·.out))).lstore n 2 (8 * x.recBase) ((fwd.map statBytes).take (131072 - x.recBase)).flatten
    (x.op = .gnrm ∨ x.op = .gsmx → x.stats = false → (groomRun s n x).1 = td (fwd.map (·.out)))
    ∧ (x.op = .gnrm ∨ x.op = .gsmx → x.stats = true → x.spillRows = 0 → (groomRun s n x).1 = side)
    ∧ (x.op = .gnrm ∨ x.op = .gsmx → x.stats = true → x.spillRows ≠ 0 →
      (groomRun s n x).1 = snowPush side n x.ctx 1 ((fwd.map statBytes).drop (131072 - x.recBase)).flatten)
    ∧ (x.op = .gsmxb → (groomRun s n x).1 = td ((a.zip dy).zipIdx.map (fun p => (gsmxbRow (x.masked p.2) p.1.1 p.1.2).out)))
    ∧ (x.op = .gnrmb → x.spillRows = 0 → (groomRun s n x).1 = td (((a.zip dy).zip (groomRecs s n x).2).map (fun p =>
        (gnrmbRow rms gain p.2.1 p.2.2 p.1.1 p.1.2).out)))

/-- R67, R97, R456: the bytes of td that such a write leaves, for a format of one code for each element and a tensor without scale record: in a row that no
later row overlaps, off every Snowpack, the packed codes of its values, each converted with td's rounding (stochastic rounding without a record is to
nearest) and saturation. -/
def Slice0.RowsWritten : Prop :=
  ∀ (s : State) (n : Nat) (t sc : Tens) (vs : List Val) (r : Nat), isMx t.fmt = false → t.fmt ≠ 0x0A → t.srecEn = false → t.space = 1 ∨ t.space = 2 →
    MemOk s → vs.length = t.count → r < t.rows → (∀ q, q < t.rows → Slice0.OffSnow s (localAddr n t.space (t.rowAddr q)) t.rowBytes) →
    (∀ q, r < q → q < t.rows → t.rowAddr q + t.rowBytes ≤ t.rowAddr r ∨ t.rowAddr r + t.rowBytes ≤ t.rowAddr q) →
    ((s.writeTens n t sc (vs.map some)).1).lbytes n t.space (t.rowAddr r) t.rowBytes
      = packRow t.fmt (((vs.drop (r * t.n0)).take t.n0).map (fun v => (convElem t.fmt (if t.rnd = 1 then 0 else t.rnd) 0 t.sat v).1))

/-- R93: CKDIG writes the SHA-512 of the packed bytes of its tensor to 64 bytes of SRAM at ext[25:0]. -/
def Slice0.DigestWritten : Prop :=
  ∀ (s : State) (n : Nat) (x : UCmd), MemOk s → Slice0.OffSnow s (localAddr n 1 (fieldOf x.ext 0 26)) 64 →
    (digRun s n x).1.lbytes n 1 (fieldOf x.ext 0 26) 64 = sha512 ((List.range x.tA.rows).flatMap (fun r => s.lbytes n x.tA.space (x.tA.rowAddr r) x.tA.rowBytes))

/-- Tables 04-11 to 04-14: what the commands of the units write. That masked elements of a row with a NaN are NaN, and an infinity in a GB16 block, is log
200; reading every operand before td is written log 201; the start of an SMV that adds log 41. -/
def Obligations.UnitResults : Prop :=
  Slice0.Zeroes ∧ Slice0.Products ∧ Slice0.Drained ∧ Slice0.VectorResults ∧ Slice0.GroomerRows ∧ Slice0.GroomerResults ∧ Slice0.RowsWritten
    ∧ Slice0.DigestWritten

/-- R90, R197-R199: at issue SPUSH takes its place in the stack as the control processor sees it, SPOP and SPSKIP take their record off it; a push
beyond the body faults with E_SNOW_FULL, a pop of an empty stack with E_SNOW_EMPTY, a pop of another size with E_SNOW_SIZE. -/
def Slice0.SnowpackIssue : Prop :=
  (∀ (s : State) (n b : Nat), (s.snowCfg n).ok s.edgeSize = true →
    (snowPushFault s n b = none ↔ (s.snow n).qdepth + (64 + 64 * ((b + 63) / 64)) ≤ (s.snowCfg n).bs)
    ∧ (∀ c, snowPushFault s n b = some c → c = E.SNOW_FULL)
    ∧ ((snowQueuePush s n b).snow n).sizes = b :: (s.snow n).sizes
    ∧ ((snowQueuePush s n b).snow n).qdepth = (s.snow n).qdepth + (64 + 64 * ((b + 63) / 64)))
  ∧ (∀ (s : State) (n : Nat) (b : Option Nat),
    ((s.snow n).sizes = [] → snowPopFault s n b = some E.SNOW_EMPTY)
    ∧ (∀ h t, (s.snow n).sizes = h :: t →
      (b = none ∨ b = some h → snowPopFault s n b = none) ∧ (b ≠ none → b ≠ some h → snowPopFault s n b = some E.SNOW_SIZE)
      ∧ ((snowQueuePop s n).snow n).sizes = t ∧ ((snowQueuePop s n).snow n).qdepth = (s.snow n).qdepth - (64 + 64 * ((h + 63) / 64))))

/-! ## Slalom commands, answers of streams, spills (spec/08 R177, R183-R189; spec/09 R198, R199) -/

/-- R186, R189, R199: an SLM whose record is good goes to its queues as one chain and writes 0 to its predicate; a bad record faults with its code and
the address that the rule gives; one that would pop a record deeper than the Snowpack's directory is held, and without room it waits. SLALOM_DONE ends
the oldest chain that has handed out everything: flags, queues, predicate. That the record is checked before room is looked for is log 101, and what the
manual leaves open of a record logs 41 and 105. -/
def Obligations.SlalomCommand : Prop :=
  (∀ (i : IA) (s : State),
    let x := s.ctx i.n i.k
    let off := (x.sr i.a.toNat).toNat
    let r := slmRec s i.n i.k off
    let gs := r.toGates x 0
    s.Executes i.n i.k i.pg i.pn (i.a.toNat :: (r.regs s).1) (r.regs s).2 → i.legal false true false false true 0 = true →
    (∀ code addr, slmFault s i.n i.k off = some (code, addr) → exec (.slm i) s = .next (s.faultCtx i.n i.k code addr))
    ∧ (slmFault s i.n i.k off = none → gatesHeld i.n gs s = true → exec (.slm i) s = .next (s.setSnow i.n { s.snow i.n with dirWait := true }))
    ∧ (slmFault s i.n i.k off = none → gatesHeld i.n gs s = false → slmRoom (s.core i.n) r gs = false →
      exec (.slm i) s = .next (s.makeWait i.n i.k (.queue (gateUnits r gs))))
    ∧ (slmFault s i.n i.k off = none → gatesHeld i.n gs s = false → slmRoom (s.core i.n) r gs = true →
      let id := (s.core i.n).chainNo
      let s1 := s.setCtx i.n i.k ((x.setPr i.pd.toNat false).adv 8)
      ∃ need, exec (.slm i) s = .next (((r.toGates x id).foldl (fun st g => gatePut i.n (g.units.foldl (fun st u => st.push i.n u g.cmd) st) g)
        (s1.setCore i.n { s1.core i.n with
          chains := (s1.core i.n).chains ++ [
            { id := id, gates := r.toGates x id, ctx := i.k, inc := x.inc, pd := i.pd.toNat, inRing := (if r.inEn then some (x.hd r.inQ).ring else none),
              outRing := (if r.outEn then some (x.hd r.outQ).ring else none), need := need }],
          chainNo := id + 1, sq := (s1.core i.n).sq ++ r.lists x i.k id })).settle i.n)))
  ∧ (∀ (core : BitVec 10) (s : State), s.stoppedAt core.toNat = false →
    let n := core.toNat
    let s1 := s.settle n
    ((s1.core n).chains.find? (fun c => c.over (s1.core n)) = none → exec (.slalomDone core) s = .next s1)
    ∧ (∀ ch, (s1.core n).chains.find? (fun c => c.over (s1.core n)) = some ch →
      let s2 := s1.setFlags n ch.ctx ch.inc ch.flagsOf
      exec (.slalomDone core) s = .next ((((s2.setCore n ((s2.core n).without ch.id)).wakeRoom n).complete n ch.ctx ch.inc ch.pd).settle n)))

/-- R177, R180: a request of a ring (src below 16) or transfer slot that waits is answered: one to another node by the answer that came, one to this
engine by the access at its local address, which may be absorbed without an answer (R220) or wait, and waits while the fabric holds its packet back (R222,
R224). A core that is stopped, and one with no such request, takes no answer. -/
def Slice0.RequestAnswered : Prop :=
  ∀ (core : BitVec 10) (src : BitVec 5) (idx : BitVec 6) (resp : Response) (s : State),
    let n := core.toNat
    let j := idx.toNat
    let run := exec (.streamResponse core ⟨src, idx⟩ resp) s
    (s.stoppedAt n = true ∨ waitingReq s n src.toNat j = none → run = .next s)
    ∧ (∀ q, s.stoppedAt n = false → waitingReq s n src.toNat j = some q →
      (∀ t, q.phys = none → q.tag = some t → run = .next (streamAnswer n src.toNat j resp ((s.dropReq t).kick n)))
      ∧ (∀ a, q.phys = some a → s.fabOpen n a (reqVc s n src.toNat) = false → run = .next s)
      ∧ (∀ a s1 data, q.phys = some a → s.fabOpen n a (reqVc s n src.toNat) = true → reqAccess n src.toNat a q s = (s1, .ok data) →
        run = .next (streamAnswer n src.toNat j (.ok data) ((s1.carry n a q.data.length data.length).kick n)))
      ∧ (∀ a s1 code, q.phys = some a → s.fabOpen n a (reqVc s n src.toNat) = true → reqAccess n src.toNat a q s = (s1, .fail code) →
        run = .next (streamAnswer n src.toNat j (.fail (BitVec.ofNat 16 code)) ((s1.carry n a q.data.length 0).kick n)))
      ∧ (∀ a s1, q.phys = some a → s.fabOpen n a (reqVc s n src.toNat) = true → reqAccess n src.toNat a q s = (s1, .lost) →
        run = .next (reqLost n src.toNat j q s1))
      ∧ (∀ a s1, q.phys = some a → s.fabOpen n a (reqVc s n src.toNat) = true → reqAccess n src.toNat a q s = (s1, .wait) → run = .next s1)
      ∧ (q.phys = none → q.tag = none → run = .next s))

/-- R177: what an answer does. The data of an inbound request of a stream goes on to be placed; an RGET's and an RATOM's to SRAM, and the slot moves on; an outbound
request has only ended. -/
def Slice0.AnswerEffect : Prop :=
  (∀ (s : State) (n r j : Nat) (l : XList) (ls : List XList) (q : Req) (data : List Byte), (s.ring n r).lists = l :: ls → l.reqs[j]? = some q →
    q.stage = .wait → data.length = q.len →
    ringAnswer n r j (.ok data) s = s.setRing n r { s.ring n r with lists := { l with reqs := (l.reqs.set j
      (if l.inbound then { q with stage := .place, data := data } else { q with stage := .done })) } :: ls })
  ∧ (∀ (s : State) (n x : Nat) (v : XSlot) (q : Req) (data : List Byte), Sparse.find (s.core n).slots x = some v → v.req = some q →
    q.stage = .wait → data.length = q.len →
    let past : XSlot := { v with req := none, pos := v.pos + q.len, half := false }
    (v.op = .rget → slotAnswer n x (.ok data) s = (s.lstore n 1 (v.loc + v.pos) data).setSlot n x past)
    ∧ (v.op = .ratom → slotAnswer n x (.ok data) s = (s.lstore n 1 v.loc data).setSlot n x past)
    ∧ (v.op = .rput → slotAnswer n x (.ok data) s = s.setSlot n x past))

/-- R91, R92: a failed remote instruction frees its slot, leaves its destination undefined, records the first failure of its context in CORE_CTX_RERR, and
writes its predicate. -/
def Slice0.RemoteFailure : Prop :=
  ∀ (s : State) (n x code addr : Nat) (v : XSlot), v.op = .rget ∨ v.op = .ratom → (s.ctx n v.ctx).inc = v.inc → (s.ctx n v.ctx).st ≠ .free →
    (s.ctx n v.ctx).rfail = false →
    let s1 := s.setCore n { s.core n with slots := Sparse.drop (s.core n).slots x }
    let s2 := (s1.lundef n 1 v.loc v.total).setCtx n v.ctx { s.ctx n v.ctx with rfail := true }
    slotFail n x v code addr s = ((s2.setFld (F.CORE_CTX_RERR_code n v.ctx) code).setFld (F.CORE_CTX_RERR_va n v.ctx) addr).complete n v.ctx v.inc v.pd

/-- R91, R92, R177, R180: answers to the requests of streams and transfer slots. -/
def Obligations.StreamAnswer : Prop := Slice0.RequestAnswered ∧ Slice0.AnswerEffect ∧ Slice0.RemoteFailure

/-- R198: a spill begins above three quarters of the top and ends at half of it; a refill begins below a quarter, while there are bytes below, and ends
at half or with none below. -/
def Slice0.SnowThresholds : Prop :=
  ∀ (c : SnowCfg) (w : Snow),
    let u := w.top.length
    (3 * c.ts < 4 * u → (w.moved c).spilling = true) ∧ (2 * u ≤ c.ts → (w.moved c).spilling = false)
    ∧ (4 * u < c.ts → u < w.depth → (w.moved c).refilling = true) ∧ (c.ts ≤ 2 * u ∨ w.depth ≤ u → (w.moved c).refilling = false)
    ∧ (w.moved c).top = w.top ∧ (w.moved c).depth = w.depth ∧ (w.moved c).recs = w.recs ∧ (w.moved c).sizes = w.sizes

/-- R198, R199: a spill unit writes the lowest bytes of the top to their home and drops them, counted; a refill unit reads the bytes below the top
back into it, counted, unless the fabric holds their packets back (R222); a directory refill makes the size of one more record known, of at most 1,024 (one
record a refill is log 114). Nothing else has written to the top. -/
def Slice0.SnowpackTraffic : Prop :=
  ∀ (core : BitVec 10) (s : State), s.stoppedAt core.toNat = false →
    let n := core.toNat
    let s1 := s.kick n
    let c := s1.snowCfg n
    let w := s.snow n
    let low := w.depth - w.top.length
    let len := Nat.min ((low / 4096 + 1) * 4096) w.depth - low
    let from4 := (low - 1) / 4096 * 4096
    (snowSpills s n = false → exec (.snowpackSpillAck core) s = .next s)
    ∧ (snowSpills s n = true → snowSpoilt s1 n = false → s1.clear (c.bb + low) len = true → s1.fabOpen n (c.bb + low) 2 = false →
      exec (.snowpackSpillAck core) s = .next s1)
    ∧ (snowSpills s n = true → snowSpoilt s1 n = false → s1.clear (c.bb + low) len = true → s1.fabOpen n (c.bb + low) 2 = true →
      exec (.snowpackSpillAck core) s = .next ((((s1.storeBy (some n) (c.bb + low) (w.top.take len)).bump (F.CORE_SNOW_SPILL_CNT n)).carry n
        (c.bb + low) len 0).setSnow n
        (({ w with top := w.top.drop len, spilling := true } : Snow).moved c)))
    ∧ (snowRefills s n = false → exec (.snowpackRefillData core) s = .next s)
    ∧ (snowRefills s n = true → snowSpoilt s1 n = false → s1.fabOpen n (c.bb + from4) 0 = false → exec (.snowpackRefillData core) s = .next s1)
    ∧ (snowRefills s n = true → snowSpoilt s1 n = false → s1.fabOpen n (c.bb + from4) 0 = true →
      exec (.snowpackRefillData core) s = .next (((s1.carry n (c.bb + from4) 0 (low - from4)).setSnow n
        (({ w with top := s1.mem.bytes (c.bb + from4) (low - from4) ++ w.top } : Snow).moved c)).bump (F.CORE_SNOW_REFILL_CNT n)))
    ∧ (w.dirWait = true →
      let home := (s.snowCfg n).bb + (w.qdepth - ((w.sizes.take (w.known + 1)).map snowPad).sum)
      exec (.snowpackDirectoryRefill core) s = .next ((s.carry n home 0 64).setSnow n
        { w with dirWait := false, known := Nat.min (Nat.min (w.known + 1) w.sizes.length) 1024 }))
    ∧ (w.dirWait = false → exec (.snowpackDirectoryRefill core) s = .next s)

/-- R90, R197-R199: the Snowpack at issue, its spills and refills. -/
def Obligations.Snowpack : Prop := Slice0.SnowpackIssue ∧ Slice0.SnowThresholds ∧ Slice0.SnowpackTraffic

/-! ## The registers of a core (spec/03 R48, R61, R63; spec/08 R181, R182; spec/10 R220; spec/15 R352; spec/19 R441) -/

/-- R441 and spec/15 R341: a start by register takes its arguments from CORE_CTX_START as they stand. At a site in IDLE or RUN a FREE context starts;
at a site in RET the start is held and the site leaves RET. -/
def Slice0.StartByRegister : Prop :=
  ∀ (core : BitVec 10) (v : W64) (s : State),
    let n := core.toNat
    let k := fieldOf v 0 3
    let site := s.fld (F.CORE_MAP_ENTRY_site n)
    let pc := s.fld (F.CORE_CTX_START_pc n) * 8
    let arg := s.reg (F.CORE_CTX_START_arg n).addr
    let mask := s.fld (F.CORE_CTX_START_mask n)
    let desc := s.fld (F.CORE_CTX_START_desc n) * 32
    (Slice0.Reached s n → (s.ctx n k).st = .free →
      exec (.coreCtxStartWrite core v) s = .next ((s.kick n).startCtx n k pc arg (startDescs n mask desc (s.kick n)))
      ∧ Slice0.Does (.coreCtxStartWrite core v) s (fun t => (t.ctx n k).pc = pc ∧ (t.ctx n k).sr 1 = arg ∧ ((t.ctx n k).st = .ready ∨ (t.ctx n k).st = .running)
          ∧ (t.ctx n k).inc = (s.ctx n k).inc + 1 ∧ t.mem = s.mem))
    ∧ (Slice0.Reached s n → (s.ctx n k).st ≠ .free → exec (.coreCtxStartWrite core v) s = .next (s.kick n))
    ∧ (n < s.ncores → s.fld (F.PWR_SITE_STS_state site) = 1 → exec (.coreCtxStartWrite core v) s = .next
        { s with heldStarts := s.heldStarts ++ [⟨n, k, pc, arg, mask, desc⟩], trans := Sparse.put s.trans site 2 })

/-- R63: a write to CORE_CTX_RESUME makes each named FAULTED context READY at the pc of its fault, one to CORE_CTX_KILL makes it FREE; a context that is
not named or not FAULTED keeps its registers. -/
def Slice0.ResumeAndKill : Prop :=
  ∀ (core : BitVec 10) (v : W64) (s : State), Slice0.Reached s core.toNat →
    let n := core.toNat
    let named := fun (k : Nat) => v.getLsbD k = true ∧ (s.ctx n k).st = .faulted
    Slice0.Does (.coreCtxResumeWrite core v) s (fun t => t.mem = s.mem ∧ ∀ k, k < 8 →
      (named k → t.ctx n k = { s.ctx n k with st := .ready, wait := .none } ∨ t.ctx n k = { s.ctx n k with st := .running, wait := .none })
      ∧ (¬ named k → t.ctx n k = s.ctx n k ∨ ((s.ctx n k).st = .ready ∧ t.ctx n k = { s.ctx n k with st := .running, wait := .none })))
    ∧ Slice0.Does (.coreCtxKillWrite core v) s (fun t => t.mem = s.mem ∧ ∀ k, k < 8 →
      (named k → t.ctx n k = Slice0.freed (s.ctx n k))
      ∧ (¬ named k → t.ctx n k = s.ctx n k ∨ ((s.ctx n k).st = .ready ∧ t.ctx n k = { s.ctx n k with st := .running, wait := .none })))

/-- R220, R352: a register write for a core that does not exist has no effect; one for a core whose port takes no packets is absorbed and counted; in
HOLD one only waits, as work for the site. -/
def Slice0.CoreNotReached : Prop :=
  ∀ (core : BitVec 10) (v : W64) (ring : BitVec 4) (slot : BitVec 3) (s : State), ∀ c ∈ [Instr.coreCtxStartWrite core v, .coreCtxResumeWrite core v,
      .coreCtxKillWrite core v, .coreEvSetWrite core v, .coreSramCfgWrite core v, .coreAtuInvalWrite core v, .coreRingResume core ring,
      .coreRingAbort core ring, .coreRingReset core ring, .coreXslotResume core slot, .coreXslotAbort core slot],
    let n := core.toNat
    (s.ncores ≤ n → exec c s = .next s)
    ∧ (n < s.ncores → s.portOpen n = false → s.sitePower (s.siteOf n) ≠ 1 → exec c s = .next (s.bump F.CORE_MAP_ABSORB_CNT))
    ∧ (n < s.ncores → s.portOpen n = true → s.flag F.PWR_STS_hold = true → exec c s = .next (s.kick n))

/-- R63, R220, R352, R441: starts, resumes and kills by register. -/
def Obligations.ContextControl : Prop := Slice0.StartByRegister ∧ Slice0.ResumeAndKill ∧ Slice0.CoreNotReached

/-- R48: a write to CORE_SRAM_CFG of a core whose contexts are FREE and whose queues are empty sets the swizzle and leaves its SRAM undefined; at any
other time it only raises EV_CORE_CFG_LOCKED. R61: a write to CORE_ATU_INVAL drops the translations of one address or all of them; inval_busy reads
1 until ATU_INVAL_DONE, which does nothing in HOLD. -/
def Slice0.CoreConfiguration : Prop :=
  (∀ (core : BitVec 10) (v : W64) (s : State), Slice0.Reached s core.toNat →
    let n := core.toNat
    let c := s.core n
    let quiet := (∀ p ∈ c.ctxs, p.2.st = .free) ∧ (∀ e ∈ [c.a0, c.a1, c.schuss, c.groomer, c.vector, c.snowU, c.digest], e.queue = []) ∧ c.sq = []
    (quiet → exec (.coreSramCfgWrite core v) s = .next
      (let s1 := s.setFld (F.CORE_SRAM_CFG_swizzle n) (fieldOf v 0 1)
       { s1 with mem := s1.mem.undefine (Slice0.home n 1) 0x3000000 s.free, free := s.free + 1 }))
    ∧ (¬ quiet → exec (.coreSramCfgWrite core v) s = .next (s.raise EV.CORE_CFG_LOCKED 2 n (leBytes 2 n)))
    ∧ (v.getLsbD 63 = true → exec (.coreAtuInvalWrite core v) s = .next (s.setCore n { c with tlb1 := [], tlb2 := [], invalBusy := true }))
    ∧ (v.getLsbD 63 = false → exec (.coreAtuInvalWrite core v) s = .next (s.setCore n
        { c with tlb1 := c.tlb1.filter (fun e => e.page ≠ fieldOf v 0 48 / 2 ^ 30), tlb2 := c.tlb2.filter (fun e => e.page ≠ fieldOf v 0 48 / 2 ^ 21),
                 invalBusy := true })))
  ∧ (∀ (core : BitVec 10) (s : State),
    (s.flag F.PWR_STS_hold = false → exec (.atuInvalDone core) s = .next (s.setCore core.toNat { s.core core.toNat with invalBusy := false }))
    ∧ (s.flag F.PWR_STS_hold = true → exec (.atuInvalDone core) s = .next s))

/-- R181, R182: CORE_RING_CTL and CORE_XSLOT_CTL. Resume lets a halted stream or remote instruction go on; abort of a ring discards its lists, those that
still wait among them, whose predicates are written, marks it aborted and wakes who waits at it, and the chair that its stream held is no context's, and
first it aborts the Slalom command that holds the ring (R189);
reset of an aborted ring empties it, and every handle forgets a chair of it; abort of a halted remote instruction makes it fail. A stream that is not
halted, a ring that is not aborted and a slot that is not halted stay as they are. -/
def Slice0.RingAndSlotControl : Prop :=
  (∀ (core : BitVec 10) (ring : BitVec 4) (s : State), Slice0.Reached s core.toNat →
    let n := core.toNat
    let r := ring.toNat
    let g := s.ring n r
    let c := s.core n
    (g.halt.isSome = true → exec (.coreRingResume core ring) s = .next (((s.setRing n r { g with halt := none }).kick n).settle n))
    ∧ (g.halt = none → exec (.coreRingResume core ring) s = .next s)
    ∧ (∀ s0 : State, s0 = ((c.chains.filter (fun ch => ch.gates.any (fun e => e.ring = some r) || ch.inRing = some r || ch.outRing = some r)).map
        (·.id)).foldl (fun st id => abortChain n id st) s →
      let g := s0.ring n r
      let c := s0.core n
      let waits := c.sq.filterMap (fun q => match q with | .list j l => if j = r then some l else none | _ => none)
      let rest := c.sq.filter (fun q => match q with | .list j _ => decide (j ≠ r) | _ => true)
      let g1 : Ring := { g with
        lists := [], halt := none, aborted := true, pleft := g.pleft || decide (2 ≤ s.endHolder n r true),
        cleft := g.cleft || decide (2 ≤ s.endHolder n r false) }
      let s1 := ((s0.setCore n { c with sq := rest }).setRing n r g1).forget (.ring n r)
      let s2 := (g.lists ++ waits).foldl (fun st l => (l.spoils.foldl (fun u p => u.lundef n 1 p.1 p.2) st).complete n l.ctx l.inc l.pd) (s1.wakeRoom n)
      exec (.coreRingAbort core ring) s = .next (((s2.wakeRing n r true).wakeRing n r false).settle n))
    ∧ (g.aborted = false → exec (.coreRingReset core ring) s = .next s)
    ∧ (g.aborted = true → Slice0.Does (.coreRingReset core ring) s (fun t =>
        t.ring n r = { g with pa := 0, pr := 0, ca := 0, cr := 0, pdone := [], cdone := [], aborted := false, pleft := false, cleft := false }
        ∧ t.mem = s.mem ∧ ∀ k, k < 8 → (t.ctx n k).st = (s.ctx n k).st ∧ ∀ h ∈ (t.ctx n k).q, h.2.ring = r → h.2.held = none)))
  ∧ (∀ (core : BitVec 10) (slot : BitVec 3) (s : State) (v : XSlot), Slice0.Reached s core.toNat →
    Sparse.find (s.core core.toNat).slots slot.toNat = some v →
    let n := core.toNat
    let x := slot.toNat
    (v.halt.isSome = true → exec (.coreXslotResume core slot) s = .next (((s.setSlot n x { v with halt := none }).kick n).settle n))
    ∧ (∀ code va, v.halt = some (code, va) → exec (.coreXslotAbort core slot) s = .next ((slotFail n x v code va s).settle n))
    ∧ (v.halt = none → exec (.coreXslotResume core slot) s = .next s ∧ exec (.coreXslotAbort core slot) s = .next s))

/-- R189: the abort of a Slalom command. Its gates leave their units' queues and its lists the rings and the stream engine's queue; what its gates write,
the accumulator rows and tiles among it, is undefined; its predicate is written, unless its context has ended. Where no such command is, nothing happens. -/
def Slice0.SlalomAbort : Prop :=
  (∀ (s : State) (n id : Nat), (s.core n).chain id = none → abortChain n id s = s)
  ∧ (∀ (s : State) (n id : Nat) (ch : Chain), (s.core n).chain id = some ch →
    let t := abortChain n id s
    (∀ e ∈ (t.core n).chains, e.id ≠ id) ∧ (∀ q ∈ (t.core n).sq, ∀ r l, q = .list r l → l.chain ≠ some id)
    ∧ (∀ u, u ≠ .digest → ∀ x ∈ ((t.core n).eng u).run.toList ++ ((t.core n).eng u).queue, x.chain ≠ some id)
    ∧ (∀ r, ∀ l ∈ (t.ring n r).lists, l.chain ≠ some id)
    ∧ t.acc = ((ch.gates.filter (fun g => g.ring.isNone)).foldl (fun st g => undefGate st n g) s).acc
    ∧ (s.sitePower (s.siteOf n) ≠ 2 → t.mem = ((ch.gates.filter (fun g => g.ring.isNone)).foldl (fun st g => undefGate st n g) s).mem)
    ∧ (ch.ctx < 8 → 0 < ch.pd → ch.pd < 8 → (s.ctx n ch.ctx).inc = ch.inc → (s.ctx n ch.ctx).st ≠ .free → (t.ctx n ch.ctx).pr ch.pd = true))
  ∧ (∀ (s : State) (n : Nat) (g : Gate), g.cmd.op = .cmm → ∀ r j, g.cmd.row ≤ r → r < g.cmd.row + g.cmd.tA.n1 → j < 128 →
    Sparse.find ((undefGate s n g).accOf n g.cmd.arr) (accKey g.cmd.wacc false r 0 j) = none)
  ∧ (∀ (s : State) (n : Nat) (g : Gate), g.cmd.op = .chb → ∀ i j, i < 128 → j < 128 →
    Sparse.find ((undefGate s n g).accOf n g.cmd.arr) (accKey g.cmd.wacc true g.cmd.tno i j) = none)

/-- R48, R61, R181, R182, R189: the configuration and control registers of a core. -/
def Obligations.CoreControl : Prop := Slice0.CoreConfiguration ∧ Slice0.RingAndSlotControl ∧ Slice0.SlalomAbort

/-! ## Votes and decisions (spec/04 R93; spec/09 R206-R208; spec/13 R299; spec/14 R308-R314) -/

/-- R93, R206: CKVOTE in training mode. A decided step is answered at once in p[d] and pd; a step that is not in flight is stale: 0 in p[d], 1 in pd,
outcome 5; a vote for the step in flight waits for the decision, and that of the last of CKPT_VOTE.ncores cores, each counted once, ends the engine's work on
the step: its candidate is taken (R309). A CKVOTE that comes late is log 172. -/
def Slice0.StepVote : Prop :=
  ∀ (i : IA) (s : State), s.Executes i.n i.k i.pg i.pn [i.a.toNat] [] → i.legal true true false false true 0 = true → i.d.toNat < 8 →
    let x := s.ctx i.n i.k
    let step := (x.sr i.a.toNat).toNat
    (s.fld F.DEV_EXEC_CFG_mode = 1 → exec (.ckvote i) s = .next (s.faultCtx i.n i.k E.MODE_OP x.pc))
    ∧ (s.fld F.DEV_EXEC_CFG_mode ≠ 1 → s.red.halted = true → exec (.ckvote i) s = .next (s.faultCtx i.n i.k E.RED_HALTED x.pc))
    ∧ (s.fld F.DEV_EXEC_CFG_mode ≠ 1 → s.red.halted = false →
      let cores := if i.n ∈ s.ckpt.cast then s.ckpt.cast else s.ckpt.cast ++ [i.n]
      let s1 := (s.setCtx i.n i.k ((x.setPr i.pd.toNat false).adv 8)).setCk
        { s.ckpt with cast := cores, voters := s.ckpt.voters ++ [⟨i.n, i.k, x.inc, i.pd.toNat, i.d.toNat⟩] }
      let last := Nat.max 1 (s.fld F.CKPT_VOTE_NCORES) ≤ cores.length ∧ s.fld F.CKPT_STS_phase = 1
      (∀ out, s.ckpt.stored = some (step, out) →
        exec (.ckvote i) s = .next (s.setCtx i.n i.k (((x.setPr i.d.toNat (decide (out = 1))).setPr i.pd.toNat true).adv 8)))
      ∧ ((∀ out, s.ckpt.stored ≠ some (step, out)) →
        (step ≠ s.fld F.CKPT_STEP_step →
          exec (.ckvote i) s = .next (((s.setCtx i.n i.k (((x.setPr i.d.toNat false).setPr i.pd.toNat true).adv 8)).setFld
            F.CKPT_VOTE_STS_outcome 5).setFld F.CKPT_VOTE_STS_step step))
        ∧ (step = s.fld F.CKPT_STEP_step → ¬ last → exec (.ckvote i) s = .next s1)
        ∧ (step = s.fld F.CKPT_STEP_step → last → exec (.ckvote i) s = .next (candidate (s1.setFld F.CKPT_STS_phase 2)))))

/-- R309: the candidate of a step is the member-state record of the step after it, with its valid byte 0: it is written to the step-base slot and sent to
the record partner once, whose acknowledgements are awaited; while pages of the slot are marked it waits. -/
def Slice0.Candidates : Prop :=
  (∀ s : State, s.fld F.CKPT_STS_phase ≠ 2 ∨ s.ckpt.mirror.isSome = true → candidate s = s)
  ∧ (∀ s : State, s.fld F.CKPT_STS_phase = 2 → s.ckpt.mirror = none →
    let next := (s.fld F.CKPT_STEP_step + 1) % 2 ^ 64
    let a := s.fld F.CKPT_BASE_addr + next % 2 * s.fld F.CKPT_REC_STORE_slot_bytes
    let rec_ := memberRec s next
    let slot := s.fld F.CKPT_REC_STORE_base + (2 * s.fld F.CKPT_REC_PARTNER_area + next % 2) * s.fld F.CKPT_REC_STORE_slot_bytes
    let sent := ckPuts 0 1 none (s.fld F.CKPT_REC_PARTNER_node * 2 ^ 42 + slot) rec_ (s.store a rec_)
    (s.clear a rec_.length = false → candidate s = s.ask a rec_.length)
    ∧ (s.clear a rec_.length = true → sent.2.2 = false → candidate s = sent.1.setCk { sent.1.ckpt with mirror := some sent.2.1 })
    ∧ rec_.take 8 = leBytes 8 next ∧ numAt rec_ 20 1 = 0)

/-- R206, R208, R308, R309: the vote of an engine leaves when the mirror of its candidate is acknowledged, its update is complete and no bucket has
failed; the root's timer aborts the step; a write to CKPT_UPD records the completed update, for which a vote or a rollback may wait. -/
def Slice0.VoteAndTimer : Prop :=
  (∀ s : State, s.fld F.CKPT_STS_phase = 2 → s.ckpt.mirror = some 0 → s.updDone = true → s.red.bad = false →
    let s1 := s.setFld F.CKPT_STS_phase 3
    let s2 := s1.setCk { s.ckpt with voted := true }
    (s.isSelf s.rootNode = true → exec .voteSend s = .next (rootVote (voteRec s1 false) s2))
    ∧ (s.isSelf s.rootNode = false → exec .voteSend s = .next (s2.sendOne epCkpt 0 s.rootNode opCtl 0 0 (voteRec s1 false)).1))
  ∧ (∀ s : State, s.fld F.CKPT_STS_phase ≠ 2 → exec .voteSend s = .next s)
  ∧ (∀ s : State, s.fld F.CKPT_STS_phase = 2 → s.ckpt.mirror.isSome = true → s.ckpt.mirror ≠ some 0 ∨ s.updDone = false ∨ s.red.bad = true →
    exec .voteSend s = .next s)
  ∧ (∀ s : State, s.isSelf s.rootNode = true → s.ckpt.timer = true ∨ s.ckpt.heir = true → s.fld F.CKPT_STS_phase ≠ 0 → s.fld F.CKPT_STS_phase ≠ 5 →
    exec .voteTimerExpiry s = .next (decide_ 3 s))
  ∧ (∀ s : State, s.isSelf s.rootNode = false ∨ (s.ckpt.timer = false ∧ s.ckpt.heir = false) → exec .voteTimerExpiry s = .next s)
  ∧ (∀ (v : W64) (s : State),
    let s1 := s.setFld F.CKPT_UPD_done_step v.toNat
    s1.fld F.CKPT_UPD_done_step = v.toNat
    ∧ (s.fld F.CKPT_STS_phase ≠ 2 → s.fld F.CKPT_STS_phase ≠ 4 → exec (.ckptUpdWrite v) s = .next s1)
    ∧ (s.fld F.CKPT_STS_phase = 2 → exec (.ckptUpdWrite v) s = exec .voteSend s1)
    ∧ (s.fld F.CKPT_STS_phase = 4 → exec (.ckptUpdWrite v) s = exec .rollback s1))

/-- R206, R207, R299: the root decides once every member's vote is there: abort when they differ in step or membership, or one names a dropped step; commit when no
one is poisoned; else by RED_POISON_CFG.policy. Before that the vote is kept, as every vote is by the Shadow that has inherited the root's role and waits
for its timer (R208); a vote of no member, or a second one, changes nothing (log 174). -/
def Slice0.RootDecides : Prop :=
  ∀ (v : List Byte) (s : State),
    let p := s.fld F.CKPT_STS_phase
    let decides := s.isSelf s.rootNode = true ∧ p ≠ 0 ∧ p ≠ 5 ∧ s.ckpt.aborted = false
    let node := numAt v 16 4 % 2 ^ 22
    let nodeOf := fun (w : List Byte) => numAt w 16 4 % 2 ^ 22
    let vs := s.ckpt.votes ++ [v]
    let s1 := s.setCk { s.ckpt with votes := vs, timer := true }
    let step := s.fld F.CKPT_STEP_step
    let zeros := (v.drop 32).take 16 = List.replicate 16 0
    let agree := ∀ w ∈ vs, numAt w 8 8 = step ∧ (w.drop 32).take 16 = (v.drop 32).take 16
    let clean := ∀ w ∈ vs, numAt w 1 1 % 4 = 0
    (¬ decides ∨ numAt v 8 8 < step ∨ node ∉ s.ckpt.members ∨ (∃ w ∈ s.ckpt.votes, nodeOf w = node) → rootVote v s = s)
    ∧ (decides → 48 ≤ v.length → step ≤ numAt v 8 8 → node ∈ s.ckpt.members → (∀ w ∈ s.ckpt.votes, nodeOf w ≠ node) →
      (s.ckpt.heir = true → rootVote v s = s1)
      ∧ (s.ckpt.heir = false → numAt v 8 8 = step → zeros → rootVote v s = decide_ 3 s1)
      ∧ (s.ckpt.heir = false → ¬ (numAt v 8 8 = step ∧ zeros) →
        ((∃ n ∈ s.ckpt.members, ∀ w ∈ vs, nodeOf w ≠ n) → rootVote v s = s1)
        ∧ ((∀ n ∈ s.ckpt.members, ∃ w ∈ vs, nodeOf w = n) →
          (¬ agree → rootVote v s = decide_ 3 s1)
          ∧ (agree → clean → rootVote v s = decide_ 1 s1)
          ∧ (agree → ¬ clean → s.fld F.RED_POISON_CFG_policy = 0 → rootVote v s = decide_ 2 s1)
          ∧ (agree → ¬ clean → s.fld F.RED_POISON_CFG_policy = 2 → rootVote v s = decide_ 4 s1)
          ∧ (agree → ¬ clean → s.fld F.RED_POISON_CFG_policy ≠ 0 → s.fld F.RED_POISON_CFG_policy ≠ 2 → rootVote v s = decide_ 1 s1))))

/-- R93, R206-R208, R299, R308, R309: votes of cores and of the engine, and what the root decides from them. The place of a candidate at the record partner is
log 170, a vote of an engine with a failed bucket log 171. -/
def Obligations.StepVotes : Prop := Slice0.StepVote ∧ Slice0.Candidates ∧ Slice0.VoteAndTimer ∧ Slice0.RootDecides

/-- R313: a stop leaves every context FREE and every unit, ring and stream engine empty. -/
def Slice0.CoresStopped : Prop :=
  ∀ s : State, (stopCores s).stopAll = true ∧ ∀ n,
    (∀ k, ((stopCores s).ctx n k).st = .free) ∧ ((stopCores s).core n).sq = [] ∧ ((stopCores s).core n).chains = [] ∧ ((stopCores s).core n).slots = []
    ∧ ∀ u, (((stopCores s).core n).eng u).run = none ∧ (((stopCores s).core n).eng u).queue = []

/-- R313, R314: ROLLBACK stops every core, has RED abandon the step and restores the member state, once the update of the step before is complete; it goes on
to RUN, at the same step, when the abort decision is in and no core is dead, with the registers of the cores kept for a remap as they were taken at the step
base (R441). In HOLD it waits; in stage STEP of Run-out the cores stay stopped (R419). -/
def Slice0.RollbackEngine : Prop :=
  (∀ s : State, s.fld F.CKPT_STS_phase = 4 → s.flag F.PWR_STS_hold = false → s.ckpt.rolled = false → s.updDone = true →
    let s1 := if (stopCores s).red.dropped then stopCores s else redAbandon 2 (stopCores s)
    exec .rollback s = .next (rollbackEnd ((restoreMember s1).setCk { (restoreMember s1).ckpt with rolled := true })))
  ∧ (∀ s : State, s.fld F.CKPT_STS_phase ≠ 4 ∨ s.flag F.PWR_STS_hold = true → exec .rollback s = .next s)
  ∧ (∀ s : State, s.fld F.CKPT_STS_phase = 4 → s.flag F.PWR_STS_hold = false → s.ckpt.rolled = true → s.ckpt.aborted = false ∨ s.dead ≠ [] →
    exec .rollback s = .next s)
  ∧ (∀ s : State, s.fld F.CKPT_STS_phase = 4 → s.flag F.PWR_STS_hold = false → s.ckpt.rolled = true → s.ckpt.aborted = true → s.dead = [] →
    Slice0.Does .rollback s (fun t => t.fld F.CKPT_STS_phase = 1 ∧ t.fld F.CKPT_STEP_step = s.fld F.CKPT_STEP_step
      ∧ t.stopAll = (decide (s.fld F.DEV_RUNOUT_STS_stage = 3) && s.stopAll) ∧ t.ckpt.coreRegs = s.ckpt.coreRegs
      ∧ t.ckpt.stored = none ∧ t.ckpt.votes = [] ∧ t.ckpt.voted = false ∧ t.ckpt.mirror = none ∧ t.mem = s.mem))

/-- R206, R299, R300, R310, R311: this engine writes a decision. A commit or skip makes the next step current, on a skip with half the loss scale, records its
outcome and lets the engine RUN; an abort leads to ROLLBACK; a halt ends the job in HALTED with the loss scale and the step as they were. A decision for
another step, or one after an abort, changes nothing. -/
def Slice0.DecisionOutcome : Prop :=
  ∀ (d : Decision) (s : State),
    let p := s.fld F.CKPT_STS_phase
    let step := s.fld F.CKPT_STEP_step
    let s1 := ((s.setFld F.CKPT_VOTE_STS_outcome d.outcome).setFld F.CKPT_VOTE_STS_step d.step).setCk
      { s.ckpt with stored := some (d.step, d.outcome), wrote := true }
    (d.step ≠ step ∨ p = 0 ∨ p = 5 ∨ s.ckpt.aborted = true → applyDecision d s = s)
    ∧ (d.step = step → p ≠ 0 → p ≠ 5 → s.ckpt.aborted = false →
      (d.outcome = 1 ∨ d.outcome = 2 → applyDecision d s = advance d s1)
      ∧ (d.outcome = 1 ∨ d.outcome = 2 → d.freeze = false → d.compare = false → s.ckpt.buddy = none → s.ckpt.voters = [] →
        let t := applyDecision d s
        t.fld F.CKPT_STEP_step = (step + 1) % 2 ^ 64 ∧ t.fld F.CKPT_STS_phase = (if p = 4 then 4 else 1)
        ∧ t.fld F.CKPT_VOTE_STS_outcome = d.outcome ∧ t.fld F.CKPT_VOTE_STS_step = step ∧ t.ckpt.stored = some (step, d.outcome)
        ∧ t.ckpt.votes = [] ∧ t.ckpt.voted = false ∧ t.ckpt.mirror = none)
      ∧ (d.outcome = 3 → s.ckpt.rolled = false → s.ckpt.voters = [] →
        let t := applyDecision d s
        t.fld F.CKPT_STS_phase = 4 ∧ t.ckpt.aborted = true ∧ t.fld F.CKPT_STEP_step = step ∧ t.fld F.CKPT_VOTE_STS_outcome = 3)
      ∧ (d.outcome = 4 → applyDecision d s = (State.setFld (answerVoters 4 (s1.setRed { s1.red with halted := true })) F.CKPT_STS_phase 5).raise EV.JOB_HALT 0 0 []))

/-- R206, R352: the contexts that voted get the result in p[d] and pd, those that have ended since excepted; in HOLD, at its exit. -/
def Slice0.VotersAnswered : Prop :=
  (∀ (o : Nat) (s : State), s.flag F.PWR_STS_hold = true →
    answerVoters o s = { s.setCk { s.ckpt with voters := [] } with later := s.later ++ s.ckpt.voters.map (fun v => .answer v o) })
  ∧ (∀ (o : Nat) (s : State), s.flag F.PWR_STS_hold = false →
    answerVoters o s = s.ckpt.voters.foldl (fun st v => answerVoter v o st) (s.setCk { s.ckpt with voters := [] }))
  ∧ (∀ (o : Nat) (v : Voter) (s : State), v.ctx < 8 →
    ((s.ctx v.core v.ctx).inc ≠ v.inc ∨ (s.ctx v.core v.ctx).st = .free → answerVoter v o s = s)
    ∧ ((s.ctx v.core v.ctx).inc = v.inc → (s.ctx v.core v.ctx).st ≠ .free → 0 < v.dp → v.dp < 8 → 0 < v.pd → v.pd < 8 → v.dp ≠ v.pd →
      ((answerVoter v o s).ctx v.core v.ctx).pr v.dp = decide (o = 1) ∧ ((answerVoter v o s).ctx v.core v.ctx).pr v.pd = true))
  ∧ (∀ (s : State) (n f : Nat), s.later = [.event n f] → runLater s = State.setEvent { s with later := [] } n f)
  ∧ (∀ (s : State) (v : Voter) (o : Nat), s.later = [.answer v o] → runLater s = answerVoter v o { s with later := [] })

/-- R314: an engine that a commit or skip decision leaves in ROLLBACK for the next step abandons that step, too: its vote of zeros for it leaves (that it
does so at once is log 172). -/
def Slice0.NextStepAbandoned : Prop :=
  (∀ (d : Decision) (s : State), decisionArrive d s = abandonNext (applyDecision d s)) ∧ (∀ (v : List Byte) (s : State), voteArrive v s = abandonNext (rootVote v s))
  ∧ ∀ s : State,
    let s1 := s.setCk { s.ckpt with voted := true }
    let waits := s.fld F.CKPT_STS_phase = 4 ∧ s.ckpt.voted = false ∧ s.ckpt.aborted = false
    (¬ waits → abandonNext s = s)
    ∧ (waits → s.isSelf s.rootNode = true → abandonNext s = rootVote (voteRec s true) s1)
    ∧ (waits → s.isSelf s.rootNode = false → abandonNext s = (s1.sendOne epCkpt 0 s.rootNode opCtl 0 0 (voteRec s true)).1)

/-- R299, R300, R310-R314: the decision of a step and its rollback. A decision for another step is log 174, one taken in ROLLBACK log 172, the number of the
reason log 71. -/
def Obligations.StepDecisions : Prop :=
  Slice0.CoresStopped ∧ Slice0.RollbackEngine ∧ Slice0.DecisionOutcome ∧ Slice0.VotersAnswered ∧ Slice0.NextStepAbandoned

/-! ## Failure and remap of cores (spec/02 R27-R30; spec/03 R53) -/

/-- R28, R314: an engine that has a step in flight abandons it, once: it goes to ROLLBACK and its vote of zeros leaves, unless it has voted. -/
def Slice0.StepAbandoned : Prop :=
  ∀ s : State,
    let p := s.fld F.CKPT_STS_phase
    let s1 := s.setFld F.CKPT_STS_phase 4
    let v := voteRec s1 true
    (¬ (p = 1 ∨ p = 2 ∨ p = 3) → abandon s = s)
    ∧ (p = 1 ∨ p = 2 ∨ p = 3 →
      (s.ckpt.voted = true → abandon s = s1)
      ∧ (s.ckpt.voted = false → s.isSelf s.rootNode = true → abandon s = rootVote v (s1.setCk { s.ckpt with voted := true }))
      ∧ (s.ckpt.voted = false → s.isSelf s.rootNode = false →
        abandon s = ((s1.setCk { s.ckpt with voted := true }).sendOne epCkpt 0 s.rootNode opCtl 0 0 v).1))
    ∧ (v.drop 32).take 16 = List.replicate 16 0

/-- A core is declared failed (R27, R28), once: every core stops and the step in flight is abandoned. -/
def Slice0.failed (n : Nat) (s : State) : State :=
  if n ∈ s.dead ∨ s.ncores ≤ n then s else abandon { s with dead := s.dead ++ [n], stopAll := true }

/-- R27: a site in RUN or IDLE is sampled: a good sample clears its count of missed ones, a missed one counts, and the third missed in a row declares
failed the core that it carries. -/
def Slice0.sampled (p : Nat) (missed : Bool) (s : State) : State :=
  let c := Sparse.get s.miss 0 p + 1
  let s1 := { s with miss := Sparse.put s.miss p c }
  if s.sitePower p < 2 then s
  else if missed = false then { s with miss := Sparse.drop s.miss p }
  else if c ≠ 3 then s1
  else match s.coreAt p with
    | some n => Slice0.failed n s1
    | none => s1

/-- R27, R352: a sample of a field samples its sixteen sites, in HOLD none; those of a field without a reference miss it (spec/16 R371). While no site misses its
third sample, nothing changes but the counts. -/
def Slice0.Heartbeats : Prop :=
  ∀ (f : BitVec 6) (m : BitVec 16) (s : State),
    let site := fun j => 16 * f.toNat + j
    let missed := fun j => m.getLsbD j || s.wear.noRef.contains f.toNat
    (s.flag F.PWR_STS_hold = true → exec (.heartbeatSample f m) s = .next s)
    ∧ (s.flag F.PWR_STS_hold = false →
      exec (.heartbeatSample f m) s = .next ((List.range 16).foldl (fun st j => Slice0.sampled (site j) (missed j) st) s))
    ∧ (s.flag F.PWR_STS_hold = false →
      (∀ j, j < 16 → 2 ≤ s.sitePower (site j) → missed j = true → Sparse.get s.miss 0 (site j) ≠ 2) →
      ∃ counts, exec (.heartbeatSample f m) s = .next { s with miss := counts }
        ∧ (∀ p, p / 16 ≠ f.toNat → Sparse.get counts 0 p = Sparse.get s.miss 0 p)
        ∧ (∀ j, j < 16 → Sparse.get counts 0 (site j) =
          if s.sitePower (site j) < 2 then Sparse.get s.miss 0 (site j)
          else if missed j then Sparse.get s.miss 0 (site j) + 1
          else 0))

/-- R27, R53: the code of a core's store counts a corrected error and declares the core failed on an uncorrectable one; a site in OFF holds nothing. -/
def Slice0.EccResults : Prop :=
  ∀ (core : BitVec 10) (line : Nat) (s : State),
    exec (.sramScrub core line .clean) s = .next s
    ∧ (s.ncores ≤ core.toNat ∨ s.sitePower (s.siteOf core.toNat) = 0 → ∀ e, exec (.sramScrub core line e) s = .next s)
    ∧ (core.toNat < s.ncores → s.sitePower (s.siteOf core.toNat) ≠ 0 →
      exec (.sramScrub core line .corrected) s = .next (s.bump (F.CORE_SRAM_CE_CNT core.toNat))
      ∧ exec (.sramScrub core line .uncorrectable) s = .next (Slice0.failed core.toNat s))

/-- R25, R28: a core takes the first of the spares that R25 lets it have, in the order of R25, whose self-test passes; those before it are RETIRED. The second
part lists the cores that find none. -/
def Slice0.takeSpare (fails : List (BitVec 10)) (r : State × List Nat) (n : Nat) : State × List Nat :=
  let half := r.1.keptHalf
  let home := homeField half n
  let order := ((List.range 1024).filter (fun p => decide (r.1.siteState p = siSpare ∧ (half = none ∨ halfOfField (fieldOfSite p) = halfOfField home)))).mergeSort
    (fun p q => decide (spareKey home p ≤ spareKey home q))
  let bad := order.takeWhile (fun p => fails.any (fun f => decide (f.toNat = p)))
  let s1 := bad.foldl (fun st p => st.setSite p siRetired 0) r.1
  match (order.drop bad.length).head? with
  | none => (s1, r.2 ++ [n])
  | some p => (spareStart n p s1, r.2)

/-- R28, R29, R30: the remap of the failed cores, in ascending order, takes their sites off and retires them, gives each core a spare, counts the spares, writes the
map record and lets the engine go on, with the member state of the step base if it rolls back; without a spare for each the engine is degraded, and only the
cores that have found none are failed still. A degraded engine, and one whose converters are off (R362), retires the sites and takes no spare. With no
core failed it does nothing. EV_CORE_REMAP without payload, what a degraded engine does and the restore in ROLLBACK are log 184. -/
def Slice0.CoreRemap : Prop :=
  ∀ (fails : List (BitVec 10)) (s : State),
    let batch := s.dead.mergeSort
    let s1 := batch.foldl (fun st n => (siteOff (st.siteOf n) st).setSite (st.siteOf n) siRetired 0) s
    let r := batch.foldl (Slice0.takeSpare fails) (s1, [])
    let s2 := countSpares { r.1 with dead := r.2 }
    let again := fun (u : State) => spareLow ((mapRecord u).raise EV.CORE_REMAP 0 0 [])
    let stays := s.flag F.DEV_MODE_STS_degraded = true ∨ s.pwr.off = true
    (s.dead = [] → exec (.coreRemap fails) s = .next s)
    ∧ (s.dead ≠ [] → stays → exec (.coreRemap fails) s = .next s1)
    ∧ (s.dead ≠ [] → ¬ stays →
      (r.2 ≠ [] → exec (.coreRemap fails) s = .next (degrade (spareLow s2)))
      ∧ (r.2 = [] → s2.fld F.CKPT_STS_phase ≠ 4 → (again s2).fld F.CKPT_STS_phase ≠ 4 → exec (.coreRemap fails) s = .next (resumeAll (again s2)))
      ∧ (r.2 = [] → s2.fld F.CKPT_STS_phase = 4 → (again (restoreMember s2)).fld F.CKPT_STS_phase = 4 →
        exec (.coreRemap fails) s = .next (rollbackEnd (again (restoreMember s2)))))

/-- R25, R28: a spare that takes a core carries it, in IDLE (Table 15-2); no other site and no other core is touched. -/
def Slice0.SpareStarts : Prop :=
  ∀ (n p : Nat) (s : State), n < 896 → p < 1024 →
    let t := spareStart n p s
    t.coreAt p = some n ∧ t.siteOf n = p ∧ t.sitePower p = 2
    ∧ (∀ q, q < 1024 → q ≠ p → t.siteState q = s.siteState q ∧ t.coreAt q = s.coreAt q ∧ t.sitePower q = s.sitePower q)
    ∧ (∀ m, m < 896 → m ≠ n → t.siteOf m = s.siteOf m)
    ∧ t.dead = s.dead ∧ t.net = s.net

/-- R27-R30, R53, R314: a core fails and is remapped. What a scrub may find is log 17. -/
def Obligations.CoreFailures : Prop :=
  Slice0.StepAbandoned ∧ Slice0.Heartbeats ∧ Slice0.EccResults ∧ Slice0.CoreRemap ∧ Slice0.SpareStarts

/-! ## Freeze, comparison, restore (spec/14) -/

/-- R320, R332: the triggers of a Freeze act at the vote root alone; the write of a buddy copy's step keeps its fields for that step. -/
def Slice0.FreezeTriggers : Prop :=
  ∀ (v : W64) (s : State),
    let due := s.setCk { s.ckpt with due := true }
    let root := s.isSelf s.rootNode = true
    let timed := s.fld F.CKPT_FRZ_CFG_period_s ≠ 0 ∨ s.fld F.CKPT_FRZ_CFG_steps ≠ 0
    (root → timed → exec .freezeTimer s = .next due)
    ∧ (¬ (root ∧ timed) → exec .freezeTimer s = .next s)
    ∧ (root → v.getLsbD 0 = true → exec (.ckptFreezeNow v) s = .next due)
    ∧ (¬ (root ∧ v.getLsbD 0 = true) → exec (.ckptFreezeNow v) s = .next s)
    ∧ exec (.ckptBuddyStep v) s = .next (s.setCk { s.ckpt with
        buddy := some (v.toNat, s.fld F.CKPT_BUDDY_node, s.fld F.CKPT_BUDDY_bases) })

/-- R305, R306: the checkpoint descriptors are read from the table, checked and installed, with no tensor clean; a table that fails leaves the installed ones, its
code and EV_CKPT_REFUSED. With a job loaded, or a 0 written, nothing happens. -/
def Slice0.DescriptorTable : Prop :=
  (∀ (v : W64) (s : State), v.getLsbD 0 = true → s.jobLoaded = false →
    let l := (List.range (s.fld F.CKPT_TENS_LEN)).map (readCDesc s)
    (descsOk s l = false →
      exec (.ckptTensLoad v) s = .next ((s.setFld F.CKPT_STS_code E.CKPT_DESC).raise EV.CKPT_REFUSED 0 0 (leBytes 2 E.CKPT_DESC)))
    ∧ (descsOk s l = true → exec (.ckptTensLoad v) s = .next ((List.range 256).foldl
        (fun st i => st.setReg (F.CKPT_OWNER_CLEAN_clean i).addr 0)
        ((showDescs (s.setCk { s.ckpt with descs := l.map (·.1) })).setFld F.CKPT_STS_code 0))))
  ∧ (∀ (v : W64) (s : State), v.getLsbD 0 = false ∨ s.jobLoaded = true → exec (.ckptTensLoad v) s = .next s)
  ∧ (∀ (s : State) (l : List (CDesc × Bool)), descsOk s l = true →
    1 ≤ l.length ∧ l.length ≤ 256 ∧ s.isSelf (s.fld F.CKPT_REC_PARTNER_node) = false
    ∧ ∀ p ∈ l, p.2 = true ∧ p.1.owner < s.fld F.RED_OWNER_LEN
      ∧ (p.1.held = false → s.isSelf (s.armedNodes p.1.owner).1 = true)
      ∧ (p.1.held = true → s.isSelf (s.armedNodes p.1.owner).2 = true ∧ (s.armedNodes p.1.owner).1 ≠ (s.armedNodes p.1.owner).2))
  ∧ (∀ (s : State) (e : Nat), (readCDesc s e).2 = true → (readCDesc s e).1.base % 65536 = 0 ∧ 1 ≤ (readCDesc s e).1.bytes)

/-- R323, R324: what a drain of a Freeze writes next: zeros over the head of its slot; then a page with a waiting write; the header of a shard whose pages have
drained; the AHEAD page of lowest side-buffer slot; the first MARKED page; and the manifest last, unless the owner has diverged. -/
def Slice0.DrainOrder : Prop :=
  ∀ (s : State) (d : Drain), d.buddy = false →
    (d.zeroed = false → d.next s = some .zero)
    ∧ (d.zeroed = true →
      (∀ p, d.pages.find? (·.want) = some p → d.next s = some (.page p.no))
      ∧ ((∀ p ∈ d.pages, p.want = false) →
        (∀ k, d.nextHeader s = some k → d.next s = some (.header k))
        ∧ (d.nextHeader s = none →
          ((∃ p ∈ d.pages, p.slot ≠ none) → ∃ p ∈ d.pages, ∃ j, p.slot = some j ∧ d.next s = some (.page p.no)
            ∧ ∀ q ∈ d.pages, ∀ i, q.slot = some i → j ≤ i)
          ∧ (∀ p l, d.pages = p :: l → (∀ q ∈ d.pages, q.slot = none) → d.next s = some (.page p.no))
          ∧ (d.pages = [] → d.barren = false → d.next s = some .manifest)
          ∧ (d.pages = [] → d.barren = true → d.next s = none))))
    ∧ (∀ k, d.nextHeader s = some k → ∃ h, d.shards[k]? = some h ∧ h.done = false ∧ ∀ p ∈ d.pages, p.no ∉ h.pages s)

/-- R324, R326: where the items of a Freeze go: to slot f mod keep of the pool, the zeros and the manifest at its head, a header at its shard's offset. -/
def Slice0.DrainPlaces : Prop :=
  ∀ (s : State) (d : Drain),
    let route := if s.flag F.CKPT_POOL_roce then some (s.fld F.CKPT_POOL_qp) else none
    let slot := s.fld F.CKPT_POOL_addr + d.id % Nat.max 1 (s.fld F.CKPT_POOL_keep) * s.fld F.CKPT_POOL_slot_bytes
    drainPut d .zero s = ckPuts 1 (s.fld F.CKPT_POOL_vc) route slot (List.replicate 4096 0) s
    ∧ (∀ k h, d.shards[k]? = some h → drainPut d (.header k) s = ckPuts 1 (s.fld F.CKPT_POOL_vc) route (slot + h.off) (shardHdr s d k h) s)
    ∧ drainPut d .manifest s = ckPuts 1 (s.fld F.CKPT_POOL_vc) route slot (manifestBytes s d) s.tick
    ∧ (d.buddy = true → drainPut d .record s = ckPuts 1 1 none (d.node * 2 ^ 42 + s.fld F.CKPT_BUDDY_FLAG) (buddyRecord d) s)

/-- R323, R325: FREEZE_DRAIN_SEND writes the next item when none is being written; with none left the marking ends: its pages are CLEAN and its side-buffer slots
free. -/
def Slice0.DrainSends : Prop :=
  ∀ s : State,
    (s.ckpt.drain = none → exec .freezeDrainSend s = .next s)
    ∧ (∀ d, s.ckpt.drain = some d →
      (d.item ≠ none → exec .freezeDrainSend s = .next s)
      ∧ (∀ it, d.item = none → d.next s = some it →
        let r := drainPut d it s
        exec .freezeDrainSend s = .next (r.1.setDrain (r.1.ckpt.drain.map (fun (e : Drain) => { e with item := some it, left := r.2.1, bad := r.2.2 }))))
      ∧ (d.item = none → d.next s = none → exec .freezeDrainSend s = .next ((s.forget (.engine epCkpt 1)).setDrain none)))

/-- R323, R324, R327, R332: what an acknowledged item leaves: the head of the slot is zeroed; a page is CLEAN, and for every shard it holds a part of the
SHA-512 of that part is kept, as it was marked (in the side buffer for a page AHEAD), the digests of other pages as they were; a header is written; the manifest
ends the Freeze with its identifier in CKPT_FRZ_STS.done_id; the completion record ends a buddy copy. -/
def Slice0.DrainItems : Prop :=
  ∀ (s : State) (d : Drain),
    let e : Drain := { d with item := none, tries := 0 }
    let closed := (s.forget (.engine epCkpt 1)).setDrain none
    drainDone d .zero s = s.setDrain (some { e with zeroed := true })
    ∧ drainDone d .bases s = s.setDrain (some e)
    ∧ (∀ q p, d.pages.find? (fun p => decide (p.no = q)) = some p → ∃ digests,
      let held := s.mem.bytes (match p.slot with | some j => s.fld F.CKPT_SIDE_base * 65536 + j * 65536 | none => p.no * 65536) 65536
      let from_ := fun (h : Shard) => Nat.max h.base (q * 65536)
      let len := fun (h : Shard) => Nat.min (h.base + h.bytes) (q * 65536 + 65536) - from_ h
      drainDone d (.page q) s = s.setDrain (some { e with digests := digests, pages := d.pages.filter (fun p => decide (p.no ≠ q)) })
      ∧ (∀ k h, d.shards[k]? = some h → len h ≠ 0 →
        Sparse.get digests [] (k * 2 ^ 40 + q) = sha512 ((held.drop (from_ h - q * 65536)).take (len h)))
      ∧ (∀ key, (∀ k h, d.shards[k]? = some h → len h ≠ 0 → key ≠ k * 2 ^ 40 + q) → Sparse.get digests [] key = Sparse.get d.digests [] key))
    ∧ (∀ k, ∃ shards, drainDone d (.header k) s = s.setDrain (some { e with shards := shards })
      ∧ shards.length = d.shards.length ∧ ∀ j h, d.shards[j]? = some h → shards[j]? = some (if j = k then { h with done := true } else h))
    ∧ drainDone d .manifest s = (closed.setFld F.CKPT_FRZ_STS_done_id d.id).raise EV.FREEZE_DONE 0 0 (leBytes 4 d.id)
    ∧ drainDone d .record s = (closed.setReg F.CKPT_EXPOSE_STS_end.addr s.now).raise EV.EXPOSURE_END 0 0
        (leBytes 2 d.owner ++ leBytes 8 (s.now - s.reg F.CKPT_EXPOSE_STS_start.addr).toNat)

/-- R323-R325, R420: FREEZE_DRAIN_ACK: with every write of an item answered, an item without a failure is done, one with a failure is written again, and the third
failure abandons the Freeze; headers and the manifest follow at once. A Run-out that waits for the drain goes on. -/
def Slice0.DrainAnswers : Prop :=
  ∀ s : State,
    (s.ckpt.drain = none → exec .freezeDrainAck s = .next (runoutGo s))
    ∧ (∀ d, s.ckpt.drain = some d →
      (d.item = none ∨ d.left ≠ 0 → exec .freezeDrainAck s = .next (runoutGo s))
      ∧ (∀ it, d.item = some it → d.left = 0 → d.bad = true →
        (d.tries < 2 → exec .freezeDrainAck s = .next (runoutGo (s.setDrain (some { d with item := none, tries := d.tries + 1 }))))
        ∧ (2 ≤ d.tries → exec .freezeDrainAck s = .next (runoutGo (((s.forget (.engine epCkpt 1)).setDrain none).raise EV.FREEZE_FAIL 0 0
            (leBytes 4 d.id ++ leBytes 2 E.CKPT_POOL)))))
      ∧ (∀ it, d.item = some it → d.left = 0 → d.bad = false →
        let s1 := drainDone d it s
        let paged := s1.ckpt.drain = none ∨ ∃ e q, s1.ckpt.drain = some e ∧ e.next s1 = some (.page q)
        (paged → exec .freezeDrainAck s = .next (runoutGo (candidate s1)))
        ∧ (¬ paged → exec .freezeDrainAck s = .next (runoutGo (candidate (drainSend s1))))))

/-- R305, R306, R320-R327, R332: the triggers of a Freeze, its descriptors and its drain. What a table of 0 or more than 256 descriptors gives is log 175; that one
item is in flight, and that the third failure gives an item up, log 176. -/
def Obligations.Freeze : Prop :=
  Slice0.FreezeTriggers ∧ Slice0.DescriptorTable ∧ Slice0.DrainOrder ∧ Slice0.DrainPlaces ∧ Slice0.DrainSends ∧ Slice0.DrainItems
    ∧ Slice0.DrainAnswers

/-- R317, R438: a comparison takes the Shadow's digests from the comparison area: it differs at the first tensor whose digest differs; a timeout counts as a
difference. It ends with a result record for the Shadow; a difference marks the Shadow diverged, raises EV_SHADOW_DIVERGE and leaves a Freeze of that step without
a manifest. The layout and place of the result record are log 75; that the Shadow's comparison area lies where this engine's does is log 170. -/
def Obligations.Comparison : Prop :=
  (∀ (owner : BitVec 16) (s : State), s.ckpt.compares.find? (fun c => c.owner = owner.toNat) = none →
    exec (.ckptCompare owner) s = .next s ∧ exec (.ckptCompareTimeout owner) s = .next s)
  ∧ (∀ (owner : BitVec 16) (s : State) (c : Compare), s.ckpt.compares.find? (fun c => c.owner = owner.toNat) = some c →
    let theirs := fun i => s.mem.bytes (s.fld F.CKPT_CMP_AREA + 64 * i) 64
    ((∀ i p, c.own[i]? = some p → theirs i = p.2) → exec (.ckptCompare owner) s = .next (compareEnd c none s))
    ∧ (∀ i p, c.own[i]? = some p → theirs i ≠ p.2 → (∀ j r, j < i → c.own[j]? = some r → theirs j = r.2) →
      exec (.ckptCompare owner) s = .next (compareEnd c (some p.1) s))
    ∧ (c.own = [] → exec (.ckptCompareTimeout owner) s = .next (compareEnd c (some 0) s))
    ∧ (∀ t b l, c.own = (t, b) :: l → exec (.ckptCompareTimeout owner) s = .next (compareEnd c (some t) s)))
  ∧ (∀ (c : Compare) (s : State),
    let s1 := s.setCk { s.ckpt with compares := s.ckpt.compares.filter (fun x => decide (x.owner ≠ c.owner)) }
    let told := fun (bad : Nat) (u : State) (node : Nat) =>
      (ckPuts 2 1 none (node * 2 ^ 42 + u.fld F.CKPT_CMP_AREA + 0x4000) (leBytes 1 bad ++ leBytes 15 0 ++ leBytes 2 c.owner ++ List.replicate 46 0) u).1
    let differs := fun (t : Nat) =>
      let u := (s1.diverge c.owner).raise EV.SHADOW_DIVERGE 0 0 (leBytes 2 c.owner ++ leBytes 8 t ++ leBytes 8 c.step)
      u.setDrain (u.ckpt.drain.map (fun (d : Drain) => if d.buddy = false ∧ d.step = c.step then { d with barren := true } else d))
    (s1.shadowOf c.owner = none → compareEnd c none s = s1)
    ∧ (∀ node, s1.shadowOf c.owner = some node → compareEnd c none s = told 0 s1 node)
    ∧ (∀ t, (differs t).shadowOf c.owner = none → compareEnd c (some t) s = differs t)
    ∧ (∀ t node, (differs t).shadowOf c.owner = some node → compareEnd c (some t) s = told 1 (differs t) node))

/-- R331, R438: what the slot that a command names holds: this engine's own memory at the address, nothing where no route leads to the node, else what the node
returns. -/
def Slice0.SlotRead (s : State) (node addr len : Nat) (answer : List Byte) (got : Option (List Byte)) : Prop :=
  (s.isSelf node = true ∧ got = some (s.mem.bytes addr len))
  ∨ (s.isSelf node = false ∧ (∃ code, s.route node = .fail code) ∧ got = none)
  ∨ (s.isSelf node = false ∧ (∀ code, s.route node ≠ .fail code) ∧ got = some answer)

/-- R319, R438: a promotion is refused with its code while the owner is not lost, the Shadow has diverged or a Freeze-method tensor of the owner was written since the
Freeze named. A granted one makes the engine's entries for the owner its own, reloads each Freeze-method tensor from its shard in slot f mod keep of the pool at
CKPT_CTL.promote_pool, a shard that fails its check with E_CKPT_DIGEST, records the owner index and raises EV_PROMOTED. -/
def Slice0.Promotion : Prop :=
  ∀ (v : W64) (answer : List Byte) (got : Option (List Byte)) (s : State),
    let k := fieldOf v 0 16
    let f := s.fld F.CKPT_CTL_promote_freeze
    let bytes := s.fld F.CKPT_POOL_slot_bytes
    let a := s.fld F.CKPT_CTL_promote_pool + f % Nat.max 1 (s.fld F.CKPT_POOL_keep) * bytes
    Slice0.SlotRead s (a / 2 ^ 42 % 2 ^ 22) (a % 2 ^ 42) bytes answer got →
    let slot := got.getD []
    let frozen := ((List.range s.ckpt.descs.length).zip s.ckpt.descs).filter (fun p => p.2.held && decide (p.2.owner = k) && p.2.freeze)
    let dirty := ∃ p ∈ frozen, s.reg (F.CKPT_OWNER_CLEAN_clean p.1).addr ≠ BitVec.ofNat 64 (2 ^ 32 + f)
    let shard := fun (d : CDesc) => (entriesOf slot).find? (fun e => decide (e.kind = 0 ∧ e.tid = d.tid ∧ e.bytes = d.bytes) && shardOk slot e d.base)
    let refused := s.net.gone.contains (s.ownerNodes k).1 = false ∨ s.diverged k = true ∨ dirty
    let s1 := s.setCk { s.ckpt with descs := s.ckpt.descs.map (fun (d : CDesc) => if d.held && decide (d.owner = k) then { d with held := false } else d) }
    let s2 := frozen.foldl (fun st p => match shard p.2 with
      | some e => st.store p.2.base (shardData slot e)
      | none => (st.undefAt p.2.base p.2.bytes).setFld F.CKPT_STS_code E.CKPT_DIGEST) (showOwner (some k) s1)
    let s3 := s2.setReg F.CKPT_EXPOSE_STS_start.addr s.now
    (refused → exec (.ckptPromote v answer) s = .next (s.setFld F.CKPT_STS_code E.CKPT_PROMOTE))
    ∧ (¬ refused → (∀ p ∈ frozen, shard p.2 ≠ none) → exec (.ckptPromote v answer) s = .next (s3.raise EV.PROMOTED 0 0 (leBytes 2 k)))
    ∧ (¬ refused → (∃ p ∈ frozen, shard p.2 = none) → exec (.ckptPromote v answer) s = .next s3)

/-- R306, R319: CKPT_STS shows the owner index given, and the digest of the shard map of that index's tensors owned here. -/
def Slice0.OwnerShown : Prop :=
  ∀ (s : State) (k : Nat), k < 2 ^ 16 →
    let mine := s.ckpt.descs.filter (fun d => !d.held && decide (d.owner = k))
    let dig := sha512 (mine.flatMap (fun d => leBytes 8 d.tid ++ leBytes 8 d.bytes ++ leBytes 2 d.owner ++ leBytes 1 (if d.freeze then 1 else 0) ++ List.replicate 5 0))
    (showOwner (some k) s).fld F.CKPT_STS_owner_index = k ∧ (showOwner (some k) s).flag F.CKPT_STS_owner_valid = true
    ∧ (showOwner (some k) s).groupBytes F.CKPT_STS_map_digest_w1 8 = dig
    ∧ (showOwner none s).flag F.CKPT_STS_owner_valid = false

/-- R331, R438: the slot of the step named, in the area and at the node that CKPT_CTL names, is adopted when it holds the valid record of the step: the member
state is loaded and the engine runs its step; any other, and one that no route leads to, leaves only E_CKPT_ADOPT. -/
def Slice0.Adoption : Prop :=
  ∀ (v : W64) (answer : List Byte) (got : Option (List Byte)) (s : State),
    let bytes := s.fld F.CKPT_REC_STORE_slot_bytes
    let a := s.fld F.CKPT_REC_STORE_base + (2 * s.fld F.CKPT_CTL_adopt_area + v.toNat % 2) * bytes
    Slice0.SlotRead s (s.fld F.CKPT_CTL_adopt_node) a bytes answer got →
    (got = none → exec (.ckptAdopt v answer) s = .next (s.setFld F.CKPT_STS_code E.CKPT_ADOPT))
    ∧ (∀ slot, got = some slot →
      (numAt slot 20 1 % 2 = 1 ∧ numAt slot 0 8 = v.toNat → exec (.ckptAdopt v answer) s = .next (restored (memberLoad slot s)))
      ∧ (¬ (numAt slot 20 1 % 2 = 1 ∧ numAt slot 0 8 = v.toNat) → exec (.ckptAdopt v answer) s = .next (s.setFld F.CKPT_STS_code E.CKPT_ADOPT))
      ∧ (restored (memberLoad slot s)).fld F.CKPT_STS_phase = 1)

/-- R334: the result of one slot of a scan: the first code that applies, with the freeze and step of its manifest if it has one; and
EV_CKPT_SHARD_REJECT for the first shard whose header differs. -/
def Slice0.scanned (j : Nat) (b : List Byte) (s : State) : State :=
  let bad := (entriesOf b).find? (fun e => !headerOk b e)
  let put := fun (code : Nat) (known : Bool) =>
    ((s.setFld (F.CKPT_SCAN_RES_code j) code).setFld (F.CKPT_SCAN_RES_freeze_id j) (if known then numAt b 24 4 else 0)).setFld
      (F.CKPT_SCAN_RES_step j) (if known then numAt b 16 8 else 0)
  if hasManifest b = false then put E.CKPT_NO_MANIFEST false
  else if signedOk s b = false then put E.CKPT_SIG true
  else match bad with
    | some e => (put E.CKPT_STEP_MIX true).raise EV.CKPT_SHARD_REJECT 0 0 (leBytes 1 j ++ leBytes 8 e.tid)
    | none => if shapeOk s b = false then put E.CKPT_SHAPE true else put 0 true

/-- R334: a scan checks every slot of the pool area; a 0 written scans nothing. -/
def Slice0.PoolScan : Prop :=
  ∀ (v : W64) (slots : List (List Byte)) (s : State),
    (v.getLsbD 1 = false → exec (.ckptScan v slots) s = .next s)
    ∧ (v.getLsbD 1 = true → exec (.ckptScan v slots) s = .next ((List.range (Nat.min 8 (s.fld F.CKPT_POOL_keep))).foldl
        (fun st j => Slice0.scanned j (slots.getD j []) st) s))

/-- R335: a load checks the scan code of the slot, the shape and each digest, in this order. A refused load changes nothing but the result; one that finds a wrong
digest leaves the protected ranges undefined; a good one writes owner and member state, the step and the Freeze, marks every Freeze-method tensor
clean since it, and the engine runs. After a decision has been written it does nothing. -/
def Slice0.Restore : Prop :=
  ∀ (v : W64) (slot shadow : List Byte) (s : State),
    let f := fieldOf v 0 32
    let j := f % Nat.max 1 (s.fld F.CKPT_POOL_keep)
    let known := s.fld (F.CKPT_SCAN_RES_freeze_id j) = f ∧ s.fld (F.CKPT_SCAN_RES_code j) = 0 ∧ hasManifest slot = true
    let result := fun (code : Nat) (u : State) => (u.setFld F.CKPT_RESTORE_STS_code code).setFlag F.CKPT_RESTORE_STS_done true
    let mine := s.ckpt.descs.filter (fun d => !(d.held && d.freeze))
    let area := fun (d : CDesc) => if d.held then shadow else slot
    let entry := fun (d : CDesc) => (entriesOf (area d)).find? (fun e => decide (e.kind = 0 ∧ e.tid = d.tid ∧ e.bytes = d.bytes))
    let whole := ∀ d ∈ mine, ∃ e, entry d = some e ∧ shardOk (area d) e d.base = true
    let step := numAt slot 16 8
    let member := (entriesOf slot).find? (fun e => decide (e.kind = 1))
    (s.fld F.CKPT_VOTE_STS_outcome ≠ 0 → exec (.ckptLoad v slot shadow) s = .next s)
    ∧ (s.fld F.CKPT_VOTE_STS_outcome = 0 →
      (¬ known → exec (.ckptLoad v slot shadow) s = .next (result E.CKPT_NO_MANIFEST s))
      ∧ (known → shapeOk s slot = false → exec (.ckptLoad v slot shadow) s = .next (result E.CKPT_SHAPE s))
      ∧ (∀ m, known → shapeOk s slot = true → whole → member = some m → m.bytes = s.memberLen → shardOk slot m (s.baseSlot step) = true →
        let s1 := mine.foldl (fun st d => match entry d with | some e => st.store d.base (shardData (area d) e) | none => st) s
        let s2 := ((memberLoad (shardData slot m) s1).setFld F.CKPT_STEP_step step).setFld F.CKPT_FRZ_ID f
        let s3 := s2.setCk { s2.ckpt with descs := s2.ckpt.descs.map (fun (d : CDesc) =>
          if d.freeze && !d.held then { d with clean := some f, noted := false } else d) }
        let s4 := ((List.range s3.ckpt.descs.length).zip s3.ckpt.descs).foldl (fun st p =>
          if p.2.freeze && p.2.held then st.setReg (F.CKPT_OWNER_CLEAN_clean p.1).addr (BitVec.ofNat 64 (2 ^ 32 + f)) else st) s3
        let s5 := (List.range 16).foldl (fun st i => st.setFlag (F.CKPT_SHADOW_STS_diverged i) false) s4
        exec (.ckptLoad v slot shadow) s = .next (restored (result 0 s5)))
      ∧ (known → shapeOk s slot = true →
        ¬ (whole ∧ ∃ m, member = some m ∧ m.bytes = s.memberLen ∧ shardOk slot m (s.baseSlot step) = true) →
        let s1 := mine.foldl (fun st d => st.undefAt d.base d.bytes) s
        let s2 := (List.range s.ncores).foldl (fun st n => if st.srecLen n = 0 then st else st.undefAt (st.srecPlace n) (st.srecLen n)) s1
        exec (.ckptLoad v slot shadow) s = .next (result E.CKPT_DIGEST s2)))

/-- R319, R331, R334, R335: promotion, adoption, scan and restore. What a slot holds that no route leads to is log 95; a scan without manifest, a load while the
outcome is 0 and a promotion with a bad shard are log 177. -/
def Obligations.RestoreCommands : Prop := Slice0.Promotion ∧ Slice0.OwnerShown ∧ Slice0.Adoption ∧ Slice0.PoolScan ∧ Slice0.Restore

/-! ## Power (spec/15; spec/16 R365-R369; spec/20 R446) -/

/-- R22, R339, R341: what a write of a site's power state does; nothing at a site of the lost half. OFF takes effect at once: the site is OFF and isolated, without a
transition, and its core, unless the site was OFF, keeps nothing but the numbers of its contexts' starts; its registers are at reset when power comes back. RET
is refused unless the site is in IDLE without a transition and its core has nothing in progress. IDLE begins to leave RET, or OFF where the converters are on and
the core that the site carries has not failed. That OFF is at once, from where OFF goes to IDLE and what a refused RET leaves are the model's choices (log 141). -/
def Slice0.SiteWrites : Prop :=
  ∀ (site : BitVec 10) (s : State),
    let p := site.toNat
    let busy := s.sitePower p ≠ 2 ∨ Sparse.find s.trans p ≠ none ∨ ∃ n, s.coreAt p = some n ∧ (s.core n).keepsRet = true
    let s2 := s.setFld (F.PWR_SITE_CTL_state p) 2
    let leaves := (s.sitePower p = 0 ∧ s.pwr.off = false ∧ ∃ n, s.coreAt p = some n ∧ n ∉ s.dead) ∨ s.sitePower p = 1
      ∨ (2 ≤ s.sitePower p ∧ Sparse.find s.trans p = some 1)
    (s.siteKept p = false → exec (.siteToOff site) s = .next s ∧ exec (.siteToRet site) s = .next s ∧ exec (.siteToIdle site) s = .next s)
    ∧ (s.siteKept p = true →
      Slice0.Does (.siteToOff site) s (fun t => t.fld (F.PWR_SITE_STS_state p) = 0 ∧ t.fld (F.PWR_SITE_STS_isolated p) = 1
        ∧ t.fld (F.PWR_SITE_CTL_state p) = 0 ∧ Sparse.find t.trans p = none
        ∧ ∀ n, s.coreAt p = some n → s.sitePower p ≠ 0 →
          (t.core n).rings = [] ∧ (t.core n).slots = [] ∧ (t.core n).chains = [] ∧ (∀ k, t.ctx n k = { inc := (s.ctx n k).inc })
            ∧ ∀ a, coreRegAt n a = true → t.reg a = resetWord a)
      ∧ (busy → exec (.siteToRet site) s = .next (s.setFld (F.PWR_SITE_STS_code p) E.SITE_STATE))
      ∧ (¬ busy → exec (.siteToRet site) s = .next { s.setFld (F.PWR_SITE_CTL_state p) 1 with trans := Sparse.put s.trans p 1 })
      ∧ (leaves → exec (.siteToIdle site) s = .next { s2 with trans := Sparse.put s.trans p 2 })
      ∧ (¬ leaves → exec (.siteToIdle site) s = .next s2))

/-- R340, R341: a transition completes. A site that enters RET keeps its memories and the configuration of its rings, and nothing else (the core's registers go back to
reset: log 171); work that has arrived since gives the transition up. A site that leaves OFF has undefined memories; the starts held for its core then take effect in the order of their writes. R368: a site in RUN with nothing
to do enters IDLE when its timer expires. -/
def Slice0.SiteTransitions : Prop :=
  ∀ (site : BitVec 10) (s : State),
    let p := site.toNat
    let s1 := { s with trans := Sparse.drop s.trans p }
    (Sparse.find s.trans p = none → exec (.sitePowerTransitionDone site) s = .next s)
    ∧ (Sparse.find s.trans p = some 1 →
      (s.coreAt p = none → exec (.sitePowerTransitionDone site) s = .next (sitePut p 1 s1))
      ∧ (∀ n, s.coreAt p = some n →
        (s.sitePower p ≠ 2 ∨ (s.core n).keepsRet = true → exec (.sitePowerTransitionDone site) s = .next s1)
        ∧ (s.sitePower p = 2 → (s.core n).keepsRet = false →
          exec (.sitePowerTransitionDone site) s = .next (sitePut p 1 (coreRegsLost n (s1.setCore n (s.core n).retained))))))
    ∧ (∀ st, Sparse.find s.trans p = some st → st ≠ 1 →
      (s.coreAt p = none → exec (.sitePowerTransitionDone site) s = .next s1)
      ∧ (∀ n, s.coreAt p = some n →
        let s2 := sitePut p 2 (if s.sitePower p = 0 then coreMemLost n s1 else s1)
        exec (.sitePowerTransitionDone site) s = .next ((s.heldStarts.filter (fun h => decide (h.core = n))).foldl (fun st h => startNow h (st.kick n))
          { s2 with heldStarts := s.heldStarts.filter (fun h => decide (h.core ≠ n)) })))
    ∧ (s.sitePower p = 3 → s.fld F.CLK_IDLE_TO_ns ≠ 0 → s.siteIdle p = true →
      exec (.idleTimeout site) s = .next (s.setFld (F.PWR_SITE_STS_state p) 2))
    ∧ (s.sitePower p ≠ 3 ∨ s.fld F.CLK_IDLE_TO_ns = 0 ∨ s.siteIdle p = false → exec (.idleTimeout site) s = .next s)

/-- R339-R341 and R368: the power states of a site; the model's choices are logs 140, 141 and 171. -/
def Obligations.SitePowerStates : Prop := Slice0.SiteWrites ∧ Slice0.SiteTransitions

/-- R343: a telemetry frame enters the ring with the next sequence number, newest first, its temperatures are the latest readings of their sensors, and PWR_IN_STS shows
its module-input record; none is taken while the Lodge firmware does not run. A record of a site's rail shows whether the site is derated and isolated; one of the
lost half is stale (R22; which rails are those is log 138). -/
def Obligations.Telemetry : Prop :=
  (∀ (f : FrameIn) (s : State), s.lodgeRuns = false → exec (.telemetryFrame f) s = .next s)
  ∧ (∀ (f : FrameIn) (s : State), s.lodgeRuns = true →
    let s1 := { s with pwr := { s.pwr with
      frames := (⟨s.now, s.pwr.frameSeq, f.recs.map s.telRec, f.temps⟩ :: s.pwr.frames).take s.pwr.telCap, frameSeq := s.pwr.frameSeq + 1
      temps := (List.range 1094).map (fun j => (j, (f.temps.getD j 0).toInt)) } }
    (f.recs.find? (fun r => decide ((r.extractLsb' 0 16).toNat = 0x851)) = none → exec (.telemetryFrame f) s = .next s1)
    ∧ (∀ r, f.recs.find? (fun r => decide ((r.extractLsb' 0 16).toNat = 0x851)) = some r →
      exec (.telemetryFrame f) s = .next (((s1.setFld F.PWR_IN_STS_volts (r.extractLsb' 32 32).toNat).setFld F.PWR_IN_STS_amps
        (r.extractLsb' 64 32).toNat).setFld F.PWR_IN_STS_watts (r.extractLsb' 96 32).toNat)))
  ∧ (∀ (r : BitVec 128) (s : State),
    let d := (r.extractLsb' 0 16).toNat
    (d < 0x800 → (s.telRec r).getLsbD 16 = s.flag (F.PWR_SITE_STS_derated (d % 0x400))
      ∧ (s.telRec r).getLsbD 17 = s.flag (F.PWR_SITE_STS_isolated (d % 0x400)))
    ∧ (s.domainLost d = true → (s.telRec r).getLsbD 18 = true)
    ∧ (s.domainLost d = false → (s.telRec r).getLsbD 18 = r.getLsbD 18)
    ∧ (∀ b, b < 16 ∨ 18 < b → (s.telRec r).getLsbD b = r.getLsbD b)
    ∧ (s.halfMode = false → s.domainLost d = false))

/-- R346: the common cap goes to the highest point whose predicted power fits: at once while the clamp is engaged, else toward it so far as the predicted
power moves by at most step_w down or rise_w up. -/
def Slice0.CommonCap : Prop :=
  ∀ (watts : Nat → Nat) (eff cur step rise : Nat), cur < 16 → (∃ k, k < 16 ∧ watts k ≤ eff) →
    let k := nextPoint watts eff cur step rise
    let fit := k true
    (fit < 16 ∧ watts fit ≤ eff ∧ ∀ j, fit < j → j < 16 → eff < watts j)
    ∧ (fit = cur → k false = cur)
    ∧ (fit < cur → fit ≤ k false ∧ k false ≤ cur ∧ watts cur ≤ watts (k false) + step
      ∧ ∀ j, fit ≤ j → j < k false → watts j + step < watts cur)
    ∧ (cur < fit → cur ≤ k false ∧ k false ≤ fit ∧ watts (k false) ≤ watts cur + rise
      ∧ ∀ j, k false < j → j ≤ fit → watts cur + rise < watts j)

/-- R358: the thermal cap of a site falls by one point while its temperature is above the target and rises by one while it is 3 degrees or more below it. -/
def Slice0.ThermalCaps : Prop :=
  ∀ (s : State) (p : Nat), p < 1024 →
    let target : Int := s.fld F.PWR_THERM_CFG_target
    let k := Sparse.get s.pwr.thermal 0 p
    (Sparse.get (thermalCaps s).pwr.thermal 0 p = if target * 64 < s.frameTemp p then Nat.min 15 (k + 1)
      else if s.frameTemp p ≤ (target - 3) * 64 then k - 1 else k)
    ∧ (thermalCaps s).regs = s.regs ∧ (thermalCaps s).events = s.events ∧ (thermalCaps s).cores = s.cores ∧ (thermalCaps s).mem = s.mem

/-- R349, R350: the clamp in an iteration of the loop. Off, it does nothing. While a trigger holds it, the stretch is the largest with which the predicted power stays at or
below the floor. With none, it pauses in the iteration that met a cap and while the input power is above the effective cap; else the stretch rises so
far as the predicted power rises by at most rise_w, and at 64 the clamp is released. -/
def Slice0.ClampLoop : Prop :=
  ∀ (g eff : Nat) (s : State),
    let watts := Config.watts g s.commonPoint
    let met := watts 64 ≤ eff
    let left := s.pwr.trig.filter (fun t => decide (t ≠ 5 ∧ ¬ (met ∧ (t = 1 ∨ t = 2))))
    let s1 := { s with pwr := { s.pwr with trig := left } }
    let cut := 1 ∈ s.pwr.trig ∨ 2 ∈ s.pwr.trig
    let cur := s.fld F.PWR_CLAMP_STS_stretch
    let next := Nat.max cur (stretchFor watts (watts cur + s.fld F.PWR_CAP_CFG_rise_w))
    let s2 := s1.setFld F.PWR_CLAMP_STS_stretch next
    (s.flag F.PWR_STS_clamp = false → clampStep g eff s = s)
    ∧ (s.flag F.PWR_STS_clamp = true →
      (left ≠ [] → clampStep g eff s = s1.setFld F.PWR_CLAMP_STS_stretch (stretchFor watts (s.fld F.PWR_CLAMP_CFG_floor_watts)))
      ∧ (left = [] → (cut ∧ met) ∨ eff * 1000 < s.fld F.PWR_IN_STS_watts → clampStep g eff s = s1)
      ∧ (left = [] → ¬ ((cut ∧ met) ∨ eff * 1000 < s.fld F.PWR_IN_STS_watts) → next ≠ 64 → clampStep g eff s = s2)
      ∧ (left = [] → ¬ ((cut ∧ met) ∨ eff * 1000 < s.fld F.PWR_IN_STS_watts) → next = 64 →
        clampStep g eff s = s2.setFlag F.PWR_STS_clamp false))

/-- R351, R352, R353: HOLD in an iteration of the loop. Outside HOLD the first cause that arises enters it: every site in RUN enters IDLE, the flag is set and
EV_HOLD_ENTER raised. In HOLD, ten iterations in which every cause has cleared end it. -/
def Slice0.HoldLoop : Prop :=
  ∀ (eff : Nat) (s : State),
    let on := [0, 1, 2].filter (causeOn s eff)
    (s.flag F.PWR_STS_hold = false → on = [] → holdStep eff s = s)
    ∧ (∀ c l, s.flag F.PWR_STS_hold = false → on = c :: l →
      let t := holdStep eff s
      t.flag F.PWR_STS_hold = true ∧ t.pwr.causes = [c] ∧ t.pwr.since = s.now ∧ t.cores = s.cores ∧ t.mem = s.mem
      ∧ (∀ p, p < 1024 → t.sitePower p = if s.sitePower p = 3 then 2 else s.sitePower p)
      ∧ (∀ p, p < 1024 → s.sitePower p = 3 → s.siteIdle p = false → p ∈ t.kickWait))
    ∧ (s.flag F.PWR_STS_hold = true →
      let causes := (s.pwr.causes ++ on).dedup
      let clear := if causes.all (causeGone s eff) then s.pwr.clear + 1 else 0
      let s1 := capUnmet eff { s with pwr := { s.pwr with causes := causes, clear := clear } }
      (clear < 10 → holdStep eff s = s1) ∧ (10 ≤ clear → holdStep eff s = exitHold s1))

/-- R345, R346: an iteration of the loop computes the effective cap as the least of its limits, lets the thermal caps follow, puts new tables in force, moves the
common cap, then lets the clamp and HOLD follow; none runs while the loop does not. -/
def Slice0.LoopIteration : Prop :=
  ∀ (flow : Nat) (s : State),
    (s.loopRuns = false → exec (.powerLoopIteration flow) s = .next s)
    ∧ (s.loopRuns = true →
      let eff := s.effCap flow
      let s2 := ((thermalCaps (coolantAlarms flow s)).setReg F.PWR_MIN_OP.addr ((Config.minOp s.free).setWidth 64)).setReg F.PWR_HOLD_W.addr
        ((Config.holdWatts s.free).setWidth 64)
      let k := nextPoint (fun k => Config.watts s.free k 64) eff s2.commonPoint (s2.fld F.PWR_CAP_CFG_step_w) (s2.fld F.PWR_CAP_CFG_rise_w)
        (s2.flag F.PWR_STS_clamp)
      let s3 := { (s2.setFld F.PWR_STS_eff_cap_watts eff).setFld F.PWR_STS_common_mhz (1350 + 150 * k) with wear := { s2.wear with force := [] } }
      exec (.powerLoopIteration flow) s = .next (State.tick (holdStep eff (clampStep s.free eff s3))))
    ∧ s.effCap flow ≤ 30000 ∧ s.effCap flow ≤ s.rackCap ∧ s.effCap flow ≤ flow * 1000 / 15
    ∧ s.effCap flow ≤ s.fld F.PWR_IN_STS_volts * 652 / 1000000
    ∧ ((∃ e, e < 8 ∧ s.crevLimits e = true) → s.effCap flow ≤ 15000)

/-- R345, R346, R349-R353, R358: the loop. The predicted powers are Config's (log 80); how the common cap and the clamp move between points, the limit of a cracked
contact group and the ten iterations of every cause are log 143, the numbers of the triggers and the compare in milliwatts log 142. -/
def Obligations.PowerLoop : Prop :=
  Slice0.CommonCap ∧ Slice0.ThermalCaps ∧ Slice0.ClampLoop ∧ Slice0.HoldLoop ∧ Slice0.LoopIteration

/-- R347-R349: a cap with a stale sequence number is refused with E_CAP_SEQ and counted; an accepted one is stored, ends a lapsed lease and, with the converters on, engages the
clamp: an urgent one below the input power, any one below it by more than ten steps. An expired lease is reported once and puts the fallback in
force. The trigger numbers, the compare in milliwatts and that PWR_CAP_STS.code is not cleared are logs 142 and 133. -/
def Obligations.RackCap : Prop :=
  ∀ (v : W64) (s : State),
    let seq := fieldOf v 32 32
    let cap := Nat.min (fieldOf v 0 16) 30000 * 1000
    let mw := s.fld F.PWR_IN_STS_watts
    let s1 := (((s.setFld F.PWR_CAP_CTL_seq seq).setFld F.PWR_CAP_CTL_urgent (fieldOf v 16 1)).setFld F.PWR_CAP_CTL_cap_watts (fieldOf v 0 16)).setFld
      F.PWR_CAP_STS_seq seq
    let s2 := { s1 with pwr := { s.pwr with lapsed := false } }
    let urgent := v.getLsbD 16 = true ∧ cap < mw
    let far := cap + 10000 * s.fld F.PWR_CAP_CFG_step_w < mw
    let lapsed := { s with pwr := { s.pwr with lapsed := true } }
    (seq ≤ s.fld F.PWR_CAP_STS_seq → exec (.capWrite v) s = .next ((s.setFld F.PWR_CAP_STS_code E.CAP_SEQ).bump F.PWR_CAP_STALE_CNT))
    ∧ (s.fld F.PWR_CAP_STS_seq < seq →
      (s.pwr.off = true ∨ (¬ urgent ∧ ¬ far) → exec (.capWrite v) s = .next s2)
      ∧ (s.pwr.off = false → urgent → exec (.capWrite v) s = .next (engage 1 s2))
      ∧ (s.pwr.off = false → ¬ urgent → far → exec (.capWrite v) s = .next (engage 2 s2))
      ∧ s2.fld F.PWR_CAP_STS_seq = seq ∧ s2.rackCap = Nat.min (fieldOf v 0 16) 30000)
    ∧ (s.fld F.PWR_CAP_CFG_lease_ms ≠ 0 → s.pwr.lapsed = false →
      exec .capLeaseExpiry s = .next (lapsed.raise EV.CAP_LEASE 0 0 []) ∧ lapsed.rackCap = s.fld F.PWR_CAP_CFG_fallback_watts)
    ∧ (s.fld F.PWR_CAP_CFG_lease_ms = 0 ∨ s.pwr.lapsed = true → exec .capLeaseExpiry s = .next s)

/-- R349, R446, R450: the brake and an undervoltage engage the clamp unless the converters are off, and their end lets the trigger go; a lost input shuts every converter
down once, and from stage 3 on the converters stay off until the next warm reset. -/
def Slice0.BrakeAndInput : Prop :=
  ∀ s : State,
    let brake := { s with pwr := { s.pwr with brake := true } }
    let low := { s with pwr := { s.pwr with low := true } }
    let lost := s.raise EV.INPUT_FAIL 0 0 []
    let shut := rimOff (convertersOff lost)
    let gone := fun (t : State) => { t with pwr := { t.pwr with failed := true, dry := t.pwr.dry || decide (3 ≤ t.fld F.DEV_BOOT_STS_stage) } }
    let higher := { s with pwr := { s.pwr with low := false, trig := s.pwr.trig.filter (fun t => decide (t ≠ 4)) } }
    (s.pwr.off = true → exec .pwrBrakeAssert s = .next brake ∧ exec .inputUndervoltage s = .next low)
    ∧ (s.pwr.off = false → exec .pwrBrakeAssert s = .next (engage 3 brake) ∧ exec .inputUndervoltage s = .next (engage 4 low))
    ∧ exec .pwrBrakeDeassert s = .next { s with pwr := { s.pwr with brake := false, trig := s.pwr.trig.filter (fun t => decide (t ≠ 3)) } }
    ∧ (s.pwr.failed = true → exec .inputFail s = .next s)
    ∧ (s.pwr.failed = false → s.pwr.off = true → exec .inputFail s = .next (gone lost))
    ∧ (s.pwr.failed = false → s.pwr.off = false → exec .inputFail s = .next (gone shut))
    ∧ (∀ mv, mv ≤ 44000 → exec (.inputReturn mv) s = .next s)
    ∧ (∀ mv, 44000 < mv → mv ≤ 46000 → exec (.inputReturn mv) s = .next higher)
    ∧ (∀ mv, 46000 < mv → exec (.inputReturn mv) s = .next { higher with pwr := { higher.pwr with failed := false } })

/-- R349, R385: what engages the clamp. A trigger that engages it sets the largest stretch with which the predicted power stays at or below the floor, half speed while the
Lodge firmware does not run, reports EV_CAP_CLAMP and is counted; one more only joins those in force. -/
def Slice0.ClampEngage : Prop :=
  ∀ (t : Nat) (s : State), t < 8 →
    let trig := if t ∈ s.pwr.trig then s.pwr.trig else t :: s.pwr.trig
    let s1 := State.setFld { s with pwr := { s.pwr with trig := trig } } F.PWR_CLAMP_STS_trigger t
    let k := if s.lodgeRuns then stretchFor (Config.watts s.free s.commonPoint) (s.fld F.PWR_CLAMP_CFG_floor_watts) else 32
    (s.flag F.PWR_STS_clamp = true → engage t s = s1)
    ∧ (s.flag F.PWR_STS_clamp = false → engage t s =
      ((((s1.setFlag F.PWR_STS_clamp true).setFld F.PWR_CLAMP_STS_stretch k).raise EV.CAP_CLAMP 0 0 (leBytes 1 t)).bump F.PWR_CLAMP_CNT)
      ∧ (engage t s).flag F.PWR_STS_clamp = true)
    ∧ t ∈ (engage t s).pwr.trig

/-- R349, R446, R450: the clamp and what engages it. The numbers 3 and 4 of the triggers are log 142; a brake without effect with the converters off, and an input failure
once, log 146. -/
def Obligations.Clamp : Prop := Slice0.BrakeAndInput ∧ Slice0.ClampEngage

/-- R355: a window of a power entry below a fifth of its rating says nothing. Any other counts the windows in a row with the drop at 1.3 and at 2 times the predicted one: at
100 of the first the sites that the entry feeds are derated, once, and EV_CREVASSE is raised; at 10 of the second an input contact group
limits its half and any other entry's field goes dark. -/
def Slice0.CrevasseWindows : Prop :=
  ∀ (e : BitVec 8) (m : CrevIn) (s : State),
    let entry := e.toNat
    (Sparse.find s.pwr.crev entry = none → exec (.crevasseWindow e m) s = .next s)
    ∧ (∀ c, Sparse.find s.pwr.crev entry = some c → 5 * m.milliAmps < ratingOf entry → exec (.crevasseWindow e m) s = .next s)
    ∧ (∀ c, Sparse.find s.pwr.crev entry = some c → ratingOf entry ≤ 5 * m.milliAmps →
      let drop := crevDrop m
      let expected := crevPredicted c m
      let c1 : Crev := { c with
        n13 := if 130 * expected ≤ 100 * drop then c.n13 + 1 else 0
        n20 := if 2 * expected ≤ drop then c.n20 + 1 else 0 }
      let put := fun (x : Crev) (st : State) => { st with pwr := { st.pwr with crev := Sparse.put st.pwr.crev entry x } }
      let derate := fun (st : State) => (sitesFed entry).foldl (fun st q => st.setFlag (F.PWR_SITE_STS_derated q) true) st
      let cracked := 100 ≤ c1.n13 ∧ c.derated = false
      let s1 := if cracked then
          ((derate (put { c1 with derated := true } s)).setFlag F.PWR_SERVICE_STS_crevasse true).raise EV.CREVASSE 7 entry
            (leBytes 1 entry ++ leBytes 2 (100 * drop / expected).toNat)
        else put c1 s
      (c1.n20 ≠ 10 → exec (.crevasseWindow e m) s = .next s1)
      ∧ (c1.n20 = 10 → entry < 8 →
        exec (.crevasseWindow e m) s = .next (derate (put { c1 with derated := c.derated || decide cracked, limits := true } s1)))
      ∧ (c1.n20 = 10 → 8 ≤ entry → exec (.crevasseWindow e m) s = .next (fieldDark ((entry - 8) % 64) s1)))

/-- R355: a recalibration gives the 136 entries their baselines, ends every derate that is not a lost phase's and writes the calibration record; it is ignored while a job is
loaded. R439: the service flags are cleared by writing 1, while no job is loaded. -/
def Slice0.ServiceWrites : Prop :=
  ∀ (v : W64) (base : List (Nat × Nat)) (s : State),
    let fresh := (List.range 136).map (fun e => (e, ({ zb := (base.getD e (0, 0)).1, tb := (base.getD e (0, 0)).2 } : Crev)))
    let s1 := { s with pwr := { s.pwr with crev := fresh }, lodge := { s.lodge with noCal := false } }
    let s2 := (List.range 1024).foldl (fun st p => st.setFlag (F.PWR_SITE_STS_derated p) (decide (st.fld (F.PWR_SITE_STS_phases p) < 8))) s1
    (v.getLsbD 0 = true → s.jobLoaded = false → exec (.pwrCrevRecal v base) s = .next (calRecord s2))
    ∧ (v.getLsbD 0 = false ∨ s.jobLoaded = true → exec (.pwrCrevRecal v base) s = .next s)
    ∧ (s.jobLoaded = true → exec (.pwrServiceClear v) s = .next s)
    ∧ (s.jobLoaded = false → Slice0.Does (.pwrServiceClear v) s (fun t =>
      t.flag F.PWR_SERVICE_STS_crevasse = (s.flag F.PWR_SERVICE_STS_crevasse && !v.getLsbD 0)
      ∧ t.flag F.PWR_SERVICE_STS_leak = (s.flag F.PWR_SERVICE_STS_leak && !v.getLsbD 1)
      ∧ (∀ a, a ≠ F.PWR_SERVICE_STS_crevasse.addr → t.reg a = s.reg a) ∧ t.mem = s.mem ∧ t.cores = s.cores ∧ t.events = s.events))

/-- R356, R357, R362 and spec/02 R28-R30: what a fault of the power chain takes: a phase derates its site and the third one takes it dark, a controller or a short takes the
site, a bond the field; a rim converter takes its segment's stacks and links and edge memory and degrades the engine, an always-on converter its half with the
packets in its routers (log 206). -/
def Slice0.PowerFaults : Prop :=
  ∀ (site : BitVec 10) (field : BitVec 6) (seg : BitVec 2) (half : BitVec 1) (s : State),
    let p := site.toNat
    let dark := fun (kind : Nat) =>
      retireSites [p] (failSites [p] ((siteOff p s).raise EV.SITE_SHORT 1 p (leBytes 2 p ++ leBytes 1 kind)))
    (6 < s.fld (F.PWR_SITE_STS_phases p) → exec (.phaseLoss site) s =
      .next (((s.setFld (F.PWR_SITE_STS_phases p) (s.fld (F.PWR_SITE_STS_phases p) - 1)).setFlag (F.PWR_SITE_STS_derated p) true).raise EV.PHASE_LOST 1 p
        (leBytes 2 p ++ leBytes 1 (s.fld (F.PWR_SITE_STS_phases p) - 1))))
    ∧ (s.fld (F.PWR_SITE_STS_phases p) ≤ 6 → exec (.phaseLoss site) s = .next (dark 0))
    ∧ exec (.regulatorControllerFault site) s = .next (dark 0)
    ∧ exec (.siteShort site) s = .next (dark 1)
    ∧ exec (.vfieldShort field) s = .next (let ps := (List.range 16).map (fun j => 16 * field.toNat + j)
        retireSites ps (failSites ps ((ps.foldl (fun st q => siteOff q st) s).raise EV.FIELD_SHORT 3 field.toNat (leBytes 1 field.toNat))))
    ∧ exec (.rimConverterFault seg) s = .next (
        let s1 := ((List.range 8).map (fun j => 8 * seg.toNat + j)).foldl (fun st k => linkOff k st) s
        let s2 := ((List.range 4).map (fun j => 4 * seg.toNat + j)).foldl (fun st k => st.setFld (F.RIM_STACK_STS_state k) 2) s1
        let s3 := s2.undefAt 0 s2.edgeSize
        degrade { s3 with pwr := { s3.pwr with segs := if s3.pwr.segs.contains seg.toNat then s3.pwr.segs else seg.toNat :: s3.pwr.segs } })
    ∧ exec (.alwaysOnConverterFault half) s = .next (
        let h := half.toNat
        let s1 := ((List.range 1024).filter (fun q => halfOfField (q / 16) = h)).foldl (fun st q => if st.sitePower q = 0 then st else siteOff q st) s
        let s2 := ((List.range 32).filter (fun k => linkHalf k = h)).foldl (fun st k => linkOff k st) s1
        let s3 := ((List.range 16).filter (fun k => (if 2 ≤ k ∧ k < 10 then 1 else 0) = h)).foldl (fun st k => st.setFld (F.RIM_STACK_STS_state k) 2) s2
        let s4 := s3.undefAt 0 s3.edgeSize
        let stay := fun (b : Nat × List FabPkt) => !decide ((if 16 ≤ b.1 / 64 % 32 then 1 else 0) = h)
        degrade { s4 with
          pwr := { s4.pwr with half := some h }
          fab := { s4.fab with bufs := s4.fab.bufs.filter stay, waits := s4.fab.waits.filter stay } })

/-- R28, R30, R357: what these have in common: a failed site takes its core out and is RETIRED; a degraded engine stops its cores and shows it. -/
def Slice0.FaultOutcomes : Prop :=
  (∀ (p : Nat) (s : State),
    (s.coreAt p = none → failSites [p] s = s) ∧ (∀ n, s.coreAt p = some n → failSites [p] s = Slice0.failed n s)
    ∧ (siSpare < s.siteState p → retireSites [p] s = countSpares s)
    ∧ (s.siteState p = siAssigned → retireSites [p] s = countSpares (s.setSite p siRetired 0))
    ∧ (s.siteState p = siSpare → retireSites [p] s = spareLow (countSpares (s.setSite p siRetired 0))))
  ∧ (∀ s : State, s.flag F.DEV_MODE_STS_degraded = true → degrade s = s)
  ∧ (∀ s : State, s.flag F.DEV_MODE_STS_degraded = false →
    degrade s = sayGoodbye 4 (((abandon { s with stopAll := true }).setFlag F.DEV_MODE_STS_degraded true).raise EV.ENGINE_DEGRADED 0 0 []))

/-- R355-R357, R362: Crevasse and the faults of the power chain. What a window and a recalibration touch is logs 81 and 145, what a short takes log 146, the degrade and its
goodbye log 184. -/
def Obligations.PowerChain : Prop := Slice0.CrevasseWindows ∧ Slice0.ServiceWrites ∧ Slice0.PowerFaults ∧ Slice0.FaultOutcomes

/-- R358, R359, R351: a sample is the site's latest reading. A site that reaches 100 degrees is reported, once, and clamped until it is below 97; a second sample at 105
degrees in a row trips the module, once: the converters go off, the peers are told, the rim goes off, and readings from before the trip do not count for the
restart any more. -/
def Obligations.SiteTemperature : Prop :=
  (∀ (p : Nat) (t : Int) (s : State),
    let reached := 100 * 64 ≤ t ∧ p ∉ s.pwr.hot
    let cooled := t < 97 * 64 ∧ p ∈ s.pwr.hot
    let s0 := { s with pwr := { s.pwr with temps := Sparse.put s.pwr.temps p t } }
    let s1 := if reached then State.raise { s0 with pwr := { s0.pwr with hot := p :: s.pwr.hot } } EV.THERMAL_LIMIT 1 p (leBytes 2 p)
      else if cooled then { s0 with pwr := { s0.pwr with hot := s.pwr.hot.filter (fun q => decide (q ≠ p)) } } else s0
    let off := rimOff (sayGoodbye 3 (convertersOff s1))
    (t < 105 * 64 → thermalSite p t s = { s1 with pwr := { s1.pwr with hot105 := s.pwr.hot105.filter (fun q => decide (q ≠ p)) } })
    ∧ (105 * 64 ≤ t → p ∉ s.pwr.hot105 → thermalSite p t s = { s1 with pwr := { s1.pwr with hot105 := p :: s.pwr.hot105 } })
    ∧ (105 * 64 ≤ t → p ∈ s.pwr.hot105 → s.pwr.tripped = true → thermalSite p t s = s1)
    ∧ (105 * 64 ≤ t → p ∈ s.pwr.hot105 → s.pwr.tripped = false →
      thermalSite p t s = State.raise { off with pwr := { off.pwr with tripped := true, temps := [] } } EV.THERMAL_TRIP 1 p (leBytes 2 p))
    ∧ (p ∈ s.pwr.hot → s.siteStretch p ≤ 32))
  ∧ (∀ (field : BitVec 6) (temps : List (BitVec 16)) (s : State), temps.length = 16 →
    exec (.thermalSample field temps) s =
      .next ((List.range 16).foldl (fun st j => thermalSite (16 * field.toNat + j) (temps.getD j 0).toInt st) s))

/-! ## Links (spec/11 R232-R243, R249, R256) -/

/-- R233, R235, R243: training of a native link. A stage that ends leads to the next state of Table 11-2, one that must be repeated leads nowhere; after INIT the link
comes up when the minimums of its receive buffer fit in 4,096 flits, else it FAILED with E_LINK_CFG; a link that still trains at its timeout FAILED. One that
comes up starts its sequence numbers again, keeps the partner's credits, joins its up-sets the first time since a start and raises EV_LINK_UP, and
EV_LINK_DEGRADED at half width. -/
def Slice0.NativeTraining : Prop :=
  ∀ (link : BitVec 5) (credits : List Nat) (s : State),
    let k := link.toNat
    let st := s.linkState k
    let l := s.lnk k
    let w := (lanesUsed l.lost).getD 8
    let s1 := s.setLnk k (freshLink l.lost credits)
    let s2 := { s1 with net := { s1.net with up := if l.once || s.net.up.contains k then s.net.up else (k :: s.net.up).mergeSort } }
    let s3 := ((s2.setLink k 5).setFld (F.LINK_STS_width k) w).raise EV.LINK_UP 4 k (leBytes 1 k ++ leBytes 1 w)
    exec (.linkTrainStageDone link ⟨false, credits⟩) s = .next s
    ∧ (st < 1 ∨ 4 < st → exec (.linkTrainStageDone link ⟨true, credits⟩) s = .next s)
    ∧ (1 ≤ st → st < 4 → exec (.linkTrainStageDone link ⟨true, credits⟩) s = .next (s.setLink k (st + 1)))
    ∧ (st = 4 → 4096 < s.creditSum k → exec (.linkTrainStageDone link ⟨true, credits⟩) s =
      .next (((s.setLink k 6).setFld (F.LINK_STS_code k) E.LINK_CFG).raise EV.LINK_TRAIN_FAIL 4 k (leBytes 1 k ++ leBytes 1 4)))
    ∧ (st = 4 → s.creditSum k ≤ 4096 →
      (w = 16 → exec (.linkTrainStageDone link ⟨true, credits⟩) s = .next s3)
      ∧ (w ≠ 16 → exec (.linkTrainStageDone link ⟨true, credits⟩) s =
        .next (s3.raise EV.LINK_DEGRADED 4 k (leBytes 1 k ++ leBytes 2 (lanesKept l.lost).toNat)))
      ∧ s3.linkState k = 5 ∧ s3.fld (F.LINK_STS_width k) = w ∧ (s3.lnk k).tx = 0 ∧ (s3.lnk k).rx = 4095 ∧ (s3.lnk k).replay = [] ∧ s3.mem = s.mem
      ∧ s3.cores = s.cores)
    ∧ (1 ≤ st → st ≤ 4 → exec (.linkTrainTimeout link) s =
      .next ((s.setLink k 6).raise EV.LINK_TRAIN_FAIL 4 k (leBytes 1 k ++ leBytes 1 st)))

/-- R233, R235, R237: a port of an Ethernet link that trained is UP; one that failed, or still trains at the timeout, is FAILED, with its event. A port that does not
train is not touched. -/
def Slice0.PortTraining : Prop :=
  ∀ (link : BitVec 5) (port : BitVec 1) (s : State),
    let k := link.toNat
    let pf := if port.toNat = 0 then F.LINK_STS_port_a k else F.LINK_STS_port_b k
    let fails := fun (f : Fld) (u : State) => if u.fld f = 1 then (u.setFld f 3).raise EV.LINK_TRAIN_FAIL 4 k (leBytes 1 k ++ leBytes 1 1) else u
    (s.fld pf = 1 → exec (.ethPortTrainDone link port true) s = .next (s.setFld pf 2)
      ∧ exec (.ethPortTrainDone link port false) s = .next ((s.setFld pf 3).raise EV.LINK_TRAIN_FAIL 4 k (leBytes 1 k ++ leBytes 1 1)))
    ∧ (s.fld pf ≠ 1 → ∀ ok, exec (.ethPortTrainDone link port ok) s = .next s)
    ∧ (s.linkState k < 1 ∨ 4 < s.linkState k →
      exec (.linkTrainTimeout link) s = .next (fails (F.LINK_STS_port_b k) (fails (F.LINK_STS_port_a k) s)))

/-- R236, R256: a lost lane that a native link uses takes it down to train at one half of its lanes, or FAILED when no half works; one it does not use is only noted;
on an Ethernet link it takes the lane's port down. A retrain takes down what is up and starts at full width, with no code; a module whose rim converters
are off trains none. -/
def Slice0.LanesAndRetrain : Prop :=
  ∀ (link : BitVec 5) (lane : BitVec 4) (s : State),
    let k := link.toNat
    let st := s.linkState k
    let l := s.lnk k
    let lost := l.lost ||| (1 <<< lane.toNat : BitVec 16)
    let s1 := s.setLnk k { l with lost := lost }
    let used := (lanesKept l.lost).getLsbD lane.toNat = true
    let port := lane.toNat / 8
    let up := s.fld (if port = 0 then F.LINK_STS_port_a k else F.LINK_STS_port_b k) = 2
    let down := fun (f : Fld) (p : Nat) (u : State) => if u.fld f = 2 then portDown k p u else u
    let s2 := down (F.LINK_STS_port_b k) 1 (down (F.LINK_STS_port_a k) 0 (linkDown k 5 s))
    (1 ≤ st → st ≤ 5 →
      (¬ used → exec (.laneLoss link lane) s = .next s1)
      ∧ (used → lanesUsed lost = none → exec (.laneLoss link lane) s = .next ((linkDown k 2 s1).setLink k 6))
      ∧ (used → lanesUsed lost ≠ none → exec (.laneLoss link lane) s = .next ((linkDown k 2 s1).setLink k 1)))
    ∧ (st < 1 ∨ 5 < st → (up → exec (.laneLoss link lane) s = .next (portDown k port s)) ∧ (¬ up → exec (.laneLoss link lane) s = .next s))
    ∧ (s.pwr.off = true → exec (.linkRetrain link) s = .next s)
    ∧ (s.pwr.off = false →
      exec (.linkRetrain link) s = .next (linkTrain k ((s2.setLnk k { s2.lnk k with lost := 0 }).setFld (F.LINK_STS_code k) 0)))

/-- R22, R233: where training begins: SIGNAL for a native link, both ports for an Ethernet link; a disabled link and one of the lost half stay DISABLED. -/
def Slice0.TrainingBegins : Prop :=
  ∀ (k : Nat) (s : State), k < 32 →
    let mode := s.fld (F.LINK_CFG_mode k)
    let t := linkTrain k s
    (s.linkKept k = false → t.linkState k = 7)
    ∧ (s.linkKept k = true →
      (mode = 0 → t.linkState k = 1 ∧ t.fld (F.LINK_STS_port_a k) = 0 ∧ t.fld (F.LINK_STS_port_b k) = 0)
      ∧ (mode = 1 → t.linkState k = 0 ∧ t.fld (F.LINK_STS_port_a k) = 1 ∧ t.fld (F.LINK_STS_port_b k) = 1)
      ∧ (2 ≤ mode → t.linkState k = 7 ∧ t.fld (F.LINK_STS_port_a k) = 0 ∧ t.fld (F.LINK_STS_port_b k) = 0))
    ∧ t.mem = s.mem ∧ t.cores = s.cores ∧ t.net = s.net ∧ t.events = s.events ∧ (∀ j, j < 32 → j ≠ k → t.linkState j = s.linkState j)

/-- R233-R236, R243, R256: training. The cause numbers of EV_LINK_DOWN are log 96; that a link which comes UP first joins its up-sets at once is log 97. -/
def Obligations.LinkTraining : Prop := Slice0.NativeTraining ∧ Slice0.PortTraining ∧ Slice0.LanesAndRetrain ∧ Slice0.TrainingBegins

/-- R234, R240, R242: flits arrive. A link that is not UP takes none; a peer's reset takes the link down. Codewords are counted; a flit that fails its FEC or its CRC is not
accepted, and the next flit sent carries a nak. A whole flit acknowledges; with a nak it has every flit that waits sent again, and takes the link down after the
eighth time; it is accepted when its sequence number is the next, and answered by a nak when it is not. Then the link sends what it can. -/
def Slice0.FlitArrives : Prop :=
  ∀ (link : BitVec 5) (f : Flit) (s : State),
    let k := link.toNat
    let n := fieldOf f.w0 0 12
    let s1 := (s.bumpBy (F.LINK_FEC_CORR_CNT k) f.corrected).bumpBy (F.LINK_FEC_UNCORR_CNT k) f.uncorr
    let s2 := s1.setLnk k ((s1.lnk k).acked (fieldOf f.w0 12 12))
    let worn := ∃ t ∈ (s2.lnk k).replay, 8 ≤ t.tries
    let s3 := if f.w0.getLsbD 24 then replayAll k s2 else s2
    (s.linkUp k = false → exec (.ofpFlitReceive link f) s = .next s)
    ∧ (s.linkUp k = true →
      (f.reset = true → exec (.ofpFlitReceive link f) s = .next (linkFault k 3 s))
      ∧ (f.reset = false → f.fecOk = false ∨ f.crcOk = false → exec (.ofpFlitReceive link f) s = .next (s1.setLnk k { s1.lnk k with nak := true }))
      ∧ (f.reset = false → f.fecOk = true → f.crcOk = true →
        (f.w0.getLsbD 24 = true → worn → exec (.ofpFlitReceive link f) s = .next (linkFault k 1 s2))
        ∧ (f.w0.getLsbD 24 = false ∨ ¬ worn →
          (n = ((s3.lnk k).rx + 1) % 4096 → exec (.ofpFlitReceive link f) s = .next ((flitAccept k f s3).pumpLink k))
          ∧ (n ≠ ((s3.lnk k).rx + 1) % 4096 →
            exec (.ofpFlitReceive link f) s = .next ((s3.setLnk k { s3.lnk k with nak := true }).pumpLink k)))))

/-- R241, R243: an accepted flit sets the number received, returns the credit that it carries, and lies in the receive buffer while its packet is there; the header of a
packet is kept. A malformed one drops its packet, which is counted and reported once, and whose flits are free again at its end. -/
def Slice0.FlitAccepted : Prop :=
  ∀ (k : Nat) (f : Flit) (s : State),
    let l := s.lnk k
    let head := f.w0.getLsbD 25
    let tail := f.w0.getLsbD 26
    let vc := fieldOf f.w0 27 4
    let cv := fieldOf f.w0 31 4
    let back := fieldOf f.w0 35 12
    let inside := head = true ∨ l.part ≠ none
    let bad := inside ∧ flitBad f head = true
    let was := head = false ∧ l.bad = true
    let n := (if head then 0 else l.part.getD 0) + 1
    let t := flitAccept k f s
    let heads := if head then Sparse.put l.heads vc (leBytes 8 f.w0.toNat ++ leBytes 8 f.w1.toNat ++ leBytes 8 f.w2.toNat ++ leBytes 8 f.w3.toNat) else l.heads
    let s1 := s.setLnk k { l with
      rx := fieldOf f.w0 0 12
      used := if back = 0 then l.used else Sparse.put l.used cv (Sparse.get l.used 0 cv - back)
      held := if inside then Sparse.put l.held vc (Sparse.get l.held 0 vc + 1) else l.held
      heads := heads
      part := if inside ∧ tail = false then some n else none
      bad := decide ((was ∨ bad) ∧ tail = false) }
    let s2 := (s1.bump (F.LINK_BAD_PKT_CNT k)).raise EV.LINK_BAD_PKT 4 k (leBytes 1 k ++ Sparse.get heads [] vc)
    (¬ bad → ¬ was → t = s1)
    ∧ (bad → ¬ was → t = if tail then s2.freeFlits k vc n else s2)
    ∧ (was → t = if tail then s1.freeFlits k vc n else s1)

/-- R242: an idle link sends a null flit with the next sequence number, kept for replay; one that is not UP, or has anything to send, or whose replay buffer is full
sends none. -/
def Slice0.NullFlits : Prop :=
  ∀ (link : BitVec 5) (s : State),
    let k := link.toNat
    let l := s.lnk k
    let idle := s.linkUp k = true ∧ l.queue = [] ∧ l.out = [] ∧ l.replay.length < 2048
    (¬ idle → exec (.nullFlitSend link) s = .next s)
    ∧ (idle → Slice0.Does (.nullFlitSend link) s (fun t => (t.lnk k).tx = (l.tx + 1) % 4096 ∧ (t.lnk k).rx = l.rx ∧ (t.lnk k).nak = false
        ∧ (∃ g, (t.lnk k).replay = l.replay ++ [⟨l.tx, 0, g⟩]) ∧ (∃ g, t.net.sent = .flit k g :: s.net.sent) ∧ t.regs = s.regs ∧ t.mem = s.mem
        ∧ t.cores = s.cores ∧ t.events = s.events ∧ ∀ j, j ≠ k → t.lnk j = s.lnk j))

/-- R256: a link goes down when it has been idle or without credit too long: it leaves its up-set, the groups it is in are held, EV_LINK_DOWN names the cause, and its
requests fail with E_LINK_DOWN; with auto_retrain it trains again. Any other link does not change. -/
def Slice0.LinkTimeouts : Prop :=
  (∀ (link : BitVec 5) (vc : BitVec 4) (s : State),
    let k := link.toNat
    (s.linkState k ≠ 5 → exec (.linkIdleTimeout link) s = .next s ∧ exec (.linkCreditTimeout link vc) s = .next s)
    ∧ (s.linkState k = 5 →
      (let d := linkDown k 0 s
       (d.flag (F.LINK_CFG_auto_retrain k) = false → exec (.linkIdleTimeout link) s = .next d)
       ∧ (d.flag (F.LINK_CFG_auto_retrain k) = true → exec (.linkIdleTimeout link) s = .next (linkTrain k d)))
      ∧ (let d := linkDown k 4 s
         (d.flag (F.LINK_CFG_auto_retrain k) = false → exec (.linkCreditTimeout link vc) s = .next d)
         ∧ (d.flag (F.LINK_CFG_auto_retrain k) = true → exec (.linkCreditTimeout link vc) s = .next (linkTrain k d)))))
  ∧ (∀ (k cause : Nat) (s : State), k < 32 → cause < 256 → s.linkState k = 5 →
    let s1 := { s with net := { s.net with
      up := s.net.up.filter (fun j => decide (j ≠ k)), joining := s.net.joining.filter (fun j => decide (j ≠ k))
      held := (s.net.held ++ s.groupsOf k).dedup
      links := Sparse.put s.net.links k { lost := (s.lnk k).lost, once := (s.lnk k).once } } }
    let s2 := (s1.setLink k 0).raise EV.LINK_DOWN 4 k (leBytes 1 k ++ leBytes 1 cause)
    linkDown k cause s = failReqs (fun r => r.qp.isNone && decide (r.link = k)) E.LINK_DOWN s2
    ∧ s2.linkState k = 0 ∧ k ∉ s2.net.up ∧ k ∉ s2.net.joining
    ∧ (∀ g, g < 64 → (s.reg (F.DEV_LGRP_MASK g).addr).getLsbD k = true → g ∈ s2.net.held)
    ∧ (∀ j, j < 32 → j ≠ k → s2.linkState j = s.linkState j ∧ s2.lnk j = s.lnk j))
  ∧ (∀ (k cause : Nat) (s : State), s.linkState k ≠ 5 → linkDown k cause s = s)

/-- R249, R256: links that are UP join their up-sets by admission, which holds the groups of those that are to join; the switch waits while a request of a held group is
outstanding, then the new up-sets apply, what was held at the rim is sent and every request of a core that was held is issued again, in the order in which they were
issued (R253). -/
def Slice0.UpSets : Prop :=
  (∀ s : State, Slice0.Does .devLgrpAdmit s (fun t =>
      (∀ k, k ∈ t.net.joining ↔ k ∈ s.net.joining ∨ (k < 32 ∧ s.linkUp k = true ∧ k ∉ s.net.up))
      ∧ (∀ k g, k < 32 → s.linkUp k = true → k ∉ s.net.up → k ∉ s.net.joining → g ∈ s.groupsOf k → g ∈ t.net.held)
      ∧ (∀ g ∈ s.net.held, g ∈ t.net.held)
      ∧ t.net.up = s.net.up ∧ t.net.reqs = s.net.reqs ∧ t.mem = s.mem ∧ t.regs = s.regs ∧ t.cores = s.cores))
  ∧ (∀ s : State,
    let waits := ∃ r ∈ s.net.reqs, r.qp = none ∧ ∃ g ∈ s.net.held, (s.reg (F.DEV_LGRP_MASK g).addr).getLsbD r.link = true
    let s1 := { s with
      net := { s.net with held := [], joining := [], rim := [], up := (s.net.up ++ s.net.joining).dedup.mergeSort } }
    let s2 := s.net.rim.foldl (fun st q => match st.sendEng q with
      | (u, none) => u
      | (u, some code) => answer q.src 0 (.fail (BitVec.ofNat 16 code)) u) s1
    let s3 := s.heldReqs.foldl reissue s2
    (waits → exec .linkDrainSwitchDone s = .next s)
    ∧ (¬ waits → exec .linkDrainSwitchDone s = .next (s3.cores.foldl (fun st p => st.settle p.1) s3)))
  ∧ (∀ s : State, s.heldReqs.Pairwise (fun a b => a.1 ≤ b.1)
    ∧ ∀ n c, (n, c) ∈ s.cores →
      (∀ r g l rest i q, (r, g) ∈ c.rings → g.lists = l :: rest → l.reqs[i]? = some q → q.stage = .held → (q.ord, n, r, i) ∈ s.heldReqs)
      ∧ (∀ k v q, (k, v) ∈ c.slots → v.req = some q → q.stage = .held → (q.ord, n, 16 + k, 0) ∈ s.heldReqs))
  ∧ (∀ (s : State) (o n i : Nat) (q : Req), q.stage = .held →
    (∀ r l rest, r < 16 → (s.ring n r).lists = l :: rest → l.reqs[i]? = some q → reissue s (o, n, r, i) = ringIssue n r s (s.ring n r) l i q)
    ∧ (∀ k v, Sparse.find (s.core n).slots k = some v → v.req = some q → reissue s (o, n, 16 + k, i) = slotIssue n k v q.data s))

/-- R234, R240-R243, R249, R256: flits, links that go down, up-sets. The cause numbers of EV_LINK_DOWN are log 96, the packet that a malformed one is reported with log 98, the codewords that come
with a flit log 127, replayed and null flits log 128. -/
def Obligations.LinkTraffic : Prop :=
  Slice0.FlitArrives ∧ Slice0.FlitAccepted ∧ Slice0.NullFlits ∧ Slice0.LinkTimeouts ∧ Slice0.UpSets

/-! ## The fabric (spec/10 R215-R224, R226, R229, R230) -/

/-- R37, R196, R220, R318, R322: an access to local memory. Edge memory is read as it is, undefined under a Snowpack's body; a write of it waits while a marking or a
notice holds the page. A core's memory is reached through its port, which absorbs an access while its site takes no packets, and makes it wait in HOLD; what
has no place fails with E_ADDR_UNMAPPED. -/
def Slice0.LocalAccess : Prop :=
  ∀ (remote bulk : Bool) (org : Option Nat) (a n : Nat) (bs : List Byte) (s : State),
    (s.place a n = .edge → s.bodyHit none a n = false → busRead remote a n s = (s, .ok (s.mem.bytes a n)))
    ∧ (s.place a n = .hole → busRead remote a n s = (s, .fail E.ADDR_UNMAPPED))
    ∧ (s.place a n = .dev → busRead true a n s = (s, .fail E.ADDR_UNMAPPED))
    ∧ (∀ c, s.place a n = .mem c →
      (s.portOpen c = false → busRead remote a n s = (s.bump F.CORE_MAP_ABSORB_CNT, .fail E.FABRIC_DEST_DOWN))
      ∧ (s.portOpen c = true → s.flag F.PWR_STS_hold = true → busRead remote a n s = (s.kick c, .wait))
      ∧ (s.portOpen c = true → s.flag F.PWR_STS_hold = false → busRead remote a n s = (s.kick c, .ok ((s.kick c).mem.bytes a n))))
    ∧ (s.place a bs.length = .edge →
      (s.clear a bs.length = false → busWrite org remote bulk a bs s = (s.ask a bs.length, .wait))
      ∧ (s.clear a bs.length = true → busWrite org remote bulk a bs s = (s.store a bs, .ok [])))
    ∧ (s.place a bs.length = .hole → busWrite org remote bulk a bs s = (s, .fail E.ADDR_UNMAPPED))
    ∧ (s.place a bs.length = .dev → busWrite org true bulk a bs s = (s, .fail E.ADDR_UNMAPPED))
    ∧ (∀ c, s.place a bs.length = .mem c →
      (s.portOpen c = false →
        busWrite org remote bulk a bs s = (s.bump F.CORE_MAP_ABSORB_CNT, if bulk then .lost else .fail E.FABRIC_DEST_DOWN))
      ∧ (s.portOpen c = true → s.flag F.PWR_STS_hold = true → busWrite org remote bulk a bs s = (s.kick c, .wait))
      ∧ (s.portOpen c = true → s.flag F.PWR_STS_hold = false → busWrite org remote bulk a bs s = ((s.kick c).store a bs, .ok [])))

/-- R215, R222, R224, R229: an input buffer holds the flits of its port and channel; a packet enters it behind those that wait there, while it has room for the packet's first
flit. An endpoint's packet that has no credit, or comes behind one of its channel that has none, waits at the endpoint, in order; one that enters is counted at the
level of its port. -/
def Slice0.FabricBuffers : Prop :=
  ∀ (x y port : Nat) (p : FabPkt) (s : State),
    let key := fabKey x y port p.vc
    fabCap x y port = (if 5 ≤ port ∨ (port = ptE ∧ x % 4 = 3) ∨ (port = ptW ∧ x % 4 = 0) ∨ (port = ptS ∧ y % 4 = 3) ∨ (port = ptN ∧ y % 4 = 0)
      then 16 else 8)
    ∧ (s.fabRoom x y port p.vc = true ↔ ((s.fabBuf key).map FabPkt.flits).sum < fabCap x y port)
    ∧ (s.fabPush x y port p).fabBuf key = s.fabBuf key ++ [p]
    ∧ (∀ j, j ≠ key → (s.fabPush x y port p).fabBuf j = s.fabBuf j)
    ∧ (s.fabPush x y port p).mem = s.mem ∧ (s.fabPush x y port p).regs = s.regs ∧ (s.fabPush x y port p).cores = s.cores
    ∧ (s.fabWaits key = [] → s.fabRoom x y port p.vc = true →
      s.fabInject x y port p = (s.fabPush x y port p).bumpBy (F.FABRIC_FLIT_CNT (fabLevel x y port)) p.flits)
    ∧ (s.fabWaits key ≠ [] ∨ s.fabRoom x y port p.vc = false →
      (s.fabInject x y port p).fabWaits key = s.fabWaits key ++ [p] ∧ (s.fabInject x y port p).fab.bufs = s.fab.bufs
      ∧ (s.fabInject x y port p).regs = s.regs ∧ (s.fabInject x y port p).mem = s.mem ∧ (s.fabInject x y port p).cores = s.cores)

/-- R218: dimension order: X first, then Y, then the exit that the header names. -/
def Slice0.DimensionOrder : Prop :=
  ∀ (x y : Nat) (p : FabPkt),
    (x < p.dx → fabPort x y p = 1) ∧ (p.dx < x → fabPort x y p = 3)
    ∧ (x = p.dx → y < p.dy → fabPort x y p = 2) ∧ (x = p.dx → p.dy < y → fabPort x y p = 0)
    ∧ (x = p.dx → y = p.dy → (p.dport = 0 → fabPort x y p = 4) ∧ (p.dport ≠ 0 → 5 ≤ fabPort x y p))

/-- R218, R220, R221, R222: FABRIC_PACKET_ARRIVE. A packet whose type does not travel on its channel is absorbed, counted and reported. Any other enters the input buffer by
which it comes, when there is room, and waits where it is when there is none; at its source's own port it is injected: the route table gives its header, and
one for the lost half is refused. Then the packets of the mesh advance. A router of the lost half takes none, nor does one whose always-on rail has failed (R338; log
206), and one for an exit that does not exist stays. -/
def Slice0.FabricArrival : Prop :=
  ∀ (x y : BitVec 5) (p : FabPkt) (s : State),
    let i := s.fabIn x.toNat y.toNat p
    let q := if 4 ≤ i then s.translate p else p
    let run := exec (.fabricPacketArrive x y p) s
    (s.routerLost x.toNat = true ∨ s.routerDead x.toNat = true → run = .next s)
    ∧ (s.routerLost x.toNat = false → s.routerDead x.toNat = false →
      (fabVc p.type ≠ some p.vc → run = .next ((s.bump F.FABRIC_BAD_PKT_CNT).raise EV.FABRIC_BAD_PKT 0 0
        (leBytes 1 x.toNat ++ leBytes 1 y.toNat ++ leBytes 8 p.hdr.toNat)))
      ∧ (fabVc p.type = some p.vc →
        (exitAt q.dx q.dy q.dport = false → run = .next s)
        ∧ (exitAt q.dx q.dy q.dport = true →
          (i < 4 → s.fabRoom x.toNat y.toNat i q.vc = false → run = .next s)
          ∧ (i < 4 → s.fabRoom x.toNat y.toNat i q.vc = true → run = .next (fabTick (s.fabPush x.toNat y.toNat i q)))
          ∧ (4 ≤ i → s.routerLost q.dx = false → run = .next (fabTick (s.fabInject x.toNat y.toNat i q)))
          ∧ (4 ≤ i → s.routerLost q.dx = true → run = .next (fabTick (s.fabRefuse x.toNat y.toNat i q))))))

/-- R226: an output port grants one packet: the requesters are tried in turn after the pair of input and channel granted last (log 204 names their order); the first that
has a packet for the port that can leave is granted, and becomes the one granted last. The channels of an endpoint take turns at injecting what waits there. -/
def Slice0.Arbitration : Prop :=
  (∀ (x y port : Nat) (s : State), fabGrant x y port s =
    fabFirst x y port ((List.range 36).map (fun j => (Sparse.get s.fab.last 35 (fabOut x y port) + 1 + j) % 36)) s)
  ∧ (∀ (x y port r : Nat) (rs : List Nat) (s : State),
    let key := fabKey x y (r / 4) (r % 4)
    (s.fabBuf key = [] → fabFirst x y port (r :: rs) s = fabFirst x y port rs s)
    ∧ (∀ p l, s.fabBuf key = p :: l →
      (fabPort x y p ≠ port → fabFirst x y port (r :: rs) s = fabFirst x y port rs s)
      ∧ (fabPort x y p = port → (fabPass x y port p s).2 = false → fabFirst x y port (r :: rs) s = fabFirst x y port rs (fabPass x y port p s).1)
      ∧ (fabPort x y p = port → (fabPass x y port p s).2 = true →
        (fabFirst x y port (r :: rs) s).2 = true
        ∧ Sparse.get (fabFirst x y port (r :: rs) s).1.fab.last 35 (fabOut x y port) = r
        ∧ (fabFirst x y port (r :: rs) s).1.fabBuf key = (((fabPass x y port p s).1).fabBuf key).drop 1)))
  ∧ (∀ (x y port : Nat) (s : State), fabFirst x y port [] s = (s, false))
  ∧ (∀ (x y port : Nat) (s : State),
    let last := Sparse.get s.fab.last 3 (fabOut x y (port + 5))
    let can := fun (v : Nat) => !(s.fabWaits (fabKey x y port v)).isEmpty && s.fabRoom x y port v
    (((List.range 4).map (fun j => (last + 1 + j) % 4)).find? can = none → fabEndpoint x y port s = (s, false))
    ∧ (∀ v p l, ((List.range 4).map (fun j => (last + 1 + j) % 4)).find? can = some v → s.fabWaits (fabKey x y port v) = p :: l →
      (fabEndpoint x y port s).2 = true
      ∧ (fabEndpoint x y port s).1.fabWaits (fabKey x y port v) = l
      ∧ Sparse.get (fabEndpoint x y port s).1.fab.last 3 (fabOut x y (port + 5)) = v
      ∧ (p.vc = v → (fabEndpoint x y port s).1.fabBuf (fabKey x y port v) = s.fabBuf (fabKey x y port v) ++ [p])))

/-- R22, R220, R222, R229, R338: a packet leaves a router. Toward a neighbour it needs a credit there, does not cross the mid-seam in half-wafer mode, and is lost at one
whose always-on rail has failed (log 206). At a core's port it is
absorbed and counted while the site takes no packets, a request answered with E_FABRIC_DEST_DOWN; in HOLD it waits, as work for the site; else it is executed. At
a rim port it goes to the stack, or to the link. What leaves is counted at the level of its port. -/
def Slice0.FabricPass : Prop :=
  ∀ (x y : Nat) (p : FabPkt) (s : State),
    let site := 16 * (8 * (y / 4) + x / 4) + 4 * (y % 4) + x % 4
    let counted := fun (port : Nat) (r : State × Bool) => (if r.2 then r.1.bumpBy (F.FABRIC_FLIT_CNT (fabLevel x y port)) p.flits else r.1, r.2)
    let closed := s.sitePower site < 2 ∨ s.fld (F.CORE_MAP_SITE_STATE_state site) = 3
    (∀ port, port < 4 →
      let n := fabNext x y port
      (s.halfMode = true → fabLevel x y port = 3 → fabPass x y port p s = (s.fabRefuse x y 4 p, true))
      ∧ (s.halfMode = false ∨ fabLevel x y port ≠ 3 →
        (s.routerDead n.1 = true → fabPass x y port p s = (s.bumpBy (F.FABRIC_FLIT_CNT (fabLevel x y port)) p.flits, true))
        ∧ (s.routerDead n.1 = false → s.fabRoom n.1 n.2.1 n.2.2 p.vc = false → fabPass x y port p s = (s, false))
        ∧ (s.routerDead n.1 = false → s.fabRoom n.1 n.2.1 n.2.2 p.vc = true →
          fabPass x y port p s = (((s.out (.fab x y port p)).fabPush n.1 n.2.1 n.2.2 p).bumpBy (F.FABRIC_FLIT_CNT (fabLevel x y port)) p.flits, true))))
    ∧ (closed → p.vc = 0 → s.fabRoom x y 4 1 = false → fabPass x y 4 p s = (s, false))
    ∧ (closed → p.vc ≠ 0 → fabPass x y 4 p s = (s.bump F.CORE_MAP_ABSORB_CNT, true))
    ∧ (closed → p.vc = 0 → s.fabRoom x y 4 1 = true →
      fabPass x y 4 p s = ((s.bump F.CORE_MAP_ABSORB_CNT).fabRespond x y 4 p 15 (leBytes 2 E.FABRIC_DEST_DOWN), true))
    ∧ (¬ closed → s.flag F.PWR_STS_hold = true → fabPass x y 4 p s = (s.kickSite site, false))
    ∧ (¬ closed → s.flag F.PWR_STS_hold = false → fabPass x y 4 p s = counted 4 (fabExecute x y 4 p (s.kickSite site)))
    ∧ (∀ port, 5 ≤ port →
      (isLinkEp p.dst = true → fabPass x y port p s = counted port (fabToLink x y port (p.dst - 0x420) p s))
      ∧ (isLinkEp p.dst = false → fabPass x y port p s = counted port (fabExecute x y port p s)))

/-- R218, R220, R221, R223: a request at its destination is executed there and answered by the port it came to, once there is room for the answer: a read with its data, a
write or bulk write with its acknowledgement, an atomic with the old value, each with its code when it fails. A response ends at its destination. -/
def Slice0.FabricExecution : Prop :=
  ∀ (x y port : Nat) (p : FabPkt) (s : State),
    let a := p.local_
    let room := s.fabRoom x y port 1 = true
    let org := if p.src < 896 then some p.src else none
    (p.type = 0 ∨ p.type = 1 ∨ p.type = 2 ∨ p.type = 6 → ¬ room → fabExecute x y port p s = (s, false))
    ∧ (p.type = 3 ∨ p.type = 4 ∨ p.type = 5 ∨ p.type = 15 → fabExecute x y port p s = (s, true))
    ∧ (p.type = 0 → room → 0 < p.len → p.len ≤ 2048 →
      (∀ t data, busRead false a p.len s = (t, .ok data) → fabExecute x y port p s = (t.fabData x y port p data, true))
      ∧ (∀ t code, busRead false a p.len s = (t, .fail code) → fabExecute x y port p s = (t.fabFail x y port p code, true))
      ∧ (∀ t, busRead false a p.len s = (t, .wait) → fabExecute x y port p s = (t, false)))
    ∧ (p.type = 1 ∨ p.type = 6 → room → 0 < p.data.length → p.data.length ≤ 512 * p.flits →
      let bulk := decide (p.type = 6)
      (∀ t data, busWrite org false bulk a p.data s = (t, .ok data) → fabExecute x y port p s = (t.fabRespond x y port p 4 [], true))
      ∧ (∀ t code, busWrite org false bulk a p.data s = (t, .fail code) → fabExecute x y port p s = (t.fabFail x y port p code, true))
      ∧ (∀ t, busWrite org false bulk a p.data s = (t, .lost) → fabExecute x y port p s = (t, true))
      ∧ (∀ t, busWrite org false bulk a p.data s = (t, .wait) → fabExecute x y port p s = (t, false)))
    ∧ (p.type = 2 → room →
      let r := busAtom false p.aop.toNat (if p.aw then 8 else 4) a (numAt p.data 0 8) (numAt p.data 8 8) s
      (∀ t old, r = (t, .ok old) → fabExecute x y port p s = (t.fabRespond x y port p 5 old, true))
      ∧ (∀ t code, r = (t, .fail code) → fabExecute x y port p s = (t.fabFail x y port p code, true))
      ∧ (∀ t, r = (t, .wait) → fabExecute x y port p s = (t, false)))
    ∧ (∀ data, s.fabData x y port p data =
      if 1024 < data.length then (s.fabRespond x y port p 3 (data.take 1024)).fabRespond x y port p 3 (data.drop 1024)
      else s.fabRespond x y port p 3 (data.take 1024))
    ∧ (∀ type data, ∃ q : FabPkt, s.fabRespond x y port p type data = s.fabInject x y port q ∧ q.data = data ∧ q.addr = p.addr)
    ∧ (∀ code, s.fabFail x y port p code = if p.vc = 0 then s.fabRespond x y port p 15 (leBytes 2 code) else s)

/-- R218-R224, R226, R229: packets on the fabric. Where packets wait and what takes no buffer is logs 99 and 193, an AT of an undefined operation log 98, the order of the
requesters log 204, a router without its rail log 206. -/
def Obligations.FabricPackets : Prop :=
  Slice0.LocalAccess ∧ Slice0.FabricBuffers ∧ Slice0.DimensionOrder ∧ Slice0.FabricArrival ∧ Slice0.Arbitration ∧ Slice0.FabricPass
    ∧ Slice0.FabricExecution

/-- R229, R230: one port's reading: the cycles in which it waited are counted at its level, and for a seam also for its field's boundary, the part that a fraction of 1/256
leaves open being free, and never more than the window (log 193); at its level's threshold it raises EV_FABRIC_PRESSURE, or is counted when its level has raised one in this
window. A threshold of 0 raises nothing. -/
def Slice0.pressed (p : State × List Nat) (g : PressSample) : State × List Nat :=
  let part := 2 ^ p.1.fld F.FABRIC_PRESS_CFG_win_log2 / 256
  let cycles := Nat.min (2 ^ p.1.fld F.FABRIC_PRESS_CFG_win_log2) (g.frac * part + (Config.freeWord p.1.free).toNat % part)
  let s1 := (p.1.bumpBy (F.FABRIC_PRESS_CNT g.level) cycles).tick
  let s2 := if g.level = 2 ∨ g.level = 3 then
      s1.bumpBy (F.FIELD_SEAM_PRESS_CNT (8 * (g.y.toNat / 4) + g.x.toNat / 4) (g.port.toNat % 4)) cycles else s1
  let thr := fieldOf (p.1.reg F.FABRIC_PRESS_CFG_win_log2.addr) (8 + 8 * g.level) 8
  if thr = 0 ∨ g.frac < thr then (s2, p.2)
  else if g.level ∈ p.2 then (s2.bump F.FABRIC_PRESS_SUPP_CNT, p.2)
  else (s2.raise EV.FABRIC_PRESSURE 0 0
    (leBytes 1 g.level ++ leBytes 1 g.x.toNat ++ leBytes 1 g.y.toNat ++ leBytes 1 g.port.toNat ++ leBytes 2 g.frac), g.level :: p.2)

/-- R229, R230: a window reads its ports one by one. -/
def Obligations.FabricPressure : Prop :=
  ∀ (ports : List PressSample) (s : State), (∀ g ∈ ports, g.level ≤ 4) →
    exec (.fabricPressWindow ports) s = .next (ports.foldl Slice0.pressed (s, [])).1

/-! ## Requests of other nodes (spec/11 R241, R247, R252, R253, R255) -/

/-- The packets that reach a unit of this engine: type of Table 11-5, and the length or field that the type allows. -/
def Slice0.requests : List ((OfpPkt → Instr) × BitVec 4 × (OfpPkt → Prop)) :=
  [(.ofpGet, 0, fun p => 0 < p.len ∧ p.len ≤ 2048), (.ofpPut, 1, fun p => 0 < p.data.length ∧ p.data.length ≤ 2048),
   (.ofpAtom, 2, fun p => p.data.length = 16 ∧ p.aop.toNat ≤ 9), (.ofpCopy, 3, fun p => p.data.length = 16), (.ofpWseg, 9, fun _ => True),
   (.ofpGbk, 10, fun p => fieldOf p.addr 40 2 < 3)]

/-- R241, R247, R253: a packet is taken up when its link is UP, its type travels on its virtual channel and its length is one that the type allows; any other changes
nothing. It takes effect in the order of its flow: behind what waits of the flow, or a COPY of it in progress, it waits; what cannot take effect now waits too;
and before it what waits already is tried in order. -/
def Slice0.RequestOrder : Prop :=
  (∀ r ∈ Slice0.requests, ∀ (p : OfpPkt) (s : State),
    let i : Inb := .ofp { p with op := r.2.1 }
    let taken := s.takes p r.2.1.toNat = true ∧ r.2.2 p
    (¬ taken → exec (r.1 p) s = .next s)
    ∧ (taken → s.net.inb = [] → s.flowBusy i = true → exec (r.1 p) s = .next (s.waits i))
    ∧ (taken → s.net.inb = [] → s.flowBusy i = false →
      ((takeUp i s).2 = true → exec (r.1 p) s = .next (takeUp i s).1) ∧ ((takeUp i s).2 = false → exec (r.1 p) s = .next ((takeUp i s).1.waits i)))
    ∧ (taken → s.net.inb ≠ [] → exec (r.1 p) s = .next (inbTurn (s.net.inb.foldl inbTurn { s with net := { s.net with inb := [] } }) i)))
  ∧ (∀ (i : Inb) (s : State),
    (s.flowBusy i = true → inbTurn s i = s.waits i)
    ∧ (s.flowBusy i = false → (takeUp i s).2 = true → inbTurn s i = (takeUp i s).1)
    ∧ (s.flowBusy i = false → (takeUp i s).2 = false → inbTurn s i = (takeUp i s).1.waits i)
    ∧ (s.waits i).net.inb = s.net.inb ++ [i] ∧ (s.waits i).mem = s.mem ∧ (s.waits i).regs = s.regs ∧ (s.waits i).cores = s.cores)

/-- R37, R255: what a memory request of another node is refused with: device registers are reached only locally; anything else must lie in one valid window with the
permission. -/
def Slice0.Refused : Prop :=
  ∀ (perm a n : Nat) (s : State),
    let window := ∃ i, i < 16 ∧ s.flag (F.DEV_INB_WIN_valid i) = true
      ∧ s.flag (match perm with | 0 => F.DEV_INB_WIN_r i | 1 => F.DEV_INB_WIN_w i | _ => F.DEV_INB_WIN_atom i) = true
      ∧ s.fld (F.DEV_INB_WIN_base i) * 4096 ≤ a ∧ a + n ≤ s.fld (F.DEV_INB_WIN_base i) * 4096 + s.fld (F.DEV_INB_WIN_size i) * 4096
    (s.place a n = .dev → s.refusal perm a n none = some E.ADDR_UNMAPPED)
    ∧ (s.place a n ≠ .dev → window → s.refusal perm a n none = none)
    ∧ (s.place a n ≠ .dev → ¬ window → s.refusal perm a n none = some E.REMOTE_ACCESS)

/-- R252, R255: GET, PUT and ATOM of another node as they take effect: refused, answered by ERR with the code; else the access is made, and answered by DATA, ACK or ATOMR
with the old value, or by ERR with the code it fails with; one that must wait waits, also for a credit of the fabric on its path or behind a packet of its flow there (R222,
R224; log 193). -/
def Slice0.RemoteAccess : Prop :=
  ∀ (p : OfpPkt) (s : State),
    let a := p.addr.toNat
    let n := p.data.length
    let w := if p.aw then 8 else 4
    let rim := 0x420 + p.link.toNat
    let r := busAtom true p.aop.toNat w a (numAt p.data 0 8) (numAt p.data 8 8) s
    (p.op = 0 →
      (∀ code, s.refusal 0 a p.len none = some code → takeUp (.ofp p) s = (s.reply p 7 code [], true))
      ∧ (s.refusal 0 a p.len none = none → s.fabOpen rim a 0 = false → takeUp (.ofp p) s = (s, false))
      ∧ (s.refusal 0 a p.len none = none → s.fabOpen rim a 0 = true →
        (∀ t data, busRead true a p.len s = (t, .ok data) → takeUp (.ofp p) s = ((t.carry rim a 0 data.length).reply p 4 0 data, true))
        ∧ (∀ t code, busRead true a p.len s = (t, .fail code) → takeUp (.ofp p) s = (t.reply p 7 code [], true))
        ∧ (∀ t, busRead true a p.len s = (t, .wait) → takeUp (.ofp p) s = (t, false))))
    ∧ (p.op = 1 →
      (∀ code, s.refusal 1 a n none = some code → takeUp (.ofp p) s = (s.reply p 7 code [], true))
      ∧ (s.refusal 1 a n none = none → s.fabOpen rim a 2 = false → takeUp (.ofp p) s = (s, false))
      ∧ (s.refusal 1 a n none = none → s.fabOpen rim a 2 = true →
        (∀ t d, busWrite none true true a p.data s = (t, .ok d) → p.srcEp.toNat ≠ 0x3F2 → takeUp (.ofp p) s = ((t.carry rim a n 0).reply p 5 0 [], true))
        ∧ (∀ t d, busWrite none true true a p.data s = (t, .ok d) → p.srcEp.toNat = 0x3F2 →
          takeUp (.ofp p) s = ((ckLands a p.data (t.carry rim a n 0)).reply p 5 0 [], true))
        ∧ (∀ t code, busWrite none true true a p.data s = (t, .fail code) → takeUp (.ofp p) s = (t.reply p 7 code [], true))
        ∧ (∀ t, busWrite none true true a p.data s = (t, .lost) → takeUp (.ofp p) s = (t.release p, true))
        ∧ (∀ t, busWrite none true true a p.data s = (t, .wait) → takeUp (.ofp p) s = (t, false))))
    ∧ (p.op = 2 →
      (∀ code, s.refusal 2 a w none = some code → takeUp (.ofp p) s = (s.reply p 7 code [], true))
      ∧ (s.refusal 2 a w none = none → s.fabOpen rim a 0 = false → takeUp (.ofp p) s = (s, false))
      ∧ (s.refusal 2 a w none = none → s.fabOpen rim a 0 = true →
        (∀ t old, r = (t, .ok old) → takeUp (.ofp p) s = ((t.carry rim a 0 0).reply p 6 0 (leBytes 8 (leNat old)), true))
        ∧ (∀ t code, r = (t, .fail code) → takeUp (.ofp p) s = (t.reply p 7 code [], true))
        ∧ (∀ t, r = (t, .wait) → takeUp (.ofp p) s = (t, false))))

/-- R252, R254, R255: COPY of another node: refused by R255, or with E_REMOTE_OP_UNSUPP when its destination is reached by a queue pair; it waits while a core that it needs is in
HOLD or its destination here is held; else it is made in pieces, each within one 2 KiB block of source and of destination, and answered by CDONE, or by ERR with its first
failure, at once when no PUT of it is outstanding. -/
def Slice0.RemoteCopy : Prop :=
  (∀ (p : OfpPkt) (s : State), p.op = 3 →
    let a := p.addr.toNat
    let dst := numAt p.data 0 8
    let len := numAt p.data 8 8
    let far := s.isSelf (dst / 2 ^ 42) = false
    let pair := far ∧ ∃ q, s.route (dst / 2 ^ 42) = .qp q
    let ep := match s.place a 1 with | .mem n | .regs n => n | _ => p.srcEp.toNat
    let id := (s.net.copies.map (·.id)).foldl Nat.max 0 + 1
    let r := (copyPieces (len / 1024 + 4) a dst 0 len).foldl (copyPiece p ep id dst) { st := s }
    (∀ code, s.refusal 0 a len none = some code → takeUp (.ofp p) s = (s.reply p 7 code [], true))
    ∧ (s.refusal 0 a len none = none →
      (pair → takeUp (.ofp p) s = (s.reply p 7 E.REMOTE_OP_UNSUPP [], true))
      ∧ (¬ pair → copyWaits s a dst len = true → far → takeUp (.ofp p) s = (s, false))
      ∧ (¬ pair → copyWaits s a dst len = true → ¬ far → takeUp (.ofp p) s = (s.ask (dst % 2 ^ 42) len, false))
      ∧ (¬ pair → copyWaits s a dst len = false → r.left = 0 →
        takeUp (.ofp p) s = (r.st.reply p (if r.code = 0 then 8 else 7) r.code [], true))
      ∧ (¬ pair → copyWaits s a dst len = false → r.left ≠ 0 →
        takeUp (.ofp p) s = (State.release { r.st with net := { r.st.net with copies :=
          ⟨id, p.link.toNat, p.src.toNat, p.srcEp.toNat, p.vc.toNat, p.tag.toNat, r.left, r.code⟩ :: r.st.net.copies } } p, true))))
  ∧ (∀ src dst len : Nat,
    let pieces := copyPieces (len / 1024 + 4) src dst 0 len
    pieces.flatMap (fun g => (List.range g.2).map (fun j => g.1 + j)) = List.range len
    ∧ ∀ g ∈ pieces, 0 < g.2 ∧ (src + g.1) % 2048 + g.2 ≤ 2048 ∧ (dst + g.1) % 2048 + g.2 ≤ 2048)
  ∧ (∀ (p : OfpPkt) (ep id dst : Nat) (c : CopyRun) (g : Nat × Nat),
    let node := dst / 2 ^ 42
    let a := (dst + g.1) % 2 ^ 42
    (c.code ≠ 0 → copyPiece p ep id dst c g = c)
    ∧ (c.code = 0 → ∀ code u, busRead true (p.addr.toNat + g.1) g.2 c.st = (u, .fail code) → copyPiece p ep id dst c g = { c with st := u, code := code })
    ∧ (c.code = 0 → ∀ t0 data, busRead true (p.addr.toNat + g.1) g.2 c.st = (t0, .ok data) →
      let rim := 0x420 + p.link.toNat
      let t := t0.carry rim (p.addr.toNat + g.1) 0 g.2
      (t.isSelf node = true → ∀ code, t.refusal 1 a g.2 none = some code → copyPiece p ep id dst c g = { c with st := t, code := code })
      ∧ (t.isSelf node = true → t.refusal 1 a g.2 none = none → ∀ u d, busWrite none true true a data t = (u, .ok d) →
        copyPiece p ep id dst c g = { c with st := u.carry rim a g.2 0 })
      ∧ (t.isSelf node = false →
        let put : NetReq := { src := .engine 0x400 id, ep := ep, vc := p.vc.toNat, node := node, op := 1, addr := a, len := g.2, data := data }
        (∀ u, t.sendEng put = (u, none) → copyPiece p ep id dst c g = { c with st := u, left := c.left + 1 })
        ∧ (∀ u code, t.sendEng put = (u, some code) → copyPiece p ep id dst c g = { c with st := u, code := code }))))

/-- R251 of an atomic, as spec/04 R91 and Table 04-13 give the operations, at the width of `w` bytes. -/
def Slice0.AtomicValues : Prop :=
  ∀ (w old x c : Nat), w = 4 ∨ w = 8 → old < 2 ^ (8 * w) → x < 2 ^ (8 * w) → c < 2 ^ (8 * w) →
    atomVal 0 w old x c = (old + x) % 2 ^ (8 * w) ∧ atomVal 1 w old x c = old &&& x ∧ atomVal 2 w old x c = old ||| x ∧ atomVal 3 w old x c = old ^^^ x
    ∧ atomVal 4 w old x c = x ∧ atomVal 5 w old x c = (if old = c then x else old)
    ∧ atomVal 8 w old x c = Nat.min old x ∧ atomVal 9 w old x c = Nat.max old x
    ∧ ((BitVec.ofNat (8 * w) old).sle (BitVec.ofNat (8 * w) x) = true → atomVal 6 w old x c = old ∧ atomVal 7 w old x c = x)
    ∧ ((BitVec.ofNat (8 * w) x).slt (BitVec.ofNat (8 * w) old) = true → atomVal 6 w old x c = x ∧ atomVal 7 w old x c = old)

/-- R262, R294: a weight segment goes to WSTREAM and a block of gradients to RED; its flits are free again when it has been taken. -/
def Slice0.RecordsTaken : Prop :=
  ∀ (p : OfpPkt) (s : State),
    (p.op = 9 →
      let r := wsegArrive p.tag.toNat (p.addr.toNat / 2 ^ 21) (p.addr.toNat % 2 ^ 21) p.data s
      takeUp (.ofp p) s = (if r.2 then r.1.release p else r.1, r.2))
    ∧ (p.op = 10 →
      let r := gbkArrive (fieldOf p.addr 0 16) (fieldOf p.addr 16 16) (fieldOf p.addr 32 8) (fieldOf p.addr 40 2) p.tag.toNat p.upset p.data s
      takeUp (.ofp p) s = (if r.2 then r.1.release p else r.1, r.2))

/-- R37, R241, R247, R252-R255, R262, R294 and spec/04 R91: packets of other nodes. That an answer leaves by the link its request came on is log 31, an ATOM of an undefined operation log 98, the pieces
of a COPY and what waits behind it log 129, how accesses take credits log 193. -/
def Obligations.InboundRequests : Prop :=
  Slice0.RequestOrder ∧ Slice0.Refused ∧ Slice0.RemoteAccess ∧ Slice0.RemoteCopy ∧ Slice0.AtomicValues ∧ Slice0.RecordsTaken

/-- The responses of Table 11-5: type, the request it answers, what it answers with. -/
def Slice0.responses : List ((OfpPkt → Instr) × Nat × (Nat → Bool) × (OfpPkt → Response)) :=
  [(.ofpData, 4, fun o => decide (o = 0), fun p => .ok p.data), (.ofpAck, 5, fun o => decide (o = 1), fun _ => .ok []),
   (.ofpAtomr, 6, fun o => decide (o = 2), fun p => .ok p.data), (.ofpErr, 7, fun _ => true, fun p => .fail p.status),
   (.ofpCdone, 8, fun o => decide (o = 3), fun _ => .ok [])]

/-- R252, R257: a response answers the request that has its tag, link and node, once; one that answers none is discarded and counted; a core's answer crosses the wafer
to it. A request without a response fails with E_REMOTE_TIMEOUT. -/
def Obligations.Responses : Prop :=
  (∀ r ∈ Slice0.responses, ∀ (p : OfpPkt) (s : State),
    let fits := fun (q : OutReq) => q.qp.isNone && decide (q.tag = p.tag.toNat ∧ q.link = p.link.toNat ∧ q.node = p.src.toNat) && r.2.2.1 q.op
    let s1 := s.release p
    (s.takes p r.2.1 = false → exec (r.1 p) s = .next s)
    ∧ (s.takes p r.2.1 = true → s.net.reqs.find? fits = none → exec (r.1 p) s = .next (s1.bump F.DEV_LATE_RSP_CNT))
    ∧ (∀ q, s.takes p r.2.1 = true → s.net.reqs.find? fits = some q →
      let s2 := match q.src with
        | .ring n _ | .slot n _ => s1.travel (0x420 + q.link) n 0 (dataFlits p.data.length)
        | _ => s1
      exec (r.1 p) s = .next (answer q.src q.tag (r.2.2.2 p) (s2.dropReq q.tag)) ∧ ∀ x ∈ (s2.dropReq q.tag).net.reqs, x.tag ≠ q.tag))
  ∧ (∀ (tag : BitVec 16) (s : State), exec (.remoteResponseTimeout tag) s =
    .next ((s.net.reqs.filter (fun q => decide (q.tag = tag.toNat))).foldl
      (fun st q => answer q.src q.tag (.fail (BitVec.ofNat 16 E.REMOTE_TIMEOUT)) st)
      { s with net := { s.net with reqs := s.net.reqs.filter (fun q => decide (q.tag ≠ tag.toNat)) } }))
  ∧ (∀ (tag : Nat) (resp : Response) (s : State),
    (∀ n r, answer (.ring n r) tag resp s = streamAnswer n r (s.tagIndex n r tag) resp (s.kick n))
    ∧ (∀ n x, answer (.slot n x) tag resp s = streamAnswer n (16 + x) 0 resp (s.kick n))
    ∧ (∀ arg, answer (.engine 0x3F0 arg) tag resp s = wsAnswer arg resp s ∧ answer (.engine 0x3F2 arg) tag resp s = ckAnswer arg resp s
      ∧ answer (.engine 0x400 arg) tag resp s = copyAnswer arg resp s))

/-! ## Control records and peers (spec/11 R241, R257, R258) -/

/-- R241, R257: control records arrive on a link that is UP, and their flit is free again. A heartbeat changes nothing that the model keeps; a goodbye declares its node lost, a vote
goes to the root's step, a decision is applied. One with a reserved bit set or of another kind is dropped, counted and reported with its packet's header. -/
def Slice0.RecordsArrive : Prop :=
  ∀ (link : BitVec 5) (r : List Byte) (s : State),
    let k := link.toNat
    let kinds : List (Nat × (BitVec 5 → List Byte → Instr)) := [(0, .ctlHeartbeat), (1, .ctlGoodbye), (2, .ctlVote), (3, .ctlDecision)]
    let s1 := s.freeFlits k 0 1
    (s.linkUp k = false → ∀ c ∈ kinds, exec (c.2 link r) s = .next s)
    ∧ (s.linkUp k = true →
      (ctlOk 0 r = true → exec (.ctlHeartbeat link r) s = .next s1)
      ∧ (ctlOk 1 r = true → exec (.ctlGoodbye link r) s = .next (peerLost (numAt r 24 4) 1 s1))
      ∧ (ctlOk 2 r = true → exec (.ctlVote link r) s = .next (voteArrive r s1))
      ∧ (ctlOk 3 r = true → exec (.ctlDecision link r) s = .next (decisionArrive
          { outcome := numAt r 1 1, freeze := (numAt r 2 1).testBit 0, compare := (numAt r 2 1).testBit 1, fid := numAt r 4 4, step := numAt r 8 8 } s1))
      ∧ (∀ c ∈ kinds, ctlOk c.1 r = false →
        let dropped := fun (hdr : List Byte) => (s1.bump (F.LINK_BAD_PKT_CNT k)).raise EV.LINK_BAD_PKT 4 k (leBytes 1 k ++ hdr)
        (∀ hdr, Sparse.find (s.lnk k).heads 0 = some hdr → exec (c.2 link r) s = .next (dropped hdr))
        ∧ (Sparse.find (s.lnk k).heads 0 = none →
          exec (c.2 link r) s = .next (State.tick (dropped ((List.range 32).map (fun i => Config.freeByte s.free i)))))))
    ∧ (∀ kind, ctlOk kind r = true → r.length = 64 ∧ numAt r 0 1 = kind)

/-- R258: with a job loaded a heartbeat record leaves to each listed peer, numbered by peer since the job start, a record that can't leave taking no number; without a job
none leaves. -/
def Slice0.HeartbeatsLeave : Prop :=
  ∀ s : State,
    (s.jobLoaded = false → exec .heartbeatSend s = .next s)
    ∧ (s.jobLoaded = true → exec .heartbeatSend s = .next (s.hbList.foldl (fun st n =>
        let q := Sparse.get st.ckpt.beats 0 n + 1
        let u := st.setCk { st.ckpt with beats := Sparse.put st.ckpt.beats n q }
        let t := u.sendOne 0x3F3 0 n 11 0 0 (leBytes 1 0 ++ List.replicate 7 0 ++ leBytes 8 q ++ leBytes 8 u.now.toNat ++ leBytes 8 (u.fld F.CKPT_STEP_step)
          ++ leBytes 4 u.node ++ leBytes 1 (u.fld F.CKPT_STS_phase) ++ List.replicate 27 0)
        if t.2 then t.1 else st) s))
    ∧ (∀ n, n ∈ s.hbList ↔ ∃ i, i < 64 ∧ s.flag (F.DEV_HB_LIST_valid i) = true ∧ s.fld (F.DEV_HB_LIST_node i) = n)

/-- R258, R274, R301, R314: a listed peer that is silent, or says goodbye, is declared lost, once in a job: its requests fail with E_PEER_LOST, EV_PEER_LOST names it and
the reason, its streams are dropped; with a job loaded its roles pass on, RED abandons the step when it worked with the node, and the root aborts the
step of a lost member. -/
def Slice0.PeerLoss : Prop :=
  (∀ (node : BitVec 22) (s : State), exec (.peerTimeout node) s = .next (peerLost node.toNat 0 s))
  ∧ (∀ (node reason : Nat) (s : State),
    let running := s.jobLoaded = true ∨ s.flag F.WSTREAM_JOB_STS_starting = true
    let s1 := { s with net := { s.net with gone := node :: s.net.gone } }
    let s2 := (failReqs (fun r => decide (r.node = node)) E.PEER_LOST s1).raise EV.PEER_LOST 8 node (leBytes 3 node ++ leBytes 1 reason)
    let s3 := streamsDrop node s2
    let s4 := rolesLost node s3
    let s5 := if s4.redPeer node then abandon (redAbandon 1 s4) else s4
    let aborts := node ∈ s.ckpt.members ∧ s5.isSelf s5.rootNode = true ∧ s5.ckpt.heir = false ∧ s5.ckpt.aborted = false
    (¬ running ∨ node ∉ s.hbList ∨ node ∈ s.net.gone → peerLost node reason s = s)
    ∧ (running → node ∈ s.hbList → node ∉ s.net.gone →
      (s3.jobLoaded = false → peerLost node reason s = s3)
      ∧ (s3.jobLoaded = true → aborts → peerLost node reason s = decide_ 3 s5)
      ∧ (s3.jobLoaded = true → ¬ aborts → peerLost node reason s = s5)))
  ∧ (∀ (node : Nat) (s : State),
    let exposed := ∃ k, k < s.fld F.RED_OWNER_LEN ∧ s.isSelf (s.ownerNodes k).1 = true ∧ (s.ownerNodes k).2 = node ∧ (s.ownerNodes k).1 ≠ (s.ownerNodes k).2
    let t := rolesLost node s
    (exposed → t.reg F.CKPT_EXPOSE_STS_start.addr = s.now) ∧ (¬ exposed → t.regs = s.regs)
    ∧ (let inherits := (s.ownerNodes 0).1 = node ∧ s.isSelf (s.ownerNodes 0).2 = true
       (inherits → t.ckpt.heir = true ∧ (node ∈ s.net.gone → node ∉ t.ckpt.members))
       ∧ (¬ inherits → t.ckpt.heir = s.ckpt.heir ∧ node ∉ t.ckpt.members ∧ ∀ n, n ≠ node → (n ∈ t.ckpt.members ↔ n ∈ s.ckpt.members)))
    ∧ t.mem = s.mem ∧ t.cores = s.cores ∧ t.net = s.net)

/-- R241, R257, R258: control records and peers. The header that a malformed record is reported with is log 98, the members as an heir knows them log 92, whom a
goodbye goes to log 90, where heartbeats are sent from log 91, a vote for a step already decided log 174, the pairs of a Shadow and what an inherited role changes log 170. -/
def Obligations.ControlRecords : Prop := Slice0.RecordsArrive ∧ Slice0.HeartbeatsLeave ∧ Slice0.PeerLoss

/-! ## RoCEv2 (spec/11 R237, R238, R254, R255) -/

/-- The messages that arrive on a queue pair, with what each does there: a WRITE, READ or SEND, in the order of its sequence numbers, takes its turn behind what waits of the
queue pair, an atomic is an invalid request, an acknowledgement completes a request. -/
def Slice0.messages : List ((BitVec 13 → RoceMsg → Instr) × (Nat → RoceMsg → State → State)) :=
  [(.roceSendReceive, fun q m s => roceOrder q 12 m (inbound (.roce 12 q m)) s), (.roceWriteReceive, fun q m s => roceOrder q 1 m (inbound (.roce 1 q m)) s),
   (.roceReadReceive, fun q m s => roceOrder q 0 m (inbound (.roce 0 q m)) s),
   (.roceAtomicReceive, fun q m s => roceOrder q 2 m (fun u => u.roceOut q 7 { nak := true, nakCode := 1, psn := u.ackPsn q 2 m }) s),
   (.roceAckReceive, fun q m s => ackArrive q m s)]

/-- R238: the sequence numbers of a queue pair. A request takes as many as the packets of its data, or of the answer to a read; the next one expected takes effect, and the
first one whatever its number; one behind a gap is refused by a NAK that names the number expected; one that has come before is answered again, a read by reading
again, unless it still waits (log 124). -/
def Slice0.SequenceNumbers : Prop :=
  (∀ (q kind : Nat) (m : RoceMsg) (f : State → State) (s : State),
    let t := s.qpT q
    let mtu := 1024 * 2 ^ s.fld (F.LINK_QP_mtu (q / 256) (q % 256))
    let size := if kind = 0 then m.len else m.data.length
    let count := if size = 0 then 1 else (size + mtu - 1) / mtu
    let go := f (s.setQpT q { t with rx := some ((m.psn + count) % 2 ^ 24) })
    s.ackPsn q kind m = (m.psn + count + 2 ^ 24 - 1) % 2 ^ 24
    ∧ (t.rx = none → roceOrder q kind m f s = go)
    ∧ (∀ e, t.rx = some e →
      let ahead := (m.psn + 2 ^ 24 - e) % 2 ^ 24
      let waits := ∃ j ∈ s.net.inb, j.flow = (1, q, 0, 0)
      (m.psn = e → roceOrder q kind m f s = go)
      ∧ (m.psn ≠ e → ahead < 2 ^ 23 → roceOrder q kind m f s = s.roceOut q 7 { nak := true, psn := e })
      ∧ (m.psn ≠ e → 2 ^ 23 ≤ ahead → waits → roceOrder q kind m f s = s)
      ∧ (m.psn ≠ e → 2 ^ 23 ≤ ahead → ¬ waits → kind = 0 → roceOrder q kind m f s = f s)
      ∧ (m.psn ≠ e → 2 ^ 23 ≤ ahead → ¬ waits → kind ≠ 0 → roceOrder q kind m f s = s.roceOut q 5 { psn := s.ackPsn q 1 m })))
  ∧ (∀ (r : NetReq) (q base : Nat) (s : State),
    let u := s.sendRoce r q base
    ∃ t m, u.2 = .sent t ∧ m.psn = (s.qpT q).tx ∧ m.data = r.data ∧ m.va = BitVec.ofNat 64 (r.addr + base)
      ∧ (u.1.qpT q).tx = ((s.qpT q).tx + s.qpCount q r.op m) % 2 ^ 24 ∧ (∃ x ∈ u.1.net.reqs, x.tag = t ∧ x.qp = some q ∧ x.msg = m) ∧ u.1.mem = s.mem
      ∧ u.1.regs = s.regs ∧ u.1.cores = s.cores)

/-- R238, R254: a queue pair that is not ready to receive, or whose port is not UP, takes no message. Any other acts, and a message with an ECN mark has a congestion notification
leave. -/
def Slice0.MessagesArrive : Prop :=
  ∀ c ∈ Slice0.messages, ∀ (qp : BitVec 13) (m : RoceMsg) (s : State),
    let q := qp.toNat
    (s.qpTakes q = false → exec (c.1 qp m) s = .next s)
    ∧ (s.qpTakes q = true → m.ecn = false → exec (c.1 qp m) s = .next (c.2 q m s))
    ∧ (s.qpTakes q = true → m.ecn = true → exec (c.1 qp m) s = .next ((c.2 q m s).roceOut q 16 {}))

/-- R238, R253: a message of a queue pair waits behind what waits of it; else it takes effect, or waits. -/
def Slice0.MessageOrder : Prop :=
  ∀ (kind q : Nat) (m : RoceMsg) (s : State), s.net.inb = [] →
    let r := takeUp (.roce kind q m) s
    inbound (.roce kind q m) s = if r.2 then r.1 else { r.1 with net := { r.1.net with inb := r.1.net.inb ++ [.roce kind q m] } }

/-- R238, R254, R255, R267: what a WRITE, a READ and a SEND do. A WRITE or READ that no window with its key allows is answered by a NAK for a remote access error, one that fails by a NAK
for a remote operational error; else, once the fabric has the credits for its path (R222; log 193), the access is made and acknowledged under its last sequence number,
immediate data going to WSTREAM. A SEND with immediate data is a record of the stream that it
names, acknowledged when it has been taken; any other is dropped and counted. -/
def Slice0.MessageEffects : Prop :=
  ∀ (q : Nat) (m : RoceMsg) (s : State),
    let a := m.va.toNat
    let key := some m.rkey.toNat
    let ep := 0x420 + q / 256
    let ack := fun (u : State) => u.roceOut q 5 { psn := u.ackPsn q 1 m }
    let give := fun (data : List Byte) (u : State) => u.roceOut q 4 { psn := m.psn, len := data.length, data := data }
    let nak := fun (code kind : Nat) (u : State) => u.roceOut q 7 { nak := true, nakCode := code, psn := u.ackPsn q kind m }
    let imm := fun (u : State) => match m.imm with | some x => u.setWs { u.ws with imms := (q, x) :: u.ws.imms } | none => u
    (m.data = [] → takeUp (.roce 1 q m) s = (ack (imm s), true))
    ∧ (m.data ≠ [] →
      (∀ code, s.refusal 1 a m.data.length key = some code → takeUp (.roce 1 q m) s = (nak 2 1 s, true))
      ∧ (s.refusal 1 a m.data.length key = none → s.fabOpen ep a 2 = false → takeUp (.roce 1 q m) s = (s, false))
      ∧ (s.refusal 1 a m.data.length key = none → s.fabOpen ep a 2 = true →
        (∀ t d, busWrite none true true a m.data s = (t, .ok d) → takeUp (.roce 1 q m) s = (ack (imm (t.carry ep a m.data.length 0)), true))
        ∧ (∀ t code, busWrite none true true a m.data s = (t, .fail code) → takeUp (.roce 1 q m) s = (nak 3 1 t, true))
        ∧ (∀ t, busWrite none true true a m.data s = (t, .lost) → takeUp (.roce 1 q m) s = (t, true))
        ∧ (∀ t, busWrite none true true a m.data s = (t, .wait) → takeUp (.roce 1 q m) s = (t, false))))
    ∧ (m.len = 0 → takeUp (.roce 0 q m) s = (give [] s, true))
    ∧ (m.len ≠ 0 →
      (∀ code, s.refusal 0 a m.len key = some code → takeUp (.roce 0 q m) s = (nak 2 0 s, true))
      ∧ (s.refusal 0 a m.len key = none → s.fabOpen ep a 0 = false → takeUp (.roce 0 q m) s = (s, false))
      ∧ (s.refusal 0 a m.len key = none → s.fabOpen ep a 0 = true →
        (∀ t data, busRead true a m.len s = (t, .ok data) → takeUp (.roce 0 q m) s = (give data (t.carry ep a 0 data.length), true))
        ∧ (∀ t code, busRead true a m.len s = (t, .fail code) → takeUp (.roce 0 q m) s = (nak 3 0 t, true))
        ∧ (∀ t, busRead true a m.len s = (t, .wait) → takeUp (.roce 0 q m) s = (t, false))))
    ∧ (m.imm = none → takeUp (.roce 12 q m) s = (ack (s.bump F.WSTREAM_DROP_CNT), true))
    ∧ (∀ x, m.imm = some x →
      (s.streamOf (fieldOf x 0 16) = none → takeUp (.roce 12 q m) s = (ack (s.bump F.WSTREAM_DROP_CNT), true))
      ∧ (∀ i, s.streamOf (fieldOf x 0 16) = some i →
        let r := wsegArrive (fieldOf x 0 16) (s.recordNo i (fieldOf x 16 16)) 0 m.data (imm s)
        (r.2 = true → takeUp (.roce 12 q m) s = (ack r.1, true)) ∧ (r.2 = false → takeUp (.roce 12 q m) s = (s, false))))

/-- R238, R257: an answer names its request by the last sequence number, and completes it and the writes before it, up to a read whose data has not come; each has its
retries again. A NAK fails it with E_REMOTE_ACCESS, but one for a sequence error has the requests from the number that it names on sent again. The answer of a request
that has failed is discarded and counted, one that answers nothing is discarded. A congestion notification cuts the rate by cc_step/256 of itself. Without an acknowledgement in time every request is sent again, or, the retries used up, the queue pair goes to
the error state and its operations fail with E_LINK_DOWN. -/
def Slice0.QueuePairRequests : Prop :=
  ∀ (qp : BitVec 13) (m : RoceMsg) (s : State),
    let q := qp.toNat
    let k := q / 256
    let e := q % 256
    let t := s.qpT q
    let reqs := s.net.reqs.filter (fun r => decide (r.qp = some q))
    let spent := s.fld (F.LINK_QP_retry k e) ≤ t.tries
    let hit := fun (r : OutReq) => (r.msg.psn + s.qpCount q r.op r.msg + 2 ^ 24 - 1) % 2 ^ 24 = m.psn
    let late := m.psn ∈ t.late ∧ ∀ r ∈ reqs, ¬ hit r
    let behind := m.nak = true ∧ m.nakCode = 0
    let done := fun (resp : Response) (u : State) (r : OutReq) => answer r.src r.tag resp ((u.dropReq r.tag).setQpT q { u.qpT q with tries := 0 })
    let again := fun (l : List OutReq) => l.foldl (fun st r => st.roceOut q r.op r.msg) (s.setQpT q { t with tries := t.tries + 1 })
    let from_ := reqs.dropWhile (fun r => decide (r.msg.psn ≠ m.psn))
    (late → ackArrive q m s = State.bump (s.setQpT q { t with late := t.late.filter (fun p => decide (p ≠ m.psn)) }) F.DEV_LATE_RSP_CNT)
    ∧ (¬ late → behind → from_ = [] ∨ s.qpState q ≠ 3 → ackArrive q m s = s)
    ∧ (¬ late → behind → from_ ≠ [] → s.qpState q = 3 → ¬ spent → ackArrive q m s = again from_)
    ∧ (¬ late → behind → from_ ≠ [] → s.qpState q = 3 → spent → ackArrive q m s = qpError k (fun i => decide (i = e)) (s.setQpT q { t with tries := 0 }))
    ∧ (¬ late → ¬ behind → (∀ r ∈ reqs, ¬ hit r) → ackArrive q m s = s)
    ∧ (¬ late → ¬ behind → ∀ before r after, reqs = before ++ r :: after → hit r → (∀ x ∈ before, ¬ hit x) →
      let writes := before.takeWhile (fun x => decide (x.op ≠ 0))
      let s1 := writes.foldl (done (.ok [])) s
      (writes ≠ before → ackArrive q m s = s1)
      ∧ (writes = before → m.nak = false → ackArrive q m s = done (.ok m.data) s1 r)
      ∧ (writes = before → m.nak = true → ackArrive q m s = done (.fail (BitVec.ofNat 16 E.REMOTE_ACCESS)) s1 r))
    ∧ (s.qpTakes q = false → exec (.roceCnpReceive qp) s = .next s)
    ∧ (s.qpTakes q = true → exec (.roceCnpReceive qp) s =
        .next (s.setQpT q { t with rate := s.qpRate q * (256 - s.fld (F.LINK_QP_cc_step k e)) / 256, cut := s.now }))
    ∧ (reqs = [] ∨ s.qpState q ≠ 3 → exec (.roceRetransmitTimeout qp) s = .next s)
    ∧ (reqs ≠ [] → s.qpState q = 3 →
      (¬ spent → exec (.roceRetransmitTimeout qp) s =
        .next (reqs.foldl (fun st r => st.roceOut q r.op r.msg) (s.setQpT q { t with tries := t.tries + 1 })))
      ∧ (spent → exec (.roceRetransmitTimeout qp) s = .next (qpError k (fun i => decide (i = e)) (s.setQpT q { t with tries := 0 }))))

/-- R237, R238: a message leaves in packets of the path MTU, immediate data with the last one; while its priority is paused, or packets wait for it, they wait, in order.
Which priority a queue pair has is the model's free value (log 125). -/
def Slice0.MessagesLeave : Prop :=
  ∀ (q kind : Nat) (m : RoceMsg) (s : State),
    let mtu := 1024 * 2 ^ s.fld (F.LINK_QP_mtu (q / 256) (q % 256))
    let packets := rocePackets mtu m
    let key := s.pauseKey q
    let paused := Sparse.find s.net.paused key ≠ none ∨ ∃ e ∈ s.net.ethq, e.1 = key
    packets.flatMap (·.data) = m.data ∧ (∀ p ∈ packets, p.data.length ≤ mtu) ∧ (packets.getLast?.bind (·.imm)) = m.imm
    ∧ (∀ j p, packets[j]? = some p → p.psn = (m.psn + j) % 2 ^ 24)
    ∧ (¬ paused → s.roceOut q kind m = packets.foldl (fun st p => st.out (.roce q kind p)) s)
    ∧ (paused → s.roceOut q kind m = { s with net := { s.net with ethq := s.net.ethq ++ packets.map (fun p => (key, .roce q kind p)) } })

/-- R237: a flow-control frame on a port that is UP pauses each priority that it enables for its quanta, or with 0 lets it go on; what waited for a priority that is not
paused leaves, in order. -/
def Slice0.FlowControl : Prop :=
  ∀ (link : BitVec 5) (port : BitVec 1) (en : BitVec 8) (quanta : List (BitVec 16)) (s : State),
    let pf := if port.toNat = 0 then F.LINK_STS_port_a link.toNat else F.LINK_STS_port_b link.toNat
    (s.fld pf ≠ 2 → exec (.priorityFlowControlFrame link port en quanta) s = .next s)
    ∧ (s.fld pf = 2 → Slice0.Does (.priorityFlowControlFrame link port en quanta) s (fun t =>
        (∀ i, i < 8 → Sparse.find t.net.paused (16 * link.toNat + 8 * port.toNat + i) =
          if en.getLsbD i then (if (quanta.getD i 0).toNat = 0 then none else some (quanta.getD i 0).toNat)
          else Sparse.find s.net.paused (16 * link.toNat + 8 * port.toNat + i))
        ∧ t.net.ethq = s.net.ethq.filter (fun e => (Sparse.find t.net.paused e.1).isSome)
        ∧ t.net.sent = ((s.net.ethq.filter (fun e => (Sparse.find t.net.paused e.1).isNone)).map (·.2)).reverse ++ s.net.sent
        ∧ t.regs = s.regs ∧ t.mem = s.mem ∧ t.cores = s.cores ∧ t.events = s.events))

/-- R237, R238, R253-R255, R257, R267: queue pairs. Their sequence numbers are log 124, the priority of one and the pauses log 125. -/
def Obligations.QueuePairs : Prop :=
  Slice0.MessagesArrive ∧ Slice0.SequenceNumbers ∧ Slice0.MessageOrder ∧ Slice0.MessageEffects ∧ Slice0.QueuePairRequests ∧ Slice0.MessagesLeave ∧ Slice0.FlowControl

/-! ## Weight intake (spec/12 R261-R273, R278) -/

/-- R265, R266: a plan load checks the plan and installs it, with no entry begun, or refuses with its code and keeps no plan; it does nothing while a job is loaded. An installed
plan has reservations inside edge memory that do not meet, and one of kind 3 for at least 64 retention slots. -/
def Slice0.PlanLoad : Prop :=
  ∀ (v : W64) (s : State),
    let refused := fun (code : Nat) => (((s.setWs { s.ws with plan := none }).setFld F.WSTREAM_PLAN_STS_code code).setFlag
      F.WSTREAM_PLAN_STS_loaded false).raise EV.LOAD_REFUSED 0 0 (leBytes 2 code)
    (v.getLsbD 0 = false ∨ s.jobLoaded = true → exec (.wstreamPlanLoad v) s = .next s)
    ∧ (v.getLsbD 0 = true → s.jobLoaded = false →
      (∀ code, planCheck s = .inr code → exec (.wstreamPlanLoad v) s = .next (refused code))
      ∧ (∀ p, planCheck s = .inl p → exec (.wstreamPlanLoad v) s =
        .next (((s.setWs { s.ws with plan := some p, segs := [], released := [], relBy := [], failed := [] }).setFld F.WSTREAM_PLAN_STS_code 0).setFlag
          F.WSTREAM_PLAN_STS_loaded true)))
    ∧ (s.fld F.WSTREAM_PLAN_LEN = 0 ∨ s.fld F.WSTREAM_RESV_LEN = 0 → planCheck s = .inr E.LOAD_PLAN_INVALID)
    ∧ (∀ es rs, planCheck s = .inl (es, rs) → es ≠ [] ∧ es.length ≤ 65536 ∧ (∀ r ∈ rs, r.base + r.size ≤ s.edgeSize ∧ r.base % 4096 = 0 ∧ r.size % 4096 = 0)
      ∧ rs.Pairwise (fun a b => ¬ (a.base < b.base + b.size ∧ b.base < a.base + a.size)) ∧ (∃ r ∈ rs, r.kind = 3 ∧ 64 * 0x101000 ≤ r.size)
      ∧ (∀ e ∈ es, e.sram = true → e.dbase + e.perCore ≤ 0x3000000 ∧ e.first + e.ncores ≤ s.ncores ∧ e.bytes ≤ e.perCore * e.ncores)
      ∧ (∀ e ∈ es, e.sram = false → ∃ r ∈ rs, r.kind = 1 ∧ r.base ≤ e.dbase ∧ e.dbase + e.bytes ≤ r.base + r.size))

/-- R263, R264, R397, R419, R422: a key install puts its key under its epoch: the first after a job start fixes the epoch, the next one is installed beside it, a later one
replaces the older when no record of that epoch waits, and write-backs that waited for a key go on. One that debug, a missing IV record or a failed PUF forbids, that does
not open to 32 bytes, or whose epoch is not the next is refused with its code and EV_KEY_REFUSED. A module stopped by EJECT_N, or READY to be removed, takes none (log 52). -/
def Slice0.KeyInstalls : Prop :=
  (∀ (v : W64) (s : State),
    let s1 := s.setReg F.WSTREAM_KEY_SLOT_w63.addr v
    let epoch := s1.fld F.WSTREAM_KEY_EPOCH
    let k := Config.wk s.idGen
    let opened := oaepOpen k.n k.d (leBytes 8 s1.jobArgs.id ++ leBytes 2 epoch)
      ((s1.group F.WSTREAM_KEY_SLOT_w0.addr 64).flatMap (fun x => leBytes 8 x.toNat))
    let refused := fun (code : Nat) => (s1.setFld F.WSTREAM_KEY_STS_code code).raise EV.KEY_REFUSED 0 0 (leBytes 2 epoch)
    let installed := fun (keys : Sparse (List Byte)) => (keyInstall keys s1).wbRun
    let still := s.boot.quiet = true ∨ s.fld F.DEV_RUNOUT_STS_stage = 7
    let barred := s.lodge.keys = false ∨ s.lodge.debug = true ∨ s.lodge.noIv = true
    let run := exec (.wstreamKeyUnwrap v) s
    (still → run = .next s1)
    ∧ (¬ still → barred → run = .next (refused E.KEY_UNWRAP))
    ∧ (¬ still → ¬ barred → opened = none → run = .next (refused E.KEY_UNWRAP))
    ∧ (∀ key, ¬ still → ¬ barred → opened = some key →
      (key.length ≠ 32 → run = .next (refused E.KEY_UNWRAP))
      ∧ (key.length = 32 →
        (s.ws.fresh = true ∨ s.ws.keys = [] → run = .next (installed [(epoch, key)]))
        ∧ (s.ws.fresh = false → ∀ e k0, s.ws.keys = [(e, k0)] →
          run = .next (if epoch = e + 1 then installed [(e, k0), (epoch, key)] else refused E.KEY_EPOCH))
        ∧ (s.ws.fresh = false → ∀ e k0 k1 l, s.ws.keys = (e, k0) :: k1 :: l →
          run = .next (if epoch = e + 2 ∧ epochWaits s1 e = false then installed [k1, (epoch, key)] else refused E.KEY_EPOCH)))))
  ∧ (∀ (keys : Sparse (List Byte)) (s : State),
    let t := keyInstall keys s
    t.ws = { s.ws with keys := keys, fresh := false, ivLeft := 2 ^ 40 } ∧ t.ivRecord = s.ivRecord + 2 ^ 40 ∧ t.mem = s.mem ∧ t.cores = s.cores
    ∧ t.fld F.WSTREAM_KEY_STS_code = 0 ∧ t.flag F.WSTREAM_KEY_STS_valid0 = !keys.isEmpty)
  ∧ (∀ (epoch : BitVec 16) (s : State),
    let late := s.ws.recs.filter (fun x => !x.done && decide (64 ≤ x.got) && (x.again || decide (x.no = Sparse.get s.ws.next 0 x.stream))
      && decide (s.recHdr x.stream x.no 2 2 = epoch.toNat))
    (∀ p, s.ws.keys.getLast? = some p → epoch.toNat ≤ p.1 → exec (.wstreamKeyTimeout epoch) s = .next s)
    ∧ ((∀ p, s.ws.keys.getLast? = some p → p.1 < epoch.toNat) → exec (.wstreamKeyTimeout epoch) s = .next (late.foldl (fun st x => authFails x st) s)))

/-- R266, R267, R274, R275: bytes of a record arrive: dropped without a plan or a stream of that identifier, the record counted at its first bytes; gone when the record has been handled; not taken
while the slot is in use, at the tree root also by an image record that has been handled, or held; else stored in the slot and sent on. -/
def Slice0.SegmentsArrive : Prop :=
  ∀ (id rec_ off : Nat) (data : List Byte) (s : State),
    (s.ws.plan = none ∨ s.streamOf id = none → wsegArrive id rec_ off data s = (if off = 0 then s.bump F.WSTREAM_DROP_CNT else s, true))
    ∧ (∀ p i, s.ws.plan = some p → s.streamOf id = some i →
      let slots := s.fld (F.WSTREAM_STREAM_slots i)
      let a := s.slotAddr i rec_ + off
      let root := (s.holder 4).1 = true ∧ s.isSelf (s.holder 4).2.1 = true ∧ s.imageStream = some i
      let used := slots = 0 ∨ (∃ x ∈ s.ws.recs, x.stream = i ∧ x.no ≠ rec_ ∧ x.no % slots = rec_ % slots)
        ∨ (root ∧ ∃ q ∈ s.ws.irecs, q.2.1 ≠ rec_ ∧ q.2.1 % slots = rec_ % slots)
      let stored := fun (x : WRec) =>
        let y := { x with got := Nat.max x.got (off + data.length) }
        forward y ((s.store a data).setWs { s.ws.putRec y with
          istream := if off = 0 ∧ numAt data 1 1 = 1 ∧ s.ws.istream.isNone then some i else s.ws.istream })
      (s.ws.find i rec_ = none →
        (rec_ < Sparse.get s.ws.next 0 i → wsegArrive id rec_ off data s = (s, true))
        ∧ (Sparse.get s.ws.next 0 i ≤ rec_ → used → wsegArrive id rec_ off data s = (s, false))
        ∧ (Sparse.get s.ws.next 0 i ≤ rec_ → ¬ used → s.clear a data.length = false → wsegArrive id rec_ off data s = (s.ask a data.length, false))
        ∧ (Sparse.get s.ws.next 0 i ≤ rec_ → ¬ used → s.clear a data.length = true →
          wsegArrive id rec_ off data s = (stored { stream := i, no := rec_ }, true)))
      ∧ (∀ x, s.ws.find i rec_ = some x →
        (x.done = true → wsegArrive id rec_ off data s = (s, true))
        ∧ (x.done = false → s.clear a data.length = false → wsegArrive id rec_ off data s = (s.ask a data.length, false))
        ∧ (x.done = false → s.clear a data.length = true → wsegArrive id rec_ off data s = (stored x, true))))

/-- R261, R263, R267-R271, R277: RECORD_DECRYPT. A record that is not there, has been handled, is not whole or whose turn it is not waits. A malformed one and one of an old epoch are
rejected with their codes, one whose key is not there waits unread, one of an old version is rejected; one of a version not yet current and one whose buffer group is not free
wait, and an image record before the manifest has the manifest verified as it is, unless records of it are fetched again. One that does not authenticate fails; one that
does is written to its destination when the writes can be made, counts for its entry when it has the length of its place and every write was acknowledged, or for its
image, which is verified when it is complete. Then a fetch whose slot is free now begins. -/
def Slice0.RecordTurn : Prop :=
  ∀ (stream : BitVec 4) (rec_ : Nat) (s : State),
    let i := stream.toNat
    let h := s.recHdr i rec_
    let a := s.slotAddr i rec_
    let plen := h 4 4
    let kind := h 1 1
    let epoch := h 2 2
    let e := h 28 2
    let idx := h 24 4
    let run := exec (.recordDecrypt stream rec_) s
    let ends := fun (t : State) => run = .next (fetchWake t)
    let src := s.stackEp a
    let open_ := fun (key : List Byte) =>
      gcmOpen key (s.mem.bytes (a + 32) 12) (s.mem.bytes a 64) (s.mem.bytes (a + 64) plen) (s.mem.bytes (a + 64 + plen) 16)
    let dest := recDest s kind e idx plen
    let waits := kind = 0 ∧ (s.wver < h 16 8 ∨ s.ws.bufFree e = false)
    let early := kind = 1 ∧ e ≠ 0 ∧ s.ws.manifest = none
    let again := (∃ y ∈ s.ws.recs, y.again = true ∧ y.done = false) ∨ ∃ f ∈ s.ws.waiting, f.again = true
    (s.ws.find i rec_ = none → ends s)
    ∧ (∀ x, s.ws.find i rec_ = some x →
      let ready := x.done = false ∧ recWhole s x = true ∧ (x.again = true ∨ rec_ = Sparse.get s.ws.next 0 i)
      let old := ∃ p l, s.ws.keys = p :: l ∧ epoch < p.1
      let stale := kind = 0 ∧ h 16 8 < s.wver
      (¬ ready → ends s)
      ∧ (ready → recBad s h = true → ends (fetchOn (recReject x E.WSEG_FORMAT s)))
      ∧ (ready → recBad s h = false →
        (old → ends (recReject x E.KEY_EPOCH s))
        ∧ (¬ old →
          (Sparse.find s.ws.keys epoch = none → ends s)
          ∧ (∀ key, Sparse.find s.ws.keys epoch = some key →
            (stale → ends (recReject x E.WSEG_VERSION s))
            ∧ (waits → ¬ stale → ends s)
            ∧ (early → again → ends s)
            ∧ (early → ¬ again → ends (imageVerify true 0 s))
            ∧ (¬ stale → ¬ waits → ¬ early → open_ key = none → ends (authFails x s))
            ∧ (∀ pt, ¬ stale → ¬ waits → ¬ early → open_ key = some pt →
              (State.spreadFree src s dest = false → ends (s.spreadAsk dest))
              ∧ (State.spreadFree src s dest = true →
                let r := spreadStore src dest pt s
                let s1 := recDone x r.1
                let got := Sparse.get s1.ws.segs [] e
                let whole := r.2 = true ∧ ∃ y, s1.ws.ent e = some y ∧ plen = Nat.min 1048576 (y.bytes - idx * 1048576)
                let seen := Sparse.get s1.ws.isegs [] e
                (kind = 0 → whole → idx ∉ got → ends (s1.setWs { s1.ws with segs := Sparse.put s1.ws.segs e (idx :: got) }))
                ∧ (kind = 0 → ¬ (whole ∧ idx ∉ got) → ends s1)
                ∧ (kind ≠ 0 → idx ∈ seen → ends (fetchOn (imageVerify false e s1)))
                ∧ (kind ≠ 0 → idx ∉ seen → ends (fetchOn (imageVerify false e (s1.setWs { s1.ws with
                    isegs := Sparse.put s1.ws.isegs e (idx :: seen)
                    segs := Sparse.put s1.ws.segs (2 ^ 20 + e) (plen :: Sparse.get s1.ws.segs [] (2 ^ 20 + e))
                    irecs := (e, rec_, idx) :: s1.ws.irecs })))))))))
      ∧ (recWhole s x = true ↔ 64 ≤ x.got ∧ (s.recHdr x.stream x.no 4 4 = 0 ∨ 1048576 < s.recHdr x.stream x.no 4 4 ∨ 80 + s.recHdr x.stream x.no 4 4 ≤ x.got)))

/-- R261, R269, R275, R278: a rejected record is counted and reported. One that fails authentication is counted and reported, and its destination is undefined; it is fetched again
up to the third failure, which marks the entry of a weight record failed; an image record then goes on to the next holder, and at once where a repair or a route reuse fetched
it from one. -/
def Slice0.RecordFailures : Prop :=
  (∀ (x : WRec) (code : Nat) (s : State),
    let t := recDone x (s.bump F.WSTREAM_BAD_REC_CNT)
    recReject x code s = t.raise EV.WSEG_REJECT 0 0 (leBytes 2 (t.fld (F.WSTREAM_STREAM_id x.stream)) ++ leBytes 4 x.no ++ leBytes 2 code))
  ∧ (∀ (x : WRec) (s : State),
    let h := s.recHdr x.stream x.no
    let want := (h 1 1, h 28 2, h 24 4)
    let s1 := (recDest s (h 1 1) (h 28 2) (h 24 4) (h 4 4)).foldl (fun st r => st.undefAt r.1 r.2) s
    let s2 := s1.bump F.WSTREAM_AUTH_FAIL_CNT
    let s3 := s2.raise EV.WSEG_REJECT 0 0 (leBytes 2 (s2.fld (F.WSTREAM_STREAM_id x.stream)) ++ leBytes 4 x.no ++ leBytes 2 E.WSEG_AUTH)
    (h 1 1 = 1 → 2 ≤ x.fails ∨ s.ws.source ≠ none →
      authFails x s = fetchFails { stream := x.stream, no := x.no, want := some want, holder := some ((s.ws.source).getD 0) }
        (s3.setWs (s3.ws.putRec { x with got := 0, fails := 0 })))
    ∧ (h 1 1 ≠ 1 ∨ s.ws.source = none → x.fails < 2 →
      authFails x s = refetch { x with fails := x.fails + 1 } (some want) (s3.setWs (s3.ws.putRec { x with fails := x.fails + 1, got := 0 })))
    ∧ (h 1 1 ≠ 1 → 2 ≤ x.fails → authFails x s = entryFails (h 28 2) (recDone { x with fails := x.fails + 1 } s3)))
  ∧ (∀ (e : Nat) (s : State),
    let l := s.ws.failed ++ [e]
    (e ∈ s.ws.failed → entryFails e s = s.raise EV.WSEG_FAIL 0 0 (leBytes 2 e))
    ∧ (e ∉ s.ws.failed → entryFails e s = ((((s.setWs { s.ws with failed := l }).setFlag F.WSTREAM_ENTRY_STS_failed true).setFld
        F.WSTREAM_ENTRY_STS_first (l.headD 0)).setFld F.WSTREAM_ENTRY_STS_count l.length).raise EV.WSEG_FAIL 0 0 (leBytes 2 e)))

/-- R270, R273, R352: an entry whose segments are all written, and that has not failed, sets its event flag in each core of its region, in HOLD when HOLD ends, and is counted. A release of the oldest entry of its buffer group
by a core of its region counts; the last core lets the group go on, and after the last entry the group begins again; any other release is an error that is
counted. -/
def Slice0.EntriesAndGroups : Prop :=
  (∀ (entry : BitVec 16) (s : State),
    let e := entry.toNat
    let got := (Sparse.get s.ws.segs [] e).length
    (s.ws.ent e = none → exec (.entryComplete entry) s = .next s)
    ∧ (∀ x, s.ws.ent e = some x →
      (got < ceilDiv x.bytes 1048576 ∨ e ∈ s.ws.failed → exec (.entryComplete entry) s = .next s)
      ∧ (ceilDiv x.bytes 1048576 ≤ got → e ∉ s.ws.failed → exec (.entryComplete entry) s = .next
        ((List.range x.ncores).foldl (fun st k => (st.kick (x.first + k)).giveEvent (x.first + k) x.evflag)
          ((s.setWs { s.ws with segs := Sparse.drop s.ws.segs e }).bump F.WSTREAM_ENTRY_DONE_CNT)))))
  ∧ (∀ (core : BitVec 10) (v : W64) (s : State),
    let e := fieldOf v 0 16
    let n := core.toNat
    let error := s.bump F.WSTREAM_REL_ERR_CNT
    (s.ws.ent e = none → exec (.wstreamBufRelWrite core v) s = .next error)
    ∧ (∀ x, s.ws.ent e = some x →
      let done := Sparse.get s.ws.released [] x.buf
      let mine := s.ws.ents.filter (fun y => decide (y.buf = x.buf))
      let oldest := mine.find? (fun y => !done.contains y.num)
      let right := x.buf ≠ 0 ∧ oldest.map (·.num) = some e ∧ x.first ≤ n ∧ n < x.first + x.ncores
      let by_ := Sparse.get s.ws.relBy [] x.buf
      let all := if n ∈ by_ then by_ else n :: by_
      (¬ right → exec (.wstreamBufRelWrite core v) s = .next error)
      ∧ (right → all.length < x.ncores → exec (.wstreamBufRelWrite core v) s = .next (s.setWs { s.ws with relBy := Sparse.put s.ws.relBy x.buf all }))
      ∧ (right → x.ncores ≤ all.length → exec (.wstreamBufRelWrite core v) s = .next (s.setWs { s.ws with
          relBy := Sparse.drop s.ws.relBy x.buf
          released := if ∀ y ∈ mine, y.num = e ∨ y.num ∈ done then Sparse.drop s.ws.released x.buf else Sparse.put s.ws.released x.buf (e :: done) }))))
  ∧ (∀ (n f : Nat) (s : State), s.giveEvent n f = if s.flag F.PWR_STS_hold then { s with later := s.later ++ [.event n f] } else s.setEvent n f)

/-- R264, R272: a write of WSTREAM_WBQ queues a request, and the queue is taken from its head: one whose records have all left waits for its acknowledgements; one of another version than the
step's is discarded; without a key, and with the IVs spent, it waits; else as many of its records as there are IVs are sent, and from the last IV on the code
says that the IVs are spent. A write whose OFP global address names this engine is made here (R34); any other is sent. When every write of the head is acknowledged, WRITEBACK_DONE sets the event flag of its entry in the requesting core, unless a write failed. -/
def Slice0.WriteBacks : Prop :=
  (∀ (core : BitVec 10) (v : W64) (s : State),
    let s1 := s.setReg F.WSTREAM_WBQ_dest.addr v
    let r : WbReq :=
      { core := core.toNat, src := s1.fld F.WSTREAM_WBQ_src, roce := s1.flag F.WSTREAM_WBQ_roce, qp := s1.fld F.WSTREAM_WBQ_qp,
        entry := s1.fld F.WSTREAM_WBQ_entry, bytes := s1.fld F.WSTREAM_WBQ_bytes, wver := s1.fld F.WSTREAM_WBQ_wver, dest := v.toNat }
    exec (.wstreamWbqWrite core v) s = .next (wbGo (s.ws.wbq.length + 2) (s1.setWs { s.ws with wbq := s.ws.wbq ++ [r] })))
  ∧ (∀ (fuel : Nat) (s : State),
    (s.ws.wbq = [] → wbGo (fuel + 1) s = s)
    ∧ (∀ r rest, s.ws.wbq = r :: rest →
      let n := ceilDiv r.bytes 1048576
      let m := Nat.min (n - r.next) s.ws.ivLeft
      let sent := r.left ≠ none ∧ n ≤ r.next
      let old := r.left = none ∧ r.wver ≠ s.fld F.CKPT_STEP_step
      (sent → wbGo (fuel + 1) s = s)
      ∧ (¬ sent → old → wbGo (fuel + 1) s = wbGo fuel (s.setWs { s.ws with wbq := rest, wbCode := E.WSEG_VERSION }))
      ∧ (¬ sent → ¬ old → s.ws.keys = [] → wbGo (fuel + 1) s = s)
      ∧ (¬ sent → ¬ old → s.ws.keys ≠ [] → m = 0 → r.next < n → wbGo (fuel + 1) s = s)
      ∧ (∀ epoch key, ¬ sent → ¬ old → s.ws.keys.getLast? = some (epoch, key) → m ≠ 0 ∨ n ≤ r.next →
        let ctr := s.fld F.WSTREAM_IV_CTR
        let recs := (List.range m).flatMap (fun k => wbRecord s r (r.next + k) epoch (ctr + k) key)
        let q := (cutWrites (recs.length / 2048 + 2) (r.dest + r.next * (80 + 1048576)) recs).foldl (fun q p => wbSend r p q)
          ((s.setFld F.WSTREAM_IV_CTR (ctr + m)).setWs { s.ws with ivLeft := s.ws.ivLeft - m }, 0, false)
        let s1 := q.1.setWs { q.1.ws with wbq := { r with next := r.next + m, left := some (r.left.getD 0 + q.2.1), bad := r.bad || q.2.2 } :: rest }
        wbGo (fuel + 1) s = if 0 < m ∧ m = s.ws.ivLeft then s1.setFld F.WSTREAM_KEY_STS_code E.IV_SPENT else s1)))
  ∧ (∀ (r : WbReq) (addr k : Nat) (data : List Byte) (bad : Bool) (s : State),
    let a := addr % 2 ^ 42
    let req : NetReq := { src := .engine 0x3F0 1, ep := 0x3F0, vc := 0, node := addr / 2 ^ 42, op := 1, addr := a, len := data.length, data := data }
    let here := r.roce = false ∧ s.isSelf (addr / 2 ^ 42) = true
    (here → s.endpointOf a ≠ none →
      let t := s.swr (s.stackEp r.src) a data
      wbSend r (addr, data) (s, k, bad) = (t.1, k, bad || !t.2))
    ∧ (here → s.endpointOf a = none → wbSend r (addr, data) (s, k, bad) = (s, k, true))
    ∧ (¬ here → r.roce = false →
      (∀ t, s.sendEng req = (t, none) → wbSend r (addr, data) (s, k, bad) = (t, k + 1, bad))
      ∧ (∀ t c, s.sendEng req = (t, some c) → wbSend r (addr, data) (s, k, bad) = (t, k, true)))
    ∧ (r.roce = true → s.qpState r.qp = 3 → wbSend r (addr, data) (s, k, bad) = ((s.sendRoce { req with addr := addr } r.qp 0).1, k + 1, bad))
    ∧ (r.roce = true → s.qpState r.qp ≠ 3 → wbSend r (addr, data) (s, k, bad) = (s, k, true)))
  ∧ (∀ s : State,
    (s.ws.wbq = [] → exec .writebackDone s = .next s)
    ∧ (∀ r rest, s.ws.wbq = r :: rest →
      let done := r.left = some 0 ∧ ceilDiv r.bytes 1048576 ≤ r.next
      let s1 := s.setWs { s.ws with wbq := rest }
      (¬ done → exec .writebackDone s = .next s)
      ∧ (done → r.bad = true ∨ s.ws.ent r.entry = none ∨ s.ncores ≤ r.core → exec .writebackDone s = .next s1.wbRun)
      ∧ (∀ x, done → r.bad = false → s.ws.ent r.entry = some x → r.core < s.ncores →
        exec .writebackDone s = .next ((s1.kick r.core).giveEvent r.core x.evflag).wbRun)))

/-- R269, R278, R279: a start whose images have stopped coming is repaired from the next ancestor that is not lost, reported by EV_TREE_REPAIR, or fails with E_TREE_NO_SOURCE; with
route reuse, with every image there, or without a start nothing happens. A fetch of an image record that its holder does not answer leaves the holder in the same way; one of a weight
record is a failure of the record, and its upstream is asked again up to the third. -/
def Slice0.TreeRepair : Prop :=
  ∀ s : State,
    let repairs := s.flag F.WSTREAM_JOB_STS_starting = true ∧ s.ws.imagesDone = false ∧ s.flag F.WSTREAM_JOB_CTL_route_reuse = false
    let from_ := s.ws.source.getD 0
    let s1 := s.raise EV.TREE_REPAIR 0 0 (leBytes 3 (s.holder from_).2.1)
    (¬ repairs → exec .wstreamTreeTimeout s = .next s)
    ∧ (repairs → s.nextHolder from_ = none →
      exec .wstreamTreeTimeout s = .next (((s1.setWs { s.ws with manifest := none, verified := [] }).setFld F.WSTREAM_JOB_STS_code E.TREE_NO_SOURCE).setFlag
        F.WSTREAM_JOB_STS_starting false))
    ∧ (∀ h, repairs → s.nextHolder from_ = some h → exec .wstreamTreeTimeout s = .next (fetchOn (s1.setWs { s.ws with source := some h })))
    ∧ (∀ h k, s.nextHolder h = some k → h < k ∧ (s.holder k).1 = true ∧ (s.holder k).2.1 ∉ s.net.gone ∧ s.isSelf (s.holder k).2.1 = false)
    ∧ (∀ f : Fetch,
      let image := match f.want with | some w => w.1 = 1 | none => f.holder ≠ none ∨ s.imageStream = some f.stream
      let u := s.raise EV.TREE_REPAIR 0 0 (leBytes 3 (f.place s).1)
      let x := (s.ws.find f.stream f.no).getD { stream := f.stream, no := f.no }
      let q := recordFailed x ((f.want.map (·.2.1)).getD 0) (s.setWs { s.ws with fetch := none })
      (image → ∀ h, s.nextHolder (f.holder.getD 0) = some h →
        fetchFails f s = fetchSend 6 { f with holder := some h, off := 0, len := 2048 } (u.setWs { s.ws with source := some h, fetch := none }))
      ∧ (image → s.nextHolder (f.holder.getD 0) = none → fetchFails f s = startFails E.TREE_NO_SOURCE (fetchNext u))
      ∧ (¬ image → q.2 = true → fetchFails f s = fetchSend 6 { f with off := 0, len := 2048 } q.1)
      ∧ (¬ image → q.2 = false → fetchFails f s = fetchNext q.1)
      ∧ (q.2 = decide (x.fails < 2)))

/-- R261-R273, R278: weight intake. The order of the image records is log 53, the places of the images log 54, what a write-back of another version shows log 181, the
code of a key that is refused for want of WK log 52. -/
def Obligations.WeightIntake : Prop :=
  Slice0.PlanLoad ∧ Slice0.KeyInstalls ∧ Slice0.SegmentsArrive ∧ Slice0.RecordTurn ∧ Slice0.RecordFailures ∧ Slice0.EntriesAndGroups
    ∧ Slice0.WriteBacks ∧ Slice0.TreeRepair

/-! ## Jobs and members (spec/12 R277-R281; spec/09 R205; spec/19 R431, R436) -/

/-- R274, R277, R279, R401, R419, R429: a write of W1 of WSTREAM_JOB without go stores its fields, and in Run-out is refused, as a write of any other word of it. With go the start is refused while a presence command is pending, in Run-out, with a job loaded or starting, with a bad stream
entry and for a route that may not be reused; a module that is not READY or has no compute starts none; else the start begins, with nothing verified and the arguments as
they stand, and with route reuse the images are pulled from the root. -/
def Slice0.JobStart : Prop :=
  ∀ (v : W64) (s : State),
    let s1 := jobFields v s
    let run := exec (.wstreamJobGo v) s
    let busy := s.jobLoaded = true ∨ s.flag F.WSTREAM_JOB_STS_starting = true
    let unfit := s1.fld F.DEV_BOOT_STS_stage ≠ 9 ∨ s1.flag F.DEV_MODE_STS_no_compute = true
    let failed := fun (code : Nat) => ((s1.setWs { s1.ws with manifest := none, verified := [] }).setFld F.WSTREAM_JOB_STS_code code).setFlag
      F.WSTREAM_JOB_STS_starting false
    let reuse := s1.flag F.WSTREAM_JOB_CTL_route_reuse = true
    let begun := jobBegin s1
    s1.fld F.WSTREAM_JOB_cores = fieldOf v 0 10 ∧ s1.flag F.WSTREAM_JOB_half = v.getLsbD 16
    ∧ (v.getLsbD 63 = false → s.fld F.DEV_RUNOUT_STS_stage < 2 → run = .next s1)
    ∧ (v.getLsbD 63 = false → 2 ≤ s.fld F.DEV_RUNOUT_STS_stage → run = .next (s.setFld F.WSTREAM_JOB_STS_code E.RUNOUT_ACTIVE))
    ∧ (∀ a, jobWord a v s = if 2 ≤ s.fld F.DEV_RUNOUT_STS_stage then s.setFld F.WSTREAM_JOB_STS_code E.RUNOUT_ACTIVE else s.setReg a v)
    ∧ (v.getLsbD 63 = true →
      (s.lodge.staged ≠ none → run = .next (s.raise EV.PRES_BLOCK 0 0 []))
      ∧ (s.lodge.staged = none →
        (2 ≤ s.fld F.DEV_RUNOUT_STS_stage → run = .next (s.setFld F.WSTREAM_JOB_STS_code E.RUNOUT_ACTIVE))
        ∧ (s.fld F.DEV_RUNOUT_STS_stage < 2 →
          (busy → run = .next (s.setFld F.WSTREAM_JOB_STS_code E.LOAD_PLAN_INVALID))
          ∧ (¬ busy → unfit → run = .next s1)
          ∧ (¬ busy → ¬ unfit →
            (streamsValid s1 = false → run = .next (failed E.LOAD_PLAN_INVALID))
            ∧ (streamsValid s1 = true → reuse → s1.ws.normal = false → run = .next (failed E.ROUTE_REUSE))
            ∧ (streamsValid s1 = true → reuse → s1.ws.normal = true → run = .next (fetchOn (begun.setWs { begun.ws with source := some 4 })))
            ∧ (streamsValid s1 = true → ¬ reuse → run = .next begun)))))
    ∧ begun.flag F.WSTREAM_JOB_STS_starting = true ∧ begun.flag F.WSTREAM_JOB_STS_ready = false ∧ begun.fld F.WSTREAM_JOB_STS_code = 0
    ∧ begun.ws.verified = [] ∧ begun.ws.manifest = none ∧ begun.ws.recs = [] ∧ begun.ws.fresh = true ∧ begun.ws.plan = s.ws.plan
    ∧ begun.jobArgs.id = s.fld F.WSTREAM_JOB_job_id ∧ begun.jobArgs.cores = fieldOf v 0 10 ∧ begun.jobArgs.half = v.getLsbD 16
    ∧ (∀ x, begun.ws.args = some x → ∀ a w, (begun.setReg a w).ws.args = some x) ∧ begun.boot.lastStep = none
    ∧ begun.ws.keys = s.ws.keys ∧ begun.net.gone = [] ∧ begun.ckpt.members = [] ∧ begun.mem = s.mem ∧ begun.cores = s.cores

/-- R263, R279, R431: the end bit of WSTREAM_JOB_CTL ends a loaded job: key slots are cleared, the engine is IDLE without members, and its route digest is kept for reuse. Without it, or
without a job, only the route-reuse bit is stored. -/
def Slice0.JobEnd : Prop :=
  ∀ (v : W64) (s : State),
    (v.getLsbD 8 = false ∨ s.jobLoaded = false → exec (.wstreamJobEnd v) s = .next (s.setFlag F.WSTREAM_JOB_CTL_route_reuse (v.getLsbD 0)))
    ∧ (v.getLsbD 8 = true → s.jobLoaded = true → Slice0.Does (.wstreamJobEnd v) s (fun t =>
        t.jobLoaded = false ∧ t.boot.lastStep = none ∧ t.ws.keys = [] ∧ t.ws.normal = true ∧ t.ws.manifest = none ∧ t.ckpt.members = [] ∧ t.fld F.CKPT_STS_phase = 0
        ∧ t.flag F.WSTREAM_JOB_STS_ready = false ∧ t.flag F.WSTREAM_KEY_STS_valid0 = false ∧ t.red.armOk = false ∧ t.mem = s.mem ∧ t.cores = s.cores
        ∧ t.events = s.events ∧ t.net = s.net))

/-- R281, R429: the checks of a join, in the order of Table 12-4: firmware, class, capacity, configuration, time. The job's arguments are those of its go. The time of an engine in FREE is all ones and fails it (R376). -/
def Slice0.JoinChecks : Prop :=
  ∀ (p : JoinRec) (s : State),
    let off := (2 * (p.time.toNat : Int) - (p.tSend.toNat + p.tRecv.toNat : Int)).natAbs
    let small := p.cores < s.jobArgs.cores ∨ s.ncores < p.needCores ∨ (p.halfMode = true ∧ s.jobArgs.half = false)
      ∨ (s.halfMode = true ∧ p.halfFlag = false)
    let untimed := p.time = BitVec.allOnes 64 ∨ s.joinTime = BitVec.allOnes 64 ∨ 2 * s.fld F.WSTREAM_JOIN_TOL_ns < off
    (p.fw ≠ s.reg F.DEV_FW_VERSION.addr → joinCheck p s = some E.JOIN_FIRMWARE)
    ∧ (p.fw = s.reg F.DEV_FW_VERSION.addr →
      (p.bc.toNat ≠ s.fld F.DEV_ID_bc → joinCheck p s = some E.JOIN_CLASS)
      ∧ (p.bc.toNat = s.fld F.DEV_ID_bc →
        (small → joinCheck p s = some E.JOIN_CAPACITY)
        ∧ (¬ small →
          (leBytes 64 p.digest.toNat ≠ cfgDigest s → joinCheck p s = some E.JOIN_CONFIG)
          ∧ (leBytes 64 p.digest.toNat = cfgDigest s →
            (untimed → joinCheck p s = some E.JOIN_TIME) ∧ (¬ untimed → joinCheck p s = none)))))
    ∧ (s.jobLoaded = true ∨ s.flag F.WSTREAM_JOB_STS_starting = true → ∀ x, s.ws.args = some x → s.jobArgs = x)
    ∧ (s.fld F.CLK_PTP_STS_state = 0 → s.joinTime = BitVec.allOnes 64) ∧ (s.fld F.CLK_PTP_STS_state ≠ 0 → s.joinTime = s.now)

/-- R277, R280, R281, R295, R403: JOB_JOIN_CHECK acts at an engine whose start has its images, its plan and an arm of its chain tables, and at the root of a loaded job. A join whose checks fail here, or on the other side, is
refused with its code and EV_JOIN_REFUSED. An engine that joins becomes ready, but not while a presence command is pending: the job is loaded, the first step in flight, EV_JOB_READY. The root takes the other side among
the members of the first step, or lets it wait. -/
def Slice0.Join : Prop :=
  ∀ (p : JoinRec) (s : State),
    let n := p.node.toNat
    let root := s.isSelf s.rootNode = true
    let starting := s.flag F.WSTREAM_JOB_STS_starting = true
    let acts := (starting ∧ s.ws.imagesDone = true ∧ s.fld F.RED_PLAN_STS_code = 0 ∧ s.red.armOk = true) ∨ (s.jobLoaded = true ∧ root)
    let refused := fun (code : Nat) => ((s.setFld F.WSTREAM_JOIN_STS_code code).setFld F.WSTREAM_JOIN_STS_node n).raise EV.JOIN_REFUSED 0 0
      (leBytes 3 n ++ leBytes 2 code)
    let here := starting ∧ ¬ (root ∧ s.isSelf n = false)
    let opening := s.jobLoaded = true ∧ s.ckpt.first = true ∧ s.ckpt.votes = []
    let run := exec (.jobJoinCheck p) s
    (¬ acts → run = .next s)
    ∧ (acts →
      (2 ≤ s.fld F.DEV_RUNOUT_STS_stage → run = .next (refused E.RUNOUT_ACTIVE))
      ∧ (s.fld F.DEV_RUNOUT_STS_stage < 2 →
        (∀ code, joinCheck p s = some code → run = .next (refused code))
        ∧ (joinCheck p s = none → p.peerCode ≠ 0 → run = .next (refused p.peerCode.toNat))
        ∧ (joinCheck p s = none → p.peerCode = 0 →
          (here → s.lodge.staged = none → run = .next (jobReady s))
          ∧ (here → s.lodge.staged ≠ none → run = .next s)
          ∧ (¬ here → opening →
            run = .next (s.setCk { s.ckpt with members := if n ∈ s.ckpt.members then s.ckpt.members else s.ckpt.members ++ [n] }))
          ∧ (¬ here → ¬ opening →
            run = .next (s.setCk { s.ckpt with standby := if n ∈ s.ckpt.standby then s.ckpt.standby else s.ckpt.standby ++ [n] })))))
    ∧ (let t := jobReady s
       t.jobLoaded = true ∧ t.flag F.WSTREAM_JOB_STS_starting = false ∧ t.flag F.WSTREAM_JOB_STS_ready = true ∧ t.fld F.WSTREAM_JOB_STS_code = 0
       ∧ t.fld F.CKPT_STS_phase = 1 ∧ t.ckpt.first = true ∧ t.ckpt.members = (if s.isSelf s.rootNode then s.node :: s.ckpt.standby else [])
       ∧ t.mem = s.mem ∧ t.cores = s.cores)

/-- R205, R418: requests to join and to leave. The root grants them from the next step; it refuses the leave of an owner or Shadow with EV_LEAVE_REFUSED, and joins in Run-out; an engine that is not
the root notes the last step of its own leave; without a job nothing happens. R280, R376: the root refreshes the time of its join record. -/
def Slice0.MemberRequests : Prop :=
  ∀ (node : BitVec 22) (s : State),
    let n := node.toNat
    let c := s.ckpt
    let root := s.isSelf s.rootNode = true
    let named := ∃ k, k < s.fld F.RED_OWNER_LEN ∧ ((s.ownerNodes k).1 = n ∨ (s.ownerNodes k).2 = n)
    let leave := exec (.memberLeaveRequest node true) s
    let join := exec (.memberLeaveRequest node false) s
    (s.jobLoaded = false → leave = .next s ∧ join = .next s)
    ∧ (s.jobLoaded = true → ¬ root →
      join = .next s
      ∧ (s.isSelf n = true → leave = .next { s with boot := { s.boot with lastStep := some (s.fld F.CKPT_STEP_step) } })
      ∧ (s.isSelf n = false → leave = .next s))
    ∧ (s.jobLoaded = true → root →
      (named → leave = .next (s.raise EV.LEAVE_REFUSED 0 0 (leBytes 3 n)))
      ∧ (¬ named → n ∈ c.members → n ∉ c.leaves → leave = .next (s.setCk { c with leaves := c.leaves ++ [n] }))
      ∧ (¬ named → n ∉ c.members ∨ n ∈ c.leaves → leave = .next s)
      ∧ (2 ≤ s.fld F.DEV_RUNOUT_STS_stage → join = .next (((s.setFld F.WSTREAM_JOIN_STS_code E.RUNOUT_ACTIVE).setFld F.WSTREAM_JOIN_STS_node n).raise
          EV.JOIN_REFUSED 0 0 (leBytes 3 n ++ leBytes 2 E.RUNOUT_ACTIVE)))
      ∧ (s.fld F.DEV_RUNOUT_STS_stage < 2 → n ∈ c.standby → join = .next (s.setCk
          { c with standby := c.standby.filter (fun m => decide (m ≠ n)), joins := c.joins ++ [n] }))
      ∧ (s.fld F.DEV_RUNOUT_STS_stage < 2 → n ∉ c.standby → join = .next s))
    ∧ (root → exec .joinRecordRefresh s = .next (s.setWs { s.ws with joinTime := s.joinTime }))
    ∧ (¬ root → exec .joinRecordRefresh s = .next s)

/-- R205, R263, R274, R277-R281, R403, R418, R429, R431: jobs and their members. Where a go starts nothing is log 93; the code of a refused join, who is a member of the first step, and
that a join waits while a presence command is pending, log 183; the digests logs 51 and 94. -/
def Obligations.Jobs : Prop := Slice0.JobStart ∧ Slice0.JobEnd ∧ Slice0.JoinChecks ∧ Slice0.Join ∧ Slice0.MemberRequests

/-! ## The gradient plan and its tables (spec/09 R210, R211; spec/13 R295) -/

/-- R210, R211: a load is ignored while a job runs; two entries with one identifier refuse the plan with E_TIED_WEIGHT, another failure with E_PLAN_INVALID, and a plan in order is installed with its digest. -/
def Slice0.GradientPlan : Prop :=
  ∀ (v : W64) (s : State),
    let base := s.fld F.RED_PLAN_BASE
    let len := s.fld F.RED_PLAN_LEN
    let inside := 0 < len ∧ base + 32 * len ≤ s.edgeSize
    (v.getLsbD 0 = false ∨ s.jobLoaded = true → exec (.redPlanLoad v) s = .next s)
    ∧ (v.getLsbD 0 = true → s.jobLoaded = false →
      (∀ code, gradPlanCheck s = .inr code →
        exec (.redPlanLoad v) s = .next ((s.setFld F.RED_PLAN_STS_code code).raiseDev EV.PLAN_REFUSED (leBytes 2 code)))
      ∧ (∀ l, gradPlanCheck s = .inl l → Slice0.Does (.redPlanLoad v) s (fun t =>
          t.red = { s.red with plan := l } ∧ t.fld F.RED_PLAN_STS_code = 0
          ∧ t.group F.RED_PLAN_STS_digest_w1.addr 8 = (pieces 8 8 (sha512 (s.mem.bytes base (32 * len)))).map (fun b => BitVec.ofNat 64 (leNat b))
          ∧ t.mem = s.mem ∧ t.cores = s.cores ∧ t.events = s.events)))
    ∧ (∀ code, gradPlanCheck s = .inr code → code = E.TIED_WEIGHT ∨ code = E.PLAN_INVALID)
    ∧ (¬ inside → gradPlanCheck s = .inr E.PLAN_INVALID)
    ∧ (inside → ∀ i j, i < j → j < len → (readGEnt s base i).1 = (readGEnt s base j).1 → gradPlanCheck s = .inr E.TIED_WEIGHT)
    ∧ (∀ l, gradPlanCheck s = .inl l →
      l = (((List.range len).map (readGEnt s base)).filter (fun x => x.2.2.1)).map (fun x => x.2.1)
      ∧ (∀ e, e < len → let x := readGEnt s base e
          x.2.2.2 = true ∧ x.2.1.owner < s.fld F.RED_OWNER_LEN ∧ 0 < x.2.1.elems
          ∧ (x.2.2.1 = false → x.2.1.count = 0)
          ∧ (x.2.2.1 = true → 0 < x.2.1.count ∧ x.2.1.count ≤ blocksOf x.2.1.elems ∧ ceilDiv (blocksOf x.2.1.elems) x.2.1.count ≤ 65536)))

/-- R295: arming checks the tables of the bank not in use and the receive area; the bank is then armed for the next step boundary, or refused with E_RED_CHAIN_CFG or E_RED_RX_SMALL, the current tables kept.
Every reserved bit of an entry is 0; a valid one needs its place within its chain, and the neighbours that it has there, which must be other nodes reached by OFP links; the head's up and the
tail's down are ignored (log 70). -/
def Slice0.TablesArm : Prop :=
  ∀ (v : W64) (s : State),
    let bank := 1 - s.fld F.RED_STS_bank
    let entry := fun (c : Nat) => s.fld F.RED_CHAIN_BASE * 2 ^ 13 + bank * 0x2000 + 32 * c
    let good := (∀ c, c < 256 → s.mem.nat (entry c) 1 < 2 ∧ s.mem.nat (entry c + 1) 1 = 0 ∧ s.mem.nat (entry c + 16) 16 = 0)
      ∧ (∀ k, k < s.fld F.RED_OWNER_LEN → s.mem.nat (s.fld F.RED_OWNER_BASE * 2 ^ 19 + bank * 0x80000 + 8 * k) 4 < 2 ^ 22
          ∧ s.mem.nat (s.fld F.RED_OWNER_BASE * 2 ^ 19 + bank * 0x80000 + 8 * k + 4) 4 < 2 ^ 22)
      ∧ (∀ c, c < 256 → (s.chainEnt bank c).valid = true → (s.chainEnt bank c).ok s = true)
    let refused := fun (code : Nat) => exec (.redChainArm v) s =
      .next ((({ s with red := { s.red with armOk := false } }).setFld F.RED_STS_code code).raiseDev EV.RED_REFUSED (leBytes 2 code))
    (v.getLsbD 0 = false → exec (.redChainArm v) s = .next s)
    ∧ (v.getLsbD 0 = true → ¬ good → refused E.RED_CHAIN_CFG)
    ∧ (v.getLsbD 0 = true → good → s.fld F.RED_RX_SIZE < 2 * 68 * s.red.layerMax → refused E.RED_RX_SMALL)
    ∧ (v.getLsbD 0 = true → good → 2 * 68 * s.red.layerMax ≤ s.fld F.RED_RX_SIZE → Slice0.Does (.redChainArm v) s (fun t =>
        t.red = { s.red with armed := s.groupBytes F.RED_MEMB_DIGEST_w0 8, armOk := true } ∧ t.flag F.RED_STS_armed = true ∧ t.fld F.RED_STS_code = 0
        ∧ t.fld F.RED_STS_bank = s.fld F.RED_STS_bank ∧ t.mem = s.mem ∧ t.cores = s.cores))
    ∧ (∀ e : ChainEnt, e.ok s = true ↔ (1 ≤ e.len ∧ e.len ≤ 4096 ∧ e.pos < e.len) ∧ (e.pos = 0 ∨ chainNode s e.up = true)
        ∧ (e.pos + 1 = e.len ∨ chainNode s e.down = true))
    ∧ (∀ n : Nat, chainNode s n = true ↔ n < 2 ^ 22 ∧ s.isSelf n = false ∧ ∃ g, s.route n = .group g)
    ∧ (s.flag F.RED_STS_armed = true → (redStepStart s).red.mdig = s.red.armed ∧ (redStepStart s).fld F.RED_STS_bank = 1 - s.fld F.RED_STS_bank)
    ∧ (s.flag F.RED_STS_armed = false → (redStepStart s).red.mdig = s.red.mdig ∧ (redStepStart s).fld F.RED_STS_bank = s.fld F.RED_STS_bank)

/-- R295: incoming blocks. A stale packet is discarded and counted; those of an abandoned step are discarded; without room in the receive area the packet is held back; else its blocks wait there and RED looks
for work. -/
def Slice0.BlocksArrive : Prop :=
  ∀ (layer bucket chain kind no upset : Nat) (data : List Byte) (s : State),
    let fresh := leNat (data.take 7) = s.fld F.CKPT_STEP_step % 2 ^ 56 ∧ leNat ((data.drop 7).take 1) = s.fld F.RED_EPOCH
    let bs := pieces 68 ((data.length - 8) / 68) (data.drop 8)
    let room := 68 * (s.red.rx.length + bs.length) ≤ s.fld F.RED_RX_SIZE
    let r := gbkArrive layer bucket chain kind no upset data s
    (¬ fresh → r = (s.bump F.RED_STALE_CNT, true))
    ∧ (fresh → s.red.dropped = true → r = (s, true))
    ∧ (fresh → s.red.dropped = false → ¬ room → r = (s, false))
    ∧ (fresh → s.red.dropped = false → room → upset ≠ 0 → r =
      (({ s with red := { s.red with
        rx := s.red.rx ++ (bs.zip (List.range bs.length)).map (fun (p : List Byte × Nat) => (⟨layer, bucket, chain, kind, no + p.2, s.fld F.CKPT_STEP_step, p.1⟩ : RxBlk))
        upset := upset } }).redGo, true))
    ∧ (fresh → s.red.dropped = false → room → upset = 0 → r =
      (({ s with red := { s.red with
        rx := s.red.rx ++ (bs.zip (List.range bs.length)).map (fun (p : List Byte × Nat) => (⟨layer, bucket, chain, kind, no + p.2, s.fld F.CKPT_STEP_step, p.1⟩ : RxBlk)) } }).redGo, true))

/-- R210, R211, R295: plans, tables and incoming blocks. The receive area as a list of blocks, and what an addition meets, is log 182. -/
def Obligations.GradientTables : Prop := Slice0.GradientPlan ∧ Slice0.TablesArm ∧ Slice0.BlocksArrive

/-! ## Device time and wear (spec/16 R371-R381) -/

/-- R372, R373: DEV_TIME advances by the time that has passed and a slew of at most 200 parts per million of it, never backward, and the fields' copies are corrected from it; a write of DEV_TIME_SET steps it
forward, slews it backward, and is refused while a job is loaded. -/
def Slice0.TimeAdvances : Prop :=
  (∀ (elapsed : Nat) (s : State),
    let d := slewOf s.wear.slew elapsed
    d.natAbs ≤ elapsed * 200 / 1000000 ∧ 0 ≤ elapsed + d
    ∧ Slice0.Does (.devTimeCorrection elapsed) s (fun t => t.now = BitVec.ofInt 64 (s.now.toNat + (elapsed + d))
      ∧ t.wear = { s.wear with slew := s.wear.slew - d, copies := (List.range 64).map (fun f => (f, t.now)) }
      ∧ t.mem = s.mem ∧ t.cores = s.cores ∧ t.events = s.events))
  ∧ (∀ (v : W64) (s : State),
    (s.jobLoaded = true → exec (.devTimeSetWrite v) s = .next (s.setFld F.CLK_PTP_STS_code E.TIME_STEP))
    ∧ (s.jobLoaded = false → s.now.toNat ≤ v.toNat → Slice0.Does (.devTimeSetWrite v) s (fun t => t.now = v ∧ t.wear = { s.wear with slew := 0 } ∧ t.mem = s.mem))
    ∧ (s.jobLoaded = false → v.toNat < s.now.toNat →
      exec (.devTimeSetWrite v) s = .next { s with wear := { s.wear with slew := (v.toNat : Int) - s.now.toNat } }))

/-- R373-R375: a sync message of the configured domain and transport disciplines DEV_TIME: sixteen good ones in a row lock it. Their loss after a lock puts it in HOLDOVER, whose bound grows by 100 ns a second, and
beyond the configured bound in FREE; where there has been no lock, or none since that bound was exceeded, it goes from ACQUIRING to FREE. -/
def Slice0.TimeStates : Prop :=
  (∀ (m : PtpMsg) (s : State),
    let ok := s.lodgeRuns = true ∧ m.valid = true ∧ m.domain.toNat = s.fld F.CLK_PTP_CFG_domain ∧ m.transport.toNat = s.fld F.CLK_PTP_CFG_transport
    let near := m.offset.natAbs ≤ 1000
    let good := Nat.min 16 (s.wear.good + 1)
    (¬ ok → exec (.ptpMessage m) s = .next s)
    ∧ (ok → near → s.fld F.CLK_PTP_STS_state = 2 →
      exec (.ptpMessage m) s = .next (({ s with wear := { s.wear with good := good, slew := m.offset, lock := true } }).setPtp 2 1000))
    ∧ (ok → near → s.fld F.CLK_PTP_STS_state ≠ 2 → 15 ≤ s.wear.good →
      exec (.ptpMessage m) s = .next ((({ s with wear := { s.wear with good := good, slew := m.offset, lock := true } }).setPtp 2 1000).raiseDev EV.TIME_LOCK []))
    ∧ (ok → near → s.fld F.CLK_PTP_STS_state ≠ 2 → s.wear.good < 15 →
      exec (.ptpMessage m) s = .next (({ s with wear := { s.wear with good := good, slew := m.offset } }).setPtp 1 m.offset.natAbs))
    ∧ (ok → ¬ near → (s.jobLoaded = true ∨ m.offset ≤ 100000) →
      exec (.ptpMessage m) s = .next (({ s with wear := { s.wear with good := 0, slew := m.offset } }).setPtp 1 m.offset.natAbs))
    ∧ (ok → s.jobLoaded = false → 100000 < m.offset → Slice0.Does (.ptpMessage m) s (fun t =>
        t.now = BitVec.ofInt 64 (s.now.toNat + m.offset) ∧ t.wear = { s.wear with good := 0, slew := 0 } ∧ t.fld F.CLK_PTP_STS_state = 1
        ∧ t.fld F.CLK_PTP_STS_err_ns = Nat.min m.offset.natAbs 0xFFFFFFFF ∧ t.mem = s.mem ∧ t.events = s.events)))
  ∧ (∀ (secs : Nat) (s : State),
    let s1 := { s with wear := { s.wear with good := 0 } }
    (s.fld F.CLK_PTP_STS_state = 0 → exec (.ptpSyncLoss secs) s = .next s)
    ∧ (s.fld F.CLK_PTP_STS_state = 1 → s.wear.lock = false → exec (.ptpSyncLoss secs) s = .next (s1.setPtp 0 0xFFFFFFFF))
    ∧ (s.fld F.CLK_PTP_STS_state = 2 ∨ (s.fld F.CLK_PTP_STS_state = 1 ∧ s.wear.lock = true) → exec (.ptpSyncLoss secs) s = .next ((s1.setPtp 3 (1000 + 100 * secs)).raiseDev EV.TIME_HOLDOVER []))
    ∧ (s.fld F.CLK_PTP_STS_state = 3 → exec (.ptpSyncLoss secs) s = .next (s1.setPtp 3 (1000 + 100 * secs)))
    ∧ (s.fld F.CLK_PTP_STS_state = 3 → s.fld F.CLK_PTP_CFG_holdover_ns < 1000 + 100 * secs →
      exec (.ptpHoldoverExceeded secs) s = .next ((State.setPtp { s with wear := { s.wear with lock := false } } 0 0xFFFFFFFF).raiseDev EV.TIME_UNSYNC (leBytes 4 (1000 + 100 * secs))))
    ∧ (s.fld F.CLK_PTP_STS_state ≠ 3 ∨ 1000 + 100 * secs ≤ s.fld F.CLK_PTP_CFG_holdover_ns → exec (.ptpHoldoverExceeded secs) s = .next s))
  ∧ (∀ (st err : Nat) (s : State), st < 4 → (s.setPtp st err).fld F.CLK_PTP_STS_state = st
      ∧ (s.setPtp st err).fld F.CLK_PTP_STS_err_ns = Nat.min err 0xFFFFFFFF ∧ (s.setPtp st err).now = s.now)

/-- R372-R375: device time. A step, its slew and the corrections of the copies are log 150. -/
def Obligations.DeviceTime : Prop := Slice0.TimeAdvances ∧ Slice0.TimeStates

/-- R371, R27: a field whose reference deviates takes that of a neighbour of its half and keeps it, or, with none, its sites send no heartbeats and fail by the samples that they miss (log 151). -/
def Slice0.Borrowing : Prop :=
  ∀ (field : BitVec 6) (s : State),
    let f := field.toNat
    (∀ m : BitVec 6, m.toNat ∈ neighbours f ↔ halfOfField m.toNat = halfOfField f ∧ fieldDist m.toNat f = 1)
    ∧ (∀ m : BitVec 6, m.toNat ∈ neighbours f → s.flag (F.CLK_FIELD_STS_borrowed f) = false → exec (.fieldRefDeviation field (some m)) s =
      .next (((State.setFlag { s with wear := { s.wear with noRef := s.wear.noRef.filter (fun g => decide (g ≠ f)) } } (F.CLK_FIELD_STS_borrowed f) true).setFld (F.CLK_FIELD_STS_neighbour f) m.toNat).raise EV.CLK_REF_FAIL 3
        f (leBytes 1 f ++ leBytes 1 m.toNat)))
    ∧ (∀ m : BitVec 6, m.toNat ∉ neighbours f ∨ s.flag (F.CLK_FIELD_STS_borrowed f) = true → exec (.fieldRefDeviation field (some m)) s = .next s)
    ∧ (f ∈ s.wear.noRef → exec (.fieldRefDeviation field none) s = .next s)
    ∧ (f ∉ s.wear.noRef → exec (.fieldRefDeviation field none) s = .next { s with wear := { s.wear with noRef := f :: s.wear.noRef } })
    ∧ (∀ missed : BitVec 16, f ∈ s.wear.noRef → exec (.heartbeatSample field missed) s = exec (.heartbeatSample field 0xFFFF) s)

/-- R377, R378: slack is sampled in RUN and the hundredth sample below the guard in a row removes the highest valid point; Vmin is measured in IDLE and RET, and one more than 10 mV above the plan's is reported. -/
def Slice0.WearSamples : Prop :=
  (∀ (site : BitVec 10) (slack temp : BitVec 16) (s : State),
    let p := site.toNat
    let m := Sparse.get s.wear.last (0, 0, 0) p
    let s1 := { s with wear := { s.wear with last := Sparse.put s.wear.last p (slack.toNat, m.2.1, temp.toNat) } }
    let n := Sparse.get s.wear.low 0 p + 1
    (s.sitePower p ≠ 3 → exec (.wearSlackSample site slack temp) s = .next s)
    ∧ (s.sitePower p = 3 →
      ((s.fld F.CLK_WEAR_CFG_guard_ps : Int) ≤ slack.toInt → exec (.wearSlackSample site slack temp) s =
        .next { s1 with wear := { s1.wear with low := Sparse.drop s1.wear.low p } })
      ∧ (slack.toInt < s.fld F.CLK_WEAR_CFG_guard_ps → n < 100 → exec (.wearSlackSample site slack temp) s =
        .next { s1 with wear := { s1.wear with low := Sparse.put s1.wear.low p n } })
      ∧ (∀ k, slack.toInt < s.fld F.CLK_WEAR_CFG_guard_ps → 100 ≤ n → s.topPoint p = some k → Slice0.Does (.wearSlackSample site slack temp) s (fun t =>
          t.vfValid p k = false ∧ (∀ j, j < 16 → j ≠ k → t.vfValid p j = s.vfValid p j) ∧ k ∉ t.points p ∧ t.wear.last = s1.wear.last
          ∧ t.wear.low = Sparse.drop s.wear.low p ∧ t.mem = s.mem ∧ t.cores = s.cores))
      ∧ (slack.toInt < s.fld F.CLK_WEAR_CFG_guard_ps → 100 ≤ n → s.topPoint p = none → exec (.wearSlackSample site slack temp) s =
        .next (wearEvent p 1 slack.toNat { s1 with wear := { s1.wear with low := Sparse.drop s1.wear.low p } }))))
  ∧ (∀ (site : BitVec 10) (vmin temp : BitVec 16) (s : State),
    let p := site.toNat
    let m := Sparse.get s.wear.last (0, 0, 0) p
    let s1 := { s with wear := { s.wear with last := Sparse.put s.wear.last p (m.1, vmin.toNat, temp.toNat) } }
    (s.sitePower p ≠ 1 → s.sitePower p ≠ 2 → exec (.vminMeasure site vmin temp) s = .next s)
    ∧ (s.sitePower p = 1 ∨ s.sitePower p = 2 →
      (Sparse.find s.wear.vmin p = none → exec (.vminMeasure site vmin temp) s = .next s1)
      ∧ (∀ v, Sparse.find s.wear.vmin p = some v → v + 10 < vmin.toNat → exec (.vminMeasure site vmin temp) s = .next (wearEvent p 2 vmin.toNat s1))
      ∧ (∀ v, Sparse.find s.wear.vmin p = some v → vmin.toNat ≤ v + 10 → exec (.vminMeasure site vmin temp) s = .next s1)))

/-- R379-R381: a plan sets each point in steps of 5 mV with the guard, never below the plan before; a point is valid up to 0.90 V and 0.85 V; a site with no valid point goes on at point 0 with 0.90 V. The points in
force until then stay until the next iteration of the loop, and the forecasts are made from the last twelve plans (the slopes and the line as log 85 reads them). -/
def Slice0.WearPlan : Prop :=
  ∀ (site : BitVec 10) (q : PlanIn) (s : State), Slice0.Does (.wearReplan site q) s (fun t =>
    let p := site.toNat
    let v := fun k => Nat.max (5 * ceilDiv (planNeed s p q k + s.guardUv p) 5000) (s.vcore p k)
    let m := fun k => Nat.max (Nat.max 550 (q.vminMv + 50)) (s.vsram p k)
    let dead := ∀ k, k < 16 → ¬ (v k ≤ 900 ∧ m k ≤ 850)
    (∀ k, k < 16 → (t.vfValid p k = true ↔ v k ≤ 900 ∧ m k ≤ 850) ∧ t.vsram p k = Nat.min (m k) 1023
      ∧ t.vcore p k = Nat.min (v k) 1023)
    ∧ (dead → t.topPoint p = none ∧ t.runVcore p 0 = 900)
    ∧ t.points p = s.points p
    ∧ t.wear.vmin = Sparse.put s.wear.vmin p q.vminMv
    ∧ t.wear.last = Sparse.put s.wear.last p (q.slackPs.toNat, q.vminMv, q.temp.toNat)
    ∧ t.wear.log.length = Nat.min (s.wear.log.length + 1) 65536
    ∧ t.fld F.CLK_WEAR_LOG_HEAD = (s.fld F.CLK_WEAR_LOG_HEAD + 1) % 65536
    ∧ t.fld F.CLK_WEAR_STS_days_top
      = (t.wear.plans.map (fun r => lineDays (r.2.map (·.1)) (s.fld F.CLK_WEAR_CFG_plan_days))).foldl Nat.min 0xFFFFFFFF
    ∧ t.mem = s.mem ∧ t.cores = s.cores)

/-- R371, R377-R381: field references, wear samples and plans. The slopes and the forecasts are log 85, the records of the wear log and the voltages log 152. -/
def Obligations.Wear : Prop := Slice0.Borrowing ∧ Slice0.WearSamples ∧ Slice0.WearPlan

/-! ## The Lodge (spec/17 R384-R386, R390-R395, R406; spec/15 R349, R361; spec/20 R446) -/

/-- R384, R385: a watchdog, a memory error and a write of 1 to DEV_LODGE_CTL restart the Lodge, during a restart and in recovery too: sessions close, a staged command is discarded, and events wait until it is back.
In stage 3 the boot chain of that stage begins again; before it there is no Lodge (log 160). -/
def Slice0.LodgeRestarts : Prop :=
  (∀ c ∈ ([(Instr.lodgeWatchdogExpiry 0, 0), (.lodgeMemoryError, 1), (.devLodgeRestart 1, 2)] : List (Instr × Nat)), ∀ s : State,
    let d := presDiscard s
    let go := fun (r : Option Nat) => ({ d with lodge := { d.lodge with restart := r, sessions := [], recovery := false } }).raiseDev EV.LODGE_RESTART (leBytes 1 c.2)
    (s.fld F.DEV_BOOT_STS_stage < 3 → exec c.1 s = .next s)
    ∧ (s.fld F.DEV_BOOT_STS_stage = 3 → exec c.1 s = .next (go s.lodge.restart))
    ∧ (3 < s.fld F.DEV_BOOT_STS_stage → exec c.1 s = .next (go (some c.2)) ∧ (go (some c.2)).events = s.events))
  ∧ (∀ (w : BitVec 3) (v : W64) (s : State), exec (.lodgeWatchdogExpiry w) s = exec (.lodgeWatchdogExpiry 0) s
    ∧ (v.getLsbD 0 = false → exec (.devLodgeRestart v) s = .next s) ∧ (v.getLsbD 0 = true → exec (.devLodgeRestart v) s = exec (.devLodgeRestart 1) s))
  ∧ (∀ s : State, (s.lodge.staged = none → presDiscard s = s)
    ∧ (s.lodge.staged.isSome = true → (presDiscard s).lodge = { s.lodge with staged := none } ∧ (presDiscard s).flag F.SEC_PRES_STS_pending = false
      ∧ (presDiscard s).fld F.SEC_PRES_STS_code = E.PRES_TIMEOUT))
  ∧ (∀ (b : BootIn) (s : State),
    let s1 := bootChain false b { s with lodge := { s.lodge with sessions := [] } }
    (s.lodge.restart = none → exec (.lodgeRestartDone b) s = .next s)
    ∧ (s.lodge.restart.isSome = true → s1.lodge.recovery = true → exec (.lodgeRestartDone b) s = .next s1)
    ∧ (s.lodge.restart.isSome = true → s1.lodge.recovery = false → exec (.lodgeRestartDone b) s = .next (lodgeBack s1)))
  ∧ (∀ s : State, (lodgeBack s).lodge.restart = none ∧ (lodgeBack s).lodge.buf = [] ∧ (lodgeBack s).mem = s.mem ∧ (lodgeBack s).cores = s.cores
    ∧ (s.lodge.buf = [] → (lodgeBack s).events = s.events))
  ∧ (∀ s : State, (s.lodgeRuns = false ∨ s.pwr.off = true → exec .powerLoopWatchdog s = .next s)
    ∧ (s.lodgeRuns = true → s.pwr.off = false → s.flag F.PWR_STS_clamp = true → exec .powerLoopWatchdog s = .next (engage 5 s))
    ∧ (s.lodgeRuns = true → s.pwr.off = false → s.flag F.PWR_STS_clamp = false →
      exec .powerLoopWatchdog s = .next ((engage 5 s).setFld F.PWR_CLAMP_STS_stretch 32)))

/-- R390, R391, R393: stages that verify boot from the copy tried first, else from the other one with EV_BOOT_FALLBACK and the code; with neither the module stays in recovery. What runs is measured, and keys of flash that the PUF key
does not open are not there (stage by stage: log 163; which bytes: log 164; what a first start holds: log 6). -/
def Slice0.FirmwareBoot : Prop :=
  (∀ (b : BootIn) (down : Option Nat) (c st : Nat) (s : State),
    (s.fwCopy c = none → fwFails b down c s st = some E.FW_SIG)
    ∧ (∀ f, s.fwCopy c = some f →
      ((b.fwBad.any (fun p => decide (p.1.toNat = c ∧ p.2 = st)) = true ∨ (st = 0 ∧ f.root ≠ s.lodge.rom)) → fwFails b down c s st = some E.FW_SIG)
      ∧ (b.fwBad.any (fun p => decide (p.1.toNat = c ∧ p.2 = st)) = false → (st = 0 → f.root = s.lodge.rom) →
        (f.svn.toNat < s.lodge.nsvn → down ≠ some c → fwFails b down c s st = some E.FW_ROLLBACK)
        ∧ (s.lodge.nsvn ≤ f.svn.toNat ∨ down = some c → fwFails b down c s st = none))))
  ∧ (∀ (b : BootIn) (down : Option Nat) (c : Nat) (sts : List Nat) (s : State),
    ((∀ st ∈ sts, fwFails b down c s st = none) → fwLoad b down c sts s = (fwMeasure c sts s, some c))
    ∧ (∀ st code, fwFirst b down c sts s = some (st, code) →
      let s1 := (s.raiseDev EV.BOOT_FALLBACK (leBytes 1 st ++ leBytes 2 code)).setFld F.SEC_FW_STS_code code
      let s2 := if c = s1.fwActive then s1 else ({ s1 with lodge := { s1.lodge with ready := false } }).setFld F.SEC_FW_STS_staged 2
      ((∀ st2 ∈ sts, fwFails b none (1 - c) s2 st2 = none) → fwLoad b down c sts s = (fwMeasure (1 - c) sts s2, some (1 - c)))
      ∧ ((∃ st2 ∈ sts, (fwFails b none (1 - c) s2 st2).isSome = true) → (fwLoad b down c sts s).2 = none ∧ (fwLoad b down c sts s).1.lodge.recovery = true)))
  ∧ (∀ (full : Bool) (b : BootIn) (s : State), b.pufFail = true →
    (bootChain full b s).lodge.recovery = true ∧ (bootChain full b s).lodge.keys = false ∧ (bootChain full b s).mem = s.mem ∧ (bootChain full b s).cores = s.cores)
  ∧ (∀ (i : Nat) (digest : List Byte) (s : State), (measure i digest s).group (measFld i).addr 8 = (wordsOf (sha512 (s.groupBytes (measFld i) 8 ++ digest))).take 8
    ∧ (measReset i s).group (measFld i).addr 8 = List.replicate 8 0)

/-- R394, R395, Table 17-7: a record comes into use from the copy whose signature verifies and whose write count is the one held; with none its type takes its default and EV_REC_FAIL reports why.
Without the record of the core map nothing changes before the next self-test, which takes every site as SPARE. Erased records: log 162; a module that starts for the first time: log 6. -/
def Slice0.RecordsBoot : Prop :=
  (∀ (type : Nat) (s : State),
    (∀ c, s.recordCopy type = some c → recordBoot s type = recordUse type c s ∧ c.intact = true ∧ c.wcount = Sparse.get s.lodge.held 0 type
      ∧ Sparse.find (recordBoot s type).lodge.recs type = some c.payload)
    ∧ (s.recordCopy type = none → recordBoot s type = recordFails type s ∧ (s.recordCode type = E.REC_REPLAY ∨ s.recordCode type = E.REC_SIG)))
  ∧ (∀ s : State, (recordFails 3 s).lodge.nsvn = s.lodge.burned ∧ (recordFails 7 s).lodge.store = [] ∧ (recordFails 6 s).lodge.noCal = true
    ∧ (recordFails 8 s).lodge.opened = false ∧ (recordFails 9 s).lodge.noIv = true ∧ (recordFails 2 s).ownerKey = none
    ∧ (recordFails 6 s).pwr.crev = [] ∧ Sparse.find (recordFails 4 s).lodge.recs 4 = none
    ∧ (∀ p, p < 1024 → (recordFails 4 s).siteState p = s.siteState p)
    ∧ (Sparse.find s.lodge.recs 4 = none → ∀ p, p < 1024 → (newMap s).siteState p = siSpare)
    ∧ ((Sparse.find s.lodge.recs 4).isSome = true → newMap s = s))

/-- R396-R398: what the PUF key wraps does not open without it; an entry of the key store serves the purpose that its slot names and no other; a deposit beyond the 64 slots, one above 512 bytes and one before the keys are there
change nothing (the form of a deposit: log 207). -/
def Slice0.KeysAtRest : Prop :=
  (∀ iv ct tag, keyUnseal false iv ct tag = none)
  ∧ (∀ (slot purpose : Nat) (w : List Byte) (s : State),
    let k := Config.wk s.idGen
    (64 ≤ slot ∨ s.lodge.keys = false → keyDeposit slot purpose w s = s)
    ∧ (∀ key, oaepOpen k.n k.d [] w = some key → 512 < key.length → keyDeposit slot purpose w s = s)
    ∧ (∀ key, oaepOpen k.n k.d [] w = some key → key.length ≤ 512 → slot < 64 → s.lodge.keys = true → s.lodge.debug = false →
      ∃ e, Sparse.find (keyDeposit slot purpose w s).lodge.store slot = some e ∧ e.purpose = purpose ∧ e.ct = (keyWrap e.iv key).1 ∧ e.tag = (keyWrap e.iv key).2)
    ∧ (∀ e, Sparse.find s.lodge.store slot = some e → e.purpose ≠ purpose → s.storeEntry slot purpose = none)
    ∧ (∀ e, Sparse.find s.lodge.store slot = some e → s.storeEntry slot e.purpose = keyUnseal s.lodge.keys e.iv e.ct e.tag))

/-- R446, R361, R406: the end of hold-up, a coolant leak, a push of events (what the next start is: log 161; HOLDUP_END without an input failure: log 167; what a push holds: log 132). -/
def Slice0.LodgeEvents : Prop :=
  (∀ s : State, (s.pwr.failed = false → exec .holdupEnd s = .next s)
    ∧ (s.pwr.failed = true → Slice0.Does .holdupEnd s (fun t => t.boot.present = false ∧ t.fld F.DEV_BOOT_STS_stage = State.reset.fld F.DEV_BOOT_STS_stage
        ∧ t.events = [] ∧ t.jobLoaded = false ∧ t.joined = false)))
  ∧ (∀ (sensor : BitVec 2) (s : State),
    let s1 := (s.raiseDev EV.COOLANT_LEAK (leBytes 1 sensor.toNat)).setFlag F.PWR_SERVICE_STS_leak true
    let a := s.fld F.PWR_LEAK_CFG_action
    (a = 0 ∨ a = 3 → exec (.coolantLeak sensor) s = .next s1)
    ∧ (a = 1 → exec (.coolantLeak sensor) s = .next (runoutNow s1))
    ∧ (a = 2 → s.pwr.off = true → exec (.coolantLeak sensor) s = .next s1)
    ∧ (a = 2 → s.pwr.off = false → exec (.coolantLeak sensor) s = .next (enterHold 2 { s1 with pwr := { s1.pwr with leak := true } })))
  ∧ (∀ (k : BitVec 4) (s : State),
    (s.lodgeRuns = false ∨ Sparse.find s.lodge.sessions k.toNat = none → exec (.evtSubscribePush k) s = .next s)
    ∧ (∀ ses, Sparse.find s.lodge.sessions k.toNat = some ses →
      (ses.sub = none → exec (.evtSubscribePush k) s = .next s)
      ∧ (∀ first, ses.sub = some first → (evtFrom first 32767 s).1 = [] → exec (.evtSubscribePush k) s = .next s)
      ∧ (∀ first r l, ses.sub = some first → s.lodgeRuns = true → (evtFrom first 32767 s).1 = r :: l → Slice0.Does (.evtSubscribePush k) s (fun t =>
          t.net.sent = .mgmt k.toNat (mgmtMsg 0x000C 0 0 (evtBody (r :: l) first)) :: s.net.sent
          ∧ Sparse.find t.lodge.sessions k.toNat
            = some { ses with sub := some ((((r :: l).getLast?.map (·.seq)).getD first + 1) % 2 ^ 32), gap := ses.gap || (evtFrom first 32767 s).2 }
          ∧ t.events = s.events ∧ t.mem = s.mem ∧ t.regs = s.regs))))

/-- R349, R361, R384-R386, R390-R398, R406, R446: restarts of the Lodge, its boot chain, records and keys, and events that concern it. Its clauses rest as well on logs 6, 52, 132 and 160 to 164, 167 and 207. -/
def Obligations.Lodge : Prop := Slice0.LodgeRestarts ∧ Slice0.FirmwareBoot ∧ Slice0.RecordsBoot ∧ Slice0.KeysAtRest ∧ Slice0.LodgeEvents

/-! ## The management protocol (spec/17 R386-R389, R392, R399-R403) -/

/-- R387, R388, Table 17-4: a request of an open session. A body of another layout is answered with E_MGMT_FORMAT, a role that may not send it with E_MGMT_ROLE, neither with any effect; a good one has its effect and is
answered with its status and body. A reserved operation or word and a nonzero status are errors of format (log 130), and in recovery every request but FW_STAGE is. -/
def Slice0.Requests : Prop :=
  -- the requests of Table 17-4: constructor, operation, layout of the body, roles, effect
  ∀ (s : State), ∀ e ∈ (
      [(.regRead, 1, fun b => b.length == 16 && decide (1 ≤ numAt b 8 2 ∧ numAt b 8 2 ≤ 256) && zeroAt b 10 6, fun _ _ => true, fun _ => regReadOp),
       (.regWrite, 2, fun b => b.length == 16, fun ses _ => ses.role == 2, fun _ => regWriteOp),
       (.evtRead, 3, fun b => b.length == 8 && decide (1 ≤ numAt b 4 4 ∧ numAt b 4 4 ≤ 32767), fun _ _ => true, fun _ => evtReadOp),
       (.telRead, 4, fun b => b.length == 16 && decide (1 ≤ numAt b 8 4 ∧ numAt b 8 4 ≤ 28) && zeroAt b 12 4, fun _ _ => true, fun _ => telReadOp),
       (.wearRead, 5, fun b => b.length == 8 && decide (numAt b 0 4 ≤ 65535 ∧ 1 ≤ numAt b 4 4 ∧ numAt b 4 4 ≤ 16383), fun _ _ => true, fun _ => wearReadOp),
       (.attest, 6, fun b => b.length == 64, fun _ _ => true, fun _ => attestOp),
       (.cap, 7, fun b => b.length == 16 && decide (numAt b 4 1 ≤ 1) && zeroAt b 5 3 && zeroAt b 12 4, fun ses _ => decide (1 ≤ ses.role), fun _ => capOp),
       (.keyInstall, 8, fun b => b.length == 520 && zeroAt b 2 6, fun ses _ => ses.role == 2, fun _ => keyOp),
       (.fwStage, 9, fun b => decide (16 ≤ b.length ∧ b.length = 16 + numAt b 8 4 ∧ numAt b 0 4 + numAt b 8 4 ≤ numAt b 4 4) && zeroAt b 12 4,
         fun ses _ => ses.role == 2, fun _ => fwOp),
       (.recWrite, 10, fun b => decide (b.length = 528 + numAt b 8 4 ∧ (numAt b 0 1 = 1 ∨ numAt b 0 1 = 5)) && zeroAt b 1 7 && zeroAt b 12 4,
         fun ses _ => ses.role == 2, fun _ => recOp),
       (.presStage, 11, presLayout s, presRole s, fun _ => presOp),
       (.evtSubscribe, 12, fun b => b.length == 8 && zeroAt b 4 4, fun _ _ => true, fun r => evtSubOp r.session.toNat)] :
      List ((MgmtReq → Instr) × Nat × (List Byte → Bool) × (Session → List Byte → Bool) × (MgmtReq → MgmtOp))),
    ∀ (r : MgmtReq) (ses : Session),
    let k := r.session.toNat
    (Sparse.find s.lodge.sessions k = none ∨ s.portUp = false → exec (e.1 r) s = .next s)
    ∧ (Sparse.find s.lodge.sessions k = some ses → s.portUp = true →
      (∀ o, r.reserved = some o → exec (e.1 r) s = .next (respond o.toNat k r.tag.toNat E.MGMT_FORMAT [] s))
      ∧ (r.reserved = none → r.rsv ≠ 0 ∨ r.status ≠ 0 ∨ 2 ^ 20 < r.body.length ∨ e.2.2.1 r.body = false ∨ (s.lodge.recovery = true ∧ e.2.1 ≠ 9) →
        exec (e.1 r) s = .next (respond e.2.1 k r.tag.toNat E.MGMT_FORMAT [] s))
      ∧ (r.reserved = none → r.rsv = 0 → r.status = 0 → r.body.length ≤ 2 ^ 20 → e.2.2.1 r.body = true → (s.lodge.recovery = false ∨ e.2.1 = 9) →
        (e.2.2.2.1 ses r.body = false → exec (e.1 r) s = .next (respond e.2.1 k r.tag.toNat E.MGMT_ROLE [] s))
        ∧ (e.2.2.2.1 ses r.body = true →
          let p := e.2.2.2.2 r ses r.body s
          exec (e.1 r) s = .next (respond e.2.1 k r.tag.toNat p.2.1 p.2.2 p.1))))

/-- R387, R406: a response carries the operation, the status and the tag of its request, and its body only when it is good; one to a session that has missed records says E_EVT_GAP once, in its next good response (log 132). -/
def Slice0.Answers : Prop :=
  ∀ (op k tag status : Nat) (body : List Byte) (s : State),
    let ses := Sparse.get s.lodge.sessions ({ role := 0 } : Session) k
    let good := status = 0 ∨ status = E.EVT_GAP
    (ses.gap = false ∨ ¬ good → respond op k tag status body s =
      { s with net := { s.net with sent := .mgmt k (mgmtMsg op status tag (if good then body else [])) :: s.net.sent } })
    ∧ (ses.gap = true → good → respond op k tag status body s =
      { s with lodge := { s.lodge with sessions := Sparse.put s.lodge.sessions k { ses with gap := false } }
               net := { s.net with sent := .mgmt k (mgmtMsg op E.EVT_GAP tag body) :: s.net.sent } })

/-- R386, Table 17-3: a session is opened in the role its client has, under an identifier that is free; a client that proves no key, or has no role, is refused and reported (an identifier in use, an owner's key and a module without one: log 168). -/
def Slice0.Sessions : Prop :=
  ∀ (k : BitVec 4) (c : ClientIn) (s : State),
    (s.portUp = false → exec (.mgmtConnect k c) s = .next s)
    ∧ (s.portUp = true →
      (clientRole c s = none → exec (.mgmtConnect k c) s = .next (s.raiseDev EV.MGMT_AUTH_FAIL (leBytes 8 (c.keyDigest.toNat % 2 ^ 64))))
      ∧ (∀ role, clientRole c s = some role →
        ((Sparse.find s.lodge.sessions k.toNat).isSome = true → exec (.mgmtConnect k c) s = .next s)
        ∧ (Sparse.find s.lodge.sessions k.toNat = none → exec (.mgmtConnect k c) s =
          .next { s with lodge := { s.lodge with sessions := Sparse.put s.lodge.sessions k.toNat { role := role } } })))
    ∧ (c.proven = false → clientRole c s = none)
    ∧ (c.proven = true → s.record 2 = none → clientRole c s = some 0)
    ∧ (∀ key, c.proven = true → s.record 2 = some key → sha512 key = leBytes 64 c.keyDigest.toNat → clientRole c s = some 2)

/-- R347, R389, R394, R401, R403, Table 17-4: REG_READ and REG_WRITE move registers, never memory or the SEC block; a signed record is stored; a second staged command, one while a job is loaded and one with another nonce
are refused with their codes; reports and reads change nothing. What REG_READ and REG_WRITE reach is log 131, CAP and KEY_INSTALL log 133, PRES_STAGE log 135, what a report holds log 136, gaps log 132. -/
def Slice0.RequestEffects : Prop :=
  ∀ (ses : Session) (b : List Byte) (s : State),
    let a := numAt b 0 8
    (s.wordsOk a 1 = false → regWriteOp ses b s = (s, E.MGMT_FORMAT, []))
    ∧ (s.wordsOk a 1 = true → 0x3000B000000 ≤ a → a < 0x3000C000000 → regWriteOp ses b s = (s, E.MGMT_ROLE, []))
    ∧ (s.wordsOk a 1 = true → a < 0x3000B000000 ∨ 0x3000C000000 ≤ a → regWriteOp ses b s = (regWriteBytes none a (b.drop 8) s, 0, []))
    ∧ (s.wordsOk a (numAt b 8 2) = false → regReadOp ses b s = (s, E.MGMT_FORMAT, []))
    ∧ (numAt b 8 2 = 1 → s.wordsOk a 1 = true → regReadOp ses b s = ((s.regBytes a 8).1, 0, (s.regBytes a 8).2))
    ∧ (s.ownerSigned b = false → recOp ses b s = (s, E.REC_SIG, []))
    ∧ (s.ownerSigned b = true → recOp ses b s = (recordPut (numAt b 0 1) ((b.drop 16).take (numAt b 8 4)) s, 0, []))
    ∧ (s.jobLoaded = true → presOp ses b s = (newNonce s, E.PRES_JOB, []))
    ∧ (s.jobLoaded = false → s.lodge.staged.isSome = true → presOp ses b s = (newNonce s, E.PRES_BUSY, []))
    ∧ (s.jobLoaded = false → s.lodge.staged = none →
      let signed := (b.drop 8).take 64 = s.groupBytes F.SEC_PRES_NONCE_w0 8 ∧ (s.ownerKey = none ∨ s.ownerSigned b = true)
      (¬ signed → presOp ses b s = (newNonce s, E.PRES_SIG, []))
      ∧ (signed → (presOp ses b s).2.1 = 0 ∧ (presOp ses b s).1.flag F.SEC_PRES_STS_pending = true
        ∧ (presOp ses b s).1.fld F.SEC_PRES_STS_cmd = numAt b 0 1 % 8
        ∧ (presOp ses b s).1.lodge = { s.lodge with staged := some { cmd := numAt b 0 1, arg := (b.drop 72).take (presArg (numAt b 0 1)) } }))
    ∧ (numAt b 8 4 ≤ s.fld F.PWR_CAP_STS_seq → (capOp ses b s).2.1 = E.CAP_SEQ)
    ∧ (s.fld F.PWR_CAP_STS_seq < numAt b 8 4 → (capOp ses b s).2.1 = 0)
    ∧ ((attestOp ses b s).1 = s.tick ∧ (attestOp ses b s).2.1 = 0 ∧ (b.length = 64 → ((attestOp ses b s).2.2).take 1792 = reportBody b s))
    ∧ ((evtReadOp ses b s).1 = s ∧ (telReadOp ses b s).1 = s ∧ (wearReadOp ses b s).1 = s)
    ∧ ((keyOp ses b s).2.1 = (keyOp ses b s).1.fld F.WSTREAM_KEY_STS_code)
    ∧ (∀ k,
      let next := ((evtFrom (numAt b 0 4) 32767 s).1.getLast?.map (fun (e : EvtRec) => (e.seq + 1) % 2 ^ 32)).getD (numAt b 0 4)
      Sparse.find (evtSubOp k ses b s).1.lodge.sessions k = some { ses with sub := some next })

/-- R392, R393: the pieces of a bundle follow one another from offset 0, the first one clearing the copy not in use; a whole bundle is verified and staged, or refused with E_FW_SIG or E_FW_ROLLBACK (log 134). -/
def Slice0.BundleStaging : Prop :=
  (∀ (ses : Session) (b : List Byte) (s : State),
    let off := numAt b 0 4
    let total := numAt b 4 4
    let clear := ({ s with lodge := { s.lodge with
      piece := some { total := total, data := [] }, fw := s.lodge.fw.set (1 - s.fwActive) none, downgrade := false, ready := false } }).setFld F.SEC_FW_STS_staged 0
    (off = 0 → (b.drop 16).length < total → fwOp ses b s =
      ({ clear with lodge := { clear.lodge with piece := some { total := total, data := b.drop 16 } } }, 0, []))
    ∧ (off = 0 → total ≤ (b.drop 16).length → fwOp ses b s = ((fwWhole (b.drop 16) clear).1, (fwWhole (b.drop 16) clear).2, []))
    ∧ (off ≠ 0 → s.lodge.piece = none → fwOp ses b s = (s, E.MGMT_FORMAT, []))
    ∧ (∀ p, off ≠ 0 → s.lodge.piece = some p →
      (p.total ≠ total ∨ p.data.length ≠ off → fwOp ses b s = (s, E.MGMT_FORMAT, []))
      ∧ (p.total = total → p.data.length = off → (p.data ++ b.drop 16).length < total → fwOp ses b s =
        ({ s with lodge := { s.lodge with piece := some { total := total, data := p.data ++ b.drop 16 } } }, 0, []))
      ∧ (p.total = total → p.data.length = off → total ≤ (p.data ++ b.drop 16).length →
        fwOp ses b s = ((fwWhole (p.data ++ b.drop 16) s).1, (fwWhole (p.data ++ b.drop 16) s).2, []))))
  ∧ (∀ (bytes : List Byte) (s : State),
    let f := (Config.bundle bytes).filter (fun f => decide (f.root = s.lodge.rom))
    let r := fwWhole bytes s
    r.1.lodge.piece = none ∧ r.1.lodge.fwDigest = sha512 bytes ∧ r.1.lodge.fw = s.lodge.fw.set (1 - s.fwActive) f
    ∧ (f = none → r.2 = E.FW_SIG ∧ r.1.fld F.SEC_FW_STS_staged = 2 ∧ r.1.lodge.ready = false)
    ∧ (∀ x, f = some x → x.svn.toNat < s.lodge.nsvn → r.2 = E.FW_ROLLBACK ∧ r.1.fld F.SEC_FW_STS_staged = 2 ∧ r.1.lodge.ready = false)
    ∧ (∀ x, f = some x → s.lodge.nsvn ≤ x.svn.toNat → r.2 = 0 ∧ r.1.fld F.SEC_FW_STS_staged = 1 ∧ r.1.lodge.ready = true)
    ∧ r.1.fld F.SEC_FW_STS_code = r.2)

/-- R347, R386-R389, R392-R394, R399-R403, R406: the management protocol. Its clauses rest as well on logs 130 to 136 and 168. -/
def Obligations.Management : Prop :=
  Slice0.Requests ∧ Slice0.Answers ∧ Slice0.Sessions ∧ Slice0.RequestEffects ∧ Slice0.BundleStaging

/-- R393, R400-R403, Table 17-10: a press with nothing staged is counted; with a command staged it executes and is reported; a closed jumper confirms too and breaks the seal; a command not confirmed in time is
discarded and reported; a commit raises n_svn to that of the firmware that runs. A downgrade is permitted for the staged bundle below n_svn alone (log 163); erased records and the owner digest are log 162, staging log 135. -/
def Obligations.Presence : Prop :=
  (∀ s : State, s.lodge.staged = none → exec .presenceButton s = .next (s.bump F.SEC_PRES_IDLE_CNT) ∧ exec .presenceTimeout s = .next s)
  ∧ (∀ (s : State) (c : Staged), s.lodge.staged = some c →
    exec .presenceButton s = .next (((presEffect c { s with lodge := { s.lodge with staged := none } }).setFlag F.SEC_PRES_STS_pending false).raiseDev EV.PRES_DONE
      (leBytes 1 c.cmd))
    ∧ exec .presenceTimeout s = .next ((presDiscard s).raiseDev EV.PRES_TIMEOUT (leBytes 1 c.cmd))
    ∧ Slice0.Does .presenceTimeout s (fun t => t.lodge.staged = none ∧ t.fld F.SEC_PRES_STS_code = E.PRES_TIMEOUT ∧ t.flag F.SEC_PRES_STS_pending = false
      ∧ t.mem = s.mem ∧ t.ws = s.ws ∧ t.cores = s.cores))
  ∧ (∀ (s : State) (arg : List Byte),
    (∀ f, arg = s.lodge.fwDigest → s.fwCopy (1 - s.fwActive) = some f → f.svn.toNat < s.lodge.nsvn →
      presEffect ⟨1, arg⟩ s = { s with lodge := { s.lodge with downgrade := true } })
    ∧ (arg ≠ s.lodge.fwDigest ∨ s.fwCopy (1 - s.fwActive) = none → presEffect ⟨1, arg⟩ s = s)
    ∧ (∀ f, s.fwCopy (1 - s.fwActive) = some f → s.lodge.nsvn ≤ f.svn.toNat → presEffect ⟨1, arg⟩ s = s)
    ∧ (presEffect ⟨2, arg⟩ s).idGen = s.idGen + 1 ∧ (presEffect ⟨2, arg⟩ s).lodge.store = [] ∧ (presEffect ⟨2, arg⟩ s).ws = s.ws
    ∧ presEffect ⟨3, arg⟩ s = { s with lodge := { s.lodge with debug := true } }
    ∧ (presEffect ⟨4, arg⟩ s).ws.keys = [] ∧ (presEffect ⟨4, arg⟩ s).lodge.store = []
    ∧ presEffect ⟨5, arg⟩ s = recordPut 2 arg s
    ∧ presEffect ⟨6, arg⟩ s = { s with lodge := { s.lodge with rebuild := true } })
  ∧ (∀ s : State, s.lodge.opened = true → exec .serviceJumperClose s = exec .presenceButton s)
  ∧ (∀ s : State, s.lodge.opened = false → ∃ t, exec .serviceJumperClose s = .next t ∧ t.lodge.opened = true
      ∧ .next t = exec .presenceButton (recordPut 8 [1] { s with lodge := { s.lodge with opened := true } }))
  ∧ (∀ (v : W64) (s : State),
    (v.getLsbD 0 = false ∨ s.fwCopy s.fwActive = none → exec (.secFwCommit v) s = .next s)
    ∧ (∀ f, v.getLsbD 0 = true → s.fwCopy s.fwActive = some f →
      (f.svn.toNat ≤ s.lodge.nsvn ∨ s.lodge.micro ≠ some f → exec (.secFwCommit v) s = .next s)
      ∧ (s.lodge.nsvn < f.svn.toNat → s.lodge.micro = some f →
        exec (.secFwCommit v) s = .next (recordPut 3 (leBytes 4 f.svn.toNat) { s with lodge := { s.lodge with nsvn := f.svn.toNat } }))))

/-! ## Start, join, Run-out, removal (spec/18; spec/20 R448-R450) -/

/-- R410-R416: PRSNT_N starts a module in stage 1; each stage ends with its event and the next one begins; a write of DEV_JOIN_CTL joins a module of stage 7 that has a node, a route table in memory and a link, else says E_JOIN_CFG; a warm reset starts it again at stage 3 with
memory undefined, what Table 18-3 keeps as it was, and the sites of failed cores RETIRED. A module that EJECT_N, Run-out, a trip or a loss of input has stopped goes no further (how stages end: log 161; what is kept: log 165; what a join needs: log 166). -/
def Slice0.StartAndJoin : Prop :=
  (∀ s : State, s.boot.present = false → s.fld F.DEV_BOOT_STS_stage ≤ 1 → Slice0.Does .prsntAssert s (fun t => t.boot.present = true
      ∧ t.fld F.DEV_BOOT_STS_stage = 1 ∧ t.jobLoaded = false ∧ t.joined = false ∧ t.events = [] ∧ t.pending = s.pending))
  ∧ (∀ s : State, (s.boot.present = true → exec .prsntAssert s = .next s)
    ∧ (s.boot.present = false → 2 ≤ s.fld F.DEV_BOOT_STS_stage → exec .prsntAssert s = .next { s with boot := { s.boot with present := true } }))
  ∧ (∀ (b : BootIn) (s : State),
    (s.boot.quiet = true ∨ s.pwr.failed = true ∨ s.pwr.dry = true ∨ s.pwr.tripped = true ∨ 2 ≤ s.fld F.DEV_RUNOUT_STS_stage → exec (.bootStageDone b) s = .next s)
    ∧ (s.boot.quiet = false → s.pwr.failed = false → s.pwr.dry = false → s.pwr.tripped = false → s.fld F.DEV_RUNOUT_STS_stage < 2 →
      let st := s.fld F.DEV_BOOT_STS_stage
      (st = 1 → s.boot.present = true → exec (.bootStageDone b) s = .next (stageEnd 1 b.ms s))
      ∧ (st = 1 → s.boot.present = false → exec (.bootStageDone b) s = .next s)
      ∧ (st = 2 → s.boot.present = true → s.boot.eject = false → exec (.bootStageDone b) s = .next (stageEnd 2 b.ms s))
      ∧ (st = 2 → s.boot.present = false ∨ s.boot.eject = true → exec (.bootStageDone b) s = .next s)
      ∧ (st = 3 → (bootChain true b { s with lodge := { s.lodge with sessions := [] } }).lodge.recovery = true →
        exec (.bootStageDone b) s = .next (bootChain true b { s with lodge := { s.lodge with sessions := [] } }))
      ∧ (st = 3 → (bootChain true b { s with lodge := { s.lodge with sessions := [] } }).lodge.recovery = false → Slice0.Does (.bootStageDone b) s (fun t =>
          t.fld F.DEV_BOOT_STS_stage = 4 ∧ t.mem = s.mem ∧ t.cores = s.cores))
      ∧ (st = 4 → exec (.bootStageDone b) s = .next (stageEnd 4 b.ms (selfTest b s)))
      ∧ (st = 5 → exec (.bootStageDone b) s = .next ((List.range 32).foldl (fun t k => linkTrain k t) (stageEnd 5 b.ms (rimTrain b s))))
      ∧ (st = 6 → exec (.bootStageDone b) s = .next (stageEnd 6 b.ms s))
      ∧ (st = 0 ∨ 7 ≤ st → exec (.bootStageDone b) s = .next s)))
  ∧ (∀ (k ms : Nat) (s : State), k < 15 → (stageEnd k ms s).fld F.DEV_BOOT_STS_stage = k + 1 ∧ (stageEnd k ms s).mem = s.mem ∧ (stageEnd k ms s).cores = s.cores)
  ∧ (∀ (v : W64) (s : State),
    (v.getLsbD 0 = false → exec (.devJoin v) s = .next s)
    ∧ (v.getLsbD 0 = true → 2 ≤ s.fld F.DEV_RUNOUT_STS_stage → exec (.devJoin v) s = .next (s.setFld F.DEV_BOOT_STS_code E.RUNOUT_ACTIVE))
    ∧ (v.getLsbD 0 = true → s.fld F.DEV_RUNOUT_STS_stage < 2 →
      (s.fld F.DEV_BOOT_STS_stage ≠ 7 → exec (.devJoin v) s = .next s)
      ∧ (s.fld F.DEV_BOOT_STS_stage = 7 →
        (s.node = 0x3FFFFF ∨ s.anyUp = false ∨ (s.flag F.DEV_ADDR_CFG_node_format = true ∧ s.flatOk = false) →
          exec (.devJoin v) s = .next (s.setFld F.DEV_BOOT_STS_code E.JOIN_CFG))
        ∧ (s.node ≠ 0x3FFFFF → s.anyUp = true → (s.flag F.DEV_ADDR_CFG_node_format = true → s.flatOk = true) → Slice0.Does (.devJoin v) s (fun t =>
            t.joined = true ∧ t.fld F.DEV_BOOT_STS_stage = 9 ∧ t.mem = s.mem ∧ t.cores = s.cores)))))
  ∧ (∀ (v : W64) (s : State),
    -- after a thermal trip every sensor must have read below 85 degrees
    let hot := s.pwr.tripped = true ∧ ∃ j, j < 1094 ∧ ∀ x, Sparse.find s.pwr.temps j = some x → 85 * 64 ≤ x
    (v.getLsbD 0 = false ∨ s.fld F.DEV_BOOT_STS_stage < 3 ∨ s.pwr.failed = true ∨ hot → exec (.devResetWarm v) s = .next s)
    ∧ (v.getLsbD 0 = true → 3 ≤ s.fld F.DEV_BOOT_STS_stage → s.pwr.failed = false → ¬ hot → Slice0.Does (.devResetWarm v) s (fun t =>
        t.fld F.DEV_BOOT_STS_stage = 3 ∧ t.jobLoaded = false ∧ t.joined = false ∧ t.lodge.sessions = [] ∧ t.lodge.staged = none
        ∧ (s.lodge.staged.isSome = true → t.fld F.SEC_PRES_STS_code = E.PRES_TIMEOUT)
        ∧ t.now = s.now ∧ t.fld F.DEV_NODE_ID_node_id = s.fld F.DEV_NODE_ID_node_id ∧ (∀ n k, (t.ctx n k).st = .free)
        ∧ t.idGen = s.idGen ∧ t.pending = s.pending
        ∧ t.group F.WSTREAM_ROUTE_DIGEST_w0.addr 8 = s.group F.WSTREAM_ROUTE_DIGEST_w0.addr 8
        ∧ t.fld F.SEC_FW_STS_active = s.fld F.SEC_FW_STS_active ∧ t.fld F.SEC_FW_STS_staged = 0 ∧ t.fld F.SEC_FW_STS_code = 0
        ∧ t.fld F.RIM_INTERLEAVE_CFG_gran = s.fld F.RIM_INTERLEAVE_CFG_gran ∧ t.fld F.RIM_INTERLEAVE_CFG_gran_active = 0
        ∧ ∀ n ∈ s.dead, n < 896 → t.siteState (s.siteOf n) = siRetired)))

/-- R21-R25, R411-R413, Table 18-2: the module runs on its whole wafer, or on one half when the other has failed, is forced off, or too few sites are good (where these name different halves, in the order of log 18);
with fewer than 448 good sites in the half, or none to keep, it has no compute. Self-test retires a site that fails; RETIRED ones are tested again only at a rebuild. Training makes the stacks in use ready. The entries of cores that the mode does not have are log 205. -/
def Slice0.SelfTest : Prop :=
  (∀ (bad good : List Nat) (s : State),
    let count := fun (h : Nat) => good.countP (fun p => halfOfField (fieldOfSite p) = h)
    let forced := s.flag F.DEV_MODE_CFG_force_half = true
    (0 ∈ bad → 1 ∈ bad → chooseHalf bad good s = some 0)
    ∧ (0 ∈ bad → 1 ∉ bad → chooseHalf bad good s = some 1)
    ∧ (0 ∉ bad → 1 ∈ bad → chooseHalf bad good s = some 0)
    ∧ (0 ∉ bad → 1 ∉ bad →
      (forced → chooseHalf bad good s = some (s.fld F.DEV_MODE_CFG_keep_half))
      ∧ (¬ forced → 896 ≤ good.length → chooseHalf bad good s = none)
      ∧ (¬ forced → good.length < 896 → count 0 < count 1 → chooseHalf bad good s = some 1)
      ∧ (¬ forced → good.length < 896 → count 1 ≤ count 0 → chooseHalf bad good s = some 0)))
  ∧ (∀ (bad : List Nat) (s : State),
    let good := goodSites s
    let half := chooseHalf bad good s
    let sites := match half with | some h => good.filter (fun p => decide (halfOfField (fieldOfSite p) = h)) | none => good
    let dead := ∃ h, half = some h ∧ (h ∈ bad ∨ sites.length < 448)
    let t := modeAndMap bad s
    (dead → t = noCompute { s with boot := { s.boot with badHalves := bad } } ∧ t.flag F.DEV_MODE_STS_no_compute = true)
    ∧ (¬ dead → t.flag F.DEV_MODE_STS_no_compute = false ∧ t.flag F.DEV_MODE_STS_half_mode = half.isSome ∧ t.fld F.DEV_MODE_STS_half = half.getD 0
      ∧ ∀ q ∈ (buildMap half sites).1, t.siteState q.2 = siAssigned ∧ t.sitePower q.2 = 2))
  ∧ (∀ (b : BootIn) (rebuild : Bool) (s : State) (p : Nat),
    let st := s.siteState p
    let skip := st = siDefective ∨ (st = siRetired ∧ rebuild = false)
    let phases : Nat := ((b.phases.find? (fun q => q.1.toNat = p)).map (·.2)).getD 8
    let fails := (∃ q ∈ b.failSites, q.toNat = p) ∨ (∃ f ∈ b.failFields, f.toNat = fieldOfSite p) ∨ phases < 6 ∨ s.topPoint p = none
    let t := selfTestSite b rebuild s p
    (skip → t = s) ∧ (¬ skip → fails → t = s.setSite p siRetired 0)
    ∧ (¬ skip → ¬ fails → t.siteState p = (if st = siRetired then siSpare else st)
      ∧ (phases < 8 → t.flag (F.PWR_SITE_STS_derated p) = true ∧ t.fld (F.PWR_SITE_STS_phases p) = phases)
      ∧ t.mem = s.mem ∧ t.cores = s.cores ∧ t.events = s.events))
  ∧ (∀ (b : BootIn) (s : State), (selfTest b s).lodge.rebuild = false)
  ∧ (∀ (b : BootIn) (s : State),
    let used := fun (m : Nat) => ∀ h, s.keptHalf = some h → stackHalf m = h
    let failing := ∃ m ∈ b.failStacks, used m.toNat
    let t := rimTrain b s
    (¬ failing → t.fld F.RIM_INTERLEAVE_CFG_gran_active = s.fld F.RIM_INTERLEAVE_CFG_gran ∧ t.mem = s.mem ∧ t.cores = s.cores ∧ t.events = s.events
      ∧ ∀ m, m < 16 → (used m → t.fld (F.RIM_STACK_STS_state m) = 1 ∧ t.flag (F.RIM_STACK_STS_stored m) = true)
        ∧ (¬ used m → t.fld (F.RIM_STACK_STS_state m) = 0))
    ∧ (failing → t.fld F.DEV_BOOT_STS_code = E.RIM_TRAIN ∧ (s.keptHalf.isSome = true → t.flag F.DEV_MODE_STS_no_compute = true)))

/-- R417-R423, R446, R448, R450: a request for Run-out, its begin once its point has come, its end. A trip, a loss of input and EJECT_N stop it where it is; one requested in HOLD begins after it. EJECT_N and a lost PRSNT_N stop a module from
stage 3 on, once, and keep its job for the locks; in hold-up no service log is copied. The points and roles are logs 166 and 189, what comes after READY log 167. -/
def Slice0.Removal : Prop :=
  (∀ (v : W64) (s : State),
    let stage := s.fld F.DEV_RUNOUT_STS_stage
    let hold := s.flag F.PWR_STS_hold
    let well := s.boot.quiet = false ∧ s.pwr.tripped = false ∧ s.pwr.failed = false ∧ s.pwr.dry = false
    (v.getLsbD 0 = false → exec (.runoutStart v) s = .next s) ∧ (v.getLsbD 1 = false → exec (.runoutNow v) s = .next s)
    ∧ (v.getLsbD 0 = true → stage ≠ 0 ∨ ¬ well → exec (.runoutStart v) s = .next s)
    ∧ (v.getLsbD 0 = true → stage = 0 → well → Slice0.Does (.runoutStart v) s (fun t => t.fld F.DEV_RUNOUT_STS_stage = 1 ∧ t.boot.since = s.now
        ∧ t.boot.expired = false ∧ t.boot.inHold = hold ∧ t.ckpt = { s.ckpt with wrote := false } ∧ t.mem = s.mem ∧ t.cores = s.cores ∧ t.ws = s.ws))
    ∧ (v.getLsbD 1 = true → 2 ≤ stage ∨ ¬ well → exec (.runoutNow v) s = .next s)
    ∧ (v.getLsbD 1 = true → stage = 0 → well →
      (hold = false → exec (.runoutNow v) s = .next (runoutBegin (runoutAsk s))) ∧ (hold = true → exec (.runoutNow v) s = .next (runoutAsk s)))
    ∧ (v.getLsbD 1 = true → stage = 1 → well →
      (hold = false ∨ s.boot.inHold = false → exec (.runoutNow v) s = .next (runoutBegin s))
      ∧ (hold = true → s.boot.inHold = true → exec (.runoutNow v) s = .next s))
    ∧ (stage = 1 → well → exec .runoutWaitExpiry s = .next (runoutBegin { s with boot := { s.boot with expired := true } }))
    ∧ (stage ≠ 1 ∨ ¬ well → exec .runoutWaitExpiry s = .next s)
    ∧ (¬ well → exec .runoutBegin s = .next s)
    ∧ (well → stage ≠ 1 → exec .runoutBegin s = .next (runoutGo (runoutStep s)))
    ∧ (stage = 1 → well → hold = false → s.runoutPoint = true ∨ s.boot.expired = true ∨ s.boot.inHold = true → exec .runoutBegin s = .next (runoutBegin s))
    ∧ (stage = 1 → well → s.runoutPoint = false → s.boot.expired = false → s.boot.inHold = false → exec .runoutBegin s = .next s)
    ∧ (stage = 1 → well → hold = true → exec .runoutBegin s = .next s)
    ∧ (stage ≠ 4 ∨ ¬ well ∨ (∀ d, s.ckpt.drain = some d → d.buddy = true) → exec .runoutDrainTimeout s = .next s)
    ∧ (∀ d, stage = 4 → well → s.ckpt.drain = some d → d.buddy = false → exec .runoutDrainTimeout s = .next (runoutGo (freezeFail E.CKPT_POOL s)))
    -- the begin clears keys and discards a staged command; in HOLD it goes no further than STEP
    ∧ (hold = true → (runoutBegin s).fld F.DEV_RUNOUT_STS_stage = 3 ∧ (runoutBegin s).lodge.staged = none)
    -- STEP ends when no rollback is awaited: the cores stop and the job is gone
    ∧ (stage ≠ 3 ∨ ¬ well ∨ hold = true → runoutStep s = s)
    ∧ (stage = 3 → well → hold = false →
      let r := rollback s
      (r.fld F.CKPT_STS_phase = phRollback → r.ckpt.rolled = false ∨ r.ckpt.aborted = false → runoutStep s = r)
      ∧ (r.fld F.CKPT_STS_phase ≠ phRollback ∨ (r.ckpt.rolled = true ∧ r.ckpt.aborted = true) →
        runoutStep s = runoutGo ((jobGone (stopCores r)).setFld F.DEV_RUNOUT_STS_stage 4) ∧ (runoutStep s).jobLoaded = false))
    -- DRAIN ends when no Freeze drains here
    ∧ (stage = 4 → well → (∀ d, s.ckpt.drain = some d → d.buddy = true) → (runoutGo s).fld F.DEV_RUNOUT_STS_stage = 7 ∧ (runoutGo s).boot.lamp = true)
    ∧ (stage ≠ 4 ∨ ¬ well ∨ (∃ d, s.ckpt.drain = some d ∧ d.buddy = false) → runoutGo s = s))
  ∧ (∀ s : State,
    (s.jobLoaded = false → s.runoutPoint = true) ∧ (s.jobLoaded = true → s.ckpt.stored = none → s.runoutPoint = false)
    ∧ (∀ step d, s.jobLoaded = true → s.ckpt.stored = some (step, d) →
      (s.isOwner = true ∨ s.isShadow = true → (s.runoutPoint = true ↔ s.ckpt.wrote = true ∧ step ≤ (s.reg F.CKPT_UPD_done_step.addr).toNat))
      ∧ (s.isOwner = false → s.isShadow = false → (s.runoutPoint = true ↔ ∃ l, s.boot.lastStep = some l ∧ l ≤ step))))
  ∧ (∀ s : State,
    let e := { s with boot := { s.boot with eject := true } }
    let q := { s with boot := { s.boot with present := false } }
    let stage := s.fld F.DEV_BOOT_STS_stage
    let done := s.boot.quiet = true ∨ s.fld F.DEV_RUNOUT_STS_stage = 7
    exec .ejectDeassert s = .next { s with boot := { s.boot with eject := false } }
    ∧ (stage < 3 → exec .ejectAssert s = .next e)
    ∧ (3 ≤ stage → done → exec .ejectAssert s = .next (presDiscard e))
    ∧ (3 ≤ stage → ¬ done → exec .ejectAssert s = .next (ejectNow e))
    ∧ (s.boot.present = false → exec .prsntDeassert s = .next s)
    ∧ (s.boot.present = true →
      (stage = 2 → exec .prsntDeassert s = .next (q.setFld F.DEV_BOOT_STS_stage 1))
      ∧ (stage ≠ 2 → stage < 3 ∨ s.boot.eject = true → exec .prsntDeassert s = .next q)
      ∧ (3 ≤ stage → s.boot.eject = false → done → exec .prsntDeassert s = .next (presDiscard q))
      ∧ (3 ≤ stage → s.boot.eject = false → ¬ done → exec .prsntDeassert s = .next (ejectNow q))))
  ∧ (∀ s : State, (ejectNow s).boot.quiet = true ∧ (ejectNow s).boot.lamp = false ∧ (ejectNow s).jobLoaded = s.jobLoaded
    ∧ (ejectNow s).pwr.off = true ∧ (ejectNow s).fld F.DEV_RUNOUT_STS_stage = 8
    ∧ (s.pwr.failed = true → (ejectNow s).lodge.service = s.lodge.service)
    ∧ (s.pwr.failed = false → (ejectNow s).lodge.service = (ejectNow s).events.take 4096))

/-- R21-R25, R410-R423, R446, R448, R450: start, self-test, join, Run-out and removal. Its clauses rest as well on logs 18, 90, 161, 165 to 167, 189 and 205. -/
def Obligations.StartAndRemoval : Prop := Slice0.StartAndJoin ∧ Slice0.SelfTest ∧ Slice0.Removal

/-! ## Registers (spec/00 R6-R9; spec/19 R427-R431) -/

/-- R6, R428: a write that is not an aligned 64-bit word, one to no register and one to a register of a lost half have no effect; one of a word of device registers with an action does the action, and any other one
writes the word's fields. -/
def Slice0.WordWrites : Prop :=
  ∀ (addr : BitVec 42) (size : BitVec 2) (v : W64) (s : State),
    let a := addr.toNat
    let word := size.toNat = 3 ∧ a % 8 = 0 ∧ s.isRegister a = true ∧ s.lostReg a = false
    (¬ word → exec (.registerWrite addr size v) s = .next s)
    ∧ (word → 0x30000000000 ≤ a →
      (∀ t, devAction none a v s = some t → exec (.registerWrite addr size v) s = .next t)
      ∧ (devAction none a v s = none → exec (.registerWrite addr size v) s = .next (plainWrite a v s)))
    ∧ (word → a < 0x30000000000 → exec (.registerWrite addr size v) s =
      .next (coreWrite ((a - 0x20000000000) / 0x4000000) ((a - 0x20000000000) % 0x4000000 - 0x3000000) v s))

/-- R7-R9, R35, R192, Table 00-2: fields by their kinds of access. An RW field takes a value that is no reserved encoding unless a loaded job (J) or a joined fabric (F) locks it; W1C clears the bits written as 1;
RO fields keep theirs; write-only and reserved bits read as 0. -/
def Slice0.FieldWrites : Prop :=
  (∀ (a : Nat) (v : W64) (s : State) (r : Row),
    let x := fieldOf v r.lo r.w
    (r.acc = .rw → s.unlocked r.lock = true → s.accepts r a x = true → writeField a v s r = s.setReg a (insertBits (s.reg a) r.lo r.w x))
    ∧ (r.acc = .rw → s.unlocked r.lock = false ∨ s.accepts r a x = false → writeField a v s r = s)
    ∧ (r.acc = .ro ∨ r.acc = .rs ∨ r.acc = .ctr ∨ r.acc = .act → writeField a v s r = s)
    ∧ (r.acc = .w1c → r.lo + r.w ≤ 64 → ∀ j, ((writeField a v s r).reg a).getLsbD j
      = ((s.reg a).getLsbD j && !(decide (r.lo ≤ j ∧ j < r.lo + r.w) && v.getLsbD j)))
    ∧ (∀ m, r.maxv = some m → m < x → s.accepts r a x = false)
    ∧ (s.unlocked .job = !s.jobLoaded ∧ s.unlocked .fab = !s.joined ∧ s.unlocked .none = true))
  ∧ (∀ (x : W64) (lo w n : Nat), lo + w ≤ 64 → fieldOf (insertBits x lo w n) lo w = n % 2 ^ w
      ∧ ∀ j, j < lo ∨ lo + w ≤ j → (insertBits x lo w n).getLsbD j = x.getLsbD j)
  ∧ (∀ (a : Nat) (s : State),
    (s.lostReg a = true → s.regLive a = 0)
    ∧ (s.lostReg a = false → s.shown a = none → ∀ j,
      (∀ r ∈ rowsAt a, r.acc = .act ∨ r.acc = .arg ∨ j < r.lo ∨ r.lo + r.w ≤ j) → (s.regLive a).getLsbD j = false))
  ∧ (∀ (v : W64) (s : State),
    let at_ := fun (f : Fld) => Instr.registerWrite (BitVec.ofNat 42 f.addr) 3 v
    -- RW: DEV_MODE_CFG, two one-bit fields
    Slice0.Does (at_ F.DEV_MODE_CFG_keep_half) s (fun t => t.fld F.DEV_MODE_CFG_keep_half = fieldOf v 1 1 ∧ t.fld F.DEV_MODE_CFG_force_half = fieldOf v 0 1
      ∧ t.mem = s.mem ∧ t.cores = s.cores ∧ ∀ a, a ≠ F.DEV_MODE_CFG_keep_half.addr → t.reg a = s.reg a)
    -- RO: DEV_MODE_STS
    ∧ exec (at_ F.DEV_MODE_STS_degraded) s = .next s
    -- (J) and a reserved encoding: DEV_EXEC_CFG.mode
    ∧ (s.jobLoaded = true → exec (at_ F.DEV_EXEC_CFG_mode) s = .next (s.raiseDev EV.EXEC_CFG_LOCKED []))
    ∧ (s.jobLoaded = false → Slice0.Does (at_ F.DEV_EXEC_CFG_mode) s (fun t =>
        t.fld F.DEV_EXEC_CFG_mode = (if fieldOf v 0 2 ≤ 1 then fieldOf v 0 2 else s.fld F.DEV_EXEC_CFG_mode) ∧ t.events = s.events))
    -- (F): DEV_NODE_ID
    ∧ (s.joined = true → exec (at_ F.DEV_NODE_ID_node_id) s = .next (s.raiseDev EV.ADDR_CFG_LOCKED []))
    ∧ (s.joined = false → Slice0.Does (at_ F.DEV_NODE_ID_node_id) s (fun t => t.fld F.DEV_NODE_ID_node_id = fieldOf v 0 22 ∧ t.events = s.events)))

/-- R431: a write of a counter's control word with clr makes the counter and its sat bit 0, and its ev_en bit is written; a write to another word clears no counter. -/
def Slice0.CounterClears : Prop :=
  (∀ (addr : BitVec 42) (v : W64) (s : State),
    let a := addr.toNat
    let control := a % 8 = 0 ∧ s.isRegister a = true ∧ ∃ r ∈ rowsAt a, r.acc = .ctl
    (¬ control → exec (.counterClear addr v) s = .next s) ∧ (control → exec (.counterClear addr v) s = exec (.registerWrite addr 3 v) s))
  ∧ (∀ f ∈ [F.DEV_LATE_RSP_CNT, F.CORE_MAP_ABSORB_CNT, F.RED_STALE_CNT, F.PWR_CAP_STALE_CNT, F.SEC_PRES_IDLE_CNT, F.EVT_LOST_CNT, F.EVT_MASKED_CNT],
    ∀ (v : W64) (s : State), Slice0.Does (.counterClear (BitVec.ofNat 42 (f.addr + 8)) v) s (fun t =>
      let ctl := t.reg (f.addr + 8)
      (v.getLsbD 1 = true → t.reg f.addr = 0 ∧ ctl.getLsbD 0 = false) ∧ (v.getLsbD 1 = false → t.reg f.addr = s.reg f.addr ∧ ctl.getLsbD 0 = (s.reg (f.addr + 8)).getLsbD 0)
      ∧ ctl.getLsbD 2 = v.getLsbD 2 ∧ t.mem = s.mem ∧ t.cores = s.cores ∧ ∀ a, a ≠ f.addr → a ≠ f.addr + 8 → t.reg a = s.reg a))

/-- R6-R9, R428, R431: register writes, fields and counters. -/
def Obligations.RegisterWrites : Prop := Slice0.WordWrites ∧ Slice0.FieldWrites ∧ Slice0.CounterClears

/-- Spec/19 Tables 19-4 to 19-12 and R427: every field that the specification gives a reset value other than 0 has it, in every instance, and every event is enabled; no context runs, no ring is configured, every site is OFF,
every link is DOWN, no command waits. -/
def Obligations.ResetValues : Prop :=
  let r := State.reset
  (∀ e ∈ ([(F.DEV_ID_bc, 1), (F.DEV_ID_stepping, 0xB0), (F.DEV_NODE_ID_node_id, 0x3FFFFF), (F.DEV_RSP_TMO_us, 1000), (F.DEV_LODGE_WDT_ms, 1000),
      (F.DEV_RUNOUT_CFG_drain_ms, 120000), (F.DEV_RUNOUT_CFG_wait_ms, 60000), (F.CORE_MAP_SPARE_WARN, 8), (F.FABRIC_PRESS_CFG_thr0, 192), (F.FABRIC_PRESS_CFG_thr1, 192),
      (F.FABRIC_PRESS_CFG_thr2, 192), (F.FABRIC_PRESS_CFG_thr3, 192), (F.FABRIC_PRESS_CFG_thr4, 192), (F.FABRIC_PRESS_CFG_win_log2, 20), (F.WSTREAM_KEY_TMO_ms, 1000),
      (F.WSTREAM_VERSION_CFG_track, 1), (F.WSTREAM_TREE_TMO_ms, 20), (F.WSTREAM_JOIN_TOL_ns, 5000), (F.RED_POISON_CFG_ev_max, 16), (F.RED_LOSS_SCALE, 0x47800000),
      (F.CKPT_VOTE_NCORES, 1), (F.CKPT_VOTE_TMO_ms, 200), (F.CKPT_CMP_CFG_tmo_ms, 10000), (F.CKPT_FRZ_CFG_period_s, 300), (F.CKPT_DRAIN_RATE_mbps, 20000),
      (F.CKPT_POOL_vc, 1), (F.CKPT_POOL_keep, 2), (F.PWR_STS_eff_cap_watts, 30000), (F.PWR_STS_common_mhz, 3600), (F.PWR_CAP_CTL_cap_watts, 30000),
      (F.PWR_CAP_CFG_fallback_watts, 15000), (F.PWR_CAP_CFG_rise_w, 2000), (F.PWR_CAP_CFG_step_w, 1000), (F.PWR_CLAMP_STS_stretch, 64), (F.PWR_CLAMP_CFG_floor_watts, 12000),
      (F.PWR_HOLD_CFG_hyst_w, 500), (F.PWR_THERM_CFG_target, 92), (F.PWR_LEAK_CFG_action, 1), (F.PWR_TEL_RING_frames, 1024), (F.CLK_IDLE_TO_ns, 2000),
      (F.CLK_PTP_CFG_holdover_ns, 5000), (F.CLK_PTP_CFG_loss_ms, 3000), (F.CLK_PTP_STS_err_ns, 2 ^ 32 - 1), (F.CLK_WEAR_CFG_warn_days, 180), (F.CLK_WEAR_CFG_plan_days, 30),
      (F.CLK_WEAR_CFG_guard_ps, 15), (F.CLK_WEAR_STS_days_spare, 2 ^ 32 - 1), (F.CLK_WEAR_STS_days_top, 2 ^ 32 - 1), (F.EVT_RING_CFG_entries, 65536)] : List (Fld × Nat)),
    r.fld e.1 = e.2)
  ∧ (∀ k, k < 32 → r.linkState k = 0
    ∧ (∀ e ∈ ([(F.LINK_CFG_auto_retrain k, 1), (F.LINK_TRAIN_TMO_ms k, 10000), (F.LINK_FEC_CFG_lane_thr k, 4096), (F.LINK_CREDIT_TMO_us k, 1000),
        (F.LINK_VC_CREDIT0_min k, 16), (F.LINK_VC_CREDIT1_min k, 256), (F.LINK_VC_CREDIT2_min k, 512), (F.LINK_VC_CREDIT3_min k, 512)] : List (Fld × Nat)), r.fld e.1 = e.2)
    ∧ (∀ j, j < 12 → r.fld (F.LINK_VC_CREDIT4_min k j) = 128)
    ∧ (∀ j, j < 256 → ∀ e ∈ ([(F.LINK_QP_cc_step k j, 64), (F.LINK_QP_timeout k j, 14), (F.LINK_QP_retry k j, 7), (F.LINK_QP_mtu k j, 2),
        (F.LINK_QP_cc_recover_us k j, 1000)] : List (Fld × Nat)), r.fld e.1 = e.2))
  ∧ (∀ p, p < 1024 → r.fld (F.PWR_SITE_STS_phases p) = 8 ∧ r.fld (F.PWR_SITE_STS_state p) = 0)
  ∧ (∀ n, n < 896 → r.fld (F.CORE_CTX_SLICE_cycles n) = 4096 ∧ r.fld (F.CORE_SRAM_CFG_swizzle n) = 1)
  -- EVT_ENABLE: the events of each class, up to the last number that names one
  ∧ (∀ p ∈ [(0x02, 5), (0x03, 2), (0x08, 1), (0x09, 3), (0x0A, 2), (0x0B, 6), (0x0C, 8), (0x0D, 6), (0x0E, 11), (0x0F, 15), (0x10, 7), (0x11, 8), (0x12, 7)],
    ∀ k, k < 256 → (r.evEnabled (256 * p.1 + k) = true ↔ 1 ≤ k ∧ k ≤ p.2))
  ∧ r.fld F.DEV_EXEC_CFG_mode = 0 ∧ r.fld F.CKPT_STS_phase = 0
  ∧ (∀ n k, ((r.ctx n k).st = .free ∧ (r.ctx n k).pr 0 = true ∧ ∀ j, (r.ctx n k).sr j = 0))
  ∧ (∀ n j, (r.ring n j).configured = false) ∧ r.pending = [] ∧ r.events = [] ∧ r.jobLoaded = false
end

