-- ==== Sys2Proof/Laws/Memory.lean ====
section
/-! SUPPORT. Finite maps and memory: what each operation reads back, what it leaves as it was, and that every one keeps the canonical form. -/

namespace Sys2Proof.Machine

/-! ## Finite maps -/

@[simp] theorem Sparse.find_put {α : Type} (m : Sparse α) (j k : Nat) (v : α) :
    Sparse.find (Sparse.put m j v) k = if k = j then some v else Sparse.find m k := by
  induction m with
  | nil => simp [Sparse.put, Sparse.find]
  | cons p m ih =>
    obtain ⟨a, b⟩ := p
    simp only [Sparse.put]
    split
    · simp [Sparse.find]
    · split
      · subst_vars; simp [Sparse.find]; split <;> simp_all
      · simp [Sparse.find, ih]; split <;> split <;> simp_all

@[simp] theorem Sparse.find_drop {α : Type} (m : Sparse α) (j k : Nat) :
    Sparse.find (Sparse.drop m j) k = if k = j then none else Sparse.find m k := by
  induction m with
  | nil => simp [Sparse.drop, Sparse.find]
  | cons p m ih =>
    obtain ⟨a, b⟩ := p
    simp only [Sparse.drop, List.filter_cons] at *
    split <;> simp_all [Sparse.find]
    split <;> simp_all

@[simp] theorem Sparse.get_put {α : Type} (m : Sparse α) (d v : α) (j k : Nat) :
    Sparse.get (Sparse.put m j v) d k = if k = j then v else Sparse.get m d k := by
  unfold Sparse.get; rw [find_put]; split <;> rfl

theorem Sparse.put_put {α : Type} (m : Sparse α) (j : Nat) (u v : α) : Sparse.put (Sparse.put m j u) j v = Sparse.put m j v := by
  induction m with
  | nil => simp [Sparse.put]
  | cons p m ih =>
    obtain ⟨a, b⟩ := p
    simp only [Sparse.put]
    split
    · simp [Sparse.put]
    · split
      · simp [Sparse.put]
      · simp [Sparse.put, *]

theorem Sparse.mem_put {α : Type} {m : Sparse α} {j : Nat} {v : α} {p : Nat × α} (h : p ∈ Sparse.put m j v) : p = (j, v) ∨ p ∈ m := by
  induction m with
  | nil => simpa [Sparse.put] using h
  | cons q m ih =>
    obtain ⟨a, b⟩ := q
    simp only [Sparse.put] at h
    split at h
    · simpa using h
    · split at h
      · simp at h ⊢; tauto
      · simp at h ⊢
        rcases h with h | h
        · exact Or.inr (Or.inl h)
        · rcases ih h with h | h <;> tauto

/-! ## Rising keys -/

theorem Mem.rising_iff (l : List Host.Cell) : Mem.rising l = true ↔ l.Pairwise (fun p q => p.1 < q.1) := by
  induction l with
  | nil => simp [Mem.rising]
  | cons p l ih =>
    cases l with
    | nil => simp [Mem.rising]
    | cons q l =>
      obtain ⟨a, x⟩ := p
      obtain ⟨b, y⟩ := q
      simp only [Mem.rising, Bool.and_eq_true, decide_eq_true_eq, ih]
      constructor
      · rintro ⟨h1, h2⟩
        refine List.pairwise_cons.mpr ⟨?_, h2⟩
        intro r hr
        rcases List.mem_cons.mp hr with rfl | hr
        · exact h1
        · exact Nat.lt_trans h1 ((List.pairwise_cons.mp h2).1 r hr)
      · intro h
        have := List.pairwise_cons.mp h
        exact ⟨this.1 (b, y) (by simp), this.2⟩

theorem Mem.rising_put {m : List Host.Cell} (h : Mem.rising m = true) (j : Nat) (v : Byte) : Mem.rising (Sparse.put m j v) = true := by
  rw [Mem.rising_iff] at *
  induction m with
  | nil => simp [Sparse.put]
  | cons p m ih =>
    obtain ⟨a, b⟩ := p
    have hp := List.pairwise_cons.mp h
    simp only [Sparse.put]
    split
    · refine List.pairwise_cons.mpr ⟨?_, h⟩
      intro r hr
      rcases List.mem_cons.mp hr with rfl | hr
      · assumption
      · exact Nat.lt_trans ‹_› (hp.1 r hr)
    · split
      · subst_vars; exact List.pairwise_cons.mpr ⟨hp.1, hp.2⟩
      · refine List.pairwise_cons.mpr ⟨?_, ih hp.2⟩
        intro r hr
        rcases Sparse.mem_put hr with rfl | hr
        · simp; omega
        · exact hp.1 r hr

theorem Mem.rising_filter {m : List Host.Cell} (h : Mem.rising m = true) (f : Host.Cell → Bool) : Mem.rising (m.filter f) = true := by
  rw [Mem.rising_iff] at *
  exact h.filter f

/-! ## One byte -/

/-- A write to an address is read back, and every other address reads as before. -/
@[simp] theorem Mem.read_write (m : Mem) (a b : Nat) (v : Byte) : (m.write a v).read b = if b = a then v else m.read b := by
  have hb : ∀ l : List Host.Cell, Mem.blank { m with cells := l } b = m.blank b := fun _ => rfl
  unfold Mem.write
  by_cases h : b = a
  · subst h
    split
    · simp [Mem.read]
    · split
      · have : m.blank b = 0 := by unfold Mem.blank; simp_all
        simp_all [Mem.read]
      · simp [Mem.read]
  · split
    · simp [Mem.read, h, hb]
    · split <;> simp [Mem.read, h, hb]

theorem Mem.regionOf_write (m : Mem) (a b : Nat) (v : Byte) : (m.write a v).regionOf b = m.regionOf b := by
  unfold Mem.write; split <;> [rfl; (split <;> rfl)]

/-- A write keeps the canonical form. -/
theorem Mem.wf_write {m : Mem} (h : m.wf = true) (a : Nat) (v : Byte) : (m.write a v).wf = true := by
  unfold Mem.wf at *
  simp only [Bool.and_eq_true, List.all_eq_true, Bool.or_eq_true, decide_eq_true_eq, Mem.regionOf_write] at *
  obtain ⟨h1, h2⟩ := h
  unfold Mem.write
  split
  · refine ⟨Mem.rising_put h1 a v, ?_⟩
    intro c hc
    rcases Sparse.mem_put hc with rfl | hc
    · simp [*]
    · exact h2 c hc
  · split
    · refine ⟨Mem.rising_filter h1 _, ?_⟩
      intro c hc
      exact h2 c (List.mem_filter.mp hc).1
    · refine ⟨Mem.rising_put h1 a v, ?_⟩
      intro c hc
      rcases Sparse.mem_put hc with rfl | hc
      · exact Or.inr ‹_›
      · exact h2 c hc

/-! ## Ranges -/

@[simp] theorem length_leBytes (n v : Nat) : (leBytes n v).length = n := by
  induction n generalizing v <;> simp_all [leBytes]

theorem getD_leBytes (n v j : Nat) (h : j < n) : (leBytes n v).getD j 0 = BitVec.ofNat 8 (v / 256 ^ j) := by
  induction n generalizing v j with
  | zero => omega
  | succ n ih =>
    cases j with
    | zero => simp [leBytes]
    | succ j => simp only [leBytes, List.getD_cons_succ]; rw [ih _ _ (by omega)]; congr 1; rw [Nat.pow_succ', Nat.div_div_eq_div_mul]

/-- A range written is read back, and every address outside it reads as before. -/
theorem Mem.read_writeBytes (bs : List Byte) : ∀ (m : Mem) (a b : Nat),
    (m.writeBytes a bs).read b = if a ≤ b ∧ b < a + bs.length then bs.getD (b - a) 0 else m.read b := by
  induction bs with
  | nil =>
    intro m a b
    rw [if_neg (by simp)]; rfl
  | cons x bs ih =>
    intro m a b
    simp only [Mem.writeBytes, ih, Mem.read_write, List.length_cons]
    by_cases h1 : b = a
    · subst h1; simp
    · by_cases h2 : a ≤ b
      · have : b - a = (b - (a + 1)) + 1 := by omega
        rw [this]
        have h3 : a + 1 ≤ b := by omega
        simp only [h1, h2, h3, if_false, true_and, List.getD_cons_succ]
        congr 1
        simp only [eq_iff_iff]; omega
      · have h3 : ¬ a + 1 ≤ b := by omega
        simp [h1, h2, h3]

theorem Mem.wf_writeBytes (bs : List Byte) : ∀ {m : Mem} (_ : m.wf = true) (a : Nat), (m.writeBytes a bs).wf = true := by
  induction bs with
  | nil => intro m h a; exact h
  | cons x bs ih => intro m h a; exact ih (Mem.wf_write h a x) (a + 1)

@[simp] theorem Mem.length_bytes (m : Mem) (n : Nat) : ∀ a, (m.bytes a n).length = n := by
  induction n with
  | zero => intro a; rfl
  | succ n ih => intro a; simp [Mem.bytes, ih]

theorem Mem.getD_bytes (m : Mem) (n : Nat) : ∀ (a j : Nat), j < n → (m.bytes a n).getD j 0 = m.read (a + j) := by
  induction n with
  | zero => intro a j h; omega
  | succ n ih =>
    intro a j h
    cases j with
    | zero => simp [Mem.bytes]
    | succ j => simp only [Mem.bytes, List.getD_cons_succ]; rw [ih _ _ (by omega)]; congr 1; omega

/-- A range becomes undefined: an address outside it reads as before. -/
theorem Mem.read_undefine (m : Mem) (start len gen b : Nat) (h : b < start ∨ start + len ≤ b) :
    (m.undefine start len gen).read b = m.read b := by
  have hf : Sparse.find (m.undefine start len gen).cells b = Sparse.find m.cells b := by
    unfold Mem.undefine
    generalize m.cells = l
    induction l with
    | nil => rfl
    | cons p l ih =>
      obtain ⟨k, v⟩ := p
      simp only [List.filter_cons] at *
      split
      · simp [Sparse.find]; split <;> simp_all
      · rw [ih, Sparse.find, if_neg]
        rintro rfl; simp_all
  have hr : (m.undefine start len gen).regionOf b = m.regionOf b := by
    unfold Mem.regionOf Mem.undefine
    rw [List.find?_cons_of_neg]
    simp; omega
  unfold Mem.read Mem.blank
  rw [hf, hr]

theorem Mem.wf_undefine {m : Mem} (h : m.wf = true) (start len gen : Nat) : (m.undefine start len gen).wf = true := by
  unfold Mem.wf at *
  simp only [Bool.and_eq_true, List.all_eq_true, Bool.or_eq_true, decide_eq_true_eq] at *
  refine ⟨Mem.rising_filter h.1 _, ?_⟩
  intro c hc
  have hm := List.mem_filter.mp hc
  rcases h.2 c hm.1 with hr | hz
  · left
    unfold Mem.regionOf Mem.undefine at *
    rw [List.find?_cons]
    split <;> simp_all
  · exact Or.inr hz

end Sys2Proof.Machine
end

