-- ==== Sys2Proof/Laws/State.lean ====
section
/-! SUPPORT. State: what every primitive update leaves as it was, one lemma a field, and what registers, counters and events read after one. -/

set_option Elab.async false

namespace Sys2Proof.Machine

/-! ## Registers -/

@[simp] theorem State.reg_setReg (s : State) (a b : Nat) (v : W64) : (s.setReg a v).reg b = if b = a then v else s.reg b := by
  simp only [State.reg, State.setReg, Sparse.find_put]; split <;> rfl

/-! ## setReg -/

@[simp] theorem State.setReg_snap (s : State) (a : Nat) (v : W64) : (s.setReg a v).snap = s.snap := rfl
@[simp] theorem State.setReg_mem (s : State) (a : Nat) (v : W64) : (s.setReg a v).mem = s.mem := rfl
@[simp] theorem State.setReg_acc (s : State) (a : Nat) (v : W64) : (s.setReg a v).acc = s.acc := rfl
@[simp] theorem State.setReg_accGen (s : State) (a : Nat) (v : W64) : (s.setReg a v).accGen = s.accGen := rfl
@[simp] theorem State.setReg_cores (s : State) (a : Nat) (v : W64) : (s.setReg a v).cores = s.cores := rfl
@[simp] theorem State.setReg_events (s : State) (a : Nat) (v : W64) : (s.setReg a v).events = s.events := rfl
@[simp] theorem State.setReg_evSeq (s : State) (a : Nat) (v : W64) : (s.setReg a v).evSeq = s.evSeq := rfl
@[simp] theorem State.setReg_evHead (s : State) (a : Nat) (v : W64) : (s.setReg a v).evHead = s.evHead := rfl
@[simp] theorem State.setReg_evCap (s : State) (a : Nat) (v : W64) : (s.setReg a v).evCap = s.evCap := rfl
@[simp] theorem State.setReg_jobLoaded (s : State) (a : Nat) (v : W64) : (s.setReg a v).jobLoaded = s.jobLoaded := rfl
@[simp] theorem State.setReg_joined (s : State) (a : Nat) (v : W64) : (s.setReg a v).joined = s.joined := rfl
@[simp] theorem State.setReg_trans (s : State) (a : Nat) (v : W64) : (s.setReg a v).trans = s.trans := rfl
@[simp] theorem State.setReg_heldStarts (s : State) (a : Nat) (v : W64) : (s.setReg a v).heldStarts = s.heldStarts := rfl
@[simp] theorem State.setReg_kickWait (s : State) (a : Nat) (v : W64) : (s.setReg a v).kickWait = s.kickWait := rfl
@[simp] theorem State.setReg_stopAll (s : State) (a : Nat) (v : W64) : (s.setReg a v).stopAll = s.stopAll := rfl
@[simp] theorem State.setReg_miss (s : State) (a : Nat) (v : W64) : (s.setReg a v).miss = s.miss := rfl
@[simp] theorem State.setReg_dead (s : State) (a : Nat) (v : W64) : (s.setReg a v).dead = s.dead := rfl
@[simp] theorem State.setReg_later (s : State) (a : Nat) (v : W64) : (s.setReg a v).later = s.later := rfl
@[simp] theorem State.setReg_net (s : State) (a : Nat) (v : W64) : (s.setReg a v).net = s.net := rfl
@[simp] theorem State.setReg_fab (s : State) (a : Nat) (v : W64) : (s.setReg a v).fab = s.fab := rfl
@[simp] theorem State.setReg_ws (s : State) (a : Nat) (v : W64) : (s.setReg a v).ws = s.ws := rfl
@[simp] theorem State.setReg_red (s : State) (a : Nat) (v : W64) : (s.setReg a v).red = s.red := rfl
@[simp] theorem State.setReg_ckpt (s : State) (a : Nat) (v : W64) : (s.setReg a v).ckpt = s.ckpt := rfl
@[simp] theorem State.setReg_pwr (s : State) (a : Nat) (v : W64) : (s.setReg a v).pwr = s.pwr := rfl
@[simp] theorem State.setReg_wear (s : State) (a : Nat) (v : W64) : (s.setReg a v).wear = s.wear := rfl
@[simp] theorem State.setReg_lodge (s : State) (a : Nat) (v : W64) : (s.setReg a v).lodge = s.lodge := rfl
@[simp] theorem State.setReg_boot (s : State) (a : Nat) (v : W64) : (s.setReg a v).boot = s.boot := rfl
@[simp] theorem State.setReg_idGen (s : State) (a : Nat) (v : W64) : (s.setReg a v).idGen = s.idGen := rfl
@[simp] theorem State.setReg_ivRecord (s : State) (a : Nat) (v : W64) : (s.setReg a v).ivRecord = s.ivRecord := rfl
@[simp] theorem State.setReg_free (s : State) (a : Nat) (v : W64) : (s.setReg a v).free = s.free := rfl
@[simp] theorem State.setReg_pending (s : State) (a : Nat) (v : W64) : (s.setReg a v).pending = s.pending := rfl
@[simp] theorem State.setReg_core (s : State) (a : Nat) (v : W64) (n : Nat) : (s.setReg a v).core n = s.core n := rfl
@[simp] theorem State.setReg_ctx (s : State) (a : Nat) (v : W64) (n j : Nat) : (s.setReg a v).ctx n j = s.ctx n j := rfl
@[simp] theorem State.setReg_lnk (s : State) (a : Nat) (v : W64) (j : Nat) : (s.setReg a v).lnk j = s.lnk j := rfl

/-! ## setFld -/

@[simp] theorem State.setFld_snap (s : State) (f : Fld) (v : Nat) : (s.setFld f v).snap = s.snap := rfl
@[simp] theorem State.setFld_mem (s : State) (f : Fld) (v : Nat) : (s.setFld f v).mem = s.mem := rfl
@[simp] theorem State.setFld_acc (s : State) (f : Fld) (v : Nat) : (s.setFld f v).acc = s.acc := rfl
@[simp] theorem State.setFld_accGen (s : State) (f : Fld) (v : Nat) : (s.setFld f v).accGen = s.accGen := rfl
@[simp] theorem State.setFld_cores (s : State) (f : Fld) (v : Nat) : (s.setFld f v).cores = s.cores := rfl
@[simp] theorem State.setFld_events (s : State) (f : Fld) (v : Nat) : (s.setFld f v).events = s.events := rfl
@[simp] theorem State.setFld_evSeq (s : State) (f : Fld) (v : Nat) : (s.setFld f v).evSeq = s.evSeq := rfl
@[simp] theorem State.setFld_evHead (s : State) (f : Fld) (v : Nat) : (s.setFld f v).evHead = s.evHead := rfl
@[simp] theorem State.setFld_evCap (s : State) (f : Fld) (v : Nat) : (s.setFld f v).evCap = s.evCap := rfl
@[simp] theorem State.setFld_jobLoaded (s : State) (f : Fld) (v : Nat) : (s.setFld f v).jobLoaded = s.jobLoaded := rfl
@[simp] theorem State.setFld_joined (s : State) (f : Fld) (v : Nat) : (s.setFld f v).joined = s.joined := rfl
@[simp] theorem State.setFld_trans (s : State) (f : Fld) (v : Nat) : (s.setFld f v).trans = s.trans := rfl
@[simp] theorem State.setFld_heldStarts (s : State) (f : Fld) (v : Nat) : (s.setFld f v).heldStarts = s.heldStarts := rfl
@[simp] theorem State.setFld_kickWait (s : State) (f : Fld) (v : Nat) : (s.setFld f v).kickWait = s.kickWait := rfl
@[simp] theorem State.setFld_stopAll (s : State) (f : Fld) (v : Nat) : (s.setFld f v).stopAll = s.stopAll := rfl
@[simp] theorem State.setFld_miss (s : State) (f : Fld) (v : Nat) : (s.setFld f v).miss = s.miss := rfl
@[simp] theorem State.setFld_dead (s : State) (f : Fld) (v : Nat) : (s.setFld f v).dead = s.dead := rfl
@[simp] theorem State.setFld_later (s : State) (f : Fld) (v : Nat) : (s.setFld f v).later = s.later := rfl
@[simp] theorem State.setFld_net (s : State) (f : Fld) (v : Nat) : (s.setFld f v).net = s.net := rfl
@[simp] theorem State.setFld_fab (s : State) (f : Fld) (v : Nat) : (s.setFld f v).fab = s.fab := rfl
@[simp] theorem State.setFld_ws (s : State) (f : Fld) (v : Nat) : (s.setFld f v).ws = s.ws := rfl
@[simp] theorem State.setFld_red (s : State) (f : Fld) (v : Nat) : (s.setFld f v).red = s.red := rfl
@[simp] theorem State.setFld_ckpt (s : State) (f : Fld) (v : Nat) : (s.setFld f v).ckpt = s.ckpt := rfl
@[simp] theorem State.setFld_pwr (s : State) (f : Fld) (v : Nat) : (s.setFld f v).pwr = s.pwr := rfl
@[simp] theorem State.setFld_wear (s : State) (f : Fld) (v : Nat) : (s.setFld f v).wear = s.wear := rfl
@[simp] theorem State.setFld_lodge (s : State) (f : Fld) (v : Nat) : (s.setFld f v).lodge = s.lodge := rfl
@[simp] theorem State.setFld_boot (s : State) (f : Fld) (v : Nat) : (s.setFld f v).boot = s.boot := rfl
@[simp] theorem State.setFld_idGen (s : State) (f : Fld) (v : Nat) : (s.setFld f v).idGen = s.idGen := rfl
@[simp] theorem State.setFld_ivRecord (s : State) (f : Fld) (v : Nat) : (s.setFld f v).ivRecord = s.ivRecord := rfl
@[simp] theorem State.setFld_free (s : State) (f : Fld) (v : Nat) : (s.setFld f v).free = s.free := rfl
@[simp] theorem State.setFld_pending (s : State) (f : Fld) (v : Nat) : (s.setFld f v).pending = s.pending := rfl
@[simp] theorem State.setFld_core (s : State) (f : Fld) (v : Nat) (n : Nat) : (s.setFld f v).core n = s.core n := rfl
@[simp] theorem State.setFld_ctx (s : State) (f : Fld) (v : Nat) (n j : Nat) : (s.setFld f v).ctx n j = s.ctx n j := rfl
@[simp] theorem State.setFld_lnk (s : State) (f : Fld) (v : Nat) (j : Nat) : (s.setFld f v).lnk j = s.lnk j := rfl

/-! ## setFlag -/

@[simp] theorem State.setFlag_snap (s : State) (f : Fld) (b : Bool) : (s.setFlag f b).snap = s.snap := rfl
@[simp] theorem State.setFlag_mem (s : State) (f : Fld) (b : Bool) : (s.setFlag f b).mem = s.mem := rfl
@[simp] theorem State.setFlag_acc (s : State) (f : Fld) (b : Bool) : (s.setFlag f b).acc = s.acc := rfl
@[simp] theorem State.setFlag_accGen (s : State) (f : Fld) (b : Bool) : (s.setFlag f b).accGen = s.accGen := rfl
@[simp] theorem State.setFlag_cores (s : State) (f : Fld) (b : Bool) : (s.setFlag f b).cores = s.cores := rfl
@[simp] theorem State.setFlag_events (s : State) (f : Fld) (b : Bool) : (s.setFlag f b).events = s.events := rfl
@[simp] theorem State.setFlag_evSeq (s : State) (f : Fld) (b : Bool) : (s.setFlag f b).evSeq = s.evSeq := rfl
@[simp] theorem State.setFlag_evHead (s : State) (f : Fld) (b : Bool) : (s.setFlag f b).evHead = s.evHead := rfl
@[simp] theorem State.setFlag_evCap (s : State) (f : Fld) (b : Bool) : (s.setFlag f b).evCap = s.evCap := rfl
@[simp] theorem State.setFlag_jobLoaded (s : State) (f : Fld) (b : Bool) : (s.setFlag f b).jobLoaded = s.jobLoaded := rfl
@[simp] theorem State.setFlag_joined (s : State) (f : Fld) (b : Bool) : (s.setFlag f b).joined = s.joined := rfl
@[simp] theorem State.setFlag_trans (s : State) (f : Fld) (b : Bool) : (s.setFlag f b).trans = s.trans := rfl
@[simp] theorem State.setFlag_heldStarts (s : State) (f : Fld) (b : Bool) : (s.setFlag f b).heldStarts = s.heldStarts := rfl
@[simp] theorem State.setFlag_kickWait (s : State) (f : Fld) (b : Bool) : (s.setFlag f b).kickWait = s.kickWait := rfl
@[simp] theorem State.setFlag_stopAll (s : State) (f : Fld) (b : Bool) : (s.setFlag f b).stopAll = s.stopAll := rfl
@[simp] theorem State.setFlag_miss (s : State) (f : Fld) (b : Bool) : (s.setFlag f b).miss = s.miss := rfl
@[simp] theorem State.setFlag_dead (s : State) (f : Fld) (b : Bool) : (s.setFlag f b).dead = s.dead := rfl
@[simp] theorem State.setFlag_later (s : State) (f : Fld) (b : Bool) : (s.setFlag f b).later = s.later := rfl
@[simp] theorem State.setFlag_net (s : State) (f : Fld) (b : Bool) : (s.setFlag f b).net = s.net := rfl
@[simp] theorem State.setFlag_fab (s : State) (f : Fld) (b : Bool) : (s.setFlag f b).fab = s.fab := rfl
@[simp] theorem State.setFlag_ws (s : State) (f : Fld) (b : Bool) : (s.setFlag f b).ws = s.ws := rfl
@[simp] theorem State.setFlag_red (s : State) (f : Fld) (b : Bool) : (s.setFlag f b).red = s.red := rfl
@[simp] theorem State.setFlag_ckpt (s : State) (f : Fld) (b : Bool) : (s.setFlag f b).ckpt = s.ckpt := rfl
@[simp] theorem State.setFlag_pwr (s : State) (f : Fld) (b : Bool) : (s.setFlag f b).pwr = s.pwr := rfl
@[simp] theorem State.setFlag_wear (s : State) (f : Fld) (b : Bool) : (s.setFlag f b).wear = s.wear := rfl
@[simp] theorem State.setFlag_lodge (s : State) (f : Fld) (b : Bool) : (s.setFlag f b).lodge = s.lodge := rfl
@[simp] theorem State.setFlag_boot (s : State) (f : Fld) (b : Bool) : (s.setFlag f b).boot = s.boot := rfl
@[simp] theorem State.setFlag_idGen (s : State) (f : Fld) (b : Bool) : (s.setFlag f b).idGen = s.idGen := rfl
@[simp] theorem State.setFlag_ivRecord (s : State) (f : Fld) (b : Bool) : (s.setFlag f b).ivRecord = s.ivRecord := rfl
@[simp] theorem State.setFlag_free (s : State) (f : Fld) (b : Bool) : (s.setFlag f b).free = s.free := rfl
@[simp] theorem State.setFlag_pending (s : State) (f : Fld) (b : Bool) : (s.setFlag f b).pending = s.pending := rfl
@[simp] theorem State.setFlag_core (s : State) (f : Fld) (b : Bool) (n : Nat) : (s.setFlag f b).core n = s.core n := rfl
@[simp] theorem State.setFlag_ctx (s : State) (f : Fld) (b : Bool) (n j : Nat) : (s.setFlag f b).ctx n j = s.ctx n j := rfl
@[simp] theorem State.setFlag_lnk (s : State) (f : Fld) (b : Bool) (j : Nat) : (s.setFlag f b).lnk j = s.lnk j := rfl

/-! ## tick -/

@[simp] theorem State.tick_regs (s : State) : (s.tick).regs = s.regs := rfl
@[simp] theorem State.tick_snap (s : State) : (s.tick).snap = s.snap := rfl
@[simp] theorem State.tick_mem (s : State) : (s.tick).mem = s.mem := rfl
@[simp] theorem State.tick_acc (s : State) : (s.tick).acc = s.acc := rfl
@[simp] theorem State.tick_accGen (s : State) : (s.tick).accGen = s.accGen := rfl
@[simp] theorem State.tick_cores (s : State) : (s.tick).cores = s.cores := rfl
@[simp] theorem State.tick_events (s : State) : (s.tick).events = s.events := rfl
@[simp] theorem State.tick_evSeq (s : State) : (s.tick).evSeq = s.evSeq := rfl
@[simp] theorem State.tick_evHead (s : State) : (s.tick).evHead = s.evHead := rfl
@[simp] theorem State.tick_evCap (s : State) : (s.tick).evCap = s.evCap := rfl
@[simp] theorem State.tick_jobLoaded (s : State) : (s.tick).jobLoaded = s.jobLoaded := rfl
@[simp] theorem State.tick_joined (s : State) : (s.tick).joined = s.joined := rfl
@[simp] theorem State.tick_trans (s : State) : (s.tick).trans = s.trans := rfl
@[simp] theorem State.tick_heldStarts (s : State) : (s.tick).heldStarts = s.heldStarts := rfl
@[simp] theorem State.tick_kickWait (s : State) : (s.tick).kickWait = s.kickWait := rfl
@[simp] theorem State.tick_stopAll (s : State) : (s.tick).stopAll = s.stopAll := rfl
@[simp] theorem State.tick_miss (s : State) : (s.tick).miss = s.miss := rfl
@[simp] theorem State.tick_dead (s : State) : (s.tick).dead = s.dead := rfl
@[simp] theorem State.tick_later (s : State) : (s.tick).later = s.later := rfl
@[simp] theorem State.tick_net (s : State) : (s.tick).net = s.net := rfl
@[simp] theorem State.tick_fab (s : State) : (s.tick).fab = s.fab := rfl
@[simp] theorem State.tick_ws (s : State) : (s.tick).ws = s.ws := rfl
@[simp] theorem State.tick_red (s : State) : (s.tick).red = s.red := rfl
@[simp] theorem State.tick_ckpt (s : State) : (s.tick).ckpt = s.ckpt := rfl
@[simp] theorem State.tick_pwr (s : State) : (s.tick).pwr = s.pwr := rfl
@[simp] theorem State.tick_wear (s : State) : (s.tick).wear = s.wear := rfl
@[simp] theorem State.tick_lodge (s : State) : (s.tick).lodge = s.lodge := rfl
@[simp] theorem State.tick_boot (s : State) : (s.tick).boot = s.boot := rfl
@[simp] theorem State.tick_idGen (s : State) : (s.tick).idGen = s.idGen := rfl
@[simp] theorem State.tick_ivRecord (s : State) : (s.tick).ivRecord = s.ivRecord := rfl
@[simp] theorem State.tick_pending (s : State) : (s.tick).pending = s.pending := rfl
@[simp] theorem State.tick_reg (s : State) (a : Nat) : (s.tick).reg a = s.reg a := rfl
@[simp] theorem State.tick_fld (s : State) (g : Fld) : (s.tick).fld g = s.fld g := rfl
@[simp] theorem State.tick_flag (s : State) (g : Fld) : (s.tick).flag g = s.flag g := rfl
@[simp] theorem State.tick_core (s : State) (n : Nat) : (s.tick).core n = s.core n := rfl
@[simp] theorem State.tick_ctx (s : State) (n j : Nat) : (s.tick).ctx n j = s.ctx n j := rfl
@[simp] theorem State.tick_lnk (s : State) (j : Nat) : (s.tick).lnk j = s.lnk j := rfl

/-! ## setCore -/

@[simp] theorem State.setCore_regs (s : State) (n : Nat) (c : Core) : (s.setCore n c).regs = s.regs := rfl
@[simp] theorem State.setCore_snap (s : State) (n : Nat) (c : Core) : (s.setCore n c).snap = s.snap := rfl
@[simp] theorem State.setCore_mem (s : State) (n : Nat) (c : Core) : (s.setCore n c).mem = s.mem := rfl
@[simp] theorem State.setCore_acc (s : State) (n : Nat) (c : Core) : (s.setCore n c).acc = s.acc := rfl
@[simp] theorem State.setCore_accGen (s : State) (n : Nat) (c : Core) : (s.setCore n c).accGen = s.accGen := rfl
@[simp] theorem State.setCore_events (s : State) (n : Nat) (c : Core) : (s.setCore n c).events = s.events := rfl
@[simp] theorem State.setCore_evSeq (s : State) (n : Nat) (c : Core) : (s.setCore n c).evSeq = s.evSeq := rfl
@[simp] theorem State.setCore_evHead (s : State) (n : Nat) (c : Core) : (s.setCore n c).evHead = s.evHead := rfl
@[simp] theorem State.setCore_evCap (s : State) (n : Nat) (c : Core) : (s.setCore n c).evCap = s.evCap := rfl
@[simp] theorem State.setCore_jobLoaded (s : State) (n : Nat) (c : Core) : (s.setCore n c).jobLoaded = s.jobLoaded := rfl
@[simp] theorem State.setCore_joined (s : State) (n : Nat) (c : Core) : (s.setCore n c).joined = s.joined := rfl
@[simp] theorem State.setCore_trans (s : State) (n : Nat) (c : Core) : (s.setCore n c).trans = s.trans := rfl
@[simp] theorem State.setCore_heldStarts (s : State) (n : Nat) (c : Core) : (s.setCore n c).heldStarts = s.heldStarts := rfl
@[simp] theorem State.setCore_kickWait (s : State) (n : Nat) (c : Core) : (s.setCore n c).kickWait = s.kickWait := rfl
@[simp] theorem State.setCore_stopAll (s : State) (n : Nat) (c : Core) : (s.setCore n c).stopAll = s.stopAll := rfl
@[simp] theorem State.setCore_miss (s : State) (n : Nat) (c : Core) : (s.setCore n c).miss = s.miss := rfl
@[simp] theorem State.setCore_dead (s : State) (n : Nat) (c : Core) : (s.setCore n c).dead = s.dead := rfl
@[simp] theorem State.setCore_later (s : State) (n : Nat) (c : Core) : (s.setCore n c).later = s.later := rfl
@[simp] theorem State.setCore_net (s : State) (n : Nat) (c : Core) : (s.setCore n c).net = s.net := rfl
@[simp] theorem State.setCore_fab (s : State) (n : Nat) (c : Core) : (s.setCore n c).fab = s.fab := rfl
@[simp] theorem State.setCore_ws (s : State) (n : Nat) (c : Core) : (s.setCore n c).ws = s.ws := rfl
@[simp] theorem State.setCore_red (s : State) (n : Nat) (c : Core) : (s.setCore n c).red = s.red := rfl
@[simp] theorem State.setCore_ckpt (s : State) (n : Nat) (c : Core) : (s.setCore n c).ckpt = s.ckpt := rfl
@[simp] theorem State.setCore_pwr (s : State) (n : Nat) (c : Core) : (s.setCore n c).pwr = s.pwr := rfl
@[simp] theorem State.setCore_wear (s : State) (n : Nat) (c : Core) : (s.setCore n c).wear = s.wear := rfl
@[simp] theorem State.setCore_lodge (s : State) (n : Nat) (c : Core) : (s.setCore n c).lodge = s.lodge := rfl
@[simp] theorem State.setCore_boot (s : State) (n : Nat) (c : Core) : (s.setCore n c).boot = s.boot := rfl
@[simp] theorem State.setCore_idGen (s : State) (n : Nat) (c : Core) : (s.setCore n c).idGen = s.idGen := rfl
@[simp] theorem State.setCore_ivRecord (s : State) (n : Nat) (c : Core) : (s.setCore n c).ivRecord = s.ivRecord := rfl
@[simp] theorem State.setCore_free (s : State) (n : Nat) (c : Core) : (s.setCore n c).free = s.free := rfl
@[simp] theorem State.setCore_pending (s : State) (n : Nat) (c : Core) : (s.setCore n c).pending = s.pending := rfl
@[simp] theorem State.setCore_reg (s : State) (n : Nat) (c : Core) (a : Nat) : (s.setCore n c).reg a = s.reg a := rfl
@[simp] theorem State.setCore_fld (s : State) (n : Nat) (c : Core) (g : Fld) : (s.setCore n c).fld g = s.fld g := rfl
@[simp] theorem State.setCore_flag (s : State) (n : Nat) (c : Core) (g : Fld) : (s.setCore n c).flag g = s.flag g := rfl
@[simp] theorem State.setCore_lnk (s : State) (n : Nat) (c : Core) (j : Nat) : (s.setCore n c).lnk j = s.lnk j := rfl

/-! ## setCtx -/

@[simp] theorem State.setCtx_regs (s : State) (n k : Nat) (x : Ctx) : (s.setCtx n k x).regs = s.regs := rfl
@[simp] theorem State.setCtx_snap (s : State) (n k : Nat) (x : Ctx) : (s.setCtx n k x).snap = s.snap := rfl
@[simp] theorem State.setCtx_mem (s : State) (n k : Nat) (x : Ctx) : (s.setCtx n k x).mem = s.mem := rfl
@[simp] theorem State.setCtx_acc (s : State) (n k : Nat) (x : Ctx) : (s.setCtx n k x).acc = s.acc := rfl
@[simp] theorem State.setCtx_accGen (s : State) (n k : Nat) (x : Ctx) : (s.setCtx n k x).accGen = s.accGen := rfl
@[simp] theorem State.setCtx_events (s : State) (n k : Nat) (x : Ctx) : (s.setCtx n k x).events = s.events := rfl
@[simp] theorem State.setCtx_evSeq (s : State) (n k : Nat) (x : Ctx) : (s.setCtx n k x).evSeq = s.evSeq := rfl
@[simp] theorem State.setCtx_evHead (s : State) (n k : Nat) (x : Ctx) : (s.setCtx n k x).evHead = s.evHead := rfl
@[simp] theorem State.setCtx_evCap (s : State) (n k : Nat) (x : Ctx) : (s.setCtx n k x).evCap = s.evCap := rfl
@[simp] theorem State.setCtx_jobLoaded (s : State) (n k : Nat) (x : Ctx) : (s.setCtx n k x).jobLoaded = s.jobLoaded := rfl
@[simp] theorem State.setCtx_joined (s : State) (n k : Nat) (x : Ctx) : (s.setCtx n k x).joined = s.joined := rfl
@[simp] theorem State.setCtx_trans (s : State) (n k : Nat) (x : Ctx) : (s.setCtx n k x).trans = s.trans := rfl
@[simp] theorem State.setCtx_heldStarts (s : State) (n k : Nat) (x : Ctx) : (s.setCtx n k x).heldStarts = s.heldStarts := rfl
@[simp] theorem State.setCtx_kickWait (s : State) (n k : Nat) (x : Ctx) : (s.setCtx n k x).kickWait = s.kickWait := rfl
@[simp] theorem State.setCtx_stopAll (s : State) (n k : Nat) (x : Ctx) : (s.setCtx n k x).stopAll = s.stopAll := rfl
@[simp] theorem State.setCtx_miss (s : State) (n k : Nat) (x : Ctx) : (s.setCtx n k x).miss = s.miss := rfl
@[simp] theorem State.setCtx_dead (s : State) (n k : Nat) (x : Ctx) : (s.setCtx n k x).dead = s.dead := rfl
@[simp] theorem State.setCtx_later (s : State) (n k : Nat) (x : Ctx) : (s.setCtx n k x).later = s.later := rfl
@[simp] theorem State.setCtx_net (s : State) (n k : Nat) (x : Ctx) : (s.setCtx n k x).net = s.net := rfl
@[simp] theorem State.setCtx_fab (s : State) (n k : Nat) (x : Ctx) : (s.setCtx n k x).fab = s.fab := rfl
@[simp] theorem State.setCtx_ws (s : State) (n k : Nat) (x : Ctx) : (s.setCtx n k x).ws = s.ws := rfl
@[simp] theorem State.setCtx_red (s : State) (n k : Nat) (x : Ctx) : (s.setCtx n k x).red = s.red := rfl
@[simp] theorem State.setCtx_ckpt (s : State) (n k : Nat) (x : Ctx) : (s.setCtx n k x).ckpt = s.ckpt := rfl
@[simp] theorem State.setCtx_pwr (s : State) (n k : Nat) (x : Ctx) : (s.setCtx n k x).pwr = s.pwr := rfl
@[simp] theorem State.setCtx_wear (s : State) (n k : Nat) (x : Ctx) : (s.setCtx n k x).wear = s.wear := rfl
@[simp] theorem State.setCtx_lodge (s : State) (n k : Nat) (x : Ctx) : (s.setCtx n k x).lodge = s.lodge := rfl
@[simp] theorem State.setCtx_boot (s : State) (n k : Nat) (x : Ctx) : (s.setCtx n k x).boot = s.boot := rfl
@[simp] theorem State.setCtx_idGen (s : State) (n k : Nat) (x : Ctx) : (s.setCtx n k x).idGen = s.idGen := rfl
@[simp] theorem State.setCtx_ivRecord (s : State) (n k : Nat) (x : Ctx) : (s.setCtx n k x).ivRecord = s.ivRecord := rfl
@[simp] theorem State.setCtx_free (s : State) (n k : Nat) (x : Ctx) : (s.setCtx n k x).free = s.free := rfl
@[simp] theorem State.setCtx_pending (s : State) (n k : Nat) (x : Ctx) : (s.setCtx n k x).pending = s.pending := rfl
@[simp] theorem State.setCtx_reg (s : State) (n k : Nat) (x : Ctx) (a : Nat) : (s.setCtx n k x).reg a = s.reg a := rfl
@[simp] theorem State.setCtx_fld (s : State) (n k : Nat) (x : Ctx) (g : Fld) : (s.setCtx n k x).fld g = s.fld g := rfl
@[simp] theorem State.setCtx_flag (s : State) (n k : Nat) (x : Ctx) (g : Fld) : (s.setCtx n k x).flag g = s.flag g := rfl
@[simp] theorem State.setCtx_lnk (s : State) (n k : Nat) (x : Ctx) (j : Nat) : (s.setCtx n k x).lnk j = s.lnk j := rfl

/-! ## setWs -/

@[simp] theorem State.setWs_regs (s : State) (w : Wstream) : (s.setWs w).regs = s.regs := rfl
@[simp] theorem State.setWs_snap (s : State) (w : Wstream) : (s.setWs w).snap = s.snap := rfl
@[simp] theorem State.setWs_mem (s : State) (w : Wstream) : (s.setWs w).mem = s.mem := rfl
@[simp] theorem State.setWs_acc (s : State) (w : Wstream) : (s.setWs w).acc = s.acc := rfl
@[simp] theorem State.setWs_accGen (s : State) (w : Wstream) : (s.setWs w).accGen = s.accGen := rfl
@[simp] theorem State.setWs_cores (s : State) (w : Wstream) : (s.setWs w).cores = s.cores := rfl
@[simp] theorem State.setWs_events (s : State) (w : Wstream) : (s.setWs w).events = s.events := rfl
@[simp] theorem State.setWs_evSeq (s : State) (w : Wstream) : (s.setWs w).evSeq = s.evSeq := rfl
@[simp] theorem State.setWs_evHead (s : State) (w : Wstream) : (s.setWs w).evHead = s.evHead := rfl
@[simp] theorem State.setWs_evCap (s : State) (w : Wstream) : (s.setWs w).evCap = s.evCap := rfl
@[simp] theorem State.setWs_jobLoaded (s : State) (w : Wstream) : (s.setWs w).jobLoaded = s.jobLoaded := rfl
@[simp] theorem State.setWs_joined (s : State) (w : Wstream) : (s.setWs w).joined = s.joined := rfl
@[simp] theorem State.setWs_trans (s : State) (w : Wstream) : (s.setWs w).trans = s.trans := rfl
@[simp] theorem State.setWs_heldStarts (s : State) (w : Wstream) : (s.setWs w).heldStarts = s.heldStarts := rfl
@[simp] theorem State.setWs_kickWait (s : State) (w : Wstream) : (s.setWs w).kickWait = s.kickWait := rfl
@[simp] theorem State.setWs_stopAll (s : State) (w : Wstream) : (s.setWs w).stopAll = s.stopAll := rfl
@[simp] theorem State.setWs_miss (s : State) (w : Wstream) : (s.setWs w).miss = s.miss := rfl
@[simp] theorem State.setWs_dead (s : State) (w : Wstream) : (s.setWs w).dead = s.dead := rfl
@[simp] theorem State.setWs_later (s : State) (w : Wstream) : (s.setWs w).later = s.later := rfl
@[simp] theorem State.setWs_net (s : State) (w : Wstream) : (s.setWs w).net = s.net := rfl
@[simp] theorem State.setWs_fab (s : State) (w : Wstream) : (s.setWs w).fab = s.fab := rfl
@[simp] theorem State.setWs_red (s : State) (w : Wstream) : (s.setWs w).red = s.red := rfl
@[simp] theorem State.setWs_ckpt (s : State) (w : Wstream) : (s.setWs w).ckpt = s.ckpt := rfl
@[simp] theorem State.setWs_pwr (s : State) (w : Wstream) : (s.setWs w).pwr = s.pwr := rfl
@[simp] theorem State.setWs_wear (s : State) (w : Wstream) : (s.setWs w).wear = s.wear := rfl
@[simp] theorem State.setWs_lodge (s : State) (w : Wstream) : (s.setWs w).lodge = s.lodge := rfl
@[simp] theorem State.setWs_boot (s : State) (w : Wstream) : (s.setWs w).boot = s.boot := rfl
@[simp] theorem State.setWs_idGen (s : State) (w : Wstream) : (s.setWs w).idGen = s.idGen := rfl
@[simp] theorem State.setWs_ivRecord (s : State) (w : Wstream) : (s.setWs w).ivRecord = s.ivRecord := rfl
@[simp] theorem State.setWs_free (s : State) (w : Wstream) : (s.setWs w).free = s.free := rfl
@[simp] theorem State.setWs_pending (s : State) (w : Wstream) : (s.setWs w).pending = s.pending := rfl
@[simp] theorem State.setWs_reg (s : State) (w : Wstream) (a : Nat) : (s.setWs w).reg a = s.reg a := rfl
@[simp] theorem State.setWs_fld (s : State) (w : Wstream) (g : Fld) : (s.setWs w).fld g = s.fld g := rfl
@[simp] theorem State.setWs_flag (s : State) (w : Wstream) (g : Fld) : (s.setWs w).flag g = s.flag g := rfl
@[simp] theorem State.setWs_core (s : State) (w : Wstream) (n : Nat) : (s.setWs w).core n = s.core n := rfl
@[simp] theorem State.setWs_ctx (s : State) (w : Wstream) (n j : Nat) : (s.setWs w).ctx n j = s.ctx n j := rfl
@[simp] theorem State.setWs_lnk (s : State) (w : Wstream) (j : Nat) : (s.setWs w).lnk j = s.lnk j := rfl

/-! ## setRed -/

@[simp] theorem State.setRed_regs (s : State) (r : Red) : (s.setRed r).regs = s.regs := rfl
@[simp] theorem State.setRed_snap (s : State) (r : Red) : (s.setRed r).snap = s.snap := rfl
@[simp] theorem State.setRed_mem (s : State) (r : Red) : (s.setRed r).mem = s.mem := rfl
@[simp] theorem State.setRed_acc (s : State) (r : Red) : (s.setRed r).acc = s.acc := rfl
@[simp] theorem State.setRed_accGen (s : State) (r : Red) : (s.setRed r).accGen = s.accGen := rfl
@[simp] theorem State.setRed_cores (s : State) (r : Red) : (s.setRed r).cores = s.cores := rfl
@[simp] theorem State.setRed_events (s : State) (r : Red) : (s.setRed r).events = s.events := rfl
@[simp] theorem State.setRed_evSeq (s : State) (r : Red) : (s.setRed r).evSeq = s.evSeq := rfl
@[simp] theorem State.setRed_evHead (s : State) (r : Red) : (s.setRed r).evHead = s.evHead := rfl
@[simp] theorem State.setRed_evCap (s : State) (r : Red) : (s.setRed r).evCap = s.evCap := rfl
@[simp] theorem State.setRed_jobLoaded (s : State) (r : Red) : (s.setRed r).jobLoaded = s.jobLoaded := rfl
@[simp] theorem State.setRed_joined (s : State) (r : Red) : (s.setRed r).joined = s.joined := rfl
@[simp] theorem State.setRed_trans (s : State) (r : Red) : (s.setRed r).trans = s.trans := rfl
@[simp] theorem State.setRed_heldStarts (s : State) (r : Red) : (s.setRed r).heldStarts = s.heldStarts := rfl
@[simp] theorem State.setRed_kickWait (s : State) (r : Red) : (s.setRed r).kickWait = s.kickWait := rfl
@[simp] theorem State.setRed_stopAll (s : State) (r : Red) : (s.setRed r).stopAll = s.stopAll := rfl
@[simp] theorem State.setRed_miss (s : State) (r : Red) : (s.setRed r).miss = s.miss := rfl
@[simp] theorem State.setRed_dead (s : State) (r : Red) : (s.setRed r).dead = s.dead := rfl
@[simp] theorem State.setRed_later (s : State) (r : Red) : (s.setRed r).later = s.later := rfl
@[simp] theorem State.setRed_net (s : State) (r : Red) : (s.setRed r).net = s.net := rfl
@[simp] theorem State.setRed_fab (s : State) (r : Red) : (s.setRed r).fab = s.fab := rfl
@[simp] theorem State.setRed_ws (s : State) (r : Red) : (s.setRed r).ws = s.ws := rfl
@[simp] theorem State.setRed_ckpt (s : State) (r : Red) : (s.setRed r).ckpt = s.ckpt := rfl
@[simp] theorem State.setRed_pwr (s : State) (r : Red) : (s.setRed r).pwr = s.pwr := rfl
@[simp] theorem State.setRed_wear (s : State) (r : Red) : (s.setRed r).wear = s.wear := rfl
@[simp] theorem State.setRed_lodge (s : State) (r : Red) : (s.setRed r).lodge = s.lodge := rfl
@[simp] theorem State.setRed_boot (s : State) (r : Red) : (s.setRed r).boot = s.boot := rfl
@[simp] theorem State.setRed_idGen (s : State) (r : Red) : (s.setRed r).idGen = s.idGen := rfl
@[simp] theorem State.setRed_ivRecord (s : State) (r : Red) : (s.setRed r).ivRecord = s.ivRecord := rfl
@[simp] theorem State.setRed_free (s : State) (r : Red) : (s.setRed r).free = s.free := rfl
@[simp] theorem State.setRed_pending (s : State) (r : Red) : (s.setRed r).pending = s.pending := rfl
@[simp] theorem State.setRed_reg (s : State) (r : Red) (a : Nat) : (s.setRed r).reg a = s.reg a := rfl
@[simp] theorem State.setRed_fld (s : State) (r : Red) (g : Fld) : (s.setRed r).fld g = s.fld g := rfl
@[simp] theorem State.setRed_flag (s : State) (r : Red) (g : Fld) : (s.setRed r).flag g = s.flag g := rfl
@[simp] theorem State.setRed_core (s : State) (r : Red) (n : Nat) : (s.setRed r).core n = s.core n := rfl
@[simp] theorem State.setRed_ctx (s : State) (r : Red) (n j : Nat) : (s.setRed r).ctx n j = s.ctx n j := rfl
@[simp] theorem State.setRed_lnk (s : State) (r : Red) (j : Nat) : (s.setRed r).lnk j = s.lnk j := rfl

/-! ## setCk -/

@[simp] theorem State.setCk_regs (s : State) (c : Ckpt) : (s.setCk c).regs = s.regs := rfl
@[simp] theorem State.setCk_snap (s : State) (c : Ckpt) : (s.setCk c).snap = s.snap := rfl
@[simp] theorem State.setCk_mem (s : State) (c : Ckpt) : (s.setCk c).mem = s.mem := rfl
@[simp] theorem State.setCk_acc (s : State) (c : Ckpt) : (s.setCk c).acc = s.acc := rfl
@[simp] theorem State.setCk_accGen (s : State) (c : Ckpt) : (s.setCk c).accGen = s.accGen := rfl
@[simp] theorem State.setCk_cores (s : State) (c : Ckpt) : (s.setCk c).cores = s.cores := rfl
@[simp] theorem State.setCk_events (s : State) (c : Ckpt) : (s.setCk c).events = s.events := rfl
@[simp] theorem State.setCk_evSeq (s : State) (c : Ckpt) : (s.setCk c).evSeq = s.evSeq := rfl
@[simp] theorem State.setCk_evHead (s : State) (c : Ckpt) : (s.setCk c).evHead = s.evHead := rfl
@[simp] theorem State.setCk_evCap (s : State) (c : Ckpt) : (s.setCk c).evCap = s.evCap := rfl
@[simp] theorem State.setCk_jobLoaded (s : State) (c : Ckpt) : (s.setCk c).jobLoaded = s.jobLoaded := rfl
@[simp] theorem State.setCk_joined (s : State) (c : Ckpt) : (s.setCk c).joined = s.joined := rfl
@[simp] theorem State.setCk_trans (s : State) (c : Ckpt) : (s.setCk c).trans = s.trans := rfl
@[simp] theorem State.setCk_heldStarts (s : State) (c : Ckpt) : (s.setCk c).heldStarts = s.heldStarts := rfl
@[simp] theorem State.setCk_kickWait (s : State) (c : Ckpt) : (s.setCk c).kickWait = s.kickWait := rfl
@[simp] theorem State.setCk_stopAll (s : State) (c : Ckpt) : (s.setCk c).stopAll = s.stopAll := rfl
@[simp] theorem State.setCk_miss (s : State) (c : Ckpt) : (s.setCk c).miss = s.miss := rfl
@[simp] theorem State.setCk_dead (s : State) (c : Ckpt) : (s.setCk c).dead = s.dead := rfl
@[simp] theorem State.setCk_later (s : State) (c : Ckpt) : (s.setCk c).later = s.later := rfl
@[simp] theorem State.setCk_net (s : State) (c : Ckpt) : (s.setCk c).net = s.net := rfl
@[simp] theorem State.setCk_fab (s : State) (c : Ckpt) : (s.setCk c).fab = s.fab := rfl
@[simp] theorem State.setCk_ws (s : State) (c : Ckpt) : (s.setCk c).ws = s.ws := rfl
@[simp] theorem State.setCk_red (s : State) (c : Ckpt) : (s.setCk c).red = s.red := rfl
@[simp] theorem State.setCk_pwr (s : State) (c : Ckpt) : (s.setCk c).pwr = s.pwr := rfl
@[simp] theorem State.setCk_wear (s : State) (c : Ckpt) : (s.setCk c).wear = s.wear := rfl
@[simp] theorem State.setCk_lodge (s : State) (c : Ckpt) : (s.setCk c).lodge = s.lodge := rfl
@[simp] theorem State.setCk_boot (s : State) (c : Ckpt) : (s.setCk c).boot = s.boot := rfl
@[simp] theorem State.setCk_idGen (s : State) (c : Ckpt) : (s.setCk c).idGen = s.idGen := rfl
@[simp] theorem State.setCk_ivRecord (s : State) (c : Ckpt) : (s.setCk c).ivRecord = s.ivRecord := rfl
@[simp] theorem State.setCk_free (s : State) (c : Ckpt) : (s.setCk c).free = s.free := rfl
@[simp] theorem State.setCk_pending (s : State) (c : Ckpt) : (s.setCk c).pending = s.pending := rfl
@[simp] theorem State.setCk_reg (s : State) (c : Ckpt) (a : Nat) : (s.setCk c).reg a = s.reg a := rfl
@[simp] theorem State.setCk_fld (s : State) (c : Ckpt) (g : Fld) : (s.setCk c).fld g = s.fld g := rfl
@[simp] theorem State.setCk_flag (s : State) (c : Ckpt) (g : Fld) : (s.setCk c).flag g = s.flag g := rfl
@[simp] theorem State.setCk_core (s : State) (c : Ckpt) (n : Nat) : (s.setCk c).core n = s.core n := rfl
@[simp] theorem State.setCk_ctx (s : State) (c : Ckpt) (n j : Nat) : (s.setCk c).ctx n j = s.ctx n j := rfl
@[simp] theorem State.setCk_lnk (s : State) (c : Ckpt) (j : Nat) : (s.setCk c).lnk j = s.lnk j := rfl

/-! ## setLnk -/

@[simp] theorem State.setLnk_regs (s : State) (k : Nat) (l : LinkSt) : (s.setLnk k l).regs = s.regs := rfl
@[simp] theorem State.setLnk_snap (s : State) (k : Nat) (l : LinkSt) : (s.setLnk k l).snap = s.snap := rfl
@[simp] theorem State.setLnk_mem (s : State) (k : Nat) (l : LinkSt) : (s.setLnk k l).mem = s.mem := rfl
@[simp] theorem State.setLnk_acc (s : State) (k : Nat) (l : LinkSt) : (s.setLnk k l).acc = s.acc := rfl
@[simp] theorem State.setLnk_accGen (s : State) (k : Nat) (l : LinkSt) : (s.setLnk k l).accGen = s.accGen := rfl
@[simp] theorem State.setLnk_cores (s : State) (k : Nat) (l : LinkSt) : (s.setLnk k l).cores = s.cores := rfl
@[simp] theorem State.setLnk_events (s : State) (k : Nat) (l : LinkSt) : (s.setLnk k l).events = s.events := rfl
@[simp] theorem State.setLnk_evSeq (s : State) (k : Nat) (l : LinkSt) : (s.setLnk k l).evSeq = s.evSeq := rfl
@[simp] theorem State.setLnk_evHead (s : State) (k : Nat) (l : LinkSt) : (s.setLnk k l).evHead = s.evHead := rfl
@[simp] theorem State.setLnk_evCap (s : State) (k : Nat) (l : LinkSt) : (s.setLnk k l).evCap = s.evCap := rfl
@[simp] theorem State.setLnk_jobLoaded (s : State) (k : Nat) (l : LinkSt) : (s.setLnk k l).jobLoaded = s.jobLoaded := rfl
@[simp] theorem State.setLnk_joined (s : State) (k : Nat) (l : LinkSt) : (s.setLnk k l).joined = s.joined := rfl
@[simp] theorem State.setLnk_trans (s : State) (k : Nat) (l : LinkSt) : (s.setLnk k l).trans = s.trans := rfl
@[simp] theorem State.setLnk_heldStarts (s : State) (k : Nat) (l : LinkSt) : (s.setLnk k l).heldStarts = s.heldStarts := rfl
@[simp] theorem State.setLnk_kickWait (s : State) (k : Nat) (l : LinkSt) : (s.setLnk k l).kickWait = s.kickWait := rfl
@[simp] theorem State.setLnk_stopAll (s : State) (k : Nat) (l : LinkSt) : (s.setLnk k l).stopAll = s.stopAll := rfl
@[simp] theorem State.setLnk_miss (s : State) (k : Nat) (l : LinkSt) : (s.setLnk k l).miss = s.miss := rfl
@[simp] theorem State.setLnk_dead (s : State) (k : Nat) (l : LinkSt) : (s.setLnk k l).dead = s.dead := rfl
@[simp] theorem State.setLnk_later (s : State) (k : Nat) (l : LinkSt) : (s.setLnk k l).later = s.later := rfl
@[simp] theorem State.setLnk_fab (s : State) (k : Nat) (l : LinkSt) : (s.setLnk k l).fab = s.fab := rfl
@[simp] theorem State.setLnk_ws (s : State) (k : Nat) (l : LinkSt) : (s.setLnk k l).ws = s.ws := rfl
@[simp] theorem State.setLnk_red (s : State) (k : Nat) (l : LinkSt) : (s.setLnk k l).red = s.red := rfl
@[simp] theorem State.setLnk_ckpt (s : State) (k : Nat) (l : LinkSt) : (s.setLnk k l).ckpt = s.ckpt := rfl
@[simp] theorem State.setLnk_pwr (s : State) (k : Nat) (l : LinkSt) : (s.setLnk k l).pwr = s.pwr := rfl
@[simp] theorem State.setLnk_wear (s : State) (k : Nat) (l : LinkSt) : (s.setLnk k l).wear = s.wear := rfl
@[simp] theorem State.setLnk_lodge (s : State) (k : Nat) (l : LinkSt) : (s.setLnk k l).lodge = s.lodge := rfl
@[simp] theorem State.setLnk_boot (s : State) (k : Nat) (l : LinkSt) : (s.setLnk k l).boot = s.boot := rfl
@[simp] theorem State.setLnk_idGen (s : State) (k : Nat) (l : LinkSt) : (s.setLnk k l).idGen = s.idGen := rfl
@[simp] theorem State.setLnk_ivRecord (s : State) (k : Nat) (l : LinkSt) : (s.setLnk k l).ivRecord = s.ivRecord := rfl
@[simp] theorem State.setLnk_free (s : State) (k : Nat) (l : LinkSt) : (s.setLnk k l).free = s.free := rfl
@[simp] theorem State.setLnk_pending (s : State) (k : Nat) (l : LinkSt) : (s.setLnk k l).pending = s.pending := rfl
@[simp] theorem State.setLnk_reg (s : State) (k : Nat) (l : LinkSt) (a : Nat) : (s.setLnk k l).reg a = s.reg a := rfl
@[simp] theorem State.setLnk_fld (s : State) (k : Nat) (l : LinkSt) (g : Fld) : (s.setLnk k l).fld g = s.fld g := rfl
@[simp] theorem State.setLnk_flag (s : State) (k : Nat) (l : LinkSt) (g : Fld) : (s.setLnk k l).flag g = s.flag g := rfl
@[simp] theorem State.setLnk_core (s : State) (k : Nat) (l : LinkSt) (n : Nat) : (s.setLnk k l).core n = s.core n := rfl
@[simp] theorem State.setLnk_ctx (s : State) (k : Nat) (l : LinkSt) (n j : Nat) : (s.setLnk k l).ctx n j = s.ctx n j := rfl

/-! ## out -/

@[simp] theorem State.out_regs (s : State) (o : Out) : (s.out o).regs = s.regs := rfl
@[simp] theorem State.out_snap (s : State) (o : Out) : (s.out o).snap = s.snap := rfl
@[simp] theorem State.out_mem (s : State) (o : Out) : (s.out o).mem = s.mem := rfl
@[simp] theorem State.out_acc (s : State) (o : Out) : (s.out o).acc = s.acc := rfl
@[simp] theorem State.out_accGen (s : State) (o : Out) : (s.out o).accGen = s.accGen := rfl
@[simp] theorem State.out_cores (s : State) (o : Out) : (s.out o).cores = s.cores := rfl
@[simp] theorem State.out_events (s : State) (o : Out) : (s.out o).events = s.events := rfl
@[simp] theorem State.out_evSeq (s : State) (o : Out) : (s.out o).evSeq = s.evSeq := rfl
@[simp] theorem State.out_evHead (s : State) (o : Out) : (s.out o).evHead = s.evHead := rfl
@[simp] theorem State.out_evCap (s : State) (o : Out) : (s.out o).evCap = s.evCap := rfl
@[simp] theorem State.out_jobLoaded (s : State) (o : Out) : (s.out o).jobLoaded = s.jobLoaded := rfl
@[simp] theorem State.out_joined (s : State) (o : Out) : (s.out o).joined = s.joined := rfl
@[simp] theorem State.out_trans (s : State) (o : Out) : (s.out o).trans = s.trans := rfl
@[simp] theorem State.out_heldStarts (s : State) (o : Out) : (s.out o).heldStarts = s.heldStarts := rfl
@[simp] theorem State.out_kickWait (s : State) (o : Out) : (s.out o).kickWait = s.kickWait := rfl
@[simp] theorem State.out_stopAll (s : State) (o : Out) : (s.out o).stopAll = s.stopAll := rfl
@[simp] theorem State.out_miss (s : State) (o : Out) : (s.out o).miss = s.miss := rfl
@[simp] theorem State.out_dead (s : State) (o : Out) : (s.out o).dead = s.dead := rfl
@[simp] theorem State.out_later (s : State) (o : Out) : (s.out o).later = s.later := rfl
@[simp] theorem State.out_fab (s : State) (o : Out) : (s.out o).fab = s.fab := rfl
@[simp] theorem State.out_ws (s : State) (o : Out) : (s.out o).ws = s.ws := rfl
@[simp] theorem State.out_red (s : State) (o : Out) : (s.out o).red = s.red := rfl
@[simp] theorem State.out_ckpt (s : State) (o : Out) : (s.out o).ckpt = s.ckpt := rfl
@[simp] theorem State.out_pwr (s : State) (o : Out) : (s.out o).pwr = s.pwr := rfl
@[simp] theorem State.out_wear (s : State) (o : Out) : (s.out o).wear = s.wear := rfl
@[simp] theorem State.out_lodge (s : State) (o : Out) : (s.out o).lodge = s.lodge := rfl
@[simp] theorem State.out_boot (s : State) (o : Out) : (s.out o).boot = s.boot := rfl
@[simp] theorem State.out_idGen (s : State) (o : Out) : (s.out o).idGen = s.idGen := rfl
@[simp] theorem State.out_ivRecord (s : State) (o : Out) : (s.out o).ivRecord = s.ivRecord := rfl
@[simp] theorem State.out_free (s : State) (o : Out) : (s.out o).free = s.free := rfl
@[simp] theorem State.out_pending (s : State) (o : Out) : (s.out o).pending = s.pending := rfl
@[simp] theorem State.out_reg (s : State) (o : Out) (a : Nat) : (s.out o).reg a = s.reg a := rfl
@[simp] theorem State.out_fld (s : State) (o : Out) (g : Fld) : (s.out o).fld g = s.fld g := rfl
@[simp] theorem State.out_flag (s : State) (o : Out) (g : Fld) : (s.out o).flag g = s.flag g := rfl
@[simp] theorem State.out_core (s : State) (o : Out) (n : Nat) : (s.out o).core n = s.core n := rfl
@[simp] theorem State.out_ctx (s : State) (o : Out) (n j : Nat) : (s.out o).ctx n j = s.ctx n j := rfl

@[simp] theorem State.setWs_ws (s : State) (w : Wstream) : (s.setWs w).ws = w := rfl
@[simp] theorem State.setRed_red (s : State) (r : Red) : (s.setRed r).red = r := rfl
@[simp] theorem State.setCk_ckpt (s : State) (c : Ckpt) : (s.setCk c).ckpt = c := rfl
@[simp] theorem State.tick_free (s : State) : s.tick.free = s.free + 1 := rfl
@[simp] theorem State.out_sent (s : State) (o : Out) : (s.out o).net.sent = o :: s.net.sent := rfl
@[simp] theorem State.out_lnk (s : State) (o : Out) (k : Nat) : (s.out o).lnk k = s.lnk k := rfl
@[simp] theorem State.lnk_setLnk (s : State) (j k : Nat) (l : LinkSt) : (s.setLnk j l).lnk k = if k = j then l else s.lnk k := by
  simp [State.lnk, State.setLnk]

/-! ## Cores and contexts -/

@[simp] theorem State.core_setCore (s : State) (n m : Nat) (c : Core) : (s.setCore n c).core m = if m = n then c else s.core m := by
  simp [State.core, State.setCore]

@[simp] theorem Core.ctx_setCtx (c : Core) (j k : Nat) (x : Ctx) : (c.setCtx j x).ctx k = if k = j then x else c.ctx k := by
  simp [Core.ctx, Core.setCtx]

theorem State.core_setCtx (s : State) (n k m : Nat) (x : Ctx) : (s.setCtx n k x).core m = if m = n then (s.core n).setCtx k x else s.core m := by
  simp [State.setCtx]

@[simp] theorem State.ctx_setCtx (s : State) (n k m j : Nat) (x : Ctx) :
    (s.setCtx n k x).ctx m j = if m = n ∧ j = k then x else s.ctx m j := by
  unfold State.ctx; rw [State.core_setCtx]
  by_cases h : m = n
  · subst h; simp only [if_true, Core.ctx_setCtx]; split <;> simp_all
  · simp [h]

@[simp] theorem State.setCore_setCore (s : State) (n : Nat) (c d : Core) : (s.setCore n c).setCore n d = s.setCore n d := by
  simp [State.setCore, Sparse.put_put]

@[simp] theorem State.setCtx_setCtx (s : State) (n k : Nat) (x y : Ctx) : (s.setCtx n k x).setCtx n k y = s.setCtx n k y := by
  simp [State.setCtx, Core.setCtx, Sparse.put_put]

/-! ## Registers of a context -/

@[simp] theorem Ctx.sr_zero (x : Ctx) : x.sr 0 = 0 := rfl
@[simp] theorem Ctx.pr_zero (x : Ctx) : x.pr 0 = true := rfl
theorem Ctx.sr_setSr (x : Ctx) (i j : Nat) (v : W64) : (x.setSr i v).sr j = if j = i ∧ j ≠ 0 then v else x.sr j := by
  unfold Ctx.setSr Ctx.sr; by_cases hi : i = 0 <;> by_cases hj : j = 0 <;> simp_all
@[simp] theorem Ctx.tr_setTr (x : Ctx) (i j : Nat) (v : Desc) : (x.setTr i v).tr j = if j = i then v else x.tr j := by simp [Ctx.setTr, Ctx.tr]
@[simp] theorem Ctx.hd_setHd (x : Ctx) (i j : Nat) (h : Handle) : (x.setHd i h).hd j = if j = i then h else x.hd j := by simp [Ctx.setHd, Ctx.hd]

/-! ## Fields -/

/-- A field reads what was written to it, cut to its width. -/
theorem State.fld_setFld (s : State) (f : Fld) (v : Nat) (h : f.lo + f.w ≤ 64) : (s.setFld f v).fld f = v % 2 ^ f.w := by
  simp only [State.fld, State.setFld, State.reg_setReg, if_true]
  rw [show (insertBits (s.reg f.addr) f.lo f.w v).extractLsb' f.lo f.w = BitVec.ofNat f.w (v % 2 ^ f.w) from ?_]
  · simp
  · apply BitVec.eq_of_getLsbD_eq
    intro i hi
    simp only [insertBits, BitVec.getLsbD_extractLsb', BitVec.getLsbD_or, BitVec.getLsbD_and, BitVec.getLsbD_not, BitVec.getLsbD_shiftLeft,
      BitVec.getLsbD_ofNat, Nat.testBit_mod_two_pow, Nat.testBit_two_pow_sub_one, hi, decide_true, Bool.true_and]
    have h1 : f.lo + i < 64 := by omega
    have h2 : ¬ f.lo + i < f.lo := by omega
    have h3 : f.lo + i - f.lo = i := by omega
    have h4 : i < 64 := by omega
    simp [h1, h3, h4, hi]

/-- A write of a field leaves the fields of other words. -/
theorem State.fld_setFld_addr (s : State) (f g : Fld) (v : Nat) (h : g.addr ≠ f.addr) : (s.setFld f v).fld g = s.fld g := by
  simp [State.fld, State.setFld, h]

/-- A write of a field leaves the fields of its word that share no bit with it. -/
theorem State.fld_setFld_bits (s : State) (f g : Fld) (v : Nat) (h : g.lo + g.w ≤ f.lo ∨ f.lo + f.w ≤ g.lo) :
    (s.setFld f v).fld g = s.fld g := by
  by_cases ha : g.addr = f.addr
  · simp only [State.fld, State.setFld, State.reg_setReg, ha, if_true]
    congr 1
    apply BitVec.eq_of_getLsbD_eq
    intro i hi
    simp only [insertBits, BitVec.getLsbD_extractLsb', BitVec.getLsbD_or, BitVec.getLsbD_and, BitVec.getLsbD_not, BitVec.getLsbD_shiftLeft,
      BitVec.getLsbD_ofNat, Nat.testBit_mod_two_pow, Nat.testBit_two_pow_sub_one, hi, decide_true, Bool.true_and]
    by_cases hl : g.lo + i < f.lo
    · by_cases h6 : g.lo + i < 64 <;> simp [hl, h6]
      exact BitVec.getLsbD_of_ge _ _ (by omega)
    · have h5 : ¬ g.lo + i - f.lo < f.w := by omega
      by_cases h6 : g.lo + i < 64 <;> simp [hl, h5, h6]
      exact BitVec.getLsbD_of_ge _ _ (by omega)
  · exact State.fld_setFld_addr s f g v ha

theorem State.reg_setFld_ne (s : State) (f : Fld) (v a : Nat) (h : a ≠ f.addr) : (s.setFld f v).reg a = s.reg a := by
  simp [State.setFld, h]

theorem State.flag_setFlag (s : State) (f : Fld) (b : Bool) (h : f.lo + f.w ≤ 64) (hw : 0 < f.w) : (s.setFlag f b).flag f = b := by
  simp only [State.flag, State.setFlag, State.fld_setFld s f _ h]
  have : 1 < 2 ^ f.w := Nat.one_lt_two_pow (by omega)
  cases b <;> simp [bit, Nat.mod_eq_of_lt this]

/-! ## Events and counters -/

/-- What an event or a counter may change: registers, the event ring, the buffers of the bridges. -/
def Quiet (s t : State) : Prop :=
  t = { s with regs := t.regs, events := t.events, evSeq := t.evSeq, evHead := t.evHead, lodge := { s.lodge with buf := t.lodge.buf } }

theorem Quiet.rfl' (s : State) : Quiet s s := by cases s; rfl

theorem Quiet.field {α : Type} {s t : State} (h : Quiet s t) (g : State → α)
    (hg : ∀ r e q d b, g { s with regs := r, events := e, evSeq := q, evHead := d, lodge := { s.lodge with buf := b } } = g s) : g t = g s :=
  (congrArg g h).trans (hg _ _ _ _ _)

theorem Quiet.trans {s t u : State} (h : Quiet s t) (k : Quiet t u) : Quiet s u := by
  unfold Quiet at *; rw [h] at k; simpa using k

theorem quiet_setReg (s : State) (a : Nat) (v : W64) : Quiet s (s.setReg a v) := by simp [Quiet, State.setReg]

theorem quiet_bumpQuiet (s : State) (f : Fld) (n : Nat) : Quiet s (s.bumpQuiet f n).1 := by
  unfold State.bumpQuiet; dsimp only; split
  · exact (quiet_setReg _ _ _).trans (quiet_setReg _ _ _)
  · exact quiet_setReg _ _ _

theorem quiet_appendEvent (s : State) (r : EvtRec) : Quiet s (s.appendEvent r) := by
  unfold State.appendEvent; dsimp only; split
  · exact Quiet.trans (t := { s with events := (r :: s.events).take s.evCap, evSeq := (s.evSeq + 1) % 2 ^ 32, evHead := (s.evHead + 1) % s.evCap })
      (by simp [Quiet]) (quiet_bumpQuiet _ _ _)
  · simp [Quiet]

theorem quiet_putEvent (s : State) (r : EvtRec) : Quiet s (s.putEvent r) := by
  unfold State.putEvent; split
  · exact quiet_appendEvent _ _
  · dsimp only; split
    · simp [Quiet]
    · exact quiet_bumpQuiet _ _ _

theorem quiet_foldl {α : Type} (f : State → α → State) (h : ∀ s x, Quiet s (f s x)) (l : List α) (s : State) : Quiet s (l.foldl f s) := by
  induction l generalizing s with
  | nil => exact Quiet.rfl' s
  | cons x l ih => exact (h s x).trans (ih _)

theorem quiet_raiseQuiet (s : State) (c k src : Nat) (p : List Byte) : Quiet s (s.raiseQuiet c k src p) := by
  unfold State.raiseQuiet; split
  · exact quiet_foldl _ (fun s _ => quiet_putEvent s _) _ _
  · exact quiet_bumpQuiet _ _ _

theorem quiet_satReport (s0 : State) (f : Fld) (s : State) : Quiet s (s0.satReport f s) := by
  unfold State.satReport; dsimp only; split
  · exact quiet_raiseQuiet _ _ _ _ _
  · exact Quiet.rfl' s

theorem quiet_ringReports (s0 s : State) : Quiet s (s0.ringReports s) :=
  ((quiet_satReport _ _ _).trans (quiet_satReport _ _ _)).trans (quiet_satReport _ _ _)

theorem quiet_bumpBy (s : State) (f : Fld) (n : Nat) : Quiet s (s.bumpBy f n) := by
  have h := quiet_bumpQuiet s f n
  unfold State.bumpBy; split <;> rename_i e <;> rw [e] at h
  · exact (h.trans (quiet_raiseQuiet _ _ _ _ _)).trans (quiet_ringReports _ _)
  · exact h

theorem quiet_raise (s : State) (c k src : Nat) (p : List Byte) : Quiet s (s.raise c k src p) :=
  (quiet_raiseQuiet _ _ _ _ _).trans (quiet_ringReports _ _)


@[simp] theorem State.raise_snap (s : State) (c k src : Nat) (p : List Byte) : (s.raise c k src p).snap = s.snap := (quiet_raise s c k src p).field State.snap (fun _ _ _ _ _ => rfl)
@[simp] theorem State.raise_mem (s : State) (c k src : Nat) (p : List Byte) : (s.raise c k src p).mem = s.mem := (quiet_raise s c k src p).field State.mem (fun _ _ _ _ _ => rfl)
@[simp] theorem State.raise_acc (s : State) (c k src : Nat) (p : List Byte) : (s.raise c k src p).acc = s.acc := (quiet_raise s c k src p).field State.acc (fun _ _ _ _ _ => rfl)
@[simp] theorem State.raise_accGen (s : State) (c k src : Nat) (p : List Byte) : (s.raise c k src p).accGen = s.accGen := (quiet_raise s c k src p).field State.accGen (fun _ _ _ _ _ => rfl)
@[simp] theorem State.raise_cores (s : State) (c k src : Nat) (p : List Byte) : (s.raise c k src p).cores = s.cores := (quiet_raise s c k src p).field State.cores (fun _ _ _ _ _ => rfl)
@[simp] theorem State.raise_evCap (s : State) (c k src : Nat) (p : List Byte) : (s.raise c k src p).evCap = s.evCap := (quiet_raise s c k src p).field State.evCap (fun _ _ _ _ _ => rfl)
@[simp] theorem State.raise_jobLoaded (s : State) (c k src : Nat) (p : List Byte) : (s.raise c k src p).jobLoaded = s.jobLoaded := (quiet_raise s c k src p).field State.jobLoaded (fun _ _ _ _ _ => rfl)
@[simp] theorem State.raise_joined (s : State) (c k src : Nat) (p : List Byte) : (s.raise c k src p).joined = s.joined := (quiet_raise s c k src p).field State.joined (fun _ _ _ _ _ => rfl)
@[simp] theorem State.raise_trans (s : State) (c k src : Nat) (p : List Byte) : (s.raise c k src p).trans = s.trans := (quiet_raise s c k src p).field State.trans (fun _ _ _ _ _ => rfl)
@[simp] theorem State.raise_heldStarts (s : State) (c k src : Nat) (p : List Byte) : (s.raise c k src p).heldStarts = s.heldStarts := (quiet_raise s c k src p).field State.heldStarts (fun _ _ _ _ _ => rfl)
@[simp] theorem State.raise_kickWait (s : State) (c k src : Nat) (p : List Byte) : (s.raise c k src p).kickWait = s.kickWait := (quiet_raise s c k src p).field State.kickWait (fun _ _ _ _ _ => rfl)
@[simp] theorem State.raise_stopAll (s : State) (c k src : Nat) (p : List Byte) : (s.raise c k src p).stopAll = s.stopAll := (quiet_raise s c k src p).field State.stopAll (fun _ _ _ _ _ => rfl)
@[simp] theorem State.raise_miss (s : State) (c k src : Nat) (p : List Byte) : (s.raise c k src p).miss = s.miss := (quiet_raise s c k src p).field State.miss (fun _ _ _ _ _ => rfl)
@[simp] theorem State.raise_dead (s : State) (c k src : Nat) (p : List Byte) : (s.raise c k src p).dead = s.dead := (quiet_raise s c k src p).field State.dead (fun _ _ _ _ _ => rfl)
@[simp] theorem State.raise_later (s : State) (c k src : Nat) (p : List Byte) : (s.raise c k src p).later = s.later := (quiet_raise s c k src p).field State.later (fun _ _ _ _ _ => rfl)
@[simp] theorem State.raise_net (s : State) (c k src : Nat) (p : List Byte) : (s.raise c k src p).net = s.net := (quiet_raise s c k src p).field State.net (fun _ _ _ _ _ => rfl)
@[simp] theorem State.raise_fab (s : State) (c k src : Nat) (p : List Byte) : (s.raise c k src p).fab = s.fab := (quiet_raise s c k src p).field State.fab (fun _ _ _ _ _ => rfl)
@[simp] theorem State.raise_ws (s : State) (c k src : Nat) (p : List Byte) : (s.raise c k src p).ws = s.ws := (quiet_raise s c k src p).field State.ws (fun _ _ _ _ _ => rfl)
@[simp] theorem State.raise_red (s : State) (c k src : Nat) (p : List Byte) : (s.raise c k src p).red = s.red := (quiet_raise s c k src p).field State.red (fun _ _ _ _ _ => rfl)
@[simp] theorem State.raise_ckpt (s : State) (c k src : Nat) (p : List Byte) : (s.raise c k src p).ckpt = s.ckpt := (quiet_raise s c k src p).field State.ckpt (fun _ _ _ _ _ => rfl)
@[simp] theorem State.raise_pwr (s : State) (c k src : Nat) (p : List Byte) : (s.raise c k src p).pwr = s.pwr := (quiet_raise s c k src p).field State.pwr (fun _ _ _ _ _ => rfl)
@[simp] theorem State.raise_wear (s : State) (c k src : Nat) (p : List Byte) : (s.raise c k src p).wear = s.wear := (quiet_raise s c k src p).field State.wear (fun _ _ _ _ _ => rfl)
@[simp] theorem State.raise_boot (s : State) (c k src : Nat) (p : List Byte) : (s.raise c k src p).boot = s.boot := (quiet_raise s c k src p).field State.boot (fun _ _ _ _ _ => rfl)
@[simp] theorem State.raise_idGen (s : State) (c k src : Nat) (p : List Byte) : (s.raise c k src p).idGen = s.idGen := (quiet_raise s c k src p).field State.idGen (fun _ _ _ _ _ => rfl)
@[simp] theorem State.raise_ivRecord (s : State) (c k src : Nat) (p : List Byte) : (s.raise c k src p).ivRecord = s.ivRecord := (quiet_raise s c k src p).field State.ivRecord (fun _ _ _ _ _ => rfl)
@[simp] theorem State.raise_free (s : State) (c k src : Nat) (p : List Byte) : (s.raise c k src p).free = s.free := (quiet_raise s c k src p).field State.free (fun _ _ _ _ _ => rfl)
@[simp] theorem State.raise_pending (s : State) (c k src : Nat) (p : List Byte) : (s.raise c k src p).pending = s.pending := (quiet_raise s c k src p).field State.pending (fun _ _ _ _ _ => rfl)
@[simp] theorem State.raise_core (s : State) (c k src : Nat) (p : List Byte) (j : Nat) : (s.raise c k src p).core j = s.core j := by simp [State.core]
@[simp] theorem State.raise_ctx (s : State) (c k src : Nat) (p : List Byte) (i j : Nat) : (s.raise c k src p).ctx i j = s.ctx i j := by simp [State.ctx]
@[simp] theorem State.raise_lnk (s : State) (c k src : Nat) (p : List Byte) (j : Nat) : (s.raise c k src p).lnk j = s.lnk j := by simp [State.lnk]
@[simp] theorem State.raise_lodge_restart (s : State) (c k src : Nat) (p : List Byte) : (s.raise c k src p).lodge.restart = s.lodge.restart := (quiet_raise s c k src p).field (fun t => t.lodge.restart) (fun _ _ _ _ _ => rfl)
@[simp] theorem State.raise_lodge_sessions (s : State) (c k src : Nat) (p : List Byte) : (s.raise c k src p).lodge.sessions = s.lodge.sessions := (quiet_raise s c k src p).field (fun t => t.lodge.sessions) (fun _ _ _ _ _ => rfl)
@[simp] theorem State.raise_lodge_rom (s : State) (c k src : Nat) (p : List Byte) : (s.raise c k src p).lodge.rom = s.lodge.rom := (quiet_raise s c k src p).field (fun t => t.lodge.rom) (fun _ _ _ _ _ => rfl)
@[simp] theorem State.raise_lodge_fw (s : State) (c k src : Nat) (p : List Byte) : (s.raise c k src p).lodge.fw = s.lodge.fw := (quiet_raise s c k src p).field (fun t => t.lodge.fw) (fun _ _ _ _ _ => rfl)
@[simp] theorem State.raise_lodge_micro (s : State) (c k src : Nat) (p : List Byte) : (s.raise c k src p).lodge.micro = s.lodge.micro := (quiet_raise s c k src p).field (fun t => t.lodge.micro) (fun _ _ _ _ _ => rfl)
@[simp] theorem State.raise_lodge_piece (s : State) (c k src : Nat) (p : List Byte) : (s.raise c k src p).lodge.piece = s.lodge.piece := (quiet_raise s c k src p).field (fun t => t.lodge.piece) (fun _ _ _ _ _ => rfl)
@[simp] theorem State.raise_lodge_fwDigest (s : State) (c k src : Nat) (p : List Byte) : (s.raise c k src p).lodge.fwDigest = s.lodge.fwDigest := (quiet_raise s c k src p).field (fun t => t.lodge.fwDigest) (fun _ _ _ _ _ => rfl)
@[simp] theorem State.raise_lodge_nsvn (s : State) (c k src : Nat) (p : List Byte) : (s.raise c k src p).lodge.nsvn = s.lodge.nsvn := (quiet_raise s c k src p).field (fun t => t.lodge.nsvn) (fun _ _ _ _ _ => rfl)
@[simp] theorem State.raise_lodge_burned (s : State) (c k src : Nat) (p : List Byte) : (s.raise c k src p).lodge.burned = s.lodge.burned := (quiet_raise s c k src p).field (fun t => t.lodge.burned) (fun _ _ _ _ _ => rfl)
@[simp] theorem State.raise_lodge_recs (s : State) (c k src : Nat) (p : List Byte) : (s.raise c k src p).lodge.recs = s.lodge.recs := (quiet_raise s c k src p).field (fun t => t.lodge.recs) (fun _ _ _ _ _ => rfl)
@[simp] theorem State.raise_lodge_flash (s : State) (c k src : Nat) (p : List Byte) : (s.raise c k src p).lodge.flash = s.lodge.flash := (quiet_raise s c k src p).field (fun t => t.lodge.flash) (fun _ _ _ _ _ => rfl)
@[simp] theorem State.raise_lodge_held (s : State) (c k src : Nat) (p : List Byte) : (s.raise c k src p).lodge.held = s.lodge.held := (quiet_raise s c k src p).field (fun t => t.lodge.held) (fun _ _ _ _ _ => rfl)
@[simp] theorem State.raise_lodge_noCal (s : State) (c k src : Nat) (p : List Byte) : (s.raise c k src p).lodge.noCal = s.lodge.noCal := (quiet_raise s c k src p).field (fun t => t.lodge.noCal) (fun _ _ _ _ _ => rfl)
@[simp] theorem State.raise_lodge_noIv (s : State) (c k src : Nat) (p : List Byte) : (s.raise c k src p).lodge.noIv = s.lodge.noIv := (quiet_raise s c k src p).field (fun t => t.lodge.noIv) (fun _ _ _ _ _ => rfl)
@[simp] theorem State.raise_lodge_keys (s : State) (c k src : Nat) (p : List Byte) : (s.raise c k src p).lodge.keys = s.lodge.keys := (quiet_raise s c k src p).field (fun t => t.lodge.keys) (fun _ _ _ _ _ => rfl)
@[simp] theorem State.raise_lodge_ready (s : State) (c k src : Nat) (p : List Byte) : (s.raise c k src p).lodge.ready = s.lodge.ready := (quiet_raise s c k src p).field (fun t => t.lodge.ready) (fun _ _ _ _ _ => rfl)
@[simp] theorem State.raise_lodge_opened (s : State) (c k src : Nat) (p : List Byte) : (s.raise c k src p).lodge.opened = s.lodge.opened := (quiet_raise s c k src p).field (fun t => t.lodge.opened) (fun _ _ _ _ _ => rfl)
@[simp] theorem State.raise_lodge_debug (s : State) (c k src : Nat) (p : List Byte) : (s.raise c k src p).lodge.debug = s.lodge.debug := (quiet_raise s c k src p).field (fun t => t.lodge.debug) (fun _ _ _ _ _ => rfl)
@[simp] theorem State.raise_lodge_recovery (s : State) (c k src : Nat) (p : List Byte) : (s.raise c k src p).lodge.recovery = s.lodge.recovery := (quiet_raise s c k src p).field (fun t => t.lodge.recovery) (fun _ _ _ _ _ => rfl)
@[simp] theorem State.raise_lodge_staged (s : State) (c k src : Nat) (p : List Byte) : (s.raise c k src p).lodge.staged = s.lodge.staged := (quiet_raise s c k src p).field (fun t => t.lodge.staged) (fun _ _ _ _ _ => rfl)
@[simp] theorem State.raise_lodge_downgrade (s : State) (c k src : Nat) (p : List Byte) : (s.raise c k src p).lodge.downgrade = s.lodge.downgrade := (quiet_raise s c k src p).field (fun t => t.lodge.downgrade) (fun _ _ _ _ _ => rfl)
@[simp] theorem State.raise_lodge_rebuild (s : State) (c k src : Nat) (p : List Byte) : (s.raise c k src p).lodge.rebuild = s.lodge.rebuild := (quiet_raise s c k src p).field (fun t => t.lodge.rebuild) (fun _ _ _ _ _ => rfl)
@[simp] theorem State.raise_lodge_store (s : State) (c k src : Nat) (p : List Byte) : (s.raise c k src p).lodge.store = s.lodge.store := (quiet_raise s c k src p).field (fun t => t.lodge.store) (fun _ _ _ _ _ => rfl)
@[simp] theorem State.raise_lodge_service (s : State) (c k src : Nat) (p : List Byte) : (s.raise c k src p).lodge.service = s.lodge.service := (quiet_raise s c k src p).field (fun t => t.lodge.service) (fun _ _ _ _ _ => rfl)

@[simp] theorem State.raiseDev_snap (s : State) (c : Nat) (p : List Byte) : (s.raiseDev c p).snap = s.snap := (quiet_raise s c 0 0 p).field State.snap (fun _ _ _ _ _ => rfl)
@[simp] theorem State.raiseDev_mem (s : State) (c : Nat) (p : List Byte) : (s.raiseDev c p).mem = s.mem := (quiet_raise s c 0 0 p).field State.mem (fun _ _ _ _ _ => rfl)
@[simp] theorem State.raiseDev_acc (s : State) (c : Nat) (p : List Byte) : (s.raiseDev c p).acc = s.acc := (quiet_raise s c 0 0 p).field State.acc (fun _ _ _ _ _ => rfl)
@[simp] theorem State.raiseDev_accGen (s : State) (c : Nat) (p : List Byte) : (s.raiseDev c p).accGen = s.accGen := (quiet_raise s c 0 0 p).field State.accGen (fun _ _ _ _ _ => rfl)
@[simp] theorem State.raiseDev_cores (s : State) (c : Nat) (p : List Byte) : (s.raiseDev c p).cores = s.cores := (quiet_raise s c 0 0 p).field State.cores (fun _ _ _ _ _ => rfl)
@[simp] theorem State.raiseDev_evCap (s : State) (c : Nat) (p : List Byte) : (s.raiseDev c p).evCap = s.evCap := (quiet_raise s c 0 0 p).field State.evCap (fun _ _ _ _ _ => rfl)
@[simp] theorem State.raiseDev_jobLoaded (s : State) (c : Nat) (p : List Byte) : (s.raiseDev c p).jobLoaded = s.jobLoaded := (quiet_raise s c 0 0 p).field State.jobLoaded (fun _ _ _ _ _ => rfl)
@[simp] theorem State.raiseDev_joined (s : State) (c : Nat) (p : List Byte) : (s.raiseDev c p).joined = s.joined := (quiet_raise s c 0 0 p).field State.joined (fun _ _ _ _ _ => rfl)
@[simp] theorem State.raiseDev_trans (s : State) (c : Nat) (p : List Byte) : (s.raiseDev c p).trans = s.trans := (quiet_raise s c 0 0 p).field State.trans (fun _ _ _ _ _ => rfl)
@[simp] theorem State.raiseDev_heldStarts (s : State) (c : Nat) (p : List Byte) : (s.raiseDev c p).heldStarts = s.heldStarts := (quiet_raise s c 0 0 p).field State.heldStarts (fun _ _ _ _ _ => rfl)
@[simp] theorem State.raiseDev_kickWait (s : State) (c : Nat) (p : List Byte) : (s.raiseDev c p).kickWait = s.kickWait := (quiet_raise s c 0 0 p).field State.kickWait (fun _ _ _ _ _ => rfl)
@[simp] theorem State.raiseDev_stopAll (s : State) (c : Nat) (p : List Byte) : (s.raiseDev c p).stopAll = s.stopAll := (quiet_raise s c 0 0 p).field State.stopAll (fun _ _ _ _ _ => rfl)
@[simp] theorem State.raiseDev_miss (s : State) (c : Nat) (p : List Byte) : (s.raiseDev c p).miss = s.miss := (quiet_raise s c 0 0 p).field State.miss (fun _ _ _ _ _ => rfl)
@[simp] theorem State.raiseDev_dead (s : State) (c : Nat) (p : List Byte) : (s.raiseDev c p).dead = s.dead := (quiet_raise s c 0 0 p).field State.dead (fun _ _ _ _ _ => rfl)
@[simp] theorem State.raiseDev_later (s : State) (c : Nat) (p : List Byte) : (s.raiseDev c p).later = s.later := (quiet_raise s c 0 0 p).field State.later (fun _ _ _ _ _ => rfl)
@[simp] theorem State.raiseDev_net (s : State) (c : Nat) (p : List Byte) : (s.raiseDev c p).net = s.net := (quiet_raise s c 0 0 p).field State.net (fun _ _ _ _ _ => rfl)
@[simp] theorem State.raiseDev_fab (s : State) (c : Nat) (p : List Byte) : (s.raiseDev c p).fab = s.fab := (quiet_raise s c 0 0 p).field State.fab (fun _ _ _ _ _ => rfl)
@[simp] theorem State.raiseDev_ws (s : State) (c : Nat) (p : List Byte) : (s.raiseDev c p).ws = s.ws := (quiet_raise s c 0 0 p).field State.ws (fun _ _ _ _ _ => rfl)
@[simp] theorem State.raiseDev_red (s : State) (c : Nat) (p : List Byte) : (s.raiseDev c p).red = s.red := (quiet_raise s c 0 0 p).field State.red (fun _ _ _ _ _ => rfl)
@[simp] theorem State.raiseDev_ckpt (s : State) (c : Nat) (p : List Byte) : (s.raiseDev c p).ckpt = s.ckpt := (quiet_raise s c 0 0 p).field State.ckpt (fun _ _ _ _ _ => rfl)
@[simp] theorem State.raiseDev_pwr (s : State) (c : Nat) (p : List Byte) : (s.raiseDev c p).pwr = s.pwr := (quiet_raise s c 0 0 p).field State.pwr (fun _ _ _ _ _ => rfl)
@[simp] theorem State.raiseDev_wear (s : State) (c : Nat) (p : List Byte) : (s.raiseDev c p).wear = s.wear := (quiet_raise s c 0 0 p).field State.wear (fun _ _ _ _ _ => rfl)
@[simp] theorem State.raiseDev_boot (s : State) (c : Nat) (p : List Byte) : (s.raiseDev c p).boot = s.boot := (quiet_raise s c 0 0 p).field State.boot (fun _ _ _ _ _ => rfl)
@[simp] theorem State.raiseDev_idGen (s : State) (c : Nat) (p : List Byte) : (s.raiseDev c p).idGen = s.idGen := (quiet_raise s c 0 0 p).field State.idGen (fun _ _ _ _ _ => rfl)
@[simp] theorem State.raiseDev_ivRecord (s : State) (c : Nat) (p : List Byte) : (s.raiseDev c p).ivRecord = s.ivRecord := (quiet_raise s c 0 0 p).field State.ivRecord (fun _ _ _ _ _ => rfl)
@[simp] theorem State.raiseDev_free (s : State) (c : Nat) (p : List Byte) : (s.raiseDev c p).free = s.free := (quiet_raise s c 0 0 p).field State.free (fun _ _ _ _ _ => rfl)
@[simp] theorem State.raiseDev_pending (s : State) (c : Nat) (p : List Byte) : (s.raiseDev c p).pending = s.pending := (quiet_raise s c 0 0 p).field State.pending (fun _ _ _ _ _ => rfl)
@[simp] theorem State.raiseDev_core (s : State) (c : Nat) (p : List Byte) (j : Nat) : (s.raiseDev c p).core j = s.core j := by simp [State.core]
@[simp] theorem State.raiseDev_ctx (s : State) (c : Nat) (p : List Byte) (i j : Nat) : (s.raiseDev c p).ctx i j = s.ctx i j := by simp [State.ctx]
@[simp] theorem State.raiseDev_lnk (s : State) (c : Nat) (p : List Byte) (j : Nat) : (s.raiseDev c p).lnk j = s.lnk j := by simp [State.lnk]
@[simp] theorem State.raiseDev_lodge_restart (s : State) (c : Nat) (p : List Byte) : (s.raiseDev c p).lodge.restart = s.lodge.restart := (quiet_raise s c 0 0 p).field (fun t => t.lodge.restart) (fun _ _ _ _ _ => rfl)
@[simp] theorem State.raiseDev_lodge_sessions (s : State) (c : Nat) (p : List Byte) : (s.raiseDev c p).lodge.sessions = s.lodge.sessions := (quiet_raise s c 0 0 p).field (fun t => t.lodge.sessions) (fun _ _ _ _ _ => rfl)
@[simp] theorem State.raiseDev_lodge_rom (s : State) (c : Nat) (p : List Byte) : (s.raiseDev c p).lodge.rom = s.lodge.rom := (quiet_raise s c 0 0 p).field (fun t => t.lodge.rom) (fun _ _ _ _ _ => rfl)
@[simp] theorem State.raiseDev_lodge_fw (s : State) (c : Nat) (p : List Byte) : (s.raiseDev c p).lodge.fw = s.lodge.fw := (quiet_raise s c 0 0 p).field (fun t => t.lodge.fw) (fun _ _ _ _ _ => rfl)
@[simp] theorem State.raiseDev_lodge_micro (s : State) (c : Nat) (p : List Byte) : (s.raiseDev c p).lodge.micro = s.lodge.micro := (quiet_raise s c 0 0 p).field (fun t => t.lodge.micro) (fun _ _ _ _ _ => rfl)
@[simp] theorem State.raiseDev_lodge_piece (s : State) (c : Nat) (p : List Byte) : (s.raiseDev c p).lodge.piece = s.lodge.piece := (quiet_raise s c 0 0 p).field (fun t => t.lodge.piece) (fun _ _ _ _ _ => rfl)
@[simp] theorem State.raiseDev_lodge_fwDigest (s : State) (c : Nat) (p : List Byte) : (s.raiseDev c p).lodge.fwDigest = s.lodge.fwDigest := (quiet_raise s c 0 0 p).field (fun t => t.lodge.fwDigest) (fun _ _ _ _ _ => rfl)
@[simp] theorem State.raiseDev_lodge_nsvn (s : State) (c : Nat) (p : List Byte) : (s.raiseDev c p).lodge.nsvn = s.lodge.nsvn := (quiet_raise s c 0 0 p).field (fun t => t.lodge.nsvn) (fun _ _ _ _ _ => rfl)
@[simp] theorem State.raiseDev_lodge_burned (s : State) (c : Nat) (p : List Byte) : (s.raiseDev c p).lodge.burned = s.lodge.burned := (quiet_raise s c 0 0 p).field (fun t => t.lodge.burned) (fun _ _ _ _ _ => rfl)
@[simp] theorem State.raiseDev_lodge_recs (s : State) (c : Nat) (p : List Byte) : (s.raiseDev c p).lodge.recs = s.lodge.recs := (quiet_raise s c 0 0 p).field (fun t => t.lodge.recs) (fun _ _ _ _ _ => rfl)
@[simp] theorem State.raiseDev_lodge_flash (s : State) (c : Nat) (p : List Byte) : (s.raiseDev c p).lodge.flash = s.lodge.flash := (quiet_raise s c 0 0 p).field (fun t => t.lodge.flash) (fun _ _ _ _ _ => rfl)
@[simp] theorem State.raiseDev_lodge_held (s : State) (c : Nat) (p : List Byte) : (s.raiseDev c p).lodge.held = s.lodge.held := (quiet_raise s c 0 0 p).field (fun t => t.lodge.held) (fun _ _ _ _ _ => rfl)
@[simp] theorem State.raiseDev_lodge_noCal (s : State) (c : Nat) (p : List Byte) : (s.raiseDev c p).lodge.noCal = s.lodge.noCal := (quiet_raise s c 0 0 p).field (fun t => t.lodge.noCal) (fun _ _ _ _ _ => rfl)
@[simp] theorem State.raiseDev_lodge_noIv (s : State) (c : Nat) (p : List Byte) : (s.raiseDev c p).lodge.noIv = s.lodge.noIv := (quiet_raise s c 0 0 p).field (fun t => t.lodge.noIv) (fun _ _ _ _ _ => rfl)
@[simp] theorem State.raiseDev_lodge_keys (s : State) (c : Nat) (p : List Byte) : (s.raiseDev c p).lodge.keys = s.lodge.keys := (quiet_raise s c 0 0 p).field (fun t => t.lodge.keys) (fun _ _ _ _ _ => rfl)
@[simp] theorem State.raiseDev_lodge_ready (s : State) (c : Nat) (p : List Byte) : (s.raiseDev c p).lodge.ready = s.lodge.ready := (quiet_raise s c 0 0 p).field (fun t => t.lodge.ready) (fun _ _ _ _ _ => rfl)
@[simp] theorem State.raiseDev_lodge_opened (s : State) (c : Nat) (p : List Byte) : (s.raiseDev c p).lodge.opened = s.lodge.opened := (quiet_raise s c 0 0 p).field (fun t => t.lodge.opened) (fun _ _ _ _ _ => rfl)
@[simp] theorem State.raiseDev_lodge_debug (s : State) (c : Nat) (p : List Byte) : (s.raiseDev c p).lodge.debug = s.lodge.debug := (quiet_raise s c 0 0 p).field (fun t => t.lodge.debug) (fun _ _ _ _ _ => rfl)
@[simp] theorem State.raiseDev_lodge_recovery (s : State) (c : Nat) (p : List Byte) : (s.raiseDev c p).lodge.recovery = s.lodge.recovery := (quiet_raise s c 0 0 p).field (fun t => t.lodge.recovery) (fun _ _ _ _ _ => rfl)
@[simp] theorem State.raiseDev_lodge_staged (s : State) (c : Nat) (p : List Byte) : (s.raiseDev c p).lodge.staged = s.lodge.staged := (quiet_raise s c 0 0 p).field (fun t => t.lodge.staged) (fun _ _ _ _ _ => rfl)
@[simp] theorem State.raiseDev_lodge_downgrade (s : State) (c : Nat) (p : List Byte) : (s.raiseDev c p).lodge.downgrade = s.lodge.downgrade := (quiet_raise s c 0 0 p).field (fun t => t.lodge.downgrade) (fun _ _ _ _ _ => rfl)
@[simp] theorem State.raiseDev_lodge_rebuild (s : State) (c : Nat) (p : List Byte) : (s.raiseDev c p).lodge.rebuild = s.lodge.rebuild := (quiet_raise s c 0 0 p).field (fun t => t.lodge.rebuild) (fun _ _ _ _ _ => rfl)
@[simp] theorem State.raiseDev_lodge_store (s : State) (c : Nat) (p : List Byte) : (s.raiseDev c p).lodge.store = s.lodge.store := (quiet_raise s c 0 0 p).field (fun t => t.lodge.store) (fun _ _ _ _ _ => rfl)
@[simp] theorem State.raiseDev_lodge_service (s : State) (c : Nat) (p : List Byte) : (s.raiseDev c p).lodge.service = s.lodge.service := (quiet_raise s c 0 0 p).field (fun t => t.lodge.service) (fun _ _ _ _ _ => rfl)

@[simp] theorem State.raiseCore_snap (s : State) (c n : Nat) (p : List Byte) : (s.raiseCore c n p).snap = s.snap := (quiet_raise s c 2 n p).field State.snap (fun _ _ _ _ _ => rfl)
@[simp] theorem State.raiseCore_mem (s : State) (c n : Nat) (p : List Byte) : (s.raiseCore c n p).mem = s.mem := (quiet_raise s c 2 n p).field State.mem (fun _ _ _ _ _ => rfl)
@[simp] theorem State.raiseCore_acc (s : State) (c n : Nat) (p : List Byte) : (s.raiseCore c n p).acc = s.acc := (quiet_raise s c 2 n p).field State.acc (fun _ _ _ _ _ => rfl)
@[simp] theorem State.raiseCore_accGen (s : State) (c n : Nat) (p : List Byte) : (s.raiseCore c n p).accGen = s.accGen := (quiet_raise s c 2 n p).field State.accGen (fun _ _ _ _ _ => rfl)
@[simp] theorem State.raiseCore_cores (s : State) (c n : Nat) (p : List Byte) : (s.raiseCore c n p).cores = s.cores := (quiet_raise s c 2 n p).field State.cores (fun _ _ _ _ _ => rfl)
@[simp] theorem State.raiseCore_evCap (s : State) (c n : Nat) (p : List Byte) : (s.raiseCore c n p).evCap = s.evCap := (quiet_raise s c 2 n p).field State.evCap (fun _ _ _ _ _ => rfl)
@[simp] theorem State.raiseCore_jobLoaded (s : State) (c n : Nat) (p : List Byte) : (s.raiseCore c n p).jobLoaded = s.jobLoaded := (quiet_raise s c 2 n p).field State.jobLoaded (fun _ _ _ _ _ => rfl)
@[simp] theorem State.raiseCore_joined (s : State) (c n : Nat) (p : List Byte) : (s.raiseCore c n p).joined = s.joined := (quiet_raise s c 2 n p).field State.joined (fun _ _ _ _ _ => rfl)
@[simp] theorem State.raiseCore_trans (s : State) (c n : Nat) (p : List Byte) : (s.raiseCore c n p).trans = s.trans := (quiet_raise s c 2 n p).field State.trans (fun _ _ _ _ _ => rfl)
@[simp] theorem State.raiseCore_heldStarts (s : State) (c n : Nat) (p : List Byte) : (s.raiseCore c n p).heldStarts = s.heldStarts := (quiet_raise s c 2 n p).field State.heldStarts (fun _ _ _ _ _ => rfl)
@[simp] theorem State.raiseCore_kickWait (s : State) (c n : Nat) (p : List Byte) : (s.raiseCore c n p).kickWait = s.kickWait := (quiet_raise s c 2 n p).field State.kickWait (fun _ _ _ _ _ => rfl)
@[simp] theorem State.raiseCore_stopAll (s : State) (c n : Nat) (p : List Byte) : (s.raiseCore c n p).stopAll = s.stopAll := (quiet_raise s c 2 n p).field State.stopAll (fun _ _ _ _ _ => rfl)
@[simp] theorem State.raiseCore_miss (s : State) (c n : Nat) (p : List Byte) : (s.raiseCore c n p).miss = s.miss := (quiet_raise s c 2 n p).field State.miss (fun _ _ _ _ _ => rfl)
@[simp] theorem State.raiseCore_dead (s : State) (c n : Nat) (p : List Byte) : (s.raiseCore c n p).dead = s.dead := (quiet_raise s c 2 n p).field State.dead (fun _ _ _ _ _ => rfl)
@[simp] theorem State.raiseCore_later (s : State) (c n : Nat) (p : List Byte) : (s.raiseCore c n p).later = s.later := (quiet_raise s c 2 n p).field State.later (fun _ _ _ _ _ => rfl)
@[simp] theorem State.raiseCore_net (s : State) (c n : Nat) (p : List Byte) : (s.raiseCore c n p).net = s.net := (quiet_raise s c 2 n p).field State.net (fun _ _ _ _ _ => rfl)
@[simp] theorem State.raiseCore_fab (s : State) (c n : Nat) (p : List Byte) : (s.raiseCore c n p).fab = s.fab := (quiet_raise s c 2 n p).field State.fab (fun _ _ _ _ _ => rfl)
@[simp] theorem State.raiseCore_ws (s : State) (c n : Nat) (p : List Byte) : (s.raiseCore c n p).ws = s.ws := (quiet_raise s c 2 n p).field State.ws (fun _ _ _ _ _ => rfl)
@[simp] theorem State.raiseCore_red (s : State) (c n : Nat) (p : List Byte) : (s.raiseCore c n p).red = s.red := (quiet_raise s c 2 n p).field State.red (fun _ _ _ _ _ => rfl)
@[simp] theorem State.raiseCore_ckpt (s : State) (c n : Nat) (p : List Byte) : (s.raiseCore c n p).ckpt = s.ckpt := (quiet_raise s c 2 n p).field State.ckpt (fun _ _ _ _ _ => rfl)
@[simp] theorem State.raiseCore_pwr (s : State) (c n : Nat) (p : List Byte) : (s.raiseCore c n p).pwr = s.pwr := (quiet_raise s c 2 n p).field State.pwr (fun _ _ _ _ _ => rfl)
@[simp] theorem State.raiseCore_wear (s : State) (c n : Nat) (p : List Byte) : (s.raiseCore c n p).wear = s.wear := (quiet_raise s c 2 n p).field State.wear (fun _ _ _ _ _ => rfl)
@[simp] theorem State.raiseCore_boot (s : State) (c n : Nat) (p : List Byte) : (s.raiseCore c n p).boot = s.boot := (quiet_raise s c 2 n p).field State.boot (fun _ _ _ _ _ => rfl)
@[simp] theorem State.raiseCore_idGen (s : State) (c n : Nat) (p : List Byte) : (s.raiseCore c n p).idGen = s.idGen := (quiet_raise s c 2 n p).field State.idGen (fun _ _ _ _ _ => rfl)
@[simp] theorem State.raiseCore_ivRecord (s : State) (c n : Nat) (p : List Byte) : (s.raiseCore c n p).ivRecord = s.ivRecord := (quiet_raise s c 2 n p).field State.ivRecord (fun _ _ _ _ _ => rfl)
@[simp] theorem State.raiseCore_free (s : State) (c n : Nat) (p : List Byte) : (s.raiseCore c n p).free = s.free := (quiet_raise s c 2 n p).field State.free (fun _ _ _ _ _ => rfl)
@[simp] theorem State.raiseCore_pending (s : State) (c n : Nat) (p : List Byte) : (s.raiseCore c n p).pending = s.pending := (quiet_raise s c 2 n p).field State.pending (fun _ _ _ _ _ => rfl)
@[simp] theorem State.raiseCore_core (s : State) (c n : Nat) (p : List Byte) (j : Nat) : (s.raiseCore c n p).core j = s.core j := by simp [State.core]
@[simp] theorem State.raiseCore_ctx (s : State) (c n : Nat) (p : List Byte) (i j : Nat) : (s.raiseCore c n p).ctx i j = s.ctx i j := by simp [State.ctx]
@[simp] theorem State.raiseCore_lnk (s : State) (c n : Nat) (p : List Byte) (j : Nat) : (s.raiseCore c n p).lnk j = s.lnk j := by simp [State.lnk]
@[simp] theorem State.raiseCore_lodge_restart (s : State) (c n : Nat) (p : List Byte) : (s.raiseCore c n p).lodge.restart = s.lodge.restart := (quiet_raise s c 2 n p).field (fun t => t.lodge.restart) (fun _ _ _ _ _ => rfl)
@[simp] theorem State.raiseCore_lodge_sessions (s : State) (c n : Nat) (p : List Byte) : (s.raiseCore c n p).lodge.sessions = s.lodge.sessions := (quiet_raise s c 2 n p).field (fun t => t.lodge.sessions) (fun _ _ _ _ _ => rfl)
@[simp] theorem State.raiseCore_lodge_rom (s : State) (c n : Nat) (p : List Byte) : (s.raiseCore c n p).lodge.rom = s.lodge.rom := (quiet_raise s c 2 n p).field (fun t => t.lodge.rom) (fun _ _ _ _ _ => rfl)
@[simp] theorem State.raiseCore_lodge_fw (s : State) (c n : Nat) (p : List Byte) : (s.raiseCore c n p).lodge.fw = s.lodge.fw := (quiet_raise s c 2 n p).field (fun t => t.lodge.fw) (fun _ _ _ _ _ => rfl)
@[simp] theorem State.raiseCore_lodge_micro (s : State) (c n : Nat) (p : List Byte) : (s.raiseCore c n p).lodge.micro = s.lodge.micro := (quiet_raise s c 2 n p).field (fun t => t.lodge.micro) (fun _ _ _ _ _ => rfl)
@[simp] theorem State.raiseCore_lodge_piece (s : State) (c n : Nat) (p : List Byte) : (s.raiseCore c n p).lodge.piece = s.lodge.piece := (quiet_raise s c 2 n p).field (fun t => t.lodge.piece) (fun _ _ _ _ _ => rfl)
@[simp] theorem State.raiseCore_lodge_fwDigest (s : State) (c n : Nat) (p : List Byte) : (s.raiseCore c n p).lodge.fwDigest = s.lodge.fwDigest := (quiet_raise s c 2 n p).field (fun t => t.lodge.fwDigest) (fun _ _ _ _ _ => rfl)
@[simp] theorem State.raiseCore_lodge_nsvn (s : State) (c n : Nat) (p : List Byte) : (s.raiseCore c n p).lodge.nsvn = s.lodge.nsvn := (quiet_raise s c 2 n p).field (fun t => t.lodge.nsvn) (fun _ _ _ _ _ => rfl)
@[simp] theorem State.raiseCore_lodge_burned (s : State) (c n : Nat) (p : List Byte) : (s.raiseCore c n p).lodge.burned = s.lodge.burned := (quiet_raise s c 2 n p).field (fun t => t.lodge.burned) (fun _ _ _ _ _ => rfl)
@[simp] theorem State.raiseCore_lodge_recs (s : State) (c n : Nat) (p : List Byte) : (s.raiseCore c n p).lodge.recs = s.lodge.recs := (quiet_raise s c 2 n p).field (fun t => t.lodge.recs) (fun _ _ _ _ _ => rfl)
@[simp] theorem State.raiseCore_lodge_flash (s : State) (c n : Nat) (p : List Byte) : (s.raiseCore c n p).lodge.flash = s.lodge.flash := (quiet_raise s c 2 n p).field (fun t => t.lodge.flash) (fun _ _ _ _ _ => rfl)
@[simp] theorem State.raiseCore_lodge_held (s : State) (c n : Nat) (p : List Byte) : (s.raiseCore c n p).lodge.held = s.lodge.held := (quiet_raise s c 2 n p).field (fun t => t.lodge.held) (fun _ _ _ _ _ => rfl)
@[simp] theorem State.raiseCore_lodge_noCal (s : State) (c n : Nat) (p : List Byte) : (s.raiseCore c n p).lodge.noCal = s.lodge.noCal := (quiet_raise s c 2 n p).field (fun t => t.lodge.noCal) (fun _ _ _ _ _ => rfl)
@[simp] theorem State.raiseCore_lodge_noIv (s : State) (c n : Nat) (p : List Byte) : (s.raiseCore c n p).lodge.noIv = s.lodge.noIv := (quiet_raise s c 2 n p).field (fun t => t.lodge.noIv) (fun _ _ _ _ _ => rfl)
@[simp] theorem State.raiseCore_lodge_keys (s : State) (c n : Nat) (p : List Byte) : (s.raiseCore c n p).lodge.keys = s.lodge.keys := (quiet_raise s c 2 n p).field (fun t => t.lodge.keys) (fun _ _ _ _ _ => rfl)
@[simp] theorem State.raiseCore_lodge_ready (s : State) (c n : Nat) (p : List Byte) : (s.raiseCore c n p).lodge.ready = s.lodge.ready := (quiet_raise s c 2 n p).field (fun t => t.lodge.ready) (fun _ _ _ _ _ => rfl)
@[simp] theorem State.raiseCore_lodge_opened (s : State) (c n : Nat) (p : List Byte) : (s.raiseCore c n p).lodge.opened = s.lodge.opened := (quiet_raise s c 2 n p).field (fun t => t.lodge.opened) (fun _ _ _ _ _ => rfl)
@[simp] theorem State.raiseCore_lodge_debug (s : State) (c n : Nat) (p : List Byte) : (s.raiseCore c n p).lodge.debug = s.lodge.debug := (quiet_raise s c 2 n p).field (fun t => t.lodge.debug) (fun _ _ _ _ _ => rfl)
@[simp] theorem State.raiseCore_lodge_recovery (s : State) (c n : Nat) (p : List Byte) : (s.raiseCore c n p).lodge.recovery = s.lodge.recovery := (quiet_raise s c 2 n p).field (fun t => t.lodge.recovery) (fun _ _ _ _ _ => rfl)
@[simp] theorem State.raiseCore_lodge_staged (s : State) (c n : Nat) (p : List Byte) : (s.raiseCore c n p).lodge.staged = s.lodge.staged := (quiet_raise s c 2 n p).field (fun t => t.lodge.staged) (fun _ _ _ _ _ => rfl)
@[simp] theorem State.raiseCore_lodge_downgrade (s : State) (c n : Nat) (p : List Byte) : (s.raiseCore c n p).lodge.downgrade = s.lodge.downgrade := (quiet_raise s c 2 n p).field (fun t => t.lodge.downgrade) (fun _ _ _ _ _ => rfl)
@[simp] theorem State.raiseCore_lodge_rebuild (s : State) (c n : Nat) (p : List Byte) : (s.raiseCore c n p).lodge.rebuild = s.lodge.rebuild := (quiet_raise s c 2 n p).field (fun t => t.lodge.rebuild) (fun _ _ _ _ _ => rfl)
@[simp] theorem State.raiseCore_lodge_store (s : State) (c n : Nat) (p : List Byte) : (s.raiseCore c n p).lodge.store = s.lodge.store := (quiet_raise s c 2 n p).field (fun t => t.lodge.store) (fun _ _ _ _ _ => rfl)
@[simp] theorem State.raiseCore_lodge_service (s : State) (c n : Nat) (p : List Byte) : (s.raiseCore c n p).lodge.service = s.lodge.service := (quiet_raise s c 2 n p).field (fun t => t.lodge.service) (fun _ _ _ _ _ => rfl)

@[simp] theorem State.bumpBy_snap (s : State) (f : Fld) (n : Nat) : (s.bumpBy f n).snap = s.snap := (quiet_bumpBy s f n).field State.snap (fun _ _ _ _ _ => rfl)
@[simp] theorem State.bumpBy_mem (s : State) (f : Fld) (n : Nat) : (s.bumpBy f n).mem = s.mem := (quiet_bumpBy s f n).field State.mem (fun _ _ _ _ _ => rfl)
@[simp] theorem State.bumpBy_acc (s : State) (f : Fld) (n : Nat) : (s.bumpBy f n).acc = s.acc := (quiet_bumpBy s f n).field State.acc (fun _ _ _ _ _ => rfl)
@[simp] theorem State.bumpBy_accGen (s : State) (f : Fld) (n : Nat) : (s.bumpBy f n).accGen = s.accGen := (quiet_bumpBy s f n).field State.accGen (fun _ _ _ _ _ => rfl)
@[simp] theorem State.bumpBy_cores (s : State) (f : Fld) (n : Nat) : (s.bumpBy f n).cores = s.cores := (quiet_bumpBy s f n).field State.cores (fun _ _ _ _ _ => rfl)
@[simp] theorem State.bumpBy_evCap (s : State) (f : Fld) (n : Nat) : (s.bumpBy f n).evCap = s.evCap := (quiet_bumpBy s f n).field State.evCap (fun _ _ _ _ _ => rfl)
@[simp] theorem State.bumpBy_jobLoaded (s : State) (f : Fld) (n : Nat) : (s.bumpBy f n).jobLoaded = s.jobLoaded := (quiet_bumpBy s f n).field State.jobLoaded (fun _ _ _ _ _ => rfl)
@[simp] theorem State.bumpBy_joined (s : State) (f : Fld) (n : Nat) : (s.bumpBy f n).joined = s.joined := (quiet_bumpBy s f n).field State.joined (fun _ _ _ _ _ => rfl)
@[simp] theorem State.bumpBy_trans (s : State) (f : Fld) (n : Nat) : (s.bumpBy f n).trans = s.trans := (quiet_bumpBy s f n).field State.trans (fun _ _ _ _ _ => rfl)
@[simp] theorem State.bumpBy_heldStarts (s : State) (f : Fld) (n : Nat) : (s.bumpBy f n).heldStarts = s.heldStarts := (quiet_bumpBy s f n).field State.heldStarts (fun _ _ _ _ _ => rfl)
@[simp] theorem State.bumpBy_kickWait (s : State) (f : Fld) (n : Nat) : (s.bumpBy f n).kickWait = s.kickWait := (quiet_bumpBy s f n).field State.kickWait (fun _ _ _ _ _ => rfl)
@[simp] theorem State.bumpBy_stopAll (s : State) (f : Fld) (n : Nat) : (s.bumpBy f n).stopAll = s.stopAll := (quiet_bumpBy s f n).field State.stopAll (fun _ _ _ _ _ => rfl)
@[simp] theorem State.bumpBy_miss (s : State) (f : Fld) (n : Nat) : (s.bumpBy f n).miss = s.miss := (quiet_bumpBy s f n).field State.miss (fun _ _ _ _ _ => rfl)
@[simp] theorem State.bumpBy_dead (s : State) (f : Fld) (n : Nat) : (s.bumpBy f n).dead = s.dead := (quiet_bumpBy s f n).field State.dead (fun _ _ _ _ _ => rfl)
@[simp] theorem State.bumpBy_later (s : State) (f : Fld) (n : Nat) : (s.bumpBy f n).later = s.later := (quiet_bumpBy s f n).field State.later (fun _ _ _ _ _ => rfl)
@[simp] theorem State.bumpBy_net (s : State) (f : Fld) (n : Nat) : (s.bumpBy f n).net = s.net := (quiet_bumpBy s f n).field State.net (fun _ _ _ _ _ => rfl)
@[simp] theorem State.bumpBy_fab (s : State) (f : Fld) (n : Nat) : (s.bumpBy f n).fab = s.fab := (quiet_bumpBy s f n).field State.fab (fun _ _ _ _ _ => rfl)
@[simp] theorem State.bumpBy_ws (s : State) (f : Fld) (n : Nat) : (s.bumpBy f n).ws = s.ws := (quiet_bumpBy s f n).field State.ws (fun _ _ _ _ _ => rfl)
@[simp] theorem State.bumpBy_red (s : State) (f : Fld) (n : Nat) : (s.bumpBy f n).red = s.red := (quiet_bumpBy s f n).field State.red (fun _ _ _ _ _ => rfl)
@[simp] theorem State.bumpBy_ckpt (s : State) (f : Fld) (n : Nat) : (s.bumpBy f n).ckpt = s.ckpt := (quiet_bumpBy s f n).field State.ckpt (fun _ _ _ _ _ => rfl)
@[simp] theorem State.bumpBy_pwr (s : State) (f : Fld) (n : Nat) : (s.bumpBy f n).pwr = s.pwr := (quiet_bumpBy s f n).field State.pwr (fun _ _ _ _ _ => rfl)
@[simp] theorem State.bumpBy_wear (s : State) (f : Fld) (n : Nat) : (s.bumpBy f n).wear = s.wear := (quiet_bumpBy s f n).field State.wear (fun _ _ _ _ _ => rfl)
@[simp] theorem State.bumpBy_boot (s : State) (f : Fld) (n : Nat) : (s.bumpBy f n).boot = s.boot := (quiet_bumpBy s f n).field State.boot (fun _ _ _ _ _ => rfl)
@[simp] theorem State.bumpBy_idGen (s : State) (f : Fld) (n : Nat) : (s.bumpBy f n).idGen = s.idGen := (quiet_bumpBy s f n).field State.idGen (fun _ _ _ _ _ => rfl)
@[simp] theorem State.bumpBy_ivRecord (s : State) (f : Fld) (n : Nat) : (s.bumpBy f n).ivRecord = s.ivRecord := (quiet_bumpBy s f n).field State.ivRecord (fun _ _ _ _ _ => rfl)
@[simp] theorem State.bumpBy_free (s : State) (f : Fld) (n : Nat) : (s.bumpBy f n).free = s.free := (quiet_bumpBy s f n).field State.free (fun _ _ _ _ _ => rfl)
@[simp] theorem State.bumpBy_pending (s : State) (f : Fld) (n : Nat) : (s.bumpBy f n).pending = s.pending := (quiet_bumpBy s f n).field State.pending (fun _ _ _ _ _ => rfl)
@[simp] theorem State.bumpBy_core (s : State) (f : Fld) (n : Nat) (j : Nat) : (s.bumpBy f n).core j = s.core j := by simp [State.core]
@[simp] theorem State.bumpBy_ctx (s : State) (f : Fld) (n : Nat) (i j : Nat) : (s.bumpBy f n).ctx i j = s.ctx i j := by simp [State.ctx]
@[simp] theorem State.bumpBy_lnk (s : State) (f : Fld) (n : Nat) (j : Nat) : (s.bumpBy f n).lnk j = s.lnk j := by simp [State.lnk]
@[simp] theorem State.bumpBy_lodge_restart (s : State) (f : Fld) (n : Nat) : (s.bumpBy f n).lodge.restart = s.lodge.restart := (quiet_bumpBy s f n).field (fun t => t.lodge.restart) (fun _ _ _ _ _ => rfl)
@[simp] theorem State.bumpBy_lodge_sessions (s : State) (f : Fld) (n : Nat) : (s.bumpBy f n).lodge.sessions = s.lodge.sessions := (quiet_bumpBy s f n).field (fun t => t.lodge.sessions) (fun _ _ _ _ _ => rfl)
@[simp] theorem State.bumpBy_lodge_rom (s : State) (f : Fld) (n : Nat) : (s.bumpBy f n).lodge.rom = s.lodge.rom := (quiet_bumpBy s f n).field (fun t => t.lodge.rom) (fun _ _ _ _ _ => rfl)
@[simp] theorem State.bumpBy_lodge_fw (s : State) (f : Fld) (n : Nat) : (s.bumpBy f n).lodge.fw = s.lodge.fw := (quiet_bumpBy s f n).field (fun t => t.lodge.fw) (fun _ _ _ _ _ => rfl)
@[simp] theorem State.bumpBy_lodge_micro (s : State) (f : Fld) (n : Nat) : (s.bumpBy f n).lodge.micro = s.lodge.micro := (quiet_bumpBy s f n).field (fun t => t.lodge.micro) (fun _ _ _ _ _ => rfl)
@[simp] theorem State.bumpBy_lodge_piece (s : State) (f : Fld) (n : Nat) : (s.bumpBy f n).lodge.piece = s.lodge.piece := (quiet_bumpBy s f n).field (fun t => t.lodge.piece) (fun _ _ _ _ _ => rfl)
@[simp] theorem State.bumpBy_lodge_fwDigest (s : State) (f : Fld) (n : Nat) : (s.bumpBy f n).lodge.fwDigest = s.lodge.fwDigest := (quiet_bumpBy s f n).field (fun t => t.lodge.fwDigest) (fun _ _ _ _ _ => rfl)
@[simp] theorem State.bumpBy_lodge_nsvn (s : State) (f : Fld) (n : Nat) : (s.bumpBy f n).lodge.nsvn = s.lodge.nsvn := (quiet_bumpBy s f n).field (fun t => t.lodge.nsvn) (fun _ _ _ _ _ => rfl)
@[simp] theorem State.bumpBy_lodge_burned (s : State) (f : Fld) (n : Nat) : (s.bumpBy f n).lodge.burned = s.lodge.burned := (quiet_bumpBy s f n).field (fun t => t.lodge.burned) (fun _ _ _ _ _ => rfl)
@[simp] theorem State.bumpBy_lodge_recs (s : State) (f : Fld) (n : Nat) : (s.bumpBy f n).lodge.recs = s.lodge.recs := (quiet_bumpBy s f n).field (fun t => t.lodge.recs) (fun _ _ _ _ _ => rfl)
@[simp] theorem State.bumpBy_lodge_flash (s : State) (f : Fld) (n : Nat) : (s.bumpBy f n).lodge.flash = s.lodge.flash := (quiet_bumpBy s f n).field (fun t => t.lodge.flash) (fun _ _ _ _ _ => rfl)
@[simp] theorem State.bumpBy_lodge_held (s : State) (f : Fld) (n : Nat) : (s.bumpBy f n).lodge.held = s.lodge.held := (quiet_bumpBy s f n).field (fun t => t.lodge.held) (fun _ _ _ _ _ => rfl)
@[simp] theorem State.bumpBy_lodge_noCal (s : State) (f : Fld) (n : Nat) : (s.bumpBy f n).lodge.noCal = s.lodge.noCal := (quiet_bumpBy s f n).field (fun t => t.lodge.noCal) (fun _ _ _ _ _ => rfl)
@[simp] theorem State.bumpBy_lodge_noIv (s : State) (f : Fld) (n : Nat) : (s.bumpBy f n).lodge.noIv = s.lodge.noIv := (quiet_bumpBy s f n).field (fun t => t.lodge.noIv) (fun _ _ _ _ _ => rfl)
@[simp] theorem State.bumpBy_lodge_keys (s : State) (f : Fld) (n : Nat) : (s.bumpBy f n).lodge.keys = s.lodge.keys := (quiet_bumpBy s f n).field (fun t => t.lodge.keys) (fun _ _ _ _ _ => rfl)
@[simp] theorem State.bumpBy_lodge_ready (s : State) (f : Fld) (n : Nat) : (s.bumpBy f n).lodge.ready = s.lodge.ready := (quiet_bumpBy s f n).field (fun t => t.lodge.ready) (fun _ _ _ _ _ => rfl)
@[simp] theorem State.bumpBy_lodge_opened (s : State) (f : Fld) (n : Nat) : (s.bumpBy f n).lodge.opened = s.lodge.opened := (quiet_bumpBy s f n).field (fun t => t.lodge.opened) (fun _ _ _ _ _ => rfl)
@[simp] theorem State.bumpBy_lodge_debug (s : State) (f : Fld) (n : Nat) : (s.bumpBy f n).lodge.debug = s.lodge.debug := (quiet_bumpBy s f n).field (fun t => t.lodge.debug) (fun _ _ _ _ _ => rfl)
@[simp] theorem State.bumpBy_lodge_recovery (s : State) (f : Fld) (n : Nat) : (s.bumpBy f n).lodge.recovery = s.lodge.recovery := (quiet_bumpBy s f n).field (fun t => t.lodge.recovery) (fun _ _ _ _ _ => rfl)
@[simp] theorem State.bumpBy_lodge_staged (s : State) (f : Fld) (n : Nat) : (s.bumpBy f n).lodge.staged = s.lodge.staged := (quiet_bumpBy s f n).field (fun t => t.lodge.staged) (fun _ _ _ _ _ => rfl)
@[simp] theorem State.bumpBy_lodge_downgrade (s : State) (f : Fld) (n : Nat) : (s.bumpBy f n).lodge.downgrade = s.lodge.downgrade := (quiet_bumpBy s f n).field (fun t => t.lodge.downgrade) (fun _ _ _ _ _ => rfl)
@[simp] theorem State.bumpBy_lodge_rebuild (s : State) (f : Fld) (n : Nat) : (s.bumpBy f n).lodge.rebuild = s.lodge.rebuild := (quiet_bumpBy s f n).field (fun t => t.lodge.rebuild) (fun _ _ _ _ _ => rfl)
@[simp] theorem State.bumpBy_lodge_store (s : State) (f : Fld) (n : Nat) : (s.bumpBy f n).lodge.store = s.lodge.store := (quiet_bumpBy s f n).field (fun t => t.lodge.store) (fun _ _ _ _ _ => rfl)
@[simp] theorem State.bumpBy_lodge_service (s : State) (f : Fld) (n : Nat) : (s.bumpBy f n).lodge.service = s.lodge.service := (quiet_bumpBy s f n).field (fun t => t.lodge.service) (fun _ _ _ _ _ => rfl)

@[simp] theorem State.bump_snap (s : State) (f : Fld) : (s.bump f).snap = s.snap := (quiet_bumpBy s f 1).field State.snap (fun _ _ _ _ _ => rfl)
@[simp] theorem State.bump_mem (s : State) (f : Fld) : (s.bump f).mem = s.mem := (quiet_bumpBy s f 1).field State.mem (fun _ _ _ _ _ => rfl)
@[simp] theorem State.bump_acc (s : State) (f : Fld) : (s.bump f).acc = s.acc := (quiet_bumpBy s f 1).field State.acc (fun _ _ _ _ _ => rfl)
@[simp] theorem State.bump_accGen (s : State) (f : Fld) : (s.bump f).accGen = s.accGen := (quiet_bumpBy s f 1).field State.accGen (fun _ _ _ _ _ => rfl)
@[simp] theorem State.bump_cores (s : State) (f : Fld) : (s.bump f).cores = s.cores := (quiet_bumpBy s f 1).field State.cores (fun _ _ _ _ _ => rfl)
@[simp] theorem State.bump_evCap (s : State) (f : Fld) : (s.bump f).evCap = s.evCap := (quiet_bumpBy s f 1).field State.evCap (fun _ _ _ _ _ => rfl)
@[simp] theorem State.bump_jobLoaded (s : State) (f : Fld) : (s.bump f).jobLoaded = s.jobLoaded := (quiet_bumpBy s f 1).field State.jobLoaded (fun _ _ _ _ _ => rfl)
@[simp] theorem State.bump_joined (s : State) (f : Fld) : (s.bump f).joined = s.joined := (quiet_bumpBy s f 1).field State.joined (fun _ _ _ _ _ => rfl)
@[simp] theorem State.bump_trans (s : State) (f : Fld) : (s.bump f).trans = s.trans := (quiet_bumpBy s f 1).field State.trans (fun _ _ _ _ _ => rfl)
@[simp] theorem State.bump_heldStarts (s : State) (f : Fld) : (s.bump f).heldStarts = s.heldStarts := (quiet_bumpBy s f 1).field State.heldStarts (fun _ _ _ _ _ => rfl)
@[simp] theorem State.bump_kickWait (s : State) (f : Fld) : (s.bump f).kickWait = s.kickWait := (quiet_bumpBy s f 1).field State.kickWait (fun _ _ _ _ _ => rfl)
@[simp] theorem State.bump_stopAll (s : State) (f : Fld) : (s.bump f).stopAll = s.stopAll := (quiet_bumpBy s f 1).field State.stopAll (fun _ _ _ _ _ => rfl)
@[simp] theorem State.bump_miss (s : State) (f : Fld) : (s.bump f).miss = s.miss := (quiet_bumpBy s f 1).field State.miss (fun _ _ _ _ _ => rfl)
@[simp] theorem State.bump_dead (s : State) (f : Fld) : (s.bump f).dead = s.dead := (quiet_bumpBy s f 1).field State.dead (fun _ _ _ _ _ => rfl)
@[simp] theorem State.bump_later (s : State) (f : Fld) : (s.bump f).later = s.later := (quiet_bumpBy s f 1).field State.later (fun _ _ _ _ _ => rfl)
@[simp] theorem State.bump_net (s : State) (f : Fld) : (s.bump f).net = s.net := (quiet_bumpBy s f 1).field State.net (fun _ _ _ _ _ => rfl)
@[simp] theorem State.bump_fab (s : State) (f : Fld) : (s.bump f).fab = s.fab := (quiet_bumpBy s f 1).field State.fab (fun _ _ _ _ _ => rfl)
@[simp] theorem State.bump_ws (s : State) (f : Fld) : (s.bump f).ws = s.ws := (quiet_bumpBy s f 1).field State.ws (fun _ _ _ _ _ => rfl)
@[simp] theorem State.bump_red (s : State) (f : Fld) : (s.bump f).red = s.red := (quiet_bumpBy s f 1).field State.red (fun _ _ _ _ _ => rfl)
@[simp] theorem State.bump_ckpt (s : State) (f : Fld) : (s.bump f).ckpt = s.ckpt := (quiet_bumpBy s f 1).field State.ckpt (fun _ _ _ _ _ => rfl)
@[simp] theorem State.bump_pwr (s : State) (f : Fld) : (s.bump f).pwr = s.pwr := (quiet_bumpBy s f 1).field State.pwr (fun _ _ _ _ _ => rfl)
@[simp] theorem State.bump_wear (s : State) (f : Fld) : (s.bump f).wear = s.wear := (quiet_bumpBy s f 1).field State.wear (fun _ _ _ _ _ => rfl)
@[simp] theorem State.bump_boot (s : State) (f : Fld) : (s.bump f).boot = s.boot := (quiet_bumpBy s f 1).field State.boot (fun _ _ _ _ _ => rfl)
@[simp] theorem State.bump_idGen (s : State) (f : Fld) : (s.bump f).idGen = s.idGen := (quiet_bumpBy s f 1).field State.idGen (fun _ _ _ _ _ => rfl)
@[simp] theorem State.bump_ivRecord (s : State) (f : Fld) : (s.bump f).ivRecord = s.ivRecord := (quiet_bumpBy s f 1).field State.ivRecord (fun _ _ _ _ _ => rfl)
@[simp] theorem State.bump_free (s : State) (f : Fld) : (s.bump f).free = s.free := (quiet_bumpBy s f 1).field State.free (fun _ _ _ _ _ => rfl)
@[simp] theorem State.bump_pending (s : State) (f : Fld) : (s.bump f).pending = s.pending := (quiet_bumpBy s f 1).field State.pending (fun _ _ _ _ _ => rfl)
@[simp] theorem State.bump_core (s : State) (f : Fld) (j : Nat) : (s.bump f).core j = s.core j := by simp [State.core]
@[simp] theorem State.bump_ctx (s : State) (f : Fld) (i j : Nat) : (s.bump f).ctx i j = s.ctx i j := by simp [State.ctx]
@[simp] theorem State.bump_lnk (s : State) (f : Fld) (j : Nat) : (s.bump f).lnk j = s.lnk j := by simp [State.lnk]
@[simp] theorem State.bump_lodge_restart (s : State) (f : Fld) : (s.bump f).lodge.restart = s.lodge.restart := (quiet_bumpBy s f 1).field (fun t => t.lodge.restart) (fun _ _ _ _ _ => rfl)
@[simp] theorem State.bump_lodge_sessions (s : State) (f : Fld) : (s.bump f).lodge.sessions = s.lodge.sessions := (quiet_bumpBy s f 1).field (fun t => t.lodge.sessions) (fun _ _ _ _ _ => rfl)
@[simp] theorem State.bump_lodge_rom (s : State) (f : Fld) : (s.bump f).lodge.rom = s.lodge.rom := (quiet_bumpBy s f 1).field (fun t => t.lodge.rom) (fun _ _ _ _ _ => rfl)
@[simp] theorem State.bump_lodge_fw (s : State) (f : Fld) : (s.bump f).lodge.fw = s.lodge.fw := (quiet_bumpBy s f 1).field (fun t => t.lodge.fw) (fun _ _ _ _ _ => rfl)
@[simp] theorem State.bump_lodge_micro (s : State) (f : Fld) : (s.bump f).lodge.micro = s.lodge.micro := (quiet_bumpBy s f 1).field (fun t => t.lodge.micro) (fun _ _ _ _ _ => rfl)
@[simp] theorem State.bump_lodge_piece (s : State) (f : Fld) : (s.bump f).lodge.piece = s.lodge.piece := (quiet_bumpBy s f 1).field (fun t => t.lodge.piece) (fun _ _ _ _ _ => rfl)
@[simp] theorem State.bump_lodge_fwDigest (s : State) (f : Fld) : (s.bump f).lodge.fwDigest = s.lodge.fwDigest := (quiet_bumpBy s f 1).field (fun t => t.lodge.fwDigest) (fun _ _ _ _ _ => rfl)
@[simp] theorem State.bump_lodge_nsvn (s : State) (f : Fld) : (s.bump f).lodge.nsvn = s.lodge.nsvn := (quiet_bumpBy s f 1).field (fun t => t.lodge.nsvn) (fun _ _ _ _ _ => rfl)
@[simp] theorem State.bump_lodge_burned (s : State) (f : Fld) : (s.bump f).lodge.burned = s.lodge.burned := (quiet_bumpBy s f 1).field (fun t => t.lodge.burned) (fun _ _ _ _ _ => rfl)
@[simp] theorem State.bump_lodge_recs (s : State) (f : Fld) : (s.bump f).lodge.recs = s.lodge.recs := (quiet_bumpBy s f 1).field (fun t => t.lodge.recs) (fun _ _ _ _ _ => rfl)
@[simp] theorem State.bump_lodge_flash (s : State) (f : Fld) : (s.bump f).lodge.flash = s.lodge.flash := (quiet_bumpBy s f 1).field (fun t => t.lodge.flash) (fun _ _ _ _ _ => rfl)
@[simp] theorem State.bump_lodge_held (s : State) (f : Fld) : (s.bump f).lodge.held = s.lodge.held := (quiet_bumpBy s f 1).field (fun t => t.lodge.held) (fun _ _ _ _ _ => rfl)
@[simp] theorem State.bump_lodge_noCal (s : State) (f : Fld) : (s.bump f).lodge.noCal = s.lodge.noCal := (quiet_bumpBy s f 1).field (fun t => t.lodge.noCal) (fun _ _ _ _ _ => rfl)
@[simp] theorem State.bump_lodge_noIv (s : State) (f : Fld) : (s.bump f).lodge.noIv = s.lodge.noIv := (quiet_bumpBy s f 1).field (fun t => t.lodge.noIv) (fun _ _ _ _ _ => rfl)
@[simp] theorem State.bump_lodge_keys (s : State) (f : Fld) : (s.bump f).lodge.keys = s.lodge.keys := (quiet_bumpBy s f 1).field (fun t => t.lodge.keys) (fun _ _ _ _ _ => rfl)
@[simp] theorem State.bump_lodge_ready (s : State) (f : Fld) : (s.bump f).lodge.ready = s.lodge.ready := (quiet_bumpBy s f 1).field (fun t => t.lodge.ready) (fun _ _ _ _ _ => rfl)
@[simp] theorem State.bump_lodge_opened (s : State) (f : Fld) : (s.bump f).lodge.opened = s.lodge.opened := (quiet_bumpBy s f 1).field (fun t => t.lodge.opened) (fun _ _ _ _ _ => rfl)
@[simp] theorem State.bump_lodge_debug (s : State) (f : Fld) : (s.bump f).lodge.debug = s.lodge.debug := (quiet_bumpBy s f 1).field (fun t => t.lodge.debug) (fun _ _ _ _ _ => rfl)
@[simp] theorem State.bump_lodge_recovery (s : State) (f : Fld) : (s.bump f).lodge.recovery = s.lodge.recovery := (quiet_bumpBy s f 1).field (fun t => t.lodge.recovery) (fun _ _ _ _ _ => rfl)
@[simp] theorem State.bump_lodge_staged (s : State) (f : Fld) : (s.bump f).lodge.staged = s.lodge.staged := (quiet_bumpBy s f 1).field (fun t => t.lodge.staged) (fun _ _ _ _ _ => rfl)
@[simp] theorem State.bump_lodge_downgrade (s : State) (f : Fld) : (s.bump f).lodge.downgrade = s.lodge.downgrade := (quiet_bumpBy s f 1).field (fun t => t.lodge.downgrade) (fun _ _ _ _ _ => rfl)
@[simp] theorem State.bump_lodge_rebuild (s : State) (f : Fld) : (s.bump f).lodge.rebuild = s.lodge.rebuild := (quiet_bumpBy s f 1).field (fun t => t.lodge.rebuild) (fun _ _ _ _ _ => rfl)
@[simp] theorem State.bump_lodge_store (s : State) (f : Fld) : (s.bump f).lodge.store = s.lodge.store := (quiet_bumpBy s f 1).field (fun t => t.lodge.store) (fun _ _ _ _ _ => rfl)
@[simp] theorem State.bump_lodge_service (s : State) (f : Fld) : (s.bump f).lodge.service = s.lodge.service := (quiet_bumpBy s f 1).field (fun t => t.lodge.service) (fun _ _ _ _ _ => rfl)

/-- The words of the ring's own counters. -/
def evtWords : List Nat := [F.EVT_LOST_CNT.addr, F.EVT_LOST_CNT.addr + 8, F.EVT_MASKED_CNT.addr, F.EVT_MASKED_CNT.addr + 8]

theorem reg_bumpQuiet (s : State) (f : Fld) (n a : Nat) (h : a ≠ f.addr) (h8 : a ≠ f.addr + 8) : (s.bumpQuiet f n).1.reg a = s.reg a := by
  unfold State.bumpQuiet; dsimp only; split <;> simp [h, h8]

theorem reg_appendEvent (s : State) (r : EvtRec) (a : Nat) (h : a ∉ evtWords) : (s.appendEvent r).reg a = s.reg a := by
  simp only [evtWords, List.mem_cons, List.not_mem_nil, or_false, not_or] at h
  unfold State.appendEvent; dsimp only; split
  · rw [reg_bumpQuiet _ _ _ _ h.1 h.2.1]; rfl
  · rfl

theorem reg_putEvent (s : State) (r : EvtRec) (a : Nat) (h : a ∉ evtWords) : (s.putEvent r).reg a = s.reg a := by
  unfold State.putEvent; split
  · exact reg_appendEvent s r a h
  · dsimp only; split
    · rfl
    · simp only [evtWords, List.mem_cons, List.not_mem_nil, or_false, not_or] at h
      exact reg_bumpQuiet _ _ _ _ h.1 h.2.1

theorem reg_raiseQuiet (s : State) (c k src : Nat) (p : List Byte) (a : Nat) (h : a ∉ evtWords) : (s.raiseQuiet c k src p).reg a = s.reg a := by
  unfold State.raiseQuiet; split
  · generalize evPieces _ _ _ = l
    clear * - h
    induction l generalizing s with
    | nil => rfl
    | cons x l ih => simp only [List.foldl_cons]; rw [ih, reg_putEvent _ _ _ h]
  · simp only [evtWords, List.mem_cons, List.not_mem_nil, or_false, not_or] at h
    exact reg_bumpQuiet _ _ _ _ h.2.2.1 h.2.2.2

theorem reg_satReport (s0 : State) (f : Fld) (s : State) (a : Nat) (h : a ∉ evtWords) : (s0.satReport f s).reg a = s.reg a := by
  unfold State.satReport; dsimp only; split
  · exact reg_raiseQuiet _ _ _ _ _ _ h
  · rfl

theorem reg_ringReports (s0 s : State) (a : Nat) (h : a ∉ evtWords) : (s0.ringReports s).reg a = s.reg a := by
  unfold State.ringReports
  rw [reg_satReport _ _ _ _ h, reg_satReport _ _ _ _ h, reg_satReport _ _ _ _ h]

/-- An event leaves every register but the ring's counters. -/
theorem reg_raise (s : State) (c k src : Nat) (p : List Byte) (a : Nat) (h : a ∉ evtWords) : (s.raise c k src p).reg a = s.reg a := by
  unfold State.raise; rw [reg_ringReports _ _ _ h, reg_raiseQuiet _ _ _ _ _ _ h]

/-- A counter leaves every register but its own and the ring's counters. -/
theorem reg_bumpBy (s : State) (f : Fld) (n a : Nat) (h : a ∉ evtWords) (h0 : a ≠ f.addr) (h8 : a ≠ f.addr + 8) :
    (s.bumpBy f n).reg a = s.reg a := by
  have e := reg_bumpQuiet s f n a h0 h8
  unfold State.bumpBy; split <;> rename_i q <;> rw [q] at e
  · rw [reg_ringReports _ _ _ h, reg_raiseQuiet _ _ _ _ _ _ h]; exact e
  · exact e

theorem fld_raise (s : State) (c k src : Nat) (p : List Byte) (g : Fld) (h : g.addr ∉ evtWords) : (s.raise c k src p).fld g = s.fld g := by
  simp only [State.fld, reg_raise s c k src p g.addr h]

theorem fld_bumpBy (s : State) (f : Fld) (n : Nat) (g : Fld) (h : g.addr ∉ evtWords) (h0 : g.addr ≠ f.addr) (h8 : g.addr ≠ f.addr + 8) :
    (s.bumpBy f n).fld g = s.fld g := by
  simp only [State.fld, reg_bumpBy s f n g.addr h h0 h8]

/-- A counter that has not reached its end counts. -/
theorem reg_bump_self (s : State) (f : Fld) (h : (s.reg f.addr).toNat + 1 < 2 ^ 64 - 1) : (s.bump f).reg f.addr = s.reg f.addr + 1 := by
  have hu : Nat.min ((s.reg f.addr).toNat + 1) (2 ^ 64 - 1) = (s.reg f.addr).toNat + 1 := Nat.min_eq_left (by omega)
  have hq : s.bumpQuiet f 1 = (s.setReg f.addr (BitVec.ofNat 64 ((s.reg f.addr).toNat + 1)), false) := by
    unfold State.bumpQuiet; dsimp only; rw [hu, if_neg (by omega)]
  unfold State.bump State.bumpBy; rw [hq]; simp only [State.reg_setReg, if_true]
  apply BitVec.eq_of_toNat_eq; simp

end Sys2Proof.Machine
end

