-- ==== Sys2Proof/Laws/Ops.lean ====
section
/-! SUPPORT. The shared operations: what issue, selection, waiting, faults and completions can do, once for each. -/

namespace Sys2Proof.Machine

/-! ## Issue -/

/-- An instruction that executes has its own effect. -/
theorem issue_executes {n k : Nat} {pg : BitVec 3} {pn : Bool} {len : Nat} {legal : Bool} {rs ts : List Nat} {s : State} {body : State → State}
    (h : s.Executes n k pg pn rs ts) (hl : legal = true) : issue n k pg pn len legal rs ts s body = body s := by
  simp [issue, h.issues, h.pc, h.guard, h.free, hl]

/-- A command that no context can issue has no effect. -/
theorem issue_idle {n k : Nat} {pg : BitVec 3} {pn : Bool} {len : Nat} {legal : Bool} {rs ts : List Nat} {s : State} {body : State → State}
    (h : s.issues n k = false) : issue n k pg pn len legal rs ts s body = s := by
  simp [issue, h]

/-- A word with a reserved bit set faults. -/
theorem issue_illegal {n k : Nat} {pg : BitVec 3} {pn : Bool} {len : Nat} {rs ts : List Nat} {s : State} {body : State → State}
    (h : s.issues n k = true) (hp : pcOk (s.ctx n k).pc = true) :
    issue n k pg pn len false rs ts s body = s.faultCtx n k E.ILLEGAL (s.ctx n k).pc := by
  simp [issue, h, hp]

/-- An instruction whose guard fails is skipped. -/
theorem issue_skips {n k : Nat} {pg : BitVec 3} {pn : Bool} {len : Nat} {rs ts : List Nat} {s : State} {body : State → State}
    (h : s.issues n k = true) (hp : pcOk (s.ctx n k).pc = true) (hg : (s.ctx n k).guard pg pn = false) :
    issue n k pg pn len true rs ts s body = s.advance n k len := by
  simp [issue, h, hp, hg]

/-- Everything that issue can do. -/
theorem issue_cases (n k : Nat) (pg : BitVec 3) (pn : Bool) (len : Nat) (legal : Bool) (rs ts : List Nat) (s : State) (body : State → State) :
    issue n k pg pn len legal rs ts s body = s
    ∨ (∃ code, (code = E.PC_ALIGN ∨ code = E.ILLEGAL) ∧ issue n k pg pn len legal rs ts s body = s.faultCtx n k code (s.ctx n k).pc)
    ∨ issue n k pg pn len legal rs ts s body = s.advance n k len
    ∨ (s.Executes n k pg pn rs ts ∧ legal = true ∧ issue n k pg pn len legal rs ts s body = body s) := by
  unfold issue
  split
  · exact .inl rfl
  · split
    · exact .inr (.inl ⟨_, .inl rfl, rfl⟩)
    · split
      · exact .inr (.inl ⟨_, .inr rfl, rfl⟩)
      · split
        · exact .inr (.inr (.inl rfl))
        · split
          · exact .inl rfl
          · rename_i h1 h2 h3 h4 h5
            exact .inr (.inr (.inr ⟨⟨by simpa using h1, by simpa using h2, by simpa using h4, by simpa using h5⟩, by simpa using h3, rfl⟩))

/-- Issue of a unit command whose queues have room and that passes its checks. -/
theorem issueUnits_queues {us : UCmd → List UnitId} {op : UOp} {i : IT} {legal ud ua ub uc : Bool} {rs : List Nat}
    {check : State → UCmd → Option Nat} {put : State → UCmd → State} {s : State}
    (h : s.Executes i.n i.k i.pg i.pn rs (heldDescs i s ud ua ub uc)) (hl : legal = true)
    (hr : (us (capture op i (s.ctx i.n i.k))).all (fun u => (s.core i.n).room u) = true) (hc : check s (capture op i (s.ctx i.n i.k)) = none) :
    issueUnits us op i legal ud ua ub uc rs check put s =
      put ((us (capture op i (s.ctx i.n i.k))).foldl (fun st u => st.push i.n u (capture op i (s.ctx i.n i.k)))
        (s.setCtx i.n i.k (((s.ctx i.n i.k).setPr i.pd.toNat false).adv i.len))) (capture op i (s.ctx i.n i.k)) := by
  unfold issueUnits; rw [issue_executes h hl]; simp only [hr, hc]; rfl

/-- One that fails a check faults. -/
theorem issueUnits_faults {us : UCmd → List UnitId} {op : UOp} {i : IT} {legal ud ua ub uc : Bool} {rs : List Nat}
    {check : State → UCmd → Option Nat} {put : State → UCmd → State} {s : State} {code : Nat}
    (h : s.Executes i.n i.k i.pg i.pn rs (heldDescs i s ud ua ub uc)) (hl : legal = true)
    (hr : (us (capture op i (s.ctx i.n i.k))).all (fun u => (s.core i.n).room u) = true) (hc : check s (capture op i (s.ctx i.n i.k)) = some code) :
    issueUnits us op i legal ud ua ub uc rs check put s = s.faultCtx i.n i.k code ((capture op i (s.ctx i.n i.k)).faultAddr code (s.ctx i.n i.k).pc) := by
  unfold issueUnits; rw [issue_executes h hl]; simp only [hr, hc]; rfl

/-- One without room waits. -/
theorem issueUnits_waits {us : UCmd → List UnitId} {op : UOp} {i : IT} {legal ud ua ub uc : Bool} {rs : List Nat}
    {check : State → UCmd → Option Nat} {put : State → UCmd → State} {s : State}
    (h : s.Executes i.n i.k i.pg i.pn rs (heldDescs i s ud ua ub uc)) (hl : legal = true)
    (hr : (us (capture op i (s.ctx i.n i.k))).all (fun u => (s.core i.n).room u) = false) :
    issueUnits us op i legal ud ua ub uc rs check put s = s.makeWait i.n i.k (.queue (us (capture op i (s.ctx i.n i.k)))) := by
  unfold issueUnits; rw [issue_executes h hl]; simp only [hr]; rfl

/-! ## Kick and selection (spec/16 R367, spec/03 R42) -/

@[simp] theorem State.kick_mem (s : State) (n : Nat) : (s.kick n).mem = s.mem := by
  unfold State.kick State.kickSite; split <;> [split; skip] <;> simp
@[simp] theorem State.kick_cores (s : State) (n : Nat) : (s.kick n).cores = s.cores := by
  unfold State.kick State.kickSite; split <;> [split; skip] <;> simp
@[simp] theorem State.kick_core (s : State) (n m : Nat) : (s.kick n).core m = s.core m := by simp [State.core]
@[simp] theorem State.kick_ctx (s : State) (n m k : Nat) : (s.kick n).ctx m k = s.ctx m k := by simp [State.ctx]

/-- Everything that selection can do: nothing, or the READY context that is next becomes RUNNING. -/
theorem State.select_cases (s : State) (n : Nat) :
    s.select n = s ∨ ∃ j, (s.ctx n j).st = .ready ∧ (s.core n).running = none ∧
      s.select n = ((s.setCore n { (s.core n).setCtx j { s.ctx n j with st := .running, wait := .none } with cur := j })).bump
        (F.CORE_CTX_SWITCH_CNT n) := by
  unfold State.select; dsimp only; split
  · exact .inl rfl
  · rename_i h
    split
    · exact .inl rfl
    · rename_i j hj
      refine .inr ⟨j, ?_, ?_, rfl⟩
      · have := List.find?_some hj; simpa [State.ctx] using this
      · simp only [Bool.or_eq_true, not_or] at h; cases hr : (s.core n).running <;> simp_all

@[simp] theorem State.select_mem (s : State) (n : Nat) : (s.select n).mem = s.mem := by
  rcases s.select_cases n with h | ⟨j, -, -, h⟩ <;> rw [h] <;> simp

/-- Selection leaves every other core as it was. -/
theorem State.select_core_ne (s : State) {n m : Nat} (hm : m ≠ n) : (s.select n).core m = s.core m := by
  rcases s.select_cases n with h | ⟨j, -, -, h⟩ <;> rw [h] <;> simp [hm]

/-- What selection does to a context of its core. -/
theorem State.select_ctx (s : State) (n k : Nat) :
    (s.select n).ctx n k = s.ctx n k ∨ ((s.ctx n k).st = .ready ∧ (s.select n).ctx n k = { s.ctx n k with st := .running, wait := .none }) := by
  rcases s.select_cases n with h | ⟨j, hj, -, h⟩ <;> rw [h]
  · exact .inl rfl
  · by_cases hk : k = j
    · subst hk; refine .inr ⟨hj, ?_⟩; simp [State.ctx, Core.ctx, Core.setCtx]
    · refine .inl ?_; simp [State.ctx, Core.ctx, Core.setCtx, hk]

/-! ## Ready, waiting, free -/

@[simp] theorem State.makeReady_mem (s : State) (n k : Nat) : (s.makeReady n k).mem = s.mem := by simp [State.makeReady]
@[simp] theorem State.makeWait_mem (s : State) (n k : Nat) (w : Wait) : (s.makeWait n k w).mem = s.mem := by simp [State.makeWait]
@[simp] theorem State.freeCtx_mem (s : State) (n k : Nat) : (s.freeCtx n k).mem = s.mem := by simp [State.freeCtx]

/-- A context made READY is READY, or RUNNING when its processor was idle; its registers stay. -/
theorem State.makeReady_ctx (s : State) (n k : Nat) :
    (s.makeReady n k).ctx n k = { s.ctx n k with st := .ready, wait := .none }
      ∨ (s.makeReady n k).ctx n k = { s.ctx n k with st := .running, wait := .none } := by
  unfold State.makeReady
  rcases State.select_ctx ((s.setCtx n k { s.ctx n k with st := .ready, wait := .none }).kick n) n k with h | ⟨-, h⟩ <;> rw [h] <;> simp

/-- A context that waits holds its registers. -/
theorem State.makeWait_ctx (s : State) (n k : Nat) (w : Wait) : (s.makeWait n k w).ctx n k = { s.ctx n k with st := .waiting, wait := w } := by
  unfold State.makeWait
  rcases State.select_ctx (s.setCtx n k { s.ctx n k with st := .waiting, wait := w }) n k with h | ⟨h0, -⟩
  · rw [h]; simp
  · simp at h0

/-- A freed context is FREE with its handles unbound. -/
theorem State.freeCtx_ctx (s : State) (n k : Nat) : (s.freeCtx n k).ctx n k = { s.ctx n k with st := .free, wait := .none, q := [], loads := [] } := by
  unfold State.freeCtx
  rcases State.select_ctx (s.setCtx n k { s.ctx n k with st := .free, wait := .none, q := [], loads := [] }) n k with h | ⟨h0, -⟩
  · rw [h]; simp
  · simp at h0

/-! ## Faults and completions -/

@[simp] theorem State.faultCtx_mem (s : State) (n k code addr : Nat) : (s.faultCtx n k code addr).mem = s.mem := by
  simp [State.faultCtx, State.raiseCore]

/-- A fault leaves every other core as it was. -/
theorem State.faultCtx_core_ne (s : State) (n k code addr : Nat) {m : Nat} (hm : m ≠ n) : (s.faultCtx n k code addr).core m = s.core m := by
  unfold State.faultCtx State.raiseCore; rw [State.select_core_ne _ hm]; simp [State.core_setCtx, hm]

/-- The context that faults is FAULTED, with its registers. -/
theorem State.faultCtx_ctx (s : State) (n k code addr : Nat) : (s.faultCtx n k code addr).ctx n k = { s.ctx n k with st := .faulted, wait := .none } := by
  unfold State.faultCtx State.raiseCore; dsimp only
  generalize hu : State.raise _ _ _ _ _ = u
  have e : u.ctx n k = { s.ctx n k with st := .faulted, wait := .none } := by rw [← hu]; simp
  rcases State.select_ctx u n k with h | ⟨h0, -⟩
  · rw [h, e]
  · rw [e] at h0; simp at h0

@[simp] theorem State.putPr_mem (s : State) (n k j : Nat) (v : Bool) : (s.putPr n k j v).mem = s.mem := by
  unfold State.putPr; dsimp only; split <;> simp

/-- A predicate that the context does not wait for takes its value and nothing else changes. -/
theorem State.putPr_sets {s : State} {n k j : Nat} {v : Bool} (hw : ¬ (v = true ∧ (s.ctx n k).st = .waiting ∧ (s.ctx n k).wait = .pred j)) :
    s.putPr n k j v = s.setCtx n k ((s.ctx n k).setPr j v) := by
  unfold State.putPr; dsimp only; rw [if_neg]; simpa using hw

@[simp] theorem State.complete_mem (s : State) (n k inc pd : Nat) : (s.complete n k inc pd).mem = s.mem := by
  unfold State.complete; dsimp only; split
  · simp
  · rfl

/-- A completion for a context that has ended is discarded. -/
theorem State.complete_ended {s : State} {n k inc : Nat} (pd : Nat) (h : (s.ctx n k).inc ≠ inc ∨ (s.ctx n k).st = .free) :
    s.complete n k inc pd = s := by
  unfold State.complete; dsimp only; rw [if_neg]; rintro ⟨h1, h2, -⟩; rcases h with h | h
  · exact h h1
  · exact h2 h

/-- A completion for a context that does not wait for it writes its predicate and nothing else. -/
theorem State.complete_sets {s : State} {n k inc pd : Nat} (h : (s.ctx n k).inc = inc) (hf : (s.ctx n k).st ≠ .free) (hp : pd ≠ 0)
    (hw : ¬ ((s.ctx n k).st = .waiting ∧ (s.ctx n k).wait = .pred pd)) : s.complete n k inc pd = s.setCtx n k ((s.ctx n k).setPr pd true) := by
  unfold State.complete; dsimp only; rw [if_pos ⟨h, hf, hp⟩, State.putPr_sets (fun q => hw q.2)]

/-! ## Rings -/

@[simp] theorem State.ring_setRing (s : State) (n r m q : Nat) (g : Ring) :
    (s.setRing n r g).ring m q = if m = n ∧ q = r then g else s.ring m q := by
  unfold State.ring State.setRing
  by_cases hm : m = n
  · subst hm; by_cases hq : q = r <;> simp [hq]
  · simp [hm]

/-! ## Keys at rest -/

theorem xorBytes_twice (a b : List Byte) (h : a.length ≤ b.length) : xorBytes (xorBytes a b) b = a := by
  induction a generalizing b with
  | nil => simp [xorBytes]
  | cons x a ih =>
    cases b with
    | nil => simp at h
    | cons y b =>
      have e := ih b (by simpa using h)
      simp only [xorBytes, List.zip_cons_cons, List.map_cons] at e ⊢
      rw [e, BitVec.xor_assoc, BitVec.xor_self, BitVec.xor_zero]

/-- What the PUF key has wrapped opens again to what it was, as long as the key stream covers it. -/
theorem keyUnseal_keyWrap (iv key : List Byte)
    (h : key.length ≤ ((List.range (ceilDiv key.length 16)).flatMap (fun i => aesBlock (aesRoundKeys Config.puf) (iv ++ beBytes 4 (i + 2)))).length) :
    keyUnseal true iv (keyWrap iv key).1 (keyWrap iv key).2 = some key := by
  have hl : (gcmCtr (aesRoundKeys Config.puf) iv key).length = key.length := by
    simp only [gcmCtr, xorBytes, List.length_map, List.length_zip]; exact Nat.min_eq_left h
  simp only [keyUnseal, keyWrap, gcmSeal, gcmOpen, if_true]
  conv => lhs; rw [gcmCtr, hl]
  rw [gcmCtr, xorBytes_twice _ _ h]

end Sys2Proof.Machine
end

