-- ==== Sys2Proof/Laws/Step.lean ====
section
/-! SUPPORT. The step: what it does with a command and on an empty queue, and what a core that issues from its program can do. -/

namespace Sys2Proof.Machine

/-- A step runs the front command. -/
theorem step_front {c : Instr} {rest : List Instr} {s : State} (h : s.pending = c :: rest) : step s = exec c { s with pending := rest } := by
  simp [step, h]

/-- On an empty queue the links, the mesh and the cores go on. -/
theorem step_empty {s : State} (h : s.pending = []) : step s = .next (coresTick (fabTick (linksTick s))) := by
  simp [step, h]

/-- A core without a context that may issue does nothing. -/
theorem coreTick_idle {n : Nat} {s : State} (h : s.issuer n = none) : coreTick n s = s := by
  simp [coreTick, h]

/-- Everything that a core can do: nothing, E_ILLEGAL for a word that spells no instruction, or the instruction that the word at its pc spells. -/
theorem coreTick_cases (n : Nat) (s : State) :
    coreTick n s = s
    ∨ ∃ k, s.issuer n = some k
      ∧ (coreTick n s = illegalWord (BitVec.ofNat 10 n).toNat (BitVec.ofNat 3 k).toNat s ∨ ∃ i, exec i s = .next (coreTick n s)) := by
  unfold coreTick
  split
  · exact .inl rfl
  · rename_i k hk
    simp only [issueAtPc, issueWord]
    split
    · rename_i t ht
      refine .inr ⟨k, hk, ?_⟩
      split at ht
      · exact .inr ⟨_, ht⟩
      · exact .inl (by simpa using ht.symm)
    · exact .inl rfl
    · exact .inl rfl

/-- With no context that may issue, the cores do nothing. -/
theorem coresTick_idle {s : State} (h : ∀ n, s.issuer n = none) : coresTick s = s := by
  unfold coresTick
  induction s.cores with
  | nil => rfl
  | cons p ps ih => simp [coreTick_idle (h p.1), ih]

end Sys2Proof.Machine
end

