-- ==== Sys2Proof/Machine/Physical.lean ====
section
/-! DEFINITION. The rear-face indicators, the control contacts and the electrical, thermal and mechanical limits of the module (spec/20). The
limits are those of the module's surroundings: a state of the machine lies within them, no command reads them. -/

namespace Sys2Proof.Machine

/-! ## Indicators and RTR_N (R447, R454) -/

/-- How an indicator shows: dark, lit, or blinking at a rate in Hz. -/
inductive Lamp where
  | dark
  | lit
  | blinks (hz : Nat)
  deriving DecidableEq, Repr

/-- The presence indicator, amber. -/
def State.presenceLamp (s : State) : Lamp := if s.flag F.SEC_PRES_STS_pending then .blinks 2 else .dark

/-- The ready-to-remove indicator, blue: lit in stage 6 of Run-out, dark after EJECT_N. -/
def State.readyLamp (s : State) : Lamp := if s.boot.lamp then .lit else .dark

/-- The status indicator, green. -/
def State.statusLamp (s : State) : Lamp :=
  if s.bootStage = 9 then .lit else if 3 ≤ s.bootStage ∧ s.bootStage ≤ 8 then .blinks 1 else .dark

/-- RTR_N is low while the ready-to-remove indicator is lit. -/
def State.rtrLow (s : State) : Bool := decide (s.readyLamp = .lit)

/-! ## The control contacts (R447, R448) -/

/-- The sampled control contacts. -/
inductive Contact where
  | prsnt
  | eject
  | brake
  deriving DecidableEq, Repr

/-- The level of a contact at a voltage in mV: low up to 0.8 V, high from 2.0 V, between them not stated. An open contact is pulled high. -/
def contactLow (mv : Option Nat) : Option Bool :=
  match mv with
  | none => some false
  | some v => if v ≤ 800 then some true else if 2000 ≤ v then some false else none

/-- The 1 µs samples in a row, low and high, that qualify an assertion and a deassertion. EJECT_N acts at its first low sample, and its
deassertion changes nothing that the first has begun; of PRSNT_N the deassertion is that past stage 2. -/
def Contact.samples : Contact → Nat × Nat
  | .prsnt => (100000, 10)
  | .eject => (1, 1)
  | .brake => (2, 2)

/-- Whether a contact counts as asserted after samples (newest first, true low), given whether it did before them. -/
def Contact.asserted (c : Contact) (was : Bool) (samples : List Bool) : Bool :=
  let low := (samples.takeWhile id).length
  let high := (samples.takeWhile (fun b => !b)).length
  if c.samples.1 ≤ low then true else if c.samples.2 ≤ high then false else was

/-! ## Power (R442 to R446) -/

/-- What the module's input meets: voltage in mV, the time in µs it has stood above 60 V, assembly and largest group current in mA. -/
structure PowerIn where
  mv : Int
  us : Nat
  assembly : Nat
  group : Nat
  deriving DecidableEq, Repr

/-- Whether an input lies within the power rows of Table 20-1. -/
def PowerIn.rated (p : PowerIn) : Bool :=
  decide (-60000 ≤ p.mv) && (decide (p.mv ≤ 60000) || (decide (p.mv ≤ 65000) && decide (p.us ≤ 1000)))
    && decide (p.assembly ≤ 750000) && decide (p.group ≤ 100000)

/-- How the module runs at a voltage in mV (Table 20-2): as stated, under the input limit of R345 and the clamp of R349, or not (R357). -/
inductive InputRange where
  | full
  | limited
  | under
  | beyond
  deriving DecidableEq, Repr
def inputRange (mv : Nat) : InputRange :=
  if mv < 42000 then .under else if mv < 46000 then .limited else if mv ≤ 58000 then .full else .beyond

/-- The current in mA of each contact group: the total in proportion to the groups' contact conductance (R444). -/
def groupShares (total : Nat) (conductance : List Nat) : List Nat := conductance.map (fun g => total * g / conductance.sum)

/-- The precharge of 3.0 mF at 8 A to a voltage in mV, in µs (R445). -/
def prechargeUs (mv : Nat) : Nat := mv * 3 / 8

/-- The current of the standby supply after mating, at most, in mA at 54 V: 20 A for 100 µs, then 5 W. -/
def matingMa (us : Nat) : Nat := if us ≤ 100 then 20000 else 5000 * 1000 / 54000

/-- The input current in mA may rise by at most 5 A per µs (R342, R445). -/
def loadRises (before after us : Nat) : Bool := decide (after ≤ before + 5000 * us)

/-! ## Surroundings (Tables 20-1, 20-2, 20-7) -/

/-- The air around the module: tenths of a degree, percent, metres; dew point and coolant inlet in tenths of a degree. -/
structure Air where
  temp : Int
  humidity : Nat
  altitude : Nat
  dew : Int
  inlet : Int
  deriving DecidableEq, Repr

/-- Table 20-2 for a module in operation. -/
def Air.operating (a : Air) : Bool :=
  decide (50 ≤ a.temp ∧ a.temp ≤ 450) && decide (8 ≤ a.humidity ∧ a.humidity ≤ 85) && decide (a.dew + 20 ≤ a.inlet) && decide (a.altitude ≤ 3000)

/-- The coolant rows of Table 20-1: inlet gauge pressure in kPa and temperature, and, filled and not operating, at least 5 K above freezing. -/
def coolantRated (operating : Bool) (kpa : Nat) (temp freezing : Int) : Bool :=
  decide (kpa ≤ 1000) && if operating then decide (temp ≤ 550) else decide (freezing + 50 ≤ temp ∧ temp ≤ 600)

/-- The storage rows of Table 20-7: filled, from 5 K above the fluid's freezing point, which is 0 degrees for water and -13 with 30 % glycol. -/
def storageOk (filled : Option Int) (temp : Int) (humidity : Nat) : Bool :=
  decide (-200 ≤ temp ∧ temp ≤ 600) && decide (5 ≤ humidity ∧ humidity ≤ 95) &&
    match filled with | some f => decide (f + 50 ≤ temp) | none => true

/-- Vibration in mg rms with its minutes per axis, and shock in mg, that the module withstands, operating and packaged (Table 20-7). -/
def vibrationMg (operating : Bool) : Nat × Nat := if operating then (200, 30) else (1000, 60)
def shockMg (operating : Bool) : Nat := if operating then 3000 else 15000

/-! ## The connectors (R451) -/

/-- The connector of a link, 0 HS-N, 1 HS-E, 2 HS-S, 3 HS-W: eight links each, in the order of the rim segments (spec/02 Table 02-2). -/
def hsConnector (link : Nat) : Nat := link / 8

/-- The position in its connector of a lane's differential pair. -/
def lanePosition (link lane : Nat) (receive : Bool) : Nat := 32 * (link % 8) + lane + if receive then 16 else 0

/-- The lanes of one link are skewed by at most 40 ns; arrival times in ns. -/
def skewOk (arrivals : List Nat) : Bool := arrivals.all (fun a => arrivals.all (fun b => decide (a ≤ b + 40)))

/-- The signalling rate in MBd by which loss limits are scaled: native mode at 224 Gb/s against the 212.5 of the base channel. -/
def channelScale (native : Bool) : Nat × Nat := if native then (2240, 2125) else (1, 1)

/-! ## Coolant connection and mechanics (R452, R453) -/

/-- The pressure drop of the module in kPa, at most, at a flow in L/min, for the flows that Table 20-5 lists. -/
def pressureDrop (flow : Nat) : Option Nat := [(20, 24), (30, 54), (39, 91), (45, 120)].find? (fun p => p.1 = flow) |>.map (·.2)

/-- The coolant loop of Table 20-4: filtration in µm, glycol in percent, tenths of pH, chloride in mg/L, operating gauge pressure in kPa, and
aluminium in contact with the fluid. -/
structure Loop where
  filter : Nat
  glycol : Nat
  ph : Nat
  chloride : Nat
  kpa : Nat
  aluminium : Bool
  deriving DecidableEq, Repr

/-- Whether a loop meets Table 20-4. -/
def Loop.ok (l : Loop) : Bool :=
  decide (l.filter ≤ 50 ∧ l.glycol ≤ 30 ∧ 80 ≤ l.ph ∧ l.ph ≤ 100 ∧ l.chloride ≤ 25 ∧ l.kpa ≤ 600) && !l.aluminium

/-- Coolant volume in mL; mass drained and filled in g; outline in mm; insertion force in N; screws and their torque in tenths of N·m. -/
def coolantMl : Nat := 1400
def massG (filled : Bool) : Nat := if filled then 32900 else 31500
def outlineMm : Nat × Nat × Nat := (360, 360, 112)
def insertionN : Nat := 900
def screws : Nat × Nat := (16, 45)

end Sys2Proof.Machine
end

