-- ==== Sys2Proof/WellFormed.lean ====
section
/-! DEFINITION. Well-formed commands: the bounds on operands that their types do not give. A command that the module cannot be sent is not
well formed: an instruction of a core that the module does not have, a sensor that does not exist, a frame with too few readings. A word that
is sent and that the module finds illegal is well formed; what it does is its meaning. -/

namespace Sys2Proof

/-- A logical core number (spec/02 Table 02-3). -/
def coreOk (core : BitVec 10) : Bool := decide (core.toNat < 896)

/-- An instruction names a core; one of 8 bytes has no extension word (spec/04 R70). -/
def IA.wf (i : IA) : Bool := coreOk i.core
def IB.wf (i : IB) : Bool := coreOk i.core && (i.x || i.ext == 0)
def IM.wf (i : IM) : Bool := coreOk i.core
def IT.wf (i : IT) : Bool := coreOk i.core && (i.x || i.ext == 0)

/-- Data of an answer, a fabric packet or an OFP packet: at most 2 KiB (spec/08 R178, spec/10 Table 10-2, spec/11 R240). -/
def Response.wf : Response → Bool
  | .ok data => decide (data.length ≤ 2048)
  | .fail _ => true
def FabPkt.wf (p : FabPkt) : Bool := decide (p.data.length ≤ 512 * (1 + (p.hdr.extractLsb' 38 1).toNat))
def OfpPkt.wf (p : OfpPkt) : Bool := decide (p.data.length ≤ 2048) && decide (p.upset ≤ 4)

/-- A port's reading: a level and port that exist, a fraction of at most 1 (spec/10 R230, Table 10-7). -/
def PressSample.wf (g : PressSample) : Bool := decide (g.level ≤ 4) && decide (g.port.toNat ≤ 8) && decide (g.frac ≤ 256)

/-- A telemetry frame has 2,128 domain records and 1,094 temperatures (spec/15 Tables 15-4, 15-5). -/
def FrameIn.wf (f : FrameIn) : Bool := decide (f.recs.length = 2128) && decide (f.temps.length = 1094)

/-- What a start-up stage finds: working phases of a site, and the stages and records of Tables 17-5 and 17-7. -/
def BootIn.wf (b : BootIn) : Bool :=
  b.phases.all (fun p => decide (p.2 ≤ 8)) && b.fwBad.all (fun p => decide (p.2 ≤ 4)) && b.recBad.all (fun p => decide (1 ≤ p.1 ∧ p.1 ≤ 9 ∧ p.2.1 ≤ 1))

/-- Every operand of a command lies in its range. -/
def Instr.wf : Instr → Bool
  | .add i => i.wf
  | .addi i => i.wf
  | .sub i => i.wf
  | .subi i => i.wf
  | .and i => i.wf
  | .andi i => i.wf
  | .or i => i.wf
  | .ori i => i.wf
  | .xor i => i.wf
  | .xori i => i.wf
  | .shl i => i.wf
  | .shli i => i.wf
  | .shr i => i.wf
  | .shri i => i.wf
  | .sra i => i.wf
  | .srai i => i.wf
  | .mul i => i.wf
  | .muli i => i.wf
  | .mulhu i => i.wf
  | .mulhui i => i.wf
  | .mulh i => i.wf
  | .mulhi i => i.wf
  | .divu i => i.wf
  | .divui i => i.wf
  | .remu i => i.wf
  | .remui i => i.wf
  | .div i => i.wf
  | .divi i => i.wf
  | .rem i => i.wf
  | .remi i => i.wf
  | .min i => i.wf
  | .mini i => i.wf
  | .max i => i.wf
  | .maxi i => i.wf
  | .minu i => i.wf
  | .minui i => i.wf
  | .maxu i => i.wf
  | .maxui i => i.wf
  | .cmpEq i => i.wf
  | .cmpNe i => i.wf
  | .cmpLt i => i.wf
  | .cmpLtu i => i.wf
  | .cmpGe i => i.wf
  | .cmpGeu i => i.wf
  | .cmpiEq i => i.wf
  | .cmpiNe i => i.wf
  | .cmpiLt i => i.wf
  | .cmpiLtu i => i.wf
  | .cmpiGe i => i.wf
  | .cmpiGeu i => i.wf
  | .pand i => i.wf
  | .por i => i.wf
  | .pxor i => i.wf
  | .pandn i => i.wf
  | .pset i => i.wf
  | .pget i => i.wf
  | .ld i => i.wf
  | .st i => i.wf
  | .tld i => i.wf
  | .tst i => i.wf
  | .scalarLoadReturn core _ => coreOk core
  | .tset i => i.wf
  | .tget i => i.wf
  | .tmov i => i.wf
  | .br i => i.wf
  | .jal i => i.wf
  | .jr i => i.wf
  | .cstart i => i.wf
  | .endCtx i => i.wf
  | .rdsys i => i.wf
  | .ifence i => i.wf
  | .nop i => i.wf
  | .waitp i => i.wf
  | .bar i => i.wf
  | .evsig i => i.wf
  | .evwait i => i.wf
  | .ctxSliceExpiry core => coreOk core
  | .qcfg i => i.wf
  | .qbind i => i.wf
  | .qacq i => i.wf
  | .qrel i => i.wf
  | .qsub i => i.wf
  | .slm i => i.wf
  | .cmm i => i.wf
  | .chb i => i.wf
  | .cbwd i => i.wf
  | .cdrn i => i.wf
  | .czero i => i.wf
  | .carveCommandDone core _ idx => coreOk core && decide (idx ≤ 8)
  | .smv i => i.wf
  | .schussCommandDone core => coreOk core
  | .gnrm i => i.wf
  | .gsmx i => i.wf
  | .gnrmb i => i.wf
  | .gsmxb i => i.wf
  | .groomerCommandDone core => coreOk core
  | .vadd i => i.wf
  | .vsub i => i.wf
  | .vmul i => i.wf
  | .vfma i => i.wf
  | .vmax i => i.wf
  | .vmin i => i.wf
  | .vscale i => i.wf
  | .vexp i => i.wf
  | .vlog i => i.wf
  | .vrcp i => i.wf
  | .vrsqrt i => i.wf
  | .vact i => i.wf
  | .vcvt i => i.wf
  | .vrsum i => i.wf
  | .vamax i => i.wf
  | .vgbq i => i.wf
  | .vgba i => i.wf
  | .vgbd i => i.wf
  | .vres i => i.wf
  | .vopt i => i.wf
  | .viadd i => i.wf
  | .vimul i => i.wf
  | .vicmp i => i.wf
  | .vectorCommandDone core => coreOk core
  | .spush i => i.wf
  | .spop i => i.wf
  | .spskip i => i.wf
  | .snowpackCommandDone core => coreOk core
  | .snowpackSpillAck core => coreOk core
  | .snowpackRefillData core => coreOk core
  | .rget i => i.wf
  | .rput i => i.wf
  | .rcopy i => i.wf
  | .ratom i => i.wf
  | .rfence i => i.wf
  | .rdsub i => i.wf
  | .rdrecv i => i.wf
  | .ckvote i => i.wf
  | .ckdig i => i.wf
  | .digestDone core => coreOk core
  | .slalomDone core => coreOk core
  | .streamResponse core req resp => coreOk core && decide (req.src.toNat < 24) && resp.wf
  | .atuWalkReturn core => coreOk core
  | .coreCtxStartWrite core _ => coreOk core
  | .coreCtxResumeWrite core _ => coreOk core
  | .coreCtxKillWrite core _ => coreOk core
  | .coreEvSetWrite core _ => coreOk core
  | .coreSramCfgWrite core _ => coreOk core
  | .coreAtuInvalWrite core _ => coreOk core
  | .atuInvalDone core => coreOk core
  | .coreRingResume core _ => coreOk core
  | .coreRingAbort core _ => coreOk core
  | .coreRingReset core _ => coreOk core
  | .coreXslotResume core _ => coreOk core
  | .coreXslotAbort core _ => coreOk core
  | .sramScrub core line _ => coreOk core && decide (line < 925697)
  | .heartbeatSample _ _ => true
  | .coreRemap _ => true
  | .fabricPacketArrive _ _ pkt => pkt.wf
  | .fabricPressWindow ports => ports.all PressSample.wf
  | .linkTrainStageDone _ stage => stage.credits.isEmpty || decide (stage.credits.length = 17)
  | .linkTrainTimeout _ => true
  | .ethPortTrainDone _ _ _ => true
  | .linkRetrain _ => true
  | .laneLoss _ _ => true
  | .ofpFlitReceive _ flit => decide (flit.data.length ≤ 512)
  | .linkIdleTimeout _ => true
  | .linkCreditTimeout _ _ => true
  | .linkDrainSwitchDone => true
  | .devLgrpAdmit => true
  | .ofpGet pkt => pkt.wf
  | .ofpPut pkt => pkt.wf
  | .ofpAtom pkt => pkt.wf
  | .ofpCopy pkt => pkt.wf
  | .ofpData pkt => pkt.wf
  | .ofpAck pkt => pkt.wf
  | .ofpAtomr pkt => pkt.wf
  | .ofpErr pkt => pkt.wf
  | .ofpCdone pkt => pkt.wf
  | .ofpWseg pkt => pkt.wf
  | .ofpGbk pkt => pkt.wf
  | .ctlHeartbeat _ rec => decide (rec.length = 64)
  | .ctlGoodbye _ rec => decide (rec.length = 64)
  | .ctlVote _ rec => decide (rec.length = 64)
  | .ctlDecision _ rec => decide (rec.length = 64)
  | .remoteResponseTimeout _ => true
  | .heartbeatSend => true
  | .peerTimeout _ => true
  | .roceSendReceive _ _ => true
  | .roceWriteReceive _ _ => true
  | .roceReadReceive _ _ => true
  | .roceAtomicReceive _ _ => true
  | .roceAckReceive _ _ => true
  | .roceCnpReceive _ => true
  | .roceRetransmitTimeout _ => true
  | .wstreamKeyUnwrap _ => true
  | .wstreamKeyTimeout _ => true
  | .wstreamPlanLoad _ => true
  | .recordDecrypt _ _ => true
  | .entryComplete _ => true
  | .wstreamWbqWrite core _ => coreOk core
  | .writebackDone => true
  | .wstreamBufRelWrite core _ => coreOk core
  | .wstreamJobGo _ => true
  | .wstreamJobEnd _ => true
  | .wstreamTreeTimeout => true
  | .jobJoinCheck peer => decide (peer.cores ≤ 896) && decide (peer.needCores ≤ 896)
  | .joinRecordRefresh => true
  | .memberLeaveRequest _ _ => true
  | .redPlanLoad _ => true
  | .redChainArm _ => true
  | .voteSend => true
  | .voteTimerExpiry => true
  | .ckptUpdWrite _ => true
  | .rollback => true
  | .ckptTensLoad _ => true
  | .freezeTimer => true
  | .ckptFreezeNow _ => true
  | .freezeDrainSend => true
  | .freezeDrainAck => true
  | .ckptCompare _ => true
  | .ckptCompareTimeout _ => true
  | .ckptPromote _ _ => true
  | .ckptAdopt _ _ => true
  | .ckptScan _ slots => decide (slots.length ≤ 8)
  | .ckptLoad _ _ _ => true
  | .ckptBuddyStep _ => true
  | .siteToOff _ => true
  | .siteToRet _ => true
  | .siteToIdle _ => true
  | .idleTimeout _ => true
  | .telemetryFrame frame => frame.wf
  | .powerLoopIteration _ => true
  | .capWrite _ => true
  | .capLeaseExpiry => true
  | .pwrBrakeAssert => true
  | .pwrBrakeDeassert => true
  | .inputUndervoltage => true
  | .inputFail => true
  | .holdupEnd => true
  | .crevasseWindow entry _ => decide (entry.toNat < 136)
  | .pwrCrevRecal _ base => decide (base.length = 136)
  | .phaseLoss _ => true
  | .regulatorControllerFault _ => true
  | .siteShort _ => true
  | .vfieldShort _ => true
  | .rimConverterFault _ => true
  | .alwaysOnConverterFault _ => true
  | .thermalSample _ temps => decide (temps.length = 16)
  | .coolantLeak sensor => decide (sensor.toNat < 3)
  | .pwrServiceClear _ => true
  | .fieldRefDeviation _ _ => true
  | .devTimeCorrection _ => true
  | .ptpMessage _ => true
  | .ptpSyncLoss _ => true
  | .ptpHoldoverExceeded _ => true
  | .devTimeSetWrite _ => true
  | .wearSlackSample _ _ _ => true
  | .vminMeasure _ _ _ => true
  | .wearReplan _ plan => decide (plan.need.length = 16)
  | .lodgeWatchdogExpiry _ => true
  | .lodgeMemoryError => true
  | .devLodgeRestart _ => true
  | .lodgeRestartDone boot => boot.wf
  | .powerLoopWatchdog => true
  | .mgmtConnect _ _ => true
  | .regRead _ => true
  | .regWrite _ => true
  | .evtRead _ => true
  | .telRead _ => true
  | .wearRead _ => true
  | .attest _ => true
  | .cap _ => true
  | .keyInstall _ => true
  | .fwStage _ => true
  | .recWrite _ => true
  | .presStage _ => true
  | .evtSubscribe _ => true
  | .evtSubscribePush _ => true
  | .secFwCommit _ => true
  | .presenceButton => true
  | .serviceJumperClose => true
  | .presenceTimeout => true
  | .counterClear _ _ => true
  | .prsntAssert => true
  | .prsntDeassert => true
  | .bootStageDone boot => boot.wf
  | .devJoin _ => true
  | .devResetWarm _ => true
  | .runoutStart _ => true
  | .runoutNow _ => true
  | .runoutWaitExpiry => true
  | .runoutBegin => true
  | .runoutDrainTimeout => true
  | .ejectAssert => true
  | .ejectDeassert => true
  | .registerWrite _ _ _ => true
  | .nullFlitSend _ => true
  | .inputReturn _ => true
  | .sitePowerTransitionDone _ => true
  | .snowpackDirectoryRefill core => coreOk core
  | .priorityFlowControlFrame _ _ _ quanta => decide (quanta.length = 8)

end Sys2Proof
end

