-- ==== Sys2Proof/Tests/Slice0.lean ====
section
/-! SUPPORT. Tests: well-formedness refuses an ill-formed command for each of its checks; single steps against numbers of the specification
worked by hand; and for every statement with hypotheses a witness that meets them, clause by clause where it has several. -/

open Sys2Proof Sys2Proof.Machine

namespace Sys2Proof.Tests

set_option maxRecDepth 8000

/-! ## Small states -/

/-- Reset with core 0 as given. -/
def core0 (c : Core) : State := { State.reset with cores := [(0, c)] }

/-- Core 0 with context 0 RUNNING. -/
def run (x : Ctx) : State := core0 { ctxs := [(0, { x with st := .running })] }

/-- Reset with fields written. -/
def regs (l : List (Fld × Nat)) : State := l.foldl (fun s p => s.setFld p.1 p.2) State.reset

/-- What a command leaves, seen through a function. -/
def after {α : Type} (c : Instr) (s : State) (f : State → α) : Option α :=
  match exec c s with
  | .next t => some (f t)
  | _ => none

/-- A running context with no load outstanding executes whatever it reads. -/
theorem executes (x : Ctx) (h : x.loads = []) (hp : pcOk x.pc = true) (rs ts : List Nat) : (run x).Executes 0 0 0 false rs ts := by
  constructor
  · have h1 : ((run x).ctx 0 0).st = .running := rfl
    have h2 : (0 < (run x).ncores) := Nat.lt_of_lt_of_le (by decide) (show 448 ≤ (run x).ncores by unfold State.ncores; split <;> decide)
    have h3 : (run x).stoppedAt 0 = false := show (core0 {}).stoppedAt 0 = false by decide
    simp [State.issues, h1, h2, h3]
  · exact hp
  · simp [run, core0, Ctx.guard, Ctx.pr]
  · have h1 : ((run x).ctx 0 0).loads = [] := h
    simp [Ctx.held, h1]

/-! ## Well-formedness -/

theorem test_wf_core : (Instr.add { core := 896, ctx := 0 }).wf = false ∧ (Instr.ld { core := 896, ctx := 0 }).wf = false
    ∧ (Instr.digestDone 1000).wf = false ∧ (Instr.add { core := 895, ctx := 7 }).wf = true := by decide
theorem test_wf_ext : (Instr.addi { core := 0, ctx := 0, ext := 1 }).wf = false ∧ (Instr.cmm { core := 0, ctx := 0, ext := 1 }).wf = false
    ∧ (Instr.addi { core := 0, ctx := 0, x := true, ext := 1 }).wf = true := by decide
theorem test_wf_carve : (Instr.carveCommandDone 0 0 9).wf = false := by decide
theorem test_wf_source : (Instr.streamResponse 0 ⟨24, 0⟩ (.fail 1)).wf = false := by decide
theorem test_wf_data : (Instr.streamResponse 0 ⟨0, 0⟩ (.ok (List.replicate 2049 0))).wf = false ∧
    (Instr.fabricPacketArrive 0 0 { hdr := 0, data := List.replicate 2049 0 }).wf = false ∧ (Instr.ofpFlitReceive 0 { w0 := 0, data := List.replicate 513 0 }).wf = false ∧
    (Instr.ofpPut { link := 0, vc := 1, dst := 0, addr := 0, src := 0, srcEp := 0, tag := 0, op := 1, data := List.replicate 2049 0 }).wf = false := by
  simp [Instr.wf, Response.wf, FabPkt.wf, OfpPkt.wf]
theorem test_wf_upset : (Instr.ofpGbk { link := 0, vc := 1, dst := 0, addr := 0, src := 0, srcEp := 0, tag := 0, op := 1, upset := 5 }).wf = false := by decide
theorem test_wf_credits : (Instr.linkTrainStageDone 0 ⟨false, [0]⟩).wf = false := by decide
theorem test_wf_scrub : (Instr.sramScrub 0 0x3000000 .clean).wf = false := by decide
theorem test_wf_press : (Instr.fabricPressWindow [⟨5, 0, 0, 0, 0⟩]).wf = false ∧ (Instr.fabricPressWindow [⟨0, 0, 0, 9, 0⟩]).wf = false
    ∧ (Instr.fabricPressWindow [⟨0, 0, 0, 0, 257⟩]).wf = false := by decide
theorem test_wf_record : (Instr.ctlVote 0 []).wf = false ∧ (Instr.ctlHeartbeat 0 [0]).wf = false := by decide
theorem test_wf_join : (Instr.jobJoinCheck ⟨0, 0, 0, 897, 0, false, false, 0, 0, 0, 0, 0⟩).wf = false
    ∧ (Instr.jobJoinCheck ⟨0, 0, 0, 0, 897, false, false, 0, 0, 0, 0, 0⟩).wf = false := by decide
theorem test_wf_scan : (Instr.ckptScan 0 (List.replicate 9 [])).wf = false := by decide
theorem test_wf_frame : (Instr.telemetryFrame ⟨[], []⟩).wf = false := by decide
theorem test_wf_entry : (Instr.crevasseWindow 136 ⟨0, 0, 0⟩).wf = false ∧ (Instr.pwrCrevRecal 0 []).wf = false := by decide
theorem test_wf_temps : (Instr.thermalSample 0 [0]).wf = false := by decide
theorem test_wf_leak : (Instr.coolantLeak 3).wf = false := by decide
theorem test_wf_plan : (Instr.wearReplan 0 ⟨[], 0, 0, 0⟩).wf = false := by decide
theorem test_wf_boot : (Instr.bootStageDone { ms := 0, phases := [(0, 9)] }).wf = false ∧ (Instr.bootStageDone { ms := 0, fwBad := [(0, 5)] }).wf = false
    ∧ (Instr.lodgeRestartDone { ms := 0, recBad := [(10, 0, none)] }).wf = false ∧ (Instr.lodgeRestartDone { ms := 0, recBad := [(9, 2, none)] }).wf = false := by decide
theorem test_wf_quanta : (Instr.priorityFlowControlFrame 0 0 0 []).wf = false := by decide

/-! ## Single steps -/

-- R80: addition wraps; DIV of -2^63 by -1; MULH; a shift uses bits [5:0]; s0 is not written.
theorem test_add_wraps : after (.add { core := 0, ctx := 0, d := 3, a := 1, b := 2 }) (run { s := [(1, 0xFFFFFFFFFFFFFFFF), (2, 2)] })
    (fun t => ((t.ctx 0 0).sr 3, (t.ctx 0 0).pc)) = some (1, 8) := by decide
theorem test_div_corner : after (.div { core := 0, ctx := 0, d := 3, a := 1, b := 2 }) (run { s := [(1, 0x8000000000000000), (2, 0xFFFFFFFFFFFFFFFF)] })
    (fun t => (t.ctx 0 0).sr 3) = some 0x8000000000000000 := by decide
theorem test_rem_zero : after (.remui { core := 0, ctx := 0, d := 3, a := 1 }) (run { s := [(1, 77)] }) (fun t => (t.ctx 0 0).sr 3) = some 77 := by decide
theorem test_mulh_signed : after (.mulh { core := 0, ctx := 0, d := 3, a := 1, b := 2 }) (run { s := [(1, 0xFFFFFFFFFFFFFFFF), (2, 1)] })
    (fun t => (t.ctx 0 0).sr 3) = some 0xFFFFFFFFFFFFFFFF := by decide
theorem test_shift_amount : after (.shl { core := 0, ctx := 0, d := 3, a := 1, b := 2 }) (run { s := [(1, 1), (2, 65)] })
    (fun t => (t.ctx 0 0).sr 3) = some 2 := by decide
theorem test_zero_register : after (.addi { core := 0, ctx := 0, d := 0, imm := 5 }) (run {}) (fun t => ((t.ctx 0 0).sr 0, (t.ctx 0 0).pc)) = some (0, 8) := by decide
-- R72: an instruction with its extension word advances the pc by 16. R74: no guard suppresses E_ILLEGAL.
theorem test_extension : after (.addi { core := 0, ctx := 0, d := 1, x := true, ext := 7 }) (run {}) (fun t => ((t.ctx 0 0).sr 1, (t.ctx 0 0).pc)) = some (7, 16) := by decide
theorem test_illegal_guarded : after (.add { core := 0, ctx := 0, x := true, pn := true }) (run {}) (fun t => ((t.ctx 0 0).st, (t.ctx 0 0).pc)) = some (.faulted, 0) := by decide
-- R81: a signed compare.
theorem test_cmplt_signed : after (.cmpLt { core := 0, ctx := 0, d := 2, a := 1, b := 0 }) (run { s := [(1, 0xFFFFFFFFFFFFFFFF)] })
    (fun t => (t.ctx 0 0).pr 2) = some true := by decide
-- R82: a store to the top of SRAM; one that reaches beyond it faults with E_ADDR_UNMAPPED; a misaligned one with E_ALIGN.
theorem test_store_top : after (.st { core := 0, ctx := 0, space := 1, size := 3, d := 2, a := 1 }) (run { s := [(1, 0x2FFFFF8), (2, 0x0102030405060708)] })
    (fun t => (t.mem.read 0x20002FFFFF8, t.mem.read 0x20002FFFFFF)) = some (8, 1) := by decide
theorem test_store_beyond : after (.st { core := 0, ctx := 0, space := 1, size := 3, d := 2, a := 1 }) (run { s := [(1, 0x3000000)] })
    (fun t => t.fld (F.CORE_CTX_FAULT_code 0 0)) = some E.ADDR_UNMAPPED := by decide
-- R83: BR to a negative offset below 0 faults with E_PC_ALIGN.
theorem test_branch_below : after (.br { core := 0, ctx := 0, imm := 0xFFFFFFFF }) (run {}) (fun t => t.fld (F.CORE_CTX_FAULT_code 0 0)) = some E.PC_ALIGN := by decide
-- R63, the worked example: address 0x4012_3456 translates to 0x4CA2_4800_2052_3456.
theorem test_page_example : (tlbOf 0x200 0x4CA2480020400000 0x4CA248002040000F).addr false 0x40123456 = 0x4CA2480020523456 := by decide
-- R84: EVSIG of a flag that is set leaves it set; BAR of a count above 8 faults.
theorem test_bar_count : after (.bar { core := 0, ctx := 0, a := 1 }) (run { s := [(1, 9)] }) (fun t => t.fld (F.CORE_CTX_FAULT_code 0 0)) = some E.BAR_COUNT := by decide
-- R85: QCFG of 3 chairs of 64 bytes; of 2 chairs it faults.
theorem test_qcfg : after (.qcfg { core := 0, ctx := 0, a := 1, b := 0, c := 2, aux := 3 }) (run { s := [(1, 15), (2, 64)] })
    (fun t => ((t.ring 0 15).configured, (t.ring 0 15).n, (t.ring 0 15).cbytes)) = some (true, 3, 64) := by decide
theorem test_qcfg_small : after (.qcfg { core := 0, ctx := 0, a := 1, b := 0, c := 2, aux := 2 }) (run { s := [(1, 15), (2, 64)] })
    (fun t => t.fld (F.CORE_CTX_FAULT_code 0 0)) = some E.RING_CFG := by decide
-- R6: a write of 32 bits to a register has no effect; R8: a reserved mode keeps the old one.
theorem test_narrow_write : after (.registerWrite (BitVec.ofNat 42 F.DEV_MODE_CFG_keep_half.addr) 2 3) State.reset (fun t => t.regs) = some [] := by decide
theorem test_reserved_mode : after (.registerWrite (BitVec.ofNat 42 F.DEV_EXEC_CFG_mode.addr) 3 3) State.reset (fun t => t.fld F.DEV_EXEC_CFG_mode) = some 0 := by decide
-- R348: an expired lease puts the fallback of 15,000 W in force.
theorem test_lease : after .capLeaseExpiry (regs [(F.PWR_CAP_CFG_lease_ms, 10)]) (fun t => t.rackCap) = some 15000 := by decide
-- R347: a cap whose sequence number is not greater is refused.
theorem test_stale_cap : after (.capWrite 0x2710) State.reset (fun t => t.fld F.PWR_CAP_STS_code) = some E.CAP_SEQ := by decide

/-! ## Words of a program, bit by bit from Table 04-4 and the worked example of spec/04 -/

theorem test_word_cmm : decodeWord 5 1 0x3080090100000000 0 = some (.cmm { core := 5, ctx := 1, x := true, ta := 1, tb := 2, pd := 1 }) := by decide
theorem test_word_addi : decodeWord 0 0 0x0201400000001000 0 = some (.addi { core := 0, ctx := 0, d := 5, imm := 0x1000 }) := by decide
theorem test_word_nop : decodeWord 0 0 0x6000000000000000 0 = some (.nop { core := 0, ctx := 0 }) := by decide
-- R74: undefined opcodes, an unlisted fn of op 0x01 and of op 0x40.
theorem test_word_undefined : decodeWord 0 0 0 0 = none ∧ decodeWord 0 0 0xFF00000000000000 0 = none ∧ decodeWord 0 0 0x0100000013000000 0 = none
    ∧ decodeWord 0 0 0x400000000D000000 0 = none := by decide
theorem test_word_fault : (illegalWord 0 0 (run {})).fld (F.CORE_CTX_FAULT_code 0 0) = E.ILLEGAL := by decide

/-- Core 0 runs a program whose first word is ADDI s5, 0x1000 and whose second word is 0. -/
def program : State := { run {} with mem := ⟨[(0x20000000001, 0x10), (0x20000000005, 0x40), (0x20000000006, 0x01), (0x20000000007, 0x02)], []⟩ }

theorem program_issuer : program.issuer 0 = some 0 := by
  simp [State.issuer, List.range, List.range.loop, show program.issues 0 0 = true from (executes {} rfl rfl [] []).issues]

-- R73, R74: a core runs the word at its pc; the word 0 after it spells no instruction.
theorem test_hyp_wordsIssued : program.issuer 0 = some 0 ∧ program.cores.map Prod.fst = [0] ∧ program.pending = [] ∧ program.ws.recs = [] ∧ program.ws.waiting = []
    ∧ program.net.paused = [] ∧ program.net.inb = [] ∧ program.fab.bufs = [] ∧ program.fab.waits = []
    ∧ decodeWord 0 0 (program.wordAt 0 0) (program.wordAt 0 8) = some (.addi { core := 0, ctx := 0, d := 5, imm := 0x1000 })
    ∧ decodeWord 0 0 (program.wordAt 0 8) (program.wordAt 0 16) = none ∧ (core0 {}).issuer 0 = none :=
  ⟨program_issuer, rfl, rfl, rfl, rfl, rfl, rfl, rfl, rfl, by decide, by decide, by decide⟩

/-! ## Witnesses: hypotheses of the statements, one theorem for each statement, one line or more for each clause -/

theorem test_hyp_stepRunsFrontCommand : State.reset.pending = [] ∧ State.reset.ws.recs = [] ∧ State.reset.ws.waiting = [] ∧ State.reset.net.paused = []
    ∧ State.reset.net.inb = [] ∧ State.reset.fab.bufs = [] ∧ State.reset.fab.waits = [] ∧ ∀ n, State.reset.issuer n = none :=
  ⟨rfl, rfl, rfl, rfl, rfl, rfl, rfl, fun n => by
    have h : ∀ k, State.reset.issues n k = false := fun k => by
      have h1 : (State.reset.ctx n k).st = .free := rfl
      simp [State.issues, h1]
    simp [State.issuer, h]⟩
theorem test_hyp_stepKeepsMemoryCanonical : ∃ t, MemOk { run {} with pending := [.st { core := 0, ctx := 0, space := 1, size := 3 }] }
    ∧ step { run {} with pending := [.st { core := 0, ctx := 0, space := 1, size := 3 }] } = .next t := ⟨_, by decide, rfl⟩

/-- Words of format A, B and M with no field set; with an extension word. -/
def wA : IA := { core := 0, ctx := 0 }
def wB : IB := { core := 0, ctx := 0 }
def wX : IB := { core := 0, ctx := 0, x := true, ext := 5 }

theorem test_hyp_scalarArithmetic : (run {}).Executes 0 0 0 false [0, 0] [] ∧ wA.legal true true true false false 0 = true
    ∧ (run {}).Executes 0 0 0 false [0] [] ∧ wB.legal true true true = true ∧ wX.legal true true true = true :=
  ⟨executes {} rfl rfl _ _, by decide, executes {} rfl rfl _ _, by decide, by decide⟩
theorem issues0 (x : Ctx) (h : x.loads = []) (hp : pcOk x.pc = true) : Slice0.Issues (run x) 0 0 := ⟨(executes x h hp [] []).issues, hp⟩
theorem test_hyp_comparesAndPredicates : (run {}).Executes 0 0 0 false [0, 0] [] ∧ Slice0.Issues (run {}) 0 0
    ∧ ({ wA with d := 7, a := 7, b := 7 } : IA).legal true true true false false 0 = true ∧ ({ wB with d := 7 } : IB).legal true true true = true
    ∧ ({ wA with d := 7, a := 7 } : IA).legal true true false false false 0 = true ∧ 8 ≤ ({ wA with d := 8 } : IA).d.toNat
    ∧ 8 ≤ ({ wA with a := 8 } : IA).a.toNat ∧ 8 ≤ ({ wA with b := 8 } : IA).b.toNat ∧ ({ wA with c := 1 } : IA).legal true true true false false 0 = false
    ∧ ({ wA with b := 1 } : IA).legal true true false false false 0 = false ∧ ({ wB with rsv := 1 } : IB).legal true true true = false :=
  ⟨executes {} rfl rfl _ _, issues0 {} rfl rfl, by decide⟩

/-- A load or store of the last 8 or 32 bytes of SRAM (space 1), and of side memory (space 2). -/
def mTop : IM := { core := 0, ctx := 0, space := 1, size := 3, imm := 0x2FFFFF8 }
def mDesc : IM := { core := 0, ctx := 0, space := 2, size := 3, imm := 0xFFFE0 }
theorem test_hyp_localLoads : (run {}).Executes 0 0 0 false [0] [0] ∧ mTop.legal true = true ∧ Slice0.Local mTop 8 (run {})
    ∧ mDesc.legalDesc = true ∧ Slice0.Local mDesc 32 (run {}) ∧ Slice0.Local mTop 1 (run {})
    ∧ (run { loads := [⟨false, 3, 5⟩] }).stoppedAt 0 = false ∧ ((run { loads := [⟨false, 3, 5⟩] }).ctx 0 0).loads = ⟨false, 3, 5⟩ :: [] :=
  ⟨executes {} rfl rfl _ _, by decide, by unfold Slice0.Local; decide, by decide, by unfold Slice0.Local; decide, by unfold Slice0.Local; decide,
    by decide, rfl⟩
/-- Context 0 runs over a Snowpack with a top of 64 KiB at the start of SRAM, which holds records. -/
def snowRun : State := { regs [(F.CORE_SNOW_TOP_size 0, 1)] with cores := [(0, { ctxs := [(0, { st := .running })], snow := { depth := 64 } })] }
def mSnow : IM := { core := 0, ctx := 0, space := 1, size := 3 }
theorem test_hyp_localStore : (run {}).Executes 0 0 0 false [0, 0] [0] ∧ mTop.legal false = true ∧ Slice0.Local mTop 8 (run {})
    ∧ mDesc.legalDesc = true ∧ Slice0.Local mDesc 32 (run {})
    ∧ Slice0.OffSnow (run {}) (Slice0.home 0 1 + Slice0.ea mTop (run {})) 8 ∧ Slice0.OffSnow (run {}) (Slice0.home 0 2 + Slice0.ea mDesc (run {})) 32
    -- over a Snowpack's top
    ∧ (snowRun.Executes 0 0 0 false [0, 0] [0] ∧ mSnow.legal false = true ∧ Slice0.Local mSnow 8 snowRun
      ∧ ¬ Slice0.OffSnow snowRun (Slice0.home 0 1 + Slice0.ea mSnow snowRun) 8) :=
  ⟨executes {} rfl rfl _ _, by decide, by unfold Slice0.Local; decide, by decide, by unfold Slice0.Local; decide, by unfold Slice0.OffSnow; decide,
    by unfold Slice0.OffSnow; decide, ⟨by decide, by decide, by simp [snowRun, Ctx.guard, State.ctx, State.core, Core.ctx, Sparse.get, Sparse.find, Ctx.pr],
      by simp [snowRun, Ctx.held, State.ctx, State.core, Core.ctx, Sparse.get, Sparse.find]⟩, by decide, by unfold Slice0.Local; decide,
    by unfold Slice0.OffSnow; decide⟩

/-- Context 0 runs and the TLB holds virtual page 0 at a frame. -/
def tlb (e : TlbEntry) (x : Ctx) : State := core0 { ctxs := [(0, { x with st := .running })], tlb2 := [e] }
def pageSelf : TlbEntry := ⟨0, 0xFFFFFC0000000000, true, true, true, true⟩
def pageNone : TlbEntry := ⟨0, 0xFFFFFC0000000000, false, false, true, false⟩
def pageFar : TlbEntry := ⟨0, 0x0000040000000000, true, true, true, true⟩
theorem executesTlb (e : TlbEntry) (rs ts : List Nat) : (tlb e {}).Executes 0 0 0 false rs ts := by
  constructor
  · exact (show (tlb pageSelf {}).issues 0 0 = true by decide)
  · exact (show pcOk 0 = true by decide)
  · simp [tlb, core0, Ctx.guard, Ctx.pr]
  · simp [tlb, core0, Ctx.held, State.ctx, State.core, Core.ctx, Sparse.get, Sparse.find]

/-- The last aligned 8 and 32 bytes of virtual page 0. -/
def mPage : IM := { core := 0, ctx := 0, size := 3, imm := 0x1FFFF8 }
def mPage32 : IM := { core := 0, ctx := 0, size := 3, imm := 0x1FFFE0 }
theorem edge0 (i : IM) (h : i = mPage ∨ i = mPage32) (w : Nat) (hw : (i = mPage → w = 8) ∧ (i = mPage32 → w = 32)) (acc : Access) (ha : acc ≠ .atomic) :
    Slice0.Edge i (tlb pageSelf {}) false pageSelf w acc := by
  rcases h with rfl | rfl
  · obtain rfl := hw.1 rfl
    cases acc
    · exact ⟨by decide, ⟨by decide, by decide⟩, by decide, by decide, by decide, by decide⟩
    · exact ⟨by decide, ⟨by decide, by decide⟩, by decide, by decide, by decide, by decide⟩
    · exact absurd rfl ha
  · obtain rfl := hw.2 rfl
    cases acc
    · exact ⟨by decide, ⟨by decide, by decide⟩, by decide, by decide, by decide, by decide⟩
    · exact ⟨by decide, ⟨by decide, by decide⟩, by decide, by decide, by decide, by decide⟩
    · exact absurd rfl ha
/-- A packet of a path and channel waits for a buffer of the fabric. -/
def jam (src dst vc : Nat) : Fab := { waits := [(0, [{ hdr := BitVec.ofNat 64 (src * 2 ^ 12 + dst * 2 ^ 24 + vc * 2 ^ 36) }])] }
def jammed : State := { tlb pageSelf {} with fab := jam 0 0x40F 0 }
theorem executesJammed (rs ts : List Nat) : jammed.Executes 0 0 0 false rs ts := by
  constructor
  · exact (show jammed.issues 0 0 = true by decide)
  · exact (show pcOk 0 = true by decide)
  · simp [jammed, tlb, core0, Ctx.guard, Ctx.pr]
  · simp [jammed, tlb, core0, Ctx.held, State.ctx, State.core, Core.ctx, Sparse.get, Sparse.find]
theorem test_hyp_virtualEdgeHeld : jammed.Executes 0 0 0 false [0, 0] [0] ∧ jammed.fabOpen 0 0x1FFFF8 0 = false ∧ jammed.fabOpen 0 0x1FFFE0 0 = false
    ∧ (∀ acc ∈ [Access.read, .write], Slice0.Edge mPage jammed false pageSelf 8 acc) ∧ (∀ acc ∈ [Access.read, .write], Slice0.Edge mPage32 jammed false pageSelf 32 acc) := by
  refine ⟨executesJammed _ _, by decide, by decide, ?_, ?_⟩ <;> intro acc h <;> fin_cases h
  all_goals exact ⟨by decide, ⟨by decide, by decide⟩, by decide, by decide, by decide, by decide⟩
theorem test_hyp_virtualEdgeAccess : (tlb pageSelf {}).Executes 0 0 0 false [0, 0] [0] ∧ mPage.legal true = true ∧ mPage32.legalDesc = true
    ∧ mPage.legal false = true ∧ Slice0.Edge mPage (tlb pageSelf {}) false pageSelf 8 .read ∧ Slice0.Edge mPage32 (tlb pageSelf {}) false pageSelf 32 .write
    ∧ (tlb pageSelf {}).clear 0x1FFFF8 8 = true ∧ (tlb pageSelf {}).clear 0x1FFFE0 32 = true
    ∧ (tlb pageSelf {}).fabOpen 0 0x1FFFF8 0 = true ∧ (tlb pageSelf {}).fabOpen 0 0x1FFFE0 0 = true
    ∧ (tlb pageSelf {}).topHit 0x1FFFF8 32 = false ∧ (tlb pageSelf {}).topHit 0x1FFFE0 32 = false
    ∧ (tlb pageSelf {}).bodyHit none 0x1FFFF8 32 = false ∧ (tlb pageSelf {}).bodyHit none 0x1FFFE0 32 = false ∧ (tlb pageSelf {}).heldPages 0x1FFFE0 32 = []
    ∧ (∀ l, l < 5 → 0 ≠ (F.FABRIC_FLIT_CNT l).addr ∧ 0 ≠ (F.FABRIC_FLIT_CNT l).addr + 8) :=
  ⟨executesTlb _ _ _, by decide, by decide, by decide, edge0 _ (.inl rfl) _ ⟨fun _ => rfl, fun h => absurd h (by decide)⟩ _ (by decide),
    edge0 _ (.inr rfl) _ ⟨fun h => absurd h (by decide), fun _ => rfl⟩ _ (by decide), by decide, by decide, by decide⟩
theorem test_hyp_accessFaults : (run {}).Executes 0 0 0 false [0] [0]
    -- a local address that is misaligned; one that is aligned and out of its space
    ∧ (({ mTop with imm := 1 } : IM).legal true = true ∧ Slice0.ea { mTop with imm := 1 } (run {}) % 8 ≠ 0)
    ∧ (Slice0.ea { mTop with imm := 0x3000000 } (run {}) % 8 = 0 ∧ Slice0.room 1 < Slice0.ea { mTop with imm := 0x3000000 } (run {}) + 8)
    ∧ (Slice0.ea { mDesc with imm := 0x100000 } (run {}) % 32 = 0 ∧ Slice0.room 2 < Slice0.ea { mDesc with imm := 0x100000 } (run {}) + 32)
    -- a virtual one at 2^48; on a page of another node; misaligned, on a page of this node; aligned there, on a page without permission
    ∧ (2 ^ 48 ≤ Slice0.ea { mPage with a := 1, imm := 0 } (run { s := [(1, 0x1000000000000)] })
      ∧ Slice0.ea { mPage with a := 1, imm := 0 } (run { s := [(1, 0x1000000000000)] }) % 8 = 0)
    ∧ (((tlb pageFar {}).core 0).tlbFind 0x1FFFF8 = some (false, pageFar) ∧ (tlb pageFar {}).isSelf (pageFar.addr false 0x1FFFF8 / 2 ^ 42) = false)
    ∧ (((tlb pageSelf {}).core 0).tlbFind 0x1FFFF9 = some (false, pageSelf) ∧ (tlb pageSelf {}).isSelf (pageSelf.addr false 0x1FFFF9 / 2 ^ 42) = true
      ∧ 0x1FFFF9 % 8 ≠ 0)
    ∧ (((tlb pageNone {}).core 0).tlbFind 0x1FFFF8 = some (false, pageNone) ∧ (tlb pageNone {}).isSelf (pageNone.addr false 0x1FFFF8 / 2 ^ 42) = true
      ∧ 0x1FFFF8 % 8 = 0 ∧ pageNone.allows .read (pageNone.addr false 0x1FFFF8) = false ∧ pageNone.allows .write (pageNone.addr false 0x1FFFF8) = false) :=
  ⟨executes {} rfl rfl _ _, by decide⟩

/-- A walk of page 0 for context 0 by tables that name no page, a page of this engine, and one that forbids the access. -/
def walking (root : Nat) (mis : Bool) : State :=
  { core0 { ctxs := [(0, { st := .waiting, wait := .walk })], walks := [⟨0, 0, 0, .read, mis⟩] } with
    mem := Mem.write State.reset.mem 0 (BitVec.ofNat 8 root) }
theorem test_hyp_translationWalk : (run {}).Executes 0 0 0 false [0] [0] ∧ mPage.legal true = true ∧ Slice0.ea mPage (run {}) < 2 ^ 48
    ∧ ((run {}).core 0).tlbFind (Slice0.ea mPage (run {})) = none ∧ (walking 7 false).stoppedAt 0 = false
    ∧ ((walking 7 false).core 0).walks = [⟨0, 0, 0, .read, false⟩] ∧ ((walking 7 false).ctx 0 0).inc = 0 ∧ ((walking 7 false).ctx 0 0).st = .waiting
    ∧ ((walking 7 false).ctx 0 0).wait = .walk
    ∧ (walking 7 false).walkTables 0 0 = .inr (true, ⟨0, 0, true, false, false, false⟩)
    ∧ (⟨0, 0, true, false, false, false⟩ : TlbEntry).allows .read 0 = true
    ∧ (walking 3 false).walkTables 0 0 = .inr (true, ⟨0, 0, false, false, false, false⟩)
    ∧ (⟨0, 0, false, false, false, false⟩ : TlbEntry).allows .read 0 = false
    ∧ (walking 0 false).walkTables 0 0 = .inl E.PAGE_NOT_PRESENT :=
  ⟨executes {} rfl rfl _ _, by decide⟩

theorem test_hyp_descriptorMoves : (run {}).Executes 0 0 0 false [0] [15, 15] ∧ ({ wA with d := 15, aux := 3 } : IA).legal true true false false false 3 = true
    ∧ ({ wA with d := 15, a := 15 } : IA).legal true true false false false 0 = true := ⟨executes {} rfl rfl _ _, by decide, by decide⟩
theorem test_hyp_branches : (run {}).Executes 0 0 0 false [0] [] ∧ wB.legal false false false = true ∧ ({ wB with d := 1 } : IB).legal false true false = true
    ∧ ({ wB with a := 1 } : IB).legal false false true = true ∧ Slice0.Target 0x2FFFFF8 ∧ ¬ Slice0.Target 0x3000000 ∧ ¬ Slice0.Target 4 :=
  ⟨executes {} rfl rfl _ _, by decide⟩
theorem test_hyp_contextInstructions : (run { s := [(1, 7)] }).Executes 0 0 0 false [1, 0, 0] []
    ∧ ({ wA with a := 1, pd := 1 } : IA).legal false true true true true 0 = true ∧ Slice0.Target 0
    ∧ ((run {}).ctx 0 7).st = .free ∧ ((run {}).ctx 0 0).st ≠ .free ∧ wA.legal false false false false false 0 = true
    ∧ ((run {}).core 0).remoteBusy 0 0 = false
    ∧ (core0 { ctxs := [(0, { st := .running })], sq := [.remote { op := .rget }] }).issues 0 0 = true
    ∧ ((core0 { ctxs := [(0, { st := .running })], sq := [.remote { op := .rget }] }).core 0).remoteBusy 0 0 = true
    ∧ ({ wA with aux := 7 } : IA).legal true false false false false 0xF = true ∧ fieldOf ({ wA with aux := 7 } : IA).aux 0 4 < 8 :=
  ⟨executes _ rfl rfl _ _, by decide⟩
/-- Context 0 runs, context 7 is READY and the slice is 5 cycles long. -/
def sliced : State := (core0 { ctxs := [(0, { st := .running }), (7, { st := .ready })] }).setFld (F.CORE_CTX_SLICE_cycles 0) 5
theorem test_hyp_synchronisation : Slice0.Reached (regs [(F.PWR_SITE_STS_state 0, 2)]) 0
    ∧ (run { p := 0x81, s := [(1, 8)] }).Executes 0 0 0 false [1] [] ∧ 0 < (run {}).ncores
    ∧ ({ wA with aux := 7 } : IA).legal false false false false false 7 = true ∧ ((run { p := 0x81 }).ctx 0 0).pr 7 = true ∧ ((run {}).ctx 0 0).pr 7 = false
    ∧ ({ wA with a := 1, aux := 7 } : IA).legal false true false false false 7 = true
    -- counts 0, 1 (the last arrival) and 8 (not the last), at a barrier with none waiting
    ∧ ¬ (1 ≤ 0 ∧ 0 ≤ 8) ∧ (Sparse.get ((run {}).core 0).bars {} 7).arrived.length + 1 = 1 ∧ (Sparse.get ((run {}).core 0).bars {} 7).arrived.length + 1 ≠ 8
    ∧ ({ wA with aux := 31 } : IA).legal false false false false false 31 = true
    ∧ (∀ k, k < 8 → ¬ (((run {}).ctx 0 k).st = .waiting ∧ ((run {}).ctx 0 k).wait = .event 31))
    ∧ ((core0 { ctxs := [(0, { st := .running }), (7, { st := .waiting, wait := .event 31 })] }).ctx 0 7).wait = .event 31
    ∧ (core0 { ev := 0x80000000 }).core 0 = { ev := 0x80000000 } ∧ ((core0 { ev := 0x80000000 }).core 0).ev.getLsbD 31 = true
    ∧ ((run {}).core 0).ev.getLsbD 31 = false
    ∧ ((run {}).core 0).running = some 0 ∧ ((run {}).setFld (F.CORE_CTX_SLICE_cycles 0) 0).fld (F.CORE_CTX_SLICE_cycles 0) = 0
    ∧ (sliced.stoppedAt 0 = false ∧ (sliced.core 0).running = some 0 ∧ sliced.fld (F.CORE_CTX_SLICE_cycles 0) ≠ 0 ∧ ((sliced.core 0).nextReady 0).isSome = true) :=
  ⟨⟨by decide, by decide, by decide⟩, executes _ rfl rfl _ _, by decide⟩
/-- A word of each shape that a guard skips, and an illegal one. -/
theorem test_hyp_skippedInstruction : (∀ p ∈ Slice0.wordsA, p.2 { wA with x := true } = false) ∧ (Slice0.wordsA.map (fun p => p.2 wA)).contains true = true
    ∧ (∀ p ∈ Slice0.wordsB, p.2 { wB with rsv := 1 } = false) ∧ (Slice0.wordsB.map (fun p => p.2 wB)).contains true = true := by decide
theorem test_hyp_guardsAndReservedWords : Slice0.Issues (run {}) 0 0 ∧ ({ wA with x := true } : IA).x = true ∧ ({ mTop with x := true } : IM).x = true
    ∧ wX.x = true ∧ ({ core := 0, ctx := 0, x := true } : IT).x = true ∧ ({ core := 0, ctx := 0 } : IT).x = false
    ∧ ((run {}).ctx 0 0).guard 0 true = false ∧ ((run {}).ctx 0 0).guard 7 false = false := ⟨issues0 {} rfl rfl, by decide⟩
theorem test_hyp_fetchAlign : (run { pc := 4 }).issues 0 0 = true ∧ pcOk ((run { pc := 4 }).ctx 0 0).pc = false
    ∧ (run { pc := 0x3000000 }).issues 0 0 = true ∧ pcOk ((run { pc := 0x3000000 }).ctx 0 0).pc = false := by decide
theorem test_hyp_contextFault : 895 < 896 ∧ 7 < 8 ∧ E.ALIGN < 2 ^ 16 ∧ 2 ^ 64 - 1 < 2 ^ 64 ∧ ((run { pc := 0x3FFFFFF }).ctx 0 0).pc < 2 ^ 26 := by decide

/-- Context 0 runs with handle 0 bound to ring 15 of 3 chairs. -/
def ringed (h : Handle) (g : Ring) (x : Ctx) : State :=
  core0 { ctxs := [(0, { x with st := .running, q := [(0, h)] })], rings := [(15, { g with configured := true, cbytes := 64, n := 3 })] }
def prod : Handle := { ring := 15, producer := true, bound := true }
def cons : Handle := { ring := 15, bound := true }
theorem ringOpen (h : Handle) (g : Ring) (hh : h = prod ∨ h = cons ∨ h = { prod with held := some 0 }) (hg : g = {} ∨ g = { pa := 3, pr := 3 } ∨ g = { pa := 1, pr := 1 } ∨ g = { pa := 1 }) :
    Slice0.RingOpen (ringed h g {}) 0 h := by
  rcases hh with rfl | rfl | rfl <;> rcases hg with rfl | rfl | rfl | rfl <;> exact ⟨by decide, by decide, by decide, by decide⟩
theorem test_hyp_ringInstructions :
    -- QCFG of the last ring, at the end of SRAM; of one chair too few; QBIND of ring 15 and of ring 16
    (run { s := [(1, 15), (2, 0x2FFFF40), (3, 64)] }).Executes 0 0 0 false [1, 2, 3] []
    ∧ ({ wA with a := 1, b := 2, c := 3, aux := 3 } : IA).legal false true true true false 0x7F = true
    ∧ (15 ≤ 15 ∧ 0x2FFFF40 % 64 = 0 ∧ 3 ≤ 3 ∧ 3 ≤ 64 ∧ 0x2FFFF40 + 3 * 64 ≤ 0x3000000
      ∧ (∀ k, k < 8 → ∀ h ∈ ((run {}).ctx 0 k).q, h.2.bound = true → h.2.ring ≠ 15)
      ∧ (run {}).endHolder 0 15 true < 2 ∧ (run {}).endHolder 0 15 false < 2)
    ∧ ¬ (3 ≤ fieldOf ({ wA with a := 1, b := 2, c := 3, aux := 2 } : IA).aux 0 7)
    ∧ ({ wA with a := 1, aux := 0x1F } : IA).legal false true false false false 0x1F = true ∧ 15 < (16 : W64).toNat
    -- QACQ: unbound, held, an empty chair for a producer, a full one for a consumer, none for either
    ∧ (ringed prod {} {}).issues 0 0 = true ∧ ({ wA with d := 1 } : IA).legal true false false false false 0xF = true ∧ ((run {}).ctx 0 0).hd 0 = {}
    ∧ Slice0.RingOpen (ringed { prod with held := some 0 } { pa := 1 } {}) 0 { prod with held := some 0 }
    ∧ (Slice0.RingOpen (ringed prod {} {}) 0 prod ∧ (0 + 2 * 3 - 0) % (2 * 3) < 3)
    ∧ (Slice0.RingOpen (ringed cons { pa := 1, pr := 1 } {}) 0 cons ∧ 0 < (1 + 2 * 3 - 0) % (2 * 3))
    ∧ (Slice0.RingOpen (ringed prod { pa := 3, pr := 3 } {}) 0 prod ∧ 3 ≤ (3 + 2 * 3 - 0) % (2 * 3))
    ∧ (Slice0.RingOpen (ringed cons {} {}) 0 cons ∧ (0 + 2 * 3 - 0) % (2 * 3) = 0)
    -- QREL
    ∧ wA.legal false false false false false 0xF = true ∧ ((ringed prod {} {}).ctx 0 0).hd 0 = prod
    ∧ ((ringed { prod with held := some 0 } {} {}).ctx 0 0).hd 0 = { prod with held := some 0 }
    -- releases in order and out of order; nothing in flight
    ∧ (({ n := 3, pr := 5, cr := 5 } : Ring).pdone = [] ∧ ({ n := 3, pr := 5, cr := 5 } : Ring).pr ∉ 0 :: [1] ∧ ({ n := 3, pr := 5, cr := 5 } : Ring).cr ∉ 0 :: [1])
    ∧ ((run {}).inFlight 0 = [] ∧ ((run {}).core 0).chains = [] ∧ ((run {}).core 0).slots = [] ∧ ((run {}).core 0).sq = []
      ∧ ∀ p ∈ ((run {}).core 0).rings, p.2.lists = []) :=
  ⟨executes _ rfl rfl _ _, by decide, by decide, by decide, by decide, by decide, by decide, by decide, by decide,
    ringOpen _ _ (.inr (.inr rfl)) (.inr (.inr (.inr rfl))), ⟨ringOpen _ _ (.inl rfl) (.inl rfl), by decide⟩,
    ⟨ringOpen _ _ (.inr (.inl rfl)) (.inr (.inr (.inl rfl))), by decide⟩, ⟨ringOpen _ _ (.inl rfl) (.inr (.inl rfl)), by decide⟩,
    ⟨ringOpen _ _ (.inr (.inl rfl)) (.inl rfl), by decide⟩, by decide, by decide, by decide, by decide, by decide⟩

/-- Context 0 runs; the stream engine's queue is as given. -/
def queued (q : List SCmd) (h : Handle) (x : Ctx) : State :=
  core0 { ctxs := [(0, { x with st := .running, q := [(0, h)] })], sq := q, rings := [(15, { configured := true, cbytes := 64, n := 3 })] }
def full8 : List SCmd := List.replicate 8 (.remote { op := .rget })
theorem executesQ (q : List SCmd) (h : Handle) (x : Ctx) (hl : x.loads = []) (hp : pcOk x.pc = true) (rs ts : List Nat) :
    (queued q h x).Executes 0 0 0 false rs ts := by
  constructor
  · have h1 : ((queued q h x).ctx 0 0).st = .running := rfl
    have h2 : (0 < (queued q h x).ncores) := Nat.lt_of_lt_of_le (by decide) (show 448 ≤ (queued q h x).ncores by unfold State.ncores; split <;> decide)
    have h3 : (queued q h x).stoppedAt 0 = false := show (core0 {}).stoppedAt 0 = false by decide
    simp [State.issues, h1, h2, h3]
  · exact hp
  · simp [queued, core0, Ctx.guard, Ctx.pr]
  · have h1 : ((queued q h x).ctx 0 0).loads = [] := hl
    simp [Ctx.held, h1]
theorem test_hyp_streamQueue :
    -- QSUB: a full queue; a list of 4,096 descriptors at the end of SRAM for the end that nobody holds
    (queued [] prod { s := [(1, 0x2FE0000), (2, 4096)] }).Executes 0 0 0 false [1, 2] []
    ∧ ({ wA with a := 1, b := 2, pd := 7 } : IA).legal false true true false true 0xF = true
    ∧ 8 ≤ ((queued full8 prod {}).core 0).sq.length ∧ ((queued [] prod {}).core 0).sq.length < 8
    ∧ (0x2FE0000 + 32 * 4096 ≤ 0x3000000 ∧ 0x2FE0000 % 32 = 0 ∧ 4096 ≤ 4096 ∧ prod.bound = true ∧ ((queued [] prod {}).ring 0 15).configured = true
      ∧ ((queued [] prod {}).ring 0 15).aborted = false ∧ (queued [] prod {}).endHolder 0 15 false = 0)
    -- remote instructions: RGET to the end of SRAM, RATOM at an aligned address
    ∧ ({ wA with d := 1, a := 2, b := 3, pd := 1, aux := 0x1E0 } : IA).legal true true true false true 0x1E0 = true
    ∧ ({ wA with d := 1, a := 2, b := 3, c := 4, pd := 1, aux := 9 } : IA).legal true true true true true 0x1FF = true
    ∧ fieldOf ({ wA with aux := 9 } : IA).aux 0 4 ≤ 9 ∧ (0 : W64).toNat % 4 = 0 ∧ 0x2FFFFFF + 1 ≤ 0x3000000
    -- RFENCE
    ∧ ({ wA with pd := 1 } : IA).legal false false false false true 0 = true ∧ ((run {}).core 0).sq = [] ∧ ((run {}).core 0).remoteBusy 0 0 = false
    ∧ ((queued [.remote { op := .rget }] prod {}).core 0).sq ≠ [] :=
  ⟨executesQ _ _ _ rfl rfl _ _, by decide⟩

/-- A descriptor of one FP32 element at offset 0 of SRAM. -/
def dFp : Desc := BitVec.ofNat 256 (2 ^ 230)
def wT : IT := { core := 0, ctx := 0 }
def xT : IT := { core := 0, ctx := 0, x := true }
/-- Context 0 runs and array 0 executes a command with 8 waiting. -/
def busyA0 : State := core0 { ctxs := [(0, { st := .running })], a0 := ⟨some { op := .czero }, List.replicate 8 { op := .czero }⟩ }
theorem test_hyp_unitCommands :
    -- VADD executes with operands in SRAM; CMM of empty descriptors faults; CZERO of a full queue waits; SPSKIP with the directory known
    (run { t := [(0, dFp)] }).Executes 0 0 0 false [] [0, 0, 0] ∧ legalT wT true true true false 0 false true 0 = true
    ∧ elementwise true false wT (run { t := [(0, dFp)] }) (capture .vadd wT ((run { t := [(0, dFp)] }).ctx 0 0)) = none
    ∧ ((run {}).core 0).room .vector = true
    ∧ legalT xT false true true false 7 true false 0xFFF = true
    ∧ cmmCheck xT (run {}) (capture .cmm xT ((run {}).ctx 0 0)) = some E.SPACE ∧ ((run {}).core 0).room .a0 = true
    ∧ busyA0.issues 0 0 = true ∧ (busyA0.core 0).room .a0 = false
    ∧ legalT wT false false false false 0 false false 0 = true ∧ (run {}).snowHeld 0 = false
    ∧ (core0 { ctxs := [(0, { st := .running })], snow := { sizes := [64] } }).snowHeld 0 = true
    -- an operand at the end of SRAM, and no operand
    ∧ ({ op := .ckdig, ta := dFp + 0x3000000 } : UCmd).operands.map (fun o => (o.1.outside o.1.rowBytes, o.1.base)) = [(true, 0x3000000)]
    ∧ ({ op := .spskip } : UCmd).operands = [] :=
  ⟨executes _ rfl rfl _ _, by decide⟩
/-- A Groomer command of two rows whose second record goes to the Snowpack, at the head of both queues. -/
def spills : UCmd := { op := .gnrm, ta := dFp + BitVec.ofNat 256 (2 ^ 80), ext := 131071 }
def spilling : State :=
  { regs [(F.CORE_SNOW_TOP_size 0, 1)] with cores := [(0, { groomer := ⟨some spills, []⟩, snowU := ⟨some spills, []⟩ })] }
/-- Three units of core 0 execute a command. -/
def threeUnits : State := core0 { schuss := ⟨some { op := .smv }, []⟩, vector := ⟨some { op := .vadd }, []⟩, digest := ⟨some { op := .ckdig }, []⟩ }
theorem test_hyp_unitCompletion : busyA0.stoppedAt 0 = false ∧ ((busyA0.core 0).eng .a0).run = some { op := .czero } ∧ ({ op := .czero } : UCmd).chain = none
    ∧ ({ op := .czero } : UCmd).ran = none ∧ ({ op := .czero } : UCmd).spoils = []
    ∧ ({ op := .czero, ran := some (false, false, false, false) } : UCmd).ran = some (false, false, false, false)
    ∧ snowPopOpen (core0 { snowU := ⟨some { op := .spskip }, []⟩ }) 0 = true
    ∧ (∀ u ∈ [UnitId.schuss, .vector, .digest], ((threeUnits.core 0).eng u).run.isSome = true)
    ∧ (((core0 { groomer := ⟨some { op := .gnrm }, []⟩ }).core 0).eng .groomer).run = some { op := .gnrm } ∧ ({ op := .gnrm } : UCmd).spillRows = 0
    ∧ (((core0 { snowU := ⟨some { op := .spskip }, []⟩ }).core 0).eng .snow).run = some { op := .spskip }
    ∧ (({ op := .spush, ta := dFp } : UCmd).op = .spush ∧ snowFits spilling 0 ({ op := .spush, ta := dFp } : UCmd).tA.bytes = true)
    ∧ (spilling.stoppedAt 0 = false ∧ (spilling.core 0).groomer.run = some spills ∧ spills.chain = none ∧ spills.spillRows ≠ 0
      ∧ groomSnowReady spilling 0 spills = true)
    ∧ { busyA0 with stopAll := true }.stoppedAt 0 = true ∧ (run {}).inFlight 0 = []
    ∧ (core0 { schuss := ⟨some { op := .smv }, []⟩ }).inFlight 0 = [(.schuss, { op := .smv })]
    -- completions: of another start, of the running program, of a context that waits for it
    ∧ ((run {}).ctx 0 0).inc ≠ 1 ∧ 0 < 7 ∧ ((run {}).ctx 0 0).inc = 0 ∧ ((run {}).ctx 0 0).st ≠ .free ∧ ((run {}).ctx 0 7).st = .free
    ∧ ¬ (((run {}).ctx 0 0).st = .waiting ∧ ((run {}).ctx 0 0).wait = .pred 7)
    ∧ ((core0 { ctxs := [(0, { st := .waiting, wait := .pred 7 })] }).ctx 0 0) = { st := .waiting, wait := .pred 7 } := by decide
/-- A tensor of two rows of one element; CMM of two rows, CZERO of one row, CDRN of one element. -/
def ta2 : Desc := dFp + BitVec.ofNat 256 (2 ^ 80)
def cmmZ : UCmd := { op := .cmm, ta := ta2 }
def zeroX (r : Nat) : UCmd := { op := .czero, ext := BitVec.ofNat 64 r }
def drainX : UCmd := { op := .cdrn, td := dFp }
/-- Array 0 executes a CMM behind which `x` waits. -/
def behindCmm (x : UCmd) : State := core0 { a0 := ⟨some cmmZ, [x]⟩ }
theorem test_hyp_endsBehind : (behindCmm (zeroX 0)).stoppedAt 0 = false ∧ (((behindCmm (zeroX 0)).core 0).eng .a0).run = some cmmZ
    ∧ (((behindCmm (zeroX 0)).core 0).eng .a0).queue[0]? = some (zeroX 0) ∧ (zeroX 0).chain = none
    ∧ (∀ r ∈ [0, 100], mayPass (behindCmm (zeroX r)) 0 [cmmZ] (zeroX r) = true) ∧ mayPass (behindCmm cmmZ) 0 [cmmZ] cmmZ = false
    ∧ (∀ z ∈ [cmmZ], drainsEarly z (zeroX 100) = false) := by decide
theorem test_hyp_passRules : sramMeet State.reset 0 drainX cmmZ = true ∧ sramMeet State.reset 0 cmmZ (zeroX 0) = false
    ∧ (cmmZ.drains = false ∧ cmmZ.heron = false ∧ cmmZ.op ≠ .chb ∧ (zeroX 0).drains = true ∧ cmmZ.chain = none)
    ∧ overlap (accTouch cmmZ) (accTouch (zeroX 100)) = false ∧ overlap (accTouch cmmZ) (accTouch (zeroX 0)) = true
    ∧ overlap [lastWrite cmmZ] (accTouch (zeroX 0)) = false ∧ overlap [lastWrite cmmZ] (accTouch (zeroX 1)) = true := by decide

/-- Core 0's array 0 holds 1.0 in column 0 of row 0. -/
def stored1 : State := { State.reset with acc := [(0, [(0, { wacc := false, tile := false, val := 0x3F800000 })])] }
theorem test_hyp_products : cmmZ.row + cmmZ.tA.n1 ≤ accCap cmmZ.wacc false ∧ cmmZ.tB.k1 ≤ 128 ∧ 0 < cmmZ.tA.n1 ∧ 0 < cmmZ.tB.k1 ∧ cmmZ.accBit = false
    ∧ ({ op := .cmm, ta := ta2, ctl := 4 } : UCmd).accBit = true ∧ (stored1.accOf 0 0).head? = some (0, { wacc := false, tile := false, val := 0x3F800000 })
    ∧ (({ op := .chb, ta := ta2 } : UCmd).tno < accCap false true ∧ ({ op := .chb, ta := ta2 } : UCmd).tA.n0 ≤ 128 ∧ 0 < ({ op := .chb, ta := ta2 } : UCmd).tB.n0)
    ∧ (({ op := .cbwd, ctl := 8 } : UCmd).frz = true ∧ ({ op := .cbwd, ext := 0x1F0000 } : UCmd).frz = false
      ∧ overlap [accSpan false false 0 1] [accSpan false true ({ op := .cbwd, ext := 0x1F0000 } : UCmd).tno 1] = false
      ∧ ({ op := .cbwd, ext := 0x1F0000 } : UCmd).tno < accCap false true ∧ ({ op := .cbwd } : UCmd).tA.n1 = 1 ∧ ({ op := .cbwd } : UCmd).tB.k0 ≤ 128) := by decide
theorem test_hyp_vectorResults : ({ op := .vcvt, ta := ta2, td := dFp } : UCmd).tA.fmt = 0 ∧ ({ op := .vcvt, ta := ta2, td := dFp } : UCmd).tD.fmt = 0
    ∧ ({ op := .vgbq } : UCmd).tD.srecEn = false ∧ State.reset.red.upset = 0
    ∧ ∀ p ∈ [(State.reset.gblks 0 ({ op := .vgba } : UCmd).tA, State.reset.gblks 0 ({ op := .vgba } : UCmd).tB)], ∀ q ∈ p.1.zip p.2, failedCheck 0 (gbAdd q.1 q.2) = 0 := by
  decide
theorem test_hyp_groomerResults : ([Val.zero] : List Val).any Val.isNan = false ∧ [Val.zero].length = [Val.one].length ∧ ([Val.nan] : List Val).any Val.isNan = true
    ∧ ((List.range [Val.zero].length).filter (fun j => !(fun _ => false) j)).map (fun j => [Val.zero].getD j .zero) = [Val.zero]
    ∧ (∀ j < [Val.zero].length, (fun _ : Nat => true) j = true)
    ∧ ({ op := .gnrm, ta := ta2, ctl := 16 } : UCmd).stats = false ∧ (({ op := .gsmx, ta := ta2 } : UCmd).stats = true ∧ ({ op := .gsmx, ta := ta2 } : UCmd).spillRows = 0)
    ∧ ({ op := .gnrm, ta := ta2, ext := 131071 } : UCmd).spillRows ≠ 0 ∧ ({ op := .gnrmb, ta := ta2 } : UCmd).spillRows = 0 := by decide
theorem test_hyp_rowsWritten : let t := ({ op := .vadd, td := ta2 } : UCmd).tD
    isMx t.fmt = false ∧ t.fmt ≠ 0x0A ∧ t.srecEn = false ∧ t.space = 1 ∧ MemOk State.reset ∧ [Val.one, .one].length = t.count ∧ 1 < t.rows
    ∧ (∀ q, q < t.rows → Slice0.OffSnow State.reset (localAddr 0 t.space (t.rowAddr q)) t.rowBytes)
    ∧ (∀ q, 1 < q → q < t.rows → t.rowAddr q + t.rowBytes ≤ t.rowAddr 1 ∨ t.rowAddr 1 + t.rowBytes ≤ t.rowAddr q)
    ∧ Slice0.OffSnow State.reset (localAddr 0 1 0x2FFFFC0) 64 := by
  refine ⟨by decide, by decide, by decide, by decide, by decide, by decide, by decide, fun q _ => ⟨rfl, rfl⟩, ?_, ⟨rfl, rfl⟩⟩
  intro q h1 h2
  have : ({ op := .vadd, td := ta2 } : UCmd).tD.rows = 2 := by decide
  omega
theorem test_hyp_zeroes : (({ op := .czero, ctl := 16, ext := 0x3E00000 } : UCmd).tile = true
      ∧ ({ op := .czero, ctl := 16, ext := 0x3E00000 } : UCmd).tno + ({ op := .czero, ctl := 16, ext := 0x3E00000 } : UCmd).cnt = accCap false true)
    ∧ ({ op := .czero, ext := 0x1FFE00000 } : UCmd).tile = false
    ∧ ({ op := .czero, ext := 0x1FFE00000 } : UCmd).row + ({ op := .czero, ext := 0x1FFE00000 } : UCmd).cnt = accCap false false
    ∧ ({ op := .czero, ctl := 2, ext := 0x7FE00000 } : UCmd).row + ({ op := .czero, ctl := 2, ext := 0x7FE00000 } : UCmd).cnt = accCap true false := by decide

/-- A Slalom record of one gate, SPOP to t0, at offset 0 of SRAM, while the directory knows no record of the Snowpack. -/
def slmPop : State :=
  { core0 { ctxs := [(0, { st := .running, t := [(0, dFp)] })], snow := { sizes := [64] } } with
    mem := Mem.write (Mem.write (Mem.write State.reset.mem 0x20000000000 1) 0x20000000047 0x48) 0x20000000043 1 }
theorem test_hyp_slalomHeld : slmPop.issues 0 0 = true ∧ slmFault slmPop 0 0 0 = none
    ∧ gatesHeld 0 ((slmRec slmPop 0 0 0).toGates (slmPop.ctx 0 0) 0) slmPop = true := by decide
/-- A Slalom record of one gate, VADD of t0 to t0, at offset 0 of SRAM. -/
def slmMem : Mem := Mem.write (Mem.write State.reset.mem 0x20000000000 1) 0x20000000047 0x40
def slm1 (q : List UCmd) : State :=
  { core0 { ctxs := [(0, { st := .running, t := [(0, dFp)] })], vector := ⟨some { op := .vadd }, q⟩ } with mem := slmMem }
theorem test_hyp_slalomCommand : (slm1 []).issues 0 0 = true ∧ ({ wA with a := 1, pd := 1 } : IA).legal false true false false true 0 = true
    ∧ slmFault (run {}) 0 0 0 = some (E.SLM_REC, 0) ∧ slmFault (slm1 []) 0 0 0 = none
    ∧ slmRoom ((slm1 []).core 0) (slmRec (slm1 []) 0 0 0) ((slmRec (slm1 []) 0 0 0).toGates ((slm1 []).ctx 0 0) 0) = true ∧ gatesHeld 0 ((slmRec (slm1 []) 0 0 0).toGates ((slm1 []).ctx 0 0) 0) (slm1 []) = false
    ∧ slmRoom ((slm1 (List.replicate 8 { op := .vadd })).core 0) (slmRec (slm1 []) 0 0 0) ((slmRec (slm1 []) 0 0 0).toGates ((slm1 []).ctx 0 0) 0) = false
    ∧ ((core0 { chains := [{ id := 0, gates := [], fin := true }] }).settle 0).stoppedAt 0 = false
    ∧ (((core0 { chains := [{ id := 0, gates := [], fin := true }] }).settle 0).core 0).chains.find?
        (fun c => c.over (((core0 { chains := [{ id := 0, gates := [], fin := true }] }).settle 0).core 0)) = some { id := 0, gates := [], fin := true } := by decide

/-- Slot 7 of core 0 waits for the 64 bytes of an RGET, from another node and from edge memory of this engine. -/
def far : XSlot := { op := .rget, len := 64, req := some { len := 64, stage := .wait, tag := some 3 } }
def near (a : Nat) : XSlot := { op := .rget, len := 64, req := some { len := 64, stage := .wait, phys := some a } }
def slotted (v : XSlot) : State := core0 { slots := [(7, v)] }
theorem test_hyp_streamAnswer : (slotted far).stoppedAt 0 = false ∧ waitingReq (slotted far) 0 23 0 = far.req ∧ waitingReq (slotted far) 0 22 0 = none
    ∧ (∀ q ∈ far.req, q.phys = none ∧ q.tag = some 3) ∧ (∀ q ∈ (near 0).req, q.phys = some 0)
    ∧ (slotted (near 0)).fabOpen 0 0 (reqVc (slotted (near 0)) 0 23) = true
    ∧ ({ slotted (near 0) with fab := jam 0 0x400 0 }.fabOpen 0 0 (reqVc { slotted (near 0) with fab := jam 0 0x400 0 } 0 23) = false
      ∧ { slotted (near 0) with fab := jam 0 0x400 0 }.stoppedAt 0 = false ∧ waitingReq { slotted (near 0) with fab := jam 0 0x400 0 } 0 23 0 = (near 0).req)
    ∧ (slotted (near 0x1FFFFFFFFF0)).fabOpen 0 0x1FFFFFFFFF0 (reqVc (slotted (near 0x1FFFFFFFFF0)) 0 23) = true
    ∧ (∀ q ∈ (near 0).req, (reqAccess 0 23 0 q (slotted (near 0))).2 = .ok (List.replicate 64 0))
    ∧ (∀ q ∈ (near 0x1FFFFFFFFF0).req, (reqAccess 0 23 0x1FFFFFFFFF0 q (slotted (near 0x1FFFFFFFFF0))).2 = .fail E.ADDR_UNMAPPED)
    ∧ ((core0 { rings := [(15, { lists := [{ inbound := true, base := 0, count := 1, reqs := [{ len := 64, stage := .wait }] }] })] }).ring 0 15).lists
        = [{ inbound := true, base := 0, count := 1, reqs := [{ len := 64, stage := .wait }] }]
    ∧ ([{ len := 64, stage := .wait }] : List Req)[0]? = some { len := 64, stage := .wait } ∧ ([{ len := 64, stage := .wait }] : List Req)[1]? = none
    ∧ Sparse.find ((slotted far).core 0).slots 7 = some far ∧ far.op = .rget ∧ (List.replicate 64 (0 : Byte)).length = 64
    -- a failure: the context still runs the program that issued it
    ∧ ((run {}).ctx 0 far.ctx).inc = far.inc ∧ ((run {}).ctx 0 far.ctx).st ≠ .free ∧ ((run {}).ctx 0 far.ctx).rfail = false := by decide

/-- Slot 7 writes a byte into core 0's window, which is closed, or in HOLD. -/
def putReq : Req := { len := 1, data := [7], stage := .wait, phys := some 0x20000000000 }
def putting : XSlot := { op := .rput, len := 1, req := some putReq }
theorem test_hyp_requestAbsorbed : (slotted putting).fabOpen 0 0x20000000000 (reqVc (slotted putting) 0 23) = true ∧ (reqAccess 0 23 0x20000000000 putReq (slotted putting)).2 = .lost
    ∧ (reqAccess 0 23 0x20000000000 putReq { regs [(F.PWR_SITE_STS_state 0, 2), (F.PWR_STS_hold, 1)] with cores := [(0, { slots := [(7, putting)] })] }).2 = .wait
    ∧ ({ stage := .wait } : Req).phys = none ∧ ({ stage := .wait } : Req).tag = none := by decide

/-- A Snowpack of core 0 with a top of 64 KiB and a body of 64 KiB, as the control processor and the unit see it; the unit executes a command. -/
def snowy (w : Snow) (x : Option UCmd) : State :=
  { regs [(F.CORE_SNOW_TOP_size 0, 1), (F.CORE_SNOW_BODY_size 0, 16)] with cores := [(0, { snow := w, snowU := ⟨x, []⟩ })] }
/-- A push of 40,000 bytes waits for the top, which holds one empty record; the stack's only record lies below the top. -/
def pushing : State := snowy { depth := 64, top := List.replicate 64 0, recs := [0] } (some { op := .spush, ta := dFp + BitVec.ofNat 256 (9999 * 2 ^ 64) })
def sunken : State := snowy { depth := 64, recs := [0] } none
theorem test_hyp_snowpack : ((snowy {} none).snowCfg 0).ok (snowy {} none).edgeSize = true ∧ snowPushFault (snowy {} none) 0 65472 = none
    ∧ snowPushFault (snowy {} none) 0 65473 = some E.SNOW_FULL ∧ ((snowy {} none).snow 0).sizes = [] ∧ ((snowy { sizes := [64] } none).snow 0).sizes = [64]
    -- thresholds of a top of 4 bytes at 4, 2, 0 and 1 bytes
    ∧ (3 * 4 < 4 * (List.replicate 4 (0 : Byte)).length ∧ 2 * (List.replicate 2 (0 : Byte)).length ≤ 4 ∧ 4 * ([] : List Byte).length < 4 ∧ 4 ≤ 2 * 2)
    ∧ ((snowy {} none).stoppedAt 0 = false ∧ snowSpills (snowy {} none) 0 = false ∧ snowRefills (snowy {} none) 0 = false)
    ∧ (pushing.stoppedAt 0 = false ∧ snowSpills pushing 0 = true ∧ snowSpoilt (pushing.kick 0) 0 = false ∧ (pushing.kick 0).clear 0 64 = true
      ∧ (pushing.kick 0).bodyHit (some 0) 0 64 = false ∧ (pushing.kick 0).fabOpen 0 0 2 = true
      ∧ ({ pushing with fab := jam 0 0x400 2 }.kick 0).fabOpen 0 0 2 = false ∧ snowSpills { pushing with fab := jam 0 0x400 2 } 0 = true)
    ∧ (sunken.stoppedAt 0 = false ∧ snowRefills sunken 0 = true ∧ snowSpoilt (sunken.kick 0) 0 = false ∧ (sunken.kick 0).fabOpen 0 0 0 = true
      ∧ ({ sunken with fab := jam 0 0x400 0 }.kick 0).fabOpen 0 0 0 = false ∧ snowRefills { sunken with fab := jam 0 0x400 0 } 0 = true)
    ∧ ((snowy { dirWait := true, sizes := [64] } none).snow 0).dirWait = true ∧ ((snowy {} none).snow 0).dirWait = false := by decide

/-! ### Registers of a core -/

/-- Core 0 at a site in a power state; HOLD where asked; its contexts and rings as given. -/
def atSite (p hold : Nat) (c : Core) : State := { regs [(F.PWR_SITE_STS_state 0, p), (F.PWR_STS_hold, hold)] with cores := [(0, c)] }
theorem reachedAt (c : Core) (p : Nat) (hp : p = 2 ∨ p = 3) : Slice0.Reached (atSite p 0 c) 0 := by
  have h := (show Slice0.Reached (regs [(F.PWR_SITE_STS_state 0, 2), (F.PWR_STS_hold, 0)]) 0 from ⟨by decide, by decide, by decide⟩)
  have h' := (show Slice0.Reached (regs [(F.PWR_SITE_STS_state 0, 3), (F.PWR_STS_hold, 0)]) 0 from ⟨by decide, by decide, by decide⟩)
  rcases hp with rfl | rfl
  · exact ⟨h.1, h.2, h.3⟩
  · exact ⟨h'.1, h'.2, h'.3⟩
theorem test_hyp_contextControl : Slice0.Reached (atSite 2 0 { ctxs := [(0, { st := .running }), (7, { st := .faulted })] }) 0
    ∧ ((atSite 2 0 {}).ctx 0 7).st = .free ∧ ((atSite 2 0 { ctxs := [(0, { st := .running })] }).ctx 0 0).st ≠ .free
    -- a site in RET; a core that does not exist; a port that takes no packets; HOLD
    ∧ (0 < (atSite 1 0 {}).ncores ∧ (atSite 1 0 {}).fld (F.PWR_SITE_STS_state ((atSite 1 0 {}).fld (F.CORE_MAP_ENTRY_site 0))) = 1)
    ∧ State.reset.ncores ≤ (896 : BitVec 10).toNat ∧ ((895 : BitVec 10).toNat < State.reset.ncores ∧ State.reset.portOpen 895 = false
      ∧ State.reset.sitePower (State.reset.siteOf 895) ≠ 1)
    ∧ (0 < (atSite 2 1 {}).ncores ∧ (atSite 2 1 {}).portOpen 0 = true ∧ (atSite 2 1 {}).flag F.PWR_STS_hold = true)
    -- context 7 FAULTED and named; context 0 RUNNING and named
    ∧ ((0x80 : W64).getLsbD 7 = true ∧ ((atSite 2 0 { ctxs := [(7, { st := .faulted })] }).ctx 0 7).st = .faulted)
    ∧ ((1 : W64).getLsbD 0 = true ∧ ((atSite 2 0 { ctxs := [(0, { st := .running })] }).ctx 0 0).st ≠ .faulted) :=
  ⟨reachedAt _ 2 (.inl rfl), by decide⟩
theorem test_hyp_coreControl : Slice0.Reached (atSite 2 0 { rings := [(15, { halt := some 1 })] }) 0
    ∧ Slice0.Reached (atSite 3 0 { slots := [(7, { far with halt := some (1, 0) })] }) 0
    ∧ (∀ p ∈ ((atSite 2 0 {}).core 0).ctxs, p.2.st = .free) ∧ ((atSite 2 0 {}).core 0).sq = [] ∧ ((atSite 2 0 {}).core 0).vector.queue = []
    ∧ ¬ (∀ p ∈ ((atSite 2 0 { ctxs := [(0, { st := .running })] }).core 0).ctxs, p.2.st = .free)
    ∧ (0x8000000000000000 : W64).getLsbD 63 = true ∧ (0 : W64).getLsbD 63 = false
    ∧ State.reset.flag F.PWR_STS_hold = false ∧ (atSite 2 1 {}).flag F.PWR_STS_hold = true
    ∧ ((atSite 2 0 { rings := [(15, { halt := some 1 })] }).ring 0 15).halt.isSome = true ∧ ((atSite 2 0 {}).ring 0 15).halt = none
    ∧ ((atSite 2 0 {}).core 0).chains = [] ∧ ((atSite 2 0 {}).ring 0 15).aborted = false ∧ ((atSite 2 0 { rings := [(15, { aborted := true })] }).ring 0 15).aborted = true
    ∧ Sparse.find ((atSite 3 0 { slots := [(7, { far with halt := some (1, 0) })] }).core 0).slots 7 = some { far with halt := some (1, 0) }
    ∧ Sparse.find ((atSite 2 0 { slots := [(7, far)] }).core 0).slots 7 = some far ∧ far.halt = none :=
  ⟨reachedAt _ 2 (.inl rfl), reachedAt _ 3 (.inr rfl), by decide⟩

/-- A Slalom command of one CMM gate on core 0, whose site is OFF, of context 0 with predicate 7. -/
def chained : State :=
  core0 { ctxs := [(0, { st := .running })], chains := [{ id := 0, gates := [{ units := [.a0], cmd := cmmZ }], pd := 7, inRing := some 15 }] }
theorem test_hyp_slalomAbort : (chained.core 0).chain 1 = none ∧ (chained.core 0).chain 0 = some { id := 0, gates := [{ units := [.a0], cmd := cmmZ }], pd := 7, inRing := some 15 }
    ∧ chained.sitePower (chained.siteOf 0) ≠ 2 ∧ (chained.ctx 0 0).inc = 0 ∧ (chained.ctx 0 0).st ≠ .free ∧ cmmZ.op = .cmm
    ∧ ({ units := [.a0], cmd := { op := .chb } } : Gate).cmd.op = .chb
    ∧ ((chained.core 0).chains.filter (fun ch => ch.gates.any (fun e => e.ring = some 15) || ch.inRing = some 15 || ch.outRing = some 15)).map (·.id) = [0] := by decide

/-! ### Votes, decisions, failures -/

/-- Memory with numbers of some bytes written: address, width, value. -/
def poke (l : List (Nat × Nat × Nat)) (m : Mem) : Mem :=
  l.foldl (fun m e => (leBytes e.2.1 e.2.2).zipIdx.foldl (fun m b => Mem.write m (e.1 + b.2) b.1) m) m

/-- Training mode; the phase of CKPT as given. -/
def training (p : Nat) : State := regs [(F.CKPT_STS_phase, p), (F.CKPT_VOTE_NCORES, 2)]
/-- Context 0 runs in a state. -/
def runIn (s : State) : State := { s with cores := [(0, { ctxs := [(0, { st := .running })] })] }
/-- This engine is node 0, the vote root; its Shadow is node 9; a phase and CKPT's state. -/
def voting (p : Nat) (c : Ckpt) : State :=
  { regs [(F.DEV_NODE_ID_node_id, 0), (F.CKPT_STS_phase, p), (F.CKPT_VOTE_NCORES, 2)] with mem := poke [(4, 4, 9)] ⟨[], []⟩, ckpt := c }
/-- A clean tensor of the Freeze method on page 0. -/
def cleanT : CDesc := { tid := 0, base := 0, bytes := 1, owner := 0, freeze := true, held := false, clean := some 1 }
/-- A vote: poison flags, step, node and a byte of the membership digest. -/
def vote (psn step node dig : Nat) : List Byte :=
  [2, BitVec.ofNat 8 psn] ++ List.replicate 6 0 ++ leBytes 8 step ++ leBytes 4 node ++ List.replicate 12 0 ++ List.replicate 16 (BitVec.ofNat 8 dig) ++ List.replicate 16 0
/-- The root decides for member 9. -/
def deciding (pol : Nat) (ms : List Nat) (heir : Bool) (vs : List (List Byte)) : State :=
  (voting 1 { members := ms, heir := heir, votes := vs }).setFld F.RED_POISON_CFG_policy pol
theorem test_hyp_stepVotes : (runIn (training 1)).issues 0 0 = true ∧ ({ wA with d := 7, a := 1, pd := 1 } : IA).legal true true false false true 0 = true
    ∧ (regs [(F.DEV_EXEC_CFG_mode, 1)]).fld F.DEV_EXEC_CFG_mode = 1 ∧ (training 1).fld F.DEV_EXEC_CFG_mode ≠ 1
    ∧ { training 1 with red := { halted := true } }.red.halted = true ∧ (training 1).red.halted = false
    ∧ { training 1 with ckpt := { stored := some (0, 1) } }.ckpt.stored = some (0, 1) ∧ (training 1).ckpt.stored = none
    ∧ 1 ≠ (training 1).fld F.CKPT_STEP_step ∧ 0 = (training 1).fld F.CKPT_STEP_step
    -- the first core's vote of two, the same core's second one, and the vote of the last core
    ∧ ((training 1).ckpt.cast = [] ∧ ([0] : List Nat).length < Nat.max 1 ((training 1).fld F.CKPT_VOTE_NCORES) ∧ 0 ∈ { training 1 with ckpt := { cast := [0] } }.ckpt.cast)
    ∧ Nat.max 1 ((training 1).fld F.CKPT_VOTE_NCORES) ≤ ({ training 1 with ckpt := { cast := [1] } }.ckpt.cast ++ [0]).length ∧ (training 1).fld F.CKPT_STS_phase = 1
    -- a candidate that waits for a dirty notice, and one that is stored
    ∧ ((voting 2 { descs := [cleanT] }).fld F.CKPT_STS_phase = 2 ∧ (voting 2 { descs := [cleanT] }).ckpt.mirror = none
      ∧ (voting 2 { descs := [cleanT] }).clear 0 64 = false ∧ (voting 2 {}).clear 0 64 = true ∧ (voting 2 {}).fld F.CKPT_BASE_addr + 1 * 0 = 0)
    -- the vote leaves, of the root and of another engine; an update or a mirror is awaited; the timer
    ∧ ((voting 2 { mirror := some 0 }).updDone = true ∧ (voting 2 { mirror := some 0 }).red.bad = false
      ∧ (voting 2 {}).isSelf (voting 2 {}).rootNode = true ∧ (training 2).isSelf (training 2).rootNode = false)
    ∧ (training 1).fld F.CKPT_STS_phase ≠ 2 ∧ (training 1).fld F.CKPT_STS_phase ≠ 4 ∧ (voting 2 { mirror := some 1 }).ckpt.mirror ≠ some 0
    ∧ ((voting 1 { timer := true }).ckpt.timer = true ∧ (voting 1 { heir := true }).ckpt.heir = true ∧ (voting 1 {}).fld F.CKPT_STS_phase = 1)
    -- the root: an earlier step, a node that is no member, a second vote; zeros; votes that agree and are clean; one poisoned; one that differs
    ∧ (numAt (vote 0 0 9 0) 8 8 = 0 ∧ numAt (vote 0 0 9 0) 16 4 = 9 ∧ (vote 0 0 9 0).length = 64 ∧ ((vote 0 0 9 0).drop 32).take 16 = List.replicate 16 0)
    ∧ (9 ∉ (deciding 0 [] false []).ckpt.members ∧ 9 ∈ (deciding 0 [9] false []).ckpt.members ∧ (deciding 0 [9] false []).ckpt.aborted = false
      ∧ (deciding 0 [9] false []).fld F.CKPT_STS_phase = 1 ∧ (deciding 0 [9] false []).fld F.CKPT_STEP_step = 0)
    ∧ (numAt (vote 0 0 9 1) 1 1 % 4 = 0 ∧ numAt (vote 1 0 9 1) 1 1 % 4 ≠ 0 ∧ numAt (vote 0 1 9 1) 8 8 ≠ 0
      ∧ ((vote 0 0 9 1).drop 32).take 16 ≠ List.replicate 16 0 ∧ numAt (vote 0 0 8 1) 16 4 ≠ 9)
    ∧ (∀ k < 3, (deciding k [9] false []).fld F.RED_POISON_CFG_policy = k) ∧ (deciding 0 [9] true []).ckpt.heir = true := by
  decide
theorem memberRec_none (s : State) (step : Nat) (h : s.fld F.CKPT_SREC_CFG_count = 0) : memberRec s step = memberHdr s step false := by
  simp [memberRec, State.srecLen, h, Mem.bytes]
theorem test_hyp_candidates : (memberRec (voting 2 {}) 1).length = 64 ∧ (ckPuts 0 1 none 0 (memberRec (voting 2 {}) 1) (voting 2 {})).2.2 = false := by
  rw [memberRec_none _ _ (by decide +kernel)]; decide +kernel

theorem test_hyp_stepDecisions :
    -- a rollback begins; it waits in HOLD, for the decision and for a failed core; it ends
    ((training 4).fld F.CKPT_STS_phase = 4 ∧ (training 4).flag F.PWR_STS_hold = false ∧ (training 4).ckpt.rolled = false ∧ (training 4).updDone = true)
    ∧ ((training 4).setFld F.PWR_STS_hold 1).flag F.PWR_STS_hold = true
    ∧ ({ training 4 with ckpt := { rolled := true } }.ckpt.rolled = true ∧ { training 4 with ckpt := { rolled := true } }.ckpt.aborted = false
      ∧ { training 4 with dead := [0] }.dead ≠ [])
    ∧ ({ training 4 with ckpt := { rolled := true, aborted := true } }.ckpt.rolled = true ∧ (training 4).dead = [])
    ∧ (training 4).red.dropped = false ∧ (training 1).fld F.CKPT_STS_phase ≠ 4
    -- decisions for the step in flight, with none of the other work of a decision; for another step
    ∧ ((⟨1, false, false, 0, 0⟩ : Decision).step = (training 1).fld F.CKPT_STEP_step ∧ (training 1).fld F.CKPT_STS_phase ≠ 0
      ∧ (training 1).fld F.CKPT_STS_phase ≠ 5 ∧ (training 1).ckpt.aborted = false ∧ (training 1).ckpt.buddy = none ∧ (training 1).ckpt.voters = [])
    ∧ (∀ k ∈ [1, 2, 3, 4], (⟨k, false, false, 0, 0⟩ : Decision).outcome = k) ∧ (⟨1, false, false, 0, 1⟩ : Decision).step ≠ (training 1).fld F.CKPT_STEP_step := by
  decide
/-- Context 0 of core 0 runs, and what waits for the end of HOLD. -/
def holding (h : Nat) (l : List Later) : State := { runIn (regs [(F.PWR_STS_hold, h)]) with later := l }
theorem test_hyp_votersAnswered : (holding 1 []).flag F.PWR_STS_hold = true ∧ (holding 0 []).flag F.PWR_STS_hold = false
    -- a vote of an earlier start, of a context that has ended, of one that goes on
    ∧ ((holding 0 []).ctx 0 0).inc ≠ 1 ∧ ((holding 0 []).ctx 0 7).st = .free ∧ (((holding 0 []).ctx 0 0).inc = 0 ∧ ((holding 0 []).ctx 0 0).st ≠ .free ∧ 1 ≠ 7)
    ∧ (holding 0 [.event 0 31]).later = [.event 0 31] ∧ (holding 0 [.answer ⟨0, 0, 0, 1, 7⟩ 1]).later = [.answer ⟨0, 0, 0, 1, 7⟩ 1] := by decide
theorem test_hyp_nextStepAbandoned : (training 1).fld F.CKPT_STS_phase ≠ 4
    ∧ ((training 4).fld F.CKPT_STS_phase = 4 ∧ (training 4).ckpt.voted = false ∧ (training 4).ckpt.aborted = false ∧ (training 4).isSelf (training 4).rootNode = false)
    ∧ ((voting 4 {}).fld F.CKPT_STS_phase = 4 ∧ (voting 4 {}).ckpt.voted = false ∧ (voting 4 {}).ckpt.aborted = false ∧ (voting 4 {}).isSelf (voting 4 {}).rootNode = true) := by decide

/-- Core 7 sits at site 15 of field 0, in RUN; every other site of field 0 is OFF. -/
def beating (c : Nat) : State :=
  { regs [(F.PWR_SITE_STS_state 15, 3), (F.CORE_MAP_SITE_STATE_state 15, 0), (F.CORE_MAP_SITE_STATE_core 15, 7), (F.CORE_MAP_ENTRY_site 7, 15)] with miss := Sparse.put [] 15 c }
/-- Core 0, at site 0, has failed, in a phase of CKPT; the converters are on. Then its site is RETIRED. -/
def failing (ph : Nat) : State :=
  { (State.reset.setFld (F.CORE_MAP_SITE_STATE_state 0) 0).setFld F.CKPT_STS_phase ph with dead := [0], pwr := { State.reset.pwr with off := false } }
def retiring (ph : Nat) : State := (siteOff ((failing ph).siteOf 0) (failing ph)).setSite ((failing ph).siteOf 0) siRetired 0

/-- The spare of R25 for core 0 is site 1, the nearest of its field. -/
theorem nearest (s : State) (hk : s.keptHalf = none) (h1 : s.siteState 1 = siSpare) (h0 : s.siteState 0 ≠ siSpare) :
    Slice0.takeSpare [] (s, []) 0 = (spareStart 0 1 s, []) := by
  have hmin : (List.range 1024).all (fun q => decide (q = 0 ∨ q = 1 ∨ spareKey 0 1 < spareKey 0 q)) = true := by decide +kernel
  have hhome : homeField none 0 = 0 := by decide
  unfold Slice0.takeSpare
  simp only [hk, hhome, true_or, and_true, List.any_nil]
  generalize ho : ((List.range 1024).filter (fun p => decide (s.siteState p = siSpare))).mergeSort
    (fun p q => decide (spareKey 0 p ≤ spareKey 0 q)) = order
  have hbad : order.takeWhile (fun _ => false) = [] := by cases order <;> simp
  have hmem : ∀ q, q ∈ order ↔ (q < 1024 ∧ s.siteState q = siSpare) := by intro q; rw [← ho]; simp
  have hsort : order.Pairwise (fun p q => decide (spareKey 0 p ≤ spareKey 0 q) = true) := by
    rw [← ho]; apply List.pairwise_mergeSort
    · intro a b c; simp only [decide_eq_true_eq]; omega
    · intro a b; simp only [Bool.or_eq_true, decide_eq_true_eq]; omega
  simp only [hbad, List.foldl_nil, List.length_nil, List.drop_zero]
  have h1m : 1 ∈ order := (hmem 1).2 ⟨by decide, h1⟩
  cases hl : order with
  | nil => rw [hl] at h1m; cases h1m
  | cons a l =>
    have ha := (hmem a).1 (by rw [hl]; simp)
    have hle : spareKey 0 a ≤ spareKey 0 1 := by
      rw [hl] at h1m hsort
      rcases List.mem_cons.1 h1m with h | h
      · rw [h]
      · simpa using List.rel_of_pairwise_cons hsort h
    have := (List.all_eq_true.1 hmin) a (by simp [ha.1])
    simp only [decide_eq_true_eq] at this
    obtain rfl : a = 1 := by
      rcases this with h | h | h
      · rw [h] at ha; exact absurd ha.2 h0
      · exact h
      · omega
    rfl
/-- With every site failing its self-test no core finds a spare. -/
theorem noSpare (s : State) (n : Nat) : (Slice0.takeSpare ((List.range 1024).map (BitVec.ofNat 10)) (s, []) n).2 = [n] := by
  unfold Slice0.takeSpare
  dsimp only
  generalize ho : List.mergeSort _ _ = order
  have hall : order.takeWhile (fun p => ((List.range 1024).map (BitVec.ofNat 10)).any (fun f => decide (f.toNat = p))) = order := by
    rw [List.takeWhile_eq_self_iff]
    intro p hp
    rw [← ho] at hp
    have : p < 1024 := by simp at hp; exact hp.1
    simp only [List.any_map, List.any_eq_true, List.mem_range, Function.comp, decide_eq_true_eq, BitVec.toNat_ofNat]
    exact ⟨p, this, Nat.mod_eq_of_lt this⟩
  rw [hall]; simp
theorem phase_countSpares (s : State) : (countSpares s).fld F.CKPT_STS_phase = s.fld F.CKPT_STS_phase := by
  simp [countSpares, State.fld, State.setFld]

theorem test_hyp_coreFailures : (∀ j, j < 16 → State.reset.sitePower (16 * (63 : BitVec 6).toNat + j) < 2)
    -- phases and votes at which a step is abandoned
    ∧ ((training 1).fld F.CKPT_STS_phase = 1 ∧ (training 3).fld F.CKPT_STS_phase = 3 ∧ (training 4).fld F.CKPT_STS_phase = 4 ∧ (training 1).ckpt.voted = false
      ∧ (training 1).isSelf (training 1).rootNode = false ∧ (voting 1 {}).isSelf (voting 1 {}).rootNode = true)
    -- site 15 of field 0 misses its second, third and fourth sample; HOLD
    ∧ (2 ≤ (beating 1).sitePower 15 ∧ (beating 1).flag F.PWR_STS_hold = false ∧ Sparse.get (beating 1).miss 0 15 ≠ 2 ∧ Sparse.get (beating 3).miss 0 15 ≠ 2)
    ∧ (Sparse.get (beating 2).miss 0 15 + 1 = 3 ∧ (beating 2).coreAt 15 = some 7 ∧ 7 < (beating 2).ncores ∧ 7 ∉ (beating 2).dead)
    ∧ (0x8000 : BitVec 16).getLsbD 15 = true ∧ ((beating 1).setFld F.PWR_STS_hold 1).flag F.PWR_STS_hold = true
    ∧ State.reset.ncores ≤ (896 : BitVec 10).toNat ∧ State.reset.sitePower (State.reset.siteOf 895) = 0
    ∧ ((895 : BitVec 10).toNat < State.reset.ncores ∧ (regs [(F.PWR_SITE_STS_state 0, 1)]).sitePower ((regs [(F.PWR_SITE_STS_state 0, 1)]).siteOf 895) ≠ 0)
    ∧ ((failing 1).dead ≠ [] ∧ (failing 1).flag F.DEV_MODE_STS_degraded = false ∧ (failing 1).pwr.off = false ∧ State.reset.dead = []
      ∧ ((failing 1).setFld F.DEV_MODE_STS_degraded 1).flag F.DEV_MODE_STS_degraded = true)
    ∧ (State.reset.wear.noRef.contains 63 = false ∧ { State.reset with wear := { noRef := [63] } }.wear.noRef.contains 63 = true)
    ∧ (0 < 896 ∧ 1023 < 1024) := by decide
/-- A remap finds a spare, in RUN and in ROLLBACK. -/
theorem test_hyp_coreRemap (ph : Nat) (h : ph = 1 ∨ ph = 4) :
    Slice0.takeSpare [] (retiring ph, []) 0 = (spareStart 0 1 (retiring ph), [])
    ∧ (countSpares { spareStart 0 1 (retiring ph) with dead := [] }).fld F.CKPT_STS_phase = ph := by
  rcases h with rfl | rfl
  · exact ⟨nearest _ (by decide +kernel) (by decide +kernel) (by decide +kernel), by rw [phase_countSpares]; decide +kernel⟩
  · exact ⟨nearest _ (by decide +kernel) (by decide +kernel) (by decide +kernel), by rw [phase_countSpares]; decide +kernel⟩
theorem test_hyp_coreRemapRun : (spareLow ((mapRecord (countSpares { spareStart 0 1 (retiring 1) with dead := [] })).raise EV.CORE_REMAP 0 0 [])).fld
    F.CKPT_STS_phase ≠ 4 := by decide +kernel
theorem test_hyp_coreRemapRollback : (spareLow ((mapRecord (restoreMember (countSpares { spareStart 0 1 (retiring 4) with dead := [] }))).raise EV.CORE_REMAP 0 0 [])).fld
    F.CKPT_STS_phase = 4 := by decide +kernel
theorem test_hyp_coreRemapFails : ([0] : List Nat).mergeSort = [0]
    ∧ (Slice0.takeSpare ((List.range 1024).map (BitVec.ofNat 10)) (retiring 1, []) 0).2 ≠ [] := ⟨by simp, by rw [noSpare]; simp⟩

/-- A drain of a Freeze with one page and an item as given. -/
def drain (it : Option DrainItem) (left : Nat) (bad : Bool) (tries : Nat) (z barren : Bool) (ps : List Page) : Drain :=
  { buddy := false, id := 1, step := 1, pages := ps, item := it, left := left, bad := bad, tries := tries, zeroed := z, barren := barren }
/-- One descriptor, of 64 bytes at the second page, owned here; the Shadow's node and the record partner are others. -/
def tabled : State :=
  { regs [(F.DEV_NODE_ID_node_id, 0), (F.CKPT_TENS_LEN, 1), (F.RED_OWNER_LEN, 1), (F.RED_OWNER_BASE, 1), (F.CKPT_REC_PARTNER_node, 9),
      (F.CKPT_POOL_slot_bytes, 0x20000)] with
    mem := poke [(8, 8, 0x10000), (16, 8, 64)] ⟨[], []⟩, ws := { plan := some ([], [⟨0, 0x100000, 4⟩]) } }
/-- A drain whose head is written, with pages and shards; one shard of the first page. -/
def drainOf (ps : List Page) (hs : List Shard) (barren : Bool) : Drain := { drain none 0 false 0 true barren ps with shards := hs }
def shard0 : Shard := { tid := none, base := 0, bytes := 64, off := 65536 }
theorem test_hyp_freeze :
    -- the root and another engine; a period; a write of 1 and of 0
    (training 1).isSelf (training 1).rootNode = false ∧ (voting 1 {}).isSelf (voting 1 {}).rootNode = true
    ∧ (regs [(F.CKPT_FRZ_CFG_period_s, 1)]).fld F.CKPT_FRZ_CFG_period_s ≠ 0 ∧ (1 : W64).getLsbD 0 = true ∧ State.reset.jobLoaded = false
    ∧ (0 : W64).getLsbD 0 = false
    ∧ descsOk State.reset ((List.range (State.reset.fld F.CKPT_TENS_LEN)).map (readCDesc State.reset)) = false
    ∧ descsOk tabled ((List.range (tabled.fld F.CKPT_TENS_LEN)).map (readCDesc tabled)) = true ∧ (readCDesc tabled 0).2 = true
    -- what a drain writes next: the zeros, a page that a write waits for, a header, an AHEAD page, a MARKED page, the manifest, nothing
    ∧ (drain none 0 false 0 false false []).zeroed = false ∧ (drainOf [⟨0, none, true⟩] [] false).pages.find? (·.want) = some ⟨0, none, true⟩
    ∧ (drainOf [] [shard0] false).nextHeader State.reset = some 0
    ∧ ((drainOf [⟨0, some 1, false⟩] [shard0] false).nextHeader State.reset = none ∧ ∀ q ∈ (drainOf [⟨0, some 1, false⟩] [shard0] false).pages, q.want = false)
    ∧ ((drainOf [⟨0, none, false⟩] [shard0] false).nextHeader State.reset = none ∧ ∀ q ∈ (drainOf [⟨0, none, false⟩] [shard0] false).pages, q.slot = none)
    ∧ (drainOf [] [] false).next State.reset = some .manifest ∧ (drainOf [] [] true).next State.reset = none
    ∧ (drainOf [] [shard0] false).shards[0]? = some shard0 ∧ { drain none 0 false 0 true false [] with buddy := true }.buddy = true
    -- an item is being written; its writes are answered, with a failure, the third one, and without
    ∧ (drainOf [⟨1, none, false⟩] [shard0] false).pages.find? (fun p => decide (p.no = 1)) = some ⟨1, none, false⟩
    ∧ (Nat.min (shard0.base + shard0.bytes) (0 * 65536 + 65536) - Nat.max shard0.base (0 * 65536) ≠ 0 ∧ Nat.min (shard0.base + shard0.bytes) (1 * 65536 + 65536) - Nat.max shard0.base (1 * 65536) = 0)
    ∧ State.reset.ckpt.drain = none ∧ (drain (some .zero) 1 false 0 false false []).item ≠ none ∧ (drain (some .zero) 1 false 0 false false []).left ≠ 0
    ∧ (drain (some .zero) 0 true 1 false false []).tries < 2 ∧ 2 ≤ (drain (some .zero) 0 true 2 false false []).tries
    ∧ ({ State.reset with ckpt := { drain := some (drain (some .zero) 0 false 0 false false []) } }.ckpt.drain = some (drain (some .zero) 0 false 0 false false [])) := by
  decide +kernel

/-- Owner index 3 waits for the comparison of one tensor whose digest is given. -/
def comparing (d : List Byte) : State := { State.reset with ckpt := { compares := [⟨3, 1, [(9, d)]⟩] } }
theorem test_hyp_comparison : (comparing []).ckpt.compares.find? (fun c => c.owner = (3 : BitVec 16).toNat) = some ⟨3, 1, [(9, [])]⟩
    ∧ (comparing []).mem.bytes ((comparing []).fld F.CKPT_CMP_AREA + 64 * 0) 64 = List.replicate 64 0
    ∧ (comparing []).mem.bytes ((comparing []).fld F.CKPT_CMP_AREA + 64 * 0) 64 ≠ [1] := by decide

/-- A slot whose manifest fits the engine at reset: magic, version, map digest of zeros, digest of DEV_PG_VC; and one entry of the member state. -/
def slotHead (n : Nat) : List Byte := [0x58, 0x4A, 0x4D, 0x46, 1] ++ List.replicate 35 0 ++ leBytes 2 n ++ List.replicate 70 0 ++ pgDigest State.reset
def memberData : List Byte := List.replicate 64 0
def slotFull : List Byte :=
  slotHead 1 ++ List.replicate 848 0 ++ (leBytes 8 0 ++ leBytes 8 2048 ++ leBytes 8 64 ++ leBytes 1 1 ++ List.replicate 39 0 ++ dataDigest 65536 memberData)
    ++ List.replicate 1152 0 ++ memberData
def scanned : State := regs [(F.CKPT_POOL_keep, 1)]
/-- The owner of index 0 is lost; a tensor of the Freeze method that is held for it. -/
def promoting (clean : Nat) : State :=
  { State.reset.setReg (F.CKPT_OWNER_CLEAN_clean 0).addr (BitVec.ofNat 64 clean) with
    net := { gone := [0] }, ckpt := { descs := [{ tid := 7, base := 0x10000, bytes := 64, owner := 0, freeze := true, held := true }] } }
/-- What a slot at this engine, at a node without a route and at one with a route holds. -/
theorem test_hyp_slotRead : Slice0.SlotRead State.reset 0x3FFFFF 0 1 [7] (some [0]) ∧ Slice0.SlotRead (regs [(F.DEV_ADDR_CFG_node_format, 1)]) 9 0 1 [7] none
    ∧ Slice0.SlotRead State.reset 9 0 1 [7] (some [7]) :=
  ⟨.inl ⟨by decide, by decide⟩, .inr (.inl ⟨by decide, ⟨E.NODE_RANGE, by decide⟩, rfl⟩),
    .inr (.inr ⟨by decide, fun code => by rw [show State.reset.route 9 = .group 0 by decide]; simp, rfl⟩)⟩
theorem test_hyp_restoreCommands : State.reset.net.gone.contains (State.reset.ownerNodes 0xFFFF).1 = false
    ∧ ((promoting (2 ^ 32)).net.gone.contains ((promoting (2 ^ 32)).ownerNodes 0).1 = true ∧ (promoting (2 ^ 32)).diverged 0 = false
      ∧ (promoting (2 ^ 32)).reg (F.CKPT_OWNER_CLEAN_clean 0).addr = BitVec.ofNat 64 (2 ^ 32 + (promoting (2 ^ 32)).fld F.CKPT_CTL_promote_freeze)
      ∧ (promoting 0).reg (F.CKPT_OWNER_CLEAN_clean 0).addr ≠ BitVec.ofNat 64 (2 ^ 32 + (promoting 0).fld F.CKPT_CTL_promote_freeze)
      ∧ entriesOf [] = [] ∧ State.reset.ckpt.descs = [])
    ∧ (numAt (List.replicate 20 0 ++ [1]) 20 1 % 2 = 1 ∧ numAt (List.replicate 20 0 ++ [1]) 0 8 = (0 : W64).toNat) ∧ numAt [] 20 1 % 2 ≠ 1 ∧ numAt [1] 0 8 ≠ (0 : W64).toNat
    ∧ ((2 : W64).getLsbD 1 = true ∧ (1 : W64).getLsbD 1 = false ∧ scanned.fld F.CKPT_POOL_keep = 1 ∧ hasManifest [] = false)
    ∧ (scanned.fld F.CKPT_VOTE_STS_outcome = 0 ∧ (scanned.setFld F.CKPT_VOTE_STS_outcome 1).fld F.CKPT_VOTE_STS_outcome ≠ 0
      ∧ scanned.fld (F.CKPT_SCAN_RES_freeze_id 0) = fieldOf (0 : W64) 0 32 ∧ scanned.fld (F.CKPT_SCAN_RES_code 0) = 0
      ∧ scanned.fld (F.CKPT_SCAN_RES_freeze_id 0) ≠ fieldOf (1 : W64) 0 32)
    ∧ (hasManifest [0x58, 0x4A, 0x4D, 0x46, 1] = true ∧ shapeOk scanned [0x58, 0x4A, 0x4D, 0x46, 1] = false) :=
  ⟨by decide, ⟨by decide, by decide, by decide, by decide, rfl, rfl⟩, by decide, by decide, by decide, by decide, by decide, ⟨by decide +kernel, by decide +kernel⟩⟩
theorem test_hyp_restoreLoad : hasManifest slotFull = true ∧ shapeOk scanned slotFull = true ∧ shapeOk scanned (slotHead 0) = true ∧ entriesOf (slotHead 0) = [] ∧ (entriesOf slotFull).map (fun e => (e.kind, e.bytes)) = [(1, 64)] ∧ scanned.memberLen = 64
    ∧ (entriesOf slotFull).all (fun e => shardOk slotFull e (scanned.baseSlot (numAt slotFull 16 8))) = true := by decide +kernel

/-! ### Power -/

/-- Core 0 is at site 0, which is in a power state. -/
def powered (n : Nat) : State := regs [(F.PWR_SITE_STS_state 0, n), (F.CORE_MAP_SITE_STATE_state 0, 0)]
/-- Half-wafer mode: the sites of the other half are lost. -/
def halved : State := regs [(F.DEV_MODE_STS_half_mode, 1)]
def onConverters (s : State) : State := { s with pwr := { s.pwr with off := false } }
theorem test_hyp_sitePowerStates : State.reset.siteKept (1023 : BitVec 10).toNat = true ∧ (∃ p, p < 1024 ∧ halved.siteKept p = false)
    -- OFF of a site with a core; RET of a quiet site in IDLE, and of one in RUN
    ∧ ((powered 2).coreAt 0 = some 0 ∧ (powered 2).sitePower 0 ≠ 0)
    ∧ ((powered 2).sitePower 0 = 2 ∧ Sparse.find (powered 2).trans 0 = none
      ∧ (∀ n, (powered 2).coreAt 0 = some n → ((powered 2).core n).keepsRet = false))
    ∧ (powered 3).sitePower 0 ≠ 2
    -- IDLE out of OFF, out of RET, of a site that was to enter RET; refused with the converters off
    ∧ ((onConverters (powered 0)).sitePower 0 = 0 ∧ (onConverters (powered 0)).pwr.off = false ∧ (onConverters (powered 0)).coreAt 0 = some 0
      ∧ 0 ∉ (onConverters (powered 0)).dead)
    ∧ (powered 1).sitePower 0 = 1 ∧ (2 ≤ { powered 2 with trans := [(0, 1)] }.sitePower 0 ∧ Sparse.find { powered 2 with trans := [(0, 1)] }.trans 0 = some 1)
    ∧ ((powered 0).sitePower 0 = 0 ∧ (powered 0).pwr.off = true)
    -- transitions: none, into RET of a site with and without a core, into IDLE
    ∧ Sparse.find (powered 2).trans 0 = none ∧ State.reset.coreAt 0 = none ∧ Sparse.find { State.reset with trans := [(0, 1)] }.trans 0 = some 1
    ∧ ({ powered 2 with trans := [(0, 1)] }.coreAt 0 = some 0 ∧ ({ powered 2 with trans := [(0, 1)] }.core 0).keepsRet = false)
    ∧ (Sparse.find { powered 1 with trans := [(0, 2)] }.trans 0 = some 2 ∧ { powered 1 with trans := [(0, 2)] }.coreAt 0 = some 0)
    ∧ ((regs [(F.PWR_SITE_STS_state 0, 3), (F.CLK_IDLE_TO_ns, 1)]).sitePower 0 = 3
      ∧ (regs [(F.PWR_SITE_STS_state 0, 3), (F.CLK_IDLE_TO_ns, 1)]).fld F.CLK_IDLE_TO_ns ≠ 0
      ∧ (regs [(F.PWR_SITE_STS_state 0, 3), (F.CLK_IDLE_TO_ns, 1)]).siteIdle 0 = true) ∧ (runIn (powered 3)).siteIdle 0 = false := by
  refine ⟨by decide, ⟨1023, by decide, by decide⟩, by decide, ⟨by decide, by decide, ?_⟩, by decide⟩
  intro n h
  have : (powered 2).coreAt 0 = some 0 := by decide
  rw [this] at h; cases h; decide
/-- The Lodge firmware runs; one frame is in the ring and the converters are on. -/
def lodging : State := { regs [(F.DEV_BOOT_STS_stage, 4)] with pwr := { off := false, frames := [⟨0, 0, [], []⟩] } }
theorem test_hyp_telemetry : State.reset.lodgeRuns = false ∧ (regs [(F.DEV_BOOT_STS_stage, 4)]).lodgeRuns = true
    ∧ ([0x851] : List (BitVec 128)).find? (fun r => (r.extractLsb' 0 16).toNat = 0x851) = some 0x851
    ∧ ([] : List (BitVec 128)).find? (fun r => (r.extractLsb' 0 16).toNat = 0x851) = none
    ∧ halved.domainLost 0x853 = true ∧ State.reset.domainLost 0x853 = false ∧ State.reset.halfMode = false := by decide
/-- The clamp is engaged by the triggers given, at full speed. -/
def clamped (trig : List Nat) : State :=
  { regs [(F.PWR_STS_clamp, 1), (F.PWR_CLAMP_STS_stretch, 64)] with pwr := { trig := trig } }
theorem stretch_le (w : Nat → Nat) (b : Nat) : stretchFor w b ≤ 64 := by
  unfold stretchFor
  cases h : ((List.range 65).filter (fun k => decide (1 ≤ k ∧ w k ≤ b))).getLast? with
  | none => simp
  | some k =>
    have := List.mem_of_getLast? h
    simp at this ⊢; omega
/-- An iteration of the clamp: a trigger that stays, a power above the cap, and a release. -/
theorem test_hyp_clampLoop (met : Bool) :
    (clamped [3]).flag F.PWR_STS_clamp = true ∧ State.reset.flag F.PWR_STS_clamp = false
    ∧ (clamped [3]).pwr.trig.filter (fun t => decide (t ≠ 5 ∧ ¬ (met = true ∧ (t = 1 ∨ t = 2)))) ≠ []
    ∧ (clamped []).pwr.trig = [] ∧ 0 * 1000 < ((clamped []).setFld F.PWR_IN_STS_watts 1).fld F.PWR_IN_STS_watts
    ∧ (1 ∉ (clamped []).pwr.trig ∧ 2 ∉ (clamped []).pwr.trig ∧ ¬ 30000 * 1000 < (clamped []).fld F.PWR_IN_STS_watts)
    ∧ (clamped []).fld F.PWR_CLAMP_STS_stretch = 64 ∧ ∀ w b, Nat.max 64 (stretchFor w b) = 64 := by
  refine ⟨by decide, by decide, ?_, by decide, by decide, by decide, by decide, fun w b => Nat.max_eq_left (stretch_le w b)⟩
  cases met <;> decide
theorem test_hyp_powerLoop : State.reset.loopRuns = false ∧ lodging.loopRuns = true ∧ (1023 : Nat) < 1024
    -- the cap of 500 W fits point 5: below it, at it, above it
    ∧ ((∃ k, k < 16 ∧ 100 * k ≤ 500) ∧ nextPoint (100 * ·) 500 7 100 100 true = 5 ∧ nextPoint (100 * ·) 500 5 100 100 true = 5
      ∧ nextPoint (100 * ·) 500 15 100 100 true = 5 ∧ nextPoint (100 * ·) 500 0 100 100 true = 5)
    -- HOLD: no cause, the leak; in HOLD with the leak and without
    ∧ [0, 1, 2].filter (causeOn (regs [(F.PWR_MIN_OP, 1)]) 1) = [] ∧ [0, 1, 2].filter (causeOn (regs [(F.PWR_MIN_OP, 1)]) 0) = [0]
    ∧ ((powered 3).sitePower 0 = 3 ∧ (runIn (powered 3)).siteIdle 0 = false)
    ∧ (regs [(F.PWR_STS_hold, 1)]).flag F.PWR_STS_hold = true ∧ { State.reset with pwr := { clear := 9 } }.pwr.clear + 1 = 10
    ∧ { State.reset with pwr := { crev := [(0, { zb := 0, tb := 0, limits := true })] } }.crevLimits 0 = true := by
  refine ⟨by decide, by decide, by decide, ⟨⟨0, by decide, by decide⟩, by decide⟩, by decide⟩
/-- An input power in milliwatts, with the converters on. -/
def drawing (w : Nat) : State := onConverters (regs [(F.PWR_IN_STS_watts, w)])
theorem test_hyp_rackCap : fieldOf (0x2710 : W64) 32 32 ≤ State.reset.fld F.PWR_CAP_STS_seq
    ∧ (State.reset.fld F.PWR_CAP_STS_seq < fieldOf (0x100012710 : W64) 32 32 ∧ State.reset.pwr.off = true)
    ∧ ((0x100012710 : W64).getLsbD 16 = true ∧ Nat.min (fieldOf (0x100012710 : W64) 0 16) 30000 * 1000 < (drawing 10000001).fld F.PWR_IN_STS_watts)
    ∧ ((0x100002710 : W64).getLsbD 16 = false ∧ (drawing 25000000).pwr.off = false ∧ Nat.min (fieldOf (0x100002710 : W64) 0 16) 30000 * 1000
      + 10000 * (drawing 25000000).fld F.PWR_CAP_CFG_step_w < (drawing 25000000).fld F.PWR_IN_STS_watts)
    ∧ ((regs [(F.PWR_CAP_CFG_lease_ms, 10)]).fld F.PWR_CAP_CFG_lease_ms ≠ 0 ∧ (regs [(F.PWR_CAP_CFG_lease_ms, 10)]).pwr.lapsed = false)
    ∧ State.reset.fld F.PWR_CAP_CFG_lease_ms = 0 := by decide
theorem test_hyp_clamp : State.reset.pwr.off = true ∧ lodging.pwr.off = false ∧ State.reset.pwr.failed = false
    ∧ { State.reset with pwr := { failed := true } }.pwr.failed = true ∧ 44000 ≤ 44000 ∧ 46000 < 46001 ∧ 7 < 8
    ∧ (regs [(F.PWR_STS_clamp, 1)]).flag F.PWR_STS_clamp = true ∧ State.reset.flag F.PWR_STS_clamp = false := by decide
/-- Input contact group 0 with a baseline of 100,000 nanoohm at 0 degrees. -/
def cracked (n : Nat) : State := { State.reset with pwr := { crev := [(0, { zb := 100000, tb := 0, n13 := n })] } }
/-- A power entry that nine windows in a row have found at twice its prediction, which is 0. -/
def failingEntry (e : Nat) : State := { State.reset with pwr := { crev := [(e, { zb := 0, tb := 0, n20 := 9 })] } }
theorem test_hyp_powerChain : Sparse.find State.reset.pwr.crev 135 = none
    ∧ (Sparse.find (cracked 0).pwr.crev 0 = some { zb := 100000, tb := 0 } ∧ 5 * 19999 < ratingOf 0)
    ∧ (ratingOf 0 ≤ 5 * 20000 ∧ 100 * crevDrop ⟨20000, 2000, 0⟩ < 130 * crevPredicted { zb := 100000, tb := 0 } ⟨20000, 2000, 0⟩)
    ∧ (Sparse.find (cracked 99).pwr.crev 0 = some { zb := 100000, tb := 0, n13 := 99 }
      ∧ 130 * crevPredicted { zb := 100000, tb := 0, n13 := 99 } ⟨20000, 2600, 0⟩ ≤ 100 * crevDrop ⟨20000, 2600, 0⟩)
    ∧ (Sparse.find (failingEntry 7).pwr.crev 7 = some { zb := 0, tb := 0, n20 := 9 } ∧ 2 * crevPredicted { zb := 0, tb := 0, n20 := 9 } ⟨20000, 0, 0⟩ ≤ crevDrop ⟨20000, 0, 0⟩)
    ∧ (1 : W64).getLsbD 0 = true ∧ State.reset.jobLoaded = false ∧ (0 : W64).getLsbD 0 = false ∧ { State.reset with jobLoaded := true }.jobLoaded = true
    ∧ 6 < State.reset.fld (F.PWR_SITE_STS_phases 1023) ∧ (regs [(F.PWR_SITE_STS_phases 1023, 6)]).fld (F.PWR_SITE_STS_phases 1023) ≤ 6
    ∧ State.reset.coreAt 1023 = none ∧ (powered 0).coreAt 0 = some 0 ∧ State.reset.siteState 1023 = siSpare ∧ (powered 0).siteState 0 ≠ siSpare
    ∧ (regs [(F.DEV_MODE_STS_degraded, 1)]).flag F.DEV_MODE_STS_degraded = true ∧ State.reset.flag F.DEV_MODE_STS_degraded = false := by decide
theorem test_hyp_faultOutcomes : siSpare < (regs [(F.CORE_MAP_SITE_STATE_state 1023, 3)]).siteState 1023 ∧ (powered 0).siteState 0 = siAssigned ∧ State.reset.siteState 1023 = siSpare
    ∧ 8 ≤ (regs [(F.PWR_SITE_STS_phases 0, 8)]).fld (F.PWR_SITE_STS_phases 0) := by decide
/-- The rating of an entry above the input contact groups is the implementation's own; some current reaches a fifth of it. -/
theorem test_hyp_fieldEntry : Sparse.find (failingEntry 8).pwr.crev 8 = some { zb := 0, tb := 0, n20 := 9 } ∧ 8 ≤ (8 : BitVec 8).toNat
    ∧ ∃ m : CrevIn, ratingOf 8 ≤ 5 * m.milliAmps ∧ 2 * crevPredicted { zb := 0, tb := 0, n20 := 9 } m ≤ crevDrop m :=
  ⟨by decide, by decide, ⟨Config.entryRating 8, 0, 0⟩, by simp [ratingOf]; omega, by simp [crevPredicted, crevDrop]⟩
theorem test_hyp_siteTemperature : (6207 : Int) < 97 * 64 ∧ 1023 ∉ State.reset.pwr.hot ∧ (100 * 64 : Int) ≤ 6400 ∧ (6400 : Int) < 105 * 64
    ∧ (105 * 64 : Int) ≤ 6720 ∧ 5 ∈ { State.reset with pwr := { hot := [5], hot105 := [5] } }.pwr.hot
    ∧ 5 ∈ { State.reset with pwr := { hot := [5], hot105 := [5] } }.pwr.hot105 ∧ { State.reset with pwr := { hot := [5], hot105 := [5] } }.pwr.tripped = false
    ∧ (List.replicate 16 (0 : BitVec 16)).length = 16 := by decide

/-! ### Links -/

/-- Link 31 in a state. -/
def linked (n : Nat) : State := regs [(F.LINK_STS_state 31, n)]
/-- Link 31 has lost a lane that it used. -/
def oneLane (n : Nat) (l : BitVec 16) : State := { linked n with net := { links := [(31, { lost := l })] } }
def ported (st : Nat) : State := regs [(F.LINK_STS_port_a 31, st), (F.LINK_STS_port_b 31, st)]
theorem test_hyp_linkTraining :
    -- stages below SIGNAL, from it to the last but one, INIT with and without room; full and half width; the timeout
    (linked 0).linkState 31 < 1 ∧ (1 ≤ (linked 1).linkState 31 ∧ (linked 3).linkState 31 < 4) ∧ 4 < (linked 5).linkState 31
    ∧ ((linked 4).linkState 31 = 4 ∧ (linked 4).creditSum 31 ≤ 4096 ∧ (lanesUsed ((linked 4).lnk 31).lost).getD 8 = 16)
    ∧ ((oneLane 4 1).linkState 31 = 4 ∧ (oneLane 4 1).creditSum 31 ≤ 4096 ∧ (lanesUsed ((oneLane 4 1).lnk 31).lost).getD 8 ≠ 16)
    ∧ 4096 < ((linked 4).setFld (F.LINK_VC_CREDIT0_min 31) 4097).creditSum 31
    ∧ ((ported 1).fld (F.LINK_STS_port_a 31) = 1 ∧ State.reset.fld (F.LINK_STS_port_b 31) ≠ 1 ∧ (ported 1).linkState 31 < 1)
    -- lanes: a lane in use, the last half, a lane not in use; a port of an Ethernet link; converters off and on
    ∧ ((lanesKept ((linked 5).lnk 31).lost).getLsbD 0 = true ∧ lanesUsed (((linked 5).lnk 31).lost ||| (1 <<< 0 : BitVec 16)) ≠ none)
    ∧ ((lanesKept ((oneLane 5 1).lnk 31).lost).getLsbD 15 = true ∧ lanesUsed (((oneLane 5 1).lnk 31).lost ||| (1 <<< 15 : BitVec 16)) = none
      ∧ (lanesKept ((oneLane 5 1).lnk 31).lost).getLsbD 1 = false)
    ∧ ((ported 2).fld (F.LINK_STS_port_b 31) = 2 ∧ (ported 2).linkState 31 < 1 ∧ (ported 1).fld (F.LINK_STS_port_b 31) ≠ 2)
    ∧ State.reset.pwr.off = true ∧ lodging.pwr.off = false
    -- modes; a link of the lost half
    ∧ (State.reset.linkKept 31 = true ∧ ∀ m < 3, (regs [(F.LINK_CFG_mode 31, m)]).fld (F.LINK_CFG_mode 31) = m)
    ∧ halved.linkKept 15 = false := by decide

/-- A flit of a link word with a sequence number and its CRC. -/
def flitOf (w0 : Nat) : Flit :=
  let f : Flit := { w0 := BitVec.ofNat 64 w0 }
  { f with w3 := BitVec.ofNat 64 (f.crc * 2 ^ 32) }
/-- Link 31 is UP and has a flit in its replay buffer that it has sent so often. -/
def replaying (n : Nat) : State := { linked 5 with net := { links := [(31, { replay := [⟨0, n, { w0 := 0 }⟩] })] } }
/-- Group 63 uses link 31 and is held; a request waits on link 31. -/
def draining : State :=
  { (linked 5).setReg (F.DEV_LGRP_MASK 63).addr 0x80000000 with net := { reqs := [{ tag := 1, link := 31, node := 2, op := 0, src := .slot 0 0 }], held := [63] } }
/-- Core 0 has held requests: the later one of its ring 15, the earlier one of its slot 7. -/
def heldList : XList := { inbound := false, base := 0, count := 1, reqs := [{ len := 1, stage := .held, ord := 9 }] }
def heldSlot : XSlot := { op := .rput, len := 1, req := some { len := 1, stage := .held, ord := 3 } }
def heldBoth : State := core0 { rings := [(15, { lists := [heldList] })], slots := [(7, heldSlot)] }
theorem test_hyp_heldRequests : (∀ e ∈ heldBoth.cores, (15, ({ lists := [heldList] } : Ring)) ∈ e.2.rings ∧ (7, heldSlot) ∈ e.2.slots) ∧ heldBoth.cores.map (·.1) = [0]
    ∧ heldList.reqs[0]? = some { len := 1, stage := .held, ord := 9 } ∧ heldSlot.req = some { len := 1, stage := .held, ord := 3 }
    ∧ (heldBoth.ring 0 15).lists = heldList :: [] ∧ Sparse.find (heldBoth.core 0).slots 7 = some heldSlot := by decide
theorem test_hyp_linkTraffic : (linked 1).linkUp 31 = false ∧ (linked 5).linkUp 31 = true ∧ ({ w0 := 0, reset := true } : Flit).reset = true
    ∧ ({ w0 := 0 } : Flit).crcOk = false ∧ ({ w0 := 0, fecOk := false } : Flit).fecOk = false
    -- whole flits: numbers 0 and 4,095; with a nak
    ∧ ((flitOf 0).crcOk = true ∧ fieldOf (flitOf 0).w0 0 12 = (((linked 5).lnk 31).rx + 1) % 4096 ∧ (flitOf 0).w0.getLsbD 24 = false)
    ∧ ((flitOf 4095).crcOk = true ∧ fieldOf (flitOf 4095).w0 0 12 ≠ (((linked 5).lnk 31).rx + 1) % 4096)
    ∧ ((flitOf (2 ^ 24)).crcOk = true ∧ (flitOf (2 ^ 24)).w0.getLsbD 24 = true)
    ∧ ((∃ t ∈ ((replaying 8).lnk 31).replay, 8 ≤ t.tries) ∧ ¬ ∃ t ∈ ((replaying 7).lnk 31).replay, 8 ≤ t.tries)
    -- a head flit that is malformed; one that is not; the flits of a packet that has been dropped
    ∧ (flitBad { w0 := BitVec.ofNat 64 (2 ^ 25 + 2 ^ 63) } true = true ∧ flitBad { w0 := BitVec.ofNat 64 (2 ^ 25 + 3 * 2 ^ 27) } true = false)
    ∧ ({ bad := true } : LinkSt).bad = true ∧ ({} : LinkSt).part = none
    ∧ (((linked 5).lnk 31).queue = [] ∧ ((linked 5).lnk 31).out = [] ∧ ((linked 5).lnk 31).replay.length < 2048)
    -- timeouts, with auto_retrain and without
    ∧ (linked 1).linkState 31 ≠ 5 ∧ (linked 5).linkState 31 = 5
    ∧ (linkDown 31 0 (linked 5)).flag (F.LINK_CFG_auto_retrain 31) = true
    ∧ (linkDown 31 0 ((linked 5).setFld (F.LINK_CFG_auto_retrain 31) 0)).flag (F.LINK_CFG_auto_retrain 31) = false
    ∧ (draining.reg (F.DEV_LGRP_MASK 63).addr).getLsbD 31 = true ∧ draining.net.held = [63] ∧ draining.net.reqs.map (fun r => (r.qp, r.link)) = [(none, 31)]
    ∧ ((linked 5).linkUp 31 = true ∧ 31 ∉ (linked 5).net.up ∧ 31 ∉ (linked 5).net.joining) ∧ State.reset.net.reqs = [] := by
  refine ⟨by decide, by decide, by decide, by decide +kernel, by decide, by decide +kernel, by decide +kernel, by decide +kernel, by decide, by decide⟩

/-! ### The fabric and requests of other nodes -/

/-- A packet: type, virtual channel, source, destination, exit, y and x. -/
def fab (type vc src dst dport dy dx : Nat) : FabPkt :=
  { hdr := BitVec.ofNat 64 (type * 2 ^ 39 + vc * 2 ^ 36 + dst * 2 ^ 24 + src * 2 ^ 12 + dport * 2 ^ 10 + dy * 32 + dx), len := 1, data := [7] }
/-- A packet waits in an input buffer; a buffer that is full. -/
def buffered (l : List FabPkt) : State := { State.reset with fab := { bufs := [(fabKey 0 0 4 0, l)] } }
theorem test_hyp_fabricPackets :
    -- places: edge memory, an unmapped address, a device register, a core's memory with its port open, closed and in HOLD
    (State.reset.place 0 8 = .edge ∧ State.reset.bodyHit none 0 8 = false ∧ State.reset.clear 0 8 = true ∧ (voting 2 { descs := [cleanT] }).clear 0 8 = false)
    ∧ State.reset.place 0x3FFFFFFFFF8 8 = .hole ∧ State.reset.place 0x30000000000 8 = .dev
    ∧ (State.reset.place 0x20000000000 8 = .mem 0 ∧ State.reset.portOpen 0 = false ∧ (atSite 2 1 {}).portOpen 0 = true ∧ (atSite 2 1 {}).flag F.PWR_STS_hold = true)
    ∧ (atSite 2 0 {}).place 0x20000000000 8 = .mem 0 ∧ (atSite 2 0 {}).portOpen 0 = true ∧ (atSite 2 0 {}).flag F.PWR_STS_hold = false
    -- a buffer with room and a full one
    ∧ State.reset.fabRoom 0 0 4 0 = true ∧ (buffered (List.replicate 8 (fab 0 0 0 0 0 0 0))).fabRoom 0 0 4 0 = false
    -- dimension order
    ∧ (30 < (fab 0 0 0 0 0 31 31).dx ∧ (fab 0 0 0 0 0 0 0).dx < 1 ∧ 30 < (fab 0 0 0 0 0 31 31).dy ∧ (fab 0 0 0 0 0 0 31).dy < 1)
    -- arrivals: a router of the lost half, a type on the wrong channel, every type on its own; an exit that does not exist; from a neighbour and injected
    ∧ (∃ x, x < 32 ∧ halved.routerLost x = true) ∧ State.reset.routerLost 31 = false ∧ fabVc (fab 7 0 0 0 0 0 0).type ≠ some (fab 7 0 0 0 0 0 0).vc
    ∧ (∀ t ∈ [(0, 0), (1, 0), (2, 0), (3, 1), (4, 1), (5, 1), (15, 1), (6, 2), (8, 3), (9, 3)], fabVc (fab t.1 t.2 0 0 0 31 31).type = some (fab t.1 t.2 0 0 0 31 31).vc)
    ∧ exitAt 1 1 1 = false ∧ exitAt 0 0 0 = true
    ∧ (4 ≤ State.reset.fabIn 0 0 (fab 0 0 0 0 0 0 0) ∧ State.reset.fabIn 5 0 (fab 0 0 0 0 0 0 0) < 4)
    -- grants: no packet, one for another port, one for this port
    ∧ (State.reset.fabBuf (fabKey 0 0 4 0) = [] ∧ (buffered [fab 0 0 0 0 0 0 31]).fabBuf (fabKey 0 0 (16 / 4) (16 % 4)) = [fab 0 0 0 0 0 0 31]
      ∧ fabPort 0 0 (fab 0 0 0 0 0 0 31) = 1)
    ∧ ((fabPass 0 0 1 (fab 0 0 0 0 0 0 31) (buffered [fab 0 0 0 0 0 0 31])).2 = true)
    -- leaving by the mid-seam in half-wafer mode; a core's port that is closed, one in HOLD
    ∧ (halved.halfMode = true ∧ fabLevel 15 0 1 = 3 ∧ State.reset.halfMode = false ∧ fabLevel 0 0 1 ≠ 3)
    ∧ (State.reset.sitePower 1023 < 2 ∧ State.reset.fabRoom 31 31 4 1 = true ∧ (fab 0 0 0 0 0 31 31).vc = 0 ∧ (fab 6 2 0 0 0 31 31).vc ≠ 0)
    ∧ (¬ ((atSite 2 0 {}).sitePower 0 < 2 ∨ (atSite 2 0 {}).fld (F.CORE_MAP_SITE_STATE_state 0) = 3) ∧ (atSite 2 1 {}).flag F.PWR_STS_hold = true)
    ∧ (isLinkEp 0x420 = true ∧ isLinkEp 0x43F = true ∧ isLinkEp 0x440 = false ∧ isLinkEp 0x400 = false)
    -- execution: each type with and without room for the answer; reads and writes that are done, that fail and that wait
    ∧ (∀ t ∈ [0, 1, 2, 3, 4, 5, 6, 15], (fab t 0 0 0 0 0 0).type = t) ∧ (0 < (fab 0 0 0 0 0 0 0).len ∧ 0 < (fab 0 0 0 0 0 0 0).data.length)
    ∧ (busRead false 0 1 State.reset).2 = .ok [0] ∧ (busRead false 0x20000000000 1 State.reset).2 = .fail E.FABRIC_DEST_DOWN
    ∧ (busRead false 0x20000000000 1 (atSite 2 1 {})).2 = .wait ∧ (busWrite none false true 0x20000000000 [7] State.reset).2 = .lost := by
  refine ⟨by decide, by decide, by decide, by decide, by decide, by decide, by decide, by decide, by decide, by decide, ?_, by decide, by decide, by decide, by decide⟩
  first | exact ⟨0, by decide, by decide⟩ | exact ⟨31, by decide, by decide⟩
/-- Packets wait at the endpoint of the core port of router (0, 0); the always-on rail of half 0 has failed. -/
def atPort (l : List FabPkt) : State := { State.reset with fab := { waits := [(fabKey 0 0 4 0, l)] } }
def railLess : State := { State.reset with pwr := { half := some 0 } }
theorem test_hyp_fabricEndpoints : State.reset.fabWaits (fabKey 0 0 4 0) = [] ∧ State.reset.fabRoom 0 0 4 0 = true
    ∧ (atPort [fab 0 0 0 0 0 0 1]).fabWaits (fabKey 0 0 4 0) = [fab 0 0 0 0 0 0 1]
    ∧ ((List.range 4).map (fun j => (Sparse.get (atPort [fab 0 0 0 0 0 0 1]).fab.last 3 (fabOut 0 0 9) + 1 + j) % 4)).find?
        (fun v => !((atPort [fab 0 0 0 0 0 0 1]).fabWaits (fabKey 0 0 4 v)).isEmpty && (atPort [fab 0 0 0 0 0 0 1]).fabRoom 0 0 4 v) = some 0
    ∧ ((List.range 4).map (fun j => (Sparse.get State.reset.fab.last 3 (fabOut 0 0 9) + 1 + j) % 4)).find?
        (fun v => !(State.reset.fabWaits (fabKey 0 0 4 v)).isEmpty && State.reset.fabRoom 0 0 4 v) = none ∧ (fab 0 0 0 0 0 0 1).vc = 0
    ∧ railLess.routerDead 15 = true ∧ railLess.routerDead 16 = false ∧ State.reset.routerDead 0 = false ∧ railLess.routerLost 0 = false
    -- a bulk write of the bytes that its header's flits hold; a request and a packet of another channel that fail
    ∧ ((fab 6 2 0 0 0 0 0).type = 6 ∧ 0 < (fab 6 2 0 0 0 0 0).data.length ∧ (fab 6 2 0 0 0 0 0).data.length ≤ 512 * (fab 6 2 0 0 0 0 0).flits)
    ∧ (fab 0 0 0 0 0 0 0).vc = 0 ∧ (fab 6 2 0 0 0 0 0).vc ≠ 0 := by decide
theorem test_hyp_fabricPressure : (∀ l ∈ [0, 1, 4], l ≤ 4 ∧ l ≠ 2 ∧ l ≠ 3)
    ∧ fieldOf (State.reset.reg F.FABRIC_PRESS_CFG_win_log2.addr) (8 + 8 * 4) 8 ≠ 0 ∧ fieldOf (State.reset.reg F.FABRIC_PRESS_CFG_win_log2.addr) (8 + 8 * 4) 8 ≤ 256 := by
  decide

/-- Link 31 is UP and window 15 opens the first page with a key. -/
def windowed (r w a : Nat) : State :=
  regs [(F.LINK_STS_state 31, 5), (F.DEV_INB_WIN_valid 15, 1), (F.DEV_INB_WIN_r 15, r), (F.DEV_INB_WIN_w 15, w), (F.DEV_INB_WIN_atom 15, a), (F.DEV_INB_WIN_size 15, 1),
    (F.DEV_INB_WIN_rkey 15, 7), (F.DEV_NODE_ID_node_id, 5), (F.DEV_HIER_GRP_g_hall, 1)]
/-- A request on link 31. -/
def ask (op vc len : Nat) (data : List Byte) : OfpPkt :=
  { link := 31, vc := BitVec.ofNat 4 vc, dst := 5, addr := 0, src := 9, srcEp := 0, tag := 1, op := BitVec.ofNat 4 op, len := len, data := data }
/-- A COPY of 16 bytes to address 4,096 of a node. -/
def copyReq (node : Nat) : OfpPkt := ask 3 1 0 (leBytes 8 (node * 2 ^ 42 + 0x1000) ++ leBytes 8 16)
/-- Window 15 opens the first page of core 0's memory, the core in a power state, in HOLD where asked. -/
def coreWin (p hold : Nat) : State :=
  regs [(F.LINK_STS_state 31, 5), (F.DEV_INB_WIN_valid 15, 1), (F.DEV_INB_WIN_r 15, 1), (F.DEV_INB_WIN_w 15, 1), (F.DEV_INB_WIN_atom 15, 1), (F.DEV_INB_WIN_size 15, 1),
    (F.DEV_INB_WIN_base 15, 0x20000000), (F.PWR_SITE_STS_state 0, p), (F.PWR_STS_hold, hold), (F.DEV_NODE_ID_node_id, 5), (F.DEV_HIER_GRP_g_hall, 1)]
/-- Queue pair 7 leads to node 6. -/
def byQp6 : State :=
  ((((windowed 1 0 0).setFld (F.LINK_QP_state 0 7) 3).setReg (F.DEV_NODE_OVR_route 0).addr 0x8000000000000740).setFlag (F.DEV_NODE_OVR_valid 0) true).setFld
    (F.DEV_NODE_OVR_node 0) 6
/-- A packet waits; a COPY of its flow is in progress. -/
def behind (i : Inb) : State := { windowed 1 1 1 with net := { inb := [i] } }
def copying : State := { windowed 1 1 1 with net := { copies := [{ id := 1, link := 31, node := 9, ep := 0, vc := 1, tag := 3, left := 1 }] } }
theorem test_hyp_requestOrder :
    (∀ r ∈ Slice0.requests, State.reset.takes (ask 0 1 0 []) r.2.1.toNat = false)
    ∧ (∀ e ∈ Slice0.requests.zip [1, 1, 1, 1, 3, 4], (linked 5).takes (ask 0 e.2 1 []) e.1.2.1.toNat = true)
    ∧ ((ask 0 1 2048 []).len ≤ 2048 ∧ (ask 2 1 0 (List.replicate 16 0)).data.length = 16
      ∧ (ask 2 1 0 []).aop.toNat ≤ 9 ∧ (copyReq 5).data.length = 16 ∧ fieldOf (ask 10 4 0 []).addr 40 2 < 3)
    ∧ (ask 1 1 0 (List.replicate 2048 1)).data.length ≤ 2048
    ∧ ((linked 5).net.inb = [] ∧ (linked 5).flowBusy (.ofp (ask 0 1 1 [])) = false ∧ copying.net.inb = [] ∧ copying.flowBusy (.ofp (ask 0 1 1 [])) = true
      ∧ copying.flowBusy (.ofp (ask 0 2 1 [])) = false)
    ∧ (∀ r ∈ [0, 1, 2, 3], (takeUp (.ofp (ask r 1 1 [])) (linked 5)).2 = true) ∧ (takeUp (.ofp (ask 9 3 0 [])) (linked 5)).2 = true
    ∧ (takeUp (.ofp { ask 0 1 1 [] with addr := 0x20000000000 }) (coreWin 2 1)).2 = false
    ∧ (behind (.ofp (ask 0 1 1 []))).net.inb ≠ [] ∧ (behind (.ofp (ask 0 1 1 []))).flowBusy (.ofp (ask 1 1 1 [])) = true
    ∧ (behind (.ofp (ask 0 1 1 []))).flowBusy (.roce 0 8191 {}) = false := by
  refine ⟨by decide, by decide, by decide, by simp [ask], by decide, by decide, by decide, by decide, by decide, by decide, by decide⟩
theorem test_hyp_refused :
    (windowed 1 1 1).place 0x30000000000 8 = .dev ∧ (windowed 1 1 1).place 0 4096 ≠ .dev
    ∧ ((15 : Nat) < 16 ∧ (windowed 1 1 1).flag (F.DEV_INB_WIN_valid 15) = true ∧ (windowed 1 1 1).flag (F.DEV_INB_WIN_r 15) = true
      ∧ (windowed 1 1 1).fld (F.DEV_INB_WIN_base 15) * 4096 ≤ 0
      ∧ 0 + 4096 ≤ (windowed 1 1 1).fld (F.DEV_INB_WIN_base 15) * 4096 + (windowed 1 1 1).fld (F.DEV_INB_WIN_size 15) * 4096)
    ∧ ((∀ perm ∈ [0, 1, 2], (windowed 1 1 1).refusal perm 0 4096 none = none) ∧ ∀ perm ∈ [0, 1, 2], (windowed 0 0 0).refusal perm 0 4096 none = some E.REMOTE_ACCESS)
    ∧ (windowed 1 1 1).refusal 0 0 4097 none = some E.REMOTE_ACCESS ∧ (windowed 1 1 1).refusal 0 0x30000000000 8 none = some E.ADDR_UNMAPPED := by decide
/-- A GET, PUT or ATOM of core 0's memory. -/
def askCore (op len : Nat) (data : List Byte) : OfpPkt := { ask op 1 len data with addr := 0x20000000000 }
theorem test_hyp_remoteAccess :
    ((ask 0 1 8 []).op = 0 ∧ (windowed 0 0 0).refusal 0 0 8 none = some E.REMOTE_ACCESS ∧ (windowed 1 0 0).refusal 0 0 8 none = none
      ∧ (busRead true 0 8 (windowed 1 0 0)).2 = .ok (List.replicate 8 0))
    ∧ ((coreWin 0 0).refusal 0 0x20000000000 8 none = none ∧ (busRead true 0x20000000000 8 (coreWin 0 0)).2 = .fail E.FABRIC_DEST_DOWN
      ∧ (coreWin 2 1).refusal 0 0x20000000000 8 none = none ∧ (busRead true 0x20000000000 8 (coreWin 2 1)).2 = .wait)
    ∧ ((ask 1 1 0 [7]).op = 1 ∧ (windowed 0 0 0).refusal 1 0 1 none = some E.REMOTE_ACCESS ∧ (windowed 0 1 0).refusal 1 0 1 none = none
      ∧ (busWrite none true true 0 [7] (windowed 0 1 0)).2 = .ok [] ∧ (ask 1 1 0 [7]).srcEp.toNat ≠ 0x3F2 ∧ ({ ask 1 1 0 [7] with srcEp := 0x3F2 } : OfpPkt).srcEp.toNat = 0x3F2)
    ∧ ((busWrite none true true 0x20000000000 [7] (coreWin 0 0)).2 = .lost ∧ (busWrite none true true 0x20000000000 [7] (coreWin 2 1)).2 = .wait
      ∧ (busWrite none true true 0x3FFFFFFF000 [7] (windowed 0 1 0)).2 = .fail E.ADDR_UNMAPPED)
    ∧ ((ask 2 1 0 (List.replicate 16 0)).op = 2 ∧ (windowed 0 0 0).refusal 2 0 4 none = some E.REMOTE_ACCESS ∧ (windowed 0 0 1).refusal 2 0 4 none = none
      ∧ (busAtom true 9 4 0 0 0 (windowed 0 0 1)).2 = .ok (List.replicate 4 0) ∧ (busAtom true 0 4 0x3FFFFFFF000 0 0 (windowed 0 0 1)).2 = .fail E.ADDR_UNMAPPED
      ∧ (busAtom true 0 4 0x20000000000 0 0 (coreWin 2 1)).2 = .wait) := by
  refine ⟨by decide, by decide, by decide, by decide, by decide⟩
/-- A packet of the path and channel of an access from link 31's endpoint waits in the fabric. -/
def heldUp (s : State) (dst vc : Nat) : State := { s with fab := jam 0x43F dst vc }
theorem test_hyp_remoteHeld :
    ((windowed 1 0 0).fabOpen 0x43F 0 0 = true ∧ (coreWin 0 0).fabOpen 0x43F 0x20000000000 0 = true ∧ (coreWin 0 0).fabOpen 0x43F 0x20000000000 2 = true
      ∧ (coreWin 2 1).fabOpen 0x43F 0x20000000000 0 = true ∧ (coreWin 2 1).fabOpen 0x43F 0x20000000000 2 = true
      ∧ (windowed 0 1 0).fabOpen 0x43F 0 2 = true ∧ (windowed 0 1 0).fabOpen 0x43F 0x3FFFFFFF000 2 = true ∧ (windowed 0 0 1).fabOpen 0x43F 0x3FFFFFFF000 0 = true)
    ∧ ((heldUp (windowed 1 0 0) 0x400 0).fabOpen 0x43F 0 0 = false ∧ (heldUp (windowed 1 0 0) 0x400 0).refusal 0 0 8 none = none)
    ∧ ((heldUp (windowed 0 1 0) 0x400 2).fabOpen 0x43F 0 2 = false ∧ (heldUp (windowed 0 1 0) 0x400 2).refusal 1 0 1 none = none)
    ∧ ((heldUp (windowed 0 0 1) 0x400 0).fabOpen 0x43F 0 0 = false ∧ (heldUp (windowed 0 0 1) 0x400 0).refusal 2 0 4 none = none) := by
  refine ⟨by decide, by decide, by decide, by decide⟩
/-- The COPY's run over one piece. -/
def run1 (s : State) : CopyRun := copyPiece (copyReq 5) 0 1 0x1000 { st := s } (0, 16)
theorem test_hyp_remoteCopy :
    ((copyReq 5).op = 3 ∧ (windowed 0 0 0).refusal 0 (copyReq 5).addr.toNat 16 none = some E.REMOTE_ACCESS
      ∧ (windowed 1 0 0).refusal 0 (copyReq 5).addr.toNat 16 none = none ∧ numAt (copyReq 5).data 8 8 = 16)
    ∧ (byQp6.isSelf 6 = false ∧ byQp6.route 6 = .qp 7 ∧ (numAt (copyReq 6).data 0 8) / 2 ^ 42 = 6 ∧ (windowed 1 0 0).isSelf 5 = true)
    ∧ (copyWaits (coreWin 2 1) 0x20000000000 (6 * 2 ^ 42) 16 = true ∧ (coreWin 2 1).isSelf 6 = false
      ∧ copyWaits (coreWin 2 1) 0x20000000000 (5 * 2 ^ 42) 16 = true ∧ (coreWin 2 1).isSelf 5 = true
      ∧ copyWaits (windowed 1 1 0) 0 (5 * 2 ^ 42 + 0x1000) 16 = false)
    ∧ copyPieces (16 / 1024 + 4) 0 0x1000 0 16 = [(0, 16)] ∧ copyPieces (3 / 1024 + 4) 2047 2046 0 3 = [(0, 1), (1, 1), (2, 1)]
    -- pieces: read here, the destination here with and without a window, elsewhere with and without a route
    ∧ ((busRead true 0 16 (windowed 1 1 0)).2 = .ok (List.replicate 16 0) ∧ (windowed 1 1 0).refusal 1 16 16 none = none
      ∧ (windowed 1 0 0).refusal 1 16 16 none = some E.REMOTE_ACCESS ∧ (busWrite none true true 16 (List.replicate 16 0) (windowed 1 1 0)).2 = .ok [])
    ∧ (((windowed 1 1 0).sendEng { src := .engine 0x400 1, ep := 0, vc := 1, node := 6, op := 1, addr := 0x1000, len := 16, data := [] }).2 = some E.LINK_DOWN
      ∧ (byQp6.sendEng { src := .engine 0x400 1, ep := 0, vc := 1, node := 6, op := 1, addr := 0x1000, len := 16, data := [] }).2 = none) := by
  refine ⟨by decide, by decide, by decide, by decide, by decide, by decide, by decide⟩
theorem test_hyp_atomicValues : (0xFFFFFFFF : Nat) < 2 ^ (8 * 4) ∧ (0xFFFFFFFFFFFFFFFF : Nat) < 2 ^ (8 * 8)
    ∧ (BitVec.ofNat (8 * 8) 0xFFFFFFFFFFFFFFFF).sle (BitVec.ofNat (8 * 8) 1) = true ∧ (BitVec.ofNat (8 * 4) 0x80000000).slt (BitVec.ofNat (8 * 4) 0) = true := by decide
theorem test_hyp_recordsTaken : (ask 9 3 0 []).op = 9 ∧ (ask 10 4 0 []).op = 10 ∧ (wsegArrive 0 0 0 [] (linked 5)).2 = true
    ∧ (gbkArrive 0 0 0 0 0 4 [] (linked 5)).2 = true := by decide

/-- A state with outstanding requests. -/
def owing (l : List OutReq) : State := { linked 5 with net := { reqs := l } }
def owed (op : Nat) : OutReq := { tag := 1, link := 31, node := 9, op := op, src := .slot 0 0 }
/-- Whether a request is one that a response of the table answers. -/
def fitsAsk (want : Nat → Bool) (q : OutReq) : Bool :=
  q.qp.isNone && decide (q.tag = (ask 4 2 0 []).tag.toNat ∧ q.link = (ask 4 2 0 []).link.toNat ∧ q.node = (ask 4 2 0 []).src.toNat) && want q.op
theorem test_hyp_responses :
    (∀ r ∈ Slice0.responses, State.reset.takes (ask 4 2 0 []) r.2.1 = false ∧ (linked 5).takes (ask 4 2 0 []) r.2.1 = true
      ∧ (linked 5).net.reqs.find? (fitsAsk r.2.2.1) = none)
    ∧ (∀ e ∈ Slice0.responses.zip [0, 1, 2, 3, 3], (owing [owed e.2]).takes (ask 4 2 0 []) e.1.2.1 = true
      ∧ (owing [owed e.2]).net.reqs.find? (fitsAsk e.1.2.2.1) = some (owed e.2)) := by decide

/-- A control record of a kind, with zeros. -/
def ctl (kind last : Nat) : List Byte := leBytes 1 kind ++ List.replicate 62 0 ++ leBytes 1 last
/-- Node 9 is the listed peer; a start is on, or a job is loaded. -/
def peered (starting : Nat) (job : Bool) (c : Ckpt) : State :=
  { regs [(F.DEV_HB_LIST_valid 63, 1), (F.DEV_HB_LIST_node 63, 9), (F.WSTREAM_JOB_STS_starting, starting)] with jobLoaded := job, ckpt := c }
/-- The owner table's first entry names an owner and a Shadow, in edge memory from byte 524,288. -/
def owned (o sh : Nat) : State :=
  { (regs [(F.DEV_NODE_ID_node_id, 5), (F.DEV_HIER_GRP_g_hall, 1), (F.RED_OWNER_LEN, 1), (F.RED_OWNER_BASE, 1)]) with mem := poke [(0x80000, 4, o), (0x80004, 4, sh)] ⟨[], []⟩ }
theorem test_hyp_controlRecords : State.reset.linkUp (31 : BitVec 5).toNat = false ∧ (linked 5).linkUp (31 : BitVec 5).toNat = true
    ∧ (∀ k < 4, ctlOk k (ctl k 0) = true) ∧ (∀ k < 4, ctlOk k (ctl 4 0) = false) ∧ (∀ k < 4, ctlOk k [] = false) ∧ ctlOk 0 (ctl 0 1) = false
    ∧ (Sparse.find ((linked 5).lnk 31).heads 0 = none ∧ Sparse.find (({ linked 5 with net := { links := [(31, { heads := [(0, [7])] })] } } : State).lnk 31).heads 0 = some [7])
    ∧ State.reset.jobLoaded = false ∧ (peered 0 true {}).hbList = [9] ∧ (peered 0 true {}).jobLoaded = true := by
  refine ⟨by decide, by decide, by decide, by decide, by decide, by decide, by decide, by decide, by decide, by decide⟩
theorem test_hyp_peerLoss : State.reset.jobLoaded = false ∧ State.reset.flag F.WSTREAM_JOB_STS_starting = false ∧ 9 ∉ State.reset.hbList
    ∧ ((peered 1 false {}).flag F.WSTREAM_JOB_STS_starting = true ∧ 9 ∈ (peered 1 false {}).hbList ∧ 9 ∉ (peered 1 false {}).net.gone
      ∧ 9 ∈ ({ peered 1 false {} with net := { gone := [9] } } : State).net.gone)
    ∧ (owned 5 9).ownerNodes 0 = (5, 9) ∧ (owned 9 5).ownerNodes 0 = (9, 5) ∧ (0 < (owned 5 9).fld F.RED_OWNER_LEN) ∧ (owned 5 9).isSelf 5 = true
    ∧ 9 ∈ (peered 0 true { members := [9] }).ckpt.members ∧ (peered 0 true {}).ckpt.heir = false ∧ (peered 0 true {}).ckpt.aborted = false := by
  refine ⟨by decide, by decide, by decide, by decide, by decide, by decide, by decide, by decide, by decide, by decide, by decide⟩
/-- The root of a job with one listed peer, a member: what the loss of it comes to, before the root decides. -/
def rooted : State :=
  { (regs [(F.DEV_NODE_ID_node_id, 5), (F.DEV_HIER_GRP_g_hall, 1), (F.DEV_HB_LIST_valid 63, 1), (F.DEV_HB_LIST_node 63, 9), (F.RED_OWNER_LEN, 1), (F.RED_OWNER_BASE, 1)]) with
    mem := poke [(0x80000, 4, 5), (0x80004, 4, 7)] ⟨[], []⟩, jobLoaded := true, ckpt := { members := [9] } }
theorem test_hyp_peerLossRoot :
    let s1 := { rooted with net := { rooted.net with gone := 9 :: rooted.net.gone } }
    let s2 := (failReqs (fun r => decide (r.node = 9)) E.PEER_LOST s1).raise EV.PEER_LOST 8 9 (leBytes 3 9 ++ leBytes 1 0)
    let s3 := streamsDrop 9 s2
    let s4 := rolesLost 9 s3
    s3.jobLoaded = true ∧ s4.redPeer 9 = false ∧ s4.isSelf s4.rootNode = true ∧ s4.ckpt.heir = false ∧ s4.ckpt.aborted = false ∧ 9 ∈ rooted.ckpt.members := by decide

/-- Queue pair 8,191, on port a of link 31, which is in Ethernet mode; window 15 opens the first page. -/
def paired (st r w : Nat) : State := ((windowed r w 0).setFld (F.LINK_STS_port_a 31) 2).setFld (F.LINK_QP_state 31 255) st
def qpReq : OutReq := { tag := 1, link := 31, qp := some 8191, node := 9, op := 0, src := .slot 0 0 }
def qpOwing (st : Nat) : State := { paired st 1 1 with net := { reqs := [qpReq] } }
def qpOf (s : State) : List OutReq := s.net.reqs.filter (fun r => decide (r.qp = some 8191))
/-- A plan with one entry and stream 0 with identifier 2 and 64 slots. -/
def streaming : State :=
  { ((paired 2 1 1).setFld (F.WSTREAM_STREAM_slots 0) 64).setFld (F.WSTREAM_STREAM_id 0) 2 with ws := { plan := some ([], []) } }
def streaming2 : State := streaming.setFlag (F.WSTREAM_STREAM_valid 0) true
/-- The priority of queue pair 8,191 is paused. -/
def pausedQp : State := { paired 3 1 1 with net := { paused := [((paired 3 1 1).pauseKey 8191, 1)] } }
theorem test_hyp_queuePairs : State.reset.qpTakes (8191 : BitVec 13).toNat = false ∧ (paired 1 0 0).qpTakes 8191 = false ∧ (paired 2 1 1).qpTakes (8191 : BitVec 13).toNat = true
    ∧ ((paired 3 1 1).qpTakes 8191 = true ∧ ({} : RoceMsg).ecn = false ∧ ({ ecn := true } : RoceMsg).ecn = true ∧ (paired 2 1 1).net.inb = [])
    ∧ ((paired 2 0 0).refusal 1 0 4096 (some 7) = some E.REMOTE_ACCESS ∧ (paired 2 0 1).refusal 1 0 4096 (some 7) = none ∧ (paired 2 0 1).refusal 1 0 4096 (some 8) ≠ none
      ∧ (busWrite none true true 0 [7] (paired 2 0 1)).2 = .ok [] ∧ (busWrite none true true 0x20000000000 [7] (coreWin 0 0)).2 = .lost
      ∧ (busWrite none true true 0x20000000000 [7] (coreWin 2 1)).2 = .wait)
    ∧ ((paired 2 0 0).refusal 0 0 4096 (some 7) = some E.REMOTE_ACCESS ∧ (paired 2 1 0).refusal 0 0 4096 (some 7) = none
      ∧ (busRead true 0 8 (paired 2 1 0)).2 = .ok (List.replicate 8 0) ∧ (busRead true 0x20000000000 8 (coreWin 0 0)).2 = .fail E.FABRIC_DEST_DOWN)
    ∧ (streaming2.streamOf (fieldOf (0xFFFF0002 : BitVec 32) 0 16) = some 0 ∧ (paired 2 0 0).streamOf 2 = none
      ∧ (wsegArrive 2 (streaming2.recordNo 0 65535) 0 [7] streaming2).2 = true)
    ∧ (qpOf (paired 2 0 0) = [] ∧ qpOf (qpOwing 2) = qpReq :: [] ∧ (qpOwing 2).qpTakes 8191 = true ∧ (qpOwing 2).qpState 8191 ≠ 3)
    ∧ (qpOf (qpOwing 3) = [qpReq] ∧ (qpOwing 3).qpState 8191 = 3 ∧ ¬ (qpOwing 3).fld (F.LINK_QP_retry 31 255) ≤ ((qpOwing 3).qpT 8191).tries
      ∧ ((qpOwing 3).setFld (F.LINK_QP_retry 31 255) 0).fld (F.LINK_QP_retry 31 255) ≤ (((qpOwing 3).setFld (F.LINK_QP_retry 31 255) 0).qpT 8191).tries)
    ∧ (State.reset.fld (F.LINK_STS_port_b 31) ≠ 2 ∧ (paired 2 0 0).fld (F.LINK_STS_port_a 31) = 2) := by
  refine ⟨by decide, by decide, by decide, by decide, by decide, by decide, by decide, by decide, by decide, by decide⟩
/-- Queue pair 8,191 expects sequence number 5; a message of it waits where asked. -/
def expects (m : List Inb) (late : List Nat) (tries : Nat) (reqs : List OutReq) : State :=
  { paired 3 1 1 with net := { qps := [(8191, { rx := some 5, late := late, tries := tries })], inb := m, reqs := reqs } }
theorem test_hyp_sequenceNumbers : (State.reset.qpT 8191).rx = none ∧ ((expects [] [] 0 []).qpT 8191).rx = some 5
    ∧ ((6 + 2 ^ 24 - 5) % 2 ^ 24 < 2 ^ 23 ∧ 2 ^ 23 ≤ (4 + 2 ^ 24 - 5) % 2 ^ 24)
    ∧ (∃ j ∈ (expects [.roce 1 8191 {}] [] 0 []).net.inb, j.flow = (1, 8191, 0, 0)) ∧ (expects [] [] 0 []).net.inb = [] := by
  refine ⟨by decide, by decide, by decide, ⟨_, List.mem_cons_self .., by decide⟩, by decide⟩
theorem test_hyp_messageCredits : ((heldUp (paired 2 0 1) 0x400 2).refusal 1 0 1 (some 7) = none ∧ (heldUp (paired 2 0 1) 0x400 2).fabOpen (0x420 + 8191 / 256) 0 2 = false
      ∧ (paired 2 0 1).fabOpen (0x420 + 8191 / 256) 0 2 = true)
    ∧ ((heldUp (paired 2 1 0) 0x400 0).refusal 0 0 1 (some 7) = none ∧ (heldUp (paired 2 1 0) 0x400 0).fabOpen (0x420 + 8191 / 256) 0 0 = false
      ∧ (paired 2 1 0).fabOpen (0x420 + 8191 / 256) 0 0 = true) := by decide
/-- A write and a read of queue pair 8,191 with sequence numbers 5 and 6. -/
def qpWrite : OutReq := { qpReq with op := 1, msg := { psn := 5 } }
def qpRead : OutReq := { qpReq with tag := 2, msg := { psn := 6 } }
/-- Whether an answer with sequence number 5 or 6 names a request. -/
def hits (s : State) (n : Nat) (r : OutReq) : Bool := decide ((r.msg.psn + s.qpCount 8191 r.op r.msg + 2 ^ 24 - 1) % 2 ^ 24 = n)
theorem test_hyp_queuePairAnswers :
    (5 ∈ ((expects [] [5] 0 []).qpT 8191).late ∧ qpOf (expects [] [5] 0 []) = [] ∧ ((expects [] [] 0 [qpWrite]).qpT 8191).late = [])
    ∧ (({ nak := true, psn := 5 } : RoceMsg).nak = true ∧ ({ nak := true, psn := 5 } : RoceMsg).nakCode = 0 ∧ ({ nak := true, nakCode := 2 } : RoceMsg).nakCode ≠ 0)
    ∧ ((qpOf (expects [] [] 0 [qpWrite])).dropWhile (fun r => decide (r.msg.psn ≠ 6)) = [] ∧ (qpOf (expects [] [] 0 [qpWrite, qpRead])).dropWhile (fun r => decide (r.msg.psn ≠ 6)) = [qpRead]
      ∧ (expects [] [] 0 []).qpState 8191 = 3 ∧ ¬ (expects [] [] 0 []).fld (F.LINK_QP_retry 31 255) ≤ ((expects [] [] 0 []).qpT 8191).tries
      ∧ (expects [] [] 7 []).fld (F.LINK_QP_retry 31 255) ≤ ((expects [] [] 7 []).qpT 8191).tries)
    ∧ ((qpOf (expects [] [] 0 [qpWrite])).all (fun r => !hits (expects [] [] 0 []) 9 r) = true)
    -- an answer of the read completes the write before it, one of the write does not pass the read
    ∧ (qpOf (expects [] [] 0 [qpWrite, qpRead]) = [qpWrite] ++ qpRead :: [] ∧ hits (expects [] [] 0 []) 6 qpRead = true ∧ hits (expects [] [] 0 []) 6 qpWrite = false
      ∧ [qpWrite].takeWhile (fun x => decide (x.op ≠ 0)) = [qpWrite])
    ∧ (qpOf (expects [] [] 0 [qpRead, qpWrite]) = [qpRead] ++ qpWrite :: [] ∧ hits (expects [] [] 0 []) 5 qpWrite = true ∧ hits (expects [] [] 0 []) 5 qpRead = false
      ∧ [qpRead].takeWhile (fun x => decide (x.op ≠ 0)) ≠ [qpRead])
    ∧ (expects [] [] 0 []).qpTakes 8191 = true := by
  refine ⟨by decide, by decide, by decide, by decide, by decide, by decide, by decide⟩
theorem test_hyp_messagesLeave : Sparse.find pausedQp.net.paused (pausedQp.pauseKey 8191) ≠ none
    ∧ ¬ (Sparse.find (paired 3 1 1).net.paused ((paired 3 1 1).pauseKey 8191) ≠ none ∨ ∃ e ∈ (paired 3 1 1).net.ethq, e.1 = (paired 3 1 1).pauseKey 8191) := by
  refine ⟨?_, ?_⟩
  · have h : pausedQp.pauseKey 8191 = (paired 3 1 1).pauseKey 8191 := rfl
    rw [h]; simp [pausedQp, Sparse.find]
  · rintro (h | ⟨e, he, _⟩)
    · exact h rfl
    · exact absurd (show e ∈ ([] : List (Nat × Out)) from he) (by simp)

/-! ### Weight intake -/

/-- A plan of one entry of 64 bytes at the start of edge memory, with reservations for it and for 64 retention slots. -/
def planned : State :=
  { regs [(F.WSTREAM_PLAN_BASE, 0x10000), (F.WSTREAM_PLAN_LEN, 1), (F.WSTREAM_RESV_BASE, 0x20), (F.WSTREAM_RESV_LEN, 2)] with
    mem := poke [(0x10000, 8, 64), (0x10016, 2, 1), (0x20008, 7, 4096), (0x2000F, 1, 1), (0x20010, 8, 0x8000000), (0x20018, 7, 64 * 0x101000), (0x2001F, 1, 3)] ⟨[], []⟩ }
def ent0 : PlanEnt := { num := 0, bytes := 64, dbase := 0, perCore := 0, first := 0, ncores := 1, sram := false, evflag := 0, buf := 0 }
theorem test_hyp_planLoad : (0 : W64).getLsbD 0 = false ∧ (peered 0 true {}).jobLoaded = true ∧ (1 : W64).getLsbD 0 = true ∧ planned.jobLoaded = false
    ∧ State.reset.fld F.WSTREAM_PLAN_LEN = 0 ∧ planCheck State.reset = .inr E.LOAD_PLAN_INVALID
    ∧ planCheck planned = .inl ([ent0], [⟨0, 4096, 1⟩, ⟨0x8000000, 64 * 0x101000, 3⟩]) := by decide

/-- A record that has come, with its header or whole. -/
def rec0 (got : Nat) : WRec := { stream := 0, no := 0, got := got }
/-- Installed keys, whether the next install is the first of a job, and records. -/
def keyed (l : List (Nat × List Byte)) (fresh : Bool) (rs : List WRec) : State := { State.reset with ws := { keys := l, fresh := fresh, recs := rs } }
-- whether a wrapped key opens rests on the module's key, a free value: the clauses on what opening gives hold for each of its values
theorem test_hyp_keyInstalls : ({ State.reset with lodge := { debug := true } } : State).lodge.debug = true
    ∧ ({ State.reset with lodge := { keys := false } } : State).lodge.keys = false ∧ ({ State.reset with lodge := { noIv := true } } : State).lodge.noIv = true
    ∧ (State.reset.lodge.debug = false ∧ State.reset.lodge.noIv = false ∧ ({ State.reset with lodge := { keys := true } } : State).lodge.keys = true)
    ∧ (({ State.reset with boot := { quiet := true } } : State).boot.quiet = true ∧ (regs [(F.DEV_RUNOUT_STS_stage, 7)]).fld F.DEV_RUNOUT_STS_stage = 7
      ∧ State.reset.boot.quiet = false ∧ State.reset.fld F.DEV_RUNOUT_STS_stage ≠ 7) ∧ (List.replicate 32 (0 : Byte)).length = 32 ∧ ([] : List Byte).length ≠ 32
    ∧ ((keyed [] true []).ws.fresh = true ∧ (keyed [] true []).ws.keys = [] ∧ (keyed [(3, [])] false []).ws.fresh = false ∧ (keyed [(3, [])] false []).ws.keys = [(3, [])])
    ∧ ((keyed [(3, []), (4, [])] false []).ws.keys = (3, []) :: (4, []) :: [] ∧ epochWaits (keyed [(3, []), (4, [])] false [rec0 64]) 3 = false
      ∧ epochWaits (keyed [(3, []), (4, [])] false [rec0 64]) 0 = true)
    ∧ ((keyed [(3, []), (4, [])] false []).ws.keys.getLast? = some (4, []) ∧ (4 : BitVec 16).toNat ≤ 4 ∧ 4 < (5 : BitVec 16).toNat) := by decide

/-- Stream entry 15 of identifier 2 with as many slots; a plan, and records. -/
def segmented (slots next : Nat) (rs : List WRec) (m : List CDesc) : State :=
  { regs [(F.WSTREAM_STREAM_slots 15, slots), (F.WSTREAM_STREAM_id 15, 2), (F.DEV_NODE_ID_node_id, 0), (F.CKPT_STS_phase, 2)] with
    mem := poke [(4, 4, 9)] ⟨[], []⟩, ws := { plan := some ([ent0], [⟨0, 64 * 0x101000, 3⟩]), recs := rs, next := [(15, next)] }, ckpt := { descs := m } }
def segmented2 (slots next : Nat) (rs : List WRec) (m : List CDesc) : State := (segmented slots next rs m).setFlag (F.WSTREAM_STREAM_valid 15) true
theorem test_hyp_segmentsArrive : State.reset.ws.plan = none ∧ (segmented 1 0 [] []).streamOf 2 = none
    ∧ ((segmented2 1 0 [] []).ws.plan = some ([ent0], [⟨0, 64 * 0x101000, 3⟩]) ∧ (segmented2 1 0 [] []).streamOf 2 = some 15 ∧ (segmented2 1 0 [] []).ws.find 15 0 = none)
    ∧ (0 < Sparse.get (segmented2 1 1 [] []).ws.next 0 15 ∧ Sparse.get (segmented2 1 1 [] []).ws.next 0 15 ≤ 1)
    ∧ ((segmented2 0 0 [] []).fld (F.WSTREAM_STREAM_slots 15) = 0
      ∧ ∃ x ∈ (segmented2 1 0 [{ stream := 15, no := 1 }] []).ws.recs, x.stream = 15 ∧ x.no ≠ 0 ∧ x.no % 1 = 0 % 1)
    ∧ ((segmented2 1 0 [] []).clear 0 1 = true ∧ (segmented2 1 0 [] [cleanT]).clear 0 1 = false ∧ (segmented2 1 0 [] []).slotAddr 15 0 = 0)
    ∧ ((segmented2 1 0 [{ stream := 15, no := 0, done := true }] []).ws.find 15 0 = some { stream := 15, no := 0, done := true }
      ∧ (segmented2 1 0 [{ stream := 15, no := 0 }] []).ws.find 15 0 = some { stream := 15, no := 0 }) := by
  refine ⟨by decide, by decide, by decide, by decide, ⟨by decide, _, List.mem_cons_self .., by decide, by decide, by decide⟩, by decide, by decide⟩

/-- The tree root's image stream, stream 15 with one slot; a handled image record stands in it. -/
def treeRoot : State :=
  { ((segmented2 1 0 [] []).setFlag (F.WSTREAM_TREE_valid 4) true).setFld F.DEV_NODE_ID_node_id 0 with
    ws := { (segmented2 1 0 [] []).ws with istream := some 15, irecs := [(0, 5, 0)] } }
theorem test_hyp_retainedImages : (treeRoot.holder 4).1 = true ∧ treeRoot.isSelf (treeRoot.holder 4).2.1 = true ∧ treeRoot.imageStream = some 15
    ∧ treeRoot.ws.find 15 0 = none ∧ Sparse.get treeRoot.ws.next 0 15 ≤ 0 ∧ (∃ q ∈ treeRoot.ws.irecs, q.2.1 ≠ 0 ∧ q.2.1 % 1 = 0 % 1) := by
  refine ⟨by decide, by decide, by decide, by decide, by decide, by decide⟩

/-- A record of entry 0 of 16 bytes: header, initialisation vector, ciphertext and tag in slot 0, under a key of zeros in epoch 3. -/
def zkey : List Byte := List.replicate 32 0
def hdrMem (ver epoch : Nat) : Mem :=
  poke [(0x8000000, 1, 1), (0x8000002, 2, epoch), (0x8000004, 4, 16), (0x8000010, 8, ver)] ⟨[], []⟩
def recMem (ver epoch : Nat) : Mem :=
  poke [(0x8000050, 16, leNat (gcmTag (aesRoundKeys zkey) (List.replicate 12 0) ((hdrMem ver epoch).bytes 0x8000000 64) (List.replicate 16 0)))] (hdrMem ver epoch)
/-- The header of a record of image 1, and a whole record of the manifest. -/
def imgMem : Mem := poke [(0x8000001, 1, 1), (0x800001C, 2, 1)] (hdrMem 0 3)
def manMem : Mem :=
  poke [(0x8000050, 16, leNat (gcmTag (aesRoundKeys zkey) (List.replicate 12 0) ((poke [(0x8000001, 1, 1)] (hdrMem 0 3)).bytes 0x8000000 64) (List.replicate 16 0)))]
    (poke [(0x8000001, 1, 1)] (hdrMem 0 3))
def intake (m : Mem) (ver : Nat) (x : WRec) : State :=
  { regs [(F.WSTREAM_STREAM_slots 0, 64), (F.CKPT_STEP_step, ver)] with
    mem := m
    ws := { keys := [(3, zkey), (4, zkey)], plan := some ([ent0], [⟨0x8000000, 64 * 0x101000, 3⟩]), recs := [x] } }
/-- Whether a record is ready: not handled, whole, and its turn. -/
def isReady (s : State) (x : WRec) : Bool := !x.done && recWhole s x && (x.again || decide (0 = Sparse.get s.ws.next 0 0))
def badAt (s : State) : Bool := recBad s (s.recHdr 0 0)
theorem test_hyp_recordTurn :
    State.reset.ws.find 15 0 = none ∧ (intake (hdrMem 0 3) 0 (rec0 96)).ws.find 0 0 = some (rec0 96)
    ∧ (isReady (intake (hdrMem 0 3) 0 (rec0 96)) (rec0 96) = true ∧ isReady (intake (hdrMem 0 3) 0 (rec0 95)) (rec0 95) = false)
    ∧ (isReady (intake ⟨[], []⟩ 0 (rec0 64)) (rec0 64) = true ∧ badAt (intake ⟨[], []⟩ 0 (rec0 64)) = true ∧ badAt (intake (hdrMem 0 3) 0 (rec0 96)) = false)
    -- an old epoch, an old version, no key, a version to come
    ∧ ((intake (hdrMem 0 2) 0 (rec0 96)).recHdr 0 0 2 2 < 3 ∧ (intake (hdrMem 0 2) 0 (rec0 96)).ws.keys = (3, zkey) :: [(4, zkey)] ∧ badAt (intake (hdrMem 0 2) 0 (rec0 96)) = false)
    ∧ ((intake (hdrMem 0 3) 1 (rec0 96)).recHdr 0 0 1 1 = 0 ∧ (intake (hdrMem 0 3) 1 (rec0 96)).recHdr 0 0 16 8 < (intake (hdrMem 0 3) 1 (rec0 96)).wver
      ∧ badAt (intake (hdrMem 0 3) 1 (rec0 96)) = false)
    ∧ (Sparse.find (intake (hdrMem 0 5) 0 (rec0 96)).ws.keys ((intake (hdrMem 0 5) 0 (rec0 96)).recHdr 0 0 2 2) = none ∧ badAt (intake (hdrMem 0 5) 0 (rec0 96)) = false)
    ∧ (Sparse.find (intake (hdrMem 1 4) 0 (rec0 96)).ws.keys ((intake (hdrMem 1 4) 0 (rec0 96)).recHdr 0 0 2 2) = some zkey
      ∧ (intake (hdrMem 1 4) 0 (rec0 96)).wver < (intake (hdrMem 1 4) 0 (rec0 96)).recHdr 0 0 16 8 ∧ badAt (intake (hdrMem 1 4) 0 (rec0 96)) = false) := by
  refine ⟨by decide, by decide, by decide, by decide, by decide, by decide, by decide, by decide⟩
-- the key is there: an old version, a buffer group that is not free, an image before the manifest, alone and beside records that are fetched again
theorem test_hyp_recordWaits : (Sparse.find (intake (hdrMem 0 3) 1 (rec0 96)).ws.keys ((intake (hdrMem 0 3) 1 (rec0 96)).recHdr 0 0 2 2) = some zkey
      ∧ (intake (hdrMem 0 3) 1 (rec0 96)).recHdr 0 0 16 8 < (intake (hdrMem 0 3) 1 (rec0 96)).wver)
    ∧ ({ (intake (hdrMem 0 3) 0 (rec0 96)).ws with plan := some ([{ ent0 with buf := 1 }], []), released := [(1, [0])] } : Wstream).bufFree 0 = false
    ∧ (isReady (intake imgMem 0 (rec0 96)) (rec0 96) = true ∧ badAt (intake imgMem 0 (rec0 96)) = false ∧ (intake imgMem 0 (rec0 96)).recHdr 0 0 1 1 = 1
      ∧ (intake imgMem 0 (rec0 96)).recHdr 0 0 28 2 = 1 ∧ (intake imgMem 0 (rec0 96)).ws.manifest = none
      ∧ Sparse.find (intake imgMem 0 (rec0 96)).ws.keys ((intake imgMem 0 (rec0 96)).recHdr 0 0 2 2) = some zkey ∧ (intake imgMem 0 (rec0 96)).ws.waiting = [])
    ∧ ((∃ y ∈ (intake imgMem 0 { rec0 96 with again := true }).ws.recs, y.again = true ∧ y.done = false)
      ∧ ¬ ∃ y ∈ (intake imgMem 0 (rec0 96)).ws.recs, y.again = true ∧ y.done = false) := by
  refine ⟨by decide, by decide, by decide, by decide⟩
/-- The opening of the record in a memory. -/
def opens (m : Mem) : Option (List Byte) := gcmOpen zkey (m.bytes 0x8000020 12) (m.bytes 0x8000000 64) (m.bytes 0x8000040 16) (m.bytes 0x8000050 16)
theorem test_hyp_recordOpens : opens (hdrMem 0 3) = none ∧ (opens (recMem 0 3)).isSome = true ∧ (opens manMem).isSome = true := by decide +kernel
theorem test_hyp_manifestWritten : (intake manMem 0 (rec0 96)).recHdr 0 0 1 1 = 1 ∧ (intake manMem 0 (rec0 96)).recHdr 0 0 28 2 = 0
    ∧ State.spreadFree 0x400 (intake manMem 0 (rec0 96)) (recDest (intake manMem 0 (rec0 96)) 1 0 0 16) = true
    ∧ 0 ∉ Sparse.get (intake manMem 0 (rec0 96)).ws.isegs [] 0 ∧ 0 ∈ Sparse.get ({ (intake manMem 0 (rec0 96)).ws with isegs := [(0, [0])] } : Wstream).isegs [] 0 := by decide +kernel
theorem test_hyp_recordWritten : (intake (hdrMem 0 3) 0 (rec0 96)).ws.bufFree 0 = true ∧ (intake (hdrMem 0 3) 0 (rec0 96)).wver = (intake (hdrMem 0 3) 0 (rec0 96)).recHdr 0 0 16 8
    ∧ (intake (hdrMem 0 3) 0 (rec0 96)).slotAddr 0 0 = 0x8000000
    ∧ recDest (intake (hdrMem 0 3) 0 (rec0 96)) 0 0 0 16 = [(0, 16)] ∧ State.spreadFree 0x400 (intake (hdrMem 0 3) 0 (rec0 96)) [(0, 16)] = true
    ∧ State.spreadFree 0x400 (coreWin 2 1) [(0x20000000000, 16)] = false
    ∧ (16 ≠ Nat.min 1048576 (ent0.bytes - 0 * 1048576) ∧ 64 = Nat.min 1048576 (ent0.bytes - 0 * 1048576)) := by decide
theorem test_hyp_imageFailures : (intake imgMem 0 (rec0 96)).recHdr 0 0 1 1 = 1 ∧ 2 ≤ ({ rec0 96 with fails := 2 } : WRec).fails ∧ (rec0 96).fails < 2
    ∧ (intake imgMem 0 (rec0 96)).ws.source = none ∧ ({ (intake imgMem 0 (rec0 96)).ws with source := some 2 } : Wstream).source ≠ none := by decide
theorem test_hyp_recordFailures : (State.reset.recHdr 0 0 1 1 ≠ 1 ∧ (rec0 64).fails < 2 ∧ 2 ≤ ({ rec0 64 with fails := 2 } : WRec).fails)
    ∧ 0 ∉ State.reset.ws.failed ∧ 0 ∈ ({ State.reset with ws := { failed := [0] } } : State).ws.failed := by decide

/-- Entries 0 and 1 share buffer group 1; entry 0 belongs to core 0. -/
def grouped (segs : Sparse (List Nat)) (failed : List Nat) : State :=
  { State.reset with ws := { plan := some ([{ ent0 with buf := 1 }, { ent0 with num := 1, buf := 1 }], []), segs := segs, failed := failed } }
theorem test_hyp_entriesAndGroups : State.reset.ws.ent (0 : BitVec 16).toNat = none ∧ (grouped [] []).ws.ent (0 : BitVec 16).toNat = some { ent0 with buf := 1 }
    ∧ (Sparse.get (grouped [] []).ws.segs [] 0).length < ceilDiv ent0.bytes 1048576 ∧ 0 ∈ (grouped [(0, [0])] [0]).ws.failed
    ∧ (ceilDiv ent0.bytes 1048576 ≤ (Sparse.get (grouped [(0, [0])] []).ws.segs [] 0).length ∧ 0 ∉ (grouped [(0, [0])] []).ws.failed)
    ∧ ((grouped [] []).ws.ents.filter (fun y => decide (y.buf = 1)) = [{ ent0 with buf := 1 }, { ent0 with num := 1, buf := 1 }]
      ∧ Sparse.get (grouped [] []).ws.released [] 1 = [] ∧ Sparse.get (grouped [] []).ws.relBy [] 1 = [] ∧ ent0.first ≤ (0 : BitVec 10).toNat ∧ (0 : BitVec 10).toNat < ent0.first + ent0.ncores)
    ∧ (0 :: Sparse.get (grouped [] []).ws.relBy [] 1).length = ent0.ncores ∧ [0].length < ({ ent0 with ncores := 2 } : PlanEnt).ncores := by decide

def wb0 : WbReq := { core := 0, src := 0, roce := false, qp := 0, entry := 0, bytes := 64, wver := 0, dest := 0 }
/-- A write-back queue, keys, and how many initialisation vectors are left; the step is 1 where asked. -/
def wbState (l : List WbReq) (step iv : Nat) (keys : List (Nat × List Byte)) : State :=
  { regs [(F.CKPT_STEP_step, step)] with ws := { plan := some ([ent0], []), wbq := l, keys := keys, ivLeft := iv } }
theorem test_hyp_writeBacks : ((wbState [] 0 0 []).ws.wbq = [] ∧ (wbState [wb0] 0 0 []).ws.wbq = wb0 :: [] ∧ wb0.left = none ∧ ceilDiv wb0.bytes 1048576 = 1)
    ∧ (({ wb0 with left := some 0, next := 1 } : WbReq).left ≠ none ∧ 1 ≤ ({ wb0 with left := some 0, next := 1 } : WbReq).next)
    ∧ (wb0.wver ≠ (wbState [wb0] 1 0 []).fld F.CKPT_STEP_step ∧ wb0.wver = (wbState [wb0] 0 0 []).fld F.CKPT_STEP_step)
    ∧ ((wbState [wb0] 0 0 []).ws.keys = [] ∧ (wbState [wb0] 0 0 [(3, zkey)]).ws.keys ≠ [] ∧ Nat.min (1 - wb0.next) (wbState [wb0] 0 0 [(3, zkey)]).ws.ivLeft = 0 ∧ wb0.next < 1)
    ∧ ((wbState [wb0] 0 1 [(3, zkey)]).ws.keys.getLast? = some (3, zkey) ∧ Nat.min (1 - wb0.next) (wbState [wb0] 0 1 [(3, zkey)]).ws.ivLeft ≠ 0)
    ∧ ((wbState [wb0] 0 0 []).ws.ent 0 = some ent0 ∧ wb0.bad = false ∧ ({ wb0 with bad := true } : WbReq).bad = true ∧ State.reset.ws.ent 0 = none
      ∧ wb0.core < (wbState [wb0] 0 0 []).ncores ∧ (wbState [wb0] 0 0 []).ncores ≤ 896) := by decide

/-- This engine is node 0; queue pair 8,191 as given, a peer by OFP. -/
theorem test_hyp_writeBackWays : ((linked 5).isSelf ((0x9 <<< 42 : Nat) / 2 ^ 42) = false ∧ (segmented 1 0 [] []).isSelf (0 / 2 ^ 42) = true ∧ wb0.roce = false
      ∧ ({ wb0 with roce := true } : WbReq).roce = true)
    ∧ ((segmented 1 0 [] []).endpointOf 0 ≠ none ∧ (segmented 1 0 [] []).endpointOf 0x3FFFFFFFFFF = none)
    ∧ ((paired 3 1 1).qpState 8191 = 3 ∧ (paired 2 1 1).qpState 8191 ≠ 3)
    ∧ (((windowed 1 1 0).sendEng { src := .engine 0x3F0 1, ep := 0x3F0, vc := 0, node := 6, op := 1, addr := 0x1000, len := 16, data := [] }).2 = some E.LINK_DOWN
      ∧ (byQp6.sendEng { src := .engine 0x3F0 1, ep := 0x3F0, vc := 0, node := 6, op := 1, addr := 0x1000, len := 16, data := [] }).2 = none)
    ∧ (0 < Nat.min (1 - wb0.next) (wbState [wb0] 0 1 [(3, zkey)]).ws.ivLeft ∧ Nat.min (1 - wb0.next) (wbState [wb0] 0 1 [(3, zkey)]).ws.ivLeft = (wbState [wb0] 0 1 [(3, zkey)]).ws.ivLeft
      ∧ Nat.min (1 - wb0.next) (wbState [wb0] 0 2 [(3, zkey)]).ws.ivLeft ≠ (wbState [wb0] 0 2 [(3, zkey)]).ws.ivLeft)
    ∧ ({ wb0 with left := some 0, next := 1 } : WbReq).left = some 0 ∧ ({ wb0 with left := some 1, next := 1 } : WbReq).left ≠ some 0 := by
  refine ⟨by decide, by decide, by decide, by decide, by decide, by decide, by decide⟩

/-- A start waits for the images; the holder 4 of the tree is as given. -/
def starting (h : W64) : State := (regs [(F.WSTREAM_JOB_STS_starting, 1)]).setReg ((F.WSTREAM_TREE_node 4).addr) h
theorem test_hyp_treeRepair : State.reset.flag F.WSTREAM_JOB_STS_starting = false ∧ (starting 0).flag F.WSTREAM_JOB_STS_starting = true ∧ (starting 0).ws.imagesDone = false
    ∧ (starting 0).flag F.WSTREAM_JOB_CTL_route_reuse = false
    ∧ (starting 0).nextHolder ((starting 0).ws.source.getD 0) = none ∧ (starting 0x8000000000000009).nextHolder ((starting 0).ws.source.getD 0) = some 4 := by decide
/-- A fetch of a record of stream 15, and what its header must say where that is known. -/
def fetch0 (h : Option Nat) (w : Option (Nat × Nat × Nat)) : Fetch := { stream := 15, no := 0, holder := h, want := w }
-- a fetch of an image record by each sign of it, of a weight record; the holder after it, or none; the failures of the record
theorem test_hyp_fetchFails : ((fetch0 none (some (1, 0, 0))).want = some (1, 0, 0) ∧ (fetch0 (some 1) none).holder ≠ none ∧ treeRoot.imageStream = some (fetch0 none none).stream
      ∧ ¬ ((fetch0 none none).holder ≠ none ∨ (segmented2 1 0 [] []).imageStream = some (fetch0 none none).stream))
    ∧ ((starting 0x8000000000000009).nextHolder ((fetch0 none (some (1, 0, 0))).holder.getD 0) = some 4 ∧ (starting 0).nextHolder ((fetch0 none (some (1, 0, 0))).holder.getD 0) = none)
    ∧ (((segmented2 1 0 [] []).ws.find 15 0).getD { stream := 15, no := 0 }).fails < 2
    ∧ ¬ (((segmented2 1 0 [{ stream := 15, no := 0, fails := 2 }] []).ws.find 15 0).getD { stream := 15, no := 0 }).fails < 2
    ∧ (recordFailed { stream := 15, no := 0 } 0 (segmented2 1 0 [] [])).2 = true
    ∧ (recordFailed { stream := 15, no := 0, fails := 2 } 0 (segmented2 1 0 [] [])).2 = false := by
  refine ⟨by decide, by decide, by decide, by decide, by decide, by decide⟩

/-! ### Jobs, members, gradient tables -/

/-- Stage 9: the module has joined. -/
def ready (l : List (Fld × Nat)) : State := regs ((F.DEV_BOOT_STS_stage, 9) :: l)
def goOf (l : List (Fld × Nat)) : State := jobFields 0x8000000000000000 (ready l)
theorem test_hyp_jobStart : (0 : W64).getLsbD 63 = false ∧ (0x8000000000000000 : W64).getLsbD 63 = true
    ∧ ({ State.reset with lodge := { staged := some ⟨1, []⟩ } } : State).lodge.staged ≠ none ∧ State.reset.lodge.staged = none
    ∧ 2 ≤ (regs [(F.DEV_RUNOUT_STS_stage, 2)]).fld F.DEV_RUNOUT_STS_stage ∧ State.reset.fld F.DEV_RUNOUT_STS_stage < 2
    ∧ ((peered 0 true {}).jobLoaded = true ∧ (ready []).jobLoaded = false ∧ (ready []).flag F.WSTREAM_JOB_STS_starting = false)
    ∧ ((goOf []).fld F.DEV_BOOT_STS_stage = 9 ∧ (goOf []).flag F.DEV_MODE_STS_no_compute = false ∧ (jobFields 0x8000000000000000 State.reset).fld F.DEV_BOOT_STS_stage ≠ 9)
    ∧ (streamsValid (goOf [(F.WSTREAM_STREAM_valid 15, 1)]) = false ∧ streamsValid (goOf []) = true ∧ (goOf []).flag F.WSTREAM_JOB_CTL_route_reuse = false)
    ∧ ((goOf [(F.WSTREAM_JOB_CTL_route_reuse, 1)]).flag F.WSTREAM_JOB_CTL_route_reuse = true ∧ streamsValid (goOf [(F.WSTREAM_JOB_CTL_route_reuse, 1)]) = true
      ∧ (goOf []).ws.normal = false ∧ (jobFields 0 { ready [] with ws := { normal := true } }).ws.normal = true) := by
  refine ⟨by decide, by decide, by decide, by decide, by decide, by decide, by decide, by decide, by decide, by decide⟩
theorem test_hyp_jobEnd : (0 : W64).getLsbD 8 = false ∧ (256 : W64).getLsbD 8 = true ∧ State.reset.jobLoaded = false ∧ (peered 0 true {}).jobLoaded = true := by decide

/-- The join record of node 9 that fits an engine at reset, with its digest. -/
def joins (t : BitVec 64) : JoinRec := ⟨9, 0, 1, 0, 0, false, false, BitVec.ofNat 512 (leNat (cfgDigest (starting 0))), t, t, t, 0⟩
/-- A start with a verified manifest, a plan and armed tables, in time mode LOCKED or FREE; node 5. -/
def joining (ptp : Nat) : State :=
  { ((starting 0).setFld F.DEV_NODE_ID_node_id 5).setFld F.CLK_PTP_STS_state ptp with
    ws := { manifest := some [], verified := (Config.images []).map (·.num) }, red := { armOk := true } }
/-- A loaded job whose root is this engine, node 0; the members. -/
def rootOf (m : List Nat) : State := { regs [(F.DEV_NODE_ID_node_id, 0)] with jobLoaded := true, ckpt := { members := m, standby := [7] } }
theorem test_hyp_joinChecks : { joins 0 with fw := 1 }.fw ≠ State.reset.reg F.DEV_FW_VERSION.addr
    ∧ ({ joins 0 with bc := 2 }.fw = State.reset.reg F.DEV_FW_VERSION.addr ∧ { joins 0 with bc := 2 }.bc.toNat ≠ State.reset.fld F.DEV_ID_bc)
    ∧ ((joins 0).bc.toNat = State.reset.fld F.DEV_ID_bc ∧ State.reset.ncores < { joins 0 with needCores := 897 }.needCores ∧ (joins 0).cores < (regs [(F.WSTREAM_JOB_cores, 1)]).fld F.WSTREAM_JOB_cores)
    ∧ ¬ ((joins 0).cores < State.reset.fld F.WSTREAM_JOB_cores ∨ State.reset.ncores < (joins 0).needCores ∨ ((joins 0).halfMode = true ∧ State.reset.flag F.WSTREAM_JOB_half = false)
      ∨ (State.reset.halfMode = true ∧ (joins 0).halfFlag = false))
    ∧ (State.reset.fld F.CLK_PTP_STS_state = 0 ∧ (joining 2).fld F.CLK_PTP_STS_state ≠ 0)
    ∧ (({ joins 0 with time := 0xFFFFFFFFFFFFFFFF } : JoinRec).time = BitVec.allOnes 64 ∧ (joins 0).time ≠ BitVec.allOnes 64) := by decide
theorem test_hyp_joinDigest : leBytes 64 ({ joins 0 with digest := 0 } : JoinRec).digest.toNat ≠ cfgDigest (joining 2) ∧ leBytes 64 (joins 0).digest.toNat = cfgDigest (joining 2) := by
  decide +kernel
theorem test_hyp_joinPasses : joinCheck (joins 0) (joining 2) = none := by decide +kernel
theorem test_hyp_join : State.reset.flag F.WSTREAM_JOB_STS_starting = false ∧ State.reset.jobLoaded = false
    ∧ ((joining 2).flag F.WSTREAM_JOB_STS_starting = true ∧ (joining 2).fld F.RED_PLAN_STS_code = 0 ∧ (joining 2).red.armOk = true)
    ∧ (joining 2).ws.imagesDone = true
    ∧ ((rootOf []).jobLoaded = true ∧ (rootOf []).isSelf (rootOf []).rootNode = true ∧ (joining 2).isSelf (joining 2).rootNode = false)
    ∧ ((joining 2).fld F.DEV_RUNOUT_STS_stage < 2 ∧ 2 ≤ ((joining 2).setFld F.DEV_RUNOUT_STS_stage 2).fld F.DEV_RUNOUT_STS_stage)
    ∧ (joinCheck { joins 0 with fw := 1 } (joining 2) = some E.JOIN_FIRMWARE ∧ (joins 0).peerCode = 0 ∧ ({ joins 0 with peerCode := 1 } : JoinRec).peerCode ≠ 0)
    ∧ (({ rootOf [] with ckpt := { first := true } } : State).ckpt.first = true ∧ ({ rootOf [] with ckpt := { first := true } } : State).ckpt.votes = [] ∧ (rootOf []).ckpt.first = false
      ∧ (rootOf []).flag F.WSTREAM_JOB_STS_starting = false) := by
  refine ⟨by decide, by decide, by decide, ?_, by decide, by decide, by decide, by decide⟩
  simp only [joining, Wstream.imagesDone, Wstream.images, Option.isSome_some, Bool.true_and, Option.map_some, Option.getD_some, List.all_eq_true]
  exact fun x hx => by simpa using ⟨x, hx, rfl⟩
/-- A started engine whose go had two cores in its arguments. -/
def begun : State := { starting 0 with ws := { args := some { cores := 2 } } }
theorem test_hyp_jobArgs : (begun.flag F.WSTREAM_JOB_STS_starting = true ∧ begun.ws.args = some { cores := 2 } ∧ (joins 0).cores < begun.jobArgs.cores)
    ∧ (∃ x, (jobBegin (goOf [])).ws.args = some x) ∧ ({ joining 2 with lodge := { staged := some ⟨1, []⟩ } } : State).lodge.staged ≠ none := by
  refine ⟨by decide, ⟨_, rfl⟩, by decide⟩
theorem test_hyp_memberRequests : State.reset.jobLoaded = false ∧ (rootOf []).jobLoaded = true
    ∧ ((rootOf []).isSelf (rootOf []).rootNode = true ∧ State.reset.isSelf State.reset.rootNode = false ∧ (joining 2).isSelf 5 = true ∧ (joining 2).isSelf 9 = false)
    ∧ (9 ∈ (rootOf [9]).ckpt.members ∧ 9 ∉ (rootOf [9]).ckpt.leaves ∧ 9 ∉ (rootOf []).ckpt.members ∧ (rootOf [9]).fld F.DEV_RUNOUT_STS_stage < 2 ∧ 7 ∈ (rootOf [9]).ckpt.standby
      ∧ 9 ∉ (rootOf [9]).ckpt.standby)
    ∧ (¬ ∃ k, k < (rootOf [9]).fld F.RED_OWNER_LEN ∧ (((rootOf [9]).ownerNodes k).1 = 9 ∨ ((rootOf [9]).ownerNodes k).2 = 9))
    ∧ (∃ k, k < ((rootOf [9]).setFld F.RED_OWNER_LEN 1).fld F.RED_OWNER_LEN ∧ ((((rootOf [9]).setFld F.RED_OWNER_LEN 1).ownerNodes k).1 = 0
      ∨ (((rootOf [9]).setFld F.RED_OWNER_LEN 1).ownerNodes k).2 = 0)) := by
  refine ⟨by decide, by decide, by decide, by decide, ?_, 0, by decide, by decide⟩
  rintro ⟨k, hk, _⟩
  exact absurd hk (by rw [show (rootOf [9]).fld F.RED_OWNER_LEN = 0 by decide]; omega)

/-- The gradient plan has one entry at the start of memory: tensor 0, 1 element, owner 0, not trainable, or a tensor named twice. -/
def grads (len : Nat) (owners : Nat) : State :=
  { regs [(F.RED_PLAN_LEN, len), (F.RED_OWNER_LEN, owners)] with mem := poke [(16, 4, 1), (48, 4, 1)] ⟨[], []⟩ }
theorem test_hyp_gradientTables : (0 : W64).getLsbD 0 = false ∧ gradPlanCheck (grads 2 1) = .inr E.TIED_WEIGHT ∧ gradPlanCheck (grads 1 0) = .inr E.PLAN_INVALID
    ∧ gradPlanCheck (grads 1 1) = .inl [] ∧ State.reset.fld F.RED_PLAN_LEN = 0
    ∧ (∀ c, c < 256 → State.reset.mem.nat (State.reset.fld F.RED_CHAIN_BASE * 2 ^ 13 + (1 - State.reset.fld F.RED_STS_bank) * 0x2000 + 32 * c) 1 < 2)
    ∧ (∀ k, k < State.reset.fld F.RED_OWNER_LEN → State.reset.mem.nat (State.reset.fld F.RED_OWNER_BASE * 2 ^ 19 + 0x80000 + 8 * k) 4 < 2 ^ 22)
    ∧ (∀ c, c < 256 → (State.reset.chainEnt (1 - State.reset.fld F.RED_STS_bank) c).valid = false)
    ∧ 2 * 68 * State.reset.red.layerMax ≤ State.reset.fld F.RED_RX_SIZE
    ∧ State.reset.fld F.RED_RX_SIZE < 2 * 68 * ({ plan := [⟨0, 0, 1, 0, 32⟩] } : Red).layerMax
    ∧ ¬ (∀ c, c < 256 → { State.reset with mem := poke [(0x2000, 1, 2)] ⟨[], []⟩ }.mem.nat (0x2000 + 32 * c) 1 < 2)
    ∧ (∀ c, c < 256 → State.reset.mem.nat (0x2000 + 32 * c + 1) 1 = 0 ∧ State.reset.mem.nat (0x2000 + 32 * c + 16) 16 = 0) := by
  refine ⟨by decide, by decide, by decide, by decide, by decide, by decide, by decide, by decide, by decide, by decide, fun h => ?_, by decide⟩
  exact absurd (h 0 (by decide)) (by decide)
/-- A chain of two nodes at its head, with reserved neighbours above it. -/
def head2 (d : Nat) : ChainEnt := { valid := true, pg := 0, len := 2, pos := 0, up := 0x7FFFFFFF, down := d, clean := true }
theorem test_hyp_chainEntries : chainNode (owned 5 9) 9 = true ∧ chainNode (owned 5 9) 5 = false ∧ chainNode (owned 5 9) 0x400000 = false
    ∧ (head2 9).ok (owned 5 9) = true ∧ (head2 5).ok (owned 5 9) = false
    ∧ ({ head2 0x7FFFFFFF with pos := 1, up := 9 } : ChainEnt).ok (owned 5 9) = true ∧ ({ head2 9 with pos := 1 } : ChainEnt).ok (owned 5 9) = false := by decide
theorem test_hyp_stepStart : State.reset.flag F.RED_STS_armed = false ∧ (regs [(F.RED_STS_armed, 1)]).flag F.RED_STS_armed = true := by decide
/-- A packet of one block, of step 0 and an epoch. -/
def gbk (epoch : Nat) : List Byte := List.replicate 7 0 ++ leBytes 1 epoch ++ List.replicate 68 0
theorem test_hyp_blocksArrive : (leNat ((gbk 0).take 7) = State.reset.fld F.CKPT_STEP_step % 2 ^ 56 ∧ leNat (((gbk 0).drop 7).take 1) = State.reset.fld F.RED_EPOCH)
    ∧ leNat (((gbk 1).drop 7).take 1) ≠ State.reset.fld F.RED_EPOCH
    ∧ (({ State.reset with red := { dropped := true } } : State).red.dropped = true ∧ State.reset.red.dropped = false)
    ∧ (¬ 68 * (State.reset.red.rx.length + (pieces 68 (((gbk 0).length - 8) / 68) ((gbk 0).drop 8)).length) ≤ State.reset.fld F.RED_RX_SIZE
      ∧ 68 * (State.reset.red.rx.length + (pieces 68 (((gbk 0).length - 8) / 68) ((gbk 0).drop 8)).length) ≤ (regs [(F.RED_RX_SIZE, 68)]).fld F.RED_RX_SIZE) := by decide

/-! ### Time and wear -/

/-- The Lodge runs and the time engine has a state. -/
def clocked (st : Nat) : State := regs [(F.DEV_BOOT_STS_stage, 4), (F.CLK_PTP_STS_state, st)]
def sync (o : Int) : PtpMsg := ⟨BitVec.ofNat 7 (State.reset.fld F.CLK_PTP_CFG_domain), BitVec.ofNat 2 (State.reset.fld F.CLK_PTP_CFG_transport), true, o⟩
theorem test_hyp_deviceTime : State.reset.lodgeRuns = false ∧ (clocked 1).lodgeRuns = true ∧ (sync 1000).valid = true
    ∧ (sync (-1000)).domain.toNat = (clocked 1).fld F.CLK_PTP_CFG_domain ∧ (sync 1000).transport.toNat = (clocked 1).fld F.CLK_PTP_CFG_transport
    ∧ ((sync (-1000)).offset.natAbs ≤ 1000 ∧ (clocked 1).fld F.CLK_PTP_STS_state ≠ 2 ∧ 15 ≤ { clocked 1 with wear := { good := 15 } }.wear.good)
    ∧ ((clocked 1).jobLoaded = false ∧ 100000 < (sync 100001).offset)
    ∧ (clocked 0).fld F.CLK_PTP_STS_state = 0 ∧ (clocked 2).fld F.CLK_PTP_STS_state = 2
    ∧ ((clocked 3).fld F.CLK_PTP_STS_state = 3 ∧ (clocked 3).fld F.CLK_PTP_CFG_holdover_ns < 1000 + 100 * 1000000 ∧ 1000 + 100 * 0 ≤ (clocked 3).fld F.CLK_PTP_CFG_holdover_ns)
    ∧ (State.reset.wear.good < 15 ∧ ¬ (sync 1001).offset.natAbs ≤ 1000 ∧ (sync 1001).offset ≤ 100000)
    ∧ (peered 0 true {}).jobLoaded = true ∧ State.reset.now.toNat ≤ (0 : W64).toNat ∧ (0 : W64).toNat < ((clocked 0).setReg F.DEV_TIME.addr 1).now.toNat := by decide

theorem test_hyp_timeLocks : (clocked 1).wear.lock = false ∧ ({ clocked 1 with wear := { lock := true } } : State).wear.lock = true := by decide

/-- Site 1,023 in a power state, all its points valid, and how many samples were below the guard. -/
def worn (st n : Nat) : State :=
  { regs [(F.PWR_SITE_STS_state 1023, st)] with wear := { low := [(1023, n)], vmin := [(1023, 600)] } }
theorem test_hyp_borrowingAndSamples : ((62 : BitVec 6).toNat ∈ neighbours 63 ∧ State.reset.flag (F.CLK_FIELD_STS_borrowed 63) = false ∧ (61 : BitVec 6).toNat ∉ neighbours 63)
    ∧ (regs [(F.CLK_FIELD_STS_borrowed 63, 1)]).flag (F.CLK_FIELD_STS_borrowed 63) = true
    ∧ State.reset.sitePower (1023 : BitVec 10).toNat ≠ 3 ∧ (worn 3 99).sitePower (1023 : BitVec 10).toNat = 3
    ∧ (((worn 3 0).fld F.CLK_WEAR_CFG_guard_ps : Int) ≤ (0x7FFF : BitVec 16).toInt ∧ (0xFFFF : BitVec 16).toInt < (worn 3 0).fld F.CLK_WEAR_CFG_guard_ps)
    ∧ Sparse.get (worn 3 98).wear.low 0 1023 + 1 < 100 ∧ (100 ≤ Sparse.get (worn 3 99).wear.low 0 1023 + 1 ∧ (worn 3 99).topPoint 1023 = some 15)
    ∧ (regs ((F.PWR_SITE_STS_state 1023, 3) :: (List.range 16).map (fun k => (F.CLK_SITE_VF_valid (16 * 1023 + k), 0)))).topPoint 1023 = none ∧ Sparse.find State.reset.wear.vmin 1023 = none
    ∧ ((worn 1 0).sitePower 1023 = 1 ∧ (worn 2 0).sitePower 1023 = 2 ∧ (worn 0 0).sitePower 1023 ≠ 1 ∧ (worn 0 0).sitePower 1023 ≠ 2
      ∧ Sparse.find (worn 1 0).wear.vmin 1023 = some 600 ∧ 600 + 10 < (611 : BitVec 16).toNat ∧ (610 : BitVec 16).toNat ≤ 600 + 10) := by decide
theorem test_hyp_noReference : 63 ∉ State.reset.wear.noRef ∧ 63 ∈ ({ State.reset with wear := { noRef := [63] } } : State).wear.noRef := by decide
/-- A replan's operand with a Vmin in mV. -/
def planIn (vmin : Nat) : PlanIn := { need := [], vminMv := vmin, slackPs := 0, temp := 0 }
theorem test_hyp_wearPlan : (∀ k, k < 16 → ¬ Nat.max (Nat.max 550 ((planIn 801).vminMv + 50)) (State.reset.vsram 1023 k) ≤ 850)
    ∧ Nat.max (5 * ceilDiv (planNeed (worn 0 0) 1023 (planIn 800) 0 + (({ worn 0 0 with wear := { slopes := [(1023, (1, 0))] } } : State).guardUv 1023)) 5000) ((worn 0 0).vcore 1023 0) ≤ 900
    ∧ Nat.max (Nat.max 550 ((planIn 800).vminMv + 50)) ((worn 0 0).vsram 1023 0) ≤ 850 := by decide

/-! ### The Lodge and its sessions -/

/-- A Lodge in a start-up stage. -/
def lodged (stage : Nat) (l : Lodge) : State := { regs [(F.DEV_BOOT_STS_stage, stage)] with lodge := l }
/-- Session 15 of a role is open, subscribed where asked; an event is in the ring. -/
def session (role : Nat) (sub : Option Nat) : State := lodged 4 { sessions := [(15, { role := role, sub := sub })] }
def evented : State := { session 0 (some 0) with events := [⟨0, 0, 0x200, 0, 0, 0, []⟩], evSeq := 1 }
/-- A key store with an entry of purpose 1 in slot 63. -/
def stored : State := lodged 4 { keys := true, store := [(63, ⟨1, [], [], []⟩)] }
-- whether a wrapped entry opens rests on the module's key, a free value: the clauses on what it holds stand for each of its values
theorem test_hyp_keysAtRest : (64 ≤ 64 ∧ State.reset.lodge.keys = false) ∧ (stored.lodge.keys = true ∧ stored.lodge.debug = false ∧ 63 < 64)
    ∧ (Sparse.find stored.lodge.store 63 = some ⟨1, [], [], []⟩ ∧ (⟨1, [], [], []⟩ : KeySlot).purpose ≠ 2)
    ∧ (512 < (List.replicate 513 (0 : Byte)).length ∧ (List.replicate 512 (0 : Byte)).length ≤ 512) := by decide
theorem test_hyp_mapRecord : Sparse.find State.reset.lodge.recs 4 = none ∧ (Sparse.find (lodged 4 { recs := [(4, [])] }).lodge.recs 4).isSome = true := by decide
theorem test_hyp_lodgeRestarts : (State.reset.fld F.DEV_BOOT_STS_stage < 3 ∧ ({ State.reset with pwr := { failed := true } } : State).pwr.failed = true)
    ∧ ((lodged 3 {}).fld F.DEV_BOOT_STS_stage = 3 ∧ (lodged 3 {}).pwr.failed = false ∧ 3 < (lodged 4 {}).fld F.DEV_BOOT_STS_stage)
    ∧ ((0 : W64).getLsbD 0 = false ∧ (1 : W64).getLsbD 0 = true) ∧ (State.reset.lodge.staged = none ∧ (lodged 4 { staged := some ⟨1, []⟩ }).lodge.staged.isSome = true)
    ∧ State.reset.lodge.restart = none ∧ (lodged 4 { restart := some 1 }).lodge.restart.isSome = true ∧ State.reset.lodge.buf = []
    ∧ (bootChain false { ms := 0, pufFail := true } (lodged 4 { restart := some 1 })).lodge.recovery = true
    ∧ (lodging.lodgeRuns = true ∧ lodging.pwr.off = false ∧ lodging.flag F.PWR_STS_clamp = false ∧ (lodging.setFlag F.PWR_STS_clamp true).flag F.PWR_STS_clamp = true
      ∧ State.reset.lodgeRuns = false) := by decide
/-- Records that are read neither begin nor end recovery. -/
theorem recovery_foldl {β : Type} (f : State → β → State) (h : ∀ s b, (f s b).lodge.recovery = s.lodge.recovery) (l : List β) (s : State) :
    (l.foldl f s).lodge.recovery = s.lodge.recovery := by
  induction l generalizing s with
  | nil => rfl
  | cons b l ih => rw [List.foldl_cons, ih, h]
theorem recovery_setGroup (l : List W64) (a : Nat) (s : State) : (s.setGroup a l).lodge.recovery = s.lodge.recovery := by
  induction l generalizing a s with
  | nil => rfl
  | cons v l ih => exact ih (a + 8) (s.setReg a v)
theorem recovery_recordBoot (s : State) (t : Nat) : (recordBoot s t).lodge.recovery = s.lodge.recovery := by
  unfold recordBoot
  split
  · unfold recordUse; split <;> rfl
  · unfold recordFails
    rw [State.raiseDev_lodge_recovery]
    split <;> rfl
theorem recovery_recsBoot (b : BootIn) (s : State) : (recsBoot b s).lodge.recovery = s.lodge.recovery := by
  unfold recsBoot
  rw [recovery_foldl, recovery_foldl _ recovery_recordBoot, recovery_foldl]
  · intro s p; unfold recordSpoil; dsimp only; split <;> rfl
  · intro s p; split
    · exact recovery_setGroup _ _ _
    · rfl
theorem recovery_bootChain (full : Bool) (b : BootIn) (s : State) (h : b.pufFail = false) : (bootChain full b s).lodge.recovery
    = (fwBoot full b (keysBoot true (([0, 1, 2, 5, 6, 7] ++ if full then [3, 4] else []).foldl (fun st i => measReset i st) s))).lodge.recovery := by
  have h2 : ∀ s1 : State, (if s1.lodge.recovery then s1 else recsBoot b s1).lodge.recovery = s1.lodge.recovery := fun s1 => by
    split
    · rfl
    · exact recovery_recsBoot _ _
  unfold bootChain
  rw [if_neg (by simp [h])]
  exact h2 _
theorem test_hyp_lodgeReturns : (bootChain false { ms := 0 } (lodged 4 { restart := some 1 })).lodge.recovery = false := by
  rw [recovery_bootChain _ _ _ rfl]
  decide +kernel
/-- A boot that finds a stage of copy 0 spoilt. -/
def spoilt (st : Nat) : BootIn := { ms := 0, fwBad := [(0, st)] }
set_option exponentiation.threshold 600 in
theorem test_hyp_firmwareBoot : (lodged 3 { fw := [none, some {}] }).fwCopy 0 = none ∧ State.reset.fwCopy 0 = some {}
    ∧ ((spoilt 1).fwBad.any (fun p => decide (p.1.toNat = 0 ∧ p.2 = 1)) = true ∧ (spoilt 1).fwBad.any (fun p => decide (p.1.toNat = 0 ∧ p.2 = 0)) = false
      ∧ ({} : Bundle).root = State.reset.lodge.rom ∧ ({} : Bundle).root ≠ (lodged 3 { rom := 1 }).lodge.rom)
    ∧ (({} : Bundle).svn.toNat < (lodged 3 { nsvn := 1 }).lodge.nsvn ∧ State.reset.lodge.nsvn ≤ ({} : Bundle).svn.toNat)
    ∧ (∀ st ∈ [0, 1, 2], fwFails { ms := 0 } none 0 State.reset st = none) ∧ fwFirst (spoilt 1) none 0 [0, 1, 2] State.reset = some (1, E.FW_SIG)
    ∧ (∀ st ∈ [0, 1, 2], fwFails (spoilt 1) none 1 State.reset st = none)
    ∧ (fwFails (spoilt 1) none 1 (lodged 3 { fw := [some {}, none] }) 1).isSome = true ∧ ({ ms := 0, pufFail := true } : BootIn).pufFail = true := by decide
theorem test_hyp_recordsBoot : State.reset.recordCopy 6 = some { wcount := 1, payload := [] } ∧ State.reset.recordCopy 2 = none ∧ State.reset.recordCode 2 = E.REC_SIG
    ∧ (lodged 3 { flash := [(2, [{ wcount := 1, payload := [] }])], held := [(2, 2)] }).recordCode 2 = E.REC_REPLAY := by decide
theorem test_hyp_lodgeEvents : (State.reset.pwr.failed = false ∧ ({ State.reset with pwr := { failed := true } } : State).pwr.failed = true)
    ∧ (∀ k ∈ [0, 1, 2, 3], (lodging.setFld F.PWR_LEAK_CFG_action k).fld F.PWR_LEAK_CFG_action = k) ∧ (lodging.pwr.off = false ∧ State.reset.pwr.off = true)
    ∧ (State.reset.lodgeRuns = false ∧ Sparse.find State.reset.lodge.sessions (15 : BitVec 4).toNat = none
      ∧ Sparse.find (session 0 none).lodge.sessions (15 : BitVec 4).toNat = some { role := 0 })
    ∧ (Sparse.find (session 0 (some 0)).lodge.sessions (15 : BitVec 4).toNat = some { role := 0, sub := some 0 } ∧ (evtFrom 0 32767 (session 0 (some 0))).1 = [])
    ∧ (Sparse.find evented.lodge.sessions (15 : BitVec 4).toNat = some { role := 0, sub := some 0 } ∧ evented.lodgeRuns = true
      ∧ (evtFrom 0 32767 evented).1 = ⟨0, 0, 0x200, 0, 0, 0, []⟩ :: []) := by decide

/-- A body of each request of Table 17-4, in the table's order. -/
def mgmtBodies : List (List Byte) :=
  [List.replicate 8 0 ++ leBytes 2 256 ++ List.replicate 6 0, List.replicate 16 0, leBytes 4 0 ++ leBytes 4 32767, List.replicate 8 0 ++ leBytes 4 28 ++ List.replicate 4 0,
   leBytes 4 65535 ++ leBytes 4 16383, List.replicate 64 0, leBytes 4 0 ++ leBytes 1 1 ++ List.replicate 11 0, List.replicate 520 0,
   leBytes 4 0 ++ leBytes 4 1 ++ leBytes 4 1 ++ List.replicate 5 0, leBytes 1 5 ++ List.replicate 527 0, leBytes 1 5 ++ List.replicate 587 0, List.replicate 8 0]
/-- The layouts of the requests, in the table's order. -/
def mgmtLayouts : List (List Byte → Bool) :=
  [fun b => b.length == 16 && decide (1 ≤ numAt b 8 2 ∧ numAt b 8 2 ≤ 256) && zeroAt b 10 6, fun b => b.length == 16,
   fun b => b.length == 8 && decide (1 ≤ numAt b 4 4 ∧ numAt b 4 4 ≤ 32767), fun b => b.length == 16 && decide (1 ≤ numAt b 8 4 ∧ numAt b 8 4 ≤ 28) && zeroAt b 12 4,
   fun b => b.length == 8 && decide (numAt b 0 4 ≤ 65535 ∧ 1 ≤ numAt b 4 4 ∧ numAt b 4 4 ≤ 16383), fun b => b.length == 64,
   fun b => b.length == 16 && decide (numAt b 4 1 ≤ 1) && zeroAt b 5 3 && zeroAt b 12 4, fun b => b.length == 520 && zeroAt b 2 6,
   fun b => decide (16 ≤ b.length ∧ b.length = 16 + numAt b 8 4 ∧ numAt b 0 4 + numAt b 8 4 ≤ numAt b 4 4) && zeroAt b 12 4,
   fun b => decide (b.length = 528 + numAt b 8 4 ∧ (numAt b 0 1 = 1 ∨ numAt b 0 1 = 5)) && zeroAt b 1 7 && zeroAt b 12 4, presLayout State.reset, fun b => b.length == 8 && zeroAt b 4 4]
/-- The first owner key: a modulus of all ones with exponent 1, under which a PSS encoding is its own signature. -/
def owner1 : List Byte := List.replicate 512 0xFF ++ leBytes 4 1
def ownedBy : State := lodged 4 { recs := [(2, owner1)] }
def signedBody : List Byte := leBytes 1 1 ++ List.replicate 15 0 ++ pssEncode (leBytes 1 1 ++ List.replicate 15 0) (List.replicate 64 0)
theorem test_hyp_requests : Sparse.find State.reset.lodge.sessions 15 = none ∧ State.reset.portUp = false ∧ (session 2 none).portUp = true
    ∧ Sparse.find (session 2 none).lodge.sessions 15 = some { role := 2 }
    ∧ (∀ p ∈ mgmtLayouts.zip mgmtBodies, p.1 p.2 = true ∧ p.1 [] = false ∧ p.2.length ≤ 2 ^ 20)
    ∧ presRole State.reset { role := 0 } (leBytes 1 5) = true ∧ presRole State.reset { role := 2 } (leBytes 1 1) = false
    ∧ (session 2 none).lodge.recovery = false ∧ (lodged 3 { recovery := true, sessions := [(15, { role := 2 })] }).portUp = true
    ∧ (({ session := 15, tag := 0, op := some 0, body := [] } : MgmtReq).reserved = some 0 ∧ ({ session := 15, tag := 0, body := [] } : MgmtReq).reserved = none) := by decide
theorem test_hyp_answers : ((0 : Nat) = 0 ∨ (0 : Nat) = E.EVT_GAP) ∧ ¬ (E.MGMT_ROLE = 0 ∨ E.MGMT_ROLE = E.EVT_GAP) ∧ (Sparse.get (session 0 none).lodge.sessions ({ role := 0 } : Session) 15).gap = false
    ∧ (Sparse.get (lodged 4 { sessions := [(15, { role := 0, gap := true })] }).lodge.sessions ({ role := 0 } : Session) 15).gap = true := by decide
theorem test_hyp_sessions : State.reset.portUp = false ∧ (lodged 4 {}).portUp = true ∧ ((⟨0, false⟩ : ClientIn).proven = false ∧ clientRole ⟨0, false⟩ (lodged 4 {}) = none)
    ∧ (clientRole ⟨0, true⟩ (lodged 4 {}) = some 0 ∧ (lodged 4 {}).record 2 = none)
    ∧ ((Sparse.find (session 0 none).lodge.sessions (15 : BitVec 4).toNat).isSome = true ∧ Sparse.find (lodged 4 {}).lodge.sessions (15 : BitVec 4).toNat = none) := by decide
theorem test_hyp_operator : clientRole ⟨BitVec.ofNat 512 (leNat (sha512 owner1)), true⟩ ownedBy = some 2 := by decide +kernel
theorem test_hyp_ownerSigned : ownedBy.ownerSigned signedBody = true := by decide +kernel
theorem test_hyp_requestEffects : State.reset.wordsOk 0x3000B000000 1 = true ∧ State.reset.wordsOk 0xFFFFFFFFFFFFFFFF 1 = false ∧ State.reset.wordsOk F.DEV_TIME.addr 1 = true
    ∧ (F.DEV_TIME.addr < 0x3000B000000 ∨ 0x3000C000000 ≤ F.DEV_TIME.addr)
    ∧ State.reset.ownerSigned [] = false ∧ (peered 0 true {}).jobLoaded = true ∧ (lodged 4 { staged := some ⟨3, []⟩ }).lodge.staged.isSome = true
    ∧ State.reset.lodge.staged = none ∧ ([] : List Byte) ≠ State.reset.groupBytes F.SEC_PRES_NONCE_w0 8
    ∧ ((List.replicate 64 0 : List Byte) = State.reset.groupBytes F.SEC_PRES_NONCE_w0 8 ∧ State.reset.ownerKey = none)
    ∧ (numAt (List.replicate 16 0) 8 4 ≤ State.reset.fld F.PWR_CAP_STS_seq ∧ State.reset.fld F.PWR_CAP_STS_seq < numAt (List.replicate 16 1) 8 4) := by decide
-- what a whole bundle holds is a free value of the module: the clauses on it hold for each of its values
theorem test_hyp_bundleStaging : (numAt (leBytes 4 0 ++ leBytes 4 9) 0 4 = 0 ∧ numAt (leBytes 4 0 ++ leBytes 4 9) 4 4 = 9 ∧ State.reset.lodge.piece = none)
    ∧ ((lodged 4 { piece := some ⟨9, [1]⟩ }).lodge.piece = some ⟨9, [1]⟩ ∧ (⟨9, [1]⟩ : Piece).total ≠ 8 ∧ (⟨9, [1]⟩ : Piece).data.length = 1
      ∧ ((⟨9, [1]⟩ : Piece).data ++ [2]).length < 9 ∧ 9 ≤ ((⟨9, [1]⟩ : Piece).data ++ List.replicate 8 0).length) := by decide

/-! ### Presence, start, removal -/

/-- Firmware copy 0 with security version 2 runs, the counter as given, the microcode as given. -/
def versioned (n : Nat) (m : Option Bundle) : State := { State.reset with lodge := { fw := [some { svn := 2 }, none], nsvn := n, micro := m } }
set_option exponentiation.threshold 600 in
/-- The copy not in use holds a bundle with a security version, the counter is 2. -/
def older (v : BitVec 32) : State := lodged 4 { fw := [some {}, some { svn := v }], nsvn := 2 }
theorem test_hyp_downgrade : (older 1).fwCopy (1 - (older 1).fwActive) = some { svn := 1 } ∧ ({ svn := 1 } : Bundle).svn.toNat < (older 1).lodge.nsvn
    ∧ (older 2).fwCopy (1 - (older 2).fwActive) = some { svn := 2 } ∧ (older 2).lodge.nsvn ≤ ({ svn := 2 } : Bundle).svn.toNat
    ∧ (lodged 4 { fw := [some {}, none] }).fwCopy (1 - (lodged 4 { fw := [some {}, none] }).fwActive) = none := by decide
theorem test_hyp_presence : State.reset.lodge.staged = none ∧ (lodged 4 { staged := some ⟨3, []⟩ }).lodge.staged = some ⟨3, []⟩
    ∧ (lodged 4 { opened := true }).lodge.opened = true ∧ State.reset.lodge.opened = false ∧ (0 : W64).getLsbD 0 = false ∧ (1 : W64).getLsbD 0 = true
    ∧ (([] : List Byte) = State.reset.lodge.fwDigest ∧ (State.reset.fwCopy (1 - State.reset.fwActive)).isSome = true ∧ [1] ≠ State.reset.lodge.fwDigest)
    ∧ ((versioned 2 none).fwCopy (versioned 2 none).fwActive = some { svn := 2 } ∧ ({ svn := 2 } : Bundle).svn.toNat ≤ (versioned 2 none).lodge.nsvn
      ∧ (versioned 1 none).lodge.micro ≠ some { svn := 2 })
    ∧ ((versioned 1 (some { svn := 2 })).lodge.nsvn < ({ svn := 2 } : Bundle).svn.toNat ∧ (versioned 1 (some { svn := 2 })).lodge.micro = some { svn := 2 })
    ∧ (lodged 4 { fw := [none, none] }).fwCopy (lodged 4 { fw := [none, none] }).fwActive = none := by decide

/-- A module in its bay, in a start-up stage. -/
def staged (n : Nat) : State := { regs [(F.DEV_BOOT_STS_stage, n)] with boot := { present := true } }
/-- Stage 7 with a node identifier and link 31 UP; with the flat table beyond memory where asked. -/
def joinable (fmt len : Nat) : State :=
  regs [(F.DEV_BOOT_STS_stage, 7), (F.DEV_NODE_ID_node_id, 5), (F.LINK_STS_state 31, 5), (F.DEV_ADDR_CFG_node_format, fmt), (F.DEV_FLAT_TABLE_LEN, len),
    (F.DEV_FLAT_TABLE_BASE, 0x1FFFFFFF)]
/-- A thermal trip; since then the first n sensors have read a temperature. -/
def tripped (n : Nat) (t : Int) : State := { staged 3 with pwr := { tripped := true, temps := (List.range n).map (fun j => (j, t)) } }
theorem test_hyp_startAndJoin : (State.reset.boot.present = false ∧ State.reset.fld F.DEV_BOOT_STS_stage ≤ 1)
    ∧ ((staged 1).boot.present = true ∧ 2 ≤ (regs [(F.DEV_BOOT_STS_stage, 2)]).fld F.DEV_BOOT_STS_stage)
    ∧ ({ State.reset with boot := { quiet := true } } : State).boot.quiet = true ∧ (tripped 0 0).pwr.tripped = true ∧ ({ staged 3 with pwr := { dry := true } } : State).pwr.dry = true
    ∧ (∀ n, n < 16 → (staged n).fld F.DEV_BOOT_STS_stage = n ∧ (staged n).boot.quiet = false ∧ (staged n).pwr.failed = false ∧ (staged n).pwr.tripped = false
      ∧ (staged n).boot.eject = false ∧ (staged n).pwr.dry = false)
    ∧ (bootChain true { ms := 0, pufFail := true } (staged 3)).lodge.recovery = true
    ∧ (regs [(F.DEV_RUNOUT_STS_stage, 2)]).fld F.DEV_RUNOUT_STS_stage = 2 ∧ State.reset.fld F.DEV_RUNOUT_STS_stage < 2
    ∧ ((joinable 0 0).fld F.DEV_BOOT_STS_stage = 7 ∧ (staged 7).node = 0x3FFFFF ∧ ((joinable 0 0).setFld (F.LINK_STS_state 31) 0).anyUp = false)
    ∧ ((joinable 1 513).flag F.DEV_ADDR_CFG_node_format = true ∧ (joinable 1 513).flatOk = false ∧ (joinable 1 512).flatOk = true)
    ∧ ((joinable 1 512).node ≠ 0x3FFFFF ∧ (joinable 1 512).anyUp = true) := by decide
/-- Whether a sensor has not been read below 85 degrees since the trip. -/
def stillHot (s : State) (j : Nat) : Bool := (Sparse.find s.pwr.temps j).all (fun x => decide (85 * 64 ≤ x))
theorem test_hyp_warmReset : stillHot (tripped 1094 5440) 1093 = true ∧ stillHot (tripped 1093 5439) 1093 = true
    ∧ (tripped 1094 5439).pwr.temps.length = 1094 ∧ (tripped 1094 5439).pwr.temps.all (fun p => decide (p.2 < 85 * 64)) = true
    ∧ stillHot (tripped 1094 5439) 0 = false ∧ stillHot (tripped 1094 5439) 1093 = false
    ∧ 3 ≤ (tripped 1094 5439).fld F.DEV_BOOT_STS_stage ∧ (tripped 1094 5439).pwr.failed = false := by decide +kernel
/-- Core 0 has failed; none has at reset. -/
theorem test_hyp_deadCores : 0 ∈ ({ staged 3 with dead := [0] } : State).dead ∧ (0 : Nat) < 896 := by decide
theorem test_hyp_lodgeStage : (bootChain true { ms := 0 } (staged 3)).lodge.recovery = false := by
  rw [recovery_bootChain _ _ _ rfl]
  decide +kernel

theorem test_hyp_selfTest :
    ((regs [(F.DEV_MODE_CFG_force_half, 1)]).flag F.DEV_MODE_CFG_force_half = true ∧ State.reset.flag F.DEV_MODE_CFG_force_half = false)
    ∧ 896 ≤ (goodSites State.reset).length
    ∧ (let count := fun (h : Nat) => [0, 1023].countP (fun p => halfOfField (fieldOfSite p) = h)
      count 1 ≤ count 0 ∧ [1023].countP (fun p => halfOfField (fieldOfSite p) = 0) < [1023].countP (fun p => halfOfField (fieldOfSite p) = 1))
    ∧ (chooseHalf [0, 1] (goodSites State.reset) State.reset = some 0 ∧ chooseHalf [] (goodSites State.reset) State.reset = none)
    ∧ ((regs [(F.CORE_MAP_SITE_STATE_state 1023, 2)]).siteState 1023 = siDefective ∧ (regs [(F.CORE_MAP_SITE_STATE_state 1023, 3)]).siteState 1023 = siRetired
      ∧ State.reset.siteState 1023 ≠ siDefective ∧ State.reset.siteState 1023 ≠ siRetired ∧ State.reset.topPoint 1023 ≠ none)
    ∧ ((∃ q ∈ ({ ms := 0, failSites := [1023] } : BootIn).failSites, q.toNat = 1023) ∧ ({ ms := 0 } : BootIn).failSites = [] ∧ ({ ms := 0 } : BootIn).failFields = []
      ∧ ((({ ms := 0, phases := [(1023, 5)] } : BootIn).phases.find? (fun q => q.1.toNat = 1023)).map (·.2)).getD 8 < 6)
    ∧ (State.reset.keptHalf = none ∧ (∃ m ∈ ({ ms := 0, failStacks := [15] } : BootIn).failStacks, ∀ h, State.reset.keptHalf = some h → stackHalf m.toNat = h)
      ∧ halved.keptHalf.isSome = true) := by
  refine ⟨by decide, by decide +kernel, by decide, by decide +kernel, by decide, ⟨⟨1023, by decide, by decide⟩, by decide, by decide, by decide⟩, by decide, ?_, by decide⟩
  exact ⟨15, by decide, fun h hh => absurd (hh.symm.trans (show State.reset.keptHalf = none by decide)) (by simp)⟩

/-- A Run-out stage. -/
def leaving (n : Nat) : State := regs [(F.DEV_RUNOUT_STS_stage, n)]
theorem test_hyp_removal : ((0 : W64).getLsbD 0 = false ∧ (2 : W64).getLsbD 1 = true)
    ∧ (∀ n, n < 8 → (leaving n).fld F.DEV_RUNOUT_STS_stage = n ∧ (leaving n).boot.quiet = false ∧ (leaving n).pwr.tripped = false ∧ (leaving n).pwr.failed = false ∧ (leaving n).pwr.dry = false
      ∧ (leaving n).flag F.PWR_STS_hold = false ∧ (leaving n).boot.inHold = false ∧ (leaving n).ckpt.drain = none)
    ∧ (((leaving 1).setFlag F.PWR_STS_hold true).flag F.PWR_STS_hold = true ∧ ((leaving 1).setFlag F.PWR_STS_hold true).fld F.DEV_RUNOUT_STS_stage = 1)
    ∧ ((leaving 1).runoutPoint = true ∧ ({ leaving 1 with jobLoaded := true } : State).runoutPoint = false ∧ ({ leaving 1 with jobLoaded := true } : State).boot.expired = false)
    ∧ (({ leaving 4 with ckpt := { drain := some (drain none 0 false 0 false false []) } } : State).ckpt.drain = some (drain none 0 false 0 false false [])
      ∧ (drain none 0 false 0 false false []).buddy = false)
    ∧ ((staged 2).fld F.DEV_BOOT_STS_stage < 3 ∧ 3 ≤ (staged 3).fld F.DEV_BOOT_STS_stage ∧ (staged 3).boot.quiet = false ∧ (staged 3).fld F.DEV_RUNOUT_STS_stage ≠ 7
      ∧ (staged 3).boot.present = true ∧ State.reset.boot.present = false) := by
  refine ⟨by decide, by decide, by decide, by decide, by decide, by decide⟩
/-- Run-out waits in HOLD, from before it or from within it; a rollback is on. -/
def holdsOff (h : Bool) : State := { (leaving 1).setFlag F.PWR_STS_hold true with boot := { inHold := h } }
def awaiting (rolled aborted : Bool) : State := { (leaving 3).setFld F.CKPT_STS_phase 4 with ckpt := { rolled := rolled, aborted := aborted } }
theorem test_hyp_runoutHold : ((holdsOff true).boot.inHold = true ∧ (holdsOff false).boot.inHold = false ∧ (holdsOff true).fld F.DEV_RUNOUT_STS_stage = 1
      ∧ (holdsOff true).flag F.PWR_STS_hold = true)
    ∧ ({ leaving 1 with boot := { inHold := true } } : State).boot.inHold = true ∧ ({ leaving 1 with boot := { expired := true } } : State).boot.expired = true
    ∧ (({ leaving 4 with ckpt := { drain := some { drain none 0 false 0 false false [] with buddy := true } } } : State).ckpt.drain
      = some { drain none 0 false 0 false false [] with buddy := true })
    ∧ ((staged 3).boot.quiet = false ∧ ((staged 3).setFld F.DEV_RUNOUT_STS_stage 7).fld F.DEV_RUNOUT_STS_stage = 7
      ∧ ({ staged 3 with boot := { present := true, quiet := true } } : State).boot.quiet = true
      ∧ ({ staged 3 with boot := { present := true, eject := true } } : State).boot.eject = true) := by decide
/-- What `rollback` leaves in stage STEP: a rollback awaited, one that has ended, none. -/
theorem test_hyp_runoutStep : (phRollback = 4 ∧ (rollback (awaiting true false)).fld F.CKPT_STS_phase = phRollback ∧ (rollback (awaiting true false)).ckpt.aborted = false)
    ∧ ((rollback ({ awaiting true true with dead := [0] })).ckpt.rolled = true ∧ (rollback ({ awaiting true true with dead := [0] })).ckpt.aborted = true)
    ∧ (rollback (leaving 3)).fld F.CKPT_STS_phase ≠ phRollback ∧ (leaving 3).flag F.PWR_STS_hold = false := by decide
theorem test_hyp_runoutPoint : ((owned 5 9).isOwner = true ∧ (owned 9 5).isShadow = true ∧ (owned 9 7).isOwner = false ∧ (owned 9 7).isShadow = false)
    ∧ ({ owned 5 9 with ckpt := { stored := some (0, 0) } } : State).ckpt.stored = some (0, 0) ∧ State.reset.ckpt.stored = none
    ∧ 0 ≤ ((owned 5 9).reg F.CKPT_UPD_done_step.addr).toNat := by decide

/-! ### Registers -/

theorem test_hyp_wordWrites : ((2 : BitVec 2).toNat ≠ 3 ∧ (1 : BitVec 42).toNat % 8 ≠ 0 ∧ State.reset.isRegister (0 : BitVec 42).toNat = false)
    ∧ (State.reset.isRegister F.DEV_MODE_CFG_keep_half.addr = true ∧ State.reset.lostReg F.DEV_MODE_CFG_keep_half.addr = false ∧ F.DEV_MODE_CFG_keep_half.addr % 8 = 0
      ∧ 0x30000000000 ≤ F.DEV_MODE_CFG_keep_half.addr ∧ (devAction none F.DEV_MODE_CFG_keep_half.addr 0 State.reset).isNone = true)
    ∧ (devAction none F.DEV_TIME_SET.addr 0 State.reset).isSome = true
    ∧ ((F.CORE_CTX_FAULT_code 0 0).addr < 0x30000000000 ∧ State.reset.isRegister (F.CORE_CTX_FAULT_code 0 0).addr = true ∧ State.reset.lostReg (F.CORE_CTX_FAULT_code 0 0).addr = false)
    ∧ (peered 0 true {}).jobLoaded = true ∧ State.reset.jobLoaded = false ∧ ({ State.reset with joined := true } : State).joined = true ∧ State.reset.joined = false := by
  refine ⟨by decide, by decide, by decide, by decide, by decide, by decide, by decide, by decide⟩
theorem test_hyp_fieldWrites :
    (∃ r ∈ rowsAt F.DEV_MODE_CFG_keep_half.addr, r.acc = .rw ∧ State.reset.unlocked r.lock = true ∧ State.reset.accepts r F.DEV_MODE_CFG_keep_half.addr 1 = true)
    ∧ (∃ r ∈ rowsAt F.DEV_EXEC_CFG_mode.addr, r.acc = .rw ∧ State.reset.accepts r F.DEV_EXEC_CFG_mode.addr 3 = false ∧ r.maxv = some 1
      ∧ (peered 0 true {}).unlocked r.lock = false)
    ∧ (∃ r ∈ rowsAt F.DEV_MODE_STS_degraded.addr, r.acc = .ro)
    ∧ (∃ r ∈ rowsAt F.RED_STS_abandoned.addr, r.acc = .w1c ∧ r.lo + r.w ≤ 64)
    ∧ (∃ a, halved.lostReg a = true) ∧ State.reset.lostReg F.DEV_MODE_CFG_keep_half.addr = false ∧ State.reset.shown F.DEV_MODE_CFG_keep_half.addr = none := by
  refine ⟨by decide, by decide, by decide, by decide, ⟨(F.CLK_FIELD_STS_borrowed 4).addr, by decide⟩, by decide, by decide⟩
theorem test_hyp_counterClears : (State.reset.isRegister (F.DEV_LATE_RSP_CNT.addr + 8) = true ∧ (F.DEV_LATE_RSP_CNT.addr + 8) % 8 = 0 ∧ ∃ r ∈ rowsAt (F.DEV_LATE_RSP_CNT.addr + 8), r.acc = .ctl)
    ∧ (State.reset.isRegister F.DEV_MODE_STS_degraded.addr = true ∧ ¬ ∃ r ∈ rowsAt F.DEV_MODE_STS_degraded.addr, r.acc = .ctl)
    ∧ (2 : W64).getLsbD 1 = true ∧ (0 : W64).getLsbD 1 = false := by decide

end Sys2Proof.Tests
end

section
/-! Register writes (spec/00 R6-R9, spec/19 R428-R431): bits of a field, writes of one field by kind of access, which words a write reaches,
and the words of device registers whose fields a write reaches in every state. -/

namespace Sys2Proof.Machine

/-! ## Bits of a field -/

/-- A word with a field replaced, bit by bit. -/
theorem getLsbD_insertBits {lo w : Nat} (h : lo + w ≤ 64) (x : W64) (n j : Nat) :
    (insertBits x lo w n).getLsbD j = if lo ≤ j ∧ j < lo + w then n.testBit (j - lo) else x.getLsbD j := by
  simp only [insertBits, BitVec.getLsbD_or, BitVec.getLsbD_and, BitVec.getLsbD_not, BitVec.getLsbD_shiftLeft, BitVec.getLsbD_ofNat,
    Nat.testBit_mod_two_pow, Nat.testBit_two_pow_sub_one]
  by_cases hj : j < 64
  · by_cases hin : lo ≤ j ∧ j < lo + w
    · have hw : j - lo < w := by omega
      simp [hj, hin, hw, Nat.not_lt.mpr hin.1, show j - lo < 64 by omega]
    · have hout : j < lo ∨ ¬ j - lo < w := by omega
      rcases hout with hlo | hhi
      · simp [hj, hin, hlo]
      · simp [hj, hin, hhi]
  · simp [hj, show ¬ (lo ≤ j ∧ j < lo + w) by omega, BitVec.getLsbD_of_ge x j (by omega)]

/-- The replaced field reads what was written, cut to its width. -/
theorem fieldOf_insertBits {lo w : Nat} (h : lo + w ≤ 64) (x : W64) (n : Nat) : fieldOf (insertBits x lo w n) lo w = n % 2 ^ w := by
  apply Nat.eq_of_testBit_eq
  intro i
  rw [BitVec.testBit_toNat, BitVec.getLsbD_extractLsb', getLsbD_insertBits h, Nat.testBit_mod_two_pow]
  by_cases hi : i < w
  · simp [hi]
  · simp [hi]

theorem getLsbD_insertBits_outside {lo w : Nat} (h : lo + w ≤ 64) (x : W64) (n : Nat) {j : Nat} (hj : j < lo ∨ lo + w ≤ j) :
    (insertBits x lo w n).getLsbD j = x.getLsbD j := by
  rw [getLsbD_insertBits h, if_neg (by omega)]

/-- A field of a word, shifted back to its place, holds the word's bits there and zeros elsewhere. -/
theorem getLsbD_fieldOf_shiftLeft {lo w : Nat} (h : lo + w ≤ 64) (v : W64) (j : Nat) :
    (BitVec.ofNat 64 (fieldOf v lo w) <<< lo).getLsbD j = (decide (lo ≤ j ∧ j < lo + w) && v.getLsbD j) := by
  rw [BitVec.getLsbD_shiftLeft, BitVec.getLsbD_ofNat, BitVec.testBit_toNat, BitVec.getLsbD_extractLsb']
  by_cases hin : lo ≤ j ∧ j < lo + w
  · simp [hin, Nat.not_lt.mpr hin.1, show j < 64 by omega, show j - lo < 64 by omega, show j - lo < w by omega]
  · rcases (show j < lo ∨ ¬ j - lo < w by omega) with hlo | hhi
    · simp [hlo, hin]
    · simp [hhi, hin]

/-- A field of one bit is that bit. -/
theorem fieldOf_one (v : W64) (i : Nat) : fieldOf v i 1 = (v.getLsbD i).toNat := by
  have h : v.extractLsb' i 1 = BitVec.ofBool (v.getLsbD i) := by
    ext j hj
    obtain rfl : j = 0 := by omega
    simp
  rw [fieldOf, h, BitVec.toNat_ofBool]

/-- A field that takes as many bits of a word as it has reads them back. -/
theorem State.fld_setFld_fieldOf (s : State) (f : Fld) (v : W64) (lo : Nat) (h : f.lo + f.w ≤ 64) :
    (s.setFld f (fieldOf v lo f.w)).fld f = fieldOf v lo f.w := by
  rw [State.fld_setFld s f _ h, Nat.mod_eq_of_lt (BitVec.isLt _)]

/-! ## Writes of one field -/

variable {a : Nat} {v : W64} {s : State} {r : Row}

@[simp] theorem State.unlocked_none : s.unlocked .none = true := rfl
@[simp] theorem State.unlocked_job : s.unlocked .job = !s.jobLoaded := rfl
@[simp] theorem State.unlocked_fab : s.unlocked .fab = !s.joined := rfl

/-- A write of an RW field sets it where it is unlocked and the value accepted. -/
theorem writeField_rw (hr : r.acc = .rw) :
    writeField a v s r = if s.unlocked r.lock && s.accepts r a (fieldOf v r.lo r.w) then s.setFld ⟨a, r.lo, r.w⟩ (fieldOf v r.lo r.w) else s := by
  simp only [writeField, hr, State.setFld]

theorem writeField_rw_accepted (hr : r.acc = .rw) (hu : s.unlocked r.lock = true) (hx : s.accepts r a (fieldOf v r.lo r.w) = true) :
    writeField a v s r = s.setFld ⟨a, r.lo, r.w⟩ (fieldOf v r.lo r.w) := by
  rw [writeField_rw hr, hu, hx]
  rfl

theorem writeField_rw_refused (hr : r.acc = .rw) (h : s.unlocked r.lock = false ∨ s.accepts r a (fieldOf v r.lo r.w) = false) :
    writeField a v s r = s := by
  rw [writeField_rw hr, if_neg]
  rcases h with h | h <;> simp only [h, Bool.false_and, Bool.and_false, Bool.false_eq_true, not_false_eq_true]

/-- Fields that only a reader, a counter or an action uses keep their value. -/
theorem writeField_kept (hr : r.acc = .ro ∨ r.acc = .rs ∨ r.acc = .ctr ∨ r.acc = .act) : writeField a v s r = s := by
  rcases hr with h | h | h | h <;> simp only [writeField, h]

/-- A write of a W1C field clears the bits written as 1 and keeps the others. -/
theorem writeField_w1c (hr : r.acc = .w1c) (hw : r.lo + r.w ≤ 64) (j : Nat) :
    ((writeField a v s r).reg a).getLsbD j = ((s.reg a).getLsbD j && !(decide (r.lo ≤ j ∧ j < r.lo + r.w) && v.getLsbD j)) := by
  simp only [writeField, hr, State.reg_setReg, if_true, BitVec.getLsbD_and, BitVec.getLsbD_not, getLsbD_fieldOf_shiftLeft hw]
  by_cases hj : j < 64
  · simp [hj]
  · simp [BitVec.getLsbD_of_ge (s.reg a) j (by omega)]

/-- Of the bits of a counter's control word, a write acts on clr alone: it clears the counter and sat. -/
theorem writeField_ctl (hr : r.acc = .ctl) :
    writeField a v s r = if r.lo = 1 ∧ fieldOf v r.lo r.w = 1 then (s.setReg (a - 8) 0).setReg a (insertBits (s.reg a) 0 1 0) else s := by
  simp only [writeField, hr]

theorem State.accepts_reserved {m x : Nat} (hm : r.maxv = some m) (hx : m < x) : s.accepts r a x = false := by
  simp [State.accepts, hm, hx]

/-- Outside the two words with a rule of their own (spec/10 R230, spec/11 R232) a field accepts what is no reserved encoding. -/
theorem State.accepts_plain (hp : a ≠ F.FABRIC_PRESS_CFG_win_log2.addr)
    (hl : a < (F.LINK_CFG_mode 0).addr ∨ (F.LINK_CFG_mode 0).addr + 0x200000 ≤ a) (x : Nat) :
    s.accepts r a x = !r.maxv.any (fun m => decide (m < x)) := by
  have hl' : ¬ ((F.LINK_CFG_mode 0).addr ≤ a ∧ a < (F.LINK_CFG_mode 0).addr + 0x200000 ∧ a % 0x10000 = 0 ∧ r.lo = 0) := by omega
  simp only [State.accepts, hp, hl', false_and, if_false, Bool.and_true]

/-! ## What a read returns -/

/-- A bit that lies in no readable field is masked out. -/
theorem getLsbD_readMask {j : Nat} (h : ∀ r ∈ rowsAt a, r.acc = .act ∨ r.acc = .arg ∨ j < r.lo ∨ r.lo + r.w ≤ j) :
    (readMask a).getLsbD j = false := by
  refine List.foldlRecOn (rowsAt a) _ (motive := fun (m : W64) => m.getLsbD j = false) (by simp) ?_
  intro m hm r hr
  split
  · exact hm
  · next hread =>
    have hout : j < r.lo ∨ r.lo + r.w ≤ j := by
      rcases h r hr with h | h | h
      · exact absurd (.inl h) hread
      · exact absurd (.inr h) hread
      · exact h
    rcases hout with hlo | hhi
    · simp [hm, hlo]
    · simp [hm, BitVec.getLsbD_ofNat, Nat.testBit_two_pow_sub_one, show ¬ j - r.lo < r.w by omega]

theorem State.regLive_lost (h : s.lostReg a = true) : s.regLive a = 0 := by simp [State.regLive, h]

theorem State.regLive_stored (h : s.lostReg a = false) (hs : s.shown a = none) : s.regLive a = s.reg a &&& readMask a := by
  simp [State.regLive, h, hs]

/-! ## Where a write leads -/

theorem exec_registerWrite (addr : BitVec 42) (size : BitVec 2) (v : W64) (s : State) :
    exec (.registerWrite addr size v) s
      = .next (if size.toNat = 3 ∧ addr.toNat % 8 = 0 ∧ s.isRegister addr.toNat then regWrite none addr.toNat v s else s) := rfl

theorem exec_counterClear (addr : BitVec 42) (v : W64) (s : State) :
    exec (.counterClear addr v) s
      = .next (if addr.toNat % 8 = 0 ∧ s.isRegister addr.toNat ∧ (rowsAt addr.toNat).any (fun r => decide (r.acc = .ctl)) then
          regWrite none addr.toNat v s else s) := rfl

theorem regWrite_lost {org : Option Nat} (h : s.lostReg a = true) : regWrite org a v s = s := by simp [regWrite, h]

theorem regWrite_core {org : Option Nat} (h : s.lostReg a = false) (ha : a < 0x30000000000) :
    regWrite org a v s = coreWrite ((a - 0x20000000000) / 0x4000000) ((a - 0x20000000000) % 0x4000000 - 0x3000000) v s := by
  simp [regWrite, h, ha]

theorem regWrite_dev {org : Option Nat} (h : s.lostReg a = false) (ha : 0x30000000000 ≤ a) :
    regWrite org a v s = (devAction org a v s).getD (plainWrite a v s) := by
  simp [regWrite, h, Nat.not_lt.mpr ha]

/-- Edge memory and the windows of the cores end below the device registers. -/
theorem State.isRegister_dev (hlo : 0x30000000000 ≤ a) (hhi : a + 8 ≤ 0x3000D000000) : s.isRegister a = true := by
  have hedge : ¬ a + 8 ≤ s.edgeSize := by unfold State.edgeSize; split <;> omega
  have hcore : ¬ (0x20000000000 ≤ a ∧ a < 0x20000000000 + 0x4000000 * s.ncores) := by unfold State.ncores; split <;> omega
  simp [State.isRegister, State.place, hedge, hcore, hlo, hhi]

/-! ## Words that a write always reaches -/

/-- A word of device registers that no mode takes away and that has no action: a write of it is a write of its fields. -/
structure PlainWord (a : Nat) : Prop where
  aligned : a % 8 = 0
  lower : 0x30000000000 ≤ a
  upper : a + 8 ≤ 0x3000D000000
  kept : ∀ s : State, s.lostReg a = false
  noAction : ∀ (v : W64) (s : State), devAction none a v s = none

theorem PlainWord.toNat_ofNat (h : PlainWord a) : (BitVec.ofNat 42 a).toNat = a := by
  have := h.upper
  simp only [BitVec.toNat_ofNat]
  omega

theorem PlainWord.regWrite (h : PlainWord a) (v : W64) (s : State) : regWrite none a v s = plainWrite a v s := by
  rw [regWrite_dev (h.kept s) h.lower, h.noAction v s, Option.getD_none]

theorem PlainWord.exec_registerWrite (h : PlainWord a) (v : W64) (s : State) :
    exec (.registerWrite (BitVec.ofNat 42 a) 3 v) s = .next (plainWrite a v s) := by
  rw [Machine.exec_registerWrite, h.toNat_ofNat, if_pos ⟨rfl, h.aligned, State.isRegister_dev h.lower h.upper⟩, h.regWrite]

theorem PlainWord.exec_counterClear (h : PlainWord a) (hc : (rowsAt a).any (fun r => decide (r.acc = .ctl)) = true) (v : W64) (s : State) :
    exec (.counterClear (BitVec.ofNat 42 a) v) s = .next (plainWrite a v s) := by
  rw [Machine.exec_counterClear, h.toNat_ofNat, if_pos ⟨h.aligned, State.isRegister_dev h.lower h.upper, hc⟩, h.regWrite]

/-- A write of a word whose lock raises no event is the write of its fields, row by row. -/
theorem plainWrite_silent (he : lockedEvent a = none) : plainWrite a v s = (rowsAt a).foldl (writeField a v) s := by
  simp [plainWrite, he]

/-- In a word of one field whose rule gives an event, the event comes with the lock. -/
theorem plainWrite_single {ev : Nat} (he : lockedEvent a = some ev) (hr : rowsAt a = [r]) :
    plainWrite a v s = if s.unlocked r.lock then writeField a v s r else (writeField a v s r).raiseDev ev [] := by
  cases h : s.unlocked r.lock <;> simp [plainWrite, he, hr, h]

end Sys2Proof.Machine
end

section
/-! O59, register writes: the words that its statement names, and the statement. -/

namespace Sys2Proof.Machine

/-! ## The words of device registers with fields alone -/

theorem plainWord_modeCfg : PlainWord F.DEV_MODE_CFG_keep_half.addr := by
  constructor <;> simp [State.lostReg, devAction]

theorem plainWord_modeSts : PlainWord F.DEV_MODE_STS_degraded.addr := by
  constructor <;> simp [State.lostReg, devAction]

theorem plainWord_execCfg : PlainWord F.DEV_EXEC_CFG_mode.addr := by
  constructor <;> simp [State.lostReg, devAction]

theorem plainWord_nodeId : PlainWord F.DEV_NODE_ID_node_id.addr := by
  constructor <;> simp [State.lostReg, devAction]

/-- The rows of the control word of a counter: sat, clr, ev_en (spec/19 R430). -/
def satRow (a : Nat) : Row := ⟨a, 0, 1, .ctl, 0, .none, 0, 1, 0, 1, none⟩
def clrRow (a : Nat) : Row := ⟨a, 1, 1, .ctl, 0, .none, 0, 1, 0, 1, none⟩
def evEnRow (a : Nat) : Row := ⟨a, 2, 1, .rw, 0, .none, 0, 1, 0, 1, none⟩

/-- The control word of a counter of the module as a whole. -/
structure ControlWord (a : Nat) : Prop extends PlainWord a where
  rows : rowsAt a = [satRow a, clrRow a, evEnRow a]
  silent : lockedEvent a = none
  notPress : a ≠ F.FABRIC_PRESS_CFG_win_log2.addr
  notLink : a < (F.LINK_CFG_mode 0).addr ∨ (F.LINK_CFG_mode 0).addr + 0x200000 ≤ a

/-- The counters that the statement names. -/
theorem controlWord_of_mem :
    ∀ f ∈ [F.DEV_LATE_RSP_CNT, F.CORE_MAP_ABSORB_CNT, F.RED_STALE_CNT, F.PWR_CAP_STALE_CNT, F.SEC_PRES_IDLE_CNT, F.EVT_LOST_CNT, F.EVT_MASKED_CNT],
      ControlWord (f.addr + 8) := by
  simp only [List.forall_mem_cons, List.not_mem_nil, false_implies, implies_true, and_true]
  refine ⟨?_, ?_, ?_, ?_, ?_, ?_, ?_⟩ <;>
    exact { aligned := by decide, lower := by decide, upper := by decide, kept := by simp [State.lostReg], noAction := by simp [devAction],
            rows := by decide, silent := by decide, notPress := by decide, notLink := by decide }

/-! ## A counter's control word -/

/-- The state after clr was written as 1: the counter and sat are 0. -/
def State.clearCounter (s : State) (a : Nat) : State := (s.setReg (a - 8) 0).setReg a (insertBits (s.reg a) 0 1 0)

/-- The state after a write of the control word at `a`: the counter is cleared where clr is 1, then ev_en is set. -/
def State.controlWritten (s : State) (a : Nat) (v : W64) : State :=
  (if v.getLsbD 1 then s.clearCounter a else s).setFld ⟨a, 2, 1⟩ (fieldOf v 2 1)

theorem writeField_satRow (a : Nat) (v : W64) (s : State) : writeField a v s (satRow a) = s := by
  rw [writeField_ctl rfl, if_neg (by simp [satRow])]

theorem writeField_clrRow (a : Nat) (v : W64) (s : State) :
    writeField a v s (clrRow a) = if v.getLsbD 1 then s.clearCounter a else s := by
  rw [writeField_ctl rfl]
  simp only [clrRow, fieldOf_one, Bool.toNat_eq_one, true_and, State.clearCounter]

theorem ControlWord.writeField_evEnRow {a : Nat} (h : ControlWord a) (v : W64) (s : State) :
    writeField a v s (evEnRow a) = s.setFld ⟨a, 2, 1⟩ (fieldOf v 2 1) := by
  rw [writeField_rw rfl, State.accepts_plain h.notPress h.notLink]
  rfl

theorem ControlWord.plainWrite_eq {a : Nat} (h : ControlWord a) (v : W64) (s : State) : plainWrite a v s = s.controlWritten a v := by
  rw [plainWrite_silent h.silent, h.rows, List.foldl_cons, List.foldl_cons, List.foldl_cons, List.foldl_nil,
    writeField_satRow, writeField_clrRow, h.writeField_evEnRow, State.controlWritten]

theorem ControlWord.exec_counterClear {a : Nat} (h : ControlWord a) (v : W64) (s : State) :
    exec (.counterClear (BitVec.ofNat 42 a) v) s = .next (s.controlWritten a v) := by
  rw [h.toPlainWord.exec_counterClear (by simp [h.rows, satRow]), h.plainWrite_eq]

theorem State.controlWritten_mem (s : State) (a : Nat) (v : W64) : (s.controlWritten a v).mem = s.mem := by
  unfold State.controlWritten
  split <;> rfl

theorem State.controlWritten_cores (s : State) (a : Nat) (v : W64) : (s.controlWritten a v).cores = s.cores := by
  unfold State.controlWritten
  split <;> rfl

/-- Of the registers but the control word itself, a write of it changes the counter alone. -/
theorem State.reg_controlWritten_ne (s : State) (c : Nat) (v : W64) {b : Nat} (hb : b ≠ c + 8) :
    (s.controlWritten (c + 8) v).reg b = if v.getLsbD 1 = true ∧ b = c then 0 else s.reg b := by
  rw [State.controlWritten, State.reg_setFld_ne _ _ _ _ hb]
  cases v.getLsbD 1 <;> simp [State.clearCounter, hb]

theorem State.reg_controlWritten (s : State) (a : Nat) (v : W64) :
    (s.controlWritten a v).reg a = insertBits (if v.getLsbD 1 then insertBits (s.reg a) 0 1 0 else s.reg a) 2 1 (fieldOf v 2 1) := by
  rw [State.controlWritten, State.setFld, State.reg_setReg, if_pos rfl]
  split <;> simp [State.clearCounter]

theorem State.sat_controlWritten (s : State) (a : Nat) (v : W64) :
    ((s.controlWritten a v).reg a).getLsbD 0 = (!v.getLsbD 1 && (s.reg a).getLsbD 0) := by
  rw [State.reg_controlWritten, getLsbD_insertBits_outside (by decide) _ _ (.inl (by decide))]
  cases v.getLsbD 1
  · rfl
  · exact getLsbD_insertBits (lo := 0) (w := 1) (by decide) (s.reg a) 0 0

theorem State.evEn_controlWritten (s : State) (a : Nat) (v : W64) : ((s.controlWritten a v).reg a).getLsbD 2 = v.getLsbD 2 := by
  rw [State.reg_controlWritten, getLsbD_insertBits (by decide), fieldOf_one]
  cases v.getLsbD 2 <;> rfl

/-! ## The words of RW fields that the statement names -/

theorem exec_write_modeCfg (v : W64) (s : State) :
    exec (.registerWrite (BitVec.ofNat 42 F.DEV_MODE_CFG_keep_half.addr) 3 v) s
      = .next ((s.setFld F.DEV_MODE_CFG_keep_half (fieldOf v 1 1)).setFld F.DEV_MODE_CFG_force_half (fieldOf v 0 1)) := by
  have hrows : rowsAt F.DEV_MODE_CFG_keep_half.addr = [⟨0x30000000010, 1, 1, .rw, 0, .none, 0, 1, 0, 1, none⟩,
      ⟨0x30000000010, 0, 1, .rw, 0, .none, 0, 1, 0, 1, none⟩] := by decide
  rw [plainWord_modeCfg.exec_registerWrite, plainWrite_silent (by decide), hrows]
  simp [writeField_rw, State.accepts_plain]

theorem exec_write_modeSts (v : W64) (s : State) :
    exec (.registerWrite (BitVec.ofNat 42 F.DEV_MODE_STS_degraded.addr) 3 v) s = .next s := by
  have hro : ∀ r ∈ rowsAt F.DEV_MODE_STS_degraded.addr, r.acc = .ro := by decide
  rw [plainWord_modeSts.exec_registerWrite, plainWrite_silent (by decide)]
  exact congrArg _ (List.foldlRecOn _ _ (motive := (· = s)) rfl fun t ht r hr => by rw [writeField_kept (.inl (hro r hr)), ht])

/-- DEV_EXEC_CFG.mode is locked by a loaded job and accepts the modes 0 and 1. -/
theorem exec_write_execCfg (v : W64) (s : State) :
    exec (.registerWrite (BitVec.ofNat 42 F.DEV_EXEC_CFG_mode.addr) 3 v) s
      = .next (if s.jobLoaded then s.raiseDev EV.EXEC_CFG_LOCKED []
          else if fieldOf v 0 2 ≤ 1 then s.setFld F.DEV_EXEC_CFG_mode (fieldOf v 0 2) else s) := by
  have hrows : rowsAt F.DEV_EXEC_CFG_mode.addr = [⟨0x30000000040, 0, 2, .rw, 0, .job, 0, 1, 0, 1, some 1⟩] := by decide
  rw [plainWord_execCfg.exec_registerWrite, plainWrite_single (ev := EV.EXEC_CFG_LOCKED) (by decide) hrows, writeField_rw rfl]
  cases hj : s.jobLoaded <;> simp [State.accepts_plain, hj]

/-- DEV_NODE_ID.node_id is locked by a joined fabric. -/
theorem exec_write_nodeId (v : W64) (s : State) :
    exec (.registerWrite (BitVec.ofNat 42 F.DEV_NODE_ID_node_id.addr) 3 v) s
      = .next (if s.joined then s.raiseDev EV.ADDR_CFG_LOCKED [] else s.setFld F.DEV_NODE_ID_node_id (fieldOf v 0 22)) := by
  have hrows : rowsAt F.DEV_NODE_ID_node_id.addr = [⟨0x30000000020, 0, 22, .rw, 0x3fffff, .fab, 0, 1, 0, 1, none⟩] := by decide
  rw [plainWord_nodeId.exec_registerWrite, plainWrite_single (ev := EV.ADDR_CFG_LOCKED) (by decide) hrows, writeField_rw rfl]
  cases hj : s.joined <;> simp [State.accepts_plain, hj]

/-! ## The parts of the statement -/

theorem wordWrites : Slice0.WordWrites := by
  intro addr size v s a word
  have hexec := exec_registerWrite addr size v s
  refine ⟨fun hw => ?_, fun ⟨hsize, halign, hreg, hkept⟩ ha => ?_, fun ⟨hsize, halign, hreg, hkept⟩ ha => ?_⟩
  · by_cases hacts : size.toNat = 3 ∧ addr.toNat % 8 = 0 ∧ s.isRegister addr.toNat
    · obtain ⟨hsize, halign, hreg⟩ := hacts
      have hlost : s.lostReg addr.toNat = true := by
        by_contra hkept
        exact hw ⟨hsize, halign, hreg, by simpa using hkept⟩
      rw [hexec, regWrite_lost hlost, ite_self]
    · rw [hexec, if_neg hacts]
  · rw [hexec, if_pos ⟨hsize, halign, hreg⟩, regWrite_dev hkept ha]
    exact ⟨fun t ht => by rw [ht, Option.getD_some], fun hn => by rw [hn, Option.getD_none]⟩
  · rw [hexec, if_pos ⟨hsize, halign, hreg⟩, regWrite_core hkept ha]

theorem fieldWrites : Slice0.FieldWrites := by
  refine ⟨fun a v s r => ⟨writeField_rw_accepted, writeField_rw_refused, writeField_kept, writeField_w1c, fun m => State.accepts_reserved, rfl, rfl, rfl⟩,
    fun x lo w n h => ⟨fieldOf_insertBits h x n, fun j => getLsbD_insertBits_outside h x n⟩,
    fun a s => ⟨State.regLive_lost, fun hkept hs j hj => ?_⟩,
    fun v s => ⟨⟨_, exec_write_modeCfg v s, ?_, ?_, rfl, rfl, fun a ha => ?_⟩, exec_write_modeSts v s,
      fun hj => ?_, fun hj => ⟨_, exec_write_execCfg v s, ?_⟩, fun hf => ?_, fun hf => ⟨_, exec_write_nodeId v s, ?_⟩⟩⟩
  · rw [State.regLive_stored hkept hs, BitVec.getLsbD_and, getLsbD_readMask hj, Bool.and_false]
  · rw [State.fld_setFld_bits _ _ _ _ (.inr (by decide)), State.fld_setFld_fieldOf _ _ _ _ (by decide)]
  · rw [State.fld_setFld_fieldOf _ _ _ _ (by decide)]
  · exact (State.reg_setFld_ne _ F.DEV_MODE_CFG_force_half _ _ ha).trans (State.reg_setFld_ne _ _ _ _ ha)
  · rw [exec_write_execCfg, if_pos hj]
  · rw [hj, if_neg Bool.false_ne_true]
    split
    · exact ⟨State.fld_setFld_fieldOf _ _ _ _ (by decide), rfl⟩
    · exact ⟨rfl, rfl⟩
  · rw [exec_write_nodeId, if_pos hf]
  · rw [hf, if_neg Bool.false_ne_true]
    exact ⟨State.fld_setFld_fieldOf _ _ _ _ (by decide), rfl⟩

theorem counterClears : Slice0.CounterClears := by
  refine ⟨fun addr v s => ?_, fun f hf v s => ⟨_, (controlWord_of_mem f hf).exec_counterClear v s, ?_⟩⟩
  · intro a control
    have hany : (rowsAt a).any (fun r => decide (r.acc = .ctl)) = true ↔ ∃ r ∈ rowsAt a, r.acc = .ctl := by simp
    rw [exec_counterClear, exec_registerWrite]
    refine ⟨fun hc => ?_, fun ⟨halign, hreg, hctl⟩ => ?_⟩
    · rw [if_neg fun ⟨halign, hreg, hctl⟩ => hc ⟨halign, hreg, hany.mp hctl⟩]
    · rw [if_pos ⟨halign, hreg, hany.mpr hctl⟩, if_pos ⟨rfl, halign, hreg⟩]
  · have hcnt : f.addr ≠ f.addr + 8 := by omega
    refine ⟨fun h => ?_, fun h => ?_, State.evEn_controlWritten _ _ _, State.controlWritten_mem _ _ _, State.controlWritten_cores _ _ _,
      fun b hb hctl => ?_⟩
    · rw [State.reg_controlWritten_ne _ _ _ hcnt, State.sat_controlWritten, h]
      exact ⟨if_pos ⟨rfl, rfl⟩, rfl⟩
    · rw [State.reg_controlWritten_ne _ _ _ hcnt, State.sat_controlWritten, h]
      exact ⟨if_neg fun hb => Bool.false_ne_true hb.1, rfl⟩
    · rw [State.reg_controlWritten_ne _ _ _ hctl, if_neg fun h => hb h.2]

/-- Settles O59: writes of words by where they lead, fields by their kind of access, counters by their control words. -/
theorem registerWrites : Obligations.RegisterWrites := ⟨wordWrites, fieldWrites, counterClears⟩

end Sys2Proof.Machine
end

section
/-! O46, requests of other nodes (spec/11 R241, R247, R252-R255; spec/04 R91): the order in which they take effect, what refuses them, and their
effects. -/

namespace Sys2Proof.Machine

/-! ## Order (R241, R247, R253) -/

section Order
variable {i : Inb} {s : State}

theorem inbGo_nil (h : s.net.inb = []) : inbGo s = s := by simp [inbGo, h]

theorem inbGo_cons (h : s.net.inb ≠ []) : inbGo s = s.net.inb.foldl inbTurn { s with net := { s.net with inb := [] } } := by simp [inbGo, h]

theorem inbTurn_behind (h : s.flowBusy i = true) : inbTurn s i = s.waits i := by simp [inbTurn, h]

theorem inbTurn_taken (h : s.flowBusy i = false) (ht : (takeUp i s).2 = true) : inbTurn s i = (takeUp i s).1 := by simp [inbTurn, h, ht]

theorem inbTurn_later (h : s.flowBusy i = false) (ht : (takeUp i s).2 = false) : inbTurn s i = (takeUp i s).1.waits i := by simp [inbTurn, h, ht]

end Order

/-- A command that is an arrival is taken up in the order of its flow when link, channel and length are right, and changes nothing otherwise. -/
theorem exec_arrival {p : OfpPkt} {s : State} {c : Instr} {op : BitVec 4} {ok : Bool} {good : Prop} (hok : ok = true ↔ good)
    (hc : exec c s = .next (ofpIn op ok p s)) :
    (s.takes p op.toNat = true ∧ good → exec c s = .next (inbound (.ofp { p with op := op }) s))
    ∧ (¬ (s.takes p op.toNat = true ∧ good) → exec c s = .next s) := by
  rw [hc, ← hok, ofpIn, ← Bool.and_eq_true]
  exact ⟨fun h => congrArg _ (if_pos h), fun h => congrArg _ (if_neg h)⟩

/-- The packets of Table 11-5 that reach a unit are such arrivals. -/
theorem exec_request {r : (OfpPkt → Instr) × BitVec 4 × (OfpPkt → Prop)} (hr : r ∈ Slice0.requests) (p : OfpPkt) (s : State) :
    (s.takes p r.2.1.toNat = true ∧ r.2.2 p → exec (r.1 p) s = .next (inbound (.ofp { p with op := r.2.1 }) s))
    ∧ (¬ (s.takes p r.2.1.toNat = true ∧ r.2.2 p) → exec (r.1 p) s = .next s) := by
  simp only [Slice0.requests, List.mem_cons, List.not_mem_nil, or_false] at hr
  rcases hr with rfl | rfl | rfl | rfl | rfl | rfl
  · exact exec_arrival (c := .ofpGet p) (op := 0) decide_eq_true_iff rfl
  · exact exec_arrival (c := .ofpPut p) (op := 1) decide_eq_true_iff rfl
  · exact exec_arrival (c := .ofpAtom p) (op := 2) decide_eq_true_iff rfl
  · exact exec_arrival (c := .ofpCopy p) (op := 3) decide_eq_true_iff rfl
  · exact exec_arrival (c := .ofpWseg p) (op := 9) (ok := true) (by simp) rfl
  · exact exec_arrival (c := .ofpGbk p) (op := 10) decide_eq_true_iff rfl

theorem requestOrder : Slice0.RequestOrder := by
  refine ⟨fun r hr p s => ?_, fun i s => ⟨inbTurn_behind, inbTurn_taken, inbTurn_later, rfl, rfl, rfl, rfl⟩⟩
  obtain ⟨hin, hout⟩ := exec_request hr p s
  refine ⟨hout, fun ht he hb => ?_, fun ht he hb => ⟨fun hu => ?_, fun hu => ?_⟩, fun ht he => ?_⟩
  · rw [hin ht, inbound, inbGo_nil he, inbTurn_behind hb]
  · rw [hin ht, inbound, inbGo_nil he, inbTurn_taken hb hu]
  · rw [hin ht, inbound, inbGo_nil he, inbTurn_later hb hu]
  · rw [hin ht, inbound, inbGo_cons he]

/-! ## Refusal (R37, R255) -/

theorem State.refusal_dev {perm a n : Nat} {k : Option Nat} {s : State} (h : s.place a n = .dev) : s.refusal perm a n k = some E.ADDR_UNMAPPED := by
  simp [State.refusal, h]

theorem State.refusal_of_place_ne_dev {perm a n : Nat} {k : Option Nat} {s : State} (h : s.place a n ≠ .dev) :
    s.refusal perm a n k = if s.inWindow perm a n k then none else some E.REMOTE_ACCESS := by
  simp [State.refusal, h]

/-- The windows without a key: one of them is valid, has the permission and holds the range. -/
theorem State.inWindow_iff (perm a n : Nat) (s : State) :
    s.inWindow perm a n none = true ↔ ∃ i, i < 16 ∧ s.flag (F.DEV_INB_WIN_valid i) = true
      ∧ s.flag (match perm with | 0 => F.DEV_INB_WIN_r i | 1 => F.DEV_INB_WIN_w i | _ => F.DEV_INB_WIN_atom i) = true
      ∧ s.fld (F.DEV_INB_WIN_base i) * 4096 ≤ a ∧ a + n ≤ s.fld (F.DEV_INB_WIN_base i) * 4096 + s.fld (F.DEV_INB_WIN_size i) * 4096 := by
  simp only [State.inWindow, List.any_eq_true, List.mem_range, Bool.and_eq_true, decide_eq_true_eq, and_true, and_assoc] <;> rfl

theorem refused : Slice0.Refused := by
  refine fun perm a n s => ⟨State.refusal_dev, fun h hw => ?_, fun h hw => ?_⟩
  · rw [State.refusal_of_place_ne_dev h, if_pos ((State.inWindow_iff perm a n s).mpr hw)]
  · rw [State.refusal_of_place_ne_dev h, if_neg fun hin => hw ((State.inWindow_iff perm a n s).mp hin)]

/-! ## Effects (R252, R255) -/

section Effects
variable {p : OfpPkt} {s : State}

theorem takeUp_get (h : p.op = 0) : takeUp (.ofp p) s = getTake p s := by simp only [takeUp, h]; rfl
theorem takeUp_put (h : p.op = 1) : takeUp (.ofp p) s = putTake p s := by simp only [takeUp, h]; rfl
theorem takeUp_atom (h : p.op = 2) : takeUp (.ofp p) s = atomTake p s := by simp only [takeUp, h]; rfl
theorem takeUp_copy (h : p.op = 3) : takeUp (.ofp p) s = copyTake p s := by simp only [takeUp, h]; rfl

end Effects

theorem remoteAccess : Slice0.RemoteAccess := by
  intro p s
  dsimp only
  refine ⟨fun hop => ?_, fun hop => ?_, fun hop => ?_⟩
  · rw [takeUp_get hop]
    exact ⟨fun code hc => by simp only [getTake, hc, replyErr], fun hr hf => by simp [getTake, hr, hf], fun hr hf =>
      ⟨fun t data hb => by simp [getTake, hr, hf, hb], fun t code hb => by simp [getTake, hr, hf, hb, replyErr],
        fun t hb => by simp [getTake, hr, hf, hb]⟩⟩
  · rw [takeUp_put hop]
    exact ⟨fun code hc => by simp only [putTake, hc, replyErr], fun hr hf => by simp [putTake, hr, hf], fun hr hf =>
      ⟨fun t d hb he => by simp [putTake, hr, hf, hb, he], fun t d hb he => by simp [putTake, hr, hf, hb, he],
        fun t code hb => by simp [putTake, hr, hf, hb, replyErr], fun t hb => by simp [putTake, hr, hf, hb],
        fun t hb => by simp [putTake, hr, hf, hb]⟩⟩
  · rw [takeUp_atom hop]
    exact ⟨fun code hc => by simp only [atomTake, hc, replyErr], fun hr hf => by simp [atomTake, hr, hf], fun hr hf =>
      ⟨fun t old hb => by simp [atomTake, hr, hf, hb], fun t code hb => by simp [atomTake, hr, hf, hb, replyErr],
        fun t hb => by simp [atomTake, hr, hf, hb]⟩⟩

/-! ## COPY (R252, R254, R255) -/

section Pieces
variable {src dst off len fuel : Nat}

/-- The length of the next piece: up to the next block of source or of destination, or to the end. -/
def pieceLen (src dst off len : Nat) : Nat := Nat.min (Nat.min (2048 - (src + off) % 2048) (2048 - (dst + off) % 2048)) (len - off)

theorem copyPieces_done (h : len ≤ off) : copyPieces fuel src dst off len = [] := by
  cases fuel <;> simp [copyPieces, h]

theorem copyPieces_next (h : off < len) :
    copyPieces (fuel + 1) src dst off len = (off, pieceLen src dst off len) :: copyPieces fuel src dst (off + pieceLen src dst off len) len := by
  simp [copyPieces, pieceLen, Nat.not_le.mpr h]

/-- A piece is not empty, stays within its blocks and the length, and ends at a block's end unless it is the last. -/
theorem pieceLen_bounds (src dst : Nat) (h : off < len) :
    0 < pieceLen src dst off len ∧ off + pieceLen src dst off len ≤ len
    ∧ (src + off) % 2048 + pieceLen src dst off len ≤ 2048 ∧ (dst + off) % 2048 + pieceLen src dst off len ≤ 2048
    ∧ (off + pieceLen src dst off len = len ∨ (src + off) % 2048 + pieceLen src dst off len = 2048
      ∨ (dst + off) % 2048 + pieceLen src dst off len = 2048) := by
  simp only [pieceLen, Nat.min_def]
  split <;> split <;> omega

/-- The block ends of source and destination that lie before the end: each piece but the last reaches one of them. -/
def blockEnds (src dst off len : Nat) : Nat :=
  ((src + len - 1) / 2048 - (src + off) / 2048) + ((dst + len - 1) / 2048 - (dst + off) / 2048)

theorem blockEnds_next (h : off + pieceLen src dst off len < len) :
    blockEnds src dst (off + pieceLen src dst off len) len < blockEnds src dst off len := by
  obtain ⟨hpos, -, hs, hd, hend⟩ := pieceLen_bounds (off := off) (len := len) src dst (by omega)
  generalize pieceLen src dst off len = k at *
  simp only [blockEnds]
  omega

theorem copyPieces_within (fuel : Nat) : ∀ off, ∀ g ∈ copyPieces fuel src dst off len,
    0 < g.2 ∧ (src + g.1) % 2048 + g.2 ≤ 2048 ∧ (dst + g.1) % 2048 + g.2 ≤ 2048 := by
  induction fuel with
  | zero => intro off g hg; simp [copyPieces] at hg
  | succ fuel ih =>
    intro off g hg
    by_cases h : off < len
    · rw [copyPieces_next h, List.mem_cons] at hg
      rcases hg with rfl | hg
      · obtain ⟨hpos, -, hs, hd, -⟩ := pieceLen_bounds src dst h
        exact ⟨hpos, hs, hd⟩
      · exact ih _ g hg
    · rw [copyPieces_done (Nat.not_lt.mp h)] at hg
      exact absurd hg List.not_mem_nil

/-- With a piece for each block end and one more, the pieces cover the range, in order and without overlap. -/
theorem copyPieces_cover (fuel : Nat) : ∀ off, off ≤ len → blockEnds src dst off len < fuel →
    (copyPieces fuel src dst off len).flatMap (fun g => (List.range g.2).map (fun j => g.1 + j)) = List.range' off (len - off) := by
  induction fuel with
  | zero => intro off _ h; omega
  | succ fuel ih =>
    intro off hle hf
    rcases Nat.eq_or_lt_of_le hle with rfl | h
    · rw [copyPieces_done (Nat.le_refl _), Nat.sub_self]; rfl
    · obtain ⟨hpos, hlen, -⟩ := pieceLen_bounds src dst h
      have hrest : (copyPieces fuel src dst (off + pieceLen src dst off len) len).flatMap (fun g => (List.range g.2).map (fun j => g.1 + j))
          = List.range' (off + pieceLen src dst off len) (len - (off + pieceLen src dst off len)) := by
        rcases Nat.eq_or_lt_of_le hlen with he | hlt
        · rw [copyPieces_done (Nat.le_of_eq he.symm), he, Nat.sub_self]; rfl
        · exact ih _ hlen (by have := blockEnds_next hlt; omega)
      rw [copyPieces_next h, List.flatMap_cons, hrest, ← List.range'_eq_map_range, List.range'_append_1]
      congr 1
      omega

end Pieces

section Copy
variable {p : OfpPkt} {s : State}

/-- The pieces of the COPY of a packet as they are made, under the name of the core that the source belongs to. -/
def copyRun (p : OfpPkt) (s : State) : CopyRun :=
  (copyPieces (numAt p.data 8 8 / 1024 + 4) p.addr.toNat (numAt p.data 0 8) 0 (numAt p.data 8 8)).foldl
    (copyPiece p (match s.place p.addr.toNat 1 with | .mem n | .regs n => n | _ => p.srcEp.toNat)
      ((s.net.copies.map (·.id)).foldl Nat.max 0 + 1) (numAt p.data 0 8)) { st := s }

/-- What the COPY of a packet answers once its pieces are made: its end, or a job that waits for acknowledgements. -/
def copyEnd (p : OfpPkt) (s : State) : State × Bool :=
  let r := copyRun p s
  if r.left = 0 then (r.st.reply p (if r.code = 0 then opCdone else opErr) r.code [], true)
  else
    (State.release { r.st with net := { r.st.net with copies :=
      ⟨(s.net.copies.map (·.id)).foldl Nat.max 0 + 1, p.link.toNat, p.src.toNat, p.srcEp.toNat, p.vc.toNat, p.tag.toNat, r.left, r.code⟩
        :: r.st.net.copies } } p, true)

/-- A COPY that its window and its route let pass waits, or is made. -/
theorem copyTake_passed (hr : s.refusal 0 p.addr.toNat (numAt p.data 8 8) none = none)
    (hp : ¬ (s.isSelf (numAt p.data 0 8 / 2 ^ 42) = false ∧ ∃ q, s.route (numAt p.data 0 8 / 2 ^ 42) = .qp q)) :
    copyTake p s =
      if copyWaits s p.addr.toNat (numAt p.data 0 8) (numAt p.data 8 8) then
        (if s.isSelf (numAt p.data 0 8 / 2 ^ 42) then s.ask (numAt p.data 0 8 % 2 ^ 42) (numAt p.data 8 8) else s, false)
      else copyEnd p s := by
  simp only [copyTake, hr]
  split
  · next hf hq => exact absurd ⟨by simpa using hf, _, hq⟩ hp
  · cases s.isSelf (numAt p.data 0 8 / 2 ^ 42) <;> rfl

end Copy

theorem remoteCopy : Slice0.RemoteCopy := by
  refine ⟨fun p s hop => ?_, fun src dst len => ⟨?_, fun g hg => copyPieces_within _ _ g hg⟩, fun p ep id dst c g => ?_⟩
  · dsimp only
    rw [takeUp_copy hop]
    refine ⟨fun code hc => by simp only [copyTake, hc, replyErr], fun hr => ⟨fun hp => ?_, fun hp hw hf => ?_, fun hp hw hf => ?_,
      fun hp hw hl => ?_, fun hp hw hl => ?_⟩⟩
    · obtain ⟨hf, q, hq⟩ := hp
      simp [-Nat.reducePow, copyTake, hr, hf, hq, replyErr]
    · rw [copyTake_passed hr hp, if_pos hw, hf]; rfl
    · rw [copyTake_passed hr hp, if_pos hw, Bool.eq_true_of_not_eq_false hf]; rfl
    · rw [copyTake_passed hr hp, hw]
      exact if_pos hl
    · rw [copyTake_passed hr hp, hw]
      exact if_neg hl
  · have hfuel : blockEnds src dst 0 len < len / 1024 + 4 := by simp only [blockEnds]; omega
    rw [copyPieces_cover _ _ (Nat.zero_le _) hfuel, Nat.sub_zero, List.range_eq_range']
  · dsimp only
    refine ⟨fun hc => by simp [copyPiece, hc], fun hc code u hb => by simp [copyPiece, hc, hb], fun hc t0 data hb => ?_⟩
    exact ⟨fun hn code hr => by simp [-Nat.reducePow, copyPiece, hc, hb, hn, hr],
      fun hn hr u d hw => by simp [-Nat.reducePow, copyPiece, hc, hb, hn, hr, hw],
      fun hn => ⟨fun u hp => by simp [-Nat.reducePow, copyPiece, hc, hb, hn, hp],
        fun u code hp => by simp [-Nat.reducePow, copyPiece, hc, hb, hn, hp]⟩⟩

/-! ## Atomics (spec/04 R91) -/

/-- The value of a pattern read as a two's complement number. -/
theorem toInt_ofNat_signed {b z : Nat} (h : z < 2 ^ b) :
    (BitVec.ofNat b z).toInt = if 2 * z < 2 ^ b then (z : Int) else (z : Int) - ((2 ^ b : Nat) : Int) := by
  rw [BitVec.toInt_eq_toNat_cond, BitVec.toNat_ofNat, Nat.mod_eq_of_lt h]

theorem atomicValues : Slice0.AtomicValues := by
  intro w old x c hw ho hx hc
  simp only [atomVal, Nat.mod_eq_of_lt ho, Nat.mod_eq_of_lt hx, Nat.mod_eq_of_lt hc, BitVec.sle_eq_decide, BitVec.slt_eq_decide, decide_eq_true_eq,
    toInt_ofNat_signed ho, toInt_ofNat_signed hx, true_and]
  exact ⟨fun h => ⟨if_pos h, if_pos h⟩, fun h => ⟨if_neg (Int.not_le.mpr h), if_neg (Int.not_le.mpr h)⟩⟩

theorem recordsTaken : Slice0.RecordsTaken := by
  refine fun p s => ⟨fun hop => ?_, fun hop => ?_⟩
  · simp only [takeUp, hop]; rfl
  · simp only [takeUp, hop]; rfl

/-- Settles O46: the order in which packets of other nodes take effect, what refuses them, and the effect of each. -/
theorem inboundRequests : Obligations.InboundRequests := ⟨requestOrder, refused, remoteAccess, remoteCopy, atomicValues, recordsTaken⟩

end Sys2Proof.Machine
end

section
/-! Frame: an engine that abandons its step (spec/14 R314) leaves time and wear as they were. One lemma for each operation on the way there. -/

namespace Sys2Proof.Machine

/-- A fold keeps what each of its steps keeps. -/
theorem foldl_keeps {α β σ : Type} {f : σ → α → σ} (g : σ → β) (h : ∀ s x, g (f s x) = g s) (l : List α) (s : σ) : g (l.foldl f s) = g s :=
  List.foldlRecOn l f (motive := fun t => g t = g s) rfl fun t ht x _ => (h t x).trans ht

/-! ## Egress and memory -/

@[simp] theorem State.pumpLink_wear (s : State) (k : Nat) : (s.pumpLink k).wear = s.wear := by
  unfold State.pumpLink
  exact (foldl_keeps State.wear (fun t f => State.out_wear t _) _ _).trans (State.setLnk_wear ..)

@[simp] theorem State.sendPkt_wear (s : State) (k : Nat) (p : OfpPkt) : (s.sendPkt k p).wear = s.wear := by
  unfold State.sendPkt; split <;> simp

@[simp] theorem State.sendOne_wear (s : State) (ep vc node op tag addr : Nat) (data : List Byte) :
    (s.sendOne ep vc node op tag addr data).1.wear = s.wear := by
  unfold State.sendOne
  split
  · dsimp only; split <;> simp
  · rfl

@[simp] theorem sendCtl_wear (node : Nat) (rec : List Byte) (s : State) : (sendCtl node rec s).wear = s.wear := State.sendOne_wear ..

@[simp] theorem lateNote_wear (s : State) (r : OutReq) : (lateNote s r).wear = s.wear := by
  unfold lateNote; split <;> rfl

@[simp] theorem State.forget_wear (s : State) (src : ReqSrc) : (s.forget src).wear = s.wear := foldl_keeps State.wear lateNote_wear _ _

/-- Everything that copying a page ahead can do: nothing, or memory and the marking change, and it is counted. -/
theorem copyAhead_induction {q : Nat} {s : State} {P : State → Prop} (same : P s)
    (copied : ∀ (m : Mem) (c : Ckpt), P ((({ s with mem := m } : State).setCk c).bump F.CKPT_CA_CNT)) : P (copyAhead q s) := by
  rw [copyAhead.eq_1]
  split
  · exact copied _ _
  · exact same

/-- A store keeps what neither a page copied ahead nor bytes written change. -/
theorem State.store_keeps {β : Type} (g : State → β)
    (copied : ∀ (s : State) (m : Mem) (c : Ckpt), g ((({ s with mem := m } : State).setCk c).bump F.CKPT_CA_CNT) = g s)
    (written : ∀ (s : State) (m : Mem) (k : Nat), g { s with mem := m, free := k } = g s) (s : State) (a : Nat) (bs : List Byte) :
    g (s.store a bs) = g s := by
  have hahead : g ((s.heldPages a bs.length).foldl (fun st q => copyAhead q st) s) = g s :=
    foldl_keeps g (fun t q => copyAhead_induction (P := fun u => g u = g t) rfl (copied t)) _ s
  unfold State.store State.storeBy State.overSnow
  dsimp only
  generalize (s.heldPages a bs.length).foldl (fun st q => copyAhead q st) s = u at hahead ⊢
  rw [← hahead]
  split
  · exact written u _ (u.free + 1)
  · exact written u _ u.free

@[simp] theorem State.store_wear (s : State) (a : Nat) (bs : List Byte) : (s.store a bs).wear = s.wear :=
  State.store_keeps State.wear (fun _ _ _ => State.bump_wear _ _) (fun _ _ _ => rfl) s a bs

@[simp] theorem discard_wear (step : Nat) (s : State) : (discard step s).wear = s.wear := foldl_keeps State.wear (fun _ _ => State.store_wear ..) _ _

/-! ## Cores -/

@[simp] theorem State.kick_wear (s : State) (n : Nat) : (s.kick n).wear = s.wear := by
  unfold State.kick State.kickSite
  split
  · split <;> simp
  · rfl

@[simp] theorem State.select_wear (s : State) (n : Nat) : (s.select n).wear = s.wear := by
  rcases s.select_cases n with h | ⟨j, -, -, h⟩
  · rw [h]
  · rw [h]; simp

@[simp] theorem State.putPr_wear (s : State) (n k p : Nat) (v : Bool) : (s.putPr n k p v).wear = s.wear := by
  unfold State.putPr; dsimp only; split <;> simp [State.makeReady]

@[simp] theorem State.complete_wear (s : State) (n k inc pd : Nat) : (s.complete n k inc pd).wear = s.wear := by
  unfold State.complete; dsimp only; split <;> simp

@[simp] theorem resumeCores_wear (s : State) : (resumeCores s).wear = s.wear := foldl_keeps State.wear (fun _ _ => State.select_wear ..) _ _

/-! ## RED -/

@[simp] theorem State.undefTens_wear (s : State) (n : Nat) (t : Tens) : (s.undefTens n t).wear = s.wear :=
  foldl_keeps State.wear (fun u r => by dsimp only; split <;> rfl) _ _

@[simp] theorem State.setFlags_wear (s : State) (n k inc : Nat) (f : Flags) : (s.setFlags n k inc f).wear = s.wear := by
  unfold State.setFlags; dsimp only; split <;> simp

@[simp] theorem redDrops_wear (c : RCmd) (s : State) : (redDrops c s).wear = s.wear := by
  unfold redDrops; split <;> simp

@[simp] theorem redAbandon_wear (reason : Nat) (s : State) : (redAbandon reason s).wear = s.wear := by
  have hdrops : ∀ (l : List RCmd) (t : State), (l.foldl (fun st c => redDrops c st) t).wear = t.wear :=
    foldl_keeps State.wear fun t c => redDrops_wear c t
  unfold redAbandon
  split <;> split <;> simp [hdrops]

@[simp] theorem redStepStart_wear (s : State) : (redStepStart s).wear = s.wear := by
  unfold redStepStart; split <;> simp

/-! ## The step boundary -/

@[simp] theorem State.setPhase_wear (s : State) (p : Nat) : (s.setPhase p).wear = s.wear := rfl

@[simp] theorem answerVoters_wear (outcome : Nat) (s : State) : (answerVoters outcome s).wear = s.wear := by
  unfold answerVoters
  split
  · rfl
  · refine (foldl_keeps State.wear (fun t v => ?_) _ _).trans (State.setCk_wear ..)
    unfold answerVoter; dsimp only; split <;> simp

@[simp] theorem stepAgain_wear (s : State) : (stepAgain s).wear = s.wear := by simp [stepAgain]

@[simp] theorem rollbackEnd_wear (s : State) : (rollbackEnd s).wear = s.wear := by
  unfold rollbackEnd
  split
  · dsimp only; split <;> simp
  · rfl

/-- An abort decision is written. -/
theorem applyDecision_abort_wear {d : Decision} (h : d.outcome = outAbort) (s : State) : (applyDecision d s).wear = s.wear := by
  unfold applyDecision
  split
  · rfl
  · simp [h]

theorem decide_abort_wear (s : State) : (decide_ outAbort s).wear = s.wear := by
  unfold decide_
  dsimp only
  rw [applyDecision_abort_wear rfl, foldl_keeps State.wear (fun u n => sendCtl_wear n _ u)]
  rw [if_neg (by simp)]
  split <;> simp

theorem leNat_leBytes {n v : Nat} (h : v < 2 ^ (8 * n)) : leNat (leBytes n v) = v := by
  induction n generalizing v with
  | zero => simp_all [leBytes, leNat]
  | succ n ih =>
    have hdiv : v / 256 < 2 ^ (8 * n) := by
      rw [Nat.mul_succ, Nat.pow_add] at h
      rwa [Nat.div_lt_iff_lt_mul (by decide)]
    simp only [leBytes, leNat, ih hdiv, BitVec.toNat_ofNat]
    omega

/-- The vote for a dropped step names the step in flight and carries a digest of zeros. -/
theorem vStep_voteRec (s : State) (dropped : Bool) : vStep (voteRec s dropped) = s.stepNo := by
  have hlt : s.stepNo < 2 ^ 64 := BitVec.isLt _
  have hbytes : ((voteRec s dropped).drop 8).take 8 = leBytes 8 s.stepNo := by
    simp [voteRec, leBytes]
  rw [vStep, hbytes, leNat_leBytes hlt]

theorem vDig_voteRec_dropped (s : State) : vDig (voteRec s true) = List.replicate 16 0 := by
  simp [vDig, voteRec, leBytes]

theorem rootVote_dropped_wear {v : List Byte} {s : State} (hstep : vStep v = s.stepNo) (hdig : vDig v = List.replicate 16 0) :
    (rootVote v s).wear = s.wear := by
  unfold rootVote
  split
  · rfl
  · dsimp only
    split
    · rfl
    · rw [if_pos ⟨hstep, by simp [hdig]⟩, decide_abort_wear, State.setCk_wear]

@[simp] theorem castVote_dropped_wear (s : State) : (castVote true s).wear = s.wear := by
  unfold castVote
  dsimp only
  split
  · exact rootVote_dropped_wear (s := s.setCk _) (vStep_voteRec s true) (vDig_voteRec_dropped s)
  · simp

@[simp] theorem abandon_wear (s : State) : (abandon s).wear = s.wear := by
  unfold abandon
  split
  · dsimp only; split <;> simp
  · rfl

end Sys2Proof.Machine
end

section
/-! O31, part 1: an engine abandons its step (spec/14 R314); samples of a field (spec/02 R27, spec/15 R352); what the code of a core's store finds
(spec/03 R53). -/

namespace Sys2Proof.Machine

/-! ## The step in flight is abandoned -/

section Abandon
variable {s : State} (x : Nat)

@[simp] theorem State.isSelf_setPhase (n : Nat) : (s.setPhase x).isSelf n = s.isSelf n := by
  have hnode : (s.setPhase x).node = s.node := State.fld_setFld_addr _ _ _ _ (by decide)
  rw [State.isSelf, State.isSelf, hnode]

@[simp] theorem State.rootNode_setPhase : (s.setPhase x).rootNode = s.rootNode := by
  simp [State.rootNode, State.ownerNodes, State.setPhase, State.fld_setFld_addr]

theorem abandon_no_step (h : ¬ (s.phase = phRun ∨ s.phase = phVoting ∨ s.phase = phVoted)) : abandon s = s := if_neg h

theorem abandon_step (h : s.phase = phRun ∨ s.phase = phVoting ∨ s.phase = phVoted) :
    abandon s = if s.ckpt.voted then s.setPhase phRollback else castVote true (s.setPhase phRollback) := if_pos h

end Abandon

theorem stepAbandoned : Slice0.StepAbandoned := by
  refine fun s => ⟨abandon_no_step, fun h => ⟨fun hv => ?_, fun hv hr => ?_, fun hv hr => ?_⟩, vDig_voteRec_dropped _⟩
  · rw [abandon_step h, if_pos hv]; rfl
  · rw [abandon_step h, if_neg (by simp [hv]), castVote, State.isSelf_setPhase, State.rootNode_setPhase, if_pos hr]; rfl
  · rw [abandon_step h, if_neg (by simp [hv]), castVote, State.isSelf_setPhase, State.rootNode_setPhase, if_neg (by simp [hr])]; rfl

/-! ## Samples of a field -/

theorem declareFail_eq_failed (n : Nat) (s : State) : declareFail n s = Slice0.failed n s := by
  simp [declareFail, Slice0.failed]

theorem failed_wear (n : Nat) (s : State) : (Slice0.failed n s).wear = s.wear := by
  unfold Slice0.failed; split <;> simp

theorem sampled_wear (p : Nat) (missed : Bool) (s : State) : (Slice0.sampled p missed s).wear = s.wear := by
  unfold Slice0.sampled
  dsimp only
  split
  · rfl
  · split
    · rfl
    · split
      · rfl
      · split
        · exact failed_wear _ _
        · rfl

/-- A field's sample of its site `j`, as the model makes it. -/
def sampleSite (f : Nat) (m : BitVec 16) (st : State) (j : Nat) : State :=
  let p := 16 * f + j
  if st.sitePower p < 2 then st
  else if m.getLsbD j || st.wear.noRef.contains f then
    let k := Sparse.get st.miss 0 p + 1
    let st1 := { st with miss := Sparse.put st.miss p k }
    if k = 3 then failSites [p] st1 else st1
  else { st with miss := Sparse.drop st.miss p }

theorem heartbeatSample_eq_foldl {f : Nat} {m : BitVec 16} {s : State} (h : s.flag F.PWR_STS_hold = false) :
    heartbeatSample f m s = (List.range 16).foldl (sampleSite f m) s := by
  rw [heartbeatSample, h]; rfl

theorem sampleSite_eq_sampled (f : Nat) (m : BitVec 16) (s : State) (j : Nat) :
    sampleSite f m s j = Slice0.sampled (16 * f + j) (m.getLsbD j || s.wear.noRef.contains f) s := by
  unfold sampleSite Slice0.sampled
  cases m.getLsbD j || s.wear.noRef.contains f with
  | false => simp
  | true =>
    simp [failSites, declareFail_eq_failed]
    rfl

/-- The fields without a reference stay the same while a field is sampled. -/
theorem foldl_sampleSite (f : Nat) (m : BitVec 16) (s : State) (l : List Nat) :
    l.foldl (sampleSite f m) s = l.foldl (fun st j => Slice0.sampled (16 * f + j) (m.getLsbD j || s.wear.noRef.contains f) st) s := by
  suffices h : ∀ t : State, t.wear = s.wear →
      l.foldl (sampleSite f m) t = l.foldl (fun st j => Slice0.sampled (16 * f + j) (m.getLsbD j || s.wear.noRef.contains f) st) t from h s rfl
  induction l with
  | nil => intro t _; rfl
  | cons j l ih =>
    intro t ht
    rw [List.foldl_cons, List.foldl_cons, sampleSite_eq_sampled, ht]
    exact ih _ ((sampled_wear _ _ _).trans ht)

/-- The count of missed samples of a site after a sample that is not the third missed one. -/
def countAfter (power : Nat) (missed : Bool) (count : Nat) : Nat := if power < 2 then count else if missed then count + 1 else 0

/-- A sample that is not the third missed one changes the count of its site and nothing else. -/
theorem sampled_counts {p : Nat} {missed : Bool} {s : State} (h : 2 ≤ s.sitePower p → missed = true → Sparse.get s.miss 0 p ≠ 2) :
    ∃ counts, Slice0.sampled p missed s = { s with miss := counts } ∧ Sparse.get counts 0 p = countAfter (s.sitePower p) missed (Sparse.get s.miss 0 p)
      ∧ ∀ q, q ≠ p → Sparse.get counts 0 q = Sparse.get s.miss 0 q := by
  unfold Slice0.sampled countAfter
  by_cases hp : s.sitePower p < 2
  · exact ⟨s.miss, by simp [hp], by simp [hp], fun _ _ => rfl⟩
  · cases missed with
    | false => exact ⟨Sparse.drop s.miss p, by simp [hp], by simp [hp, Sparse.get], fun q hq => by simp [Sparse.get, hq]⟩
    | true =>
      have hc : Sparse.get s.miss 0 p + 1 ≠ 3 := by have := h (by omega) rfl; omega
      exact ⟨Sparse.put s.miss p (Sparse.get s.miss 0 p + 1), by simp [hp, hc], by simp [hp], fun q hq => by simp [hq]⟩

/-- So it is with the first `n` samples of a field. -/
theorem foldl_sampled_counts {site : Nat → Nat} (hsite : Function.Injective site) {missed : Nat → Bool} {s : State} (n : Nat)
    (h : ∀ j, j < n → 2 ≤ s.sitePower (site j) → missed j = true → Sparse.get s.miss 0 (site j) ≠ 2) :
    ∃ counts, (List.range n).foldl (fun st j => Slice0.sampled (site j) (missed j) st) s = { s with miss := counts }
      ∧ (∀ p, (∀ j, j < n → p ≠ site j) → Sparse.get counts 0 p = Sparse.get s.miss 0 p)
      ∧ ∀ j, j < n → Sparse.get counts 0 (site j) = countAfter (s.sitePower (site j)) (missed j) (Sparse.get s.miss 0 (site j)) := by
  induction n with
  | zero => exact ⟨s.miss, rfl, fun _ _ => rfl, fun j hj => absurd hj (Nat.not_lt_zero j)⟩
  | succ n ih =>
    obtain ⟨c, hc, hout, hin⟩ := ih fun j hj => h j (by omega)
    have hn : Sparse.get c 0 (site n) = Sparse.get s.miss 0 (site n) := hout _ fun j hj he => by have := hsite he; omega
    obtain ⟨d, hd, hsame, hother⟩ := sampled_counts (p := site n) (missed := missed n) (s := { s with miss := c })
      fun hp hm => by have := h n (by omega) hp hm; rwa [hn]
    refine ⟨d, by rw [List.range_succ, List.foldl_append, hc]; exact hd, fun p hp => ?_, fun j hj => ?_⟩
    · rw [hother p (hp n (by omega)), ← hout p fun j hj => hp j (by omega)]
    · rcases Nat.lt_succ_iff_lt_or_eq.mp hj with hj | rfl
      · rw [hother _ fun he => by have := hsite he; omega]
        exact hin j hj
      · rw [hsame, hn]
        rfl

theorem heartbeats : Slice0.Heartbeats := by
  intro f m s
  dsimp only
  have hrun : s.flag F.PWR_STS_hold = false → exec (.heartbeatSample f m) s = .next ((List.range 16).foldl
      (fun st j => Slice0.sampled (16 * f.toNat + j) (m.getLsbD j || s.wear.noRef.contains f.toNat) st) s) := fun h => by
    rw [← foldl_sampleSite, ← heartbeatSample_eq_foldl h]; rfl
  refine ⟨fun h => congrArg Host.Outcome.next (if_pos h), hrun, fun h hthird => ?_⟩
  obtain ⟨counts, hfold, hout, hin⟩ := foldl_sampled_counts (site := fun j => 16 * f.toNat + j) (fun i j h => by simpa using h) 16 hthird
  exact ⟨counts, by rw [hrun h, hfold], fun p hp => hout p fun j hj he => by omega, hin⟩

/-! ## What the code of a core's store finds -/

theorem eccResults : Slice0.EccResults := by
  refine fun core line s => ⟨?_, fun h e => ?_, fun hn hp => ⟨?_, ?_⟩⟩
  · exact congrArg Host.Outcome.next (ite_self s)
  · exact congrArg Host.Outcome.next (if_pos h)
  · exact congrArg Host.Outcome.next (if_neg (by omega))
  · exact congrArg Host.Outcome.next ((if_neg (by omega)).trans (declareFail_eq_failed _ s))

end Sys2Proof.Machine
end

section
/-! O31, part 2: the remap of failed cores (spec/02 R25, R28-R30). The spare that a core takes is the first in the order of R25 whose self-test
passes; a spare that starts carries its core. -/

namespace Sys2Proof.Machine

/-! ## The words of sites and cores -/

/-- A field reads the same where its word does. -/
theorem State.fld_congr {s t : State} {f : Fld} (h : t.reg f.addr = s.reg f.addr) : t.fld f = s.fld f := by simp only [State.fld, h]

theorem State.siteState_setSite (s : State) (p st core q : Nat) : (s.setSite p st core).siteState q = if q = p then st % 4 else s.siteState q := by
  unfold State.siteState State.setSite
  rw [State.fld_setFld_bits _ _ _ _ (.inl (by simp))]
  split
  · next h => subst h; exact State.fld_setFld _ _ _ (by simp)
  · next h => exact State.fld_setFld_addr _ _ _ _ (by simpa using h)

theorem State.siteCore_setSite (s : State) (p st core : Nat) :
    (s.setSite p st core).fld (F.CORE_MAP_SITE_STATE_core p) = core % 1024 := State.fld_setFld _ _ _ (by simp)

theorem State.reg_setSite_ne {s : State} {p st core a : Nat} (h : a ≠ (F.CORE_MAP_SITE_STATE_state p).addr) :
    (s.setSite p st core).reg a = s.reg a := by
  unfold State.setSite
  rw [State.reg_setFld_ne _ (F.CORE_MAP_SITE_STATE_core p) _ _ h, State.reg_setFld_ne _ _ _ _ h]

theorem State.reg_sitePut_ne {s : State} {p st a : Nat} (h : a ≠ (F.PWR_SITE_STS_state p).addr) : (sitePut p st s).reg a = s.reg a := by
  unfold sitePut State.setFlag
  rw [State.reg_setFld_ne _ (F.PWR_SITE_STS_isolated p) _ _ h, State.reg_setFld_ne _ _ _ _ h]

theorem State.sitePower_sitePut (s : State) (p st : Nat) : (sitePut p st s).sitePower p = st % 4 := by
  unfold sitePut State.sitePower State.setFlag
  rw [State.fld_setFld_bits _ _ _ _ (.inl (by simp))]
  exact State.fld_setFld _ _ _ (by simp)

theorem State.keptHalf_setSite (s : State) (p st core : Nat) : (s.setSite p st core).keptHalf = s.keptHalf := by
  have hne : F.DEV_MODE_STS_half_mode.addr ≠ (F.CORE_MAP_SITE_STATE_state p).addr := by simp; omega
  have hmode : (s.setSite p st core).halfMode = s.halfMode := by
    unfold State.halfMode State.flag
    rw [State.fld_congr (State.reg_setSite_ne hne)]
  unfold State.keptHalf
  rw [hmode, State.fld_congr (f := F.DEV_MODE_STS_half) (State.reg_setSite_ne hne)]

/-! ## The order of spares (R25) -/

/-- The number of a site is the low part of its place in the order, so no two sites share a place. -/
theorem spareKey_injOn {home p q : Nat} (hp : p < 1024) (hq : q < 1024) (h : spareKey home p = spareKey home q) : p = q := by
  simp only [spareKey] at h
  omega

/-- The fold with which the model chooses a spare keeps a best one: no site seen has a lower place. -/
def better (home : Nat) (best : Option Nat) (p : Nat) : Option Nat :=
  match best with
  | none => some p
  | some q => if spareKey home p < spareKey home q then some p else some q

theorem foldl_better_some (home : Nat) (l : List Nat) : ∀ b, ∃ r, l.foldl (better home) (some b) = some r ∧ (r = b ∨ r ∈ l)
    ∧ spareKey home r ≤ spareKey home b ∧ ∀ q ∈ l, spareKey home r ≤ spareKey home q := by
  induction l with
  | nil => exact fun b => ⟨b, rfl, .inl rfl, Nat.le_refl _, fun q hq => absurd hq List.not_mem_nil⟩
  | cons p l ih =>
    intro b
    by_cases hpb : spareKey home p < spareKey home b
    · obtain ⟨r, hr, hmem, hle, hall⟩ := ih p
      refine ⟨r, by simpa [better, hpb] using hr, ?_, by omega, List.forall_mem_cons.mpr ⟨hle, hall⟩⟩
      rcases hmem with rfl | hmem <;> simp_all
    · obtain ⟨r, hr, hmem, hle, hall⟩ := ih b
      refine ⟨r, by simpa [better, hpb] using hr, ?_, hle, List.forall_mem_cons.mpr ⟨by omega, hall⟩⟩
      rcases hmem with rfl | hmem <;> simp_all

/-- Sites in the order of R25 for a home field. -/
def inOrder (home : Nat) (l : List Nat) : List Nat := l.mergeSort (fun p q => decide (spareKey home p ≤ spareKey home q))

theorem inOrder_perm (home : Nat) (l : List Nat) : (inOrder home l).Perm l := List.mergeSort_perm l _

theorem inOrder_pairwise (home : Nat) (l : List Nat) : (inOrder home l).Pairwise (fun p q => spareKey home p ≤ spareKey home q) := by
  have h := List.pairwise_mergeSort (le := fun p q => decide (spareKey home p ≤ spareKey home q))
    (by simp only [decide_eq_true_eq]; omega) (by simp only [Bool.or_eq_true, decide_eq_true_eq]; omega) l
  unfold inOrder
  simpa only [decide_eq_true_eq] using h

/-- The site with the lowest place is the first in the order. -/
theorem foldl_better_eq_head {home : Nat} {l : List Nat} (hl : ∀ p ∈ l, p < 1024) : l.foldl (better home) none = (inOrder home l).head? := by
  have hperm := inOrder_perm home l
  have hsort := inOrder_pairwise home l
  cases hord : inOrder home l with
  | nil =>
    rw [hord] at hperm
    rw [hperm.symm.eq_nil]
    rfl
  | cons h t =>
    rw [hord] at hperm hsort
    have hmem : ∀ q, q ∈ l ↔ q = h ∨ q ∈ t := fun q => by rw [← hperm.mem_iff, List.mem_cons]
    have hlow : ∀ q ∈ l, spareKey home h ≤ spareKey home q := fun q hq => by
      rcases (hmem q).mp hq with rfl | hq
      · exact Nat.le_refl _
      · exact (List.pairwise_cons.mp hsort).1 q hq
    cases l with
    | nil => exact absurd ((hmem h).mpr (.inl rfl)) List.not_mem_nil
    | cons b l =>
      obtain ⟨r, hr, hin, hle, hall⟩ := foldl_better_some home l b
      have hrl : r ∈ b :: l := by rcases hin with rfl | hin <;> simp_all
      have hrh : spareKey home r ≤ spareKey home h := by
        rcases List.mem_cons.mp ((hmem h).mpr (.inl rfl)) with heq | hq
        · rw [heq]; exact hle
        · exact hall h hq
      have : r = h := spareKey_injOn (hl r hrl) (hl h ((hmem h).mpr (.inl rfl))) (Nat.le_antisymm hrh (hlow r hrl))
      rw [List.head?_cons, ← this]
      exact hr

/-- Taking the first site away leaves the others in order. -/
theorem inOrder_filter_ne {home h : Nat} {t l : List Nat} (hl : ∀ p ∈ l, p < 1024) (hnd : l.Nodup) (hord : inOrder home l = h :: t) :
    inOrder home (l.filter (· ≠ h)) = t := by
  have hperm : (h :: t).Perm l := hord ▸ inOrder_perm home l
  have hsort : (h :: t).Pairwise (fun p q => spareKey home p ≤ spareKey home q) := hord ▸ inOrder_pairwise home l
  have hnt : h ∉ t := (List.nodup_cons.mp (hperm.nodup_iff.mpr hnd)).1
  have hrest : (inOrder home (l.filter (· ≠ h))).Perm t := by
    refine (inOrder_perm _ _).trans ((hperm.symm.filter _).trans ?_)
    rw [List.filter_cons_of_neg (by simp), List.filter_eq_self.mpr fun q hq => by simpa using fun he : q = h => hnt (he ▸ hq)]
  refine hrest.eq_of_pairwise (le := fun p q => spareKey home p ≤ spareKey home q) (fun a b ha hb hab hba => ?_) (inOrder_pairwise _ _)
    (List.pairwise_cons.mp hsort).2
  have hat : ∀ q ∈ t, q < 1024 := fun q hq => hl q (hperm.mem_iff.mp (List.mem_cons_of_mem _ hq))
  exact spareKey_injOn (hat a (hrest.mem_iff.mp ha)) (hat b hb) (Nat.le_antisymm hab hba)

/-! ## Spares of a core -/

/-- The spares that R25 lets a core have; in half-wafer mode those of its home half. -/
def sparesFor (half : Option Nat) (n : Nat) (s : State) : List Nat :=
  (List.range 1024).filter (fun p => decide (s.siteState p = siSpare ∧ (half = none ∨ halfOfField (fieldOfSite p) = halfOfField (homeField half n))))

theorem lt_of_mem_sparesFor {half : Option Nat} {n p : Nat} {s : State} (h : p ∈ sparesFor half n s) : p < 1024 := by
  unfold sparesFor at h
  exact List.mem_range.mp (List.mem_filter.mp h).1

theorem nodup_sparesFor (half : Option Nat) (n : Nat) (s : State) : (sparesFor half n s).Nodup := List.nodup_range.filter _

theorem sparesFor_retire (half : Option Nat) (n p : Nat) (s : State) :
    sparesFor half n (s.setSite p siRetired 0) = (sparesFor half n s).filter (· ≠ p) := by
  unfold sparesFor
  rw [List.filter_filter]
  refine List.filter_congr fun q _ => ?_
  rw [State.siteState_setSite]
  by_cases hq : q = p <;> simp [hq]

theorem spareFor_eq_head (half : Option Nat) (n : Nat) (s : State) :
    spareFor half (homeField half n) ((List.range 1024).filter (fun p => s.siteState p = siSpare)) = (inOrder (homeField half n) (sparesFor half n s)).head? := by
  rw [← foldl_better_eq_head fun p hp => lt_of_mem_sparesFor hp, spareFor, List.filter_filter, sparesFor]
  refine congrArg (List.foldl (better (homeField half n)) none) (List.filter_congr fun p _ => ?_)
  cases half <;> simp [and_comm]

/-- The recursion of `remapOne`; its generated equations would evaluate the range of sites, so that range is made a variable first. -/
theorem remapOne_succ (fails : List Nat) (n fuel : Nat) (s : State) : remapOne fails n (fuel + 1) s =
    match spareFor s.keptHalf (homeField s.keptHalf n) ((List.range 1024).filter (fun p => s.siteState p = siSpare)) with
    | none => (s, false)
    | some p => if fails.contains p then remapOne fails n fuel (s.setSite p siRetired 0) else (spareStart n p s, true) := by
  delta remapOne remapOne._f
  generalize List.range 1024 = sites
  rfl

/-- R28: the spares of a core are tried in order: those that fail are RETIRED, the first that passes starts. -/
theorem remapOne_eq (fails : List Nat) (n fuel : Nat) : ∀ (s : State) (L : List Nat), inOrder (homeField s.keptHalf n) (sparesFor s.keptHalf n s) = L →
    L.length ≤ fuel → remapOne fails n fuel s =
      match (L.dropWhile fails.contains).head? with
      | none => ((L.takeWhile fails.contains).foldl (fun st p => st.setSite p siRetired 0) s, false)
      | some p => (spareStart n p ((L.takeWhile fails.contains).foldl (fun st p => st.setSite p siRetired 0) s), true) := by
  induction fuel with
  | zero =>
    intro s L _ hlen
    rw [List.length_eq_zero_iff.mp (Nat.le_zero.mp hlen)]
    rfl
  | succ fuel ih =>
    intro s L hL hlen
    rw [remapOne_succ, spareFor_eq_head, hL]
    cases L with
    | nil => rfl
    | cons p L =>
      have hp : p < 1024 := lt_of_mem_sparesFor ((inOrder_perm _ _).mem_iff.mp (hL ▸ List.mem_cons_self))
      have hrest := inOrder_filter_ne (fun q hq => lt_of_mem_sparesFor hq) (nodup_sparesFor _ _ _) hL
      rw [← sparesFor_retire] at hrest
      cases hf : fails.contains p with
      | false => simp only [List.head?_cons, List.takeWhile_cons, List.dropWhile_cons, hf, Bool.false_eq_true, if_false, List.foldl_nil]
      | true =>
        have := ih (s.setSite p siRetired 0) L (by rwa [State.keptHalf_setSite]) (by simpa using hlen)
        simp only [List.head?_cons, List.takeWhile_cons, List.dropWhile_cons, hf, if_true, List.foldl_cons, this]

theorem drop_length_takeWhile {α : Type} (p : α → Bool) (l : List α) : l.drop (l.takeWhile p).length = l.dropWhile p := by
  induction l with
  | nil => rfl
  | cons a l ih => cases h : p a <;> simp [h, ih]

/-- The remap of one core, as the statement gives it. -/
theorem remapOne_eq_takeSpare (fails : List (BitVec 10)) (n : Nat) (r : State × List Nat) :
    ((remapOne (fails.map (·.toNat)) n 1024 r.1).1, if (remapOne (fails.map (·.toNat)) n 1024 r.1).2 then r.2 else r.2 ++ [n])
      = Slice0.takeSpare fails r n := by
  have hlen : (inOrder (homeField r.1.keptHalf n) (sparesFor r.1.keptHalf n r.1)).length ≤ 1024 := by
    rw [(inOrder_perm _ _).length_eq]
    exact (List.length_filter_le _ _).trans (by simp)
  have hfails : (fails.map (·.toNat)).contains = fun p => fails.any (fun f => decide (f.toNat = p)) := funext fun p => by
    rw [List.contains_eq_any_beq, List.any_map]
    exact congrArg fails.any (funext fun f => (beq_eq_decide _ _).trans (decide_eq_decide.mpr eq_comm))
  rw [remapOne_eq _ _ _ _ _ rfl hlen, hfails]
  unfold Slice0.takeSpare
  dsimp only
  rw [drop_length_takeWhile]
  change _ = match (List.dropWhile _ (inOrder (homeField r.1.keptHalf n) (sparesFor r.1.keptHalf n r.1))).head? with
    | none => _
    | some p => _
  split <;> rfl

theorem remapAll_eq (fails : List (BitVec 10)) (ns : List Nat) (s : State) :
    remapAll (fails.map (·.toNat)) ns s = ns.foldl (Slice0.takeSpare fails) (s, []) :=
  congrArg (fun f => ns.foldl f (s, [])) (funext fun r => funext fun n => remapOne_eq_takeSpare fails n r)

/-! ## The batch -/

theorem coreRemap_none {fails : List Nat} {s : State} (h : s.dead = []) : coreRemap fails s = s := by simp [coreRemap, h]

/-- The sites of the failed cores, retired. -/
def retired (s : State) : State := s.dead.mergeSort.foldl retireCore s

theorem coreRemap_stays {fails : List Nat} {s : State} (h : s.dead ≠ []) (hs : s.flag F.DEV_MODE_STS_degraded = true ∨ s.pwr.off = true) :
    coreRemap fails s = retired s := by
  unfold coreRemap
  rw [if_neg (by simpa using h)]
  exact if_pos (by simpa using hs)

/-- The core map is written and the remap reported (R29). -/
def remapReported (s : State) : State := spareLow ((mapRecord s).raiseDev EV.CORE_REMAP [])

/-- What follows once every failed core has looked for a spare: the cores that have found none are failed still. -/
def remapEnd (r : State × List Nat) : State :=
  let s2 := countSpares { r.1 with dead := r.2 }
  if !r.2.isEmpty then degrade (spareLow s2)
  else
    let s4 := remapReported (if s2.phase = phRollback then restoreMember s2 else s2)
    if s4.phase = phRollback then rollbackEnd s4 else resumeAll s4

section RemapEnd
variable {r : State × List Nat}

theorem remapEnd_short (h : r.2 ≠ []) : remapEnd r = degrade (spareLow (countSpares { r.1 with dead := r.2 })) := if_pos (by simpa using h)

theorem remapEnd_resumes (h : r.2 = []) (h2 : (countSpares { r.1 with dead := r.2 }).phase ≠ phRollback)
    (h4 : (remapReported (countSpares { r.1 with dead := r.2 })).phase ≠ phRollback) :
    remapEnd r = resumeAll (remapReported (countSpares { r.1 with dead := r.2 })) := by
  simp only [remapEnd, if_neg h2, if_neg h4]
  exact if_neg (by simp [h])

theorem remapEnd_rolls (h : r.2 = []) (h2 : (countSpares { r.1 with dead := r.2 }).phase = phRollback)
    (h4 : (remapReported (restoreMember (countSpares { r.1 with dead := r.2 }))).phase = phRollback) :
    remapEnd r = rollbackEnd (remapReported (restoreMember (countSpares { r.1 with dead := r.2 }))) := by
  simp only [remapEnd, if_pos h2, if_pos h4]
  exact if_neg (by simp [h])

end RemapEnd

theorem coreRemap_goes {fails : List Nat} {s : State} (h : s.dead ≠ []) (hs : ¬ (s.flag F.DEV_MODE_STS_degraded = true ∨ s.pwr.off = true)) :
    coreRemap fails s = remapEnd (remapAll fails s.dead.mergeSort (retired s)) := by
  unfold coreRemap
  rw [if_neg (by simpa using h)]
  exact if_neg (by simpa using hs)

theorem coreRemap_cases : Slice0.CoreRemap := by
  intro fails s
  dsimp only
  have hexec : exec (.coreRemap fails) s = .next (coreRemap (fails.map (·.toNat)) s) := rfl
  refine ⟨fun h => ?_, fun h hs => ?_, fun h hs => ?_⟩
  · rw [hexec, coreRemap_none h]
  · rw [hexec, coreRemap_stays h hs]; rfl
  · rw [hexec, coreRemap_goes h hs, remapAll_eq]
    exact ⟨fun hr => congrArg _ (remapEnd_short hr), fun hr h2 h4 => congrArg _ (remapEnd_resumes hr h2 h4),
      fun hr h2 h4 => congrArg _ (remapEnd_rolls hr h2 h4)⟩

/-! ## A spare starts (R25, R28) -/

/-- Words that the start of a spare does not touch beyond those it names: device registers but for what an event or a copied page counts. -/
def quietWord (a : Nat) : Prop := 0x30000000000 ≤ a ∧ a ∉ evtWords ∧ a ≠ F.CKPT_CA_CNT.addr ∧ a ≠ F.CKPT_CA_CNT.addr + 8

theorem State.reg_store {a : Nat} (h : quietWord a) (s : State) (b : Nat) (bs : List Byte) : (s.store b bs).reg a = s.reg a := by
  obtain ⟨-, hevt, hcnt, hctl⟩ := h
  exact State.store_keeps (fun t => t.reg a) (fun _ _ _ => reg_bumpBy _ _ _ _ hevt hcnt hctl) (fun _ _ _ => rfl) s b bs

theorem State.store_dead (s : State) (a : Nat) (bs : List Byte) : (s.store a bs).dead = s.dead :=
  State.store_keeps State.dead (fun _ _ _ => State.bump_dead _ _) (fun _ _ _ => rfl) s a bs

theorem State.store_net (s : State) (a : Nat) (bs : List Byte) : (s.store a bs).net = s.net :=
  State.store_keeps State.net (fun _ _ _ => State.bump_net _ _) (fun _ _ _ => rfl) s a bs

theorem Sparse.find_filter {α : Type} {m : Sparse α} {f : Nat → Bool} {j : Nat} (h : f j = true) :
    Sparse.find (m.filter (fun p => f p.1)) j = Sparse.find m j := by
  induction m with
  | nil => rfl
  | cons p m ih =>
    obtain ⟨k, v⟩ := p
    by_cases hk : j = k
    · subst hk; simp [Sparse.find, h]
    · cases hf : f k <;> simp [Sparse.find, hf, hk, ih]

/-- The registers of a core end below the device registers. -/
theorem coreRegAt_dev {n a : Nat} (hn : n < 896) (ha : 0x30000000000 ≤ a) : coreRegAt n a = false := by
  simp [coreRegAt]; omega

theorem State.reg_coreRegsLost {s : State} {n a : Nat} (h : coreRegAt n a = false) : (coreRegsLost n s).reg a = s.reg a := by
  unfold coreRegsLost State.reg
  rw [Sparse.find_filter (f := fun k => !coreRegAt n k) (by simp [h])]

theorem State.reg_coreRegsBack {s : State} {n a : Nat} (h : coreRegAt n a = false) : (coreRegsBack n s).reg a = s.reg a := by
  unfold coreRegsBack
  refine (List.foldlRecOn _ _ (motive := fun t : State => t.reg a = (coreRegsLost n s).reg a) rfl fun t ht p hp => ?_).trans (State.reg_coreRegsLost h)
  have hne : a ≠ p.1 := fun he => by simp [← he, h] at hp
  dsimp only
  rw [State.reg_setReg, if_neg hne, ht]

theorem State.reg_imagesBack {s : State} {a : Nat} (h : quietWord a) (n : Nat) : (imagesBack n s).reg a = s.reg a :=
  foldl_keeps (fun t : State => t.reg a) (fun _ _ => State.reg_store h _ _ _) _ _

theorem coreRegsBack_dead (n : Nat) (s : State) : (coreRegsBack n s).dead = s.dead := by
  unfold coreRegsBack
  exact foldl_keeps State.dead (by intros; rfl) _ _

theorem coreRegsBack_net (n : Nat) (s : State) : (coreRegsBack n s).net = s.net := by
  unfold coreRegsBack
  exact foldl_keeps State.net (by intros; rfl) _ _

theorem spareStart_dead (n p : Nat) (s : State) : (spareStart n p s).dead = s.dead :=
  (foldl_keeps State.dead (fun _ _ => State.store_dead ..) _ _).trans (coreRegsBack_dead n _)

theorem spareStart_net (n p : Nat) (s : State) : (spareStart n p s).net = s.net :=
  (foldl_keeps State.net (fun _ _ => State.store_net ..) _ _).trans (coreRegsBack_net n _)

/-- A spare that starts is ASSIGNED its core, the core's entry names it, and it is in IDLE. -/
def spareMapped (n p : Nat) (s : State) : State := sitePut p 2 ((s.setSite p siAssigned n).setFld (F.CORE_MAP_ENTRY_site n) p)

theorem fld_spareStart {n p : Nat} {s : State} {f : Fld} (hn : n < 896) (h : quietWord f.addr) : (spareStart n p s).fld f = (spareMapped n p s).fld f := by
  refine State.fld_congr ?_
  unfold spareStart
  dsimp only
  rw [State.reg_imagesBack h, State.reg_coreRegsBack (coreRegAt_dev hn h.1)]
  rfl

theorem quietWord_site {q : Nat} (hq : q < 1024) : quietWord (F.CORE_MAP_SITE_STATE_state q).addr := by
  refine ⟨?_, ?_, ?_, ?_⟩ <;> simp [evtWords] <;> omega

theorem quietWord_power {q : Nat} (hq : q < 1024) : quietWord (F.PWR_SITE_STS_state q).addr := by
  refine ⟨?_, ?_, ?_, ?_⟩ <;> simp [evtWords] <;> omega

theorem quietWord_entry {m : Nat} (hm : m < 896) : quietWord (F.CORE_MAP_ENTRY_site m).addr := by
  refine ⟨?_, ?_, ?_, ?_⟩ <;> simp [evtWords] <;> omega

/-- A word of the core map or of the power of sites that is none of the three that the start of a spare writes keeps its value. -/
theorem reg_spareMapped_ne {n p a : Nat} {s : State} (hs : a ≠ (F.CORE_MAP_SITE_STATE_state p).addr) (he : a ≠ (F.CORE_MAP_ENTRY_site n).addr)
    (hp : a ≠ (F.PWR_SITE_STS_state p).addr) : (spareMapped n p s).reg a = s.reg a := by
  unfold spareMapped
  rw [State.reg_sitePut_ne hp, State.reg_setFld_ne _ _ _ _ he, State.reg_setSite_ne hs]

section SpareMapped
variable {n p : Nat} {s : State}

theorem siteWord_ne_entry (hp : p < 1024) (m : Nat) : (F.CORE_MAP_SITE_STATE_state p).addr ≠ (F.CORE_MAP_ENTRY_site m).addr := by simp; omega

theorem siteWord_ne_power (hp : p < 1024) (q : Nat) : (F.CORE_MAP_SITE_STATE_state p).addr ≠ (F.PWR_SITE_STS_state q).addr := by simp; omega

theorem entryWord_ne_power (hn : n < 896) (q : Nat) : (F.CORE_MAP_ENTRY_site n).addr ≠ (F.PWR_SITE_STS_state q).addr := by simp; omega

/-- The word of a site in the map is written by the site's own assignment alone. -/
theorem fld_spareMapped_site {f : Fld} {q : Nat} (hq : q < 1024) (hf : f.addr = (F.CORE_MAP_SITE_STATE_state q).addr) :
    (spareMapped n p s).fld f = (s.setSite p siAssigned n).fld f := by
  refine State.fld_congr ?_
  unfold spareMapped
  rw [hf, State.reg_sitePut_ne (siteWord_ne_power hq p), State.reg_setFld_ne _ _ _ _ (siteWord_ne_entry hq n)]

theorem siteState_spareStart {q : Nat} (hn : n < 896) (hq : q < 1024) : (spareStart n p s).siteState q = if q = p then siAssigned else s.siteState q := by
  rw [State.siteState, fld_spareStart hn (quietWord_site hq), fld_spareMapped_site hq rfl]
  exact State.siteState_setSite ..

theorem siteCore_spareStart (hn : n < 896) (hp : p < 1024) : (spareStart n p s).fld (F.CORE_MAP_SITE_STATE_core p) = n := by
  rw [fld_spareStart hn (f := F.CORE_MAP_SITE_STATE_core p) (quietWord_site hp),
    fld_spareMapped_site (f := F.CORE_MAP_SITE_STATE_core p) hp rfl, State.siteCore_setSite, Nat.mod_eq_of_lt (by omega)]

theorem siteCore_spareStart_ne {q : Nat} (hn : n < 896) (hq : q < 1024) (hne : q ≠ p) :
    (spareStart n p s).fld (F.CORE_MAP_SITE_STATE_core q) = s.fld (F.CORE_MAP_SITE_STATE_core q) := by
  rw [fld_spareStart hn (f := F.CORE_MAP_SITE_STATE_core q) (quietWord_site hq),
    fld_spareMapped_site (f := F.CORE_MAP_SITE_STATE_core q) hq rfl]
  exact State.fld_congr (State.reg_setSite_ne (by simpa using hne))

theorem coreAt_spareStart (hn : n < 896) (hp : p < 1024) : (spareStart n p s).coreAt p = some n := by
  rw [State.coreAt, siteState_spareStart hn hp, if_pos rfl, if_pos rfl, siteCore_spareStart hn hp]

theorem coreAt_spareStart_ne {q : Nat} (hn : n < 896) (hq : q < 1024) (hne : q ≠ p) : (spareStart n p s).coreAt q = s.coreAt q := by
  simp only [State.coreAt, siteState_spareStart hn hq, if_neg hne, siteCore_spareStart_ne hn hq hne]

theorem sitePower_spareStart (hn : n < 896) (hp : p < 1024) : (spareStart n p s).sitePower p = 2 := by
  rw [State.sitePower, fld_spareStart hn (quietWord_power hp)]
  exact State.sitePower_sitePut ..

theorem sitePower_spareStart_ne {q : Nat} (hn : n < 896) (hp : p < 1024) (hq : q < 1024) (hne : q ≠ p) :
    (spareStart n p s).sitePower q = s.sitePower q := by
  rw [State.sitePower, fld_spareStart hn (quietWord_power hq)]
  exact State.fld_congr (reg_spareMapped_ne (siteWord_ne_power hp q).symm (entryWord_ne_power hn q).symm (by simpa using hne))

theorem siteOf_spareStart (hn : n < 896) (hp : p < 1024) : (spareStart n p s).siteOf n = p := by
  rw [State.siteOf, fld_spareStart hn (quietWord_entry hn), spareMapped, State.fld_congr (State.reg_sitePut_ne (entryWord_ne_power hn p)),
    State.fld_setFld _ _ _ (by simp)]
  exact Nat.mod_eq_of_lt hp

theorem siteOf_spareStart_ne {m : Nat} (hn : n < 896) (hp : p < 1024) (hm : m < 896) (hne : m ≠ n) : (spareStart n p s).siteOf m = s.siteOf m := by
  rw [State.siteOf, fld_spareStart hn (quietWord_entry hm)]
  exact State.fld_congr (reg_spareMapped_ne (siteWord_ne_entry hp m).symm (by simpa using hne) (entryWord_ne_power hm p))

end SpareMapped

theorem spareStarts : Slice0.SpareStarts := fun n p s hn hp =>
  ⟨coreAt_spareStart hn hp, siteOf_spareStart hn hp, sitePower_spareStart hn hp,
    fun _ hq hne => ⟨(siteState_spareStart hn hq).trans (if_neg hne), coreAt_spareStart_ne hn hq hne, sitePower_spareStart_ne hn hp hq hne⟩,
    fun _ hm hne => siteOf_spareStart_ne hn hp hm hne, spareStart_dead n p s, spareStart_net n p s⟩

/-- Settles O31: the search of the model for a spare is the statement's first spare in order whose self-test passes (`remapOne_eq_takeSpare`), and each
operation on the way writes no word but those it names. -/
theorem coreFailures : Obligations.CoreFailures := ⟨stepAbandoned, heartbeats, eccResults, coreRemap_cases, spareStarts⟩

end Sys2Proof.Machine
end

section
/-! O58: a warm reset and a register file that lists a word twice. -/

namespace Sys2Proof.Machine

/-- A module in stage 3 whose register file, a list of pairs, lists the word of the module's time twice. A read finds the first of the two, which
is the reset value; a reset leaves out every pair that has the reset value, so that it uncovers the second. -/
def doubledTime : State :=
  { State.reset with regs := [(F.DEV_BOOT_STS_stage.addr, 3), (F.DEV_TIME.addr, 0), (F.DEV_TIME.addr, 5)] }

theorem doubledTime_now : doubledTime.now = 0 := by decide

theorem doubledTime_stage : doubledTime.fld F.DEV_BOOT_STS_stage = 3 := by decide

theorem resetWarm_doubledTime_now : (resetWarm doubledTime).now = 5 := by decide

/-- A write of a 1 to DEV_RESET_WARM resets the module. -/
theorem exec_devResetWarm {v : W64} (h : v.getLsbD 0 = true) (s : State) : exec (.devResetWarm v) s = .next (resetWarm s) :=
  congrArg Host.Outcome.next (if_pos h)

/-- Refutes O58: a warm reset does not keep the time of every state, which the clause on DEV_RESET_WARM says of `t.now` without a condition on the
register file. In `doubledTime` the time reads 0 before the reset and 5 after it. The state has two pairs for one address; no operation of the model
makes one, and a statement for states with at most one pair for each address would leave this counterexample out. -/
theorem not_startAndRemoval : ¬ Obligations.StartAndRemoval := by
  rintro ⟨⟨-, -, -, -, -, hwarm⟩, -⟩
  have hcool : ¬ (doubledTime.pwr.tripped = true ∧ ∃ j, j < 1094 ∧ ∀ x, Sparse.find doubledTime.pwr.temps j = some x → 85 * 64 ≤ x) :=
    fun h => absurd h.1 (by decide)
  obtain ⟨t, ht, -, -, -, -, -, -, hnow, -⟩ := (hwarm 1 doubledTime).2 (by decide) doubledTime_stage.ge (by decide) hcool
  rw [exec_devResetWarm (by decide)] at ht
  obtain rfl := Host.Outcome.next.inj ht
  rw [resetWarm_doubledTime_now, doubledTime_now] at hnow
  exact absurd hnow (by decide)

end Sys2Proof.Machine
end

section
/-! # Memory in canonical form (O3, O4)

R48 fixes the form in which the model lists the cells of memory and its undefined ranges (`Mem.wf`). The lemmas follow the model in its own
order, one for each operation on the state that a step can reach: either it leaves memory as it was (`_mem`), or it writes memory through
`Mem.write`, `Mem.writeBytes` or `Mem.undefine` and keeps the form (`_memOk`). Each is proved from the lemmas of the operations it calls.

The kernel evaluates an operation when it has to compare two memories that are not written alike, and a walk of the page tables, or a pass
over the 1024 sites, is too much to evaluate. Where that would happen, the function is first made a variable of which only its lemma is
known. -/

namespace Sys2Proof.Machine

/-! ## Folds, choices and pairs -/

theorem foldl_memOk {α : Type} {f : State → α → State} {l : List α} {s : State} (h : s.mem.wf = true)
    (hf : ∀ t x, t.mem.wf = true → (f t x).mem.wf = true) : (l.foldl f s).mem.wf = true :=
  List.foldlRecOn l f h fun t ht x _ => hf t x ht

theorem foldl_fst_memOk {α β : Type} {f : State × β → α → State × β} {l : List α} {p : State × β} (h : p.1.mem.wf = true)
    (hf : ∀ q x, q.1.mem.wf = true → (f q x).1.mem.wf = true) : (l.foldl f p).1.mem.wf = true :=
  List.foldlRecOn l f (motive := fun q => q.1.mem.wf = true) h fun q hq x _ => hf q x hq

@[simp] theorem ite_memOk {c : Prop} [Decidable c] {s t : State} (hs : s.mem.wf = true) (ht : t.mem.wf = true) :
    (if c then s else t).mem.wf = true := by
  split
  · exact hs
  · exact ht

@[simp] theorem ite_fst_memOk {β : Type} {c : Prop} [Decidable c] {p q : State × β} (hp : p.1.mem.wf = true) (hq : q.1.mem.wf = true) :
    (if c then p else q).1.mem.wf = true := by
  split
  · exact hp
  · exact hq

theorem Mem.wf_dropLinks {m : Mem} (h : m.wf = true) : m.dropLinks.wf = true := by
  unfold Mem.wf at *
  simp only [Bool.and_eq_true, List.all_eq_true] at *
  obtain ⟨hrise, hall⟩ := h
  exact ⟨Mem.rising_filter hrise _, fun c hc => hall c (List.mem_filter.mp hc).1⟩

theorem foldl_mem {α : Type} {f : State → α → State} (hf : ∀ t x, (f t x).mem = t.mem) (l : List α) (s : State) :
    (l.foldl f s).mem = s.mem := foldl_keeps State.mem hf l s

theorem ite_mem {c : Prop} [Decidable c] (s t : State) : (if c then s else t).mem = if c then s.mem else t.mem := apply_ite State.mem c s t

theorem memOk_of_fst {β : Type} {p : State × β} {t : State} {b : β} (h : p.1.mem.wf = true) (he : p = (t, b)) : t.mem.wf = true := by
  rw [he] at h
  exact h

theorem mem_of_fst {β : Type} {p : State × β} {t s : State} {b : β} (h : p.1.mem = s.mem) (he : p = (t, b)) : t.mem = s.mem := by
  rw [he] at h
  exact h

/-! ## The register file -/

@[simp] theorem State.setGroup_mem (s : State) (a : Nat) (vs : List W64) : (s.setGroup a vs).mem = s.mem := by
  induction vs generalizing s a with
  | nil => rfl
  | cons v vs ih => exact (ih _ _).trans (State.setReg_mem ..)

/-! ## Events and counters -/

@[simp] theorem State.bumpQuiet_mem (s : State) (f : Fld) (n : Nat) : (State.bumpQuiet s f n).1.mem = s.mem := by
  fun_cases State.bumpQuiet s f n <;> simp +zetaDelta

@[simp] theorem State.appendEvent_mem (s : State) (r : EvtRec) : (State.appendEvent s r).mem = s.mem := by
  fun_cases State.appendEvent s r <;> simp +zetaDelta

@[simp] theorem State.putEvent_mem (s : State) (r : EvtRec) : (State.putEvent s r).mem = s.mem := by
  fun_cases State.putEvent s r <;> simp +zetaDelta

@[simp] theorem State.raiseQuiet_mem (s : State) (code kind src : Nat) (payload : List Byte) :
    (s.raiseQuiet code kind src payload).mem = s.mem :=
  (quiet_raiseQuiet s code kind src payload).field State.mem fun _ _ _ _ _ => rfl

@[simp] theorem State.ringReports_mem (s0 s : State) : (s0.ringReports s).mem = s.mem :=
  (quiet_ringReports s0 s).field State.mem fun _ _ _ _ _ => rfl

/-! ## Records in flash (spec/17 R394) -/

@[simp] theorem recordPut_mem (type : Nat) (payload : List Byte) (s : State) : (recordPut type payload s).mem = s.mem := by
  unfold recordPut
  split <;> simp

/-! ## Cores and contexts -/

theorem State.unlessStopped_memOk {s : State} {n : Nat} {f : State → State} (h : s.mem.wf = true) (hf : (f s).mem.wf = true) :
    (s.unlessStopped n f).mem.wf = true := by
  unfold State.unlessStopped
  split
  · exact h
  · exact hf

@[simp] theorem State.kickSite_mem (s : State) (p : Nat) : (s.kickSite p).mem = s.mem := by
  unfold State.kickSite
  split
  · split <;> simp
  · rfl

theorem State.atCore_memOk {s : State} {n : Nat} {f : State → State} (h : s.mem.wf = true) (hf : (f s).mem.wf = true) :
    (s.atCore n f).mem.wf = true := by
  unfold State.atCore
  split
  · exact h
  · split
    · simp [h]
    · split
      · simp [h]
      · exact hf

@[simp] theorem State.wakeAll_mem (s : State) (n : Nat) (t : Wait → Bool) : (State.wakeAll s n t).mem = s.mem := by
  unfold State.wakeAll
  exact foldl_keeps State.mem (fun t x => by dsimp only; split <;> simp) _ _

@[simp] theorem State.startCtx_mem (s : State) (n k pc : Nat) (arg : W64) (ts : Sparse Desc) :
    (State.startCtx s n k pc arg ts).mem = s.mem := by simp [State.startCtx]

/-! ## The place of a Snowpack (spec/09 R196) -/

@[simp] theorem State.setSnow_mem (s : State) (n : Nat) (w : Snow) : (State.setSnow s n w).mem = s.mem := by simp [State.setSnow]

@[simp] theorem State.overSnow_mem (s : State) (own : Option Nat) (a : Nat) (bs : List Byte) :
    (State.overSnow s own a bs).1.mem = s.mem := by
  unfold State.overSnow
  split <;> simp

/-! ## Buffers and credits (R215, R222) -/

@[simp] theorem State.setFabBuf_mem (s : State) (key : Nat) (l : List FabPkt) :
    (State.setFabBuf s key l).mem = s.mem := by simp [State.setFabBuf]

@[simp] theorem State.fabPush_mem (s : State) (x y port : Nat) (p : FabPkt) :
    (State.fabPush s x y port p).mem = s.mem := by simp [State.fabPush]

@[simp] theorem State.fabEnter_mem (s : State) (x y port : Nat) (p : FabPkt) :
    (State.fabEnter s x y port p).mem = s.mem := by simp [State.fabEnter]

@[simp] theorem State.setFabWaits_mem (s : State) (key : Nat) (l : List FabPkt) :
    (State.setFabWaits s key l).mem = s.mem := by simp [State.setFabWaits]

@[simp] theorem State.fabInject_mem (s : State) (x y port : Nat) (p : FabPkt) :
    (State.fabInject s x y port p).mem = s.mem := by
  fun_cases State.fabInject s x y port p <;> simp +zetaDelta

@[simp] theorem State.fabRespond_mem (s : State) (x y port : Nat) (p : FabPkt) (type : Nat) (data : List Byte) :
    (State.fabRespond s x y port p type data).mem = s.mem := by simp [State.fabRespond]

@[simp] theorem State.fabData_mem (s : State) (x y port : Nat) (p : FabPkt) (data : List Byte) :
    (State.fabData s x y port p data).mem = s.mem := by
  unfold State.fabData
  split <;> simp

@[simp] theorem State.fabFail_mem (s : State) (x y port : Nat) (p : FabPkt) (code : Nat) :
    (State.fabFail s x y port p code).mem = s.mem := by
  unfold State.fabFail
  split <;> simp

@[simp] theorem State.fabRefuse_mem (s : State) (x y port : Nat) (p : FabPkt) :
    (State.fabRefuse s x y port p).mem = s.mem := by
  unfold State.fabRefuse
  split <;> simp

@[simp] theorem State.fabAnswer_mem (s : State) (link ep tag op : Nat) (ok : Bool) (code : Nat) (data : List Byte) :
    (State.fabAnswer s link ep tag op ok code data).mem = s.mem := by
  fun_cases State.fabAnswer s link ep tag op ok code data <;> simp +zetaDelta

/-! ## Flits of accesses (R229) -/

@[simp] theorem State.travel_mem (s : State) (src dst a flits : Nat) : (s.travel src dst a flits).mem = s.mem := by
  unfold State.travel
  split
  · exact foldl_keeps State.mem (fun t l => by dsimp only; split <;> simp) _ _
  · rfl

@[simp] theorem State.carry_mem (s : State) (src a out back : Nat) : (s.carry src a out back).mem = s.mem := by
  unfold State.carry
  split <;> simp

/-! ## Egress (spec/11 R242, R245) -/

@[simp] theorem State.freeFlits_mem (s : State) (k v n : Nat) : (State.freeFlits s k v n).mem = s.mem := by
  fun_cases State.freeFlits s k v n <;> simp +zetaDelta

@[simp] theorem State.release_mem (s : State) (p : OfpPkt) : (State.release s p).mem = s.mem := by simp [State.release]

@[simp] theorem State.pumpLink_mem (s : State) (k : Nat) : (State.pumpLink s k).mem = s.mem := by
  unfold State.pumpLink
  exact foldl_keeps State.mem (fun t x => by simp) _ _

@[simp] theorem State.sendPkt_mem (s : State) (k : Nat) (p : OfpPkt) : (State.sendPkt s k p).mem = s.mem := by
  unfold State.sendPkt
  split <;> simp

@[simp] theorem State.reply_mem (s : State) (p : OfpPkt) (op status : Nat) (data : List Byte) :
    (State.reply s p op status data).mem = s.mem := by simp [State.reply]

/-! ## Queue pairs (spec/11 R237, R238) -/

@[simp] theorem State.roceOut_mem (s : State) (q kind : Nat) (m : RoceMsg) : (State.roceOut s q kind m).mem = s.mem := by
  unfold State.roceOut
  exact foldl_keeps State.mem (fun t x => by split <;> simp) _ _

@[simp] theorem State.ethGo_mem (s : State) : (State.ethGo s).mem = s.mem := by
  unfold State.ethGo
  exact foldl_keeps State.mem (fun t x => by simp) _ _

/-! ## Requests -/

@[simp] theorem State.holdNext_mem (s : State) : (State.holdNext s).mem = s.mem := by simp [State.holdNext]

@[simp] theorem State.setQpT_mem (s : State) (q : Nat) (t : QpSt) : (State.setQpT s q t).mem = s.mem := by simp [State.setQpT]

@[simp] theorem State.sendRoce_mem (s : State) (q : NetReq) (qp base : Nat) :
    (State.sendRoce s q qp base).1.mem = s.mem := by simp [State.sendRoce]

@[simp] theorem State.sendReq_mem (s : State) (q : NetReq) : (s.sendReq q).1.mem = s.mem := by
  unfold State.sendReq
  split
  · rfl
  · split
    · rfl
    · simp
  · split
    · rfl
    · split
      · rfl
      · dsimp only
        split
        · rfl
        · split <;> simp

@[simp] theorem State.dropReq_mem (s : State) (t : Nat) : (State.dropReq s t).mem = s.mem := by simp [State.dropReq]

@[simp] theorem lateNote_mem (s : State) (r : OutReq) : (lateNote s r).mem = s.mem := by
  unfold lateNote
  split <;> simp

@[simp] theorem State.forget_mem (s : State) (src : ReqSrc) : (State.forget s src).mem = s.mem := by
  unfold State.forget
  exact foldl_keeps State.mem (fun t x => by simp) _ _

@[simp] theorem State.sendEng_mem (s : State) (q : NetReq) : (s.sendEng q).1.mem = s.mem := by
  have h := State.sendReq_mem s q
  unfold State.sendEng
  split <;> next he => rw [he] at h; exact h

@[simp] theorem State.sendOne_mem (s : State) (ep vc node op tag addr : Nat) (data : List Byte) :
    (State.sendOne s ep vc node op tag addr data).1.mem = s.mem := by
  fun_cases State.sendOne s ep vc node op tag addr data <;> simp +zetaDelta

/-! ## Endpoints (Table 11-4) -/

@[simp] theorem State.ckSend_mem (s : State) (arg vc node addr : Nat) (data : List Byte) :
    (s.ckSend arg vc node addr data).1.mem = s.mem := State.sendEng_mem ..

@[simp] theorem noteDirty_mem (i : Nat) (s : State) : (noteDirty i s).mem = s.mem := by
  unfold noteDirty
  split
  · rfl
  · split
    · rfl
    · dsimp only
      split <;> simp

@[simp] theorem State.ask_mem (s : State) (a n : Nat) : (s.ask a n).mem = s.mem := by
  unfold State.ask
  refine (foldl_keeps State.mem (fun t i => noteDirty_mem i t) _ _).trans ?_
  split <;> rfl

@[simp] theorem copyAhead_memOk (q : Nat) (s : State) (h : s.mem.wf = true) : (copyAhead q s).mem.wf = true := by
  unfold copyAhead
  split
  · simpa using Mem.wf_writeBytes _ h _
  · exact h

@[simp] theorem State.storeBy_memOk (s : State) (own : Option Nat) (a : Nat) (bs : List Byte) (h : s.mem.wf = true) :
    (s.storeBy own a bs).mem.wf = true := by
  unfold State.storeBy
  refine Mem.wf_writeBytes _ ?_ _
  rw [State.overSnow_mem]
  exact foldl_memOk h fun t q ht => copyAhead_memOk q t ht

@[simp] theorem State.store_memOk (s : State) (a : Nat) (bs : List Byte) (h : s.mem.wf = true) :
    (s.store a bs).mem.wf = true := State.storeBy_memOk s none a bs h

@[simp] theorem State.undefAt_memOk (s : State) (a n : Nat) (h : s.mem.wf = true) : (s.undefAt a n).mem.wf = true := by
  unfold State.undefAt
  exact Mem.wf_undefine (foldl_memOk h fun t q ht => by simp [ht]) _ _ _

/-! ## Edge memory over a Snowpack's body (spec/09 R196) -/

@[simp] theorem State.storeEdge_memOk (s : State) (own : Option Nat) (a : Nat) (bs : List Byte) (h : s.mem.wf = true) :
    (s.storeEdge own a bs).mem.wf = true :=
  State.storeBy_memOk s own a bs h

@[simp] theorem State.loadEdge_mem (s : State) (a len : Nat) : (State.loadEdge s a len).1.mem = s.mem := by
  unfold State.loadEdge
  split <;> simp

@[simp] theorem State.advance_mem (s : State) (n k len : Nat) :
    (State.advance s n k len).mem = s.mem := by simp [State.advance]

theorem issue_memOk {n k : Nat} {pg : BitVec 3} {pn : Bool} {len : Nat} {legal : Bool} {rs ts : List Nat} {s : State} {body : State → State}
    (h : s.mem.wf = true) (hb : (body s).mem.wf = true) : (issue n k pg pn len legal rs ts s body).mem.wf = true := by
  rcases issue_cases n k pg pn len legal rs ts s body with he | ⟨_, -, he⟩ | he | ⟨-, -, he⟩ <;> rw [he]
  · exact h
  · simpa using h
  · simpa using h
  · exact hb

@[simp] theorem scalarA_memOk (f : W64 → W64 → W64) (i : IA) (s : State) (h : s.mem.wf = true) :
    (scalarA f i s).mem.wf = true := issue_memOk h (by simpa)

@[simp] theorem scalarB_memOk (f : W64 → W64 → W64) (i : IB) (s : State) (h : s.mem.wf = true) :
    (scalarB f i s).mem.wf = true := issue_memOk h (by simpa)

@[simp] theorem compareA_memOk (f : W64 → W64 → Bool) (i : IA) (s : State) (h : s.mem.wf = true) :
    (compareA f i s).mem.wf = true := issue_memOk h (by simpa)

@[simp] theorem compareB_memOk (f : W64 → W64 → Bool) (i : IB) (s : State) (h : s.mem.wf = true) :
    (compareB f i s).mem.wf = true := issue_memOk h (by simpa)

@[simp] theorem predicateA_memOk (f : Bool → Bool → Bool) (i : IA) (s : State) (h : s.mem.wf = true) :
    (predicateA f i s).mem.wf = true := issue_memOk h (by simpa)

@[simp] theorem State.setFlags_mem (s : State) (n k inc : Nat) (f : Flags) : (State.setFlags s n k inc f).mem = s.mem := by
  fun_cases State.setFlags s n k inc f <;> simp +zetaDelta

/-! ## Bytes of the local spaces of a core -/

@[simp] theorem State.lstore_memOk (s : State) (n space off : Nat) (bs : List Byte) (h : s.mem.wf = true) :
    (s.lstore n space off bs).mem.wf = true := by
  unfold State.lstore
  exact Mem.wf_writeBytes _ (by simpa using h) _

@[simp] theorem State.lundef_memOk (s : State) (n space off len : Nat) (h : s.mem.wf = true) :
    (s.lundef n space off len).mem.wf = true := Mem.wf_undefine h _ _ _

/-! ## Reading -/

@[simp] theorem State.unpack_memOk (s : State) (n : Nat) (t : Tens) (bs : List Byte) (h : s.mem.wf = true) :
    (State.unpack s n t bs).mem.wf = true := by
  unfold State.unpack
  exact foldl_memOk h fun t x ht => by simp [ht]

/-! ## Scale records (spec/05 R116-R120) -/

@[simp] theorem State.setSrec_memOk (s : State) (n : Nat) (t : Tens) (r : SRec) (h : s.mem.wf = true) :
    (State.setSrec s n t r).mem.wf = true := by simp [State.setSrec, h]

/-! ## Writing -/

@[simp] theorem State.writeAs_memOk (s : State) (n rnd0 : Nat) (sat : Bool) (t sc : Tens) (vs : List (Option Val)) (h : s.mem.wf = true) :
    (s.writeAs n rnd0 sat t sc vs).1.mem.wf = true := by
  have hrows : ∀ (l : List Nat) (f : State × Flags → Nat → State × Flags), (∀ q r, q.1.mem.wf = true → (f q r).1.mem.wf = true) →
      (l.foldl f (s, Flags.none)).1.mem.wf = true := fun l f hf => foldl_fst_memOk h hf
  have hrow : ∀ (c : Prop) [Decidable c] (u : State) sp o bs osc bsc, u.mem.wf = true →
      (if c then (u.lstore n sp o bs).lstore n sc.space osc bsc else u.lstore n sp o bs).mem.wf = true := fun c _ u sp o bs osc bsc hu =>
    ite_memOk (by simp [hu]) (by simp [hu])
  unfold State.writeAs
  dsimp only
  split
  · exact State.setSrec_memOk _ _ _ _ (hrows _ _ fun q r hq => hrow _ q.1 _ _ _ _ _ hq)
  · exact hrows _ _ fun q r hq => hrow _ q.1 _ _ _ _ _ hq

@[simp] theorem State.writeTens_memOk (s : State) (n : Nat) (t sc : Tens) (vs : List (Option Val)) (h : s.mem.wf = true) :
    (State.writeTens s n t sc vs).1.mem.wf = true := by simp [State.writeTens, h]

@[simp] theorem State.writeLane_memOk (s : State) (n : Nat) (int : Bool) (t sc : Tens) (vs : List (Option Val)) (h : s.mem.wf = true) :
    (s.writeLane n int t sc vs).1.mem.wf = true := by
  unfold State.writeLane
  split <;> simp [h]

@[simp] theorem State.undefTens_memOk (s : State) (n : Nat) (t : Tens) (h : s.mem.wf = true) : (State.undefTens s n t).mem.wf = true := by
  unfold State.undefTens
  exact foldl_memOk h fun t x ht => by simp [ht]

/-! ## Ranges that end undefined (spec/08 R169, spec/05 R121) -/

@[simp] theorem UCmd.spoil_memOk (x : UCmd) (n : Nat) (s : State) (h : s.mem.wf = true) : (UCmd.spoil x n s).mem.wf = true := by
  unfold UCmd.spoil
  exact foldl_memOk h fun t x ht => by simp [ht]

@[simp] theorem State.mapFlying_mem (s : State) (n : Nat) (f : UCmd → UCmd) :
    (State.mapFlying s n f).mem = s.mem := by simp [State.mapFlying]

@[simp] theorem State.raced_memOk (s : State) (n : Nat) (x : UCmd) (recs : List Nat) (h : s.mem.wf = true) :
    (State.raced s n x recs).mem.wf = true := by
  unfold State.raced
  split <;> simp +contextual [foldl_memOk, h]

/-! ## Queues -/

@[simp] theorem State.push_mem (s : State) (n : Nat) (u : UnitId) (x : UCmd) : (State.push s n u x).mem = s.mem := by
  unfold State.push
  split <;> simp

@[simp] theorem State.wakeRoom_mem (s : State) (n : Nat) : (State.wakeRoom s n).mem = s.mem := by simp [State.wakeRoom]

@[simp] theorem State.pop_mem (s : State) (n : Nat) (u : UnitId) : (State.pop s n u).mem = s.mem := by simp [State.pop]

@[simp] theorem State.finish_mem (s : State) (n : Nat) (u : UnitId) (x : UCmd) (f : Flags) :
    (State.finish s n u x f).mem = s.mem := by simp [State.finish]

theorem unitDone_memOk {n : Nat} {u : UnitId} {run : State → Nat → UCmd → State × Flags} {s : State} (h : s.mem.wf = true)
    (hr : ∀ t x, t.mem.wf = true → (run t n x).1.mem.wf = true) : (unitDone n u run s).mem.wf = true := by
  unfold unitDone
  split
  · exact h
  · split
    · exact h
    · next x _ =>
      have hx : (x.spoil n s).mem.wf = true := UCmd.spoil_memOk _ _ _ h
      split
      · exact h
      · split
        · simp [hx]
        · extract_lets r
          have h1 : r.1.mem.wf = true := hr _ _ hx
          have h2 : ((x.spoil n r.1).raced n x (r.1.clashes n u x)).mem.wf = true :=
            State.raced_memOk _ _ _ _ (UCmd.spoil_memOk _ _ _ h1)
          simp [h2]

/-! ## Capture and checks -/

theorem issueUnits_memOk {us : UCmd → List UnitId} {op : UOp} {i : IT} {legal ud ua ub uc : Bool} {rs : List Nat}
    {check : State → UCmd → Option Nat} {put : State → UCmd → State} {s : State} (h : s.mem.wf = true)
    (hp : ∀ t x, t.mem.wf = true → (put t x).mem.wf = true) :
    (issueUnits us op i legal ud ua ub uc rs check put s).mem.wf = true := by
  refine issue_memOk h ?_
  extract_lets x cmd s1
  split
  · simp [h]
  · split
    · simp [h]
    · exact hp _ _ (foldl_memOk (by simp [s1, h]) fun t u ht => by simp [ht])

@[simp] theorem noPut_mem (s : State) (x1 : UCmd) : (noPut s x1).mem = s.mem := by simp [noPut]

theorem issueUnit_memOk {u : UnitId} {op : UOp} {i : IT} {legal ud ua ub uc : Bool} {rs : List Nat}
    {check : State → UCmd → Option Nat} {put : State → UCmd → State} {s : State} (h : s.mem.wf = true)
    (hp : ∀ t x, t.mem.wf = true → (put t x).mem.wf = true) :
    (issueUnit u op i legal ud ua ub uc rs check put s).mem.wf = true := issueUnits_memOk h hp

/-! ## Issue (spec/04 R90, spec/09 R199) -/

@[simp] theorem snowQueuePush_mem (s : State) (n b : Nat) : (snowQueuePush s n b).mem = s.mem := by simp [snowQueuePush]

@[simp] theorem snowQueuePop_mem (s : State) (n : Nat) : (snowQueuePop s n).mem = s.mem := by simp [snowQueuePop]

@[simp] theorem snowAskDir_mem (n : Nat) (s : State) : (snowAskDir n s).mem = s.mem := by simp [snowAskDir]

/-! ## Records -/

@[simp] theorem snowChecked_memOk (n : Nat) (s : State) (h : s.mem.wf = true) : (snowChecked n s).mem.wf = true := by simp [snowChecked, h]

@[simp] theorem snowPush_memOk (s : State) (n k kind : Nat) (data : List Byte) (h : s.mem.wf = true) :
    (snowPush s n k kind data).mem.wf = true := by
  unfold snowPush
  extract_lets s1 c w b hdr pad bytes s2 w1
  have h1 : s1.mem.wf = true := snowChecked_memOk n s h
  have h2 : s2.mem.wf = true := by simp [s2, h1]
  split <;> simp [h2]

@[simp] theorem snowPop_memOk (s : State) (n : Nat) (h : s.mem.wf = true) : (snowPop s n).1.mem.wf = true := by simp [snowPop, h]

/-! ## Spill and refill (spec/09 R198) -/

@[simp] theorem snowSpillAck_memOk (n : Nat) (s : State) (h : s.mem.wf = true) : (snowSpillAck n s).mem.wf = true := by
  fun_cases snowSpillAck n s <;> simp +zetaDelta [h]

@[simp] theorem snowRefill_memOk (n : Nat) (s : State) (h : s.mem.wf = true) : (snowRefill n s).mem.wf = true := by
  unfold snowRefill
  split <;> simp [h]

@[simp] theorem snowDirRefill_mem (n : Nat) (s : State) : (snowDirRefill n s).mem = s.mem := by
  fun_cases snowDirRefill n s <;> simp +zetaDelta

/-! ## Commands -/

@[simp] theorem snowRun_memOk (s : State) (n : Nat) (x : UCmd) (h : s.mem.wf = true) : (snowRun s n x).1.mem.wf = true := by
  unfold snowRun
  split <;> simp [h]

@[simp] theorem snowAsk_mem (n : Nat) (s : State) : (snowAsk n s).mem = s.mem := by
  fun_cases snowAsk n s <;> simp +zetaDelta

@[simp] theorem issuePop_memOk (op : UOp) (i : IT) (ud : Bool) (check : IT → State → UCmd → Option Nat) (s : State) (h : s.mem.wf = true) :
    (issuePop op i ud check s).mem.wf = true := by
  unfold issuePop
  extract_lets legal
  split
  · exact issue_memOk h (by simp [h])
  · exact issueUnit_memOk h fun t x ht => by simp [ht]

@[simp] theorem State.putBlks_memOk (s : State) (n : Nat) (t : Tens) (bs : List GBlk) (h : s.mem.wf = true) :
    (State.putBlks s n t bs).mem.wf = true := by
  unfold State.putBlks
  exact foldl_memOk h fun t x ht => by simp [ht]

@[simp] theorem State.upsetDone_mem (s : State) (passed : Bool) : (State.upsetDone s passed).mem = s.mem := by
  unfold State.upsetDone
  split <;> simp

@[simp] theorem State.history_memOk (s : State) (n : Nat) (t : Tens) (vs : List Val) (advance : Bool) (h : s.mem.wf = true) :
    (State.history s n t vs advance).mem.wf = true := by simp [State.history, h]

/-! ## Loads and lane results -/

@[simp] theorem State.putVals_memOk (s : State) (n : Nat) (x : UCmd) (r : List Val × Flags) (h : s.mem.wf = true) :
    (State.putVals s n x r).1.mem.wf = true := by simp [State.putVals, h]

@[simp] theorem State.putLane_memOk (s : State) (n : Nat) (int : Bool) (x : UCmd) (r : List Val × Flags) (h : s.mem.wf = true) :
    (State.putLane s n int x r).1.mem.wf = true := by simp [State.putLane, h]

/-! ## Effects -/

@[simp] theorem vecFloat_memOk (s : State) (n : Nat) (x : UCmd) (h : s.mem.wf = true) :
    (vecFloat s n x).1.mem.wf = true := by simp [vecFloat, h]

@[simp] theorem vecInt_memOk (s : State) (n : Nat) (x : UCmd) (h : s.mem.wf = true) : (vecInt s n x).1.mem.wf = true := by simp [vecInt, h]

@[simp] theorem vecQuantise_memOk (s : State) (n : Nat) (x : UCmd) (a : List Val × Flags) (psn : Bool) (h : s.mem.wf = true) :
    (vecQuantise s n x a psn).1.mem.wf = true := by simp [vecQuantise, h]

@[simp] theorem vecCvt_memOk (s : State) (n : Nat) (x : UCmd) (h : s.mem.wf = true) : (vecCvt s n x).1.mem.wf = true := by
  unfold vecCvt
  split <;> simp [h]

@[simp] theorem vecRsum_memOk (s : State) (n : Nat) (x : UCmd) (h : s.mem.wf = true) :
    (vecRsum s n x).1.mem.wf = true := by simp [vecRsum, h]

@[simp] theorem vecAmax_memOk (s : State) (n : Nat) (x : UCmd) (h : s.mem.wf = true) :
    (vecAmax s n x).1.mem.wf = true := by simp [vecAmax, h]

@[simp] theorem State.raiseResidue_mem (s : State) (core check layer bucket block : Nat) :
    (State.raiseResidue s core check layer bucket block).mem = s.mem := by simp [State.raiseResidue]

@[simp] theorem vecGba_memOk (s : State) (n : Nat) (x : UCmd) (h : s.mem.wf = true) : (vecGba s n x).1.mem.wf = true := by
  unfold vecGba
  exact foldl_memOk (by simp [h]) fun t p ht => by simp [ht]

@[simp] theorem vecRes_memOk (s : State) (n : Nat) (x : UCmd) (h : s.mem.wf = true) : (vecRes s n x).1.mem.wf = true := by simp [vecRes, h]

/-! ## Optimizer kernels (spec/07 R163-R165) -/

@[simp] theorem vecOpt_memOk (s : State) (n : Nat) (x : UCmd) (h : s.mem.wf = true) : (vecOpt s n x).1.mem.wf = true := by
  have hundef : ∀ a b c d : Tens, ((((s.undefTens n a).undefTens n b).undefTens n c).undefTens n d).mem.wf = true := fun a b c d =>
    State.undefTens_memOk _ _ _ (State.undefTens_memOk _ _ _ (by simp [h]))
  have hwrite (u : State × Flags) (t sc : Tens) (vs) (hu : u.1.mem.wf = true) : (u.1.writeLane n false t sc vs).1.mem.wf = true :=
    State.writeLane_memOk u.1 n false t sc vs hu
  unfold vecOpt
  dsimp only
  split
  · exact ite_memOk (State.undefTens_memOk _ _ _ (hundef _ _ _ _)) (hundef _ _ _ _)
  · have h2 := fun vs ws => hwrite _ x.tC x.tSc ws (hwrite (s, Flags.none) x.tA x.tSa vs h)
    exact hwrite _ _ _ _ (ite_fst_memOk (hwrite _ _ _ _ (h2 _ _)) (h2 _ _))

@[simp] theorem vecRun_memOk (s : State) (n : Nat) (x : UCmd) (h : s.mem.wf = true) : (vecRun s n x).1.mem.wf = true := by
  unfold vecRun
  split <;> simp [h]

/-! ## Issue -/

theorem noPut_memOk (t : State) (x : UCmd) (h : t.mem.wf = true) : (noPut t x).mem.wf = true := h

@[simp] theorem issueVec_memOk (op : UOp) (i : IT) (legal ud ub uc : Bool) (cm : BitVec 24) (em : W64) (rs : List Nat)
    (check : IT → State → UCmd → Option Nat) (s : State) (h : s.mem.wf = true) :
    (issueVec op i legal ud ub uc cm em rs check s).mem.wf = true := issueUnit_memOk h noPut_memOk

/-! ## Commands -/

@[simp] theorem groomStore_memOk (s : State) (n : Nat) (x : UCmd) (rows : List RowOut) (fl : Flags) (h : s.mem.wf = true) :
    (groomStore s n x rows fl).1.mem.wf = true := by
  unfold groomStore
  extract_lets w
  have hw : w.1.mem.wf = true := State.writeTens_memOk _ _ _ _ _ h
  split
  · exact ite_memOk (State.lstore_memOk _ _ _ _ _ hw) (snowPush_memOk _ _ _ _ _ (State.lstore_memOk _ _ _ _ _ hw))
  · exact hw

@[simp] theorem groomFwd_memOk (s : State) (n : Nat) (x : UCmd) (h : s.mem.wf = true) :
    (groomFwd s n x).1.mem.wf = true := by simp [groomFwd, h]

@[simp] theorem groomRecs_memOk (s : State) (n : Nat) (x : UCmd) (h : s.mem.wf = true) :
    (groomRecs s n x).1.mem.wf = true := by simp [groomRecs, h]

@[simp] theorem groomBwd_memOk (s : State) (n : Nat) (x : UCmd) (h : s.mem.wf = true) : (groomBwd s n x).1.mem.wf = true := by
  unfold groomBwd
  split <;> simp [h]

@[simp] theorem groomRun_memOk (s : State) (n : Nat) (x : UCmd) (h : s.mem.wf = true) : (groomRun s n x).1.mem.wf = true := by
  unfold groomRun
  split <;> simp [h]

@[simp] theorem groomDone_memOk (n : Nat) (s : State) (h : s.mem.wf = true) : (groomDone n s).mem.wf = true := by
  unfold groomDone
  split
  · exact h
  · split
    · extract_lets t
      have ht : t.mem.wf = true := unitDone_memOk h fun u x hu => by simp [hu]
      split <;> simp [ht]
    · exact h

/-! ## Issue -/

@[simp] theorem groomPut_mem (n : Nat) (s : State) (x : UCmd) : (groomPut n s x).mem = s.mem := by
  fun_cases groomPut n s x <;> simp +zetaDelta

@[simp] theorem issueGroom_memOk (op : UOp) (i : IT) (legal ub uc : Bool) (cm : BitVec 24) (em : W64) (s : State) (h : s.mem.wf = true) :
    (issueGroom op i legal ub uc cm em s).mem.wf = true := by
  unfold issueGroom
  extract_lets lg x
  split
  · exact issue_memOk h (by simp [h])
  · exact issueUnits_memOk h fun t x ht => by simp [ht]

/-! ## The accumulator store (spec/03 R54, Table 03-7) -/

@[simp] theorem State.accStore_mem (s : State) (n arr : Nat) (wacc tile : Bool) (l : List (Nat × Nat)) :
    (State.accStore s n arr wacc tile l).mem = s.mem := by
  unfold State.accStore
  dsimp only

@[simp] theorem State.accUndef_mem (s : State) (n arr : Nat) (span : Nat × Nat) :
    (State.accUndef s n arr span).mem = s.mem := by simp [State.accUndef]

/-! ## Effects -/

@[simp] theorem accBlock_mem (s : State) (n arr : Nat) (wacc tile accBit : Bool) (key : Nat → Nat → Nat)
    (lines : Nat) (cols : Nat) (sums : Nat → Nat → List Val) :
    (accBlock s n arr wacc tile accBit key lines cols sums).1.mem = s.mem := by simp [accBlock]

@[simp] theorem dotRun_mem (s : State) (n : Nat) (x : UCmd) (sums : Nat → Nat → List Val) :
    (dotRun s n x sums).1.mem = s.mem := by simp [dotRun]

@[simp] theorem cmmRun_mem (s : State) (n : Nat) (x : UCmd) : (cmmRun s n x).1.mem = s.mem := by simp [cmmRun]

@[simp] theorem chbRun_mem (s : State) (n : Nat) (x : UCmd) : (chbRun s n x).1.mem = s.mem := by simp [chbRun]

@[simp] theorem cbwdRun_mem (s : State) (n : Nat) (x : UCmd) : (cbwdRun s n x).1.mem = s.mem := by
  unfold cbwdRun
  split <;> simp

@[simp] theorem cdrnRun_memOk (s : State) (n : Nat) (x : UCmd) (h : s.mem.wf = true) :
    (cdrnRun s n x).1.mem.wf = true := by simp [cdrnRun, h]

@[simp] theorem czeroRun_mem (s : State) (n : Nat) (x : UCmd) : (czeroRun s n x).1.mem = s.mem := by simp [czeroRun]

/-! ## The registers and buffers of an array (spec/06 Table 06-1) -/

@[simp] theorem State.setCrv_mem (s : State) (n arr : Nat) (c : CarveSt) :
    (State.setCrv s n arr c).mem = s.mem := by simp [State.setCrv]

@[simp] theorem State.crvAfter_mem (s0 s : State) (n : Nat) (x : UCmd) : (s0.crvAfter s n x).mem = s.mem := by
  unfold State.crvAfter
  dsimp only
  split
  · rfl
  · rfl
  · split <;> rfl
  · rfl

@[simp] theorem crvDone_memOk (s : State) (r : State × Flags) (n : Nat) (x : UCmd) (h : r.1.mem.wf = true) :
    (crvDone s r n x).1.mem.wf = true := by
  simpa [crvDone] using h

@[simp] theorem carveRun_memOk (s : State) (n : Nat) (x : UCmd) (h : s.mem.wf = true) : (carveRun s n x).1.mem.wf = true := by
  unfold carveRun
  split <;> simp [h]

/-! ## Issue -/

@[simp] theorem issueCarve_memOk (op : UOp) (i : IT) (ud ua ub uc : Bool) (cm : BitVec 24) (em : W64)
    (check : IT → State → UCmd → Option Nat) (s : State) (h : s.mem.wf = true) : (issueCarve op i ud ua ub uc cm em check s).mem.wf = true :=
  issueUnit_memOk h noPut_memOk

/-! ## The end of a command (spec/06 R139) -/

@[simp] theorem runEarly_memOk (n : Nat) (u : UnitId) (k : Nat) (s : State) (h : s.mem.wf = true) : (runEarly n u k s).mem.wf = true := by
  fun_cases runEarly n u k s <;> simp +zetaDelta [h]

@[simp] theorem runAhead_memOk (n : Nat) (u : UnitId) (k : Nat) (x : UCmd) (s : State) (h : s.mem.wf = true) :
    (runAhead n u k x s).mem.wf = true := by
  unfold runAhead
  exact foldl_memOk h fun t x ht => by split <;> simp [ht]

@[simp] theorem carveEffect_memOk (n : Nat) (u : UnitId) (x : UCmd) (s : State) (h : s.mem.wf = true) :
    (carveEffect n u x s).1.mem.wf = true := by
  have hx : (x.spoil n s).mem.wf = true := UCmd.spoil_memOk _ _ _ h
  unfold carveEffect
  split
  · exact hx
  · exact State.raced_memOk _ _ _ _ (UCmd.spoil_memOk _ _ _ (by simp [hx]))

@[simp] theorem carveDone_memOk (n arr idx : Nat) (s : State) (h : s.mem.wf = true) : (carveDone n arr idx s).mem.wf = true := by
  unfold carveDone
  extract_lets u e
  split
  · exact unitDone_memOk h fun t x ht => by simp [ht]
  · split
    · exact h
    · split
      · next k _ y x _ _ =>
        split
        · extract_lets r t
          have ht : t.mem.wf = true := by
            rw [State.setFlags_mem]
            exact carveEffect_memOk _ _ _ _ (by simp [h])
          simp [ht]
        · exact h
      · exact h

@[simp] theorem smvRun_memOk (s : State) (n : Nat) (x : UCmd) (h : s.mem.wf = true) : (smvRun s n x).1.mem.wf = true := by simp [smvRun, h]

/-! ## The value of a link -/

@[simp] theorem State.linkWrite_memOk (s : State) (n : Nat) (t sc : Tens) (v : LinkVal) (h : s.mem.wf = true) :
    (s.linkWrite n t sc v).mem.wf = true := by
  unfold State.linkWrite
  dsimp only
  split
  · exact foldl_memOk (by simp [h]) fun u r hu => by simp [hu]
  · simp [h]

/-! ## Gates -/

@[simp] theorem gateRun_memOk (s : State) (n : Nat) (x : UCmd) (linked : Bool) (h : s.mem.wf = true) :
    (gateRun s n x linked).1.mem.wf = true := by
  fun_cases gateRun s n x linked <;> simp +zetaDelta [h]

@[simp] theorem gateStep_memOk (s : State) (n : Nat) (g : Gate) (inp : Option LinkVal) (h : s.mem.wf = true) :
    (gateStep s n g inp).1.mem.wf = true := by
  unfold gateStep
  extract_lets x x1 x2 s1 s2 r v s3 s4
  have h1 : s1.mem.wf = true := by
    cases inp with
    | none => exact h
    | some v => exact State.linkWrite_memOk _ _ _ _ _ h
  have h2 : s2.mem.wf = true := ite_memOk (State.linkWrite_memOk _ _ _ _ _ h1) h1
  have hr : r.1.mem.wf = true := gateRun_memOk _ _ _ _ (UCmd.spoil_memOk _ _ _ h2)
  split
  · exact Mem.wf_dropLinks (UCmd.spoil_memOk _ _ _ (ite_memOk (State.linkWrite_memOk _ _ _ _ _ hr) hr))
  · exact Mem.wf_dropLinks (UCmd.spoil_memOk _ _ _ hr)

@[simp] theorem gatesRun_memOk (s : State) (n : Nat) (gs : List Gate) (feed : Option (List Byte)) (h : s.mem.wf = true) :
    (gatesRun s n gs feed).1.mem.wf = true := by
  cases gs with
  | nil => exact h
  | cons g0 gs => exact foldl_fst_memOk h fun q g hq => gateStep_memOk q.1 n g _ hq

/-! ## Aborts (spec/08 R189, spec/14 R313) -/

@[simp] theorem State.undefBoth_memOk (s : State) (n : Nat) (t sc : Tens) (h : s.mem.wf = true) :
    (State.undefBoth s n t sc).mem.wf = true := by
  unfold State.undefBoth
  split <;> simp [h]

@[simp] theorem undefDests_memOk (n : Nat) (x : UCmd) (td : Bool) (s : State) (h : s.mem.wf = true) :
    (undefDests n x td s).mem.wf = true := by
  unfold undefDests
  extract_lets s1 s2 s3 s4
  have h1 : s1.mem.wf = true := ite_memOk (State.undefBoth_memOk _ _ _ _ h) h
  have h2 : s2.mem.wf = true :=
    ite_memOk (State.undefTens_memOk _ _ _ (State.undefBoth_memOk _ _ _ _ (State.undefBoth_memOk _ _ _ _ h1))) h1
  have h3 : s3.mem.wf = true := ite_memOk (State.lundef_memOk _ _ _ _ _ h2) h2
  have h4 : s4.mem.wf = true := ite_memOk (State.lundef_memOk _ _ _ _ _ h3) h3
  exact foldl_memOk h4 fun t r ht => State.lundef_memOk t n 1 _ _ ht

@[simp] theorem undefGate_memOk (s : State) (n : Nat) (g : Gate) (h : s.mem.wf = true) : (undefGate s n g).mem.wf = true := by
  unfold undefGate
  dsimp only
  repeat' split
  all_goals simp [h]

@[simp] theorem State.walkFlits_mem (s : State) (n va : Nat) : (State.walkFlits s n va).mem = s.mem := by
  unfold State.walkFlits
  exact foldl_keeps State.mem (fun t x => by simp) _ _

@[simp] theorem State.xlat_mem (s : State) (n va : Nat) (acc : Access) : (s.xlat n va acc).1.mem = s.mem := by
  obtain ⟨tables, hT⟩ : ∃ f, f = State.walkTables := ⟨_, rfl⟩
  obtain ⟨flits, hF⟩ : ∃ f, f = State.walkFlits := ⟨_, rfl⟩
  have hf : ∀ t a b, (flits t a b).mem = t.mem := by
    rw [hF]
    exact State.walkFlits_mem
  unfold State.xlat
  rw [← hT, ← hF]
  clear hT hF
  dsimp only
  split
  · rfl
  · split
    · rfl
    · split
      · simp [hf]
      · split <;> simp [hf]

@[simp] theorem walkReturn_mem (n : Nat) (s : State) : (walkReturn n s).mem = s.mem := by
  obtain ⟨tables, hT⟩ : ∃ f, f = State.walkTables := ⟨_, rfl⟩
  obtain ⟨flits, hF⟩ : ∃ f, f = State.walkFlits := ⟨_, rfl⟩
  have hf : ∀ t a b, (flits t a b).mem = t.mem := by
    rw [hF]
    exact State.walkFlits_mem
  unfold walkReturn
  rw [← hT, ← hF]
  clear hT hF
  dsimp only
  split
  · rfl
  · split
    · simp [hf]
    · split
      · simp [hf]
      · split
        · split <;> simp [hf]
        · simp [hf]

@[simp] theorem atuInval_mem (n : Nat) (v : W64) (s : State) : (atuInval n v s).mem = s.mem := by
  unfold atuInval
  split <;> simp

/-! ## Descriptor moves (spec/04 R82, op 0x0C) -/

@[simp] theorem loadReturn_mem (n k : Nat) (s : State) : (loadReturn n k s).mem = s.mem := by
  fun_cases loadReturn n k s <;> simp +zetaDelta

/-! ## Branches (spec/04 R73, R83) -/

@[simp] theorem branchTo_mem (n k : Nat) (target : W64) (f : Ctx → Ctx) (s : State) : (branchTo n k target f s).mem = s.mem := by
  unfold branchTo
  split <;> simp

/-! ## Contexts (spec/04 R79, R83) -/

@[simp] theorem State.endWaiters_mem (s : State) (n : Nat) : (State.endWaiters s n).mem = s.mem := by
  unfold State.endWaiters
  exact foldl_keeps State.mem (fun t x => by dsimp only; split <;> simp) _ _

/-! ## Barriers and event flags (spec/04 R84) -/

@[simp] theorem State.releaseCtx_mem (s : State) (n k : Nat) : (State.releaseCtx s n k).mem = s.mem := by simp [State.releaseCtx]

@[simp] theorem State.setEvent_mem (s : State) (n f : Nat) : (State.setEvent s n f).mem = s.mem := by
  unfold State.setEvent
  split <;> simp

@[simp] theorem State.giveEvent_mem (s : State) (n f : Nat) : (State.giveEvent s n f).mem = s.mem := by
  unfold State.giveEvent
  split <;> simp

@[simp] theorem State.setEvents_mem (s : State) (n : Nat) (mask : BitVec 32) : (s.setEvents n mask).mem = s.mem :=
  foldl_keeps State.mem (fun t k => by split <;> simp) _ _

@[simp] theorem sliceExpiry_mem (n : Nat) (s : State) : (sliceExpiry n s).mem = s.mem := by
  fun_cases sliceExpiry n s <;> simp +zetaDelta

/-! ## Writes to the context registers of a core -/

@[simp] theorem startNow_mem (h_ : HeldStart) (s : State) : (startNow h_ s).mem = s.mem := by
  unfold startNow
  split <;> simp

@[simp] theorem ctxStart_mem (n : Nat) (v : W64) (s : State) : (ctxStart n v s).mem = s.mem := by
  fun_cases ctxStart n v s <;> simp +zetaDelta

@[simp] theorem ctxResume_mem (n : Nat) (v : W64) (s : State) : (ctxResume n v s).mem = s.mem :=
  foldl_keeps State.mem (fun t k => by split <;> simp) _ _

@[simp] theorem ctxKill_mem (n : Nat) (v : W64) (s : State) : (ctxKill n v s).mem = s.mem :=
  foldl_keeps State.mem (fun t k => by split <;> simp) _ _

@[simp] theorem evSet_mem (n : Nat) (v : W64) (s : State) : (evSet n v s).mem = s.mem := by simp [evSet]

/-! ## Rings and chairs (spec/08 R166, R167) -/

@[simp] theorem State.setRing_mem (s : State) (n r : Nat) (g : Ring) :
    (State.setRing s n r g).mem = s.mem := by simp [State.setRing]

@[simp] theorem State.wakeRing_mem (s : State) (n r : Nat) (consumer : Bool) :
    (State.wakeRing s n r consumer).mem = s.mem := by simp [State.wakeRing]

@[simp] theorem State.putRing_mem (s : State) (n r : Nat) (g : Ring) : (State.putRing s n r g).mem = s.mem := by
  unfold State.putRing
  dsimp only
  repeat' split
  all_goals simp

/-! ## Halts (spec/08 R179, R180) -/

@[simp] theorem ringHalt_mem (n r : Nat) (l : XList) (code addr : Nat) (s0 : State) :
    (ringHalt n r l code addr s0).mem = s0.mem := by simp [ringHalt]

@[simp] theorem setReq_mem (n r : Nat) (s : State) (g : Ring) (l : XList) (j : Nat) (q : Req) :
    (setReq n r s g l j q).mem = s.mem := by simp [setReq]

@[simp] theorem ringFail_mem (n r j code : Nat) (s : State) : (ringFail n r j code s).mem = s.mem := by
  fun_cases ringFail n r j code s <;> simp +zetaDelta

/-! ## Moving bytes (spec/08 R177) -/

@[simp] theorem placeLoop_memOk (n fuel : Nat) (s : State) (g : Ring) (l : XList) (q : Req) (h : s.mem.wf = true) :
    (placeLoop n fuel s g l q).1.mem.wf = true := by
  induction fuel generalizing s g l q with
  | zero => exact h
  | succ fuel ih =>
    unfold placeLoop
    split
    · exact h
    · split
      · split
        · split
          · exact h
          · exact ih _ _ _ _ h
        · dsimp only
          split <;> exact ih _ _ _ _ (by simp [h])
      · dsimp only
        split <;> exact ih _ _ _ _ (by simp [h])

@[simp] theorem chainTaken_mem (n : Nat) (l : XList) (k : Nat) (s : State) : (chainTaken n l k s).mem = s.mem := by
  unfold chainTaken
  split <;> simp

@[simp] theorem reqDone_mem (n r : Nat) (s : State) (g : Ring) (l : XList) (q : Req) : (reqDone n r s g l q).mem = s.mem := by
  unfold reqDone
  dsimp only
  all_goals simp

@[simp] theorem listEnd_memOk (n r : Nat) (s : State) (g : Ring) (l : XList) (h : s.mem.wf = true) :
    (listEnd n r s g l).mem.wf = true := by
  unfold listEnd
  extract_lets s1 g1
  have h1 : s1.mem.wf = true := by
    unfold s1
    split <;> simp [h]
  have h2 : (l.spoils.foldl (fun (st : State) p => st.lundef n 1 p.1 p.2) s1).mem.wf = true :=
    foldl_memOk h1 fun t x ht => by simp [ht]
  simp [h2]

theorem listNext_memOk (n r : Nat) (s : State) (g : Ring) (l : XList) (h : s.mem.wf = true) :
    ∀ t ∈ listNext n r s g l, t.mem.wf = true := by
  fun_cases listNext n r s g l <;> simp +zetaDelta [h]

/-! ## What a Slalom command may take and hand over (spec/08 R187) -/

@[simp] theorem resolve_mem (n space addr len : Nat) (acc : Access) (s : State) :
    (resolve n space addr len acc s).1.mem = s.mem :=
  have hx : (s.xlat n addr acc).1.mem = s.mem := State.xlat_mem s n addr acc
  resolve.fun_cases_unfolding n space addr len acc s (fun r => r.1.mem = s.mem)
    (fun _ _ _ h => (congrArg (·.1.mem) h).symm.trans hx) (fun _ _ _ h _ => (congrArg (·.1.mem) h).symm.trans hx)
    (fun _ _ _ h _ => (congrArg (·.1.mem) h).symm.trans hx) (fun _ _ => rfl) (fun _ _ => rfl)

@[simp] theorem ringIssue_mem (n r : Nat) (s : State) (g : Ring) (l : XList) (j : Nat) (q : Req) :
    (ringIssue n r s g l j q).mem = s.mem := by
  fun_cases ringIssue n r s g l j q <;> simp +zetaDelta

theorem ringPlace_memOk (n r : Nat) (s : State) (g : Ring) (l : XList) (q : Req) (h : s.mem.wf = true) :
    ∀ t ∈ ringPlace n r s g l q, t.mem.wf = true := by
  unfold ringPlace
  split
  · split
    · split <;> simp [h]
    · simp
  · dsimp only
    split
    · simp [h]
    · split <;> simp [h]

theorem ringGather_memOk (n r : Nat) (s : State) (g : Ring) (l : XList) (j : Nat) (q : Req) (h : s.mem.wf = true) :
    ∀ t ∈ ringGather n r s g l j q, t.mem.wf = true := by
  fun_cases ringGather n r s g l j q <;> simp +zetaDelta [h]

theorem ringHead_memOk (n r : Nat) (s : State) (g : Ring) (l : XList) (h : s.mem.wf = true) :
    ∀ t ∈ ringHead n r s g l, t.mem.wf = true := by
  unfold ringHead
  split
  · simp
  · split
    · simp [h]
    · simp [h]
    · exact ringPlace_memOk n r s g l _ h
    · simp

theorem ringTail_memOk (n r : Nat) (s : State) (g : Ring) (l : XList) (h : s.mem.wf = true) :
    ∀ t ∈ ringTail n r s g l, t.mem.wf = true := by
  intro t ht
  obtain ⟨p, -, hp⟩ := List.exists_of_findSome?_eq_some ht
  split at hp
  · exact ringGather_memOk n r s g l p.2 p.1 h t hp
  · split at hp
    · obtain rfl := Option.some.inj hp
      simp [h]
    · cases hp
  · cases hp

theorem ringStep_memOk (n r : Nat) (s : State) (h : s.mem.wf = true) : ∀ t ∈ ringStep n r s, t.mem.wf = true := by
  intro t ht
  unfold ringStep at ht
  extract_lets g at ht
  split at ht
  · cases ht
  · split at ht
    · cases ht
    · rcases Option.or_eq_some_iff.mp ht with hh | ⟨-, ht⟩
      · exact ringHead_memOk n r s g _ h t hh
      · rcases Option.or_eq_some_iff.mp ht with hh | ⟨-, ht⟩
        · exact ringTail_memOk n r s g _ h t hh
        · split at ht
          · cases ht
          · exact listNext_memOk n r s g _ h t ht

@[simp] theorem ringAnswer_mem (n r j : Nat) (resp : Response) (s : State) : (ringAnswer n r j resp s).mem = s.mem := by
  fun_cases ringAnswer n r j resp s <;> simp +zetaDelta

/-! ## Transfer slots (spec/08 R182, spec/04 R91, R92) -/

@[simp] theorem State.setSlot_mem (s : State) (n x : Nat) (v : XSlot) :
    (State.setSlot s n x v).mem = s.mem := by simp [State.setSlot]

@[simp] theorem undefVirt_memOk (n fuel va len : Nat) (s : State) (h : s.mem.wf = true) :
    (undefVirt n fuel va len s).mem.wf = true := by
  induction fuel generalizing va len s with
  | zero => exact h
  | succ fuel ih =>
    unfold undefVirt
    split
    · exact h
    · apply ih
      split
      · split <;> simp [h]
      · exact h

@[simp] theorem slotFree_mem (n x : Nat) (s : State) : (slotFree n x s).mem = s.mem := by simp [slotFree]

@[simp] theorem slotFail_memOk (n x : Nat) (v : XSlot) (code addr : Nat) (s : State) (h : s.mem.wf = true) :
    (slotFail n x v code addr s).mem.wf = true := by
  unfold slotFail
  split <;> simp [h]

@[simp] theorem slotHalt_mem (n x : Nat) (v : XSlot) (code : Nat) (s : State) :
    (slotHalt n x v code s).mem = s.mem := by simp [slotHalt]

@[simp] theorem slotCode_memOk (n x : Nat) (v : XSlot) (code : Nat) (s : State) (h : s.mem.wf = true) :
    (slotCode n x v code s).mem.wf = true := by simp [slotCode, h]

@[simp] theorem slotSend_memOk (n x : Nat) (v : XSlot) (q : Req) (r : NetReq) (s : State) (h : s.mem.wf = true) :
    (slotSend n x v q r s).mem.wf = true := by
  fun_cases slotSend n x v q r s <;> simp +zetaDelta [h]

@[simp] theorem slotIssue_memOk (n x : Nat) (v : XSlot) (data : List Byte) (s : State) (h : s.mem.wf = true) :
    (slotIssue n x v data s).mem.wf = true := by
  unfold slotIssue
  extract_lets k acc p q
  have hp : p.1.mem.wf = true := by
    unfold p
    rw [resolve_mem]
    exact h
  clear_value p
  split
  · exact slotCode_memOk _ _ _ _ _ hp
  · simp [hp]
  · extract_lets base
    split
    · exact slotSend_memOk _ _ _ _ _ _ hp
    · exact slotSend_memOk _ _ _ _ _ _ hp
    · exact slotSend_memOk _ _ _ _ _ _ hp
    · split
      · exact slotSend_memOk _ _ _ _ _ _ hp
      · have hx := State.xlat_mem p.1 n ((v.dst + v.pos) % 2 ^ 64) .write
        split
        · next s2 c he =>
          rw [he] at hx
          exact slotCode_memOk _ _ _ _ _ (hx ▸ hp)
        · next s2 ga he =>
          rw [he] at hx
          have h2 : s2.mem.wf = true := hx ▸ hp
          dsimp only
          split
          · exact slotFail_memOk _ _ _ _ _ _ h2
          · exact slotSend_memOk _ _ _ _ _ _ h2

theorem slotStep_memOk (n x : Nat) (s : State) (h : s.mem.wf = true) : ∀ t ∈ slotStep n x s, t.mem.wf = true := by
  intro t ht
  unfold slotStep at ht
  split at ht
  · cases ht
  · next v _ =>
    split at ht
    · cases ht
    · split at ht
      · extract_lets s' s1 at ht
        have hs : s'.mem.wf = true := foldl_memOk h fun t p ht => by simp [ht]
        split at ht
        · obtain rfl := Option.some.inj ht
          simp [hs]
        · split at ht
          · cases ht
          · obtain rfl := Option.some.inj ht
            exact slotIssue_memOk _ _ _ _ _ (by simp [s1, hs])
      · split at ht
        · obtain rfl := Option.some.inj ht
          simp [h]
        · cases ht

@[simp] theorem slotAnswer_memOk (n x : Nat) (resp : Response) (s : State) (h : s.mem.wf = true) :
    (slotAnswer n x resp s).mem.wf = true := by
  fun_cases slotAnswer n x resp s <;> simp +zetaDelta [h]

/-! ## The command queue (spec/08 R173) -/

@[simp] theorem fenceDone_mem (n k inc pd : Nat) (s : State) : (fenceDone n k inc pd s).mem = s.mem := by
  fun_cases fenceDone n k inc pd s <;> simp +zetaDelta

@[simp] theorem sqDrop_mem (n : Nat) (s : State) : (sqDrop n s).mem = s.mem := by simp [sqDrop]

theorem sqStep_memOk (n : Nat) (s : State) (h : s.mem.wf = true) : ∀ t ∈ sqStep n s, t.mem.wf = true := by
  unfold sqStep
  dsimp only
  split
  · simp
  · split
    · simp [h]
    · split <;> simp [h]
  · split
    · simp [h]
    · split <;> simp [h]
  · split <;> simp [h]

/-! ## Slalom commands in progress (spec/08 R186-R189) -/

theorem chainCompute_memOk (n : Nat) (s : State) (ch : Chain) (h : s.mem.wf = true) : ∀ t ∈ chainCompute n s ch, t.mem.wf = true := by
  unfold chainCompute
  extract_lets c feed r late bytes s1 out f
  have hr : r.1.mem.wf = true := gatesRun_memOk s n _ _ h
  have h1 : s1.mem.wf = true := ite_memOk hr (foldl_memOk (by simpa using hr) fun t g ht => undefGate_memOk t n g ht)
  split <;> simp [h1]

theorem chainTake_memOk (n : Nat) (s : State) (ch : Chain) (h : s.mem.wf = true) : ∀ t ∈ chainTake n s ch, t.mem.wf = true := by
  unfold chainTake
  split
  · simp
  · dsimp only
    split
    · simp
    · split
      · intro t ht
        obtain ⟨p, -, rfl⟩ := Option.map_eq_some_iff.mp ht
        simpa using h
      · split <;> simp [h]

theorem chainGive_memOk (n r : Nat) (bs : List Byte) (ch : Chain) (s : State) (h : s.mem.wf = true) :
    ∀ t ∈ chainGive n r bs ch s, t.mem.wf = true := by
  intro t ht
  obtain ⟨p, -, rfl⟩ := Option.map_eq_some_iff.mp ht
  rw [State.putRing_mem, State.setCore_mem]
  exact ite_memOk (by simp [h]) (by simp [h])

theorem chainEarly_memOk (n : Nat) (s : State) (ch : Chain) (h : s.mem.wf = true) : ∀ t ∈ chainEarly n s ch, t.mem.wf = true := by
  unfold chainEarly
  extract_lets ready
  split
  · extract_lets k
    split
    · exact chainGive_memOk n _ _ _ s h
    · simp
  · split <;> simp [h]

theorem chainGo_memOk (n : Nat) (s : State) (ch : Chain) (h : s.mem.wf = true) : ∀ t ∈ chainGo n s ch, t.mem.wf = true := by
  unfold chainGo
  split
  · intro t ht
    simp only [Option.mem_def, Option.or_eq_some_iff] at ht
    rcases ht with ht | ⟨-, ht | ⟨-, ht⟩⟩
    · exact chainCompute_memOk n s ch h t ht
    · exact chainEarly_memOk n s ch h t ht
    · exact chainTake_memOk n s ch h t ht
  · split
    · exact chainGive_memOk n _ _ _ s h
    · simp

theorem chainStep_memOk (n : Nat) (s : State) (h : s.mem.wf = true) : ∀ t ∈ chainStep n s, t.mem.wf = true := by
  intro t ht
  obtain ⟨-, ch, -, -, hgo, -⟩ := List.findSome?_eq_some_iff.mp ht
  exact chainGo_memOk n s ch h t hgo

@[simp] theorem abortChain_memOk (n id : Nat) (s : State) (h : s.mem.wf = true) : (abortChain n id s).mem.wf = true := by
  unfold abortChain
  split
  · exact h
  · next ch _ =>
    have hgates : (ch.computing.foldl (fun st g => undefGate st n g) s).mem.wf = true := foldl_memOk h fun t g ht => undefGate_memOk t n g ht
    dsimp only
    split <;> simpa using hgates

/-! ## Going on -/

theorem findSome?_memOk {α : Type} {f : α → Option State} {l : List α} (hf : ∀ a, ∀ t ∈ f a, t.mem.wf = true) :
    ∀ t ∈ l.findSome? f, t.mem.wf = true := fun t ht =>
  have ⟨a, _, ha⟩ := List.exists_of_findSome?_eq_some ht
  hf a t ha

theorem coreStep_memOk (n : Nat) (s : State) (h : s.mem.wf = true) : ∀ t ∈ coreStep n s, t.mem.wf = true := by
  intro t ht
  unfold coreStep at ht
  split at ht
  · next hq => exact sqStep_memOk n s h t (hq.trans ht)
  · split at ht
    · next hq => exact chainStep_memOk n s h t (hq.trans ht)
    · split at ht
      · next hq => exact findSome?_memOk (fun r => ringStep_memOk n r s h) t (hq.trans ht)
      · exact findSome?_memOk (fun x => slotStep_memOk n x s h) t ht

@[simp] theorem settleLoop_memOk (n fuel : Nat) (s : State) (h : s.mem.wf = true) : (settleLoop n fuel s).mem.wf = true := by
  induction fuel generalizing s with
  | zero => exact h
  | succ fuel ih =>
    unfold settleLoop
    split
    · next t ht => exact ih t (coreStep_memOk n s h t ht)
    · exact h

@[simp] theorem State.settle_memOk (s : State) (n : Nat) (h : s.mem.wf = true) :
    (State.settle s n).mem.wf = true := by simp [State.settle, h]

@[simp] theorem streamAnswer_memOk (n src j : Nat) (resp : Response) (s : State) (h : s.mem.wf = true) :
    (streamAnswer n src j resp s).mem.wf = true := by
  unfold streamAnswer
  split <;> simp [h]

/-! ## Rings -/

@[simp] theorem spoilRange_memOk (n a len : Nat) (s : State) (h : s.mem.wf = true) :
    (spoilRange n a len s).mem.wf = true := by simp [spoilRange, h]

/-! ## Remote instructions -/

@[simp] theorem queueRemote_memOk (n k pd : Nat) (x : XSlot) (s : State) (h : s.mem.wf = true) :
    (queueRemote n k pd x s).mem.wf = true := by simp [queueRemote, h]

@[simp] theorem issueRemote_memOk (i : IA) (uc : Bool) (auxUsed : BitVec 21) (ok : Bool) (check : Ctx → Option (Nat × Nat)) (make : Ctx → XSlot)
    (s : State) (h : s.mem.wf = true) : (issueRemote i uc auxUsed ok check make s).mem.wf = true := by
  refine issue_memOk h ?_
  dsimp only
  split
  · simp [h]
  · split <;> simp [h]

/-! ## Control of rings and slots (spec/08 R181, R182) -/

@[simp] theorem ringResume_memOk (n r : Nat) (s : State) (h : s.mem.wf = true) :
    (ringResume n r s).mem.wf = true := by simp [ringResume, h]

@[simp] theorem ringAbort_memOk (n r : Nat) (s : State) (h : s.mem.wf = true) : (ringAbort n r s).mem.wf = true := by
  unfold ringAbort
  extract_lets ids left s1 g c waits s2 s3
  have h1 : s1.mem.wf = true := foldl_memOk h fun t x ht => by simp [ht]
  have h2 : s2.mem.wf = true := by simp [s2, h1]
  have h3 : s3.mem.wf = true := foldl_memOk (by simp [h2]) fun t l ht => by
    have hl : (l.spoils.foldl (fun (u : State) p => u.lundef n 1 p.1 p.2) t).mem.wf = true :=
      foldl_memOk ht fun u p hu => by simp [hu]
    simp [hl]
  exact State.settle_memOk _ _ (by simp [h3])

@[simp] theorem ringReset_mem (n r : Nat) (s : State) : (ringReset n r s).mem = s.mem := by
  unfold ringReset
  extract_lets g s1
  split
  · rfl
  · refine (foldl_keeps State.mem (fun t k => ?_) _ _).trans (by simp [s1])
    dsimp only
    split <;> simp

@[simp] theorem ringCtl_memOk (n r : Nat) (v : W64) (s : State) (h : s.mem.wf = true) : (ringCtl n r v s).mem.wf = true := by
  fun_cases ringCtl n r v s <;> simp +zetaDelta [h]

@[simp] theorem slotResume_memOk (n x : Nat) (s : State) (h : s.mem.wf = true) : (slotResume n x s).mem.wf = true := by
  unfold slotResume
  split <;> simp [h]

@[simp] theorem slotAbort_memOk (n x : Nat) (s : State) (h : s.mem.wf = true) : (slotAbort n x s).mem.wf = true := by
  fun_cases slotAbort n x s <;> simp +zetaDelta [h]

@[simp] theorem slotCtl_memOk (n x : Nat) (v : W64) (s : State) (h : s.mem.wf = true) : (slotCtl n x v s).mem.wf = true := by
  unfold slotCtl
  split <;> simp [h]

/-! ## The record (R183, Table 08-6) -/

@[simp] theorem gatePut_mem (n : Nat) (s : State) (g : Gate) : (gatePut n s g).mem = s.mem := by
  fun_cases gatePut n s g <;> simp +zetaDelta

/-! ## Issue (R186) -/

@[simp] theorem slmPlace_memOk (n k pd : Nat) (r : SlmRec) (s : State) (h : s.mem.wf = true) :
    (slmPlace n k pd r s).mem.wf = true := by
  unfold slmPlace
  extract_lets x id gs need ch s1 c s2 s3
  have h2 : s2.mem.wf = true := by simp [s2, s1, h]
  have h3 : s3.mem.wf = true := foldl_memOk h2 fun t g ht => by
    have hu : (g.units.foldl (fun st u => st.push n u g.cmd) t).mem.wf = true := foldl_memOk ht fun u x hu => by simp [hu]
    simp [hu]
  simp [h3]

/-! ## The end of a Slalom command (R189) -/

@[simp] theorem slalomDone_memOk (n : Nat) (s : State) (h : s.mem.wf = true) : (slalomDone n s).mem.wf = true := by
  fun_cases slalomDone n s <;> simp +zetaDelta [h]

@[simp] theorem undefCmd_memOk (n arr : Nat) (x : UCmd) (s : State) (h : s.mem.wf = true) : (undefCmd n arr x s).mem.wf = true := by
  unfold undefCmd
  extract_lets s1
  have h1 : s1.mem.wf = true := by
    unfold s1
    split
    · exact foldl_memOk h fun t p ht => by simp [ht]
    · exact h
  simp [h1]

@[simp] theorem undefList_memOk (n : Nat) (l : XList) (s : State) (h : s.mem.wf = true) : (undefList n l s).mem.wf = true := by
  unfold undefList
  split
  · exact h
  · refine foldl_memOk h fun t i ht => ?_
    split
    · exact ht
    · refine foldl_memOk ht fun u r hu => ?_
      dsimp only
      split
      · split <;> simp [hu]
      · simp [hu]

@[simp] theorem undefStarted_memOk (n : Nat) (s : State) (h : s.mem.wf = true) : (undefStarted n s).mem.wf = true := by
  unfold undefStarted
  extract_lets c one s1 s2 s3
  have h1 : s1.mem.wf = true := foldl_memOk h fun t p ht => by
    unfold one
    split
    · split <;> simp [ht]
    · exact ht
  have h2 : s2.mem.wf = true := foldl_memOk h1 fun t ch ht => foldl_memOk ht fun u g hu => by simp [hu]
  have h3 : s3.mem.wf = true := foldl_memOk h2 fun t p ht => by split <;> simp [ht]
  exact foldl_memOk h3 fun t p ht => by split <;> simp [ht]

@[simp] theorem coreStop_memOk (n : Nat) (s : State) (h : s.mem.wf = true) : (coreStop n s).mem.wf = true := by simp [coreStop, h]

@[simp] theorem stopCores_memOk (s : State) (h : s.mem.wf = true) : (stopCores s).mem.wf = true := by
  unfold stopCores
  exact foldl_memOk h fun t x ht => by simp [ht]

@[simp] theorem resumeCores_mem (s : State) : (resumeCores s).mem = s.mem := by
  unfold resumeCores
  exact foldl_keeps State.mem (fun t x => by simp) _ _

/-! ## SRAM placement (spec/03 R48) -/

@[simp] theorem sramCfg_memOk (n : Nat) (v : W64) (s : State) (h : s.mem.wf = true) : (sramCfg n v s).mem.wf = true := by simp [sramCfg, h]

/-! ## The gradient plan (spec/09 R210, R211) -/

@[simp] theorem gradPlanLoad_mem (s : State) : (gradPlanLoad s).mem = s.mem := by
  fun_cases gradPlanLoad s <;> simp +zetaDelta

/-! ## Chain and owner tables (R290, R291, R295) -/

@[simp] theorem chainArm_mem (s : State) : (chainArm s).mem = s.mem := by
  fun_cases chainArm s <;> simp +zetaDelta

@[simp] theorem redStepStart_mem (s : State) : (redStepStart s).mem = s.mem := by
  unfold redStepStart
  split <;> simp

/-! ## Poison (R297) -/

@[simp] theorem poisonSource_mem (layer bucket block elem cause : Nat) (s : State) :
    (poisonSource layer bucket block elem cause s).mem = s.mem := by
  unfold poisonSource
  dsimp only
  repeat' split
  all_goals simp

/-! ## Sending and delivery (R290, R294, R296) -/

@[simp] theorem redSend_mem (layer bucket chain kind node no : Nat) (bs : List (List Byte)) (s : State) :
    (redSend layer bucket chain kind node no bs s).mem = s.mem := by
  unfold redSend
  split
  · simp
  · split
    · rfl
    · exact foldl_keeps State.mem (fun t k => State.sendOne_mem ..) _ _

@[simp] theorem redOut_mem (c : RCmd) (no : Nat) (bs : List (List Byte)) (s : State) : (redOut c no bs s).mem = s.mem := by
  fun_cases redOut c no bs s <;> simp +zetaDelta

@[simp] theorem redFails_mem (c : RCmd) (check code : Nat) (psn : Bool) (s0 : State) :
    (redFails c check code psn s0).mem = s0.mem := by simp [redFails]

@[simp] theorem redDone_memOk (c : RCmd) (s0 : State) (h : s0.mem.wf = true) : (redDone c s0).mem.wf = true := by
  unfold redDone
  extract_lets t hh s r s1
  have h1 : hh.mem.wf = true := by
    unfold hh
    split <;> simp [h]
  have h2 : s.mem.wf = true := UCmd.spoil_memOk _ _ _ (State.raced_memOk _ _ _ _ h1)
  have h3 : s1.mem.wf = true := by simp [s1, h2]
  simp [h3]

theorem subStep_memOk (c : RCmd) (s : State) (h : s.mem.wf = true) : ∀ t ∈ subStep c s, t.mem.wf = true := by
  unfold subStep
  dsimp only
  repeat' split
  all_goals simp [h]

theorem recvStep_memOk (c : RCmd) (s : State) (h : s.mem.wf = true) : ∀ t ∈ recvStep c s, t.mem.wf = true := by
  fun_cases recvStep c s <;> simp +zetaDelta [h]

@[simp] theorem redDrops_memOk (c : RCmd) (s : State) (h : s.mem.wf = true) : (redDrops c s).mem.wf = true := by simp [redDrops, h]

theorem redStep_memOk (s : State) (h : s.mem.wf = true) : ∀ t ∈ redStep s, t.mem.wf = true :=
  findSome?_memOk fun c => by
    split
    · simp
    · split
      · simp [h]
      · split
        · simp
        · split
          · exact recvStep_memOk c s h
          · exact subStep_memOk c s h

@[simp] theorem redLoop_memOk (fuel : Nat) (s : State) (h : s.mem.wf = true) : (redLoop fuel s).mem.wf = true := by
  induction fuel generalizing s with
  | zero => exact h
  | succ fuel ih =>
    unfold redLoop
    split
    · next t ht => exact ih t (redStep_memOk s h t ht)
    · exact h

@[simp] theorem State.redGo_memOk (s : State) (h : s.mem.wf = true) : (State.redGo s).mem.wf = true := by simp [State.redGo, h]

/-! ## RDSUB and RDRECV (spec/04 R93, R293) -/

@[simp] theorem redTake_memOk (recv : Bool) (n : Nat) (s : State) (x : UCmd) (h : s.mem.wf = true) :
    (redTake recv n s x).mem.wf = true := by
  unfold redTake
  extract_lets c r s1 s2
  have h1 : s1.mem.wf = true := by simp [s1, h]
  have h2 : s2.mem.wf = true := ite_memOk h1 (foldl_memOk h1 fun t p ht => by
    split
    · dsimp only
      split <;> simp [ht]
    · exact ht)
  split <;> simp [h2]

@[simp] theorem issueRed_memOk (recv : Bool) (i : IT) (s : State) (h : s.mem.wf = true) : (issueRed recv i s).mem.wf = true :=
  issueUnits_memOk h fun t x ht => by simp [ht]

/-! ## Arrival (R294, R295) -/

@[simp] theorem gbkArrive_memOk (layer bucket chain kind no upset : Nat) (data : List Byte)
    (s : State) (h : s.mem.wf = true) :
    (gbkArrive layer bucket chain kind no upset data s).1.mem.wf = true := by
  fun_cases gbkArrive layer bucket chain kind no upset data s <;> simp +zetaDelta [h]

/-! ## Abandoned steps (R301) -/

@[simp] theorem redAbandon_memOk (reason : Nat) (s : State) (h : s.mem.wf = true) : (redAbandon reason s).mem.wf = true := by
  unfold redAbandon
  extract_lets cmds r s1 s2 s3
  have h2 : s2.mem.wf = true := foldl_memOk (by simp [s1, h]) fun t c ht => by simp [ht]
  have h3 : s3.mem.wf = true := by
    unfold s3
    split <;> simp [h2]
  split <;> simp [h3]

/-! ## Registers and plans -/

@[simp] theorem loadRefused_mem (code : Nat) (s : State) : (loadRefused code s).mem = s.mem := by simp [loadRefused]

@[simp] theorem planLoad_mem (s : State) : (planLoad s).mem = s.mem := by
  fun_cases planLoad s <;> simp +zetaDelta

/-! ## Keys (R263, R264) -/

@[simp] theorem State.showKeys_mem (s : State) : (State.showKeys s).mem = s.mem := by simp [State.showKeys]

@[simp] theorem State.clearKeys_mem (s : State) : (State.clearKeys s).mem = s.mem := by simp [State.clearKeys]

@[simp] theorem keyRefused_mem (code epoch : Nat) (s : State) : (keyRefused code epoch s).mem = s.mem := by simp [keyRefused]

@[simp] theorem keyInstall_mem (keys : Sparse (List Byte)) (s : State) : (keyInstall keys s).mem = s.mem := by simp [keyInstall]

@[simp] theorem keyUnwrap_mem (epoch : Nat) (wrapped : List Byte) (s : State) : (keyUnwrap epoch wrapped s).mem = s.mem := by
  fun_cases keyUnwrap epoch wrapped s <;> simp +zetaDelta

/-! ## Records -/

@[simp] theorem rejectEvent_mem (i rec_ code : Nat) (s : State) :
    (rejectEvent i rec_ code s).mem = s.mem := by simp [rejectEvent]

@[simp] theorem forwardTo_mem (n fuel : Nat) (x : WRec) (s : State) : (forwardTo n fuel x s).1.mem = s.mem := by
  induction fuel generalizing x s with
  | zero => rfl
  | succ fuel ih =>
    unfold forwardTo
    extract_lets off k r
    split
    · rfl
    · split
      · exact (ih _ _).trans (State.sendOne_mem ..)
      · exact State.sendOne_mem ..

@[simp] theorem forward_mem (x : WRec) (s : State) : (forward x s).mem = s.mem := by
  unfold forward
  extract_lets r w recs
  have hr : r.1.mem = s.mem := foldl_keeps (fun q : State × WRec => q.1.mem) (fun q n => by split <;> simp) _ _
  split <;> simp [hr]

@[simp] theorem forwardAll_mem (s : State) : (forwardAll s).mem = s.mem := by
  unfold forwardAll
  exact foldl_keeps State.mem (fun t x => by simp) _ _

@[simp] theorem recDone_mem (x : WRec) (s : State) : (recDone x s).mem = s.mem := by simp [recDone]

@[simp] theorem wsegArrive.put_memOk (rec_ off : Nat) (data : List Byte) (s : State) (i : Nat) (x : WRec) (h : s.mem.wf = true) :
    (wsegArrive.put rec_ off data s i x).mem.wf = true := by simp [wsegArrive.put, h]

@[simp] theorem wsegArrive_memOk (id rec_ off : Nat) (data : List Byte) (s : State) (h : s.mem.wf = true) :
    (wsegArrive id rec_ off data s).1.mem.wf = true := by
  fun_cases wsegArrive id rec_ off data s <;> simp +zetaDelta [h]

@[simp] theorem startFails_mem (code : Nat) (s : State) : (startFails code s).mem = s.mem := by simp [startFails]

@[simp] theorem entryFails_mem (e : Nat) (s : State) : (entryFails e s).mem = s.mem := by
  fun_cases entryFails e s <;> simp +zetaDelta

/-! ## Fetches (R269, R275, R278) -/

@[simp] theorem Fetch.leave_mem (f : Fetch) (s : State) : (Fetch.leave f s).mem = s.mem := by simp [Fetch.leave]

@[simp] theorem recordFailed_mem (x : WRec) (e : Nat) (s : State) : (recordFailed x e s).1.mem = s.mem := by
  fun_cases recordFailed x e s <;> simp +zetaDelta

@[simp] theorem fetchSend_mem (fuel : Nat) (f : Fetch) (s : State) : (fetchSend fuel f s).mem = s.mem := by
  induction fuel generalizing f s with
  | zero => rfl
  | succ fuel ih =>
    unfold fetchSend
    extract_lets p r
    have hr : r.1.mem = s.mem := State.sendEng_mem ..
    split
    · split
      · split <;> simp +zetaDelta [ih]
      · split <;> simp +zetaDelta [ih]
    · simp [hr]

@[simp] theorem resendSend_mem (i rec_ : Nat) (want : Option (Nat × Nat × Nat)) (s : State) :
    (resendSend i rec_ want s).mem = s.mem := by
  fun_cases resendSend i rec_ want s <;> simp +zetaDelta

@[simp] theorem fetchBegin_mem (f : Fetch) (s : State) : (fetchBegin f s).mem = s.mem := by
  unfold fetchBegin
  split <;> simp

@[simp] theorem fetchWake_mem (s : State) : (fetchWake s).mem = s.mem := by
  unfold fetchWake
  split
  · rfl
  · split
    · next j _ => cases s.ws.waiting[j]? <;> simp
    · rfl

@[simp] theorem fetchStart_mem (f : Fetch) (s : State) : (fetchStart f s).mem = s.mem := by simp [fetchStart]

@[simp] theorem fetchNext_mem (s : State) : (fetchNext s).mem = s.mem := by simp [fetchNext]

@[simp] theorem fetchFails_mem (f : Fetch) (s : State) : (fetchFails f s).mem = s.mem := by
  fun_cases fetchFails f s <;> simp +zetaDelta

@[simp] theorem refetch_mem (x : WRec) (want : Option (Nat × Nat × Nat)) (s : State) : (refetch x want s).mem = s.mem := by simp [refetch]

@[simp] theorem fetchOn_mem (s : State) : (fetchOn s).mem = s.mem := by
  fun_cases fetchOn s <;> simp +zetaDelta

/-! ## Decryption (R268-R271) -/

@[simp] theorem State.swr_memOk (src : Nat) (s : State) (a : Nat) (bs : List Byte) (h : s.mem.wf = true) :
    (State.swr src s a bs).1.mem.wf = true := by
  unfold State.swr
  split <;> simp [h]

@[simp] theorem spreadStore_memOk (src : Nat) (rs : List (Nat × Nat)) (bs : List Byte) (s : State) (h : s.mem.wf = true) :
    (spreadStore src rs bs s).1.mem.wf = true := by
  induction rs generalizing bs s with
  | nil => exact h
  | cons r rs ih => exact ih _ _ (State.swr_memOk _ _ _ _ h)

@[simp] theorem State.spreadAsk_mem (s : State) (l : List (Nat × Nat)) : (s.spreadAsk l).mem = s.mem := by
  unfold State.spreadAsk
  refine foldl_keeps State.mem (fun t r => ?_) _ _
  split
  · simp
  · split <;> simp

@[simp] theorem imageVerify_memOk (last : Bool) (g : Nat) (s : State) (h : s.mem.wf = true) : (imageVerify last g s).mem.wf = true := by
  unfold imageVerify
  extract_lets w have_ lens size whole pt want s1 t mine s2
  have h1 : s1.mem.wf = true := by simp [s1, h]
  have h2 : s2.mem.wf = true := by
    unfold s2
    rw [rejectEvent_mem, State.setWs_mem]
    exact h
  clear_value s1 s2
  split
  · exact h
  · split
    · split
      · split
        · simp [h1]
        · split
          · split <;> simp [h1]
          · exact h1
      · split <;> simp [h1]
    · split
      · exact h
      · split
        · simp [h2]
        · exact foldl_memOk h2 fun u p hu => by simp [hu]

@[simp] theorem recReject_mem (x : WRec) (code : Nat) (s : State) : (recReject x code s).mem = s.mem := by simp [recReject]

@[simp] theorem authFails_memOk (x : WRec) (s : State) (h : s.mem.wf = true) : (authFails x s).mem.wf = true := by
  unfold authFails
  extract_lets hdr want s1 s2 q
  have h1 : s1.mem.wf = true := foldl_memOk h fun t r ht => by simp [ht]
  have h2 : s2.mem.wf = true := by simp [s2, h1]
  have hq : q.1.mem.wf = true := by simp [q, h1]
  split
  · simp [h2]
  · split <;> simp [hq]

@[simp] theorem recordDecrypt_memOk (i rec : Nat) (s : State) (h : s.mem.wf = true) : (recordDecrypt i rec s).mem.wf = true := by
  unfold recordDecrypt
  split
  · exact h
  · next x _ =>
    extract_lets hdr plen kind epoch e idx oldest a dest
    clear_value hdr plen kind epoch e idx oldest a dest
    split
    · exact h
    · split
      · simp [h]
      · split
        · simp [h]
        · split
          · exact h
          · split
            · simp [h]
            · split
              · exact h
              · split
                · split <;> simp [h]
                · split
                  · simp [h]
                  · split
                    · simp [h]
                    · extract_lets r s1 w l whole l2 s2
                      have hr : r.1.mem.wf = true := spreadStore_memOk _ _ _ _ h
                      clear_value r
                      have h1 : s1.mem.wf = true := by simp [s1, hr]
                      have h2 : s2.mem.wf = true := ite_memOk h1 (by simp [h1])
                      split
                      · simp [h1]
                      · simp [h2]

/-! ## Entries and buffer groups (R270, R273) -/

@[simp] theorem entryComplete_mem (e : Nat) (s : State) : (entryComplete e s).mem = s.mem := by
  unfold entryComplete
  split <;> simp [foldl_mem, ite_mem]

@[simp] theorem bufRelease_mem (core e : Nat) (s : State) : (bufRelease core e s).mem = s.mem := by
  fun_cases bufRelease core e s <;> simp +zetaDelta

/-! ## Write-backs (R264, R272) -/

@[simp] theorem wbSend_memOk (r : WbReq) (p : Nat × List Byte) (q : State × Nat × Bool) (h : q.1.mem.wf = true) :
    (wbSend r p q).1.mem.wf = true := by
  unfold wbSend
  extract_lets req a t1 t2
  split
  · split <;> simp [t1, h]
  · have h2 : t2.1.mem.wf = true := by
      unfold t2
      split
      · split <;> simp [h]
      · simp [h]
    split <;> exact h2

@[simp] theorem wbGo_memOk (fuel : Nat) (s : State) (h : s.mem.wf = true) : (wbGo fuel s).mem.wf = true := by
  induction fuel generalizing s with
  | zero => exact h
  | succ fuel ih =>
    unfold wbGo
    split
    · exact h
    · dsimp only
      split
      · exact h
      · split
        · exact ih _ (by simp [h])
        · split
          · exact h
          · split
            · exact h
            · exact ite_memOk (by
                rw [State.setFld_mem, State.setWs_mem]
                exact foldl_fst_memOk (by simp [h]) fun q p hq => wbSend_memOk _ _ _ hq) (by
                rw [State.setWs_mem]
                exact foldl_fst_memOk (by simp [h]) fun q p hq => wbSend_memOk _ _ _ hq)

@[simp] theorem State.wbRun_memOk (s : State) (h : s.mem.wf = true) : (State.wbRun s).mem.wf = true := by simp [State.wbRun, h]

@[simp] theorem keyTake_memOk (epoch : Nat) (wrapped : List Byte) (s : State) (h : s.mem.wf = true) :
    (keyTake epoch wrapped s).mem.wf = true := by
  unfold keyTake
  split <;> simp [h]

@[simp] theorem keySlotWrite_memOk (value : W64) (s : State) (h : s.mem.wf = true) :
    (keySlotWrite value s).mem.wf = true := by simp [keySlotWrite, h]

@[simp] theorem wbqWrite_memOk (core : Nat) (value : W64) (s : State) (h : s.mem.wf = true) :
    (wbqWrite core value s).mem.wf = true := by simp [wbqWrite, h]

@[simp] theorem writebackDone_memOk (s : State) (h : s.mem.wf = true) : (writebackDone s).mem.wf = true := by
  unfold writebackDone
  dsimp only
  repeat' split
  all_goals simp [h]

/-! ## Answers -/

@[simp] theorem wsAnswer_memOk (arg : Nat) (resp : Response) (s : State) (h : s.mem.wf = true) : (wsAnswer arg resp s).mem.wf = true := by
  fun_cases wsAnswer arg resp s <;> simp +zetaDelta [h]

/-! ## Tree repair and lost nodes -/

@[simp] theorem treeTimeout_mem (s : State) : (treeTimeout s).mem = s.mem := by
  fun_cases treeTimeout s <;> simp +zetaDelta

@[simp] theorem streamsDrop_mem (node : Nat) (s : State) : (streamsDrop node s).mem = s.mem := by
  unfold streamsDrop
  exact foldl_keeps State.mem (fun t x => by split <;> simp) _ _

/-! ## Phases and member state (R304, R309, R312) -/

@[simp] theorem State.setPhase_mem (s : State) (p : Nat) : (State.setPhase s p).mem = s.mem := by simp [State.setPhase]

@[simp] theorem memberLoad_memOk (rec : List Byte) (s : State) (h : s.mem.wf = true) : (memberLoad rec s).mem.wf = true := by
  unfold memberLoad
  extract_lets c s1
  have h1 : s1.mem.wf = true := foldl_memOk h fun t n ht => Mem.wf_writeBytes _ ht _
  simp [h1]

@[simp] theorem takeCoreRegs_mem (s : State) : (takeCoreRegs s).mem = s.mem := by simp [takeCoreRegs]

/-! ## Sending -/

@[simp] theorem ckPuts_memOk (arg vc : Nat) (roce : Option Nat) (dest : Nat) (data : List Byte) (s : State) (h : s.mem.wf = true) :
    (ckPuts arg vc roce dest data s).1.mem.wf = true := by
  unfold ckPuts
  refine foldl_fst_memOk h fun q p hq => ?_
  extract_lets st node req
  have hs : st.mem.wf = true := hq
  split
  · split <;> simp [hs]
  · split
    · simp [hs]
    · have he := State.sendEng_mem st req
      split <;> next heq =>
        rw [heq] at he
        exact he ▸ hs

@[simp] theorem sendCtl_mem (node : Nat) (rec_ : List Byte) (s : State) : (sendCtl node rec_ s).mem = s.mem := by simp [sendCtl]

/-! ## Digests and shards (R306, R317, R326) -/

@[simp] theorem showOwner_mem (k : Option Nat) (s : State) : (showOwner k s).mem = s.mem := by
  unfold showOwner
  extract_lets s1 s2 l
  exact (foldl_keeps State.mem (fun t i => by split <;> simp) _ _).trans (by simp [s2, s1])

@[simp] theorem showDescs_mem (s : State) : (showDescs s).mem = s.mem := by simp [showDescs]

@[simp] theorem State.diverge_mem (s : State) (k : Nat) : (State.diverge s k).mem = s.mem := by
  unfold State.diverge
  split <;> simp

/-! ## Descriptors (R305, R306) -/

@[simp] theorem tensLoad_mem (s : State) : (tensLoad s).mem = s.mem := by
  unfold tensLoad
  extract_lets l c s1
  split
  · rfl
  · split
    · exact (foldl_keeps State.mem (fun t i => State.setReg_mem ..) _ _).trans (by simp [s1])
    · simp

/-! ## Points of a decision (R317, R318, R320, R321, R332) -/

@[simp] theorem overlapEvent_mem (kind : Nat) (s : State) : (overlapEvent kind s).mem = s.mem := by simp [overlapEvent]

@[simp] theorem cleanNotice_mem (fid k : Nat) (s : State) : (cleanNotice fid k s).mem = s.mem := by
  fun_cases cleanNotice fid k s <;> simp +zetaDelta

@[simp] theorem freezePoint_mem (fid step : Nat) (s : State) : (freezePoint fid step s).mem = s.mem := by
  unfold freezePoint
  extract_lets shards nos d r s1 s2
  exact (foldl_keeps State.mem (fun t k => cleanNotice_mem fid k t) _ _).trans (by simp [s2, s1])

@[simp] theorem comparePoint_memOk (step : Nat) (s : State) (h : s.mem.wf = true) : (comparePoint step s).mem.wf = true := by
  unfold comparePoint
  extract_lets digest ks s1
  have h1 : s1.mem.wf = true := foldl_memOk h fun t k ht => by split <;> simp [ht]
  exact foldl_memOk h1 fun t k ht => by simp [ht]

@[simp] theorem buddyPoint_mem (step : Nat) (s : State) : (buddyPoint step s).mem = s.mem := by
  fun_cases buddyPoint step s <;> simp +zetaDelta

/-! ## Decisions (R206-R208, R299, R300, R310, R311) -/

@[simp] theorem answerVoter_mem (v : Voter) (outcome : Nat) (s : State) : (answerVoter v outcome s).mem = s.mem := by
  fun_cases answerVoter v outcome s <;> simp +zetaDelta

@[simp] theorem answerVoters_mem (outcome : Nat) (s : State) : (answerVoters outcome s).mem = s.mem := by
  unfold answerVoters
  extract_lets vs s1
  split
  · rfl
  · exact (foldl_keeps State.mem (fun t v => answerVoter_mem v outcome t) _ _).trans rfl

@[simp] theorem runLater_mem (s : State) : (runLater s).mem = s.mem := by
  unfold runLater
  exact foldl_keeps State.mem (fun t x => by split <;> simp) _ _

@[simp] theorem validate_memOk (step : Nat) (skip : Bool) (s : State) (h : s.mem.wf = true) : (validate step skip s).mem.wf = true := by
  unfold validate
  exact foldl_memOk h fun t x ht => by simp [ht]

@[simp] theorem discard_memOk (step : Nat) (s : State) (h : s.mem.wf = true) : (discard step s).mem.wf = true := by
  unfold discard
  exact foldl_memOk h fun t x ht => by simp [ht]

@[simp] theorem stepAgain_mem (s : State) : (stepAgain s).mem = s.mem := by simp [stepAgain]

@[simp] theorem stepStart_mem (s : State) : (stepStart s).mem = s.mem := by simp [stepStart]

@[simp] theorem rollbackEnd_mem (s : State) : (rollbackEnd s).mem = s.mem := by
  fun_cases rollbackEnd s <;> simp +zetaDelta

@[simp] theorem advance_memOk (d : Decision) (s : State) (h : s.mem.wf = true) : (advance d s).mem.wf = true := by
  unfold advance
  dsimp only
  repeat' split
  all_goals simp [h]

@[simp] theorem applyDecision_memOk (d : Decision) (s : State) (h : s.mem.wf = true) : (applyDecision d s).mem.wf = true := by
  fun_cases applyDecision d s <;> simp +zetaDelta [h]

/-! ## Votes (R206, R299) -/

@[simp] theorem decideOutcome_memOk (outcome : Nat) (s : State) (h : s.mem.wf = true) : (decide_ outcome s).mem.wf = true := by
  unfold decide_
  extract_lets go_ step fs due freeze cs d poisoned first s1 r s2 s3
  have h1 : s1.mem.wf = true := by
    unfold s1
    split
    · split <;> simp [h]
    · exact h
  have h2 : s2.mem.wf = true := by
    unfold s2
    split <;> simp [h1]
  have h3 : s3.mem.wf = true := foldl_memOk h2 fun t n ht => by simp [ht]
  simp [h3]

@[simp] theorem rootVote_memOk (v : List Byte) (s : State) (h : s.mem.wf = true) : (rootVote v s).mem.wf = true := by
  fun_cases rootVote v s <;> simp +zetaDelta [h]

@[simp] theorem castVote_memOk (dropped : Bool) (s : State) (h : s.mem.wf = true) :
    (castVote dropped s).mem.wf = true := by simp [castVote, h]

@[simp] theorem abandonNext_memOk (s : State) (h : s.mem.wf = true) : (abandonNext s).mem.wf = true := by simp [abandonNext, h]

@[simp] theorem decisionArrive_memOk (d : Decision) (s : State) (h : s.mem.wf = true) :
    (decisionArrive d s).mem.wf = true := by simp [decisionArrive, h]

@[simp] theorem voteArrive_memOk (v : List Byte) (s : State) (h : s.mem.wf = true) :
    (voteArrive v s).mem.wf = true := by simp [voteArrive, h]

@[simp] theorem abandon_memOk (s : State) (h : s.mem.wf = true) : (abandon s).mem.wf = true := by
  unfold abandon
  split <;> simp [h]

@[simp] theorem mirrorFails_memOk (s : State) (h : s.mem.wf = true) : (mirrorFails s).mem.wf = true := by simp [mirrorFails, h]

@[simp] theorem candidate_memOk (s : State) (h : s.mem.wf = true) : (candidate s).mem.wf = true := by
  unfold candidate
  dsimp only
  split
  · exact h
  · split
    · simp [h]
    · have hput (t : State × Nat × Bool) (c : Ckpt) (ht : t.1.mem.wf = true) : (t.1.setCk c).mem.wf = true := by simp [ht]
      exact ite_memOk
        (mirrorFails_memOk _ (hput _ _ (ckPuts_memOk _ _ _ _ _ _ (State.store_memOk _ _ _ h))))
        (hput _ _ (ckPuts_memOk _ _ _ _ _ _ (State.store_memOk _ _ _ h)))

@[simp] theorem voteSend_memOk (s : State) (h : s.mem.wf = true) : (voteSend s).mem.wf = true := by
  fun_cases voteSend s <;> simp +zetaDelta [h]

@[simp] theorem ckvote_memOk (i : IA) (s : State) (h : s.mem.wf = true) : (ckvote i s).mem.wf = true := by
  refine issue_memOk h ?_
  extract_lets x step t1 v cast c t2
  have h2 : t2.mem.wf = true := by simp [t2, h]
  split
  · simp [h]
  · split
    · simp [h]
    · split
      · simp [h]
      · split
        · simp [t1, h]
        · exact ite_memOk (candidate_memOk _ (by simp [h2])) h2

@[simp] theorem voteTimer_memOk (s : State) (h : s.mem.wf = true) : (voteTimer s).mem.wf = true := by simp [voteTimer, h]

/-! ## Rollback (R313) -/

@[simp] theorem restoreMember_memOk (s : State) (h : s.mem.wf = true) : (restoreMember s).mem.wf = true := by simp [restoreMember, h]

@[simp] theorem rollback_memOk (s : State) (h : s.mem.wf = true) : (rollback s).mem.wf = true := by
  unfold rollback
  split
  · exact h
  · split
    · simp [h]
    · extract_lets s1 s2
      have h1 : s1.mem.wf = true := by simp [s1, h]
      have h2 : s2.mem.wf = true := restoreMember_memOk _ (ite_memOk h1 (redAbandon_memOk _ _ h1))
      simp [h2]

@[simp] theorem updWrite_memOk (value : W64) (s : State) (h : s.mem.wf = true) : (updWrite value s).mem.wf = true := by
  fun_cases updWrite value s <;> simp +zetaDelta [h]

/-! ## Triggers of a Freeze (R320) -/

@[simp] theorem freezeTimer_mem (s : State) : (freezeTimer s).mem = s.mem := by
  unfold freezeTimer
  split <;> simp

/-! ## Contents of a slot (R326-R328) -/

@[simp] theorem State.setDrain_mem (s : State) (d : Option Drain) : (State.setDrain s d).mem = s.mem := by simp [State.setDrain]

/-! ## The drain (R323-R325, R332) -/

@[simp] theorem poolPut_memOk (d : Drain) (off : Nat) (data : List Byte) (s : State) (h : s.mem.wf = true) :
    (poolPut d off data s).1.mem.wf = true := by simp [poolPut, h]

@[simp] theorem drainPut_memOk (d : Drain) (it : DrainItem) (s : State) (h : s.mem.wf = true) : (drainPut d it s).1.mem.wf = true := by
  unfold drainPut
  split
  · exact poolPut_memOk _ _ _ _ h
  · exact (State.sendEng_mem s _).symm ▸ h
  · split
    · exact h
    · refine foldl_fst_memOk h fun x k hx => ?_
      split
      · exact hx
      · extract_lets w data y
        have hy : y.1.mem.wf = true := by
          unfold y
          split
          · exact ckPuts_memOk _ _ _ _ _ _ hx
          · exact poolPut_memOk _ _ _ _ hx
        split
        · exact hx
        · exact hy
  · split
    · exact poolPut_memOk _ _ _ _ h
    · exact h
  · exact poolPut_memOk _ _ _ _ h
  · exact ckPuts_memOk _ _ _ _ _ _ h

@[simp] theorem drainEnd_mem (s : State) : (drainEnd s).mem = s.mem := by simp [drainEnd]

@[simp] theorem freezeFail_mem (code : Nat) (s : State) : (freezeFail code s).mem = s.mem := by
  unfold freezeFail
  split <;> simp

@[simp] theorem drainSend_memOk (s : State) (h : s.mem.wf = true) : (drainSend s).mem.wf = true := by
  fun_cases drainSend s <;> simp +zetaDelta [h]

@[simp] theorem drainDone_mem (d : Drain) (it : DrainItem) (s : State) : (drainDone d it s).mem = s.mem := by
  unfold drainDone
  split <;> simp

@[simp] theorem drainAck_memOk (s : State) (h : s.mem.wf = true) : (drainAck s).mem.wf = true := by
  unfold drainAck
  dsimp only
  repeat' split
  all_goals simp [h]

/-! ## Comparison (R317, spec/19 R438) -/

@[simp] theorem compareEnd_memOk (c : Compare) (wrong : Option Nat) (s : State) (h : s.mem.wf = true) :
    (compareEnd c wrong s).mem.wf = true := by
  obtain ⟨puts, hP⟩ : ∃ f, f = ckPuts := ⟨_, rfl⟩
  have hp : ∀ a b c d e t, t.mem.wf = true → (puts a b c d e t).1.mem.wf = true := by
    rw [hP]
    exact ckPuts_memOk
  unfold compareEnd
  rw [← hP]
  clear hP
  extract_lets k s1 s2
  have h2 : s2.mem.wf = true := by
    unfold s2
    split <;> simp [s1, h]
  split
  · exact hp _ _ _ _ _ _ h2
  · exact h2

@[simp] theorem compare_memOk (k : Nat) (s : State) (h : s.mem.wf = true) : (compare k s).mem.wf = true := by
  unfold compare
  split <;> simp [h]

@[simp] theorem compareTimeout_memOk (k : Nat) (s : State) (h : s.mem.wf = true) : (compareTimeout k s).mem.wf = true := by
  unfold compareTimeout
  split <;> simp [h]

/-! ## Notices and results as they land (R318) -/

@[simp] theorem noticeLands_mem (b : List Byte) (s : State) : (noticeLands b s).mem = s.mem := by
  unfold noticeLands
  simp [foldl_mem, ite_mem]

@[simp] theorem ckLands_mem (addr : Nat) (b : List Byte) (s : State) : (ckLands addr b s).mem = s.mem := by
  fun_cases ckLands addr b s <;> simp +zetaDelta

/-! ## Answers to requests of CKPT -/

@[simp] theorem ckAnswer_memOk (arg : Nat) (resp : Response) (s : State) (h : s.mem.wf = true) : (ckAnswer arg resp s).mem.wf = true := by
  fun_cases ckAnswer arg resp s <;> simp +zetaDelta [h]

/-! ## Scan (R334) -/

@[simp] theorem scanSlot_mem (j : Nat) (b : List Byte) (s : State) : (scanSlot j b s).mem = s.mem := by
  fun_cases scanSlot j b s <;> simp +zetaDelta

/-! ## Restore (R335) -/

@[simp] theorem restoreSts_mem (code : Nat) (s : State) : (restoreSts code s).mem = s.mem := by simp [restoreSts]

@[simp] theorem restored_mem (s : State) : (restored s).mem = s.mem := by simp [restored]

@[simp] theorem ckptLoad_memOk (f : Nat) (slot shadow : List Byte) (s : State) (h : s.mem.wf = true) :
    (ckptLoad f slot shadow s).mem.wf = true := by
  unfold ckptLoad
  extract_lets j l step mem good s1 s2 s3 c s4 s5 s6 t1 t2
  clear_value mem
  have h1 : s1.mem.wf = true := foldl_memOk h fun t y ht => by simp [ht]
  have h2 : s2.mem.wf = true := by
    unfold s2
    split <;> simp [h1]
  have h4 : s4.mem.wf = true := by simp [s4, s3, h2]
  have h5 : s5.mem.wf = true := foldl_memOk h4 fun t p ht => by split <;> simp [ht]
  have h6 : s6.mem.wf = true := foldl_memOk h5 fun t i ht => by simp [ht]
  have g1 : t1.mem.wf = true := foldl_memOk h fun t d ht => by simp [ht]
  have g2 : t2.mem.wf = true := foldl_memOk g1 fun t n ht => by split <;> simp [ht]
  split
  · exact h
  · split
    · simp [h]
    · split
      · simp [h]
      · split
        · rw [restored_mem, restoreSts_mem]
          exact h6
        · simp [g2]

/-! ## Adoption (R331) -/

@[simp] theorem adopt_memOk (step : Nat) (answer : List Byte) (s : State) (h : s.mem.wf = true) : (adopt step answer s).mem.wf = true := by
  unfold adopt
  split <;> simp [h]

/-! ## Promotion (R319) -/

@[simp] theorem promote_memOk (k : Nat) (answer : List Byte) (s : State) (h : s.mem.wf = true) : (promote k answer s).mem.wf = true := by
  unfold promote
  extract_lets slot f mine frozen dirty c s1 s2 find s3 s4
  have h2 : s2.mem.wf = true := by simp [s2, s1, h]
  have h3 : s3.mem.wf = true := foldl_memOk h2 fun t p ht => by split <;> simp [ht]
  have h4 : s4.mem.wf = true := by simp [s4, h3]
  split
  · simp [h]
  · split <;> simp [h4]

/-! ## Answers -/

@[simp] theorem copyAnswer_mem (id : Nat) (resp : Response) (s : State) : (copyAnswer id resp s).mem = s.mem := by
  fun_cases copyAnswer id resp s <;> simp +zetaDelta

@[simp] theorem answer_memOk (src : ReqSrc) (tag : Nat) (resp : Response) (s : State) (h : s.mem.wf = true) :
    (answer src tag resp s).mem.wf = true := by
  fun_cases answer src tag resp s <;> simp +zetaDelta [h]

@[simp] theorem failReqs_memOk (t : OutReq → Bool) (code : Nat) (s : State) (h : s.mem.wf = true) : (failReqs t code s).mem.wf = true := by
  unfold failReqs
  extract_lets l
  exact foldl_memOk (foldl_memOk h fun t r ht => by simp [ht]) fun t r ht => by simp [ht]

/-! ## Control records (R257) -/

@[simp] theorem sayGoodbye_mem (reason : Nat) (s : State) : (sayGoodbye reason s).mem = s.mem := by
  unfold sayGoodbye
  exact foldl_keeps State.mem (fun t k => foldl_keeps State.mem (fun u n => by simp) _ _) _ _

@[simp] theorem heartbeatSend_mem (s : State) : (heartbeatSend s).mem = s.mem := by
  unfold heartbeatSend
  simp [foldl_mem, ite_mem]

/-! ## Peer loss (R258) -/

@[simp] theorem rolesLost_mem (node : Nat) (s : State) : (rolesLost node s).mem = s.mem := by
  unfold rolesLost
  dsimp only
  repeat' split
  all_goals simp

@[simp] theorem peerLost_memOk (node reason : Nat) (s : State) (h : s.mem.wf = true) : (peerLost node reason s).mem.wf = true := by
  unfold peerLost
  extract_lets member r s1 s2 s3 s4 s5
  have h1 : s1.mem.wf = true := h
  have h3 : s3.mem.wf = true := by simp [s3, s2, h1]
  have h4 : s4.mem.wf = true := by simp [s4, h3]
  have h5 : s5.mem.wf = true := ite_memOk (by simp [h4]) h4
  split
  · exact h
  · split
    · exact h3
    · split <;> simp [h5]

/-! ## Job start (R277) -/

@[simp] theorem jobFields_mem (v : W64) (s : State) : (jobFields v s).mem = s.mem := by simp [jobFields]

@[simp] theorem jobBegin_mem (s : State) : (jobBegin s).mem = s.mem := by simp [jobBegin]

@[simp] theorem jobWord_mem (a : Nat) (v : W64) (s : State) : (jobWord a v s).mem = s.mem := by
  unfold jobWord
  split <;> simp

@[simp] theorem jobGo_mem (v : W64) (s : State) : (jobGo v s).mem = s.mem := by
  fun_cases jobGo v s <;> simp +zetaDelta

/-! ## Job join (R281) -/

@[simp] theorem joinRefused_mem (node code : Nat) (s : State) : (joinRefused node code s).mem = s.mem := by simp [joinRefused]

@[simp] theorem jobReady_mem (s : State) : (jobReady s).mem = s.mem := by simp [jobReady]

@[simp] theorem jobJoin_mem (p : JoinRec) (s : State) : (jobJoin p s).mem = s.mem := by
  fun_cases jobJoin p s <;> simp +zetaDelta

/-! ## Members (R205) -/

@[simp] theorem memberRequest_mem (node : Nat) (leave : Bool) (s : State) : (memberRequest node leave s).mem = s.mem := by
  fun_cases memberRequest node leave s <;> simp +zetaDelta

/-! ## Job end (R431) -/

@[simp] theorem jobStops_mem (s : State) : (jobStops s).mem = s.mem := by simp [jobStops]

@[simp] theorem jobGone_mem (s : State) : (jobGone s).mem = s.mem := by simp [jobGone]

@[simp] theorem jobCtl_mem (v : W64) (s : State) : (jobCtl v s).mem = s.mem := by
  fun_cases jobCtl v s <;> simp +zetaDelta

/-! ## Sites -/

@[simp] theorem State.setSite_mem (s : State) (p st core : Nat) :
    (State.setSite s p st core).mem = s.mem := by simp [State.setSite]

@[simp] theorem coreMemLost_memOk (n : Nat) (s : State) (h : s.mem.wf = true) : (coreMemLost n s).mem.wf = true := by simp [coreMemLost, h]

@[simp] theorem coreRegsLost_mem (n : Nat) (s : State) : (coreRegsLost n s).mem = s.mem := by simp [coreRegsLost]

@[simp] theorem sitePut_mem (p st : Nat) (s : State) : (sitePut p st s).mem = s.mem := by simp [sitePut]

@[simp] theorem siteOff_memOk (p : Nat) (s : State) (h : s.mem.wf = true) : (siteOff p s).mem.wf = true := by
  unfold siteOff
  dsimp only
  repeat' split
  all_goals simp [h]

/-! ## Failure (R27, R28) -/

@[simp] theorem declareFail_memOk (n : Nat) (s : State) (h : s.mem.wf = true) : (declareFail n s).mem.wf = true := by simp [declareFail, h]

@[simp] theorem resumeAll_memOk (s : State) (h : s.mem.wf = true) : (resumeAll s).mem.wf = true := by
  have hr : (resumeCores s).mem.wf = true := by simp [h]
  exact State.redGo_memOk _ (foldl_memOk hr fun t p ht => by simp [ht])

@[simp] theorem failSites_memOk (ps : List Nat) (s : State) (h : s.mem.wf = true) : (failSites ps s).mem.wf = true := by
  unfold failSites
  exact foldl_memOk h fun t x ht => by split <;> simp [ht]

@[simp] theorem heartbeatSample_memOk (f : Nat) (missed : BitVec 16) (s : State) (h : s.mem.wf = true) :
    (heartbeatSample f missed s).mem.wf = true := by
  unfold heartbeatSample
  split
  · exact h
  · refine foldl_memOk h fun t j ht => ?_
    extract_lets p k t1
    split
    · exact ht
    · split
      · split
        · exact failSites_memOk _ _ ht
        · exact ht
      · exact ht

@[simp] theorem sramScrub_memOk (n : Nat) (err : EccResult) (s : State) (h : s.mem.wf = true) : (sramScrub n err s).mem.wf = true := by
  fun_cases sramScrub n err s <;> simp +zetaDelta [h]

/-! ## Spares and the map build (R24-R26) -/

@[simp] theorem countSpares_mem (s : State) : (countSpares s).mem = s.mem := by simp [countSpares]

@[simp] theorem spareLow_mem (s : State) : (spareLow s).mem = s.mem := by
  unfold spareLow
  split <;> simp

@[simp] theorem mapRecord_mem (s : State) : (mapRecord s).mem = s.mem := by simp [mapRecord]

/-! ## Remap (R28-R30) -/

@[simp] theorem coreRegsBack_mem (n : Nat) (s : State) : (coreRegsBack n s).mem = s.mem := by
  unfold coreRegsBack
  exact foldl_keeps State.mem (fun t x => by simp) _ _

@[simp] theorem imagesBack_memOk (n : Nat) (s : State) (h : s.mem.wf = true) : (imagesBack n s).mem.wf = true := by
  unfold imagesBack
  exact foldl_memOk h fun t x ht => by simp [ht]

@[simp] theorem spareStart_memOk (n p : Nat) (s : State) (h : s.mem.wf = true) : (spareStart n p s).mem.wf = true := by
  unfold spareStart
  dsimp only
  refine imagesBack_memOk _ _ ?_
  rw [coreRegsBack_mem, sitePut_mem, State.setFld_mem, State.setSite_mem]
  exact h

theorem remapOne_zero (fails : List Nat) (n : Nat) (s : State) : remapOne fails n 0 s = (s, false) := by
  delta remapOne
  rfl

@[simp] theorem remapOne_memOk (fails : List Nat) (n fuel : Nat) (s : State) (h : s.mem.wf = true) :
    (remapOne fails n fuel s).1.mem.wf = true := by
  induction fuel generalizing s with
  | zero =>
    rw [remapOne_zero]
    exact h
  | succ fuel ih =>
    rw [remapOne_succ]
    split
    · exact h
    · split
      · exact ih _ (by rw [State.setSite_mem]; exact h)
      · exact spareStart_memOk _ _ _ h

@[simp] theorem degrade_memOk (s : State) (h : s.mem.wf = true) : (degrade s).mem.wf = true := by simp [degrade, h]

@[simp] theorem retireCore_memOk (s : State) (n : Nat) (h : s.mem.wf = true) : (retireCore s n).mem.wf = true := by simp [retireCore, h]

@[simp] theorem remapAll_memOk (fails ns : List Nat) (s : State) (h : s.mem.wf = true) : (remapAll fails ns s).1.mem.wf = true := by
  unfold remapAll
  refine foldl_fst_memOk h fun q n hq => ?_
  simp [hq]

@[simp] theorem coreRemap_memOk (fails : List Nat) (s : State) (h : s.mem.wf = true) : (coreRemap fails s).mem.wf = true := by
  unfold coreRemap
  split
  · exact h
  · extract_lets batch s1 r t s2 s3 s4
    have h1 : s1.mem.wf = true := foldl_memOk h fun t n ht => by simp [ht]
    have hr : r.1.mem.wf = true := remapAll_memOk _ _ _ h1
    clear_value r
    have h2 : s2.mem.wf = true := by
      unfold s2
      rw [countSpares_mem]
      exact hr
    have h3 : s3.mem.wf = true := ite_memOk (restoreMember_memOk _ h2) h2
    have h4 : s4.mem.wf = true := by simp [s4, h3]
    split
    · exact h1
    · split
      · simp [h2]
      · split <;> simp [h4]

/-! ## States (Table 11-2) -/

@[simp] theorem State.setLink_mem (s : State) (k st : Nat) : (State.setLink s k st).mem = s.mem := by
  unfold State.setLink
  split <;> simp

@[simp] theorem linkTrain_mem (k : Nat) (s : State) : (linkTrain k s).mem = s.mem := by
  unfold linkTrain
  split
  · exact State.setLink_mem ..
  · split <;> rw [State.setFld_mem, State.setFld_mem, State.setLink_mem]

/-! ## Going down (R256) -/

@[simp] theorem linkDown_memOk (k cause : Nat) (s : State) (h : s.mem.wf = true) :
    (linkDown k cause s).mem.wf = true := by simp [linkDown, h]

@[simp] theorem linkFault_memOk (k cause : Nat) (s : State) (h : s.mem.wf = true) : (linkFault k cause s).mem.wf = true := by
  unfold linkFault
  split <;> simp [h]

@[simp] theorem qpError_memOk (k : Nat) (t : Nat → Bool) (s : State) (h : s.mem.wf = true) : (qpError k t s).mem.wf = true := by
  unfold qpError
  extract_lets s1
  have h1 : s1.mem.wf = true := foldl_memOk h fun t i ht => by split <;> simp [ht]
  simp [h1]

@[simp] theorem portDown_memOk (k port : Nat) (s : State) (h : s.mem.wf = true) :
    (portDown k port s).mem.wf = true := by simp [portDown, h]

@[simp] theorem linkOff_memOk (k : Nat) (s : State) (h : s.mem.wf = true) : (linkOff k s).mem.wf = true := by
  unfold linkOff
  extract_lets s1 s2
  have h2 : s2.mem.wf = true := foldl_memOk (linkDown_memOk _ _ _ h) fun t p ht => ite_memOk (portDown_memOk _ _ _ ht) ht
  rw [State.setFld_mem, State.setFld_mem, State.setLink_mem]
  exact h2

@[simp] theorem laneLoss_memOk (k lane : Nat) (s : State) (h : s.mem.wf = true) : (laneLoss k lane s).mem.wf = true := by
  fun_cases laneLoss k lane s <;> simp +zetaDelta [h]

/-! ## Training (R233, R235) -/

@[simp] theorem trainFail_mem (k last : Nat) (s : State) : (trainFail k last s).mem = s.mem := by simp [trainFail]

@[simp] theorem linkComesUp_mem (k : Nat) (credits : List Nat) (s : State) : (linkComesUp k credits s).mem = s.mem := by
  fun_cases linkComesUp k credits s <;> simp +zetaDelta

@[simp] theorem trainStage_mem (k : Nat) (up : Bool) (credits : List Nat) (s : State) : (trainStage k up credits s).mem = s.mem := by
  fun_cases trainStage k up credits s <;> simp +zetaDelta

@[simp] theorem trainTimeout_mem (k : Nat) (s : State) : (trainTimeout k s).mem = s.mem := by
  unfold trainTimeout
  simp [ite_mem]

@[simp] theorem portTrained_mem (k port : Nat) (ok : Bool) (s : State) : (portTrained k port ok s).mem = s.mem := by
  fun_cases portTrained k port ok s <;> simp +zetaDelta

@[simp] theorem linkRetrain_memOk (k : Nat) (s : State) (h : s.mem.wf = true) : (linkRetrain k s).mem.wf = true := by
  unfold linkRetrain
  split
  · exact h
  · extract_lets s1 s2
    have h2 : s2.mem.wf = true := foldl_memOk (linkDown_memOk _ _ _ h) fun t p ht => ite_memOk (portDown_memOk _ _ _ ht) ht
    rw [linkTrain_mem, State.setFld_mem, State.setLnk_mem]
    exact h2

/-! ## Drain-and-switch (R256) -/

@[simp] theorem lgrpAdmit_mem (s : State) : (lgrpAdmit s).mem = s.mem := by simp [lgrpAdmit]

theorem reissue_memOk (s : State) (q : Nat × Nat × Nat × Nat) (h : s.mem.wf = true) : (reissue s q).mem.wf = true := by
  unfold reissue
  extract_lets n src
  split
  · split
    · split
      · split <;> simp [h]
      · exact h
    · exact h
  · split
    · split
      · split <;> simp [h]
      · exact h
    · exact h

@[simp] theorem rimSend_memOk (s : State) (q : NetReq) (h : s.mem.wf = true) : (rimSend s q).mem.wf = true := by
  have hq : (s.sendEng q).1.mem.wf = true := by simp [h]
  unfold rimSend
  split
  · next he => exact memOk_of_fst hq he
  · next he =>
    have h1 := memOk_of_fst hq he
    simp [h1]

@[simp] theorem drainSwitch_memOk (s : State) (h : s.mem.wf = true) : (drainSwitch s).mem.wf = true := by
  unfold drainSwitch
  extract_lets busy rim r s1 s2
  have h1 : (rim.foldl rimSend s1).mem.wf = true := foldl_memOk h rimSend_memOk
  have h2 : s2.mem.wf = true := foldl_memOk h1 reissue_memOk
  split
  · exact h
  · exact foldl_memOk h2 fun t p ht => by simp [ht]

@[simp] theorem nullFlit_mem (k : Nat) (s : State) : (nullFlit k s).mem = s.mem := by
  fun_cases nullFlit k s <;> simp +zetaDelta

/-! ## Site power states (R339-R341, spec/16 R368) -/

@[simp] theorem siteToOff_memOk (p : Nat) (s : State) (h : s.mem.wf = true) : (siteToOff p s).mem.wf = true := by simp [siteToOff, h]

@[simp] theorem siteToRet_mem (p : Nat) (s : State) : (siteToRet p s).mem = s.mem := by
  fun_cases siteToRet p s <;> simp +zetaDelta

@[simp] theorem siteToIdle_mem (p : Nat) (s : State) : (siteToIdle p s).mem = s.mem := by
  fun_cases siteToIdle p s <;> simp +zetaDelta

@[simp] theorem siteCtl_memOk (p st : Nat) (s : State) (h : s.mem.wf = true) : (siteCtl p st s).mem.wf = true := by
  unfold siteCtl
  split <;> simp [h]

@[simp] theorem heldGo_mem (n : Nat) (s : State) : (heldGo n s).mem = s.mem := by
  unfold heldGo
  exact foldl_keeps State.mem (fun t x => by simp) _ _

@[simp] theorem transitionDone_memOk (p : Nat) (s : State) (h : s.mem.wf = true) : (transitionDone p s).mem.wf = true := by
  fun_cases transitionDone p s <;> simp +zetaDelta [h]

@[simp] theorem idleTimeout_memOk (p : Nat) (s : State) (h : s.mem.wf = true) : (idleTimeout p s).mem.wf = true := by simp [idleTimeout, h]

/-! ## Telemetry (R343) -/

@[simp] theorem telFrame_mem (f : FrameIn) (s : State) : (telFrame f s).mem = s.mem := by
  fun_cases telFrame f s <;> simp +zetaDelta

/-! ## The Snowplough clamp (R349, R350, spec/17 R385) -/

@[simp] theorem engage_mem (t : Nat) (s : State) : (engage t s).mem = s.mem := by
  fun_cases engage t s <;> simp +zetaDelta

@[simp] theorem untrig_mem (ts : List Nat) (s : State) : (untrig ts s).mem = s.mem := by simp [untrig]

@[simp] theorem capWrite_mem (v : W64) (s : State) : (capWrite v s).mem = s.mem := by
  fun_cases capWrite v s <;> simp +zetaDelta

@[simp] theorem capLease_mem (s : State) : (capLease s).mem = s.mem := by
  unfold capLease
  split <;> simp

@[simp] theorem brakeOn_mem (s : State) : (brakeOn s).mem = s.mem := by
  fun_cases brakeOn s <;> simp +zetaDelta

@[simp] theorem inputLow_mem (s : State) : (inputLow s).mem = s.mem := by
  fun_cases inputLow s <;> simp +zetaDelta

/-! ## HOLD (R351-R354) -/

@[simp] theorem enterHold_memOk (cause : Nat) (s : State) (h : s.mem.wf = true) : (enterHold cause s).mem.wf = true := by
  unfold enterHold
  simp +contextual [foldl_memOk, h]

@[simp] theorem exitHold_memOk (s : State) (h : s.mem.wf = true) : (exitHold s).mem.wf = true := by
  unfold exitHold
  extract_lets waits r s1 s2 s3
  have h1 : s1.mem.wf = true := by simp [s1, h]
  have h2 : s2.mem.wf = true := foldl_memOk (by simp [h1]) fun t p ht => by simp [ht]
  have h3 : s3.mem.wf = true := ite_memOk (by simp [h2]) (by simp [h2])
  simp [h3]

@[simp] theorem capUnmet_mem (eff : Nat) (s : State) : (capUnmet eff s).mem = s.mem := by
  fun_cases capUnmet eff s <;> simp +zetaDelta

@[simp] theorem holdStep_memOk (eff : Nat) (s : State) (h : s.mem.wf = true) : (holdStep eff s).mem.wf = true := by
  fun_cases holdStep eff s <;> simp +zetaDelta [h]

/-! ## The 1 ms loop (R346, R350, R358, R360) -/

@[simp] theorem thermalCaps_mem (s : State) : (thermalCaps s).mem = s.mem := by
  unfold thermalCaps
  dsimp only

@[simp] theorem coolantAlarms_mem (flowDeci : Nat) (s : State) : (coolantAlarms flowDeci s).mem = s.mem := by
  unfold coolantAlarms
  dsimp only
  repeat' split
  all_goals simp

@[simp] theorem clampStep_mem (g eff : Nat) (s : State) : (clampStep g eff s).mem = s.mem := by
  fun_cases clampStep g eff s <;> simp +zetaDelta

@[simp] theorem powerLoop_memOk (flowDeci : Nat) (s : State) (h : s.mem.wf = true) :
    (powerLoop flowDeci s).mem.wf = true := by simp [powerLoop, h]

/-! ## Converters and input (R357, R358, R362, spec/20 R446) -/

theorem converterState_memOk {t : State} (p : Power) (h : t.mem.wf = true) : ({ t with pwr := p, trans := [] } : State).mem.wf = true := h

theorem sitesOff_memOk (s : State) (h : s.mem.wf = true) :
    ((List.range 1024).foldl (fun (st : State) p => if st.sitePower p = 0 then st else siteOff p st) s).mem.wf = true := by
  refine foldl_memOk h fun t p ht => ?_
  split
  · exact ht
  · simp [ht]

@[simp] theorem convertersOff_memOk (s : State) (h : s.mem.wf = true) : (convertersOff s).mem.wf = true := by
  unfold convertersOff
  exact converterState_memOk _ (sitesOff_memOk s h)

@[simp] theorem rimOff_memOk (s : State) (h : s.mem.wf = true) : (rimOff s).mem.wf = true := by
  unfold rimOff
  extract_lets s1 s2
  have h1 : s1.mem.wf = true := foldl_memOk h fun t k ht => linkOff_memOk k t ht
  have h2 : s2.mem.wf = true := foldl_memOk h1 fun t m ht => by simp [ht]
  exact State.undefAt_memOk _ _ _ h2

@[simp] theorem inputFail_memOk (s : State) (h : s.mem.wf = true) : (inputFail s).mem.wf = true := by
  unfold inputFail
  dsimp only
  repeat' split
  all_goals simp [h]

@[simp] theorem inputReturn_mem (milliVolts : Nat) (s : State) : (inputReturn milliVolts s).mem = s.mem := by
  unfold inputReturn
  dsimp only
  repeat' split
  all_goals simp

/-! ## Faults of the power chain (R356, R357) -/

@[simp] theorem retireSites_mem (ps : List Nat) (s : State) : (retireSites ps s).mem = s.mem := by
  unfold retireSites
  simp [foldl_mem, ite_mem]

@[simp] theorem siteDark_memOk (p kind : Nat) (s : State) (h : s.mem.wf = true) :
    (siteDark p kind s).mem.wf = true := by simp [siteDark, h]

@[simp] theorem phaseLoss_memOk (p : Nat) (s : State) (h : s.mem.wf = true) : (phaseLoss p s).mem.wf = true := by simp [phaseLoss, h]

@[simp] theorem fieldDark_memOk (f : Nat) (s : State) (h : s.mem.wf = true) : (fieldDark f s).mem.wf = true := by
  unfold fieldDark
  extract_lets ps s1
  have hs : (ps.foldl (fun st p => siteOff p st) s).mem.wf = true := foldl_memOk h fun t p ht => by simp [ht]
  have h1 : s1.mem.wf = true := by simp [s1, hs]
  simp [h1]

theorem pwrState_memOk {t : State} (p : Power) (h : t.mem.wf = true) : ({ t with pwr := p } : State).mem.wf = true := h

@[simp] theorem rimFault_memOk (seg : Nat) (s : State) (h : s.mem.wf = true) : (rimFault seg s).mem.wf = true := by
  unfold rimFault
  have h1 : ((linksOf seg).foldl (fun st k => linkOff k st) s).mem.wf = true := foldl_memOk h fun t k ht => linkOff_memOk k t ht
  have h2 := foldl_memOk (f := fun (st : State) m => st.setFld (F.RIM_STACK_STS_state m) 2) (l := stacksOf seg) h1 fun t m ht => by simp [ht]
  exact degrade_memOk _ (pwrState_memOk _ (State.undefAt_memOk _ _ _ h2))

theorem halfState_memOk {t : State} (p : Power) (f : Fab) (h : t.mem.wf = true) : ({ t with pwr := p, fab := f } : State).mem.wf = true := h

@[simp] theorem halfFault_memOk (h_ : Nat) (s : State) (h : s.mem.wf = true) : (halfFault h_ s).mem.wf = true := by
  unfold halfFault
  extract_lets s1 s2 s3 s4 here
  have h1 : s1.mem.wf = true := foldl_memOk h fun t p ht => by
    split
    · exact ht
    · simp [ht]
  have h2 : s2.mem.wf = true := foldl_memOk h1 fun t k ht => linkOff_memOk k t ht
  have h3 : s3.mem.wf = true := foldl_memOk h2 fun t m ht => by simp [ht]
  have h4 : s4.mem.wf = true := State.undefAt_memOk _ _ _ h3
  exact degrade_memOk _ (halfState_memOk _ _ h4)

/-! ## The Crevasse detector (R355) -/

@[simp] theorem crevWindow_memOk (e : Nat) (m : CrevIn) (s : State) (h : s.mem.wf = true) : (crevWindow e m s).mem.wf = true := by
  unfold crevWindow
  split
  · exact h
  · split
    · exact h
    · next c _ _ =>
      extract_lets d p n13 n20 put c1 q t s1
      have hput (x : Crev) (u : State) (hu : u.mem.wf = true) : (put x u).mem.wf = true := hu
      clear_value put
      have hflags (u : State) (l : List Nat) (hu : u.mem.wf = true) :
          (l.foldl (fun st x => st.setFlag (F.PWR_SITE_STS_derated x) true) u).mem.wf = true :=
        foldl_memOk hu fun v x hv => by simp [hv]
      have h1 : s1.mem.wf = true := ite_memOk (by simp [t, hflags, hput, h]) (hput _ _ h)
      clear_value s1
      split
      · split
        · exact hflags _ _ (hput _ _ h1)
        · simp [h1]
      · exact h1

@[simp] theorem calRecord_mem (s : State) : (calRecord s).mem = s.mem := by simp [calRecord]

theorem calState_mem (t : State) (p : Power) (l : Lodge) : ({ t with pwr := p, lodge := l } : State).mem = t.mem := rfl

@[simp] theorem crevBaseline_mem (base : List (Nat × Nat)) (s : State) : (crevBaseline base s).mem = s.mem := by
  unfold crevBaseline
  extract_lets crev
  exact (calRecord_mem _).trans ((foldl_keeps State.mem (fun t p => State.setFlag_mem ..) _ _).trans (calState_mem ..))

@[simp] theorem crevRecal_mem (v : W64) (base : List (Nat × Nat)) (s : State) : (crevRecal v base s).mem = s.mem := by
  unfold crevRecal
  split <;> simp

/-! ## Temperature (R358) -/

@[simp] theorem thermalTrip_memOk (p : Nat) (s : State) (h : s.mem.wf = true) : (thermalTrip p s).mem.wf = true := by
  fun_cases thermalTrip p s <;> simp +zetaDelta [h]

@[simp] theorem thermalSite_memOk (p : Nat) (t : ℤ) (s0 : State) (h : s0.mem.wf = true) : (thermalSite p t s0).mem.wf = true := by
  unfold thermalSite
  dsimp only
  repeat' split
  all_goals simp [h]

@[simp] theorem thermalSample_memOk (f : Nat) (temps : List (BitVec 16)) (s : State) (h : s.mem.wf = true) :
    (thermalSample f temps s).mem.wf = true := by
  unfold thermalSample
  exact foldl_memOk h fun t x ht => by split <;> simp [ht]

@[simp] theorem serviceClear_mem (v : W64) (s : State) : (serviceClear v s).mem = s.mem := by
  unfold serviceClear
  dsimp only
  repeat' split
  all_goals simp

/-! ## Field references (R371) -/

@[simp] theorem refFail_mem (f : Nat) (neighbour : Option Nat) (s : State) : (refFail f neighbour s).mem = s.mem := by
  fun_cases refFail f neighbour s <;> simp +zetaDelta

/-! ## Device time (R372-R375) -/

@[simp] theorem State.addTime_mem (s : State) (n : Nat) : (State.addTime s n).mem = s.mem := by simp [State.addTime]

@[simp] theorem copyTime_mem (s : State) : (copyTime s).mem = s.mem := by simp [copyTime]

@[simp] theorem timeCorrection_mem (elapsed : Nat) (s : State) : (timeCorrection elapsed s).mem = s.mem := by simp [timeCorrection]

@[simp] theorem State.setPtp_mem (s : State) (st err : Nat) : (State.setPtp s st err).mem = s.mem := by simp [State.setPtp]

@[simp] theorem ptpSync_mem (m : PtpMsg) (s : State) : (ptpSync m s).mem = s.mem := by
  unfold ptpSync
  dsimp only
  repeat' split
  all_goals simp

@[simp] theorem syncLoss_mem (secs : Nat) (s : State) : (syncLoss secs s).mem = s.mem := by
  fun_cases syncLoss secs s <;> simp +zetaDelta

@[simp] theorem holdoverEnd_mem (secs : Nat) (s : State) : (holdoverEnd secs s).mem = s.mem := by
  unfold holdoverEnd
  split <;> simp

@[simp] theorem timeSet_mem (v : W64) (s : State) : (timeSet v s).mem = s.mem := by
  fun_cases timeSet v s <;> simp +zetaDelta

/-! ## Wear (R377-R381) -/

@[simp] theorem wearLog_mem (p kind : Nat) (s : State) : (wearLog p kind s).mem = s.mem := by simp [wearLog]

@[simp] theorem siteEnd_mem (p : Nat) (s : State) : (siteEnd p s).mem = s.mem := by
  unfold siteEnd
  split <;> simp

@[simp] theorem wearEvent_mem (p kind value : Nat) (s : State) :
    (wearEvent p kind value s).mem = s.mem := by simp [wearEvent]

@[simp] theorem slackSample_mem (p : Nat) (slack : BitVec 16) (temp : BitVec 16) (s : State) :
    (slackSample p slack temp s).mem = s.mem := by
  fun_cases slackSample p slack temp s <;> simp +zetaDelta

@[simp] theorem vminMeasure_mem (p vmin temp : Nat) (s : State) : (vminMeasure p vmin temp s).mem = s.mem := by
  fun_cases vminMeasure p vmin temp s <;> simp +zetaDelta

@[simp] theorem planPoint_mem (p : Nat) (q : PlanIn) (now s : State) (k : Nat) : (planPoint p q now s k).mem = s.mem := by
  simp [planPoint]

@[simp] theorem forecast_mem (s : State) : (forecast s).mem = s.mem := by
  unfold forecast
  dsimp only
  split <;> simp

theorem wearState_mem (t : State) (w : Wear) : ({ t with wear := w } : State).mem = t.mem := rfl

@[simp] theorem replan_mem (p : Nat) (q : PlanIn) (s : State) : (replan p q s).mem = s.mem := by
  unfold replan
  dsimp only
  rw [forecast_mem, wearLog_mem, siteEnd_mem, wearState_mem]
  exact foldl_keeps State.mem (fun t k => planPoint_mem p q s t k) _ _

/-! ## Records (R394, R395, Tables 17-6, 17-7) -/

@[simp] theorem recordFails_mem (type : Nat) (s : State) : (recordFails type s).mem = s.mem := by
  unfold recordFails
  split <;> simp

@[simp] theorem recordUse_mem (type : Nat) (c : RecCopy) (s : State) : (recordUse type c s).mem = s.mem := by
  unfold recordUse
  split <;> simp

@[simp] theorem recordBoot_mem (s : State) (type : Nat) : (recordBoot s type).mem = s.mem := by
  unfold recordBoot
  split <;> simp

@[simp] theorem recordSpoil_mem (s : State) (p : Nat × Nat × Option Nat) : (recordSpoil s p).mem = s.mem := by
  fun_cases recordSpoil s p <;> simp +zetaDelta

/-! ## Keys at rest (R396-R398) -/

@[simp] theorem keysBoot_mem (derived : Bool) (s : State) : (keysBoot derived s).mem = s.mem := by simp [keysBoot]

/-! ## The boot chain (R390-R393) -/

@[simp] theorem measReset_mem (i : Nat) (s : State) : (measReset i s).mem = s.mem := by simp [measReset]

@[simp] theorem measure_mem (i : Nat) (digest : List Byte) (s : State) : (measure i digest s).mem = s.mem := by simp [measure]

@[simp] theorem fwStaged_mem (k : Nat) (s : State) : (fwStaged k s).mem = s.mem := by simp [fwStaged]

@[simp] theorem fwMeasure_mem (c : Nat) (sts : List Nat) (s : State) : (fwMeasure c sts s).mem = s.mem := by
  unfold fwMeasure
  split <;> simp [foldl_mem]

@[simp] theorem fwLoad_mem (b : BootIn) (down : Option Nat) (c : Nat) (sts : List Nat) (s : State) :
    (fwLoad b down c sts s).1.mem = s.mem := by
  unfold fwLoad
  dsimp only
  repeat' split
  all_goals simp

@[simp] theorem fwActivate_mem (c : Nat) (s : State) : (fwActivate c s).mem = s.mem := by
  unfold fwActivate
  split <;> simp

@[simp] theorem fwMicro_mem (c : Nat) (s : State) : (fwMicro c s).mem = s.mem := by simp [fwMicro]

@[simp] theorem fwDowngrade_mem (down : Option Nat) (c : Nat) (s : State) : (fwDowngrade down c s).mem = s.mem := by
  fun_cases fwDowngrade down c s <;> simp +zetaDelta

@[simp] theorem fwBoot_mem (full : Bool) (b : BootIn) (s : State) : (fwBoot full b s).mem = s.mem := by
  fun_cases fwBoot full b s <;> simp +zetaDelta

@[simp] theorem recsBoot_mem (b : BootIn) (s : State) : (recsBoot b s).mem = s.mem := by
  unfold recsBoot
  extract_lets s1
  have h0 : (b.recBad.foldl recordSpoil s).mem = s.mem := foldl_keeps State.mem recordSpoil_mem _ _
  have h1 : s1.mem = s.mem := (foldl_keeps State.mem recordBoot_mem _ _).trans h0
  exact (foldl_keeps State.mem (fun t p => by split <;> simp) _ _).trans h1

@[simp] theorem bootChain_mem (full : Bool) (b : BootIn) (s : State) : (bootChain full b s).mem = s.mem := by
  unfold bootChain
  dsimp only
  repeat' split
  all_goals simp

/-! ## Presence (R400-R403) -/

@[simp] theorem presDiscard_mem (s : State) : (presDiscard s).mem = s.mem := by
  unfold presDiscard
  split <;> simp

@[simp] theorem presEffect_mem (c : Staged) (s : State) : (presEffect c s).mem = s.mem := by
  unfold presEffect
  dsimp only
  repeat' split
  all_goals simp

@[simp] theorem presConfirm_mem (s : State) : (presConfirm s).mem = s.mem := by
  unfold presConfirm
  split <;> simp

@[simp] theorem jumper_mem (s : State) : (jumper s).mem = s.mem := by
  unfold jumper
  split <;> simp

@[simp] theorem presTimeout_mem (s : State) : (presTimeout s).mem = s.mem := by
  unfold presTimeout
  split <;> simp

@[simp] theorem fwCommit_mem (v : W64) (s : State) : (fwCommit v s).mem = s.mem := by
  fun_cases fwCommit v s <;> simp +zetaDelta

/-! ## Restart (R384, R385) -/

@[simp] theorem lodgeRestart_mem (cause : Nat) (s : State) : (lodgeRestart cause s).mem = s.mem := by
  unfold lodgeRestart
  split <;> simp

@[simp] theorem lodgeBack_mem (s : State) : (lodgeBack s).mem = s.mem := by
  unfold lodgeBack
  extract_lets k s1
  refine (State.ringReports_mem _ _).trans (List.foldrRecOn _ _ (motive := fun t : State => t.mem = s.mem) rfl fun t ht p _ => ?_)
  simp [ht]

@[simp] theorem lodgeDone_mem (b : BootIn) (s : State) : (lodgeDone b s).mem = s.mem := by
  fun_cases lodgeDone b s <;> simp +zetaDelta

@[simp] theorem loopWatchdog_mem (s : State) : (loopWatchdog s).mem = s.mem := by
  fun_cases loopWatchdog s <;> simp +zetaDelta

/-! ## Sessions and pushed events (R386, R406) -/

@[simp] theorem mgmtConnect_mem (k : Nat) (c : ClientIn) (s : State) : (mgmtConnect k c s).mem = s.mem := by
  fun_cases mgmtConnect k c s <;> simp +zetaDelta

@[simp] theorem evtPush_mem (k : Nat) (s : State) : (evtPush k s).mem = s.mem := by
  obtain ⟨events, hE⟩ : ∃ f, f = evtFrom := ⟨_, rfl⟩
  unfold evtPush
  rw [← hE]
  clear hE
  split
  · split
    · rfl
    · dsimp only
      split
      · rfl
      · simp
  · rfl

/-! ## What a start keeps (Table 18-3, spec/19 R427) -/

@[simp] theorem startReset_memOk (cold : Bool) (s : State) : (startReset cold s).mem.wf = true := by
  unfold startReset
  extract_lets s0 w l r b
  have hb : b.mem.wf = true := rfl
  clear_value b
  have hm : ((List.range 16).foldl (fun st m =>
      if s0.flag (F.RIM_STACK_STS_stored m) then st.setFlag (F.RIM_STACK_STS_stored m) true else st) b).mem.wf = true :=
    foldl_memOk hb fun t m ht => by split <;> simp [ht]
  simp [hm]

@[simp] theorem stageEvent_mem (k ms : Nat) (s : State) : (stageEvent k ms s).mem = s.mem := by simp [stageEvent]

@[simp] theorem stageEnd_mem (k ms : Nat) (s : State) : (stageEnd k ms s).mem = s.mem := by simp [stageEnd]

/-! ## Insertion (R416, spec/20 R448) -/

@[simp] theorem present_memOk (s : State) (h : s.mem.wf = true) : (present s).mem.wf = true := by simp [present, h]

/-! ## The mode and the map (R411-R413, spec/02 R21-R24) -/

theorem spared_memOk {t : State} (p : Nat) (ht : t.mem.wf = true) :
    (if t.siteState p = siAssigned then t.setSite p siSpare 0 else t).mem.wf = true := by
  split
  · rw [State.setSite_mem]
    exact ht
  · exact ht

theorem assignedOff_memOk {s : State} (l : List Nat) (h : s.mem.wf = true) : (l.foldl (fun (st : State) p =>
    if (if st.siteState p = siAssigned then st.setSite p siSpare 0 else st).sitePower p = 0 then
      if st.siteState p = siAssigned then st.setSite p siSpare 0 else st
    else siteOff p (if st.siteState p = siAssigned then st.setSite p siSpare 0 else st)) s).mem.wf = true :=
  foldl_memOk h fun _ p ht => ite_memOk (spared_memOk p ht) (siteOff_memOk _ _ (spared_memOk p ht))

@[simp] theorem putMap_memOk (half : Option Nat) (good : List Nat) (s : State) (h : s.mem.wf = true) :
    (putMap half good s).mem.wf = true := by
  obtain ⟨range, hR⟩ : ∃ f, f = List.range := ⟨_, rfl⟩
  rw [putMap, ← hR]
  clear hR
  dsimp only
  rw [mapRecord_mem, countSpares_mem]
  refine foldl_memOk (assignedOff_memOk _ h) fun t q ht => ?_
  rw [sitePut_mem, State.setFld_mem, State.setSite_mem]
  exact ht

@[simp] theorem noCompute_memOk (s : State) (h : s.mem.wf = true) : (noCompute s).mem.wf = true := by
  obtain ⟨range, hR⟩ : ∃ f, f = List.range := ⟨_, rfl⟩
  rw [noCompute, ← hR]
  clear hR
  dsimp only
  rw [mapRecord_mem, countSpares_mem]
  exact assignedOff_memOk _ (by simp [h])

@[simp] theorem modeAndMap_memOk (bad : List Nat) (s : State) (h : s.mem.wf = true) : (modeAndMap bad s).mem.wf = true := by
  unfold modeAndMap
  extract_lets good half kept dead r s1 s2
  have h1 : s1.mem.wf = true := h
  have h2 : s2.mem.wf = true := by simp [s2, h1]
  exact ite_memOk (noCompute_memOk _ h1) (putMap_memOk _ _ _ h2)

@[simp] theorem selfTestSite_mem (b : BootIn) (rebuild : Bool) (s : State) (p : Nat) : (selfTestSite b rebuild s p).mem = s.mem := by
  unfold selfTestSite
  extract_lets st phases t derated
  have ht : t.mem = s.mem := by
    unfold t
    split
    · exact State.setSite_mem ..
    · rfl
  split
  · rfl
  · split
    · exact State.setSite_mem ..
    · split
      · exact ht
      · rw [State.setFlag_mem, State.setFld_mem]
        exact ht

@[simp] theorem newMap_mem (s : State) : (newMap s).mem = s.mem := by
  unfold newMap
  simp [foldl_mem, ite_mem]

theorem lodgeState_memOk {t : State} (l : Lodge) (h : t.mem.wf = true) : ({ t with lodge := l } : State).mem.wf = true := h

theorem selfTestSites_mem (b : BootIn) (rebuild : Bool) (l : List Nat) (s : State) : (l.foldl (selfTestSite b rebuild) s).mem = s.mem :=
  foldl_keeps State.mem (fun t p => selfTestSite_mem b rebuild t p) l s

@[simp] theorem selfTest_memOk (b : BootIn) (s : State) (h : s.mem.wf = true) : (selfTest b s).mem.wf = true := by
  obtain ⟨range, hR⟩ : ∃ f, f = List.range := ⟨_, rfl⟩
  rw [selfTest, ← hR]
  clear hR
  dsimp only
  simp only [ite_mem, engage_mem, ite_self, spareLow_mem, State.raiseDev_mem]
  refine modeAndMap_memOk _ _ (lodgeState_memOk _ ?_)
  rw [selfTestSites_mem, newMap_mem]
  dsimp only
  split
  · simp [h]
  · exact h

@[simp] theorem rimTrain_memOk (b : BootIn) (s : State) (h : s.mem.wf = true) : (rimTrain b s).mem.wf = true := by
  unfold rimTrain
  extract_lets fails used one s1 lost bad r s2 s3
  have hone (t : State) (m : Nat) (ht : t.mem.wf = true) : (one t m).mem.wf = true := by
    unfold one
    split
    · simp [ht]
    · split
      · simp [ht]
      · dsimp only
        split <;> simp [ht]
  have h1 : s1.mem.wf = true := foldl_memOk (by simp [h]) hone
  have h2 : s2.mem.wf = true := ite_memOk (noCompute_memOk _ h1) (modeAndMap_memOk _ _ h1)
  have h3 : s3.mem.wf = true := foldl_memOk h2 fun t m ht => by
    split
    · exact ht
    · simp [ht]
  exact ite_memOk h1 (by simp [h3])

@[simp] theorem newNonce_mem (s : State) : (newNonce s).mem = s.mem := by simp [newNonce]

@[simp] theorem confApply_mem (s : State) : (confApply s).mem = s.mem := by
  unfold confApply
  split <;> simp [foldl_mem, ite_mem]

@[simp] theorem lodgeBoots_mem (b : BootIn) (s : State) : (lodgeBoots b s).mem = s.mem := by
  fun_cases lodgeBoots b s <;> simp +zetaDelta

@[simp] theorem bootStageDone_memOk (b : BootIn) (s : State) (h : s.mem.wf = true) : (bootStageDone b s).mem.wf = true := by
  unfold bootStageDone
  split
  · exact h
  · split
    · exact ite_memOk (by simp [h]) h
    · exact ite_memOk (by simp [h]) h
    · simp [h]
    · simp [h]
    · exact foldl_memOk (by simp [h]) fun t k ht => by simp [ht]
    · simp [h]
    · exact h

/-! ## Fabric join (R414) -/

@[simp] theorem join_mem (s : State) : (join s).mem = s.mem := by
  fun_cases join s <;> simp +zetaDelta

/-! ## Warm reset (R415) and the end of hold-up (spec/20 R446) -/

@[simp] theorem resetWarm_memOk (s : State) (h : s.mem.wf = true) : (resetWarm s).mem.wf = true := by
  fun_cases resetWarm s <;> simp +zetaDelta [h]

/-! ## Run-out (R417-R420) -/

@[simp] theorem State.setRo_mem (s : State) (k : Nat) : (State.setRo s k).mem = s.mem := by simp [State.setRo]

theorem bootState_memOk {t : State} (b : Boot) (h : t.mem.wf = true) : ({ t with boot := b } : State).mem.wf = true := h

@[simp] theorem runoutGo_memOk (s : State) (h : s.mem.wf = true) : (runoutGo s).mem.wf = true := by
  obtain ⟨off, hO⟩ : ∃ f, f = rimOff := ⟨_, rfl⟩
  obtain ⟨conv, hC⟩ : ∃ f, f = convertersOff := ⟨_, rfl⟩
  have ho : ∀ t, t.mem.wf = true → (off t).mem.wf = true := by
    rw [hO]
    exact rimOff_memOk
  have hc : ∀ t, t.mem.wf = true → (conv t).mem.wf = true := by
    rw [hC]
    exact convertersOff_memOk
  unfold runoutGo
  rw [← hO, ← hC]
  clear hO hC
  split
  · exact h
  · dsimp only
    rw [State.raiseDev_mem]
    refine bootState_memOk _ ?_
    rw [State.setRo_mem]
    refine ho _ (hc _ ?_)
    rw [State.setRo_mem, sayGoodbye_mem, State.setRo_mem]
    simp [h]

@[simp] theorem runoutStep_memOk (s : State) (h : s.mem.wf = true) : (runoutStep s).mem.wf = true := by
  unfold runoutStep
  split
  · exact h
  · extract_lets s1
    have h1 : s1.mem.wf = true := rollback_memOk s h
    have h2 : (stopCores s1).mem.wf = true := by simp [h1]
    split
    · exact h1
    · exact runoutGo_memOk _ (by simp [h2])

@[simp] theorem runoutBegin_memOk (s : State) (h : s.mem.wf = true) : (runoutBegin s).mem.wf = true := by
  unfold runoutBegin
  dsimp only
  split <;> simp [h]

@[simp] theorem runoutAsk_mem (s : State) : (runoutAsk s).mem = s.mem := by simp [runoutAsk]

@[simp] theorem runoutStart_mem (s : State) : (runoutStart s).mem = s.mem := by
  unfold runoutStart
  split <;> simp

@[simp] theorem runoutNow_memOk (s : State) (h : s.mem.wf = true) : (runoutNow s).mem.wf = true := by simp [runoutNow, h]

@[simp] theorem runoutExpiry_memOk (s : State) (h : s.mem.wf = true) : (runoutExpiry s).mem.wf = true := by simp [runoutExpiry, h]

@[simp] theorem runoutPoint_memOk (s : State) (h : s.mem.wf = true) : (runoutPoint s).mem.wf = true := by
  fun_cases runoutPoint s <;> simp +zetaDelta [h]

@[simp] theorem runoutDrainTimeout_memOk (s : State) (h : s.mem.wf = true) :
    (runoutDrainTimeout s).mem.wf = true := by simp [runoutDrainTimeout, h]

/-! ## Removal (R420-R423, spec/20 R448, R450) -/

theorem ejectState_memOk {t : State} (l : Lodge) (b : Boot) (h : t.mem.wf = true) :
    ({ t with lodge := l, boot := b } : State).mem.wf = true := h

@[simp] theorem ejectNow_memOk (s : State) (h : s.mem.wf = true) : (ejectNow s).mem.wf = true := by
  unfold ejectNow
  extract_lets s1 s2 s3 s4
  have h1 : s1.mem.wf = true := by simp [s1, h]
  have h2 : s2.mem.wf = true := by simp [s2, h1]
  have h3 : s3.mem.wf = true := by
    have h4 : (stopCores (sayGoodbye 2 s2)).mem.wf = true := by simp [h2]
    simp [s3, h4]
  exact ejectState_memOk _ _ (rimOff_memOk _ (convertersOff_memOk _ h3))

@[simp] theorem ejectActs_memOk (s : State) (h : s.mem.wf = true) : (ejectActs s).mem.wf = true := by
  unfold ejectActs
  split <;> simp [h]

@[simp] theorem ejectOn_memOk (s : State) (h : s.mem.wf = true) : (ejectOn s).mem.wf = true := by simp [ejectOn, h]

@[simp] theorem absent_memOk (s : State) (h : s.mem.wf = true) : (absent s).mem.wf = true := by
  fun_cases absent s <;> simp +zetaDelta [h]

/-! ## Leaks (spec/15 R361) -/

@[simp] theorem coolantLeak_memOk (sensor : Nat) (s : State) (h : s.mem.wf = true) : (coolantLeak sensor s).mem.wf = true := by
  fun_cases coolantLeak sensor s <;> simp +zetaDelta [h]

/-! ## Reading a register -/

@[simp] theorem cyclesPass_mem (a : Nat) (s : State) : (cyclesPass a s).mem = s.mem := by simp [cyclesPass]

@[simp] theorem State.regRead_mem (s : State) (a : Nat) : (s.regRead a).1.mem = s.mem := by
  unfold State.regRead
  split
  · simp
  · split
    · rfl
    · split <;> rfl

@[simp] theorem State.regBytes_mem (s : State) (a len : Nat) : (s.regBytes a len).1.mem = s.mem := by
  unfold State.regBytes
  split
  · rfl
  · exact foldl_keeps (fun p : State × List Byte => p.1.mem) (fun p j => State.regRead_mem p.1 _) _ _

/-! ## Writing a register -/

@[simp] theorem writeField_mem (a : Nat) (v : W64) (s : State) (r : Row) : (writeField a v s r).mem = s.mem := by
  fun_cases writeField a v s r <;> simp +zetaDelta

@[simp] theorem plainWrite_mem (a : Nat) (v : W64) (s : State) : (plainWrite a v s).mem = s.mem := by
  have hrows : ((rowsAt a).foldl (writeField a v) s).mem = s.mem := foldl_keeps State.mem (fun t r => writeField_mem a v t r) _ _
  unfold plainWrite
  dsimp only
  split
  · split
    · simpa using hrows
    · exact hrows
  · exact hrows

@[simp] theorem ckptCtl_mem (v : W64) (s : State) : (ckptCtl v s).mem = s.mem := by
  unfold ckptCtl
  simp [foldl_mem, ite_mem]

theorem ite_some_memOk {c : Prop} [Decidable c] {x : State} {b : Option State} (hx : x.mem.wf = true)
    (hb : ∀ t ∈ b, t.mem.wf = true) : ∀ t ∈ (if c then some x else b), t.mem.wf = true := by
  split
  · simp [hx]
  · exact hb

theorem devAction_memOk (org : Option Nat) (a : Nat) (v : W64) (s : State) (h : s.mem.wf = true) :
    ∀ t ∈ devAction org a v s, t.mem.wf = true := by
  unfold devAction
  extract_lets one s1 q s2
  have h1 : s1.mem.wf = true := ite_memOk (by simp [h]) h
  have h2 : s2.mem.wf = true := by simp [s2, h]
  repeat' apply ite_some_memOk
  all_goals simp [h, h1, h2]

@[simp] theorem snowCfg_mem (n a : Nat) (v : W64) (s : State) : (snowCfg n a v s).mem = s.mem := by
  fun_cases snowCfg n a v s <;> simp +zetaDelta

@[simp] theorem coreWrite_memOk (n o : Nat) (v : W64) (s : State) (h : s.mem.wf = true) : (coreWrite n o v s).mem.wf = true := by
  fun_cases coreWrite n o v s <;> simp +zetaDelta [h]

@[simp] theorem regWrite_memOk (org : Option Nat) (a : Nat) (v : W64) (s : State) (h : s.mem.wf = true) :
    (regWrite org a v s).mem.wf = true := by
  unfold regWrite
  split
  · exact h
  · split
    · simp [h]
    · cases hd : devAction org a v s with
      | none => simp [h]
      | some t => exact devAction_memOk org a v s h t hd

@[simp] theorem regWriteBytes_memOk (org : Option Nat) (a : Nat) (bs : List Byte) (s : State) (h : s.mem.wf = true) :
    (regWriteBytes org a bs s).mem.wf = true := by
  unfold regWriteBytes
  split <;> simp +contextual [foldl_memOk, h]

/-! ## Accesses (spec/10 R220, R221) -/

theorem throughPort_memOk {n : Nat} {bulk : Bool} {s : State} {f : State → State × Bus} (h : s.mem.wf = true)
    (hf : ∀ t, t.mem.wf = true → (f t).1.mem.wf = true) :
    
    (throughPort n bulk s f).1.mem.wf = true := by
  unfold throughPort
  split
  · simpa
  · split
    · simpa
    · exact hf _ (by simpa)

@[simp] theorem busRead_memOk (remote : Bool) (a len : Nat) (s : State) (h : s.mem.wf = true) :
    (busRead remote a len s).1.mem.wf = true := by
  unfold busRead
  split
  · exact h
  · simpa
  · exact throughPort_memOk h fun t ht => ht
  · exact throughPort_memOk h fun t ht => by simpa
  · split <;> simpa

@[simp] theorem busWrite_memOk (org : Option Nat) (remote bulk : Bool) (a : Nat) (bs : List Byte) (s : State) (h : s.mem.wf = true) :
    (busWrite org remote bulk a bs s).1.mem.wf = true := by
  unfold busWrite
  split
  · exact h
  · split <;> simp [h]
  · exact throughPort_memOk h fun t ht => State.store_memOk t _ _ ht
  · split
    · exact regWriteBytes_memOk _ _ _ _ h
    · exact throughPort_memOk h fun t ht => regWriteBytes_memOk _ _ _ t ht
  · split
    · exact h
    · exact regWriteBytes_memOk _ _ _ _ h

@[simp] theorem busAtom_memOk (remote : Bool) (op w a opnd cmp : Nat) (s : State) (h : s.mem.wf = true) :
    (busAtom remote op w a opnd cmp s).1.mem.wf = true := by
  have hb : (busRead remote a w s).1.mem.wf = true := by simp [h]
  unfold busAtom
  split
  · exact h
  · split
    · split
      · simp [h]
      · simp [h]
    · split
      · next he => exact busWrite_memOk _ _ _ _ _ _ (memOk_of_fst hb he)
      · exact hb

/-! ## Scalar accesses -/

@[simp] theorem startWalk_mem (n k addr w : Nat) (acc : Access) (s : State) :
    (startWalk n k addr w acc s).mem = s.mem := by simp [startWalk]

@[simp] theorem touchTlb_mem (n addr : Nat) (s : State) : (touchTlb n addr s).mem = s.mem := by
  unfold touchTlb
  split <;> simp

@[simp] theorem scalarLoad_memOk (n k space addr w : Nat) (reg : List Byte → Load) (s : State) (h : s.mem.wf = true) :
    (scalarLoad n k space addr w reg s).mem.wf = true := by
  unfold scalarLoad
  dsimp only
  split
  · simpa
  · simpa
  · simpa
  · next a _ =>
    split
    · exact h
    · have hb := busRead_memOk false a w (touchTlb n addr s) (by simpa)
      split <;> next he => rw [he] at hb; simpa using hb

@[simp] theorem scalarStore_memOk (n k space addr : Nat) (bs : List Byte) (s : State) (h : s.mem.wf = true) :
    (scalarStore n k space addr bs s).mem.wf = true := by
  unfold scalarStore
  split
  · simp [h]
  · simp [h]
  · simp [h]
  · next a _ =>
    split
    · exact h
    · extract_lets s1
      have h1 : s1.mem.wf = true := by simp [s1, h]
      have hb := busWrite_memOk (some n) false false a bs s1 h1
      split
      · next he =>
        have h2 := memOk_of_fst hb he
        simp [h2]
      · next he => exact memOk_of_fst hb he
      · exact busWrite_memOk _ _ _ _ _ _ (by simp [h1])

/-! ## Requests of streams and slots -/

@[simp] theorem reqAccess_memOk (n src a : Nat) (q : Req) (s : State) (h : s.mem.wf = true) :
    (reqAccess n src a q s).1.mem.wf = true := by
  fun_cases reqAccess n src a q s <;> simp +zetaDelta [h]

@[simp] theorem reqLost_mem (n src j : Nat) (q : Req) (s : State) : (reqLost n src j q s).mem = s.mem := by
  fun_cases reqLost n src j q s <;> simp +zetaDelta

@[simp] theorem streamResponse_memOk (n src j : Nat) (resp : Response) (s : State) (h : s.mem.wf = true) :
    (streamResponse n src j resp s).mem.wf = true := by
  unfold streamResponse
  split
  · exact h
  · next q _ =>
    split
    · next _ _ a _ =>
      split
      · exact h
      · have hr : (reqAccess n src a q s).1.mem.wf = true := by simp [h]
        split <;> next he => have h1 := memOk_of_fst hr he; simp [h1]
    · simp [h]
    · exact h

/-! ## Register writes -/

@[simp] theorem digRun_memOk (s : State) (n : Nat) (x : UCmd) (h : s.mem.wf = true) : (digRun s n x).1.mem.wf = true := by simp [digRun, h]

/-! ## Execution (R220, R221) -/

@[simp] theorem fabExecute_memOk (x y port : Nat) (p : FabPkt) (s : State) (h : s.mem.wf = true) :
    (fabExecute x y port p s).1.mem.wf = true := by
  unfold fabExecute
  extract_lets a org
  have hw : ∀ b, (busWrite org false b a p.data s).1.mem.wf = true := fun b => busWrite_memOk _ _ _ _ _ _ h
  have hr : (busRead false a p.len s).1.mem.wf = true := by simp [h]
  have ha : ∀ w o c, (busAtom false p.aop.toNat w a o c s).1.mem.wf = true := fun w o c => busAtom_memOk _ _ _ _ _ _ _ h
  split
  · exact h
  · split
    · split
      · exact h
      · split <;> next he => have h1 := memOk_of_fst hr he; simp [h1]
    · split
      · exact h
      · split <;> next he => have h1 := memOk_of_fst (hw _) he; simp [h1]
    · split
      · exact h
      · split <;> next he => have h1 := memOk_of_fst (hw _) he; simp [h1]
    · split <;> next he => have h1 := memOk_of_fst (ha _ _ _) he; simp [h1]
    · exact h

@[simp] theorem fabToLink_mem (x y port k : Nat) (p : FabPkt) (s : State) : (fabToLink x y port k p s).1.mem = s.mem := by
  unfold fabToLink
  extract_lets op
  split
  · rfl
  · split
    · next he => exact mem_of_fst (State.sendReq_mem ..) he
    · next he => exact mem_of_fst (State.sendReq_mem ..) he
    · next he =>
      have h1 := mem_of_fst (State.sendReq_mem ..) he
      split <;> simp [h1]

/-! ## Transport (R218, R222, R226) -/

@[simp] theorem fabPass_memOk (x y port : Nat) (p : FabPkt) (s : State) (h : s.mem.wf = true) :
    (fabPass x y port p s).1.mem.wf = true := by
  unfold fabPass
  dsimp only
  repeat' split
  all_goals simp [h]

@[simp] theorem fabFirst_memOk (x y port : Nat) (rs : List Nat) (s : State) (h : s.mem.wf = true) :
    (fabFirst x y port rs s).1.mem.wf = true := by
  induction rs generalizing s with
  | nil => exact h
  | cons r rs ih =>
    unfold fabFirst
    extract_lets key
    split
    · exact ih s h
    · split
      · exact ih s h
      · extract_lets q t
        have hq : q.1.mem.wf = true := by simp [q, h]
        clear_value q
        have ht : t.mem.wf = true := by simp [t, hq]
        split
        · exact ht
        · exact ih _ hq

@[simp] theorem fabGrant_memOk (x y port : Nat) (s : State) (h : s.mem.wf = true) :
    (fabGrant x y port s).1.mem.wf = true := by simp [fabGrant, h]

@[simp] theorem fabSweep_memOk (s : State) (h : s.mem.wf = true) : (fabSweep s).1.mem.wf = true := by
  unfold fabSweep
  exact foldl_fst_memOk h fun q t hq => by simp [hq]

@[simp] theorem fabEndpoint_mem (x y port : Nat) (s : State) : (fabEndpoint x y port s).1.mem = s.mem := by
  fun_cases fabEndpoint x y port s <;> simp +zetaDelta

@[simp] theorem fabSources_mem (s : State) : (fabSources s).1.mem = s.mem := by
  unfold fabSources
  exact foldl_keeps (fun q : State × Bool => q.1.mem) (fun q t => by simp) _ _

@[simp] theorem fabGo_memOk (fuel : Nat) (s : State) (h : s.mem.wf = true) : (fabGo fuel s).mem.wf = true := by
  induction fuel generalizing s with
  | zero => exact h
  | succ fuel ih =>
    unfold fabGo
    split
    · exact h
    · extract_lets q r
      have hr : r.1.mem.wf = true := by simp [r, q, h]
      split
      · exact ih _ hr
      · exact hr

@[simp] theorem fabTick_memOk (s : State) (h : s.mem.wf = true) : (fabTick s).mem.wf = true := by simp [fabTick, h]

/-! ## Arrival (R218, R221, R223) -/

@[simp] theorem fabArrive_memOk (x y : Nat) (p : FabPkt) (s : State) (h : s.mem.wf = true) : (fabArrive x y p s).mem.wf = true := by
  fun_cases fabArrive x y p s <;> simp +zetaDelta [h]

/-! ## Pressure (R229, R230) -/

@[simp] theorem pressPort_mem (p : State × List Nat) (g : PressSample) : (pressPort p g).1.mem = p.1.mem := by
  unfold pressPort
  extract_lets s win cycles s1 s2 thr
  have h1 : s1.mem = p.1.mem := by simp [s1, s]
  have h2 : s2.mem = p.1.mem := by
    unfold s2
    split <;> simp [h1]
  split
  · rfl
  · split
    · exact h2
    · split <;> simp [h2]

/-! ## Requests and responses (R387) -/

@[simp] theorem respond_mem (op k tag status : Nat) (body : List Byte) (s : State) :
    (respond op k tag status body s).mem = s.mem := by
  fun_cases respond op k tag status body s <;> simp +zetaDelta

theorem request_memOk {op : Nat} {layout : List Byte → Bool} {allowed : Session → List Byte → Bool} {f : MgmtOp} {r : MgmtReq} {s : State}
    (h : s.mem.wf = true) (hf : ∀ e b t, t.mem.wf = true → (f e b t).1.mem.wf = true) : (request op layout allowed f r s).mem.wf = true := by
  unfold request
  extract_lets k tag
  split
  · exact h
  · next e _ =>
    split
    · exact h
    · split
      · simp [h]
      · split
        · simp [h]
        · split
          · simp [h]
          · simp [hf e r.body s h]

/-! ## Firmware and records (R392-R394) -/

@[simp] theorem fwWhole_mem (bytes : List Byte) (s : State) : (fwWhole bytes s).1.mem = s.mem := by
  fun_cases fwWhole bytes s <;> simp +zetaDelta

/-! ## Flits (R234, R241, R242) -/

@[simp] theorem badPkt_mem (k : Nat) (hdr : List Byte) (s : State) : (badPkt k hdr s).mem = s.mem := by simp [badPkt]

@[simp] theorem replayAll_mem (k : Nat) (s : State) : (replayAll k s).mem = s.mem := by
  unfold replayAll
  extract_lets l s1 m
  have h1 : s1.mem = s.mem := foldl_keeps State.mem (fun t x => by simp) _ _
  simp [h1]

@[simp] theorem flitAccept_mem (k : Nat) (f : Flit) (s : State) : (flitAccept k f s).mem = s.mem := by
  unfold flitAccept
  dsimp only
  repeat' split
  all_goals simp

@[simp] theorem flitWhole_memOk (k : Nat) (f : Flit) (s : State) (h : s.mem.wf = true) : (flitWhole k f s).mem.wf = true := by
  fun_cases flitWhole k f s <;> simp +zetaDelta [h]

@[simp] theorem flitReceive_memOk (k : Nat) (f : Flit) (s : State) (h : s.mem.wf = true) : (flitReceive k f s).mem.wf = true := by
  fun_cases flitReceive k f s <;> simp +zetaDelta [h]

/-! ## Inbound requests (R252-R255) -/

@[simp] theorem replyErr_mem (p : OfpPkt) (code : Nat) (s : State) : (replyErr p code s).mem = s.mem := by simp [replyErr]

@[simp] theorem getTake_memOk (p : OfpPkt) (s : State) (h : s.mem.wf = true) : (getTake p s).1.mem.wf = true := by
  unfold getTake
  split
  · simp [h]
  · split
    · exact h
    · have hr := busRead_memOk true p.addr.toNat p.len s h
      split <;> next he =>
        have h1 := memOk_of_fst hr he
        simp [h1]

@[simp] theorem putTake_memOk (p : OfpPkt) (s : State) (h : s.mem.wf = true) : (putTake p s).1.mem.wf = true := by
  unfold putTake
  split
  · simp [h]
  · split
    · exact h
    · have hw := busWrite_memOk none true true p.addr.toNat p.data s h
      split <;> next he =>
        have h1 := memOk_of_fst hw he
        simp [h1]

@[simp] theorem atomTake_memOk (p : OfpPkt) (s : State) (h : s.mem.wf = true) : (atomTake p s).1.mem.wf = true := by
  unfold atomTake
  extract_lets w
  split
  · simp [h]
  · split
    · exact h
    · have ha := busAtom_memOk true p.aop.toNat w p.addr.toNat (numAt p.data 0 8) (numAt p.data 8 8) s h
      split <;> next he =>
        have h1 := memOk_of_fst ha he
        simp [h1]

theorem copyPiece_memOk (p : OfpPkt) (ep id dst : Nat) (c : CopyRun) (g : Nat × Nat) (h : c.st.mem.wf = true) :
    (copyPiece p ep id dst c g).st.mem.wf = true := by
  have hr : (busRead true (p.addr.toNat + g.1) g.2 c.st).1.mem.wf = true := by simp [h]
  unfold copyPiece
  split
  · exact h
  · split
    · next he => exact memOk_of_fst hr he
    · next s0 data he =>
      have h0 := memOk_of_fst hr he
      extract_lets s1 node a
      have h1 : s1.mem.wf = true := by simp [s1, h0]
      clear_value s1
      split
      · split
        · exact h1
        · have hw := busWrite_memOk none true true a data s1 h1
          split
          · next he =>
            have h2 := memOk_of_fst hw he
            simp [h2]
          · next he => exact memOk_of_fst hw he
          · next he => exact memOk_of_fst hw he
      · have hs (q : NetReq) : (s1.sendEng q).1.mem.wf = true := by simp [h1]
        split
        · next he => exact memOk_of_fst (hs _) he
        · next he => exact memOk_of_fst (hs _) he
    · next he => exact memOk_of_fst hr he

@[simp] theorem copyTake_memOk (p : OfpPkt) (s : State) (h : s.mem.wf = true) : (copyTake p s).1.mem.wf = true := by
  unfold copyTake
  extract_lets a dst len far ep id r job t net
  have hr : r.st.mem.wf = true :=
    List.foldlRecOn _ _ (motive := fun c : CopyRun => c.st.mem.wf = true) h fun c hc g _ => copyPiece_memOk p ep id dst c g hc
  clear_value r far
  split
  · simp [h]
  · split
    · simp [h]
    · split
      · split <;> simp [h]
      · split <;> simp [t, hr]

/-! ## Responses (R252, R257) -/

@[simp] theorem respArrive_memOk (op : Nat) (want : Nat → Bool) (p : OfpPkt) (resp : Response) (s : State) (h : s.mem.wf = true) :
    (respArrive op want p resp s).mem.wf = true := by
  unfold respArrive
  dsimp only
  repeat' split
  all_goals simp [h]

/-! ## Control records (R257, R258) -/

theorem ctlArrive_memOk {kind : Nat} {link : BitVec 5} {rec_ : List Byte} {f : State → State} {s : State} (h : s.mem.wf = true)
    (hf : ∀ t, t.mem.wf = true → (f t).mem.wf = true) : (ctlArrive kind link rec_ f s).mem.wf = true := by
  unfold ctlArrive
  extract_lets k
  split
  · exact h
  · split
    · exact hf _ (by simp [h])
    · split <;> simp [h]

/-! ## RoCEv2 (R238) -/

@[simp] theorem roceAck_mem (q : Nat) (m : RoceMsg) (s : State) : (roceAck q m s).mem = s.mem := by simp [roceAck]

@[simp] theorem roceData_mem (q : Nat) (m : RoceMsg) (data : List Byte) (s : State) :
    (roceData q m data s).mem = s.mem := by simp [roceData]

@[simp] theorem roceNak_mem (q code kind : Nat) (m : RoceMsg) (s : State) :
    (roceNak q code kind m s).mem = s.mem := by simp [roceNak]

@[simp] theorem State.immediate_mem (s : State) (q : Nat) (m : RoceMsg) : (State.immediate s q m).mem = s.mem := by
  unfold State.immediate
  split <;> simp

@[simp] theorem sendTake_memOk (q : Nat) (m : RoceMsg) (s : State) (h : s.mem.wf = true) : (sendTake q m s).1.mem.wf = true := by
  fun_cases sendTake q m s <;> simp +zetaDelta [h]

@[simp] theorem writeTake_memOk (q : Nat) (m : RoceMsg) (s : State) (h : s.mem.wf = true) : (writeTake q m s).1.mem.wf = true := by
  unfold writeTake
  extract_lets a
  split
  · simp [h]
  · split
    · simp [h]
    · split
      · exact h
      · have hw := busWrite_memOk none true true a m.data s h
        split <;> next he =>
          have h1 := memOk_of_fst hw he
          simp [h1]

@[simp] theorem readTake_memOk (q : Nat) (m : RoceMsg) (s : State) (h : s.mem.wf = true) : (readTake q m s).1.mem.wf = true := by
  unfold readTake
  extract_lets a
  split
  · simp [h]
  · split
    · simp [h]
    · split
      · exact h
      · have hr := busRead_memOk true a m.len s h
        split <;> next he =>
          have h1 := memOk_of_fst hr he
          simp [h1]

/-! ## Order of what arrives (R247, R253) -/

@[simp] theorem State.waits_mem (s : State) (i : Inb) : (State.waits s i).mem = s.mem := by simp [State.waits]

@[simp] theorem takeUp_memOk (i : Inb) (s : State) (h : s.mem.wf = true) : (takeUp i s).1.mem.wf = true := by
  fun_cases takeUp i s <;> simp +zetaDelta [h]

@[simp] theorem inbTurn_memOk (s : State) (i : Inb) (h : s.mem.wf = true) : (inbTurn s i).mem.wf = true := by
  unfold inbTurn
  split <;> simp [h]

@[simp] theorem inbGo_memOk (s : State) (h : s.mem.wf = true) : (inbGo s).mem.wf = true := by
  unfold inbGo
  split <;> simp +contextual [foldl_memOk, h]

@[simp] theorem inbound_memOk (i : Inb) (s : State) (h : s.mem.wf = true) : (inbound i s).mem.wf = true := by simp [inbound, h]

@[simp] theorem ofpIn_memOk (op : BitVec 4) (ok : Bool) (p : OfpPkt) (s : State) (h : s.mem.wf = true) :
    (ofpIn op ok p s).mem.wf = true := by simp [ofpIn, h]

theorem roceSeen_memOk {q : Nat} {m : RoceMsg} {f : State → State} {s : State} (h : s.mem.wf = true) (hf : (f s).mem.wf = true) :
    (roceSeen q m f s).mem.wf = true := by
  unfold roceSeen
  extract_lets s1
  split
  · exact h
  · split
    · rw [State.roceOut_mem]
      exact hf
    · exact hf

theorem roceOrder_memOk {q kind : Nat} {m : RoceMsg} {f : State → State} {s : State} (h : s.mem.wf = true)
    (hf : ∀ t, t.mem.wf = true → (f t).mem.wf = true) : (roceOrder q kind m f s).mem.wf = true := by
  unfold roceOrder
  extract_lets t next
  split
  · exact hf _ (by simp [h])
  · split
    · exact hf _ (by simp [h])
    · split
      · simp [h]
      · split
        · exact h
        · split
          · exact hf _ h
          · simp [h]

theorem roceArrive_memOk {q kind : Nat} {m : RoceMsg} {f : State → State} {s : State} (h : s.mem.wf = true)
    (hf : ∀ t, t.mem.wf = true → (f t).mem.wf = true) : (roceArrive q kind m f s).mem.wf = true :=
  roceSeen_memOk h (roceOrder_memOk h hf)

/-! ## Requests of queue pairs (R238) -/

@[simp] theorem qpAnswer_memOk (q : Nat) (resp : Response) (s : State) (r : OutReq) (h : s.mem.wf = true) :
    (qpAnswer q resp s r).mem.wf = true := by simp [qpAnswer, h]

@[simp] theorem goBack_memOk (q : Nat) (l : List OutReq) (s : State) (h : s.mem.wf = true) : (goBack q l s).mem.wf = true := by
  unfold goBack
  split <;> simp +contextual [foldl_memOk, h]

@[simp] theorem ackArrive_memOk (q : Nat) (m : RoceMsg) (s : State) (h : s.mem.wf = true) : (ackArrive q m s).mem.wf = true := by
  unfold ackArrive
  extract_lets l hit qp before s1
  have h1 : s1.mem.wf = true := foldl_memOk h fun t r ht => by simp [ht]
  split
  · simp [h]
  · split
    · simp [h]
    · split
      · exact h
      · split <;> simp [h1]

@[simp] theorem cnpArrive_mem (q : Nat) (s : State) : (cnpArrive q s).mem = s.mem := by
  unfold cnpArrive
  split <;> simp

@[simp] theorem retransmit_memOk (q : Nat) (s : State) (h : s.mem.wf = true) : (retransmit q s).mem.wf = true := by simp [retransmit, h]

@[simp] theorem pfcFrame_mem (k port : Nat) (enable : BitVec 8) (quanta : List (BitVec 16)) (s : State) :
    (pfcFrame k port enable quanta s).mem = s.mem := by
  unfold pfcFrame
  dsimp only
  repeat' split
  all_goals simp

@[simp] theorem pausesEnd_mem (s : State) : (pausesEnd s).mem = s.mem := by
  unfold pausesEnd
  split <;> simp

@[simp] theorem linksTick_memOk (s : State) (h : s.mem.wf = true) : (linksTick s).mem.wf = true := by simp [linksTick, h]

/-! ## Meanings -/

@[simp] theorem illegalWord_memOk (n k : Nat) (s : State) (h : s.mem.wf = true) : (illegalWord n k s).mem.wf = true := issue_memOk h h

/-! ## Management requests (spec/17 R387, R389) -/

@[simp] theorem regReadOp_memOk (e : Session) (b : List Byte) (s : State) (h : s.mem.wf = true) : (regReadOp e b s).1.mem.wf = true := by
  unfold regReadOp
  extract_lets a n p
  have hp : p.1.mem.wf = true := foldl_fst_memOk h fun q i hq => by simp [hq]
  split
  · exact h
  · exact hp

@[simp] theorem regWriteOp_memOk (e : Session) (b : List Byte) (s : State) (h : s.mem.wf = true) : (regWriteOp e b s).1.mem.wf = true := by
  unfold regWriteOp
  dsimp only
  split
  · exact h
  · split
    · exact h
    · simp [h]

@[simp] theorem evtReadOp_mem (e : Session) (b : List Byte) (s : State) : (evtReadOp e b s).1.mem = s.mem := rfl

@[simp] theorem telReadOp_mem (e : Session) (b : List Byte) (s : State) : (telReadOp e b s).1.mem = s.mem := rfl

@[simp] theorem wearReadOp_mem (e : Session) (b : List Byte) (s : State) : (wearReadOp e b s).1.mem = s.mem := rfl

@[simp] theorem attestOp_mem (e : Session) (b : List Byte) (s : State) : (attestOp e b s).1.mem = s.mem := rfl

@[simp] theorem capOp_mem (e : Session) (b : List Byte) (s : State) : (capOp e b s).1.mem = s.mem := capWrite_mem _ s

@[simp] theorem keyOp_memOk (e : Session) (b : List Byte) (s : State) (h : s.mem.wf = true) : (keyOp e b s).1.mem.wf = true := by
  unfold keyOp
  simp [h]

@[simp] theorem fwOp_mem (e : Session) (b : List Byte) (s : State) : (fwOp e b s).1.mem = s.mem := by
  unfold fwOp
  extract_lets off total l s1
  have h1 : s1.mem = s.mem := by
    unfold s1
    split
    · simp
    · rfl
  clear_value s1
  split
  · rfl
  · split
    · rfl
    · dsimp only
      split <;> simp [h1]

@[simp] theorem recOp_mem (e : Session) (b : List Byte) (s : State) : (recOp e b s).1.mem = s.mem := by
  unfold recOp
  split <;> simp

@[simp] theorem presOp_mem (e : Session) (b : List Byte) (s : State) : (presOp e b s).1.mem = s.mem := by
  unfold presOp
  dsimp only
  split
  · simp
  · split
    · simp
    · split <;> simp

@[simp] theorem evtSubOp_mem (k : Nat) (e : Session) (b : List Byte) (s : State) : (evtSubOp k e b s).1.mem = s.mem := rfl

/-! ## Instructions and commands -/

/-- An outcome that goes on does so with memory in canonical form. -/
def NextOk (o : Host.Outcome State Fault Refusal) : Prop := ∀ t, o = .next t → t.mem.wf = true

@[simp] theorem nextOk_go {t : State} (h : t.mem.wf = true) : NextOk (go t) := by
  rintro _ ⟨⟩
  exact h

@[simp] theorem execPset_nextOk (i : IA) (s : State) (h : s.mem.wf = true) : NextOk (execPset i s) := by
  unfold execPset
  refine nextOk_go (issue_memOk h ?_)
  simp [h]

@[simp] theorem execPget_nextOk (i : IA) (s : State) (h : s.mem.wf = true) : NextOk (execPget i s) := by
  unfold execPget
  refine nextOk_go (issue_memOk h ?_)
  simp [h]

@[simp] theorem execLd_nextOk (i : IM) (s : State) (h : s.mem.wf = true) : NextOk (execLd i s) := by
  unfold execLd
  refine nextOk_go (issue_memOk h ?_)
  simp [h]

@[simp] theorem execSt_nextOk (i : IM) (s : State) (h : s.mem.wf = true) : NextOk (execSt i s) := by
  unfold execSt
  refine nextOk_go (issue_memOk h ?_)
  simp [h]

@[simp] theorem execTld_nextOk (i : IM) (s : State) (h : s.mem.wf = true) : NextOk (execTld i s) := by
  unfold execTld
  refine nextOk_go (issue_memOk h ?_)
  simp [h]

@[simp] theorem execTst_nextOk (i : IM) (s : State) (h : s.mem.wf = true) : NextOk (execTst i s) := by
  unfold execTst
  refine nextOk_go (issue_memOk h ?_)
  simp [h]

@[simp] theorem execScalarLoadReturn_nextOk (core : BitVec 10) (ctx : BitVec 3) (s : State) (h : s.mem.wf = true) :
    NextOk (execScalarLoadReturn core ctx s) := by
  unfold execScalarLoadReturn
  refine nextOk_go (State.unlessStopped_memOk h ?_)
  simp [h]

@[simp] theorem execTset_nextOk (i : IA) (s : State) (h : s.mem.wf = true) : NextOk (execTset i s) := by
  unfold execTset
  refine nextOk_go (issue_memOk h ?_)
  simp [h]

@[simp] theorem execTget_nextOk (i : IA) (s : State) (h : s.mem.wf = true) : NextOk (execTget i s) := by
  unfold execTget
  refine nextOk_go (issue_memOk h ?_)
  simp [h]

@[simp] theorem execTmov_nextOk (i : IA) (s : State) (h : s.mem.wf = true) : NextOk (execTmov i s) := by
  unfold execTmov
  refine nextOk_go (issue_memOk h ?_)
  simp [h]

@[simp] theorem execBr_nextOk (i : IB) (s : State) (h : s.mem.wf = true) : NextOk (execBr i s) := by
  unfold execBr
  refine nextOk_go (issue_memOk h ?_)
  simp [h]

@[simp] theorem execJal_nextOk (i : IB) (s : State) (h : s.mem.wf = true) : NextOk (execJal i s) := by
  unfold execJal
  refine nextOk_go (issue_memOk h ?_)
  simp [h]

@[simp] theorem execJr_nextOk (i : IB) (s : State) (h : s.mem.wf = true) : NextOk (execJr i s) := by
  unfold execJr
  refine nextOk_go (issue_memOk h ?_)
  simp [h]

@[simp] theorem execCstart_nextOk (i : IA) (s : State) (h : s.mem.wf = true) : NextOk (execCstart i s) := by
  unfold execCstart
  refine nextOk_go (issue_memOk h ?_)
  simp [h]

@[simp] theorem execEndCtx_nextOk (i : IA) (s : State) (h : s.mem.wf = true) : NextOk (execEndCtx i s) := by
  unfold execEndCtx
  refine nextOk_go (issue_memOk h ?_)
  simp [h]

@[simp] theorem execRdsys_nextOk (i : IA) (s : State) (h : s.mem.wf = true) : NextOk (execRdsys i s) := by
  unfold execRdsys
  refine nextOk_go (issue_memOk h ?_)
  simp [h]

@[simp] theorem execIfence_nextOk (i : IA) (s : State) (h : s.mem.wf = true) : NextOk (execIfence i s) := by
  unfold execIfence
  refine nextOk_go (issue_memOk h ?_)
  simp [h]

@[simp] theorem execNop_nextOk (i : IA) (s : State) (h : s.mem.wf = true) : NextOk (execNop i s) := by
  unfold execNop
  refine nextOk_go (issue_memOk h ?_)
  simp [h]

@[simp] theorem execWaitp_nextOk (i : IA) (s : State) (h : s.mem.wf = true) : NextOk (execWaitp i s) := by
  unfold execWaitp
  refine nextOk_go (issue_memOk h ?_)
  simp [h]

@[simp] theorem execBar_nextOk (i : IA) (s : State) (h : s.mem.wf = true) : NextOk (execBar i s) := by
  unfold execBar
  refine nextOk_go (issue_memOk h ?_)
  dsimp only
  split
  · simp [h]
  · split
    · exact foldl_memOk (by simp [h]) fun t k ht => by simp [ht]
    · simp [h]

@[simp] theorem execEvsig_nextOk (i : IA) (s : State) (h : s.mem.wf = true) : NextOk (execEvsig i s) := by
  unfold execEvsig
  refine nextOk_go (issue_memOk h ?_)
  simp [h]

@[simp] theorem execEvwait_nextOk (i : IA) (s : State) (h : s.mem.wf = true) : NextOk (execEvwait i s) := by
  unfold execEvwait
  refine nextOk_go (issue_memOk h ?_)
  simp [h]

@[simp] theorem execCtxSliceExpiry_nextOk (core : BitVec 10) (s : State) (h : s.mem.wf = true) : NextOk (execCtxSliceExpiry core s) := by
  unfold execCtxSliceExpiry
  refine nextOk_go (State.unlessStopped_memOk h ?_)
  simp [h]

@[simp] theorem execQcfg_nextOk (i : IA) (s : State) (h : s.mem.wf = true) : NextOk (execQcfg i s) := by
  unfold execQcfg
  refine nextOk_go (issue_memOk h ?_)
  simp [h]

@[simp] theorem execQbind_nextOk (i : IA) (s : State) (h : s.mem.wf = true) : NextOk (execQbind i s) := by
  unfold execQbind
  refine nextOk_go (issue_memOk h ?_)
  simp [h]

@[simp] theorem execQacq_nextOk (i : IA) (s : State) (h : s.mem.wf = true) : NextOk (execQacq i s) := by
  unfold execQacq
  refine nextOk_go (issue_memOk h ?_)
  dsimp only
  repeat' split
  all_goals simp [h]

@[simp] theorem execQrel_nextOk (i : IA) (s : State) (h : s.mem.wf = true) : NextOk (execQrel i s) := by
  unfold execQrel
  refine nextOk_go (issue_memOk h ?_)
  dsimp only
  repeat' split
  all_goals simp [h]

@[simp] theorem execQsub_nextOk (i : IA) (s : State) (h : s.mem.wf = true) : NextOk (execQsub i s) := by
  unfold execQsub
  refine nextOk_go (issue_memOk h ?_)
  dsimp only
  repeat' split
  all_goals simp [h]

@[simp] theorem execSlm_nextOk (i : IA) (s : State) (h : s.mem.wf = true) : NextOk (execSlm i s) := by
  unfold execSlm
  refine nextOk_go (issue_memOk h ?_)
  dsimp only
  repeat' split
  all_goals simp [h]

@[simp] theorem execCbwd_nextOk (i : IT) (s : State) (h : s.mem.wf = true) : NextOk (execCbwd i s) := by
  unfold execCbwd
  refine nextOk_go (issue_memOk h ?_)
  dsimp only
  repeat' split
  all_goals simp [h]

@[simp] theorem execCarveCommandDone_nextOk (core : BitVec 10) (arr : BitVec 1) (idx : Nat) (s : State) (h : s.mem.wf = true) :
    NextOk (execCarveCommandDone core arr idx s) := by
  unfold execCarveCommandDone
  refine nextOk_go (State.unlessStopped_memOk h ?_)
  simp [h]

@[simp] theorem execSmv_nextOk (i : IT) (s : State) (h : s.mem.wf = true) : NextOk (execSmv i s) := by
  unfold execSmv
  refine nextOk_go (issue_memOk h ?_)
  dsimp only
  repeat' split
  all_goals simp [h]

@[simp] theorem execSchussCommandDone_nextOk (core : BitVec 10) (s : State) (h : s.mem.wf = true) :
    NextOk (execSchussCommandDone core s) := by
  unfold execSchussCommandDone
  refine nextOk_go (State.unlessStopped_memOk h (unitDone_memOk h fun t x ht => ?_))
  simp [ht]

@[simp] theorem execGroomerCommandDone_nextOk (core : BitVec 10) (s : State) (h : s.mem.wf = true) :
    NextOk (execGroomerCommandDone core s) := by
  unfold execGroomerCommandDone
  refine nextOk_go (State.unlessStopped_memOk h ?_)
  simp [h]

@[simp] theorem execVectorCommandDone_nextOk (core : BitVec 10) (s : State) (h : s.mem.wf = true) :
    NextOk (execVectorCommandDone core s) := by
  unfold execVectorCommandDone
  refine nextOk_go (State.unlessStopped_memOk h (unitDone_memOk h fun t x ht => ?_))
  simp [ht]

@[simp] theorem execSpush_nextOk (i : IT) (s : State) (h : s.mem.wf = true) : NextOk (execSpush i s) := by
  unfold execSpush
  refine nextOk_go (issue_memOk h ?_)
  dsimp only
  repeat' split
  all_goals simp [h]

@[simp] theorem execSnowpackCommandDone_nextOk (core : BitVec 10) (s : State) (h : s.mem.wf = true) :
    NextOk (execSnowpackCommandDone core s) := by
  unfold execSnowpackCommandDone
  refine nextOk_go (State.unlessStopped_memOk h (ite_memOk ?_ (by simp [h])))
  exact unitDone_memOk h fun t x ht => by simp [ht]

@[simp] theorem execSnowpackSpillAck_nextOk (core : BitVec 10) (s : State) (h : s.mem.wf = true) :
    NextOk (execSnowpackSpillAck core s) := by
  unfold execSnowpackSpillAck
  refine nextOk_go (State.unlessStopped_memOk h ?_)
  simp [h]

@[simp] theorem execSnowpackRefillData_nextOk (core : BitVec 10) (s : State) (h : s.mem.wf = true) :
    NextOk (execSnowpackRefillData core s) := by
  unfold execSnowpackRefillData
  refine nextOk_go (State.unlessStopped_memOk h ?_)
  simp [h]

@[simp] theorem execRfence_nextOk (i : IA) (s : State) (h : s.mem.wf = true) : NextOk (execRfence i s) := by
  unfold execRfence
  refine nextOk_go (issue_memOk h ?_)
  dsimp only
  repeat' split
  all_goals simp [h]

@[simp] theorem execCkdig_nextOk (i : IT) (s : State) (h : s.mem.wf = true) : NextOk (execCkdig i s) := by
  unfold execCkdig
  refine nextOk_go (issue_memOk h ?_)
  dsimp only
  repeat' split
  all_goals simp [h]

@[simp] theorem execDigestDone_nextOk (core : BitVec 10) (s : State) (h : s.mem.wf = true) : NextOk (execDigestDone core s) := by
  unfold execDigestDone
  refine nextOk_go (unitDone_memOk h fun t x ht => ?_)
  simp [ht]

@[simp] theorem execSlalomDone_nextOk (core : BitVec 10) (s : State) (h : s.mem.wf = true) : NextOk (execSlalomDone core s) := by
  unfold execSlalomDone
  refine nextOk_go (State.unlessStopped_memOk h ?_)
  simp [h]

@[simp] theorem execStreamResponse_nextOk (core : BitVec 10) (req : StreamReq) (resp : Response) (s : State) (h : s.mem.wf = true) :
    NextOk (execStreamResponse core req resp s) := by
  unfold execStreamResponse
  refine nextOk_go (State.unlessStopped_memOk h ?_)
  simp [h]

@[simp] theorem execAtuWalkReturn_nextOk (core : BitVec 10) (s : State) (h : s.mem.wf = true) : NextOk (execAtuWalkReturn core s) := by
  unfold execAtuWalkReturn
  refine nextOk_go (State.unlessStopped_memOk h ?_)
  simp [h]

@[simp] theorem execCoreCtxStartWrite_nextOk (core : BitVec 10) (value : W64) (s : State) (h : s.mem.wf = true) :
    NextOk (execCoreCtxStartWrite core value s) :=
  nextOk_go (ite_memOk (by simp [h]) (State.atCore_memOk h (by simp [h])))

@[simp] theorem execCoreCtxResumeWrite_nextOk (core : BitVec 10) (value : W64) (s : State) (h : s.mem.wf = true) :
    NextOk (execCoreCtxResumeWrite core value s) := by
  unfold execCoreCtxResumeWrite
  refine nextOk_go (State.atCore_memOk h ?_)
  simp [h]

@[simp] theorem execCoreCtxKillWrite_nextOk (core : BitVec 10) (value : W64) (s : State) (h : s.mem.wf = true) :
    NextOk (execCoreCtxKillWrite core value s) := by
  unfold execCoreCtxKillWrite
  refine nextOk_go (State.atCore_memOk h ?_)
  simp [h]

@[simp] theorem execCoreEvSetWrite_nextOk (core : BitVec 10) (value : W64) (s : State) (h : s.mem.wf = true) :
    NextOk (execCoreEvSetWrite core value s) := by
  unfold execCoreEvSetWrite
  refine nextOk_go (State.atCore_memOk h ?_)
  simp [h]

@[simp] theorem execCoreSramCfgWrite_nextOk (core : BitVec 10) (value : W64) (s : State) (h : s.mem.wf = true) :
    NextOk (execCoreSramCfgWrite core value s) := by
  unfold execCoreSramCfgWrite
  refine nextOk_go (State.atCore_memOk h ?_)
  simp [h]

@[simp] theorem execCoreAtuInvalWrite_nextOk (core : BitVec 10) (value : W64) (s : State) (h : s.mem.wf = true) :
    NextOk (execCoreAtuInvalWrite core value s) := by
  unfold execCoreAtuInvalWrite
  refine nextOk_go (State.atCore_memOk h ?_)
  simp [h]

@[simp] theorem execCoreRingResume_nextOk (core : BitVec 10) (ring : BitVec 4) (s : State) (h : s.mem.wf = true) :
    NextOk (execCoreRingResume core ring s) := by
  unfold execCoreRingResume
  refine nextOk_go (State.atCore_memOk h ?_)
  simp [h]

@[simp] theorem execCoreRingAbort_nextOk (core : BitVec 10) (ring : BitVec 4) (s : State) (h : s.mem.wf = true) :
    NextOk (execCoreRingAbort core ring s) := by
  unfold execCoreRingAbort
  refine nextOk_go (State.atCore_memOk h ?_)
  simp [h]

@[simp] theorem execCoreRingReset_nextOk (core : BitVec 10) (ring : BitVec 4) (s : State) (h : s.mem.wf = true) :
    NextOk (execCoreRingReset core ring s) := by
  unfold execCoreRingReset
  refine nextOk_go (State.atCore_memOk h ?_)
  simp [h]

@[simp] theorem execCoreXslotResume_nextOk (core : BitVec 10) (slot : BitVec 3) (s : State) (h : s.mem.wf = true) :
    NextOk (execCoreXslotResume core slot s) := by
  unfold execCoreXslotResume
  refine nextOk_go (State.atCore_memOk h ?_)
  simp [h]

@[simp] theorem execCoreXslotAbort_nextOk (core : BitVec 10) (slot : BitVec 3) (s : State) (h : s.mem.wf = true) :
    NextOk (execCoreXslotAbort core slot s) := by
  unfold execCoreXslotAbort
  refine nextOk_go (State.atCore_memOk h ?_)
  simp [h]

@[simp] theorem execFabricPressWindow_nextOk (ports : List PressSample) (s : State) (h : s.mem.wf = true) :
    NextOk (execFabricPressWindow ports s) :=
  nextOk_go (foldl_fst_memOk (p := (s, ([] : List Nat))) h fun q g hq => by simp [hq])

@[simp] theorem execCtlHeartbeat_nextOk (link : BitVec 5) (rec_ : List Byte) (s : State) (h : s.mem.wf = true) :
    NextOk (execCtlHeartbeat link rec_ s) := by
  unfold execCtlHeartbeat
  refine nextOk_go (ctlArrive_memOk h fun t ht => ?_)
  simp [ht]

@[simp] theorem execCtlGoodbye_nextOk (link : BitVec 5) (rec_ : List Byte) (s : State) (h : s.mem.wf = true) :
    NextOk (execCtlGoodbye link rec_ s) := by
  unfold execCtlGoodbye
  refine nextOk_go (ctlArrive_memOk h fun t ht => ?_)
  simp [ht]

@[simp] theorem execCtlVote_nextOk (link : BitVec 5) (rec_ : List Byte) (s : State) (h : s.mem.wf = true) :
    NextOk (execCtlVote link rec_ s) := by
  unfold execCtlVote
  refine nextOk_go (ctlArrive_memOk h fun t ht => ?_)
  simp [ht]

@[simp] theorem execCtlDecision_nextOk (link : BitVec 5) (rec_ : List Byte) (s : State) (h : s.mem.wf = true) :
    NextOk (execCtlDecision link rec_ s) := by
  unfold execCtlDecision
  refine nextOk_go (ctlArrive_memOk h fun t ht => ?_)
  simp [ht]

@[simp] theorem execRoceSendReceive_nextOk (qp : BitVec 13) (msg : RoceMsg) (s : State) (h : s.mem.wf = true) :
    NextOk (execRoceSendReceive qp msg s) := by
  unfold execRoceSendReceive
  refine nextOk_go (roceArrive_memOk h fun t ht => ?_)
  simp [ht]

@[simp] theorem execRoceWriteReceive_nextOk (qp : BitVec 13) (msg : RoceMsg) (s : State) (h : s.mem.wf = true) :
    NextOk (execRoceWriteReceive qp msg s) := by
  unfold execRoceWriteReceive
  refine nextOk_go (roceArrive_memOk h fun t ht => ?_)
  simp [ht]

@[simp] theorem execRoceReadReceive_nextOk (qp : BitVec 13) (msg : RoceMsg) (s : State) (h : s.mem.wf = true) :
    NextOk (execRoceReadReceive qp msg s) := by
  unfold execRoceReadReceive
  refine nextOk_go (roceArrive_memOk h fun t ht => ?_)
  simp [ht]

@[simp] theorem execRoceAtomicReceive_nextOk (qp : BitVec 13) (msg : RoceMsg) (s : State) (h : s.mem.wf = true) :
    NextOk (execRoceAtomicReceive qp msg s) := by
  unfold execRoceAtomicReceive
  refine nextOk_go (roceArrive_memOk h fun t ht => ?_)
  simp [ht]

@[simp] theorem execRoceAckReceive_nextOk (qp : BitVec 13) (msg : RoceMsg) (s : State) (h : s.mem.wf = true) :
    NextOk (execRoceAckReceive qp msg s) :=
  nextOk_go (roceSeen_memOk (f := ackArrive qp.toNat msg) h (by simp [h]))

@[simp] theorem execWstreamKeyTimeout_nextOk (epoch : BitVec 16) (s : State) (h : s.mem.wf = true) :
    NextOk (execWstreamKeyTimeout epoch s) := by
  unfold execWstreamKeyTimeout
  dsimp only
  split
  · exact nextOk_go h
  · exact nextOk_go (foldl_memOk h fun t x ht => by simp [ht])

@[simp] theorem execFreezeDrainAck_nextOk (s : State) (h : s.mem.wf = true) : NextOk (execFreezeDrainAck s) :=
  nextOk_go (runoutGo_memOk _ (drainAck_memOk _ h))

@[simp] theorem execCkptScan_nextOk (value : W64) (slots : List (List Byte)) (s : State) (h : s.mem.wf = true) :
    NextOk (execCkptScan value slots s) :=
  nextOk_go (ite_memOk (foldl_memOk h fun t j ht => by simp [ht]) h)

@[simp] theorem execRegRead_nextOk (req : MgmtReq) (s : State) (h : s.mem.wf = true) : NextOk (execRegRead req s) := by
  unfold execRegRead
  refine nextOk_go (request_memOk h fun e b t ht => ?_)
  simp [ht]

@[simp] theorem execRegWrite_nextOk (req : MgmtReq) (s : State) (h : s.mem.wf = true) : NextOk (execRegWrite req s) := by
  unfold execRegWrite
  refine nextOk_go (request_memOk h fun e b t ht => ?_)
  simp [ht]

@[simp] theorem execEvtRead_nextOk (req : MgmtReq) (s : State) (h : s.mem.wf = true) : NextOk (execEvtRead req s) := by
  unfold execEvtRead
  refine nextOk_go (request_memOk h fun e b t ht => ?_)
  simp [ht]

@[simp] theorem execTelRead_nextOk (req : MgmtReq) (s : State) (h : s.mem.wf = true) : NextOk (execTelRead req s) := by
  unfold execTelRead
  refine nextOk_go (request_memOk h fun e b t ht => ?_)
  simp [ht]

@[simp] theorem execWearRead_nextOk (req : MgmtReq) (s : State) (h : s.mem.wf = true) : NextOk (execWearRead req s) := by
  unfold execWearRead
  refine nextOk_go (request_memOk h fun e b t ht => ?_)
  simp [ht]

@[simp] theorem execAttest_nextOk (req : MgmtReq) (s : State) (h : s.mem.wf = true) : NextOk (execAttest req s) := by
  unfold execAttest
  refine nextOk_go (request_memOk h fun e b t ht => ?_)
  simp [ht]

@[simp] theorem execCap_nextOk (req : MgmtReq) (s : State) (h : s.mem.wf = true) : NextOk (execCap req s) := by
  unfold execCap
  refine nextOk_go (request_memOk h fun e b t ht => ?_)
  simp [ht]

@[simp] theorem execKeyInstall_nextOk (req : MgmtReq) (s : State) (h : s.mem.wf = true) : NextOk (execKeyInstall req s) := by
  unfold execKeyInstall
  refine nextOk_go (request_memOk h fun e b t ht => ?_)
  simp [ht]

@[simp] theorem execFwStage_nextOk (req : MgmtReq) (s : State) (h : s.mem.wf = true) : NextOk (execFwStage req s) := by
  unfold execFwStage
  refine nextOk_go (request_memOk h fun e b t ht => ?_)
  simp [ht]

@[simp] theorem execRecWrite_nextOk (req : MgmtReq) (s : State) (h : s.mem.wf = true) : NextOk (execRecWrite req s) := by
  unfold execRecWrite
  refine nextOk_go (request_memOk h fun e b t ht => ?_)
  simp [ht]

@[simp] theorem execPresStage_nextOk (req : MgmtReq) (s : State) (h : s.mem.wf = true) : NextOk (execPresStage req s) := by
  unfold execPresStage
  refine nextOk_go (request_memOk h fun e b t ht => ?_)
  simp [ht]

@[simp] theorem execEvtSubscribe_nextOk (req : MgmtReq) (s : State) (h : s.mem.wf = true) : NextOk (execEvtSubscribe req s) := by
  unfold execEvtSubscribe
  refine nextOk_go (request_memOk h fun e b t ht => ?_)
  simp [ht]

@[simp] theorem execCounterClear_nextOk (addr : BitVec 42) (value : W64) (s : State) (h : s.mem.wf = true) :
    NextOk (execCounterClear addr value s) := by
  unfold execCounterClear
  refine nextOk_go ?_
  split <;> simp [h]

@[simp] theorem execDevResetWarm_nextOk (value : W64) (s : State) (h : s.mem.wf = true) : NextOk (execDevResetWarm value s) := by
  unfold execDevResetWarm
  refine nextOk_go ?_
  split <;> simp [h]

@[simp] theorem execRunoutNow_nextOk (value : W64) (s : State) (h : s.mem.wf = true) : NextOk (execRunoutNow value s) := by
  unfold execRunoutNow
  refine nextOk_go ?_
  split <;> simp [h]

@[simp] theorem execRegisterWrite_nextOk (addr : BitVec 42) (size : BitVec 2) (value : W64) (s : State) (h : s.mem.wf = true) :
    NextOk (execRegisterWrite addr size value s) := by
  unfold execRegisterWrite
  refine nextOk_go ?_
  split <;> simp [h]

@[simp] theorem execSnowpackDirectoryRefill_nextOk (core : BitVec 10) (s : State) (h : s.mem.wf = true) :
    NextOk (execSnowpackDirectoryRefill core s) := by
  unfold execSnowpackDirectoryRefill
  refine nextOk_go (State.unlessStopped_memOk h ?_)
  simp [h]

/-! ## The step -/

/-- Every instruction that goes on leaves memory in canonical form: those whose command needs more than the lemmas of its operations have a
lemma of their own above. -/
theorem exec_nextOk (i : Instr) (s : State) (h : s.mem.wf = true) : NextOk (exec i s) := by
  cases i <;> simp [
    exec, execAdd, execAddi, execSub, execSubi, execAnd, execAndi, execOr, execOri, execXor, execXori, execShl, execShli, execShr,
    execShri, execSra, execSrai, execMul, execMuli, execMulhu, execMulhui, execMulh, execMulhi, execDivu, execDivui, execRemu, execRemui,
    execDiv, execDivi, execRem, execRemi, execMin, execMini, execMax, execMaxi, execMinu, execMinui, execMaxu, execMaxui, execCmpEq,
    execCmpNe, execCmpLt, execCmpLtu, execCmpGe, execCmpGeu, execCmpiEq, execCmpiNe, execCmpiLt, execCmpiLtu, execCmpiGe, execCmpiGeu,
    execPand, execPor, execPxor, execPandn, execCmm, execChb, execCdrn, execCzero, execGnrm, execGsmx, execGnrmb, execGsmxb, execVadd,
    execVsub, execVmul, execVfma, execVmax, execVmin, execVscale, execVexp, execVlog, execVrcp, execVrsqrt, execVact, execVcvt,
    execVrsum, execVamax, execVgbq, execVgba, execVgbd, execVres, execVopt, execViadd, execVimul, execVicmp, execSpop, execSpskip,
    execRget, execRput, execRcopy, execRatom, execRdsub, execRdrecv, execCkvote, execAtuInvalDone, execSramScrub, execHeartbeatSample,
    execCoreRemap, execFabricPacketArrive, execLinkTrainStageDone, execLinkTrainTimeout, execEthPortTrainDone, execLinkRetrain,
    execLaneLoss, execOfpFlitReceive, execLinkIdleTimeout, execLinkCreditTimeout, execLinkDrainSwitchDone, execDevLgrpAdmit, execOfpGet,
    execOfpPut, execOfpAtom, execOfpCopy, execOfpData, execOfpAck, execOfpAtomr, execOfpErr, execOfpCdone, execOfpWseg, execOfpGbk,
    execRemoteResponseTimeout, execHeartbeatSend, execPeerTimeout, execRoceCnpReceive, execRoceRetransmitTimeout, execWstreamKeyUnwrap,
    execWstreamPlanLoad, execRecordDecrypt, execEntryComplete, execWstreamWbqWrite, execWritebackDone, execWstreamBufRelWrite,
    execWstreamJobGo, execWstreamJobEnd, execWstreamTreeTimeout, execJobJoinCheck, execJoinRecordRefresh, execMemberLeaveRequest,
    execRedPlanLoad, execRedChainArm, execVoteSend, execVoteTimerExpiry, execCkptUpdWrite, execRollback, execCkptTensLoad,
    execFreezeTimer, execCkptFreezeNow, execFreezeDrainSend, execCkptCompare, execCkptCompareTimeout, execCkptPromote, execCkptAdopt,
    execCkptLoad, execCkptBuddyStep, execSiteToOff, execSiteToRet, execSiteToIdle, execIdleTimeout, execTelemetryFrame,
    execPowerLoopIteration, execCapWrite, execCapLeaseExpiry, execPwrBrakeAssert, execPwrBrakeDeassert, execInputUndervoltage,
    execInputFail, execHoldupEnd, execCrevasseWindow, execPwrCrevRecal, execPhaseLoss, execRegulatorControllerFault, execSiteShort,
    execVfieldShort, execRimConverterFault, execAlwaysOnConverterFault, execThermalSample, execCoolantLeak, execPwrServiceClear,
    execFieldRefDeviation, execDevTimeCorrection, execPtpMessage, execPtpSyncLoss, execPtpHoldoverExceeded, execDevTimeSetWrite,
    execWearSlackSample, execVminMeasure, execWearReplan, execLodgeWatchdogExpiry, execLodgeMemoryError, execDevLodgeRestart,
    execLodgeRestartDone, execPowerLoopWatchdog, execMgmtConnect, execEvtSubscribePush, execSecFwCommit, execPresenceButton,
    execServiceJumperClose, execPresenceTimeout, execPrsntAssert, execPrsntDeassert, execBootStageDone, execDevJoin, execRunoutStart,
    execRunoutWaitExpiry, execRunoutBegin, execRunoutDrainTimeout, execEjectAssert, execEjectDeassert, execNullFlitSend, execInputReturn,
    execSitePowerTransitionDone, execPriorityFlowControlFrame, h]

theorem coreTick_memOk (n : Nat) (s : State) (h : s.mem.wf = true) : (coreTick n s).mem.wf = true := by
  rcases coreTick_cases n s with he | ⟨k, -, he | ⟨i, hi⟩⟩
  · rw [he]
    exact h
  · rw [he]
    exact illegalWord_memOk _ _ _ h
  · exact exec_nextOk i s h _ hi

theorem coresTick_memOk (s : State) (h : s.mem.wf = true) : (coresTick s).mem.wf = true :=
  foldl_memOk h fun t p ht => coreTick_memOk p.1 t ht

theorem step_nextOk (s : State) (h : s.mem.wf = true) : NextOk (step s) := by
  unfold step
  split
  · rintro _ ⟨⟩
    exact coresTick_memOk _ (fabTick_memOk _ (linksTick_memOk _ h))
  · exact exec_nextOk _ _ h

/-- Settles O4, by the lemma of each operation that memory in canonical form stays so. -/
theorem stepKeepsMemoryCanonical : Obligations.StepKeepsMemoryCanonical := by
  unfold Obligations.StepKeepsMemoryCanonical
  intro s t h ht
  exact step_nextOk s h t ht

/-- Settles O3: memory lists nothing at reset. -/
theorem resetMemoryCanonical : Obligations.ResetMemoryCanonical := by
  unfold Obligations.ResetMemoryCanonical
  rfl

end Sys2Proof.Machine

end

section
/-! # A context fault (O17, R62) -/

namespace Sys2Proof.Machine

/-- Selection leaves every register but CORE_CTX_SWITCH_CNT and the counters of the event ring. -/
theorem State.fld_select (s : State) (n : Nat) {g : Fld} (h : g.addr ∉ evtWords) (h0 : g.addr ≠ (F.CORE_CTX_SWITCH_CNT n).addr)
    (h8 : g.addr ≠ (F.CORE_CTX_SWITCH_CNT n).addr + 8) : (s.select n).fld g = s.fld g := by
  rcases s.select_cases n with he | ⟨j, -, -, he⟩
  · rw [he]
  · rw [he]
    exact fld_bumpBy _ _ 1 g h h0 h8

/-- The registers of a state before the event of a fault: the three fields of CORE_CTX_FAULT are written. -/
def State.faultRecorded (s : State) (n k code addr : Nat) : State :=
  (((s.setCtx n k { s.ctx n k with st := .faulted, wait := .none }).setFld (F.CORE_CTX_FAULT_pc n k) (s.ctx n k).pc).setFld
    (F.CORE_CTX_FAULT_code n k) code).setFld (F.CORE_CTX_FAULT_addr n k) addr

/-- A fault records it in its register, raises its event and has the processor select. -/
theorem State.faultCtx_eq (s : State) (n k code addr : Nat) : s.faultCtx n k code addr =
    ((s.faultRecorded n k code addr).raise EV.CTX_FAULT 2 n (leBytes 2 n ++ leBytes 1 k)).select n := rfl

theorem State.faultRecorded_events (s : State) (n k code addr : Nat) : (s.faultRecorded n k code addr).events = s.events := by
  simp [State.faultRecorded]

theorem State.faultRecorded_code (s : State) (n k addr : Nat) {code : Nat} (hc : code < 2 ^ 16) :
    (s.faultRecorded n k code addr).fld (F.CORE_CTX_FAULT_code n k) = code := by
  unfold State.faultRecorded
  rw [State.fld_setFld_addr _ _ _ _ (by simp), State.fld_setFld _ _ _ (by simp)]
  exact Nat.mod_eq_of_lt hc

theorem State.faultRecorded_pc (s : State) (n k code addr : Nat) (hp : (s.ctx n k).pc < 2 ^ 26) :
    (s.faultRecorded n k code addr).fld (F.CORE_CTX_FAULT_pc n k) = (s.ctx n k).pc := by
  unfold State.faultRecorded
  rw [State.fld_setFld_addr _ _ _ _ (by simp), State.fld_setFld_bits _ _ _ _ (by simp), State.fld_setFld _ _ _ (by simp)]
  exact Nat.mod_eq_of_lt hp

theorem State.faultRecorded_addr (s : State) (n k code : Nat) {addr : Nat} (ha : addr < 2 ^ 64) :
    (s.faultRecorded n k code addr).fld (F.CORE_CTX_FAULT_addr n k) = addr := by
  unfold State.faultRecorded
  rw [State.fld_setFld _ _ _ (by simp)]
  exact Nat.mod_eq_of_lt ha

/-- The event and the selection of a fault leave CORE_CTX_FAULT as it was recorded. -/
theorem State.faultCtx_fld (s : State) (n k code addr : Nat) {g : Fld} (h : g.addr ∉ evtWords) (h0 : g.addr ≠ (F.CORE_CTX_SWITCH_CNT n).addr)
    (h8 : g.addr ≠ (F.CORE_CTX_SWITCH_CNT n).addr + 8) : (s.faultCtx n k code addr).fld g = (s.faultRecorded n k code addr).fld g := by
  rw [State.faultCtx_eq, State.fld_select _ _ h h0 h8, fld_raise _ _ _ _ _ _ h]

/-- A fault of one context leaves the registers of another; a READY one may become RUNNING. -/
theorem State.faultCtx_ctx_ne (s : State) (n k code addr : Nat) {j : Nat} (hj : j ≠ k) : (s.faultCtx n k code addr).ctx n j = s.ctx n j
    ∨ ((s.ctx n j).st = .ready ∧ (s.faultCtx n k code addr).ctx n j = { s.ctx n j with st := .running, wait := .none }) := by
  rw [State.faultCtx_eq]
  generalize hu : State.raise _ _ _ _ _ = u
  have he : u.ctx n j = s.ctx n j := by
    rw [← hu]
    simp [State.faultRecorded, hj]
  rw [← he]
  exact u.select_ctx n j

/-- A context that has faulted issues nothing. -/
theorem State.faultCtx_issues (s : State) (n k code addr : Nat) : (s.faultCtx n k code addr).issues n k = false := by
  simp [State.issues, State.faultCtx_ctx]

/-- Settles O17, from what a fault records before its event, the registers that an event and selection leave, and what selection can do. -/
theorem contextFault : Obligations.ContextFault := by
  unfold Obligations.ContextFault
  intro s n k code addr hn hk hcode haddr hpc
  have hfld (g : Fld) (hg : g.addr = 2199073587456 + 67108864 * n + 16 * k ∨ g.addr = 2199073587464 + 67108864 * n + 16 * k) :
      (s.faultCtx n k code addr).fld g = (s.faultRecorded n k code addr).fld g := by
    have h0 : g.addr ≠ 2199073587984 + 67108864 * n := by omega
    have h8 : g.addr ≠ 2199073587984 + 67108864 * n + 8 := by omega
    refine s.faultCtx_fld n k code addr ?_ h0 h8
    simp only [evtWords, List.mem_cons, List.not_mem_nil, or_false]
    omega
  refine ⟨s.faultCtx_ctx n k code addr, ?_, ?_, ?_, ?_, s.faultCtx_issues n k code addr, ?_, s.faultCtx_mem n k code addr, ?_⟩
  · rw [hfld (F.CORE_CTX_FAULT_code n k) (.inl rfl), State.faultRecorded_code _ _ _ _ hcode]
  · rw [hfld (F.CORE_CTX_FAULT_pc n k) (.inl rfl), State.faultRecorded_pc _ _ _ _ _ hpc]
  · rw [hfld (F.CORE_CTX_FAULT_addr n k) (.inr rfl), State.faultRecorded_addr _ _ _ _ haddr]
  · exact ⟨_, s.faultRecorded_events n k code addr, s.faultCtx_eq n k code addr⟩
  · exact fun j _ hj => s.faultCtx_ctx_ne n k code addr hj
  · exact fun m hm => s.faultCtx_core_ne n k code addr hm

end Sys2Proof.Machine

end

section
/-! # Translated accesses (O9, O11; R60, R82, R225, R229) -/

namespace Sys2Proof.Machine

/-! ## What the packets of an access count -/

/-- A word that is neither a counter of flits nor one of the event ring's counters. -/
abbrev OffFlits (r : Nat) : Prop :=
  (∀ l, l < 5 → r ≠ (F.FABRIC_FLIT_CNT l).addr ∧ r ≠ (F.FABRIC_FLIT_CNT l).addr + 8) ∧ r ∉ evtWords

/-- Packets between two states count flits and events and leave every other register. -/
structure Counts (s t : State) : Prop where
  quiet : Quiet s t
  reg : ∀ r, OffFlits r → t.reg r = s.reg r

theorem Counts.refl (s : State) : Counts s s := ⟨Quiet.rfl' s, fun _ _ => rfl⟩

theorem Counts.trans {s t u : State} (h : Counts s t) (k : Counts t u) : Counts s u :=
  ⟨h.quiet.trans k.quiet, fun r hr => (k.reg r hr).trans (h.reg r hr)⟩

theorem Counts.foldl {α : Type} {f : State → α → State} (h : ∀ (s : State) (x : α), Counts s (f s x)) (l : List α) (s : State) :
    Counts s (l.foldl f s) := by
  induction l generalizing s with
  | nil => exact Counts.refl s
  | cons x l ih => exact (h s x).trans (ih _)

theorem Counts.fld {s t : State} (h : Counts s t) {g : Fld} (hg : OffFlits g.addr) : t.fld g = s.fld g := by
  simp only [State.fld, h.reg g.addr hg]

/-- A flit counter of a level of the fabric. -/
theorem counts_bumpBy (s : State) {l : Nat} (n : Nat) (hl : l < 5) : Counts s (s.bumpBy (F.FABRIC_FLIT_CNT l) n) :=
  ⟨quiet_bumpBy _ _ _, fun _ hr => reg_bumpBy _ _ _ _ hr.2 (hr.1 l hl).1 (hr.1 l hl).2⟩

theorem counts_travel (s : State) (src dst a flits : Nat) : Counts s (s.travel src dst a flits) := by
  unfold State.travel
  split
  · refine List.foldlRecOn _ _ (Counts.refl s) fun t ht l hl => ht.trans (?_ : Counts t _)
    dsimp only
    split
    · exact Counts.refl t
    · exact counts_bumpBy t _ (List.mem_range.mp hl)
  · exact Counts.refl s

theorem counts_carry (s : State) (src a out back : Nat) : Counts s (s.carry src a out back) := by
  unfold State.carry
  split
  · exact (counts_travel _ _ _ _ _).trans (counts_travel _ _ _ _ _)
  · exact Counts.refl s

theorem counts_walkFlits (s : State) (n va : Nat) : Counts s (s.walkFlits n va) :=
  Counts.foldl (fun t a => counts_carry t n a 0 8) _ s

/-! ## What such a state keeps -/

section
variable {s t : State} (h : Counts s t)
include h

theorem Counts.mem : t.mem = s.mem := h.quiet.field State.mem fun _ _ _ _ _ => rfl
theorem Counts.ckpt : t.ckpt = s.ckpt := h.quiet.field State.ckpt fun _ _ _ _ _ => rfl
theorem Counts.net : t.net = s.net := h.quiet.field State.net fun _ _ _ _ _ => rfl
theorem Counts.core (n : Nat) : t.core n = s.core n := h.quiet.field (State.core · n) fun _ _ _ _ _ => rfl
theorem Counts.ctx (n k : Nat) : t.ctx n k = s.ctx n k := h.quiet.field (State.ctx · n k) fun _ _ _ _ _ => rfl

theorem Counts.flag {g : Fld} (hg : OffFlits g.addr) : t.flag g = s.flag g := by
  unfold State.flag
  rw [h.fld hg]

theorem Counts.edgeSize : t.edgeSize = s.edgeSize := by
  unfold State.edgeSize State.halfMode
  rw [h.flag (by decide)]

theorem Counts.isSelf (n : Nat) : t.isSelf n = s.isSelf n := by
  unfold State.isSelf State.node
  rw [h.fld (by decide)]

theorem Counts.shadowOf (k : Nat) : t.shadowOf k = s.shadowOf k := by
  have hp : t.ownerNodes k = s.ownerNodes k := by
    unfold State.ownerNodes
    rw [h.mem, h.fld (g := F.RED_OWNER_BASE) (by decide), h.fld (g := F.RED_STS_bank) (by decide)]
  unfold State.shadowOf
  rw [hp, h.net]
  dsimp only
  rw [h.isSelf]

theorem Counts.pagesOf (a n : Nat) : t.pagesOf a n = s.pagesOf a n := by
  unfold State.pagesOf
  rw [h.edgeSize]

theorem Counts.clear (a n : Nat) : t.clear a n = s.clear a n := by
  have hd : t.cleanDescs a n = s.cleanDescs a n := by
    simp only [State.cleanDescs, h.pagesOf, h.shadowOf, h.ckpt]
  unfold State.clear State.heldPages State.freeSlots State.marked
  rw [hd, h.pagesOf, h.ckpt, h.fld (by decide)]

end

/-! ## What the use of a TLB entry keeps -/

/-- Using an entry of a TLB changes the TLBs of the core alone. -/
theorem Core.tlbUse_eq (c : Core) (big : Bool) (e : TlbEntry) :
    c.tlbUse big e = { c with tlb1 := (c.tlbUse big e).tlb1, tlb2 := (c.tlbUse big e).tlb2 } := by
  cases big <;> rfl

theorem Core.tlbUse_ctx (c : Core) (big : Bool) (e : TlbEntry) (k : Nat) : (c.tlbUse big e).ctx k = c.ctx k := by
  cases big <;> rfl

theorem Core.tlbUse_snow (c : Core) (big : Bool) (e : TlbEntry) : (c.tlbUse big e).snow = c.snow := by
  cases big <;> rfl

/-- A state in which a core has used an entry of its TLBs. -/
def State.tlbUsed (s : State) (n : Nat) (big : Bool) (e : TlbEntry) : State := s.setCore n ((s.core n).tlbUse big e)

theorem State.tlbUsed_ctx (s : State) (n : Nat) (big : Bool) (e : TlbEntry) (k : Nat) : (s.tlbUsed n big e).ctx n k = s.ctx n k := by
  unfold State.tlbUsed State.ctx
  rw [core_setCore, if_pos rfl, Core.tlbUse_ctx]

theorem Sparse.mem_of_find {α : Type} {m : Sparse α} {j : Nat} {x : α} (h : Sparse.find m j = some x) : (j, x) ∈ m := by
  induction m with
  | nil => cases h
  | cons p m ih =>
    rw [Sparse.find] at h
    split at h
    next he =>
      obtain ⟨q, y⟩ := p
      simp_all
    next => exact List.mem_cons_of_mem _ (ih h)

/-- No more lies under the Snowpacks after an entry is used. -/
theorem State.tlbUsed_bodyHit {s : State} {n : Nat} {big : Bool} {e : TlbEntry} {own : Option Nat} {a len : Nat} (h : s.bodyHit own a len = false) :
    (s.tlbUsed n big e).bodyHit own a len = false := by
  unfold State.bodyHit at h ⊢
  rw [List.any_eq_false] at h ⊢
  intro p hp
  rcases Sparse.mem_put hp with rfl | hp
  · cases hf : Sparse.find s.cores n with
    | none =>
      have hc : s.core n = {} := by simp [State.core, Sparse.get, hf]
      simp [Core.tlbUse_snow, hc]
    | some c =>
      have hc : s.core n = c := by simp [State.core, Sparse.get, hf]
      have := h (n, c) (Sparse.mem_of_find hf)
      simp only [Core.tlbUse_snow, hc]
      exact this
  · exact h p hp

/-- The use of an entry leaves what holds a store. -/
theorem State.tlbUsed_clear (s : State) (n : Nat) (big : Bool) (e : TlbEntry) (a len : Nat) : (s.tlbUsed n big e).clear a len = s.clear a len := rfl

theorem State.tlbUsed_edgeSize (s : State) (n : Nat) (big : Bool) (e : TlbEntry) : (s.tlbUsed n big e).edgeSize = s.edgeSize := rfl

/-- A shorter access meets no Snowpack's body that a longer one does not. -/
theorem State.bodyHit_of_le {s : State} {own : Option Nat} {a l m : Nat} (hlm : l ≤ m) (h : s.bodyHit own a m = false) :
    s.bodyHit own a l = false := by
  unfold State.bodyHit at h ⊢
  rw [List.any_eq_false] at h ⊢
  intro p hp
  have hm := h p hp
  simp only [Bool.and_eq_true, decide_eq_true_eq] at hm ⊢
  rintro ⟨⟨hown, hdepth, hl⟩, hlo, hhi⟩
  exact hm ⟨⟨hown, hdepth, by omega⟩, hlo, by omega⟩

/-! ## The access of a translated address -/

section
variable {i : IM} {s : State} {big : Bool} {e : TlbEntry} {w : Nat} {acc : Access}

theorem leadOf_of_edge (h : Slice0.Edge i s big e w acc) :
    leadOf s i.n i.space.toNat (Slice0.ea i s) w acc = .phys (e.addr big (Slice0.ea i s) % 2 ^ 42) := by
  have hlt : ¬ 2 ^ 48 ≤ Slice0.ea i s := Nat.not_le.mpr h.page.canon
  unfold leadOf
  simp only [h.space, ne_eq, not_true_eq_false, if_false, hlt, h.page.hit, TlbEntry.elsewhere, h.self, Bool.not_true, Bool.false_eq_true,
    checkEntry, h.allowed, h.aligned, decide_false, if_true]

theorem touchTlb_of_edge (h : Slice0.Edge i s big e w acc) : touchTlb i.n (Slice0.ea i s) s = s.tlbUsed i.n big e := by
  unfold touchTlb
  rw [h.page.hit]
  rfl

theorem place_of_edge {s : State} {a w : Nat} (h : a + w ≤ s.edgeSize) : s.place a w = .edge := by
  unfold State.place
  rw [if_pos h]

/-- A read of edge memory that no Snowpack covers returns its bytes. -/
theorem busRead_edge {s : State} {a w : Nat} (he : a + w ≤ s.edgeSize) (hb : s.bodyHit none a w = false) :
    busRead false a w s = (s, .ok (s.mem.bytes a w)) := by
  unfold busRead
  rw [place_of_edge he]
  simp [State.loadEdge, hb]

/-- A write of edge memory that nothing holds stores its bytes. -/
theorem busWrite_edge {s : State} {a : Nat} {bs : List Byte} (org : Option Nat) (he : a + bs.length ≤ s.edgeSize) (hc : s.clear a bs.length = true) :
    busWrite org false false a bs s = (s.store a bs, .ok []) := by
  unfold busWrite
  rw [place_of_edge he]
  simp [hc, State.storeEdge, State.store]

/-- While the fabric takes no packet of the path, the load waits. -/
theorem scalarLoad_of_closed (h : Slice0.Edge i s big e w .read) (hf : s.fabOpen i.n (e.addr big (Slice0.ea i s) % 2 ^ 42) 0 = false)
    (reg : List Byte → Load) : scalarLoad i.n i.k i.space.toNat (Slice0.ea i s) w reg s = s := by
  unfold scalarLoad
  simp only [leadOf_of_edge h, hf, Bool.not_false, if_true]

theorem scalarLoad_of_open (h : Slice0.Edge i s big e w .read) (hf : s.fabOpen i.n (e.addr big (Slice0.ea i s) % 2 ^ 42) 0 = true)
    (hb : s.bodyHit none (e.addr big (Slice0.ea i s) % 2 ^ 42) w = false) (reg : List Byte → Load) :
    scalarLoad i.n i.k i.space.toNat (Slice0.ea i s) w reg s =
      ((s.tlbUsed i.n big e).carry i.n (e.addr big (Slice0.ea i s) % 2 ^ 42) 0 w).setCtx i.n i.k
        (Ctx.adv { s.ctx i.n i.k with loads := (s.ctx i.n i.k).loads ++ [reg (s.mem.bytes (e.addr big (Slice0.ea i s) % 2 ^ 42) w)] } 8) := by
  have hr := busRead_edge (s := s.tlbUsed i.n big e) h.edge (State.tlbUsed_bodyHit hb)
  unfold scalarLoad
  simp only [leadOf_of_edge h, hf, Bool.not_true, Bool.false_eq_true, if_false, touchTlb_of_edge h, hr,
    (counts_carry _ _ _ _ _).ctx, State.tlbUsed_ctx]
  rfl

theorem scalarStore_of_closed {bs : List Byte} (h : Slice0.Edge i s big e bs.length .write)
    (hf : s.fabOpen i.n (e.addr big (Slice0.ea i s) % 2 ^ 42) 0 = false) : scalarStore i.n i.k i.space.toNat (Slice0.ea i s) bs s = s := by
  unfold scalarStore
  simp only [leadOf_of_edge h, hf, Bool.not_false, if_true]

theorem scalarStore_of_open {bs : List Byte} (h : Slice0.Edge i s big e bs.length .write)
    (hf : s.fabOpen i.n (e.addr big (Slice0.ea i s) % 2 ^ 42) 0 = true) (hc : s.clear (e.addr big (Slice0.ea i s) % 2 ^ 42) bs.length = true) :
    scalarStore i.n i.k i.space.toNat (Slice0.ea i s) bs s =
      (((s.tlbUsed i.n big e).carry i.n (e.addr big (Slice0.ea i s) % 2 ^ 42) bs.length 0).advance i.n i.k 8).store
        (e.addr big (Slice0.ea i s) % 2 ^ 42) bs := by
  have hcarry := counts_carry (s.tlbUsed i.n big e) i.n (e.addr big (Slice0.ea i s) % 2 ^ 42) bs.length 0
  have hw := busWrite_edge (s := s.tlbUsed i.n big e) (some i.n) h.edge hc
  have hw2 := busWrite_edge (s := ((s.tlbUsed i.n big e).carry i.n (e.addr big (Slice0.ea i s) % 2 ^ 42) bs.length 0).advance i.n i.k 8)
    (some i.n) (hcarry.edgeSize ▸ h.edge) ((hcarry.clear _ _).trans hc)
  unfold scalarStore
  simp only [leadOf_of_edge h, hf, Bool.not_true, Bool.false_eq_true, if_false, touchTlb_of_edge h, hw, hw2]

end

/-! ## Loads and stores of edge memory -/

theorem exec_ld (i : IM) (s : State) : exec (.ld i) s = execLd i s := by rfl
theorem exec_tld (i : IM) (s : State) : exec (.tld i) s = execTld i s := by rfl
theorem exec_st (i : IM) (s : State) : exec (.st i) s = execSt i s := by rfl
theorem exec_tst (i : IM) (s : State) : exec (.tst i) s = execTst i s := by rfl

section
variable {i : IM} {s : State}

/-- A legal LD that executes loads from s[a] + imm. -/
theorem exec_ld_executes (h : s.Executes i.n i.k i.pg i.pn [i.a.toNat] []) (hl : i.legal true = true) :
    exec (.ld i) s = .next (scalarLoad i.n i.k i.space.toNat (Slice0.ea i s) (2 ^ i.size.toNat)
      (fun bs => ⟨false, i.d.toNat, Slice0.loaded i (leNat bs)⟩) s) := by
  rw [exec_ld, execLd, issue_executes h hl]
  rfl

theorem exec_tld_executes (h : s.Executes i.n i.k i.pg i.pn [i.a.toNat] [i.d.toNat]) (hl : i.legalDesc = true) :
    exec (.tld i) s = .next (scalarLoad i.n i.k i.space.toNat (Slice0.ea i s) 32 (fun bs => ⟨true, i.d.toNat, BitVec.ofNat 256 (leNat bs)⟩) s) := by
  rw [exec_tld, execTld, issue_executes h hl]
  rfl

/-- A legal ST that executes stores the low bytes of s[d] at s[a] + imm. -/
theorem exec_st_executes (h : s.Executes i.n i.k i.pg i.pn [i.a.toNat, i.d.toNat] []) (hl : i.legal false = true) :
    exec (.st i) s = .next (scalarStore i.n i.k i.space.toNat (Slice0.ea i s) (leBytes (2 ^ i.size.toNat) (Slice0.stored false i s)) s) := by
  rw [exec_st, execSt, issue_executes h hl]
  rfl

theorem exec_tst_executes (h : s.Executes i.n i.k i.pg i.pn [i.a.toNat] [i.d.toNat]) (hl : i.legalDesc = true) :
    exec (.tst i) s = .next (scalarStore i.n i.k i.space.toNat (Slice0.ea i s) (leBytes 32 (Slice0.stored true i s)) s) := by
  rw [exec_tst, execTst, issue_executes h hl]
  rfl

end

/-- The widths of LD and ST are at most 8 bytes. -/
theorem width_le (i : IM) : 2 ^ i.size.toNat ≤ 32 :=
  Nat.pow_le_pow_right (j := 5) (by omega) (by have := i.size.isLt; omega)

theorem slice0_edgeAccess : Slice0.EdgeAccess := by
  unfold Slice0.EdgeAccess
  intro i s big e
  dsimp only
  refine ⟨fun hf => ⟨?_, ?_, ?_, ?_⟩, fun hf hoff => ⟨?_, ?_, ?_, ?_⟩⟩
  · intro hx hl he
    rw [exec_ld_executes hx hl, scalarLoad_of_closed he hf]
  · intro hx hl he
    rw [exec_tld_executes hx hl, scalarLoad_of_closed he hf]
  · intro hx hl he
    rw [exec_st_executes hx hl, scalarStore_of_closed (by rwa [length_leBytes]) hf]
  · intro hx hl he
    rw [exec_tst_executes hx hl, scalarStore_of_closed (by rwa [length_leBytes]) hf]
  · intro hx hl he
    rw [exec_ld_executes hx hl, scalarLoad_of_open he hf (State.bodyHit_of_le (width_le i) hoff.2)]
    rfl
  · intro hx hl he
    rw [exec_tld_executes hx hl, scalarLoad_of_open he hf hoff.2]
    rfl
  · intro hx hl he hc
    rw [exec_st_executes hx hl, scalarStore_of_open (by rwa [length_leBytes]) hf (by rwa [length_leBytes]), length_leBytes]
    rfl
  · intro hx hl he hc
    rw [exec_tst_executes hx hl, scalarStore_of_open (by rwa [length_leBytes]) hf (by rwa [length_leBytes]), length_leBytes]
    rfl

/-- A store that no Freeze marks and no Snowpack covers writes its bytes. -/
theorem State.store_eq {s : State} {a : Nat} {bs : List Byte} (hh : s.heldPages a bs.length = []) (hs : Slice0.OffSnow s a bs.length) :
    s.store a bs = { s with mem := s.mem.writeBytes a bs } := by
  obtain ⟨htop, hbody⟩ := hs
  simp [State.store, State.storeBy, hh, State.overSnow, htop, hbody]

theorem Mem.stored_writeBytes (m : Mem) (a w v : Nat) : Slice0.Stored a w v m (m.writeBytes a (leBytes w v)) := by
  refine ⟨fun j hj => ?_, fun b hb => ?_⟩
  · rw [Mem.read_writeBytes, length_leBytes, if_pos (by omega), Nat.add_sub_cancel_left, getD_leBytes _ _ _ hj]
  · rw [Mem.read_writeBytes, length_leBytes, if_neg (by omega)]

theorem slice0_edgeStore : Slice0.EdgeStore := by
  unfold Slice0.EdgeStore
  intro s a w v hh hs
  rw [State.store_eq (by rwa [length_leBytes]) (by rwa [length_leBytes])]
  exact ⟨Mem.stored_writeBytes s.mem a w v, rfl⟩

theorem slice0_carryFrame : Slice0.CarryFrame := by
  unfold Slice0.CarryFrame
  intro src a out back s
  have h := counts_carry s src a out back
  exact ⟨h.quiet, fun r hl hr => h.reg r ⟨hl, hr⟩⟩

/-- Settles O9, from what the packets of an access and the use of a TLB entry keep, and what a store writes. -/
theorem virtualEdgeAccess : Obligations.VirtualEdgeAccess := ⟨slice0_edgeAccess, slice0_edgeStore, slice0_carryFrame⟩

/-! ## Misses and walks -/

section
variable {i : IM} {s : State} {w : Nat} {acc : Access}

/-- A canonical address that no TLB translates waits for a walk. -/
theorem leadOf_of_miss (hsp : i.space.toNat = 0) (hva : Slice0.ea i s < 2 ^ 48) (hmiss : (s.core i.n).tlbFind (Slice0.ea i s) = none) :
    leadOf s i.n i.space.toNat (Slice0.ea i s) w acc = .walk := by
  have hlt : ¬ 2 ^ 48 ≤ Slice0.ea i s := Nat.not_le.mpr hva
  unfold leadOf
  simp only [hsp, ne_eq, not_true_eq_false, if_false, hlt, hmiss]

theorem scalarLoad_of_walk (h : leadOf s i.n i.space.toNat (Slice0.ea i s) w .read = .walk) (reg : List Byte → Load) :
    scalarLoad i.n i.k i.space.toNat (Slice0.ea i s) w reg s = startWalk i.n i.k (Slice0.ea i s) w .read s := by
  unfold scalarLoad
  simp only [h]

theorem scalarStore_of_walk {bs : List Byte} (h : leadOf s i.n i.space.toNat (Slice0.ea i s) bs.length .write = .walk) :
    scalarStore i.n i.k i.space.toNat (Slice0.ea i s) bs s = startWalk i.n i.k (Slice0.ea i s) bs.length .write s := by
  unfold scalarStore
  simp only [h]

end

/-- Every access that no TLB translates starts a walk. -/
theorem exec_access_of_miss {p : Slice0.Acc} (hp : p ∈ Slice0.accesses) {i : IM} {s : State} (hx : s.Executes i.n i.k i.pg i.pn (p.rs i) (p.ts i))
    (hl : p.legal i = true) (hsp : i.space.toNat = 0) (hva : Slice0.ea i s < 2 ^ 48) (hmiss : (s.core i.n).tlbFind (Slice0.ea i s) = none) :
    exec (p.make i) s = .next (startWalk i.n i.k (Slice0.ea i s) (p.w i) p.acc s) := by
  simp only [Slice0.accesses, List.mem_cons, List.not_mem_nil, or_false] at hp
  rcases hp with rfl | rfl | rfl | rfl
  · rw [exec_ld_executes hx hl, scalarLoad_of_walk (leadOf_of_miss hsp hva hmiss)]
  · rw [exec_st_executes hx hl, scalarStore_of_walk (leadOf_of_miss hsp hva hmiss), length_leBytes]
  · rw [exec_tld_executes hx hl, scalarLoad_of_walk (leadOf_of_miss hsp hva hmiss)]
  · rw [exec_tst_executes hx hl, scalarStore_of_walk (leadOf_of_miss hsp hva hmiss), length_leBytes]

theorem exec_atuWalkReturn (core : BitVec 10) (s : State) :
    exec (.atuWalkReturn core) s = .next (s.unlessStopped core.toNat (walkReturn core.toNat)) := by rfl

section
variable {s t : State} {n : Nat} {w : Walk} {ws : List Walk} (ht : (s.setCore n { s.core n with walks := ws }).walkFlits n w.va = t)
include ht

/-- The walk that is taken from its queue, its reads counted, leaves the contexts. -/
theorem walkTaken_ctx (k : Nat) : t.ctx n k = s.ctx n k := by
  rw [← ht, (counts_walkFlits _ _ _).ctx, State.ctx, State.core_setCore, if_pos rfl]
  rfl

theorem walkTaken_isSelf (j : Nat) : t.isSelf j = s.isSelf j := by
  rw [← ht, (counts_walkFlits _ _ _).isSelf]
  rfl

/-- The return of a walk whose context still waits for it, by the answer of the tables. -/
theorem walkReturn_waiting (hw : (s.core n).walks = w :: ws) (hinc : (s.ctx n w.ctx).inc = w.inc) (hst : (s.ctx n w.ctx).st = .waiting)
    (hwait : (s.ctx n w.ctx).wait = .walk) : walkReturn n s =
      match t.walkTables n w.va with
      | .inl code => t.faultCtx n w.ctx (if w.misaligned then E.ALIGN else code) w.va
      | .inr (big, e) =>
        if e.allows w.acc (e.addr big w.va) then (t.setCore n ((t.core n).tlbUse big e)).makeReady n w.ctx
        else t.faultCtx n w.ctx (if s.isSelf (e.addr big w.va / 2 ^ 42) = false then E.SPACE else if w.misaligned then E.ALIGN else E.PAGE_PERM) w.va := by
  have hctx := walkTaken_ctx ht w.ctx
  have hself := walkTaken_isSelf ht
  rw [walkReturn]
  -- the two functions become variables: the kernel would evaluate them to compare two states
  generalize State.walkTables = tables
  generalize State.walkFlits = flits at ht ⊢
  dsimp only at ht
  split
  next he => simp [he] at hw
  next v vs he =>
    obtain ⟨rfl, rfl⟩ := List.cons.inj (he.symm.trans hw)
    rw [ht]
    extract_lets s1 x bad
    have hx : x = s.ctx n v.ctx := hctx
    rw [if_neg (by simp [hx, hinc, hst, hwait])]
    cases tables t n v.va with
    | inl code => rfl
    | inr p =>
      obtain ⟨big, e⟩ := p
      by_cases ha : e.allows v.acc (e.addr big v.va) = true
      · simp only [checkEntry, ha, if_true]
        rfl
      · simp only [checkEntry, ha, TlbEntry.elsewhere, Bool.false_eq_true, if_false, Bool.not_eq_true']
        split
        next hs =>
          rw [if_pos ((hself _).symm.trans hs)]
        next hs =>
          rw [if_neg (fun h => hs ((hself _).trans h))]

end

/-- Settles O11, from the access that misses and the return of the walk by the answer of the tables. -/
theorem translationWalk : Obligations.TranslationWalk := by
  unfold Obligations.TranslationWalk
  refine ⟨fun p hp i s hx hl hsp hva hmiss => exec_access_of_miss hp hx hl hsp hva hmiss, ?_⟩
  intro core s w ws hstop hw hinc hst hwait
  have hret : exec (.atuWalkReturn core) s = .next (walkReturn core.toNat s) := by
    rw [exec_atuWalkReturn, State.unlessStopped, hstop]
    rfl
  intro s1
  obtain ⟨t, ht⟩ : ∃ t, (s.setCore core.toNat { s.core core.toNat with walks := ws }).walkFlits core.toNat w.va = t := ⟨_, rfl⟩
  have hs1 : s1 = t := ht
  rw [hs1, hret, walkReturn_waiting ht hw hinc hst hwait]
  refine ⟨fun big e htab ha => ?_, fun big e htab ha => ?_, fun code htab => ?_⟩
  · simp only [htab, ha, if_true]
  · simp only [htab, ha, Bool.false_eq_true, if_false]
  · simp only [htab]

end Sys2Proof.Machine

end

section
/-! # The registers of a core (O27, O28; R48, R61, R63, R181, R182, R189) -/

namespace Sys2Proof.Machine

/-! ## Where a register write of a core arrives -/

section
variable {s : State} {n : Nat} (f : State → State)

theorem State.atCore_of_reached (h : Slice0.Reached s n) : s.atCore n f = f s := by
  have hn : ¬ s.ncores ≤ n := Nat.not_le.mpr h.exists_
  simp [State.atCore, hn, h.opened, h.moving]

theorem State.atCore_of_absent (h : s.ncores ≤ n) : s.atCore n f = s := by
  simp [State.atCore, h]

theorem State.atCore_of_closed (h : n < s.ncores) (hp : s.portOpen n = false) : s.atCore n f = s.bump F.CORE_MAP_ABSORB_CNT := by
  simp [State.atCore, Nat.not_le.mpr h, hp]

theorem State.atCore_of_hold (h : n < s.ncores) (hp : s.portOpen n = true) (hh : s.flag F.PWR_STS_hold = true) : s.atCore n f = s.kick n := by
  simp [State.atCore, Nat.not_le.mpr h, hp, hh]

end

/-- A port is open at a site in IDLE or RUN alone. -/
theorem State.sitePower_of_portOpen {s : State} {n : Nat} (h : s.portOpen n = true) : 2 ≤ s.sitePower (s.siteOf n) := by
  simp only [State.portOpen, Bool.and_eq_true, decide_eq_true_eq] at h
  exact h.1

/-! ## A start by register (R441) -/

theorem exec_coreCtxStartWrite (core : BitVec 10) (v : W64) (s : State) : exec (.coreCtxStartWrite core v) s =
    .next (if core.toNat < s.ncores ∧ s.sitePower (s.siteOf core.toNat) = 1 then ctxStart core.toNat v s
      else s.atCore core.toNat (ctxStart core.toNat v)) := by rfl

/-- Away from RET a start by register is a register write like any other. -/
theorem exec_coreCtxStartWrite_atCore (core : BitVec 10) (v : W64) {s : State}
    (h : core.toNat < s.ncores → s.sitePower (s.siteOf core.toNat) ≠ 1) :
    exec (.coreCtxStartWrite core v) s = .next (s.atCore core.toNat (ctxStart core.toNat v)) := by
  rw [exec_coreCtxStartWrite, if_neg (fun hx => h hx.1 hx.2)]

/-- The start that CORE_CTX_START describes. -/
def startOf (s : State) (n : Nat) (v : W64) : HeldStart :=
  ⟨n, fieldOf v 0 3, s.fld (F.CORE_CTX_START_pc n) * 8, s.reg (F.CORE_CTX_START_arg n).addr, s.fld (F.CORE_CTX_START_mask n),
    s.fld (F.CORE_CTX_START_desc n) * 32⟩

theorem ctxStart_of_ret {s : State} {n : Nat} (v : W64) (h : s.sitePower (s.siteOf n) = 1) :
    ctxStart n v s = { s with heldStarts := s.heldStarts ++ [startOf s n v], trans := Sparse.put s.trans (s.siteOf n) 2 } := by
  simp only [ctxStart, h, Nat.one_ne_zero, if_false, if_true]
  rfl

theorem ctxStart_of_power {s : State} {n : Nat} (v : W64) (h : 2 ≤ s.sitePower (s.siteOf n)) :
    ctxStart n v s = startNow (startOf s n v) (s.kick n) := by
  have h0 : ¬ s.sitePower (s.siteOf n) = 0 := by omega
  have h1 : ¬ s.sitePower (s.siteOf n) = 1 := by omega
  simp only [ctxStart, h0, h1, if_false]
  rfl

/-- What a start leaves of its context. -/
theorem State.startCtx_ctx (s : State) (n k pc : Nat) (arg : W64) (ts : Sparse Desc) (x : Ctx)
    (hx : x = { st := .ready, s := [(1, arg)], t := ts, pc := pc, inc := (s.ctx n k).inc + 1 }) :
    (s.startCtx n k pc arg ts).ctx n k = x ∨ (s.startCtx n k pc arg ts).ctx n k = { x with st := .running, wait := .none } := by
  have hs : s.startCtx n k pc arg ts = ((s.setCtx n k x).kick n).select n := by
    rw [hx]
    rfl
  rw [hs]
  rcases State.select_ctx ((s.setCtx n k x).kick n) n k with h | ⟨-, h⟩ <;> rw [h] <;> simp

theorem slice0_startByRegister : Slice0.StartByRegister := by
  unfold Slice0.StartByRegister
  intro core v s
  dsimp only
  have hreached (h : Slice0.Reached s core.toNat) :
      exec (.coreCtxStartWrite core v) s = .next (startNow (startOf s core.toNat v) (s.kick core.toNat)) := by
    have hp := State.sitePower_of_portOpen h.opened
    rw [exec_coreCtxStartWrite_atCore core v (fun _ => by omega), State.atCore_of_reached _ h, ctxStart_of_power v hp]
  refine ⟨fun h hfree => ?_, fun h hfree => ?_, fun hn hret => ?_⟩
  · have hstart : startNow (startOf s core.toNat v) (s.kick core.toNat) = (s.kick core.toNat).startCtx core.toNat (fieldOf v 0 3)
        (s.fld (F.CORE_CTX_START_pc core.toNat) * 8) (s.reg (F.CORE_CTX_START_arg core.toNat).addr)
        (startDescs core.toNat (s.fld (F.CORE_CTX_START_mask core.toNat)) (s.fld (F.CORE_CTX_START_desc core.toNat) * 32) (s.kick core.toNat)) := by
      rw [startNow, if_pos (by rw [State.kick_ctx]; exact hfree)]
      rfl
    rw [hstart] at hreached
    refine ⟨hreached h, _, hreached h, ?_⟩
    generalize startDescs core.toNat _ _ _ = ts
    rw [State.startCtx_mem, State.kick_mem]
    rcases State.startCtx_ctx (s.kick core.toNat) core.toNat (fieldOf v 0 3) (s.fld (F.CORE_CTX_START_pc core.toNat) * 8)
      (s.reg (F.CORE_CTX_START_arg core.toNat).addr) ts _ rfl with hx | hx
    · rw [hx]
      exact ⟨rfl, rfl, .inl rfl, by rw [State.kick_ctx], rfl⟩
    · rw [hx]
      exact ⟨rfl, rfl, .inr rfl, by rw [State.kick_ctx], rfl⟩
  · rw [hreached h, startNow, if_neg (by rw [State.kick_ctx]; exact hfree)]
  · have hr : core.toNat < s.ncores ∧ s.sitePower (s.siteOf core.toNat) = 1 := ⟨hn, hret⟩
    rw [exec_coreCtxStartWrite, if_pos hr, ctxStart_of_ret v hr.2]
    rfl

/-! ## Resume and kill (R63) -/

/-- What the selection of contexts may make of one: a READY one may become RUNNING. -/
def Selected (x y : Ctx) : Prop := y = x ∨ (x.st = .ready ∧ y = { x with st := .running, wait := .none })

theorem Selected.trans {x y z : Ctx} (h : Selected x y) (k : Selected y z) : Selected x z := by
  rcases h with rfl | ⟨hx, rfl⟩
  · exact k
  · rcases k with rfl | ⟨hy, -⟩
    · exact .inr ⟨hx, rfl⟩
    · cases hy

theorem Selected.eq_of_faulted {x y : Ctx} (h : Selected x y) (hf : x.st = .faulted) : y = x := by
  rcases h with h | ⟨hx, -⟩
  · exact h
  · rw [hf] at hx
    cases hx

theorem Selected.faulted_iff {x y : Ctx} (h : Selected x y) : y.st = .faulted ↔ x.st = .faulted := by
  rcases h with rfl | ⟨hx, rfl⟩
  · rfl
  · simp [hx]

/-- An operation on one context gives it the value of `g`, and selection does the rest. -/
def Puts (n : Nat) (g : Ctx → Ctx) (f : State → Nat → State) : Prop :=
  ∀ (s : State) (k j : Nat), Selected (if j = k then g (s.ctx n k) else s.ctx n j) ((f s k).ctx n j)

theorem puts_makeReady (n : Nat) : Puts n (fun x => { x with st := .ready, wait := .none }) (fun s k => s.makeReady n k) := by
  intro s k j
  have h : ((s.setCtx n k { s.ctx n k with st := .ready, wait := .none }).kick n).ctx n j =
      if j = k then { s.ctx n k with st := .ready, wait := .none } else s.ctx n j := by simp
  rw [← h]
  exact State.select_ctx _ n j

theorem puts_freeCtx (n : Nat) : Puts n Slice0.freed (fun s k => s.freeCtx n k) := by
  intro s k j
  have h : (s.setCtx n k (Slice0.freed (s.ctx n k))).ctx n j = if j = k then Slice0.freed (s.ctx n k) else s.ctx n j := by simp
  rw [← h]
  exact State.select_ctx _ n j

/-- The operation on one context that a write of `v` names, when the context is FAULTED. -/
def onFaulted (n : Nat) (v : W64) (f : State → Nat → State) (s : State) (k : Nat) : State :=
  if v.getLsbD k && decide ((s.ctx n k).st = .faulted) then f s k else s

theorem ctxResume_eq (n : Nat) (v : W64) (s : State) :
    ctxResume n v s = (List.range 8).foldl (onFaulted n v fun st k => st.makeReady n k) s := rfl

theorem ctxKill_eq (n : Nat) (v : W64) (s : State) :
    ctxKill n v s = (List.range 8).foldl (onFaulted n v fun st k => st.freeCtx n k) s := rfl

section
variable {n : Nat} {v : W64} {g : Ctx → Ctx} {f : State → Nat → State} (hf : Puts n g f)
include hf

theorem onFaulted_named {s : State} {k : Nat} (h : v.getLsbD k = true ∧ (s.ctx n k).st = .faulted) :
    Selected (g (s.ctx n k)) ((onFaulted n v f s k).ctx n k) := by
  rw [onFaulted, if_pos (by simp [h.1, h.2])]
  have hk := hf s k k
  rwa [if_pos rfl] at hk

theorem onFaulted_other {s : State} {k j : Nat} (h : j = k → ¬ (v.getLsbD k = true ∧ (s.ctx n k).st = .faulted)) :
    Selected (s.ctx n j) ((onFaulted n v f s k).ctx n j) := by
  unfold onFaulted
  split
  next hk =>
    have hj : j ≠ k := fun he => h he (by simpa using hk)
    have hsel := hf s k j
    rwa [if_neg hj] at hsel
  next => exact .inl rfl

/-- What a list of such operations makes of a context: the one it names has the value of `g`, once. -/
theorem foldl_onFaulted (l : List Nat) (hl : l.Nodup) (s : State) (k : Nat) :
    (k ∈ l → v.getLsbD k = true ∧ (s.ctx n k).st = .faulted → Selected (g (s.ctx n k)) ((l.foldl (onFaulted n v f) s).ctx n k))
    ∧ (¬ (k ∈ l ∧ v.getLsbD k = true ∧ (s.ctx n k).st = .faulted) → Selected (s.ctx n k) ((l.foldl (onFaulted n v f) s).ctx n k)) := by
  induction l generalizing s with
  | nil => exact ⟨fun h => absurd h List.not_mem_nil, fun _ => .inl rfl⟩
  | cons a l ih =>
    obtain ⟨ha, hl⟩ := List.nodup_cons.mp hl
    obtain ⟨hnamed, hother⟩ := ih hl (onFaulted n v f s a)
    rw [List.foldl_cons]
    by_cases hk : k = a
    · subst hk
      have hrest := hother fun h => ha h.1
      exact ⟨fun _ h => (onFaulted_named hf h).trans hrest,
        fun h => (onFaulted_other hf fun _ hc => h ⟨List.mem_cons_self, hc⟩).trans hrest⟩
    · have hstep : Selected (s.ctx n k) ((onFaulted n v f s a).ctx n k) := onFaulted_other hf fun he => absurd he hk
      refine ⟨fun hm h => ?_, fun h => ?_⟩
      · have he := hstep.eq_of_faulted h.2
        rw [he] at hnamed
        exact hnamed ((List.mem_cons.mp hm).resolve_left hk) h
      · refine hstep.trans (hother fun hc => h ⟨List.mem_cons_of_mem _ hc.1, hc.2.1, hstep.faulted_iff.mp hc.2.2⟩)

/-- The same for the eight contexts of a core. -/
theorem foldl_onFaulted_range (s : State) {k : Nat} (hk : k < 8) :
    (v.getLsbD k = true ∧ (s.ctx n k).st = .faulted → Selected (g (s.ctx n k)) (((List.range 8).foldl (onFaulted n v f) s).ctx n k))
    ∧ (¬ (v.getLsbD k = true ∧ (s.ctx n k).st = .faulted) → Selected (s.ctx n k) (((List.range 8).foldl (onFaulted n v f) s).ctx n k)) := by
  obtain ⟨hnamed, hother⟩ := foldl_onFaulted (v := v) hf (List.range 8) List.nodup_range s k
  exact ⟨hnamed (List.mem_range.mpr hk), fun h => hother fun hc => h hc.2⟩

end

theorem exec_coreCtxResumeWrite (core : BitVec 10) (v : W64) (s : State) :
    exec (.coreCtxResumeWrite core v) s = .next (s.atCore core.toNat (ctxResume core.toNat v)) := by rfl

theorem exec_coreCtxKillWrite (core : BitVec 10) (v : W64) (s : State) :
    exec (.coreCtxKillWrite core v) s = .next (s.atCore core.toNat (ctxKill core.toNat v)) := by rfl

theorem slice0_resumeAndKill : Slice0.ResumeAndKill := by
  unfold Slice0.ResumeAndKill
  intro core v s h
  dsimp only
  refine ⟨⟨ctxResume core.toNat v s, ?_, ctxResume_mem .., fun k hk => ?_⟩, ⟨ctxKill core.toNat v s, ?_, ctxKill_mem .., fun k hk => ?_⟩⟩
  · rw [exec_coreCtxResumeWrite, State.atCore_of_reached _ h]
  · obtain ⟨hnamed, hother⟩ := foldl_onFaulted_range (v := v) (puts_makeReady core.toNat) s hk
    rw [← ctxResume_eq] at hnamed hother
    exact ⟨fun hn => (hnamed hn).imp id And.right, hother⟩
  · rw [exec_coreCtxKillWrite, State.atCore_of_reached _ h]
  · obtain ⟨hnamed, hother⟩ := foldl_onFaulted_range (v := v) (puts_freeCtx core.toNat) s hk
    rw [← ctxKill_eq] at hnamed hother
    refine ⟨fun hn => (hnamed hn).resolve_right fun hr => ?_, hother⟩
    cases hr.1

/-! ## Registers of a core that is not reached (R220, R352) -/

/-- A register write that only goes to its core. -/
def GoesToCore (c : Instr) (n : Nat) (s : State) : Prop := ∃ f : State → State, exec c s = .next (s.atCore n f)

theorem notReached_of_goesToCore {c : Instr} {n : Nat} {s : State} (h : GoesToCore c n s) :
    (s.ncores ≤ n → exec c s = .next s)
    ∧ (n < s.ncores → s.portOpen n = false → exec c s = .next (s.bump F.CORE_MAP_ABSORB_CNT))
    ∧ (n < s.ncores → s.portOpen n = true → s.flag F.PWR_STS_hold = true → exec c s = .next (s.kick n)) := by
  obtain ⟨f, hf⟩ := h
  rw [hf]
  refine ⟨fun hn => ?_, fun hn hp => ?_, fun hn hp hh => ?_⟩
  · rw [State.atCore_of_absent f hn]
  · rw [State.atCore_of_closed f hn hp]
  · rw [State.atCore_of_hold f hn hp hh]

theorem slice0_coreNotReached : Slice0.CoreNotReached := by
  unfold Slice0.CoreNotReached
  intro core v ring slot s c hc
  have hgoes (hp : core.toNat < s.ncores → s.sitePower (s.siteOf core.toNat) ≠ 1) : GoesToCore c core.toNat s := by
    simp only [List.mem_cons, List.not_mem_nil, or_false] at hc
    rcases hc with rfl | rfl | rfl | rfl | rfl | rfl | rfl | rfl | rfl | rfl | rfl
    case inl => exact ⟨_, exec_coreCtxStartWrite_atCore core v hp⟩
    all_goals exact ⟨_, rfl⟩
  refine ⟨fun hn => ?_, fun hn hopen hp => ?_, fun hn hopen hh => ?_⟩
  · exact (notReached_of_goesToCore (hgoes fun hlt => absurd hlt (Nat.not_lt.mpr hn))).1 hn
  · exact (notReached_of_goesToCore (hgoes fun _ => hp)).2.1 hn hopen
  · have hp := State.sitePower_of_portOpen hopen
    exact (notReached_of_goesToCore (hgoes fun _ => by omega)).2.2 hn hopen hh

/-- Settles O27, from what a start leaves of its context, what a list of resumes or kills makes of each context, and where a register write arrives. -/
theorem contextControl : Obligations.ContextControl := ⟨slice0_startByRegister, slice0_resumeAndKill, slice0_coreNotReached⟩

end Sys2Proof.Machine

end

section
/-! # Configuration and control registers of a core (O28; R48, R61, R181, R182, R189) -/

namespace Sys2Proof.Machine

/-! ## SRAM configuration and the ATU (R48, R61) -/

theorem exec_coreSramCfgWrite (core : BitVec 10) (v : W64) (s : State) :
    exec (.coreSramCfgWrite core v) s = .next (s.atCore core.toNat (sramCfg core.toNat v)) := by rfl

theorem exec_coreAtuInvalWrite (core : BitVec 10) (v : W64) (s : State) :
    exec (.coreAtuInvalWrite core v) s = .next (s.atCore core.toNat (atuInval core.toNat v)) := by rfl

theorem exec_atuInvalDone (core : BitVec 10) (s : State) : exec (.atuInvalDone core) s =
    .next (if s.flag F.PWR_STS_hold then s else s.setCore core.toNat { s.core core.toNat with invalBusy := false }) := by rfl

/-- A core is quiet when its contexts are FREE and its queues are empty. -/
theorem Core.quiet_iff (c : Core) : c.quiet = true ↔
    (∀ p ∈ c.ctxs, p.2.st = .free) ∧ (∀ e ∈ [c.a0, c.a1, c.schuss, c.groomer, c.vector, c.snowU, c.digest], e.queue = []) ∧ c.sq = [] := by
  simp only [Core.quiet, Bool.and_eq_true, List.all_eq_true, decide_eq_true_eq, List.isEmpty_iff, and_assoc]

theorem sramCfg_of_quiet {s : State} {n : Nat} (v : W64) (h : (s.core n).quiet = true) :
    sramCfg n v s = (s.setFld (F.CORE_SRAM_CFG_swizzle n) (fieldOf v 0 1)).lundef n 1 0 0x3000000 := by
  rw [sramCfg, if_pos h]

theorem sramCfg_of_busy {s : State} {n : Nat} (v : W64) (h : ¬ (s.core n).quiet = true) :
    sramCfg n v s = s.raise EV.CORE_CFG_LOCKED 2 n (leBytes 2 n) := by
  rw [sramCfg, if_neg h]
  rfl

theorem atuInval_all {n : Nat} {v : W64} (s : State) (h : v.getLsbD 63 = true) :
    atuInval n v s = s.setCore n { s.core n with tlb1 := [], tlb2 := [], invalBusy := true } := by
  rw [atuInval, if_pos h]

theorem atuInval_one {n : Nat} {v : W64} (s : State) (h : v.getLsbD 63 = false) :
    atuInval n v s = s.setCore n { s.core n with
      tlb1 := (s.core n).tlb1.filter (fun e => e.page ≠ fieldOf v 0 48 / 2 ^ 30)
      tlb2 := (s.core n).tlb2.filter (fun e => e.page ≠ fieldOf v 0 48 / 2 ^ 21)
      invalBusy := true } := by
  rw [atuInval, if_neg (by rw [h]; exact Bool.false_ne_true)]

theorem slice0_coreConfiguration : Slice0.CoreConfiguration := by
  unfold Slice0.CoreConfiguration
  refine ⟨fun core v s h => ?_, fun core s => ⟨fun hh => ?_, fun hh => ?_⟩⟩
  · dsimp only
    rw [exec_coreSramCfgWrite, exec_coreAtuInvalWrite, State.atCore_of_reached _ h, State.atCore_of_reached _ h, ← Core.quiet_iff]
    refine ⟨fun hq => ?_, fun hq => ?_, fun hv => ?_, fun hv => ?_⟩
    · rw [sramCfg_of_quiet v hq]
      rfl
    · rw [sramCfg_of_busy v hq]
    · rw [atuInval_all s hv]
    · rw [atuInval_one s hv]
  · rw [exec_atuInvalDone, if_neg (by rw [hh]; exact Bool.false_ne_true)]
  · rw [exec_atuInvalDone, if_pos hh]

/-! ## Rings and slots (R181, R182) -/

theorem exec_coreRingResume (core : BitVec 10) (ring : BitVec 4) (s : State) :
    exec (.coreRingResume core ring) s = .next (s.atCore core.toNat (ringResume core.toNat ring.toNat)) := by rfl

theorem exec_coreRingAbort (core : BitVec 10) (ring : BitVec 4) (s : State) :
    exec (.coreRingAbort core ring) s = .next (s.atCore core.toNat (ringAbort core.toNat ring.toNat)) := by rfl

theorem exec_coreRingReset (core : BitVec 10) (ring : BitVec 4) (s : State) :
    exec (.coreRingReset core ring) s = .next (s.atCore core.toNat (ringReset core.toNat ring.toNat)) := by rfl

theorem exec_coreXslotResume (core : BitVec 10) (slot : BitVec 3) (s : State) :
    exec (.coreXslotResume core slot) s = .next (s.atCore core.toNat (slotResume core.toNat slot.toNat)) := by rfl

theorem exec_coreXslotAbort (core : BitVec 10) (slot : BitVec 3) (s : State) :
    exec (.coreXslotAbort core slot) s = .next (s.atCore core.toNat (slotAbort core.toNat slot.toNat)) := by rfl

theorem ringResume_halted {s : State} {n r : Nat} (h : (s.ring n r).halt.isSome = true) :
    ringResume n r s = ((s.setRing n r { s.ring n r with halt := none }).kick n).settle n := by
  rw [ringResume, if_pos h]

theorem ringResume_going {s : State} {n r : Nat} (h : (s.ring n r).halt = none) : ringResume n r s = s := by
  rw [ringResume, if_neg (by simp [h])]

section
variable {s : State} {n x : Nat} {v : XSlot} (hv : Sparse.find (s.core n).slots x = some v)
include hv

theorem slotResume_halted (h : v.halt.isSome = true) : slotResume n x s = ((s.setSlot n x { v with halt := none }).kick n).settle n := by
  rw [slotResume, hv]
  exact if_pos h

theorem slotResume_going (h : v.halt = none) : slotResume n x s = s := by
  rw [slotResume, hv]
  exact if_neg (by simp [h])

theorem slotAbort_halted {code va : Nat} (h : v.halt = some (code, va)) : slotAbort n x s = (slotFail n x v code va s).settle n := by
  rw [slotAbort, hv]
  dsimp only
  rw [h]

theorem slotAbort_going (h : v.halt = none) : slotAbort n x s = s := by
  rw [slotAbort, hv]
  dsimp only
  rw [h]

end

/-- A context forgets the chairs that it holds of a ring. -/
def forgetChairs (n r : Nat) (s : State) (k : Nat) : State :=
  if (s.ctx n k).q.isEmpty then s
  else s.setCtx n k { s.ctx n k with q := (s.ctx n k).q.map (fun h => (h.1, if h.2.ring = r then { h.2 with held := none } else h.2)) }

/-- A ring as its reset leaves it. -/
def Ring.emptied (g : Ring) : Ring :=
  { g with pa := 0, pr := 0, ca := 0, cr := 0, pdone := [], cdone := [], aborted := false, pleft := false, cleft := false }

theorem ringReset_aborted {s : State} {n r : Nat} (h : (s.ring n r).aborted = true) :
    ringReset n r s = (List.range 8).foldl (forgetChairs n r) (s.setRing n r (Ring.emptied (s.ring n r))) := by
  rw [ringReset, if_neg (by simp [h])]
  rfl

theorem ringReset_whole {s : State} {n r : Nat} (h : (s.ring n r).aborted = false) : ringReset n r s = s := by
  rw [ringReset, if_pos (by simp [h])]

/-- A context's registers are no ring. -/
theorem State.ring_setCtx (s : State) (n k m q : Nat) (x : Ctx) : (s.setCtx n k x).ring m q = s.ring m q := by
  unfold State.ring
  rw [State.core_setCtx]
  split
  next h => rw [h]; rfl
  next => rfl

theorem forgetChairs_ring (n r : Nat) (s : State) (k m q : Nat) : (forgetChairs n r s k).ring m q = s.ring m q := by
  unfold forgetChairs
  split
  · rfl
  · exact State.ring_setCtx ..

theorem forgetChairs_mem (n r : Nat) (s : State) (k : Nat) : (forgetChairs n r s k).mem = s.mem := by
  unfold forgetChairs
  split
  · rfl
  · simp

/-- What forgetting makes of any context: its state stays, and so does a handle that holds no chair of the ring. -/
theorem forgetChairs_ctx (n r : Nat) (s : State) (k j : Nat) :
    ((forgetChairs n r s k).ctx n j).st = (s.ctx n j).st
    ∧ ((∀ h ∈ (s.ctx n j).q, h.2.ring = r → h.2.held = none) → ∀ h ∈ ((forgetChairs n r s k).ctx n j).q, h.2.ring = r → h.2.held = none)
    ∧ (j = k → ∀ h ∈ ((forgetChairs n r s k).ctx n j).q, h.2.ring = r → h.2.held = none) := by
  have hmap (q : Sparse Handle) :
      ∀ h ∈ q.map (fun h => (h.1, if h.2.ring = r then { h.2 with held := none } else h.2)), h.2.ring = r → h.2.held = none := by
    intro h hm hr
    obtain ⟨p, -, rfl⟩ := List.mem_map.mp hm
    dsimp only at hr ⊢
    split
    next => rfl
    next hne =>
      rw [if_neg hne] at hr
      exact absurd hr hne
  unfold forgetChairs
  split
  next he =>
    refine ⟨rfl, id, fun hj h hm => ?_⟩
    subst hj
    rw [List.isEmpty_iff.mp he] at hm
    cases hm
  next =>
    rw [State.ctx_setCtx]
    by_cases hj : j = k
    · subst hj
      rw [if_pos ⟨rfl, rfl⟩]
      exact ⟨rfl, fun _ => hmap _, fun _ => hmap _⟩
    · rw [if_neg (fun h => hj h.2)]
      exact ⟨rfl, id, fun h => absurd h hj⟩

/-- When a list of contexts has forgotten, each of them holds no chair of the ring, and the state of every context stays. -/
theorem foldl_forgetChairs (n r : Nat) (l : List Nat) (s : State) (j : Nat) :
    ((l.foldl (forgetChairs n r) s).ctx n j).st = (s.ctx n j).st
    ∧ ((∀ h ∈ (s.ctx n j).q, h.2.ring = r → h.2.held = none) ∨ j ∈ l →
      ∀ h ∈ ((l.foldl (forgetChairs n r) s).ctx n j).q, h.2.ring = r → h.2.held = none) := by
  induction l generalizing s with
  | nil => exact ⟨rfl, fun h => h.resolve_right List.not_mem_nil⟩
  | cons a l ih =>
    obtain ⟨hst, hkeep, hdone⟩ := forgetChairs_ctx n r s a j
    obtain ⟨ihst, ihq⟩ := ih (forgetChairs n r s a)
    rw [List.foldl_cons]
    refine ⟨ihst.trans hst, fun h => ihq ?_⟩
    rcases h with h | h
    · exact .inl (hkeep h)
    · rcases List.mem_cons.mp h with rfl | h
      · exact .inl (hdone rfl)
      · exact .inr h

theorem ringReset_does {s : State} {n r : Nat} (h : (s.ring n r).aborted = true) :
    (ringReset n r s).ring n r = Ring.emptied (s.ring n r) ∧ (ringReset n r s).mem = s.mem
    ∧ ∀ k, k < 8 → ((ringReset n r s).ctx n k).st = (s.ctx n k).st ∧ ∀ h ∈ ((ringReset n r s).ctx n k).q, h.2.ring = r → h.2.held = none := by
  rw [ringReset_aborted h]
  refine ⟨?_, ?_, fun k hk => ?_⟩
  · rw [foldl_keeps (fun t => t.ring n r) (fun t k => forgetChairs_ring n r t k n r)]
    simp
  · rw [foldl_keeps State.mem (forgetChairs_mem n r)]
    simp [State.setRing]
  · obtain ⟨hst, hq⟩ := foldl_forgetChairs n r (List.range 8) (s.setRing n r (Ring.emptied (s.ring n r))) k
    refine ⟨hst.trans ?_, hq (.inr (List.mem_range.mpr hk))⟩
    simp [State.ctx, State.setRing, Core.ctx]

theorem slice0_ringAndSlotControl : Slice0.RingAndSlotControl := by
  unfold Slice0.RingAndSlotControl
  refine ⟨fun core ring s h => ?_, fun core slot s v h hv => ?_⟩
  · dsimp only
    refine ⟨fun hg => ?_, fun hg => ?_, fun s0 hs0 => ?_, fun hg => ?_, fun hg => ?_⟩
    · rw [exec_coreRingResume, State.atCore_of_reached _ h, ringResume_halted hg]
    · rw [exec_coreRingResume, State.atCore_of_reached _ h, ringResume_going hg]
    · rw [exec_coreRingAbort, State.atCore_of_reached _ h, ringAbort, ← hs0]
    · rw [exec_coreRingReset, State.atCore_of_reached _ h, ringReset_whole hg]
    · exact ⟨_, by rw [exec_coreRingReset, State.atCore_of_reached _ h], ringReset_does hg⟩
  · dsimp only
    rw [exec_coreXslotResume, exec_coreXslotAbort, State.atCore_of_reached _ h, State.atCore_of_reached _ h]
    refine ⟨fun hh => ?_, fun code va hh => ?_, fun hh => ⟨?_, ?_⟩⟩
    · rw [slotResume_halted hv hh]
    · rw [slotAbort_halted hv hh]
    · rw [slotResume_going hv hh]
    · rw [slotAbort_going hv hh]

/-! ## What an abort makes undefined (R189) -/

section
variable {β : Type} (g : State → β) (hl : ∀ (s : State) (n space off len : Nat), g (s.lundef n space off len) = g s)
include hl

theorem undefTens_keeps (s : State) (n : Nat) (t : Tens) : g (s.undefTens n t) = g s :=
  foldl_keeps g (fun u r => by dsimp only; split <;> [exact hl ..; rfl]) _ s

theorem undefBoth_keeps (s : State) (n : Nat) (t sc : Tens) : g (s.undefBoth n t sc) = g s := by
  unfold State.undefBoth
  dsimp only
  split
  · rw [undefTens_keeps g hl, undefTens_keeps g hl]
  · exact undefTens_keeps g hl s n t

/-- The destinations of a command that become undefined are memory. -/
theorem undefDests_keeps (n : Nat) (x : UCmd) (td : Bool) (s : State) : g (undefDests n x td s) = g s := by
  unfold undefDests
  extract_lets s1 s2 s3 s4
  have h1 : g s1 = g s := by
    unfold s1
    split
    · exact undefBoth_keeps g hl ..
    · rfl
  have h2 : g s2 = g s1 := by
    unfold s2
    split
    · rw [undefTens_keeps g hl, undefBoth_keeps g hl, undefBoth_keeps g hl]
    · rfl
  have h3 : g s3 = g s2 := by
    unfold s3
    split
    · exact hl ..
    · rfl
  have h4 : g s4 = g s3 := by
    unfold s4
    split
    · exact hl ..
    · rfl
  rw [foldl_keeps g (fun u r => hl ..), h4, h3, h2, h1]

end

theorem undefDests_acc (n : Nat) (x : UCmd) (td : Bool) (s : State) : (undefDests n x td s).acc = s.acc :=
  undefDests_keeps State.acc (fun _ _ _ _ _ => rfl) n x td s

theorem undefDests_cores (n : Nat) (x : UCmd) (td : Bool) (s : State) : (undefDests n x td s).cores = s.cores :=
  undefDests_keeps State.cores (fun _ _ _ _ _ => rfl) n x td s

/-- An aborted gate leaves the cores. -/
theorem undefGate_cores (s : State) (n : Nat) (g : Gate) : (undefGate s n g).cores = s.cores := by
  unfold undefGate
  dsimp only
  rw [undefDests_cores]
  split <;> rfl

theorem undefGate_acc_cmm {s : State} {n : Nat} {g : Gate} (h : g.cmd.op = .cmm) :
    (undefGate s n g).acc = (s.accUndef n g.cmd.arr (accSpan g.cmd.wacc false g.cmd.row g.cmd.tA.n1)).acc := by
  unfold undefGate
  dsimp only
  rw [undefDests_acc, h]

theorem undefGate_acc_chb {s : State} {n : Nat} {g : Gate} (h : g.cmd.op = .chb) :
    (undefGate s n g).acc = (s.accUndef n g.cmd.arr (accSpan g.cmd.wacc true g.cmd.tno 1)).acc := by
  unfold undefGate
  dsimp only
  rw [undefDests_acc, h]

theorem Sparse.find_filter_of_not {α : Type} {m : Sparse α} {f : Nat → Bool} {j : Nat} (h : f j = false) :
    Sparse.find (m.filter (fun p => f p.1)) j = none := by
  induction m with
  | nil => rfl
  | cons p m ih =>
    rw [List.filter_cons]
    split
    next hp =>
      have hj : j ≠ p.1 := fun he => by simp [← he, h] at hp
      rw [Sparse.find, if_neg hj, ih]
    next => exact ih

/-- No cell of a span that became undefined is found. -/
theorem accUndef_find {s : State} {n arr key : Nat} {span : Nat × Nat} (h : span.1 ≤ key) (h2 : key < span.2) :
    Sparse.find ((s.accUndef n arr span).accOf n arr) key = none := by
  simp only [State.accUndef, State.accOf, Sparse.get_put, if_true]
  refine Sparse.find_filter_of_not (f := fun k => decide (k < span.1 ∨ span.2 ≤ k)) ?_
  simp only [decide_eq_false_iff_not]
  omega

theorem accKey_row {wacc : Bool} {row cnt r j : Nat} (h : row ≤ r) (h2 : r < row + cnt) (hj : j < 128) :
    (accSpan wacc false row cnt).1 ≤ accKey wacc false r 0 j ∧ accKey wacc false r 0 j < (accSpan wacc false row cnt).2 := by
  cases wacc <;> simp only [accSpan, accKey, Bool.false_eq_true, if_false, if_true] <;> omega

theorem accKey_tile {wacc : Bool} {tno i j : Nat} (hi : i < 128) (hj : j < 128) :
    (accSpan wacc true tno 1).1 ≤ accKey wacc true tno i j ∧ accKey wacc true tno i j < (accSpan wacc true tno 1).2 := by
  cases wacc <;> simp only [accSpan, accKey, Bool.false_eq_true, if_false, if_true] <;> omega

/-! ## Operations that change no more of a core than its contexts -/

/-- Between two states a core changes only in its contexts, and neither memory nor the accumulators change. -/
structure CtxsOnly (n : Nat) (s t : State) : Prop where
  acc : t.acc = s.acc
  mem : t.mem = s.mem
  core : t.core n = { s.core n with ctxs := (t.core n).ctxs, cur := (t.core n).cur }

theorem CtxsOnly.refl (n : Nat) (s : State) : CtxsOnly n s s := ⟨rfl, rfl, rfl⟩

theorem CtxsOnly.trans {n : Nat} {s t u : State} (h : CtxsOnly n s t) (k : CtxsOnly n t u) : CtxsOnly n s u :=
  ⟨k.acc.trans h.acc, k.mem.trans h.mem, by rw [k.core, h.core]⟩

theorem CtxsOnly.of_eq {n : Nat} {s t : State} (ha : t.acc = s.acc) (hm : t.mem = s.mem) (hc : t.core n = s.core n) : CtxsOnly n s t :=
  ⟨ha, hm, by rw [hc]⟩

theorem ctxsOnly_setCtx (n k : Nat) (x : Ctx) (s : State) : CtxsOnly n s (s.setCtx n k x) :=
  ⟨rfl, rfl, by simp [State.setCtx, Core.setCtx]⟩

theorem State.kick_acc (s : State) (n : Nat) : (s.kick n).acc = s.acc := by
  unfold State.kick State.kickSite
  split
  · split <;> simp
  · rfl

theorem ctxsOnly_kick (n : Nat) (s : State) : CtxsOnly n s (s.kick n) := .of_eq (s.kick_acc n) (s.kick_mem n) (s.kick_core n n)

theorem ctxsOnly_select (n : Nat) (s : State) : CtxsOnly n s (s.select n) := by
  rcases s.select_cases n with h | ⟨j, -, -, h⟩
  · rw [h]
    exact .refl n s
  · rw [h]
    exact ⟨by simp, by simp, by simp [Core.setCtx]⟩

theorem ctxsOnly_makeReady (n k : Nat) (s : State) : CtxsOnly n s (s.makeReady n k) :=
  ((ctxsOnly_setCtx n k _ s).trans (ctxsOnly_kick n _)).trans (ctxsOnly_select n _)

theorem ctxsOnly_putPr (n k p : Nat) (v : Bool) (s : State) : CtxsOnly n s (s.putPr n k p v) := by
  unfold State.putPr
  dsimp only
  split
  · exact (ctxsOnly_setCtx n k _ s).trans (ctxsOnly_makeReady n k _)
  · exact ctxsOnly_setCtx n k _ s

theorem ctxsOnly_complete (n k inc pd : Nat) (s : State) : CtxsOnly n s (s.complete n k inc pd) := by
  unfold State.complete
  dsimp only
  split
  · exact ctxsOnly_putPr ..
  · exact .refl n s

theorem ctxsOnly_wakeAll (n : Nat) (t : Wait → Bool) (s : State) : CtxsOnly n s (s.wakeAll n t) := by
  refine List.foldlRecOn _ _ (CtxsOnly.refl n s) fun u hu k _ => hu.trans (?_ : CtxsOnly n u _)
  dsimp only
  split
  · exact ctxsOnly_makeReady n k u
  · exact .refl n u

theorem State.forget_cores (s : State) (src : ReqSrc) : (s.forget src).cores = s.cores :=
  foldl_keeps State.cores (fun u r => by unfold lateNote; split <;> rfl) _ _

theorem State.forget_acc (s : State) (src : ReqSrc) : (s.forget src).acc = s.acc :=
  foldl_keeps State.acc (fun u r => by unfold lateNote; split <;> rfl) _ _

theorem ctxsOnly_forget (n : Nat) (src : ReqSrc) (s : State) : CtxsOnly n s (s.forget src) :=
  .of_eq (s.forget_acc src) (s.forget_mem src) (by simp only [State.core, State.forget_cores])

/-! ## The abort of a Slalom command (R189) -/

/-- A core in which nothing of a Slalom command is left. -/
structure Core.Rid (c : Core) (id : Nat) : Prop where
  chains : ∀ e ∈ c.chains, e.id ≠ id
  sq : ∀ q ∈ c.sq, ∀ r l, q = .list r l → l.chain ≠ some id
  engines : ∀ u, u ≠ .digest → ∀ x ∈ (c.eng u).run.toList ++ (c.eng u).queue, x.chain ≠ some id
  rings : ∀ r, ∀ l ∈ (Sparse.get c.rings {} r).lists, l.chain ≠ some id

theorem Eng.without_chain (e : Eng) (id : Nat) : ∀ x ∈ (e.without id).run.toList ++ (e.without id).queue, x.chain ≠ some id := by
  have hl : (e.without id).run.toList ++ (e.without id).queue = (e.run.toList ++ e.queue).filter (fun x => x.chain ≠ some id) := by
    unfold Eng.without
    dsimp only
    cases (e.run.toList ++ e.queue).filter (fun x => x.chain ≠ some id) <;> rfl
  intro x hx
  rw [hl] at hx
  simpa using (List.mem_filter.mp hx).2

theorem Sparse.find_map {α β : Type} (m : Sparse α) (f : α → β) (j : Nat) :
    Sparse.find (m.map fun p => (p.1, f p.2)) j = (Sparse.find m j).map f := by
  induction m with
  | nil => rfl
  | cons p m ih =>
    rw [List.map_cons, Sparse.find, Sparse.find]
    split
    · rfl
    · exact ih

/-- A ring without the lists of a Slalom command. -/
def Ring.without (id : Nat) (g : Ring) : Ring :=
  { g with
    lists := g.lists.filter (fun l => l.chain ≠ some id)
    halt := if g.lists.head?.any (fun l => decide (l.chain = some id)) then none else g.halt }

theorem Core.without_rings (c : Core) (id : Nat) : (c.without id).rings = c.rings.map fun p => (p.1, Ring.without id p.2) := rfl

theorem Core.rid_without (c : Core) (id : Nat) : (c.without id).Rid id where
  chains := fun e he => by simpa using (List.mem_filter.mp he).2
  sq := fun q hq r l hl => by
    subst hl
    simpa using (List.mem_filter.mp hq).2
  engines := fun u hu => by
    cases u with
    | digest => exact absurd rfl hu
    | stream => exact fun x hx => absurd hx List.not_mem_nil
    | a0 => exact Eng.without_chain c.a0 id
    | a1 => exact Eng.without_chain c.a1 id
    | schuss => exact Eng.without_chain c.schuss id
    | groomer => exact Eng.without_chain c.groomer id
    | vector => exact Eng.without_chain c.vector id
    | snow => exact Eng.without_chain c.snowU id
  rings := fun r l hl => by
    rw [Core.without_rings, Sparse.get, Sparse.find_map] at hl
    cases hf : Sparse.find c.rings r with
    | none =>
      rw [hf] at hl
      cases hl
    | some g =>
      rw [hf] at hl
      simpa using (List.mem_filter.mp hl).2

/-- Other parts of a core may change. -/
theorem Core.Rid.of_eq {c d : Core} {id : Nat} (h : c.Rid id) (hc : d.chains = c.chains) (hs : d.sq = c.sq) (he : ∀ u, d.eng u = c.eng u)
    (hr : ∀ r, (Sparse.get d.rings {} r).lists = (Sparse.get c.rings {} r).lists) : d.Rid id where
  chains := by rw [hc]; exact h.chains
  sq := by rw [hs]; exact h.sq
  engines := fun u hu => by rw [he]; exact h.engines u hu
  rings := fun r => by rw [hr]; exact h.rings r

theorem CtxsOnly.rid {n id : Nat} {s t : State} (h : CtxsOnly n s t) (hs : (s.core n).Rid id) : (t.core n).Rid id := by
  rw [h.core]
  exact hs.of_eq rfl rfl (fun u => by cases u <;> rfl) fun _ => rfl

/-- The state in which the gates of a Slalom command are undefined and its commands and lists are gone. -/
def chainCleared (n id : Nat) (ch : Chain) (s : State) : State :=
  let s1 := ch.computing.foldl (fun st g => undefGate st n g) s
  let s2 := s1.setCore n ((s1.core n).without id)
  let c := s2.core n
  s2.setCore n { c with snow := c.snow.resync (c.snowU.run.toList ++ c.snowU.queue) }

/-- The chair at which the command read is left to nobody. -/
def chairLeft (n : Nat) (ch : Chain) (s : State) : State :=
  match ch.inRing, ch.inChair with
  | some r, some _ => s.setRing n r { s.ring n r with cleft := true }
  | _, _ => s

/-- The streams of the rings at the ends of a command are forgotten. -/
def chainForgotten (n : Nat) (ch : Chain) (s : State) : State :=
  (s.forget (.ring n ((ch.gates.filterMap (·.ring)).headD 16))).forget (.ring n ((ch.gates.filterMap (·.ring)).getLastD 16))

theorem abortChain_of_none {s : State} {n id : Nat} (h : (s.core n).chain id = none) : abortChain n id s = s := by
  rw [abortChain, h]

theorem abortChain_of_some {s : State} {n id : Nat} {ch : Chain} (h : (s.core n).chain id = some ch) :
    abortChain n id s = ((chainForgotten n ch (chairLeft n ch (chainCleared n id ch s))).wakeRoom n).complete n ch.ctx ch.inc ch.pd := by
  rw [abortChain, h]
  rfl

section
variable (n id : Nat) (ch : Chain) (s : State)

theorem chainCleared_core : ∃ w, (chainCleared n id ch s).core n = { (s.core n).without id with snow := w } := by
  have hc : ((ch.computing.foldl (fun st g => undefGate st n g) s).core n) = s.core n := by
    unfold State.core
    rw [foldl_keeps State.cores (fun u g => undefGate_cores u n g)]
  unfold chainCleared
  dsimp only
  rw [State.core_setCore, if_pos rfl, State.core_setCore, if_pos rfl, hc]
  exact ⟨_, rfl⟩

theorem chainCleared_rid : ((chainCleared n id ch s).core n).Rid id := by
  obtain ⟨w, hw⟩ := chainCleared_core n id ch s
  rw [hw]
  exact (Core.rid_without (s.core n) id).of_eq rfl rfl (fun u => by cases u <;> rfl) fun _ => rfl

theorem chainCleared_ctx (k : Nat) : (chainCleared n id ch s).ctx n k = s.ctx n k := by
  obtain ⟨w, hw⟩ := chainCleared_core n id ch s
  unfold State.ctx
  rw [hw]
  rfl

theorem chairLeft_acc : (chairLeft n ch s).acc = s.acc := by
  unfold chairLeft
  split <;> rfl

theorem chairLeft_mem : (chairLeft n ch s).mem = s.mem := by
  unfold chairLeft
  split <;> rfl

theorem chairLeft_ctx (k : Nat) : (chairLeft n ch s).ctx n k = s.ctx n k := by
  unfold chairLeft
  split
  · simp [State.ctx, State.setRing, Core.ctx]
  · rfl

variable {s id} in
theorem chairLeft_rid (h : (s.core n).Rid id) : ((chairLeft n ch s).core n).Rid id := by
  unfold chairLeft
  split
  next r _ _ _ =>
    rw [State.setRing, State.core_setCore, if_pos rfl]
    refine h.of_eq rfl rfl (fun u => by cases u <;> rfl) fun q => ?_
    dsimp only
    rw [Sparse.get_put]
    split
    next hq =>
      subst hq
      rfl
    next => rfl
  next => exact h

theorem ctxsOnly_chainForgotten : CtxsOnly n s (chainForgotten n ch s) := (ctxsOnly_forget ..).trans (ctxsOnly_forget ..)

theorem chainForgotten_ctx (k : Nat) : (chainForgotten n ch s).ctx n k = s.ctx n k := by
  simp only [State.ctx, State.core, chainForgotten, State.forget_cores]

end

/-- Waking leaves the program of every context, and none becomes FREE. -/
def Lives (x y : Ctx) : Prop := y.inc = x.inc ∧ (x.st ≠ .free → y.st ≠ .free)

theorem Lives.refl (x : Ctx) : Lives x x := ⟨rfl, id⟩

theorem Lives.trans {x y z : Ctx} (h : Lives x y) (k : Lives y z) : Lives x z := ⟨k.1.trans h.1, k.2 ∘ h.2⟩

theorem Selected.lives {x y : Ctx} (h : Selected x y) : Lives x y := by
  rcases h with rfl | ⟨-, rfl⟩
  · exact .refl y
  · exact ⟨rfl, fun _ => by simp⟩

theorem lives_makeReady (s : State) (n k j : Nat) : Lives (s.ctx n j) ((s.makeReady n k).ctx n j) := by
  have h := (puts_makeReady n s k j).lives
  by_cases hj : j = k
  · subst hj
    rw [if_pos rfl] at h
    exact Lives.trans (y := { s.ctx n j with st := .ready, wait := .none }) ⟨rfl, fun _ => by simp⟩ h
  · rwa [if_neg hj] at h

theorem lives_foldl {f : State → Nat → State} {n j : Nat} (h : ∀ u k, Lives (u.ctx n j) ((f u k).ctx n j)) (l : List Nat) (s : State) :
    Lives (s.ctx n j) ((l.foldl f s).ctx n j) := by
  induction l generalizing s with
  | nil => exact .refl _
  | cons k l ih => exact (h s k).trans (ih _)

theorem lives_wakeAll (s : State) (n : Nat) (t : Wait → Bool) (j : Nat) : Lives (s.ctx n j) ((s.wakeAll n t).ctx n j) := by
  refine lives_foldl (fun u k => ?_) (List.range 8) s
  dsimp only
  split
  · exact lives_makeReady u n k j
  · exact .refl _

theorem lives_wakeRoom (s : State) (n j : Nat) : Lives (s.ctx n j) ((s.wakeRoom n).ctx n j) := lives_wakeAll s n _ j

theorem Ctx.pr_setPr_true (x : Ctx) {p : Nat} (h0 : 0 < p) (h : p < 8) : (x.setPr p true).pr p = true := by
  have hp : p ≠ 0 := by omega
  have hbit : (1 <<< p : BitVec 8).getLsbD p = true := by
    interval_cases p <;> rfl
  simp only [Ctx.pr, Ctx.setPr, hp, if_false, if_true, BitVec.getLsbD_or, hbit, Bool.or_true]

/-- A predicate that is set reads 1, whether or not its context waited for it. -/
theorem State.putPr_pr (s : State) (n k : Nat) {p : Nat} (h0 : 0 < p) (h : p < 8) : ((s.putPr n k p true).ctx n k).pr p = true := by
  unfold State.putPr
  dsimp only
  split
  · rcases State.makeReady_ctx (s.setCtx n k { (s.ctx n k).setPr p true with pc := ((s.ctx n k).pc + 8) % 2 ^ 26 }) n k with hr | hr
    all_goals
      rw [hr, State.ctx_setCtx, if_pos ⟨rfl, rfl⟩]
      exact Ctx.pr_setPr_true (s.ctx n k) h0 h
  · rw [State.ctx_setCtx, if_pos ⟨rfl, rfl⟩]
    exact Ctx.pr_setPr_true _ h0 h

/-- A completion writes its predicate, unless its context has ended. -/
theorem State.complete_pr {s : State} {n k inc pd : Nat} (hi : (s.ctx n k).inc = inc) (hf : (s.ctx n k).st ≠ .free) (h0 : 0 < pd) (h : pd < 8) :
    ((s.complete n k inc pd).ctx n k).pr pd = true := by
  rw [State.complete, if_pos ⟨hi, hf, by omega⟩]
  exact s.putPr_pr n k h0 h

section
variable {s : State} {n id : Nat} {ch : Chain} (hch : (s.core n).chain id = some ch)
include hch

/-- After its commands are gone, an abort changes contexts alone. -/
theorem ctxsOnly_abortChain : CtxsOnly n (chairLeft n ch (chainCleared n id ch s)) (abortChain n id s) := by
  rw [abortChain_of_some hch]
  exact ((ctxsOnly_chainForgotten n ch _).trans (ctxsOnly_wakeAll n _ _)).trans (ctxsOnly_complete ..)

theorem abortChain_rid : ((abortChain n id s).core n).Rid id :=
  (ctxsOnly_abortChain hch).rid (chairLeft_rid n ch (chainCleared_rid n id ch s))

theorem abortChain_acc : (abortChain n id s).acc = (ch.computing.foldl (fun st g => undefGate st n g) s).acc :=
  (ctxsOnly_abortChain hch).acc.trans (chairLeft_acc n ch _)

theorem abortChain_mem : (abortChain n id s).mem = (ch.computing.foldl (fun st g => undefGate st n g) s).mem :=
  (ctxsOnly_abortChain hch).mem.trans (chairLeft_mem n ch _)

theorem abortChain_pr (h0 : 0 < ch.pd) (h : ch.pd < 8) (hi : (s.ctx n ch.ctx).inc = ch.inc) (hf : (s.ctx n ch.ctx).st ≠ .free) :
    ((abortChain n id s).ctx n ch.ctx).pr ch.pd = true := by
  rw [abortChain_of_some hch]
  have hlive := lives_wakeRoom (chainForgotten n ch (chairLeft n ch (chainCleared n id ch s))) n ch.ctx
  rw [chainForgotten_ctx, chairLeft_ctx, chainCleared_ctx] at hlive
  exact State.complete_pr (hlive.1.trans hi) (hlive.2 hf) h0 h

end

theorem slice0_slalomAbort : Slice0.SlalomAbort := by
  unfold Slice0.SlalomAbort
  refine ⟨fun s n id h => abortChain_of_none h, fun s n id ch hch => ?_, fun s n g hop r j hr hlt hj => ?_, fun s n g hop i j hi hj => ?_⟩
  · have hrid := abortChain_rid hch
    exact ⟨hrid.chains, hrid.sq, hrid.engines, hrid.rings, abortChain_acc hch, fun _ => abortChain_mem hch,
      fun _ h0 h hi hf => abortChain_pr hch h0 h hi hf⟩
  · obtain ⟨hlo, hhi⟩ := accKey_row (wacc := g.cmd.wacc) hr hlt hj
    rw [State.accOf, undefGate_acc_cmm hop]
    exact accUndef_find hlo hhi
  · obtain ⟨hlo, hhi⟩ := accKey_tile (wacc := g.cmd.wacc) (tno := g.cmd.tno) hi hj
    rw [State.accOf, undefGate_acc_chb hop]
    exact accUndef_find hlo hhi

/-- Settles O28, from the cases of each register's write, the contexts that forget a ring's chairs, and what is left of an aborted Slalom command. -/
theorem coreControl : Obligations.CoreControl := ⟨slice0_coreConfiguration, slice0_ringAndSlotControl, slice0_slalomAbort⟩

end Sys2Proof.Machine

end

section
/-! # Issue of the words of each format (O16, O20; R70-R74) -/

namespace Sys2Proof.Machine

/-! ## What every instruction makes of its issue -/

/-- An instruction whose context is at an illegal pc faults. -/
theorem issue_pcAlign {n k : Nat} {pg : BitVec 3} {pn : Bool} {len : Nat} {legal : Bool} {rs ts : List Nat} {s : State} {body : State → State}
    (h : s.issues n k = true) (hp : pcOk (s.ctx n k).pc = false) :
    issue n k pg pn len legal rs ts s body = s.faultCtx n k E.PC_ALIGN (s.ctx n k).pc := by
  simp [issue, h, hp]

/-- A command that is the issue of an instruction of `len` bytes whose word `legal` checks. -/
def IssuesAs (c : Instr) (s : State) (n k : Nat) (pg : BitVec 3) (pn : Bool) (len : Nat) (legal : Bool) : Prop :=
  ∃ rs ts body, exec c s = .next (issue n k pg pn len legal rs ts s body)

section
variable {c : Instr} {s : State} {n k : Nat} {pg : BitVec 3} {pn : Bool} {len : Nat} {legal : Bool} (h : IssuesAs c s n k pg pn len legal)
include h

theorem IssuesAs.pcAlign (hi : s.issues n k = true) (hp : pcOk (s.ctx n k).pc = false) :
    exec c s = .next (s.faultCtx n k E.PC_ALIGN (s.ctx n k).pc) := by
  obtain ⟨rs, ts, body, he⟩ := h
  rw [he, issue_pcAlign hi hp]

theorem IssuesAs.illegal (hi : Slice0.Issues s n k) (hl : legal = false) : exec c s = .next (s.faultCtx n k E.ILLEGAL (s.ctx n k).pc) := by
  obtain ⟨rs, ts, body, he⟩ := h
  rw [he, hl, issue_illegal hi.issues hi.pc]

theorem IssuesAs.skipped (hi : Slice0.Issues s n k) (hg : (s.ctx n k).guard pg pn = false) :
    exec c s = .next (if legal then s.advance n k len else s.faultCtx n k E.ILLEGAL (s.ctx n k).pc) := by
  cases legal with
  | false => exact h.illegal hi rfl
  | true =>
    obtain ⟨rs, ts, body, he⟩ := h
    rw [he, issue_skips hi.issues hi.pc hg]
    rfl

/-- The check of a word may be written in another way. -/
theorem IssuesAs.of_eq {b : Bool} (he : legal = b) : IssuesAs c s n k pg pn len b := he ▸ h

/-- The length of an illegal word does not matter. -/
theorem IssuesAs.of_len {len' : Nat} (he : legal = true → len = len') : IssuesAs c s n k pg pn len' legal := by
  cases legal with
  | true => exact he rfl ▸ h
  | false =>
    obtain ⟨rs, ts, body, hc⟩ := h
    exact ⟨rs, ts, body, by rw [hc, issue, issue, Bool.not_false, if_pos rfl, if_pos rfl]⟩

end

theorem issuesAs_of_issueRemote {c : Instr} {s : State} {i : IA} {uc ok : Bool} {aux : BitVec 21} {check : Ctx → Option (Nat × Nat)}
    {make : Ctx → XSlot} (h : exec c s = .next (issueRemote i uc aux ok check make s)) :
    IssuesAs c s i.n i.k i.pg i.pn 8 (i.legal true true true uc true aux && ok) := by
  rw [issueRemote] at h
  exact ⟨_, _, _, h⟩

/-! ## The operations of Table 04-7 -/

theorem opDivu_eq : opDivu = fun a b => if b = 0 then BitVec.allOnes 64 else a / b := by
  funext a b
  unfold opDivu
  split
  · rfl
  · have hlt : a.toNat / b.toNat < 2 ^ 64 := Nat.lt_of_le_of_lt (Nat.div_le_self ..) a.isLt
    exact BitVec.eq_of_toNat_eq (by rw [BitVec.toNat_ofNat, Nat.mod_eq_of_lt hlt, BitVec.toNat_udiv])

theorem opRemu_eq : opRemu = fun a b => if b = 0 then a else a % b := by
  funext a b
  unfold opRemu
  split
  · rfl
  · have hlt : a.toNat % b.toNat < 2 ^ 64 := Nat.lt_of_le_of_lt (Nat.mod_le ..) a.isLt
    exact BitVec.eq_of_toNat_eq (by rw [BitVec.toNat_ofNat, Nat.mod_eq_of_lt hlt, BitVec.toNat_umod])

theorem opDiv_eq : opDiv = fun a b => if b = 0 then BitVec.allOnes 64 else a.sdiv b := by
  funext a b
  unfold opDiv
  split
  · rfl
  · exact BitVec.eq_of_toInt_eq (by rw [BitVec.toInt_ofInt, BitVec.toInt_sdiv])

theorem opRem_eq : opRem = fun a b => if b = 0 then a else a.srem b := by
  funext a b
  unfold opRem
  split
  · rfl
  · rw [← BitVec.toInt_srem, BitVec.ofInt_toInt]

theorem opMin_eq : opMin = fun a b => if a.slt b then a else b := by
  funext a b
  unfold opMin
  rcases Int.lt_trichotomy a.toInt b.toInt with h | h | h
  · simp [BitVec.slt_iff_toInt_lt, h, h.le]
  · simp [BitVec.toInt_inj.mp h]
  · simp [BitVec.slt_iff_toInt_lt, h.not_gt, h.not_ge]

theorem opMax_eq : opMax = fun a b => if a.slt b then b else a := by
  funext a b
  unfold opMax
  rcases Int.lt_trichotomy a.toInt b.toInt with h | h | h
  · simp [BitVec.slt_iff_toInt_lt, h, h.le]
  · simp [BitVec.toInt_inj.mp h]
  · simp [BitVec.slt_iff_toInt_lt, h.not_gt, h.not_ge]

theorem opMinu_eq : opMinu = fun a b => if a.ult b then a else b := by
  funext a b
  unfold opMinu
  rcases Nat.lt_trichotomy a.toNat b.toNat with h | h | h
  · simp [BitVec.ult, h, h.le]
  · simp [BitVec.eq_of_toNat_eq h]
  · simp [BitVec.ult, h.not_gt, h.not_ge]

theorem opMaxu_eq : opMaxu = fun a b => if a.ult b then b else a := by
  funext a b
  unfold opMaxu
  rcases Nat.lt_trichotomy a.toNat b.toNat with h | h | h
  · simp [BitVec.ult, h, h.le]
  · simp [BitVec.eq_of_toNat_eq h]
  · simp [BitVec.ult, h.not_gt, h.not_ge]

theorem cEq_eq : cEq = fun a b => a == b := rfl

theorem cNe_eq : cNe = fun a b => a != b := by
  funext a b
  by_cases h : a = b <;> simp [cNe, h]

theorem cGe_eq : cGe = fun a b => !a.slt b := by
  funext a b
  rw [cGe, BitVec.slt, ← decide_not, decide_eq_decide]
  exact Int.not_lt.symm

theorem cGeu_eq : cGeu = fun a b => !a.ult b := by
  funext a b
  rw [cGeu, BitVec.ult, ← decide_not, decide_eq_decide]
  exact Nat.not_lt.symm

/-! ## The instructions of ops 0x01 to 0x05 -/

theorem exec_scalarA {p : (IA → Instr) × (W64 → W64 → W64)} (hp : p ∈ Slice0.scalarA) (i : IA) (s : State) :
    exec (p.1 i) s = .next (scalarA p.2 i s) := by
  simp only [Slice0.scalarA, ← opDivu_eq, ← opRemu_eq, ← opDiv_eq, ← opRem_eq, ← opMin_eq, ← opMax_eq, ← opMinu_eq, ← opMaxu_eq,
    List.mem_cons, List.not_mem_nil, or_false] at hp
  rcases hp with rfl | rfl | rfl | rfl | rfl | rfl | rfl | rfl | rfl | rfl | rfl | rfl | rfl | rfl | rfl | rfl | rfl | rfl | rfl
  all_goals rfl

theorem exec_scalarB {p : (IB → Instr) × (W64 → W64 → W64)} (hp : p ∈ Slice0.scalarB) (i : IB) (s : State) :
    exec (p.1 i) s = .next (scalarB p.2 i s) := by
  simp only [Slice0.scalarB, ← opDivu_eq, ← opRemu_eq, ← opDiv_eq, ← opRem_eq, ← opMin_eq, ← opMax_eq, ← opMinu_eq, ← opMaxu_eq,
    List.mem_cons, List.not_mem_nil, or_false] at hp
  rcases hp with rfl | rfl | rfl | rfl | rfl | rfl | rfl | rfl | rfl | rfl | rfl | rfl | rfl | rfl | rfl | rfl | rfl | rfl | rfl
  all_goals rfl

theorem exec_compareA {p : (IA → Instr) × (W64 → W64 → Bool)} (hp : p ∈ Slice0.compareA) (i : IA) (s : State) :
    exec (p.1 i) s = .next (compareA p.2 i s) := by
  simp only [Slice0.compareA, ← cEq_eq, ← cNe_eq, ← cGe_eq, ← cGeu_eq, List.mem_cons, List.not_mem_nil, or_false] at hp
  rcases hp with rfl | rfl | rfl | rfl | rfl | rfl
  all_goals rfl

theorem exec_compareB {p : (IB → Instr) × (W64 → W64 → Bool)} (hp : p ∈ Slice0.compareB) (i : IB) (s : State) :
    exec (p.1 i) s = .next (compareB p.2 i s) := by
  simp only [Slice0.compareB, ← cEq_eq, ← cNe_eq, ← cGe_eq, ← cGeu_eq, List.mem_cons, List.not_mem_nil, or_false] at hp
  rcases hp with rfl | rfl | rfl | rfl | rfl | rfl
  all_goals rfl

theorem exec_logicA {p : (IA → Instr) × (Bool → Bool → Bool)} (hp : p ∈ Slice0.logicA) (i : IA) (s : State) :
    exec (p.1 i) s = .next (predicateA p.2 i s) := by
  simp only [Slice0.logicA, List.mem_cons, List.not_mem_nil, or_false] at hp
  rcases hp with rfl | rfl | rfl | rfl
  · rfl
  · rfl
  · exact congrArg (fun f => Host.Outcome.next (predicateA f i s)) (by funext a b; cases a <;> cases b <;> rfl)
  · rfl

/-! ## Every word of formats A, B and M issues -/

theorem issuesAs_tmov (i : IA) (s : State) : IssuesAs (.tmov i) s i.n i.k i.pg i.pn 8
    (i.legal true true false false false 0 && decide (i.d.toNat < 16 ∧ i.a.toNat < 16)) := by
  have h : IssuesAs (.tmov i) s i.n i.k i.pg i.pn 8 (i.legal true true false false false 0 && descField i.d && descField i.a) := ⟨_, _, _, rfl⟩
  exact h.of_eq (by simp [descField, Bool.and_assoc])

theorem exec_ratom (i : IA) (s : State) : exec (.ratom i) s = execRatom i s := by rfl

/-- A remote instruction issues. -/
theorem issuesAs_remote (i : IA) (s : State) :
    (∀ c ∈ [Instr.rget i, .rput i, .rcopy i], IssuesAs c s i.n i.k i.pg i.pn 8 (i.legal true true true false true 0x1E0))
    ∧ IssuesAs (.ratom i) s i.n i.k i.pg i.pn 8 (i.legal true true true true true 0x1FF && decide (fieldOf i.aux 0 4 ≤ 9)) := by
  refine ⟨fun c hc => ?_, issuesAs_of_issueRemote (exec_ratom i s)⟩
  simp only [List.mem_cons, List.not_mem_nil, or_false] at hc
  rcases hc with rfl | rfl | rfl
  all_goals exact (issuesAs_of_issueRemote (ok := true) rfl).of_eq (Bool.and_true _)

theorem issuesAs_wordsA {p : (IA → Instr) × (IA → Bool)} (hp : p ∈ Slice0.wordsA) (i : IA) (s : State) :
    IssuesAs (p.1 i) s i.n i.k i.pg i.pn 8 (p.2 i) := by
  simp only [Slice0.wordsA, List.mem_append, List.mem_map] at hp
  rcases hp with ((⟨q, hq, rfl⟩ | ⟨q, hq, rfl⟩) | ⟨q, hq, rfl⟩) | hp
  · exact ⟨_, _, _, exec_scalarA hq i s⟩
  · exact ⟨_, _, _, exec_compareA hq i s⟩
  · refine IssuesAs.of_eq ⟨_, _, _, exec_logicA hq i s⟩ ?_
    simp [predField, Bool.and_assoc]
  · simp only [List.mem_cons, List.not_mem_nil, or_false] at hp
    obtain ⟨hremote, hatom⟩ := issuesAs_remote i s
    rcases hp with rfl | rfl | rfl | rfl | rfl | rfl | rfl | rfl | rfl | rfl | rfl | rfl | rfl | rfl | rfl | rfl | rfl | rfl | rfl | rfl |
      rfl | rfl | rfl | rfl | rfl | rfl
    iterate 4 exact ⟨_, _, _, rfl⟩
    · exact issuesAs_tmov i s
    iterate 15 exact ⟨_, _, _, rfl⟩
    · exact hremote (.rget i) (by simp)
    · exact hremote (.rput i) (by simp)
    · exact hremote (.rcopy i) (by simp)
    · exact hatom
    iterate 2 exact ⟨_, _, _, rfl⟩

theorem x_of_legal {i : IB} {ud ua : Bool} (h : i.legal false ud ua = true) : i.x = false := by
  cases hx : i.x with
  | false => rfl
  | true => simp [IB.legal, hx] at h

theorem issuesAs_wordsB {p : (IB → Instr) × (IB → Bool)} (hp : p ∈ Slice0.wordsB) (i : IB) (s : State) :
    IssuesAs (p.1 i) s i.n i.k i.pg i.pn i.len (p.2 i) := by
  have hlen {ud ua : Bool} (h : i.legal false ud ua = true) : 8 = i.len := by rw [IB.len, x_of_legal h]; rfl
  simp only [Slice0.wordsB, List.mem_append, List.mem_map] at hp
  rcases hp with (⟨q, hq, rfl⟩ | ⟨q, hq, rfl⟩) | hp
  · exact ⟨_, _, _, exec_scalarB hq i s⟩
  · exact ⟨_, _, _, exec_compareB hq i s⟩
  · simp only [List.mem_cons, List.not_mem_nil, or_false] at hp
    rcases hp with rfl | rfl | rfl
    all_goals exact IssuesAs.of_len ⟨_, _, _, rfl⟩ hlen

theorem issuesAs_accesses {p : Slice0.Acc} (hp : p ∈ Slice0.accesses) (i : IM) (s : State) :
    IssuesAs (p.make i) s i.n i.k i.pg i.pn 8 (p.legal i) := by
  simp only [Slice0.accesses, List.mem_cons, List.not_mem_nil, or_false] at hp
  rcases hp with rfl | rfl | rfl | rfl
  all_goals exact ⟨_, _, _, rfl⟩

/-! ## Every unit command issues -/

/-- The issue of a unit command as the statements describe it. -/
def issueOf (u : Slice0.Unit) (i : IT) (s : State) : State :=
  issueUnits (u.units i) u.op i (u.legal i) (u.uses i).1 (u.uses i).2.1 (u.uses i).2.2.1 (u.uses i).2.2.2 (u.rs i) (u.check i) (u.put i.n) s

/-- A Groomer instruction other than GNRMB takes no record off the Snowpack. -/
theorem issueGroom_of_ne {op : UOp} (h : op ≠ .gnrmb) (i : IT) (legal ub uc : Bool) (cm : BitVec 24) (em : W64) (s : State) :
    issueGroom op i legal ub uc cm em s = issueUnits groomUnits op i
      (legal && legalT i true true (op = .gnrm || op = .gnrmb) uc cm true false em) true true ub uc [] (groomCheck ub uc i) (groomPut i.n) s := by
  rw [issueGroom]
  exact if_neg fun hc => h hc.1

theorem exec_carveUnits {u : Slice0.Unit} (hu : u ∈ Slice0.carveUnits) (i : IT) (s : State) : exec (u.make i) s = .next (issueOf u i s) := by
  simp only [Slice0.carveUnits, List.mem_cons, List.not_mem_nil, or_false] at hu
  rcases hu with rfl | rfl | rfl | rfl | rfl | rfl
  all_goals rfl

theorem exec_vectorUnits {u : Slice0.Unit} (hu : u ∈ Slice0.vectorUnits) (i : IT) (s : State) : exec (u.make i) s = .next (issueOf u i s) := by
  simp only [Slice0.vectorUnits, List.mem_cons, List.not_mem_nil, or_false] at hu
  rcases hu with rfl | rfl | rfl | rfl | rfl | rfl | rfl | rfl | rfl | rfl | rfl | rfl | rfl | rfl | rfl | rfl | rfl | rfl | rfl | rfl |
    rfl | rfl | rfl
  all_goals rfl

theorem exec_gnrm (i : IT) (s : State) :
    exec (.gnrm i) s = .next (issueGroom .gnrm i (!i.ctl.getLsbD 1) (!i.ctl.getLsbD 3) false 0x1B 0xFFFFFFFF0001FFFF s) := by rfl
theorem exec_gsmx (i : IT) (s : State) : exec (.gsmx i) s = .next (issueGroom .gsmx i true false false 0x14 0xFFFFFFFF0001FFFF s) := by rfl
theorem exec_gsmxb (i : IT) (s : State) : exec (.gsmxb i) s = .next (issueGroom .gsmxb i true false true 4 0xFFFFFFFF00000000 s) := by rfl
theorem exec_gnrmb (i : IT) (s : State) :
    exec (.gnrmb i) s = .next (issueGroom .gnrmb i (!i.ctl.getLsbD 1) (!i.ctl.getLsbD 3) true 0xB 0x1FFFF s) := by rfl
theorem exec_spop (i : IT) (s : State) : exec (.spop i) s = .next (issuePop .spop i true spopCheck s) := by rfl
theorem exec_spskip (i : IT) (s : State) :
    exec (.spskip i) s = .next (issuePop .spskip i false (fun i s _ => firstFault s i.n [] { late := snowPopFault s i.n none }) s) := by rfl

theorem exec_otherUnits {u : Slice0.Unit} (hu : u ∈ Slice0.otherUnits) (i : IT) (s : State) : exec (u.make i) s = .next (issueOf u i s) := by
  simp only [Slice0.otherUnits, List.mem_cons, List.not_mem_nil, or_false] at hu
  rcases hu with rfl | rfl | rfl | rfl | rfl | rfl | rfl
  · exact (exec_gnrm i s).trans (congrArg _ (issueGroom_of_ne (by decide) ..))
  · exact (exec_gsmx i s).trans (congrArg _ (issueGroom_of_ne (by decide) ..))
  · exact (exec_gsmxb i s).trans (congrArg _ (issueGroom_of_ne (by decide) ..))
  all_goals rfl

/-- A command that takes a record off the Snowpack asks for its header when the directory does not hold it. -/
theorem exec_popUnits {u : Slice0.Unit} (hu : u ∈ Slice0.popUnits) (i : IT) (s : State) :
    exec (u.make i) s = .next (if s.snowHeld i.n = true ∧ (u.op = .gnrmb → (capture u.op i (s.ctx i.n i.k)).spillRows ≠ 0) then
      issue i.n i.k i.pg i.pn i.len (u.legal i) (u.rs i) (heldDescs i s (u.uses i).1 (u.uses i).2.1 (u.uses i).2.2.1 (u.uses i).2.2.2) s
        (snowAskDir i.n)
      else issueOf u i s) := by
  simp only [Slice0.popUnits, List.mem_cons, List.not_mem_nil, or_false] at hu
  rcases hu with rfl | rfl | rfl
  · rw [exec_spop, issuePop]
    simp only [reduceCtorEq, false_implies, and_true]
    rfl
  · rw [exec_spskip, issuePop]
    simp only [reduceCtorEq, false_implies, and_true]
    rfl
  · rw [exec_gnrmb, issueGroom]
    simp only [true_and, forall_const, and_comm]
    rfl

theorem issuesAs_issueOf {u : Slice0.Unit} {i : IT} {s : State} (h : exec (u.make i) s = .next (issueOf u i s)) :
    IssuesAs (u.make i) s i.n i.k i.pg i.pn i.len (u.legal i) := by
  rw [issueOf, issueUnits] at h
  exact ⟨_, _, _, h⟩

theorem issuesAs_units {u : Slice0.Unit} (hu : u ∈ Slice0.carveUnits ++ Slice0.vectorUnits ++ Slice0.otherUnits ++ Slice0.popUnits) (i : IT)
    (s : State) : IssuesAs (u.make i) s i.n i.k i.pg i.pn i.len (u.legal i) := by
  simp only [List.mem_append] at hu
  rcases hu with ((hu | hu) | hu) | hu
  · exact issuesAs_issueOf (exec_carveUnits hu i s)
  · exact issuesAs_issueOf (exec_vectorUnits hu i s)
  · exact issuesAs_issueOf (exec_otherUnits hu i s)
  · have h := exec_popUnits hu i s
    split at h
    · exact ⟨_, _, _, h⟩
    · exact issuesAs_issueOf h

/-! ## The extension word of each format (R72) -/

theorem illegalA_of_x {i : IA} (h : i.x = true) (ud ua ub uc up : Bool) (aux : BitVec 21) : i.legal ud ua ub uc up aux = false := by
  simp [IA.legal, h]

theorem illegalM_of_x {i : IM} (h : i.x = true) (loads : Bool) : i.legal loads = false := by
  simp [IM.legal, h]

theorem legalT_of_x {i : IT} (h : i.x = true) (ud ua ub uc : Bool) (cm : BitVec 24) (em : W64) : legalT i ud ua ub uc cm false false em = false := by
  simp [legalT, h]

theorem legalT_of_not_x {i : IT} (h : i.x = false) (ud ua ub uc : Bool) (cm : BitVec 24) (xOpt : Bool) (em : W64) :
    legalT i ud ua ub uc cm true xOpt em = false := by
  simp [legalT, h]

theorem wordsA_of_x {p : (IA → Instr) × (IA → Bool)} (hp : p ∈ Slice0.wordsA) {i : IA} (h : i.x = true) : p.2 i = false := by
  simp only [Slice0.wordsA, List.mem_append, List.mem_map, List.mem_cons, List.not_mem_nil, or_false] at hp
  rcases hp with ((⟨q, -, rfl⟩ | ⟨q, -, rfl⟩) | ⟨q, -, rfl⟩) | rfl | rfl | rfl | rfl | rfl | rfl | rfl | rfl | rfl | rfl | rfl | rfl | rfl | rfl |
    rfl | rfl | rfl | rfl | rfl | rfl | rfl | rfl | rfl | rfl | rfl | rfl
  all_goals simp only [illegalA_of_x h, Bool.false_and]

theorem accesses_of_x {p : Slice0.Acc} (hp : p ∈ Slice0.accesses) {i : IM} (h : i.x = true) : p.legal i = false := by
  simp only [Slice0.accesses, List.mem_cons, List.not_mem_nil, or_false] at hp
  rcases hp with rfl | rfl | rfl | rfl
  all_goals simp only [IM.legalDesc, illegalM_of_x h, Bool.false_and]

/-- Every unit command. -/
def unitList : List Slice0.Unit := Slice0.carveUnits ++ Slice0.vectorUnits ++ Slice0.otherUnits ++ Slice0.popUnits

/-- The unit commands whose words are illegal when x has a value. -/
def unitsIllegal (x : Bool) : List (IT → Instr) → Prop :=
  fun l => ∀ f ∈ l, ∃ u ∈ unitList, u.make = f ∧ ∀ i : IT, i.x = x → u.legal i = false

theorem formTnone_illegal : unitsIllegal true Slice0.formTnone := by
  intro f hf
  simp only [Slice0.formTnone, List.mem_cons, List.not_mem_nil, or_false] at hf
  rcases hf with rfl | rfl | rfl | rfl
  · exact ⟨unitList[5], List.getElem_mem _, rfl, fun i h => legalT_of_x h ..⟩
  · exact ⟨unitList[32], List.getElem_mem _, rfl, fun i h => legalT_of_x h ..⟩
  · exact ⟨unitList[36], List.getElem_mem _, rfl, fun i h => legalT_of_x h ..⟩
  · exact ⟨unitList[37], List.getElem_mem _, rfl, fun i h => legalT_of_x h ..⟩

theorem formTreq_illegal : unitsIllegal false Slice0.formTreq := by
  intro f hf
  simp only [Slice0.formTreq, List.mem_cons, List.not_mem_nil, or_false] at hf
  rcases hf with rfl | rfl | rfl | rfl | rfl | rfl | rfl | rfl | rfl | rfl | rfl | rfl
  · exact ⟨unitList[0], List.getElem_mem _, rfl, fun i h => legalT_of_not_x h ..⟩
  · exact ⟨unitList[1], List.getElem_mem _, rfl, fun i h => legalT_of_not_x h ..⟩
  · exact ⟨unitList[2], List.getElem_mem _, rfl, fun i h => legalT_of_not_x h ..⟩
  · exact ⟨unitList[3], List.getElem_mem _, rfl, fun i h => legalT_of_not_x h ..⟩
  · exact ⟨unitList[4], List.getElem_mem _, rfl, fun i h => legalT_of_not_x h ..⟩
  · exact ⟨unitList[29], List.getElem_mem _, rfl, fun i h => (congrArg _ (legalT_of_not_x h ..)).trans (Bool.and_false _)⟩
  · exact ⟨unitList[30], List.getElem_mem _, rfl, fun i h => legalT_of_not_x h ..⟩
  · exact ⟨unitList[38], List.getElem_mem _, rfl, fun i h => (congrArg _ (legalT_of_not_x h ..)).trans (Bool.and_false _)⟩
  · exact ⟨unitList[31], List.getElem_mem _, rfl, fun i h => legalT_of_not_x h ..⟩
  · exact ⟨unitList[34], List.getElem_mem _, rfl, fun i h => legalT_of_not_x h ..⟩
  · exact ⟨unitList[35], List.getElem_mem _, rfl, fun i h => legalT_of_not_x h ..⟩
  · exact ⟨unitList[33], List.getElem_mem _, rfl, fun i h => legalT_of_not_x h ..⟩

theorem formA_eq : Slice0.formA = Slice0.wordsA.map Prod.fst := rfl
theorem formB_eq : Slice0.formB ++ Slice0.formBr = Slice0.wordsB.map Prod.fst := rfl
theorem formM_eq : Slice0.formM = Slice0.accesses.map Slice0.Acc.make := rfl
theorem formTopt_eq : Slice0.formTopt = Slice0.vectorUnits.map Slice0.Unit.make := rfl

/-- Every instruction of format T is a unit command. -/
theorem mem_unitList_of_formT {f : IT → Instr} (hf : f ∈ Slice0.formTnone ++ Slice0.formTreq ++ Slice0.formTopt) :
    ∃ u ∈ unitList, u.make = f := by
  simp only [List.mem_append, formTopt_eq, List.mem_map] at hf
  rcases hf with (hf | hf) | ⟨u, hu, rfl⟩
  · obtain ⟨u, hu, he, -⟩ := formTnone_illegal f hf
    exact ⟨u, hu, he⟩
  · obtain ⟨u, hu, he, -⟩ := formTreq_illegal f hf
    exact ⟨u, hu, he⟩
  · exact ⟨u, by simp only [unitList, List.mem_append, hu, or_true, true_or], rfl⟩

/-- Settles O16: every instruction is the issue of its word, and issue checks the pc first. -/
theorem fetchAlign : Obligations.FetchAlign := by
  unfold Obligations.FetchAlign
  refine ⟨fun f hf i s hi hp => ?_, fun f hf i s hi hp => ?_, fun f hf i s hi hp => ?_, fun f hf i s hi hp => ?_⟩
  · obtain ⟨p, hm, rfl⟩ := List.mem_map.mp (formA_eq ▸ hf)
    exact (issuesAs_wordsA hm i s).pcAlign hi hp
  · obtain ⟨p, hm, rfl⟩ := List.mem_map.mp (formB_eq ▸ hf)
    exact (issuesAs_wordsB hm i s).pcAlign hi hp
  · obtain ⟨p, hm, rfl⟩ := List.mem_map.mp (formM_eq ▸ hf)
    exact (issuesAs_accesses hm i s).pcAlign hi hp
  · obtain ⟨u, hu, rfl⟩ := mem_unitList_of_formT hf
    exact (issuesAs_units hu i s).pcAlign hi hp

theorem slice0_extensionWordIllegal : Slice0.ExtensionWordIllegal := by
  unfold Slice0.ExtensionWordIllegal
  refine ⟨fun f hf i s hi hx => ?_, fun f hf i s hi hx => ?_, fun f hf i s hi hx => ?_, fun f hf i s hi hx => ?_, fun f hf i s hi hx => ?_⟩
  · obtain ⟨p, hm, rfl⟩ := List.mem_map.mp (formA_eq ▸ hf)
    exact (issuesAs_wordsA hm i s).illegal hi (wordsA_of_x hm hx)
  · obtain ⟨p, hm, rfl⟩ := List.mem_map.mp (formM_eq ▸ hf)
    exact (issuesAs_accesses hm i s).illegal hi (accesses_of_x hm hx)
  · have hill (ud ua : Bool) : i.legal false ud ua = false :=
      Bool.eq_false_iff.mpr fun h => by simp [x_of_legal h] at hx
    simp only [Slice0.formBr, List.mem_cons, List.not_mem_nil, or_false] at hf
    rcases hf with rfl | rfl | rfl
    all_goals exact IssuesAs.illegal ⟨_, _, _, rfl⟩ hi (hill ..)
  · obtain ⟨u, hu, rfl, hl⟩ := formTnone_illegal f hf
    exact (issuesAs_units hu i s).illegal hi (hl i hx)
  · obtain ⟨u, hu, rfl, hl⟩ := formTreq_illegal f hf
    exact (issuesAs_units hu i s).illegal hi (hl i hx)

theorem slice0_skippedInstruction : Slice0.SkippedInstruction := by
  unfold Slice0.SkippedInstruction
  refine ⟨fun p hp i s hi hg => ?_, fun p hp i s hi hg => ?_, fun p hp i s hi hg => ?_, fun u hu i s hi hg => ?_⟩
  · exact (issuesAs_wordsA hp i s).skipped hi hg
  · exact (issuesAs_wordsB hp i s).skipped hi hg
  · exact (issuesAs_accesses hp i s).skipped hi hg
  · exact (issuesAs_units hu i s).skipped hi hg

/-! ## Scalar arithmetic (R80) -/

/-- Settles O5: each operation of the model is that of Table 04-7, and an instruction that executes has its effect alone. -/
theorem scalarArithmetic : Obligations.ScalarArithmetic := by
  refine ⟨fun p hp i s hx hl => ?_, fun p hp i s hx hl => ?_⟩
  · rw [exec_scalarA hp, scalarA, issue_executes hx hl]
  · rw [exec_scalarB hp, scalarB, issue_executes hx hl]
    rfl

/-! ## Compares and predicates (R81) -/

theorem exec_pset (i : IA) (s : State) : exec (.pset i) s = execPset i s := by rfl
theorem exec_pget (i : IA) (s : State) : exec (.pget i) s = execPget i s := by rfl

theorem predField_iff (f : BitVec 5) : predField f = true ↔ f.toNat < 8 := by
  simp [predField]

theorem predField_eq_false_iff (f : BitVec 5) : predField f = false ↔ 8 ≤ f.toNat := by
  simp [predField]

theorem ofNat_bit (b : Bool) : (BitVec.ofNat 64 (bit b) : W64) = if b then 1 else 0 := by
  cases b <;> rfl

/-- Settles O6: an instruction that executes has its effect alone, and one whose word is illegal faults. -/
theorem comparesAndPredicates : Obligations.ComparesAndPredicates := by
  unfold Obligations.ComparesAndPredicates
  refine ⟨fun p hp i s hx hl hd => ?_, fun p hp i s hx hl hd => ?_, fun p hp i s hx hl hd ha hb => ?_, fun i s hx hl hd => ?_,
    fun i s hx hl ha => ?_, fun i s hi => ⟨fun p hp h => ?_, fun p hp h => ?_, fun h => ?_, fun h => ?_⟩, fun p hp i s hi h => ?_⟩
  · rw [exec_compareA hp, compareA, issue_executes hx (by simp only [Bool.and_eq_true, predField_iff, hl, hd, and_self])]
  · rw [exec_compareB hp, compareB, issue_executes hx (by simp only [Bool.and_eq_true, predField_iff, hl, hd, and_self])]
  · rw [exec_logicA hp, predicateA, issue_executes hx (by simp only [Bool.and_eq_true, predField_iff, hl, hd, ha, hb, and_self])]
  · rw [exec_pset, execPset, issue_executes hx (by simp only [Bool.and_eq_true, predField_iff, hl, hd, and_self])]
    have hne (a : W64) : decide (a ≠ 0) = (a != 0) := congrFun₂ cNe_eq a 0
    simp only [hne]
  · rw [exec_pget, execPget, issue_executes hx (by simp only [Bool.and_eq_true, predField_iff, hl, ha, and_self])]
    simp only [ofNat_bit]
  · refine IssuesAs.illegal ⟨_, _, _, exec_compareA hp i s⟩ hi ?_
    simpa only [Bool.and_eq_false_iff, predField_eq_false_iff, or_assoc] using h
  · refine IssuesAs.illegal ⟨_, _, _, exec_logicA hp i s⟩ hi ?_
    simpa only [Bool.and_eq_false_iff, predField_eq_false_iff, or_assoc] using h
  · refine IssuesAs.illegal ⟨_, _, _, exec_pset i s⟩ hi ?_
    simpa only [Bool.and_eq_false_iff, predField_eq_false_iff] using h
  · refine IssuesAs.illegal ⟨_, _, _, exec_pget i s⟩ hi ?_
    simpa only [Bool.and_eq_false_iff, predField_eq_false_iff] using h
  · refine IssuesAs.illegal ⟨_, _, _, exec_compareB hp i s⟩ hi ?_
    simpa only [Bool.and_eq_false_iff, predField_eq_false_iff] using h

end Sys2Proof.Machine
end

section
/-! # Descriptor moves and branches (O12, O13; R73, R82, R83) -/

namespace Sys2Proof.Machine

/-! ## Descriptor moves (R82) -/

theorem exec_tset (i : IA) (s : State) : exec (.tset i) s = execTset i s := by rfl
theorem exec_tget (i : IA) (s : State) : exec (.tget i) s = execTget i s := by rfl
theorem exec_tmov (i : IA) (s : State) : exec (.tmov i) s = execTmov i s := by rfl

theorem descField_iff (f : BitVec 5) : descField f = true ↔ f.toNat < 16 := by
  simp [descField]

/-- Which bits the mask of one 64-bit word holds. -/
theorem getLsbD_wordMask (w b : Nat) (hb : b < 256) :
    ((BitVec.ofNat 256 (2 ^ 64 - 1) : Desc) <<< (64 * w)).getLsbD b = decide (64 * w ≤ b ∧ b < 64 * w + 64) := by
  have hlt : b - 64 * w < 256 := by omega
  rw [BitVec.getLsbD_shiftLeft, BitVec.getLsbD_ofNat, Nat.testBit_two_pow_sub_one]
  simp only [hb, hlt, decide_true, Bool.true_and, ← decide_not, ← Bool.decide_and, decide_eq_decide]
  omega

/-- A descriptor with one word replaced has that word, and its other words as they were. -/
theorem Desc.word_setWord (t : Desc) (w : Nat) (v : W64) {j : Nat} (hj : j < 4) :
    (Desc.setWord t w v).extractLsb' (64 * j) 64 = if j = w then v else t.extractLsb' (64 * j) 64 := by
  refine BitVec.eq_of_getLsbD_eq fun b hb => ?_
  have hlt : 64 * j + b < 256 := by omega
  simp only [Desc.setWord, BitVec.getLsbD_extractLsb', BitVec.getLsbD_or, BitVec.getLsbD_and, BitVec.getLsbD_not, getLsbD_wordMask _ _ hlt,
    BitVec.getLsbD_shiftLeft, BitVec.getLsbD_setWidth, hb, hlt, decide_true, Bool.true_and]
  by_cases h : j = w
  · subst h
    have hin : 64 * j ≤ 64 * j + b ∧ 64 * j + b < 64 * j + 64 := by omega
    have hs : 64 * j + b - 64 * j = b := by omega
    have hle : ¬ 64 * j + b < 64 * j := by omega
    have hb' : b < 256 := by omega
    simp only [hin, hs, hle, hb', and_self, decide_true, decide_false, Bool.not_true, Bool.not_false, Bool.and_false, Bool.false_or, Bool.true_and,
      if_true]
  · have hout : ¬ (64 * w ≤ 64 * j + b ∧ 64 * j + b < 64 * w + 64) := by omega
    have hv : ¬ 64 * j + b < 64 * w → v.getLsbD (64 * j + b - 64 * w) = false := fun hle => BitVec.getLsbD_of_ge _ _ (by omega)
    simp only [h, hout, decide_false, Bool.not_false, Bool.and_true, if_false, BitVec.getLsbD_extractLsb', hb, decide_true, Bool.true_and]
    by_cases hle : 64 * j + b < 64 * w
    · simp only [hle, decide_true, Bool.not_true, Bool.false_and, Bool.or_false]
    · simp only [hv hle, Bool.and_false, Bool.or_false]

/-- Settles O12: each instruction that executes has its effect alone, and one word of a descriptor is replaced. -/
theorem descriptorMoves : Obligations.DescriptorMoves := by
  unfold Obligations.DescriptorMoves
  refine ⟨fun i s hx hl hd => ⟨_, ?_, fun j hj => Desc.word_setWord _ _ _ hj⟩, fun i s hx hl ha => ?_, fun i s hx hl hd ha => ?_⟩
  · rw [exec_tset, execTset, issue_executes hx (by simp only [Bool.and_eq_true, descField_iff, hl, hd, and_self])]
  · rw [exec_tget, execTget, issue_executes hx (by simp only [Bool.and_eq_true, descField_iff, hl, ha, and_self])]
  · rw [exec_tmov, execTmov, issue_executes hx (by simp only [Bool.and_eq_true, descField_iff, hl, hd, ha, and_self])]

/-! ## Branches (R73, R83) -/

theorem exec_br (i : IB) (s : State) : exec (.br i) s = execBr i s := by rfl
theorem exec_jal (i : IB) (s : State) : exec (.jal i) s = execJal i s := by rfl
theorem exec_jr (i : IB) (s : State) : exec (.jr i) s = execJr i s := by rfl

/-- The targets that R73 allows are the legal values of a pc. -/
theorem pcOk_iff (v : W64) : pcOk v.toNat = true ↔ Slice0.Target v := by
  rw [pcOk, Bool.and_eq_true, decide_eq_true_iff, decide_eq_true_iff]
  rfl

theorem value_of_legal {i : IB} {ud ua : Bool} (h : i.legal false ud ua = true) : i.value = i.imm.signExtend 64 := by
  rw [IB.value, x_of_legal h]
  rfl

/-- A branch goes to a target that is allowed, and faults at another. -/
theorem branchTo_cases (n k : Nat) (v : W64) (f : Ctx → Ctx) (s : State) :
    (Slice0.Target v → branchTo n k v f s = s.setCtx n k { f (s.ctx n k) with pc := v.toNat })
    ∧ (¬ Slice0.Target v → branchTo n k v f s = s.faultCtx n k E.PC_ALIGN (s.ctx n k).pc) := by
  rw [← pcOk_iff]
  exact ⟨fun h => if_pos h, fun h => if_neg h⟩

/-- Settles O13: each branch that executes goes to its target, or faults. -/
theorem branches : Obligations.Branches := by
  unfold Obligations.Branches
  refine ⟨fun i s hx hl => ?_, fun i s hx hl => ?_, fun i s hx hl => ?_⟩
  · rw [exec_br, execBr, issue_executes hx hl, value_of_legal hl]
    obtain ⟨hgo, hfault⟩ := branchTo_cases i.n i.k (relTarget (s.ctx i.n i.k).pc (i.imm.signExtend 64)) id s
    exact ⟨fun h => congrArg _ (hgo h), fun h => congrArg _ (hfault h)⟩
  · rw [exec_jal, execJal, issue_executes hx hl, value_of_legal hl]
    obtain ⟨hgo, hfault⟩ := branchTo_cases i.n i.k (relTarget (s.ctx i.n i.k).pc (i.imm.signExtend 64))
      (fun x => x.setSr i.d.toNat (BitVec.ofNat 64 ((s.ctx i.n i.k).pc + 8))) s
    exact ⟨fun h => congrArg _ (hgo h), fun h => congrArg _ (hfault h)⟩
  · rw [exec_jr, execJr, issue_executes hx hl, value_of_legal hl]
    obtain ⟨hgo, hfault⟩ := branchTo_cases i.n i.k ((s.ctx i.n i.k).sr i.a.toNat + i.imm.signExtend 64) id s
    exact ⟨fun h => congrArg _ (hgo h), fun h => congrArg _ (hfault h)⟩

end Sys2Proof.Machine
end

section
/-! # Scalar accesses of local spaces and their faults (O7, O8, O10; R62, R76, R82, R94) -/

namespace Sys2Proof.Machine

/-! ## Where a local access leads (R82) -/

section
variable {i : IM} {s : State} {w : Nat} {acc : Access}

theorem localAddr_home (i : IM) (s : State) {space : Nat} (h : space ≠ 3) :
    localAddr i.n space (Slice0.ea i s) = Slice0.home i.n space + Slice0.ea i s := by
  rw [localAddr, if_neg h]
  rfl

theorem spaceSize_eq_room {space : Nat} (h : space = 1 ∨ space = 2) : spaceSize space = Slice0.room space := by
  rcases h with rfl | rfl <;> rfl

theorem leadOf_of_local (h : Slice0.Local i w s) :
    leadOf s i.n i.space.toNat (Slice0.ea i s) w acc = .own (Slice0.home i.n i.space.toNat + Slice0.ea i s) := by
  obtain ⟨hsp, hal, hroom⟩ := h
  rw [← spaceSize_eq_room hsp] at hroom
  rw [leadOf, if_pos (by omega), if_neg (by simp [hal, Nat.not_lt.mpr hroom]), localAddr_home i s (by omega)]

theorem scalarLoad_of_local (h : Slice0.Local i w s) (reg : List Byte → Load) :
    scalarLoad i.n i.k i.space.toNat (Slice0.ea i s) w reg s = s.setCtx i.n i.k (Ctx.adv { s.ctx i.n i.k with loads :=
      (s.ctx i.n i.k).loads ++ [reg (s.mem.bytes (Slice0.home i.n i.space.toNat + Slice0.ea i s) w)] } 8) := by
  unfold scalarLoad
  simp only [leadOf_of_local h]

theorem scalarStore_of_local {bs : List Byte} (h : Slice0.Local i bs.length s) :
    scalarStore i.n i.k i.space.toNat (Slice0.ea i s) bs s =
      (s.store (Slice0.home i.n i.space.toNat + Slice0.ea i s) bs).advance i.n i.k 8 := by
  unfold scalarStore
  simp only [leadOf_of_local h]

end

/-! ## Loads and their return (R76) -/

theorem slice0_localLoad : Slice0.LocalLoad := by
  unfold Slice0.LocalLoad
  refine ⟨fun i s hx hl h => ?_, fun i s hx hl h => ?_⟩
  · rw [exec_ld_executes hx hl, scalarLoad_of_local h]
    rfl
  · rw [exec_tld_executes hx hl, scalarLoad_of_local h]
    rfl

theorem exec_scalarLoadReturn (core : BitVec 10) (ctx : BitVec 3) (s : State) :
    exec (.scalarLoadReturn core ctx) s = .next (s.unlessStopped core.toNat (loadReturn core.toNat ctx.toNat)) := by rfl

/-- A context whose oldest load returns. -/
def Ctx.returned (x : Ctx) (l : Load) (ls : List Load) : Ctx :=
  if l.desc then { x with loads := ls }.setTr l.reg l.data
  else if l.reg = 0 then { x with loads := ls } else { x with loads := ls, s := Sparse.put x.s l.reg (l.data.setWidth 64) }

theorem loadReturn_eq {n k : Nat} {s : State} {l : Load} {ls : List Load} (h : (s.ctx n k).loads = l :: ls) :
    loadReturn n k s = s.setCtx n k ((s.ctx n k).returned l ls) := by
  rw [loadReturn]
  dsimp only
  rw [h]
  rfl

theorem Ctx.returned_sr (x : Ctx) (l : Load) (ls : List Load) (j : Nat) :
    (x.returned l ls).sr j = if l.desc = false ∧ j = l.reg ∧ j ≠ 0 then l.data.setWidth 64 else x.sr j := by
  unfold Ctx.returned
  cases hd : l.desc with
  | true => simp [Ctx.sr, Ctx.setTr]
  | false =>
    by_cases hr : l.reg = 0
    · have h : ¬ (j = 0 ∧ j ≠ 0) := fun h => h.2 h.1
      simp only [hr, h, and_false, Bool.false_eq_true, if_false, if_true]
      rfl
    · simp only [Bool.false_eq_true, if_false, hr, Ctx.sr, Sparse.get_put, true_and]
      by_cases hj : j = 0
      · simp [hj]
      · simp [hj]

theorem Ctx.returned_tr (x : Ctx) (l : Load) (ls : List Load) (j : Nat) :
    (x.returned l ls).tr j = if l.desc = true ∧ j = l.reg then l.data else x.tr j := by
  unfold Ctx.returned
  cases hd : l.desc with
  | true => simp [Ctx.tr, Ctx.setTr]
  | false => by_cases hr : l.reg = 0 <;> simp [hr, Ctx.tr]

/-- The return of a load changes no other part of its context. -/
theorem Ctx.returned_rest (x : Ctx) (l : Load) (ls : List Load) :
    x.returned l ls = { x with loads := ls, s := (x.returned l ls).s, t := (x.returned l ls).t } := by
  unfold Ctx.returned
  split
  · rfl
  · split <;> rfl

theorem slice0_loadReturn : Slice0.LoadReturn := by
  unfold Slice0.LoadReturn
  intro core ctx s l ls hstop hl
  have hrest := (s.ctx core.toNat ctx.toNat).returned_rest l ls
  refine ⟨_, ?_, ?_, Ctx.returned_sr _ l ls, Ctx.returned_tr _ l ls, ?_, ?_, ?_, ?_, ?_⟩
  · rw [exec_scalarLoadReturn, State.unlessStopped, hstop, if_neg Bool.false_ne_true, loadReturn_eq hl]
  all_goals rw [hrest]

/-- Settles O7, from where a local access leads and what the return of a load leaves of its context. -/
theorem localLoads : Obligations.LocalLoads := ⟨slice0_localLoad, slice0_loadReturn⟩

/-! ## Stores (R82, R196) -/

/-- A core's window lies above edge memory, so no page of it is held. -/
theorem heldPages_of_home (s : State) (n space off w : Nat) : s.heldPages (Slice0.home n space + off) w = [] := by
  have hedge : s.edgeSize ≤ Slice0.home n space + off := by
    unfold State.edgeSize Slice0.home
    split <;> omega
  simp [State.heldPages, State.pagesOf, hedge]

/-- A store over a Snowpack that holds records writes free values. -/
theorem State.store_overSnow {s : State} {a : Nat} {bs : List Byte} (hh : s.heldPages a bs.length = []) (hs : ¬ Slice0.OffSnow s a bs.length) :
    s.store a bs = { s with mem := s.mem.writeBytes a ((List.range bs.length).map fun j => Config.freeByte s.free j), free := s.free + 1 } := by
  have hover : (s.topHit a bs.length || s.bodyHit none a bs.length) = true := by
    rw [← Bool.not_eq_false, Bool.or_eq_false_iff]
    exact hs
  rw [State.store, State.storeBy, hh]
  dsimp only [List.foldl_nil, State.overSnow]
  rw [if_pos hover]
  rfl

theorem storedLocal_of_store {c : Instr} {i : IM} {s : State} {w v : Nat}
    (h : exec c s = .next ((s.store (Slice0.home i.n i.space.toNat + Slice0.ea i s) (leBytes w v)).advance i.n i.k 8)) :
    Slice0.StoredLocal c i s w v := by
  have hheld := heldPages_of_home s i.n i.space.toNat (Slice0.ea i s) (leBytes w v).length
  refine ⟨fun hs => ⟨_, ?_, Mem.stored_writeBytes _ _ w v⟩, fun hs => ?_⟩
  · rw [h, State.store_eq hheld (by rwa [length_leBytes])]
  · rw [h, State.store_overSnow hheld (by rwa [length_leBytes])]
    refine ⟨_, rfl, fun b hb => ?_⟩
    rw [Mem.read_writeBytes, if_neg]
    simp only [List.length_map, List.length_range, length_leBytes]
    omega

/-- Settles O8: a local store leads to the home of its space, whose pages no Freeze holds. -/
theorem localStore : Obligations.LocalStore := by
  unfold Obligations.LocalStore
  refine ⟨fun i s hx hl h => storedLocal_of_store ?_, fun i s hx hl h => storedLocal_of_store ?_⟩
  · rw [exec_st_executes hx hl, scalarStore_of_local (by rwa [length_leBytes])]
  · rw [exec_tst_executes hx hl, scalarStore_of_local (by rwa [length_leBytes])]

/-! ## Faults (R62, R94) -/

/-- Every access that leads to a fault takes it, with the address of the access. -/
theorem exec_access_of_fault {p : Slice0.Acc} (hp : p ∈ Slice0.accesses) {i : IM} {s : State} (hx : s.Executes i.n i.k i.pg i.pn (p.rs i) (p.ts i))
    (hl : p.legal i = true) {code : Nat} (h : leadOf s i.n i.space.toNat (Slice0.ea i s) (p.w i) p.acc = .fault code) :
    exec (p.make i) s = .next (s.faultCtx i.n i.k code (Slice0.ea i s)) := by
  simp only [Slice0.accesses, List.mem_cons, List.not_mem_nil, or_false] at hp
  rcases hp with rfl | rfl | rfl | rfl
  · rw [exec_ld_executes hx hl, scalarLoad, h]
  · rw [exec_st_executes hx hl, scalarStore, length_leBytes, h]
  · rw [exec_tld_executes hx hl, scalarLoad, h]
  · rw [exec_tst_executes hx hl, scalarStore, length_leBytes, h]

/-- A legal access names space 0, 1 or 2. -/
theorem space_of_legal {p : Slice0.Acc} (hp : p ∈ Slice0.accesses) {i : IM} (hl : p.legal i = true) : i.space.toNat ≠ 3 := by
  simp only [Slice0.accesses, List.mem_cons, List.not_mem_nil, or_false] at hp
  rcases hp with rfl | rfl | rfl | rfl
  all_goals simp only [IM.legalDesc, IM.legal, Bool.and_eq_true, decide_eq_true_eq] at hl
  · exact hl.2
  · exact hl.2
  · exact hl.1.1.2
  · exact hl.1.1.2

section
variable {i : IM} {s : State} {w : Nat} {acc : Access}

theorem leadOf_local_misaligned (hsp : i.space.toNat ≠ 0) (h : Slice0.ea i s % w ≠ 0) :
    leadOf s i.n i.space.toNat (Slice0.ea i s) w acc = .fault E.ALIGN := by
  simp [leadOf, hsp, h]

theorem leadOf_local_outside (hsp : i.space.toNat = 1 ∨ i.space.toNat = 2) (h : Slice0.ea i s % w = 0)
    (hout : Slice0.room i.space.toNat < Slice0.ea i s + w) : leadOf s i.n i.space.toNat (Slice0.ea i s) w acc = .fault E.ADDR_UNMAPPED := by
  rw [← spaceSize_eq_room hsp] at hout
  have h0 : i.space.toNat ≠ 0 := by omega
  simp [leadOf, h0, h, hout]

theorem leadOf_noncanonical (hsp : i.space.toNat = 0) (hva : 2 ^ 48 ≤ Slice0.ea i s) (h : Slice0.ea i s % w = 0) :
    leadOf s i.n i.space.toNat (Slice0.ea i s) w acc = .fault E.VA_NONCANON := by
  rw [leadOf, if_neg (by simp [hsp]), if_pos hva]
  simp [h]

variable {big : Bool} {e : TlbEntry} (hsp : i.space.toNat = 0) (hit : Slice0.Hit s i.n (Slice0.ea i s) big e)
include hsp hit

/-- Where a virtual access goes whose page a TLB holds. -/
theorem leadOf_of_hit : leadOf s i.n i.space.toNat (Slice0.ea i s) w acc =
    if s.isSelf (e.addr big (Slice0.ea i s) / 2 ^ 42) = false then .fault E.SPACE
    else if Slice0.ea i s % w ≠ 0 then .fault E.ALIGN
    else if e.allows acc (e.addr big (Slice0.ea i s)) = false then .fault E.PAGE_PERM
    else .phys (e.addr big (Slice0.ea i s) % 2 ^ 42) := by
  have hlt : ¬ 2 ^ 48 ≤ Slice0.ea i s := Nat.not_le.mpr hit.canon
  unfold leadOf
  simp only [hsp, ne_eq, not_true_eq_false, if_false, hlt, hit.hit, TlbEntry.elsewhere, checkEntry, Bool.not_eq_true']
  cases s.isSelf (e.addr big (Slice0.ea i s) / 2 ^ 42) with
  | false => rfl
  | true =>
    by_cases ha : e.allows acc (e.addr big (Slice0.ea i s)) = true
    · simp only [ha, if_true, Bool.true_eq_false, if_false, decide_eq_true_eq]
    · simp only [ha, Bool.false_eq_true, if_false, Bool.true_eq_false, decide_eq_true_eq, if_true]
      exact apply_ite Lead.fault ..

end

/-- Settles O10, from where each access that faults leads. -/
theorem accessFaults : Obligations.AccessFaults := by
  unfold Obligations.AccessFaults
  intro p hp i s hx hl
  have hfault {code : Nat} := exec_access_of_fault hp hx hl (code := code)
  have h3 := space_of_legal hp hl
  have hlt : i.space.toNat < 4 := i.space.isLt
  refine ⟨fun hsp h => hfault (leadOf_local_misaligned hsp h), fun hsp h hout => hfault (leadOf_local_outside (by omega) h hout),
    fun hsp hva h => hfault (leadOf_noncanonical hsp hva h), fun big e hsp hit => ⟨fun hself => hfault ?_, fun hself h => hfault ?_,
      fun hself h hperm => hfault ?_⟩⟩
  · rw [leadOf_of_hit hsp hit, if_pos hself]
  · rw [leadOf_of_hit hsp hit, if_neg (Bool.not_eq_false _ ▸ hself), if_pos h]
  · rw [leadOf_of_hit hsp hit, if_neg (Bool.not_eq_false _ ▸ hself), if_neg (by simp [h]), if_pos hperm]

end Sys2Proof.Machine
end

section
/-! # Contexts, barriers, event flags and slices (O14, O15; R43, R65, R79, R83, R84) -/

namespace Sys2Proof.Machine

/-! ## Starting and ending a context (R65, R79) -/

theorem exec_cstart (i : IA) (s : State) : exec (.cstart i) s = execCstart i s := by rfl
theorem exec_endCtx (i : IA) (s : State) : exec (.endCtx i) s = execEndCtx i s := by rfl
theorem exec_ifence (i : IA) (s : State) : exec (.ifence i) s = execIfence i s := by rfl
theorem exec_nop (i : IA) (s : State) : exec (.nop i) s = execNop i s := by rfl
theorem exec_rdsys (i : IA) (s : State) : exec (.rdsys i) s = execRdsys i s := by rfl

/-- The context of an instruction that executes is RUNNING. -/
theorem State.Executes.running {s : State} {n k : Nat} {pg : BitVec 3} {pn : Bool} {rs ts : List Nat} (h : s.Executes n k pg pn rs ts) :
    (s.ctx n k).st = .running := by
  have hi := h.issues
  simp only [State.issues, Bool.and_eq_true, decide_eq_true_eq] at hi
  exact hi.2

theorem slice0_contextStart : Slice0.ContextStart := by
  unfold Slice0.ContextStart
  intro i s hx hl
  dsimp only
  intro htarget
  rw [exec_cstart, execCstart, issue_executes hx hl]
  dsimp only
  rw [if_neg (by simp [(pcOk_iff _).mpr htarget])]
  refine ⟨fun hj hfree => ?_, fun h => ?_⟩
  · have hne : ((s.ctx i.n i.k).sr i.a.toNat).toNat ≠ i.k := fun he => by
      rw [he, hx.running] at hfree
      cases hfree
    rw [if_pos ⟨hj, hfree⟩, State.startCtx]
    rw [State.ctx_setCtx, if_neg (fun h => hne h.2)]
  · rw [if_neg h]

theorem slice0_endAndNop : Slice0.EndAndNop := by
  unfold Slice0.EndAndNop
  refine ⟨fun i s hx hl => ⟨fun hb => ?_, fun hb => ?_⟩, fun c hc i s hx hl => ?_⟩
  · rw [exec_endCtx, execEndCtx, issue_executes hx hl, hb]
    rfl
  · rw [exec_endCtx, execEndCtx, issue_executes hx hl, hb]
    rfl
  · simp only [List.mem_cons, List.not_mem_nil, or_false] at hc
    rcases hc with rfl | rfl
    · rw [exec_ifence, execIfence, issue_executes hx hl]
    · rw [exec_nop, execNop, issue_executes hx hl]

/-! ## RDSYS (R83) -/

theorem bit_halfMode (s : State) : bit s.halfMode = if s.fld F.DEV_MODE_STS_half_mode = 0 then 0 else 1 := by
  by_cases h : s.fld F.DEV_MODE_STS_half_mode = 0 <;> simp [State.halfMode, State.flag, bit, h]

theorem mul_bit (n : Nat) (b : Bool) : n * bit b = if b then n else 0 := by
  cases b <;> simp [bit]

theorem Ctx.csw_eq (x : Ctx) {k : Nat} (hk : k < 8) : x.csw k = BitVec.ofNat 64 (k + (if x.nv then 256 else 0) + (if x.of then 512 else 0)
    + (if x.sat then 1024 else 0) + (if x.psn then 2048 else 0)) := by
  rw [Ctx.csw, mul_bit, mul_bit, mul_bit, mul_bit, Nat.mod_eq_of_lt hk]

/-- The items of RDSYS that have a value have that of Table 04-8. -/
theorem sysItem_eq {i : IA} {s : State} {item : Nat} (hlt : item < 8) {n : Nat} (h : n ∈ Slice0.sysValue i s item) :
    sysItem i.n i.k item s = BitVec.ofNat 64 n := by
  have hcsw := (s.ctx i.n i.k).csw_eq i.ctx.isLt
  interval_cases item
  all_goals simp only [Slice0.sysValue, Option.mem_def, Option.some.injEq, reduceCtorEq] at h
  all_goals subst h
  · rfl
  · rfl
  · simp only [sysItem, BitVec.ofNat_toNat, BitVec.setWidth_eq]
  · rfl
  · simp only [sysItem, bit_halfMode]
  · exact hcsw
  · exact hcsw

theorem slice0_readSystem : Slice0.ReadSystem := by
  unfold Slice0.ReadSystem
  intro i s hx hl hitem
  refine ⟨sysItem i.n i.k (fieldOf i.aux 0 4) s, ?_, fun n hn => sysItem_eq hitem hn⟩
  rw [exec_rdsys, execRdsys, issue_executes hx (by simp only [hl, hitem, decide_true, Bool.and_self])]
  rfl

/-- Settles O14, from the cases of each instruction. -/
theorem contextInstructions : Obligations.ContextInstructions := ⟨slice0_contextStart, slice0_endAndNop, slice0_readSystem⟩

/-! ## Event flags (R84) -/

/-- Whether a context of a core waits for an event flag. -/
def State.awaits (s : State) (n f k : Nat) : Prop := (s.ctx n k).st = .waiting ∧ (s.ctx n k).wait = .event f

/-- Whether any context does. -/
def State.awaited (s : State) (n f : Nat) : Bool :=
  (List.range 8).any (fun k => decide ((s.ctx n k).st = .waiting ∧ (s.ctx n k).wait = .event f))

theorem State.awaited_iff (s : State) (n f : Nat) : s.awaited n f = true ↔ ∃ k, k < 8 ∧ s.awaits n f k := by
  simp only [State.awaited, List.any_eq_true, List.mem_range, decide_eq_true_eq, State.awaits]

/-- A flag for which no context waits is set. -/
theorem State.setEvent_of_not_awaited {s : State} {n f : Nat} (h : ∀ k, k < 8 → ¬ s.awaits n f k) :
    s.setEvent n f = s.setCore n { s.core n with ev := (s.core n).ev ||| (1 <<< f : BitVec 32) } := by
  have hfind : (List.range 8).find? (fun k => decide ((s.ctx n k).st = .waiting ∧ (s.ctx n k).wait = .event f)) = none :=
    List.find?_eq_none.mpr fun k hk => by
      rw [decide_eq_true_eq]
      exact h k (List.mem_range.mp hk)
  rw [State.setEvent, hfind]

/-- A flag for which contexts wait releases the first of them. -/
theorem State.setEvent_of_awaited {s : State} {n f k : Nat} (hk : k < 8) (h : s.awaits n f k) (hfirst : ∀ j, j < k → ¬ s.awaits n f j) :
    s.setEvent n f = s.releaseCtx n k := by
  have hfind : (List.range 8).find? (fun k => decide ((s.ctx n k).st = .waiting ∧ (s.ctx n k).wait = .event f)) = some k := by
    rw [List.find?_range_eq_some]
    refine ⟨decide_eq_true h, List.mem_range.mpr hk, fun j hj => ?_⟩
    rw [Bool.not_eq_true', decide_eq_false_iff_not]
    exact hfirst j hj
  rw [State.setEvent, hfind]

theorem State.exists_setEvent_of_awaited {s : State} {n f : Nat} (h : s.awaited n f = true) :
    ∃ k, s.awaits n f k ∧ s.setEvent n f = s.releaseCtx n k := by
  classical
  have hex := (s.awaited_iff n f).mp h
  obtain ⟨hk, hw⟩ := Nat.find_spec hex
  refine ⟨Nat.find hex, hw, State.setEvent_of_awaited hk hw fun j hj hj' => Nat.find_min hex hj ⟨by omega, hj'⟩⟩

theorem releaseCtx_ev (s : State) (n k : Nat) : ((s.releaseCtx n k).core n).ev = (s.core n).ev := by
  have h := ((ctxsOnly_setCtx n k _ s).trans (ctxsOnly_makeReady n k (s.advance n k 8))).core
  rw [State.releaseCtx, h]

/-- A released context waits for nothing, and what the others wait for stays. -/
theorem releaseCtx_awaits (s : State) (n k f j : Nat) : (s.releaseCtx n k).awaits n f j ↔ j ≠ k ∧ s.awaits n f j := by
  have h := puts_makeReady n (s.advance n k 8) k j
  have hadv (hj : j ≠ k) : (s.advance n k 8).ctx n j = s.ctx n j := by
    rw [State.advance, State.ctx_setCtx, if_neg (fun he => hj he.2)]
  unfold State.awaits State.releaseCtx
  by_cases hj : j = k
  · subst hj
    rw [if_pos rfl] at h
    rcases h with h | ⟨-, h⟩ <;> rw [h] <;> simp
  · rw [if_neg hj, hadv hj] at h
    rcases h with h | ⟨hst, h⟩
    · simp [h, hj]
    · simp [h, hst]

theorem getLsbD_flag (f g : Nat) (hg : g < 32) : (1 <<< f : BitVec 32).getLsbD g = decide (g = f) := by
  rw [BitVec.natCast_eq_ofNat, BitVec.getLsbD_ofNat, Nat.one_shiftLeft, Nat.testBit_two_pow]
  simp [hg, eq_comm]

/-- What setting one event flag does to the flags and to the contexts that wait for another. -/
theorem setEvent_does (s : State) (n f : Nat) {g : Nat} (hg : g < 32) :
    ((s.setEvent n f).core n).ev.getLsbD g = ((s.core n).ev.getLsbD g || (decide (g = f) && !s.awaited n f))
    ∧ (g ≠ f → (s.setEvent n f).awaited n g = s.awaited n g) := by
  cases h : s.awaited n f with
  | true =>
    obtain ⟨k, hk, he⟩ := State.exists_setEvent_of_awaited h
    refine ⟨by rw [he, releaseCtx_ev]; simp, fun hne => ?_⟩
    rw [Bool.eq_iff_iff, he, State.awaited_iff, State.awaited_iff]
    refine exists_congr fun j => and_congr_right fun _ => (releaseCtx_awaits s n k g j).trans (and_iff_right_of_imp fun hw hj => hne ?_)
    subst hj
    exact Wait.event.inj (hw.2.symm.trans hk.2)
  | false =>
    have hnone : ∀ k, k < 8 → ¬ s.awaits n f k := fun k hk hw => by
      rw [(s.awaited_iff n f).mpr ⟨k, hk, hw⟩] at h
      cases h
    rw [State.setEvent_of_not_awaited hnone]
    refine ⟨?_, fun _ => ?_⟩
    · rw [State.core_setCore, if_pos rfl, BitVec.getLsbD_or, getLsbD_flag f g hg]
      simp
    · have hctx (k : Nat) : (s.setCore n { s.core n with ev := (s.core n).ev ||| (1 <<< f : BitVec 32) }).ctx n k = s.ctx n k := by
        rw [State.ctx, State.core_setCore, if_pos rfl]
        rfl
      simp only [State.awaited, hctx]

/-- The flag of a mask that a list of flags sets. -/
def setMasked (n : Nat) (mask : BitVec 32) (s : State) (f : Nat) : State := if mask.getLsbD f then s.setEvent n f else s

theorem setEvents_eq (s : State) (n : Nat) (mask : BitVec 32) : s.setEvents n mask = (List.range 32).foldl (setMasked n mask) s := rfl

theorem setMasked_does (n : Nat) (mask : BitVec 32) (s : State) (f : Nat) {g : Nat} (hg : g < 32) :
    ((setMasked n mask s f).core n).ev.getLsbD g = ((s.core n).ev.getLsbD g || (decide (g = f) && mask.getLsbD f && !s.awaited n f))
    ∧ (g ≠ f → (setMasked n mask s f).awaited n g = s.awaited n g) := by
  unfold setMasked
  cases mask.getLsbD f with
  | true => simpa using setEvent_does s n f hg
  | false => simp

/-- What a list of flags does: each is set once, unless a context waits for it. -/
theorem foldl_setMasked (n : Nat) (mask : BitVec 32) {g : Nat} (hg : g < 32) (l : List Nat) (hl : l.Nodup) (s : State) :
    ((l.foldl (setMasked n mask) s).core n).ev.getLsbD g = ((s.core n).ev.getLsbD g || (decide (g ∈ l) && mask.getLsbD g && !s.awaited n g)) := by
  induction l generalizing s with
  | nil => simp
  | cons f l ih =>
    obtain ⟨hf, hl⟩ := List.nodup_cons.mp hl
    obtain ⟨hev, haw⟩ := setMasked_does n mask s f hg
    rw [List.foldl_cons, ih hl, hev]
    by_cases h : g = f
    · subst h
      simp [hf]
    · simp [h, haw h]

theorem exec_coreEvSetWrite (core : BitVec 10) (v : W64) (s : State) :
    exec (.coreEvSetWrite core v) s = .next (s.atCore core.toNat (evSet core.toNat v)) := by rfl

theorem slice0_eventFlags : Slice0.EventFlags := by
  unfold Slice0.EventFlags
  intro core v s h
  refine ⟨evSet core.toNat v s, by rw [exec_coreEvSetWrite, State.atCore_of_reached _ h], fun f hf => ?_⟩
  rw [evSet, setEvents_eq, foldl_setMasked _ _ hf _ List.nodup_range, State.kick_core]
  have haw : (s.kick core.toNat).awaited core.toNat f = s.awaited core.toNat f := by simp only [State.awaited, State.kick_ctx]
  rw [haw, BitVec.getLsbD_setWidth]
  simp [hf, State.awaited]

/-! ## Waits, barriers and slices (R43, R83, R84) -/

theorem exec_waitp (i : IA) (s : State) : exec (.waitp i) s = execWaitp i s := by rfl
theorem exec_bar (i : IA) (s : State) : exec (.bar i) s = execBar i s := by rfl
theorem exec_evsig (i : IA) (s : State) : exec (.evsig i) s = execEvsig i s := by rfl
theorem exec_evwait (i : IA) (s : State) : exec (.evwait i) s = execEvwait i s := by rfl
theorem exec_ctxSliceExpiry (core : BitVec 10) (s : State) :
    exec (.ctxSliceExpiry core) s = .next (s.unlessStopped core.toNat (sliceExpiry core.toNat)) := by rfl

/-- Settles O15, from what setting a flag does to the flags and to the contexts that wait, and the cases of each instruction. -/
theorem synchronisation : Obligations.Synchronisation := by
  unfold Obligations.Synchronisation
  refine ⟨slice0_eventFlags, fun i s hx hl => ⟨fun hp => ?_, fun hp => ?_⟩, fun i s hx hl => ?_, fun i s hx hl => ?_, fun core s k hstop hrun => ?_⟩
  · rw [exec_waitp, execWaitp, issue_executes hx hl]
    dsimp only
    rw [if_pos hp]
  · rw [exec_waitp, execWaitp, issue_executes hx hl]
    dsimp only
    rw [if_neg (ne_true_of_eq_false hp)]
  · rw [exec_bar, execBar, issue_executes hx hl]
    dsimp only
    refine ⟨fun hbad => ?_, fun hgood hlast => ?_, fun hgood hlast => ?_⟩
    · rw [if_pos (by omega)]
    · rw [if_neg (by omega), if_pos hlast]
      rfl
    · rw [if_neg (by omega), if_neg hlast]
  · rw [exec_evsig, execEvsig, issue_executes hx hl, exec_evwait, execEvwait, issue_executes hx hl]
    dsimp only
    refine ⟨fun hnone => ?_, fun k hk hst hw hfirst => ?_, fun hset => ?_, fun hclear => ?_⟩
    · rw [State.setEvent_of_not_awaited hnone]
    · rw [State.setEvent_of_awaited hk ⟨hst, hw⟩ hfirst]
      rfl
    · rw [if_pos hset]
    · rw [if_neg (ne_true_of_eq_false hclear)]
  · rw [exec_ctxSliceExpiry, State.unlessStopped, hstop, if_neg Bool.false_ne_true, sliceExpiry, hrun]
    dsimp only
    rw [← Option.not_isSome]
    refine ⟨fun hfld hready => ?_, fun h => ?_⟩
    · rw [if_neg (by simp [hfld, hready])]
    · rw [if_pos (by simpa using h)]

end Sys2Proof.Machine
end

section
/-! # Ring instructions (O18; R85, R166, R167, R169) -/

namespace Sys2Proof.Machine

theorem exec_qcfg (i : IA) (s : State) : exec (.qcfg i) s = execQcfg i s := by rfl
theorem exec_qbind (i : IA) (s : State) : exec (.qbind i) s = execQbind i s := by rfl
theorem exec_qacq (i : IA) (s : State) : exec (.qacq i) s = execQacq i s := by rfl
theorem exec_qrel (i : IA) (s : State) : exec (.qrel i) s = execQrel i s := by rfl

theorem State.endTaken_iff (s : State) (n r : Nat) (p : Bool) : s.endTaken n r p = true ↔ 2 ≤ s.endHolder n r p := by
  rw [State.endTaken, decide_eq_true_iff]

/-! ## QCFG and QBIND (R85, R166) -/

/-- The ring that a QCFG may configure. -/
theorem qcfg_good_iff (s : State) (m r base cb n : Nat) :
    (15 < r ∨ base % 64 ≠ 0 ∨ cb % 64 ≠ 0 ∨ cb < 64 ∨ n < 3 ∨ 64 < n ∨ 0x3000000 < base + n * cb
      ∨ ((List.range 8).any fun k => (s.ctx m k).q.any fun h => h.2.bound && decide (h.2.ring = r)) = true
      ∨ s.endTaken m r true = true ∨ s.endTaken m r false = true) ↔
    ¬ (r ≤ 15 ∧ base % 64 = 0 ∧ cb % 64 = 0 ∧ 64 ≤ cb ∧ 3 ≤ n ∧ n ≤ 64 ∧ base + n * cb ≤ 0x3000000
      ∧ (∀ k, k < 8 → ∀ h ∈ (s.ctx m k).q, h.2.bound = true → h.2.ring ≠ r) ∧ s.endHolder m r true < 2 ∧ s.endHolder m r false < 2) := by
  have hbound : ((List.range 8).any fun k => (s.ctx m k).q.any fun h => h.2.bound && decide (h.2.ring = r)) = true ↔
      ¬ ∀ k, k < 8 → ∀ h ∈ (s.ctx m k).q, h.2.bound = true → h.2.ring ≠ r := by
    simp only [List.any_eq_true, List.mem_range, Bool.and_eq_true, decide_eq_true_eq, not_forall, ne_eq, not_not, exists_prop]
  rw [hbound, State.endTaken_iff, State.endTaken_iff]
  simp only [not_and_or, Nat.not_le, Nat.not_lt, ne_eq]

/-! ## QACQ and QREL (R167) -/

section
variable (g : Ring)

theorem Ring.take_producer (h : (g.pa + 2 * g.n - g.cr) % (2 * g.n) < g.n) :
    g.take true = some (g.pa, { g with pa := (g.pa + 1) % (2 * g.n) }) := by
  rw [Ring.take, if_pos rfl]
  exact if_pos h

theorem Ring.take_consumer (h : 0 < (g.pr + 2 * g.n - g.ca) % (2 * g.n)) :
    g.take false = some (g.ca, { g with ca := (g.ca + 1) % (2 * g.n) }) := by
  rw [Ring.take, if_neg Bool.false_ne_true]
  exact if_pos h

theorem Ring.take_none (p : Bool) (h : if p then g.n ≤ (g.pa + 2 * g.n - g.cr) % (2 * g.n) else (g.pr + 2 * g.n - g.ca) % (2 * g.n) = 0) :
    g.take p = none := by
  cases p with
  | true => exact if_neg (Nat.not_lt.mpr h)
  | false => exact if_neg (Nat.not_lt.mpr (Nat.le_of_eq h))

end

theorem slice0_ringInstructionSet : Slice0.RingInstructionSet := by
  unfold Slice0.RingInstructionSet
  refine ⟨fun i s hx hl => ?_, fun i s hx hl => ?_, fun i s hx hl => ?_, fun i s hx hl => ?_⟩
  · rw [exec_qcfg, execQcfg, issue_executes hx hl]
    dsimp only
    simp only [qcfg_good_iff]
    exact ⟨fun h => by rw [if_neg (not_not.mpr h)], fun h => by rw [if_pos h]⟩
  · rw [exec_qbind, execQbind, issue_executes hx hl]
    dsimp only
    refine ⟨fun h => ?_, fun h => ?_⟩
    · rw [if_neg (Nat.not_lt.mpr h)]
      rfl
    · rw [if_pos h]
  · rw [exec_qacq, execQacq, issue_executes hx hl, IA.q]
    dsimp only
    generalize hd : (s.ctx i.n i.k).hd (fieldOf i.aux 0 4) = h
    have hopen (ho : Slice0.RingOpen s i.n h) {α : Type} (a b c d e : α) : (if (!h.bound) = true then a else
        if (!(s.ring i.n h.ring).configured) = true then b else if s.endTaken i.n h.ring h.producer = true then c else
        if (s.ring i.n h.ring).aborted = true then d else e) = e := by
      have hfree := Nat.not_le.mpr ho.free
      simp [ho.bound, ho.configured, State.endTaken, hfree, ho.alive]
    refine ⟨fun hb => ?_, fun c ho hh => ?_, fun ho hh hp ht => ?_, fun ho hh hp ht => ?_, fun ho hh ht => ?_⟩
    · rw [if_pos (by simp [hb])]
    · rw [hopen ho, hh]
      rfl
    · rw [hopen ho, hh, hp, Ring.take_producer _ ht]
      rfl
    · rw [hopen ho, hh, hp, Ring.take_consumer _ ht]
      rfl
    · rw [hopen ho, hh, Ring.take_none _ _ ht]
  · rw [exec_qrel, execQrel, issue_executes hx hl, IA.q]
    dsimp only
    refine ⟨fun hb => ?_, fun hb hh => ?_, fun c hb hh => ?_⟩
    · rw [if_pos (by rw [hb]; rfl)]
    · rw [if_neg (by rw [hb]; exact Bool.false_ne_true), hh]
    · rw [if_neg (by rw [hb]; exact Bool.false_ne_true), hh]
      rfl

/-! ## Releases (R167, R169) -/

/-- A release count stays where it is until its chair is done. -/
theorem doneAdvance_of_not_mem (m fuel p : Nat) {d : List Nat} (h : p ∉ d) : doneAdvance m fuel p d = (p, d) := by
  cases fuel with
  | zero => rfl
  | succ fuel => rw [doneAdvance, if_neg (by simpa using h)]

theorem doneAdvance_single (m p : Nat) {fuel : Nat} (h : 0 < fuel) : doneAdvance m fuel p [p] = ((p + 1) % m, []) := by
  obtain ⟨f, rfl⟩ := Nat.exists_eq_succ_of_ne_zero (Nat.ne_of_gt h)
  rw [doneAdvance, if_pos (by simp)]
  have hf : [p].filter (fun q => decide (q ≠ p)) = [] := by simp
  rw [hf, doneAdvance_of_not_mem m f _ List.not_mem_nil]

theorem spoilRange_of_idle {s : State} {n : Nat} (a len : Nat) (hfly : s.inFlight n = []) (hch : (s.core n).chains = []) (hsl : (s.core n).slots = [])
    (hsq : (s.core n).sq = []) (hl : ∀ p ∈ (s.core n).rings, p.2.lists = []) : spoilRange n a len s = s := by
  have hlists : (s.core n).rings.any (fun p => p.2.lists.any fun l => l.reaches s n a len) = false := by
    rw [List.any_eq_false]
    intro p hp
    rw [hl p hp]
    simp
  rw [spoilRange, hfly, hch, hsl, hsq]
  dsimp only [List.any_nil]
  rw [hlists]
  rfl

theorem slice0_releasedChairs : Slice0.ReleasedChairs := by
  unfold Slice0.ReleasedChairs
  refine ⟨fun g c hn => ⟨fun hc hd => ?_, fun h => ?_, fun hc hd => ?_, fun h => ?_⟩, fun s n a len => spoilRange_of_idle a len⟩
  · rw [Ring.give, if_pos rfl, hc, hd, doneAdvance_single _ _ hn, ← hd]
  · rw [Ring.give, if_pos rfl, doneAdvance_of_not_mem _ _ _ h]
  · rw [Ring.give, if_neg Bool.false_ne_true, hc, hd, doneAdvance_single _ _ hn, ← hd]
  · rw [Ring.give, if_neg Bool.false_ne_true, doneAdvance_of_not_mem _ _ _ h]

/-- Settles O18, from the cases of each instruction, the chairs that an end takes and gives, and a core in which nothing is in flight. -/
theorem ringInstructions : Obligations.RingInstructions := ⟨slice0_ringInstructionSet, slice0_releasedChairs⟩

end Sys2Proof.Machine
end

section
/-! # Transfer lists and remote instructions enter the stream engine (O19; R91, R172, R173) -/

namespace Sys2Proof.Machine

theorem exec_qsub (i : IA) (s : State) : exec (.qsub i) s = execQsub i s := by rfl
theorem exec_rfence (i : IA) (s : State) : exec (.rfence i) s = execRfence i s := by rfl
theorem exec_rget (i : IA) (s : State) : exec (.rget i) s = .next (issueRemote i false 0x1E0 true
    (fun x => localFault (x.sr i.d.toNat).toNat (x.sr i.b.toNat).toNat) (remoteOf .rget i) s) := by rfl
theorem exec_rput (i : IA) (s : State) : exec (.rput i) s = .next (issueRemote i false 0x1E0 true
    (fun x => localFault (x.sr i.d.toNat).toNat (x.sr i.b.toNat).toNat) (remoteOf .rput i) s) := by rfl
theorem exec_rcopy (i : IA) (s : State) : exec (.rcopy i) s = .next (issueRemote i false 0x1E0 true (fun _ => none) (remoteOf .rcopy i) s) := by rfl

/-! ## Room in the stream engine's queue (R172) -/

theorem Core.room_stream_iff (c : Core) : c.room .stream = true ↔ c.sq.length < 8 := decide_eq_true_iff

theorem Core.not_room_stream {c : Core} (h : 8 ≤ c.sq.length) : (!c.room .stream) = true := by
  rw [Bool.not_eq_true', ← Bool.not_eq_true, Core.room_stream_iff]
  exact Nat.not_lt.mpr h

theorem Core.room_stream {c : Core} (h : c.sq.length < 8) : ¬ (!c.room .stream) = true := by
  rw [(Core.room_stream_iff c).mpr h]
  exact Bool.false_ne_true

/-! ## Transfer lists (R175) -/

theorem listOutside_of_le {off cnt : Nat} (h : off + 32 * cnt ≤ 0x3000000) : listOutside off cnt = false := by
  rw [listOutside, decide_eq_false_iff_not]
  exact Nat.not_lt.mpr h

theorem listFault_of_aligned {off cnt : Nat} (h : off % 32 = 0) (hc : cnt ≤ 4096) : listFault off cnt = none :=
  if_neg (by omega)

/-- A ring whose opposite end a stream may take takes the list of a handle. -/
theorem ringRefuses_of_open {s : State} {n : Nat} {h : Handle} (hb : h.bound = true) (hc : (s.ring n h.ring).configured = true)
    (ha : (s.ring n h.ring).aborted = false) (he : s.endHolder n h.ring (!h.producer) = 0 ∨ s.endHolder n h.ring (!h.producer) = 2) :
    ringRefuses s n h (!h.producer) h.producer true = none := by
  cases hp : h.producer with
  | true =>
    rw [hp, Bool.not_true] at he
    rcases he with he | he <;> simp [ringRefuses, hb, hc, ha, he]
  | false =>
    rw [hp, Bool.not_false] at he
    rcases he with he | he <;> simp [ringRefuses, hb, hc, ha, he]

/-! ## Remote instructions (R91) -/

section
variable {c : Instr} {i : IA} {uc ok : Bool} {aux : BitVec 21} {check : Ctx → Option (Nat × Nat)} {make : Ctx → XSlot} {s : State}
  (hc : exec c s = .next (issueRemote i uc aux ok check make s))
  (hx : s.Executes i.n i.k i.pg i.pn ([i.d.toNat, i.a.toNat, i.b.toNat] ++ (if uc then [i.c.toNat] else [])) [])
  (hl : i.legal true true true uc true aux = true) (hok : ok = true)
include hc hx hl hok

/-- A remote instruction that executes waits for room, or is queued when its check finds nothing. -/
theorem issueRemote_cases :
    (8 ≤ (s.core i.n).sq.length → exec c s = .next (s.makeWait i.n i.k (.queue [.stream])))
    ∧ ((s.core i.n).sq.length < 8 → check (s.ctx i.n i.k) = none →
      exec c s = .next (queueRemote i.n i.k i.pd.toNat (make (s.ctx i.n i.k)) s)) := by
  rw [hc, issueRemote, issue_executes hx (by rw [hl, hok]; rfl)]
  dsimp only
  refine ⟨fun h => ?_, fun h hn => ?_⟩
  · rw [if_pos (Core.not_room_stream h)]
  · rw [if_neg (Core.room_stream h), hn]

end

theorem localFault_of_le {off len : Nat} (h : len = 0 ∨ off + len ≤ 0x3000000) : localFault off len = none :=
  if_neg (by omega)

/-- Settles O19, from the room in the queue and the checks of each instruction. -/
theorem streamQueue : Obligations.StreamQueue := by
  unfold Obligations.StreamQueue
  refine ⟨fun i s hx hl => ?_, fun c hc i s => ?_, fun i s hx hl => ?_⟩
  · rw [exec_qsub, execQsub, issue_executes hx hl, IA.q]
    dsimp only
    refine ⟨fun h => ?_, fun h hout hal hcnt hb hcfg hab he => ?_⟩
    · rw [if_pos (Core.not_room_stream h)]
    · rw [if_neg (Core.room_stream h), listOutside_of_le hout, if_neg Bool.false_ne_true, ringRefuses_of_open hb hcfg hab he,
        listFault_of_aligned hal hcnt]
  · simp only [List.mem_cons, List.not_mem_nil, or_false] at hc
    rcases hc with rfl | rfl | rfl | rfl
    · intro x atom hx hl _ w len slot s1
      obtain ⟨hfull, hqueue⟩ := issueRemote_cases (exec_rget i s) hx hl rfl
      exact ⟨hfull, fun h _ hr => hqueue h (localFault_of_le (hr.resolve_left (by decide)))⟩
    · intro x atom hx hl _ w len slot s1
      obtain ⟨hfull, hqueue⟩ := issueRemote_cases (exec_rput i s) hx hl rfl
      exact ⟨hfull, fun h _ hr => hqueue h (localFault_of_le (hr.resolve_left (by decide)))⟩
    · intro x atom hx hl _ w len slot s1
      obtain ⟨hfull, hqueue⟩ := issueRemote_cases (exec_rcopy i s) hx hl rfl
      exact ⟨hfull, fun h _ _ => hqueue h rfl⟩
    · intro x atom hx hl hop w len slot s1
      obtain ⟨hfull, hqueue⟩ := issueRemote_cases (exec_ratom i s) hx hl (decide_eq_true (hop rfl))
      refine ⟨hfull, fun h hal hr => hqueue h ?_⟩
      rw [if_neg (not_not.mpr (hal rfl))]
      exact localFault_of_le (hr.resolve_left (by decide))
  · rw [exec_rfence, execRfence, issue_executes hx hl]
    dsimp only
    refine ⟨fun hsq hb => ?_, fun h hbusy => ?_⟩
    · rw [if_neg (Core.room_stream (by rw [hsq]; decide)), if_pos (by simp [hsq, hb])]
    · rw [if_neg (Core.room_stream h), if_neg]
      rw [List.isEmpty_iff, Bool.not_eq_true', not_and_or, Bool.not_eq_false]
      exact hbusy

end Sys2Proof.Machine
end

section
/-! # The words of a program (O20; R70-R74) -/

namespace Sys2Proof.Machine

/-! ## The words that spell an instruction (R74) -/

theorem isSome_map_getElem? {α β : Type} (l : List α) (j : Nat) (f : α → β) : (l[j]?.map f).isSome = true ↔ j ∈ List.range l.length := by
  rw [Option.isSome_map, isSome_getElem?, List.mem_range]

/-- The fn values of Table 04-13. -/
def vectorFns : List Nat := List.range 0x0C ++ [0x10, 0x11, 0x12, 0x18, 0x19, 0x1A, 0x1B, 0x20, 0x28, 0x29, 0x2A]

theorem vectorOp_isSome_iff (fn : Nat) : (vectorOp fn).isSome = true ↔ fn ∈ vectorFns := by
  have hsmall : ∀ j, j < 0x2B → ((vectorOp j).isSome = true ↔ j ∈ vectorFns) := by decide
  have hbound : ∀ j ∈ vectorFns, j < 0x2B := by decide
  rcases Nat.lt_or_ge fn 0x2B with h | h
  · exact hsmall fn h
  · have hnone : vectorOp fn = none := by
      unfold vectorOp
      split
      case h_24 => rfl
      all_goals omega
    rw [hnone]
    exact ⟨fun hn => absurd hn Bool.false_ne_true, fun hm => absurd (hbound fn hm) (Nat.not_lt.mpr h)⟩

theorem decodeWord_isSome_iff (core : BitVec 10) (ctx : BitVec 3) (w ext : W64) : (decodeWord core ctx w ext).isSome = true ↔
    ∃ p ∈ Slice0.listed, fieldOf w 56 8 = p.1 ∧ fieldOf w p.2.1 p.2.2.1 ∈ p.2.2.2 := by
  have hnofn : fieldOf w 0 0 = 0 := by rw [fieldOf, BitVec.eq_nil (w.extractLsb' 0 0)]; rfl
  simp only [Slice0.listed, List.exists_mem_cons_iff, List.not_mem_nil, false_and, exists_false, or_false]
  unfold decodeWord
  dsimp only
  split
  case h_26 =>
    simp only [imp_false] at *
    simp only [*, false_and, or_self, Option.isSome_none, Bool.false_eq_true]
  all_goals
    rename_i h
    rw [h]
    simp only [Nat.reduceEqDiff, false_and, true_and, or_false, false_or]
  case h_6 | h_7 | h_8 | h_9 => simp only [Option.isSome_some, hnofn, List.mem_cons, true_or]
  case h_19 => rw [Option.isSome_map, vectorOp_isSome_iff]; rfl
  all_goals exact isSome_map_getElem? ..

/-! ## The issue of a program's words (R73, R74) -/

section
variable {s : State} {n k : Nat} (h : s.issuer n = some k)
include h

theorem State.issues_of_issuer : s.issues n k = true := List.find?_some h

theorem State.lt_of_issuer : n < 2 ^ 10 ∧ k < 2 ^ 3 := by
  have hi := State.issues_of_issuer h
  have hk : k ∈ List.range 8 := List.mem_of_find?_eq_some h
  simp only [State.issues, Bool.and_eq_true, decide_eq_true_eq] at hi
  have hcores : s.ncores ≤ 896 := by
    unfold State.ncores
    split <;> omega
  exact ⟨by omega, List.mem_range.mp hk⟩

/-- A core issues the word at the pc of its RUNNING context. -/
theorem coreTick_of_issuer {t : State}
    (ht : issueWord (BitVec.ofNat 10 n) (BitVec.ofNat 3 k) (s.wordAt n (s.ctx n k).pc) (s.wordAt n ((s.ctx n k).pc + 8)) s = .next t) :
    coreTick n s = t := by
  obtain ⟨hn, hk⟩ := State.lt_of_issuer h
  have hissue : issueAtPc (BitVec.ofNat 10 n) (BitVec.ofNat 3 k) s = .next t := by
    rw [issueAtPc, BitVec.toNat_ofNat, BitVec.toNat_ofNat, Nat.mod_eq_of_lt hn, Nat.mod_eq_of_lt hk, ht]
  simp only [coreTick, h, hissue]

theorem coreTick_of_word {c : Instr} {t : State}
    (hd : decodeWord (BitVec.ofNat 10 n) (BitVec.ofNat 3 k) (s.wordAt n (s.ctx n k).pc) (s.wordAt n ((s.ctx n k).pc + 8)) = some c)
    (he : exec c s = .next t) : coreTick n s = t :=
  coreTick_of_issuer h (by simp only [issueWord, hd, he])

theorem coreTick_of_noWord
    (hd : decodeWord (BitVec.ofNat 10 n) (BitVec.ofNat 3 k) (s.wordAt n (s.ctx n k).pc) (s.wordAt n ((s.ctx n k).pc + 8)) = none) :
    coreTick n s = s.faultCtx n k (if pcOk (s.ctx n k).pc then E.ILLEGAL else E.PC_ALIGN) (s.ctx n k).pc := by
  obtain ⟨hn, hk⟩ := State.lt_of_issuer h
  have hi := State.issues_of_issuer h
  refine (coreTick_of_issuer (t := illegalWord n k s) h ?_).trans ?_
  · simp only [issueWord, hd, BitVec.toNat_ofNat, Nat.mod_eq_of_lt hn, Nat.mod_eq_of_lt hk]
  · rw [illegalWord]
    cases hp : pcOk (s.ctx n k).pc with
    | true => exact issue_illegal hi hp
    | false => exact issue_pcAlign hi hp

end

/-! ## A step with nothing on the links and in the mesh -/

theorem linksTick_idle {s : State} (hr : s.ws.recs = []) (hw : s.ws.waiting = []) (hp : s.net.paused = []) (hi : s.net.inb = []) :
    linksTick s = s := by
  have hpause : pausesEnd s = s := by simp [pausesEnd, hp]
  have hwake : fetchWake s = s := by
    unfold fetchWake
    split
    · rfl
    · simp [hw]
  rw [linksTick, hpause, hwake, hr, List.isEmpty_nil, if_pos rfl, inbGo, hi, List.isEmpty_nil, if_pos rfl]

theorem fabTick_idle {s : State} (hb : s.fab.bufs = []) (hw : s.fab.waits = []) : fabTick s = s := by
  rw [fabTick, hb, hw]
  rfl

theorem coresTick_of_one {s : State} {n : Nat} (h : s.cores.map Prod.fst = [n]) : coresTick s = coreTick n s := by
  obtain ⟨p, hp, rfl⟩ := List.map_eq_singleton_iff.mp h
  rw [coresTick, hp]
  rfl

theorem slice0_wordsIssued : Slice0.WordsIssued := by
  unfold Slice0.WordsIssued
  refine ⟨decodeWord_isSome_iff, fun s n h => coreTick_idle h, fun s n k h => ⟨fun c t hd he => coreTick_of_word h hd he,
    fun hd => coreTick_of_noWord h hd, fun hone hpend hrecs hwait hpaused hinb hbufs hwaits => ?_⟩⟩
  rw [step_empty hpend, linksTick_idle hrecs hwait hpaused hinb, fabTick_idle hbufs hwaits, coresTick_of_one hone]

/-- Settles O20: every instruction is the issue of its word, issue checks the word before the guard, and a core issues the word at the pc. -/
theorem guardsAndReservedWords : Obligations.GuardsAndReservedWords :=
  ⟨slice0_extensionWordIllegal, slice0_skippedInstruction, slice0_wordsIssued⟩

end Sys2Proof.Machine
end

section
/-! # Unit commands issue (O21; R68, R69, R77, R94, R199) -/

namespace Sys2Proof.Machine

/-- A command that issues as the statements describe waits, faults or is queued. -/
theorem queues_of_issueOf {u : Slice0.Unit} {i : IT} {s : State} (h : exec (u.make i) s = .next (issueOf u i s)) : Slice0.Queues u i s := by
  unfold Slice0.Queues
  intro hx hl
  dsimp only
  rw [h, issueOf]
  refine ⟨fun hr hc => ?_, fun code hr hc => ?_, fun hr => ?_⟩
  · rw [issueUnits_queues hx hl hr hc]
    rfl
  · rw [issueUnits_faults hx hl hr hc]
  · rw [issueUnits_waits hx hl (Bool.not_eq_true _ ▸ hr)]

theorem slice0_unitCommandIssue : Slice0.UnitCommandIssue := by
  unfold Slice0.UnitCommandIssue
  refine ⟨fun u hu i s => queues_of_issueOf ?_, fun u hu i s => ?_⟩
  · simp only [List.mem_append] at hu
    rcases hu with (hu | hu) | hu
    · exact exec_carveUnits hu i s
    · exact exec_vectorUnits hu i s
    · exact exec_otherUnits hu i s
  · have he := exec_popUnits hu i s
    refine ⟨fun h => queues_of_issueOf ?_, fun hheld hpops hx hl => ?_⟩
    · rw [he, if_neg]
      rintro ⟨hheld, hpops⟩
      rcases h with h | h
      · rw [h] at hheld
        cases hheld
      · exact h hpops
    · rw [he, if_pos ⟨hheld, hpops⟩, issue_executes hx hl]
      rfl

theorem slice0_faultAddress : Slice0.FaultAddress := by
  unfold Slice0.FaultAddress
  intro c code pc
  refine ⟨fun ha ho hu => ?_, fun h => if_pos h, fun o l hu hops hout => ?_, fun hu hops => ?_⟩
  · rw [UCmd.faultAddr, if_neg (by tauto), if_neg hu]
  · have hfirst : c.operands.find? (fun o => o.1.outside o.1.rowBytes || (isMx o.1.fmt && o.2.1.outside (o.1.n0 / 32))) = some o := by
      rw [hops, List.find?_cons_of_pos (by rw [hout, Bool.true_or])]
    rw [hu, UCmd.faultAddr, if_neg (by decide), if_pos rfl]
    simp only [hfirst, if_pos hout]
  · rw [hu, UCmd.faultAddr, if_neg (by decide), if_pos rfl]
    simp only [hops, List.find?_nil]

theorem slice0_commandCapture : Slice0.CommandCapture := by
  unfold Slice0.CommandCapture
  intro op i x
  exact ⟨rfl, rfl, rfl, rfl, rfl, rfl, rfl, rfl, rfl, rfl, rfl, rfl, rfl, rfl, rfl, rfl, rfl⟩

/-- Settles O21, from the issue of each unit command, the address of a fault at issue and the operands that a command captures. -/
theorem unitCommands : Obligations.UnitCommands := ⟨slice0_unitCommandIssue, slice0_faultAddress, slice0_commandCapture⟩

end Sys2Proof.Machine
end

section
/-! # Unit commands end (O22; R77, R79, R121, R139) -/

namespace Sys2Proof.Machine

/-! ## The command at the head of a queue -/

theorem exec_carveCommandDone (core : BitVec 10) (arr : BitVec 1) (idx : Nat) (s : State) :
    exec (.carveCommandDone core arr idx) s = .next (s.unlessStopped core.toNat (carveDone core.toNat arr.toNat idx)) := by rfl
theorem exec_schussCommandDone (core : BitVec 10) (s : State) :
    exec (.schussCommandDone core) s = .next (s.unlessStopped core.toNat (unitDone core.toNat .schuss smvRun)) := by rfl
theorem exec_groomerCommandDone (core : BitVec 10) (s : State) :
    exec (.groomerCommandDone core) s = .next (s.unlessStopped core.toNat (groomDone core.toNat)) := by rfl
theorem exec_vectorCommandDone (core : BitVec 10) (s : State) :
    exec (.vectorCommandDone core) s = .next (s.unlessStopped core.toNat (unitDone core.toNat .vector vecRun)) := by rfl
theorem exec_snowpackCommandDone (core : BitVec 10) (s : State) : exec (.snowpackCommandDone core) s = .next (s.unlessStopped core.toNat
    fun s => if snowReady s core.toNat then unitDone core.toNat .snow snowRun s else snowAsk core.toNat s) := by rfl
theorem exec_digestDone (core : BitVec 10) (s : State) : exec (.digestDone core) s = .next (unitDone core.toNat .digest digRun s) := by rfl

theorem State.unlessStopped_of_going {s : State} {n : Nat} (h : s.stoppedAt n = false) (f : State → State) : s.unlessStopped n f = f s := by
  rw [State.unlessStopped, h]
  exact if_neg Bool.false_ne_true

theorem State.unlessStopped_of_stopped {s : State} {n : Nat} (h : s.stoppedAt n = true) (f : State → State) : s.unlessStopped n f = s := by
  rw [State.unlessStopped, h]
  exact if_pos rfl

theorem unitDone_of_stopped {n : Nat} {u : UnitId} {run : State → Nat → UCmd → State × Flags} {s : State} (h : s.stoppedAt n = true) :
    unitDone n u run s = s := by
  rw [unitDone, h]
  exact if_pos rfl

theorem UCmd.spoil_of_nil {x : UCmd} (h : x.spoils = []) (n : Nat) (s : State) : x.spoil n s = s := by
  rw [UCmd.spoil, h]
  rfl

/-- A command that is the end of a unit's command ends it as R77 says. -/
theorem ends_of_unitDone {c : Instr} {n : Nat} {u : UnitId} {run : State → Nat → UCmd → State × Flags} {ready : State → UCmd → Prop}
    (h : ∀ (s : State) (x : UCmd), s.stoppedAt n = false → ((s.core n).eng u).run = some x → ready s x →
      exec c s = .next (unitDone n u run s)) : Slice0.Ends c n u run ready := by
  unfold Slice0.Ends
  intro s x hstop hrun hchain hready
  dsimp only
  rw [h s x hstop hrun hready, unitDone, hstop, if_neg Bool.false_ne_true, hrun]
  dsimp only
  rw [hchain, Option.isSome_none, if_neg Bool.false_ne_true]
  refine ⟨fun hran => ?_, fun f hran => ?_, fun hsp => UCmd.spoil_of_nil hsp n s⟩
  · rw [hran]
    rfl
  · rw [hran]
    rfl

theorem carveDone_zero (n arr : Nat) (s : State) : carveDone n arr 0 s = unitDone n (carveUnit arr) carveRun s := rfl

/-- A Groomer command that spills nothing ends alone. -/
theorem groomDone_of_noSpill {s : State} {n : Nat} {x : UCmd} (hrun : (s.core n).groomer.run = some x) (h : x.spillRows = 0) :
    groomDone n s = unitDone n .groomer groomRun s := by
  have hready : groomSnowReady s n x = true := by rw [groomSnowReady, h]; rfl
  rw [groomDone, hrun]
  dsimp only
  rw [if_pos hready, if_pos (.inl h)]

/-- One that spills ends with its place in the Snowpack's queue. -/
theorem groomDone_of_spill {s : State} {n : Nat} {x : UCmd} (hstop : s.stoppedAt n = false) (hrun : (s.core n).groomer.run = some x)
    (hchain : x.chain = none) (h : x.spillRows ≠ 0) (hready : groomSnowReady s n x = true) :
    groomDone n s = (unitDone n .groomer groomRun s).pop n .snow := by
  rw [groomDone, hrun]
  dsimp only
  rw [if_pos hready, if_neg]
  simp [h, hchain, hstop]

theorem snowReady_of_open {s : State} {n : Nat} {x : UCmd} (hrun : (s.core n).snowU.run = some x)
    (h : (x.op = .spop ∨ x.op = .spskip) ∧ snowPopOpen s n = true ∨ (x.op = .spush ∧ snowFits s n x.tA.bytes = true)) : snowReady s n = true := by
  rw [snowReady, hrun]
  dsimp only
  rcases h with ⟨ho | ho, h⟩ | ⟨ho, h⟩
  all_goals rw [ho]; exact h

theorem slice0_unitCommandEnd : Slice0.UnitCommandEnd := by
  unfold Slice0.UnitCommandEnd
  intro core
  refine ⟨ends_of_unitDone fun s x hs _ _ => ?_, ends_of_unitDone fun s x hs _ _ => ?_, ends_of_unitDone fun s x hs _ _ => ?_,
    ends_of_unitDone fun s x hs hrun hspill => ?_, ends_of_unitDone fun s x hs _ _ => ?_, ends_of_unitDone fun s x hs hrun hopen => ?_,
    ends_of_unitDone fun s x _ _ _ => exec_digestDone core s, fun s x hs hrun hchain hspill hready => ?_, fun s hs c hc => ?_⟩
  · rw [exec_carveCommandDone, State.unlessStopped_of_going hs, carveDone_zero]
    rfl
  · rw [exec_carveCommandDone, State.unlessStopped_of_going hs, carveDone_zero]
    rfl
  · rw [exec_schussCommandDone, State.unlessStopped_of_going hs]
  · rw [exec_groomerCommandDone, State.unlessStopped_of_going hs, groomDone_of_noSpill hrun hspill]
  · rw [exec_vectorCommandDone, State.unlessStopped_of_going hs]
  · rw [exec_snowpackCommandDone, State.unlessStopped_of_going hs]
    rw [if_pos (snowReady_of_open hrun hopen)]
  · rw [exec_groomerCommandDone, State.unlessStopped_of_going hs, groomDone_of_spill hs hrun hchain hspill hready]
  · simp only [List.mem_cons, List.not_mem_nil, or_false] at hc
    rcases hc with rfl | rfl | rfl | rfl | rfl | rfl | rfl
    · rw [exec_carveCommandDone, State.unlessStopped_of_stopped hs]
    · rw [exec_carveCommandDone, State.unlessStopped_of_stopped hs]
    · rw [exec_schussCommandDone, State.unlessStopped_of_stopped hs]
    · rw [exec_groomerCommandDone, State.unlessStopped_of_stopped hs]
    · rw [exec_vectorCommandDone, State.unlessStopped_of_stopped hs]
    · rw [exec_snowpackCommandDone, State.unlessStopped_of_stopped hs]
    · rw [exec_digestDone, unitDone_of_stopped hs]

/-! ## Commands behind others (R139) -/

theorem carveUnit_toNat (arr : BitVec 1) : carveUnit arr.toNat = if arr = 0 then .a0 else .a1 := by
  revert arr
  decide

/-- A fold whose steps leave its state leaves it. -/
theorem foldl_stays {α β : Type} {f : β → α → β} {b : β} {l : List α} (h : ∀ a ∈ l, f b a = b) : l.foldl f b = b := by
  induction l with
  | nil => rfl
  | cons a l ih =>
    rw [List.foldl_cons, h a List.mem_cons_self]
    exact ih fun c hc => h c (List.mem_cons_of_mem _ hc)

/-- The commands at the places ahead of place `k + 1` of a unit. -/
theorem Eng.at?_mem_ahead {e : Eng} {y z : UCmd} {k j : Nat} (hrun : e.run = some y) (hj : j < k + 1) (hz : e.at? j = some z) :
    z ∈ (y :: e.queue.take k).reverse := by
  rw [List.mem_reverse]
  cases j with
  | zero =>
    have hy : z = y := Option.some.inj (hz.symm.trans hrun)
    exact hy ▸ List.mem_cons_self
  | succ j =>
    have hget : (e.queue.take k)[j]? = some z := by
      rw [List.getElem?_take_of_lt (by omega)]
      exact hz
    exact List.mem_cons_of_mem _ (List.mem_of_getElem? hget)

theorem runAhead_of_none {s : State} {n : Nat} {u : UnitId} {x y : UCmd} {k : Nat} (hrun : ((s.core n).eng u).run = some y)
    (h : ∀ z ∈ (y :: ((s.core n).eng u).queue.take k).reverse, drainsEarly z x = false) : runAhead n u (k + 1) x s = s := by
  refine foldl_stays fun j hj => ?_
  cases hz : ((s.core n).eng u).at? j with
  | none => rfl
  | some z =>
    dsimp only
    rw [h z (Eng.at?_mem_ahead hrun (List.mem_range.mp hj) hz)]
    exact if_neg Bool.false_ne_true

theorem slice0_endsBehind : Slice0.EndsBehind := by
  unfold Slice0.EndsBehind
  intro core arr k s y x hs
  dsimp only
  intro hrun hx
  rw [exec_carveCommandDone, State.unlessStopped_of_going hs, carveDone, carveUnit_toNat]
  dsimp only
  rw [if_neg (ne_true_of_eq_false hs), hrun, hx]
  dsimp only
  refine ⟨fun h => ?_, fun hchain hpass => ?_, fun h => runAhead_of_none hrun h⟩
  · rw [if_neg]
    rw [Bool.and_eq_true, Option.isNone_iff_eq_none]
    rintro ⟨hchain, hpass⟩
    rcases h with h | h
    · rw [hchain] at h
      cases h
    · rw [h] at hpass
      cases hpass
  · rw [if_pos (by rw [hchain, hpass]; rfl)]

theorem mayPass_single (s : State) (n : Nat) (z x : UCmd) :
    mayPass s n [z] x = (!sramMeet s n z x && (endsApart [] z x || drainsEarly z x)) := by
  simp only [mayPass, Bool.true_and, Bool.and_true]

theorem endsApart_nil (z x : UCmd) : endsApart [] z x = ((x.drains || z.drains || z.heron) && !overlap (accTouch z) (accTouch x)) := by
  simp only [endsApart, heldAtDrain, List.any_nil, Bool.and_false, Bool.or_false]

theorem slice0_passRules : Slice0.PassRules := by
  unfold Slice0.PassRules
  intro s n z x
  rw [mayPass_single, endsApart_nil, drainsEarly]
  refine ⟨rfl, fun h => ?_, fun hz hh hx _ => ?_, fun hm hd ho => ?_, fun ho h => ?_, fun hm hc ho hx hz hl => ?_⟩
  · rw [h]
    rfl
  · rw [hz, hh, hx]
    exact Bool.and_false _
  · rw [hm, hd, ho]
    rfl
  · rw [ho]
    rcases h with h | h | h
    all_goals rw [h]; simp
  · rw [hm, hc, ho, hx, hz, hl]
    rfl

/-! ## Records and completions (R77, R121) -/

theorem clashes_of_alone {s : State} {n : Nat} {u : UnitId} {x : UCmd} (h : s.inFlight n = [(u, x)] ∨ s.inFlight n = []) : s.clashes n u x = [] := by
  have hothers (f : UnitId × UCmd → Bool) : (s.inFlight n).filter (fun p => decide (p.2 ≠ x) && f p) = [] := by
    rcases h with h | h <;> rw [h] <;> simp
  rw [State.clashes]
  dsimp only
  split
  · rfl
  · simp only [Bool.and_assoc, hothers, List.flatMap_nil, List.any_nil, List.filter_false, List.map_nil]

theorem slice0_recordsInOrder : Slice0.RecordsInOrder := fun _ _ _ _ => ⟨rfl, clashes_of_alone⟩

/-- A completion that a context waits for lets it go on past its WAITP. -/
theorem State.complete_waiting {s : State} {n k inc pd : Nat} (hi : (s.ctx n k).inc = inc) (hst : (s.ctx n k).st = .waiting)
    (hw : (s.ctx n k).wait = .pred pd) (h0 : 0 < pd) :
    s.complete n k inc pd = (s.setCtx n k { (s.ctx n k).setPr pd true with pc := ((s.ctx n k).pc + 8) % 2 ^ 26 }).makeReady n k := by
  rw [State.complete, if_pos ⟨hi, by rw [hst]; decide, by omega⟩, State.putPr, if_pos ⟨rfl, hst, hw⟩]

theorem slice0_completionPredicate : Slice0.CompletionPredicate := by
  unfold Slice0.CompletionPredicate
  intro s n k inc pd hk h0 hpd
  refine ⟨State.complete_ended pd, fun hi hf => ⟨State.complete_pr hi hf h0 hpd, State.complete_sets hi hf (by omega), fun hst hw => ?_⟩⟩
  rw [State.complete_waiting hi hst hw h0]
  rcases State.makeReady_ctx (s.setCtx n k { (s.ctx n k).setPr pd true with pc := ((s.ctx n k).pc + 8) % 2 ^ 26 }) n k with h | h
  all_goals
    rw [h, State.ctx_setCtx, if_pos ⟨rfl, rfl⟩]
    exact ⟨rfl, nofun⟩

/-- Settles O22, from the end of the command at the head of each queue, of one behind others, what passes, and what a completion does. -/
theorem unitCompletion : Obligations.UnitCompletion :=
  ⟨slice0_unitCommandEnd, slice0_endsBehind, slice0_passRules, slice0_recordsInOrder, slice0_completionPredicate⟩

end Sys2Proof.Machine
end


section
/-! # The answers to the requests of streams and transfer slots (spec/08 R177, R180; spec/04 R91, R92) -/

namespace Sys2Proof.Machine

/-! ## A request that waits is answered -/

theorem exec_streamResponse (core : BitVec 10) (req : StreamReq) (resp : Response) (s : State) : exec (.streamResponse core req resp) s =
    .next (s.unlessStopped core.toNat (streamResponse core.toNat req.src.toNat req.idx.toNat resp)) := by rfl

/-- The answer to a request of another node is the response that came. -/
theorem streamResponse_remote {n src j t : Nat} {q : Req} {s : State} (resp : Response) (hq : waitingReq s n src j = some q) (hp : q.phys = none)
    (ht : q.tag = some t) : streamResponse n src j resp s = streamAnswer n src j resp ((s.dropReq t).kick n) := by
  simp only [streamResponse, hq, hp, ht]

theorem slice0_requestAnswered : Slice0.RequestAnswered := by
  unfold Slice0.RequestAnswered
  intro core src idx resp s
  dsimp only
  rw [exec_streamResponse]
  refine ⟨?_, fun q hs hq => ?_⟩
  · rintro (hs | hq)
    · rw [State.unlessStopped_of_stopped hs]
    · cases hs : s.stoppedAt core.toNat with
      | true => rw [State.unlessStopped_of_stopped hs]
      | false => rw [State.unlessStopped_of_going hs]; simp only [streamResponse, hq]
  rw [State.unlessStopped_of_going hs]
  refine ⟨fun t hp ht => ?_, fun a hp hopen => ?_, fun a s1 data hp hopen h => ?_, fun a s1 code hp hopen h => ?_, fun a s1 hp hopen h => ?_,
    fun a s1 hp hopen h => ?_, fun hp ht => ?_⟩
  · rw [streamResponse_remote resp hq hp ht]
  · simp only [streamResponse, hq, hp, hopen, Bool.not_false, if_true]
  · simp only [streamResponse, hq, hp, hopen, h, Bool.not_true, Bool.false_eq_true, if_false]
  · simp only [streamResponse, hq, hp, hopen, h, Bool.not_true, Bool.false_eq_true, if_false]
  · simp only [streamResponse, hq, hp, hopen, h, Bool.not_true, Bool.false_eq_true, if_false]
  · simp only [streamResponse, hq, hp, hopen, h, Bool.not_true, Bool.false_eq_true, if_false]
  · simp only [streamResponse, hq, hp, ht]

/-! ## What an answer does -/

/-- Data of the length that was asked for is taken as it is. -/
theorem take_padded_of_length {data : List Byte} {len : Nat} (h : data.length = len) :
    (data ++ List.replicate (len - data.length) 0).take len = data := by
  rw [h, Nat.sub_self, List.replicate_zero, List.append_nil, ← h, List.take_length]

theorem ringAnswer_ok {s : State} {n r j : Nat} {l : XList} {ls : List XList} {q : Req} {data : List Byte} (hl : (s.ring n r).lists = l :: ls)
    (hq : l.reqs[j]? = some q) (hst : q.stage = .wait) (hlen : data.length = q.len) :
    ringAnswer n r j (.ok data) s =
      setReq n r s (s.ring n r) l j (if l.inbound then { q with stage := .place, data := data } else { q with stage := .done }) := by
  simp only [ringAnswer, hl, hq, hst, ne_eq, not_true_eq_false, if_false, take_padded_of_length hlen]

theorem slice0_answerEffect : Slice0.AnswerEffect := by
  unfold Slice0.AnswerEffect
  refine ⟨fun s n r j l ls q data hl hq hst hlen => ?_, fun s n x v q data hv hq hst hlen => ?_⟩
  · rw [ringAnswer_ok hl hq hst hlen, setReq, hl, List.drop_one, List.tail_cons]
  · refine ⟨fun hop => ?_, fun hop => ?_, fun hop => ?_⟩
    all_goals simp only [slotAnswer, hv, hq, hst, hop, ne_eq, not_true_eq_false, if_false, take_padded_of_length hlen]

/-! ## A remote instruction that fails -/

theorem slotFree_ctx (n x m k : Nat) (s : State) : (slotFree n x s).ctx m k = s.ctx m k := by
  rw [slotFree, State.ctx, State.core_setCore, State.ctx]
  split
  case isTrue h => rw [h, Core.ctx, Core.ctx]
  case isFalse => rfl

theorem slice0_remoteFailure : Slice0.RemoteFailure := by
  unfold Slice0.RemoteFailure
  intro s n x code addr v hop hinc hst hfail
  have hctx : ((slotFree n x s).lundef n 1 v.loc v.total).ctx n v.ctx = s.ctx n v.ctx := slotFree_ctx n x n v.ctx s
  have hfirst : (s.ctx n v.ctx).inc = v.inc ∧ (s.ctx n v.ctx).st ≠ .free ∧ (!(s.ctx n v.ctx).rfail) = true := ⟨hinc, hst, by rw [hfail]; rfl⟩
  rcases hop with hop | hop
  all_goals
    simp only [slotFail, hop]
    rw [hctx, if_pos hfirst, slotFree]

/-- Settles O25, from the answer that each waiting request takes, what it does to a stream or slot, and what a failure leaves. -/
theorem streamAnswers : Obligations.StreamAnswer := ⟨slice0_requestAnswered, slice0_answerEffect, slice0_remoteFailure⟩

end Sys2Proof.Machine
end


section
/-! # The Snowpack at issue, its thresholds, spills and refills (spec/04 R90, spec/09 R196-R199) -/

namespace Sys2Proof.Machine

/-! ## Issue -/

theorem State.snow_setSnow (s : State) (n : Nat) (w : Snow) : (s.setSnow n w).snow n = w := by
  rw [State.setSnow, State.snow, State.core_setCore, if_pos rfl]

theorem snowPad_eq (b : Nat) : snowPad b = 64 + 64 * ((b + 63) / 64) := rfl

theorem snowPushFault_of_ok {s : State} {n b : Nat} (h : (s.snowCfg n).ok s.edgeSize = true) :
    snowPushFault s n b = if (s.snow n).qdepth + snowPad b ≤ (s.snowCfg n).bs then none else some E.SNOW_FULL := by
  simp only [snowPushFault, h, Bool.true_and, decide_eq_true_eq]

theorem snowPopFault_cons {s : State} {n h : Nat} {t : List Nat} (b : Option Nat) (hs : (s.snow n).sizes = h :: t) :
    snowPopFault s n b = if b = none ∨ b = some h then none else some E.SNOW_SIZE := by
  simp only [snowPopFault, hs]

theorem slice0_snowpackIssue : Slice0.SnowpackIssue := by
  unfold Slice0.SnowpackIssue
  refine ⟨fun s n b hok => ?_, fun s n b => ⟨fun hs => ?_, fun h t hs => ?_⟩⟩
  · rw [snowPushFault_of_ok hok, snowQueuePush, State.snow_setSnow, ← snowPad_eq]
    refine ⟨⟨fun hfits => ?_, fun hfits => if_pos hfits⟩, fun c hc => ?_, rfl, rfl⟩
    · by_contra hno
      rw [if_neg hno] at hfits
      cases hfits
    · split at hc
      · cases hc
      · exact (Option.some.inj hc).symm
  · simp only [snowPopFault, hs]
  · rw [snowPopFault_cons b hs, snowQueuePop, State.snow_setSnow, hs, ← snowPad_eq]
    exact ⟨fun hb => if_pos hb, fun h1 h2 => if_neg (by rintro (h | h) <;> contradiction), rfl, rfl⟩

/-! ## Thresholds -/

theorem slice0_snowThresholds : Slice0.SnowThresholds := by
  unfold Slice0.SnowThresholds
  intro c w
  dsimp only [Snow.moved]
  simp only [Bool.and_eq_true, Bool.or_eq_true, decide_eq_true_eq, Bool.and_eq_false_iff, decide_eq_false_iff_not, and_self, and_true]
  refine ⟨fun h => ⟨.inr h, by omega⟩, fun h => .inr (by omega), fun h1 h2 => ⟨.inr h1, by omega, h2⟩, fun h => .inr (by omega)⟩

/-! ## Spills and refills -/

theorem exec_snowpackSpillAck (core : BitVec 10) (s : State) :
    exec (.snowpackSpillAck core) s = .next (s.unlessStopped core.toNat (snowSpillAck core.toNat)) := by rfl
theorem exec_snowpackRefillData (core : BitVec 10) (s : State) :
    exec (.snowpackRefillData core) s = .next (s.unlessStopped core.toNat (snowRefill core.toNat)) := by rfl
theorem exec_snowpackDirectoryRefill (core : BitVec 10) (s : State) :
    exec (.snowpackDirectoryRefill core) s = .next (s.unlessStopped core.toNat (snowDirRefill core.toNat)) := by rfl

theorem State.kick_snow (s : State) (n m : Nat) : (s.kick n).snow m = s.snow m := by rw [State.snow, State.kick_core, State.snow]

/-- A top that nothing else has written to is as it is. -/
theorem snowChecked_of_clean {n : Nat} {s : State} (h : snowSpoilt s n = false) : snowChecked n s = s := by
  rw [snowChecked, h]
  exact if_neg Bool.false_ne_true

theorem slice0_snowpackTraffic : Slice0.SnowpackTraffic := by
  unfold Slice0.SnowpackTraffic
  intro core s hs
  dsimp only
  rw [exec_snowpackSpillAck, exec_snowpackRefillData, exec_snowpackDirectoryRefill]
  simp only [State.unlessStopped_of_going hs]
  refine ⟨fun h => ?_, fun h hc hclear hopen => ?_, fun h hc hclear hopen => ?_, fun h => ?_, fun h hc hopen => ?_, fun h hc hopen => ?_,
    fun h => ?_, fun h => ?_⟩
  · rw [snowSpillAck, h]; rfl
  · simp only [snowSpillAck, h, snowChecked_of_clean hc, State.kick_snow, hclear, hopen, Bool.not_true, Bool.not_false, Bool.false_eq_true, if_false,
      if_true]
  · simp only [snowSpillAck, h, snowChecked_of_clean hc, State.kick_snow, hclear, hopen, Bool.not_true, Bool.false_eq_true, if_false,
      State.storeEdge]
  · rw [snowRefill, h]; rfl
  · simp only [snowRefill, h, snowChecked_of_clean hc, State.kick_snow, hopen, Bool.not_true, Bool.not_false, Bool.false_eq_true, if_false, if_true]
  · simp only [snowRefill, h, snowChecked_of_clean hc, State.kick_snow, hopen, Bool.not_true, Bool.false_eq_true, if_false]
  · simp only [snowDirRefill, h, if_true, snowDirHome]
  · simp only [snowDirRefill, h, Bool.false_eq_true, if_false]

/-- Settles O26, from what an issue makes of the stack, the thresholds of Snow.moved, and a spill or refill unit over a top nothing else has written to. -/
theorem snowpack : Obligations.Snowpack := ⟨slice0_snowpackIssue, slice0_snowThresholds, slice0_snowpackTraffic⟩

end Sys2Proof.Machine
end


section
/-! # Votes of cores and engines, and the root's decision (spec/04 R93; spec/09 R206-R208; spec/13 R299; spec/14 R308, R309) -/

namespace Sys2Proof.Machine

/-! ## A core votes -/

theorem exec_ckvote (i : IA) (s : State) : exec (.ckvote i) s = .next (ckvote i s) := by rfl

section
variable {i : IA} {s : State} (hx : s.Executes i.n i.k i.pg i.pn [i.a.toNat] [])
  (hl : (i.legal true true false false true 0 && predField i.d) = true) (hm : s.fld F.DEV_EXEC_CFG_mode ≠ 1) (hr : s.red.halted = false)
include hx hl hm hr

/-- CKVOTE for a decided step. -/
theorem ckvote_decided {out : Nat} (h : s.ckpt.stored = some (((s.ctx i.n i.k).sr i.a.toNat).toNat, out)) : ckvote i s =
    s.setCtx i.n i.k ((((s.ctx i.n i.k).setPr i.d.toNat (out = outCommit)).setPr i.pd.toNat true).adv 8) := by
  simp only [ckvote, issue_executes hx hl, if_neg hm, if_neg (ne_true_of_eq_false hr), h, Option.filter_some, decide_true, if_true]

/-- CKVOTE for a step without a decision. -/
theorem ckvote_undecided (h : ∀ out, s.ckpt.stored ≠ some (((s.ctx i.n i.k).sr i.a.toNat).toNat, out)) : ckvote i s =
    if ((s.ctx i.n i.k).sr i.a.toNat).toNat ≠ s.fld F.CKPT_STEP_step then
      ((s.setCtx i.n i.k ((((s.ctx i.n i.k).setPr i.d.toNat false).setPr i.pd.toNat true).adv 8)).setFld F.CKPT_VOTE_STS_outcome
        outStale).setFld F.CKPT_VOTE_STS_step ((s.ctx i.n i.k).sr i.a.toNat).toNat
    else
      let cast := if i.n ∈ s.ckpt.cast then s.ckpt.cast else s.ckpt.cast ++ [i.n]
      let s1 := (s.setCtx i.n i.k (((s.ctx i.n i.k).setPr i.pd.toNat false).adv 8)).setCk
        { s.ckpt with cast := cast, voters := s.ckpt.voters ++ [⟨i.n, i.k, (s.ctx i.n i.k).inc, i.pd.toNat, i.d.toNat⟩] }
      if Nat.max 1 (s.fld F.CKPT_VOTE_NCORES) ≤ cast.length ∧ s.fld F.CKPT_STS_phase = phRun then candidate (s1.setFld F.CKPT_STS_phase phVoting)
      else s1 := by
  have hnone : s.ckpt.stored.filter (fun q => decide (q.1 = ((s.ctx i.n i.k).sr i.a.toNat).toNat)) = none := by
    rw [Option.filter_eq_none_iff]
    rintro ⟨step, out⟩ hq he
    exact h out (by rw [hq, ← of_decide_eq_true he])
  simp only [ckvote, issue_executes hx hl, if_neg hm, if_neg (ne_true_of_eq_false hr), hnone, List.contains_iff_mem]
  rfl

end

theorem slice0_stepVote : Slice0.StepVote := by
  unfold Slice0.StepVote
  intro i s hx hl hd
  have hlegal : (i.legal true true false false true 0 && predField i.d) = true := by rw [hl, (predField_iff _).2 hd]; rfl
  dsimp only
  rw [exec_ckvote]
  refine ⟨fun hm => ?_, fun hm hr => ?_, fun hm hr => ⟨fun out hout => ?_, fun hout => ?_⟩⟩
  · rw [ckvote, issue_executes hx hlegal, if_pos hm]
  · rw [ckvote, issue_executes hx hlegal, if_neg hm, if_pos hr]
  · rw [ckvote_decided hx hlegal hm hr hout]
  rw [ckvote_undecided hx hlegal hm hr hout]
  refine ⟨fun hne => ?_, fun he hlast => ?_, fun he hlast => ?_⟩
  · rw [if_pos hne]
  · rw [if_neg (not_not_intro he)]
    exact congrArg Host.Outcome.next (if_neg hlast)
  · rw [if_neg (not_not_intro he)]
    exact congrArg Host.Outcome.next (if_pos hlast)

/-! ## The candidate of a step -/

theorem candidate_idle {s : State} (h : s.fld F.CKPT_STS_phase ≠ 2 ∨ s.ckpt.mirror.isSome = true) : candidate s = s := by
  rw [candidate, State.phase, if_pos h]

theorem memberRec_step (s : State) (step : Nat) : (memberRec s step).take 8 = leBytes 8 step := by
  simp only [memberRec, memberHdr, List.append_assoc]
  rw [List.take_append_of_le_length (by rw [length_leBytes]), List.take_of_length_le (by rw [length_leBytes])]

/-- The valid byte of a record as it is taken (Table 14-3). -/
theorem memberRec_valid (s : State) (step : Nat) : numAt (memberRec s step) 20 1 = 0 := by
  have hdrop : ∀ (a b c d e : Nat) (rest : List Byte),
      (leBytes 8 a ++ (leBytes 4 b ++ (leBytes 4 c ++ (leBytes 2 d ++ (leBytes 2 e ++ (leBytes 1 0 ++ rest)))))).drop 20 = leBytes 1 0 ++ rest :=
    fun _ _ _ _ _ _ => rfl
  simp only [numAt, memberRec, memberHdr, List.append_assoc, bit, Bool.false_eq_true, if_false, hdrop]
  rfl

theorem slice0_candidates : Slice0.Candidates := by
  unfold Slice0.Candidates
  refine ⟨fun s => candidate_idle, fun s hp hm => ?_⟩
  have hopen : ¬ (s.phase ≠ phVoting ∨ s.ckpt.mirror.isSome = true) := by rw [hm]; simp [State.phase, hp]
  refine ⟨fun hc => ?_, fun hc hsent => ?_, memberRec_step s _, memberRec_valid s _⟩
  · rw [candidate, if_neg hopen]
    exact if_pos (by rw [Bool.not_eq_true']; exact hc)
  · rw [candidate, if_neg hopen]
    refine (if_neg (by rw [Bool.not_eq_true', Bool.not_eq_false]; exact hc)).trans ?_
    exact if_neg (ne_true_of_eq_false hsent)

/-! ## The vote of an engine and its timer -/

theorem exec_voteSend (s : State) : exec .voteSend s = .next (voteSend s) := by rfl
theorem exec_voteTimerExpiry (s : State) : exec .voteTimerExpiry s = .next (voteTimer s) := by rfl
theorem exec_rollback (s : State) : exec .rollback s = .next (rollback s) := by rfl
theorem exec_ckptUpdWrite (v : W64) (s : State) : exec (.ckptUpdWrite v) s = .next (updWrite v s) := by rfl

/-- With its candidate taken, or none to take, an engine votes or does nothing. -/
theorem voteSend_taken {s : State} (h : s.fld F.CKPT_STS_phase ≠ 2 ∨ s.ckpt.mirror.isSome = true) : voteSend s =
    if s.phase = phVoting ∧ s.ckpt.mirror = some 0 ∧ s.updDone ∧ !s.red.bad then castVote false (s.setPhase phVoted) else s := by
  simp only [voteSend, candidate_idle h]

theorem updWrite_eq (v : W64) (s : State) : updWrite v s =
    if s.fld F.CKPT_STS_phase = phVoting then voteSend (s.setFld F.CKPT_UPD_done_step v.toNat)
    else if s.fld F.CKPT_STS_phase = phRollback then rollback (s.setFld F.CKPT_UPD_done_step v.toNat)
    else s.setFld F.CKPT_UPD_done_step v.toNat := by
  have hphase : (s.setFld F.CKPT_UPD_done_step v.toNat).phase = s.fld F.CKPT_STS_phase := State.fld_setFld_addr _ _ _ _ (by decide)
  simp only [updWrite, hphase]

theorem slice0_voteAndTimer : Slice0.VoteAndTimer := by
  unfold Slice0.VoteAndTimer
  refine ⟨fun s hp hm hu hb => ?_, fun s hp => ?_, fun s hp hm hw => ?_, fun s hr ht h0 h5 => ?_, fun s h => ?_, fun v s => ⟨?_, fun h2 h4 => ?_,
    fun h2 => ?_, fun h4 => ?_⟩⟩
  · have hready : s.phase = phVoting ∧ s.ckpt.mirror = some 0 ∧ s.updDone = true ∧ (!s.red.bad) = true := ⟨hp, hm, hu, by rw [hb]; rfl⟩
    rw [exec_voteSend, voteSend_taken (.inr (by rw [hm]; rfl)), if_pos hready, castVote, State.isSelf_setPhase, State.rootNode_setPhase]
    exact ⟨fun hr => by rw [if_pos hr]; rfl, fun hr => by rw [if_neg (ne_true_of_eq_false hr)]; rfl⟩
  · rw [exec_voteSend, voteSend_taken (.inl hp), if_neg fun h => hp h.1]
  · rw [exec_voteSend, voteSend_taken (.inr hm), if_neg]
    rintro ⟨-, h0, hu, hb⟩
    rcases hw with hw | hw | hw
    · exact hw h0
    · rw [hw] at hu; cases hu
    · rw [hw] at hb; cases hb
  · rw [exec_voteTimerExpiry, voteTimer, if_pos ⟨hr, ht, h0, h5⟩]
  · rw [exec_voteTimerExpiry, voteTimer, if_neg]
    rintro ⟨hr, ht, -⟩
    rcases h with h | ⟨ht', hh⟩
    · rw [h] at hr; cases hr
    · simp [ht', hh] at ht
  · rw [State.fld_setFld _ _ _ (by decide)]
    exact Nat.mod_eq_of_lt v.isLt
  · rw [exec_ckptUpdWrite, updWrite_eq, if_neg h2, if_neg h4]
  · rw [exec_ckptUpdWrite, updWrite_eq, if_pos h2, exec_voteSend]
  · rw [exec_ckptUpdWrite, updWrite_eq, if_neg (by rw [h4]; decide), if_pos h4, exec_rollback]

/-! ## The root decides -/

/-- What makes the root keep out a vote (log 174). -/
def State.ignoresVote (s : State) (v : List Byte) : Prop :=
  s.isSelf s.rootNode = false ∨ s.phase = phIdle ∨ s.phase = phHalted ∨ s.ckpt.aborted = true ∨ vStep v < s.stepNo
    ∨ vNode v ∉ s.ckpt.members ∨ ∃ w ∈ s.ckpt.votes, vNode w = vNode v

theorem rootVote_ignored {s : State} {v : List Byte} (h : s.ignoresVote v) : rootVote v s = s := by
  rw [rootVote, if_pos (by simpa [State.ignoresVote] using h)]

theorem not_ignoresVote_iff (s : State) (v : List Byte) : ¬ s.ignoresVote v ↔ (s.isSelf s.rootNode = true ∧ s.phase ≠ phIdle ∧ s.phase ≠ phHalted
    ∧ s.ckpt.aborted = false) ∧ s.stepNo ≤ vStep v ∧ vNode v ∈ s.ckpt.members ∧ ∀ w ∈ s.ckpt.votes, vNode w ≠ vNode v := by
  simp [State.ignoresVote, and_assoc]

/-- A vote that counts, with the votes there. -/
def State.withVote (s : State) (v : List Byte) : State := s.setCk { s.ckpt with votes := s.ckpt.votes ++ [v], timer := true }

theorem rootVote_counted {s : State} {v : List Byte} (h : ¬ s.ignoresVote v) : rootVote v s =
    if s.ckpt.heir then s.withVote v
    else if vStep v = s.stepNo ∧ (vDig v).all (· = 0) then decide_ outAbort (s.withVote v)
    else if !s.ckpt.members.all (fun n => (s.ckpt.votes ++ [v]).any (fun w => decide (vNode w = n))) then s.withVote v
    else if !(s.ckpt.votes ++ [v]).all (fun w => decide (vStep w = s.stepNo ∧ vDig w = vDig v)) then decide_ outAbort (s.withVote v)
    else if (s.ckpt.votes ++ [v]).all (fun w => vFlags w % 4 = 0) then decide_ outCommit (s.withVote v)
    else if s.fld F.RED_POISON_CFG_policy = 0 then decide_ outSkip (s.withVote v)
    else if s.fld F.RED_POISON_CFG_policy = 2 then decide_ outHalt (s.withVote v)
    else decide_ outCommit (s.withVote v) := by
  rw [rootVote, if_neg (by simpa [State.ignoresVote] using h)]
  generalize s.fld F.RED_POISON_CFG_policy = policy
  match policy with
  | 0 => rfl
  | 1 => rfl
  | 2 => rfl
  | _ + 3 => rfl

/-- The digest of a vote of 48 bytes at least is of zeros when no byte of it is another. -/
theorem vDig_all_zero_iff {v : List Byte} (h : 48 ≤ v.length) : (vDig v).all (· = 0) = true ↔ (v.drop 32).take 16 = List.replicate 16 0 := by
  rw [List.eq_replicate_iff, List.all_eq_true, vDig]
  simp only [decide_eq_true_eq, List.length_take, List.length_drop]
  exact ⟨fun hz => ⟨by omega, hz⟩, fun hz => hz.2⟩

/-- The votes that are there do not yet come from every member. -/
theorem votesMissing_iff (members : List Nat) (vs : List (List Byte)) :
    (!members.all (fun n => vs.any (fun w => decide (vNode w = n)))) = true ↔ ∃ n ∈ members, ∀ w ∈ vs, vNode w ≠ n := by
  simp only [Bool.not_eq_true', List.all_eq_false, List.any_eq_true, decide_eq_true_eq, not_exists, not_and, ne_eq]

section
variable {s : State} {v : List Byte} (hcounts : ¬ s.ignoresVote v) (hheir : s.ckpt.heir = false)
  (hdig : ¬ (vStep v = s.stepNo ∧ (vDig v).all (· = 0) = true))
include hcounts hheir hdig

theorem rootVote_waits (h : ∃ n ∈ s.ckpt.members, ∀ w ∈ s.ckpt.votes ++ [v], vNode w ≠ n) : rootVote v s = s.withVote v := by
  rw [rootVote_counted hcounts, if_neg (ne_true_of_eq_false hheir), if_neg hdig, if_pos ((votesMissing_iff _ _).2 h)]

/-- With every member's vote there, and no vote that names a dropped step. -/
theorem rootVote_complete (h : ∀ n ∈ s.ckpt.members, ∃ w ∈ s.ckpt.votes ++ [v], vNode w = n) : rootVote v s =
    if ¬ ∀ w ∈ s.ckpt.votes ++ [v], vStep w = s.stepNo ∧ vDig w = vDig v then decide_ outAbort (s.withVote v)
    else if ∀ w ∈ s.ckpt.votes ++ [v], vFlags w % 4 = 0 then decide_ outCommit (s.withVote v)
    else if s.fld F.RED_POISON_CFG_policy = 0 then decide_ outSkip (s.withVote v)
    else if s.fld F.RED_POISON_CFG_policy = 2 then decide_ outHalt (s.withVote v)
    else decide_ outCommit (s.withVote v) := by
  have hthere : ¬ ∃ n ∈ s.ckpt.members, ∀ w ∈ s.ckpt.votes ++ [v], vNode w ≠ n := by
    rintro ⟨n, hn, hmiss⟩
    obtain ⟨w, hw, he⟩ := h n hn
    exact hmiss w hw he
  rw [rootVote_counted hcounts, if_neg (ne_true_of_eq_false hheir), if_neg hdig, if_neg (mt (votesMissing_iff _ _).1 hthere)]
  simp only [Bool.not_eq_true', List.all_eq_true, decide_eq_true_eq, ← Bool.not_eq_true]

end

theorem slice0_rootDecides : Slice0.RootDecides := by
  unfold Slice0.RootDecides
  intro v s
  dsimp only
  refine ⟨fun h => rootVote_ignored ?_, fun hdec hlen hstep hnode hnew => ?_⟩
  · by_contra hno
    obtain ⟨hdec, hstep, hnode, hnew⟩ := (not_ignoresVote_iff s v).1 hno
    rcases h with h | h | h | ⟨w, hw, h⟩
    · exact h hdec
    · exact absurd h (Nat.not_lt.2 hstep)
    · exact h hnode
    · exact hnew w hw h
  have hcounts : ¬ s.ignoresVote v := (not_ignoresVote_iff s v).2 ⟨hdec, hstep, hnode, hnew⟩
  rw [← vDig_all_zero_iff hlen]
  refine ⟨fun hheir => ?_, fun hheir hs hz => ?_, fun hheir hdig => ⟨rootVote_waits hcounts hheir hdig, fun hall => ?_⟩⟩
  · rw [rootVote_counted hcounts, if_pos hheir]; rfl
  · rw [rootVote_counted hcounts, if_neg (ne_true_of_eq_false hheir), if_pos ⟨hs, hz⟩]; rfl
  rw [rootVote_complete hcounts hheir hdig hall]
  refine ⟨fun hag => ?_, fun hag hcl => ?_, fun hag hcl hp => ?_, fun hag hcl hp => ?_, fun hag hcl h0 h2 => ?_⟩
  · exact if_pos hag
  · exact (if_neg (not_not_intro hag)).trans (if_pos hcl)
  · exact (if_neg (not_not_intro hag)).trans ((if_neg hcl).trans (if_pos hp))
  · exact (if_neg (not_not_intro hag)).trans ((if_neg hcl).trans ((if_neg (by rw [hp]; decide)).trans (if_pos hp)))
  · exact (if_neg (not_not_intro hag)).trans ((if_neg hcl).trans ((if_neg h0).trans (if_neg h2)))

/-- Settles O29, from what a CKVOTE answers, the candidate of a step, when the engine's vote leaves, and the root's decision. -/
theorem stepVotes : Obligations.StepVotes := ⟨slice0_stepVote, slice0_candidates, slice0_voteAndTimer, slice0_rootDecides⟩

end Sys2Proof.Machine
end


section
/-! # The accumulator stores after Carve commands (O23; spec/06 R128, R140-R143) -/

namespace Sys2Proof.Machine

/-! ## Entries written -/

/-- A word at which an entry of a format may start: WACC entries start at every fourth word. -/
def entryStart (wacc : Bool) (key : Nat) : Prop := wacc = true → key % 4 = 0

/-- The cell that a write of an entry lays down. -/
def accCell (wacc tile : Bool) (raw : Nat) : AccCell := { wacc := wacc, tile := tile, val := BitVec.ofNat 80 raw }

theorem find_accPut_self (m : Sparse AccCell) (wacc tile : Bool) (key raw : Nat) :
    Sparse.find (accPut m wacc tile key raw) key = some (accCell wacc tile raw) := by
  cases wacc <;> simp only [accPut, accCell, if_true, Bool.false_eq_true, if_false]
  · split <;> simp
  · simp

/-- A write leaves the other entries of its format. -/
theorem find_accPut_other {m : Sparse AccCell} {wacc : Bool} {key k : Nat} {c : AccCell} (hkey : entryStart wacc key) (hk : entryStart wacc k)
    (hne : k ≠ key) (hc : c.wacc = wacc) (h : Sparse.find m k = some c) (tile : Bool) (raw : Nat) :
    Sparse.find (accPut m wacc tile key raw) k = some c := by
  cases wacc with
  | true =>
    have h4 := hkey rfl
    have h4' := hk rfl
    simp only [accPut, if_true, Sparse.find_put, Sparse.find_drop, hne, if_false]
    rw [if_neg (by omega), if_neg (by omega), if_neg (by omega), h]
  | false =>
    simp only [accPut, Bool.false_eq_true, if_false]
    split
    next d hd =>
      split
      next hw =>
        have : k ≠ key / 4 * 4 := by
          rintro rfl
          rw [h, Option.some.injEq] at hd
          rw [← hd, hc] at hw
          exact Bool.false_ne_true hw
        simp [hne, this, h]
      next => simp [hne, h]
    next => simp [hne, h]

/-- Entries written one after another leave the others of their format. -/
theorem find_foldl_accPut_other {wacc : Bool} {k : Nat} {c : AccCell} (tile : Bool) (hk : entryStart wacc k) (hc : c.wacc = wacc)
    (l : List (Nat × Nat)) (hl : ∀ p ∈ l, entryStart wacc p.1 ∧ p.1 ≠ k) : ∀ m : Sparse AccCell, Sparse.find m k = some c →
    Sparse.find (l.foldl (fun m p => accPut m wacc tile p.1 p.2) m) k = some c := by
  induction l with
  | nil => exact fun _ h => h
  | cons p l ih =>
    intro m h
    obtain ⟨hp, hne⟩ := hl p List.mem_cons_self
    exact ih (fun q hq => hl q (List.mem_cons_of_mem _ hq)) _ (find_accPut_other hp hk hne.symm hc h tile _)

/-- Of entries written one after another, one that is always given the same bits holds them. -/
theorem find_foldl_accPut_mem {wacc : Bool} {k v : Nat} (tile : Bool) (hk : entryStart wacc k) (l : List (Nat × Nat))
    (hl : ∀ p ∈ l, entryStart wacc p.1 ∧ (p.1 = k → p.2 = v)) (hmem : k ∈ l.map Prod.fst) (m : Sparse AccCell) :
    Sparse.find (l.foldl (fun m p => accPut m wacc tile p.1 p.2) m) k = some (accCell wacc tile v) := by
  induction l generalizing m with
  | nil => simp at hmem
  | cons p l ih =>
    have htl : ∀ q ∈ l, entryStart wacc q.1 ∧ (q.1 = k → q.2 = v) := fun q hq => hl q (List.mem_cons_of_mem _ hq)
    rw [List.foldl_cons]
    by_cases hin : k ∈ l.map Prod.fst
    · exact ih htl hin _
    · have hpk : p.1 = k := by
        rcases List.mem_cons.1 hmem with h | h
        · exact h.symm
        · exact absurd h hin
      refine find_foldl_accPut_other tile hk rfl l (fun q hq => ⟨(htl q hq).1, fun h => hin (h ▸ List.mem_map_of_mem hq)⟩) _ ?_
      rw [← hpk, find_accPut_self, (hl p List.mem_cons_self).2 hpk]

theorem State.accOf_accStore (s : State) (n arr : Nat) (wacc tile : Bool) (l : List (Nat × Nat)) :
    (s.accStore n arr wacc tile l).accOf n arr = l.foldl (fun m p => accPut m wacc tile p.1 p.2) (s.accOf n arr) := by
  rw [State.accOf, State.accStore, Sparse.get_put, if_pos rfl]

theorem State.accRaw_of_find {s : State} {n arr key : Nat} {wacc tile : Bool} {c : AccCell} (h : Sparse.find (s.accOf n arr) key = some c)
    (hw : c.wacc = wacc) (ht : c.tile = tile) : s.accRaw n arr wacc tile key = c.val := by
  rw [State.accRaw, h]
  exact if_pos ⟨hw, ht⟩

theorem State.find_accStore {wacc : Bool} {k v : Nat} {l : List (Nat × Nat)} (hk : entryStart wacc k)
    (hl : ∀ p ∈ l, entryStart wacc p.1 ∧ (p.1 = k → p.2 = v)) (hmem : k ∈ l.map Prod.fst) (s : State) (n arr : Nat) (tile : Bool) :
    Sparse.find ((s.accStore n arr wacc tile l).accOf n arr) k = some (accCell wacc tile v) := by
  rw [State.accOf_accStore]
  exact find_foldl_accPut_mem tile hk l hl hmem _

/-! ## The words of rows and tiles (spec/03 Table 03-7) -/

theorem entryStart_accKey (wacc tile : Bool) (idx i j : Nat) : entryStart wacc (accKey wacc tile idx i j) := by
  rintro rfl
  exact Nat.mul_mod_right 4 _

theorem accKey_row_inj {wacc : Bool} {r r' j j' : Nat} (hj : j < 128) (hj' : j' < 128)
    (h : accKey wacc false r 0 j = accKey wacc false r' 0 j') : r = r' ∧ j = j' := by
  cases wacc <;> simp [accKey] at h <;> omega

theorem accKey_tile_inj {wacc : Bool} {idx i i' j j' : Nat} (hj : j < 128) (hj' : j' < 128)
    (h : accKey wacc true idx i j = accKey wacc true idx i' j') : i = i' ∧ j = j' := by
  cases wacc <;> simp [accKey] at h <;> omega

/-- A word lies in a span. -/
def inSpan (p : Nat × Nat) (key : Nat) : Prop := p.1 ≤ key ∧ key < p.2

theorem inSpan_row {r idx cnt j : Nat} (wacc : Bool) (hlo : idx ≤ r) (hhi : r < idx + cnt) (hj : j < 128) :
    inSpan (accSpan wacc false idx cnt) (accKey wacc false r 0 j) := by
  cases wacc <;> simp [inSpan, accSpan, accKey] <;> omega

theorem inSpan_tile {r idx cnt i j : Nat} (wacc : Bool) (hlo : idx ≤ r) (hhi : r < idx + cnt) (hi : i < 128) (hj : j < 128) :
    inSpan (accSpan wacc true idx cnt) (accKey wacc true r i j) := by
  cases wacc <;> simp [inSpan, accSpan, accKey] <;> omega

/-- Spans that do not overlap have no word in common. -/
theorem ne_of_overlap_eq_false {p q : Nat × Nat} {k l : Nat} (h : overlap [p] [q] = false) (hk : inSpan p k) (hl : inSpan q l) : k ≠ l := by
  rintro rfl
  have : k < q.2 ∧ p.1 ≤ k ∧ k < p.2 ∧ q.1 ≤ k := ⟨hl.2, hk.1, hk.2, hl.1⟩
  simp [overlap] at h
  omega

/-! ## CZERO -/

theorem carveRun_czero {s : State} {n : Nat} {x : UCmd} (h : x.op = .czero) : carveRun s n x = czeroRun s n x := by simp only [carveRun, h]

/-- The words that a CZERO covers. -/
def UCmd.zeroSpan (x : UCmd) : Nat × Nat := accSpan x.wacc x.tile (if x.tile then x.tno else x.row) x.cnt

/-- Whole entries lead from the first word of a span to every word of it that an entry may start at. -/
theorem exists_entry_of_inSpan {wacc : Bool} {lo hi key : Nat} (hlo : entryStart wacc lo) (hhi : entryStart wacc hi) (hk : entryStart wacc key)
    (h : inSpan (lo, hi) key) : ∃ k < (hi - lo) / (if wacc then 4 else 1), lo + (if wacc then 4 else 1) * k = key := by
  obtain ⟨h1, h2⟩ := h
  cases wacc with
  | false => exact ⟨key - lo, by simp only [Bool.false_eq_true, if_false]; omega, by simp only [Bool.false_eq_true, if_false]; omega⟩
  | true =>
    have hlo4 := hlo rfl
    have hhi4 := hhi rfl
    have hk4 := hk rfl
    exact ⟨(key - lo) / 4, by simp only [if_true]; omega, by simp only [if_true]; omega⟩

/-- A CZERO leaves +0 in every entry of its span. -/
theorem czeroRun_accRaw {x : UCmd} {key : Nat} (hk : entryStart x.wacc key) (hin : inSpan x.zeroSpan key) (s : State) (n : Nat) :
    (czeroRun s n x).1.accRaw n x.arr x.wacc x.tile key = 0 := by
  have hlo : entryStart x.wacc x.zeroSpan.1 := entryStart_accKey _ _ _ _ _
  obtain ⟨k, hlt, he⟩ := exists_entry_of_inSpan hlo (entryStart_accKey _ _ _ _ _) hk hin
  refine State.accRaw_of_find (State.find_accStore (v := 0) hk (fun p hp => ?_)
    (List.mem_map.2 ⟨(key, 0), List.mem_map.2 ⟨k, List.mem_range.2 hlt, congrArg (fun a => (a, 0)) he⟩, rfl⟩) s n x.arr x.tile) rfl rfl
  obtain ⟨j, -, rfl⟩ := List.mem_map.1 hp
  refine ⟨fun hw => ?_, fun _ => rfl⟩
  have hlo4 : (accSpan x.wacc x.tile (if x.tile then x.tno else x.row) x.cnt).1 % 4 = 0 := hlo hw
  rw [if_pos hw]
  omega

theorem slice0_zeroes : Slice0.Zeroes := by
  unfold Slice0.Zeroes
  intro s n x hop
  rw [carveRun_czero hop]
  refine ⟨fun ht _ r j hlo hhi hj => ?_, fun ht _ r i j hlo hhi hi hj => ?_, fun a ha => ?_, czeroRun_mem s n x⟩
  · have h := czeroRun_accRaw (x := x) (entryStart_accKey x.wacc false r 0 j) (by rw [UCmd.zeroSpan, ht]; exact inSpan_row _ hlo hhi hj) s n
    rwa [ht] at h
  · have h := czeroRun_accRaw (x := x) (entryStart_accKey x.wacc true r i j) (by rw [UCmd.zeroSpan, ht]; exact inSpan_tile _ hlo hhi hi hj) s n
    rwa [ht] at h
  · exact (Sparse.get_put _ _ _ _ _).trans (if_neg ha)

/-! ## Blocks of sums (R110-R112) -/

theorem accumulate_eq_summed (wacc : Bool) (start : Option Val) (sums : List Val) :
    (accumulate wacc start sums).2.1 = Slice0.summed wacc start sums := by
  have h := List.foldl_hom (fun p : Option Val × Nat × Flags => (p.1, p.2.1))
    (g₁ := fun (p : Option Val × Nat × Flags) v =>
      let r := roundAcc wacc (match p.1 with | none => v | some a => a.add v)
      (some (accDecode wacc r.1), r.1, p.2.2.or r.2))
    (g₂ := fun (p : Option Val × Nat) v =>
      let b := (roundAcc wacc (match p.1 with | none => v | some a => a.add v)).1
      (some (accDecode wacc b), b)) (l := sums) (init := (start, 0, Flags.none)) (fun _ _ => rfl)
  exact (congrArg Prod.snd h).symm

/-- The key function of a block names each of its cells once. -/
def KeysApart (wacc : Bool) (key : Nat → Nat → Nat) (cols : Nat) : Prop :=
  (∀ m j, entryStart wacc (key m j)) ∧ ∀ m j m' j', j < cols → j' < cols → key m j = key m' j' → m = m' ∧ j = j'

theorem keysApart_row (wacc : Bool) (row : Nat) {cols : Nat} (h : cols ≤ 128) : KeysApart wacc (fun m j => accKey wacc false (row + m) 0 j) cols := by
  refine ⟨fun m j => entryStart_accKey _ _ _ _ _, fun m j m' j' hj hj' he => ?_⟩
  obtain ⟨hr, hc⟩ := accKey_row_inj (hj.trans_le h) (hj'.trans_le h) he
  exact ⟨Nat.add_left_cancel hr, hc⟩

theorem keysApart_tile (wacc : Bool) (tno : Nat) {cols : Nat} (h : cols ≤ 128) : KeysApart wacc (fun i j => accKey wacc true tno i j) cols :=
  ⟨fun _ _ => entryStart_accKey _ _ _ _ _, fun _ _ _ _ hj hj' he => accKey_tile_inj (hj.trans_le h) (hj'.trans_le h) he⟩

section Block
variable {s : State} {n arr : Nat} {wacc tile accBit : Bool} {key : Nat → Nat → Nat} {lines cols : Nat} {sums : Nat → Nat → List Val}

/-- The entries that a block writes, with their bits. -/
def blockCells (s : State) (n arr : Nat) (wacc tile accBit : Bool) (key : Nat → Nat → Nat) (lines cols : Nat) (sums : Nat → Nat → List Val) :
    List (Nat × Nat) :=
  (List.range lines).flatMap fun m => (List.range cols).map fun j =>
    (key m j, Slice0.summed wacc (s.accStart n arr wacc tile accBit (key m j)) (sums m j))

theorem accBlock_fst : (accBlock s n arr wacc tile accBit key lines cols sums).1
    = s.accStore n arr wacc tile (blockCells s n arr wacc tile accBit key lines cols sums) := by
  simp only [accBlock, blockCells, List.flatMap_def, List.map_flatten, List.map_map, Function.comp_def, accumulate_eq_summed]

theorem mem_blockCells {p : Nat × Nat} : p ∈ blockCells s n arr wacc tile accBit key lines cols sums ↔
    ∃ m < lines, ∃ j < cols, (key m j, Slice0.summed wacc (s.accStart n arr wacc tile accBit (key m j)) (sums m j)) = p := by
  simp only [blockCells, List.mem_flatMap, List.mem_map, List.mem_range]

/-- An entry of a block holds the sums added to what was there. -/
theorem find_accBlock (hkey : KeysApart wacc key cols) {m j : Nat} (hm : m < lines) (hj : j < cols) :
    Sparse.find ((accBlock s n arr wacc tile accBit key lines cols sums).1.accOf n arr) (key m j)
      = some (accCell wacc tile (Slice0.summed wacc (s.accStart n arr wacc tile accBit (key m j)) (sums m j))) := by
  obtain ⟨hstart, hinj⟩ := hkey
  rw [accBlock_fst]
  refine State.find_accStore (hstart m j) (fun p hp => ?_) (List.mem_map.2 ⟨_, mem_blockCells.2 ⟨m, hm, j, hj, rfl⟩, rfl⟩) s n arr tile
  obtain ⟨m', -, j', hj', rfl⟩ := mem_blockCells.1 hp
  refine ⟨hstart m' j', fun he => ?_⟩
  obtain ⟨rfl, rfl⟩ := hinj m' j' m j hj' hj he
  rfl

/-- A block leaves the entries of its format that it does not name. -/
theorem find_accBlock_other {k : Nat} {c : AccCell} (hstart : ∀ m j, entryStart wacc (key m j)) (hk : entryStart wacc k)
    (hne : ∀ m < lines, ∀ j < cols, key m j ≠ k) (hc : c.wacc = wacc) (h : Sparse.find (s.accOf n arr) k = some c) :
    Sparse.find ((accBlock s n arr wacc tile accBit key lines cols sums).1.accOf n arr) k = some c := by
  rw [accBlock_fst, State.accOf_accStore]
  refine find_foldl_accPut_other tile hk hc _ (fun p hp => ?_) _ h
  obtain ⟨m, hm, j, hj, rfl⟩ := mem_blockCells.1 hp
  exact ⟨hstart m j, hne m hm j hj⟩

end Block

/-! ## What the first sum adds to -/

section Start
variable {s t : State} {n : Nat} {x : UCmd} {tile : Bool} {key : Nat} {v0 : Option Val}

theorem accStart_of_starts (h : Slice0.Starts s n x tile key v0) : s.accStart n x.arr x.wacc tile x.accBit key = v0 := by
  rcases h with ⟨ha, rfl⟩ | ⟨ha, b, hb, rfl⟩
  · rw [State.accStart, ha]; rfl
  · rw [State.accStart, ha, if_pos rfl, State.accVal, State.accRaw_of_find hb rfl rfl]

/-- What an entry starts from is kept where the entry's cell is. -/
theorem starts_keep (h : Slice0.Starts s n x tile key v0)
    (hk : ∀ c : AccCell, c.wacc = x.wacc → Sparse.find (s.accOf n x.arr) key = some c → Sparse.find (t.accOf n x.arr) key = some c) :
    Slice0.Starts t n x tile key v0 := by
  rcases h with h | ⟨ha, b, hb, hv⟩
  · exact .inl h
  · exact .inr ⟨ha, b, hk _ rfl hb, hv⟩

theorem starts_of_acc (h : Slice0.Starts s n x tile key v0) (hacc : t.acc = s.acc) : Slice0.Starts t n x tile key v0 :=
  starts_keep h fun c _ hc => by rwa [State.accOf, hacc]

end Start

/-! ## CMM, CHB, CBWD -/

section Products
variable {s t : State} {n : Nat} {x : UCmd}

theorem State.crvAfter_acc (s0 s : State) (n : Nat) (x : UCmd) : (s0.crvAfter s n x).acc = s.acc := by
  unfold State.crvAfter
  dsimp only
  split
  · rfl
  · rfl
  · split <;> rfl
  · rfl

/-- A compute command leaves the bits that its products leave: the registers of its array are no entries. -/
theorem accRaw_crvDone {r : State × Flags} {wacc tile : Bool} {key v : Nat}
    (h : Sparse.find (r.1.accOf n x.arr) key = some (accCell wacc tile v)) (s : State) :
    (crvDone s r n x).1.accRaw n x.arr wacc tile key = BitVec.ofNat 80 v := by
  refine State.accRaw_of_find (c := accCell wacc tile v) ?_ rfl rfl
  rw [State.accOf, crvDone, State.crvAfter_acc]
  exact h

/-- Dot mode leaves its sums in the rows of the command. -/
theorem find_dotRun {sums : Nat → Nat → List Val} {m j : Nat} {v0 : Option Val} (hcols : x.dotCols ≤ 128) (hm : m < x.tA.n1) (hj : j < x.dotCols)
    (hst : Slice0.Starts t n x false (accKey x.wacc false (x.row + m) 0 j) v0) :
    Sparse.find ((dotRun t n x sums).1.accOf n x.arr) (accKey x.wacc false (x.row + m) 0 j)
      = some (accCell x.wacc false (Slice0.summed x.wacc v0 (sums m j))) := by
  rw [dotRun, find_accBlock (keysApart_row x.wacc x.row hcols) hm hj, accStart_of_starts hst]

/-- Outer products leave their sums in the tile of the command. -/
theorem find_tileRun {sums : Nat → Nat → List Val} {lines cols i j : Nat} {v0 : Option Val} (hcols : cols ≤ 128) (hi : i < lines) (hj : j < cols)
    (hst : Slice0.Starts t n x true (accKey x.wacc true x.tno i j) v0) :
    Sparse.find ((accBlock t n x.arr x.wacc true x.accBit (fun i j => accKey x.wacc true x.tno i j) lines cols sums).1.accOf n x.arr)
        (accKey x.wacc true x.tno i j)
      = some (accCell x.wacc true (Slice0.summed x.wacc v0 (sums i j))) := by
  rw [find_accBlock (keysApart_tile x.wacc x.tno hcols) hi hj, accStart_of_starts hst]

theorem getD_columns {w j : Nat} (rows : List (List Val)) (h : j < w) : (columns w rows).getD j [] = rows.map (fun r => r.getD j .zero) := by
  simp [columns, List.getD_eq_getElem?_getD, h]

theorem State.dotSums_of_ne_cbwd (h : x.op ≠ .cbwd) (m j : Nat) : s.dotSums n x m j = chunkSums (kappaOf x.tA.fmt)
    ((s.readRows n x.tA x.tSa).getD m []) ((exchanged x.tB (s.readRows n x.tB x.tSb)).getD j []) := by
  simp only [State.dotSums, if_neg h]

theorem State.dotSums_cbwd (h : x.op = .cbwd) {k : Nat} (hk : k < x.tB.k0) (m : Nat) : s.dotSums n x m k = chunkSums (kappaOf x.tA.fmt)
    ((s.readRows n x.tA x.tSa).getD m []) ((exchanged x.tB (s.readRows n x.tB x.tSb)).map (fun r => r.getD k .zero)) := by
  simp only [State.dotSums, if_pos h, getD_columns _ hk]

/-- The rows that a CBWD writes and its tile leave each other's entries. -/
theorem ne_row_tile {m i j k : Nat} (hov : overlap [accSpan x.wacc false x.row x.tA.n1] [accSpan x.wacc true x.tno 1] = false)
    (hm : m < x.tA.n1) (hj : j < 128) (hi : i < 128) (hk : k < 128) : accKey x.wacc false (x.row + m) 0 j ≠ accKey x.wacc true x.tno i k :=
  ne_of_overlap_eq_false hov (inSpan_row x.wacc (Nat.le_add_right _ _) (Nat.add_lt_add_left hm _) hj)
    (inSpan_tile x.wacc (Nat.le_refl _) (Nat.lt_succ_self _) hi hk)

/-- The products of the columns `i` and `j` of two operands, one after another. -/
def outerAt (as bs : List (List Val)) (i j : Nat) : List Val :=
  ((as.map (fun r => r.getD i .zero)).zip (bs.map (fun r => r.getD j .zero))).map (fun p => p.1.mul p.2)

theorem find_cmmRun {m j : Nat} {v0 : Option Val} (hop : x.op = .cmm) (hcols : x.tB.k1 ≤ 128) (hm : m < x.tA.n1) (hj : j < x.tB.k1)
    (hst : Slice0.Starts s n x false (accKey x.wacc false (x.row + m) 0 j) v0) :
    Sparse.find ((cmmRun s n x).1.accOf n x.arr) (accKey x.wacc false (x.row + m) 0 j)
      = some (accCell x.wacc false (Slice0.summed x.wacc v0 (chunkSums (kappaOf x.tA.fmt) ((s.readRows n x.tA x.tSa).getD m [])
          ((exchanged x.tB (s.readRows n x.tB x.tSb)).getD j [])))) := by
  have hne : x.op ≠ .cbwd := by rw [hop]; decide
  have hdot : x.dotCols = x.tB.k1 := if_neg hne
  rw [cmmRun, find_dotRun (hdot.trans_le hcols) hm (hj.trans_eq hdot.symm) (starts_of_acc hst (State.bumpBy_acc _ _ _)),
    State.dotSums_of_ne_cbwd hne]

theorem find_chbRun {i j : Nat} {v0 : Option Val} (hcols : x.tB.n0 ≤ 128) (hi : i < x.tA.n0) (hj : j < x.tB.n0)
    (hst : Slice0.Starts s n x true (accKey x.wacc true x.tno i j) v0) :
    Sparse.find ((chbRun s n x).1.accOf n x.arr) (accKey x.wacc true x.tno i j)
      = some (accCell x.wacc true (Slice0.summed x.wacc v0 (outerAt (s.readRows n x.tA x.tSa) (s.readRows n x.tB x.tSb) i j))) := by
  rw [chbRun, find_tileRun hcols hi hj (starts_of_acc hst (State.bumpBy_acc _ _ _)), getD_columns _ hi, getD_columns _ hj, outerAt]

/-! ### CBWD -/

/-- The dX products of a CBWD. -/
def cbwdRows (s : State) (n : Nat) (x : UCmd) : State :=
  (dotRun (s.bumpBy (F.CORE_CRV_ISSUE_CNT n x.arr) (if x.frz then x.tA.n1 else 2 * x.tA.n1)) n x (s.dotSums n x)).1

theorem cbwdRun_of_frz (h : x.frz = true) : (cbwdRun s n x).1 = cbwdRows s n x := by
  simp only [cbwdRun, cbwdRows, h, if_true]

/-- Without frz the outer products of the weight gradient follow. -/
theorem cbwdRun_of_not_frz (h : x.frz = false) : (cbwdRun s n x).1 =
    (accBlock (cbwdRows s n x) n x.arr x.wacc true x.accBit (fun i j => accKey x.wacc true x.tno i j) x.tC.n0 x.tA.n0
      (fun i j => (((columns x.tC.n0 (s.readRows n x.tC x.tSc)).getD i []).zip
        ((columns x.tA.n0 (s.readRows n x.tA x.tSa)).getD j [])).map (fun p => p.1.mul p.2))).1 := by
  simp only [cbwdRun, cbwdRows, h, Bool.false_eq_true, if_false]

theorem find_cbwdRows {m k : Nat} {v0 : Option Val} (hop : x.op = .cbwd) (hcols : x.tB.k0 ≤ 128) (hm : m < x.tA.n1) (hk : k < x.tB.k0)
    (hst : Slice0.Starts s n x false (accKey x.wacc false (x.row + m) 0 k) v0) :
    Sparse.find ((cbwdRows s n x).accOf n x.arr) (accKey x.wacc false (x.row + m) 0 k)
      = some (accCell x.wacc false (Slice0.summed x.wacc v0 (chunkSums (kappaOf x.tA.fmt) ((s.readRows n x.tA x.tSa).getD m [])
          ((exchanged x.tB (s.readRows n x.tB x.tSb)).map (fun r => r.getD k .zero))))) := by
  have hdot : x.dotCols = x.tB.k0 := if_pos hop
  rw [cbwdRows, find_dotRun (hdot.trans_le hcols) hm (hk.trans_eq hdot.symm) (starts_of_acc hst (State.bumpBy_acc _ _ _)),
    State.dotSums_cbwd hop hk]

/-- The dX products leave what a cell of the tile starts from. -/
theorem starts_cbwdRows {i k : Nat} {v0 : Option Val} (hop : x.op = .cbwd)
    (hov : overlap [accSpan x.wacc false x.row x.tA.n1] [accSpan x.wacc true x.tno 1] = false) (hcols : x.tB.k0 ≤ 128) (hi : i < 128) (hk : k < 128)
    (hst : Slice0.Starts s n x true (accKey x.wacc true x.tno i k) v0) :
    Slice0.Starts (cbwdRows s n x) n x true (accKey x.wacc true x.tno i k) v0 := by
  have hdot : x.dotCols = x.tB.k0 := if_pos hop
  refine starts_keep hst fun c hc hf => find_accBlock_other (fun m j => entryStart_accKey _ _ _ _ _) (entryStart_accKey _ _ _ _ _)
    (fun m hm j hj => ne_row_tile hov hm (hj.trans_le (hdot.trans_le hcols)) hi hk) hc ?_
  rwa [State.accOf, State.bumpBy_acc]

/-- The dX rows that the command leaves: the weight gradient, if there is one, writes another span. -/
theorem find_cbwdRun_row {m k : Nat} {v0 : Option Val} (hop : x.op = .cbwd)
    (hx : x.frz = true ∨ overlap [accSpan x.wacc false x.row x.tA.n1] [accSpan x.wacc true x.tno 1] = false) (hcols : x.tB.k0 ≤ 128)
    (ha : x.tA.n0 ≤ 128) (hc : x.tC.n0 ≤ 128) (hm : m < x.tA.n1) (hk : k < x.tB.k0)
    (hst : Slice0.Starts s n x false (accKey x.wacc false (x.row + m) 0 k) v0) :
    Sparse.find ((cbwdRun s n x).1.accOf n x.arr) (accKey x.wacc false (x.row + m) 0 k)
      = some (accCell x.wacc false (Slice0.summed x.wacc v0 (chunkSums (kappaOf x.tA.fmt) ((s.readRows n x.tA x.tSa).getD m [])
          ((exchanged x.tB (s.readRows n x.tB x.tSb)).map (fun r => r.getD k .zero))))) := by
  have hrow := find_cbwdRows hop hcols hm hk hst
  cases hfrz : x.frz with
  | true => rwa [cbwdRun_of_frz hfrz]
  | false =>
    rw [hfrz] at hx
    have hov := hx.resolve_left Bool.false_ne_true
    rw [cbwdRun_of_not_frz hfrz]
    exact find_accBlock_other (fun _ _ => entryStart_accKey _ _ _ _ _) (entryStart_accKey _ _ _ _ _)
      (fun i hi j hj => (ne_row_tile hov hm (hk.trans_le hcols) (hi.trans_le hc) (hj.trans_le ha)).symm) rfl hrow

theorem find_cbwdRun_tile {k j : Nat} {v0 : Option Val} (hop : x.op = .cbwd) (hfrz : x.frz = false)
    (hov : overlap [accSpan x.wacc false x.row x.tA.n1] [accSpan x.wacc true x.tno 1] = false) (hcols : x.tB.k0 ≤ 128)
    (ha : x.tA.n0 ≤ 128) (hc : x.tC.n0 ≤ 128) (hk : k < x.tC.n0) (hj : j < x.tA.n0)
    (hst : Slice0.Starts s n x true (accKey x.wacc true x.tno k j) v0) :
    Sparse.find ((cbwdRun s n x).1.accOf n x.arr) (accKey x.wacc true x.tno k j)
      = some (accCell x.wacc true (Slice0.summed x.wacc v0 (outerAt (s.readRows n x.tC x.tSc) (s.readRows n x.tA x.tSa) k j))) := by
  rw [cbwdRun_of_not_frz hfrz, find_tileRun ha hk hj (starts_cbwdRows hop hov hcols (hk.trans_le hc) (hj.trans_le ha) hst), getD_columns _ hk,
    getD_columns _ hj, outerAt]

end Products

theorem slice0_products : Slice0.Products := by
  unfold Slice0.Products
  intro s n x
  refine ⟨fun hop _ hcols m j v0 hm hj hst => ?_, fun hop _ _ hcols i j v0 hi hj hst => ?_, fun hop _ hcols ha hc _ =>
    ⟨fun hx m k v0 hm hk hst => ?_, fun hfrz hov k j v0 hk hj hst => ?_⟩⟩ <;> simp only [carveRun, hop]
  · exact accRaw_crvDone (find_cmmRun hop hcols hm hj hst) s
  · exact accRaw_crvDone (find_chbRun hcols hi hj hst) s
  · exact accRaw_crvDone (find_cbwdRun_row hop hx hcols ha hc hm hk hst) s
  · exact accRaw_crvDone (find_cbwdRun_tile hop hfrz hov hcols ha hc hk hj hst) s

end Sys2Proof.Machine
end

section
/-! # The bytes of a tensor that is written, and of a digest (O23; spec/04 R67, R93, R456; spec/05 R97) -/

namespace Sys2Proof.Machine

/-! ## Ranges of memory -/

theorem Mem.bytes_writeBytes_self (m : Mem) (a : Nat) (bs : List Byte) : (m.writeBytes a bs).bytes a bs.length = bs := by
  refine List.ext_getElem (Mem.length_bytes _ _ _) fun j hj hj' => ?_
  rw [← List.getD_eq_getElem _ 0 hj, Mem.getD_bytes _ _ _ _ hj', Mem.read_writeBytes, if_pos (by omega), Nat.add_sub_cancel_left,
    List.getD_eq_getElem _ 0 hj']

theorem Mem.bytes_writeBytes_apart {a b len : Nat} {bs : List Byte} (h : a + bs.length ≤ b ∨ b + len ≤ a) (m : Mem) :
    (m.writeBytes a bs).bytes b len = m.bytes b len := by
  refine List.ext_getElem (by simp) fun j hj hj' => ?_
  have hlen : j < len := by simpa using hj
  rw [← List.getD_eq_getElem _ 0 hj, ← List.getD_eq_getElem _ 0 hj', Mem.getD_bytes _ _ _ _ hlen, Mem.getD_bytes _ _ _ _ hlen, Mem.read_writeBytes,
    if_neg (by omega)]

/-- Ranges of one length written one after another: one that no later one touches is read back. -/
theorem Mem.bytes_foldl_writeBytes {addr : Nat → Nat} {w : Nat → List Byte} {len r : Nat} (m : Mem) (k : Nat) (hw : ∀ q < k, (w q).length = len)
    (hr : r < k) (hapart : ∀ q, r < q → q < k → addr q + len ≤ addr r ∨ addr r + len ≤ addr q) :
    ((List.range k).foldl (fun m q => m.writeBytes (addr q) (w q)) m).bytes (addr r) len = w r := by
  induction k with
  | zero => omega
  | succ k ih =>
    rw [List.range_succ, List.foldl_append, List.foldl_cons, List.foldl_nil]
    by_cases hk : r = k
    · subst hk
      rw [← hw r hr, Mem.bytes_writeBytes_self]
    · have hlt : r < k := by omega
      rw [Mem.bytes_writeBytes_apart (by rw [hw k (Nat.lt_succ_self k)]; exact hapart k hlt (Nat.lt_succ_self k))]
      exact ih (fun q hq => hw q (by omega)) hlt (fun q h1 h2 => hapart q h1 (by omega))

/-! ## Writes off every Snowpack -/

theorem State.lstore_offSnow {s : State} {n space off : Nat} {bs : List Byte} (h : Slice0.OffSnow s (localAddr n space off) bs.length) :
    s.lstore n space off bs = { s with mem := s.mem.writeBytes (localAddr n space off) bs } := by
  obtain ⟨htop, hbody⟩ := h
  simp [State.lstore, State.overSnow, htop, hbody]

theorem State.lbytes_lstore_self {s : State} {n space off : Nat} {bs : List Byte} (h : Slice0.OffSnow s (localAddr n space off) bs.length) :
    (s.lstore n space off bs).lbytes n space off bs.length = bs := by
  rw [State.lstore_offSnow h]
  exact Mem.bytes_writeBytes_self _ _ _

theorem State.foldl_lstore_offSnow {n space : Nat} {off : Nat → Nat} {w : Nat → List Byte} (l : List Nat) : ∀ s : State,
    (∀ q ∈ l, Slice0.OffSnow s (localAddr n space (off q)) (w q).length) →
    l.foldl (fun t q => t.lstore n space (off q) (w q)) s
      = { s with mem := l.foldl (fun m q => m.writeBytes (localAddr n space (off q)) (w q)) s.mem } := by
  induction l with
  | nil => exact fun _ _ => rfl
  | cons q l ih =>
    intro s h
    rw [List.foldl_cons, State.lstore_offSnow (h q List.mem_cons_self)]
    exact ih { s with mem := s.mem.writeBytes (localAddr n space (off q)) (w q) } fun q' hq' => h q' (List.mem_cons_of_mem _ hq')

theorem localAddr_apart {n space a b len : Nat} (h : a + len ≤ b) : localAddr n space a + len ≤ localAddr n space b := by
  unfold localAddr
  split <;> omega

/-! ## A row of a format of one code for each element (R97, R456) -/

theorem elemBits_of_not_mx {fmt : Nat} (h : isMx fmt = false) : elemBits fmt = 8 ∨ elemBits fmt = 16 ∨ elemBits fmt = 32 ∨ elemBits fmt = 128 := by
  have hmx : ¬ (5 ≤ fmt ∧ fmt ≤ 8) := of_decide_eq_false h
  unfold elemBits
  split <;> simp at hmx ⊢

theorem packRow_of_not_mx {fmt : Nat} (h : isMx fmt = false) (codes : List Nat) :
    packRow fmt codes = (codes.map (leBytes (elemBits fmt / 8))).flatten := by
  rcases elemBits_of_not_mx h with he | he | he | he <;> simp only [packRow, he]

theorem length_packRow {fmt : Nat} (h : isMx fmt = false) (codes : List Nat) : (packRow fmt codes).length = (codes.length * elemBits fmt + 7) / 8 := by
  have hlen : (packRow fmt codes).length = codes.length * (elemBits fmt / 8) := by
    simp [packRow_of_not_mx h, List.length_flatten, Function.comp_def]
  rcases elemBits_of_not_mx h with he | he | he | he <;> rw [hlen, he] <;> omega

/-- The values of row `r` of a tensor, and the bytes that they are packed into: each converted with td's rounding, stochastic rounding without a
record being to nearest (R108), and saturation. -/
def rowValues (t : Tens) (vs : List Val) (r : Nat) : List Val := (vs.drop (r * t.n0)).take t.n0
def rowPacked (t : Tens) (vs : List Val) (r : Nat) : List Byte :=
  packRow t.fmt ((rowValues t vs r).map (fun v => (convElem t.fmt (if t.rnd = 1 then 0 else t.rnd) 0 t.sat v).1))

theorem length_rowPacked {t : Tens} {vs : List Val} {r : Nat} (hmx : isMx t.fmt = false) (h0A : t.fmt ≠ 0x0A) (hvs : vs.length = t.count)
    (hr : r < t.rows) : (rowPacked t vs r).length = t.rowBytes := by
  have hrow : (rowValues t vs r).length = t.n0 := by
    have hmul : (r + 1) * t.n0 ≤ t.rows * t.n0 := Nat.mul_le_mul_right _ hr
    rw [Nat.succ_mul] at hmul
    rw [rowValues, List.length_take, List.length_drop, hvs, Tens.count, Nat.mul_comm t.n0]
    omega
  rw [rowPacked, length_packRow hmx, List.length_map, hrow, Tens.rowBytes, if_neg h0A]

@[simp] theorem Val.scale_zero (v : Val) : v.scale 0 = v := by
  cases v <;> simp [Val.scale]

theorem map_fst_zip_range {α β : Type} (f : α → β) (l : List α) : (l.zip (List.range l.length)).map (fun p => f p.1) = l.map f := by
  have h := congrArg (List.map f) (List.map_fst_zip (l₁ := l) (l₂ := List.range l.length) (by simp))
  rwa [List.map_map] at h

theorem fst_convRow {t : Tens} {rnd : Nat} (hmx : isMx t.fmt = false) (hrnd : rnd ≠ 1) (seed i : Nat) (vs : List Val) :
    (convRow t seed rnd 0 i vs).1 = packRow t.fmt (vs.map (fun v => (convElem t.fmt rnd 0 t.sat v).1)) := by
  simp only [convRow, hmx, Bool.false_eq_true, if_false, if_neg hrnd, neg_zero, Val.scale_zero, List.map_map, Function.comp_def,
    map_fst_zip_range (fun v => (convElem t.fmt rnd 0 t.sat v).1)]

/-- A write of all values of a tensor of such a format, without a record, stores row after row. -/
theorem State.writeTens_rows {t : Tens} (hmx : isMx t.fmt = false) (hrec : t.srecEn = false) (s : State) (n : Nat) (sc : Tens) (vs : List Val) :
    (s.writeTens n t sc (vs.map some)).1 = (List.range t.rows).foldl (fun st r => st.lstore n t.space (t.rowAddr r) (rowPacked t vs r)) s := by
  have hrnd : (if t.rnd = 1 then 0 else t.rnd) ≠ 1 := by split <;> [decide; assumption]
  have hself : ({ t with srecEn := false } : Tens) = t := by rw [← hrec]
  simp only [State.writeTens, State.writeAs, hrec, hmx, Bool.false_and, Bool.false_eq_true, if_false, Bool.not_false, Bool.and_true, decide_eq_true_eq,
    hself]
  refine (List.foldl_hom Prod.fst (fun p r => ?_)).symm
  have hvals : ∀ r, ((vs.map some).drop (r * t.n0)).take t.n0 = (rowValues t vs r).map some := fun r => by
    rw [rowValues, List.map_take, List.map_drop]
  have hkeep : ∀ (l : List Val) (j : Nat), ((l.map some).getD j (some .zero)).isNone = false := fun l j => by
    rw [List.getD_map]; rfl
  simp only [hvals, hkeep, Bool.false_eq_true, if_false, List.map_map, Function.comp_def, Option.getD_some, List.map_id', fst_convRow hmx hrnd]
  rw [map_fst_zip_range (fun b : Byte => b), List.map_id', rowPacked]

theorem slice0_rowsWritten : Slice0.RowsWritten := by
  unfold Slice0.RowsWritten
  intro s n t sc vs r hmx h0A hrec _ _ hvs hr hoff hapart
  have hlen : ∀ q < t.rows, (rowPacked t vs q).length = t.rowBytes := fun q hq => length_rowPacked hmx h0A hvs hq
  rw [State.writeTens_rows hmx hrec, State.foldl_lstore_offSnow _ _ fun q hq => by
    have hq := List.mem_range.1 hq
    rw [hlen q hq]
    exact hoff q hq]
  exact Mem.bytes_foldl_writeBytes s.mem t.rows hlen hr fun q h1 h2 => (hapart q h1 h2).imp localAddr_apart localAddr_apart

/-! ## SHA-512 gives 64 bytes -/

theorem length_shaRound (v : List Nat) (k w : Nat) : (shaRound v k w).length = v.length := by
  unfold shaRound
  split <;> rfl

theorem length_shaBlock (h : List Nat) (b : List Byte) : (shaBlock h b).length = h.length := by
  have hv : ∀ (l : List (Nat × Nat)) (v : List Nat), (l.foldl (fun v p => shaRound v p.1 p.2) v).length = v.length :=
    fun l v => foldl_keeps List.length (fun v p => length_shaRound v p.1 p.2) l v
  simp only [shaBlock, List.length_map, List.length_zip, hv, Nat.min_self]

theorem length_sha512 (bs : List Byte) : (sha512 bs).length = 64 := by
  have h8 : ∀ l : List (List Byte), (l.foldl shaBlock shaH).length = 8 := fun l => foldl_keeps List.length length_shaBlock l shaH
  simp [sha512, beBytes, List.length_flatMap, h8]

theorem slice0_digestWritten : Slice0.DigestWritten := by
  unfold Slice0.DigestWritten
  intro s n x _ hoff
  have h := State.lbytes_lstore_self (bs := sha512 (s.packed n x.tA)) (by rwa [length_sha512])
  rw [length_sha512] at h
  rw [List.flatMap_def]
  exact h

end Sys2Proof.Machine
end

section
/-! # What CDRN, SMV and the vector commands write (O23; spec/05 R113, R114; spec/07 R145-R149, R159-R162; spec/13 R285-R288) -/

namespace Sys2Proof.Machine

/-! ## CDRN and SMV -/

theorem slice0_drained : Slice0.Drained := by
  unfold Slice0.Drained
  intro s n x
  refine ⟨fun hop => ?_, ?_⟩
  · simp only [carveRun, hop, cdrnRun, List.flatMap_def, List.map_flatten, List.map_map, Function.comp_def]
  · simp only [smvRun, accumulate_eq_summed, List.flatMap_def, List.map_flatten, List.map_map, Function.comp_def]

/-! ## Lane operations -/

/-! The values of a flagged operation: its flags go another way. -/

@[simp] theorem fst_mapFlags (f : Val → Val × Flags) (a : List Val × Flags) : (mapFlags f a).1 = a.1.map (fun v => (f v).1) := by
  simp only [mapFlags, List.map_map, Function.comp_def]

@[simp] theorem fst_map1 (f : Val → Val × Flags) (a : List Val × Flags) : (map1 f a).1 = a.1.map (fun v => (f v).1) := fst_mapFlags f a

@[simp] theorem fst_map2 (f : Val → Val → Val × Flags) (a b : List Val × Flags) :
    (map2 f a b).1 = List.zipWith (fun u v => (f u v).1) a.1 b.1 := by
  simp only [map2, List.zip, List.map_zipWith]

@[simp] theorem fst_map3 (f : Val → Val → Val → Val × Flags) (a b c : List Val × Flags) :
    (map3 f a b c).1 = List.zipWith (fun u p => (f u p.1 p.2).1) a.1 (b.1.zip c.1) := by
  simp only [map3, List.zip, List.map_zipWith]

/-! The binary32 operations give the exact result rounded once (R114). -/

@[simp] theorem fst_addF32 (a b : Val) : (addF32 a b).1 = (toF32 (a.add b)).1 := rfl
@[simp] theorem fst_subF32 (a b : Val) : (subF32 a b).1 = (toF32 (a.sub b)).1 := rfl
@[simp] theorem fst_mulF32 (a b : Val) : (mulF32 a b).1 = (toF32 (a.mul b)).1 := rfl
@[simp] theorem fst_fmaF32 (a b c : Val) : (fmaF32 a b c).1 = (toF32 ((a.mul b).add c)).1 := rfl

theorem fst_actF32 (kind : Nat) (v : Val) : (actF32 kind v).1 = if kind = 0 then (maxF32 v .zero).1 else if kind = 1 then (geluF32 v).1
    else (divF32 v (addF32 .one (expF32 v.neg).1).1).1 := by
  match kind with
  | 0 => rfl
  | 1 => rfl
  | _ + 2 => rfl

theorem intCast_bit (b : Bool) : (bit b : Int) = if b then 1 else 0 := by cases b <;> rfl

/-- A pattern of 32 bits read as a signed number is the balanced remainder. -/
theorem signedOf_emod (a : Int) : signedOf 32 (a % (2 ^ 32 : Int)).toNat = a.bmod (2 ^ 32) := by
  have h := Int.emod_nonneg a (b := 2 ^ 32) (by decide)
  have h' := Int.emod_lt_of_pos a (b := 2 ^ 32) (by decide)
  have hle : (a % 2 ^ 32).toNat < 2 ^ 31 ↔ a % 2 ^ 32 < 2 ^ 31 := by omega
  simp only [signedOf, Int.bmod_def, hle]
  split <;> split <;> omega

section Vector
variable {s : State} {n : Nat} {x : UCmd}

/-- The FP32 elementwise instructions with one, two and three operands write the values of their lanes. -/
theorem fst_vecFloat_one {p : UOp × (UCmd → Val → Val)} (hp : p ∈ Slice0.vector1) (hop : x.op = p.1) : (vecRun s n x).1
    = (s.writeLane n false x.tD x.tSd (((s.loadF32 n x.tA x.tSa true).1.map (p.2 x)).map some)).1 := by
  simp only [Slice0.vector1, List.mem_cons, List.not_mem_nil, or_false] at hp
  rcases hp with rfl | rfl | rfl | rfl | rfl | rfl <;> simp only [vecRun, vecFloat, hop, State.putLane, fst_map1, fst_actF32, UCmd.kind]

theorem fst_vecFloat_two {p : UOp × (Val → Val → Val)} (hp : p ∈ Slice0.vector2) (hop : x.op = p.1) : (vecRun s n x).1
    = (s.writeLane n false x.tD x.tSd
        ((List.zipWith p.2 (s.loadF32 n x.tA x.tSa true).1 (s.loadF32 n x.tB x.tSb true).1).map some)).1 := by
  simp only [Slice0.vector2, List.mem_cons, List.not_mem_nil, or_false] at hp
  rcases hp with rfl | rfl | rfl | rfl | rfl <;> simp only [vecRun, vecFloat, hop, State.putLane, fst_map2] <;> rfl

theorem fst_vecInt {p : UOp × (UCmd → Int → Int → Int)} (hp : p ∈ Slice0.vectorInt) (hop : x.op = p.1) : (vecRun s n x).1
    = (s.writeLane n true x.tD x.tSd
        ((List.zipWith (p.2 x) (s.loadInt n x.tA x.tSa).1 (s.loadInt n x.tB x.tSb).1).map (fun v => some (Val.ofInt v)))).1 := by
  simp only [Slice0.vectorInt, List.mem_cons, List.not_mem_nil, or_false] at hp
  rcases hp with rfl | rfl | rfl <;> simp only [vecRun, vecInt, hop, State.putLane, signedOf_emod, intCast_bit, UCmd.kind, List.zip,
    List.map_zipWith]

/-! ## GB16 blocks -/

theorem State.history_of_no_record {t : Tens} (h : t.srecEn = false) (vs : List Val) (advance : Bool) : s.history n t vs advance = s :=
  if_neg (ne_true_of_eq_false h)

/-- Where nothing meets the adder nothing is put right afterwards. -/
theorem State.upsetDone_of_no_upset (h : s.red.upset = 0) (passed : Bool) : s.upsetDone passed = s := by
  have hself : { s with red := { s.red with upset := 0 } } = s := by rw [← h]
  simp [State.upsetDone, hself, h]

/-- The additions of a VGBA and the numbers of the checks that fail, 0 where they pass. -/
def gbaSums (as bs : List GBlk) : List GSum := (as.zip bs).map (fun p => gbAdd p.1 p.2)
def gbaCodes (upset : Nat) (sums : List GSum) : List Nat :=
  (sums.zip (List.range sums.length)).map (fun p => failedCheck (if p.2 = 0 then upset else 0) p.1)

/-- Additions that pass, with nothing that meets the adder. -/
theorem gbaCodes_of_pass {sums : List GSum} (h : ∀ g ∈ sums, failedCheck 0 g = 0) : ∀ c ∈ gbaCodes 0 sums, c = 0 := by
  intro c hc
  simp only [gbaCodes, ite_self, map_fst_zip_range (failedCheck 0)] at hc
  obtain ⟨g, hg, rfl⟩ := List.mem_map.1 hc
  exact h g hg

/-- Where every addition passes the blocks written are the sums. -/
theorem gbaOut_of_pass {as : List GBlk} {sums : List GSum} {codes : List Nat} (has : sums.length ≤ as.length) (hlen : sums.length ≤ codes.length)
    (h : ∀ c ∈ codes, c = 0) :
    (as.zip (sums.zip codes)).map (fun p => if p.2.2 = 0 then p.2.1.blk else failedBlk p.1) = sums.map GSum.blk := by
  have hpass : ∀ p ∈ as.zip (sums.zip codes), (if p.2.2 = 0 then p.2.1.blk else failedBlk p.1) = p.2.1.blk := fun p hp =>
    if_pos (h _ (List.of_mem_zip (List.of_mem_zip hp).2).2)
  calc (as.zip (sums.zip codes)).map (fun p => if p.2.2 = 0 then p.2.1.blk else failedBlk p.1)
      = ((as.zip (sums.zip codes)).map Prod.snd).map (fun q => q.1.blk) := by rw [List.map_congr_left hpass, List.map_map]; rfl
    _ = (sums.zip codes).map (fun q => q.1.blk) := by rw [List.map_snd_zip (by rw [List.length_zip]; omega)]
    _ = ((sums.zip codes).map Prod.fst).map GSum.blk := by rw [List.map_map]; rfl
    _ = sums.map GSum.blk := by rw [List.map_fst_zip hlen]

/-- A VGBA whose additions all pass writes their sums. -/
theorem fst_vecGba (hrec : x.tD.srecEn = false) (hup : s.red.upset = 0)
    (hok : ∀ g ∈ gbaSums (s.gblks n x.tA) (s.gblks n x.tB), failedCheck 0 g = 0) :
    (vecGba s n x).1 = s.putBlks n x.tD ((gbaSums (s.gblks n x.tA) (s.gblks n x.tB)).map GSum.blk) := by
  have hcodes := gbaCodes_of_pass hok
  have hlen : (gbaCodes 0 (gbaSums (s.gblks n x.tA) (s.gblks n x.tB))).length = (gbaSums (s.gblks n x.tA) (s.gblks n x.tB)).length := by
    simp [gbaCodes]
  have hout := gbaOut_of_pass (as := s.gblks n x.tA) (by simp [gbaSums]) hlen.ge hcodes
  simp only [gbaSums, gbaCodes] at hout hcodes ⊢
  simp only [vecGba, State.upsetDone_of_no_upset hup, State.history_of_no_record hrec, hup, hout]
  exact foldl_stays fun p hp => if_pos (hcodes _ (List.of_mem_zip hp).1)

end Vector

theorem slice0_vectorResults : Slice0.VectorResults := by
  unfold Slice0.VectorResults
  intro s n x
  refine ⟨fun p hp hop => fst_vecFloat_one hp hop, fun p hp hop => fst_vecFloat_two hp hop, fun hop => ?_, fun p hp hop => fst_vecInt hp hop,
    fun hop => ?_, fun hop ha hd hint => ?_, fun hop => ?_, fun hop => ?_, fun hop hrec => ?_, fun hop hrec hup hok => ?_⟩
  · simp only [vecRun, vecFloat, hop, State.putLane, fst_map3, fst_fmaF32]
  · simp only [vecRun, hop, vecRsum, State.putLane, List.map_map, Function.comp_def]
    rfl
  · simp only [vecRun, hop, vecCvt, if_neg hint, if_neg hd, State.loadCvt, if_neg ha, State.putLane]
  · simp only [vecRun, hop, State.putVals]
  · simp only [vecRun, hop, vecRes, State.putVals, List.map_map, Function.comp_def]
  · simp only [vecRun, hop, vecQuantise, State.history_of_no_record hrec]
  · simp only [vecRun, hop]
    rw [fst_vecGba hrec hup fun g hg => ?_, gbaSums, List.map_map]
    · rfl
    · obtain ⟨p, hp, rfl⟩ := List.mem_map.1 hg
      exact hok p hp

end Sys2Proof.Machine
end

section
/-! # The rows that the Groomer gives, and what its commands write (O23; spec/07 R150-R157) -/

namespace Sys2Proof.Machine

/-! ## Lists by index -/

theorem zip_range_eq_zipIdx {α : Type} {l : List α} {k : Nat} (h : l.length ≤ k) : l.zip (List.range k) = l.zipIdx := by
  refine List.ext_getElem (by simp [h]) fun i _ _ => by simp

/-- A list against its indices, by the index alone. -/
theorem zip_range_eq_map {α : Type} (l : List α) (d : α) : l.zip (List.range l.length) = (List.range l.length).map (fun j => (l.getD j d, j)) := by
  refine List.ext_getElem (by simp) fun i h _ => ?_
  have hi : i < l.length := by simpa using h
  simp [hi]

theorem zip_map_self {α β : Type} (f : α → β) (l : List α) : (l.map f).zip l = l.map (fun a => (f a, a)) := by
  simpa using List.zip_map' (f := f) (g := id) (l := l)

theorem map_zip_range_eq_zipWith {α β γ : Type} {F : α → Nat → γ} {G : α → β → γ} {xs : List α} {ys : List β} (hlen : ys.length = xs.length)
    (h : ∀ v i (hi : i < ys.length), F v i = G v ys[i]) : (xs.zip (List.range xs.length)).map (fun p => F p.1 p.2) = List.zipWith G xs ys := by
  refine List.ext_getElem (by simp [hlen]) fun i _ hi => ?_
  have hi : i < xs.length ∧ i < ys.length := by simpa using hi
  simp [h _ i hi.2]

theorem filterMap_unmasked {β : Type} (masked : Nat → Bool) (f : Nat → β) (l : List Nat) :
    l.filterMap (fun j => if masked j then none else some (f j)) = (l.filter (fun j => !masked j)).map f := by
  induction l with
  | nil => rfl
  | cons j l ih => cases h : masked j <;> simp [h, ih]

/-! ## Rows of a normalisation (R152, R153) -/

theorem fst_rn (v : Val) : (rn v).1 = (toF32 v).1 := rfl

/-- A normalised element of a row. -/
def normed (rms : Bool) (eps : Val) (xs : List Val) (v : Val) : Val :=
  (normElem rms (normStats rms eps xs).1.1 (normStats rms eps xs).2.1 v).1

section Norm
variable {rms : Bool} {eps : Val} {g b xs : List Val}

theorem gnrmRow_of_nan (h : xs.any Val.isNan = true) (gain bias : Option (List Val)) : gnrmRow rms eps gain bias xs = nanRow xs.length := if_pos h

theorem gnrmRow_out (h : xs.any Val.isNan = false) : (gnrmRow rms eps none none xs).out = xs.map (normed rms eps xs) := by
  simp only [gnrmRow, h, Bool.false_eq_true, if_false, List.map_map, Function.comp_def]
  exact map_fst_zip_range (normed rms eps xs) xs

theorem gnrmRow_out_gain (h : xs.any Val.isNan = false) (hg : g.length = xs.length) :
    (gnrmRow rms eps (some g) none xs).out = List.zipWith (fun v u => (toF32 ((normed rms eps xs v).mul u)).1) xs g := by
  simp only [gnrmRow, h, Bool.false_eq_true, if_false, List.map_map, Function.comp_def]
  refine map_zip_range_eq_zipWith (F := fun v i => (toF32 ((normed rms eps xs v).mul (g.getD i .zero))).1) hg fun v i hi => ?_
  rw [List.getD_eq_getElem _ _ hi]

theorem gnrmRow_out_bias (h : xs.any Val.isNan = false) (hg : g.length = xs.length) (hb : b.length = xs.length) :
    (gnrmRow rms eps (some g) (some b) xs).out
      = List.zipWith (fun v p => (toF32 (((normed rms eps xs v).mul p.1).add p.2)).1) xs (g.zip b) := by
  simp only [gnrmRow, h, Bool.false_eq_true, if_false, List.map_map, Function.comp_def]
  refine map_zip_range_eq_zipWith
    (F := fun v i => (toF32 (((normed rms eps xs v).mul (g.getD i .zero)).add (b.getD i .zero))).1) (by simp [hg, hb]) fun v i hi => ?_
  obtain ⟨hi, hi'⟩ : i < g.length ∧ i < b.length := by simpa using hi
  rw [List.getD_eq_getElem _ _ hi, List.getD_eq_getElem _ _ hi', List.getElem_zip]

theorem gnrmRow_r0 (h : xs.any Val.isNan = false) (gain bias : Option (List Val)) :
    (gnrmRow rms eps gain bias xs).r0 = (normStats rms eps xs).1.1 := by
  simp only [gnrmRow, h, Bool.false_eq_true, if_false]

theorem gnrmRow_r1 (h : xs.any Val.isNan = false) (gain bias : Option (List Val)) :
    (gnrmRow rms eps gain bias xs).r1 = (normStats rms eps xs).2.1 := by
  simp only [gnrmRow, h, Bool.false_eq_true, if_false]

end Norm

/-! ## Rows of a soft-maximum (R154) -/

section Softmax
variable {masked : Nat → Bool} {xs : List Val} {m : Val} {ms : List Val}

/-- The exponential of element `j` less the largest. -/
def expLess (xs : List Val) (top : Val) (j : Nat) : Val := (expF32 (toF32 ((xs.getD j .zero).sub top)).1).1

/-- The sum of the exponentials of the elements that are not masked. -/
def expSum (masked : Nat → Bool) (xs : List Val) (top : Val) : Val :=
  (toF32 (sumVals (((List.range xs.length).filter (fun j => !masked j)).map (expLess xs top)))).1

theorem live_eq : ((xs.zip (List.range xs.length)).filter (fun p => !masked p.2)).map Prod.fst
    = ((List.range xs.length).filter (fun j => !masked j)).map (fun j => xs.getD j .zero) := by
  simp only [zip_range_eq_map xs .zero, List.filter_map, List.map_map, Function.comp_def]

theorem fst_rn_sum (masked : Nat → Bool) (xs : List Val) (top : Val) :
    (rn (sumVals ((List.range xs.length).filterMap (fun j =>
      if masked j then none else some (if masked j then pureV .zero else andThen (rn ((xs.getD j .zero).sub top)) expF32).1)))).1
      = expSum masked xs top := by
  rw [expSum, ← filterMap_unmasked, fst_rn]
  congr 3
  refine List.filterMap_congr fun j _ => ?_
  cases masked j <;> rfl

theorem gsmxRow_of_masked (h : ∀ j < xs.length, masked j = true) : (gsmxRow masked xs).out = xs.map (fun _ => .zero) := by
  have hlive : ((List.range xs.length).filter (fun j => !masked j)).map (fun j => xs.getD j .zero) = [] := by
    simpa using h
  simp only [gsmxRow, live_eq, hlive, List.map_const']

theorem gsmxRow_of_live (hlive : ((List.range xs.length).filter (fun j => !masked j)).map (fun j => xs.getD j .zero) = m :: ms)
    (hnan : (m :: ms).any Val.isNan = false) :
    let top := ms.foldl (fun u v => (maxF32 u v).1) m
    (gsmxRow masked xs).out = (List.range xs.length).map (fun j => if masked j then .zero else (divF32 (expLess xs top j) (expSum masked xs top)).1)
      ∧ (gsmxRow masked xs).r0 = top ∧ (gsmxRow masked xs).r1 = (logF32 (expSum masked xs top)).1 := by
  simp only [gsmxRow, live_eq, hlive, hnan, Bool.false_eq_true, if_false]
  simp only [zip_range_eq_map xs .zero, List.map_map, Function.comp_def, zip_map_self, List.filterMap_map, fst_rn_sum]
  refine ⟨List.map_congr_left fun j _ => ?_, trivial, trivial⟩
  cases h : masked j <;> rfl

end Softmax

theorem slice0_groomerRows : Slice0.GroomerRows := by
  unfold Slice0.GroomerRows
  refine ⟨fun rms eps g b xs hn => ?_, fun rms eps g b xs hn => ?_, fun masked xs m ms hlive hnan => gsmxRow_of_live hlive hnan,
    fun masked xs h => gsmxRow_of_masked h⟩
  · cases rms with
    | false => exact ⟨gnrmRow_out hn, gnrmRow_out_gain hn, gnrmRow_out_bias hn, gnrmRow_r0 hn none none, gnrmRow_r1 hn none none⟩
    | true => exact ⟨gnrmRow_out hn, gnrmRow_out_gain hn, gnrmRow_out_bias hn, gnrmRow_r0 hn none none, gnrmRow_r1 hn none none⟩
  · rw [gnrmRow_of_nan hn, nanRow, List.map_const']

/-! ## Groomer commands -/

section Commands
variable {s : State} {n : Nat} {x : UCmd}

/-- Outputs and records of a forward command's rows, in the state that has td written. -/
theorem fst_groomStore (rows : List RowOut) (fl : Flags) :
    let w := (s.writeTens n x.tD x.tSd ((rows.map (·.out)).flatten.map some)).1
    let side := w.lstore n 2 (8 * x.recBase) ((rows.map statBytes).take (131072 - x.recBase)).flatten
    (x.stats = false → (groomStore s n x rows fl).1 = w)
      ∧ (x.stats = true → x.spillRows = 0 → (groomStore s n x rows fl).1 = side)
      ∧ (x.stats = true → x.spillRows ≠ 0 →
        (groomStore s n x rows fl).1 = snowPush side n x.ctx 1 ((rows.map statBytes).drop (131072 - x.recBase)).flatten) := by
  refine ⟨fun h => ?_, fun h hs => ?_, fun h hs => ?_⟩
  · simp only [groomStore, h, Bool.false_eq_true, if_false]
  · simp only [groomStore, h, if_true, if_pos hs]
  · simp only [groomStore, h, if_true, if_neg hs]

theorem rowOf_getD (rows : List (List (Val × Flags))) (k : Nat) : rowOf (rows.getD k []) = (rows.map rowOf).getD k [] :=
  (List.getD_map _ [] rowOf).symm

theorem gain_of_first (c : Bool) (rows : List (List (Val × Flags))) : (if c then none else some (rowOf ((if c then [] else rows.take 1).getD 0 [])))
    = if c then none else some ((rows.map rowOf).getD 0 []) := by
  cases c with
  | true => rfl
  | false => cases rows <;> rfl

/-- The rows of a forward command. -/
def fwdRows (s : State) (n : Nat) (x : UCmd) : List RowOut :=
  let a := (s.rowsF32 n x.tA x.tSa).map rowOf
  let tb := (s.rowsF32 n x.tB x.tSb).map rowOf
  if x.op = .gnrm then
    a.map (gnrmRow (x.ctl.getLsbD 0) (ofF32 (fieldOf x.ext 32 32)) (if x.ctl.getLsbD 3 then none else some (tb.getD 0 []))
      (if x.ctl.getLsbD 3 ∨ x.tB.n1 = 1 then none else some (tb.getD 1 [])))
  else a.zipIdx.map (fun p => gsmxRow (x.masked p.2) p.1)

/-- A forward command stores its rows. -/
theorem groomRun_fwd (hop : x.op = .gnrm ∨ x.op = .gsmx) : ∃ fl, groomRun s n x = groomStore s n x (fwdRows s n x) fl := by
  have hrun : groomRun s n x = groomFwd s n x := by rcases hop with h | h <;> simp only [groomRun, h]
  rw [hrun, groomFwd]
  refine ⟨_, congrArg (fun rows => groomStore s n x rows _) ?_⟩
  rcases hop with h | h
  · cases hc : x.ctl.getLsbD 3 <;>
      simp only [fwdRows, h, hc, rowOf_getD, Bool.false_eq_true, not_false_eq_true, and_true, true_or, false_or, if_true, if_false, List.map_map,
        Function.comp_def]
  · have hne : ¬ UOp.gsmx = .gnrm := by decide
    simp only [fwdRows, h, if_neg hne, zip_range_eq_zipIdx (Nat.le_refl _), List.zipIdx_map, List.map_map, Function.comp_def]
    rfl

theorem fst_groomRun_gsmxb (hop : x.op = .gsmxb) : (groomRun s n x).1 = (s.writeTens n x.tD x.tSd
    (((((s.rowsF32 n x.tA x.tSa).map rowOf).zip ((s.rowsF32 n x.tC x.tSc).map rowOf)).zipIdx.map
      (fun p => (gsmxbRow (x.masked p.2) p.1.1 p.1.2).out)).flatten.map some)).1 := by
  have hne : ¬ UOp.gsmxb = .gnrmb := by decide
  simp only [groomRun, hop, groomBwd, if_neg hne]
  rw [zip_range_eq_zipIdx (by simp), List.zip_map, List.zipIdx_map]
  simp only [List.map_map, Function.comp_def]
  rfl

theorem fst_groomRun_gnrmb (hop : x.op = .gnrmb) (hspill : x.spillRows = 0) : (groomRun s n x).1 = (s.writeTens n x.tD x.tSd
    (((((s.rowsF32 n x.tA x.tSa).map rowOf).zip ((s.rowsF32 n x.tC x.tSc).map rowOf)).zip (groomRecs s n x).2 |>.map
      (fun p => (gnrmbRow (x.ctl.getLsbD 0) (if x.ctl.getLsbD 3 then none else some (((s.rowsF32 n x.tB x.tSb).map rowOf).getD 0 []))
        p.2.1 p.2.2 p.1.1 p.1.2).out)).flatten.map some)).1 := by
  have hrecs : (groomRecs s n x).1 = s := by simp only [groomRecs, if_pos hspill]
  simp only [groomRun, hop, groomBwd, if_true, hrecs, gain_of_first]
  rw [List.zip_map, List.zip_map_left]
  simp only [List.map_map, Function.comp_def, Prod.map, id]

end Commands

theorem slice0_groomerResults : Slice0.GroomerResults := by
  unfold Slice0.GroomerResults
  intro s n x
  refine ⟨fun hop hst => ?_, fun hop hst hsp => ?_, fun hop hst hsp => ?_, fun hop => fst_groomRun_gsmxb hop, fun hop hsp => fst_groomRun_gnrmb hop hsp⟩ 
  all_goals obtain ⟨fl, hrun⟩ := groomRun_fwd (s := s) (n := n) hop
  all_goals rw [hrun]
  · exact (fst_groomStore (fwdRows s n x) fl).1 hst
  · exact (fst_groomStore (fwdRows s n x) fl).2.1 hst hsp
  · exact (fst_groomStore (fwdRows s n x) fl).2.2 hst hsp

/-- Settles O23, from what the Carve arrays leave in their stores, what CDRN, SMV, vector and Groomer commands write into td, the bytes of such a write,
and the digest. -/
theorem unitResults : Obligations.UnitResults :=
  ⟨slice0_zeroes, slice0_products, slice0_drained, slice0_vectorResults, slice0_groomerRows, slice0_groomerResults, slice0_rowsWritten,
    slice0_digestWritten⟩

end Sys2Proof.Machine
end


section
/-! # Slalom commands issue and end (O24; spec/08 R185, R186, R189; spec/09 R199) -/

namespace Sys2Proof.Machine

theorem exec_slm (i : IA) (s : State) : exec (.slm i) s = execSlm i s := by rfl
theorem exec_slalomDone (core : BitVec 10) (s : State) :
    exec (.slalomDone core) s = .next (s.unlessStopped core.toNat (slalomDone core.toNat)) := by rfl

/-! ## The issue of an SLM (R185, R186, R199) -/

section
variable {i : IA} {s : State} {off : Nat} {r : SlmRec}
  (hoff : ((s.ctx i.n i.k).sr i.a.toNat).toNat = off) (hr : slmRec s i.n i.k off = r)
  (hx : s.Executes i.n i.k i.pg i.pn (i.a.toNat :: (r.regs s).1) (r.regs s).2) (hl : i.legal false true false false true 0 = true)
include hoff hr hx hl

/-- A record that fails a check faults. -/
theorem exec_slm_of_fault {code addr : Nat} (h : slmFault s i.n i.k off = some (code, addr)) :
    exec (.slm i) s = .next (s.faultCtx i.n i.k code addr) := by
  subst hoff hr
  rw [exec_slm, execSlm, issue_executes hx hl]
  dsimp only
  rw [h]

/-- One that passes them is held for the directory, waits for room, or is placed, in that order. -/
theorem exec_slm_of_good (h : slmFault s i.n i.k off = none) :
    exec (.slm i) s = .next (if gatesHeld i.n (r.toGates (s.ctx i.n i.k) 0) s = true then snowAskDir i.n s
      else if (!slmRoom (s.core i.n) r (r.toGates (s.ctx i.n i.k) 0)) = true then
        s.makeWait i.n i.k (.queue (gateUnits r (r.toGates (s.ctx i.n i.k) 0)))
      else slmPlace i.n i.k i.pd.toNat r s) := by
  subst hoff hr
  rw [exec_slm, execSlm, issue_executes hx hl]
  dsimp only
  rw [h]

end

/-- What the first gate takes from the input ring before a command can begin. -/
def slmNeed (r : SlmRec) (gs : List Gate) : Nat :=
  if r.inEn then ((gs.head?).map (fun g => if g.ring.isSome then 0 else feedBytes g.cmd g.linkOp)).getD 0 else 0

/-- A command that is placed has written 0 to its predicate, is the youngest chain, and has its lists and gates in their queues. -/
theorem slmPlace_eq (n k pd : Nat) (r : SlmRec) (s : State) :
    slmPlace n k pd r s =
      let x := s.ctx n k
      let id := (s.core n).chainNo
      let gs := r.toGates x id
      let s1 := s.setCtx n k ((x.setPr pd false).adv 8)
      let ch : Chain := {
        id := id, gates := gs, ctx := k, inc := x.inc, pd := pd, inRing := (if r.inEn then some (x.hd r.inQ).ring else none),
        outRing := (if r.outEn then some (x.hd r.outQ).ring else none), need := slmNeed r gs }
      let s2 := s1.setCore n { s1.core n with
        chains := (s1.core n).chains ++ [ch], chainNo := id + 1, sq := (s1.core n).sq ++ r.lists x k id }
      (gs.foldl (fun st g => gatePut n (g.units.foldl (fun st u => st.push n u g.cmd) st) g) s2).settle n := rfl

/-! ## The end of a chain (R189) -/

/-- SLALOM_DONE of a core that runs ends the oldest chain that has handed out everything, if there is one. -/
theorem exec_slalomDone_of_going {core : BitVec 10} {s : State} (h : s.stoppedAt core.toNat = false) :
    exec (.slalomDone core) s = .next (slalomDone core.toNat s) := by
  rw [exec_slalomDone, State.unlessStopped_of_going h]

section
variable {n : Nat} {s : State} (hs : s.stoppedAt n = false)
include hs

theorem slalomDone_of_none_over (h : ((s.settle n).core n).chains.find? (fun c => c.over ((s.settle n).core n)) = none) :
    slalomDone n s = s.settle n := by
  rw [slalomDone, if_neg (ne_true_of_eq_false hs)]
  dsimp only
  rw [h]

theorem slalomDone_of_over {ch : Chain} (h : ((s.settle n).core n).chains.find? (fun c => c.over ((s.settle n).core n)) = some ch) :
    slalomDone n s = ((((((s.settle n).setFlags n ch.ctx ch.inc ch.flagsOf).setCore n
      ((((s.settle n).setFlags n ch.ctx ch.inc ch.flagsOf).core n).without ch.id)).wakeRoom n).complete n ch.ctx ch.inc ch.pd).settle n) := by
  rw [slalomDone, if_neg (ne_true_of_eq_false hs)]
  dsimp only
  rw [h]

end

/-- Settles O24, from the outcomes of an SLM's issue in their order and of SLALOM_DONE. -/
theorem slalomCommand : Obligations.SlalomCommand := by
  unfold Obligations.SlalomCommand
  refine ⟨?_, fun core s hs => ⟨fun hnone => ?_, fun ch hch => ?_⟩⟩
  · intro i s x off r gs hx hl
    refine ⟨fun code addr hf => ?_, fun hf hheld => ?_, fun hf hfree hfull => ?_, fun hf hfree hroom => ?_⟩
    · exact exec_slm_of_fault rfl rfl hx hl hf
    · rw [exec_slm_of_good rfl rfl hx hl hf, if_pos hheld, snowAskDir]
    · rw [exec_slm_of_good rfl rfl hx hl hf, if_neg (ne_true_of_eq_false hfree), if_pos (by rw [hfull]; rfl)]
    · refine ⟨slmNeed r (r.toGates x (s.core i.n).chainNo), ?_⟩
      rw [exec_slm_of_good rfl rfl hx hl hf, if_neg (ne_true_of_eq_false hfree), if_neg (by rw [hroom]; exact Bool.false_ne_true), slmPlace_eq]
  · rw [exec_slalomDone_of_going hs, slalomDone_of_none_over hs hnone]
  · rw [exec_slalomDone_of_going hs, slalomDone_of_over hs hch]

end Sys2Proof.Machine
end

section
/-! # Groups of registers and one-bit fields: the rules that plans, tables and jobs share (O51, O52; spec/19) -/

namespace Sys2Proof.Machine

/-! ## Groups of registers -/

theorem length_pieces {α : Type} (k n : Nat) (l : List α) : (pieces k n l).length = n := by
  induction n generalizing l with
  | zero => rfl
  | succ n ih => rw [pieces, List.length_cons, ih]

theorem length_wordsOf (bs : List Byte) : (wordsOf bs).length = bs.length / 8 := by rw [wordsOf, List.length_map, length_pieces]

/-- A group that is written keeps what one written register keeps. -/
theorem State.setGroup_keeps {β : Type} (g : State → β) (h : ∀ (s : State) (a : Nat) (v : W64), g (s.setReg a v) = g s) (s : State) (a : Nat)
    (vs : List W64) : g (s.setGroup a vs) = g s := by
  induction vs generalizing s a with
  | nil => rfl
  | cons v vs ih => exact (ih _ _).trans (h s a v)

/-- Words below a group that is written, and words past its end, keep their value. -/
theorem State.reg_setGroup_apart (s : State) {a b : Nat} {vs : List W64} (h : b < a ∨ a + 8 * vs.length ≤ b) :
    (s.setGroup a vs).reg b = s.reg b := by
  induction vs generalizing s a with
  | nil => rfl
  | cons v vs ih =>
    rw [List.length_cons] at h
    rw [State.setGroup, ih _ (by omega), State.reg_setReg, if_neg (by omega)]

/-- A group reads back what was written to it. -/
theorem State.group_setGroup (s : State) (a : Nat) (vs : List W64) : (s.setGroup a vs).group a vs.length = vs := by
  induction vs generalizing s a with
  | nil => rfl
  | cons v vs ih =>
    have hhead : (s.setGroup a (v :: vs)).reg a = v := by
      rw [State.setGroup, State.reg_setGroup_apart _ (.inl (by omega)), State.reg_setReg, if_pos rfl]
    have htail : (List.range vs.length).map (fun k => ((s.setReg a v).setGroup (a + 8) vs).reg (a + 8 * (k + 1))) = vs := by
      simpa only [State.group, Nat.mul_add, Nat.add_assoc, Nat.add_comm, Nat.mul_one] using ih (s.setReg a v) (a + 8)
    rw [State.group, List.length_cons, List.range_succ_eq_map, List.map_cons, List.map_map]
    exact congrArg₂ List.cons hhead htail

/-! ## One-bit fields -/

theorem State.flag_setFld_bits (s : State) (f g : Fld) (v : Nat) (h : g.lo + g.w ≤ f.lo ∨ f.lo + f.w ≤ g.lo) : (s.setFld f v).flag g = s.flag g := by
  rw [State.flag, State.flag, State.fld_setFld_bits s f g v h]

theorem State.flag_setFld_addr (s : State) (f g : Fld) (v : Nat) (h : g.addr ≠ f.addr) : (s.setFld f v).flag g = s.flag g := by
  rw [State.flag, State.flag, State.fld_setFld_addr s f g v h]

theorem State.flag_congr {s t : State} {f : Fld} (h : t.reg f.addr = s.reg f.addr) : t.flag f = s.flag f := by
  rw [State.flag, State.flag, State.fld_congr h]

end Sys2Proof.Machine
end

section
/-! # The gradient plan, the chain tables and incoming blocks (O52; spec/09 R210, R211; spec/13 R295) -/

namespace Sys2Proof.Machine

theorem exec_redPlanLoad (v : W64) (s : State) : exec (.redPlanLoad v) s = .next (if v.getLsbD 0 then gradPlanLoad s else s) := by rfl
theorem exec_redChainArm (v : W64) (s : State) : exec (.redChainArm v) s = .next (if v.getLsbD 0 then chainArm s else s) := by rfl

/-! ## The checks of a plan (R210, R211) -/

theorem somePair_eq_false_iff {α : Type} (t : α → α → Bool) (l : List α) :
    somePair t l = false ↔ l.Pairwise (fun x y => t x y = false) := by
  induction l with
  | nil => simp [somePair]
  | cons x xs ih => simp [somePair, ih]

/-- The entries of the plan in memory. -/
def State.planRead (s : State) : List (Nat × GEnt × Bool × Bool) :=
  (List.range (s.fld F.RED_PLAN_LEN)).map (readGEnt s (s.fld F.RED_PLAN_BASE))

/-- The trainable ones of a list of entries. -/
def trainable (l : List (Nat × GEnt × Bool × Bool)) : List GEnt := (l.filter (fun x => x.2.2.1)).map (fun x => x.2.1)

/-- Two entries of one tensor. -/
def sameTensor (x y : Nat × GEnt × Bool × Bool) : Bool := decide (x.1 = y.1)

/-- Two entries that share a bucket of a layer. -/
def GEnt.overlaps (a b : GEnt) : Bool := decide (a.layer = b.layer ∧ a.first < b.first + b.count ∧ b.first < a.first + a.count)

/-- An entry that no plan in order holds. -/
def State.entryBad (s : State) (x : Nat × GEnt × Bool × Bool) : Bool :=
  !x.2.2.2 || decide (s.fld F.RED_OWNER_LEN ≤ x.2.1.owner ∨ x.2.1.elems = 0)
    || (if x.2.2.1 then decide (x.2.1.count = 0 ∨ blocksOf x.2.1.elems < x.2.1.count ∨ 65536 < ceilDiv (blocksOf x.2.1.elems) x.2.1.count)
      else x.2.1.count ≠ 0)

theorem State.entryBad_eq_false_iff (s : State) (x : Nat × GEnt × Bool × Bool) : s.entryBad x = false ↔
    x.2.2.2 = true ∧ x.2.1.owner < s.fld F.RED_OWNER_LEN ∧ 0 < x.2.1.elems
      ∧ (x.2.2.1 = false → x.2.1.count = 0)
      ∧ (x.2.2.1 = true → 0 < x.2.1.count ∧ x.2.1.count ≤ blocksOf x.2.1.elems ∧ ceilDiv (blocksOf x.2.1.elems) x.2.1.count ≤ 65536) := by
  cases htrain : x.2.2.1 <;> simp [State.entryBad, htrain, Nat.pos_iff_ne_zero, and_assoc]

/-- A plan without entries, or one that leaves edge memory, is no plan. -/
theorem gradPlanCheck_of_outside {s : State} (h : ¬ (0 < s.fld F.RED_PLAN_LEN ∧ s.fld F.RED_PLAN_BASE + 32 * s.fld F.RED_PLAN_LEN ≤ s.edgeSize)) :
    gradPlanCheck s = .inr E.PLAN_INVALID := by
  simp [gradPlanCheck, decide_eq_false h, somePair]

section
variable {s : State} (hin : 0 < s.fld F.RED_PLAN_LEN ∧ s.fld F.RED_PLAN_BASE + 32 * s.fld F.RED_PLAN_LEN ≤ s.edgeSize)
include hin

/-- The checks of a plan that lies in edge memory, in their order. -/
theorem gradPlanCheck_of_inside : gradPlanCheck s =
    if somePair sameTensor s.planRead then .inr E.TIED_WEIGHT
    else if s.planRead.any s.entryBad || somePair GEnt.overlaps (trainable s.planRead) then .inr E.PLAN_INVALID
    else .inl (trainable s.planRead) := by
  simp only [gradPlanCheck, decide_eq_true hin, if_true, Bool.not_true, Bool.false_or]
  rfl

/-- Two entries with one identifier refuse the plan. -/
theorem gradPlanCheck_tied {i j : Nat} (hij : i < j) (hj : j < s.fld F.RED_PLAN_LEN)
    (he : (readGEnt s (s.fld F.RED_PLAN_BASE) i).1 = (readGEnt s (s.fld F.RED_PLAN_BASE) j).1) : gradPlanCheck s = .inr E.TIED_WEIGHT := by
  have htied : somePair sameTensor s.planRead = true := by
    by_contra hno
    have hpair := List.pairwise_iff_getElem.1 ((somePair_eq_false_iff _ _).1 (Bool.eq_false_of_not_eq_true hno)) i j
      (by simp [State.planRead]; omega) (by simp [State.planRead, hj]) hij
    simp [State.planRead, sameTensor, he] at hpair
  rw [gradPlanCheck_of_inside hin, if_pos htied]

end

theorem gradPlanCheck_code {s : State} {code : Nat} (h : gradPlanCheck s = .inr code) : code = E.TIED_WEIGHT ∨ code = E.PLAN_INVALID := by
  by_cases hin : 0 < s.fld F.RED_PLAN_LEN ∧ s.fld F.RED_PLAN_BASE + 32 * s.fld F.RED_PLAN_LEN ≤ s.edgeSize
  · rw [gradPlanCheck_of_inside hin] at h
    split at h
    · exact .inl (Sum.inr.inj h).symm
    · split at h
      · exact .inr (Sum.inr.inj h).symm
      · cases h
  · rw [gradPlanCheck_of_outside hin] at h
    exact .inr (Sum.inr.inj h).symm

/-- A plan in order gives its trainable entries, and every entry of it is sound. -/
theorem gradPlanCheck_ok {s : State} {l : List GEnt} (h : gradPlanCheck s = .inl l) :
    l = trainable s.planRead ∧ ∀ x ∈ s.planRead, s.entryBad x = false := by
  by_cases hin : 0 < s.fld F.RED_PLAN_LEN ∧ s.fld F.RED_PLAN_BASE + 32 * s.fld F.RED_PLAN_LEN ≤ s.edgeSize
  · rw [gradPlanCheck_of_inside hin] at h
    split at h
    · cases h
    · split at h
      · cases h
      · next hgood =>
        rw [Bool.or_eq_true, not_or, Bool.not_eq_true, List.any_eq_false] at hgood
        exact ⟨(Sum.inl.inj h).symm, fun x hx => Bool.eq_false_of_not_eq_true (hgood.1 x hx)⟩
  · rw [gradPlanCheck_of_outside hin] at h
    cases h

/-! ## The load of a plan (R211) -/

theorem gradPlanLoad_loaded {s : State} (h : s.jobLoaded = true) : gradPlanLoad s = s := if_pos h

theorem gradPlanLoad_refused {s : State} {code : Nat} (hj : s.jobLoaded = false) (h : gradPlanCheck s = .inr code) :
    gradPlanLoad s = (s.setFld F.RED_PLAN_STS_code code).raiseDev EV.PLAN_REFUSED (leBytes 2 code) := by
  rw [gradPlanLoad, if_neg (ne_true_of_eq_false hj), h]

/-- The words of a digest of the plan in memory. -/
def State.planDigest (s : State) : List W64 :=
  (pieces 8 8 (sha512 (s.mem.bytes (s.fld F.RED_PLAN_BASE) (32 * s.fld F.RED_PLAN_LEN)))).map (fun b => BitVec.ofNat 64 (leNat b))

theorem State.length_planDigest (s : State) : s.planDigest.length = 8 := by rw [State.planDigest, List.length_map, length_pieces]

theorem gradPlanLoad_installed {s : State} {l : List GEnt} (hj : s.jobLoaded = false) (h : gradPlanCheck s = .inl l) :
    gradPlanLoad s = ((s.setRed { s.red with plan := l }).setFld F.RED_PLAN_STS_code 0).setGroup F.RED_PLAN_STS_digest_w1.addr s.planDigest := by
  rw [gradPlanLoad, if_neg (ne_true_of_eq_false hj), h]
  rfl

theorem slice0_gradientPlan : Slice0.GradientPlan := by
  unfold Slice0.GradientPlan
  intro v s
  dsimp only
  rw [exec_redPlanLoad]
  refine ⟨fun h => ?_, fun hv hj => ⟨fun code hc => ?_, fun l hl => ⟨_, rfl, ?_⟩⟩, fun code => gradPlanCheck_code, gradPlanCheck_of_outside,
    fun hin i j => gradPlanCheck_tied hin, fun l hl => ⟨(gradPlanCheck_ok hl).1, fun e he => ?_⟩⟩
  · rcases h with h | h
    · rw [if_neg (ne_true_of_eq_false h)]
    · rw [gradPlanLoad_loaded h, ite_self]
  · rw [if_pos hv, gradPlanLoad_refused hj hc]
  · rw [if_pos hv, gradPlanLoad_installed hj hl]
    refine ⟨State.setGroup_keeps State.red (fun _ _ _ => rfl) _ _ _, ?_, ?_, State.setGroup_keeps State.mem (fun _ _ _ => rfl) _ _ _,
      State.setGroup_keeps State.cores (fun _ _ _ => rfl) _ _ _, State.setGroup_keeps State.events (fun _ _ _ => rfl) _ _ _⟩
    · rw [State.fld_congr (State.reg_setGroup_apart _ (.inl (by decide))), State.fld_setFld _ _ _ (by decide)]
      rfl
    · have hread := State.group_setGroup ((s.setRed { s.red with plan := l }).setFld F.RED_PLAN_STS_code 0) F.RED_PLAN_STS_digest_w1.addr s.planDigest
      rwa [State.length_planDigest] at hread
  · exact (s.entryBad_eq_false_iff _).1 ((gradPlanCheck_ok hl).2 _ (List.mem_map.2 ⟨e, List.mem_range.2 he, rfl⟩))

/-! ## Arming the tables (R295) -/

/-- Where entry `c` of the bank not in use lies. -/
def State.spareEntry (s : State) (c : Nat) : Nat := s.fld F.RED_CHAIN_BASE * 2 ^ 13 + (1 - s.fld F.RED_STS_bank) * 0x2000 + 32 * c

/-- Where owner `k` of the bank not in use lies. -/
def State.spareOwner (s : State) (k : Nat) : Nat := s.fld F.RED_OWNER_BASE * 2 ^ 19 + (1 - s.fld F.RED_STS_bank) * 0x80000 + 8 * k

/-- The tables of the bank not in use are in order: no reserved bit of a chain entry or of an owner is set, and the valid entries have their neighbours. -/
def State.TablesGood (s : State) : Prop :=
  (∀ c, c < 256 → s.mem.nat (s.spareEntry c) 1 < 2 ∧ s.mem.nat (s.spareEntry c + 1) 1 = 0 ∧ s.mem.nat (s.spareEntry c + 16) 16 = 0)
    ∧ (∀ k, k < s.fld F.RED_OWNER_LEN → s.mem.nat (s.spareOwner k) 4 < 2 ^ 22 ∧ s.mem.nat (s.spareOwner k + 4) 4 < 2 ^ 22)
    ∧ (∀ c, c < 256 → (s.chainEnt (1 - s.fld F.RED_STS_bank) c).valid = true → (s.chainEnt (1 - s.fld F.RED_STS_bank) c).ok s = true)

/-- An arm is refused. -/
def armRefused (code : Nat) (s : State) : State :=
  ((s.setRed { s.red with armOk := false }).setFld F.RED_STS_code code).raiseDev EV.RED_REFUSED (leBytes 2 code)

theorem State.chainEnt_clean (s : State) (c : Nat) : (s.chainEnt (1 - s.fld F.RED_STS_bank) c).clean = true ↔
    s.mem.nat (s.spareEntry c) 1 < 2 ∧ s.mem.nat (s.spareEntry c + 1) 1 = 0 ∧ s.mem.nat (s.spareEntry c + 16) 16 = 0 := by
  unfold State.chainEnt
  dsimp only
  rw [← State.spareEntry, decide_eq_true_iff, Nat.add_zero]

/-- The checks of the tables that an arm makes. -/
def State.tablesChecked (s : State) : Bool :=
  (List.range (s.fld F.RED_OWNER_LEN)).all (fun k => decide (s.mem.nat (s.spareOwner k) 4 < 2 ^ 22 ∧ s.mem.nat (s.spareOwner k + 4) 4 < 2 ^ 22))
    && ((List.range 256).map (s.chainEnt (1 - s.fld F.RED_STS_bank))).all (fun e => e.clean && (!e.valid || e.ok s))

theorem State.tablesChecked_iff (s : State) : s.tablesChecked = true ↔ s.TablesGood := by
  simp only [State.tablesChecked, State.TablesGood, Bool.and_eq_true, List.all_eq_true, List.mem_map, List.mem_range, decide_eq_true_eq,
    forall_exists_index, and_imp, forall_apply_eq_imp_iff₂, State.chainEnt_clean, Bool.or_eq_true, Bool.not_eq_true']
  constructor
  · intro ⟨howners, hents⟩
    exact ⟨fun c hc => (hents c hc).1, howners, fun c hc hvalid => (hents c hc).2.resolve_left (by simp [hvalid])⟩
  · intro ⟨hclean, howners, hok⟩
    refine ⟨howners, fun c hc => ⟨hclean c hc, ?_⟩⟩
    cases hvalid : (s.chainEnt (1 - s.fld F.RED_STS_bank) c).valid
    · exact .inl rfl
    · exact .inr (hok c hc hvalid)

theorem chainArm_eq (s : State) : chainArm s =
    if !s.tablesChecked then armRefused E.RED_CHAIN_CFG s
    else if s.fld F.RED_RX_SIZE < 2 * 68 * s.red.layerMax then armRefused E.RED_RX_SMALL s
    else ((s.setRed { s.red with armed := s.groupBytes F.RED_MEMB_DIGEST_w0 8, armOk := true }).setFld F.RED_STS_code 0).setFlag F.RED_STS_armed true := by
  rw [State.tablesChecked, Bool.not_and]
  rfl

/-- A neighbour is another node that a group of OFP links leads to (log 70). -/
theorem chainNode_iff (s : State) (n : Nat) : chainNode s n = true ↔ n < 2 ^ 22 ∧ s.isSelf n = false ∧ ∃ g, s.route n = .group g := by
  cases hroute : s.route n <;> simp [chainNode, hroute]

theorem ChainEnt.ok_iff (s : State) (e : ChainEnt) : e.ok s = true ↔ (1 ≤ e.len ∧ e.len ≤ 4096 ∧ e.pos < e.len)
    ∧ (e.pos = 0 ∨ chainNode s e.up = true) ∧ (e.pos + 1 = e.len ∨ chainNode s e.down = true) := by
  simp only [ChainEnt.ok, Bool.and_eq_true, Bool.or_eq_true, decide_eq_true_eq, and_assoc]

/-! ## The bank of a step (R295) -/

/-- What a step leaves of RED, in registers that an armed bank does not lie in. -/
theorem redStepStart_eq (s : State) : ∃ (r : Red) (u : State), redStepStart s = (((u.setRed r).setReg F.RED_PSN_STS_count.addr 0).setReg
      F.RED_PSN_STS_layer.addr 0).setReg F.RED_PSN_STS_block.addr 0 ∧ r.mdig = u.red.mdig
    ∧ u = if s.flag F.RED_STS_armed then
        ((s.setRed { s.red with mdig := s.red.armed }).setFld F.RED_STS_bank (1 - s.fld F.RED_STS_bank)).setFlag F.RED_STS_armed false
      else s := ⟨_, _, rfl, rfl, rfl⟩

theorem redStepStart_bank (s : State) : (redStepStart s).red.mdig = (if s.flag F.RED_STS_armed then s.red.armed else s.red.mdig)
    ∧ (redStepStart s).fld F.RED_STS_bank = if s.flag F.RED_STS_armed then 1 - s.fld F.RED_STS_bank else s.fld F.RED_STS_bank := by
  obtain ⟨r, u, he, hdig, hu⟩ := redStepStart_eq s
  have hbank : (redStepStart s).fld F.RED_STS_bank = u.fld F.RED_STS_bank := by
    rw [he]
    refine State.fld_congr ?_
    rw [State.reg_setReg, if_neg (by decide), State.reg_setReg, if_neg (by decide), State.reg_setReg, if_neg (by decide)]
    rfl
  have hred : (redStepStart s).red.mdig = u.red.mdig := by rw [he]; exact hdig
  rw [hbank, hred, hu]
  split
  · refine ⟨rfl, ?_⟩
    rw [State.setFlag, State.fld_setFld_bits _ _ _ _ (.inl (by decide)), State.fld_setFld _ _ _ (by decide)]
    exact Nat.mod_eq_of_lt (Nat.lt_of_le_of_lt (Nat.sub_le ..) (by decide))
  · exact ⟨rfl, rfl⟩

theorem slice0_tablesArm : Slice0.TablesArm := by
  unfold Slice0.TablesArm
  intro v s
  dsimp only
  rw [exec_redChainArm]
  refine ⟨fun hv => ?_, fun hv hbad => ?_, fun hv hgood hsmall => ?_, fun hv hgood hroom => ⟨_, rfl, ?_⟩, ChainEnt.ok_iff s, chainNode_iff s,
    fun ha => ?_, fun ha => ?_⟩
  · rw [if_neg (ne_true_of_eq_false hv)]
  · have hno : (!s.tablesChecked) = true := by rw [Bool.not_eq_true', ← Bool.not_eq_true, State.tablesChecked_iff]; exact hbad
    rw [if_pos hv, chainArm_eq, if_pos hno]
    rfl
  · rw [if_pos hv, chainArm_eq, if_neg (by simpa using (s.tablesChecked_iff).2 hgood), if_pos hsmall]
    rfl
  · rw [if_pos hv, chainArm_eq, if_neg (by simpa using (s.tablesChecked_iff).2 hgood), if_neg (by omega)]
    refine ⟨rfl, State.flag_setFlag _ _ _ (by decide) (by decide), ?_, ?_, rfl, rfl⟩
    · rw [State.setFlag, State.fld_setFld_bits _ _ _ _ (.inl (by decide)), State.fld_setFld _ _ _ (by decide)]
      rfl
    · rw [State.setFlag, State.fld_setFld_bits _ _ _ _ (.inl (by decide)), State.fld_setFld_bits _ _ _ _ (.inr (by decide))]
      rfl
  · have hbank := redStepStart_bank s
    rwa [if_pos ha, if_pos ha] at hbank
  · have hbank := redStepStart_bank s
    rwa [if_neg (ne_true_of_eq_false ha), if_neg (ne_true_of_eq_false ha)] at hbank

/-! ## Incoming blocks (R295) -/

theorem slice0_blocksArrive : Slice0.BlocksArrive := by
  unfold Slice0.BlocksArrive
  intro layer bucket chain kind no upset data s
  dsimp only
  have hstale : (leNat (data.take 7) ≠ s.fld F.CKPT_STEP_step % 2 ^ 56 ∨ leNat ((data.drop 7).take 1) ≠ s.fld F.RED_EPOCH)
      ↔ ¬ (leNat (data.take 7) = s.fld F.CKPT_STEP_step % 2 ^ 56 ∧ leNat ((data.drop 7).take 1) = s.fld F.RED_EPOCH) := by
    rw [not_and_or]
  refine ⟨fun hf => ?_, fun hf hd => ?_, fun hf hd hr => ?_, fun hf hd hr hu => ?_, fun hf hd hr hu => ?_⟩
  · rw [gbkArrive, if_pos (hstale.2 hf)]
  · rw [gbkArrive, if_neg fun h => hstale.1 h hf, if_pos hd]
  · rw [gbkArrive, if_neg fun h => hstale.1 h hf, if_neg (ne_true_of_eq_false hd)]
    exact if_pos (Nat.lt_of_not_le hr)
  · rw [gbkArrive, if_neg fun h => hstale.1 h hf, if_neg (ne_true_of_eq_false hd), if_neg hu]
    exact if_neg (Nat.not_lt_of_le hr)
  · rw [gbkArrive, if_neg fun h => hstale.1 h hf, if_neg (ne_true_of_eq_false hd), if_pos hu]
    exact if_neg (Nat.not_lt_of_le hr)

/-- Settles O52, from the checks and the load of a plan, the arming of the tables and the step that takes them, and the arrival of blocks. -/
theorem gradientTables : Obligations.GradientTables := ⟨slice0_gradientPlan, slice0_tablesArm, slice0_blocksArrive⟩

end Sys2Proof.Machine
end

section
/-! # Jobs and their members (O51; spec/12 R263, R274, R277-R281; spec/09 R205; spec/17 R403; spec/18 R418; spec/19 R429, R431) -/

namespace Sys2Proof.Machine

theorem exec_wstreamJobGo (v : W64) (s : State) : exec (.wstreamJobGo v) s = .next (jobGo v s) := by rfl
theorem exec_wstreamJobEnd (v : W64) (s : State) : exec (.wstreamJobEnd v) s = .next (jobCtl v s) := by rfl
theorem exec_jobJoinCheck (p : JoinRec) (s : State) : exec (.jobJoinCheck p) s = .next (jobJoin p s) := by rfl
theorem exec_joinRecordRefresh (s : State) : exec .joinRecordRefresh s =
    .next (if s.isSelf s.rootNode then s.setWs { s.ws with joinTime := s.joinTime } else s) := by rfl
theorem exec_memberLeaveRequest (node : BitVec 22) (leave : Bool) (s : State) :
    exec (.memberLeaveRequest node leave) s = .next (memberRequest node.toNat leave s) := by rfl

/-! ## Run-out (R418, R419) -/

theorem State.runout_true {s : State} (h : 2 ≤ s.fld F.DEV_RUNOUT_STS_stage) : s.runout = true := decide_eq_true h
theorem State.runout_false {s : State} (h : s.fld F.DEV_RUNOUT_STS_stage < 2) : s.runout = false := decide_eq_false (Nat.not_le.2 h)

/-! ## A start (R277, R279, R429) -/

theorem jobFields_cores (v : W64) (s : State) : (jobFields v s).fld F.WSTREAM_JOB_cores = fieldOf v 0 10 := by
  rw [jobFields, State.setFlag, State.fld_setFld_bits _ _ _ _ (.inl (by decide))]
  exact State.fld_setFld_fieldOf s F.WSTREAM_JOB_cores v 0 (by decide)

theorem jobFields_half (v : W64) (s : State) : (jobFields v s).flag F.WSTREAM_JOB_half = v.getLsbD 16 :=
  State.flag_setFlag _ _ _ (by decide) (by decide)

theorem jobFields_id (v : W64) (s : State) : (jobFields v s).fld F.WSTREAM_JOB_job_id = s.fld F.WSTREAM_JOB_job_id := by
  rw [jobFields, State.setFlag, State.fld_setFld_addr _ _ _ _ (by decide), State.fld_setFld_addr _ _ _ _ (by decide)]

theorem jobGo_fields {v : W64} (h : v.getLsbD 63 = false) (s : State) :
    jobGo v s = if s.runout then s.setFld F.WSTREAM_JOB_STS_code E.RUNOUT_ACTIVE else jobFields v s := by
  rw [jobGo, h]
  rfl

section
variable {v : W64} {s : State} (hgo : v.getLsbD 63 = true)
include hgo

theorem jobGo_staged (h : s.lodge.staged ≠ none) : jobGo v s = s.raiseDev EV.PRES_BLOCK [] := by
  rw [jobGo, hgo, if_neg (by decide), if_pos (Option.isSome_iff_ne_none.2 h)]

variable (hstaged : s.lodge.staged = none)
include hstaged

/-- With no presence command pending, Run-out and a job that is there refuse a start. -/
theorem jobGo_unstaged : jobGo v s =
    if s.runout then s.setFld F.WSTREAM_JOB_STS_code E.RUNOUT_ACTIVE
    else if s.jobLoaded || s.flag F.WSTREAM_JOB_STS_starting then s.setFld F.WSTREAM_JOB_STS_code E.LOAD_PLAN_INVALID
    else if (jobFields v s).fld F.DEV_BOOT_STS_stage ≠ 9 ∨ (jobFields v s).flag F.DEV_MODE_STS_no_compute then jobFields v s
    else if !streamsValid (jobFields v s) then startFails E.LOAD_PLAN_INVALID (jobFields v s)
    else if (jobFields v s).flag F.WSTREAM_JOB_CTL_route_reuse then
      if (jobFields v s).ws.normal then fetchOn ((jobBegin (jobFields v s)).setWs { (jobBegin (jobFields v s)).ws with source := some 4 })
      else startFails E.ROUTE_REUSE (jobFields v s)
    else jobBegin (jobFields v s) := by
  rw [jobGo, hgo, if_neg (by decide), hstaged, if_neg (by decide)]

variable (hrun : s.fld F.DEV_RUNOUT_STS_stage < 2)
include hrun

theorem jobGo_busy (h : s.jobLoaded = true ∨ s.flag F.WSTREAM_JOB_STS_starting = true) :
    jobGo v s = s.setFld F.WSTREAM_JOB_STS_code E.LOAD_PLAN_INVALID := by
  rw [jobGo_unstaged hgo hstaged, if_neg (ne_true_of_eq_false (State.runout_false hrun)), if_pos (Bool.or_eq_true_iff.2 h)]

variable (hidle : ¬ (s.jobLoaded = true ∨ s.flag F.WSTREAM_JOB_STS_starting = true))
include hidle

theorem jobGo_unfit (h : (jobFields v s).fld F.DEV_BOOT_STS_stage ≠ 9 ∨ (jobFields v s).flag F.DEV_MODE_STS_no_compute = true) :
    jobGo v s = jobFields v s := by
  rw [jobGo_unstaged hgo hstaged, if_neg (ne_true_of_eq_false (State.runout_false hrun)), if_neg (mt Bool.or_eq_true_iff.1 hidle), if_pos h]

/-- A start that nothing holds back turns on the stream entries and the reuse of the route. -/
theorem jobGo_fit (h : ¬ ((jobFields v s).fld F.DEV_BOOT_STS_stage ≠ 9 ∨ (jobFields v s).flag F.DEV_MODE_STS_no_compute = true)) :
    jobGo v s =
      if !streamsValid (jobFields v s) then startFails E.LOAD_PLAN_INVALID (jobFields v s)
      else if (jobFields v s).flag F.WSTREAM_JOB_CTL_route_reuse then
        if (jobFields v s).ws.normal then fetchOn ((jobBegin (jobFields v s)).setWs { (jobBegin (jobFields v s)).ws with source := some 4 })
        else startFails E.ROUTE_REUSE (jobFields v s)
      else jobBegin (jobFields v s) := by
  rw [jobGo_unstaged hgo hstaged, if_neg (ne_true_of_eq_false (State.runout_false hrun)), if_neg (mt Bool.or_eq_true_iff.1 hidle), if_neg h]

end

/-! ## What a start that begins holds (R277, R279, R429) -/

theorem jobBegin_starting (s : State) : (jobBegin s).flag F.WSTREAM_JOB_STS_starting = true := State.flag_setFlag _ _ _ (by decide) (by decide)

theorem jobBegin_ready (s : State) : (jobBegin s).flag F.WSTREAM_JOB_STS_ready = false :=
  (State.flag_setFld_bits _ F.WSTREAM_JOB_STS_starting _ _ (.inl (by decide))).trans (State.flag_setFlag _ _ _ (by decide) (by decide))

theorem jobBegin_code (s : State) : (jobBegin s).fld F.WSTREAM_JOB_STS_code = 0 :=
  (State.fld_setFld_bits _ F.WSTREAM_JOB_STS_starting _ _ (.inr (by decide))).trans
    ((State.fld_setFld_bits _ F.WSTREAM_JOB_STS_ready _ _ (.inr (by decide))).trans (State.fld_setFld _ _ _ (by decide)))

/-- The arguments of a start are those that the registers hold when it begins. -/
theorem jobBegin_jobArgs (s : State) : (jobBegin s).jobArgs = s.jobLive := by
  rw [State.jobArgs, jobBegin_starting, Bool.or_true, if_pos rfl]
  rfl

theorem slice0_jobStart : Slice0.JobStart := by
  unfold Slice0.JobStart
  intro v s
  dsimp only
  rw [exec_wstreamJobGo]
  refine ⟨jobFields_cores v s, jobFields_half v s, fun h63 hr => ?_, fun h63 hr => ?_, fun a => ?_,
    fun h63 => ⟨fun hst => ?_, fun hst => ⟨fun hr => ?_, fun hr => ⟨fun hb => ?_, fun hb hu => ?_, fun hb hu => ?_⟩⟩⟩,
    jobBegin_starting _, jobBegin_ready _, jobBegin_code _, rfl, rfl, rfl, rfl, rfl, ?_, ?_, ?_, fun x hx _ _ => hx, rfl, rfl, rfl, rfl, rfl, rfl⟩
  · rw [jobGo_fields h63, if_neg (ne_true_of_eq_false (State.runout_false hr))]
  · rw [jobGo_fields h63, if_pos (State.runout_true hr)]
  · by_cases hr : 2 ≤ s.fld F.DEV_RUNOUT_STS_stage
    · rw [jobWord, if_pos (State.runout_true hr), if_pos hr]
    · rw [jobWord, if_neg (ne_true_of_eq_false (State.runout_false (Nat.not_le.1 hr))), if_neg hr]
  · rw [jobGo_staged h63 hst]
    rfl
  · rw [jobGo_unstaged h63 hst, if_pos (State.runout_true hr)]
  · rw [jobGo_busy h63 hst hr hb]
  · rw [jobGo_unfit h63 hst hr hb hu]
  · rw [jobGo_fit h63 hst hr hb hu]
    refine ⟨fun hv => ?_, fun hv hre hn => ?_, fun hv hre hn => ?_, fun hv hre => ?_⟩
    · rw [hv, if_pos (by decide)]
      rfl
    · rw [hv, if_neg (by decide), if_pos hre, if_neg (ne_true_of_eq_false hn)]
      rfl
    · rw [hv, if_neg (by decide), if_pos hre, if_pos hn]
    · rw [hv, if_neg (by decide), if_neg hre]
  · rw [jobBegin_jobArgs]
    exact jobFields_id v s
  · rw [jobBegin_jobArgs]
    exact jobFields_cores v s
  · rw [jobBegin_jobArgs]
    exact jobFields_half v s

/-! ## The end of a job (R263, R279, R431) -/

theorem State.clearKeys_valid0 (s : State) : s.clearKeys.flag F.WSTREAM_KEY_STS_valid0 = false :=
  (State.flag_setFld_bits _ F.WSTREAM_KEY_STS_epoch1 _ _ (.inr (by decide))).trans
    ((State.flag_setFld_bits _ F.WSTREAM_KEY_STS_valid1 _ _ (.inl (by decide))).trans
      ((State.flag_setFld_bits _ F.WSTREAM_KEY_STS_epoch0 _ _ (.inr (by decide))).trans (State.flag_setFlag _ _ _ (by decide) (by decide))))

/-- Of the end of a job, what its registers show. -/
theorem jobGone_flags (s : State) : (jobGone s).flag F.WSTREAM_JOB_STS_ready = false ∧ (jobGone s).fld F.CKPT_STS_phase = 0
    ∧ (jobGone s).flag F.WSTREAM_KEY_STS_valid0 = false := by
  refine ⟨State.flag_setFlag _ _ _ (by decide) (by decide), ?_, ?_⟩
  · exact (State.fld_setFld_addr _ F.WSTREAM_JOB_STS_ready _ _ (by decide)).trans (State.fld_setFld _ _ _ (by decide))
  · exact (State.flag_setFld_addr _ F.WSTREAM_JOB_STS_ready _ _ (by decide)).trans ((State.flag_setFld_addr _ F.CKPT_STS_phase _ _ (by decide)).trans
      ((State.flag_setFld_addr _ F.WSTREAM_JOB_STS_starting _ _ (by decide)).trans (State.clearKeys_valid0 _)))

/-- The state after the end of a job whose route may be reused. -/
def jobEnded (s : State) : State := (jobGone s).setWs { (jobGone s).ws with normal := true }

theorem jobCtl_ends {v : W64} {s : State} (hend : v.getLsbD 8 = true) (hj : s.jobLoaded = true) : jobCtl v s =
    (jobEnded (s.setFlag F.WSTREAM_JOB_CTL_route_reuse (v.getLsbD 0))).setGroup F.WSTREAM_ROUTE_DIGEST_w0.addr
      (wordsOf (leBytes 64 (routeDigest (jobGone (s.setFlag F.WSTREAM_JOB_CTL_route_reuse (v.getLsbD 0)))).toNat)) := by
  rw [jobCtl]
  exact if_pos ⟨hend, hj⟩

theorem jobCtl_stores {v : W64} {s : State} (h : v.getLsbD 8 = false ∨ s.jobLoaded = false) :
    jobCtl v s = s.setFlag F.WSTREAM_JOB_CTL_route_reuse (v.getLsbD 0) := by
  rw [jobCtl]
  refine if_neg fun ⟨hend, hj⟩ => ?_
  rcases h with h | h
  · exact ne_true_of_eq_false h hend
  · exact ne_true_of_eq_false h hj

section
variable {v : W64} {s : State} (hend : v.getLsbD 8 = true) (hj : s.jobLoaded = true)
include hend hj

/-- What no register holds is as the end of the job leaves it. -/
theorem jobCtl_ends_keeps {β : Type} (g : State → β) (h : ∀ (t : State) (a : Nat) (w : W64), g (t.setReg a w) = g t) :
    g (jobCtl v s) = g (jobEnded (s.setFlag F.WSTREAM_JOB_CTL_route_reuse (v.getLsbD 0))) := by
  rw [jobCtl_ends hend hj, State.setGroup_keeps g h]

/-- So are the registers but those of the route digest. -/
theorem jobCtl_ends_reg {a : Nat} (h : a < F.WSTREAM_ROUTE_DIGEST_w0.addr ∨ F.WSTREAM_ROUTE_DIGEST_w0.addr + 64 ≤ a) :
    (jobCtl v s).reg a = (jobGone (s.setFlag F.WSTREAM_JOB_CTL_route_reuse (v.getLsbD 0))).reg a := by
  rw [jobCtl_ends hend hj, State.reg_setGroup_apart _ (by rwa [length_wordsOf, length_leBytes])]
  rfl

end

theorem slice0_jobEnd : Slice0.JobEnd := by
  unfold Slice0.JobEnd
  refine fun v s => ⟨fun h => by rw [exec_wstreamJobEnd, jobCtl_stores h], fun hend hj => ⟨_, exec_wstreamJobEnd v s, ?_⟩⟩
  obtain ⟨hready, hphase, hkey⟩ := jobGone_flags (s.setFlag F.WSTREAM_JOB_CTL_route_reuse (v.getLsbD 0))
  have hlow : ∀ f : Fld, f.addr < F.WSTREAM_ROUTE_DIGEST_w0.addr → (jobCtl v s).flag f = (jobGone _).flag f :=
    fun f hf => State.flag_congr (jobCtl_ends_reg hend hj (.inl hf))
  have keeps := @jobCtl_ends_keeps v s hend hj
  exact ⟨keeps State.jobLoaded fun _ _ _ => rfl, keeps (·.boot.lastStep) fun _ _ _ => rfl, keeps (·.ws.keys) fun _ _ _ => rfl,
    keeps (·.ws.normal) fun _ _ _ => rfl, keeps (·.ws.manifest) fun _ _ _ => rfl, keeps (·.ckpt.members) fun _ _ _ => rfl,
    (State.fld_congr (jobCtl_ends_reg hend hj (.inr (by decide)))).trans hphase, (hlow _ (by decide)).trans hready, (hlow _ (by decide)).trans hkey,
    keeps (·.red.armOk) fun _ _ _ => rfl, keeps State.mem fun _ _ _ => rfl, keeps State.cores fun _ _ _ => rfl,
    keeps State.events fun _ _ _ => rfl, keeps State.net fun _ _ _ => rfl⟩

/-! ## The checks of a join (R281, R376) -/

theorem slice0_joinChecks : Slice0.JoinChecks := by
  unfold Slice0.JoinChecks
  intro p s
  dsimp only
  have hsmall : (p.cores < s.jobArgs.cores ∨ s.ncores < p.needCores ∨ (p.halfMode = true ∧ (!s.jobArgs.half) = true)
      ∨ (s.halfMode = true ∧ (!p.halfFlag) = true)) ↔ (p.cores < s.jobArgs.cores ∨ s.ncores < p.needCores
      ∨ (p.halfMode = true ∧ s.jobArgs.half = false) ∨ (s.halfMode = true ∧ p.halfFlag = false)) := by
    simp only [Bool.not_eq_true']
  refine ⟨fun hfw => ?_, fun hfw => ⟨fun hbc => ?_, fun hbc => ⟨fun hs => ?_, fun hs => ⟨fun hd => ?_, fun hd => ⟨fun ht => ?_, fun ht => ?_⟩⟩⟩⟩,
    fun hj x hx => ?_, fun h0 => if_pos h0, fun h0 => if_neg h0⟩
  · rw [joinCheck]
    exact if_pos hfw
  · rw [joinCheck]
    exact (if_neg (not_not_intro hfw)).trans (if_pos hbc)
  · rw [joinCheck]
    exact (if_neg (not_not_intro hfw)).trans ((if_neg (not_not_intro hbc)).trans (if_pos (hsmall.2 hs)))
  · rw [joinCheck]
    exact (if_neg (not_not_intro hfw)).trans ((if_neg (not_not_intro hbc)).trans ((if_neg (mt hsmall.1 hs)).trans (if_pos hd)))
  · rw [joinCheck]
    exact (if_neg (not_not_intro hfw)).trans ((if_neg (not_not_intro hbc)).trans ((if_neg (mt hsmall.1 hs)).trans
      ((if_neg (not_not_intro hd)).trans (if_pos ht))))
  · rw [joinCheck]
    exact (if_neg (not_not_intro hfw)).trans ((if_neg (not_not_intro hbc)).trans ((if_neg (mt hsmall.1 hs)).trans
      ((if_neg (not_not_intro hd)).trans (if_neg ht))))
  · rw [State.jobArgs, if_pos (Bool.or_eq_true_iff.2 hj), hx, Option.getD_some]

/-! ## A step begins (R311) -/

/-- Requests given up change the module's traffic alone. -/
theorem State.forget_keeps {β : Type} (g : State → β) (h : ∀ (s : State) (n : Net), g { s with net := n } = g s) (s : State) (src : ReqSrc) :
    g (s.forget src) = g s :=
  (foldl_keeps g (fun t r => by unfold lateNote; split <;> [exact h t _; rfl]) _ _).trans (h s _)

/-- The words that a step's begin writes. -/
def stepWords : List Nat := [F.RED_STS_bank.addr, F.RED_PSN_STS_count.addr, F.RED_PSN_STS_layer.addr, F.RED_PSN_STS_block.addr]

theorem reg_redStepStart {a : Nat} (h : a ∉ stepWords) (s : State) : (redStepStart s).reg a = s.reg a := by
  simp only [stepWords, List.mem_cons, List.not_mem_nil, or_false, not_or] at h
  obtain ⟨hbank, hcount, hlayer, hblock⟩ := h
  obtain ⟨r, u, he, -, hu⟩ := redStepStart_eq s
  rw [he, State.reg_setReg, if_neg hblock, State.reg_setReg, if_neg hlayer, State.reg_setReg, if_neg hcount, hu]
  split
  · exact (State.reg_setFld_ne _ F.RED_STS_armed _ _ hbank).trans (State.reg_setFld_ne _ F.RED_STS_bank _ _ hbank)
  · rfl

/-- Of what is no register, the begin of a step in RED changes RED alone. -/
theorem redStepStart_keeps {β : Type} (g : State → β) (hreg : ∀ (s : State) (a : Nat) (v : W64), g (s.setReg a v) = g s)
    (hred : ∀ (s : State) (r : Red), g (s.setRed r) = g s) (s : State) : g (redStepStart s) = g s := by
  obtain ⟨r, u, he, -, hu⟩ := redStepStart_eq s
  rw [he, hreg, hreg, hreg, hred, hu]
  split
  · exact (hreg _ _ _).trans ((hreg _ _ _).trans (hred _ _))
  · rfl

theorem reg_restored {a : Nat} (h : a ∉ stepWords) (hp : a ≠ F.CKPT_STS_phase.addr) (s : State) : (restored s).reg a = s.reg a :=
  (reg_redStepStart h _).trans ((State.forget_keeps (State.reg · a) (fun _ _ => rfl) _ _).trans (State.reg_setFld_ne _ F.CKPT_STS_phase _ _ hp))

theorem restored_phase (s : State) : (restored s).fld F.CKPT_STS_phase = phRun := by
  have hword : (restored s).reg F.CKPT_STS_phase.addr =
      ((s.setCk { s.ckpt with first := true, stored := none }).setPhase phRun).reg F.CKPT_STS_phase.addr :=
    (reg_redStepStart (by decide) _).trans (State.forget_keeps (State.reg · _) (fun _ _ => rfl) _ _)
  rw [State.fld_congr hword]
  exact State.fld_setFld _ _ _ (by decide)

theorem restored_first (s : State) : (restored s).ckpt.first = true := redStepStart_keeps (·.ckpt.first) (fun _ _ _ => rfl) (fun _ _ => rfl) _

theorem restored_members (s : State) : (restored s).ckpt.members = s.ckpt.members :=
  redStepStart_keeps (·.ckpt.members) (fun _ _ _ => rfl) (fun _ _ => rfl) _

theorem restored_jobLoaded (s : State) : (restored s).jobLoaded = s.jobLoaded :=
  (redStepStart_keeps State.jobLoaded (fun _ _ _ => rfl) (fun _ _ => rfl) _).trans (State.forget_keeps State.jobLoaded (fun _ _ => rfl) _ _)

theorem restored_cores (s : State) : (restored s).cores = s.cores :=
  (redStepStart_keeps State.cores (fun _ _ _ => rfl) (fun _ _ => rfl) _).trans (State.forget_cores _ _)

/-! ## An engine is ready (R277) -/

/-- A loaded job with its members, before its first step begins. -/
def jobLoads (s : State) : State :=
  let s1 := { s with
    jobLoaded := true
    ckpt := { s.ckpt with
      members := if s.isSelf s.rootNode then s.node :: s.ckpt.standby else [], joins := [], leaves := [], standby := []
      due := false, lastFreeze := s.stepNo }
    red := { s.red with halted := false } }
  ((s1.setFld F.WSTREAM_JOB_STS_code 0).setFlag F.WSTREAM_JOB_STS_starting false).setFlag F.WSTREAM_JOB_STS_ready true

theorem jobReady_eq (s : State) :
    jobReady s = (restored ((jobLoads s).setReg F.CKPT_VOTE_STS_outcome.addr 0)).raiseDev EV.JOB_READY [] := rfl

/-- Neither the begin of the first step nor its event changes the status of the job. -/
theorem jobReady_sts (s : State) : (jobReady s).reg F.WSTREAM_JOB_STS_code.addr = (jobLoads s).reg F.WSTREAM_JOB_STS_code.addr := by
  rw [jobReady_eq, State.raiseDev, reg_raise _ _ _ _ _ _ (by decide), reg_restored (by decide) (by decide), State.reg_setReg, if_neg (by decide)]

theorem jobReady_status (s : State) : (jobReady s).flag F.WSTREAM_JOB_STS_starting = false ∧ (jobReady s).flag F.WSTREAM_JOB_STS_ready = true
    ∧ (jobReady s).fld F.WSTREAM_JOB_STS_code = 0 := by
  refine ⟨(State.flag_congr (f := F.WSTREAM_JOB_STS_starting) (jobReady_sts s)).trans ?_,
    (State.flag_congr (f := F.WSTREAM_JOB_STS_ready) (jobReady_sts s)).trans ?_, (State.fld_congr (jobReady_sts s)).trans ?_⟩
  · exact (State.flag_setFld_bits _ F.WSTREAM_JOB_STS_ready _ _ (.inr (by decide))).trans (State.flag_setFlag _ _ _ (by decide) (by decide))
  · exact State.flag_setFlag _ _ _ (by decide) (by decide)
  · exact (State.fld_setFld_bits _ F.WSTREAM_JOB_STS_ready _ _ (.inr (by decide))).trans
      ((State.fld_setFld_bits _ F.WSTREAM_JOB_STS_starting _ _ (.inr (by decide))).trans (State.fld_setFld _ _ _ (by decide)))

/-! ## The outcome of the join checks (R277, R281, R295, R403) -/

/-- Whether JOB_JOIN_CHECK has something to decide: a start with its images, its plan and its tables, or the root of a loaded job. -/
def State.joinActs (s : State) : Prop :=
  (s.flag F.WSTREAM_JOB_STS_starting = true ∧ s.ws.imagesDone = true ∧ s.fld F.RED_PLAN_STS_code = 0 ∧ s.red.armOk = true)
    ∨ (s.jobLoaded = true ∧ s.isSelf s.rootNode = true)

section
variable {p : JoinRec} {s : State}

theorem not_joinActs_iff : (!(s.flag F.WSTREAM_JOB_STS_starting && s.ws.imagesDone && decide (s.fld F.RED_PLAN_STS_code = 0) && s.red.armOk)
    && !(s.jobLoaded && s.isSelf s.rootNode)) = true ↔ ¬ s.joinActs := by
  rw [← Bool.not_or, Bool.not_eq_true', ← Bool.not_eq_true]
  simp only [State.joinActs, Bool.or_eq_true, Bool.and_eq_true, decide_eq_true_eq, and_assoc]

theorem jobJoin_idle (h : ¬ s.joinActs) : jobJoin p s = s := by
  rw [jobJoin]
  exact if_pos (not_joinActs_iff.2 h)

theorem jobJoin_acts (h : s.joinActs) : jobJoin p s =
    if s.runout then joinRefused p.node.toNat E.RUNOUT_ACTIVE s
    else match joinCheck p s with
      | some code => joinRefused p.node.toNat code s
      | none =>
        if p.peerCode ≠ 0 then joinRefused p.node.toNat p.peerCode.toNat s
        else if s.flag F.WSTREAM_JOB_STS_starting && !(s.isSelf s.rootNode && !s.isSelf p.node.toNat) then
          (if s.lodge.staged.isSome then s else jobReady s)
        else if s.jobLoaded && s.ckpt.first && s.ckpt.votes.isEmpty then
          s.setCk { s.ckpt with members := if s.ckpt.members.contains p.node.toNat then s.ckpt.members else s.ckpt.members ++ [p.node.toNat] }
        else s.setCk { s.ckpt with standby := if s.ckpt.standby.contains p.node.toNat then s.ckpt.standby else s.ckpt.standby ++ [p.node.toNat] } := by
  rw [jobJoin]
  exact if_neg fun hno => not_joinActs_iff.1 hno h

variable (hacts : s.joinActs) (hrun : s.fld F.DEV_RUNOUT_STS_stage < 2)
include hacts hrun

theorem jobJoin_fails {code : Nat} (h : joinCheck p s = some code) : jobJoin p s = joinRefused p.node.toNat code s := by
  rw [jobJoin_acts hacts, if_neg (ne_true_of_eq_false (State.runout_false hrun)), h]

variable (hcheck : joinCheck p s = none)
include hcheck

theorem jobJoin_fails_there (h : p.peerCode ≠ 0) : jobJoin p s = joinRefused p.node.toNat p.peerCode.toNat s := by
  rw [jobJoin_acts hacts, if_neg (ne_true_of_eq_false (State.runout_false hrun)), hcheck]
  exact if_pos h

variable (hpeer : p.peerCode = 0)
include hpeer

/-- With the checks of both sides passed, this engine becomes ready where it is the one that joins, and else takes the other side. -/
theorem jobJoin_passes : jobJoin p s =
    if s.flag F.WSTREAM_JOB_STS_starting = true ∧ ¬ (s.isSelf s.rootNode = true ∧ s.isSelf p.node.toNat = false) then
      (if s.lodge.staged = none then jobReady s else s)
    else if s.jobLoaded = true ∧ s.ckpt.first = true ∧ s.ckpt.votes = [] then
      s.setCk { s.ckpt with members := if p.node.toNat ∈ s.ckpt.members then s.ckpt.members else s.ckpt.members ++ [p.node.toNat] }
    else s.setCk { s.ckpt with standby := if p.node.toNat ∈ s.ckpt.standby then s.ckpt.standby else s.ckpt.standby ++ [p.node.toNat] } := by
  have hstaged : (if s.lodge.staged.isSome = true then s else jobReady s) = if s.lodge.staged = none then jobReady s else s := by
    cases s.lodge.staged <;> rfl
  rw [jobJoin_acts hacts, if_neg (ne_true_of_eq_false (State.runout_false hrun)), hcheck]
  simp only [hpeer, ne_eq, not_true_eq_false, if_false, hstaged, Bool.and_eq_true, Bool.not_eq_true', Bool.and_eq_false_iff, List.isEmpty_iff,
    List.contains_iff_mem, Bool.not_eq_false', not_and_or, Bool.not_eq_true, Bool.not_eq_false, and_assoc]

end

theorem slice0_join : Slice0.Join := by
  unfold Slice0.Join
  intro p s
  dsimp only
  rw [exec_jobJoinCheck]
  obtain ⟨hstarting, hready, hcode⟩ := jobReady_status s
  refine ⟨fun h => by rw [jobJoin_idle h], fun h => ⟨fun hr => ?_, fun hr => ⟨fun code hc => ?_, fun hc hp => ?_, fun hc hp =>
    ⟨fun hhere hst => ?_, fun hhere hst => ?_, fun hhere ho => ?_, fun hhere ho => ?_⟩⟩⟩, ?_, hstarting, hready, hcode, ?_, ?_, ?_, ?_, ?_⟩
  · rw [jobJoin_acts h, if_pos (State.runout_true hr)]
    rfl
  · rw [jobJoin_fails h hr hc]
    rfl
  · rw [jobJoin_fails_there h hr hc hp]
    rfl
  · rw [jobJoin_passes h hr hc hp, if_pos hhere, if_pos hst]
  · rw [jobJoin_passes h hr hc hp, if_pos hhere, if_neg hst]
  · rw [jobJoin_passes h hr hc hp, if_neg hhere, if_pos ho]
  · rw [jobJoin_passes h hr hc hp, if_neg hhere, if_neg ho]
  · rw [jobReady_eq, State.raiseDev_jobLoaded, restored_jobLoaded]
    rfl
  · rw [jobReady_eq, State.raiseDev, fld_raise _ _ _ _ _ _ (by decide)]
    exact restored_phase _
  · rw [jobReady_eq, State.raiseDev_ckpt]
    exact restored_first _
  · rw [jobReady_eq, State.raiseDev_ckpt, restored_members]
    rfl
  · rw [jobReady_eq, State.raiseDev_mem, restored_mem]
    rfl
  · rw [jobReady_eq, State.raiseDev_cores, restored_cores]
    rfl

/-! ## Requests to join and to leave (R205, R280, R376, R418) -/

theorem memberRequest_no_job {s : State} (h : s.jobLoaded = false) (n : Nat) (leave : Bool) : memberRequest n leave s = s := by
  rw [memberRequest, h]
  rfl

section
variable {s : State} (hj : s.jobLoaded = true)
include hj

theorem memberRequest_elsewhere (h : s.isSelf s.rootNode = false) (n : Nat) (leave : Bool) : memberRequest n leave s =
    if leave && s.isSelf n then { s with boot := { s.boot with lastStep := some s.stepNo } } else s := by
  rw [memberRequest, hj, h]
  rfl

variable (hroot : s.isSelf s.rootNode = true)
include hroot

/-- What the root makes of a request to leave. -/
theorem memberRequest_leave (n : Nat) : memberRequest n true s =
    if ∃ k, k < s.fld F.RED_OWNER_LEN ∧ ((s.ownerNodes k).1 = n ∨ (s.ownerNodes k).2 = n) then s.raiseDev EV.LEAVE_REFUSED (leBytes 3 n)
    else if n ∈ s.ckpt.members ∧ n ∉ s.ckpt.leaves then s.setCk { s.ckpt with leaves := s.ckpt.leaves ++ [n] }
    else s := by
  rw [memberRequest, hj, hroot]
  simp only [Bool.not_true, Bool.false_eq_true, if_false, if_true, List.any_eq_true, List.mem_range, Bool.or_eq_true, decide_eq_true_eq,
    Bool.and_eq_true, List.contains_iff_mem, Bool.not_eq_true', ← Bool.not_eq_true]

/-- What the root makes of a request to join. -/
theorem memberRequest_join (n : Nat) : memberRequest n false s =
    if s.runout then joinRefused n E.RUNOUT_ACTIVE s
    else if n ∈ s.ckpt.standby then
      s.setCk { s.ckpt with standby := s.ckpt.standby.filter (fun m => decide (m ≠ n)), joins := s.ckpt.joins ++ [n] }
    else s := by
  rw [memberRequest, hj, hroot]
  simp only [Bool.not_true, Bool.false_eq_true, if_false, List.contains_iff_mem]

end

theorem slice0_memberRequests : Slice0.MemberRequests := by
  unfold Slice0.MemberRequests
  intro node s
  dsimp only
  rw [exec_memberLeaveRequest, exec_memberLeaveRequest, exec_joinRecordRefresh]
  refine ⟨fun hj => ?_, fun hj hr => ⟨?_, fun hs => ?_, fun hs => ?_⟩, fun hj hr => ⟨fun hn => ?_, fun hn hm hl => ?_, fun hn hm => ?_, fun hrun => ?_,
    fun hrun hst => ?_, fun hrun hst => ?_⟩, fun hr => by rw [if_pos hr], fun hr => by rw [if_neg hr]⟩
  · rw [memberRequest_no_job hj, memberRequest_no_job hj]
    exact ⟨rfl, rfl⟩
  · rw [memberRequest_elsewhere hj (Bool.eq_false_of_not_eq_true hr)]
    rfl
  · rw [memberRequest_elsewhere hj (Bool.eq_false_of_not_eq_true hr), hs]
    rfl
  · rw [memberRequest_elsewhere hj (Bool.eq_false_of_not_eq_true hr), hs]
    rfl
  · rw [memberRequest_leave hj hr, if_pos hn]
    rfl
  · rw [memberRequest_leave hj hr, if_neg hn, if_pos ⟨hm, hl⟩]
  · rw [memberRequest_leave hj hr, if_neg hn, if_neg fun h => hm.elim (absurd h.1) h.2]
  · rw [memberRequest_join hj hr, if_pos (State.runout_true hrun)]
    rfl
  · rw [memberRequest_join hj hr, if_neg (ne_true_of_eq_false (State.runout_false hrun)), if_pos hst]
  · rw [memberRequest_join hj hr, if_neg (ne_true_of_eq_false (State.runout_false hrun)), if_neg hst]

/-- Settles O51, from the outcomes of a go in their order, the end of a job, the checks of a join and what follows them, and the requests of members. -/
theorem jobs : Obligations.Jobs := ⟨slice0_jobStart, slice0_jobEnd, slice0_joinChecks, slice0_join, slice0_memberRequests⟩

end Sys2Proof.Machine
end

section
/-! # The mesh's own operations: what each reads of the buffers and leaves as it was (O44; spec/10 R215, R222, R224) -/

namespace Sys2Proof.Machine

/-! ## Lists kept in a finite map, the empty ones not listed -/

theorem Sparse.get_drop {α : Type} (m : Sparse α) (d : α) (j k : Nat) :
    Sparse.get (Sparse.drop m j) d k = if k = j then d else Sparse.get m d k := by
  unfold Sparse.get
  rw [Sparse.find_drop]
  split <;> rfl

theorem Sparse.get_putList {α : Type} (m : Sparse (List α)) (l : List α) (j k : Nat) :
    Sparse.get (if l.isEmpty then Sparse.drop m j else Sparse.put m j l) [] k = if k = j then l else Sparse.get m [] k := by
  split
  · next h => rw [Sparse.get_drop, List.isEmpty_iff.1 h]
  · exact Sparse.get_put ..

/-! ## Buffers and waits -/

@[simp] theorem State.fabBuf_setFabBuf (s : State) (key j : Nat) (l : List FabPkt) :
    (s.setFabBuf key l).fabBuf j = if j = key then l else s.fabBuf j := Sparse.get_putList ..

@[simp] theorem State.fabWaits_setFabWaits (s : State) (key j : Nat) (l : List FabPkt) :
    (s.setFabWaits key l).fabWaits j = if j = key then l else s.fabWaits j := Sparse.get_putList ..

@[simp] theorem State.fabWaits_setFabBuf (s : State) (key j : Nat) (l : List FabPkt) : (s.setFabBuf key l).fabWaits j = s.fabWaits j := rfl
@[simp] theorem State.fabBuf_setFabWaits (s : State) (key j : Nat) (l : List FabPkt) : (s.setFabWaits key l).fabBuf j = s.fabBuf j := rfl

@[simp] theorem State.fabBuf_bumpBy (s : State) (f : Fld) (n j : Nat) : (s.bumpBy f n).fabBuf j = s.fabBuf j := by
  rw [State.fabBuf, State.bumpBy_fab, State.fabBuf]

@[simp] theorem State.fabWaits_bumpBy (s : State) (f : Fld) (n j : Nat) : (s.bumpBy f n).fabWaits j = s.fabWaits j := by
  rw [State.fabWaits, State.bumpBy_fab, State.fabWaits]

/-- A state in which the turn of an output port, or of an endpoint, has come to a requester (R226). -/
def State.setLast (s : State) (out r : Nat) : State := { s with fab := { s.fab with last := Sparse.put s.fab.last out r } }

@[simp] theorem State.fabBuf_setLast (s : State) (out r j : Nat) : (s.setLast out r).fabBuf j = s.fabBuf j := rfl
@[simp] theorem State.fabWaits_setLast (s : State) (out r j : Nat) : (s.setLast out r).fabWaits j = s.fabWaits j := rfl
theorem State.last_setLast (s : State) (out r d : Nat) : Sparse.get (s.setLast out r).fab.last d out = r :=
  (Sparse.get_put ..).trans (if_pos rfl)

theorem State.fabRoom_iff (s : State) (x y port vc : Nat) :
    s.fabRoom x y port vc = true ↔ ((s.fabBuf (fabKey x y port vc)).map FabPkt.flits).sum < fabCap x y port := decide_eq_true_iff

/-! ## A packet enters (R222, R224) -/

section
variable (s : State) (x y port : Nat) (p : FabPkt)

theorem State.fabBuf_fabPush (j : Nat) : (s.fabPush x y port p).fabBuf j =
    if j = fabKey x y port p.vc then s.fabBuf (fabKey x y port p.vc) ++ [p] else s.fabBuf j := State.fabBuf_setFabBuf ..

@[simp] theorem State.fabWaits_fabPush (j : Nat) : (s.fabPush x y port p).fabWaits j = s.fabWaits j := rfl
@[simp] theorem State.fabPush_regs : (s.fabPush x y port p).regs = s.regs := rfl
@[simp] theorem State.fabPush_cores : (s.fabPush x y port p).cores = s.cores := rfl

@[simp] theorem State.fabBuf_fabEnter (j : Nat) : (s.fabEnter x y port p).fabBuf j = (s.fabPush x y port p).fabBuf j := State.fabBuf_bumpBy ..
@[simp] theorem State.fabWaits_fabEnter (j : Nat) : (s.fabEnter x y port p).fabWaits j = s.fabWaits j := State.fabWaits_bumpBy ..

variable {s x y port p}

theorem State.fabInject_enters (hw : s.fabWaits (fabKey x y port p.vc) = []) (hr : s.fabRoom x y port p.vc = true) :
    s.fabInject x y port p = s.fabEnter x y port p := by
  rw [State.fabInject, hw, hr]
  rfl

theorem State.fabInject_waits (h : s.fabWaits (fabKey x y port p.vc) ≠ [] ∨ s.fabRoom x y port p.vc = false) :
    s.fabInject x y port p = s.setFabWaits (fabKey x y port p.vc) (s.fabWaits (fabKey x y port p.vc) ++ [p]) := by
  refine if_neg fun hin => ?_
  obtain ⟨hempty, hroom⟩ := Bool.and_eq_true_iff.1 hin
  exact h.elim (absurd (List.isEmpty_iff.1 hempty)) (ne_false_of_eq_true hroom)

end

theorem slice0_fabricBuffers : Slice0.FabricBuffers := by
  unfold Slice0.FabricBuffers
  intro x y port p s
  dsimp only
  refine ⟨?_, s.fabRoom_iff x y port p.vc, ?_, fun j hj => ?_, s.fabPush_mem x y port p, rfl, rfl, State.fabInject_enters, fun h => ?_⟩
  · simp only [fabCap, seamPort, decide_eq_true_eq]
  · rw [State.fabBuf_fabPush, if_pos rfl]
  · rw [State.fabBuf_fabPush, if_neg hj]
  · rw [State.fabInject_waits h, State.fabWaits_setFabWaits, if_pos rfl]
    exact ⟨rfl, rfl, rfl, rfl, rfl⟩

end Sys2Proof.Machine
end

section
/-! # Access to local memory (O44; spec/02 R37, spec/09 R196, spec/10 R220, spec/14 R318, R322) -/

namespace Sys2Proof.Machine

/-! ## The port of a core -/

section
variable {n : Nat} {bulk : Bool} {s : State} {f : State → State × Bus}

theorem throughPort_closed (h : s.portOpen n = false) :
    throughPort n bulk s f = (s.bump F.CORE_MAP_ABSORB_CNT, if bulk then .lost else .fail E.FABRIC_DEST_DOWN) := by
  rw [throughPort, h]
  rfl

theorem throughPort_hold (ho : s.portOpen n = true) (hh : s.flag F.PWR_STS_hold = true) : throughPort n bulk s f = (s.kick n, .wait) := by
  rw [throughPort, ho, hh]
  rfl

theorem throughPort_open (ho : s.portOpen n = true) (hh : s.flag F.PWR_STS_hold = false) : throughPort n bulk s f = f (s.kick n) := by
  rw [throughPort, ho, hh]
  rfl

end

/-! ## Reads and writes by the place of their range -/

section
variable {remote bulk : Bool} {org : Option Nat} {a n : Nat} {bs : List Byte} {s : State}

theorem busRead_of_edge (h : s.place a n = .edge) (hb : s.bodyHit none a n = false) : busRead remote a n s = (s, .ok (s.mem.bytes a n)) := by
  rw [busRead, h, State.loadEdge, hb]
  rfl

theorem busRead_of_hole (h : s.place a n = .hole) : busRead remote a n s = (s, .fail E.ADDR_UNMAPPED) := by rw [busRead, h]

theorem busRead_of_dev (h : s.place a n = .dev) : busRead true a n s = (s, .fail E.ADDR_UNMAPPED) := by
  rw [busRead, h]
  rfl

theorem busRead_of_mem {c : Nat} (h : s.place a n = .mem c) :
    busRead remote a n s = throughPort c false s (fun t => (t, .ok (t.mem.bytes a n))) := by rw [busRead, h]

theorem busWrite_of_edge (h : s.place a bs.length = .edge) : busWrite org remote bulk a bs s =
    if s.clear a bs.length then (s.store a bs, .ok []) else (s.ask a bs.length, .wait) := by
  rw [busWrite, h]
  rfl

theorem busWrite_of_hole (h : s.place a bs.length = .hole) : busWrite org remote bulk a bs s = (s, .fail E.ADDR_UNMAPPED) := by rw [busWrite, h]

theorem busWrite_of_dev (h : s.place a bs.length = .dev) : busWrite org true bulk a bs s = (s, .fail E.ADDR_UNMAPPED) := by
  rw [busWrite, h]
  rfl

theorem busWrite_of_mem {c : Nat} (h : s.place a bs.length = .mem c) :
    busWrite org remote bulk a bs s = throughPort c bulk s (fun t => (t.store a bs, .ok [])) := by rw [busWrite, h]

end

theorem slice0_localAccess : Slice0.LocalAccess := by
  unfold Slice0.LocalAccess
  intro remote bulk org a n bs s
  refine ⟨busRead_of_edge, busRead_of_hole, busRead_of_dev, fun c hc => ?_, fun he => ?_, busWrite_of_hole, busWrite_of_dev, fun c hc => ?_⟩
  · rw [busRead_of_mem hc]
    exact ⟨throughPort_closed, throughPort_hold, throughPort_open⟩
  · rw [busWrite_of_edge he]
    exact ⟨fun hc => if_neg (ne_true_of_eq_false hc), fun hc => if_pos hc⟩
  · rw [busWrite_of_mem hc]
    exact ⟨throughPort_closed, throughPort_hold, throughPort_open⟩

end Sys2Proof.Machine
end

section
/-! # Packets at a router: their way, their arrival, grants, leaving (O44; spec/10 R218, R220-R222, R226, R229; spec/02 R22; spec/15 R338) -/

namespace Sys2Proof.Machine

theorem exec_fabricPacketArrive (x y : BitVec 5) (p : FabPkt) (s : State) :
    exec (.fabricPacketArrive x y p) s = .next (fabArrive x.toNat y.toNat p s) := by rfl

/-! ## Dimension order (R218) -/

section
variable {x y : Nat} {p : FabPkt}

/-- At its column, a packet goes along Y. -/
theorem fabPort_of_col (h : x = p.dx) : fabPort x y p =
    if y < p.dy then ptS else if p.dy < y then ptN else if p.dport = 0 then ptCore else rimPort p.dport (isLinkEp p.dst) := by
  rw [fabPort, if_neg h.not_lt, if_neg h.not_gt]

/-- At its router, a packet leaves by the exit that its header names. -/
theorem fabPort_of_router (hx : x = p.dx) (hy : y = p.dy) :
    fabPort x y p = if p.dport = 0 then ptCore else rimPort p.dport (isLinkEp p.dst) := by
  rw [fabPort_of_col hx, if_neg hy.not_lt, if_neg hy.not_gt]

theorem rimPort_ge {dport : Nat} (h : dport ≠ 0) (link : Bool) : 5 ≤ rimPort dport link := by
  unfold rimPort
  split <;> omega

end

theorem slice0_dimensionOrder : Slice0.DimensionOrder := by
  unfold Slice0.DimensionOrder
  intro x y p
  refine ⟨fun h => if_pos h, fun h => ?_, fun hx hy => ?_, fun hx hy => ?_, fun hx hy => ⟨fun h => ?_, fun h => ?_⟩⟩
  · rw [fabPort, if_neg h.not_gt, if_pos h]
  · rw [fabPort_of_col hx, if_pos hy]
  · rw [fabPort_of_col hx, if_neg hy.not_gt, if_pos hy]
  · rw [fabPort_of_router hx hy, if_pos h]
  · rw [fabPort_of_router hx hy, if_neg h]
    exact rimPort_ge h _

/-! ## Arrival (R218, R221, R222) -/

section
variable {x y : Nat} {p : FabPkt} {s : State}

/-- The packet as it stands at the router: one from its source's own port has the header of the route table. -/
def fabHeaded (x y : Nat) (p : FabPkt) (s : State) : FabPkt := if 4 ≤ s.fabIn x y p then s.translate p else p

theorem fabArrive_gone (h : s.routerLost x = true ∨ s.routerDead x = true) : fabArrive x y p s = s := by
  rw [fabArrive, if_pos (Bool.or_eq_true_iff.2 h)]

variable (hl : s.routerLost x = false) (hd : s.routerDead x = false)
include hl hd

theorem fabArrive_bad (h : fabVc p.type ≠ some p.vc) : fabArrive x y p s =
    (s.bump F.FABRIC_BAD_PKT_CNT).raise EV.FABRIC_BAD_PKT 0 0 (leBytes 1 x ++ leBytes 1 y ++ leBytes 8 p.hdr.toNat) := by
  rw [fabArrive, hl, hd, if_neg (by decide), if_pos h]
  rfl

variable (hv : fabVc p.type = some p.vc)
include hv

theorem fabArrive_good : fabArrive x y p s =
    if !exitAt (fabHeaded x y p s).dx (fabHeaded x y p s).dy (fabHeaded x y p s).dport then s
    else if 4 ≤ s.fabIn x y p ∧ s.routerLost (fabHeaded x y p s).dx then fabTick (s.fabRefuse x y (s.fabIn x y p) (fabHeaded x y p s))
    else if 4 ≤ s.fabIn x y p then fabTick (s.fabInject x y (s.fabIn x y p) (fabHeaded x y p s))
    else if s.fabRoom x y (s.fabIn x y p) (fabHeaded x y p s).vc then fabTick (s.fabPush x y (s.fabIn x y p) (fabHeaded x y p s))
    else s := by
  rw [fabArrive, hl, hd, if_neg (by decide), if_neg (not_not_intro hv)]
  rfl

theorem fabArrive_noExit (he : exitAt (fabHeaded x y p s).dx (fabHeaded x y p s).dy (fabHeaded x y p s).dport = false) :
    fabArrive x y p s = s := by
  rw [fabArrive_good hl hd hv, he]
  rfl

variable (he : exitAt (fabHeaded x y p s).dx (fabHeaded x y p s).dy (fabHeaded x y p s).dport = true)
include he

/-- From a neighbour: into the buffer when there is room. -/
theorem fabArrive_neighbour (hi : s.fabIn x y p < 4) : fabArrive x y p s =
    if s.fabRoom x y (s.fabIn x y p) (fabHeaded x y p s).vc then fabTick (s.fabPush x y (s.fabIn x y p) (fabHeaded x y p s)) else s := by
  rw [fabArrive_good hl hd hv, he, if_neg (by decide), if_neg fun h => hi.not_ge h.1, if_neg hi.not_ge]

/-- From its source's own port: injected, or refused when its exit is in the lost half. -/
theorem fabArrive_source (hi : 4 ≤ s.fabIn x y p) : fabArrive x y p s =
    if s.routerLost (fabHeaded x y p s).dx then fabTick (s.fabRefuse x y (s.fabIn x y p) (fabHeaded x y p s))
    else fabTick (s.fabInject x y (s.fabIn x y p) (fabHeaded x y p s)) := by
  rw [fabArrive_good hl hd hv, he, if_neg (by decide)]
  simp only [hi, true_and, if_true]

end

theorem slice0_fabricArrival : Slice0.FabricArrival := by
  unfold Slice0.FabricArrival
  intro x y p s
  dsimp only
  rw [exec_fabricPacketArrive]
  refine ⟨fun h => congrArg _ (fabArrive_gone h), fun hl hd => ⟨fun hv => congrArg _ (fabArrive_bad hl hd hv), fun hv =>
    ⟨fun he => congrArg _ (fabArrive_noExit hl hd hv he), fun he => ⟨fun hi hr => ?_, fun hi hr => ?_, fun hi hr => ?_, fun hi hr => ?_⟩⟩⟩⟩
  · rw [fabArrive_neighbour hl hd hv he hi]
    exact congrArg _ (if_neg (ne_true_of_eq_false hr))
  · rw [fabArrive_neighbour hl hd hv he hi]
    exact congrArg _ (if_pos hr)
  · rw [fabArrive_source hl hd hv he hi]
    exact congrArg _ (if_neg (ne_true_of_eq_false hr))
  · rw [fabArrive_source hl hd hv he hi]
    exact congrArg _ (if_pos hr)

/-! ## Grants of an output port (R226) -/

section
variable {x y port r : Nat} {rs : List Nat} {s : State} {p : FabPkt} {l : List FabPkt}

theorem fabFirst_empty (h : s.fabBuf (fabKey x y (r / 4) (r % 4)) = []) : fabFirst x y port (r :: rs) s = fabFirst x y port rs s := by
  rw [fabFirst, h]

variable (hb : s.fabBuf (fabKey x y (r / 4) (r % 4)) = p :: l)
include hb

theorem fabFirst_elsewhere (h : fabPort x y p ≠ port) : fabFirst x y port (r :: rs) s = fabFirst x y port rs s := by
  rw [fabFirst, hb]
  exact if_pos h

variable (hp : fabPort x y p = port)
include hp

theorem fabFirst_stays (h : (fabPass x y port p s).2 = false) :
    fabFirst x y port (r :: rs) s = fabFirst x y port rs (fabPass x y port p s).1 := by
  rw [fabFirst, hb]
  exact (if_neg (not_not_intro hp)).trans (if_neg (ne_true_of_eq_false h))

/-- A packet that has left is no more in its requester's buffer, and the port's turn has come to that requester. -/
theorem fabFirst_granted (h : (fabPass x y port p s).2 = true) : fabFirst x y port (r :: rs) s =
    (((fabPass x y port p s).1.setFabBuf (fabKey x y (r / 4) (r % 4)) (((fabPass x y port p s).1.fabBuf (fabKey x y (r / 4) (r % 4))).drop 1)).setLast
      (fabOut x y port) r, true) := by
  rw [fabFirst, hb]
  exact (if_neg (not_not_intro hp)).trans (if_pos h)

end

/-! ## Endpoints inject what waits (R222, R226) -/

/-- Whether a channel of an endpoint can inject: a packet of it waits and the router has a credit. -/
def State.fabCan (s : State) (x y port v : Nat) : Bool := !(s.fabWaits (fabKey x y port v)).isEmpty && s.fabRoom x y port v

/-- The channels of an endpoint in turn, after the one that has injected last. -/
def State.fabTurn (s : State) (x y port : Nat) : List Nat :=
  (List.range 4).map (fun j => (Sparse.get s.fab.last 3 (fabOut x y (port + 5)) + 1 + j) % 4)

section
variable {x y port v : Nat} {s : State} {p : FabPkt} {l : List FabPkt}

theorem fabEndpoint_none (h : (s.fabTurn x y port).find? (s.fabCan x y port) = none) : fabEndpoint x y port s = (s, false) := by
  unfold State.fabTurn State.fabCan at h
  rw [fabEndpoint, h]

theorem fabEndpoint_some (h : (s.fabTurn x y port).find? (s.fabCan x y port) = some v) (hw : s.fabWaits (fabKey x y port v) = p :: l) :
    fabEndpoint x y port s = (((s.setFabWaits (fabKey x y port v) l).fabEnter x y port p).setLast (fabOut x y (port + 5)) v, true) := by
  unfold State.fabTurn State.fabCan at h
  rw [fabEndpoint, h]
  dsimp only
  rw [hw]
  rfl

end

theorem slice0_arbitration : Slice0.Arbitration := by
  unfold Slice0.Arbitration
  refine ⟨fun _ _ _ _ => rfl, fun x y port r rs s => ⟨fabFirst_empty, fun p l hb => ⟨fabFirst_elsewhere hb, fabFirst_stays hb, fun hp hq => ?_⟩⟩,
    fun _ _ _ _ => rfl, fun x y port s => ⟨fabEndpoint_none, fun v p l hv hw => ?_⟩⟩
  · rw [fabFirst_granted hb hp hq]
    refine ⟨rfl, State.last_setLast .., ?_⟩
    rw [State.fabBuf_setLast, State.fabBuf_setFabBuf, if_pos rfl]
  · rw [fabEndpoint_some hv hw]
    refine ⟨rfl, ?_, State.last_setLast .., fun hvc => ?_⟩
    · rw [State.fabWaits_setLast, State.fabWaits_fabEnter, State.fabWaits_setFabWaits, if_pos rfl]
    · rw [State.fabBuf_setLast, State.fabBuf_fabEnter, State.fabBuf_fabPush, hvc, if_pos rfl, State.fabBuf_setFabWaits]

/-! ## A packet leaves a router (R22, R220, R222, R229, R338) -/

section
variable {x y port : Nat} {p : FabPkt} {s : State}

/-- What has left is counted at the level of its port. -/
def fabCounted (x y port : Nat) (p : FabPkt) (r : State × Bool) : State × Bool :=
  (if r.2 then r.1.bumpBy (F.FABRIC_FLIT_CNT (fabLevel x y port)) p.flits else r.1, r.2)

/-- The site of a router (spec/02 R17). -/
def routerSite (x y : Nat) : Nat := 16 * (8 * (y / 4) + x / 4) + 4 * (y % 4) + x % 4

/-- Whether the core port of a site takes no packets. -/
def State.siteShut (s : State) (site : Nat) : Prop := s.sitePower site < 2 ∨ s.fld (F.CORE_MAP_SITE_STATE_state site) = 3

theorem fabPass_midSeam (hp : port < 4) (hm : s.halfMode = true) (hl : fabLevel x y port = 3) :
    fabPass x y port p s = (s.fabRefuse x y 4 p, true) := by
  rw [fabPass, if_pos hp, hm, hl]
  rfl

/-- Toward a neighbour that the module has: lost there without its rail, else on to its buffer when there is a credit. -/
theorem fabPass_neighbour {n : Nat × Nat × Nat} (hn : fabNext x y port = n) (hp : port < 4) (h : s.halfMode = false ∨ fabLevel x y port ≠ 3) :
    fabPass x y port p s =
    (if s.routerDead n.1 then (s.bumpBy (F.FABRIC_FLIT_CNT (fabLevel x y port)) p.flits, true)
     else if s.fabRoom n.1 n.2.1 n.2.2 p.vc then
       (((s.out (.fab x y port p)).fabPush n.1 n.2.1 n.2.2 p).bumpBy (F.FABRIC_FLIT_CNT (fabLevel x y port)) p.flits, true)
     else (s, false)) := by
  have hno : ¬ (s.halfMode && decide (fabLevel x y port = 3)) = true := fun hb => by
    obtain ⟨hm, hl⟩ := Bool.and_eq_true_iff.1 hb
    exact h.elim (ne_false_of_eq_true hm) (absurd (of_decide_eq_true hl))
  rw [fabPass, if_pos hp, if_neg hno, hn]

theorem fabPass_shut (h : s.siteShut (routerSite x y)) : fabPass x y 4 p s =
    if p.vc = 0 ∧ !s.fabRoom x y 4 1 then (s, false) else ((s.bump F.CORE_MAP_ABSORB_CNT).fabFail x y 4 p E.FABRIC_DEST_DOWN, true) := by
  rw [fabPass, if_neg (by decide), if_pos rfl]
  exact if_pos h

theorem fabPass_core (h : ¬ s.siteShut (routerSite x y)) : fabPass x y 4 p s =
    if s.flag F.PWR_STS_hold then (s.kickSite (routerSite x y), false)
    else fabCounted x y 4 p (fabExecute x y 4 p (s.kickSite (routerSite x y))) := by
  rw [fabPass, if_neg (by decide), if_pos rfl]
  exact if_neg h

theorem fabPass_rim (h : 5 ≤ port) : fabPass x y port p s =
    fabCounted x y port p (if isLinkEp p.dst then fabToLink x y port (p.dst - 0x420) p s else fabExecute x y port p s) := by
  have hn : ¬ port < 4 := by omega
  have hc : port ≠ 4 := by omega
  rw [fabPass, if_neg hn, if_neg hc]
  rfl

theorem State.fabFail_request (h : p.vc = 0) (code : Nat) : s.fabFail x y port p code = s.fabRespond x y port p 15 (leBytes 2 code) := if_pos h
theorem State.fabFail_other (h : p.vc ≠ 0) (code : Nat) : s.fabFail x y port p code = s := if_neg h

end

theorem slice0_fabricPass : Slice0.FabricPass := by
  unfold Slice0.FabricPass
  intro x y p s
  dsimp only
  refine ⟨fun port hp => ⟨fabPass_midSeam hp, fun hm => ?_⟩, fun hs hv hr => ?_, fun hs hv => ?_, fun hs hv hr => ?_, fun hs hh => ?_, fun hs hh => ?_,
    fun port hp => ⟨fun hk => ?_, fun hk => ?_⟩⟩
  · rw [fabPass_neighbour rfl hp hm]
    exact ⟨fun hd => if_pos hd, fun hd hr => by rw [hd, hr]; rfl, fun hd hr => by rw [hd, hr]; rfl⟩
  · rw [fabPass_shut hs, if_pos ⟨hv, by rw [hr]; rfl⟩]
  · rw [fabPass_shut hs, if_neg fun h => hv h.1, State.fabFail_other hv]
  · rw [fabPass_shut hs, if_neg fun h => by rw [hr] at h; exact absurd h.2 (by decide), State.fabFail_request hv]
  · rw [fabPass_core hs, if_pos hh]
    rfl
  · rw [fabPass_core hs, if_neg (ne_true_of_eq_false hh)]
    rfl
  · rw [fabPass_rim hp, if_pos hk]
    rfl
  · rw [fabPass_rim hp, if_neg (ne_true_of_eq_false hk)]
    rfl

end Sys2Proof.Machine
end

section
/-! # Packets at their destination (O44; spec/10 R218, R220, R221, R223) -/

namespace Sys2Proof.Machine

/-- What comes of a request whose access has answered: done, failed with a code, absorbed with no answer, or it waits. -/
def fabDone (x y port : Nat) (p : FabPkt) (done : State → List Byte → State) : State × Bus → State × Bool
  | (t, .ok data) => (done t data, true)
  | (t, .fail code) => (t.fabFail x y port p code, true)
  | (t, .lost) => (t, true)
  | (t, .wait) => (t, false)

/-- The core that a packet comes from; none for one of the rim. -/
def fabOrigin (p : FabPkt) : Option Nat := if p.src < 896 then some p.src else none

section
variable {x y port : Nat} {p : FabPkt} {s : State}

theorem fabExecute_full (ht : p.type = 0 ∨ p.type = 1 ∨ p.type = 2 ∨ p.type = 6) (hr : ¬ s.fabRoom x y port 1 = true) :
    fabExecute x y port p s = (s, false) :=
  if_pos ⟨ht, by rw [Bool.eq_false_of_not_eq_true hr]; rfl⟩

theorem fabExecute_response (ht : p.type = 3 ∨ p.type = 4 ∨ p.type = 5 ∨ p.type = 15) : fabExecute x y port p s = (s, true) := by
  rcases ht with h | h | h | h <;> simp [fabExecute, h]

variable (hr : s.fabRoom x y port 1 = true)
include hr

theorem fabExecute_read (ht : p.type = 0) (h0 : 0 < p.len) (hn : p.len ≤ 2048) : fabExecute x y port p s =
    fabDone x y port p (fun t data => t.fabData x y port p data) (busRead false p.local_ p.len s) := by
  have hlen : ¬ (p.len = 0 ∨ 2048 < p.len) := by omega
  simp only [fabExecute, ht, hr, Bool.not_true, Bool.false_eq_true, and_false, if_false, hlen]
  rfl

theorem fabExecute_write (ht : p.type = 1 ∨ p.type = 6) (h0 : 0 < p.data.length) (hn : p.data.length ≤ 512 * p.flits) : fabExecute x y port p s =
    fabDone x y port p (fun t _ => t.fabRespond x y port p 4 [])
      (busWrite (fabOrigin p) false (decide (p.type = 6)) p.local_ p.data s) := by
  have hfits : ¬ (p.data.isEmpty = true ∨ (!p.fits) = true) := by
    rw [List.isEmpty_iff, FabPkt.fits, decide_eq_true hn]
    simpa using List.ne_nil_of_length_pos h0
  rcases ht with h | h <;> simp only [fabExecute, h, hr, Bool.not_true, Bool.false_eq_true, and_false, if_false, hfits] <;> rfl

theorem fabExecute_atomic (ht : p.type = 2) : fabExecute x y port p s =
    fabDone x y port p (fun t old => t.fabRespond x y port p 5 old)
      (busAtom false p.aop.toNat (if p.aw then 8 else 4) p.local_ (numAt p.data 0 8) (numAt p.data 8 8) s) := by
  simp only [fabExecute, ht, hr, Bool.not_true, Bool.false_eq_true, and_false, if_false]
  rfl

end

/-- The route table changes the header alone. -/
theorem State.translate_eq (s : State) (p : FabPkt) : ∃ hdr, s.translate p = { p with hdr := hdr } := by
  unfold State.translate
  split
  · exact ⟨_, rfl⟩
  · exact ⟨p.hdr, rfl⟩

/-- An answer carries its data and the address of its request. -/
theorem State.fabRespond_eq (s : State) (x y port : Nat) (p : FabPkt) (type : Nat) (data : List Byte) :
    ∃ q : FabPkt, s.fabRespond x y port p type data = s.fabInject x y port q ∧ q.data = data ∧ q.addr = p.addr := by
  obtain ⟨hdr, h⟩ := s.translate_eq
    { hdr := BitVec.ofNat 64 (p.tag * 2 ^ 43 + type * 2 ^ 39 + bit (decide (512 < data.length)) * 2 ^ 38 + 2 ^ 36 + p.src * 2 ^ 24 + p.dst * 2 ^ 12)
      addr := p.addr, data := data }
  exact ⟨_, congrArg (s.fabInject x y port) h, rfl, rfl⟩

theorem slice0_fabricExecution : Slice0.FabricExecution := by
  unfold Slice0.FabricExecution
  intro x y port p s
  dsimp only
  refine ⟨fabExecute_full, fabExecute_response, fun ht hr h0 hn => ?_, fun ht hr h0 hn => ?_, fun ht hr => ?_, fun _ => rfl, s.fabRespond_eq x y port p,
    fun _ => rfl⟩
  · rw [fabExecute_read hr ht h0 hn]
    exact ⟨fun t data h => by rw [h]; rfl, fun t code h => by rw [h]; rfl, fun t h => by rw [h]; rfl⟩
  · rw [fabExecute_write hr ht h0 hn, fabOrigin]
    exact ⟨fun t data h => by rw [h]; rfl, fun t code h => by rw [h]; rfl, fun t h => by rw [h]; rfl, fun t h => by rw [h]; rfl⟩
  · rw [fabExecute_atomic hr ht]
    exact ⟨fun t old h => by rw [h]; rfl, fun t code h => by rw [h]; rfl, fun t h => by rw [h]; rfl⟩

/-- Settles O44, from local accesses by the place of their range, the rules of buffers, the way of a packet, its arrival, grants, leaving and execution. -/
theorem fabricPackets : Obligations.FabricPackets :=
  ⟨slice0_localAccess, slice0_fabricBuffers, slice0_dimensionOrder, slice0_fabricArrival, slice0_arbitration, slice0_fabricPass, slice0_fabricExecution⟩

end Sys2Proof.Machine
end

section
/-! # Pressure windows of the fabric (O45; spec/10 R229, R230) -/

namespace Sys2Proof.Machine

theorem exec_fabricPressWindow (ports : List PressSample) (s : State) :
    exec (.fabricPressWindow ports) s = .next (ports.foldl pressPort (s, [])).1 := by rfl

/-- A reading of a level that there is acts as the statement says. -/
theorem pressPort_eq_pressed {g : PressSample} (h : g.level ≤ 4) (p : State × List Nat) : pressPort p g = Slice0.pressed p g := by
  unfold pressPort Slice0.pressed
  simp only [h.not_gt, if_false, List.contains_iff_mem, State.raiseDev]

/-- Settles O45: each reading of a window is the statement's, and the readings follow one another. -/
theorem fabricPressure : Obligations.FabricPressure := by
  unfold Obligations.FabricPressure
  intro ports s hports
  rw [exec_fabricPressWindow, List.foldl_ext pressPort Slice0.pressed (s, []) fun p g hg => pressPort_eq_pressed (hports g hg) p]

end Sys2Proof.Machine
end

section
/-! # A response timeout of a queue pair's request (O47; spec/11 R238, R257) -/

namespace Sys2Proof.Machine

theorem exec_remoteResponseTimeout (tag : BitVec 16) (s : State) :
    exec (.remoteResponseTimeout tag) s = .next (failReqs (fun r => r.tag = tag.toNat) E.REMOTE_TIMEOUT s) := by rfl

/-- A write of queue pair 0, with tag 0, waits for its answer. -/
def qpWaits : State := { State.reset with net := { reqs := [{ tag := 0, link := 0, qp := some 0, node := 0, op := opPut, src := .engine 0 0 }] } }

/-- Refutes O47: a request of a queue pair that fails without an answer leaves the sequence number of its late answer with the queue pair
(`lateNote`), while the clause of the timeout has only the requests without an answer change before the failures are delivered. -/
theorem not_responses : ¬ Obligations.Responses := by
  unfold Obligations.Responses
  rintro ⟨-, htimeout, -⟩
  have hsame := htimeout 0 qpWaits
  rw [exec_remoteResponseTimeout, Host.Outcome.next.injEq] at hsame
  have hlate := congrArg (fun t : State => (t.qpT 0).late) hsame
  exact absurd hlate (by decide)

end Sys2Proof.Machine
end

section
/-! # Control records, heartbeats and lost peers (O48; spec/11 R241, R257, R258; spec/12 R274; spec/13 R301; spec/14 R314) -/

namespace Sys2Proof.Machine

/-! ## Records (R241, R257) -/

theorem exec_ctlHeartbeat (link : BitVec 5) (r : List Byte) (s : State) :
    exec (.ctlHeartbeat link r) s = .next (ctlArrive 0 link r id s) := by rfl

theorem exec_ctlGoodbye (link : BitVec 5) (r : List Byte) (s : State) :
    exec (.ctlGoodbye link r) s = .next (ctlArrive 1 link r (peerLost (numAt r 24 4) 1) s) := by rfl

theorem exec_ctlVote (link : BitVec 5) (r : List Byte) (s : State) :
    exec (.ctlVote link r) s = .next (ctlArrive 2 link r (voteArrive r) s) := by rfl

theorem exec_ctlDecision (link : BitVec 5) (r : List Byte) (s : State) :
    exec (.ctlDecision link r) s = .next (ctlArrive 3 link r (decisionArrive
      { outcome := numAt r 1 1, freeze := (numAt r 2 1).testBit 0, compare := (numAt r 2 1).testBit 1, fid := numAt r 4 4, step := numAt r 8 8 }) s) := by
  rfl

/-- The commands of control records with the kind of each. -/
def recordKinds : List (Nat × (BitVec 5 → List Byte → Instr)) := [(0, .ctlHeartbeat), (1, .ctlGoodbye), (2, .ctlVote), (3, .ctlDecision)]

/-- Each of them is an arrival of its kind. -/
theorem exec_recordKinds {c : Nat × (BitVec 5 → List Byte → Instr)} (hc : c ∈ recordKinds) (link : BitVec 5) (r : List Byte) (s : State) :
    ∃ f : State → State, exec (c.2 link r) s = .next (ctlArrive c.1 link r f s) := by
  simp only [recordKinds, List.mem_cons, List.not_mem_nil, or_false] at hc
  rcases hc with rfl | rfl | rfl | rfl
  · exact ⟨_, exec_ctlHeartbeat link r s⟩
  · exact ⟨_, exec_ctlGoodbye link r s⟩
  · exact ⟨_, exec_ctlVote link r s⟩
  · exact ⟨_, exec_ctlDecision link r s⟩

section
variable {kind : Nat} {link : BitVec 5} {r : List Byte} {f : State → State} {s : State}

theorem ctlArrive_down (h : s.linkUp link.toNat = false) : ctlArrive kind link r f s = s := by
  rw [ctlArrive, h]
  rfl

variable (hu : s.linkUp link.toNat = true)
include hu

theorem ctlArrive_good (h : ctlOk kind r = true) : ctlArrive kind link r f s = f (s.freeFlits link.toNat 0 1) := by
  rw [ctlArrive, hu, h]
  rfl

theorem ctlArrive_bad {hdr : List Byte} (h : ctlOk kind r = false) (hh : Sparse.find (s.lnk link.toNat).heads 0 = some hdr) :
    ctlArrive kind link r f s = badPkt link.toNat hdr (s.freeFlits link.toNat 0 1) := by
  rw [ctlArrive, hu, h, hh]
  rfl

theorem ctlArrive_bad_headless (h : ctlOk kind r = false) (hh : Sparse.find (s.lnk link.toNat).heads 0 = none) :
    ctlArrive kind link r f s =
      (badPkt link.toNat ((List.range 32).map fun i => Config.freeByte s.free i) (s.freeFlits link.toNat 0 1)).tick := by
  rw [ctlArrive, hu, h, hh]
  rfl

end

theorem length_and_kind_of_ctlOk {kind : Nat} {r : List Byte} (h : ctlOk kind r = true) : r.length = 64 ∧ numAt r 0 1 = kind := by
  simp only [ctlOk, Bool.and_eq_true, decide_eq_true_eq] at h
  exact h.1

theorem slice0_recordsArrive : Slice0.RecordsArrive := by
  unfold Slice0.RecordsArrive
  intro link r s
  dsimp only
  refine ⟨fun hd c hc => ?_, fun hu => ⟨fun h => ?_, fun h => ?_, fun h => ?_, fun h => ?_, fun c hc h => ?_⟩, fun kind => length_and_kind_of_ctlOk⟩
  · obtain ⟨f, he⟩ := exec_recordKinds hc link r s
    rw [he, ctlArrive_down hd]
  · rw [exec_ctlHeartbeat, ctlArrive_good hu h]
    rfl
  · rw [exec_ctlGoodbye, ctlArrive_good hu h]
  · rw [exec_ctlVote, ctlArrive_good hu h]
  · rw [exec_ctlDecision, ctlArrive_good hu h]
  · obtain ⟨f, he⟩ := exec_recordKinds hc link r s
    rw [he]
    refine ⟨fun hdr hh => ?_, fun hh => ?_⟩
    · rw [ctlArrive_bad hu h hh]
      rfl
    · rw [ctlArrive_bad_headless hu h hh]
      rfl

/-! ## Heartbeats (R258) -/

theorem exec_heartbeatSend (s : State) : exec .heartbeatSend s = .next (heartbeatSend s) := by rfl

theorem heartbeatSend_idle {s : State} (h : s.jobLoaded = false) : heartbeatSend s = s := by
  rw [heartbeatSend, h]
  rfl

/-- The listed peers are the nodes of the valid entries of DEV_HB_LIST. -/
theorem State.mem_hbList (s : State) (n : Nat) :
    n ∈ s.hbList ↔ ∃ i, i < 64 ∧ s.flag (F.DEV_HB_LIST_valid i) = true ∧ s.fld (F.DEV_HB_LIST_node i) = n := by
  simp only [State.hbList, List.mem_filterMap, List.mem_range, Option.ite_none_right_eq_some, Option.some.injEq]

theorem slice0_heartbeatsLeave : Slice0.HeartbeatsLeave := by
  unfold Slice0.HeartbeatsLeave
  intro s
  rw [exec_heartbeatSend]
  refine ⟨fun h => by rw [heartbeatSend_idle h], fun h => ?_, s.mem_hbList⟩
  rw [heartbeatSend, h]
  rfl

/-! ## The roles of a lost node (R274, R301, R314; spec/09 R205, R206) -/

/-- An owner index of this engine whose Shadow is the node. -/
def State.exposedBy (s : State) (node : Nat) : Prop :=
  ∃ k, k < s.fld F.RED_OWNER_LEN ∧ s.isSelf (s.ownerNodes k).1 = true ∧ (s.ownerNodes k).2 = node ∧ (s.ownerNodes k).1 ≠ (s.ownerNodes k).2

/-- The state in which an owner that the loss exposes has noted the time. -/
def exposure (node : Nat) (s : State) : State :=
  if (List.range (s.fld F.RED_OWNER_LEN)).any (fun k =>
    s.isSelf (s.ownerNodes k).1 && (s.ownerNodes k).2 = node && decide ((s.ownerNodes k).1 ≠ (s.ownerNodes k).2))
  then s.setReg F.CKPT_EXPOSE_STS_start.addr s.now else s

theorem exposure_cases (node : Nat) (s : State) :
    (s.exposedBy node ∧ exposure node s = s.setReg F.CKPT_EXPOSE_STS_start.addr s.now) ∨ (¬ s.exposedBy node ∧ exposure node s = s) := by
  have hany : (List.range (s.fld F.RED_OWNER_LEN)).any (fun k =>
      s.isSelf (s.ownerNodes k).1 && (s.ownerNodes k).2 = node && decide ((s.ownerNodes k).1 ≠ (s.ownerNodes k).2)) = true ↔ s.exposedBy node := by
    simp only [State.exposedBy, List.any_eq_true, List.mem_range, Bool.and_eq_true, decide_eq_true_eq, and_assoc]
  by_cases h : s.exposedBy node
  · exact .inl ⟨h, if_pos (hany.2 h)⟩
  · exact .inr ⟨h, if_neg fun hb => h (hany.1 hb)⟩

theorem exposure_keeps {β : Type} (g : State → β) (h : ∀ (s : State) (v : W64), g (s.setReg F.CKPT_EXPOSE_STS_start.addr v) = g s) (node : Nat)
    (s : State) : g (exposure node s) = g s := by
  rcases exposure_cases node s with ⟨-, he⟩ | ⟨-, he⟩ <;> rw [he]
  exact h s _

theorem exposure_ownerNodes (node : Nat) (s : State) (k : Nat) : (exposure node s).ownerNodes k = s.ownerNodes k := by
  refine exposure_keeps (State.ownerNodes · k) (fun t v => ?_) node s
  have hbase : (t.setReg F.CKPT_EXPOSE_STS_start.addr v).fld F.RED_OWNER_BASE = t.fld F.RED_OWNER_BASE := by
    rw [State.fld, State.reg_setReg, if_neg (by decide), State.fld]
  have hbank : (t.setReg F.CKPT_EXPOSE_STS_start.addr v).fld F.RED_STS_bank = t.fld F.RED_STS_bank := by
    rw [State.fld, State.reg_setReg, if_neg (by decide), State.fld]
  rw [State.ownerNodes, State.ownerNodes, hbase, hbank, State.setReg_mem]

theorem exposure_isSelf (node : Nat) (s : State) (n : Nat) : (exposure node s).isSelf n = s.isSelf n := by
  refine exposure_keeps (State.isSelf · n) (fun t v => ?_) node s
  rw [State.isSelf, State.node, State.fld, State.reg_setReg, if_neg (by decide), State.isSelf, State.node, State.fld]

/-- This engine is the Shadow of owner 0, which is the node: it inherits the root's role. -/
def State.inherits (s : State) (node : Nat) : Prop := (s.ownerNodes 0).1 = node ∧ s.isSelf (s.ownerNodes 0).2 = true

theorem rolesLost_inherits {node : Nat} {s : State} (h : s.inherits node) : rolesLost node s =
    (exposure node s).setCk { (exposure node s).ckpt with heir := true, members := (exposure node s).heirMembers } := by
  rw [State.inherits, ← exposure_ownerNodes node s, ← exposure_isSelf node s] at h
  exact if_pos h

theorem rolesLost_leaves {node : Nat} {s : State} (h : ¬ s.inherits node) : rolesLost node s =
    (exposure node s).setCk { (exposure node s).ckpt with
      members := (exposure node s).ckpt.members.filter (· ≠ node), joins := (exposure node s).ckpt.joins.filter (· ≠ node) } := by
  rw [State.inherits, ← exposure_ownerNodes node s, ← exposure_isSelf node s] at h
  exact if_neg h

/-- But for the state of CKPT, the roles change what the exposure changes. -/
theorem rolesLost_keeps {β : Type} (g : State → β) (h : ∀ (s : State) (c : Ckpt), g (s.setCk c) = g s) (node : Nat) (s : State) :
    g (rolesLost node s) = g (exposure node s) := by
  by_cases hi : s.inherits node
  · rw [rolesLost_inherits hi, h]
  · rw [rolesLost_leaves hi, h]

/-- An heir knows no lost node as a member. -/
theorem State.not_mem_heirMembers {s : State} {n : Nat} (h : n ∈ s.net.gone) : n ∉ s.heirMembers := fun hm => by
  simp only [State.heirMembers, List.mem_filter, List.contains_iff_mem.2 h, Bool.not_true, Bool.false_eq_true, and_false] at hm

theorem rolesLost_exposes (node : Nat) (s : State) : (s.exposedBy node → (rolesLost node s).reg F.CKPT_EXPOSE_STS_start.addr = s.now)
    ∧ (¬ s.exposedBy node → (rolesLost node s).regs = s.regs) := by
  rw [rolesLost_keeps (State.reg · _) (fun _ _ => rfl), rolesLost_keeps State.regs fun _ _ => rfl]
  rcases exposure_cases node s with ⟨hx, he⟩ | ⟨hx, he⟩ <;> rw [he]
  · exact ⟨fun _ => by rw [State.reg_setReg, if_pos rfl], fun h => absurd hx h⟩
  · exact ⟨fun h => absurd h hx, fun _ => rfl⟩

theorem rolesLost_heir {node : Nat} {s : State} (h : s.inherits node) :
    (rolesLost node s).ckpt.heir = true ∧ (node ∈ s.net.gone → node ∉ (rolesLost node s).ckpt.members) := by
  rw [rolesLost_inherits h]
  refine ⟨rfl, fun hg => State.not_mem_heirMembers ?_⟩
  rwa [exposure_keeps State.net fun _ _ => rfl]

theorem rolesLost_members {node : Nat} {s : State} (h : ¬ s.inherits node) :
    (rolesLost node s).ckpt.heir = s.ckpt.heir ∧ node ∉ (rolesLost node s).ckpt.members
    ∧ ∀ n, n ≠ node → (n ∈ (rolesLost node s).ckpt.members ↔ n ∈ s.ckpt.members) := by
  rw [rolesLost_leaves h, State.setCk_ckpt, exposure_keeps State.ckpt fun _ _ => rfl]
  simp +contextual

/-! ## The loss of a peer (R258) -/

theorem exec_peerTimeout (node : BitVec 22) (s : State) : exec (.peerTimeout node) s = .next (peerLost node.toNat 0 s) := by rfl

/-- Nothing of a job runs, the node is no listed peer, or it has been declared lost before. -/
def State.notLosing (s : State) (node : Nat) : Prop :=
  ¬ (s.jobLoaded = true ∨ s.flag F.WSTREAM_JOB_STS_starting = true) ∨ node ∉ s.hbList ∨ node ∈ s.net.gone

/-- The state in which a lost peer's requests have failed, the loss is reported and its streams are dropped. -/
def peerDropped (node reason : Nat) (s : State) : State :=
  streamsDrop node ((failReqs (fun r => decide (r.node = node)) E.PEER_LOST { s with net := { s.net with gone := node :: s.net.gone } }).raise
    EV.PEER_LOST 8 node (leBytes 3 node ++ leBytes 1 reason))

/-- The state in which its roles have passed on and RED has abandoned the step when it worked with the node. -/
def peerReplaced (node : Nat) (s : State) : State :=
  if (rolesLost node s).redPeer node then abandon (redAbandon 1 (rolesLost node s)) else rolesLost node s

theorem notLosing_iff (node : Nat) (s : State) :
    (!(s.jobLoaded || s.flag F.WSTREAM_JOB_STS_starting) || !s.hbList.contains node || s.net.gone.contains node) = true ↔ s.notLosing node := by
  simp only [State.notLosing, Bool.or_eq_true, Bool.not_eq_true', Bool.eq_false_iff, ne_eq, List.contains_iff_mem, or_assoc]

section
variable {node reason : Nat} {s : State}

theorem peerLost_ignored (h : s.notLosing node) : peerLost node reason s = s := if_pos ((notLosing_iff node s).2 h)

variable (h : ¬ s.notLosing node)
include h

theorem peerLost_eq {s3 s5 : State} (h3 : peerDropped node reason s = s3) (h5 : peerReplaced node s3 = s5) : peerLost node reason s =
    if !s3.jobLoaded then s3
    else if s.ckpt.members.contains node ∧ s5.isSelf s5.rootNode ∧ !s5.ckpt.heir ∧ !s5.ckpt.aborted then decide_ outAbort s5 else s5 := by
  unfold peerLost
  rw [if_neg fun hb => h ((notLosing_iff node s).1 hb)]
  extract_lets member net t1 t2 t3 t4 t5
  have ht3 : peerDropped node reason s = t3 := rfl
  have ht5 : peerReplaced node t3 = t5 := rfl
  rw [← h5, ← h3, ht3, ht5]

theorem peerLost_starting (hj : (peerDropped node reason s).jobLoaded = false) : peerLost node reason s = peerDropped node reason s := by
  rw [peerLost_eq h rfl rfl, hj]
  rfl

theorem peerLost_loaded {s3 s5 : State} (h3 : peerDropped node reason s = s3) (h5 : peerReplaced node s3 = s5) (hj : s3.jobLoaded = true) :
    peerLost node reason s =
    if node ∈ s.ckpt.members ∧ s5.isSelf s5.rootNode = true ∧ s5.ckpt.heir = false ∧ s5.ckpt.aborted = false then decide_ outAbort s5 else s5 := by
  rw [peerLost_eq h h3 h5, hj]
  simp only [Bool.not_true, Bool.false_eq_true, if_false, List.contains_iff_mem, Bool.not_eq_true']

end

theorem slice0_peerLoss : Slice0.PeerLoss := by
  unfold Slice0.PeerLoss
  refine ⟨exec_peerTimeout, fun node reason s => ?_, fun node s => ?_⟩
  · intro running s1 s2 s3 s4 s5 aborts
    have h3 : peerDropped node reason s = s3 := rfl
    have h5 : peerReplaced node s3 = s5 := rfl
    refine ⟨peerLost_ignored, fun hr hl hg => ?_⟩
    have hlosing : ¬ s.notLosing node := by
      rintro (h | h | h)
      exacts [h hr, h hl, hg h]
    refine ⟨fun hj => peerLost_starting hlosing hj, fun hj ha => ?_, fun hj ha => ?_⟩
    · rw [peerLost_loaded hlosing h3 h5 hj, if_pos ha]
    · rw [peerLost_loaded hlosing h3 h5 hj, if_neg ha]
  · obtain ⟨hexposes, hrest⟩ := rolesLost_exposes node s
    refine ⟨hexposes, hrest, ⟨rolesLost_heir, rolesLost_members⟩, rolesLost_mem node s, ?_, ?_⟩
    · exact (rolesLost_keeps State.cores (fun _ _ => rfl) node s).trans (exposure_keeps State.cores (fun _ _ => rfl) node s)
    · exact (rolesLost_keeps State.net (fun _ _ => rfl) node s).trans (exposure_keeps State.net (fun _ _ => rfl) node s)

/-- Settles O48: control records as arrivals of their kind, heartbeats to the listed peers, and the loss of a peer with what its roles become. -/
theorem controlRecords : Obligations.ControlRecords := ⟨slice0_recordsArrive, slice0_heartbeatsLeave, slice0_peerLoss⟩

end Sys2Proof.Machine
end

section
/-! # The state of a link and of its ports (O42, O43; spec/11 R233, R234, R256) -/

namespace Sys2Proof.Machine

/-! ## What a new state of a link leaves -/

section
variable (s : State) (k st : Nat)

/-- Everything that registers do not hold stays. -/
theorem State.setLink_keeps {β : Type} (g : State → β) (h : ∀ (s : State) (a : Nat) (v : W64), g (s.setReg a v) = g s) : g (s.setLink k st) = g s := by
  unfold State.setLink
  dsimp only
  split
  · exact h _ _ _
  · exact (h _ _ _).trans (h _ _ _)

theorem State.setLink_net : (s.setLink k st).net = s.net := s.setLink_keeps k st State.net fun _ _ _ => rfl
theorem State.setLink_cores : (s.setLink k st).cores = s.cores := s.setLink_keeps k st State.cores fun _ _ _ => rfl
theorem State.setLink_lnk (j : Nat) : (s.setLink k st).lnk j = s.lnk j := s.setLink_keeps k st (State.lnk · j) fun _ _ _ => rfl

/-- A field that shares no bit with the state and the width of the link stays. -/
theorem State.setLink_fld {g : Fld} (h : g.addr ≠ (F.LINK_STS_state k).addr ∨ 13 ≤ g.lo) : (s.setLink k st).fld g = s.fld g := by
  have hstate : ∀ (t : State) (v : Nat), (t.setFld (F.LINK_STS_state k) v).fld g = t.fld g := fun t v =>
    h.elim (State.fld_setFld_addr t _ g v) fun hl => State.fld_setFld_bits t (F.LINK_STS_state k) g v (.inr (Nat.le_trans (by omega : 0 + 3 ≤ 13) hl))
  have hwidth : ∀ (t : State) (v : Nat), (t.setFld (F.LINK_STS_width k) v).fld g = t.fld g := fun t v =>
    h.elim (State.fld_setFld_addr t (F.LINK_STS_width k) g v) fun hl => State.fld_setFld_bits t (F.LINK_STS_width k) g v (.inr hl)
  unfold State.setLink
  dsimp only
  split
  · exact hstate s st
  · exact (hwidth _ 0).trans (hstate s st)

theorem State.linkState_setLink {st : Nat} (h : st < 8) : (s.setLink k st).linkState k = st := by
  have hstate : (s.setFld (F.LINK_STS_state k) st).fld (F.LINK_STS_state k) = st :=
    (State.fld_setFld _ _ _ (by omega : 0 + 3 ≤ 64)).trans (Nat.mod_eq_of_lt h)
  unfold State.setLink State.linkState
  dsimp only
  split
  · exact hstate
  · rw [State.fld_setFld_bits _ (F.LINK_STS_width k) (F.LINK_STS_state k) _ (.inl (by omega : 0 + 3 ≤ 8)), hstate]

theorem State.linkState_setLink_ne {j : Nat} (h : j ≠ k) : (s.setLink k st).linkState j = s.linkState j :=
  s.setLink_fld k st (.inl fun ha => h (by dsimp only at ha; omega))

end

/-- A word of a link's status is none of the event ring's counters. -/
theorem linkSts_off_evtWords {k : Nat} (h : k < 32) : 0x30005000008 + 65536 * k ∉ evtWords := by
  simp only [evtWords, List.mem_cons, List.not_mem_nil, or_false]
  omega

theorem State.linkState_raise (s : State) (c kind src : Nat) (p : List Byte) {k : Nat} (h : k < 32) :
    (s.raise c kind src p).linkState k = s.linkState k := fld_raise _ _ _ _ _ _ (linkSts_off_evtWords h)

end Sys2Proof.Machine
end

section
/-! # Flits of a link (O43; spec/11 R234, R240-R243) -/

namespace Sys2Proof.Machine

/-! ## Arrival (R234, R240, R242) -/

theorem exec_ofpFlitReceive (link : BitVec 5) (f : Flit) (s : State) : exec (.ofpFlitReceive link f) s = .next (flitReceive link.toNat f s) := by rfl

/-- The state that has counted the codewords of a flit. -/
def State.flitCounted (s : State) (k : Nat) (f : Flit) : State :=
  (s.bumpBy (F.LINK_FEC_CORR_CNT k) f.corrected).bumpBy (F.LINK_FEC_UNCORR_CNT k) f.uncorr

/-- The next flit that the link sends carries a nak. -/
def State.naks (s : State) (k : Nat) : State := s.setLnk k { s.lnk k with nak := true }

/-- The acknowledgement of a flit has acted. -/
def State.flitAcked (s : State) (k : Nat) (f : Flit) : State := s.setLnk k ((s.lnk k).acked (fieldOf f.w0 12 12))

/-- The nak of a flit has acted. -/
def State.flitNaked (s : State) (k : Nat) (f : Flit) : State := if f.w0.getLsbD 24 then replayAll k s else s

section
variable {k : Nat} {f : Flit} {s : State}

theorem flitReceive_down (h : s.linkUp k = false) : flitReceive k f s = s := by
  rw [flitReceive, h]
  rfl

theorem flitReceive_reset (h : s.linkUp k = true) (hr : f.reset = true) : flitReceive k f s = linkFault k caReset s := by
  rw [flitReceive, h, hr]
  rfl

theorem flitReceive_broken (h : s.linkUp k = true) (hr : f.reset = false) (hb : f.fecOk = false ∨ f.crcOk = false) :
    flitReceive k f s = (s.flitCounted k f).naks k := by
  rw [flitReceive, h, hr]
  exact if_neg fun hok => by
    obtain ⟨hfec, hcrc⟩ := Bool.and_eq_true_iff.1 hok
    exact hb.elim (ne_false_of_eq_true hfec) (ne_false_of_eq_true hcrc)

theorem flitReceive_whole (h : s.linkUp k = true) (hr : f.reset = false) (hf : f.fecOk = true) (hc : f.crcOk = true) :
    flitReceive k f s = flitWhole k f (s.flitCounted k f) := by
  rw [flitReceive, h, hr, hf, hc]
  rfl

/-- A flit of the replay buffer has been sent again eight times. -/
def State.worn (s : State) (k : Nat) : Prop := ∃ t ∈ (s.lnk k).replay, 8 ≤ t.tries

theorem State.any_tries_iff (s : State) (k : Nat) : (s.lnk k).replay.any (fun t => decide (8 ≤ t.tries)) = true ↔ s.worn k := by
  simp only [State.worn, List.any_eq_true, decide_eq_true_eq]

theorem flitWhole_worn (hn : f.w0.getLsbD 24 = true) (hw : (s.flitAcked k f).worn k) : flitWhole k f s = linkFault k caReplay (s.flitAcked k f) :=
  if_pos (Bool.and_eq_true_iff.2 ⟨hn, (State.any_tries_iff _ k).2 hw⟩)

theorem flitWhole_goes (h : f.w0.getLsbD 24 = false ∨ ¬ (s.flitAcked k f).worn k) : flitWhole k f s =
    (if fieldOf f.w0 0 12 = ((((s.flitAcked k f).flitNaked k f).lnk k).rx + 1) % 4096 then flitAccept k f ((s.flitAcked k f).flitNaked k f)
     else ((s.flitAcked k f).flitNaked k f).naks k).pumpLink k :=
  if_neg fun hb => by
    obtain ⟨hn, hw⟩ := Bool.and_eq_true_iff.1 hb
    exact h.elim (ne_false_of_eq_true hn) (absurd ((State.any_tries_iff _ k).1 hw))

theorem flitWhole_next (h : f.w0.getLsbD 24 = false ∨ ¬ (s.flitAcked k f).worn k)
    (hn : fieldOf f.w0 0 12 = ((((s.flitAcked k f).flitNaked k f).lnk k).rx + 1) % 4096) :
    flitWhole k f s = (flitAccept k f ((s.flitAcked k f).flitNaked k f)).pumpLink k := by
  rw [flitWhole_goes h, if_pos hn]

theorem flitWhole_gap (h : f.w0.getLsbD 24 = false ∨ ¬ (s.flitAcked k f).worn k)
    (hn : fieldOf f.w0 0 12 ≠ ((((s.flitAcked k f).flitNaked k f).lnk k).rx + 1) % 4096) :
    flitWhole k f s = (((s.flitAcked k f).flitNaked k f).naks k).pumpLink k := by
  rw [flitWhole_goes h, if_neg hn]

end

theorem slice0_flitArrives : Slice0.FlitArrives := by
  unfold Slice0.FlitArrives
  intro link f s
  dsimp only
  rw [exec_ofpFlitReceive]
  refine ⟨fun h => congrArg _ (flitReceive_down h), fun h => ⟨fun hr => congrArg _ (flitReceive_reset h hr), fun hr hb =>
    congrArg _ (flitReceive_broken h hr hb), fun hr hf hc => ?_⟩⟩
  rw [flitReceive_whole h hr hf hc]
  exact ⟨fun hn hw => congrArg _ (flitWhole_worn hn hw), fun hg => ⟨fun hn => congrArg _ (flitWhole_next hg hn),
    fun hn => congrArg _ (flitWhole_gap hg hn)⟩⟩

/-! ## Acceptance (R241, R243) -/

/-- A flit starts a packet, or belongs to one that has started. -/
def LinkSt.inside (l : LinkSt) (f : Flit) : Bool := f.w0.getLsbD 25 || l.part.isSome

/-- The packet that a flit goes on with has been dropped. -/
def LinkSt.dropping (l : LinkSt) (f : Flit) : Bool := !f.w0.getLsbD 25 && l.bad

/-- A flit makes its packet malformed. -/
def LinkSt.spoils (l : LinkSt) (f : Flit) : Bool := l.inside f && flitBad f (f.w0.getLsbD 25)

theorem LinkSt.inside_iff (l : LinkSt) (f : Flit) : l.inside f = true ↔ f.w0.getLsbD 25 = true ∨ l.part ≠ none := by
  rw [LinkSt.inside, Bool.or_eq_true, Option.isSome_iff_ne_none]

theorem LinkSt.dropping_iff (l : LinkSt) (f : Flit) : l.dropping f = true ↔ f.w0.getLsbD 25 = false ∧ l.bad = true := by
  rw [LinkSt.dropping, Bool.and_eq_true, Bool.not_eq_true']

theorem LinkSt.spoils_iff (l : LinkSt) (f : Flit) :
    l.spoils f = true ↔ (f.w0.getLsbD 25 = true ∨ l.part ≠ none) ∧ flitBad f (f.w0.getLsbD 25) = true := by
  rw [LinkSt.spoils, Bool.and_eq_true, LinkSt.inside_iff]

/-- The headers of the last packets after a flit: a head flit brings that of its channel. -/
def LinkSt.headsWith (l : LinkSt) (f : Flit) : Sparse (List Byte) :=
  if f.w0.getLsbD 25 then
    Sparse.put l.heads (fieldOf f.w0 27 4) (leBytes 8 f.w0.toNat ++ leBytes 8 f.w1.toNat ++ leBytes 8 f.w2.toNat ++ leBytes 8 f.w3.toNat)
  else l.heads

/-- The flits of the packet that have arrived with this one. -/
def LinkSt.partWith (l : LinkSt) (f : Flit) : Nat := (if f.w0.getLsbD 25 then 0 else l.part.getD 0) + 1

/-- The link layer that has accepted a flit. -/
def LinkSt.accepts (l : LinkSt) (f : Flit) : LinkSt :=
  let vc := fieldOf f.w0 27 4
  let cv := fieldOf f.w0 31 4
  { l with
    rx := fieldOf f.w0 0 12
    used := if fieldOf f.w0 35 12 = 0 then l.used else Sparse.put l.used cv (Sparse.get l.used 0 cv - fieldOf f.w0 35 12)
    held := if l.inside f then Sparse.put l.held vc (Sparse.get l.held 0 vc + 1) else l.held
    heads := l.headsWith f
    part := if l.inside f && !f.w0.getLsbD 26 then some (l.partWith f) else none
    bad := (l.dropping f || l.spoils f) && !f.w0.getLsbD 26 }

theorem flitAccept_eq (k : Nat) (f : Flit) (s : State) : flitAccept k f s =
    let l := s.lnk k
    let s1 := s.setLnk k (l.accepts f)
    let s2 := if l.spoils f && !l.dropping f then badPkt k (Sparse.get (l.headsWith f) [] (fieldOf f.w0 27 4)) s1 else s1
    if f.w0.getLsbD 26 && (l.dropping f || l.spoils f) then s2.freeFlits k (fieldOf f.w0 27 4) (l.partWith f) else s2 := by rfl

section
variable {k : Nat} {f : Flit} {s : State}

theorem flitAccept_plain (hb : (s.lnk k).spoils f = false) (hw : (s.lnk k).dropping f = false) :
    flitAccept k f s = s.setLnk k ((s.lnk k).accepts f) := by
  rw [flitAccept_eq]
  simp only [hb, hw, Bool.false_and, Bool.or_false, Bool.and_false, Bool.false_eq_true, if_false]

theorem flitAccept_spoils (hb : (s.lnk k).spoils f = true) (hw : (s.lnk k).dropping f = false) : flitAccept k f s =
    let s2 := badPkt k (Sparse.get ((s.lnk k).headsWith f) [] (fieldOf f.w0 27 4)) (s.setLnk k ((s.lnk k).accepts f))
    if f.w0.getLsbD 26 then s2.freeFlits k (fieldOf f.w0 27 4) ((s.lnk k).partWith f) else s2 := by
  rw [flitAccept_eq]
  simp only [hb, hw, Bool.not_false, Bool.and_true, Bool.or_true, if_true]

theorem flitAccept_dropping (hw : (s.lnk k).dropping f = true) : flitAccept k f s =
    let s1 := s.setLnk k ((s.lnk k).accepts f)
    if f.w0.getLsbD 26 then s1.freeFlits k (fieldOf f.w0 27 4) ((s.lnk k).partWith f) else s1 := by
  rw [flitAccept_eq]
  simp only [hw, Bool.not_true, Bool.and_false, Bool.true_or, Bool.and_true, Bool.false_eq_true, if_false]

end

theorem LinkSt.bad_accepts (l : LinkSt) (f : Flit) : (l.accepts f).bad = true ↔
    ((f.w0.getLsbD 25 = false ∧ l.bad = true) ∨ ((f.w0.getLsbD 25 = true ∨ l.part ≠ none) ∧ flitBad f (f.w0.getLsbD 25) = true))
      ∧ f.w0.getLsbD 26 = false := by
  rw [← LinkSt.dropping_iff, ← LinkSt.spoils_iff, ← Bool.or_eq_true, ← Bool.not_eq_true', ← Bool.and_eq_true]
  rfl

theorem slice0_flitAccepted : Slice0.FlitAccepted := by
  unfold Slice0.FlitAccepted
  intro k f s l head tail vc cv back inside bad was n t heads s1 s2
  have hbad : decide ((was ∨ bad) ∧ tail = false) = (l.accepts f).bad := Bool.eq_iff_iff.2 (decide_eq_true_iff.trans (l.bad_accepts f).symm)
  have hlnk : s1 = s.setLnk k (l.accepts f) := by
    simp only [s1, hbad, LinkSt.accepts, Bool.and_eq_true, Bool.not_eq_true', LinkSt.inside_iff]
    rfl
  have h2 : s2 = badPkt k (Sparse.get (l.headsWith f) [] vc) (s.setLnk k (l.accepts f)) := by rw [← hlnk]; rfl
  rw [h2, hlnk]
  refine ⟨fun hb hw => ?_, fun hb hw => ?_, fun hw => ?_⟩
  · exact flitAccept_plain (Bool.eq_false_iff.2 (mt (l.spoils_iff f).1 hb)) (Bool.eq_false_iff.2 (mt (l.dropping_iff f).1 hw))
  · exact flitAccept_spoils ((l.spoils_iff f).2 hb) (Bool.eq_false_iff.2 (mt (l.dropping_iff f).1 hw))
  · exact flitAccept_dropping ((l.dropping_iff f).2 hw)

/-! ## Null flits (R242) -/

theorem exec_nullFlitSend (link : BitVec 5) (s : State) : exec (.nullFlitSend link) s = .next (nullFlit link.toNat s) := by rfl

/-- A flit that leaves for the first time takes the next number, lies in the replay buffer and answers what was to be answered. -/
theorem LinkSt.sendNew_fields (l : LinkSt) (f : Flit) : (l.sendNew f).1.tx = (l.tx + 1) % 4096 ∧ (l.sendNew f).1.rx = l.rx ∧ (l.sendNew f).1.nak = false
    ∧ ∃ g, (l.sendNew f).1.replay = l.replay ++ [⟨l.tx, 0, g⟩] :=
  ⟨rfl, rfl, rfl, _, rfl⟩

/-- A link that may send a null flit. -/
def State.linkIdle (s : State) (k : Nat) : Prop :=
  s.linkUp k = true ∧ (s.lnk k).queue = [] ∧ (s.lnk k).out = [] ∧ (s.lnk k).replay.length < 2048

theorem linkIdle_iff (s : State) (k : Nat) :
    ¬ (!s.linkUp k ∨ !(s.lnk k).queue.isEmpty ∨ !(s.lnk k).out.isEmpty ∨ 2048 ≤ (s.lnk k).replay.length) ↔ s.linkIdle k := by
  simp only [State.linkIdle, not_or, Bool.not_eq_true, Bool.not_eq_false', List.isEmpty_iff, Nat.not_le]

theorem nullFlit_busy {k : Nat} {s : State} (h : ¬ s.linkIdle k) : nullFlit k s = s :=
  if_pos (not_not.1 (mt (linkIdle_iff s k).1 h))

theorem nullFlit_idle {k : Nat} {s : State} (h : s.linkIdle k) : nullFlit k s =
    (s.setLnk k ((s.lnk k).sendNew { w0 := 0 }).1).out (.flit k ((s.lnk k).sendNew { w0 := 0 }).2) :=
  if_neg ((linkIdle_iff s k).2 h)

theorem slice0_nullFlits : Slice0.NullFlits := by
  unfold Slice0.NullFlits
  intro link s
  dsimp only
  rw [exec_nullFlitSend]
  refine ⟨fun h => congrArg _ (nullFlit_busy h), fun h => ⟨_, exec_nullFlitSend link s, ?_⟩⟩
  rw [nullFlit_idle h]
  beta_reduce
  rw [State.out_lnk, State.lnk_setLnk, if_pos rfl]
  obtain ⟨htx, hrx, hnak, hreplay⟩ := LinkSt.sendNew_fields (s.lnk link.toNat) { w0 := 0 }
  refine ⟨htx, hrx, hnak, hreplay, ⟨_, rfl⟩, rfl, rfl, rfl, rfl, fun j hj => ?_⟩
  rw [State.out_lnk, State.lnk_setLnk, if_neg hj]

end Sys2Proof.Machine
end

section
/-! # Links that go down (O43; spec/11 R256) -/

namespace Sys2Proof.Machine

/-- The state in which a link that goes down has left its up-set, and the groups it is in are held. -/
def State.linkLeft (s : State) (k : Nat) : State :=
  { s with net := { s.net with
    up := s.net.up.filter (fun j => decide (j ≠ k)), joining := s.net.joining.filter (fun j => decide (j ≠ k))
    held := (s.net.held ++ s.groupsOf k).dedup
    links := Sparse.put s.net.links k { lost := (s.lnk k).lost, once := (s.lnk k).once } } }

/-- The state in which the link is DOWN, which is reported. -/
def State.linkLost (s : State) (k cause : Nat) : State :=
  ((s.linkLeft k).setLink k lsDown).raise EV.LINK_DOWN 4 k (leBytes 1 k ++ leBytes 1 cause)

section
variable {k cause : Nat} {s : State}

theorem linkDown_other (h : s.linkState k ≠ lsUp) : linkDown k cause s = s := if_pos h

theorem linkDown_up (h : s.linkState k = lsUp) :
    linkDown k cause s = failReqs (fun r => r.qp.isNone && decide (r.link = k)) E.LINK_DOWN (s.linkLost k cause) := if_neg (not_not_intro h)

theorem linkFault_other (h : s.linkState k ≠ lsUp) : linkFault k cause s = s := if_pos h

theorem linkFault_up (h : s.linkState k = lsUp) : linkFault k cause s =
    if (linkDown k cause s).flag (F.LINK_CFG_auto_retrain k) then linkTrain k (linkDown k cause s) else linkDown k cause s := if_neg (not_not_intro h)

theorem linkFault_stays (h : s.linkState k = lsUp) (ha : (linkDown k cause s).flag (F.LINK_CFG_auto_retrain k) = false) :
    linkFault k cause s = linkDown k cause s := by
  rw [linkFault_up h, ha]
  rfl

theorem linkFault_trains (h : s.linkState k = lsUp) (ha : (linkDown k cause s).flag (F.LINK_CFG_auto_retrain k) = true) :
    linkFault k cause s = linkTrain k (linkDown k cause s) := by
  rw [linkFault_up h, ha]
  rfl

end

section
variable (s : State) (k cause : Nat)

theorem State.linkLost_net : (s.linkLost k cause).net = (s.linkLeft k).net := by
  rw [State.linkLost, State.raise_net, State.setLink_net]

theorem State.linkLost_lnk (j : Nat) : (s.linkLost k cause).lnk j = (s.linkLeft k).lnk j := by
  rw [State.lnk, State.linkLost_net, State.lnk]

theorem State.linkLeft_lnk {j : Nat} (h : j ≠ k) : (s.linkLeft k).lnk j = s.lnk j := by
  rw [State.lnk]
  exact (Sparse.get_put ..).trans (if_neg h)

theorem State.mem_groupsOf (g : Nat) : g ∈ s.groupsOf k ↔ g < 64 ∧ (s.reg (F.DEV_LGRP_MASK g).addr).getLsbD k = true := by
  rw [State.groupsOf, List.mem_filter, List.mem_range]

theorem State.linkLost_state (h : k < 32) : (s.linkLost k cause).linkState k = lsDown := by
  rw [State.linkLost, State.linkState_raise _ _ _ _ _ h, State.linkState_setLink _ _ (by decide)]

theorem State.linkLost_state_ne {j : Nat} (h : j < 32) (hj : j ≠ k) : (s.linkLost k cause).linkState j = s.linkState j := by
  rw [State.linkLost, State.linkState_raise _ _ _ _ _ h, State.linkState_setLink_ne _ _ _ hj]
  rfl

end

theorem exec_linkIdleTimeout (link : BitVec 5) (s : State) : exec (.linkIdleTimeout link) s = .next (linkFault link.toNat caIdle s) := by rfl
theorem exec_linkCreditTimeout (link : BitVec 5) (vc : BitVec 4) (s : State) :
    exec (.linkCreditTimeout link vc) s = .next (linkFault link.toNat caCredit s) := by rfl

theorem slice0_linkTimeouts : Slice0.LinkTimeouts := by
  unfold Slice0.LinkTimeouts
  refine ⟨fun link vc s => ?_, fun k cause s hk _ hup => ?_, fun k cause s => linkDown_other⟩
  · dsimp only
    rw [exec_linkIdleTimeout, exec_linkCreditTimeout]
    exact ⟨fun h => ⟨congrArg _ (linkFault_other h), congrArg _ (linkFault_other h)⟩, fun h =>
      ⟨⟨fun ha => congrArg _ (linkFault_stays h ha), fun ha => congrArg _ (linkFault_trains h ha)⟩,
        fun ha => congrArg _ (linkFault_stays h ha), fun ha => congrArg _ (linkFault_trains h ha)⟩⟩
  · intro s1 s2
    have h2 : s2 = s.linkLost k cause := rfl
    rw [h2, State.linkLost_net]
    refine ⟨linkDown_up hup, s.linkLost_state k cause hk, ?_, ?_, fun g hg hm => ?_, fun j hj hne => ⟨s.linkLost_state_ne k cause hj hne, ?_⟩⟩
    · simp [State.linkLeft]
    · simp [State.linkLeft]
    · exact List.mem_dedup.2 (List.mem_append_right _ ((s.mem_groupsOf k g).2 ⟨hg, hm⟩))
    · rw [State.linkLost_lnk, State.linkLeft_lnk s k hne]

end Sys2Proof.Machine
end

section
/-! # Up-sets and what a drain holds (O43; spec/11 R249, R253, R256) -/

namespace Sys2Proof.Machine

/-! ## Admission -/

/-- The links that an admission has join: UP, in no up-set, and not joining yet. -/
def State.admits (s : State) : List Nat := (List.range 32).filter (fun k => s.linkUp k && !s.net.up.contains k && !s.net.joining.contains k)

theorem State.mem_admits (s : State) (k : Nat) : k ∈ s.admits ↔ k < 32 ∧ s.linkUp k = true ∧ k ∉ s.net.up ∧ k ∉ s.net.joining := by
  simp only [State.admits, List.mem_filter, List.mem_range, Bool.and_eq_true, Bool.not_eq_true', ← Bool.not_eq_true, List.contains_iff_mem, and_assoc]

theorem exec_devLgrpAdmit (s : State) : exec .devLgrpAdmit s = .next { s with net := { s.net with
    joining := s.net.joining ++ s.admits, held := (s.net.held ++ s.admits.flatMap s.groupsOf).dedup } } := by rfl

theorem admission (s : State) : Slice0.Does .devLgrpAdmit s (fun t =>
      (∀ k, k ∈ t.net.joining ↔ k ∈ s.net.joining ∨ (k < 32 ∧ s.linkUp k = true ∧ k ∉ s.net.up))
      ∧ (∀ k g, k < 32 → s.linkUp k = true → k ∉ s.net.up → k ∉ s.net.joining → g ∈ s.groupsOf k → g ∈ t.net.held)
      ∧ (∀ g ∈ s.net.held, g ∈ t.net.held)
      ∧ t.net.up = s.net.up ∧ t.net.reqs = s.net.reqs ∧ t.mem = s.mem ∧ t.regs = s.regs ∧ t.cores = s.cores) := by
  refine ⟨_, exec_devLgrpAdmit s, fun k => ?_, fun k g hk hup hin hjoin hg => ?_, fun g hg => ?_, rfl, rfl, rfl, rfl, rfl⟩
  · rw [List.mem_append, State.mem_admits]
    tauto
  · exact List.mem_dedup.2 (List.mem_append_right _ (List.mem_flatMap.2 ⟨k, (s.mem_admits k).2 ⟨hk, hup, hin, hjoin⟩, hg⟩))
  · exact List.mem_dedup.2 (List.mem_append_left _ hg)

/-! ## The switch -/

/-- A request of a held group is outstanding. -/
def State.draining (s : State) : Prop :=
  ∃ r ∈ s.net.reqs, r.qp = none ∧ ∃ g ∈ s.net.held, (s.reg (F.DEV_LGRP_MASK g).addr).getLsbD r.link = true

/-- The state in which the new up-sets apply. -/
def State.switched (s : State) : State :=
  { s with net := { s.net with held := [], joining := [], rim := [], up := (s.net.up ++ s.net.joining).dedup.mergeSort } }

theorem exec_linkDrainSwitchDone (s : State) : exec .linkDrainSwitchDone s = .next (drainSwitch s) := by rfl

theorem draining_iff (s : State) :
    s.net.reqs.any (fun r => r.qp.isNone && s.net.held.any (fun g => (s.reg (F.DEV_LGRP_MASK g).addr).getLsbD r.link)) = true ↔ s.draining := by
  simp only [State.draining, List.any_eq_true, Bool.and_eq_true, Option.isNone_iff_eq_none]

theorem drainSwitch_waits {s : State} (h : s.draining) : drainSwitch s = s := if_pos ((draining_iff s).2 h)

/-- What was held goes on: what waits at the rim, then the requests of the cores. -/
theorem drainSwitch_done {s : State} (h : ¬ s.draining) : drainSwitch s =
    let s3 := s.heldReqs.foldl reissue (s.net.rim.foldl rimSend s.switched)
    s3.cores.foldl (fun st p => st.settle p.1) s3 := if_neg (mt (draining_iff s).1 h)

/-! ## The held requests of the cores (R253) -/

theorem State.heldReqs_sorted (s : State) : s.heldReqs.Pairwise (fun a b => a.1 ≤ b.1) := by
  have h := List.pairwise_mergeSort (le := fun a b : Nat × Nat × Nat × Nat => decide (a.1 ≤ b.1))
    (fun a b c hab hbc => decide_eq_true (Nat.le_trans (of_decide_eq_true hab) (of_decide_eq_true hbc)))
    (fun a b => by simpa using Nat.le_total a.1 b.1) (s.cores.flatMap fun p => heldOf p.1 p.2)
  exact h.imp of_decide_eq_true

theorem State.mem_heldReqs {s : State} {n : Nat} {c : Core} {h : Nat × Nat × Nat × Nat} (hc : (n, c) ∈ s.cores) (hh : h ∈ heldOf n c) :
    h ∈ s.heldReqs :=
  List.mem_mergeSort.2 (List.mem_flatMap.2 ⟨(n, c), hc, hh⟩)

theorem mem_heldOf_ring {n r i : Nat} {c : Core} {g : Ring} {l : XList} {rest : List XList} {q : Req} (hr : (r, g) ∈ c.rings)
    (hl : g.lists = l :: rest) (hq : l.reqs[i]? = some q) (hs : q.stage = .held) : (q.ord, n, r, i) ∈ heldOf n c := by
  refine List.mem_append_left _ (List.mem_flatMap.2 ⟨(r, g), hr, List.mem_filterMap.2 ⟨(q, i), ?_, if_pos hs⟩⟩)
  rw [hl]
  exact List.mem_zipIdx_iff_getElem?.2 hq

theorem mem_heldOf_slot {n k : Nat} {c : Core} {v : XSlot} {q : Req} (hk : (k, v) ∈ c.slots) (hv : v.req = some q) (hs : q.stage = .held) :
    (q.ord, n, 16 + k, 0) ∈ heldOf n c := by
  refine List.mem_append_right _ (List.mem_filterMap.2 ⟨(k, v), hk, ?_⟩)
  rw [hv]
  exact if_pos hs

theorem reissue_ring {s : State} {o n i r : Nat} {q : Req} {l : XList} {rest : List XList} (hs : q.stage = .held) (hr : r < 16)
    (hl : (s.ring n r).lists = l :: rest) (hq : l.reqs[i]? = some q) : reissue s (o, n, r, i) = ringIssue n r s (s.ring n r) l i q := by
  unfold reissue
  dsimp only
  rw [if_pos hr, hl]
  dsimp only
  rw [hq]
  exact if_pos hs

theorem reissue_slot {s : State} {o n i k : Nat} {q : Req} {v : XSlot} (hs : q.stage = .held) (hk : Sparse.find (s.core n).slots k = some v)
    (hv : v.req = some q) : reissue s (o, n, 16 + k, i) = slotIssue n k v q.data s := by
  unfold reissue
  dsimp only
  rw [if_neg (Nat.not_lt.2 (Nat.le_add_right 16 k)), Nat.add_sub_cancel_left, hk]
  dsimp only
  rw [hv]
  exact if_pos hs

theorem slice0_upSets : Slice0.UpSets := by
  unfold Slice0.UpSets
  refine ⟨admission, fun s => ?_, fun s => ⟨s.heldReqs_sorted, fun n c hc => ⟨?_, ?_⟩⟩, fun s o n i q hs => ⟨?_, ?_⟩⟩
  · rw [exec_linkDrainSwitchDone]
    exact ⟨fun h => congrArg _ (drainSwitch_waits h), fun h => congrArg _ (drainSwitch_done h)⟩
  · exact fun r g l rest i q hr hl hq hst => State.mem_heldReqs hc (mem_heldOf_ring hr hl hq hst)
  · exact fun k v q hk hv hst => State.mem_heldReqs hc (mem_heldOf_slot hk hv hst)
  · exact fun r l rest hr hl hq => reissue_ring hs hr hl hq
  · exact fun k v hk hv => reissue_slot hs hk hv

/-- Settles O43: flits by how they arrive and what their acceptance keeps, null flits, links that go down, and up-sets with what a drain holds. -/
theorem linkTraffic : Obligations.LinkTraffic := ⟨slice0_flitArrives, slice0_flitAccepted, slice0_nullFlits, slice0_linkTimeouts, slice0_upSets⟩

end Sys2Proof.Machine
end

section
/-! # Training of links and ports (O42; spec/11 R233, R235-R237, R243, R256; spec/02 R22) -/

namespace Sys2Proof.Machine

/-! ## Stages of a native link (R233, R235, R243) -/

theorem exec_linkTrainStageDone (link : BitVec 5) (stage : StageEnd) (s : State) :
    exec (.linkTrainStageDone link stage) s = .next (trainStage link.toNat stage.up stage.credits s) := by rfl

section
variable {k : Nat} {credits : List Nat} {s : State}

theorem trainStage_repeats : trainStage k false credits s = s := by
  unfold trainStage
  exact if_pos (.inl rfl)

theorem trainStage_idle (h : s.linkState k < lsSignal ∨ lsInit < s.linkState k) : trainStage k true credits s = s := if_pos (.inr h)

theorem not_repeats_of_training (h : lsSignal ≤ s.linkState k ∧ s.linkState k ≤ lsInit) :
    ¬ ((!true) = true ∨ s.linkState k < lsSignal ∨ lsInit < s.linkState k) := by
  rintro (h0 | h1 | h2)
  exacts [Bool.false_ne_true h0, Nat.not_lt.2 h.1 h1, Nat.not_lt.2 h.2 h2]

theorem trainStage_next (h1 : lsSignal ≤ s.linkState k) (h2 : s.linkState k < lsInit) :
    trainStage k true credits s = s.setLink k (s.linkState k + 1) :=
  (if_neg (not_repeats_of_training ⟨h1, Nat.le_of_lt h2⟩)).trans (if_pos h2)

theorem trainStage_init (h : s.linkState k = lsInit) : trainStage k true credits s =
    if 4096 < s.creditSum k then trainFail k lsInit ((s.setLink k lsFailed).setFld (F.LINK_STS_code k) E.LINK_CFG) else linkComesUp k credits s :=
  (if_neg (not_repeats_of_training (by rw [h]; decide))).trans (if_neg (by rw [h]; decide))

end

/-! ## A link that comes up -/

/-- The lanes that a link comes up with. -/
def LinkSt.lanes (l : LinkSt) : Nat := (lanesUsed l.lost).getD 8

theorem LinkSt.lanes_lt (l : LinkSt) : l.lanes < 2 ^ 5 := by
  unfold LinkSt.lanes lanesUsed
  split
  · decide
  · split
    · decide
    · split <;> decide

/-- The state in which the link layer starts anew, and has joined its up-sets the first time since a start. -/
def State.linkFresh (s : State) (k : Nat) (credits : List Nat) : State :=
  let s1 := s.setLnk k (freshLink (s.lnk k).lost credits)
  { s1 with net := { s1.net with up := if (s.lnk k).once || s.net.up.contains k then s.net.up else (k :: s.net.up).mergeSort } }

/-- The state in which the link is UP at its width, which is reported. -/
def State.linkRisen (s : State) (k : Nat) (credits : List Nat) : State :=
  (((s.linkFresh k credits).setLink k lsUp).setFld (F.LINK_STS_width k) (s.lnk k).lanes).raise EV.LINK_UP 4 k
    (leBytes 1 k ++ leBytes 1 (s.lnk k).lanes)

theorem linkComesUp_eq (k : Nat) (credits : List Nat) (s : State) : linkComesUp k credits s =
    if (s.lnk k).lanes = 16 then s.linkRisen k credits
    else (s.linkRisen k credits).raise EV.LINK_DEGRADED 4 k (leBytes 1 k ++ leBytes 2 (lanesKept (s.lnk k).lost).toNat) := by rfl

theorem freshLink_fields (lost : BitVec 16) (credits : List Nat) :
    (freshLink lost credits).tx = 0 ∧ (freshLink lost credits).rx = 4095 ∧ (freshLink lost credits).replay = [] := by
  unfold freshLink
  split <;> exact ⟨rfl, rfl, rfl⟩

section
variable (s : State) (k : Nat) (credits : List Nat)

theorem State.linkRisen_state (h : k < 32) : (s.linkRisen k credits).linkState k = 5 := by
  rw [State.linkRisen, State.linkState_raise _ _ _ _ _ h, State.linkState,
    State.fld_setFld_bits _ (F.LINK_STS_width k) (F.LINK_STS_state k) _ (.inl (by omega : 0 + 3 ≤ 8))]
  exact State.linkState_setLink _ _ (by decide)

theorem State.linkRisen_width (h : k < 32) : (s.linkRisen k credits).fld (F.LINK_STS_width k) = (s.lnk k).lanes := by
  rw [State.linkRisen, fld_raise _ _ _ _ _ _ (linkSts_off_evtWords h), State.fld_setFld _ _ _ (by omega : 8 + 5 ≤ 64)]
  exact Nat.mod_eq_of_lt (LinkSt.lanes_lt _)

theorem State.linkRisen_lnk : (s.linkRisen k credits).lnk k = freshLink (s.lnk k).lost credits := by
  rw [State.linkRisen, State.raise_lnk, State.setFld_lnk, State.setLink_lnk]
  exact (State.lnk_setLnk ..).trans (if_pos rfl)

theorem State.linkRisen_mem : (s.linkRisen k credits).mem = s.mem := by
  rw [State.linkRisen, State.raise_mem, State.setFld_mem, State.setLink_mem]
  rfl

theorem State.linkRisen_cores : (s.linkRisen k credits).cores = s.cores := by
  rw [State.linkRisen, State.raise_cores, State.setFld_cores, State.setLink_cores]
  rfl

end

/-! ## Timeouts (R235) -/

theorem exec_linkTrainTimeout (link : BitVec 5) (s : State) : exec (.linkTrainTimeout link) s = .next (trainTimeout link.toNat s) := by rfl

section
variable {k : Nat} {s : State}

theorem trainTimeout_native (h1 : lsSignal ≤ s.linkState k) (h2 : s.linkState k ≤ lsInit) :
    trainTimeout k s = trainFail k (s.linkState k) (s.setLink k lsFailed) := if_pos ⟨h1, h2⟩

/-- A port that still trains has failed. -/
def portExpires (k : Nat) (u : State) (f : Fld) : State := if u.fld f = 1 then trainFail k 1 (u.setFld f 3) else u

theorem trainTimeout_ports (h : s.linkState k < lsSignal ∨ lsInit < s.linkState k) :
    trainTimeout k s = portExpires k (portExpires k s (F.LINK_STS_port_a k)) (F.LINK_STS_port_b k) :=
  if_neg fun ht => h.elim (Nat.not_lt.2 ht.1) (Nat.not_lt.2 ht.2)

end

theorem slice0_nativeTraining : Slice0.NativeTraining := by
  unfold Slice0.NativeTraining
  intro link credits s k st l w s1 s2 s3
  have hk : k < 32 := link.isLt
  have h3 : s3 = s.linkRisen k credits := rfl
  rw [h3, exec_linkTrainStageDone, exec_linkTrainStageDone, exec_linkTrainTimeout]
  refine ⟨congrArg _ trainStage_repeats, fun h => congrArg _ (trainStage_idle h), fun h1 h2 => congrArg _ (trainStage_next h1 h2), fun h hc => ?_,
    fun h hc => ⟨fun hw => ?_, fun hw => ?_, s.linkRisen_state k credits hk, s.linkRisen_width k credits hk, ?_⟩,
    fun h1 h2 => congrArg _ (trainTimeout_native h1 h2)⟩
  · exact congrArg _ ((trainStage_init h).trans (if_pos hc))
  · exact congrArg _ (((trainStage_init h).trans (if_neg (Nat.not_lt.2 hc))).trans ((linkComesUp_eq ..).trans (if_pos hw)))
  · exact congrArg _ (((trainStage_init h).trans (if_neg (Nat.not_lt.2 hc))).trans ((linkComesUp_eq ..).trans (if_neg hw)))
  · obtain ⟨htx, hrx, hreplay⟩ := freshLink_fields (s.lnk k).lost credits
    rw [State.linkRisen_lnk]
    exact ⟨htx, hrx, hreplay, s.linkRisen_mem k credits, s.linkRisen_cores k credits⟩

/-! ## Ports (R233, R235, R237) -/

/-- The state of a port of an Ethernet link. -/
abbrev portSts (k port : Nat) : Fld := if port = 0 then F.LINK_STS_port_a k else F.LINK_STS_port_b k

theorem exec_ethPortTrainDone (link : BitVec 5) (port : BitVec 1) (ok : Bool) (s : State) :
    exec (.ethPortTrainDone link port ok) s = .next (portTrained link.toNat port.toNat ok s) := by rfl

theorem portTrained_idle {k port : Nat} {ok : Bool} {s : State} (h : s.fld (portSts k port) ≠ 1) : portTrained k port ok s = s := if_pos h

theorem portTrained_trains {k port : Nat} {ok : Bool} {s : State} (h : s.fld (portSts k port) = 1) : portTrained k port ok s =
    if ok then s.setFld (portSts k port) 2 else trainFail k 1 (s.setFld (portSts k port) 3) := if_neg (not_not_intro h)

theorem slice0_portTraining : Slice0.PortTraining := by
  unfold Slice0.PortTraining
  intro link port s
  dsimp only
  rw [exec_ethPortTrainDone, exec_ethPortTrainDone, exec_linkTrainTimeout]
  exact ⟨fun h => ⟨congrArg _ (portTrained_trains h), congrArg _ (portTrained_trains h)⟩, fun h ok => congrArg _ (portTrained_idle h),
    fun h => congrArg _ (trainTimeout_ports h)⟩

/-! ## Lanes and retraining (R236, R256) -/

theorem exec_laneLoss (link : BitVec 5) (lane : BitVec 4) (s : State) : exec (.laneLoss link lane) s = .next (laneLoss link.toNat lane.toNat s) := by rfl
theorem exec_linkRetrain (link : BitVec 5) (s : State) : exec (.linkRetrain link) s = .next (linkRetrain link.toNat s) := by rfl

/-- The lanes that do not work once a lane is lost. -/
def State.lostWith (s : State) (k lane : Nat) : BitVec 16 := (s.lnk k).lost ||| (1 <<< lane : BitVec 16)

/-- The state in which the loss of a lane is noted. -/
def State.laneNoted (s : State) (k lane : Nat) : State := s.setLnk k { s.lnk k with lost := s.lostWith k lane }

section
variable {k lane : Nat} {s : State}

section
variable (h1 : lsSignal ≤ s.linkState k) (h5 : s.linkState k ≤ lsUp)
include h1 h5

theorem laneLoss_native : laneLoss k lane s =
    if !(lanesKept (s.lnk k).lost).getLsbD lane then s.laneNoted k lane
    else if (lanesUsed (s.lostWith k lane)).isNone then (linkDown k caLane (s.laneNoted k lane)).setLink k lsFailed
    else (linkDown k caLane (s.laneNoted k lane)).setLink k lsSignal := if_pos ⟨h1, h5⟩

theorem laneLoss_unused (hu : ¬ (lanesKept (s.lnk k).lost).getLsbD lane = true) : laneLoss k lane s = s.laneNoted k lane := by
  rw [laneLoss_native h1 h5, Bool.eq_false_of_not_eq_true hu]
  rfl

variable (hu : (lanesKept (s.lnk k).lost).getLsbD lane = true)
include hu

theorem laneLoss_last (hn : lanesUsed (s.lostWith k lane) = none) : laneLoss k lane s = (linkDown k caLane (s.laneNoted k lane)).setLink k lsFailed := by
  rw [laneLoss_native h1 h5, hu, hn]
  rfl

theorem laneLoss_half (hn : lanesUsed (s.lostWith k lane) ≠ none) : laneLoss k lane s = (linkDown k caLane (s.laneNoted k lane)).setLink k lsSignal := by
  rw [laneLoss_native h1 h5, hu]
  exact (if_neg Bool.false_ne_true).trans (if_neg fun hb => hn (Option.isNone_iff_eq_none.1 hb))

end

theorem laneLoss_port (h : s.linkState k < lsSignal ∨ lsUp < s.linkState k) :
    laneLoss k lane s = if s.fld (portSts k (lane / 8)) = 2 then portDown k (lane / 8) s else s :=
  if_neg fun ht => h.elim (Nat.not_lt.2 ht.1) (Nat.not_lt.2 ht.2)

theorem linkRetrain_off (h : s.pwr.off = true) : linkRetrain k s = s := if_pos h

/-- A port that is UP goes down. -/
def portFalls (k : Nat) (s : State) (p : Nat) : State := if s.fld (portSts k p) = 2 then portDown k p s else s

/-- The state in which a link has lost nothing and shows no code. -/
def State.linkWhole (s : State) (k : Nat) : State := (s.setLnk k { s.lnk k with lost := 0 }).setFld (F.LINK_STS_code k) 0

theorem linkRetrain_on (h : s.pwr.off = false) :
    linkRetrain k s = linkTrain k ((portFalls k (portFalls k (linkDown k caSelf s) 0) 1).linkWhole k) := if_neg (ne_true_of_eq_false h)

end

theorem slice0_lanesAndRetrain : Slice0.LanesAndRetrain := by
  unfold Slice0.LanesAndRetrain
  intro link lane s
  dsimp only
  rw [exec_laneLoss, exec_linkRetrain]
  exact ⟨fun h1 h5 => ⟨fun hu => congrArg _ (laneLoss_unused h1 h5 hu), fun hu hn => congrArg _ (laneLoss_last h1 h5 hu hn),
      fun hu hn => congrArg _ (laneLoss_half h1 h5 hu hn)⟩,
    fun h => ⟨fun hup => congrArg _ ((laneLoss_port h).trans (if_pos hup)), fun hup => congrArg _ ((laneLoss_port h).trans (if_neg hup))⟩,
    fun h => congrArg _ (linkRetrain_off h), fun h => congrArg _ (linkRetrain_on h)⟩

/-! ## Where training begins (R22, R233) -/

/-- The state of a link and of both its ports. -/
def State.linkPorts (s : State) (k st p : Nat) : State := ((s.setLink k st).setFld (F.LINK_STS_port_a k) p).setFld (F.LINK_STS_port_b k) p

section
variable (s : State) (k : Nat) {st p : Nat}

theorem State.linkPorts_state (h : st < 8) : (s.linkPorts k st p).linkState k = st := by
  rw [State.linkPorts, State.linkState, State.fld_setFld_bits _ (F.LINK_STS_port_b k) (F.LINK_STS_state k) _ (.inl (by omega : 0 + 3 ≤ 18)),
    State.fld_setFld_bits _ (F.LINK_STS_port_a k) (F.LINK_STS_state k) _ (.inl (by omega : 0 + 3 ≤ 16))]
  exact State.linkState_setLink _ _ h

theorem State.linkPorts_a (h : p < 4) : (s.linkPorts k st p).fld (F.LINK_STS_port_a k) = p := by
  rw [State.linkPorts, State.fld_setFld_bits _ (F.LINK_STS_port_b k) (F.LINK_STS_port_a k) _ (.inl (by omega : 16 + 2 ≤ 18)),
    State.fld_setFld _ _ _ (by omega : 16 + 2 ≤ 64)]
  exact Nat.mod_eq_of_lt h

theorem State.linkPorts_b (h : p < 4) : (s.linkPorts k st p).fld (F.LINK_STS_port_b k) = p := by
  rw [State.linkPorts, State.fld_setFld _ _ _ (by omega : 18 + 2 ≤ 64)]
  exact Nat.mod_eq_of_lt h

theorem State.linkPorts_state_ne {j : Nat} (h : j ≠ k) : (s.linkPorts k st p).linkState j = s.linkState j := by
  have ha : 0x30005000008 + 65536 * j ≠ 0x30005000008 + 65536 * k := by omega
  rw [State.linkPorts, State.linkState, State.fld_setFld_addr _ (F.LINK_STS_port_b k) (F.LINK_STS_state j) _ ha,
    State.fld_setFld_addr _ (F.LINK_STS_port_a k) (F.LINK_STS_state j) _ ha]
  exact State.linkState_setLink_ne s k st h

end

section
variable {k : Nat} {s : State}

theorem linkTrain_lost (h : s.linkKept k = false) : linkTrain k s = s.setLink k lsDisabled := by
  rw [linkTrain, h]
  rfl

variable (h : s.linkKept k = true)
include h

theorem linkTrain_native (hm : s.fld (F.LINK_CFG_mode k) = 0) : linkTrain k s = s.linkPorts k lsSignal 0 := by
  rw [linkTrain, h, hm]
  rfl

theorem linkTrain_ethernet (hm : s.fld (F.LINK_CFG_mode k) = 1) : linkTrain k s = s.linkPorts k lsDown 1 := by
  rw [linkTrain, h, hm]
  rfl

theorem linkTrain_disabled (hm : 2 ≤ s.fld (F.LINK_CFG_mode k)) : linkTrain k s = s.linkPorts k lsDisabled 0 := by
  obtain ⟨m, hm⟩ := Nat.exists_eq_add_of_le' hm
  rw [linkTrain, h, hm]
  rfl

end

/-- Training begins with a state of the link alone, or with one of the link and its ports. -/
theorem linkTrain_cases (k : Nat) (s : State) : linkTrain k s = s.setLink k lsDisabled ∨ ∃ st p, linkTrain k s = s.linkPorts k st p := by
  cases h : s.linkKept k with
  | false => exact .inl (linkTrain_lost h)
  | true =>
    rcases hm : s.fld (F.LINK_CFG_mode k) with _ | _ | m
    · exact .inr ⟨_, _, linkTrain_native h hm⟩
    · exact .inr ⟨_, _, linkTrain_ethernet h hm⟩
    · exact .inr ⟨_, _, linkTrain_disabled h (by omega)⟩

theorem linkTrain_keeps {β : Type} (g : State → β) (h : ∀ (s : State) (a : Nat) (v : W64), g (s.setReg a v) = g s) (k : Nat) (s : State) :
    g (linkTrain k s) = g s := by
  rcases linkTrain_cases k s with he | ⟨st, p, he⟩ <;> rw [he]
  · exact s.setLink_keeps k _ g h
  · exact (h _ _ _).trans ((h _ _ _).trans (s.setLink_keeps k _ g h))

theorem linkTrain_state_ne (s : State) {k j : Nat} (h : j ≠ k) : (linkTrain k s).linkState j = s.linkState j := by
  rcases linkTrain_cases k s with he | ⟨st, p, he⟩ <;> rw [he]
  · exact s.linkState_setLink_ne k _ h
  · exact s.linkPorts_state_ne k h

theorem slice0_trainingBegins : Slice0.TrainingBegins := by
  unfold Slice0.TrainingBegins
  intro k s _
  dsimp only
  refine ⟨fun h => ?_, fun h => ⟨fun hm => ?_, fun hm => ?_, fun hm => ?_⟩, linkTrain_keeps State.mem (fun _ _ _ => rfl) k s,
    linkTrain_keeps State.cores (fun _ _ _ => rfl) k s, linkTrain_keeps State.net (fun _ _ _ => rfl) k s,
    linkTrain_keeps State.events (fun _ _ _ => rfl) k s, fun j _ hj => linkTrain_state_ne s hj⟩
  · rw [linkTrain_lost h, State.linkState_setLink _ _ (by decide)]
  · rw [linkTrain_native h hm]
    exact ⟨s.linkPorts_state k (by decide), s.linkPorts_a k (by decide), s.linkPorts_b k (by decide)⟩
  · rw [linkTrain_ethernet h hm]
    exact ⟨s.linkPorts_state k (by decide), s.linkPorts_a k (by decide), s.linkPorts_b k (by decide)⟩
  · rw [linkTrain_disabled h hm]
    exact ⟨s.linkPorts_state k (by decide), s.linkPorts_a k (by decide), s.linkPorts_b k (by decide)⟩

/-- Settles O42: the stages of a native link and its coming up, the training of ports, lost lanes and retraining, and where training begins. -/
theorem linkTraining : Obligations.LinkTraining := ⟨slice0_nativeTraining, slice0_portTraining, slice0_lanesAndRetrain, slice0_trainingBegins⟩

end Sys2Proof.Machine
end

section
/-! # Queue pairs: what leaves (O49; spec/11 R237, R238) -/

namespace Sys2Proof.Machine

/-! ## Packets of a message -/

/-- The path MTU of a queue pair in bytes. -/
def State.qpMtu (s : State) (q : Nat) : Nat := 1024 * 2 ^ s.fld (F.LINK_QP_mtu (q / 256) (q % 256))

theorem State.qpMtu_pos (s : State) (q : Nat) : 0 < s.qpMtu q := Nat.mul_pos (by decide) (Nat.two_pow_pos _)

/-- The packets that a size takes: one for none, else as many as it fills. -/
theorem max_one_ceilDiv {mtu : Nat} (h : 0 < mtu) (size : Nat) :
    Nat.max 1 (ceilDiv size mtu) = if size = 0 then 1 else (size + mtu - 1) / mtu := by
  split
  · next h0 => rw [h0, ceilDiv, Nat.zero_add, Nat.div_eq_of_lt (by omega)]; rfl
  · next h0 => exact Nat.max_eq_right (Nat.div_pos (by omega) h)

/-- Pieces of a length lie one after the other. -/
theorem flatMap_pieces {α : Type} (l : List α) (mtu n : Nat) :
    (List.range n).flatMap (fun j => (l.drop (mtu * j)).take mtu) = l.take (mtu * n) := by
  induction n with
  | zero => simp
  | succ n ih => rw [List.range_succ, List.flatMap_append, ih, List.flatMap_singleton, Nat.mul_succ, List.take_add]

/-- A message's packets. -/
def packetCount (mtu : Nat) (m : RoceMsg) : Nat := Nat.max 1 (ceilDiv m.data.length mtu)

theorem packetCount_pos (mtu : Nat) (m : RoceMsg) : 0 < packetCount mtu m := Nat.le_max_left ..

theorem length_le_packets {mtu : Nat} (h : 0 < mtu) (m : RoceMsg) : m.data.length ≤ mtu * packetCount mtu m := by
  have hceil := le_smul_ceilDiv (b := m.data.length) h
  rw [Nat.ceilDiv_eq_add_pred_div, smul_eq_mul] at hceil
  exact hceil.trans (Nat.mul_le_mul_left mtu (Nat.le_max_right ..))

/-- Packet `j` of a message: its piece of the data, immediate data with the last one, and its number. -/
def rocePacket (mtu : Nat) (m : RoceMsg) (j : Nat) : RoceMsg :=
  { m with data := (m.data.drop (mtu * j)).take mtu, imm := if j + 1 = packetCount mtu m then m.imm else none, psn := (m.psn + j) % 2 ^ 24 }

theorem rocePackets_eq (mtu : Nat) (m : RoceMsg) : rocePackets mtu m = (List.range (packetCount mtu m)).map (rocePacket mtu m) := by rfl

section
variable {mtu : Nat} (m : RoceMsg)

theorem flatMap_rocePackets (h : 0 < mtu) : (rocePackets mtu m).flatMap (·.data) = m.data := by
  rw [rocePackets_eq, List.flatMap_map]
  exact (flatMap_pieces m.data mtu (packetCount mtu m)).trans (List.take_of_length_le (length_le_packets h m))

theorem length_of_mem_rocePackets {p : RoceMsg} (hp : p ∈ rocePackets mtu m) : p.data.length ≤ mtu := by
  obtain ⟨j, -, rfl⟩ := List.mem_map.1 hp
  exact List.length_take_le ..

theorem getLast_rocePackets : (rocePackets mtu m).getLast?.bind (·.imm) = m.imm := by
  obtain ⟨n, hn⟩ := Nat.exists_eq_succ_of_ne_zero (packetCount_pos mtu m).ne'
  rw [rocePackets_eq, hn, List.range_succ, List.map_append, List.map_singleton, List.getLast?_concat]
  exact if_pos hn.symm

theorem psn_of_rocePackets {j : Nat} {p : RoceMsg} (hp : (rocePackets mtu m)[j]? = some p) : p.psn = (m.psn + j) % 2 ^ 24 := by
  rw [rocePackets_eq, List.getElem?_map, Option.map_eq_some_iff] at hp
  obtain ⟨i, hi, rfl⟩ := hp
  obtain ⟨hlt, hij⟩ := List.getElem?_eq_some_iff.1 hi
  rw [← hij, List.getElem_range]
  rfl

end

/-! ## Pauses of a priority (R237; log 125) -/

/-- The priority of a queue pair is paused, or packets wait for it. -/
def State.qpPaused (s : State) (key : Nat) : Prop := Sparse.find s.net.paused key ≠ none ∨ ∃ e ∈ s.net.ethq, e.1 = key

theorem State.qpPaused_iff (s : State) (key : Nat) :
    ((Sparse.find s.net.paused key).isSome || s.net.ethq.any (fun e => decide (e.1 = key))) = true ↔ s.qpPaused key := by
  simp only [State.qpPaused, Bool.or_eq_true, Option.isSome_iff_ne_none, List.any_eq_true, decide_eq_true_eq]

/-- Packets wait for a priority behind what waits there. -/
def State.queues (s : State) (l : List (Nat × Out)) : State := { s with net := { s.net with ethq := s.net.ethq ++ l } }

/-- A packet leaves, or waits for its priority. -/
def packetOut (q kind key : Nat) (s : State) (p : RoceMsg) : State :=
  if (Sparse.find s.net.paused key).isSome || s.net.ethq.any (fun e => decide (e.1 = key)) then s.queues [(key, .roce q kind p)] else s.out (.roce q kind p)

theorem State.roceOut_eq (s : State) (q kind : Nat) (m : RoceMsg) :
    s.roceOut q kind m = (rocePackets (s.qpMtu q) m).foldl (packetOut q kind (s.pauseKey q)) s := by rfl

section
variable {q kind key : Nat} {s : State}

theorem packetOut_leaves (h : ¬ s.qpPaused key) (p : RoceMsg) : packetOut q kind key s p = s.out (.roce q kind p) :=
  if_neg (mt (s.qpPaused_iff key).1 h)

theorem packetOut_waits (h : s.qpPaused key) (p : RoceMsg) : packetOut q kind key s p = s.queues [(key, .roce q kind p)] :=
  if_pos ((s.qpPaused_iff key).2 h)

theorem foldl_packetOut_leaves (l : List RoceMsg) (h : ¬ s.qpPaused key) :
    l.foldl (packetOut q kind key) s = l.foldl (fun st p => st.out (.roce q kind p)) s := by
  induction l generalizing s with
  | nil => rfl
  | cons p l ih =>
    rw [List.foldl_cons, List.foldl_cons, packetOut_leaves h]
    exact ih (s := s.out (.roce q kind p)) h

theorem foldl_packetOut_waits (l : List RoceMsg) (h : s.qpPaused key) :
    l.foldl (packetOut q kind key) s = s.queues (l.map fun p => (key, .roce q kind p)) := by
  induction l generalizing s with
  | nil => rw [List.foldl_nil, List.map_nil, State.queues, List.append_nil]
  | cons p l ih =>
    have hstill : (s.queues [(key, .roce q kind p)]).qpPaused key := h.imp_right fun ⟨e, he, hk⟩ => ⟨e, List.mem_append_left _ he, hk⟩
    rw [List.foldl_cons, packetOut_waits h, ih hstill, List.map_cons]
    simp only [State.queues, List.append_assoc, List.singleton_append]

end

theorem slice0_messagesLeave : Slice0.MessagesLeave := by
  unfold Slice0.MessagesLeave
  intro q kind m s mtu packets key paused
  refine ⟨flatMap_rocePackets m (s.qpMtu_pos q), fun p => length_of_mem_rocePackets m, getLast_rocePackets m, fun j p => psn_of_rocePackets m, fun h => ?_,
    fun h => ?_⟩
  · rw [State.roceOut_eq]
    exact foldl_packetOut_leaves _ h
  · rw [State.roceOut_eq]
    exact foldl_packetOut_waits _ h

/-! ## What a message that leaves keeps -/

/-- A message that leaves changes what is sent and what waits for a priority, and nothing else. -/
theorem State.roceOut_keeps {β : Type} (g : State → β) (h : ∀ (s : State) (e : List (Nat × Out)) (o : List Out),
    g { s with net := { s.net with ethq := e, sent := o } } = g s) (s : State) (q kind : Nat) (m : RoceMsg) : g (s.roceOut q kind m) = g s := by
  rw [State.roceOut_eq]
  refine foldl_keeps g (fun t p => ?_) _ _
  unfold packetOut
  split
  · exact h t _ t.net.sent
  · exact h t t.net.ethq _

/-! ## Flow-control frames (R237) -/

theorem exec_priorityFlowControlFrame (link : BitVec 5) (port : BitVec 1) (en : BitVec 8) (quanta : List (BitVec 16)) (s : State) :
    exec (.priorityFlowControlFrame link port en quanta) s = .next (pfcFrame link.toNat port.toNat en quanta s) := by rfl

/-- What a frame makes of the pause of priority `i` of a port, whose pauses have the keys from `base` on. -/
def pauseStep (base : Nat) (en : BitVec 8) (quanta : List (BitVec 16)) (m : Sparse Nat) (i : Nat) : Sparse Nat :=
  if en.getLsbD i then
    if (quanta.getD i 0).toNat = 0 then Sparse.drop m (base + i) else Sparse.put m (base + i) (quanta.getD i 0).toNat
  else m

section
variable (base : Nat) (en : BitVec 8) (quanta : List (BitVec 16))

theorem find_pauseStep (m : Sparse Nat) (i : Nat) : Sparse.find (pauseStep base en quanta m i) (base + i) =
    if en.getLsbD i then (if (quanta.getD i 0).toNat = 0 then none else some (quanta.getD i 0).toNat) else Sparse.find m (base + i) := by
  unfold pauseStep
  split
  · split
    · rw [Sparse.find_drop, if_pos rfl]
    · rw [Sparse.find_put, if_pos rfl]
  · rfl

theorem find_pauseStep_ne (m : Sparse Nat) {i j : Nat} (h : i ≠ j) :
    Sparse.find (pauseStep base en quanta m j) (base + i) = Sparse.find m (base + i) := by
  have hk : base + i ≠ base + j := by omega
  unfold pauseStep
  split
  · split
    · rw [Sparse.find_drop, if_neg hk]
    · rw [Sparse.find_put, if_neg hk]
  · rfl

/-- Each priority that a frame names has its own step. -/
theorem find_foldl_pauseStep (m : Sparse Nat) {i n : Nat} (h : i < n) :
    Sparse.find ((List.range n).foldl (pauseStep base en quanta) m) (base + i) =
    if en.getLsbD i then (if (quanta.getD i 0).toNat = 0 then none else some (quanta.getD i 0).toNat) else Sparse.find m (base + i) := by
  have hoff : ∀ n, n ≤ i → Sparse.find ((List.range n).foldl (pauseStep base en quanta) m) (base + i) = Sparse.find m (base + i) := fun n hn => by
    induction n with
    | zero => rfl
    | succ n ih => rw [List.range_succ, List.foldl_concat, find_pauseStep_ne _ _ _ _ (by omega), ih (by omega)]
  induction n with
  | zero => omega
  | succ n ih =>
    rw [List.range_succ, List.foldl_concat]
    rcases Nat.lt_succ_iff_lt_or_eq.1 h with hlt | rfl
    · rw [find_pauseStep_ne _ _ _ _ (by omega), ih hlt]
    · rw [find_pauseStep, hoff i (Nat.le_refl i)]

end

/-- Packets that leave are sent in their order. -/
theorem foldl_out (l : List (Nat × Out)) (s : State) : l.foldl (fun st e => st.out e.2) s =
    { s with net := { s.net with sent := (l.map (·.2)).reverse ++ s.net.sent } } := by
  induction l generalizing s with
  | nil => rfl
  | cons e l ih =>
    rw [List.foldl_cons, ih]
    simp [State.out]

/-- What waits for a priority that is not paused leaves; the rest waits on. -/
theorem State.ethGo_eq (s : State) : s.ethGo = { s with net := { s.net with
    ethq := s.net.ethq.filter (fun e => (Sparse.find s.net.paused e.1).isSome)
    sent := ((s.net.ethq.filter (fun e => (Sparse.find s.net.paused e.1).isNone)).map (·.2)).reverse ++ s.net.sent } } := by
  unfold State.ethGo
  dsimp only
  rw [foldl_out]
  simp only [Option.not_isNone]

/-- The pauses of a port after a frame. -/
def State.pausesWith (s : State) (k port : Nat) (en : BitVec 8) (quanta : List (BitVec 16)) : Sparse Nat :=
  (List.range 8).foldl (pauseStep (16 * k + 8 * port) en quanta) s.net.paused

section
variable {k port : Nat} {en : BitVec 8} {quanta : List (BitVec 16)} {s : State}

theorem pfcFrame_down (h : s.fld (if port = 0 then F.LINK_STS_port_a k else F.LINK_STS_port_b k) ≠ 2) : pfcFrame k port en quanta s = s := if_pos h

theorem pfcFrame_up (h : s.fld (if port = 0 then F.LINK_STS_port_a k else F.LINK_STS_port_b k) = 2) :
    pfcFrame k port en quanta s = State.ethGo { s with net := { s.net with paused := s.pausesWith k port en quanta } } := if_neg (not_not_intro h)

end

theorem slice0_flowControl : Slice0.FlowControl := by
  unfold Slice0.FlowControl
  intro link port en quanta s
  dsimp only
  refine ⟨fun h => ?_, fun h => ⟨_, exec_priorityFlowControlFrame link port en quanta s, ?_⟩⟩
  · rw [exec_priorityFlowControlFrame, pfcFrame_down h]
  · rw [pfcFrame_up h, State.ethGo_eq]
    exact ⟨fun i hi => find_foldl_pauseStep _ en quanta s.net.paused hi, rfl, rfl, rfl, rfl, rfl, rfl⟩

end Sys2Proof.Machine
end

section
/-! # Queue pairs: messages that arrive (O49; spec/11 R238, R253-R255; spec/12 R267) -/

namespace Sys2Proof.Machine

/-! ## Arrival (R238, R254) -/

section
variable {q : Nat} {m : RoceMsg} {f : State → State} {s : State}

theorem roceSeen_deaf (h : s.qpTakes q = false) : roceSeen q m f s = s := by
  rw [roceSeen, h]
  rfl

variable (h : s.qpTakes q = true)
include h

theorem roceSeen_plain (he : m.ecn = false) : roceSeen q m f s = f s := by
  rw [roceSeen, h, he]
  rfl

theorem roceSeen_marked (he : m.ecn = true) : roceSeen q m f s = (f s).roceOut q roceCnp {} := by
  rw [roceSeen, h, he]
  rfl

end

/-- The messages of a queue pair arrive with what each does there. -/
theorem exec_messages {c : (BitVec 13 → RoceMsg → Instr) × (Nat → RoceMsg → State → State)} (hc : c ∈ Slice0.messages) (qp : BitVec 13) (m : RoceMsg)
    (s : State) : exec (c.1 qp m) s = .next (roceSeen qp.toNat m (c.2 qp.toNat m) s) := by
  simp only [Slice0.messages, List.mem_cons, List.not_mem_nil, or_false] at hc
  rcases hc with rfl | rfl | rfl | rfl | rfl <;> rfl

theorem slice0_messagesArrive : Slice0.MessagesArrive := by
  unfold Slice0.MessagesArrive
  intro c hc qp m s
  dsimp only
  rw [exec_messages hc]
  exact ⟨fun h => congrArg _ (roceSeen_deaf h), fun h he => congrArg _ (roceSeen_plain h he), fun h he => congrArg _ (roceSeen_marked h he)⟩

/-! ## Sequence numbers (R238; log 124) -/

/-- The state in which the message after one of this number and size is expected. -/
def State.expectsAfter (s : State) (q kind : Nat) (m : RoceMsg) : State :=
  s.setQpT q { s.qpT q with rx := some ((m.psn + s.qpCount q kind m) % 2 ^ 24) }

section
variable {q kind : Nat} {m : RoceMsg} {f : State → State} {s : State}

theorem roceOrder_first (h : (s.qpT q).rx = none) : roceOrder q kind m f s = f (s.expectsAfter q kind m) := by
  rw [roceOrder, h]
  rfl

section
variable {e : Nat} (he : (s.qpT q).rx = some e)
include he

theorem roceOrder_eq : roceOrder q kind m f s =
    if m.psn = e then f (s.expectsAfter q kind m)
    else if (m.psn + 2 ^ 24 - e) % 2 ^ 24 < 2 ^ 23 then s.roceOut q opErr { nak := true, psn := e }
    else if s.net.inb.any (fun j => decide (j.flow = (1, q, 0, 0))) then s
    else if kind = opGet then f s
    else roceAck q m s := by
  rw [roceOrder, he]
  rfl

theorem roceOrder_next (hp : m.psn = e) : roceOrder q kind m f s = f (s.expectsAfter q kind m) := (roceOrder_eq he).trans (if_pos hp)

variable (hp : m.psn ≠ e)
include hp

theorem roceOrder_gap (ha : (m.psn + 2 ^ 24 - e) % 2 ^ 24 < 2 ^ 23) : roceOrder q kind m f s = s.roceOut q opErr { nak := true, psn := e } := by
  rw [roceOrder_eq he, if_neg hp, if_pos ha]

variable (ha : 2 ^ 23 ≤ (m.psn + 2 ^ 24 - e) % 2 ^ 24)
include ha

theorem roceOrder_again : roceOrder q kind m f s =
    if ∃ j ∈ s.net.inb, j.flow = (1, q, 0, 0) then s else if kind = opGet then f s else roceAck q m s := by
  rw [roceOrder_eq he, if_neg hp, if_neg (Nat.not_lt.2 ha)]
  simp only [List.any_eq_true, decide_eq_true_eq]

end

theorem State.qpCount_eq (s : State) (q kind : Nat) (m : RoceMsg) : s.qpCount q kind m =
    if (if kind = 0 then m.len else m.data.length) = 0 then 1
    else ((if kind = 0 then m.len else m.data.length) + s.qpMtu q - 1) / s.qpMtu q := max_one_ceilDiv (s.qpMtu_pos q) _

end

/-- The message of a request that leaves on a queue pair, under its next number. -/
def State.roceMsg (s : State) (r : NetReq) (q base : Nat) : RoceMsg :=
  { va := BitVec.ofNat 64 (r.addr + base)
    rkey := BitVec.ofNat 32 (s.fld (F.LINK_QP_rkey (q / 256) (q % 256)))
    len := if r.op = opPut then r.data.length else r.len, data := r.data, psn := (s.qpT q).tx }

/-- The request as it is outstanding. -/
def State.roceReq (s : State) (r : NetReq) (q base : Nat) : OutReq where
  tag := s.net.freeTag
  link := q / 256
  qp := some q
  node := r.node
  vc := 0
  ep := r.ep
  op := r.op
  src := r.src
  msg := s.roceMsg r q base

/-- The state in which a request is outstanding, and its numbers are taken. -/
def State.roceAsked (s : State) (r : NetReq) (q base : Nat) : State :=
  let s0 := s.setQpT q { s.qpT q with tx := ((s.qpT q).tx + s.qpCount q r.op (s.roceMsg r q base)) % 2 ^ 24 }
  { s0 with net := { s0.net with tag := (s.net.freeTag + 1) % 65536, reqs := s.net.reqs ++ [s.roceReq r q base] } }

theorem State.sendRoce_eq (s : State) (r : NetReq) (q base : Nat) :
    s.sendRoce r q base = ((s.roceAsked r q base).roceOut q r.op (s.roceMsg r q base), .sent s.net.freeTag) := by rfl

theorem State.qpT_setQpT (s : State) (q : Nat) (t : QpSt) : (s.setQpT q t).qpT q = t := (Sparse.get_put ..).trans (if_pos rfl)

theorem State.sendRoce_fields (r : NetReq) (q base : Nat) (s : State) :
    ∃ t m, (s.sendRoce r q base).2 = .sent t ∧ m.psn = (s.qpT q).tx ∧ m.data = r.data ∧ m.va = BitVec.ofNat 64 (r.addr + base)
      ∧ ((s.sendRoce r q base).1.qpT q).tx = ((s.qpT q).tx + s.qpCount q r.op m) % 2 ^ 24
      ∧ (∃ x ∈ (s.sendRoce r q base).1.net.reqs, x.tag = t ∧ x.qp = some q ∧ x.msg = m) ∧ (s.sendRoce r q base).1.mem = s.mem
      ∧ (s.sendRoce r q base).1.regs = s.regs ∧ (s.sendRoce r q base).1.cores = s.cores := by
  rw [State.sendRoce_eq]
  refine ⟨_, s.roceMsg r q base, rfl, rfl, rfl, rfl, ?_, ?_, ?_, ?_, ?_⟩
  · rw [State.roceOut_keeps (fun t => (t.qpT q).tx) fun _ _ _ => rfl]
    exact congrArg QpSt.tx (s.qpT_setQpT q _)
  · rw [State.roceOut_keeps (fun t => t.net.reqs) fun _ _ _ => rfl]
    exact ⟨_, List.mem_append_right _ (List.mem_singleton_self _), rfl, rfl, rfl⟩
  · exact State.roceOut_keeps State.mem (fun _ _ _ => rfl) ..
  · exact State.roceOut_keeps State.regs (fun _ _ _ => rfl) ..
  · exact State.roceOut_keeps State.cores (fun _ _ _ => rfl) ..

theorem slice0_sequenceNumbers : Slice0.SequenceNumbers := by
  unfold Slice0.SequenceNumbers
  refine ⟨fun q kind m f s => ?_, State.sendRoce_fields⟩
  intro t mtu size count go
  have hcount : s.qpCount q kind m = count := s.qpCount_eq q kind m
  have hgo : f (s.expectsAfter q kind m) = go := by rw [State.expectsAfter, hcount]
  refine ⟨by rw [State.ackPsn, hcount], fun h => (roceOrder_first h).trans hgo, fun e he => ?_⟩
  refine ⟨fun hp => (roceOrder_next he hp).trans hgo, fun hp ha => roceOrder_gap he hp ha, fun hp ha hw => ?_, fun hp ha hw hk => ?_, fun hp ha hw hk => ?_⟩
  · rw [roceOrder_again he hp ha, if_pos hw]
  · rw [roceOrder_again he hp ha, if_neg hw, if_pos hk]
  · rw [roceOrder_again he hp ha, if_neg hw, if_neg hk]
    rfl

/-! ## Order (R253) -/

/-- With nothing waiting, no message finds its flow busy: a COPY is of another flow. -/
theorem State.flowBusy_roce {s : State} (h : s.net.inb = []) (kind q : Nat) (m : RoceMsg) : s.flowBusy (.roce kind q m) = false := by
  simp [State.flowBusy, h, Inb.flow]

theorem slice0_messageOrder : Slice0.MessageOrder := by
  unfold Slice0.MessageOrder
  intro kind q m s h
  dsimp only
  have hfree := State.flowBusy_roce h kind q m
  rw [inbound, inbGo_nil h]
  split
  · next ht => exact inbTurn_taken hfree ht
  · next ht => exact inbTurn_later hfree (Bool.eq_false_of_not_eq_true ht)

/-! ## Effects (R238, R254, R255, R267) -/

theorem takeUp_read (q : Nat) (m : RoceMsg) (s : State) : takeUp (.roce 0 q m) s = readTake q m s := by rfl
theorem takeUp_write (q : Nat) (m : RoceMsg) (s : State) : takeUp (.roce 1 q m) s = writeTake q m s := by rfl
theorem takeUp_send (q : Nat) (m : RoceMsg) (s : State) : takeUp (.roce 12 q m) s = sendTake q m s := by rfl

section
variable {q : Nat} {m : RoceMsg} {s : State}

/-- What comes of a WRITE whose access has answered. -/
def writeDone (q : Nat) (m : RoceMsg) : State × Bus → State × Bool
  | (t, .ok _) => (roceAck q m ((t.carry (qpEp q) m.va.toNat m.data.length 0).immediate q m), true)
  | (t, .fail _) => (roceNak q 3 opPut m t, true)
  | (t, .lost) => (t, true)
  | (t, .wait) => (t, false)

/-- What comes of a READ whose access has answered. -/
def readDone (q : Nat) (m : RoceMsg) : State × Bus → State × Bool
  | (t, .ok data) => (roceData q m data (t.carry (qpEp q) m.va.toNat 0 data.length), true)
  | (t, .fail _) => (roceNak q 3 opGet m t, true)
  | (t, .lost) => (t, true)
  | (t, .wait) => (t, false)

theorem writeTake_empty (h : m.data = []) : writeTake q m s = (roceAck q m (s.immediate q m), true) := by
  rw [writeTake, h]
  rfl

theorem readTake_empty (h : m.len = 0) : readTake q m s = (roceData q m [] s, true) := if_pos h

section
variable (h : m.data ≠ [])
include h

theorem writeTake_refused {code : Nat} (hr : s.refusal 1 m.va.toNat m.data.length (some m.rkey.toNat) = some code) :
    writeTake q m s = (roceNak q 2 opPut m s, true) := by
  rw [writeTake, if_neg (mt List.isEmpty_iff.1 h), hr]

variable (hr : s.refusal 1 m.va.toNat m.data.length (some m.rkey.toNat) = none)
include hr

theorem writeTake_closed (hf : s.fabOpen (qpEp q) m.va.toNat 2 = false) : writeTake q m s = (s, false) := by
  rw [writeTake, if_neg (mt List.isEmpty_iff.1 h), hr, hf]
  rfl

theorem writeTake_open (hf : s.fabOpen (qpEp q) m.va.toNat 2 = true) :
    writeTake q m s = writeDone q m (busWrite none true true m.va.toNat m.data s) := by
  rw [writeTake, if_neg (mt List.isEmpty_iff.1 h), hr, hf]
  rfl

end

section
variable (h : m.len ≠ 0)
include h

theorem readTake_refused {code : Nat} (hr : s.refusal 0 m.va.toNat m.len (some m.rkey.toNat) = some code) :
    readTake q m s = (roceNak q 2 opGet m s, true) := by
  rw [readTake, if_neg h, hr]

variable (hr : s.refusal 0 m.va.toNat m.len (some m.rkey.toNat) = none)
include hr

theorem readTake_closed (hf : s.fabOpen (qpEp q) m.va.toNat 0 = false) : readTake q m s = (s, false) := by
  rw [readTake, if_neg h, hr, hf]
  rfl

theorem readTake_open (hf : s.fabOpen (qpEp q) m.va.toNat 0 = true) : readTake q m s = readDone q m (busRead true m.va.toNat m.len s) := by
  rw [readTake, if_neg h, hr, hf]
  rfl

end

theorem sendTake_plain (h : m.imm = none) : sendTake q m s = (roceAck q m (s.bump F.WSTREAM_DROP_CNT), true) := by
  rw [sendTake, h]

section
variable {x : BitVec 32} (h : m.imm = some x)
include h

theorem sendTake_unknown (hs : s.streamOf (fieldOf x 0 16) = none) : sendTake q m s = (roceAck q m (s.bump F.WSTREAM_DROP_CNT), true) := by
  rw [sendTake, h]
  dsimp only
  rw [hs]

theorem sendTake_record {i : Nat} (hs : s.streamOf (fieldOf x 0 16) = some i) : sendTake q m s =
    let r := wsegArrive (fieldOf x 0 16) (s.recordNo i (fieldOf x 16 16)) 0 m.data (s.immediate q m)
    if r.2 then (roceAck q m r.1, true) else (s, false) := by
  rw [sendTake, h]
  dsimp only
  rw [hs]

end

end

theorem slice0_messageEffects : Slice0.MessageEffects := by
  unfold Slice0.MessageEffects
  intro q m s
  dsimp only
  rw [takeUp_read, takeUp_write, takeUp_send]
  refine ⟨writeTake_empty, fun h => ⟨fun code => writeTake_refused h, writeTake_closed h, fun hr hf => ?_⟩, readTake_empty,
    fun h => ⟨fun code => readTake_refused h, readTake_closed h, fun hr hf => ?_⟩, sendTake_plain, fun x h => ⟨sendTake_unknown h, fun i hs => ?_⟩⟩
  · rw [writeTake_open h hr hf]
    exact ⟨fun t d hb => by rw [hb]; rfl, fun t code hb => by rw [hb]; rfl, fun t hb => by rw [hb]; rfl, fun t hb => by rw [hb]; rfl⟩
  · rw [readTake_open h hr hf]
    exact ⟨fun t data hb => by rw [hb]; rfl, fun t code hb => by rw [hb]; rfl, fun t hb => by rw [hb]; rfl⟩
  · rw [sendTake_record h hs]
    exact ⟨fun ht => if_pos ht, fun ht => if_neg (ne_true_of_eq_false ht)⟩

end Sys2Proof.Machine
end

section
/-! # Queue pairs: requests and their answers (O49; spec/11 R238, R257) -/

namespace Sys2Proof.Machine

/-! ## Go-back-N -/

/-- The retries of a queue pair are used up. -/
def State.qpSpent (s : State) (q : Nat) : Prop := s.fld (F.LINK_QP_retry (q / 256) (q % 256)) ≤ (s.qpT q).tries

section
variable {q : Nat} {l : List OutReq} {s : State}

theorem goBack_idle (h : l = [] ∨ s.qpState q ≠ 3) : goBack q l s = s := if_pos (h.imp_left List.isEmpty_iff.2)

variable (hl : l ≠ []) (hq : s.qpState q = 3)
include hl hq

theorem goBack_eq : goBack q l s =
    if (s.qpT q).tries < s.fld (F.LINK_QP_retry (q / 256) (q % 256)) then
      l.foldl (fun (st : State) r => st.roceOut q r.op r.msg) (s.setQpT q { s.qpT q with tries := (s.qpT q).tries + 1 })
    else qpError (q / 256) (fun i => decide (i = q % 256)) (s.setQpT q { s.qpT q with tries := 0 }) :=
  if_neg fun h => h.elim (mt List.isEmpty_iff.1 hl) (absurd hq)

theorem goBack_again (h : ¬ s.qpSpent q) :
    goBack q l s = l.foldl (fun (st : State) r => st.roceOut q r.op r.msg) (s.setQpT q { s.qpT q with tries := (s.qpT q).tries + 1 }) :=
  (goBack_eq hl hq).trans (if_pos (Nat.not_le.1 h))

theorem goBack_spent (h : s.qpSpent q) :
    goBack q l s = qpError (q / 256) (fun i => decide (i = q % 256)) (s.setQpT q { s.qpT q with tries := 0 }) :=
  (goBack_eq hl hq).trans (if_neg (Nat.not_lt.2 h))

end

/-! ## Answers -/

/-- An answer names a request, by its last sequence number. -/
def State.names (s : State) (q : Nat) (m : RoceMsg) (r : OutReq) : Prop := s.lastPsn q r = m.psn

/-- The answer of a request that has failed. -/
def State.ackLate (s : State) (q : Nat) (m : RoceMsg) : Prop := m.psn ∈ (s.qpT q).late ∧ ∀ r ∈ s.qpReqs q, ¬ s.names q m r

theorem ackLate_iff (s : State) (q : Nat) (m : RoceMsg) :
    ((s.qpT q).late.contains m.psn = true ∧ (!(s.qpReqs q).any fun r => decide (s.lastPsn q r = m.psn)) = true) ↔ s.ackLate q m := by
  simp only [State.ackLate, State.names, List.contains_iff_mem, Bool.not_eq_true', List.any_eq_false, decide_eq_true_eq]

section
variable {q : Nat} {m : RoceMsg} {s : State}

theorem ackArrive_late (h : s.ackLate q m) : ackArrive q m s =
    (s.setQpT q { s.qpT q with late := (s.qpT q).late.filter (· ≠ m.psn) }).bump F.DEV_LATE_RSP_CNT := if_pos ((ackLate_iff s q m).2 h)

variable (h : ¬ s.ackLate q m)
include h

/-- A NAK for a sequence error has the requests from the number that it names on sent again. -/
theorem ackArrive_behind (hb : m.nak = true ∧ m.nakCode = 0) :
    ackArrive q m s = goBack q ((s.qpReqs q).dropWhile (fun r => decide (r.msg.psn ≠ m.psn))) s :=
  (if_neg (mt (ackLate_iff s q m).1 h)).trans (if_pos (Bool.and_eq_true_iff.2 ⟨hb.1, decide_eq_true hb.2⟩))

variable (hb : ¬ (m.nak = true ∧ m.nakCode = 0))
include hb

theorem ackArrive_eq : ackArrive q m s =
    match (s.qpReqs q).find? (fun r => decide (s.lastPsn q r = m.psn)) with
    | none => s
    | some r =>
      let before := ((s.qpReqs q).takeWhile (fun r => !decide (s.lastPsn q r = m.psn))).takeWhile (fun r => decide (r.op ≠ opGet))
      let s1 := before.foldl (qpAnswer q (.ok [])) s
      if before.length < (s.qpReqs q).findIdx (fun r => decide (s.lastPsn q r = m.psn)) then s1
      else qpAnswer q (if m.nak then .fail (BitVec.ofNat 16 E.REMOTE_ACCESS) else .ok m.data) s1 r :=
  (if_neg (mt (ackLate_iff s q m).1 h)).trans (if_neg fun hn => hb (by simpa using hn))

theorem ackArrive_none (hn : ∀ r ∈ s.qpReqs q, ¬ s.names q m r) : ackArrive q m s = s := by
  rw [ackArrive_eq h hb, List.find?_eq_none.2 fun r hr => by simpa [State.names] using hn r hr]

section
variable {before after : List OutReq} {r : OutReq} (hl : s.qpReqs q = before ++ r :: after) (hr : s.names q m r) (hn : ∀ x ∈ before, ¬ s.names q m x)
include hl hr hn

/-- An answer completes the request that it names and the writes before it, up to a read. -/
theorem ackArrive_names : ackArrive q m s =
    if before.takeWhile (fun x => decide (x.op ≠ 0)) ≠ before then (before.takeWhile (fun x => decide (x.op ≠ 0))).foldl (qpAnswer q (.ok [])) s
    else qpAnswer q (if m.nak then .fail (BitVec.ofNat 16 E.REMOTE_ACCESS) else .ok m.data)
      ((before.takeWhile (fun x => decide (x.op ≠ 0))).foldl (qpAnswer q (.ok [])) s) r := by
  have hhit : decide (s.lastPsn q r = m.psn) = true := decide_eq_true hr
  have hmiss : ∀ x ∈ before, decide (s.lastPsn q x = m.psn) = false := fun x hx => decide_eq_false (hn x hx)
  have hfind : (s.qpReqs q).find? (fun r => decide (s.lastPsn q r = m.psn)) = some r :=
    List.find?_eq_some_iff_append.2 ⟨hhit, before, after, hl, fun x hx => by rw [hmiss x hx]; rfl⟩
  have htake : (s.qpReqs q).takeWhile (fun r => !decide (s.lastPsn q r = m.psn)) = before := by
    rw [hl, List.takeWhile_append_of_pos fun x hx => by rw [hmiss x hx]; rfl, List.takeWhile_cons_of_neg (by rw [hhit]; decide), List.append_nil]
  have hidx : (s.qpReqs q).findIdx (fun r => decide (s.lastPsn q r = m.psn)) = before.length := by
    rw [hl, List.findIdx_append, List.findIdx_eq_length_of_false hmiss, if_neg (Nat.lt_irrefl _), List.findIdx_cons, hhit]
    exact Nat.zero_add _
  have hpre : (before.takeWhile fun x => decide (x.op ≠ 0)) <+: before := List.takeWhile_prefix _
  have hlen : (before.takeWhile fun x => decide (x.op ≠ 0)).length < before.length ↔ before.takeWhile (fun x => decide (x.op ≠ 0)) ≠ before :=
    ⟨fun hlt he => hlt.ne (congrArg List.length he), fun hne => Nat.lt_of_le_of_ne hpre.length_le fun he => hne (hpre.eq_of_length he)⟩
  rw [ackArrive_eq h hb, hfind]
  dsimp only
  rw [htake, hidx]
  exact if_congr hlen rfl rfl

theorem ackArrive_stuck (hw : before.takeWhile (fun x => decide (x.op ≠ 0)) ≠ before) :
    ackArrive q m s = (before.takeWhile (fun x => decide (x.op ≠ 0))).foldl (qpAnswer q (.ok [])) s :=
  (ackArrive_names h hb hl hr hn).trans (if_pos hw)

theorem ackArrive_whole (hw : before.takeWhile (fun x => decide (x.op ≠ 0)) = before) :
    ackArrive q m s = qpAnswer q (if m.nak then .fail (BitVec.ofNat 16 E.REMOTE_ACCESS) else .ok m.data)
      ((before.takeWhile (fun x => decide (x.op ≠ 0))).foldl (qpAnswer q (.ok [])) s) r :=
  (ackArrive_names h hb hl hr hn).trans (if_neg (not_not_intro hw))

end

end

/-! ## Notifications and timeouts -/

theorem exec_roceCnpReceive (qp : BitVec 13) (s : State) : exec (.roceCnpReceive qp) s = .next (cnpArrive qp.toNat s) := by rfl
theorem exec_roceRetransmitTimeout (qp : BitVec 13) (s : State) :
    exec (.roceRetransmitTimeout qp) s = .next (goBack qp.toNat (s.qpReqs qp.toNat) s) := by rfl

theorem slice0_queuePairRequests : Slice0.QueuePairRequests := by
  unfold Slice0.QueuePairRequests
  intro qp m s
  dsimp only
  rw [exec_roceCnpReceive, exec_roceRetransmitTimeout]
  refine ⟨ackArrive_late, fun h hb hi => ?_, fun h hb hf hq hs => ?_, fun h hb hf hq hs => ?_, ackArrive_none, fun h hb before r after hl hr hn => ?_,
    fun hd => ?_, fun ht => ?_, fun hi => congrArg _ (goBack_idle hi),
    fun hl hq => ⟨fun hs => congrArg _ (goBack_again hl hq hs), fun hs => congrArg _ (goBack_spent hl hq hs)⟩⟩
  · exact (ackArrive_behind h hb).trans (goBack_idle hi)
  · exact (ackArrive_behind h hb).trans (goBack_again hf hq hs)
  · exact (ackArrive_behind h hb).trans (goBack_spent hf hq hs)
  · refine ⟨fun hw => ackArrive_stuck h hb hl hr hn hw, fun hw hnak => ?_, fun hw hnak => ?_⟩
    · rw [ackArrive_whole h hb hl hr hn hw, hnak]
      rfl
    · rw [ackArrive_whole h hb hl hr hn hw, hnak]
      rfl
  · rw [cnpArrive, if_neg (ne_true_of_eq_false hd)]
  · rw [cnpArrive, if_pos ht]

/-- Settles O49: messages as they arrive, in their order and with their effects, requests and their answers, what leaves, and flow-control frames. -/
theorem queuePairs : Obligations.QueuePairs :=
  ⟨slice0_messagesArrive, slice0_sequenceNumbers, slice0_messageOrder, slice0_messageEffects, slice0_queuePairRequests, slice0_messagesLeave,
    slice0_flowControl⟩

end Sys2Proof.Machine
end

section
/-! # Load plans and wrapped keys (O50; spec/12 R263-R266; spec/17 R397; spec/18 R419, R422) -/

namespace Sys2Proof.Machine

theorem exec_wstreamPlanLoad (v : W64) (s : State) : exec (.wstreamPlanLoad v) s = .next (if v.getLsbD 0 then planLoad s else s) := by rfl
theorem exec_wstreamKeyUnwrap (v : W64) (s : State) : exec (.wstreamKeyUnwrap v) s = .next (keySlotWrite v s) := by rfl

/-! ## The checks of a plan (R265, R266) -/

theorem pairs_iff {α : Type} (t : α → α → Bool) (l : List α) : pairs t l = true ↔ l.Pairwise (fun a b => t a b = true) := by
  induction l with
  | nil => simp [pairs]
  | cons x xs ih => simp [pairs, ih]

/-- The rows of the load plan and of the reservations in memory; none for one with a reserved value. -/
def State.planRows (s : State) : List (Option PlanEnt) := (List.range (s.fld F.WSTREAM_PLAN_LEN)).map (readEnt s (s.fld F.WSTREAM_PLAN_BASE))
def State.resvRows (s : State) : List (Option Resv) :=
  (List.range (s.fld F.WSTREAM_RESV_LEN)).map (readResv s (s.fld F.WSTREAM_RESV_BASE * 4096))

/-- Where the destination of an entry must lie. -/
def State.entInside (s : State) (rs : List Resv) (e : PlanEnt) : Prop :=
  if e.sram then e.bytes ≤ e.perCore * e.ncores ∧ e.dbase + e.perCore ≤ 0x3000000 ∧ e.first + e.ncores ≤ s.ncores
  else ∃ r ∈ rs, r.kind = 1 ∧ r.base ≤ e.dbase ∧ e.dbase + e.bytes ≤ r.base + r.size

/-- A plan without entries or reservations is no plan. -/
theorem planCheck_of_empty {s : State} (h : s.fld F.WSTREAM_PLAN_LEN = 0 ∨ s.fld F.WSTREAM_RESV_LEN = 0) :
    planCheck s = .inr E.LOAD_PLAN_INVALID := by
  rcases h with h | h <;> simp [planCheck, h]

/-- What the checks that a plan has passed say of it. -/
theorem planCheck_ok {s : State} {es : List PlanEnt} {rs : List Resv} (h : planCheck s = .inl (es, rs)) :
    (es = s.planRows.filterMap id ∧ rs = s.resvRows.filterMap id)
      ∧ ((∀ x ∈ s.planRows, x ≠ none) ∧ s.planRows ≠ [] ∧ s.planRows.length ≤ 65536)
      ∧ (∀ r ∈ rs, r.base + r.size ≤ s.edgeSize)
      ∧ rs.Pairwise (fun a b => ¬ (a.base < b.base + b.size ∧ b.base < a.base + a.size))
      ∧ (∀ e ∈ es, s.entInside rs e)
      ∧ 64 * slotBytes ≤ ((rs.find? (fun r => r.kind = 3)).map (·.size)).getD 0 := by
  unfold planCheck at h
  extract_lets el rl es' rs' same inside apart ret at h
  split at h
  · cases h
  · next hformed =>
    split at h
    · next hfits =>
      obtain ⟨rfl, rfl⟩ := Prod.mk.inj (Sum.inl.inj h)
      simp only [Bool.or_eq_true, not_or, List.any_eq_true, not_exists, not_and, Option.isNone_iff_eq_none, List.isEmpty_iff, decide_eq_true_eq,
        Nat.not_lt] at hformed
      simp only [Bool.and_eq_true, List.all_eq_true, decide_eq_true_eq, pairs_iff, Bool.not_eq_true', meets, decide_eq_false_iff_not] at hfits
      obtain ⟨⟨⟨⟨⟨⟨hrows, -⟩, hne⟩, -⟩, hlen⟩, -⟩, -⟩ := hformed
      obtain ⟨⟨⟨⟨⟨hedge, hapart⟩, hin⟩, -⟩, hret⟩, -⟩ := hfits
      refine ⟨⟨rfl, rfl⟩, ⟨hrows, hne, hlen⟩, hedge, hapart, fun e he => ?_, hret⟩
      have hin := hin e he
      unfold State.entInside
      split
      · next hsram => simpa [inside, hsram] using hin
      · next hsram => simpa [inside, hsram] using hin
    · cases h

/-- A reservation that is read is a whole number of pages. -/
theorem readResv_pages {s : State} {base k : Nat} {r : Resv} (h : readResv s base k = some r) : r.base % 4096 = 0 ∧ r.size % 4096 = 0 := by
  unfold readResv at h
  extract_lets n r' at h
  split at h
  · cases h
  · next hgood =>
    obtain rfl := Option.some.inj h
    simp only [not_or, not_not] at hgood
    obtain ⟨-, hsize, hbase, -⟩ := hgood
    exact ⟨hbase, hsize⟩

theorem State.mem_resvRows {s : State} {r : Resv} (h : r ∈ s.resvRows.filterMap id) : r.base % 4096 = 0 ∧ r.size % 4096 = 0 := by
  obtain ⟨x, hx, hr⟩ := List.mem_filterMap.1 h
  obtain ⟨k, -, hk⟩ := List.mem_map.1 hx
  exact readResv_pages (hk.trans hr)

theorem filterMap_id_ne_nil {α : Type} {l : List (Option α)} (hne : l ≠ []) (h : ∀ x ∈ l, x ≠ none) : l.filterMap id ≠ [] := fun he =>
  h _ (List.head_mem hne) (List.filterMap_eq_nil_iff.1 he _ (List.head_mem hne))

/-- The retention reservation is the first of its kind. -/
theorem exists_resv_of_size {rs : List Resv} {k n : Nat} (hn : 0 < n) (h : n ≤ ((rs.find? (fun r => r.kind = k)).map (·.size)).getD 0) :
    ∃ r ∈ rs, r.kind = k ∧ n ≤ r.size := by
  cases hfind : rs.find? (fun r => r.kind = k) with
  | none =>
    rw [hfind] at h
    exact absurd h (Nat.not_le.2 hn)
  | some r =>
    rw [hfind] at h
    exact ⟨r, List.mem_of_find?_eq_some hfind, by simpa using List.find?_some hfind, h⟩

/-! ## The load of a plan (R266) -/

theorem planLoad_loaded {s : State} (h : s.jobLoaded = true) : planLoad s = s := if_pos h

theorem planLoad_refused {s : State} {code : Nat} (hj : s.jobLoaded = false) (h : planCheck s = .inr code) : planLoad s = loadRefused code s := by
  rw [planLoad, if_neg (ne_true_of_eq_false hj), h]

theorem planLoad_installed {s : State} {p : List PlanEnt × List Resv} (hj : s.jobLoaded = false) (h : planCheck s = .inl p) : planLoad s =
    ((s.setWs { s.ws with plan := some p, segs := [], released := [], relBy := [], failed := [] }).setFld F.WSTREAM_PLAN_STS_code 0).setFlag
      F.WSTREAM_PLAN_STS_loaded true := by
  rw [planLoad, if_neg (ne_true_of_eq_false hj), h]

theorem slice0_planLoad : Slice0.PlanLoad := by
  unfold Slice0.PlanLoad
  intro v s
  dsimp only
  rw [exec_wstreamPlanLoad]
  refine ⟨fun h => ?_, fun hv hj => ⟨fun code hc => ?_, fun p hp => ?_⟩, planCheck_of_empty, fun es rs h => ?_⟩
  · rcases h with h | h
    · rw [if_neg (ne_true_of_eq_false h)]
    · rw [planLoad_loaded h, ite_self]
  · rw [if_pos hv, planLoad_refused hj hc]
    rfl
  · rw [if_pos hv, planLoad_installed hj hp]
  · obtain ⟨⟨rfl, rfl⟩, ⟨hrows, hne, hlen⟩, hedge, hapart, hin, hret⟩ := planCheck_ok h
    refine ⟨filterMap_id_ne_nil hne hrows, (List.length_filterMap_le _ _).trans hlen, fun r hr => ⟨hedge r hr, State.mem_resvRows hr⟩, hapart,
      exists_resv_of_size (by decide) hret, fun e he hs => ?_, fun e he hs => ?_⟩
    · obtain ⟨hbytes, hcore, hcores⟩ := (if_pos hs).mp (hin e he)
      exact ⟨hcore, hcores, hbytes⟩
    · exact (if_neg (ne_true_of_eq_false hs)).mp (hin e he)

/-! ## A wrapped key is opened (R263, R397) -/

/-- A module whose Lodge opens no key: no key at rest, debug, or no record of the vectors used. -/
def State.keysBarred (s : State) : Prop := s.lodge.keys = false ∨ s.lodge.debug = true ∨ s.lodge.noIv = true

/-- What a wrapped key opens to for an epoch of the job. -/
def State.keyOpened (epoch : Nat) (wrapped : List Byte) (s : State) : Option (List Byte) :=
  oaepOpen (Config.wk s.idGen).n (Config.wk s.idGen).d (leBytes 8 s.jobArgs.id ++ leBytes 2 epoch) wrapped

theorem State.keysBarred_iff (s : State) : (!s.lodge.keys || s.lodge.debug || s.lodge.noIv) = true ↔ s.keysBarred := by
  simp only [State.keysBarred, Bool.or_eq_true, Bool.not_eq_true', or_assoc]

/-- A key of a job that has keys: beside the only one, or in place of the older. -/
def keyFollows (epoch : Nat) (key : List Byte) (s : State) : State :=
  match s.ws.keys with
  | [] => keyInstall [(epoch, key)] s
  | [(e, k0)] => if epoch = e + 1 then keyInstall [(e, k0), (epoch, key)] s else keyRefused E.KEY_EPOCH epoch s
  | (e, _) :: k1 :: _ => if epoch = e + 2 ∧ !epochWaits s e then keyInstall [k1, (epoch, key)] s else keyRefused E.KEY_EPOCH epoch s

section
variable {epoch : Nat} {wrapped : List Byte} {s : State}

theorem keyUnwrap_barred (h : s.keysBarred) : keyUnwrap epoch wrapped s = keyRefused E.KEY_UNWRAP epoch s := by
  rw [keyUnwrap]
  exact if_pos (s.keysBarred_iff.2 h)

variable (hbar : ¬ s.keysBarred)
include hbar

theorem keyUnwrap_closed (h : s.keyOpened epoch wrapped = none) : keyUnwrap epoch wrapped s = keyRefused E.KEY_UNWRAP epoch s := by
  rw [State.keyOpened] at h
  simp only [keyUnwrap, Bool.eq_false_of_not_eq_true (mt s.keysBarred_iff.1 hbar), h, Bool.false_eq_true, if_false]

variable {key : List Byte} (hopen : s.keyOpened epoch wrapped = some key)
include hopen

theorem keyUnwrap_opened : keyUnwrap epoch wrapped s =
    if key.length ≠ 32 then keyRefused E.KEY_UNWRAP epoch s
    else if s.ws.fresh then keyInstall [(epoch, key)] s
    else keyFollows epoch key s := by
  rw [State.keyOpened] at hopen
  simp only [keyUnwrap, Bool.eq_false_of_not_eq_true (mt s.keysBarred_iff.1 hbar), hopen, Bool.false_eq_true, if_false]
  rfl

theorem keyUnwrap_short (h : key.length ≠ 32) : keyUnwrap epoch wrapped s = keyRefused E.KEY_UNWRAP epoch s :=
  (keyUnwrap_opened hbar hopen).trans (if_pos h)

variable (hlen : key.length = 32)
include hlen

theorem keyUnwrap_first (h : s.ws.fresh = true ∨ s.ws.keys = []) : keyUnwrap epoch wrapped s = keyInstall [(epoch, key)] s := by
  rw [keyUnwrap_opened hbar hopen, if_neg (not_not_intro hlen)]
  rcases h with h | h
  · rw [if_pos h]
  · rw [keyFollows, h, ite_self]

variable (hfresh : s.ws.fresh = false)
include hfresh

theorem keyUnwrap_second {e : Nat} {k0 : List Byte} (h : s.ws.keys = [(e, k0)]) : keyUnwrap epoch wrapped s =
    if epoch = e + 1 then keyInstall [(e, k0), (epoch, key)] s else keyRefused E.KEY_EPOCH epoch s := by
  rw [keyUnwrap_opened hbar hopen, if_neg (not_not_intro hlen), if_neg (ne_true_of_eq_false hfresh), keyFollows, h]

theorem keyUnwrap_later {e : Nat} {k0 : List Byte} {k1 : Nat × List Byte} {l : Sparse (List Byte)} (h : s.ws.keys = (e, k0) :: k1 :: l) :
    keyUnwrap epoch wrapped s =
      if epoch = e + 2 ∧ epochWaits s e = false then keyInstall [k1, (epoch, key)] s else keyRefused E.KEY_EPOCH epoch s := by
  rw [keyUnwrap_opened hbar hopen, if_neg (not_not_intro hlen), if_neg (ne_true_of_eq_false hfresh), keyFollows, h]
  simp only [Bool.not_eq_true']

end

/-! ## What an install and a refusal leave (R263, R264) -/

theorem keyRefused_code (code epoch : Nat) (s : State) : (keyRefused code epoch s).fld F.WSTREAM_KEY_STS_code = code % 2 ^ 16 :=
  (fld_raise _ _ _ _ _ _ (by decide)).trans (State.fld_setFld _ _ _ (by decide))

/-- The registers of the key slots hold no bit of the code. -/
theorem State.showKeys_code (s : State) : s.showKeys.fld F.WSTREAM_KEY_STS_code = s.fld F.WSTREAM_KEY_STS_code :=
  (State.fld_setFld_bits _ F.WSTREAM_KEY_STS_epoch1 _ _ (.inl (by decide))).trans
    ((State.fld_setFld_bits _ F.WSTREAM_KEY_STS_valid1 _ _ (.inl (by decide))).trans
      ((State.fld_setFld_bits _ F.WSTREAM_KEY_STS_epoch0 _ _ (.inl (by decide))).trans
        (State.fld_setFld_bits _ F.WSTREAM_KEY_STS_valid0 _ _ (.inl (by decide)))))

theorem State.showKeys_valid0 (s : State) : s.showKeys.flag F.WSTREAM_KEY_STS_valid0 = !s.ws.keys.isEmpty :=
  (State.flag_setFld_bits _ F.WSTREAM_KEY_STS_epoch1 _ _ (.inr (by decide))).trans
    ((State.flag_setFld_bits _ F.WSTREAM_KEY_STS_valid1 _ _ (.inl (by decide))).trans
      ((State.flag_setFld_bits _ F.WSTREAM_KEY_STS_epoch0 _ _ (.inr (by decide))).trans (State.flag_setFlag _ _ _ (by decide) (by decide))))

theorem keyInstall_code (keys : Sparse (List Byte)) (s : State) : (keyInstall keys s).fld F.WSTREAM_KEY_STS_code = 0 :=
  (State.showKeys_code _).trans (State.fld_setFld _ _ _ (by decide))

theorem recordPut_keeps {β : Type} (g : State → β) (h : ∀ (s : State) (l : Lodge), g { s with lodge := l } = g s) (type : Nat) (payload : List Byte)
    (s : State) : g (recordPut type payload s) = g s := by
  unfold recordPut
  split
  · rfl
  · exact h _ _

/-- What an install changes: WSTREAM, the Lodge's record of the vectors used, and registers. -/
theorem keyInstall_keeps {β : Type} (g : State → β) (hreg : ∀ (s : State) (a : Nat) (v : W64), g (s.setReg a v) = g s)
    (hlodge : ∀ (s : State) (l : Lodge), g { s with lodge := l } = g s) (keys : Sparse (List Byte)) (s : State) :
    g (keyInstall keys s) = g (({ s with ivRecord := s.ivRecord + 2 ^ 40 } : State).setWs { s.ws with keys := keys, fresh := false, ivLeft := 2 ^ 40 }) := by
  unfold keyInstall State.showKeys State.setFlag State.setFld
  simp only [hreg]
  exact recordPut_keeps (fun t => g (t.setWs _)) (fun t l => hlodge (t.setWs _) l) _ _ _

/-! ## A key is taken (R263, R419, R422) -/

/-- A module that EJECT_N has stopped, or that Run-out has made ready to remove (log 52). -/
def State.keysStill (s : State) : Prop := s.boot.quiet = true ∨ s.fld F.DEV_RUNOUT_STS_stage = 7

section
variable {epoch : Nat} {wrapped : List Byte} {s : State}

theorem keyTake_still (h : s.keysStill) : keyTake epoch wrapped s = s := if_pos h

variable (h : ¬ s.keysStill)
include h

theorem keyTake_refused {code : Nat} (hu : keyUnwrap epoch wrapped s = keyRefused code epoch s) (hcode : code % 2 ^ 16 ≠ 0) :
    keyTake epoch wrapped s = keyRefused code epoch s := by
  rw [keyTake, hu]
  exact (if_neg h).trans (if_neg (by rwa [keyRefused_code]))

theorem keyTake_installed {keys : Sparse (List Byte)} (hu : keyUnwrap epoch wrapped s = keyInstall keys s) :
    keyTake epoch wrapped s = (keyInstall keys s).wbRun := by
  rw [keyTake, hu]
  exact (if_neg h).trans (if_pos (keyInstall_code _ _))

/-- Where the epoch decides, the key is installed or refused for its epoch. -/
theorem keyTake_decided {p : Prop} [Decidable p] {keys : Sparse (List Byte)}
    (hu : keyUnwrap epoch wrapped s = if p then keyInstall keys s else keyRefused E.KEY_EPOCH epoch s) :
    keyTake epoch wrapped s = if p then (keyInstall keys s).wbRun else keyRefused E.KEY_EPOCH epoch s := by
  split
  · next hp => exact keyTake_installed h (hu.trans (if_pos hp))
  · next hp => exact keyTake_refused h (hu.trans (if_neg hp)) (by decide)

end

theorem State.setReg_stage (s : State) {a : Nat} (v : W64) (h : F.DEV_RUNOUT_STS_stage.addr ≠ a) :
    (s.setReg a v).fld F.DEV_RUNOUT_STS_stage = s.fld F.DEV_RUNOUT_STS_stage :=
  State.fld_congr ((State.reg_setReg _ _ _ _).trans (if_neg h))

/-! ## Keys that do not come (R263) -/

theorem exec_wstreamKeyTimeout_installed {epoch : BitVec 16} {s : State} {p : Nat × List Byte} (hp : s.ws.keys.getLast? = some p)
    (h : epoch.toNat ≤ p.1) : exec (.wstreamKeyTimeout epoch) s = .next s := by
  change execWstreamKeyTimeout epoch s = _
  rw [execWstreamKeyTimeout, hp]
  exact if_pos (decide_eq_true h)

theorem exec_wstreamKeyTimeout_missing {epoch : BitVec 16} {s : State} (h : ∀ p, s.ws.keys.getLast? = some p → p.1 < epoch.toNat) :
    exec (.wstreamKeyTimeout epoch) s = .next ((s.ws.recs.filter (fun x => !x.done && decide (64 ≤ x.got)
      && (x.again || decide (x.no = Sparse.get s.ws.next 0 x.stream)) && decide (s.recHdr x.stream x.no 2 2 = epoch.toNat))).foldl
        (fun st x => authFails x st) s) := by
  change execWstreamKeyTimeout epoch s = _
  rw [execWstreamKeyTimeout]
  refine if_neg ?_
  cases hlast : s.ws.keys.getLast? with
  | none => exact Bool.false_ne_true
  | some p => exact fun hle => Nat.not_le.2 (h p hlast) (of_decide_eq_true hle)

theorem slice0_keyInstalls : Slice0.KeyInstalls := by
  unfold Slice0.KeyInstalls
  refine ⟨fun v s => ?_, fun keys s => ?_, fun epoch s => ⟨fun p => exec_wstreamKeyTimeout_installed, exec_wstreamKeyTimeout_missing⟩⟩
  · intro s1 epoch k opened refused installed still barred run
    let wrapped := (s1.group F.WSTREAM_KEY_SLOT_w0.addr 64).flatMap (fun x => leBytes 8 x.toNat)
    have hrun : run = .next (keyTake epoch wrapped s1) := exec_wstreamKeyUnwrap v s
    have hstill : s1.keysStill ↔ still := or_congr_right (by rw [State.setReg_stage s v (by decide)])
    have hrefused : ∀ code, code % 2 ^ 16 ≠ 0 → ¬ still → keyUnwrap epoch wrapped s1 = keyRefused code epoch s1 → run = .next (refused code) :=
      fun code hcode hs hu => hrun.trans (congrArg _ (keyTake_refused (mt hstill.1 hs) hu hcode))
    have hinstalled : ∀ keys, ¬ still → keyUnwrap epoch wrapped s1 = keyInstall keys s1 → run = .next (installed keys) :=
      fun keys hs hu => hrun.trans (congrArg _ (keyTake_installed (mt hstill.1 hs) hu))
    have hdecided : ∀ (p : Prop) [Decidable p] keys, ¬ still →
        keyUnwrap epoch wrapped s1 = (if p then keyInstall keys s1 else keyRefused E.KEY_EPOCH epoch s1) →
        run = .next (if p then installed keys else refused E.KEY_EPOCH) :=
      fun p _ keys hs hu => hrun.trans (congrArg _ (keyTake_decided (mt hstill.1 hs) hu))
    refine ⟨fun h => hrun.trans (congrArg _ (keyTake_still (hstill.2 h))), fun hs hb => hrefused _ (by decide) hs (keyUnwrap_barred hb), fun hs hb ho => ?_,
      fun key hs hb ho => ?_⟩
    · exact hrefused _ (by decide) hs (keyUnwrap_closed (s := s1) hb ho)
    · have hbar : ¬ s1.keysBarred := hb
      exact ⟨fun hl => hrefused _ (by decide) hs (keyUnwrap_short hbar ho hl), fun hl =>
        ⟨fun h => hinstalled [(epoch, key)] hs (keyUnwrap_first hbar ho hl h),
        fun hf e k0 h => hdecided (epoch = e + 1) [(e, k0), (epoch, key)] hs (keyUnwrap_second hbar ho hl hf h),
        fun hf e k0 k1 l h => hdecided (epoch = e + 2 ∧ epochWaits s1 e = false) [k1, (epoch, key)] hs (keyUnwrap_later hbar ho hl hf h)⟩⟩
  · exact ⟨keyInstall_keeps State.ws (fun _ _ _ => rfl) (fun _ _ => rfl) _ _, keyInstall_keeps State.ivRecord (fun _ _ _ => rfl) (fun _ _ => rfl) _ _,
      keyInstall_keeps State.mem (fun _ _ _ => rfl) (fun _ _ => rfl) _ _, keyInstall_keeps State.cores (fun _ _ _ => rfl) (fun _ _ => rfl) _ _,
      keyInstall_code _ _, State.showKeys_valid0 _⟩

end Sys2Proof.Machine
end

section
/-! # Weight records arrive (O50; spec/12 R266, R267, R274, R275) -/

namespace Sys2Proof.Machine

/-! ## The slot of a record (R267, R275) -/

/-- This engine is the root of the tree, and a stream brings its images. -/
def State.rootImages (s : State) (i : Nat) : Prop := (s.holder 4).1 = true ∧ s.isSelf (s.holder 4).2.1 = true ∧ s.imageStream = some i

theorem State.slotTaken_iff (s : State) (i r : Nat) : s.slotTaken i r = true ↔
    s.fld (F.WSTREAM_STREAM_slots i) = 0
      ∨ (∃ x ∈ s.ws.recs, x.stream = i ∧ x.no ≠ r ∧ x.no % s.fld (F.WSTREAM_STREAM_slots i) = r % s.fld (F.WSTREAM_STREAM_slots i))
      ∨ (s.rootImages i ∧ ∃ q ∈ s.ws.irecs, q.2.1 ≠ r ∧ q.2.1 % s.fld (F.WSTREAM_STREAM_slots i) = r % s.fld (F.WSTREAM_STREAM_slots i)) := by
  simp only [State.slotTaken, State.rootImages, Bool.or_eq_true, Bool.and_eq_true, List.any_eq_true, decide_eq_true_eq, or_assoc, and_assoc]

/-! ## Bytes that arrive (R266, R274) -/

theorem wsegArrive_dropped {s : State} {id : Nat} (h : s.ws.plan = none ∨ s.streamOf id = none) (rec_ off : Nat) (data : List Byte) :
    wsegArrive id rec_ off data s = (if off = 0 then s.bump F.WSTREAM_DROP_CNT else s, true) := by
  rcases h with h | h
  · rw [wsegArrive, h]
  · cases hp : s.ws.plan <;> rw [wsegArrive, hp, h]

section
variable {s : State} {id i rec_ off : Nat} {data : List Byte} {p : List PlanEnt × List Resv} (hp : s.ws.plan = some p) (hi : s.streamOf id = some i)
include hp hi

theorem wsegArrive_new (hf : s.ws.find i rec_ = none) : wsegArrive id rec_ off data s =
    if rec_ < Sparse.get s.ws.next 0 i then (s, true)
    else if s.slotTaken i rec_ then (s, false)
    else if !s.clear (s.slotAddr i rec_ + off) data.length then (s.ask (s.slotAddr i rec_ + off) data.length, false)
    else (wsegArrive.put rec_ off data s i { stream := i, no := rec_ }, true) := by
  rw [wsegArrive, hp, hi]
  dsimp only
  rw [hf]

theorem wsegArrive_known {x : WRec} (hf : s.ws.find i rec_ = some x) : wsegArrive id rec_ off data s =
    if x.done then (s, true)
    else if !s.clear (s.slotAddr i rec_ + off) data.length then (s.ask (s.slotAddr i rec_ + off) data.length, false)
    else (wsegArrive.put rec_ off data s i x, true) := by
  rw [wsegArrive, hp, hi]
  dsimp only
  rw [hf]

end

theorem slice0_segmentsArrive : Slice0.SegmentsArrive := by
  unfold Slice0.SegmentsArrive
  intro id rec_ off data s
  refine ⟨fun h => wsegArrive_dropped h rec_ off data, fun p i hp hi => ?_⟩
  intro slots a root used stored
  have hused : s.slotTaken i rec_ = true ↔ used := s.slotTaken_iff i rec_
  have hput : ∀ x, wsegArrive.put rec_ off data s i x = stored x := fun _ => rfl
  refine ⟨fun hf => ?_, fun x hf => ?_⟩
  · rw [wsegArrive_new hp hi hf]
    refine ⟨fun h => if_pos h, fun h hu => ?_, fun h hu hc => ?_, fun h hu hc => ?_⟩
    · rw [if_neg (Nat.not_lt.2 h), if_pos (hused.2 hu)]
    · rw [if_neg (Nat.not_lt.2 h), if_neg (mt hused.1 hu), hc]
      rfl
    · rw [if_neg (Nat.not_lt.2 h), if_neg (mt hused.1 hu), hc, hput]
      rfl
  · rw [wsegArrive_known hp hi hf]
    refine ⟨fun h => if_pos h, fun h hc => ?_, fun h hc => ?_⟩
    · rw [if_neg (ne_true_of_eq_false h), hc]
      rfl
    · rw [if_neg (ne_true_of_eq_false h), hc, hput]
      rfl

end Sys2Proof.Machine
end

section
/-! # The turn of a record, and records that fail (O50; spec/12 R261, R263, R267-R271, R275, R277, R278) -/

namespace Sys2Proof.Machine

theorem exec_recordDecrypt (stream : BitVec 4) (rec_ : Nat) (s : State) :
    exec (.recordDecrypt stream rec_) s = .next (fetchWake (recordDecrypt stream.toNat rec_ s)) := by rfl

theorem recWhole_iff (s : State) (x : WRec) : recWhole s x = true ↔
    64 ≤ x.got ∧ (s.recHdr x.stream x.no 4 4 = 0 ∨ 1048576 < s.recHdr x.stream x.no 4 4 ∨ 80 + s.recHdr x.stream x.no 4 4 ≤ x.got) :=
  decide_eq_true_iff

/-! ## The stages of a record's turn (R268) -/

/-- Where a record goes, the writes of its plaintext there, and the state in which it has been handled. -/
def State.destOf (s : State) (i rec_ : Nat) : List (Nat × Nat) :=
  recDest s (s.recHdr i rec_ 1 1) (s.recHdr i rec_ 28 2) (s.recHdr i rec_ 24 4) (s.recHdr i rec_ 4 4)
def State.recStored (s : State) (i rec_ : Nat) (pt : List Byte) : State × Bool :=
  spreadStore (s.stackEp (s.slotAddr i rec_)) (s.destOf i rec_) pt s
def State.recHandled (s : State) (i rec_ : Nat) (x : WRec) (pt : List Byte) : State := recDone x (s.recStored i rec_ pt).1

/-- The segments of an entry, and of an image, that had been written when the record was handled. -/
def State.recSegs (s : State) (i rec_ : Nat) (x : WRec) (pt : List Byte) : List Nat :=
  Sparse.get (s.recHandled i rec_ x pt).ws.segs [] (s.recHdr i rec_ 28 2)
def State.recIsegs (s : State) (i rec_ : Nat) (x : WRec) (pt : List Byte) : List Nat :=
  Sparse.get (s.recHandled i rec_ x pt).ws.isegs [] (s.recHdr i rec_ 28 2)

/-- A record is written to its destination: it counts for its entry, or for its image, which is verified when it is complete. -/
def recWrite (i rec_ : Nat) (x : WRec) (pt : List Byte) (s : State) : State :=
  let h := s.recHdr i rec_
  let t := s.recHandled i rec_ x pt
  if h 1 1 = 0 then
    t.setWs { t.ws with
      segs := if ((s.recStored i rec_ pt).2 && (t.ws.ent (h 28 2)).any (fun y => decide (h 4 4 = Nat.min segBytes (y.bytes - h 24 4 * segBytes))))
          && !(s.recSegs i rec_ x pt).contains (h 24 4) then Sparse.put t.ws.segs (h 28 2) (h 24 4 :: s.recSegs i rec_ x pt) else t.ws.segs }
  else
    fetchOn (imageVerify false (h 28 2) (if (s.recIsegs i rec_ x pt).contains (h 24 4) then t else t.setWs { t.ws with
      isegs := Sparse.put t.ws.isegs (h 28 2) (h 24 4 :: s.recIsegs i rec_ x pt)
      segs := Sparse.put t.ws.segs (2 ^ 20 + h 28 2) (h 4 4 :: Sparse.get t.ws.segs [] (2 ^ 20 + h 28 2))
      irecs := (h 28 2, rec_, h 24 4) :: t.ws.irecs }))

/-- What a key opens a record in its slot to. -/
def State.recOpened (s : State) (i rec_ : Nat) (key : List Byte) : Option (List Byte) :=
  let a := s.slotAddr i rec_
  let plen := s.recHdr i rec_ 4 4
  gcmOpen key (s.mem.bytes (a + 32) 12) (s.mem.bytes a 64) (s.mem.bytes (a + 64) plen) (s.mem.bytes (a + 64 + plen) 16)

/-- A record that may be opened is opened: it fails, waits for its destination, or is written. -/
def recOpen (i rec_ : Nat) (x : WRec) (key : List Byte) (s : State) : State :=
  let h := s.recHdr i rec_
  let dest := recDest s (h 1 1) (h 28 2) (h 24 4) (h 4 4)
  match s.recOpened i rec_ key with
  | none => authFails x s
  | some pt => if !s.spreadFree (s.stackEp (s.slotAddr i rec_)) dest then s.spreadAsk dest else recWrite i rec_ x pt s

/-- A record whose key is there waits for its version, its buffer group or the manifest, or is opened. -/
def recKeyed (i rec_ : Nat) (x : WRec) (key : List Byte) (s : State) : State :=
  let h := s.recHdr i rec_
  if h 1 1 = 0 ∧ h 16 8 < s.wver then recReject x E.WSEG_VERSION s
  else if h 1 1 = 0 ∧ (s.wver < h 16 8 ∨ !s.ws.bufFree (h 28 2)) then s
  else if h 1 1 = 1 ∧ h 28 2 ≠ 0 ∧ s.ws.manifest.isNone then
    if s.ws.recs.any (fun y => y.again && !y.done) ∨ s.ws.waiting.any (·.again) then s else imageVerify true 0 s
  else recOpen i rec_ x key s

/-- A well-formed record waits for its key. -/
def recSound (i rec_ : Nat) (x : WRec) (s : State) : State :=
  (Sparse.find s.ws.keys (s.recHdr i rec_ 2 2)).elim s (fun key => recKeyed i rec_ x key s)

theorem recordDecrypt_none {i rec_ : Nat} {s : State} (h : s.ws.find i rec_ = none) : recordDecrypt i rec_ s = s := by rw [recordDecrypt, h]

theorem recordDecrypt_some {i rec_ : Nat} {x : WRec} {s : State} (h : s.ws.find i rec_ = some x) : recordDecrypt i rec_ s =
    if x.done ∨ !recWhole s x ∨ !(x.again ∨ rec_ = Sparse.get s.ws.next 0 i) then s
    else if recBad s (s.recHdr i rec_) then fetchOn (recReject x E.WSEG_FORMAT s)
    else if (s.ws.keys.head?.map (·.1)).any (fun e => decide (s.recHdr i rec_ 2 2 < e)) then recReject x E.KEY_EPOCH s
    else recSound i rec_ x s := by
  rw [recordDecrypt, h]
  refine if_congr Iff.rfl rfl (if_congr Iff.rfl rfl (if_congr Iff.rfl rfl ?_))
  unfold recSound
  cases hkey : Sparse.find s.ws.keys (s.recHdr i rec_ 2 2) with
  | none => rfl
  | some key =>
    refine if_congr Iff.rfl rfl (if_congr Iff.rfl rfl (if_congr Iff.rfl rfl ?_))
    unfold recOpen State.recOpened
    dsimp only
    generalize gcmOpen key _ _ _ _ = opened
    cases opened with
    | none => rfl
    | some pt => exact if_congr Iff.rfl rfl rfl

/-! ## Which stage a record reaches (R263, R268, R271, R273, R275) -/

/-- A record that has not been handled, is whole, and whose turn it is. -/
def State.recReady (s : State) (i rec_ : Nat) (x : WRec) : Prop :=
  x.done = false ∧ recWhole s x = true ∧ (x.again = true ∨ rec_ = Sparse.get s.ws.next 0 i)

/-- A record of an epoch before the oldest key. -/
def State.recOld (s : State) (i rec_ : Nat) : Prop := ∃ p l, s.ws.keys = p :: l ∧ s.recHdr i rec_ 2 2 < p.1

/-- A record of a weight version that has passed, and one of a version to come or of a buffer group that is not free. -/
def State.recStale (s : State) (i rec_ : Nat) : Prop := s.recHdr i rec_ 1 1 = 0 ∧ s.recHdr i rec_ 16 8 < s.wver
def State.recWaits (s : State) (i rec_ : Nat) : Prop :=
  s.recHdr i rec_ 1 1 = 0 ∧ (s.wver < s.recHdr i rec_ 16 8 ∨ s.ws.bufFree (s.recHdr i rec_ 28 2) = false)

/-- A record of an image before the manifest, and whether records are fetched again. -/
def State.recEarly (s : State) (i rec_ : Nat) : Prop := s.recHdr i rec_ 1 1 = 1 ∧ s.recHdr i rec_ 28 2 ≠ 0 ∧ s.ws.manifest = none
def State.fetchesAgain (s : State) : Prop := (∃ y ∈ s.ws.recs, y.again = true ∧ y.done = false) ∨ ∃ f ∈ s.ws.waiting, f.again = true

theorem State.not_recReady_iff (s : State) (i rec_ : Nat) (x : WRec) :
    (x.done = true ∨ (!recWhole s x) = true ∨ (!decide (x.again = true ∨ rec_ = Sparse.get s.ws.next 0 i)) = true) ↔ ¬ s.recReady i rec_ x := by
  simp only [State.recReady, not_and_or, Bool.not_eq_true', decide_eq_false_iff_not, Bool.not_eq_false, Bool.not_eq_true]

theorem State.recOld_iff (s : State) (i rec_ : Nat) :
    (s.ws.keys.head?.map (·.1)).any (fun e => decide (s.recHdr i rec_ 2 2 < e)) = true ↔ s.recOld i rec_ := by
  cases hkeys : s.ws.keys <;> simp [State.recOld, hkeys]

theorem State.fetchesAgain_iff (s : State) : (s.ws.recs.any (fun y => y.again && !y.done) = true ∨ s.ws.waiting.any (·.again) = true) ↔ s.fetchesAgain := by
  simp only [State.fetchesAgain, List.any_eq_true, Bool.and_eq_true, Bool.not_eq_true']

section
variable {i rec_ : Nat} {x : WRec} {s : State} (hx : s.ws.find i rec_ = some x)
include hx

theorem recordDecrypt_not_ready (h : ¬ s.recReady i rec_ x) : recordDecrypt i rec_ s = s :=
  (recordDecrypt_some hx).trans (if_pos ((s.not_recReady_iff i rec_ x).2 h))

variable (hready : s.recReady i rec_ x)
include hready

theorem recordDecrypt_bad (h : recBad s (s.recHdr i rec_) = true) : recordDecrypt i rec_ s = fetchOn (recReject x E.WSEG_FORMAT s) := by
  rw [recordDecrypt_some hx, if_neg fun hn => (s.not_recReady_iff i rec_ x).1 hn hready, if_pos h]

variable (hgood : recBad s (s.recHdr i rec_) = false)
include hgood

theorem recordDecrypt_old (h : s.recOld i rec_) : recordDecrypt i rec_ s = recReject x E.KEY_EPOCH s := by
  rw [recordDecrypt_some hx, if_neg fun hn => (s.not_recReady_iff i rec_ x).1 hn hready, if_neg (ne_true_of_eq_false hgood),
    if_pos ((s.recOld_iff i rec_).2 h)]

variable (hold : ¬ s.recOld i rec_)
include hold

theorem recordDecrypt_sound : recordDecrypt i rec_ s = recSound i rec_ x s := by
  rw [recordDecrypt_some hx, if_neg fun hn => (s.not_recReady_iff i rec_ x).1 hn hready, if_neg (ne_true_of_eq_false hgood),
    if_neg (mt (s.recOld_iff i rec_).1 hold)]

theorem recordDecrypt_no_key (h : Sparse.find s.ws.keys (s.recHdr i rec_ 2 2) = none) : recordDecrypt i rec_ s = s := by
  rw [recordDecrypt_sound hx hready hgood hold, recSound, h, Option.elim_none]

theorem recordDecrypt_keyed {key : List Byte} (h : Sparse.find s.ws.keys (s.recHdr i rec_ 2 2) = some key) :
    recordDecrypt i rec_ s = recKeyed i rec_ x key s := by
  rw [recordDecrypt_sound hx hready hgood hold, recSound, h, Option.elim_some]

end

section
variable {i rec_ : Nat} {x : WRec} {key : List Byte} {s : State}

theorem recKeyed_stale (h : s.recStale i rec_) : recKeyed i rec_ x key s = recReject x E.WSEG_VERSION s := if_pos h

theorem State.recWaits_iff (s : State) (i rec_ : Nat) :
    (s.recHdr i rec_ 1 1 = 0 ∧ (s.wver < s.recHdr i rec_ 16 8 ∨ (!s.ws.bufFree (s.recHdr i rec_ 28 2)) = true)) ↔ s.recWaits i rec_ := by
  rw [State.recWaits, Bool.not_eq_true']

theorem State.recEarly_iff (s : State) (i rec_ : Nat) :
    (s.recHdr i rec_ 1 1 = 1 ∧ s.recHdr i rec_ 28 2 ≠ 0 ∧ s.ws.manifest.isNone = true) ↔ s.recEarly i rec_ := by
  rw [State.recEarly, Option.isNone_iff_eq_none]

theorem recKeyed_waits (hstale : ¬ s.recStale i rec_) (h : s.recWaits i rec_) : recKeyed i rec_ x key s = s :=
  (if_neg hstale).trans (if_pos ((s.recWaits_iff i rec_).2 h))

theorem recKeyed_open (hstale : ¬ s.recStale i rec_) (hwaits : ¬ s.recWaits i rec_) (hearly : ¬ s.recEarly i rec_) :
    recKeyed i rec_ x key s = recOpen i rec_ x key s :=
  (if_neg hstale).trans ((if_neg (mt (s.recWaits_iff i rec_).1 hwaits)).trans (if_neg (mt (s.recEarly_iff i rec_).1 hearly)))

section
variable (hearly : s.recEarly i rec_)
include hearly

/-- An image record is neither of an old version nor waits for a new one. -/
theorem recKeyed_early : recKeyed i rec_ x key s =
    if s.ws.recs.any (fun y => y.again && !y.done) ∨ s.ws.waiting.any (·.again) then s else imageVerify true 0 s := by
  have hkind : s.recHdr i rec_ 1 1 ≠ 0 := by rw [hearly.1]; decide
  exact (if_neg fun hs => hkind hs.1).trans ((if_neg fun hw => hkind hw.1).trans (if_pos ((s.recEarly_iff i rec_).2 hearly)))

theorem recKeyed_early_again (h : s.fetchesAgain) : recKeyed i rec_ x key s = s :=
  (recKeyed_early hearly).trans (if_pos (s.fetchesAgain_iff.2 h))

theorem recKeyed_early_verify (h : ¬ s.fetchesAgain) : recKeyed i rec_ x key s = imageVerify true 0 s :=
  (recKeyed_early hearly).trans (if_neg (mt s.fetchesAgain_iff.1 h))

end

/-! ## What an opened record leaves (R269, R270, R277) -/

theorem recOpen_closed (h : s.recOpened i rec_ key = none) : recOpen i rec_ x key s = authFails x s := by rw [recOpen, h]

variable {pt : List Byte}

theorem recOpen_held (h : s.recOpened i rec_ key = some pt) (hheld : s.spreadFree (s.stackEp (s.slotAddr i rec_)) (s.destOf i rec_) = false) :
    recOpen i rec_ x key s = s.spreadAsk (s.destOf i rec_) := by
  rw [recOpen, h]
  exact if_pos (by rw [Bool.not_eq_true']; exact hheld)

theorem recOpen_written (h : s.recOpened i rec_ key = some pt) (hfree : s.spreadFree (s.stackEp (s.slotAddr i rec_)) (s.destOf i rec_) = true) :
    recOpen i rec_ x key s = recWrite i rec_ x pt s := by
  rw [recOpen, h]
  exact if_neg (by rw [Bool.not_eq_true', Bool.not_eq_false]; exact hfree)

/-- A record of a weight entry counts as written: every write of it was acknowledged, and it has the length of its place. -/
def State.recCounts (s : State) (i rec_ : Nat) (x : WRec) (pt : List Byte) : Prop :=
  (s.recStored i rec_ pt).2 = true ∧ ∃ y, (s.recHandled i rec_ x pt).ws.ent (s.recHdr i rec_ 28 2) = some y
    ∧ s.recHdr i rec_ 4 4 = Nat.min 1048576 (y.bytes - s.recHdr i rec_ 24 4 * 1048576)

theorem State.recCounts_iff : (((s.recStored i rec_ pt).2 && ((s.recHandled i rec_ x pt).ws.ent (s.recHdr i rec_ 28 2)).any
    (fun y => decide (s.recHdr i rec_ 4 4 = Nat.min segBytes (y.bytes - s.recHdr i rec_ 24 4 * segBytes))))
      && !(s.recSegs i rec_ x pt).contains (s.recHdr i rec_ 24 4)) = true ↔
    s.recCounts i rec_ x pt ∧ s.recHdr i rec_ 24 4 ∉ s.recSegs i rec_ x pt := by
  simp only [State.recCounts, Bool.and_eq_true, Option.any_eq_true, decide_eq_true_eq, segBytes, Bool.not_eq_true', ← Bool.not_eq_true,
    List.contains_iff_mem]

theorem recWrite_counted (hkind : s.recHdr i rec_ 1 1 = 0) (hc : s.recCounts i rec_ x pt) (hnew : s.recHdr i rec_ 24 4 ∉ s.recSegs i rec_ x pt) :
    recWrite i rec_ x pt s = (s.recHandled i rec_ x pt).setWs { (s.recHandled i rec_ x pt).ws with
      segs := Sparse.put (s.recHandled i rec_ x pt).ws.segs (s.recHdr i rec_ 28 2) (s.recHdr i rec_ 24 4 :: s.recSegs i rec_ x pt) } := by
  rw [recWrite]
  dsimp only
  rw [if_pos hkind, if_pos (State.recCounts_iff.2 ⟨hc, hnew⟩)]

theorem recWrite_uncounted (hkind : s.recHdr i rec_ 1 1 = 0)
    (h : ¬ (s.recCounts i rec_ x pt ∧ s.recHdr i rec_ 24 4 ∉ s.recSegs i rec_ x pt)) : recWrite i rec_ x pt s = s.recHandled i rec_ x pt := by
  rw [recWrite]
  dsimp only
  rw [if_pos hkind, if_neg (mt State.recCounts_iff.1 h)]
  generalize s.recHandled i rec_ x pt = t
  rfl

section
variable (hkind : s.recHdr i rec_ 1 1 ≠ 0)
include hkind

theorem recWrite_seen (h : s.recHdr i rec_ 24 4 ∈ s.recIsegs i rec_ x pt) :
    recWrite i rec_ x pt s = fetchOn (imageVerify false (s.recHdr i rec_ 28 2) (s.recHandled i rec_ x pt)) := by
  rw [recWrite]
  dsimp only
  rw [if_neg hkind, if_pos (List.contains_iff_mem.2 h)]

theorem recWrite_image (h : s.recHdr i rec_ 24 4 ∉ s.recIsegs i rec_ x pt) :
    recWrite i rec_ x pt s = fetchOn (imageVerify false (s.recHdr i rec_ 28 2) ((s.recHandled i rec_ x pt).setWs { (s.recHandled i rec_ x pt).ws with
      isegs := Sparse.put (s.recHandled i rec_ x pt).ws.isegs (s.recHdr i rec_ 28 2) (s.recHdr i rec_ 24 4 :: s.recIsegs i rec_ x pt)
      segs := Sparse.put (s.recHandled i rec_ x pt).ws.segs (2 ^ 20 + s.recHdr i rec_ 28 2)
        (s.recHdr i rec_ 4 4 :: Sparse.get (s.recHandled i rec_ x pt).ws.segs [] (2 ^ 20 + s.recHdr i rec_ 28 2))
      irecs := (s.recHdr i rec_ 28 2, rec_, s.recHdr i rec_ 24 4) :: (s.recHandled i rec_ x pt).ws.irecs })) := by
  rw [recWrite]
  dsimp only
  rw [if_neg hkind, if_neg (mt List.contains_iff_mem.1 h)]

end

end

theorem slice0_recordTurn : Slice0.RecordTurn := by
  unfold Slice0.RecordTurn
  intro stream rec_ s i h a plen kind epoch e idx run ends src open_ dest waits early again
  have hends : ∀ {t}, recordDecrypt i rec_ s = t → ends t :=
    fun ht => (exec_recordDecrypt stream rec_ s).trans (congrArg (fun u => Host.Outcome.next (fetchWake u)) ht)
  refine ⟨fun hx => hends (recordDecrypt_none hx), fun x hx => ?_⟩
  intro ready old stale
  refine ⟨fun hr => hends (recordDecrypt_not_ready hx hr), fun hr hb => hends (recordDecrypt_bad hx hr hb), fun hr hg =>
    ⟨fun ho => hends (recordDecrypt_old hx hr hg ho), fun ho => ⟨fun hk => hends (recordDecrypt_no_key hx hr hg ho hk), fun key hk => ?_⟩⟩,
    recWhole_iff s x⟩
  have hkeyed : ∀ {t}, recKeyed i rec_ x key s = t → ends t := fun ht => hends ((recordDecrypt_keyed hx hr hg ho hk).trans ht)
  refine ⟨fun hs => hkeyed (recKeyed_stale hs), fun hw hs => hkeyed (recKeyed_waits hs hw), fun he ha => hkeyed (recKeyed_early_again he ha),
    fun he ha => hkeyed (recKeyed_early_verify he ha), fun hs hw he hc => hkeyed ((recKeyed_open hs hw he).trans (recOpen_closed hc)),
    fun pt hs hw he (hpt : s.recOpened i rec_ key = some pt) => ?_⟩
  have hopen : ∀ {t}, recOpen i rec_ x key s = t → ends t := fun ht => hkeyed ((recKeyed_open hs hw he).trans ht)
  refine ⟨fun hf => hopen (recOpen_held hpt hf), fun (hf : s.spreadFree (s.stackEp (s.slotAddr i rec_)) (s.destOf i rec_) = true) => ?_⟩
  have hwrite : ∀ {t}, recWrite i rec_ x pt s = t → ends t := fun ht => hopen ((recOpen_written hpt hf).trans ht)
  exact ⟨fun h0 hc hn => hwrite (recWrite_counted h0 hc hn), fun h0 hc => hwrite (recWrite_uncounted h0 hc), fun h1 hn => hwrite (recWrite_seen h1 hn),
    fun h1 hn => hwrite (recWrite_image h1 hn)⟩

end Sys2Proof.Machine
end

section
/-! # Records that fail, and the repair of the tree (O50; spec/12 R261, R269, R275, R278, R279) -/

namespace Sys2Proof.Machine

theorem exec_wstreamTreeTimeout (s : State) : exec .wstreamTreeTimeout s = .next (treeTimeout s) := by rfl

/-! ## A record fails authentication (R269, R275) -/

/-- A state that has counted and reported a failure of a record. -/
def State.failNoted (x : WRec) (s : State) : State := rejectEvent x.stream x.no E.WSEG_AUTH (s.bump F.WSTREAM_AUTH_FAIL_CNT)

theorem recordFailed_again {x : WRec} (h : x.fails < 2) (e : Nat) (s : State) : recordFailed x e s =
    ((s.failNoted x).setWs ((s.failNoted x).ws.putRec { x with fails := x.fails + 1, got := 0 }), true) := if_pos (Nat.succ_lt_succ h)

theorem recordFailed_third {x : WRec} (h : 2 ≤ x.fails) (e : Nat) (s : State) : recordFailed x e s =
    (entryFails e (recDone { x with fails := x.fails + 1 } (s.failNoted x)), false) := if_neg (Nat.not_lt.2 (Nat.succ_le_succ h))

theorem recordFailed_again_iff (x : WRec) (e : Nat) (s : State) : (recordFailed x e s).2 = decide (x.fails < 2) := by
  by_cases h : x.fails < 2
  · rw [recordFailed_again h, decide_eq_true h]
  · rw [recordFailed_third (Nat.not_lt.1 h), decide_eq_false h]

/-- What the header of a record in its slot names. -/
def State.recNames (s : State) (x : WRec) : Nat × Nat × Nat :=
  (s.recHdr x.stream x.no 1 1, s.recHdr x.stream x.no 28 2, s.recHdr x.stream x.no 24 4)

/-- The destination of a record whose bytes are not its sender's is undefined. -/
def State.recUndone (s : State) (x : WRec) : State :=
  (recDest s (s.recHdr x.stream x.no 1 1) (s.recHdr x.stream x.no 28 2) (s.recHdr x.stream x.no 24 4) (s.recHdr x.stream x.no 4 4)).foldl
    (fun st r => st.undefAt r.1 r.2) s

section
variable {x : WRec} {s : State}

/-- An image record goes on to the next holder after its third failure, or at once in a repair or a route reuse. -/
theorem authFails_image (hkind : s.recHdr x.stream x.no 1 1 = 1) (h : 2 ≤ x.fails ∨ s.ws.source ≠ none) : authFails x s =
    fetchFails { stream := x.stream, no := x.no, want := some (s.recNames x), holder := some (s.ws.source.getD 0) }
      (((s.recUndone x).failNoted x).setWs (((s.recUndone x).failNoted x).ws.putRec { x with got := 0, fails := 0 })) :=
  if_pos ⟨hkind, h.imp_right Option.isSome_iff_ne_none.2⟩

variable (h : s.recHdr x.stream x.no 1 1 ≠ 1 ∨ ¬ (2 ≤ x.fails ∨ s.ws.source ≠ none))
include h

theorem authFails_eq : authFails x s =
    if (recordFailed x (s.recHdr x.stream x.no 28 2) (s.recUndone x)).2 then
      refetch { x with fails := x.fails + 1 } (some (s.recNames x)) (recordFailed x (s.recHdr x.stream x.no 28 2) (s.recUndone x)).1
    else (recordFailed x (s.recHdr x.stream x.no 28 2) (s.recUndone x)).1 :=
  if_neg fun ⟨hkind, hsource⟩ => h.elim (absurd hkind) (absurd (hsource.imp_right Option.isSome_iff_ne_none.1))

theorem authFails_again (hf : x.fails < 2) : authFails x s = refetch { x with fails := x.fails + 1 } (some (s.recNames x))
    (((s.recUndone x).failNoted x).setWs (((s.recUndone x).failNoted x).ws.putRec { x with fails := x.fails + 1, got := 0 })) := by
  rw [authFails_eq h, recordFailed_again hf]
  rfl

theorem authFails_third (hf : 2 ≤ x.fails) : authFails x s =
    entryFails (s.recHdr x.stream x.no 28 2) (recDone { x with fails := x.fails + 1 } ((s.recUndone x).failNoted x)) := by
  rw [authFails_eq h, recordFailed_third hf]
  rfl

end

/-! ## An entry fails (R269) -/

theorem entryFails_again {e : Nat} {s : State} (h : e ∈ s.ws.failed) : entryFails e s = s.raiseDev EV.WSEG_FAIL (leBytes 2 e) :=
  if_pos (List.contains_iff_mem.2 h)

theorem entryFails_first {e : Nat} {s : State} (h : e ∉ s.ws.failed) : entryFails e s =
    ((((s.setWs { s.ws with failed := s.ws.failed ++ [e] }).setFlag F.WSTREAM_ENTRY_STS_failed true).setFld F.WSTREAM_ENTRY_STS_first
      ((s.ws.failed ++ [e]).headD 0)).setFld F.WSTREAM_ENTRY_STS_count (s.ws.failed ++ [e]).length).raiseDev EV.WSEG_FAIL (leBytes 2 e) :=
  if_neg (mt List.contains_iff_mem.1 h)

theorem slice0_recordFailures : Slice0.RecordFailures := by
  unfold Slice0.RecordFailures
  refine ⟨fun x code s => rfl, fun x s => ?_, fun e s => ⟨entryFails_again, entryFails_first⟩⟩
  refine ⟨authFails_image, fun h hf => authFails_again (h.imp_right fun hs hno => ?_) hf, fun hkind hf => authFails_third (.inl hkind) hf⟩
  exact hno.elim (Nat.not_le.2 hf) (absurd hs)

/-! ## Holders (R278) -/

theorem State.nextHolder_spec {s : State} {h k : Nat} (hk : s.nextHolder h = some k) :
    h < k ∧ (s.holder k).1 = true ∧ (s.holder k).2.1 ∉ s.net.gone ∧ s.isSelf (s.holder k).2.1 = false := by
  have hfound := List.find?_some hk
  simp only [Bool.and_eq_true, decide_eq_true_eq, Bool.not_eq_true', ← Bool.not_eq_true (List.contains _ _), List.contains_iff_mem, and_assoc] at hfound
  exact hfound

/-! ## A start whose images stay away (R278, R279) -/

/-- A start whose images have stopped coming, and that pulls them from its ancestors. -/
def State.treeRepairs (s : State) : Prop :=
  s.flag F.WSTREAM_JOB_STS_starting = true ∧ s.ws.imagesDone = false ∧ s.flag F.WSTREAM_JOB_CTL_route_reuse = false

/-- The holder that a start leaves is reported. -/
def State.treeLeft (s : State) : State := s.raiseDev EV.TREE_REPAIR (leBytes 3 (s.holder (s.ws.source.getD 0)).2.1)

section
variable {s : State}

theorem State.treeRepairs_iff (s : State) : (s.flag F.WSTREAM_JOB_STS_starting = true ∧ (!s.ws.imagesDone) = true
    ∧ (!s.flag F.WSTREAM_JOB_CTL_route_reuse) = true) ↔ s.treeRepairs := by simp only [State.treeRepairs, Bool.not_eq_true']

theorem treeTimeout_idle (h : ¬ s.treeRepairs) : treeTimeout s = s := if_neg (mt s.treeRepairs_iff.1 h)

variable (h : s.treeRepairs)
include h

theorem treeTimeout_no_source (hn : s.nextHolder (s.ws.source.getD 0) = none) : treeTimeout s = startFails E.TREE_NO_SOURCE s.treeLeft := by
  rw [treeTimeout, if_pos (s.treeRepairs_iff.2 h)]
  dsimp only
  rw [hn]
  rfl

theorem treeTimeout_next {k : Nat} (hn : s.nextHolder (s.ws.source.getD 0) = some k) :
    treeTimeout s = fetchOn (s.treeLeft.setWs { s.treeLeft.ws with source := some k }) := by
  rw [treeTimeout, if_pos (s.treeRepairs_iff.2 h)]
  dsimp only
  rw [hn]
  rfl

end

/-! ## A fetch that its holder does not answer (R269, R278) -/

theorem Fetch.ofImage_iff (f : Fetch) (s : State) : f.ofImage s = true ↔
    match f.want with | some w => w.1 = 1 | none => f.holder ≠ none ∨ s.imageStream = some f.stream := by
  unfold Fetch.ofImage
  cases f.want with
  | some w => exact decide_eq_true_iff
  | none => simp [Option.isSome_iff_ne_none]

/-- The record of a fetch, and its failure. -/
def Fetch.record (f : Fetch) (s : State) : WRec := (s.ws.find f.stream f.no).getD { stream := f.stream, no := f.no }
def Fetch.failed (f : Fetch) (s : State) : State × Bool :=
  recordFailed (f.record s) ((f.want.map (·.2.1)).getD 0) (s.setWs { s.ws with fetch := none })

section
variable {f : Fetch} {s : State}

theorem fetchFails_image_next (h : f.ofImage s = true) {k : Nat} (hn : s.nextHolder (f.holder.getD 0) = some k) : fetchFails f s =
    fetchSend 6 { f with holder := some k, off := 0, len := 2048 } ((f.leave s).setWs { (f.leave s).ws with source := some k, fetch := none }) := by
  rw [fetchFails, hn]
  exact if_pos h

theorem fetchFails_image_none (h : f.ofImage s = true) (hn : s.nextHolder (f.holder.getD 0) = none) :
    fetchFails f s = startFails E.TREE_NO_SOURCE (fetchNext (f.leave s)) := by
  rw [fetchFails, hn]
  exact if_pos h

variable (h : ¬ f.ofImage s = true)
include h

theorem fetchFails_weight : fetchFails f s =
    if (f.failed s).2 then fetchSend 6 { f with off := 0, len := 2048 } (f.failed s).1 else fetchNext (f.failed s).1 := if_neg h

theorem fetchFails_weight_again (hq : (f.failed s).2 = true) : fetchFails f s = fetchSend 6 { f with off := 0, len := 2048 } (f.failed s).1 :=
  (fetchFails_weight h).trans (if_pos hq)

theorem fetchFails_weight_third (hq : (f.failed s).2 = false) : fetchFails f s = fetchNext (f.failed s).1 :=
  (fetchFails_weight h).trans (if_neg (ne_true_of_eq_false hq))

end

theorem slice0_treeRepair : Slice0.TreeRepair := by
  unfold Slice0.TreeRepair
  intro s repairs from_ s1
  rw [exec_wstreamTreeTimeout]
  have hws : s.treeLeft.ws = s.ws := State.raiseDev_ws _ _ _
  refine ⟨fun h => congrArg _ (treeTimeout_idle h), fun h hn => congrArg _ ?_, fun k h hn => congrArg _ ?_, fun h k => State.nextHolder_spec, fun f => ?_⟩
  · rw [treeTimeout_no_source h hn, startFails, hws]
    rfl
  · rw [treeTimeout_next h hn, hws]
    rfl
  · intro image u x q
    have himage : f.ofImage s = true ↔ image := f.ofImage_iff s
    have hleave : (f.leave s).ws = s.ws := State.raiseDev_ws _ _ _
    refine ⟨fun h k hn => ?_, fun h hn => fetchFails_image_none (himage.2 h) hn, fun h => fetchFails_weight_again (mt himage.1 h),
      fun h => fetchFails_weight_third (mt himage.1 h), recordFailed_again_iff _ _ _⟩
    rw [fetchFails_image_next (himage.2 h) hn, hleave]
    rfl

end Sys2Proof.Machine
end

section
/-! # Weight entries, buffer groups and write-backs (O50; spec/12 R264, R270, R272, R273; spec/02 R34; spec/15 R352) -/

namespace Sys2Proof.Machine

theorem exec_entryComplete (entry : BitVec 16) (s : State) : exec (.entryComplete entry) s = .next (entryComplete entry.toNat s) := by rfl
theorem exec_wstreamBufRelWrite (core : BitVec 10) (v : W64) (s : State) :
    exec (.wstreamBufRelWrite core v) s = .next (bufRelease core.toNat (fieldOf v 0 16) s) := by rfl
theorem exec_wstreamWbqWrite (core : BitVec 10) (v : W64) (s : State) : exec (.wstreamWbqWrite core v) s = .next (wbqWrite core.toNat v s) := by rfl
theorem exec_writebackDone (s : State) : exec .writebackDone s = .next (writebackDone s) := by rfl

/-! ## An entry is complete (R270) -/

theorem entryComplete_none {e : Nat} {s : State} (h : s.ws.ent e = none) : entryComplete e s = s := by rw [entryComplete, h]

section
variable {e : Nat} {x : PlanEnt} {s : State} (hx : s.ws.ent e = some x)
include hx

theorem entryComplete_open (h : (Sparse.get s.ws.segs [] e).length < ceilDiv x.bytes segBytes ∨ e ∈ s.ws.failed) : entryComplete e s = s := by
  rw [entryComplete, hx]
  exact if_pos (h.imp_right List.contains_iff_mem.2)

theorem entryComplete_whole (hall : ceilDiv x.bytes segBytes ≤ (Sparse.get s.ws.segs [] e).length) (hf : e ∉ s.ws.failed) : entryComplete e s =
    (List.range x.ncores).foldl (fun st k => (st.kick (x.first + k)).giveEvent (x.first + k) x.evflag)
      ((s.setWs { s.ws with segs := Sparse.drop s.ws.segs e }).bump F.WSTREAM_ENTRY_DONE_CNT) := by
  rw [entryComplete, hx]
  exact if_neg fun h => h.elim (Nat.not_lt.2 hall) fun hmem => hf (List.contains_iff_mem.1 hmem)

end

/-! ## Releases (R273) -/

/-- The entries of a buffer group, and those released in this pass. -/
def Wstream.group (w : Wstream) (g : Nat) : List PlanEnt := w.ents.filter (fun y => decide (y.buf = g))
def Wstream.gone (w : Wstream) (g : Nat) : List Nat := Sparse.get w.released [] g

/-- A release is right: of the oldest entry of a group, by a core of its region. -/
def Wstream.releaseRight (w : Wstream) (n e : Nat) (x : PlanEnt) : Prop :=
  x.buf ≠ 0 ∧ ((w.group x.buf).find? (fun y => !(w.gone x.buf).contains y.num)).map (·.num) = some e ∧ x.first ≤ n ∧ n < x.first + x.ncores

/-- The cores that have released an entry once another has. -/
def Wstream.releasedBy (w : Wstream) (n g : Nat) : List Nat :=
  if (Sparse.get w.relBy [] g).contains n then Sparse.get w.relBy [] g else n :: Sparse.get w.relBy [] g

theorem Wstream.not_releaseRight_iff (w : Wstream) (n e : Nat) (x : PlanEnt) :
    (x.buf = 0 ∨ ((w.group x.buf).find? (fun y => !(w.gone x.buf).contains y.num)).map (·.num) ≠ some e ∨ n < x.first ∨ x.first + x.ncores ≤ n) ↔
      ¬ w.releaseRight n e x := by
  simp only [Wstream.releaseRight, not_and_or, ne_eq, not_not, Nat.not_le, Nat.not_lt]

theorem bufRelease_none {n e : Nat} {s : State} (h : s.ws.ent e = none) : bufRelease n e s = s.bump F.WSTREAM_REL_ERR_CNT := by rw [bufRelease, h]

section
variable {n e : Nat} {x : PlanEnt} {s : State} (hx : s.ws.ent e = some x)
include hx

theorem bufRelease_wrong (h : ¬ s.ws.releaseRight n e x) : bufRelease n e s = s.bump F.WSTREAM_REL_ERR_CNT := by
  rw [bufRelease, hx]
  exact if_pos ((s.ws.not_releaseRight_iff n e x).2 h)

variable (hright : s.ws.releaseRight n e x)
include hright

theorem bufRelease_right : bufRelease n e s =
    if (s.ws.releasedBy n x.buf).length < x.ncores then s.setWs { s.ws with relBy := Sparse.put s.ws.relBy x.buf (s.ws.releasedBy n x.buf) }
    else s.setWs { s.ws with
      relBy := Sparse.drop s.ws.relBy x.buf
      released := if (s.ws.group x.buf).all (fun y => (e :: s.ws.gone x.buf).contains y.num) then Sparse.drop s.ws.released x.buf
        else Sparse.put s.ws.released x.buf (e :: s.ws.gone x.buf) } := by
  rw [bufRelease, hx]
  exact if_neg fun h => (s.ws.not_releaseRight_iff n e x).1 h hright

theorem bufRelease_more (h : (s.ws.releasedBy n x.buf).length < x.ncores) :
    bufRelease n e s = s.setWs { s.ws with relBy := Sparse.put s.ws.relBy x.buf (s.ws.releasedBy n x.buf) } :=
  (bufRelease_right hx hright).trans (if_pos h)

theorem bufRelease_last (h : x.ncores ≤ (s.ws.releasedBy n x.buf).length) : bufRelease n e s = s.setWs { s.ws with
    relBy := Sparse.drop s.ws.relBy x.buf
    released := if ∀ y ∈ s.ws.group x.buf, y.num = e ∨ y.num ∈ s.ws.gone x.buf then Sparse.drop s.ws.released x.buf
      else Sparse.put s.ws.released x.buf (e :: s.ws.gone x.buf) } := by
  rw [bufRelease_right hx hright, if_neg (Nat.not_lt.2 h)]
  simp only [List.all_eq_true, List.contains_iff_mem, List.mem_cons]

end

theorem slice0_entriesAndGroups : Slice0.EntriesAndGroups := by
  unfold Slice0.EntriesAndGroups
  refine ⟨fun entry s => ?_, fun core v s => ?_, fun n f s => rfl⟩
  · intro e got
    rw [exec_entryComplete]
    exact ⟨fun h => congrArg _ (entryComplete_none h), fun x hx =>
      ⟨fun h => congrArg _ (entryComplete_open hx h), fun hall hf => congrArg _ (entryComplete_whole hx hall hf)⟩⟩
  · intro e n error
    rw [exec_wstreamBufRelWrite]
    refine ⟨fun h => congrArg _ (bufRelease_none h), fun x hx => ?_⟩
    intro done mine oldest right by_ all
    have hall : all = s.ws.releasedBy n x.buf := if_congr List.contains_iff_mem.symm rfl rfl
    exact ⟨fun h => congrArg _ (bufRelease_wrong hx h), fun hr hl => congrArg _ (by rw [hall] at hl ⊢; exact bufRelease_more hx hr hl),
      fun hr hl => congrArg _ (by rw [hall] at hl; exact bufRelease_last hx hr hl)⟩

/-! ## The queue of write-backs (R264, R272) -/

/-- The records of a write-back that have all left. -/
def WbReq.sentOut (r : WbReq) : Prop := r.left ≠ none ∧ ceilDiv r.bytes segBytes ≤ r.next

/-- A write-back of another version than the step's, of which nothing has left. -/
def State.wbOld (s : State) (r : WbReq) : Prop := r.left = none ∧ r.wver ≠ s.fld F.CKPT_STEP_step

theorem WbReq.sentOut_iff (r : WbReq) : (r.left.isSome = true ∧ ceilDiv r.bytes segBytes ≤ r.next) ↔ r.sentOut :=
  and_congr_left' Option.isSome_iff_ne_none

theorem State.wbOld_iff (s : State) (r : WbReq) : (r.left.isNone = true ∧ r.wver ≠ s.fld F.CKPT_STEP_step) ↔ s.wbOld r :=
  and_congr_left' Option.isNone_iff_eq_none

/-- How many records of a write-back the vectors left suffice for. -/
def State.wbMany (s : State) (r : WbReq) : Nat := Nat.min (ceilDiv r.bytes segBytes - r.next) s.ws.ivLeft

/-- The records of a write-back that leave now, what is left when they are sent, and the queue after it. -/
def State.wbRecords (s : State) (r : WbReq) (epoch : Nat) (key : List Byte) : List Byte :=
  (List.range (s.wbMany r)).flatMap (fun k => wbRecord s r (r.next + k) epoch (s.fld F.WSTREAM_IV_CTR + k) key)
def State.wbSent (s : State) (r : WbReq) (epoch : Nat) (key : List Byte) : State × Nat × Bool :=
  (cutWrites ((s.wbRecords r epoch key).length / 2048 + 2) (r.dest + r.next * (80 + segBytes)) (s.wbRecords r epoch key)).foldl (fun q p => wbSend r p q)
    ((s.setFld F.WSTREAM_IV_CTR (s.fld F.WSTREAM_IV_CTR + s.wbMany r)).setWs { s.ws with ivLeft := s.ws.ivLeft - s.wbMany r }, 0, false)
def State.wbQueued (s : State) (r : WbReq) (rest : List WbReq) (q : State × Nat × Bool) : State :=
  q.1.setWs { q.1.ws with
    wbq := { r with next := r.next + s.wbMany r, left := some (r.left.getD 0 + q.2.1), bad := r.bad || q.2.2 } :: rest }

theorem wbGo_empty {s : State} (h : s.ws.wbq = []) (fuel : Nat) : wbGo (fuel + 1) s = s := by rw [wbGo, h]

section
variable {fuel : Nat} {r : WbReq} {rest : List WbReq} {s : State} (hq : s.ws.wbq = r :: rest)
include hq

theorem wbGo_sent (h : r.sentOut) : wbGo (fuel + 1) s = s := by
  rw [wbGo, hq]
  exact if_pos (r.sentOut_iff.2 h)

variable (hsent : ¬ r.sentOut)
include hsent

theorem wbGo_old (h : s.wbOld r) : wbGo (fuel + 1) s = wbGo fuel (s.setWs { s.ws with wbq := rest, wbCode := E.WSEG_VERSION }) := by
  rw [wbGo, hq]
  exact (if_neg (mt r.sentOut_iff.1 hsent)).trans (if_pos ((s.wbOld_iff r).2 h))

variable (hold : ¬ s.wbOld r)
include hold

theorem wbGo_no_key (h : s.ws.keys = []) : wbGo (fuel + 1) s = s := by
  rw [wbGo, hq]
  refine (if_neg (mt r.sentOut_iff.1 hsent)).trans ((if_neg (mt (s.wbOld_iff r).1 hold)).trans ?_)
  rw [h]
  rfl

variable {epoch : Nat} {key : List Byte} (hkey : s.ws.keys.getLast? = some (epoch, key))
include hkey

theorem wbGo_keyed : wbGo (fuel + 1) s =
    if s.wbMany r = 0 ∧ r.next < ceilDiv r.bytes segBytes then s
    else if 0 < s.wbMany r ∧ s.wbMany r = s.ws.ivLeft then (s.wbQueued r rest (s.wbSent r epoch key)).setFld F.WSTREAM_KEY_STS_code E.IV_SPENT
    else s.wbQueued r rest (s.wbSent r epoch key) := by
  rw [wbGo, hq]
  refine (if_neg (mt r.sentOut_iff.1 hsent)).trans ((if_neg (mt (s.wbOld_iff r).1 hold)).trans ?_)
  rw [hkey]
  exact if_congr Iff.rfl rfl rfl

theorem wbGo_spent (h : s.wbMany r = 0) (hn : r.next < ceilDiv r.bytes segBytes) : wbGo (fuel + 1) s = s :=
  (wbGo_keyed hq hsent hold hkey).trans (if_pos ⟨h, hn⟩)

theorem wbGo_sends (h : s.wbMany r ≠ 0 ∨ ceilDiv r.bytes segBytes ≤ r.next) : wbGo (fuel + 1) s =
    if 0 < s.wbMany r ∧ s.wbMany r = s.ws.ivLeft then (s.wbQueued r rest (s.wbSent r epoch key)).setFld F.WSTREAM_KEY_STS_code E.IV_SPENT
    else s.wbQueued r rest (s.wbSent r epoch key) :=
  (wbGo_keyed hq hsent hold hkey).trans (if_neg fun hn => h.elim (absurd hn.1) (Nat.not_le.2 hn.2))

end

/-! ## One write of a write-back (R272; spec/02 R34) -/

/-- The request of a write that leaves. -/
def wbPut (addr : Nat) (data : List Byte) : NetReq :=
  { src := .engine epWstream 1, ep := epWstream, vc := 0, node := addr / 2 ^ 42, op := opPut, addr := addr % 2 ^ 42, len := data.length, data := data }

/-- The way out of a write that leaves: by its link, or by its queue pair. -/
def wbOut (r : WbReq) (addr : Nat) (data : List Byte) (s : State) : State × Option Nat :=
  if r.roce then (if s.qpState r.qp = 3 then ((s.sendRoce { wbPut addr data with addr := addr } r.qp 0).1, none) else (s, some E.NODE_UNREACH))
  else s.sendEng (wbPut addr data)

/-- A write whose OFP global address names this engine. -/
def State.wbHere (s : State) (r : WbReq) (addr : Nat) : Prop := r.roce = false ∧ s.isSelf (addr / 2 ^ 42) = true

section
variable {r : WbReq} {addr k : Nat} {data : List Byte} {bad : Bool} {s : State}

theorem State.wbHere_iff : (!r.roce && s.isSelf (addr / 2 ^ 42)) = true ↔ s.wbHere r addr := by
  rw [Bool.and_eq_true, Bool.not_eq_true', State.wbHere]

theorem wbSend_here (h : s.wbHere r addr) (ha : s.endpointOf (addr % 2 ^ 42) ≠ none) : wbSend r (addr, data) (s, k, bad) =
    ((s.swr (s.stackEp r.src) (addr % 2 ^ 42) data).1, k, bad || !(s.swr (s.stackEp r.src) (addr % 2 ^ 42) data).2) :=
  (if_pos (State.wbHere_iff.2 h)).trans (if_pos (Option.isSome_iff_ne_none.2 ha))

theorem wbSend_here_unmapped (h : s.wbHere r addr) (ha : s.endpointOf (addr % 2 ^ 42) = none) :
    wbSend r (addr, data) (s, k, bad) = (s, k, true) :=
  (if_pos (State.wbHere_iff.2 h)).trans (if_neg fun hs => Option.isSome_iff_ne_none.1 hs ha)

section
variable (h : ¬ s.wbHere r addr) {t : State}
include h

theorem wbSend_left (ht : wbOut r addr data s = (t, none)) : wbSend r (addr, data) (s, k, bad) = (t, k + 1, bad) := by
  refine (if_neg (mt State.wbHere_iff.1 h)).trans ?_
  dsimp only [wbOut, wbPut] at ht ⊢
  rw [ht]

theorem wbSend_refused {code : Nat} (ht : wbOut r addr data s = (t, some code)) : wbSend r (addr, data) (s, k, bad) = (t, k, true) := by
  refine (if_neg (mt State.wbHere_iff.1 h)).trans ?_
  dsimp only [wbOut, wbPut] at ht ⊢
  rw [ht]

end

theorem wbOut_link (h : r.roce = false) : wbOut r addr data s = s.sendEng (wbPut addr data) := if_neg (ne_true_of_eq_false h)

theorem wbOut_pair (h : r.roce = true) (hq : s.qpState r.qp = 3) :
    wbOut r addr data s = ((s.sendRoce { wbPut addr data with addr := addr } r.qp 0).1, none) := (if_pos h).trans (if_pos hq)

theorem wbOut_pair_down (h : r.roce = true) (hq : s.qpState r.qp ≠ 3) : wbOut r addr data s = (s, some E.NODE_UNREACH) :=
  (if_pos h).trans (if_neg hq)

/-- A write by a queue pair names no address of this engine. -/
theorem State.not_wbHere_of_roce (h : r.roce = true) : ¬ s.wbHere r addr := fun hh => Bool.false_ne_true (hh.1.symm.trans h)

end

/-! ## The end of a write-back (R272) -/

/-- Every write of a write-back is acknowledged. -/
def WbReq.acked (r : WbReq) : Prop := r.left = some 0 ∧ ceilDiv r.bytes segBytes ≤ r.next

theorem writebackDone_empty {s : State} (h : s.ws.wbq = []) : writebackDone s = s := by rw [writebackDone, h]

section
variable {r : WbReq} {rest : List WbReq} {s : State} (hq : s.ws.wbq = r :: rest)
include hq

theorem writebackDone_waits (h : ¬ r.acked) : writebackDone s = s := by
  rw [writebackDone, hq]
  exact if_neg h

variable (hacked : r.acked)
include hacked

/-- A write-back of which a write failed, or whose entry or core is not there, sets no flag. -/
theorem writebackDone_silent (h : r.bad = true ∨ s.ws.ent r.entry = none ∨ s.ncores ≤ r.core) :
    writebackDone s = (s.setWs { s.ws with wbq := rest }).wbRun := by
  rw [writebackDone, hq]
  refine (if_pos hacked).trans (congrArg State.wbRun ?_)
  cases hbad : r.bad with
  | true => rfl
  | false =>
    cases hent : s.ws.ent r.entry with
    | none => rfl
    | some x =>
      rw [hbad, hent] at h
      exact if_neg (Nat.not_lt.2 ((h.resolve_left Bool.false_ne_true).resolve_left (Option.some_ne_none x)))

theorem writebackDone_event {x : PlanEnt} (hbad : r.bad = false) (hx : s.ws.ent r.entry = some x) (hcore : r.core < s.ncores) :
    writebackDone s = (((s.setWs { s.ws with wbq := rest }).kick r.core).giveEvent r.core x.evflag).wbRun := by
  rw [writebackDone, hq]
  refine (if_pos hacked).trans (congrArg State.wbRun ?_)
  rw [hbad, hx]
  exact if_pos hcore

end

/-- A write of WSTREAM_WBQ has the queue taken up. -/
theorem wbqWrite_eq (core : Nat) (v : W64) (s : State) : wbqWrite core v s =
    let s1 := s.setReg F.WSTREAM_WBQ_dest.addr v
    let r : WbReq :=
      { core := core, src := s1.fld F.WSTREAM_WBQ_src, roce := s1.flag F.WSTREAM_WBQ_roce, qp := s1.fld F.WSTREAM_WBQ_qp,
        entry := s1.fld F.WSTREAM_WBQ_entry, bytes := s1.fld F.WSTREAM_WBQ_bytes, wver := s1.fld F.WSTREAM_WBQ_wver, dest := v.toNat }
    wbGo (s.ws.wbq.length + 2) (s1.setWs { s.ws with wbq := s.ws.wbq ++ [r] }) := by
  unfold wbqWrite State.wbRun
  simp only [State.setReg_ws, State.setWs, List.length_append, List.length_singleton, Nat.add_assoc]

theorem slice0_writeBacks : Slice0.WriteBacks := by
  unfold Slice0.WriteBacks
  refine ⟨fun core v s => ?_, fun fuel s => ⟨fun h => wbGo_empty h fuel, fun r rest hq => ?_⟩, fun r addr k data bad s => ?_, fun s => ?_⟩
  · exact (exec_wstreamWbqWrite core v s).trans (congrArg _ (wbqWrite_eq core.toNat v s))
  · intro n m sent old
    exact ⟨wbGo_sent hq, wbGo_old hq, wbGo_no_key hq, fun hs ho hk hm hn => wbGo_spent hq hs ho (List.getLast?_eq_some_getLast hk) hm hn,
      fun epoch key hs ho hk hm => wbGo_sends hq hs ho hk hm⟩
  · intro a req here
    exact ⟨wbSend_here, wbSend_here_unmapped, fun h hr => ⟨fun t ht => wbSend_left h ((wbOut_link hr).trans ht),
      fun t c ht => wbSend_refused h ((wbOut_link hr).trans ht)⟩, fun hr hs => wbSend_left (State.not_wbHere_of_roce hr) (wbOut_pair hr hs),
      fun hr hs => wbSend_refused (State.not_wbHere_of_roce hr) (wbOut_pair_down hr hs)⟩
  · rw [exec_writebackDone]
    exact ⟨fun h => congrArg _ (writebackDone_empty h), fun r rest hq => ⟨fun h => congrArg _ (writebackDone_waits hq h),
      fun hd h => congrArg _ (writebackDone_silent hq hd h), fun x hd hb hx hc => congrArg _ (writebackDone_event hq hd hb hx hc)⟩⟩

/-- Settles O50, from the checks of a plan, the install of keys, the arrival of records and the stages of their turn, what their failures lead to, releases and
write-backs. -/
theorem weightIntake : Obligations.WeightIntake :=
  ⟨slice0_planLoad, slice0_keyInstalls, slice0_segmentsArrive, slice0_recordTurn, slice0_recordFailures, slice0_entriesAndGroups, slice0_writeBacks,
    slice0_treeRepair⟩

end Sys2Proof.Machine
end

section
/-! # Decisions of a step and its rollback (O30; spec/13 R299, R300; spec/14 R310-R314; spec/15 R352; spec/19 R441) -/

namespace Sys2Proof.Machine

/-! ## What started commands leave undefined is memory and accumulators (R313) -/

theorem copyAhead_cores (q : Nat) (s : State) : (copyAhead q s).cores = s.cores :=
  copyAhead_induction (P := fun t => t.cores = s.cores) rfl fun _ _ => State.bump_cores _ _

theorem State.undefAt_cores (s : State) (a n : Nat) : (s.undefAt a n).cores = s.cores := foldl_keeps State.cores (fun u q => copyAhead_cores q u) _ s

theorem undefVirt_cores (n fuel va len : Nat) (s : State) : (undefVirt n fuel va len s).cores = s.cores := by
  induction fuel generalizing va len s with
  | zero => rfl
  | succ fuel ih =>
    rw [undefVirt]
    split
    · rfl
    · rw [ih]
      split
      · split
        · exact State.undefAt_cores ..
        · rfl
      · rfl

theorem undefCmd_cores (n arr : Nat) (x : UCmd) (s : State) : (undefCmd n arr x s).cores = s.cores := by
  unfold undefCmd
  rw [undefDests_cores]
  split
  · exact foldl_keeps (f := fun (t : State) p => t.accUndef n arr p) State.cores (fun _ _ => rfl) _ s
  · rfl

theorem undefList_cores (n : Nat) (l : XList) (s : State) : (undefList n l s).cores = s.cores := by
  unfold undefList
  split
  · rfl
  · refine foldl_keeps State.cores (fun t i => ?_) _ s
    split
    · rfl
    · refine foldl_keeps State.cores (fun u r => ?_) _ t
      dsimp only
      split
      · split <;> rfl
      · exact undefVirt_cores ..

theorem undefStarted_cores (n : Nat) (s : State) : (undefStarted n s).cores = s.cores := by
  unfold undefStarted
  extract_lets c one s1 s2 s3
  have h1 : s1.cores = s.cores := foldl_keeps State.cores (fun t p => by
    unfold one
    split
    · split
      · rfl
      · exact undefCmd_cores ..
    · rfl) _ s
  have h2 : s2.cores = s1.cores := foldl_keeps State.cores (fun t ch => foldl_keeps State.cores (fun u g => undefGate_cores u n g) _ t) _ s1
  have h3 : s3.cores = s2.cores := foldl_keeps State.cores (fun t p => by
    split
    · exact undefList_cores ..
    · rfl) _ s2
  refine (foldl_keeps State.cores (fun t p => ?_) _ s3).trans (h3.trans (h2.trans h1))
  split
  · rfl
  · rfl
  · exact undefVirt_cores ..
  · exact undefVirt_cores ..

/-! ## Every core stops (R313) -/

/-- Nothing of a core runs: its contexts are FREE, its stream engine and its units empty, and it has no remote instruction and no Slalom command. -/
structure Core.Stopped (c : Core) : Prop where
  free : ∀ k, (c.ctx k).st = .free
  sq : c.sq = []
  chains : c.chains = []
  slots : c.slots = []
  engines : ∀ u, (c.eng u).run = none ∧ (c.eng u).queue = []

theorem Core.stopped_default : ({} : Core).Stopped := ⟨fun _ => rfl, rfl, rfl, rfl, fun u => by cases u <;> exact ⟨rfl, rfl⟩⟩

/-- A context of a core that has stopped. -/
def Ctx.halted (x : Ctx) : Ctx := { x with st := .free, wait := .none, q := [], loads := [], rfail := false }

theorem Core.halted_ctxs (c : Core) : c.halted.ctxs = c.ctxs.map (fun p => (p.1, p.2.halted)) := rfl

theorem Core.halted_stopped (c : Core) : c.halted.Stopped := by
  refine ⟨fun k => ?_, rfl, rfl, rfl, fun u => by cases u <;> exact ⟨rfl, rfl⟩⟩
  rw [Core.ctx, Sparse.get, Core.halted_ctxs, Sparse.find_map]
  cases Sparse.find c.ctxs k <;> rfl

/-- A core that the state does not list is as at reset. -/
theorem State.core_unlisted {s : State} {n : Nat} (h : n ∉ s.cores.map (·.1)) : s.core n = {} := by
  unfold State.core Sparse.get
  cases hf : Sparse.find s.cores n with
  | none => rfl
  | some c => exact absurd (List.mem_map.2 ⟨_, Sparse.mem_of_find hf, rfl⟩) h

theorem coreStop_core (n m : Nat) (s : State) : (coreStop n s).core m = if m = n then (s.core n).halted else s.core m := by
  have hcore : ∀ k, (undefStarted n s).core k = s.core k := fun k => by rw [State.core, undefStarted_cores, State.core]
  unfold coreStop
  dsimp only
  rw [State.core_setCore]
  exact if_congr Iff.rfl (congrArg Core.halted (hcore n)) (hcore m)

/-- Once the listed cores have stopped, a core is stopped that is listed or was stopped before. -/
theorem foldl_coreStop_stopped (l : List (Nat × Core)) (n : Nat) (s : State) (h : n ∈ l.map (·.1) ∨ (s.core n).Stopped) :
    ((l.foldl (fun st p => coreStop p.1 st) s).core n).Stopped := by
  induction l generalizing s with
  | nil => exact h.resolve_left (List.not_mem_nil)
  | cons p l ih =>
    refine ih (coreStop p.1 s) ?_
    rw [coreStop_core]
    by_cases hn : n = p.1
    · exact .inr (by rw [if_pos hn]; exact Core.halted_stopped _)
    · rw [if_neg hn]
      exact h.imp_left fun hm => (List.mem_cons.1 hm).resolve_left hn

theorem stopCores_stopped (s : State) (n : Nat) : ((stopCores s).core n).Stopped := by
  refine foldl_coreStop_stopped s.cores n s ?_
  by_cases hn : n ∈ s.cores.map (·.1)
  · exact .inl hn
  · exact .inr (by rw [State.core_unlisted hn]; exact Core.stopped_default)

theorem slice0_coresStopped : Slice0.CoresStopped := by
  unfold Slice0.CoresStopped
  refine fun s => ⟨rfl, fun n => ?_⟩
  obtain ⟨hfree, hsq, hchains, hslots, heng⟩ := stopCores_stopped s n
  exact ⟨hfree, hsq, hchains, hslots, heng⟩

/-! ## The words of a step's boundary, and what leaves them as they are -/

/-- The words of CKPT that say which step is in flight, its phase and the last outcome. -/
def boundaryWords : List Nat := [F.CKPT_STEP_step.addr, F.CKPT_STS_phase.addr, F.CKPT_VOTE_STS_outcome.addr, F.CKPT_VOTE_STS_step.addr]

theorem boundaryWords_quiet : ∀ a ∈ boundaryWords, quietWord a := by
  unfold quietWord
  decide

/-- None of them is a counter of the event ring. -/
theorem boundaryWords_counts : ∀ a ∈ boundaryWords, a ∉ evtWords := by decide

theorem boundaryWords_step : ∀ a ∈ boundaryWords, a ∉ stepWords := by decide

/-- No count of context switches and no Kick reaches a word of the boundary. -/
theorem boundaryWords_apart {a : Nat} (h : a ∈ boundaryWords) (n : Nat) {p : Nat} (hp : p < 1024) :
    (a ≠ (F.CORE_CTX_SWITCH_CNT n).addr ∧ a ≠ (F.CORE_CTX_SWITCH_CNT n).addr + 8)
    ∧ a ≠ (F.PWR_SITE_STS_state p).addr ∧ a ≠ (F.CLK_KICK_CNT p).addr ∧ a ≠ (F.CLK_KICK_CNT p).addr + 8 := by
  simp only [boundaryWords, List.mem_cons, List.not_mem_nil, or_false] at h
  dsimp only at h ⊢
  omega

/-! ## Completions change no more than contexts, and the counts of switches and Kicks (R42, R367) -/

theorem State.setFlags_keeps {β : Type} (g : State → β) (hcore : ∀ (s : State) (n : Nat) (c : Core), g (s.setCore n c) = g s) (s : State)
    (n k inc : Nat) (f : Flags) : g (s.setFlags n k inc f) = g s := by
  unfold State.setFlags
  dsimp only
  split
  · exact hcore ..
  · rfl

section
variable {β : Type} (g : State → β) (hcore : ∀ (s : State) (n : Nat) (c : Core), g (s.setCore n c) = g s)
  (hswitch : ∀ (s : State) (n : Nat), g (s.bump (F.CORE_CTX_SWITCH_CNT n)) = g s)
include hcore hswitch

theorem State.select_keeps (s : State) (n : Nat) : g (s.select n) = g s := by
  rcases s.select_cases n with h | ⟨j, -, -, h⟩
  · rw [h]
  · rw [h, hswitch, hcore]

variable (hkick : ∀ (s : State) (n : Nat), g (s.kick n) = g s)
include hkick

theorem State.putPr_keeps (s : State) (n k p : Nat) (v : Bool) : g (s.putPr n k p v) = g s := by
  unfold State.putPr
  dsimp only
  split
  · rw [State.makeReady, State.select_keeps g hcore hswitch, hkick]
    exact (hcore _ _ _).trans (hcore _ _ _)
  · exact hcore ..

theorem State.complete_keeps (s : State) (n k inc pd : Nat) : g (s.complete n k inc pd) = g s := by
  unfold State.complete
  dsimp only
  split
  · exact State.putPr_keeps g hcore hswitch hkick ..
  · rfl

variable (hundef : ∀ (s : State) (n space off len : Nat), g (s.lundef n space off len) = g s)
include hundef

theorem redDrops_keeps (c : RCmd) (s : State) : g (redDrops c s) = g s := by
  rw [redDrops, State.complete_keeps g hcore hswitch hkick, State.setFlags_keeps g hcore]
  split
  · exact undefTens_keeps g hundef ..
  · rfl

/-- RED's own fields, its registers and events apart, an abandoned step changes what the completions of its commands change. -/
theorem redAbandon_keeps (hred : ∀ (s : State) (r : Red), g (s.setRed r) = g s)
    (hevent : ∀ (s : State) (p : List Byte), g ((s.setFlag F.RED_STS_abandoned true).raiseDev EV.RED_ABANDON p) = g s)
    (hepoch : ∀ (s : State) (v : Nat), g (s.setFld F.RED_EPOCH v) = g s) (reason : Nat) (s : State) : g (redAbandon reason s) = g s := by
  unfold redAbandon
  extract_lets cmds r s1 s2 s3
  have h2 : g s2 = g s := (foldl_keeps g (fun t c => redDrops_keeps g hcore hswitch hkick hundef c t) _ s1).trans (hred ..)
  have h3 : g s3 = g s := by
    unfold s3
    split
    · exact h2
    · exact (hevent ..).trans h2
  split
  · exact (hepoch ..).trans h3
  · exact h3

end

theorem State.kick_ckpt (s : State) (n : Nat) : (s.kick n).ckpt = s.ckpt := by
  unfold State.kick State.kickSite
  split
  · split <;> simp
  · rfl

theorem State.reg_kick {a : Nat} (h : a ∈ boundaryWords) (s : State) (n : Nat) : (s.kick n).reg a = s.reg a := by
  have hsite : s.siteOf n < 1024 := BitVec.isLt _
  obtain ⟨-, hpower, hcnt, hctl⟩ := boundaryWords_apart h n hsite
  unfold State.kick State.kickSite
  split
  · split
    · rfl
    · exact (reg_bumpBy _ _ 1 a (boundaryWords_counts a h) hcnt hctl).trans (State.reg_setFld_ne _ _ _ _ hpower)
  · rfl

theorem State.reg_switch {a : Nat} (h : a ∈ boundaryWords) (s : State) (n : Nat) : (s.bump (F.CORE_CTX_SWITCH_CNT n)).reg a = s.reg a := by
  obtain ⟨⟨hcnt, hctl⟩, -⟩ := boundaryWords_apart h n (p := 0) (by decide)
  exact reg_bumpBy _ _ 1 a (boundaryWords_counts a h) hcnt hctl

theorem redAbandon_ckpt (reason : Nat) (s : State) : (redAbandon reason s).ckpt = s.ckpt :=
  redAbandon_keeps State.ckpt (fun _ _ _ => rfl) (fun _ _ => State.bump_ckpt _ _) State.kick_ckpt (fun _ _ _ _ _ => rfl) (fun _ _ => rfl)
    (fun _ _ => State.raiseDev_ckpt _ _ _) (fun _ _ => rfl) reason s

theorem reg_redAbandon {a : Nat} (h : a ∈ boundaryWords) (reason : Nat) (s : State) : (redAbandon reason s).reg a = s.reg a := by
  have hred : a ≠ F.RED_STS_abandoned.addr ∧ a ≠ F.RED_EPOCH.addr := by
    revert a
    decide
  refine redAbandon_keeps (State.reg · a) (fun _ _ _ => rfl) (State.reg_switch h) (State.reg_kick h) (fun _ _ _ _ _ => rfl) (fun _ _ => rfl)
    (fun t p => ?_) (fun t v => State.reg_setFld_ne _ F.RED_EPOCH _ _ hred.2) reason s
  exact (reg_raise _ _ _ _ _ _ (boundaryWords_counts a h)).trans (State.reg_setFld_ne _ F.RED_STS_abandoned _ _ hred.1)

/-! ## Stores of CKPT change its marking alone (R322) -/

/-- The state of CKPT but for its marking. -/
def Ckpt.undrained (c : Ckpt) : Ckpt := { c with drain := none }

theorem copyAhead_undrained (q : Nat) (s : State) : (copyAhead q s).ckpt.undrained = s.ckpt.undrained := by
  unfold copyAhead
  split
  · dsimp only
    rw [State.bump_ckpt, State.setCk_ckpt]
    rfl
  · rfl

theorem State.store_undrained (s : State) (a : Nat) (bs : List Byte) : (s.store a bs).ckpt.undrained = s.ckpt.undrained := by
  have hahead := foldl_keeps (fun t : State => t.ckpt.undrained) (fun t q => copyAhead_undrained q t) (s.heldPages a bs.length) s
  unfold State.store State.storeBy State.overSnow
  dsimp only
  generalize (s.heldPages a bs.length).foldl (fun st q => copyAhead q st) s = u at hahead ⊢
  rw [← hahead]
  split
  · exact congrArg Ckpt.undrained (State.tick_ckpt u)
  · rfl

/-- What a store keeps, the marking of the candidates of a step as valid keeps, too. -/
theorem validate_keeps {β : Type} (g : State → β) (h : ∀ (s : State) (a : Nat) (bs : List Byte), g (s.store a bs) = g s) (step : Nat)
    (skip : Bool) (s : State) : g (validate step skip s) = g s := foldl_keeps g (fun _ _ => (h ..).trans (h ..)) _ s

theorem discard_keeps {β : Type} (g : State → β) (h : ∀ (s : State) (a : Nat) (bs : List Byte), g (s.store a bs) = g s) (step : Nat)
    (s : State) : g (discard step s) = g s := foldl_keeps g (fun _ _ => h ..) _ s

/-! ## The contexts that voted (R206, R352) -/

theorem answerVoters_none {s : State} (h : s.ckpt.voters = []) (o : Nat) : answerVoters o s = s := by
  have hsame : s.setCk { s.ckpt with voters := [] } = s := by
    rw [← h]
    rfl
  unfold answerVoters
  rw [h, hsame]
  split
  · exact congrArg (fun l => { s with later := l }) (List.append_nil _)
  · rfl

theorem Ctx.pr_setPr (x : Ctx) {p q : Nat} (b : Bool) (hq0 : 0 < q) (hq : q < 8) (hp : p < 8) :
    (x.setPr q b).pr p = if p = q then b else x.pr p := by
  have hbit : (1 <<< q : BitVec 8).getLsbD p = decide (p = q) := by
    interval_cases q <;> interval_cases p <;> rfl
  rw [Ctx.setPr, if_neg (Nat.ne_of_gt hq0)]
  cases b
  · simp only [Ctx.pr, Bool.false_eq_true, if_false, BitVec.getLsbD_and, BitVec.getLsbD_not, hbit]
    by_cases he : p = q
    · subst he
      simp [Nat.ne_of_gt hq0]
    · simp [he, hp]
  · simp only [Ctx.pr, if_true, BitVec.getLsbD_or, hbit]
    by_cases he : p = q <;> simp [he]

/-- A predicate written from outside a context is all that changes of its predicates. -/
theorem State.putPr_p (s : State) (n k q : Nat) (v : Bool) : ((s.putPr n k q v).ctx n k).p = ((s.ctx n k).setPr q v).p := by
  unfold State.putPr
  dsimp only
  split
  · rcases State.makeReady_ctx (s.setCtx n k { (s.ctx n k).setPr q v with pc := ((s.ctx n k).pc + 8) % 2 ^ 26 }) n k with hr | hr
    all_goals rw [hr, State.ctx_setCtx, if_pos ⟨rfl, rfl⟩]
  · rw [State.ctx_setCtx, if_pos ⟨rfl, rfl⟩]

theorem State.putPr_reads (s : State) (n k : Nat) {p q : Nat} (v : Bool) (hq0 : 0 < q) (hq : q < 8) (hp : p < 8) :
    ((s.putPr n k q v).ctx n k).pr p = if p = q then v else (s.ctx n k).pr p := by
  rw [Ctx.pr, State.putPr_p]
  exact Ctx.pr_setPr _ v hq0 hq hp

theorem Ctx.setPr_lives (x : Ctx) (q : Nat) (v : Bool) : Lives x (x.setPr q v) := by
  unfold Ctx.setPr
  split <;> exact ⟨rfl, id⟩

theorem lives_putPr (s : State) (n k q : Nat) (v : Bool) : Lives (s.ctx n k) ((s.putPr n k q v).ctx n k) := by
  have hset := (s.ctx n k).setPr_lives q v
  unfold State.putPr
  dsimp only
  split
  · refine Lives.trans ?_ (lives_makeReady _ n k k)
    rw [State.ctx_setCtx, if_pos ⟨rfl, rfl⟩]
    exact hset
  · rw [State.ctx_setCtx, if_pos ⟨rfl, rfl⟩]
    exact hset

section
variable {v : Voter} {s : State}

theorem answerVoter_ended (o : Nat) (h : (s.ctx v.core v.ctx).inc ≠ v.inc ∨ (s.ctx v.core v.ctx).st = .free) : answerVoter v o s = s :=
  if_neg fun hl => h.elim (absurd hl.1) hl.2

theorem answerVoter_reads (o : Nat) (hi : (s.ctx v.core v.ctx).inc = v.inc) (hf : (s.ctx v.core v.ctx).st ≠ .free) (hd0 : 0 < v.dp) (hd : v.dp < 8)
    (hp0 : 0 < v.pd) (hp : v.pd < 8) (hne : v.dp ≠ v.pd) :
    ((answerVoter v o s).ctx v.core v.ctx).pr v.dp = decide (o = outCommit) ∧ ((answerVoter v o s).ctx v.core v.ctx).pr v.pd = true := by
  obtain ⟨hinc, hst⟩ := lives_putPr s v.core v.ctx v.dp (decide (o = outCommit))
  have he : answerVoter v o s = (s.putPr v.core v.ctx v.dp (decide (o = outCommit))).putPr v.core v.ctx v.pd true := by
    rw [answerVoter, if_pos ⟨hi, hf⟩, State.complete, if_pos ⟨hinc.trans hi, hst hf, Nat.ne_of_gt hp0⟩]
  rw [he, State.putPr_reads _ _ _ _ hp0 hp hd, State.putPr_reads _ _ _ _ hp0 hp hp, State.putPr_reads _ _ _ _ hd0 hd hd, if_neg hne, if_pos rfl,
    if_pos rfl]
  exact ⟨rfl, rfl⟩

end

theorem runLater_event {s : State} {n f : Nat} (h : s.later = [.event n f]) : runLater s = State.setEvent { s with later := [] } n f := by
  rw [runLater, h]
  rfl

theorem runLater_answer {s : State} {v : Voter} {o : Nat} (h : s.later = [.answer v o]) : runLater s = answerVoter v o { s with later := [] } := by
  rw [runLater, h]
  rfl

theorem slice0_votersAnswered : Slice0.VotersAnswered := by
  unfold Slice0.VotersAnswered
  refine ⟨fun o s h => ?_, fun o s h => ?_, fun o v s _ => ⟨answerVoter_ended o, answerVoter_reads o⟩, fun s n f => runLater_event,
    fun s v o => runLater_answer⟩
  · rw [answerVoters, if_pos h]
    rfl
  · rw [answerVoters, if_neg (ne_true_of_eq_false h)]

/-! ## A step begins again (R311, R313) -/

theorem reg_stepAgain {a : Nat} (h : a ∉ stepWords) (s : State) : (stepAgain s).reg a = s.reg a :=
  (reg_redStepStart h _).trans (State.forget_keeps (State.reg · a) (fun _ _ => rfl) s _)

theorem stepAgain_ckpt (s : State) : (stepAgain s).ckpt = { s.ckpt with
    cast := [], voters := [], mirror := none, voted := false, votes := [], timer := false, heir := false, rolled := false, aborted := false } := by
  exact redStepStart_keeps State.ckpt (fun _ _ _ => rfl) (fun _ _ => rfl) _

theorem stepAgain_stopAll (s : State) : (stepAgain s).stopAll = s.stopAll :=
  (redStepStart_keeps State.stopAll (fun _ _ _ => rfl) (fun _ _ => rfl) _).trans (State.forget_keeps State.stopAll (fun _ _ => rfl) _ _)

theorem resumeCores_keeps {β : Type} (g : State → β) (hcore : ∀ (s : State) (n : Nat) (c : Core), g (s.setCore n c) = g s)
    (hswitch : ∀ (s : State) (n : Nat), g (s.bump (F.CORE_CTX_SWITCH_CNT n)) = g s) (s : State) :
    g (resumeCores s) = g { s with stopAll := false } :=
  foldl_keeps (f := fun (t : State) (p : Nat × Core) => t.select p.1) g (fun t p => State.select_keeps g hcore hswitch t p.1) _ _

/-! ## ROLLBACK (R313, R314) -/

/-- A rollback that has restored the member state, has the abort decision and awaits no remap. -/
def State.rollbackDone (s : State) : Prop := s.phase = phRollback ∧ s.ckpt.rolled = true ∧ s.ckpt.aborted = true ∧ s.dead = []

/-- The state in RUN that it leads to, with its cores still stopped. -/
def rolledBack (s : State) : State :=
  (((stepAgain s).setCk { (stepAgain s).ckpt with stored := none }).setPhase phRun).raiseDev EV.CKPT_ROLLBACK (leBytes 8 (stepAgain s).stepNo)

theorem rollbackEnd_waits {s : State} (h : ¬ s.rollbackDone) : rollbackEnd s = s := by
  rw [State.rollbackDone, ← List.isEmpty_iff] at h
  exact if_neg h

theorem rollbackEnd_done {s : State} (h : s.rollbackDone) :
    rollbackEnd s = if (rolledBack s).fld F.DEV_RUNOUT_STS_stage = 3 then rolledBack s else resumeCores (rolledBack s) := by
  rw [State.rollbackDone, ← List.isEmpty_iff] at h
  exact if_pos h

section
variable (s : State)

theorem reg_rolledBack {a : Nat} (h : a ∉ stepWords) (hp : a ≠ F.CKPT_STS_phase.addr) (he : a ∉ evtWords) : (rolledBack s).reg a = s.reg a :=
  (reg_raise _ _ _ _ _ _ he).trans ((State.reg_setFld_ne _ F.CKPT_STS_phase _ _ hp).trans (reg_stepAgain h s))

theorem rolledBack_phase : (rolledBack s).fld F.CKPT_STS_phase = 1 :=
  (fld_raise _ _ _ _ _ _ (by decide)).trans (State.fld_setFld _ _ _ (by decide))

theorem rolledBack_ckpt : (rolledBack s).ckpt = { (stepAgain s).ckpt with stored := none } := State.raiseDev_ckpt _ _ _

theorem rolledBack_stopAll : (rolledBack s).stopAll = s.stopAll := (State.raiseDev_stopAll _ _ _).trans (stepAgain_stopAll s)

theorem rolledBack_mem : (rolledBack s).mem = s.mem := (State.raiseDev_mem _ _ _).trans (stepAgain_mem s)

end

/-- The end of a rollback, but for its cores, is the state that it leads to. -/
theorem rollbackEnd_keeps {β : Type} (g : State → β) (hcore : ∀ (s : State) (n : Nat) (c : Core), g (s.setCore n c) = g s)
    (hswitch : ∀ (s : State) (n : Nat), g (s.bump (F.CORE_CTX_SWITCH_CNT n)) = g s) (hgo : ∀ s : State, g { s with stopAll := false } = g s)
    {s : State} (h : s.rollbackDone) : g (rollbackEnd s) = g (rolledBack s) := by
  rw [rollbackEnd_done h]
  split
  · rfl
  · exact (resumeCores_keeps g hcore hswitch _).trans (hgo _)

theorem rollbackEnd_stopAll {s : State} (h : s.rollbackDone) :
    (rollbackEnd s).stopAll = (decide (s.fld F.DEV_RUNOUT_STS_stage = 3) && s.stopAll) := by
  have hstage : (rolledBack s).fld F.DEV_RUNOUT_STS_stage = s.fld F.DEV_RUNOUT_STS_stage :=
    State.fld_congr (reg_rolledBack s (by decide) (by decide) (by decide))
  rw [rollbackEnd_done h, hstage]
  split
  next hs => rw [rolledBack_stopAll, decide_eq_true hs, Bool.true_and]
  next hs =>
    rw [resumeCores_keeps State.stopAll (fun _ _ _ => rfl) (fun _ _ => State.bump_stopAll _ _), decide_eq_false hs, Bool.false_and]

theorem reg_rollbackEnd {a : Nat} (h : a ∈ boundaryWords) {s : State} (hd : s.rollbackDone) : (rollbackEnd s).reg a = (rolledBack s).reg a :=
  rollbackEnd_keeps (State.reg · a) (fun _ _ _ => rfl) (State.reg_switch h) (fun _ => rfl) hd

theorem rollbackEnd_ckpt {s : State} (hd : s.rollbackDone) : (rollbackEnd s).ckpt = (rolledBack s).ckpt :=
  rollbackEnd_keeps State.ckpt (fun _ _ _ => rfl) (fun _ _ => State.bump_ckpt _ _) (fun _ => rfl) hd

theorem rollback_idle {s : State} (h : s.phase ≠ phRollback ∨ s.flag F.PWR_STS_hold = true) : rollback s = s := if_pos h

section
variable {s : State} (hp : s.phase = phRollback) (hh : s.flag F.PWR_STS_hold = false)
include hp hh

theorem not_rollback_idle : ¬ (s.phase ≠ phRollback ∨ s.flag F.PWR_STS_hold = true) :=
  not_or.2 ⟨not_not_intro hp, ne_true_of_eq_false hh⟩

theorem rollback_restores (hr : s.ckpt.rolled = false) (hu : s.updDone = true) : rollback s =
    rollbackEnd ((restoreMember (if (stopCores s).red.dropped then stopCores s else redAbandon 2 (stopCores s))).setCk
      { (restoreMember (if (stopCores s).red.dropped then stopCores s else redAbandon 2 (stopCores s))).ckpt with rolled := true }) := by
  refine (if_neg (not_rollback_idle hp hh)).trans (if_neg ?_)
  rw [hr, hu]
  exact not_or.2 ⟨Bool.false_ne_true, Bool.false_ne_true⟩

theorem rollback_rolled (hr : s.ckpt.rolled = true) : rollback s = rollbackEnd s := by
  rw [rollback, if_neg (not_rollback_idle hp hh), if_pos (.inl hr)]

end

theorem slice0_rollbackEngine : Slice0.RollbackEngine := by
  unfold Slice0.RollbackEngine
  refine ⟨fun s hp hh hr hu => ?_, fun s h => ?_, fun s hp hh hr hw => ?_, fun s hp hh hr ha hd => ?_⟩
  · rw [exec_rollback, rollback_restores hp hh hr hu]
  · rw [exec_rollback, rollback_idle h]
  · rw [exec_rollback, rollback_rolled hp hh hr, rollbackEnd_waits]
    rintro ⟨-, -, ha, hd⟩
    exact hw.elim (fun hn => Bool.false_ne_true (hn.symm.trans ha)) fun hn => hn hd
  · have hdone : s.rollbackDone := ⟨hp, hr, ha, hd⟩
    have hckpt : (rollbackEnd s).ckpt = { (stepAgain s).ckpt with stored := none } := (rollbackEnd_ckpt hdone).trans (rolledBack_ckpt s)
    rw [stepAgain_ckpt] at hckpt
    refine ⟨rollbackEnd s, by rw [exec_rollback, rollback_rolled hp hh hr], ?_, ?_, rollbackEnd_stopAll hdone, ?_⟩
    · exact (State.fld_congr (reg_rollbackEnd (by decide) hdone)).trans (rolledBack_phase s)
    · exact State.fld_congr ((reg_rollbackEnd (by decide) hdone).trans (reg_rolledBack s (by decide) (by decide) (by decide)))
    · have hmem : (rollbackEnd s).mem = s.mem :=
        (rollbackEnd_keeps State.mem (fun _ _ _ => rfl) (fun _ _ => State.bump_mem _ _) (fun _ => rfl) hdone).trans (rolledBack_mem s)
      rw [hckpt]
      exact ⟨rfl, rfl, rfl, rfl, rfl, hmem⟩

/-! ## A commit or skip decision (R206, R300, R311) -/

/-- The next step is current, on a skip with half the loss scale, and its candidates are valid. -/
def stepTaken (d : Decision) (s : State) : State :=
  let s1 := s.setFld F.CKPT_STEP_step ((d.step + 1) % 2 ^ 64)
  validate ((d.step + 1) % 2 ^ 64) (d.outcome = outSkip)
    (if d.outcome = outSkip then s1.setFld F.RED_LOSS_SCALE (halfScale (s1.fld F.RED_LOSS_SCALE)) else s1)

/-- The members of the step that begins. -/
def Ckpt.regrouped (c : Ckpt) : Ckpt :=
  { c with first := false, members := (c.members.filter (fun n => !c.leaves.contains n)) ++ c.joins, joins := [], leaves := [] }

theorem stepTaken_undrained (d : Decision) (s : State) : (stepTaken d s).ckpt.undrained = s.ckpt.undrained := by
  refine (validate_keeps (fun t : State => t.ckpt.undrained) State.store_undrained _ _ _).trans ?_
  split <;> rfl

theorem reg_stepTaken {a : Nat} (h : a ∈ boundaryWords) (d : Decision) (s : State) :
    (stepTaken d s).reg a = (s.setFld F.CKPT_STEP_step ((d.step + 1) % 2 ^ 64)).reg a := by
  refine (validate_keeps (State.reg · a) (fun _ _ _ => State.reg_store (boundaryWords_quiet a h) _ _ _) _ _ _).trans ?_
  have hscale : a ≠ F.RED_LOSS_SCALE.addr := by
    revert a
    decide
  split
  · exact State.reg_setFld_ne _ F.RED_LOSS_SCALE _ _ hscale
  · rfl

theorem reg_stepStart {a : Nat} (h : a ∉ stepWords) (s : State) : (stepStart s).reg a = s.reg a := reg_stepAgain h s

theorem stepStart_stored (s : State) : (stepStart s).ckpt.stored = s.ckpt.stored := (congrArg Ckpt.stored (stepAgain_ckpt s) :)

theorem stepStart_fresh (s : State) : (stepStart s).ckpt.votes = [] ∧ (stepStart s).ckpt.voted = false ∧ (stepStart s).ckpt.mirror = none :=
  ⟨(congrArg Ckpt.votes (stepAgain_ckpt s) :), (congrArg Ckpt.voted (stepAgain_ckpt s) :), (congrArg Ckpt.mirror (stepAgain_ckpt s) :)⟩

theorem buddyPoint_none {s : State} (h : s.ckpt.buddy = none) (step : Nat) : buddyPoint step s = s := by
  unfold buddyPoint
  rw [h]

/-- With no Freeze, comparison, buddy copy or voter, a decision makes the next step current and begins it. -/
theorem advance_plain {d : Decision} {s : State} (hf : d.freeze = false) (hc : d.compare = false) (hb : s.ckpt.buddy = none)
    (hv : s.ckpt.voters = []) : advance d s = if s.fld F.CKPT_STS_phase = 4 then stepStart ((stepTaken d s).setCk (stepTaken d s).ckpt.regrouped)
      else (stepStart ((stepTaken d s).setCk (stepTaken d s).ckpt.regrouped)).setPhase phRun := by
  have hkept := stepTaken_undrained d s
  have hbuddy : (stepTaken d s).ckpt.buddy = none := (congrArg Ckpt.buddy hkept).trans hb
  have hvoters : (stepTaken d s).ckpt.voters = [] := (congrArg Ckpt.voters hkept).trans hv
  have h6 : answerVoters d.outcome (buddyPoint d.step (stepTaken d s)) = stepTaken d s := by
    rw [buddyPoint_none hbuddy, answerVoters_none hvoters]
  unfold advance
  rw [hf, hc]
  exact if_congr Iff.rfl (by rw [← h6]; rfl) (by rw [← h6]; rfl)

section
variable {d : Decision} {s : State} (hf : d.freeze = false) (hc : d.compare = false) (hb : s.ckpt.buddy = none) (hv : s.ckpt.voters = [])
include hf hc hb hv

theorem reg_advance_plain {a : Nat} (h : a ∈ boundaryWords) (hp : a ≠ F.CKPT_STS_phase.addr) :
    (advance d s).reg a = (s.setFld F.CKPT_STEP_step ((d.step + 1) % 2 ^ 64)).reg a := by
  have hstart : (stepStart ((stepTaken d s).setCk (stepTaken d s).ckpt.regrouped)).reg a =
      (s.setFld F.CKPT_STEP_step ((d.step + 1) % 2 ^ 64)).reg a :=
    (reg_stepStart (boundaryWords_step a h) _).trans (reg_stepTaken h d s)
  rw [advance_plain hf hc hb hv]
  split
  · exact hstart
  · exact (State.reg_setFld_ne _ F.CKPT_STS_phase _ _ hp).trans hstart

theorem advance_plain_phase : (advance d s).fld F.CKPT_STS_phase = if s.fld F.CKPT_STS_phase = 4 then 4 else 1 := by
  rw [advance_plain hf hc hb hv]
  by_cases hp : s.fld F.CKPT_STS_phase = 4
  · rw [if_pos hp, if_pos hp, State.fld_congr (reg_stepStart (by decide) _)]
    exact (State.fld_congr (reg_stepTaken (by decide) d s)).trans ((State.fld_setFld_addr _ _ _ _ (by decide)).trans hp)
  · rw [if_neg hp, if_neg hp]
    exact State.fld_setFld _ _ _ (by decide)

theorem advance_plain_ckpt : (advance d s).ckpt.stored = s.ckpt.stored ∧ (advance d s).ckpt.votes = [] ∧ (advance d s).ckpt.voted = false
    ∧ (advance d s).ckpt.mirror = none := by
  have hstored : (stepTaken d s).ckpt.stored = s.ckpt.stored := (congrArg Ckpt.stored (stepTaken_undrained d s) :)
  have hkept : (advance d s).ckpt = (stepStart ((stepTaken d s).setCk (stepTaken d s).ckpt.regrouped)).ckpt := by
    rw [advance_plain hf hc hb hv]
    split <;> rfl
  rw [hkept]
  exact ⟨(stepStart_stored _).trans hstored, stepStart_fresh _⟩

end

/-! ## This engine writes a decision (R206, R299, R300, R310) -/

/-- A decision that changes nothing: of another step, or with none in flight, or after an abort (log 174). -/
def State.ignoresDecision (s : State) (d : Decision) : Prop :=
  d.step ≠ s.fld F.CKPT_STEP_step ∨ s.fld F.CKPT_STS_phase = 0 ∨ s.fld F.CKPT_STS_phase = 5 ∨ s.ckpt.aborted = true

/-- The state with a decision recorded. -/
def State.recorded (s : State) (d : Decision) : State :=
  ((s.setFld F.CKPT_VOTE_STS_outcome d.outcome).setFld F.CKPT_VOTE_STS_step d.step).setCk
    { s.ckpt with stored := some (d.step, d.outcome), wrote := true }

/-- The state in ROLLBACK that an abort decision leads to. -/
def abortTaken (d : Decision) (s : State) : State :=
  let s2 := answerVoters outAbort (discard ((d.step + 1) % 2 ^ 64) (redAbandon 0 s))
  (s2.setCk { s2.ckpt with aborted := true, votes := [], timer := false }).setPhase phRollback

theorem applyDecision_ignored {d : Decision} {s : State} (h : s.ignoresDecision d) : applyDecision d s = s := if_pos h

section
variable {d : Decision} {s : State} (h : ¬ s.ignoresDecision d)
include h

theorem applyDecision_advances (ho : d.outcome = 1 ∨ d.outcome = 2) : applyDecision d s = advance d (s.recorded d) := (if_neg h).trans (if_pos ho)

theorem applyDecision_aborts (ho : d.outcome = 3) : applyDecision d s = rollbackEnd (abortTaken d (s.recorded d)) :=
  (if_neg h).trans ((if_neg (by rw [ho]; decide)).trans (if_pos ho))

theorem applyDecision_halts (ho : d.outcome = 4) : applyDecision d s =
    (State.setFld (answerVoters 4 ((s.recorded d).setRed { (s.recorded d).red with halted := true })) F.CKPT_STS_phase 5).raise EV.JOB_HALT 0 0 [] :=
  (if_neg h).trans ((if_neg (by rw [ho]; decide)).trans ((if_neg (by rw [ho]; decide)).trans (if_pos ho)))

end

theorem State.recorded_fld (s : State) (d : Decision) {f : Fld} (h0 : f.addr ≠ F.CKPT_VOTE_STS_outcome.addr)
    (h1 : f.addr ≠ F.CKPT_VOTE_STS_step.addr) : (s.recorded d).fld f = s.fld f :=
  (State.fld_setFld_addr _ F.CKPT_VOTE_STS_step _ _ h1).trans (State.fld_setFld_addr _ F.CKPT_VOTE_STS_outcome _ _ h0)

theorem State.recorded_outcome (s : State) (d : Decision) (h : d.outcome < 8) : (s.recorded d).fld F.CKPT_VOTE_STS_outcome = d.outcome :=
  (State.fld_setFld_addr _ F.CKPT_VOTE_STS_step _ _ (by decide)).trans ((State.fld_setFld _ _ _ (by decide)).trans (Nat.mod_eq_of_lt h))

theorem State.recorded_step (s : State) (d : Decision) (h : d.step < 2 ^ 64) : (s.recorded d).fld F.CKPT_VOTE_STS_step = d.step :=
  (State.fld_setFld _ _ _ (by decide)).trans (Nat.mod_eq_of_lt h)

theorem abandoned_undrained (step : Nat) (s : State) : (discard step (redAbandon 0 s)).ckpt.undrained = s.ckpt.undrained := by
  rw [discard_keeps (fun t : State => t.ckpt.undrained) State.store_undrained, redAbandon_ckpt]

section
variable (d : Decision) {s : State} (hv : s.ckpt.voters = [])
include hv

/-- Without a voter to answer, an abort discards the candidates and has RED abandon the step. -/
theorem abortTaken_of_no_voters : abortTaken d s = ((discard ((d.step + 1) % 2 ^ 64) (redAbandon 0 s)).setCk
    { (discard ((d.step + 1) % 2 ^ 64) (redAbandon 0 s)).ckpt with aborted := true, votes := [], timer := false }).setPhase phRollback := by
  have hvoters : (discard ((d.step + 1) % 2 ^ 64) (redAbandon 0 s)).ckpt.voters = [] :=
    (congrArg Ckpt.voters (abandoned_undrained _ s)).trans hv
  unfold abortTaken
  rw [answerVoters_none hvoters]

theorem reg_abortTaken {a : Nat} (h : a ∈ boundaryWords) (hp : a ≠ F.CKPT_STS_phase.addr) : (abortTaken d s).reg a = s.reg a := by
  rw [abortTaken_of_no_voters d hv]
  refine (State.reg_setFld_ne _ F.CKPT_STS_phase _ _ hp).trans ?_
  exact (discard_keeps (State.reg · a) (State.reg_store (boundaryWords_quiet a h)) _ _).trans (reg_redAbandon h 0 s)

theorem abortTaken_rolled : (abortTaken d s).ckpt.rolled = s.ckpt.rolled := by
  rw [abortTaken_of_no_voters d hv]
  exact (congrArg Ckpt.rolled (abandoned_undrained _ s) :)

end

theorem abortTaken_phase (d : Decision) (s : State) : (abortTaken d s).fld F.CKPT_STS_phase = 4 := State.fld_setFld _ _ _ (by decide)

theorem slice0_decisionOutcome : Slice0.DecisionOutcome := by
  unfold Slice0.DecisionOutcome
  intro d s
  dsimp only
  refine ⟨applyDecision_ignored, fun hstep h0 h5 ha => ?_⟩
  have hin : ¬ s.ignoresDecision d := by
    rintro (h | h | h | h)
    exacts [h hstep, h0 h, h5 h, Bool.false_ne_true (ha.symm.trans h)]
  have hlt : d.step < 2 ^ 64 := by rw [hstep]; exact BitVec.isLt _
  refine ⟨applyDecision_advances hin, fun ho hf hc hb hv => ?_, fun ho hr hv => ?_, applyDecision_halts hin⟩
  · rw [applyDecision_advances hin ho, ← hstep]
    have hb1 : (s.recorded d).ckpt.buddy = none := hb
    have hv1 : (s.recorded d).ckpt.voters = [] := hv
    obtain ⟨hstored, hfresh⟩ := advance_plain_ckpt hf hc hb1 hv1
    refine ⟨?_, ?_, ?_, ?_, hstored, hfresh⟩
    · rw [State.fld_congr (reg_advance_plain hf hc hb1 hv1 (by decide) (by decide)), State.fld_setFld _ _ _ (by decide)]
      exact Nat.mod_mod _ _
    · rw [advance_plain_phase hf hc hb1 hv1, State.recorded_fld _ _ (by decide) (by decide)]
    · rw [State.fld_congr (reg_advance_plain hf hc hb1 hv1 (by decide) (by decide)), State.fld_setFld_addr _ _ _ _ (by decide)]
      exact s.recorded_outcome d (by omega)
    · rw [State.fld_congr (reg_advance_plain hf hc hb1 hv1 (by decide) (by decide)), State.fld_setFld_addr _ _ _ _ (by decide)]
      exact s.recorded_step d hlt
  · have hv1 : (s.recorded d).ckpt.voters = [] := hv
    have hwaits : ¬ (abortTaken d (s.recorded d)).rollbackDone := by
      rintro ⟨-, hrolled, -⟩
      rw [abortTaken_rolled d hv1] at hrolled
      exact Bool.false_ne_true (hr.symm.trans hrolled)
    rw [applyDecision_aborts hin ho, rollbackEnd_waits hwaits]
    refine ⟨abortTaken_phase _ _, rfl, ?_, ?_⟩
    · rw [State.fld_congr (reg_abortTaken d hv1 (by decide) (by decide)), State.recorded_fld _ _ (by decide) (by decide)]
    · rw [State.fld_congr (reg_abortTaken d hv1 (by decide) (by decide)), State.recorded_outcome _ _ (by omega), ho]

/-! ## The step after a decision taken in ROLLBACK (R314) -/

theorem abandonNext_idle {s : State} (h : ¬ (s.fld F.CKPT_STS_phase = 4 ∧ s.ckpt.voted = false ∧ s.ckpt.aborted = false)) :
    abandonNext s = s := by
  simp only [← Bool.not_eq_true'] at h
  exact if_neg h

theorem abandonNext_votes {s : State} (h : s.fld F.CKPT_STS_phase = 4 ∧ s.ckpt.voted = false ∧ s.ckpt.aborted = false) :
    abandonNext s = castVote true s := by
  simp only [← Bool.not_eq_true'] at h
  exact if_pos h

theorem slice0_nextStepAbandoned : Slice0.NextStepAbandoned := by
  unfold Slice0.NextStepAbandoned
  refine ⟨fun d s => rfl, fun v s => rfl, fun s => ?_⟩
  intro s1 waits
  refine ⟨abandonNext_idle, fun h hr => ?_, fun h hr => ?_⟩
  · rw [abandonNext_votes h, castVote, if_pos hr]
  · rw [abandonNext_votes h, castVote, if_neg (ne_true_of_eq_false hr)]
    rfl

/-- Settles O30, from a stop of every core, the rollback and its end, what each outcome of a decision leaves, the answers to voters, and the step
that a decision taken in ROLLBACK leaves to abandon. -/
theorem stepDecisions : Obligations.StepDecisions :=
  ⟨slice0_coresStopped, slice0_rollbackEngine, slice0_decisionOutcome, slice0_votersAnswered, slice0_nextStepAbandoned⟩

end Sys2Proof.Machine
end

section
/-! # Freezes and their drain (O32; spec/14 R305, R306, R320-R327, R332; spec/18 R420) -/

namespace Sys2Proof.Machine

theorem exec_freezeTimer (s : State) : exec .freezeTimer s = .next (freezeTimer s) := by rfl
theorem exec_ckptFreezeNow (v : W64) (s : State) : exec (.ckptFreezeNow v) s =
    .next (if v.getLsbD 0 ∧ s.isSelf s.rootNode then s.setCk { s.ckpt with due := true } else s) := by rfl
theorem exec_ckptBuddyStep (v : W64) (s : State) : exec (.ckptBuddyStep v) s =
    .next (s.setCk { s.ckpt with buddy := some (v.toNat, s.fld F.CKPT_BUDDY_node, s.fld F.CKPT_BUDDY_bases) }) := by rfl
theorem exec_ckptTensLoad (v : W64) (s : State) : exec (.ckptTensLoad v) s = .next (if v.getLsbD 0 then tensLoad s else s) := by rfl
theorem exec_freezeDrainSend (s : State) : exec .freezeDrainSend s = .next (drainSend s) := by rfl
theorem exec_freezeDrainAck (s : State) : exec .freezeDrainAck s = .next (runoutGo (drainAck s)) := by rfl

/-! ## Triggers (R320, R332) -/

theorem slice0_freezeTriggers : Slice0.FreezeTriggers := by
  unfold Slice0.FreezeTriggers
  intro v s due root timed
  rw [exec_freezeTimer, exec_ckptFreezeNow]
  refine ⟨fun hr ht => ?_, fun h => ?_, fun hr hv => ?_, fun h => ?_, exec_ckptBuddyStep v s⟩
  · rw [freezeTimer, if_pos ⟨hr, ht⟩]
  · rw [freezeTimer, if_neg h]
  · rw [if_pos ⟨hv, hr⟩]
  · rw [if_neg fun hc => h hc.symm]

/-! ## Descriptors (R305, R306) -/

theorem tensLoad_loaded {s : State} (h : s.jobLoaded = true) : tensLoad s = s := if_pos h

/-- What a table of descriptors that passes holds (R305). -/
theorem descsOk_entry {s : State} {l : List (CDesc × Bool)} (h : descsOk s l = true) {p : CDesc × Bool} (hp : p ∈ l) :
    p.2 = true ∧ p.1.owner < s.fld F.RED_OWNER_LEN
      ∧ (if p.1.held then s.isSelf (s.armedNodes p.1.owner).2 && decide ((s.armedNodes p.1.owner).1 ≠ (s.armedNodes p.1.owner).2)
          else s.isSelf (s.armedNodes p.1.owner).1) = true := by
  simp only [descsOk, Bool.and_eq_true, List.all_eq_true, decide_eq_true_eq] at h
  obtain ⟨⟨⟨⟨⟨⟨⟨-, hgood⟩, -⟩, -⟩, howner⟩, -⟩, -⟩, -⟩ := h
  obtain ⟨hlt, hrole⟩ := howner p.1 (List.mem_map_of_mem hp)
  exact ⟨hgood p hp, hlt, hrole⟩

theorem descsOk_table {s : State} {l : List (CDesc × Bool)} (h : descsOk s l = true) :
    1 ≤ l.length ∧ l.length ≤ 256 ∧ s.isSelf (s.fld F.CKPT_REC_PARTNER_node) = false := by
  simp only [descsOk, Bool.and_eq_true, decide_eq_true_eq, Bool.not_eq_true'] at h
  obtain ⟨⟨⟨⟨⟨⟨⟨hlen, -⟩, -⟩, -⟩, -⟩, hpartner⟩, -⟩, -⟩ := h
  exact ⟨hlen.1, hlen.2, hpartner⟩

theorem slice0_descriptorTable : Slice0.DescriptorTable := by
  unfold Slice0.DescriptorTable
  refine ⟨fun v s hv hj => ?_, fun v s h => ?_, fun s l h => ?_, fun s e h => ?_⟩
  · intro l
    rw [exec_ckptTensLoad, if_pos hv, tensLoad, if_neg (ne_true_of_eq_false hj)]
    exact ⟨fun hl => by rw [if_neg (ne_true_of_eq_false hl)]; rfl, fun hl => by rw [if_pos hl]⟩
  · rw [exec_ckptTensLoad]
    rcases h with hv | hj
    · rw [if_neg (ne_true_of_eq_false hv)]
    · rw [tensLoad_loaded hj, ite_self]
  · obtain ⟨hlo, hhi, hpartner⟩ := descsOk_table h
    refine ⟨hlo, hhi, hpartner, fun p hp => ?_⟩
    obtain ⟨hgood, hlt, hrole⟩ := descsOk_entry h hp
    refine ⟨hgood, hlt, fun hh => ?_, fun hh => ?_⟩
    · simpa only [hh, Bool.false_eq_true, if_false] using hrole
    · simpa only [hh, if_true, Bool.and_eq_true, decide_eq_true_eq] using hrole
  · obtain ⟨-, -, halign, hlen⟩ := of_decide_eq_true h
    exact ⟨halign, hlen⟩

/-! ## The order of items (R323, R324) -/

section
variable {s : State} {d : Drain}

theorem Drain.nextPage_want {p : Page} (h : d.pages.find? (·.want) = some p) : d.nextPage = some p := by
  simp only [Drain.nextPage, h]

/-- With no write waiting, the page that drains next is the AHEAD page of lowest side-buffer slot. -/
theorem Drain.nextPage_ahead (hw : d.pages.find? (·.want) = none) (ha : ∃ p ∈ d.pages, p.slot ≠ none) :
    ∃ p ∈ d.pages, ∃ j, p.slot = some j ∧ d.nextPage = some p ∧ ∀ q ∈ d.pages, ∀ i, q.slot = some i → j ≤ i := by
  let ahead := d.pages.filter (fun p => p.slot.isSome)
  let sorted := ahead.mergeSort (fun a b => a.slot.getD 0 ≤ b.slot.getD 0)
  have hmem : ∀ p, p ∈ sorted ↔ p ∈ d.pages ∧ p.slot.isSome = true := fun p => by
    rw [List.mem_mergeSort, List.mem_filter]
  have horder : sorted.Pairwise (fun a b => a.slot.getD 0 ≤ b.slot.getD 0) := by
    have h := List.pairwise_mergeSort (le := fun (a b : Page) => decide (a.slot.getD 0 ≤ b.slot.getD 0))
      (fun a b c hab hbc => by simp only [decide_eq_true_eq] at *; omega) (fun a b => by simp only [Bool.or_eq_true, decide_eq_true_eq]; omega) ahead
    exact h.imp fun h => of_decide_eq_true h
  have hnext : d.nextPage = match sorted.head? with | some p => some p | none => d.pages.head? := by
    rw [Drain.nextPage, hw] <;> rfl
  cases hs : sorted with
  | nil =>
    obtain ⟨p, hp, hslot⟩ := ha
    exact absurd ((hmem p).2 ⟨hp, Option.isSome_iff_ne_none.2 hslot⟩) (by simp [hs])
  | cons p rest =>
    rw [hs] at hnext horder
    obtain ⟨hp, hsome⟩ := (hmem p).1 (by simp [hs])
    obtain ⟨j, hj⟩ := Option.isSome_iff_exists.1 hsome
    refine ⟨p, hp, j, hj, hnext, fun q hq i hi => ?_⟩
    have hle : p.slot.getD 0 ≤ q.slot.getD 0 := by
      rcases List.mem_cons.1 (hs ▸ (hmem q).2 ⟨hq, by simp [hi]⟩) with rfl | hmem'
      · exact Nat.le_refl _
      · exact (List.pairwise_cons.1 horder).1 q hmem'
    simpa [hj, hi] using hle

theorem Drain.nextPage_marked {p : Page} {l : List Page} (hw : d.pages.find? (·.want) = none) (hl : d.pages = p :: l)
    (hslot : ∀ q ∈ d.pages, q.slot = none) : d.nextPage = some p := by
  have hnone : d.pages.filter (fun p => p.slot.isSome) = [] := List.filter_eq_nil_iff.2 fun q hq => by simp [hslot q hq]
  rw [Drain.nextPage, hw, hnone, List.mergeSort_nil, hl]
  rfl

theorem Drain.nextPage_none (h : d.pages = []) : d.nextPage = none := by simp [Drain.nextPage, h]

theorem Drain.next_zero (hb : d.buddy = false) (hz : d.zeroed = false) : d.next s = some .zero := by
  simp [Drain.next, hb, hz]

theorem Drain.next_want {p : Page} (hb : d.buddy = false) (hz : d.zeroed = true) (hp : d.pages.find? (·.want) = some p) :
    d.next s = some (.page p.no) := by
  have hany : d.pages.any (·.want) = true := List.any_eq_true.2 ⟨p, List.mem_of_find?_eq_some hp, List.find?_some hp⟩
  simp [Drain.next, hb, hz, hany, Drain.nextPage_want hp]

/-- What a zeroed drain with no write waiting writes next. -/
theorem Drain.next_settled (hb : d.buddy = false) (hz : d.zeroed = true) (hw : ∀ p ∈ d.pages, p.want = false) :
    d.next s = match d.nextHeader s with
      | some k => some (.header k)
      | none => match d.nextPage with
        | some p => some (.page p.no)
        | none => if d.barren then none else some .manifest := by
  have hany : d.pages.any (·.want) = false := List.any_eq_false.2 fun p hp => by simp [hw p hp]
  simp only [Drain.next, hb, hz, hany, Bool.false_eq_true, if_false, Bool.not_true]
  cases d.nextHeader s <;> cases d.nextPage <;> rfl

theorem Drain.nextHeader_some {k : Nat} (h : d.nextHeader s = some k) :
    ∃ e, d.shards[k]? = some e ∧ e.done = false ∧ ∀ p ∈ d.pages, p.no ∉ e.pages s := by
  have hk := List.find?_some h
  cases he : d.shards[k]? with
  | none => simp [he] at hk
  | some e =>
    simp only [he, Bool.and_eq_true, Bool.not_eq_true', List.any_eq_false, List.contains_iff_mem] at hk
    exact ⟨e, rfl, hk.1, hk.2⟩

end

theorem slice0_drainOrder : Slice0.DrainOrder := by
  unfold Slice0.DrainOrder
  intro s d hb
  refine ⟨Drain.next_zero hb, fun hz => ⟨fun p hp => Drain.next_want hb hz hp, fun hw => ?_⟩, fun k hk => Drain.nextHeader_some hk⟩
  have hfind : d.pages.find? (·.want) = none := List.find?_eq_none.2 fun p hp => by simp [hw p hp]
  have hnext := Drain.next_settled (s := s) hb hz hw
  refine ⟨fun k hk => by rw [hnext, hk], fun hh => ?_⟩
  rw [hh] at hnext
  refine ⟨fun ha => ?_, fun p l hl hs => ?_, fun hp hbar => ?_, fun hp hbar => ?_⟩
  · obtain ⟨p, hp, j, hj, hpage, hleast⟩ := Drain.nextPage_ahead hfind ha
    exact ⟨p, hp, j, hj, by rw [hnext, hpage], hleast⟩
  · rw [hnext, Drain.nextPage_marked hfind hl hs]
  · rw [hnext, Drain.nextPage_none hp, hbar]; rfl
  · rw [hnext, Drain.nextPage_none hp, hbar]; rfl

/-! ## Where items go, and when they are written (R323-R326) -/

theorem slice0_drainPlaces : Slice0.DrainPlaces := by
  unfold Slice0.DrainPlaces
  intro s d route slot
  refine ⟨rfl, fun k h hk => ?_, rfl, fun _ => rfl⟩
  simp only [drainPut, hk]
  rfl

theorem slice0_drainSends : Slice0.DrainSends := by
  unfold Slice0.DrainSends
  intro s
  rw [exec_freezeDrainSend]
  refine ⟨fun h => by rw [drainSend, h], fun d hd => ⟨fun hi => ?_, fun it hi hn => ?_, fun hi hn => ?_⟩⟩
  · simp only [drainSend, hd, if_pos (Option.isSome_iff_ne_none.2 hi)]
  · simp only [drainSend, hd, hi, hn, Option.isSome_none, Bool.false_eq_true, if_false]
  · simp only [drainSend, hd, hi, hn, Option.isSome_none, Bool.false_eq_true, if_false]
    rfl

/-! ## What an acknowledged item leaves (R323, R324, R327, R332) -/

/-- The digest that a page gives for the part that a shard holds of it. -/
def pageDigest (shards : List Shard) (q : Nat) (data : List Byte) (k : Nat) : Option (List Byte) :=
  shards[k]?.bind fun h => if (h.part q).2 = 0 then none else some (sha512 ((data.drop ((h.part q).1 - q * 65536)).take (h.part q).2))

theorem pageDigest_part {shards : List Shard} {q k : Nat} {data : List Byte} {h : Shard} (hk : shards[k]? = some h) (hlen : (h.part q).2 ≠ 0) :
    pageDigest shards q data k = some (sha512 ((data.drop ((h.part q).1 - q * 65536)).take (h.part q).2)) := by
  rw [pageDigest, hk]
  exact if_neg hlen

theorem pageDigest_some {shards : List Shard} {q k : Nat} {data v : List Byte} (hv : pageDigest shards q data k = some v) :
    ∃ h, shards[k]? = some h ∧ (h.part q).2 ≠ 0 := by
  obtain ⟨h, hk, hd⟩ := Option.bind_eq_some_iff.1 hv
  refine ⟨h, hk, fun hz => ?_⟩
  simp only [if_pos hz, reduceCtorEq] at hd

/-- A map with the values that a function gives at some keys put one after another. -/
def Sparse.putSome {α : Type} (f : Nat → Option α) (key : Nat → Nat) (ks : List Nat) (m : Sparse α) : Sparse α :=
  ks.foldl (fun m k => (f k).elim m (Sparse.put m (key k))) m

theorem Sparse.find_putSome_other {α : Type} {f : Nat → Option α} {key : Nat → Nat} {j : Nat} (ks : List Nat) (m : Sparse α)
    (h : ∀ k ∈ ks, ∀ v, f k = some v → j ≠ key k) : Sparse.find (Sparse.putSome f key ks m) j = Sparse.find m j := by
  induction ks generalizing m with
  | nil => rfl
  | cons k ks ih =>
    refine (ih _ fun i hi => h i (List.mem_cons_of_mem k hi)).trans ?_
    cases hf : f k with
    | none => simp [hf]
    | some v => simp [hf, h k List.mem_cons_self v hf]

theorem Sparse.find_putSome {α : Type} {f : Nat → Option α} {key : Nat → Nat} (hkey : ∀ a b, key a = key b → a = b) {k : Nat} {v : α}
    (hv : f k = some v) {ks : List Nat} (hk : k ∈ ks) (m : Sparse α) : Sparse.find (Sparse.putSome f key ks m) (key k) = some v := by
  induction ks generalizing m with
  | nil => exact absurd hk List.not_mem_nil
  | cons i ks ih =>
    by_cases hin : k ∈ ks
    · exact ih hin _
    · obtain rfl : k = i := (List.mem_cons.1 hk).resolve_right hin
      refine (Sparse.find_putSome_other ks _ fun j hj _ _ he => hin (by rwa [hkey _ _ he])).trans ?_
      simp [hv]

theorem drainDone_page {s : State} {d : Drain} {q : Nat} {p : Page} (hp : d.pages.find? (fun p => decide (p.no = q)) = some p) :
    drainDone d (.page q) s = s.setDrain (some { d with
      item := none, tries := 0
      digests := Sparse.putSome (pageDigest d.shards q (pageBytes s p)) (digestKey · q) (List.range d.shards.length) d.digests
      pages := d.pages.filter (fun p => decide (p.no ≠ q)) }) := by
  have hstep : ∀ (m : Sparse (List Byte)) (k : Nat),
      (match d.shards[k]? with
        | some h => if (h.part q).2 = 0 then m
          else Sparse.put m (digestKey k q) (sha512 (((pageBytes s p).drop ((h.part q).1 - q * 65536)).take (h.part q).2))
        | none => m) = (pageDigest d.shards q (pageBytes s p) k).elim m (Sparse.put m (digestKey k q)) := fun m k => by
    cases hk : d.shards[k]? with
    | none => simp [pageDigest, hk]
    | some h => by_cases hz : (h.part q).2 = 0 <;> simp [pageDigest, hk, hz]
  simp only [drainDone, hp, Sparse.putSome, ← hstep]
  rfl

theorem drainDone_header {s : State} {d : Drain} (k : Nat) : ∃ shards,
    drainDone d (.header k) s = s.setDrain (some { d with item := none, tries := 0, shards := shards })
    ∧ shards.length = d.shards.length ∧ ∀ j h, d.shards[j]? = some h → shards[j]? = some (if j = k then { h with done := true } else h) := by
  refine ⟨_, rfl, by simp, fun j h hj => ?_⟩
  obtain ⟨hlt, -⟩ := List.getElem?_eq_some_iff.1 hj
  have hz : (d.shards.zip (List.range d.shards.length))[j]? = some (h, j) := List.getElem?_zip_eq_some.2 ⟨hj, List.getElem?_range hlt⟩
  rw [List.getElem?_map, hz]
  rfl

theorem slice0_drainItems : Slice0.DrainItems := by
  unfold Slice0.DrainItems
  intro s d e closed
  refine ⟨rfl, rfl, fun q p hp => ⟨_, drainDone_page hp, fun k h hk hlen => ?_, fun j hj => ?_⟩, fun k => drainDone_header k, rfl, rfl⟩
  · have hin : k ∈ List.range d.shards.length := List.mem_range.2 (List.getElem?_eq_some_iff.1 hk).1
    have hkey : ∀ a b : Nat, digestKey a q = digestKey b q → a = b := fun a b h => by simp only [digestKey] at h; omega
    refine (congrArg (Option.getD · []) (Sparse.find_putSome hkey (pageDigest_part hk hlen) hin d.digests)).trans ?_
    unfold pageBytes
    cases p.slot <;> rfl
  · refine congrArg (Option.getD · []) (Sparse.find_putSome_other _ _ fun k _ v hv => ?_)
    obtain ⟨h, hk, hlen⟩ := pageDigest_some hv
    exact hj k h hk hlen

/-! ## Answers (R323-R325, R420) -/

/-- A drain goes on with its next item at once unless it has ended or comes to a page. -/
def drainGoes (s : State) : Bool :=
  match s.ckpt.drain with
  | none => false
  | some e => match e.next s with | some (.page _) => false | _ => true

theorem drainGoes_iff (s : State) :
    drainGoes s = true ↔ ¬ (s.ckpt.drain = none ∨ ∃ e q, s.ckpt.drain = some e ∧ e.next s = some (.page q)) := by
  unfold drainGoes
  cases s.ckpt.drain with
  | none => simp
  | some e =>
    cases hn : e.next s with
    | none => simp [hn]
    | some it => cases it <;> simp [hn]

theorem slice0_drainAnswers : Slice0.DrainAnswers := by
  unfold Slice0.DrainAnswers
  intro s
  rw [exec_freezeDrainAck]
  refine ⟨fun h => by rw [drainAck, h], fun d hd => ⟨fun h => ?_, fun it hi hl hb => ⟨fun ht => ?_, fun ht => ?_⟩, fun it hi hl hb => ?_⟩⟩
  · congr 2
    cases hi : d.item with
    | none => simp only [drainAck, hd, hi]
    | some it => simp only [drainAck, hd, hi, if_pos (h.resolve_left (by simp [hi]))]
  · simp only [drainAck, hd, hi, if_neg (not_not_intro hl), if_pos hb, if_neg (Nat.not_le.2 ht)]
  · simp only [drainAck, hd, hi, if_neg (not_not_intro hl), if_pos hb, if_pos ht, freezeFail]
    rfl
  · intro s1 paged
    have hack : drainAck s = candidate (if drainGoes s1 then drainSend s1 else s1) := by
      simp only [drainAck, hd, hi, if_neg (not_not_intro hl), if_neg (ne_true_of_eq_false hb)]
      rfl
    rw [hack]
    exact ⟨fun hp => by rw [if_neg fun hg => (drainGoes_iff s1).1 hg hp], fun hp => by rw [if_pos ((drainGoes_iff s1).2 hp)]⟩

/-- Settles O32, from the triggers, the table of descriptors, the order and the places of the items of a drain, their writes, what each leaves and
their answers. -/
theorem freeze : Obligations.Freeze :=
  ⟨slice0_freezeTriggers, slice0_descriptorTable, slice0_drainOrder, slice0_drainPlaces, slice0_drainSends, slice0_drainItems,
    slice0_drainAnswers⟩

end Sys2Proof.Machine
end

section
/-! # Comparison of checkpoint digests (O33; spec/14 R317, spec/19 R438) -/

namespace Sys2Proof.Machine

theorem exec_ckptCompare (owner : BitVec 16) (s : State) : exec (.ckptCompare owner) s = .next (compare owner.toNat s) := by rfl
theorem exec_ckptCompareTimeout (owner : BitVec 16) (s : State) :
    exec (.ckptCompareTimeout owner) s = .next (compareTimeout owner.toNat s) := by rfl

section
variable {s : State} {k : Nat} {c : Compare}

theorem compare_none (h : s.ckpt.compares.find? (fun c => decide (c.owner = k)) = none) : compare k s = s := by simp only [compare, h]

theorem compareTimeout_none (h : s.ckpt.compares.find? (fun c => decide (c.owner = k)) = none) : compareTimeout k s = s := by
  simp only [compareTimeout, h]

theorem compareTimeout_some (h : s.ckpt.compares.find? (fun c => decide (c.owner = k)) = some c) :
    compareTimeout k s = compareEnd c (some ((c.own.head?.map (·.1)).getD 0)) s := by simp only [compareTimeout, h]

theorem compare_same (h : s.ckpt.compares.find? (fun c => decide (c.owner = k)) = some c)
    (hsame : ∀ i p, c.own[i]? = some p → s.mem.bytes (s.fld F.CKPT_CMP_AREA + 64 * i) 64 = p.2) : compare k s = compareEnd c none s := by
  have hfind : (c.own.zip (List.range c.own.length)).find?
      (fun p => decide (s.mem.bytes (s.fld F.CKPT_CMP_AREA + 64 * p.2) 64 ≠ p.1.2)) = none := by
    refine List.find?_eq_none.2 fun p hp => ?_
    obtain ⟨i, hi⟩ := List.mem_iff_getElem?.1 hp
    obtain ⟨hown, hrange⟩ := List.getElem?_zip_eq_some.1 hi
    obtain ⟨_, he⟩ := List.getElem?_eq_some_iff.1 hrange
    rw [List.getElem_range] at he
    simpa [← he] using hsame i p.1 hown
  simp only [compare, h, hfind, Option.map_none]

/-- The comparison differs at the first tensor whose digest differs (R317). -/
theorem compare_first {i : Nat} {p : Nat × List Byte} (h : s.ckpt.compares.find? (fun c => decide (c.owner = k)) = some c)
    (hi : c.own[i]? = some p) (hdiff : s.mem.bytes (s.fld F.CKPT_CMP_AREA + 64 * i) 64 ≠ p.2)
    (hbefore : ∀ j r, j < i → c.own[j]? = some r → s.mem.bytes (s.fld F.CKPT_CMP_AREA + 64 * j) 64 = r.2) :
    compare k s = compareEnd c (some p.1) s := by
  obtain ⟨hlt, he⟩ := List.getElem?_eq_some_iff.1 hi
  have hfind : (c.own.zip (List.range c.own.length)).find?
      (fun p => decide (s.mem.bytes (s.fld F.CKPT_CMP_AREA + 64 * p.2) 64 ≠ p.1.2)) = some (p, i) := by
    refine List.find?_eq_some_iff_getElem.2 ⟨by simpa using hdiff, i, by simpa using hlt, by simp [he], fun j hj => ?_⟩
    simpa using hbefore j c.own[j] hj (List.getElem?_eq_getElem _)
  simp only [compare, h, hfind, Option.map_some]

end

/-- The result record goes to the Shadow of an owner index, where there is one (R317). -/
def tellShadow (owner : Nat) (told : Nat → State) (u : State) : State :=
  match u.shadowOf owner with
  | some node => told node
  | none => u

theorem tellShadow_none {owner : Nat} {told : Nat → State} {u : State} (h : u.shadowOf owner = none) : tellShadow owner told u = u := by
  simp only [tellShadow, h]

theorem tellShadow_some {owner node : Nat} {told : Nat → State} {u : State} (h : u.shadowOf owner = some node) :
    tellShadow owner told u = told node := by
  simp only [tellShadow, h]

/-- A comparison that is over no longer waits. -/
def State.compared (s : State) (owner : Nat) : State :=
  s.setCk { s.ckpt with compares := s.ckpt.compares.filter (fun x => decide (x.owner ≠ owner)) }

/-- A difference marks the Shadow diverged and leaves a Freeze of that step without a manifest. -/
def State.differs (s : State) (c : Compare) (t : Nat) : State :=
  let u := ((s.compared c.owner).diverge c.owner).raise EV.SHADOW_DIVERGE 0 0 (leBytes 2 c.owner ++ leBytes 8 t ++ leBytes 8 c.step)
  u.setDrain (u.ckpt.drain.map (fun (d : Drain) => if d.buddy = false ∧ d.step = c.step then { d with barren := true } else d))

theorem compareEnd_none (c : Compare) (s : State) :
    compareEnd c none s = tellShadow c.owner (fun node => (ckPuts 2 1 none (node * 2 ^ 42 + (s.compared c.owner).fld F.CKPT_CMP_AREA + 0x4000)
      (resultRecord c.owner false) (s.compared c.owner)).1) (s.compared c.owner) := by
  delta compareEnd tellShadow State.compared
  rfl

theorem compareEnd_some (c : Compare) (t : Nat) (s : State) :
    compareEnd c (some t) s = tellShadow c.owner (fun node => (ckPuts 2 1 none (node * 2 ^ 42 + (s.differs c t).fld F.CKPT_CMP_AREA + 0x4000)
      (resultRecord c.owner true) (s.differs c t)).1) (s.differs c t) := by
  delta compareEnd tellShadow State.differs State.compared
  simp only [Bool.not_eq_true']
  rfl

/-- Settles O33, from the first digest that differs and what a comparison ends with. -/
theorem comparison : Obligations.Comparison := by
  unfold Obligations.Comparison
  refine ⟨fun owner s h => ?_, fun owner s c h => ?_, fun c s => ?_⟩
  · rw [exec_ckptCompare, exec_ckptCompareTimeout, compare_none h, compareTimeout_none h]
    exact ⟨rfl, rfl⟩
  · intro theirs
    rw [exec_ckptCompare, exec_ckptCompareTimeout, compareTimeout_some h]
    refine ⟨fun hs => by rw [compare_same h hs], fun i p hi hd hb => by rw [compare_first h hi hd hb], fun hn => by rw [hn]; rfl,
      fun t b l hl => by rw [hl]; rfl⟩
  · rw [compareEnd_none]
    simp only [compareEnd_some]
    exact ⟨tellShadow_none, fun node => tellShadow_some, fun t => tellShadow_none, fun t node => tellShadow_some⟩

end Sys2Proof.Machine
end

section
/-! # Promotion, adoption, scan and restore (O34; spec/14 R306, R319, R331, R334, R335; spec/19 R438) -/

namespace Sys2Proof.Machine

theorem exec_ckptPromote (v : W64) (answer : List Byte) (s : State) :
    exec (.ckptPromote v answer) s = .next (promote (fieldOf v 0 16) answer s) := by rfl
theorem exec_ckptAdopt (v : W64) (answer : List Byte) (s : State) : exec (.ckptAdopt v answer) s = .next (adopt v.toNat answer s) := by rfl
theorem exec_ckptScan (v : W64) (slots : List (List Byte)) (s : State) : exec (.ckptScan v slots) s =
    .next (if v.getLsbD 1 then (List.range (Nat.min 8 (s.fld F.CKPT_POOL_keep))).foldl (fun st j => scanSlot j (slots.getD j []) st) s else s) := by
  rfl
theorem exec_ckptLoad (v : W64) (slot shadow : List Byte) (s : State) :
    exec (.ckptLoad v slot shadow) s = .next (ckptLoad (fieldOf v 0 32) slot shadow s) := by rfl

/-! ## What a slot holds (R331, R438) -/

theorem slotRead_of {s : State} {node addr len : Nat} {answer : List Byte} {got : Option (List Byte)}
    (h : Slice0.SlotRead s node addr len answer got) : slotRead node addr len answer s = got := by
  rw [slotRead]
  rcases h with ⟨hself, rfl⟩ | ⟨hself, ⟨code, hroute⟩, rfl⟩ | ⟨hself, hroute, rfl⟩
  · rw [if_pos hself]
  · rw [if_neg (ne_true_of_eq_false hself), hroute]
  · rw [if_neg (ne_true_of_eq_false hself)]
    split
    · next code hc => exact absurd hc (hroute code)
    · rfl

/-! ## Promotion (R319) -/

/-- The Freeze-method tensors of an owner that this engine holds as its Shadow, with their numbers. -/
def State.frozenOf (s : State) (k : Nat) : List (Nat × CDesc) :=
  ((List.range s.ckpt.descs.length).zip s.ckpt.descs).filter (fun p => p.2.held && decide (p.2.owner = k) && p.2.freeze)

/-- The shard of a tensor in a slot, where it passes its check. -/
def goodShard (slot : List Byte) (d : CDesc) : Option MEnt :=
  (entriesOf slot).find? (fun e => decide (e.kind = 0 ∧ e.tid = d.tid ∧ e.bytes = d.bytes) && shardOk slot e d.base)

/-- What a promotion that is granted leaves, before its event. -/
def State.promoted (s : State) (k : Nat) (slot : List Byte) : State :=
  let s1 := s.setCk { s.ckpt with descs := s.ckpt.descs.map (fun (d : CDesc) => if d.held && decide (d.owner = k) then { d with held := false } else d) }
  let s2 := (s.frozenOf k).foldl (fun st p => match goodShard slot p.2 with
    | some e => st.store p.2.base (shardData slot e)
    | none => (st.undefAt p.2.base p.2.bytes).setFld F.CKPT_STS_code E.CKPT_DIGEST) (showOwner (some k) s1)
  s2.setReg F.CKPT_EXPOSE_STS_start.addr s.now

/-- Whether a promotion is refused (R319). -/
def State.promoteRefused (s : State) (k : Nat) : Bool :=
  !s.net.gone.contains (s.ownerNodes k).1 || s.diverged k || (s.frozenOf k).any (fun p =>
    decide (s.reg (F.CKPT_OWNER_CLEAN_clean p.1).addr ≠ BitVec.ofNat 64 (2 ^ 32 + s.fld F.CKPT_CTL_promote_freeze)))

theorem promote_eq {s : State} {answer slot : List Byte} (h : promoteSlot answer s = slot) (k : Nat) : promote k answer s =
    if s.promoteRefused k then s.setFld F.CKPT_STS_code E.CKPT_PROMOTE
    else if (s.frozenOf k).all (fun p => (goodShard slot p.2).isSome) then (s.promoted k slot).raise EV.PROMOTED 0 0 (leBytes 2 k)
    else s.promoted k slot := by
  have hfrozen : (((List.range s.ckpt.descs.length).zip s.ckpt.descs).filter (fun p => p.2.held && decide (p.2.owner = k))).filter
      (fun p => p.2.freeze) = s.frozenOf k := by
    rw [List.filter_filter]
    exact List.filter_congr fun p _ => Bool.and_comm _ _
  unfold promote
  rw [h]
  dsimp only
  rw [hfrozen]
  rfl

theorem State.promoteRefused_iff (s : State) (k : Nat) : s.promoteRefused k = true ↔
    s.net.gone.contains (s.ownerNodes k).1 = false ∨ s.diverged k = true ∨ ∃ p ∈ s.frozenOf k,
      s.reg (F.CKPT_OWNER_CLEAN_clean p.1).addr ≠ BitVec.ofNat 64 (2 ^ 32 + s.fld F.CKPT_CTL_promote_freeze) := by
  simp only [State.promoteRefused, Bool.or_eq_true, Bool.not_eq_true', List.any_eq_true, decide_eq_true_eq, or_assoc]

theorem promote_refused {s : State} {k : Nat} (h : s.promoteRefused k = true) (answer : List Byte) :
    promote k answer s = s.setFld F.CKPT_STS_code E.CKPT_PROMOTE := by rw [promote_eq rfl, if_pos h]

theorem promote_whole {s : State} {k : Nat} {answer slot : List Byte} (hslot : promoteSlot answer s = slot) (h : ¬ s.promoteRefused k = true)
    (hall : ∀ p ∈ s.frozenOf k, goodShard slot p.2 ≠ none) :
    promote k answer s = (s.promoted k slot).raise EV.PROMOTED 0 0 (leBytes 2 k) := by
  rw [promote_eq hslot, if_neg h, if_pos (List.all_eq_true.2 fun p hp => Option.isSome_iff_ne_none.2 (hall p hp))]

theorem promote_broken {s : State} {k : Nat} {answer slot : List Byte} (hslot : promoteSlot answer s = slot) (h : ¬ s.promoteRefused k = true)
    (hex : ∃ p ∈ s.frozenOf k, goodShard slot p.2 = none) : promote k answer s = s.promoted k slot := by
  obtain ⟨p, hp, hnone⟩ := hex
  rw [promote_eq hslot, if_neg h, if_neg fun hall => Option.isSome_iff_ne_none.1 (List.all_eq_true.1 hall p hp) hnone]

theorem slice0_promotion : Slice0.Promotion := by
  unfold Slice0.Promotion
  intro v answer got s k f bytes a hread slot frozen dirty shard refused s1 s2 s3
  have hslot : promoteSlot answer s = slot := congrArg (Option.getD · []) (slotRead_of hread)
  have hrefused : s.promoteRefused k = true ↔ refused := s.promoteRefused_iff k
  rw [exec_ckptPromote]
  exact ⟨fun h => congrArg _ (promote_refused (hrefused.2 h) answer),
    fun h hall => congrArg _ (promote_whole hslot (fun hr => h (hrefused.1 hr)) hall),
    fun h hex => congrArg _ (promote_broken hslot (fun hr => h (hrefused.1 hr)) hex)⟩

/-! ## The owner shown (R306) -/

theorem leBytes_leNat {n : Nat} {b : List Byte} (h : b.length = n) : leBytes n (leNat b) = b := by
  induction b generalizing n with
  | nil => subst h; rfl
  | cons x xs ih =>
    subst h
    have hx : BitVec.ofNat 8 (x.toNat + 256 * leNat xs) = x := BitVec.eq_of_toNat_eq (by
      have := x.isLt
      rw [BitVec.toNat_ofNat]
      omega)
    have hxs : (x.toNat + 256 * leNat xs) / 256 = leNat xs := by have := x.isLt; omega
    rw [List.length_cons, leNat, leBytes, hx, hxs, ih rfl]

theorem leNat_lt (b : List Byte) : leNat b < 2 ^ (8 * b.length) := by
  induction b with
  | nil => simp [leNat]
  | cons x xs ih =>
    have hx := x.isLt
    rw [leNat, List.length_cons, Nat.mul_add, Nat.pow_add]
    omega

/-- The words of whole groups of eight bytes give the bytes back. -/
theorem flatMap_wordsOf (n : Nat) : ∀ bs : List Byte, bs.length = 8 * n →
    (wordsOf bs).flatMap (fun x => leBytes 8 x.toNat) = bs := by
  induction n with
  | zero => intro bs h; simp [wordsOf, List.length_eq_zero_iff.1 h, pieces]
  | succ n ih =>
    intro bs h
    have htake : (bs.take 8).length = 8 := by rw [List.length_take]; omega
    have hdrop : (bs.drop 8).length = 8 * n := by rw [List.length_drop]; omega
    have hwords : wordsOf bs = BitVec.ofNat 64 (leNat (bs.take 8)) :: wordsOf (bs.drop 8) := by
      rw [wordsOf, wordsOf, hdrop, h, Nat.mul_div_cancel_left _ (by decide), Nat.mul_div_cancel_left _ (by decide)]
      rfl
    have hword : (BitVec.ofNat 64 (leNat (bs.take 8))).toNat = leNat (bs.take 8) := by
      have hlt := leNat_lt (bs.take 8)
      rw [htake] at hlt
      exact Nat.mod_eq_of_lt hlt
    rw [hwords, List.flatMap_cons, hword, leBytes_leNat htake, ih _ hdrop, List.take_append_drop]

/-- The words of the owners shown lie apart from the digest of the shard map and the owner index. -/
theorem reg_showOwner {a : Nat} (h : a ≤ 0x30008000088) (k : Option Nat) (s : State) : (showOwner k s).reg a =
    (((s.setGroup F.CKPT_STS_map_digest_w1.addr (wordsOf (mapDigest s k))).setFld F.CKPT_STS_owner_index (k.getD 0)).setFlag
      F.CKPT_STS_owner_valid k.isSome).reg a := by
  have hne : ∀ i, a ≠ (F.CKPT_SHADOW_STS_owner i).addr := fun i => by simp only; omega
  refine foldl_keeps (State.reg · a) (fun st i => ?_) _ _
  split
  · next o held _ =>
    exact (State.reg_setFld_ne _ (F.CKPT_SHADOW_STS_valid i) _ _ (hne i)).trans
      ((State.reg_setFld_ne _ (F.CKPT_SHADOW_STS_role i) _ _ (hne i)).trans (State.reg_setFld_ne _ (F.CKPT_SHADOW_STS_owner i) _ _ (hne i)))
  · exact (State.reg_setReg ..).trans (if_neg (hne i))

theorem mapDigest_some (s : State) (k : Nat) : mapDigest s (some k) =
    sha512 ((s.ckpt.descs.filter (fun d => !d.held && decide (d.owner = k))).flatMap (fun d => leBytes 8 d.tid ++ leBytes 8 d.bytes
      ++ leBytes 2 d.owner ++ leBytes 1 (if d.freeze then 1 else 0) ++ List.replicate 5 0)) := by
  have hsnd : s.ckpt.descs = ((List.range s.ckpt.descs.length).zip s.ckpt.descs).map Prod.snd :=
    (List.map_snd_zip (by rw [List.length_range])).symm
  rw [mapDigest, State.owned, List.filter_filter]
  conv_rhs => rw [hsnd, List.filter_map, List.flatMap_map]
  congr 2
  refine List.filter_congr fun p _ => ?_
  simp only [Option.some.injEq, Function.comp_apply]
  exact Bool.and_comm _ _

theorem slice0_ownerShown : Slice0.OwnerShown := by
  unfold Slice0.OwnerShown
  intro s k hk mine dig
  have hword : ∀ k, (showOwner k s).reg F.CKPT_STS_owner_index.addr = _ := fun k => reg_showOwner (by decide) k s
  refine ⟨?_, ?_, ?_, ?_⟩
  · rw [State.fld_congr (hword _), State.setFlag, State.fld_setFld_bits _ _ _ _ (by decide), State.fld_setFld _ _ _ (by decide)]
    exact Nat.mod_eq_of_lt hk
  · rw [State.flag_congr (f := F.CKPT_STS_owner_valid) (hword _), State.flag_setFlag _ _ _ (by decide) (by decide)]
    rfl
  · have hlen : (wordsOf (mapDigest s (some k))).length = 8 := by rw [length_wordsOf, mapDigest, length_sha512]
    have hgroup : (showOwner (some k) s).group F.CKPT_STS_map_digest_w1.addr 8 =
        (s.setGroup F.CKPT_STS_map_digest_w1.addr (wordsOf (mapDigest s (some k)))).group F.CKPT_STS_map_digest_w1.addr 8 := by
      refine List.map_congr_left fun i hi => ?_
      have hi := List.mem_range.1 hi
      rw [reg_showOwner (by simp only; omega), State.setFlag, State.reg_setFld_ne _ _ _ _ (by simp only; omega),
        State.reg_setFld_ne _ _ _ _ (by simp only; omega)]
    have hback := State.group_setGroup s F.CKPT_STS_map_digest_w1.addr (wordsOf (mapDigest s (some k)))
    rw [hlen] at hback
    rw [State.groupBytes, hgroup, hback, flatMap_wordsOf 8 _ (by rw [mapDigest, length_sha512]), mapDigest_some]
  · rw [State.flag_congr (f := F.CKPT_STS_owner_valid) (hword _), State.flag_setFlag _ _ _ (by decide) (by decide)]
    rfl

/-! ## Adoption (R331) -/

theorem slice0_adoption : Slice0.Adoption := by
  unfold Slice0.Adoption
  intro v answer got s bytes a hread
  have hslot : adoptSlot v.toNat answer s = got := slotRead_of hread
  rw [exec_ckptAdopt, adopt, hslot]
  refine ⟨fun h => by rw [h], fun slot h => ?_⟩
  subst h
  refine ⟨fun hgood => ?_, fun hbad => ?_, restored_phase _⟩
  · exact congrArg _ (if_neg fun h => h.elim (fun h => h hgood.1) (fun h => h hgood.2))
  · exact congrArg _ (if_pos (not_and_or.1 hbad))

/-! ## Scan (R334) -/

theorem scanSlot_eq (j : Nat) (b : List Byte) (s : State) : scanSlot j b s = Slice0.scanned j b s := by
  unfold scanSlot Slice0.scanned
  dsimp only
  generalize (entriesOf b).find? (fun e => !headerOk b e) = bad
  cases hasManifest b with
  | false => cases bad <;> rfl
  | true =>
    cases signedOk s b with
    | false => cases bad <;> rfl
    | true =>
      cases bad with
      | some e => rfl
      | none => cases shapeOk s b <;> rfl

theorem slice0_poolScan : Slice0.PoolScan := by
  unfold Slice0.PoolScan
  intro v slots s
  rw [exec_ckptScan]
  refine ⟨fun h => by rw [if_neg (ne_true_of_eq_false h)], fun h => ?_⟩
  rw [if_pos h]
  simp only [scanSlot_eq]

/-! ## Load (R335) -/

theorem filterMap_ite_none {α β : Type} (p : α → Bool) (g : α → β) (l : List α) :
    l.filterMap (fun a => if p a then none else some (g a)) = (l.filter (fun a => !p a)).map g := by
  induction l with
  | nil => rfl
  | cons a l ih => cases hp : p a <;> simp [hp, ih]

section
variable (s : State) (slot shadow : List Byte)

/-- The tensors that a load restores: all but the Freeze-method tensors held as a Shadow. -/
def State.restorable : List CDesc := s.ckpt.descs.filter (fun d => !(d.held && d.freeze))

/-- Where the shard of a tensor comes from, and its entry there. -/
def restoreArea (d : CDesc) : List Byte := if d.held then shadow else slot
def restoreEntry (d : CDesc) : Option MEnt :=
  (entriesOf (restoreArea slot shadow d)).find? (fun e => decide (e.kind = 0 ∧ e.tid = d.tid ∧ e.bytes = d.bytes))

/-- Every tensor that a load restores has a shard that passes its check. -/
def State.RestoreWhole : Prop :=
  ∀ d ∈ s.restorable, ∃ e, restoreEntry slot shadow d = some e ∧ shardOk (restoreArea slot shadow d) e d.base = true

theorem restoreList_eq : restoreList s slot shadow =
    s.restorable.map (fun d => (restoreEntry slot shadow d).map (fun e => (d, e, restoreArea slot shadow d))) :=
  filterMap_ite_none (fun (d : CDesc) => d.held && d.freeze) _ _

theorem restoreList_good : (restoreList s slot shadow).all (fun x => x.any (fun y => shardOk y.2.2 y.2.1 y.1.base)) = true
    ↔ s.RestoreWhole slot shadow := by
  rw [restoreList_eq, List.all_map, List.all_eq_true]
  refine forall₂_congr fun d _ => ?_
  cases he : restoreEntry slot shadow d <;> simp [he]

theorem foldl_restoreList {σ : Type} (f : σ → CDesc → MEnt → List Byte → σ) (u : σ) :
    ((restoreList s slot shadow).filterMap id).foldl (fun st y => f st y.1 y.2.1 y.2.2) u
    = s.restorable.foldl (fun st d => match restoreEntry slot shadow d with
      | some e => f st d e (restoreArea slot shadow d)
      | none => st) u := by
  rw [restoreList_eq, List.filterMap_map, List.foldl_filterMap]
  refine congrFun (congrFun (congrArg List.foldl (funext₂ fun st d => ?_)) u) _
  simp only [Function.comp_apply, id]
  cases restoreEntry slot shadow d <;> rfl

end

theorem slice0_restore : Slice0.Restore := by
  unfold Slice0.Restore
  intro v slot shadow s f j known result mine area entry whole step member
  rw [exec_ckptLoad]
  have hknown : ¬ known ↔ s.fld (F.CKPT_SCAN_RES_freeze_id j) ≠ f ∨ s.fld (F.CKPT_SCAN_RES_code j) ≠ 0 ∨ !hasManifest slot := by
    simp only [known, not_and_or, Bool.not_eq_true, Bool.not_eq_true']
  refine ⟨fun h => congrArg _ (if_pos h), fun h => ⟨fun hk => ?_, fun hk hs => ?_, fun m hk hs hw hm hb ho => ?_, fun hk hs hw => ?_⟩⟩
  · rw [ckptLoad, if_neg (not_not_intro h), if_pos (hknown.1 hk)]
    rfl
  · rw [ckptLoad, if_neg (not_not_intro h), if_neg fun hn => hknown.2 hn hk, if_pos (by rw [hs]; rfl)]
    rfl
  · have hgood : (restoreList s slot shadow).all (fun x => x.any (fun y => shardOk y.2.2 y.2.1 y.1.base))
        && (some m).any (fun e => decide (e.bytes = s.memberLen) && shardOk slot e (s.baseSlot step)) := by
      rw [(restoreList_good s slot shadow).2 hw, Option.any_some, hb, ho]
      simp
    have hstore := foldl_restoreList s slot shadow (fun st d e b => st.store d.base (shardData b e)) s
    have hm : (entriesOf slot).find? (fun e => decide (e.kind = 1)) = some m := hm
    rw [ckptLoad, if_neg (not_not_intro h), if_neg fun hn => hknown.2 hn hk, if_neg (by rw [hs]; decide)]
    dsimp only
    rw [hm, if_pos hgood, hstore]
    rfl
  · have hbad : ¬ ((restoreList s slot shadow).all (fun x => x.any (fun y => shardOk y.2.2 y.2.1 y.1.base))
        && member.any (fun e => decide (e.bytes = s.memberLen) && shardOk slot e (s.baseSlot step))) = true := fun hg => by
      obtain ⟨hall, hmem⟩ := Bool.and_eq_true_iff.1 hg
      obtain ⟨m, hm, hok⟩ := (Option.any_eq_true ..).1 hmem
      obtain ⟨hb, ho⟩ := Bool.and_eq_true_iff.1 hok
      exact hw ⟨(restoreList_good s slot shadow).1 hall, m, hm, of_decide_eq_true hb, ho⟩
    rw [ckptLoad, if_neg (not_not_intro h), if_neg fun hn => hknown.2 hn hk, if_neg (by rw [hs]; decide)]
    exact congrArg _ (if_neg hbad)

/-- Settles O34, from promotion and the owner it shows, adoption, the scan of the pool, and the load of a Freeze. -/
theorem restoreCommands : Obligations.RestoreCommands :=
  ⟨slice0_promotion, slice0_ownerShown, slice0_adoption, slice0_poolScan, slice0_restore⟩

end Sys2Proof.Machine
end

section
/-! # Power states of sites (O35; spec/15 R339-R341, spec/16 R368, spec/02 R22) -/

namespace Sys2Proof.Machine

theorem exec_siteToOff (site : BitVec 10) (s : State) : exec (.siteToOff site) s = .next (siteToOff site.toNat s) := by rfl
theorem exec_siteToRet (site : BitVec 10) (s : State) : exec (.siteToRet site) s = .next (siteToRet site.toNat s) := by rfl
theorem exec_siteToIdle (site : BitVec 10) (s : State) : exec (.siteToIdle site) s = .next (siteToIdle site.toNat s) := by rfl
theorem exec_sitePowerTransitionDone (site : BitVec 10) (s : State) :
    exec (.sitePowerTransitionDone site) s = .next (transitionDone site.toNat s) := by rfl
theorem exec_idleTimeout (site : BitVec 10) (s : State) : exec (.idleTimeout site) s = .next (idleTimeout site.toNat s) := by rfl

/-! ## What the undefined results of a stopped core leave as it was

An observation that neither memory, accumulators nor a page copied ahead can change survives the stop of a core. -/

section
variable {β : Type} (g : State → β)
  (hmem : ∀ (s : State) (m : Mem) (k : Nat), g { s with mem := m, free := k } = g s)
  (hcopied : ∀ (s : State) (m : Mem) (c : Ckpt), g ((({ s with mem := m } : State).setCk c).bump F.CKPT_CA_CNT) = g s)

include hmem in
theorem State.lundef_keeps (s : State) (n space off len : Nat) : g (s.lundef n space off len) = g s := hmem s _ _

include hmem hcopied

theorem State.undefAt_keeps (s : State) (a n : Nat) : g (s.undefAt a n) = g s :=
  (hmem ((s.heldPages a n).foldl (fun st q => copyAhead q st) s) _ _).trans
    (foldl_keeps g (fun t _ => copyAhead_induction (P := fun u => g u = g t) rfl (hcopied t)) _ s)

theorem undefVirt_keeps (n fuel va len : Nat) (s : State) : g (undefVirt n fuel va len s) = g s := by
  induction fuel generalizing va len s with
  | zero => rfl
  | succ fuel ih =>
    rw [undefVirt]
    split
    · rfl
    · rw [ih]
      split
      · split
        · exact State.undefAt_keeps g hmem hcopied ..
        · rfl
      · rfl

theorem undefList_keeps (n : Nat) (l : XList) (s : State) : g (undefList n l s) = g s := by
  unfold undefList
  split
  · rfl
  · refine foldl_keeps g (fun t i => ?_) _ s
    split
    · rfl
    · refine foldl_keeps g (fun u r => ?_) _ t
      dsimp only
      split
      · split
        · exact State.lundef_keeps g hmem ..
        · rfl
      · exact undefVirt_keeps g hmem hcopied ..

variable (hacc : ∀ (s : State) (a : Sparse (Sparse AccCell)) (k : Nat), g { s with acc := a, accGen := k } = g s)
include hacc

omit hcopied in
theorem undefCmd_keeps (n arr : Nat) (x : UCmd) (s : State) : g (undefCmd n arr x s) = g s := by
  unfold undefCmd
  rw [undefDests_keeps g (State.lundef_keeps g hmem)]
  split
  · exact foldl_keeps (f := fun (t : State) p => t.accUndef n arr p) g (fun _ _ => hacc ..) _ s
  · rfl

omit hcopied in
theorem undefGate_keeps (s : State) (n : Nat) (q : Gate) : g (undefGate s n q) = g s := by
  unfold undefGate
  dsimp only
  rw [undefDests_keeps g (State.lundef_keeps g hmem)]
  split
  · exact hacc ..
  · exact hacc ..
  · rfl

theorem undefStarted_keeps (n : Nat) (s : State) : g (undefStarted n s) = g s := by
  unfold undefStarted
  extract_lets c one s1 s2 s3
  have h1 : g s1 = g s := foldl_keeps g (fun t p => by
    unfold one
    split
    · split
      · rfl
      · exact undefCmd_keeps g hmem hacc ..
    · rfl) _ s
  have h2 : g s2 = g s1 := foldl_keeps g (fun t ch => foldl_keeps g (fun u q => undefGate_keeps g hmem hacc u n q) _ t) _ s1
  have h3 : g s3 = g s2 := foldl_keeps g (fun t p => by
    split
    · exact undefList_keeps g hmem hcopied ..
    · rfl) _ s2
  refine (foldl_keeps g (fun t p => ?_) _ s3).trans (h3.trans (h2.trans h1))
  split
  · exact State.lundef_keeps g hmem ..
  · exact State.lundef_keeps g hmem ..
  · exact undefVirt_keeps g hmem hcopied ..
  · exact undefVirt_keeps g hmem hcopied ..

end

/-- The stop of a core counts pages copied ahead and changes no other register. -/
theorem reg_coreStop {a : Nat} (hevt : a ∉ evtWords) (hca : a ≠ F.CKPT_CA_CNT.addr) (hca8 : a ≠ F.CKPT_CA_CNT.addr + 8) (n : Nat) (s : State) :
    (coreStop n s).reg a = s.reg a :=
  undefStarted_keeps (State.reg · a) (fun _ _ _ => rfl) (fun _ _ _ => reg_bumpBy _ _ 1 a hevt hca hca8) (fun _ _ _ => rfl) n s

/-! ## OFF (R339) -/

/-- A core whose site has lost its power, once its registers are gone. -/
def coreOff (n : Nat) (s : State) : State :=
  let t := coreRegsLost n (coreMemLost n (coreStop n s))
  t.setCore n (t.core n).cold

theorem coreOff_core (n : Nat) (s : State) : (coreOff n s).core n = (s.core n).halted.cold := by
  have h : (coreRegsLost n (coreMemLost n (coreStop n s))).core n = (s.core n).halted := (coreStop_core n n s).trans (if_pos rfl)
  rw [coreOff, State.core_setCore, if_pos rfl, h]

theorem Core.cold_halted_ctx (c : Core) (k : Nat) : c.halted.cold.ctx k = { inc := (c.ctx k).inc } := by
  have hctxs : c.halted.cold.ctxs = c.ctxs.map (fun p => (p.1, ({ inc := p.2.inc } : Ctx))) := by
    simp only [Core.cold, Core.halted, List.map_map]
    rfl
  rw [Core.ctx, Core.ctx, Sparse.get, Sparse.get, hctxs]
  refine (congrArg (Option.getD · {}) (Sparse.find_map c.ctxs (fun x => ({ inc := x.inc } : Ctx)) k)).trans ?_
  cases Sparse.find c.ctxs k <;> rfl

/-- A register of the core is at reset, whatever it was (log 171). -/
theorem reg_coreRegsLost_reset {n a : Nat} (h : coreRegAt n a = true) (s : State) : (coreRegsLost n s).reg a = resetWord a := by
  have hfind : ∀ m : Sparse W64, Sparse.find (m.filter (fun p => !coreRegAt n p.1)) a = none := fun m => by
    induction m with
    | nil => rfl
    | cons p m ih =>
      rw [List.filter_cons]
      split
      · next hp =>
        have hne : a ≠ p.1 := fun he => by simp [← he, h] at hp
        exact (if_neg hne).trans ih
      · exact ih
  rw [State.reg, coreRegsLost, hfind, Option.getD_none]

theorem State.fld_lt (s : State) (f : Fld) : s.fld f < 2 ^ f.w := BitVec.isLt _

theorem State.coreAt_lt {s : State} {p n : Nat} (h : s.coreAt p = some n) : n < 1024 := by
  unfold State.coreAt at h
  split at h
  · exact Option.some.inj h ▸ s.fld_lt (F.CORE_MAP_SITE_STATE_core p)
  · simp at h

theorem State.coreAt_congr {s t : State} {p : Nat} (h : t.reg (F.CORE_MAP_SITE_STATE_core p).addr = s.reg (F.CORE_MAP_SITE_STATE_core p).addr) :
    t.coreAt p = s.coreAt p := by
  rw [State.coreAt, State.coreAt, State.siteState, State.siteState, State.fld_congr (f := F.CORE_MAP_SITE_STATE_state p) h,
    State.fld_congr (f := F.CORE_MAP_SITE_STATE_core p) h]

theorem coreRegAt_device {n a : Nat} (hn : n < 1024) (ha : 0x30000000000 ≤ a) : coreRegAt n a = false := by
  unfold coreRegAt
  exact decide_eq_false (by omega)

theorem reg_coreOff {n a : Nat} (hn : n < 1024) (ha : quietWord a) (s : State) : (coreOff n s).reg a = s.reg a :=
  (State.reg_coreRegsLost (coreRegAt_device hn ha.1)).trans (reg_coreStop ha.2.1 ha.2.2.1 ha.2.2.2 n s)

/-- What a site that goes OFF takes of the core that it carries. -/
def siteCoreOff (p : Nat) (s : State) : State :=
  match s.coreAt p with
  | some n => if s.sitePower p = 0 then s else coreOff n s
  | none => s

theorem siteOff_eq (p : Nat) (s : State) : siteOff p s = sitePut p 0 { siteCoreOff p s with
    trans := Sparse.drop (siteCoreOff p s).trans p, miss := Sparse.drop (siteCoreOff p s).miss p
    kickWait := (siteCoreOff p s).kickWait.filter (fun q => decide (q ≠ p)) } := rfl

theorem siteCoreOff_of_on {p n : Nat} {s : State} (hc : s.coreAt p = some n) (hp : s.sitePower p ≠ 0) : siteCoreOff p s = coreOff n s := by
  rw [siteCoreOff, hc]
  exact if_neg hp

theorem reg_siteCoreOff {a : Nat} (ha : quietWord a) (p : Nat) (s : State) : (siteCoreOff p s).reg a = s.reg a := by
  unfold siteCoreOff
  split
  · next n hn =>
    split
    · rfl
    · exact reg_coreOff (State.coreAt_lt hn) ha s
  · rfl

theorem reg_siteOff {a p : Nat} (ha : quietWord a) (hne : a ≠ (F.PWR_SITE_STS_state p).addr) (s : State) : (siteOff p s).reg a = s.reg a := by
  rw [siteOff_eq, State.reg_sitePut_ne hne]
  exact reg_siteCoreOff ha p s

theorem sitePower_siteOff (p : Nat) (s : State) : (siteOff p s).sitePower p = 0 := by
  rw [siteOff_eq, State.sitePower_sitePut]

theorem isolated_siteOff (p : Nat) (s : State) : (siteOff p s).fld (F.PWR_SITE_STS_isolated p) = 1 := by
  rw [siteOff_eq, sitePut, State.setFlag, State.fld_setFld _ _ _ (by simp only; omega)]
  rfl

theorem trans_siteOff (p : Nat) (s : State) : Sparse.find (siteOff p s).trans p = none :=
  (Sparse.find_drop ..).trans (if_pos rfl)

theorem core_siteOff {p n : Nat} {s : State} (hc : s.coreAt p = some n) (hp : s.sitePower p ≠ 0) :
    (siteOff p s).core n = (s.core n).halted.cold := by
  rw [siteOff_eq, siteCoreOff_of_on hc hp]
  exact coreOff_core n s

theorem reg_siteOff_core {p n a : Nat} {s : State} (hc : s.coreAt p = some n) (hp : s.sitePower p ≠ 0) (ha : coreRegAt n a = true) :
    (siteOff p s).reg a = resetWord a := by
  have hne : a ≠ (F.PWR_SITE_STS_state p).addr := fun he => by
    rw [he, coreRegAt_device (State.coreAt_lt hc) (by simp only; omega)] at ha
    exact Bool.false_ne_true ha
  rw [siteOff_eq, State.reg_sitePut_ne hne, siteCoreOff_of_on hc hp]
  exact reg_coreRegsLost_reset ha _

/-- The control word of a site lies apart from its status and its place in the core map. -/
theorem siteCtl_quiet {p : Nat} (hp : p < 1024) : quietWord (F.PWR_SITE_CTL_state p).addr := by
  simp only [quietWord, evtWords, List.mem_cons, List.not_mem_nil, or_false]
  omega

/-! ## RET and IDLE (R339, R341) -/

section
variable {s : State} {p : Nat}

theorem siteToRet_refused (hk : s.siteKept p = true)
    (h : s.sitePower p ≠ 2 ∨ Sparse.find s.trans p ≠ none ∨ ∃ n, s.coreAt p = some n ∧ (s.core n).keepsRet = true) :
    siteToRet p s = s.setFld (F.PWR_SITE_STS_code p) E.SITE_STATE := by
  rw [siteToRet, hk, if_neg (by decide), if_pos]
  rwa [Option.isSome_iff_ne_none, Option.any_eq_true]

theorem siteToRet_begins (hk : s.siteKept p = true)
    (h : ¬ (s.sitePower p ≠ 2 ∨ Sparse.find s.trans p ≠ none ∨ ∃ n, s.coreAt p = some n ∧ (s.core n).keepsRet = true)) :
    siteToRet p s = { s.setFld (F.PWR_SITE_CTL_state p) 1 with trans := Sparse.put s.trans p 1 } := by
  rw [siteToRet, hk, if_neg (by decide), if_neg]
  · rfl
  · rwa [Option.isSome_iff_ne_none, Option.any_eq_true]

end

/-- Whether a write of IDLE makes a site leave its state (R341; log 141). -/
def State.LeavesToIdle (s : State) (p : Nat) : Prop :=
  (s.sitePower p = 0 ∧ s.pwr.off = false ∧ ∃ n, s.coreAt p = some n ∧ n ∉ s.dead) ∨ s.sitePower p = 1
    ∨ (2 ≤ s.sitePower p ∧ Sparse.find s.trans p = some 1)

theorem siteToIdle_fits (s : State) (p : Nat) : (match s.sitePower p with
    | 0 => !s.pwr.off && (s.coreAt p).any (fun n => !s.dead.contains n)
    | 1 => true
    | _ => decide (Sparse.find s.trans p = some 1)) = true ↔ s.LeavesToIdle p := by
  unfold State.LeavesToIdle
  split
  · next h => simp [h, Option.any_eq_true]
  · next h => simp [h]
  · next h0 h1 =>
    have h0 : s.sitePower p ≠ 0 := h0
    have h1 : s.sitePower p ≠ 1 := h1
    have h2 : 2 ≤ s.sitePower p := by omega
    simp [h0, h1, h2]

open Classical in
theorem siteToIdle_eq {s : State} {p : Nat} (hk : s.siteKept p = true) : siteToIdle p s =
    if s.LeavesToIdle p then { s.setFld (F.PWR_SITE_CTL_state p) 2 with trans := Sparse.put s.trans p 2 } else s.setFld (F.PWR_SITE_CTL_state p) 2 := by
  have hpower : (s.setFld (F.PWR_SITE_CTL_state p) 2).sitePower p = s.sitePower p := State.fld_setFld_addr _ _ _ _ (by simp only; omega)
  have hcore : (s.setFld (F.PWR_SITE_CTL_state p) 2).coreAt p = s.coreAt p :=
    State.coreAt_congr (State.reg_setFld_ne _ _ _ _ (by simp only; omega))
  have hleaves : (s.setFld (F.PWR_SITE_CTL_state p) 2).LeavesToIdle p ↔ s.LeavesToIdle p := by
    unfold State.LeavesToIdle
    rw [hpower, hcore]
    exact Iff.rfl
  rw [siteToIdle, hk, if_neg (by decide)]
  exact if_congr ((siteToIdle_fits _ p).trans hleaves) rfl rfl

theorem slice0_siteWrites : Slice0.SiteWrites := by
  unfold Slice0.SiteWrites
  intro site s p busy s2 leaves
  have hp : p < 1024 := site.isLt
  rw [exec_siteToRet, exec_siteToIdle]
  refine ⟨fun hk => ?_, fun hk => ⟨⟨_, exec_siteToOff site s, ?_⟩, fun h => congrArg _ (siteToRet_refused hk h),
    fun h => congrArg _ (siteToRet_begins hk h), fun h => ?_, fun h => ?_⟩⟩
  · rw [exec_siteToOff, siteToOff, siteToRet, siteToIdle, hk]
    exact ⟨rfl, rfl, rfl⟩
  · let s0 := s.setFld (F.PWR_SITE_CTL_state p) 0
    have hpower : s0.sitePower p = s.sitePower p := State.fld_setFld_addr _ _ _ _ (by simp only; omega)
    have hcore : s0.coreAt p = s.coreAt p := State.coreAt_congr (State.reg_setFld_ne _ _ _ _ (by simp only; omega))
    have hctl : (siteOff p s0).fld (F.PWR_SITE_CTL_state p) = 0 := by
      rw [State.fld_congr (reg_siteOff (siteCtl_quiet hp) (by simp only; omega) s0)]
      exact State.fld_setFld _ _ _ (by simp only; omega)
    rw [siteToOff, if_pos hk]
    refine ⟨sitePower_siteOff p s0, isolated_siteOff p s0, hctl, trans_siteOff p s0, fun n hn hon => ?_⟩
    rw [← hpower] at hon
    rw [← hcore] at hn
    have hcold : (siteOff p s0).core n = (s.core n).halted.cold := core_siteOff hn hon
    refine ⟨by rw [hcold]; rfl, by rw [hcold]; rfl, by rw [hcold]; rfl, fun k => ?_, fun a ha => reg_siteOff_core hn hon ha⟩
    rw [State.ctx, hcold, Core.cold_halted_ctx]
    rfl
  · exact congrArg _ ((siteToIdle_eq hk).trans (if_pos h))
  · exact congrArg _ ((siteToIdle_eq hk).trans (if_neg h))

/-! ## Transitions and the idle timer (R340, R341, R368) -/

section
variable {s : State} {p : Nat}

theorem transitionDone_none (h : Sparse.find s.trans p = none) : transitionDone p s = s := by
  rw [transitionDone, h]

theorem transitionDone_ret (h : Sparse.find s.trans p = some 1) : transitionDone p s = match s.coreAt p with
    | none => sitePut p 1 { s with trans := Sparse.drop s.trans p }
    | some n => if s.sitePower p ≠ 2 ∨ (s.core n).keepsRet then { s with trans := Sparse.drop s.trans p }
      else sitePut p 1 (coreRegsLost n (State.setCore { s with trans := Sparse.drop s.trans p } n (s.core n).retained)) := by
  rw [transitionDone, h]
  rfl

theorem transitionDone_leaves {st : Nat} (h : Sparse.find s.trans p = some st) (h1 : st ≠ 1) : transitionDone p s = match s.coreAt p with
    | none => { s with trans := Sparse.drop s.trans p }
    | some n => heldGo n (sitePut p 2 (if s.sitePower p = 0 then coreMemLost n { s with trans := Sparse.drop s.trans p }
        else { s with trans := Sparse.drop s.trans p })) := by
  rw [transitionDone, h]
  match st, h1 with
  | 0, _ => rfl
  | st + 2, _ => rfl

end

theorem slice0_siteTransitions : Slice0.SiteTransitions := by
  unfold Slice0.SiteTransitions
  intro site s p s1
  rw [exec_sitePowerTransitionDone, exec_idleTimeout]
  refine ⟨fun h => congrArg _ (transitionDone_none h), fun h => ⟨fun hc => ?_, fun n hc => ⟨fun hk => ?_, fun hp hk => ?_⟩⟩,
    fun st h h1 => ⟨fun hc => ?_, fun n hc => ?_⟩, fun h3 hto hi => congrArg _ (if_pos ⟨h3, hto, hi⟩), fun h => congrArg _ (if_neg ?_)⟩
  · rw [transitionDone_ret h, hc]
  · rw [transitionDone_ret h, hc]
    exact congrArg _ (if_pos hk)
  · rw [transitionDone_ret h, hc]
    exact congrArg _ (if_neg fun hn => hn.elim (fun hn => hn hp) (ne_true_of_eq_false hk))
  · rw [transitionDone_leaves h h1, hc]
  · intro s2
    have hheld : s2.heldStarts = s.heldStarts := by
      unfold s2
      split <;> rfl
    rw [transitionDone_leaves h h1, hc]
    dsimp only
    rw [heldGo, hheld]
  · rintro ⟨h3, hto, hi⟩
    rcases h with h | h | h
    · exact h h3
    · exact hto h
    · exact ne_true_of_eq_false h hi

/-- Settles O35, from the writes of a site's power state, the ends of transitions and the idle timer. -/
theorem sitePowerStates : Obligations.SitePowerStates := ⟨slice0_siteWrites, slice0_siteTransitions⟩

end Sys2Proof.Machine
end

section
/-! # Telemetry frames (O36; spec/15 R343, spec/02 R22) -/

namespace Sys2Proof.Machine

theorem exec_telemetryFrame (f : FrameIn) (s : State) : exec (.telemetryFrame f) s = .next (telFrame f s) := by rfl

/-! ## The flags of a record: bits 18 to 16 -/

theorem testBit_flags {q j : Nat} (hq : q < 8) (hj : j < 16 ∨ 18 < j) : (2 ^ 16 * q).testBit j = false := by
  rw [Nat.testBit_two_pow_mul]
  rcases hj with hj | hj
  · simp [Nat.not_le.2 hj]
  · have hlt : q < 2 ^ (j - 16) := Nat.lt_of_lt_of_le hq (Nat.pow_le_pow_right (show 2 > 0 by decide) (show 3 ≤ j - 16 by omega))
    rw [Nat.testBit_lt_two_pow hlt, Bool.and_false]

theorem getLsbD_flags {q j : Nat} (hq : q < 8) (hj : j < 16 ∨ 18 < j) : (BitVec.ofNat 128 (2 ^ 16 * q)).getLsbD j = false := by
  rw [BitVec.getLsbD_ofNat, testBit_flags hq hj, Bool.and_false]

/-- The record of a domain before it is marked stale: the rails of a site show whether it is derated and isolated. -/
def State.telSite (s : State) (r : BitVec 128) : BitVec 128 :=
  if (r.extractLsb' 0 16).toNat < 0x800 then (r &&& ~~~BitVec.ofNat 128 (2 ^ 16 * 3)) ||| BitVec.ofNat 128 (2 ^ 16 *
    (bit (s.flag (F.PWR_SITE_STS_derated ((r.extractLsb' 0 16).toNat % 0x400)))
      + 2 * bit (s.flag (F.PWR_SITE_STS_isolated ((r.extractLsb' 0 16).toNat % 0x400)))))
  else r

theorem State.telRec_eq (s : State) (r : BitVec 128) : s.telRec r =
    if s.domainLost (r.extractLsb' 0 16).toNat then s.telSite r ||| BitVec.ofNat 128 (2 ^ 16 * 4) else s.telSite r := by
  have hflags : ∀ a b : Bool, 65536 * bit a + 131072 * bit b = 2 ^ 16 * (bit a + 2 * bit b) := by decide
  rw [State.telRec]
  simp only [hflags]
  rfl

theorem State.telSite_outside (s : State) (r : BitVec 128) {j : Nat} (hj : j < 16 ∨ 18 < j) : (s.telSite r).getLsbD j = r.getLsbD j := by
  have hq : ∀ a b : Bool, bit a + 2 * bit b < 8 := by decide
  unfold State.telSite
  split
  · rw [BitVec.getLsbD_or, BitVec.getLsbD_and, BitVec.getLsbD_not, getLsbD_flags (by decide) hj, getLsbD_flags (hq _ _) hj]
    by_cases h : j < 128
    · simp [h]
    · simp [h, BitVec.getLsbD_of_ge _ _ (Nat.le_of_not_lt h)]
  · rfl

theorem State.telSite_stale (s : State) (r : BitVec 128) : (s.telSite r).getLsbD 18 = r.getLsbD 18 := by
  have hq : ∀ a b : Bool, (BitVec.ofNat 128 (2 ^ 16 * (bit a + 2 * bit b))).getLsbD 18 = false := by decide
  have hmask : (BitVec.ofNat 128 (2 ^ 16 * 3)).getLsbD 18 = false := by decide
  unfold State.telSite
  split
  · rw [BitVec.getLsbD_or, BitVec.getLsbD_and, BitVec.getLsbD_not, hmask, hq]
    simp
  · rfl

theorem State.telSite_flags {s : State} {r : BitVec 128} (hd : (r.extractLsb' 0 16).toNat < 0x800) :
    (s.telSite r).getLsbD 16 = s.flag (F.PWR_SITE_STS_derated ((r.extractLsb' 0 16).toNat % 0x400))
    ∧ (s.telSite r).getLsbD 17 = s.flag (F.PWR_SITE_STS_isolated ((r.extractLsb' 0 16).toNat % 0x400)) := by
  have h16 : ∀ a b : Bool, (BitVec.ofNat 128 (2 ^ 16 * (bit a + 2 * bit b))).getLsbD 16 = a := by decide
  have h17 : ∀ a b : Bool, (BitVec.ofNat 128 (2 ^ 16 * (bit a + 2 * bit b))).getLsbD 17 = b := by decide
  have hmask : (BitVec.ofNat 128 (2 ^ 16 * 3)).getLsbD 16 = true ∧ (BitVec.ofNat 128 (2 ^ 16 * 3)).getLsbD 17 = true := by decide
  rw [State.telSite, if_pos hd, BitVec.getLsbD_or, BitVec.getLsbD_or, BitVec.getLsbD_and, BitVec.getLsbD_and, BitVec.getLsbD_not,
    BitVec.getLsbD_not, hmask.1, hmask.2, h16, h17]
  simp

theorem State.telRec_unmarked (s : State) (r : BitVec 128) {j : Nat} (hj : (BitVec.ofNat 128 (2 ^ 16 * 4)).getLsbD j = false) :
    (s.telRec r).getLsbD j = (s.telSite r).getLsbD j := by
  rw [State.telRec_eq]
  split
  · rw [BitVec.getLsbD_or, hj, Bool.or_false]
  · rfl

theorem State.domainLost_whole {s : State} (h : s.halfMode = false) (d : Nat) : s.domainLost d = false := by
  simp [State.domainLost, h]

/-! ## Frames -/

theorem telFrame_runs {s : State} (h : s.lodgeRuns = true) (f : FrameIn) :
    let s1 := { s with pwr := { s.pwr with
      frames := (⟨s.now, s.pwr.frameSeq, f.recs.map s.telRec, f.temps⟩ :: s.pwr.frames).take s.pwr.telCap, frameSeq := s.pwr.frameSeq + 1
      temps := (List.range 1094).map (fun j => (j, (f.temps.getD j 0).toInt)) } }
    telFrame f s = (recOf f.recs 0x851).elim s1 fun r =>
      ((s1.setFld F.PWR_IN_STS_volts (recVolts r)).setFld F.PWR_IN_STS_amps (recAmps r)).setFld F.PWR_IN_STS_watts (recWatts r) := by
  rw [telFrame, h, if_neg (by decide)]
  cases recOf f.recs 0x851 <;> rfl

/-- Settles O36, from a frame that is taken and the flags of a record. -/
theorem telemetry : Obligations.Telemetry := by
  unfold Obligations.Telemetry
  refine ⟨fun f s h => ?_, fun f s h => ?_, fun r s => ?_⟩
  · rw [exec_telemetryFrame, telFrame, h]
    rfl
  · intro s1
    rw [exec_telemetryFrame, telFrame_runs h]
    refine ⟨fun hr => ?_, fun r hr => ?_⟩
    · rw [show recOf f.recs 0x851 = none from hr]
      rfl
    · rw [show recOf f.recs 0x851 = some r from hr]
      rfl
  · intro d
    refine ⟨fun hd => ?_, fun hl => ?_, fun hl => ?_, fun b hb => ?_, fun hh => State.domainLost_whole hh d⟩
    · rw [State.telRec_unmarked s r (by decide), State.telRec_unmarked s r (by decide)]
      exact State.telSite_flags hd
    · rw [State.telRec_eq, if_pos hl, BitVec.getLsbD_or]
      exact Bool.or_eq_true_iff.2 (.inr (by decide))
    · rw [State.telRec_eq, if_neg (ne_true_of_eq_false hl), State.telSite_stale]
    · rw [State.telRec_unmarked s r (getLsbD_flags (by decide) hb), State.telSite_outside s r hb]

end Sys2Proof.Machine
end

section
/-! # An iteration of the power loop (O37; spec/15 R345, R346, R349-R353, R358) -/

namespace Sys2Proof.Machine

theorem exec_powerLoopIteration (flow : Nat) (s : State) : exec (.powerLoopIteration flow) s = .next (powerLoop flow s) := by rfl

/-! ## The common cap (R346) -/

/-- The last number of a range that passes a test: it passes, and none above it does. -/
theorem getLast?_filter_range {n k : Nat} {t : Nat → Bool} (h : ((List.range n).filter t).getLast? = some k) :
    k < n ∧ t k = true ∧ ∀ j, k < j → j < n → t j = false := by
  induction n with
  | zero => simp at h
  | succ n ih =>
    rw [List.range_succ, List.filter_append, List.filter_singleton] at h
    cases htn : t n with
    | true =>
      obtain rfl : n = k := by simpa [htn] using h
      exact ⟨Nat.lt_succ_self _, htn, fun j hj hn => absurd hn (by omega)⟩
    | false =>
      obtain ⟨hlt, hk, hnone⟩ := ih (by simpa [htn] using h)
      refine ⟨Nat.lt_succ_of_lt hlt, hk, fun j hj hn => ?_⟩
      rcases Nat.lt_succ_iff_lt_or_eq.1 hn with hn | rfl
      · exact hnone j hj hn
      · exact htn

theorem getLast?_filter_range_none {n : Nat} {t : Nat → Bool} (h : ((List.range n).filter t).getLast? = none) {j : Nat} (hj : j < n) :
    t j = false := by
  rw [List.getLast?_eq_none_iff, List.filter_eq_nil_iff] at h
  exact Bool.eq_false_iff.2 (h j (List.mem_range.2 hj))

section
variable {watts : Nat → Nat} {eff cur step rise : Nat}

/-- The highest point that fits (R346). -/
def fitPoint (watts : Nat → Nat) (eff : Nat) : Nat := ((List.range 16).filter (fun k => decide (watts k ≤ eff))).getLast?.getD 0

theorem fitPoint_spec (h : ∃ k, k < 16 ∧ watts k ≤ eff) :
    fitPoint watts eff < 16 ∧ watts (fitPoint watts eff) ≤ eff ∧ ∀ j, fitPoint watts eff < j → j < 16 → eff < watts j := by
  unfold fitPoint
  cases hl : ((List.range 16).filter (fun k => decide (watts k ≤ eff))).getLast? with
  | none =>
    obtain ⟨k, hk, hw⟩ := h
    exact absurd hw (of_decide_eq_false (getLast?_filter_range_none hl hk))
  | some k =>
    obtain ⟨hlt, hfit, habove⟩ := getLast?_filter_range hl
    exact ⟨hlt, of_decide_eq_true hfit, fun j hj hn => Nat.lt_of_not_le (of_decide_eq_false (habove j hj hn))⟩

theorem nextPoint_eq (clamped : Bool) : nextPoint watts eff cur step rise clamped =
    if clamped ∨ fitPoint watts eff = cur then fitPoint watts eff
    else if fitPoint watts eff < cur then
      ((List.range cur).find? (fun k => decide (fitPoint watts eff ≤ k ∧ watts cur ≤ watts k + step))).getD cur
    else ((List.range (fitPoint watts eff + 1)).filter (fun k => decide (cur < k ∧ watts k ≤ watts cur + rise))).getLast?.getD cur := rfl

theorem nextPoint_clamped : nextPoint watts eff cur step rise true = fitPoint watts eff := by rw [nextPoint_eq, if_pos (.inl rfl)]

theorem nextPoint_there (h : fitPoint watts eff = cur) : nextPoint watts eff cur step rise false = cur := by
  rw [nextPoint_eq, if_pos (.inr h), h]

theorem nextPoint_down (h : fitPoint watts eff < cur) : nextPoint watts eff cur step rise false =
    ((List.range cur).find? (fun k => decide (fitPoint watts eff ≤ k ∧ watts cur ≤ watts k + step))).getD cur := by
  rw [nextPoint_eq, if_neg (not_or.2 ⟨Bool.false_ne_true, Nat.ne_of_lt h⟩), if_pos h]

theorem nextPoint_up (h : cur < fitPoint watts eff) : nextPoint watts eff cur step rise false =
    ((List.range (fitPoint watts eff + 1)).filter (fun k => decide (cur < k ∧ watts k ≤ watts cur + rise))).getLast?.getD cur := by
  rw [nextPoint_eq, if_neg (not_or.2 ⟨Bool.false_ne_true, Nat.ne_of_gt h⟩), if_neg (Nat.lt_asymm h)]

end

theorem slice0_commonCap : Slice0.CommonCap := by
  unfold Slice0.CommonCap
  intro watts eff cur step rise hcur hex k fit
  have hfit : fit = fitPoint watts eff := nextPoint_clamped
  rw [hfit]
  refine ⟨fitPoint_spec hex, nextPoint_there, fun hlt => ?_, fun hlt => ?_⟩
  · rw [show k false = _ from nextPoint_down hlt]
    cases hf : (List.range cur).find? (fun k => decide (fitPoint watts eff ≤ k ∧ watts cur ≤ watts k + step)) with
    | none =>
      refine ⟨Nat.le_of_lt hlt, Nat.le_refl _, Nat.le_add_right _ _, fun j hj hn => Nat.lt_of_not_le fun hw => ?_⟩
      simpa [hj, hw] using List.find?_eq_none.1 hf j (List.mem_range.2 hn)
    | some i =>
      obtain ⟨hi, hin, hbefore⟩ := List.find?_range_eq_some.1 hf
      obtain ⟨hle, hw⟩ := of_decide_eq_true hi
      refine ⟨hle, Nat.le_of_lt (List.mem_range.1 hin), hw, fun j hj hn => Nat.lt_of_not_le fun hw => ?_⟩
      simpa [hj, hw] using hbefore j hn
  · rw [show k false = _ from nextPoint_up hlt]
    cases hf : ((List.range (fitPoint watts eff + 1)).filter (fun k => decide (cur < k ∧ watts k ≤ watts cur + rise))).getLast? with
    | none =>
      refine ⟨Nat.le_refl _, Nat.le_of_lt hlt, Nat.le_add_right _ _, fun j hj hn => Nat.lt_of_not_le fun hw => ?_⟩
      exact of_decide_eq_false (getLast?_filter_range_none hf (Nat.lt_succ_of_le hn)) ⟨hj, hw⟩
    | some i =>
      obtain ⟨hin, hi, habove⟩ := getLast?_filter_range hf
      obtain ⟨hgt, hw⟩ := of_decide_eq_true hi
      refine ⟨Nat.le_of_lt hgt, Nat.le_of_lt_succ hin, hw, fun j hj hn => Nat.lt_of_not_le fun hw => ?_⟩
      exact of_decide_eq_false (habove j hj (Nat.lt_succ_of_le hn)) ⟨Nat.lt_trans hgt hj, hw⟩

/-! ## Thermal caps (R358) -/

/-- How the thermal cap of a site moves at a temperature. -/
def thermalNext (target temp : Int) (k : Nat) : Nat :=
  if target * 64 < temp then Nat.min 15 (k + 1) else if temp ≤ (target - 3) * 64 then k - 1 else k

/-- The thermal caps with that of one site moved. -/
def thermalPut (target temp : Int) (m : Sparse Nat) (p : Nat) : Sparse Nat :=
  if target * 64 < temp then Sparse.put m p (Nat.min 15 (Sparse.get m 0 p + 1))
  else if temp ≤ (target - 3) * 64 then (if Sparse.get m 0 p ≤ 1 then Sparse.drop m p else Sparse.put m p (Sparse.get m 0 p - 1)) else m

theorem get_thermalPut (target temp : Int) (m : Sparse Nat) (p q : Nat) : Sparse.get (thermalPut target temp m p) 0 q =
    if q = p then thermalNext target temp (Sparse.get m 0 p) else Sparse.get m 0 q := by
  have hdrop : Sparse.get (Sparse.drop m p) 0 q = if q = p then 0 else Sparse.get m 0 q := by
    rw [Sparse.get, Sparse.find_drop]
    split <;> rfl
  unfold thermalPut thermalNext
  split
  · exact Sparse.get_put ..
  · split
    · split
      · next h => rw [hdrop, Nat.sub_eq_zero_of_le h]
      · exact Sparse.get_put ..
    · split
      · next h => rw [h]
      · rfl

/-- Each site's cap moves once, at its own temperature. -/
theorem get_foldl_thermalPut (target : Int) (temp : Nat → Int) (m : Sparse Nat) (n p : Nat) :
    Sparse.get ((List.range n).foldl (fun m p => thermalPut target (temp p) m p) m) 0 p
      = if p < n then thermalNext target (temp p) (Sparse.get m 0 p) else Sparse.get m 0 p := by
  induction n with
  | zero => rfl
  | succ n ih =>
    rw [List.range_succ, List.foldl_append, List.foldl_cons, List.foldl_nil, get_thermalPut]
    by_cases hp : p = n
    · subst hp
      rw [if_pos rfl, if_pos (Nat.lt_succ_self p), ih, if_neg (Nat.lt_irrefl p)]
    · rw [if_neg hp, ih]
      exact if_congr (by omega) rfl rfl

theorem thermalCaps_eq (s : State) : ∃ m : Sparse Nat,
    (∀ p, p < 1024 → Sparse.get m 0 p = thermalNext (s.fld F.PWR_THERM_CFG_target) (s.frameTemp p) (Sparse.get s.pwr.thermal 0 p))
    ∧ thermalCaps s = { s with pwr := { s.pwr with thermal := m } } := by
  refine ⟨(List.range 1024).foldl (fun m p => thermalPut (s.fld F.PWR_THERM_CFG_target) (s.frameTemp p) m p) s.pwr.thermal, fun p hp => ?_, ?_⟩
  · have hget := get_foldl_thermalPut (s.fld F.PWR_THERM_CFG_target) s.frameTemp s.pwr.thermal 1024 p
    rwa [if_pos hp] at hget
  · unfold thermalCaps thermalPut
    generalize List.range 1024 = l
    rfl

theorem slice0_thermalCaps : Slice0.ThermalCaps := by
  unfold Slice0.ThermalCaps
  intro s p hp target k
  obtain ⟨m, hget, he⟩ := thermalCaps_eq s
  rw [he]
  exact ⟨hget p hp, rfl, rfl, rfl, rfl⟩

/-! ## The clamp (R349, R350) -/

theorem untrig_eq (met : Bool) (s : State) : untrig ([5] ++ if met then [1, 2] else []) s = { s with pwr := { s.pwr with
    trig := s.pwr.trig.filter (fun t => decide (t ≠ 5 ∧ ¬ (met = true ∧ (t = 1 ∨ t = 2)))) } } := by
  have hkeep : s.pwr.trig.filter (fun t => !([5] ++ if met then [1, 2] else []).contains t) =
      s.pwr.trig.filter (fun t => decide (t ≠ 5 ∧ ¬ (met = true ∧ (t = 1 ∨ t = 2)))) := by
    refine List.filter_congr fun t _ => ?_
    cases met <;> simp
  rw [untrig, hkeep]

theorem clampStep_off {s : State} (h : s.flag F.PWR_STS_clamp = false) (g eff : Nat) : clampStep g eff s = s := by
  rw [clampStep, h]
  rfl

theorem slice0_clampLoop : Slice0.ClampLoop := by
  unfold Slice0.ClampLoop
  intro g eff s watts met left s1 cut cur next s2
  refine ⟨fun h => clampStep_off h g eff, fun h => ?_⟩
  have hs1 : untrig ([5] ++ if decide met then [1, 2] else []) s = s1 := by
    rw [untrig_eq]
    simp only [decide_eq_true_eq]
    rfl
  have hcut : s.pwr.trig.any (fun t => decide (t = 1) || decide (t = 2)) = true ↔ cut := by
    simp only [List.any_eq_true, Bool.or_eq_true, decide_eq_true_eq]
    exact ⟨fun ⟨t, ht, he⟩ => he.elim (fun he => .inl (he ▸ ht)) (fun he => .inr (he ▸ ht)),
      fun hc => hc.elim (fun h1 => ⟨1, h1, .inl rfl⟩) (fun h2 => ⟨2, h2, .inr rfl⟩)⟩
  have hstep : clampStep g eff s = if left ≠ [] then s1.setFld F.PWR_CLAMP_STS_stretch (stretchFor watts (s.fld F.PWR_CLAMP_CFG_floor_watts))
      else if (cut ∧ met) ∨ eff * 1000 < s.fld F.PWR_IN_STS_watts then s1 else if next = 64 then s2.setFlag F.PWR_STS_clamp false else s2 := by
    rw [clampStep, h, if_neg (by decide)]
    dsimp only
    rw [hs1]
    refine if_congr ?_ rfl (if_congr ?_ rfl rfl)
    · rw [Bool.not_eq_true', List.isEmpty_eq_false_iff]
    · rw [Bool.or_eq_true, Bool.and_eq_true, hcut, decide_eq_true_eq, decide_eq_true_eq]
      exact Iff.rfl
  rw [hstep]
  refine ⟨fun hl => if_pos hl, fun hl hp => ?_, fun hl hp hn => ?_, fun hl hp hn => ?_⟩
  · rw [if_neg (not_not_intro hl), if_pos hp]
  · rw [if_neg (not_not_intro hl), if_neg hp, if_neg hn]
  · rw [if_neg (not_not_intro hl), if_neg hp, if_pos hn]

/-! ## HOLD (R351-R353) -/

/-- Sites that enter IDLE, one after another. -/
theorem sitePower_foldl_idle (l : List Nat) (s : State) (p : Nat) :
    (l.foldl (fun st q => st.setFld (F.PWR_SITE_STS_state q) 2) s).sitePower p = if p ∈ l then 2 else s.sitePower p := by
  induction l generalizing s with
  | nil => rfl
  | cons q l ih =>
    rw [List.foldl_cons, ih]
    by_cases hl : p ∈ l
    · rw [if_pos hl, if_pos (List.mem_cons_of_mem q hl)]
    · rw [if_neg hl]
      by_cases hp : p = q
      · subst hp
        rw [if_pos List.mem_cons_self]
        exact State.fld_setFld _ _ _ (by simp)
      · rw [if_neg fun h => (List.mem_cons.1 h).elim hp hl]
        exact State.fld_setFld_addr _ _ _ _ (by simp only; omega)

/-- The sites that run enter IDLE, those with work to do wait for a Kick (R352). -/
theorem enterHold_on {s : State} (h : s.flag F.PWR_STS_hold = false) (c : Nat) : ∃ runs : List Nat,
    (∀ p, p ∈ runs ↔ p < 1024 ∧ s.sitePower p = 3) ∧
    enterHold c s = ((runs.foldl (fun (st : State) p => st.setFld (F.PWR_SITE_STS_state p) 2) { s with
      kickWait := (s.kickWait ++ runs.filter (fun p => !s.siteIdle p)).dedup
      pwr := { s.pwr with causes := [c], since := s.now, clear := 0, unmet := 0 } }).setFlag F.PWR_STS_hold true).raise EV.HOLD_ENTER 0 0
        (leBytes 1 c) := by
  refine ⟨(List.range 1024).filter (fun p => decide (s.sitePower p = 3)), fun p => by simp, ?_⟩
  rw [enterHold, h, if_neg (by decide)]
  generalize List.range 1024 = l
  rfl

theorem foldl_idle_keeps {β : Type} (g : State → β) (h : ∀ (s : State) (a : Nat) (v : W64), g (s.setReg a v) = g s) (l : List Nat) (s : State) :
    g (l.foldl (fun (st : State) q => st.setFld (F.PWR_SITE_STS_state q) 2) s) = g s := foldl_keeps g (fun _ _ => h ..) l s

theorem siteStatus_quiet {p : Nat} (hp : p < 1024) : (F.PWR_SITE_STS_state p).addr ∉ evtWords := by
  simp only [evtWords, List.mem_cons, List.not_mem_nil, or_false]
  omega

theorem holdStep_out {s : State} (h : s.flag F.PWR_STS_hold = false) (eff : Nat) :
    holdStep eff s = (([0, 1, 2].filter (causeOn s eff)).head?).elim s (fun c => enterHold c s) := by
  rw [holdStep, h, if_neg (by decide)]
  cases [0, 1, 2].filter (causeOn s eff) <;> rfl

theorem capUnmet_clear (eff : Nat) (s : State) : (capUnmet eff s).pwr.clear = s.pwr.clear := by
  unfold capUnmet
  dsimp only
  split
  · split
    · rw [State.raiseDev_pwr]
      rfl
    · rfl
  · rfl

theorem slice0_holdLoop : Slice0.HoldLoop := by
  unfold Slice0.HoldLoop
  intro eff s on
  refine ⟨fun h hon => ?_, fun c l h hon => ?_, fun h => ?_⟩
  · rw [holdStep_out h, show [0, 1, 2].filter (causeOn s eff) = [] from hon]
    rfl
  · intro t
    have ht : t = enterHold c s := by
      rw [show t = _ from holdStep_out h eff, show [0, 1, 2].filter (causeOn s eff) = c :: l from hon]
      rfl
    obtain ⟨runs, hruns, he⟩ := enterHold_on h c
    rw [ht, he]
    refine ⟨?_, ?_, ?_, ?_, ?_, fun p hp => ?_, fun p hp h3 hi => ?_⟩
    · rw [State.flag_congr (reg_raise _ _ _ _ _ _ (by decide)), State.flag_setFlag _ _ _ (by decide) (by decide)]
    · rw [State.raise_pwr, State.setFlag_pwr, foldl_idle_keeps State.pwr (fun _ _ _ => rfl)]
    · rw [State.raise_pwr, State.setFlag_pwr, foldl_idle_keeps State.pwr (fun _ _ _ => rfl)]
    · rw [State.raise_cores, State.setFlag_cores, foldl_idle_keeps State.cores (fun _ _ _ => rfl)]
    · rw [State.raise_mem, State.setFlag_mem, foldl_idle_keeps State.mem (fun _ _ _ => rfl)]
    · rw [State.sitePower, State.fld_congr (reg_raise _ _ _ _ _ _ (siteStatus_quiet hp)), State.setFlag,
        State.fld_setFld_addr _ _ _ _ (by simp only; omega)]
      refine (sitePower_foldl_idle runs _ p).trans ?_
      exact if_congr ((hruns p).trans (and_iff_right hp)) rfl rfl
    · rw [State.raise_kickWait, State.setFlag_kickWait, foldl_idle_keeps State.kickWait (fun _ _ _ => rfl)]
      simp [hruns, hp, h3, hi]
  · intro causes clear s1
    have hclear : (capUnmet eff { s with pwr := { s.pwr with causes := causes, clear := clear } }).pwr.clear = clear := capUnmet_clear ..
    have hstep : holdStep eff s = if 10 ≤ s1.pwr.clear then exitHold s1 else s1 := by
      rw [holdStep, h, if_pos rfl]
    rw [hstep, show s1.pwr.clear = clear from hclear]
    exact ⟨fun hc => if_neg (Nat.not_le.2 hc), fun hc => if_pos hc⟩

/-! ## An iteration (R345, R346) -/

theorem coolantLimit_le (flow : Nat) (inlet : Int) : coolantLimit flow inlet ≤ flow * 1000 / 15 := by
  unfold coolantLimit
  dsimp only
  split
  · exact Nat.le_refl _
  · exact Nat.min_le_left _ _

theorem slice0_loopIteration : Slice0.LoopIteration := by
  unfold Slice0.LoopIteration
  intro flow s
  rw [exec_powerLoopIteration]
  refine ⟨fun h => ?_, fun h => ?_, ?_, ?_, ?_, ?_, fun hex => ?_⟩
  · rw [powerLoop, h]
    rfl
  · rw [powerLoop, h, if_neg (by decide)]
    rfl
  · exact Nat.le_trans (Nat.min_le_right _ _) (Nat.min_le_left _ _)
  · exact Nat.min_le_left _ _
  · exact Nat.le_trans (Nat.min_le_right _ _) (Nat.le_trans (Nat.min_le_right _ _) (Nat.le_trans (Nat.min_le_right _ _)
      (Nat.le_trans (Nat.min_le_right _ _) (coolantLimit_le flow s.inlet))))
  · exact Nat.le_trans (Nat.min_le_right _ _) (Nat.le_trans (Nat.min_le_right _ _) (Nat.min_le_left _ _))
  · obtain ⟨e, he, hlim⟩ := hex
    have hhalf : (if (List.range 8).any s.crevLimits then 15000 else 30000) = 15000 :=
      if_pos (List.any_eq_true.2 ⟨e, List.mem_range.2 he, hlim⟩)
    refine Nat.le_trans (Nat.min_le_right _ _) (Nat.le_trans (Nat.min_le_right _ _) (Nat.le_trans (Nat.min_le_right _ _) ?_))
    exact Nat.le_trans (Nat.min_le_left _ _) (Nat.le_of_eq hhalf)

/-- Settles O37, from the common cap, the thermal caps, the clamp and HOLD in an iteration, and the iteration itself. -/
theorem powerLoops : Obligations.PowerLoop :=
  ⟨slice0_commonCap, slice0_thermalCaps, slice0_clampLoop, slice0_holdLoop, slice0_loopIteration⟩

end Sys2Proof.Machine
end

section
/-! # The rack cap, the clamp and the temperature of sites (O38, O39, O41; spec/15 R347-R349, R351, R358, R359; spec/17 R385; spec/20 R446, R450) -/

namespace Sys2Proof.Machine

theorem exec_capWrite (v : W64) (s : State) : exec (.capWrite v) s = .next (capWrite v s) := by rfl
theorem exec_capLeaseExpiry (s : State) : exec .capLeaseExpiry s = .next (capLease s) := by rfl
theorem exec_pwrBrakeAssert (s : State) : exec .pwrBrakeAssert s = .next (brakeOn s) := by rfl
theorem exec_pwrBrakeDeassert (s : State) : exec .pwrBrakeDeassert s = .next (untrig [3] { s with pwr := { s.pwr with brake := false } }) := by rfl
theorem exec_inputUndervoltage (s : State) : exec .inputUndervoltage s = .next (inputLow s) := by rfl
theorem exec_inputFail (s : State) : exec .inputFail s = .next (inputFail s) := by rfl
theorem exec_inputReturn (mv : Nat) (s : State) : exec (.inputReturn mv) s = .next (inputReturn mv s) := by rfl
theorem exec_thermalSample (field : BitVec 6) (temps : List (BitVec 16)) (s : State) :
    exec (.thermalSample field temps) s = .next (thermalSample field.toNat temps s) := by rfl

theorem fieldOf_lt {w : Nat} (x : BitVec w) (lo n : Nat) : fieldOf x lo n < 2 ^ n := BitVec.isLt _

/-! ## The rack cap (R347, R348) -/

section
variable {v : W64} {s : State}

/-- What an accepted cap stores (R347). -/
def State.capStored (s : State) (v : W64) : State :=
  let s1 := (((s.setFld F.PWR_CAP_CTL_seq (fieldOf v 32 32)).setFld F.PWR_CAP_CTL_urgent (fieldOf v 16 1)).setFld F.PWR_CAP_CTL_cap_watts
    (fieldOf v 0 16)).setFld F.PWR_CAP_STS_seq (fieldOf v 32 32)
  { s1 with pwr := { s.pwr with lapsed := false } }

theorem State.fld_capStored {f : Fld} (h1 : f.addr ≠ F.PWR_CAP_CTL_seq.addr) (h2 : f.addr ≠ F.PWR_CAP_STS_seq.addr) :
    (s.capStored v).fld f = s.fld f := by
  refine (State.fld_setFld_addr _ F.PWR_CAP_STS_seq f _ h2).trans ?_
  rw [State.fld_setFld_addr _ F.PWR_CAP_CTL_cap_watts f _ h1, State.fld_setFld_addr _ F.PWR_CAP_CTL_urgent f _ h1,
    State.fld_setFld_addr _ F.PWR_CAP_CTL_seq f _ h1]

theorem State.capStored_seq : (s.capStored v).fld F.PWR_CAP_STS_seq = fieldOf v 32 32 :=
  (State.fld_setFld _ F.PWR_CAP_STS_seq _ (by decide)).trans (Nat.mod_eq_of_lt (fieldOf_lt v 32 32))

theorem State.capStored_rackCap : (s.capStored v).rackCap = Nat.min (fieldOf v 0 16) 30000 := by
  have hcap : (s.capStored v).fld F.PWR_CAP_CTL_cap_watts = fieldOf v 0 16 := by
    refine (State.fld_setFld_addr _ F.PWR_CAP_STS_seq _ _ (by decide)).trans ?_
    rw [State.fld_setFld _ _ _ (by decide)]
    exact Nat.mod_eq_of_lt (fieldOf_lt v 0 16)
  rw [State.rackCap, hcap]
  rfl

theorem capWrite_stale (h : fieldOf v 32 32 ≤ s.fld F.PWR_CAP_STS_seq) :
    capWrite v s = (s.setFld F.PWR_CAP_STS_code E.CAP_SEQ).bump F.PWR_CAP_STALE_CNT := if_pos h

theorem capWrite_new (h : s.fld F.PWR_CAP_STS_seq < fieldOf v 32 32) : capWrite v s =
    if s.pwr.off then s.capStored v
    else if v.getLsbD 16 = true ∧ Nat.min (fieldOf v 0 16) 30000 * 1000 < s.fld F.PWR_IN_STS_watts then engage 1 (s.capStored v)
    else if Nat.min (fieldOf v 0 16) 30000 * 1000 + 10000 * s.fld F.PWR_CAP_CFG_step_w < s.fld F.PWR_IN_STS_watts then engage 2 (s.capStored v)
    else s.capStored v := by
  have hmw : (s.capStored v).fld F.PWR_IN_STS_watts = s.fld F.PWR_IN_STS_watts := State.fld_capStored (by decide) (by decide)
  have hstep : (s.capStored v).fld F.PWR_CAP_CFG_step_w = s.fld F.PWR_CAP_CFG_step_w := State.fld_capStored (by decide) (by decide)
  rw [← hmw, ← hstep]
  exact if_neg (Nat.not_le.2 h)

end

/-- Settles O38, from a cap that is refused, one that is stored, and the expiry of a lease. -/
theorem rackCap : Obligations.RackCap := by
  unfold Obligations.RackCap
  intro v s seq cap mw s1 s2 urgent far lapsed
  rw [exec_capWrite, exec_capLeaseExpiry]
  refine ⟨fun h => congrArg _ (capWrite_stale h), fun h => ?_, fun hms hl => ⟨?_, rfl⟩, fun h => congrArg _ (if_pos h)⟩
  · rw [capWrite_new h]
    refine ⟨fun hoff => ?_, fun hoff hu => ?_, fun hoff hu hf => ?_, State.capStored_seq, State.capStored_rackCap⟩
    · by_cases ho : s.pwr.off = true
      · rw [if_pos ho]; rfl
      · obtain ⟨hu, hf⟩ := hoff.resolve_left ho
        rw [if_neg ho, if_neg hu, if_neg hf]
        rfl
    · rw [if_neg (ne_true_of_eq_false hoff), if_pos hu]
      rfl
    · rw [if_neg (ne_true_of_eq_false hoff), if_neg hu, if_pos hf]
      rfl
  · exact congrArg _ (if_neg fun h => h.elim hms (ne_true_of_eq_false hl))

/-! ## The clamp (R349, R385, R446, R450) -/

theorem untrig_single (t : Nat) (s : State) : untrig [t] s = { s with pwr := { s.pwr with trig := s.pwr.trig.filter (fun u => decide (u ≠ t)) } } := by
  have h : s.pwr.trig.filter (fun u => !([t].contains u)) = s.pwr.trig.filter (fun u => decide (u ≠ t)) :=
    List.filter_congr fun u _ => by simp
  rw [untrig, h]

/-- What an input failure leaves besides its event (R446): from stage 3 on the converters stay off. -/
def State.inputGone (t : State) : State :=
  { t with pwr := { t.pwr with failed := true, dry := t.pwr.dry || decide (3 ≤ t.fld F.DEV_BOOT_STS_stage) } }

section
variable {s : State}

theorem brakeOn_off (h : s.pwr.off = true) : brakeOn s = { s with pwr := { s.pwr with brake := true } } := if_pos h

theorem brakeOn_on (h : s.pwr.off = false) : brakeOn s = engage 3 { s with pwr := { s.pwr with brake := true } } := if_neg (ne_true_of_eq_false h)

theorem inputLow_off (h : s.pwr.off = true) : inputLow s = { s with pwr := { s.pwr with low := true } } := if_pos h

theorem inputLow_on (h : s.pwr.off = false) : inputLow s = engage 4 { s with pwr := { s.pwr with low := true } } := if_neg (ne_true_of_eq_false h)

theorem inputFail_failed (h : s.pwr.failed = true) : inputFail s = s := if_pos h

theorem inputFail_first (h : s.pwr.failed = false) : inputFail s =
    (if s.pwr.off then s.raise EV.INPUT_FAIL 0 0 [] else rimOff (convertersOff (s.raise EV.INPUT_FAIL 0 0 []))).inputGone := by
  have hoff : (s.raise EV.INPUT_FAIL 0 0 []).pwr.off = s.pwr.off := congrArg _ (State.raise_pwr ..)
  rw [← hoff]
  exact if_neg (ne_true_of_eq_false h)

theorem inputReturn_low {mv : Nat} (h : mv ≤ 44000) : inputReturn mv s = s := by
  rw [inputReturn, if_neg (Nat.not_lt.2 h), if_neg (by omega)]

theorem inputReturn_higher {mv : Nat} (h : 44000 < mv) : inputReturn mv s =
    let s1 := { s with pwr := { s.pwr with low := false, trig := s.pwr.trig.filter (fun t => decide (t ≠ 4)) } }
    if 46000 < mv then { s1 with pwr := { s1.pwr with failed := false } } else s1 := by
  rw [inputReturn, if_pos h, untrig_single]

end

theorem slice0_brakeAndInput : Slice0.BrakeAndInput := by
  unfold Slice0.BrakeAndInput
  intro s brake low lost shut gone higher
  rw [exec_pwrBrakeAssert, exec_inputUndervoltage, exec_pwrBrakeDeassert, exec_inputFail]
  refine ⟨fun h => ⟨congrArg _ (brakeOn_off h), congrArg _ (inputLow_off h)⟩, fun h => ⟨congrArg _ (brakeOn_on h), congrArg _ (inputLow_on h)⟩,
    congrArg _ (untrig_single 3 _), fun h => congrArg _ (inputFail_failed h), fun h ho => congrArg _ ?_, fun h ho => congrArg _ ?_,
    fun mv h => (exec_inputReturn mv s).trans (congrArg _ (inputReturn_low h)),
    fun mv h h6 => (exec_inputReturn mv s).trans (congrArg _ ((inputReturn_higher h).trans (if_neg (Nat.not_lt.2 h6)))),
    fun mv h => (exec_inputReturn mv s).trans (congrArg _ ((inputReturn_higher (by omega)).trans (if_pos h)))⟩
  · exact (inputFail_first h).trans (congrArg State.inputGone (if_pos ho))
  · exact (inputFail_first h).trans (congrArg State.inputGone (if_neg (ne_true_of_eq_false ho)))

/-- A trigger joins those in force. -/
def State.triggered (s : State) (t : Nat) : State :=
  State.setFld { s with pwr := { s.pwr with trig := if t ∈ s.pwr.trig then s.pwr.trig else t :: s.pwr.trig } } F.PWR_CLAMP_STS_trigger t

theorem State.triggered_mem (s : State) (t : Nat) : t ∈ (s.triggered t).pwr.trig := by
  change t ∈ if t ∈ s.pwr.trig then s.pwr.trig else t :: s.pwr.trig
  split
  · assumption
  · exact List.mem_cons_self

theorem State.flag_triggered (s : State) (t : Nat) : (s.triggered t).flag F.PWR_STS_clamp = s.flag F.PWR_STS_clamp :=
  State.flag_setFld_addr _ _ _ _ (by decide)

theorem State.lodgeRuns_triggered (s : State) (t : Nat) : (s.triggered t).lodgeRuns = s.lodgeRuns := by
  have hstage : (s.triggered t).fld F.DEV_BOOT_STS_stage = s.fld F.DEV_BOOT_STS_stage := State.fld_setFld_addr _ _ _ _ (by decide)
  rw [State.lodgeRuns, hstage]
  rfl

theorem State.commonPoint_triggered (s : State) (t : Nat) : (s.triggered t).commonPoint = s.commonPoint := by
  have hmhz : (s.triggered t).fld F.PWR_STS_common_mhz = s.fld F.PWR_STS_common_mhz := State.fld_setFld_addr _ _ _ _ (by decide)
  rw [State.commonPoint, hmhz]
  rfl

theorem engage_eq (t : Nat) (s : State) : engage t s = if s.flag F.PWR_STS_clamp then s.triggered t
    else ((((s.triggered t).setFlag F.PWR_STS_clamp true).setFld F.PWR_CLAMP_STS_stretch (if s.lodgeRuns then
      stretchFor (Config.watts s.free s.commonPoint) (s.fld F.PWR_CLAMP_CFG_floor_watts) else 32)).raise EV.CAP_CLAMP 0 0 (leBytes 1 t)).bump
        F.PWR_CLAMP_CNT := by
  have hfloor : (s.triggered t).fld F.PWR_CLAMP_CFG_floor_watts = s.fld F.PWR_CLAMP_CFG_floor_watts := State.fld_setFld_addr _ _ _ _ (by decide)
  have htrig : (if s.pwr.trig.contains t then s.pwr.trig else t :: s.pwr.trig) = if t ∈ s.pwr.trig then s.pwr.trig else t :: s.pwr.trig :=
    if_congr List.contains_iff_mem rfl rfl
  rw [← State.flag_triggered s t, ← State.lodgeRuns_triggered s t, ← State.commonPoint_triggered s t, ← hfloor]
  unfold engage
  rw [htrig]
  rfl

theorem slice0_clampEngage : Slice0.ClampEngage := by
  unfold Slice0.ClampEngage
  intro t s _ trig s1 k
  refine ⟨fun h => ?_, fun h => ⟨?_, ?_⟩, ?_⟩
  · rw [engage_eq, if_pos h]
    rfl
  · rw [engage_eq, if_neg (ne_true_of_eq_false h)]
    rfl
  · rw [engage_eq, if_neg (ne_true_of_eq_false h)]
    refine (State.flag_congr (f := F.PWR_STS_clamp) (reg_bumpBy _ F.PWR_CLAMP_CNT 1 _ (by decide) (by decide) (by decide))).trans ?_
    refine (State.flag_congr (f := F.PWR_STS_clamp) (reg_raise _ _ _ _ _ _ (by decide))).trans ?_
    rw [State.flag_setFld_addr _ _ _ _ (by decide)]
    exact State.flag_setFlag _ _ _ (by decide) (by decide)
  · rw [engage_eq]
    split
    · exact s.triggered_mem t
    · rw [State.bump_pwr, State.raise_pwr]
      exact s.triggered_mem t

/-- Settles O39, from the brake and the input, and from what engages the clamp. -/
theorem clamp : Obligations.Clamp := ⟨slice0_brakeAndInput, slice0_clampEngage⟩

/-! ## The temperature of a site (R358, R359) -/

/-- The state after a reading, with the site's limit reported or its clamp ended (R358). -/
def State.siteRead (s : State) (p : Nat) (t : Int) : State :=
  let s0 := { s with pwr := { s.pwr with temps := Sparse.put s.pwr.temps p t } }
  if 100 * 64 ≤ t ∧ p ∉ s.pwr.hot then State.raise { s0 with pwr := { s0.pwr with hot := p :: s.pwr.hot } } EV.THERMAL_LIMIT 1 p (leBytes 2 p)
  else if t < 97 * 64 ∧ p ∈ s.pwr.hot then { s0 with pwr := { s0.pwr with hot := s.pwr.hot.filter (fun q => decide (q ≠ p)) } } else s0

section
variable {p : Nat} {t : Int} {s : State}

theorem State.siteRead_hot105 : (s.siteRead p t).pwr.hot105 = s.pwr.hot105 := by
  rw [State.siteRead]
  split
  · rw [State.raise_pwr]
  · split <;> rfl

theorem State.siteRead_tripped : (s.siteRead p t).pwr.tripped = s.pwr.tripped := by
  rw [State.siteRead]
  split
  · rw [State.raise_pwr]
  · split <;> rfl

/-- What a reading leaves, in terms of the state after R358's part of it. -/
theorem thermalSite_read {x : State} (h : (let s0 := { s with pwr := { s.pwr with temps := Sparse.put s.pwr.temps p t } }
    if 100 * 64 ≤ t ∧ !s0.pwr.hot.contains p then State.raise { s0 with pwr := { s0.pwr with hot := p :: s0.pwr.hot } } EV.THERMAL_LIMIT 1 p (leBytes 2 p)
    else if t < 97 * 64 ∧ s0.pwr.hot.contains p then { s0 with pwr := { s0.pwr with hot := s0.pwr.hot.filter (· ≠ p) } } else s0) = x) :
    thermalSite p t s = if t < 105 * 64 then { x with pwr := { x.pwr with hot105 := x.pwr.hot105.filter (· ≠ p) } }
      else if x.pwr.hot105.contains p then thermalTrip p x else { x with pwr := { x.pwr with hot105 := p :: x.pwr.hot105 } } := by
  subst h
  rfl

theorem thermalSite_eq : thermalSite p t s =
    if t < 105 * 64 then { s.siteRead p t with pwr := { (s.siteRead p t).pwr with hot105 := s.pwr.hot105.filter (fun q => decide (q ≠ p)) } }
    else if p ∈ s.pwr.hot105 then thermalTrip p (s.siteRead p t)
    else { s.siteRead p t with pwr := { (s.siteRead p t).pwr with hot105 := p :: s.pwr.hot105 } } := by
  have hread : (let s0 := { s with pwr := { s.pwr with temps := Sparse.put s.pwr.temps p t } }
      if 100 * 64 ≤ t ∧ !s0.pwr.hot.contains p then State.raise { s0 with pwr := { s0.pwr with hot := p :: s0.pwr.hot } } EV.THERMAL_LIMIT 1 p (leBytes 2 p)
      else if t < 97 * 64 ∧ s0.pwr.hot.contains p then { s0 with pwr := { s0.pwr with hot := s0.pwr.hot.filter (· ≠ p) } } else s0)
      = s.siteRead p t := if_congr (by simp) rfl (if_congr (by simp) rfl rfl)
  refine (thermalSite_read hread).trans ?_
  rw [State.siteRead_hot105]
  exact if_congr Iff.rfl rfl (if_congr List.contains_iff_mem rfl rfl)

theorem thermalTrip_again (h : s.pwr.tripped = true) : thermalTrip p s = s := if_pos h

theorem thermalTrip_first (h : s.pwr.tripped = false) : thermalTrip p s =
    let off := rimOff (sayGoodbye 3 (convertersOff s))
    State.raise { off with pwr := { off.pwr with tripped := true, temps := [] } } EV.THERMAL_TRIP 1 p (leBytes 2 p) := if_neg (ne_true_of_eq_false h)

theorem thermalSite_tripped {x : State} (hx : s.siteRead p t = x) (h : 105 * 64 ≤ t) (hp : p ∈ s.pwr.hot105) (ht : s.pwr.tripped = true) :
    thermalSite p t s = x := by
  subst hx
  rw [thermalSite_eq, if_neg (by omega), if_pos hp, thermalTrip_again (State.siteRead_tripped.trans ht)]

theorem thermalSite_trips {x : State} (hx : s.siteRead p t = x) (h : 105 * 64 ≤ t) (hp : p ∈ s.pwr.hot105) (ht : s.pwr.tripped = false) :
    thermalSite p t s = let off := rimOff (sayGoodbye 3 (convertersOff x))
      State.raise { off with pwr := { off.pwr with tripped := true, temps := [] } } EV.THERMAL_TRIP 1 p (leBytes 2 p) := by
  subst hx
  rw [thermalSite_eq, if_neg (by omega), if_pos hp, thermalTrip_first (State.siteRead_tripped.trans ht)]

theorem State.siteStretch_hot (h : p ∈ s.pwr.hot) : s.siteStretch p ≤ 32 := by
  rw [State.siteStretch, if_pos (List.contains_iff_mem.2 h)]
  exact Nat.min_le_left _ _

end

theorem thermalSample_full {f : Nat} {temps : List (BitVec 16)} (h : temps.length = 16) (s : State) :
    thermalSample f temps s = (List.range 16).foldl (fun st j => thermalSite (16 * f + j) (temps.getD j 0).toInt st) s := by
  rw [thermalSample]
  refine List.foldl_ext _ _ _ fun st j hj => ?_
  have hlt : j < temps.length := List.mem_range.1 (by rw [h]; exact hj)
  rw [List.getElem?_eq_getElem hlt, List.getD_eq_getElem _ _ hlt]

/-- Settles O41, from a reading of a site, the two samples that trip, and the samples of a field. -/
theorem siteTemperature : Obligations.SiteTemperature := by
  unfold Obligations.SiteTemperature
  refine ⟨fun p t s => ?_, fun field temps s h => ?_⟩
  · intro reached cooled s0 s1 off
    exact ⟨fun h => thermalSite_eq.trans (if_pos h), fun h hp => thermalSite_eq.trans ((if_neg (by omega)).trans (if_neg hp)),
      fun h hp ht => thermalSite_tripped (x := s1) rfl h hp ht, fun h hp ht => thermalSite_trips (x := s1) rfl h hp ht, State.siteStretch_hot⟩
  · rw [exec_thermalSample, thermalSample_full h]

end Sys2Proof.Machine
end

section
/-! # Crevasse and the faults of the power chain (O40; spec/15 R355-R357, R362; spec/02 R28-R30) -/

namespace Sys2Proof.Machine

theorem exec_crevasseWindow (e : BitVec 8) (m : CrevIn) (s : State) : exec (.crevasseWindow e m) s = .next (crevWindow e.toNat m s) := by rfl
theorem exec_pwrCrevRecal (v : W64) (base : List (Nat × Nat)) (s : State) : exec (.pwrCrevRecal v base) s = .next (crevRecal v base s) := by rfl
theorem exec_pwrServiceClear (v : W64) (s : State) : exec (.pwrServiceClear v) s = .next (serviceClear v s) := by rfl
theorem exec_phaseLoss (p : BitVec 10) (s : State) : exec (.phaseLoss p) s = .next (phaseLoss p.toNat s) := by rfl
theorem exec_regulatorControllerFault (p : BitVec 10) (s : State) : exec (.regulatorControllerFault p) s = .next (siteDark p.toNat 0 s) := by rfl
theorem exec_siteShort (p : BitVec 10) (s : State) : exec (.siteShort p) s = .next (siteDark p.toNat 1 s) := by rfl
theorem exec_vfieldShort (f : BitVec 6) (s : State) : exec (.vfieldShort f) s = .next (fieldDark f.toNat s) := by rfl
theorem exec_rimConverterFault (g : BitVec 2) (s : State) : exec (.rimConverterFault g) s = .next (rimFault g.toNat s) := by rfl
theorem exec_alwaysOnConverterFault (h : BitVec 1) (s : State) : exec (.alwaysOnConverterFault h) s = .next (halfFault h.toNat s) := by rfl

/-! ## A window of a power entry (R355) -/

/-- The entry with its counts of windows in a row at 1.3 and at 2 times the predicted drop. -/
def Crev.counted (c : Crev) (m : CrevIn) : Crev :=
  { c with
    n13 := if 130 * crevPredicted c m ≤ 100 * crevDrop m then c.n13 + 1 else 0
    n20 := if 2 * crevPredicted c m ≤ crevDrop m then c.n20 + 1 else 0 }

/-- The record of a power entry is replaced. -/
def State.putCrev (s : State) (e : Nat) (c : Crev) : State := { s with pwr := { s.pwr with crev := Sparse.put s.pwr.crev e c } }

/-- The sites that an entry feeds are derated. -/
def derateFed (e : Nat) (s : State) : State := (sitesFed e).foldl (fun st q => st.setFlag (F.PWR_SITE_STS_derated q) true) s

/-- A window in which the entry is found cracked, and any other. -/
def crevStage (e : Nat) (m : CrevIn) (c : Crev) (s : State) : State :=
  if 100 ≤ (c.counted m).n13 ∧ c.derated = false then
    ((derateFed e (s.putCrev e { c.counted m with derated := true })).setFlag F.PWR_SERVICE_STS_crevasse true).raise EV.CREVASSE 7 e
      (leBytes 1 e ++ leBytes 2 (100 * crevDrop m / crevPredicted c m).toNat)
  else s.putCrev e (c.counted m)

section
variable {e : Nat} {m : CrevIn} {c : Crev} {s : State}

theorem derateFed_pwr : (derateFed e s).pwr = s.pwr := by
  unfold derateFed
  exact foldl_keeps (f := fun st q => State.setFlag st (F.PWR_SITE_STS_derated q) true) State.pwr (fun _ _ => rfl) _ _

theorem crevStage_crev : (crevStage e m c s).pwr.crev =
    Sparse.put s.pwr.crev e { c.counted m with derated := c.derated || decide (100 ≤ (c.counted m).n13 ∧ c.derated = false) } := by
  unfold crevStage
  split
  case isTrue h =>
    obtain ⟨_, hc⟩ := h
    rw [State.raise_pwr, State.setFlag_pwr, derateFed_pwr]
    simp [State.putCrev, *]
  case isFalse h =>
    simp only [h, decide_false, Bool.or_false]
    rfl

theorem crevWindow_none (h : Sparse.find s.pwr.crev e = none) : crevWindow e m s = s := by
  rw [crevWindow, h]

theorem crevWindow_quiet (h : Sparse.find s.pwr.crev e = some c) (hr : 5 * m.milliAmps < ratingOf e) : crevWindow e m s = s := by
  rw [crevWindow, h]
  exact if_pos hr

theorem crevStage_eq : crevStage e m c s = if 100 ≤ (c.counted m).n13 ∧ !c.derated then
      ((derateFed e (s.putCrev e { c.counted m with derated := true })).setFlag F.PWR_SERVICE_STS_crevasse true).raise EV.CREVASSE 7 e
        (leBytes 1 e ++ leBytes 2 (100 * crevDrop m / crevPredicted c m).toNat)
    else s.putCrev e (c.counted m) := if_congr (by simp) rfl rfl

theorem crevWindow_counts (h : Sparse.find s.pwr.crev e = some c) (hr : ratingOf e ≤ 5 * m.milliAmps) : crevWindow e m s =
    if (c.counted m).n20 = 10 then
      if e < 8 then derateFed e ((crevStage e m c s).putCrev e { Sparse.get (crevStage e m c s).pwr.crev (c.counted m) e with limits := true })
      else fieldDark ((e - 8) % 64) (crevStage e m c s)
    else crevStage e m c s := by
  rw [crevWindow, h, crevStage_eq]
  exact if_neg (Nat.not_lt.2 hr)

theorem crevWindow_few (h : Sparse.find s.pwr.crev e = some c) (hr : ratingOf e ≤ 5 * m.milliAmps) (h10 : (c.counted m).n20 ≠ 10) :
    crevWindow e m s = crevStage e m c s := (crevWindow_counts h hr).trans (if_neg h10)

theorem crevWindow_input (h : Sparse.find s.pwr.crev e = some c) (hr : ratingOf e ≤ 5 * m.milliAmps) (h10 : (c.counted m).n20 = 10) (he : e < 8) :
    crevWindow e m s = derateFed e ((crevStage e m c s).putCrev e { c.counted m with
      derated := c.derated || decide (100 ≤ (c.counted m).n13 ∧ c.derated = false), limits := true }) := by
  rw [crevWindow_counts h hr, if_pos h10, if_pos he, crevStage_crev, Sparse.get_put, if_pos rfl]

theorem crevWindow_field (h : Sparse.find s.pwr.crev e = some c) (hr : ratingOf e ≤ 5 * m.milliAmps) (h10 : (c.counted m).n20 = 10) (he : 8 ≤ e) :
    crevWindow e m s = fieldDark ((e - 8) % 64) (crevStage e m c s) := by
  rw [crevWindow_counts h hr, if_pos h10, if_neg (Nat.not_lt.2 he)]

end

theorem slice0_crevasseWindows : Slice0.CrevasseWindows := by
  unfold Slice0.CrevasseWindows
  intro e m s entry
  rw [exec_crevasseWindow]
  refine ⟨fun h => congrArg _ (crevWindow_none h), fun c h hr => congrArg _ (crevWindow_quiet h hr), fun c h hr => ?_⟩
  exact ⟨fun h10 => congrArg _ (crevWindow_few h hr h10), fun h10 he => congrArg _ (crevWindow_input h hr h10 he),
    fun h10 he => congrArg _ (crevWindow_field h hr h10 he)⟩

/-! ## The service registers (R355, R439) -/

section
variable {v : W64} {base : List (Nat × Nat)} {s : State}

theorem crevRecal_ignored (h : v.getLsbD 0 = false ∨ s.jobLoaded = true) : crevRecal v base s = s :=
  if_neg (by rcases h with h | h <;> rw [h] <;> simp)

theorem crevRecal_goes (h : v.getLsbD 0 = true) (hj : s.jobLoaded = false) : crevRecal v base s = crevBaseline base s :=
  if_pos (by simp [h, hj])

/-- A service flag is cleared by writing 1. -/
def clearedBy (b : Bool) (f : Fld) (s : State) : State := if b then s.setFlag f false else s

theorem serviceClear_job (h : s.jobLoaded = true) : serviceClear v s = s := if_pos h

theorem serviceClear_free (h : s.jobLoaded = false) :
    serviceClear v s = clearedBy (v.getLsbD 1) F.PWR_SERVICE_STS_leak (clearedBy (v.getLsbD 0) F.PWR_SERVICE_STS_crevasse s) :=
  if_neg (ne_true_of_eq_false h)

theorem flag_clearedBy_same (b : Bool) {f : Fld} (h1 : f.lo + f.w ≤ 64) (h0 : 0 < f.w) : (clearedBy b f s).flag f = (s.flag f && !b) := by
  cases b
  · simp [clearedBy]
  · rw [clearedBy, if_pos rfl, State.flag_setFlag _ _ _ h1 h0]
    simp

theorem flag_clearedBy_bits (b : Bool) {f g : Fld} (h : g.lo + g.w ≤ f.lo ∨ f.lo + f.w ≤ g.lo) :
    (clearedBy b f s).flag g = s.flag g := by
  cases b
  · rfl
  · exact State.flag_setFld_bits _ _ _ _ h

theorem reg_clearedBy (b : Bool) {f : Fld} {a : Nat} (h : a ≠ f.addr) : (clearedBy b f s).reg a = s.reg a := by
  cases b
  · rfl
  · exact State.reg_setFld_ne _ _ _ _ h

theorem clearedBy_keeps (b : Bool) (f : Fld) : (clearedBy b f s).mem = s.mem ∧ (clearedBy b f s).cores = s.cores ∧ (clearedBy b f s).events = s.events := by
  cases b <;> exact ⟨rfl, rfl, rfl⟩

end

theorem slice0_serviceWrites : Slice0.ServiceWrites := by
  unfold Slice0.ServiceWrites
  intro v base s fresh s1 s2
  rw [exec_pwrCrevRecal, exec_pwrServiceClear]
  refine ⟨fun h hj => congrArg _ (crevRecal_goes h hj), fun h => congrArg _ (crevRecal_ignored h), fun h => congrArg _ (serviceClear_job h), fun h => ?_⟩
  refine ⟨_, (exec_pwrServiceClear v s).trans (congrArg _ (serviceClear_free h)), ?_, ?_, fun a ha => ?_, ?_⟩
  · rw [flag_clearedBy_bits _ (by decide), flag_clearedBy_same _ (by decide) (by decide)]
  · rw [flag_clearedBy_same _ (by decide) (by decide), flag_clearedBy_bits _ (by decide)]
  · exact (reg_clearedBy (f := F.PWR_SERVICE_STS_leak) _ ha).trans (reg_clearedBy _ ha)
  · obtain ⟨hm, hc, he⟩ := clearedBy_keeps (s := s) (v.getLsbD 0) F.PWR_SERVICE_STS_crevasse
    obtain ⟨hm', hc', he'⟩ := clearedBy_keeps (s := clearedBy (v.getLsbD 0) F.PWR_SERVICE_STS_crevasse s) (v.getLsbD 1) F.PWR_SERVICE_STS_leak
    exact ⟨hm'.trans hm, hc'.trans hc, he'.trans he⟩

/-! ## What a fault takes (R356, R357) -/

theorem phaseLoss_more {p : Nat} {s : State} (h : 6 < s.fld (F.PWR_SITE_STS_phases p)) : phaseLoss p s =
    ((s.setFld (F.PWR_SITE_STS_phases p) (s.fld (F.PWR_SITE_STS_phases p) - 1)).setFlag (F.PWR_SITE_STS_derated p) true).raise EV.PHASE_LOST 1 p
      (leBytes 2 p ++ leBytes 1 (s.fld (F.PWR_SITE_STS_phases p) - 1)) := if_neg (Nat.not_le.2 h)

theorem phaseLoss_third {p : Nat} {s : State} (h : s.fld (F.PWR_SITE_STS_phases p) ≤ 6) : phaseLoss p s = siteDark p 0 s := if_pos h

theorem bit_decide_eq (P : Prop) [Decidable P] (h : Nat) : decide (bit (decide P) = h) = decide ((if P then 1 else 0) = h) := by
  by_cases hP : P <;> simp [bit, hP]

theorem stacksOfHalf_eq (h : Nat) : (List.range 16).filter (fun m => decide (stackHalf m = h)) =
    (List.range 16).filter (fun k => decide ((if 2 ≤ k ∧ k < 10 then 1 else 0) = h)) :=
  List.filter_congr fun _ _ => bit_decide_eq _ _

theorem routersKept_eq (h : Nat) : (fun b : Nat × List FabPkt => !decide (bit (decide (16 ≤ b.1 / 64 % 32)) = h)) =
    fun b => !decide ((if 16 ≤ b.1 / 64 % 32 then 1 else 0) = h) := funext fun _ => congrArg _ (bit_decide_eq _ _)

/-- The state of a half that is lost, before the degrade (R357; spec/02 R21). -/
def halfLost (h : Nat) (taken : List Nat) (stay : Nat × List FabPkt → Bool) (s : State) : State :=
  let s1 := (sitesOfHalf h).foldl (fun st p => if st.sitePower p = 0 then st else siteOff p st) s
  let s2 := ((List.range 32).filter (fun k => linkHalf k = h)).foldl (fun st k => linkOff k st) s1
  let s3 := taken.foldl (fun st m => st.setFld (F.RIM_STACK_STS_state m) 2) s2
  let s4 := s3.undefAt 0 s3.edgeSize
  { s4 with
    pwr := { s4.pwr with half := some h }
    fab := { s4.fab with bufs := s4.fab.bufs.filter stay, waits := s4.fab.waits.filter stay } }

theorem halfFault_eq (h : Nat) (s : State) : halfFault h s = degrade (halfLost h ((List.range 16).filter (fun k => decide ((if 2 ≤ k ∧ k < 10 then 1 else 0) = h)))
    (fun b => !decide ((if 16 ≤ b.1 / 64 % 32 then 1 else 0) = h)) s) := by
  rw [← stacksOfHalf_eq, ← routersKept_eq]
  rfl

theorem siteDark_eq (p kind : Nat) (s : State) : siteDark p kind s =
    retireSites [p] (failSites [p] ((siteOff p s).raise EV.SITE_SHORT 1 p (leBytes 2 p ++ leBytes 1 kind))) := rfl

theorem fieldDark_eq (f : Nat) (s : State) : fieldDark f s = let ps := (List.range 16).map (fun j => 16 * f + j)
    retireSites ps (failSites ps ((ps.foldl (fun st q => siteOff q st) s).raise EV.FIELD_SHORT 3 f (leBytes 1 f))) := rfl

theorem rimFault_eq (g : Nat) (s : State) : rimFault g s =
    (let s1 := ((List.range 8).map (fun j => 8 * g + j)).foldl (fun st k => linkOff k st) s
    let s2 := ((List.range 4).map (fun j => 4 * g + j)).foldl (fun st k => st.setFld (F.RIM_STACK_STS_state k) 2) s1
    let s3 := s2.undefAt 0 s2.edgeSize
    degrade { s3 with pwr := { s3.pwr with segs := if s3.pwr.segs.contains g then s3.pwr.segs else g :: s3.pwr.segs } }) := by
  unfold rimFault linksOf stacksOf
  rfl

theorem slice0_powerFaults : Slice0.PowerFaults := by
  unfold Slice0.PowerFaults
  intro site field seg half s p dark
  rw [exec_phaseLoss, exec_regulatorControllerFault, exec_siteShort, exec_vfieldShort, exec_rimConverterFault, exec_alwaysOnConverterFault]
  exact ⟨fun h => congrArg _ (phaseLoss_more h), fun h => congrArg _ ((phaseLoss_third h).trans (siteDark_eq _ _ _)),
    congrArg _ (siteDark_eq _ _ _), congrArg _ (siteDark_eq _ _ _), congrArg _ (fieldDark_eq _ _), congrArg _ (rimFault_eq _ _), congrArg _ (halfFault_eq half.toNat s)⟩

/-! ## What the faults have in common (R28, R30, R357) -/

section
variable {p : Nat} {s : State}

theorem failSites_single : failSites [p] s = match s.coreAt p with | some n => declareFail n s | none => s := rfl

theorem retireSites_single : retireSites [p] s =
    if s.siteState p = siSpare then spareLow (countSpares (if s.siteState p ≤ siSpare then s.setSite p siRetired 0 else s))
    else countSpares (if s.siteState p ≤ siSpare then s.setSite p siRetired 0 else s) := if_congr (by simp) rfl rfl

end

theorem slice0_faultOutcomes : Slice0.FaultOutcomes := by
  unfold Slice0.FaultOutcomes
  refine ⟨fun p s => ⟨fun h => ?_, fun n h => ?_, fun h => ?_, fun h => ?_, fun h => ?_⟩, fun s h => if_pos h, fun s h => if_neg (ne_true_of_eq_false h)⟩
  · rw [failSites_single, h]
  · rw [failSites_single, h]
    exact declareFail_eq_failed n s
  · rw [retireSites_single, if_neg (Nat.ne_of_gt h), if_neg (Nat.not_le.2 h)]
  · rw [retireSites_single, h, if_neg (by decide), if_pos (by decide)]
  · rw [retireSites_single, h, if_pos rfl, if_pos (by decide)]

/-- Settles O40, from the windows of Crevasse, the service registers, the faults of the power chain and what they have in common. -/
theorem powerChain : Obligations.PowerChain := ⟨slice0_crevasseWindows, slice0_serviceWrites, slice0_powerFaults, slice0_faultOutcomes⟩

end Sys2Proof.Machine
end

section
/-! # Device time (O53; spec/16 R372-R375) -/

namespace Sys2Proof.Machine

theorem exec_devTimeCorrection (elapsed : Nat) (s : State) : exec (.devTimeCorrection elapsed) s = .next (timeCorrection elapsed s) := by rfl
theorem exec_ptpMessage (m : PtpMsg) (s : State) : exec (.ptpMessage m) s = .next (ptpSync m s) := by rfl
theorem exec_ptpSyncLoss (secs : Nat) (s : State) : exec (.ptpSyncLoss secs) s = .next (syncLoss secs s) := by rfl
theorem exec_ptpHoldoverExceeded (secs : Nat) (s : State) : exec (.ptpHoldoverExceeded secs) s = .next (holdoverEnd secs s) := by rfl
theorem exec_devTimeSetWrite (v : W64) (s : State) : exec (.devTimeSetWrite v) s = .next (timeSet v s) := by rfl

/-! ## Corrections and steps (R372, R373) -/

theorem slewOf_natAbs (slew : Int) (elapsed : Nat) : (slewOf slew elapsed).natAbs ≤ elapsed * 200 / 1000000 := by
  unfold slewOf
  dsimp only
  split <;> [skip; split] <;> omega

/-- DEV_TIME never goes backward: the slew is less than the time that has passed. -/
theorem slewOf_forward (slew : Int) (elapsed : Nat) : 0 ≤ (elapsed : Int) + slewOf slew elapsed := by
  have := slewOf_natAbs slew elapsed
  omega

theorem State.now_addTime (s : State) (n : Nat) : (s.addTime n).now = BitVec.ofNat 64 (s.now.toNat + n) := by
  rw [State.now, State.addTime, State.reg_setReg, if_pos rfl]

theorem ofNat_add_toNat {n : Nat} {d : Int} (h : 0 ≤ d) : BitVec.ofNat 64 (n + d.toNat) = BitVec.ofInt 64 (n + d) := by
  have hd : ((n + d.toNat : Nat) : Int) = n + d := by omega
  rw [← hd, BitVec.ofInt_natCast]

theorem timeSet_job {v : W64} {s : State} (h : s.jobLoaded = true) : timeSet v s = s.setFld F.CLK_PTP_STS_code E.TIME_STEP := if_pos h

theorem timeSet_forward {v : W64} {s : State} (h : s.jobLoaded = false) (hv : s.now.toNat ≤ v.toNat) :
    timeSet v s = State.setReg { s with wear := { s.wear with slew := 0 } } F.DEV_TIME.addr v :=
  (if_neg (ne_true_of_eq_false h)).trans (if_pos hv)

theorem timeSet_back {v : W64} {s : State} (h : s.jobLoaded = false) (hv : v.toNat < s.now.toNat) :
    timeSet v s = { s with wear := { s.wear with slew := (v.toNat : Int) - s.now.toNat } } :=
  (if_neg (ne_true_of_eq_false h)).trans (if_neg (Nat.not_le.2 hv))

theorem slice0_timeAdvances : Slice0.TimeAdvances := by
  unfold Slice0.TimeAdvances
  refine ⟨fun elapsed s => ?_, fun v s => ?_⟩
  · refine ⟨slewOf_natAbs _ _, slewOf_forward _ _, _, exec_devTimeCorrection elapsed s, ?_, rfl, rfl, rfl, rfl⟩
    exact (State.now_addTime { s with wear := { s.wear with slew := s.wear.slew - slewOf s.wear.slew elapsed } } _).trans
      (ofNat_add_toNat (slewOf_forward _ _))
  · rw [exec_devTimeSetWrite]
    refine ⟨fun h => congrArg _ (timeSet_job h), fun h hv => ⟨_, (exec_devTimeSetWrite v s).trans (congrArg _ (timeSet_forward h hv)), ?_, rfl, rfl⟩,
      fun h hv => congrArg _ (timeSet_back h hv)⟩
    rw [State.now, State.reg_setReg, if_pos rfl]

/-! ## The states of Table 16-4 (R373-R375) -/

theorem State.setPtp_state {st : Nat} (h : st < 4) (err : Nat) (s : State) : (s.setPtp st err).fld F.CLK_PTP_STS_state = st := by
  rw [State.setPtp, State.fld_setFld_bits _ _ _ _ (by decide), State.fld_setFld _ _ _ (by decide)]
  exact Nat.mod_eq_of_lt (Nat.lt_trans h (by decide))

theorem State.setPtp_err (st err : Nat) (s : State) : (s.setPtp st err).fld F.CLK_PTP_STS_err_ns = Nat.min err 0xFFFFFFFF := by
  rw [State.setPtp, State.fld_setFld _ _ _ (by decide)]
  exact Nat.mod_eq_of_lt (Nat.lt_of_le_of_lt (Nat.min_le_right _ _) (by decide))

theorem State.setPtp_now (st err : Nat) (s : State) : (s.setPtp st err).now = s.now := by
  unfold State.now State.setPtp
  rw [State.reg_setFld_ne _ _ _ _ (by decide), State.reg_setFld_ne _ _ _ _ (by decide)]

/-- A sync message that DEV_TIME follows. -/
def State.follows (s : State) (m : PtpMsg) : Prop :=
  s.lodgeRuns = true ∧ m.valid = true ∧ m.domain.toNat = s.fld F.CLK_PTP_CFG_domain ∧ m.transport.toNat = s.fld F.CLK_PTP_CFG_transport

section
variable {m : PtpMsg} {s : State}

theorem ptpSync_foreign (h : ¬ s.follows m) : ptpSync m s = s := by
  refine if_pos ?_
  rw [Bool.not_eq_true', ← Bool.not_eq_true]
  simpa [State.follows, and_assoc] using h

theorem not_foreign (h : s.follows m) :
    ¬ (!(s.lodgeRuns && m.valid && decide (m.domain.toNat = s.fld F.CLK_PTP_CFG_domain) && decide (m.transport.toNat = s.fld F.CLK_PTP_CFG_transport))) = true := by
  simpa [State.follows, and_assoc] using h

/-- What a sync message sets besides the state of time, where it is slewed and where it is stepped. -/
def State.slewed (s : State) (good : Nat) (offset : Int) : State := { s with wear := { s.wear with good := good, slew := offset } }
def State.stepped (s : State) (good : Nat) (offset : Int) : State := State.addTime { s with wear := { s.wear with good := good, slew := 0 } } offset.toNat

/-- The state of time after a message: near once more, or not. -/
def ptpOutcome (m : PtpMsg) (good : Nat) (t : State) : State :=
  if m.offset.natAbs ≤ 1000 ∧ (t.fld F.CLK_PTP_STS_state = 2 ∨ 16 ≤ good) then
    let t1 := State.setPtp { t with wear := { t.wear with lock := true } } 2 1000
    if t.fld F.CLK_PTP_STS_state = 2 then t1 else t1.raiseDev EV.TIME_LOCK []
  else t.setPtp 1 m.offset.natAbs

theorem ptpSync_follows (h : s.follows m) : ptpSync m s =
    (let good := if m.offset.natAbs ≤ 1000 then Nat.min 16 (s.wear.good + 1) else 0
    ptpOutcome m good (if s.jobLoaded = false ∧ 100000 < m.offset then s.stepped good m.offset else s.slewed good m.offset)) := by
  refine (if_neg (not_foreign h)).trans ?_
  unfold ptpOutcome State.stepped State.slewed
  simp only [decide_eq_true_eq, Bool.and_eq_true, Bool.not_eq_true', ptpLocked, ptpAcquiring]

theorem ptpOutcome_locked {t : State} {good : Nat} (hn : m.offset.natAbs ≤ 1000) (h : t.fld F.CLK_PTP_STS_state = 2) :
    ptpOutcome m good t = State.setPtp { t with wear := { t.wear with lock := true } } 2 1000 :=
  (if_pos ⟨hn, Or.inl h⟩).trans (if_pos h)

theorem ptpOutcome_locks {t : State} {good : Nat} (hn : m.offset.natAbs ≤ 1000) (h : t.fld F.CLK_PTP_STS_state ≠ 2) (hg : 16 ≤ good) :
    ptpOutcome m good t = (State.setPtp { t with wear := { t.wear with lock := true } } 2 1000).raiseDev EV.TIME_LOCK [] :=
  (if_pos ⟨hn, Or.inr hg⟩).trans (if_neg h)

theorem ptpOutcome_acquires {t : State} {good : Nat} (h : m.offset.natAbs ≤ 1000 → t.fld F.CLK_PTP_STS_state ≠ 2 ∧ good < 16) :
    ptpOutcome m good t = t.setPtp 1 m.offset.natAbs :=
  if_neg fun ⟨hn, hs⟩ => hs.elim (h hn).1 (Nat.not_le.2 (h hn).2)

theorem ptpSync_near (h : s.follows m) (hn : m.offset.natAbs ≤ 1000) :
    ptpSync m s = ptpOutcome m (Nat.min 16 (s.wear.good + 1)) (s.slewed (Nat.min 16 (s.wear.good + 1)) m.offset) := by
  have hno : ¬ (s.jobLoaded = false ∧ 100000 < m.offset) := fun ⟨_, ho⟩ => by omega
  rw [ptpSync_follows h, if_pos hn]
  dsimp only
  rw [if_neg hno]

theorem ptpSync_far (h : s.follows m) (hn : ¬ m.offset.natAbs ≤ 1000) :
    ptpSync m s = State.setPtp (if s.jobLoaded = false ∧ 100000 < m.offset then s.stepped 0 m.offset else s.slewed 0 m.offset) 1 m.offset.natAbs := by
  rw [ptpSync_follows h, if_neg hn]
  exact ptpOutcome_acquires fun hn' => absurd hn' hn

end

section
variable {secs : Nat} {s : State}

theorem syncLoss_free (h : s.fld F.CLK_PTP_STS_state = 0) : syncLoss secs s = s := by
  rw [syncLoss, h]
  rfl

theorem syncLoss_acquiring (h : s.fld F.CLK_PTP_STS_state = 1) : syncLoss secs s =
    if s.wear.lock then (State.setPtp { s with wear := { s.wear with good := 0 } } 3 (1000 + 100 * secs)).raiseDev EV.TIME_HOLDOVER []
    else State.setPtp { s with wear := { s.wear with good := 0 } } 0 0xFFFFFFFF := by
  rw [syncLoss, h]
  rfl

theorem syncLoss_locked (h : s.fld F.CLK_PTP_STS_state = 2) :
    syncLoss secs s = (State.setPtp { s with wear := { s.wear with good := 0 } } 3 (1000 + 100 * secs)).raiseDev EV.TIME_HOLDOVER [] := by
  rw [syncLoss, h]
  rfl

theorem syncLoss_holdover (h : s.fld F.CLK_PTP_STS_state = 3) :
    syncLoss secs s = State.setPtp { s with wear := { s.wear with good := 0 } } 3 (1000 + 100 * secs) := by
  rw [syncLoss, h]
  rfl

theorem holdoverEnd_exceeded (h : s.fld F.CLK_PTP_STS_state = 3) (hb : s.fld F.CLK_PTP_CFG_holdover_ns < 1000 + 100 * secs) : holdoverEnd secs s =
    (State.setPtp { s with wear := { s.wear with lock := false } } 0 0xFFFFFFFF).raiseDev EV.TIME_UNSYNC (leBytes 4 (1000 + 100 * secs)) := if_pos ⟨h, hb⟩

theorem holdoverEnd_stays (h : s.fld F.CLK_PTP_STS_state ≠ 3 ∨ 1000 + 100 * secs ≤ s.fld F.CLK_PTP_CFG_holdover_ns) : holdoverEnd secs s = s :=
  if_neg fun ⟨h3, hb⟩ => h.elim (· h3) (Nat.not_le.2 hb)

end

/-- The messages of a clock that DEV_TIME follows, and those of another. -/
theorem ptpMessage_cases (m : PtpMsg) (s : State) :
    let ok := s.follows m
    let near := m.offset.natAbs ≤ 1000
    let good := Nat.min 16 (s.wear.good + 1)
    (¬ ok → ptpSync m s = s)
    ∧ (ok → near → s.fld F.CLK_PTP_STS_state = 2 →
      ptpSync m s = State.setPtp { s with wear := { s.wear with good := good, slew := m.offset, lock := true } } 2 1000)
    ∧ (ok → near → s.fld F.CLK_PTP_STS_state ≠ 2 → 15 ≤ s.wear.good → ptpSync m s =
      (State.setPtp { s with wear := { s.wear with good := good, slew := m.offset, lock := true } } 2 1000).raiseDev EV.TIME_LOCK [])
    ∧ (ok → near → s.fld F.CLK_PTP_STS_state ≠ 2 → s.wear.good < 15 → ptpSync m s = (s.slewed good m.offset).setPtp 1 m.offset.natAbs)
    ∧ (ok → ¬ near → (s.jobLoaded = true ∨ m.offset ≤ 100000) → ptpSync m s = (s.slewed 0 m.offset).setPtp 1 m.offset.natAbs)
    ∧ (ok → s.jobLoaded = false → 100000 < m.offset → ptpSync m s = (s.stepped 0 m.offset).setPtp 1 m.offset.natAbs) := by
  intro ok near good
  refine ⟨ptpSync_foreign, fun h hn h2 => (ptpSync_near h hn).trans (ptpOutcome_locked hn h2), fun h hn h2 hg => (ptpSync_near h hn).trans ?_,
    fun h hn h2 hg => (ptpSync_near h hn).trans ?_, fun h hn hj => (ptpSync_far h hn).trans ?_, fun h hj ho => (ptpSync_far h (by omega)).trans ?_⟩
  · exact ptpOutcome_locks hn h2 (Nat.le_min.2 ⟨Nat.le_refl _, by omega⟩)
  · exact ptpOutcome_acquires fun _ => ⟨h2, Nat.lt_of_le_of_lt (Nat.min_le_right _ _) (by omega)⟩
  · rw [if_neg fun ⟨h1, h2⟩ => hj.elim (ne_true_of_eq_false h1) (Int.not_le.2 h2)]
  · rw [if_pos ⟨hj, ho⟩]

theorem slice0_timeStates : Slice0.TimeStates := by
  unfold Slice0.TimeStates
  refine ⟨fun m s => ?_, fun secs s => ?_, fun st err s h => ⟨State.setPtp_state h err s, State.setPtp_err st err s, State.setPtp_now st err s⟩⟩
  · intro ok near good
    rw [exec_ptpMessage]
    obtain ⟨hforeign, hlocked, hlocks, hacquires, hslewed, hstepped⟩ := ptpMessage_cases m s
    refine ⟨fun h => congrArg _ (hforeign h), fun h hn h2 => congrArg _ (hlocked h hn h2), fun h hn h2 hg => congrArg _ (hlocks h hn h2 hg),
      fun h hn h2 hg => congrArg _ (hacquires h hn h2 hg), fun h hn hj => congrArg _ (hslewed h hn hj),
      fun h hj ho => ⟨_, (exec_ptpMessage m s).trans (congrArg _ (hstepped h hj ho)), ?_, rfl, State.setPtp_state (by decide) _ _, State.setPtp_err _ _ _, rfl, rfl⟩⟩
    rw [State.setPtp_now]
    exact (State.now_addTime _ _).trans (ofNat_add_toNat (by omega))
  · intro s1
    rw [exec_ptpSyncLoss, exec_ptpHoldoverExceeded]
    refine ⟨fun h => congrArg _ (syncLoss_free h), fun h hl => congrArg _ ((syncLoss_acquiring h).trans (if_neg (ne_true_of_eq_false hl))), fun h => congrArg _ ?_,
      fun h => congrArg _ (syncLoss_holdover h), fun h hb => congrArg _ (holdoverEnd_exceeded h hb), fun h => congrArg _ (holdoverEnd_stays h)⟩
    rcases h with h | ⟨h, hl⟩
    · exact syncLoss_locked h
    · exact (syncLoss_acquiring h).trans (if_pos hl)

/-- Settles O53, from the advance of DEV_TIME and the states of Table 16-4. -/
theorem deviceTime : Obligations.DeviceTime := ⟨slice0_timeAdvances, slice0_timeStates⟩

end Sys2Proof.Machine
end

section
/-! # Field references and wear (O54; spec/16 R371, R377-R381; spec/02 R27) -/

namespace Sys2Proof.Machine

theorem exec_fieldRefDeviation (f : BitVec 6) (m : Option (BitVec 6)) (s : State) :
    exec (.fieldRefDeviation f m) s = .next (refFail f.toNat (m.map (·.toNat)) s) := by rfl
theorem exec_heartbeatSample (f : BitVec 6) (missed : BitVec 16) (s : State) :
    exec (.heartbeatSample f missed) s = .next (heartbeatSample f.toNat missed s) := by rfl
theorem exec_wearSlackSample (p : BitVec 10) (slack temp : BitVec 16) (s : State) :
    exec (.wearSlackSample p slack temp) s = .next (slackSample p.toNat slack temp s) := by rfl
theorem exec_vminMeasure (p : BitVec 10) (vmin temp : BitVec 16) (s : State) :
    exec (.vminMeasure p vmin temp) s = .next (vminMeasure p.toNat vmin.toNat temp.toNat s) := by rfl
theorem exec_wearReplan (p : BitVec 10) (q : PlanIn) (s : State) : exec (.wearReplan p q) s = .next (replan p.toNat q s) := by rfl

/-! ## Field references (R371) -/

theorem mem_neighbours {m f : Nat} (h : m < 64) : m ∈ neighbours f ↔ halfOfField m = halfOfField f ∧ fieldDist m f = 1 := by
  rw [neighbours, List.mem_filter, List.mem_range, decide_eq_true_iff]
  exact and_iff_right h

section
variable {f m : Nat} {s : State}

theorem refFail_borrows (hm : m ∈ neighbours f) (h : s.flag (F.CLK_FIELD_STS_borrowed f) = false) : refFail f (some m) s =
    ((State.setFlag { s with wear := { s.wear with noRef := s.wear.noRef.filter (fun g => decide (g ≠ f)) } } (F.CLK_FIELD_STS_borrowed f) true).setFld
      (F.CLK_FIELD_STS_neighbour f) m).raise EV.CLK_REF_FAIL 3 f (leBytes 1 f ++ leBytes 1 m) :=
  if_neg (by simp [h, hm])

theorem refFail_keeps (h : m ∉ neighbours f ∨ s.flag (F.CLK_FIELD_STS_borrowed f) = true) : refFail f (some m) s = s :=
  if_pos (by simpa [or_comm] using h)

theorem refFail_again (h : f ∈ s.wear.noRef) : refFail f none s = s := if_pos (List.contains_iff_mem.2 h)

theorem refFail_alone (h : f ∉ s.wear.noRef) : refFail f none s = { s with wear := { s.wear with noRef := f :: s.wear.noRef } } :=
  if_neg (mt List.contains_iff_mem.1 h)

/-- A field without a reference misses every sample (spec/02 R27). -/
theorem heartbeatSample_noRef (h : f ∈ s.wear.noRef) (m n : BitVec 16) : heartbeatSample f m s = heartbeatSample f n s := by
  cases hh : s.flag F.PWR_STS_hold with
  | true => rw [heartbeatSample, heartbeatSample, if_pos hh, if_pos hh]
  | false =>
    rw [heartbeatSample_eq_foldl hh, heartbeatSample_eq_foldl hh, foldl_sampleSite, foldl_sampleSite, List.contains_iff_mem.2 h]
    simp only [Bool.or_true]

end

theorem slice0_borrowing : Slice0.Borrowing := by
  unfold Slice0.Borrowing
  intro field s f
  refine ⟨fun m => mem_neighbours m.isLt, fun m hm h => ?_, fun m h => ?_, fun h => ?_, fun h => ?_, fun missed h => ?_⟩
  · rw [exec_fieldRefDeviation]
    exact congrArg _ (refFail_borrows hm h)
  · rw [exec_fieldRefDeviation]
    exact congrArg _ (refFail_keeps h)
  · rw [exec_fieldRefDeviation]
    exact congrArg _ (refFail_again h)
  · rw [exec_fieldRefDeviation]
    exact congrArg _ (refFail_alone h)
  · rw [exec_heartbeatSample, exec_heartbeatSample]
    exact congrArg _ (heartbeatSample_noRef h _ _)

/-! ## What the wear log and its events leave -/

/-- The words that events and the wear log write. -/
def wearWords : List Nat := evtWords ++ [F.CLK_WEAR_LOG_HEAD.addr, F.CLK_WEAR_STS_days_top.addr]

theorem vfWord_quiet {i : Nat} (hi : i < 16384) : (F.CLK_SITE_VF_valid i).addr ∉ wearWords := by
  simp only [wearWords, evtWords, List.cons_append, List.nil_append, List.mem_cons, List.not_mem_nil, or_false]
  omega

section
variable {p kind value : Nat} {s : State} {a : Nat}

theorem reg_wearLog (h : a ∉ wearWords) : (wearLog p kind s).reg a = s.reg a :=
  State.reg_setFld_ne _ F.CLK_WEAR_LOG_HEAD _ _ fun he => h (by rw [he]; decide)

theorem reg_wearEvent (h : a ∉ wearWords) : (wearEvent p kind value s).reg a = s.reg a := by
  rw [wearEvent, reg_wearLog h, reg_raise _ _ _ _ _ _ fun he => h (List.mem_append_left _ he)]

theorem reg_siteEnd (h : a ∉ evtWords) : (siteEnd p s).reg a = s.reg a := by
  unfold siteEnd
  split
  · rfl
  · exact reg_raise _ _ _ _ _ _ h

/-- What the wear log keeps. -/
theorem wearLog_keeps : (wearLog p kind s).mem = s.mem ∧ (wearLog p kind s).cores = s.cores ∧ (wearLog p kind s).wear =
    { s.wear with log := (wearRec s p kind :: s.wear.log).take 65536 } := ⟨rfl, rfl, rfl⟩

theorem siteEnd_keeps : (siteEnd p s).mem = s.mem ∧ (siteEnd p s).cores = s.cores ∧ (siteEnd p s).wear = s.wear := by
  unfold siteEnd
  split
  · exact ⟨rfl, rfl, rfl⟩
  · exact ⟨State.raise_mem .., State.raise_cores .., State.raise_wear ..⟩

end

/-- The highest valid point of a site is one of its sixteen. -/
theorem topPoint_lt {s : State} {p k : Nat} (h : s.topPoint p = some k) : k < 16 ∧ s.vfValid p k = true := by
  have := List.mem_of_getLast? h
  rwa [List.mem_filter, List.mem_range] at this

theorem topPoint_none {s : State} {p : Nat} (h : ∀ k, k < 16 → s.vfValid p k = false) : s.topPoint p = none := by
  rw [State.topPoint, List.getLast?_eq_none_iff, List.filter_eq_nil_iff]
  exact fun k hk => ne_true_of_eq_false (h k (List.mem_range.1 hk))

theorem vfValid_congr {s t : State} {p k : Nat} (h : t.reg (F.CLK_SITE_VF_valid (16 * p + k)).addr = s.reg (F.CLK_SITE_VF_valid (16 * p + k)).addr) :
    t.vfValid p k = s.vfValid p k := State.flag_congr h

/-! ## Samples (R377, R378) -/

theorem Sparse.find_mapAt {α : Type} (m : Sparse α) (f : α → α) (p : Nat) :
    Sparse.find (m.map fun q => if q.1 = p then (p, f q.2) else q) p = (Sparse.find m p).map f := by
  induction m with
  | nil => rfl
  | cons q m ih =>
    obtain ⟨j, x⟩ := q
    by_cases h : j = p
    · subst h
      simp [Sparse.find]
    · rw [List.map_cons, if_neg h, Sparse.find, Sparse.find, if_neg (Ne.symm h), if_neg (Ne.symm h), ih]

/-- A slack or Vmin sample is the site's latest reading. -/
def State.wearRead (s : State) (p : Nat) (m : Nat × Nat × Nat) : State := { s with wear := { s.wear with last := Sparse.put s.wear.last p m } }

/-- A site's count of samples below the guard ends. -/
def State.lowEnds (s : State) (p : Nat) : State := { s with wear := { s.wear with low := Sparse.drop s.wear.low p } }

/-- A point of a site is valid no more, and out of force (R377). -/
def State.dropPoint (s : State) (p k : Nat) : State :=
  let s1 := s.setFlag (F.CLK_SITE_VF_valid (16 * p + k)) false
  { s1 with wear := { s1.wear with force := s1.wear.force.map (fun q => if q.1 = p then (p, q.2.filter (· ≠ k)) else q) } }

section
variable {p k : Nat} {s : State}

theorem vfValid_dropPoint : (s.dropPoint p k).vfValid p k = false :=
  State.flag_setFlag s (F.CLK_SITE_VF_valid (16 * p + k)) false (Nat.le_of_ble_eq_true rfl) Nat.one_pos

theorem vfValid_dropPoint_ne {j : Nat} (h : j ≠ k) : (s.dropPoint p k).vfValid p j = s.vfValid p j :=
  State.flag_setFld_addr s (F.CLK_SITE_VF_valid (16 * p + k)) (F.CLK_SITE_VF_valid (16 * p + j)) _ (by dsimp only; omega)

theorem points_of_force {ks : List Nat} (h : Sparse.find s.wear.force p = some ks) : s.points p = ks := by
  rw [State.points, h, Option.getD_some]

theorem points_of_table (h : Sparse.find s.wear.force p = none) : s.points p = (List.range 16).filter (s.vfValid p) := by
  rw [State.points, h, Option.getD_none]
  rfl

theorem points_congr {t : State} (hf : Sparse.find t.wear.force p = Sparse.find s.wear.force p) (h : ∀ k, k < 16 → t.vfValid p k = s.vfValid p k) :
    t.points p = s.points p := by
  cases hs : Sparse.find s.wear.force p with
  | some ks => rw [points_of_force (hf.trans hs), points_of_force hs]
  | none =>
    rw [points_of_table (hf.trans hs), points_of_table hs]
    exact List.filter_congr fun k hk => h k (List.mem_range.1 hk)

theorem not_mem_points_dropPoint : k ∉ (s.dropPoint p k).points p := by
  have hforce : Sparse.find (s.dropPoint p k).wear.force p = (Sparse.find s.wear.force p).map (·.filter (· ≠ k)) := Sparse.find_mapAt _ _ _
  cases hs : Sparse.find s.wear.force p with
  | some ks =>
    rw [points_of_force (hforce.trans (congrArg _ hs))]
    simp
  | none =>
    rw [points_of_table (hforce.trans (congrArg _ hs)), List.mem_filter, vfValid_dropPoint]
    simp

end

section
variable {p : Nat} {slack temp : BitVec 16} {s : State}

/-- The state with a slack sample of R377 read. -/
def State.slackRead (s : State) (p : Nat) (slack temp : BitVec 16) : State :=
  s.wearRead p (slack.toNat, (Sparse.get s.wear.last (0, 0, 0) p).2.1, temp.toNat)

theorem slackSample_off (h : s.sitePower p ≠ 3) : slackSample p slack temp s = s := if_pos h

theorem slackSample_good (h : s.sitePower p = 3) (hs : (s.fld F.CLK_WEAR_CFG_guard_ps : Int) ≤ slack.toInt) :
    slackSample p slack temp s = (s.slackRead p slack temp).lowEnds p :=
  (if_neg (not_not.2 h)).trans (if_neg (Int.not_lt.2 hs))

theorem slackSample_few (h : s.sitePower p = 3) (hs : slack.toInt < s.fld F.CLK_WEAR_CFG_guard_ps) (hn : Sparse.get s.wear.low 0 p + 1 < 100) :
    slackSample p slack temp s = (let s1 := s.slackRead p slack temp
      { s1 with wear := { s1.wear with low := Sparse.put s1.wear.low p (Sparse.get s.wear.low 0 p + 1) } }) :=
  (if_neg (not_not.2 h)).trans ((if_pos hs).trans (if_pos hn))

theorem slackSample_hundredth (h : s.sitePower p = 3) (hs : slack.toInt < s.fld F.CLK_WEAR_CFG_guard_ps) (hn : 100 ≤ Sparse.get s.wear.low 0 p + 1) :
    slackSample p slack temp s = match s.topPoint p with
      | some k => siteEnd p (wearEvent p 1 slack.toNat (((s.slackRead p slack temp).lowEnds p).dropPoint p k))
      | none => wearEvent p 1 slack.toNat ((s.slackRead p slack temp).lowEnds p) :=
  (if_neg (not_not.2 h)).trans ((if_pos hs).trans (if_neg (Nat.not_lt.2 hn)))

end

theorem wearEvent_wear {p kind value : Nat} {s : State} : ∃ l, (wearEvent p kind value s).wear = { s.wear with log := l } :=
  ⟨_, by rw [wearEvent, wearLog_keeps.2.2, State.raise_wear]⟩

theorem wearEvent_keeps {p kind value : Nat} {s : State} : (wearEvent p kind value s).mem = s.mem ∧ (wearEvent p kind value s).cores = s.cores :=
  ⟨State.raise_mem .., State.raise_cores ..⟩

/-- What the removal of the highest valid point leaves (R377). -/
theorem pointRemoved {p k v : Nat} (hp : p < 1024) (hk : k < 16) (s : State) :
    let t := siteEnd p (wearEvent p 1 v (s.dropPoint p k))
    t.vfValid p k = false ∧ (∀ j, j < 16 → j ≠ k → t.vfValid p j = s.vfValid p j) ∧ k ∉ t.points p ∧ t.wear.last = s.wear.last ∧ t.wear.low = s.wear.low
    ∧ t.mem = s.mem ∧ t.cores = s.cores := by
  intro t
  have hreg : ∀ j, j < 16 → t.vfValid p j = (s.dropPoint p k).vfValid p j := fun j hj => by
    have hq := vfWord_quiet (i := 16 * p + j) (by omega)
    exact vfValid_congr ((reg_siteEnd fun he => hq (List.mem_append_left _ he)).trans (reg_wearEvent hq))
  obtain ⟨hmem, hcores, hwear⟩ := siteEnd_keeps (p := p) (s := wearEvent p 1 v (s.dropPoint p k))
  obtain ⟨l, hev⟩ := wearEvent_wear (p := p) (kind := 1) (value := v) (s := s.dropPoint p k)
  have hw : t.wear = { (s.dropPoint p k).wear with log := l } := hwear.trans hev
  refine ⟨(hreg k hk).trans vfValid_dropPoint, fun j hj hne => (hreg j hj).trans (vfValid_dropPoint_ne hne), ?_, by rw [hw]; rfl, by rw [hw]; rfl,
    hmem.trans wearEvent_keeps.1, hcores.trans wearEvent_keeps.2⟩
  rw [points_congr (s := s.dropPoint p k) (by rw [hw]) hreg]
  exact not_mem_points_dropPoint

section
variable {p v temp : Nat} {s : State}

/-- The state with a Vmin measurement of R378 read. -/
def State.vminRead (s : State) (p v temp : Nat) : State := s.wearRead p ((Sparse.get s.wear.last (0, 0, 0) p).1, v, temp)

theorem vminMeasure_off (h1 : s.sitePower p ≠ 1) (h2 : s.sitePower p ≠ 2) : vminMeasure p v temp s = s := if_neg fun h => h.elim h1 h2

theorem vminMeasure_on (h : s.sitePower p = 1 ∨ s.sitePower p = 2) : vminMeasure p v temp s = match Sparse.find s.wear.vmin p with
    | some v0 => if v0 + 10 < v then wearEvent p 2 v (s.vminRead p v temp) else s.vminRead p v temp
    | none => s.vminRead p v temp := if_pos h

end

theorem slice0_wearSamples : Slice0.WearSamples := by
  unfold Slice0.WearSamples
  refine ⟨fun site slack temp s => ?_, fun site vmin temp s => ?_⟩
  · intro p m s1 n
    rw [exec_wearSlackSample]
    refine ⟨fun h => congrArg _ (slackSample_off h), fun h => ⟨fun hs => congrArg _ (slackSample_good h hs), fun hs hn => congrArg _ (slackSample_few h hs hn),
      fun k hs hn hk => ⟨_, (exec_wearSlackSample ..).trans (congrArg _ (slackSample_hundredth h hs hn)), ?_⟩, fun hs hn hk => ?_⟩⟩
    · rw [hk]
      obtain ⟨hv, hother, hpoints, hlast, hlow, hmem, hcores⟩ :=
        pointRemoved (p := p) (v := slack.toNat) site.isLt (topPoint_lt hk).1 ((s.slackRead p slack temp).lowEnds p)
      exact ⟨hv, hother, hpoints, hlast, hlow, hmem, hcores⟩
    · rw [slackSample_hundredth h hs hn, hk]
      rfl
  · intro p m s1
    rw [exec_vminMeasure]
    refine ⟨fun h1 h2 => congrArg _ (vminMeasure_off h1 h2), fun h => ?_⟩
    rw [vminMeasure_on h]
    refine ⟨fun hf => ?_, fun v hf hv => ?_, fun v hf hv => ?_⟩
    · rw [hf]
      rfl
    · rw [hf]
      exact congrArg _ (if_pos hv)
    · rw [hf]
      exact congrArg _ (if_neg (Nat.not_lt.2 hv))

/-! ## Plans (R379-R381) -/

/-- The set points that a plan gives a point (R379). -/
def planVcore (p : Nat) (q : PlanIn) (now : State) (k : Nat) : Nat := Nat.max (5 * ceilDiv (planNeed now p q k + now.guardUv p) 5000) (now.vcore p k)
def planVsram (p : Nat) (q : PlanIn) (now : State) (k : Nat) : Nat := Nat.max (Nat.max 550 (q.vminMv + 50)) (now.vsram p k)

/-- A point as a plan leaves it. -/
def Planned (p : Nat) (q : PlanIn) (now : State) (k : Nat) (t : State) : Prop :=
  t.vfValid p k = decide (planVcore p q now k ≤ 900 ∧ planVsram p q now k ≤ 850) ∧ t.vsram p k = Nat.min (planVsram p q now k) 1023
  ∧ t.vcore p k = Nat.min (planVcore p q now k) 1023

/-- A point's set points and its validity. -/
def State.setPoint (s : State) (i v m : Nat) (b : Bool) : State :=
  ((s.setFld (F.CLK_SITE_VF_vcore_mv i) v).setFld (F.CLK_SITE_VF_vsram_mv i) m).setFlag (F.CLK_SITE_VF_valid i) b

section
variable {s : State} {i v m : Nat} {b : Bool}

theorem reg_setPoint {a : Nat} (h : a ≠ (F.CLK_SITE_VF_valid i).addr) : (s.setPoint i v m b).reg a = s.reg a := by
  have hc : a ≠ (F.CLK_SITE_VF_vcore_mv i).addr := h
  have hm : a ≠ (F.CLK_SITE_VF_vsram_mv i).addr := h
  rw [State.setPoint, State.setFlag, State.reg_setFld_ne _ _ _ _ h, State.reg_setFld_ne _ _ _ _ hm, State.reg_setFld_ne _ _ _ _ hc]

theorem flag_setPoint : (s.setPoint i v m b).flag (F.CLK_SITE_VF_valid i) = b := by
  rw [State.setPoint, State.flag_setFlag _ _ _ (Nat.le_of_ble_eq_true rfl) Nat.one_pos]

theorem fld_setPoint_vsram : (s.setPoint i v m b).fld (F.CLK_SITE_VF_vsram_mv i) = m % 2 ^ 10 := by
  rw [State.setPoint, State.setFlag, State.fld_setFld_bits _ _ _ _ (Or.inl (Nat.le_of_ble_eq_true rfl)), State.fld_setFld _ _ _ (Nat.le_of_ble_eq_true rfl)]

theorem fld_setPoint_vcore : (s.setPoint i v m b).fld (F.CLK_SITE_VF_vcore_mv i) = v % 2 ^ 10 := by
  rw [State.setPoint, State.setFlag, State.fld_setFld_bits _ _ _ _ (Or.inl (Nat.le_of_ble_eq_true rfl)),
    State.fld_setFld_bits _ _ _ _ (Or.inl (Nat.le_of_ble_eq_true rfl)), State.fld_setFld _ _ _ (Nat.le_of_ble_eq_true rfl)]

end

theorem planPoint_eq (p : Nat) (q : PlanIn) (now s : State) (k : Nat) : planPoint p q now s k =
    (let v := Nat.max (5 * ceilDiv (planNeed now p q k + now.guardUv p) 5000) (s.vcore p k)
    let m := Nat.max (Nat.max 550 (q.vminMv + 50)) (s.vsram p k)
    s.setPoint (16 * p + k) (Nat.min v 1023) (Nat.min m 1023) (decide (v ≤ 900 ∧ m ≤ 850))) := by
  unfold State.setPoint
  rfl

section
variable {p : Nat} {q : PlanIn} {now s : State} {k : Nat}

theorem Planned.congr {t : State} (h : Planned p q now k s) (he : t.reg (F.CLK_SITE_VF_valid (16 * p + k)).addr = s.reg (F.CLK_SITE_VF_valid (16 * p + k)).addr) :
    Planned p q now k t := by
  obtain ⟨hv, hm, hc⟩ := h
  exact ⟨(State.flag_congr he).trans hv, (State.fld_congr (f := F.CLK_SITE_VF_vsram_mv (16 * p + k)) he).trans hm,
    (State.fld_congr (f := F.CLK_SITE_VF_vcore_mv (16 * p + k)) he).trans hc⟩

theorem reg_planPoint {a : Nat} (h : a ≠ (F.CLK_SITE_VF_valid (16 * p + k)).addr) : (planPoint p q now s k).reg a = s.reg a := by
  rw [planPoint_eq, reg_setPoint h]

theorem min_1023_mod (v : Nat) : Nat.min v 1023 % 2 ^ 10 = Nat.min v 1023 := Nat.mod_eq_of_lt (Nat.lt_of_le_of_lt (Nat.min_le_right _ _) (by decide))

theorem planned_planPoint (hs : s.reg (F.CLK_SITE_VF_valid (16 * p + k)).addr = now.reg (F.CLK_SITE_VF_valid (16 * p + k)).addr) :
    Planned p q now k (planPoint p q now s k) := by
  have hc : s.vcore p k = now.vcore p k := State.fld_congr (f := F.CLK_SITE_VF_vcore_mv (16 * p + k)) hs
  have hm : s.vsram p k = now.vsram p k := State.fld_congr (f := F.CLK_SITE_VF_vsram_mv (16 * p + k)) hs
  rw [planPoint_eq, hc, hm]
  exact ⟨flag_setPoint, fld_setPoint_vsram.trans (min_1023_mod _), fld_setPoint_vcore.trans (min_1023_mod _)⟩

/-- A plan of the first `n` points: those are planned, and every other register is as it was. -/
theorem planPoints (p : Nat) (q : PlanIn) (s : State) (n : Nat) :
    (∀ k, k < n → Planned p q s k ((List.range n).foldl (planPoint p q s) s))
    ∧ ∀ a, (∀ k, k < n → a ≠ (F.CLK_SITE_VF_valid (16 * p + k)).addr) → ((List.range n).foldl (planPoint p q s) s).reg a = s.reg a := by
  induction n with
  | zero => exact ⟨fun k hk => absurd hk (Nat.not_lt_zero k), fun _ _ => rfl⟩
  | succ n ih =>
    obtain ⟨hplanned, hreg⟩ := ih
    rw [List.range_succ, List.foldl_append, List.foldl_cons, List.foldl_nil]
    refine ⟨fun k hk => ?_, fun a ha => ?_⟩
    · by_cases hkn : k = n
      · subst hkn
        exact planned_planPoint (hreg _ fun j hj => by dsimp only; omega)
      · exact (hplanned k (by omega)).congr (reg_planPoint (by dsimp only; omega))
    · rw [reg_planPoint (ha n (by omega))]
      exact hreg a fun k hk => ha k (by omega)

theorem planPoint_keeps : (planPoint p q now s k).mem = s.mem ∧ (planPoint p q now s k).cores = s.cores ∧ (planPoint p q now s k).wear = s.wear := by
  rw [planPoint_eq]
  exact ⟨rfl, rfl, rfl⟩

end

/-- The sixteen points of a site planned. -/
def planTable (p : Nat) (q : PlanIn) (s : State) : State := (List.range 16).foldl (planPoint p q s) s

section
variable {p k : Nat} {q : PlanIn} {s : State}

theorem planned_planTable (hk : k < 16) : Planned p q s k (planTable p q s) := (planPoints p q s 16).1 k hk

theorem reg_planTable {a : Nat} (h : a < 0x3000A010000) : (planTable p q s).reg a = s.reg a :=
  (planPoints p q s 16).2 a fun k _ => by dsimp only; omega

theorem planTable_keeps : (planTable p q s).mem = s.mem ∧ (planTable p q s).cores = s.cores ∧ (planTable p q s).wear = s.wear :=
  ⟨foldl_keeps State.mem (fun _ _ => planPoint_keeps.1) _ _, foldl_keeps State.cores (fun _ _ => planPoint_keeps.2.1) _ _,
    foldl_keeps State.wear (fun _ _ => planPoint_keeps.2.2) _ _⟩

end

/-! ## The forecasts (R381) -/

/-- The least forecast of the plans for their top point. -/
def daysTop (s : State) (every : Nat) : Nat := (s.wear.plans.map (fun r => lineDays (r.2.map (·.1)) every)).foldl Nat.min 0xFFFFFFFF

theorem foldl_min_le (l : List Nat) (a : Nat) : l.foldl Nat.min a ≤ a := by
  induction l generalizing a with
  | nil => exact Nat.le_refl a
  | cons x l ih => exact Nat.le_trans (ih _) (Nat.min_le_left _ _)

/-- What the forecasts leave: the two forecasts, and what an event writes. -/
theorem forecast_leaves (s : State) : (forecast s).fld F.CLK_WEAR_STS_days_top = daysTop s (s.fld F.CLK_WEAR_CFG_plan_days)
    ∧ (∀ a, a ∉ evtWords → a ≠ F.CLK_WEAR_STS_days_top.addr → (forecast s).reg a = s.reg a) ∧ (forecast s).wear = s.wear ∧ (forecast s).mem = s.mem
    ∧ (forecast s).cores = s.cores := by
  have hfld : ∀ spare, ((s.setFld F.CLK_WEAR_STS_days_top (daysTop s (s.fld F.CLK_WEAR_CFG_plan_days))).setFld F.CLK_WEAR_STS_days_spare spare).fld
      F.CLK_WEAR_STS_days_top = daysTop s (s.fld F.CLK_WEAR_CFG_plan_days) := fun spare => by
    rw [State.fld_setFld_bits _ _ _ _ (by decide), State.fld_setFld _ _ _ (by decide)]
    exact Nat.mod_eq_of_lt (Nat.lt_of_le_of_lt (foldl_min_le _ _) (by decide))
  have hreg : ∀ spare a, a ≠ F.CLK_WEAR_STS_days_top.addr →
      ((s.setFld F.CLK_WEAR_STS_days_top (daysTop s (s.fld F.CLK_WEAR_CFG_plan_days))).setFld F.CLK_WEAR_STS_days_spare spare).reg a = s.reg a :=
    fun spare a h => (State.reg_setFld_ne _ F.CLK_WEAR_STS_days_spare _ _ h).trans (State.reg_setFld_ne _ _ _ _ h)
  unfold forecast
  extract_lets every top low spare s1
  split
  · refine ⟨(fld_raise _ _ _ _ _ _ (by decide)).trans (hfld spare), fun a ha h => (reg_raise _ _ _ _ _ _ ha).trans (hreg spare a h),
      State.raise_wear .., State.raise_mem .., State.raise_cores ..⟩
  · exact ⟨hfld spare, fun a _ h => hreg spare a h, rfl, rfl, rfl⟩

/-! ## A plan as a whole -/

/-- The end of a plan, after which its points are set: a site without a valid point, the record of the log, the forecasts. -/
def planEnd (p kind : Nat) (x : State) : State := forecast (wearLog p kind (siteEnd p x))

/-- What a plan of `s` keeps beside the points in `x`. -/
def planKept (p : Nat) (q : PlanIn) (s x : State) : State :=
  { x with wear := { x.wear with
    vmin := Sparse.put x.wear.vmin p q.vminMv
    plans := Sparse.put x.wear.plans p (((x.vcore p 15, x.vcore p 0) :: Sparse.get x.wear.plans [] p).take 12)
    last := Sparse.put x.wear.last p (q.slackPs.toNat, q.vminMv, q.temp.toNat)
    force := Sparse.put x.wear.force p (s.points p) } }

theorem fld_planKept (p : Nat) (q : PlanIn) (s x : State) (f : Fld) : (planKept p q s x).fld f = x.fld f := rfl

theorem reg_planKept (p : Nat) (q : PlanIn) (s x : State) (a : Nat) : (planKept p q s x).reg a = x.reg a := rfl

theorem planKept_keeps (p : Nat) (q : PlanIn) (s x : State) : (planKept p q s x).mem = x.mem ∧ (planKept p q s x).cores = x.cores := ⟨rfl, rfl⟩

theorem log_planKept (p : Nat) (q : PlanIn) (s x : State) : (planKept p q s x).wear.log = x.wear.log := rfl

theorem replan_eq (p : Nat) (q : PlanIn) (s : State) : ∃ kind, replan p q s = planEnd p kind (planKept p q s (planTable p q s)) := ⟨_, rfl⟩

section
variable {p kind : Nat} {x : State}

theorem reg_planEnd {a : Nat} (h : a ∉ wearWords) : (planEnd p kind x).reg a = x.reg a := by
  have hevt : a ∉ evtWords := fun he => h (List.mem_append_left _ he)
  rw [planEnd, (forecast_leaves _).2.1 a hevt fun he => h (by rw [he]; decide), reg_wearLog h, reg_siteEnd hevt]

theorem planEnd_keeps : (planEnd p kind x).mem = x.mem ∧ (planEnd p kind x).cores = x.cores := by
  obtain ⟨_, _, _, hmem, hcores⟩ := forecast_leaves (wearLog p kind (siteEnd p x))
  obtain ⟨hmemE, hcoresE, _⟩ := siteEnd_keeps (p := p) (s := x)
  exact ⟨hmem.trans hmemE, hcores.trans hcoresE⟩

theorem planEnd_wear : ∃ l, l.length = Nat.min (x.wear.log.length + 1) 65536 ∧ (planEnd p kind x).wear = { x.wear with log := l } := by
  refine ⟨(wearRec (siteEnd p x) p kind :: x.wear.log).take 65536, ?_, ?_⟩
  · rw [List.length_take, List.length_cons]
    exact Nat.min_comm _ _
  · rw [planEnd, (forecast_leaves _).2.2.1, wearLog_keeps.2.2, siteEnd_keeps.2.2]

theorem planEnd_head : (planEnd p kind x).fld F.CLK_WEAR_LOG_HEAD = (x.fld F.CLK_WEAR_LOG_HEAD + 1) % 65536 := by
  rw [planEnd, State.fld_congr ((forecast_leaves _).2.1 F.CLK_WEAR_LOG_HEAD.addr (by decide) (by decide)), wearLog,
    State.fld_congr (f := F.CLK_WEAR_LOG_HEAD) (reg_siteEnd (p := p) (s := x) (by decide))]
  exact (State.fld_setFld _ F.CLK_WEAR_LOG_HEAD _ (by decide)).trans (Nat.mod_eq_of_lt (Nat.mod_lt _ (by decide)))

theorem planEnd_daysTop : (planEnd p kind x).fld F.CLK_WEAR_STS_days_top = daysTop (planEnd p kind x) (x.fld F.CLK_WEAR_CFG_plan_days) := by
  obtain ⟨htop, _, hwear, _, _⟩ := forecast_leaves (wearLog p kind (siteEnd p x))
  have hdays : (wearLog p kind (siteEnd p x)).fld F.CLK_WEAR_CFG_plan_days = x.fld F.CLK_WEAR_CFG_plan_days :=
    State.fld_congr ((reg_wearLog (by decide)).trans (reg_siteEnd (by decide)))
  rw [planEnd, htop, hdays, daysTop, daysTop, hwear]

end

section
variable {p k : Nat} {q : PlanIn} {s x t : State}

theorem planned_planEnd {kind : Nat} (hp : p < 1024) (hk : k < 16) (h : Planned p q s k x) : Planned p q s k (planEnd p kind (planKept p q s x)) := by
  refine h.congr ?_
  rw [reg_planEnd (vfWord_quiet (by omega)), reg_planKept]

/-- Where every point is beyond its limits, the site has none, and runs at 0.90 V (R379). -/
theorem planned_dead (h : ∀ k, k < 16 → Planned p q s k t) (hd : ∀ k, k < 16 → ¬ (planVcore p q s k ≤ 900 ∧ planVsram p q s k ≤ 850)) :
    t.topPoint p = none ∧ t.runVcore p 0 = 900 := by
  have hnone := topPoint_none fun k hk => ((h k hk).1).trans (decide_eq_false (hd k hk))
  exact ⟨hnone, by rw [State.runVcore, hnone]; rfl⟩

theorem Planned.iff (h : Planned p q s k t) : (t.vfValid p k = true ↔ planVcore p q s k ≤ 900 ∧ planVsram p q s k ≤ 850)
    ∧ t.vsram p k = Nat.min (planVsram p q s k) 1023 ∧ t.vcore p k = Nat.min (planVcore p q s k) 1023 := by
  obtain ⟨hv, hm, hc⟩ := h
  exact ⟨by rw [hv, decide_eq_true_iff], hm, hc⟩

end

theorem slice0_wearPlan : Slice0.WearPlan := by
  unfold Slice0.WearPlan
  intro site q s
  obtain ⟨kind, hreplan⟩ := replan_eq site.toNat q s
  refine ⟨_, (exec_wearReplan site q s).trans (congrArg _ hreplan), ?_⟩
  have hp : site.toNat < 1024 := site.isLt
  generalize hx : planTable site.toNat q s = x
  have hplanned : ∀ k, k < 16 → Planned site.toNat q s k (planEnd site.toNat kind (planKept site.toNat q s x)) := fun k hk =>
    planned_planEnd hp hk (hx ▸ planned_planTable hk)
  have hhead : x.fld F.CLK_WEAR_LOG_HEAD = s.fld F.CLK_WEAR_LOG_HEAD := hx ▸ State.fld_congr (reg_planTable (by decide))
  have hdays : x.fld F.CLK_WEAR_CFG_plan_days = s.fld F.CLK_WEAR_CFG_plan_days := hx ▸ State.fld_congr (reg_planTable (by decide))
  obtain ⟨hmem, hcores, hkept⟩ := hx ▸ planTable_keeps (p := site.toNat) (q := q) (s := s)
  obtain ⟨l, hlen, hwear⟩ := planEnd_wear (p := site.toNat) (kind := kind) (x := planKept site.toNat q s x)
  obtain ⟨hmemE, hcoresE⟩ := planEnd_keeps (p := site.toNat) (kind := kind) (x := planKept site.toNat q s x)
  obtain ⟨hmemK, hcoresK⟩ := planKept_keeps site.toNat q s x
  refine ⟨fun k hk => (hplanned k hk).iff, planned_dead hplanned, ?_, ?_, ?_, ?_, ?_, ?_, hmemE.trans (hmemK.trans hmem), hcoresE.trans (hcoresK.trans hcores)⟩
  · exact points_of_force (by rw [hwear]; exact (Sparse.find_put ..).trans (if_pos rfl))
  · rw [hwear, ← hkept]
    rfl
  · rw [hwear, ← hkept]
    rfl
  · rw [hwear, ← hkept, hlen, log_planKept]
  · rw [planEnd_head, fld_planKept, hhead]
  · rw [planEnd_daysTop, fld_planKept, hdays]
    rfl

/-- Settles O54, from the references of fields, the wear samples and the plans. -/
theorem wear : Obligations.Wear := ⟨slice0_borrowing, slice0_wearSamples, slice0_wearPlan⟩

end Sys2Proof.Machine
end

section
/-! # A step, and the completion of every command (O1, O2) -/

namespace Sys2Proof.Machine

section
variable {s : State}

theorem pausesEnd_none (h : s.net.paused = []) : pausesEnd s = s := if_pos (List.isEmpty_iff.2 h)

theorem fetchWake_none (h : s.ws.waiting = []) : fetchWake s = s := by
  rw [fetchWake, h]
  split <;> rfl

theorem linksTick_quiet (hr : s.ws.recs = []) (hw : s.ws.waiting = []) (hp : s.net.paused = []) (hi : s.net.inb = []) : linksTick s = s := by
  rw [linksTick, if_pos (List.isEmpty_iff.2 hr), pausesEnd_none hp, fetchWake_none hw, inbGo_nil hi]

theorem fabTick_quiet (hb : s.fab.bufs = []) (hw : s.fab.waits = []) : fabTick s = s := by
  rw [fabTick, hb, hw]
  rfl

end

/-- Settles O1, from the step's two cases and what each part of a step does with nothing waiting. -/
theorem stepRunsFrontCommand : Obligations.StepRunsFrontCommand := by
  refine ⟨fun c rest s => step_front rfl, fun s h => step_empty h, fun s h hr hw hp hi hb hm hc => ?_⟩
  rw [step_empty h, linksTick_quiet hr hw hp hi, fabTick_quiet hb hm, coresTick_idle hc]

/-- The command whose arm branches before it answers. -/
theorem wstreamKeyTimeout_completes (epoch : BitVec 16) (s : State) : ∃ t, exec (.wstreamKeyTimeout epoch) s = .next t := by
  change ∃ t, execWstreamKeyTimeout epoch s = .next t
  unfold execWstreamKeyTimeout
  dsimp only
  split <;> exact ⟨_, rfl⟩

/-- Settles O2, command by command: the arm of each answers `go` of a state. -/
theorem everyCommandCompletes : Obligations.EveryCommandCompletes := by
  intro c s
  cases c
  case wstreamKeyTimeout epoch => exact wstreamKeyTimeout_completes epoch s
  all_goals exact ⟨_, rfl⟩

end Sys2Proof.Machine
end

section
/-! # Presence commands (O57; spec/17 R393, R400-R403) -/

namespace Sys2Proof.Machine

theorem exec_presenceButton (s : State) : exec .presenceButton s = .next (presConfirm s) := by rfl
theorem exec_presenceTimeout (s : State) : exec .presenceTimeout s = .next (presTimeout s) := by rfl
theorem exec_serviceJumperClose (s : State) : exec .serviceJumperClose s = .next (jumper s) := by rfl
theorem exec_secFwCommit (v : W64) (s : State) : exec (.secFwCommit v) s = .next (fwCommit v s) := by rfl

/-! ## A press, and the end of a staged command -/

section
variable {s : State} {c : Staged}

theorem presConfirm_idle (h : s.lodge.staged = none) : presConfirm s = s.bump F.SEC_PRES_IDLE_CNT := by
  rw [presConfirm, h]

theorem presConfirm_staged (h : s.lodge.staged = some c) : presConfirm s =
    ((presEffect c { s with lodge := { s.lodge with staged := none } }).setFlag F.SEC_PRES_STS_pending false).raiseDev EV.PRES_DONE (leBytes 1 c.cmd) := by
  rw [presConfirm, h]

theorem presTimeout_idle (h : s.lodge.staged = none) : presTimeout s = s := by
  rw [presTimeout, h]

theorem presTimeout_staged (h : s.lodge.staged = some c) : presTimeout s = (presDiscard s).raiseDev EV.PRES_TIMEOUT (leBytes 1 c.cmd) := by
  rw [presTimeout, h]

theorem presDiscard_none (h : s.lodge.staged = none) : presDiscard s = s := if_pos (by rw [h]; rfl)

theorem presDiscard_some (h : s.lodge.staged.isSome = true) : presDiscard s =
    ((State.setFlag { s with lodge := { s.lodge with staged := none } } F.SEC_PRES_STS_pending false).setFld F.SEC_PRES_STS_code E.PRES_TIMEOUT) :=
  if_neg (by rw [← Option.not_isSome, h]; decide)

theorem presDiscard_code (h : s.lodge.staged.isSome = true) : (presDiscard s).fld F.SEC_PRES_STS_code = E.PRES_TIMEOUT := by
  rw [presDiscard_some h, State.fld_setFld _ _ _ (by decide)]
  rfl

theorem presDiscard_pending (h : s.lodge.staged.isSome = true) : (presDiscard s).flag F.SEC_PRES_STS_pending = false := by
  rw [presDiscard_some h, State.flag_setFld_bits _ _ _ _ (by decide), State.flag_setFlag _ _ _ (by decide) (by decide)]

end

/-! ## The effects of Table 17-10 -/

section
variable {s : State} {arg : List Byte}

theorem presEffect_downgrade : presEffect ⟨1, arg⟩ s =
    if arg = s.lodge.fwDigest ∧ (s.fwCopy (1 - s.fwActive)).any (fun f => decide (f.svn.toNat < s.lodge.nsvn)) then
      { s with lodge := { s.lodge with downgrade := true } } else s := rfl

theorem presEffect_permits {f : Bundle} (ha : arg = s.lodge.fwDigest) (hf : s.fwCopy (1 - s.fwActive) = some f) (hn : f.svn.toNat < s.lodge.nsvn) :
    presEffect ⟨1, arg⟩ s = { s with lodge := { s.lodge with downgrade := true } } := by
  rw [presEffect_downgrade, hf, if_pos ⟨ha, by simpa using hn⟩]

theorem presEffect_foreign (h : arg ≠ s.lodge.fwDigest ∨ s.fwCopy (1 - s.fwActive) = none) : presEffect ⟨1, arg⟩ s = s := by
  rw [presEffect_downgrade]
  refine if_neg fun ⟨ha, hf⟩ => ?_
  rcases h with h | h
  · exact h ha
  · rw [h] at hf
    exact Bool.false_ne_true hf

theorem presEffect_current {f : Bundle} (hf : s.fwCopy (1 - s.fwActive) = some f) (hn : s.lodge.nsvn ≤ f.svn.toNat) : presEffect ⟨1, arg⟩ s = s := by
  rw [presEffect_downgrade, hf]
  exact if_neg fun ⟨_, h⟩ => Nat.not_lt.2 hn (by simpa using h)

theorem recordPut_store (type : Nat) (payload : List Byte) (s : State) : (recordPut type payload s).lodge.store = s.lodge.store := by
  unfold recordPut
  split <;> rfl

theorem recordPut_idGen (type : Nat) (payload : List Byte) (s : State) : (recordPut type payload s).idGen = s.idGen :=
  recordPut_keeps State.idGen (fun _ _ => rfl) type payload s

theorem recordPut_ws (type : Nat) (payload : List Byte) (s : State) : (recordPut type payload s).ws = s.ws :=
  recordPut_keeps State.ws (fun _ _ => rfl) type payload s

/-- The state whose records an erasure writes: a new identity, no keys of the store (log 162). -/
def State.erased (s : State) : State :=
  let s1 := { s with
    idGen := s.idGen + 1, ivRecord := if s.lodge.noIv then 0 else s.ivRecord
    lodge := { s.lodge with noIv := false, store := [] } }
  if s.lodge.noIv then recordPut 9 (leBytes 8 0) s1 else s1

theorem State.erased_keeps : s.erased.idGen = s.idGen + 1 ∧ s.erased.lodge.store = [] ∧ s.erased.ws = s.ws := by
  unfold State.erased
  split
  · exact ⟨recordPut_idGen .., recordPut_store .., recordPut_ws ..⟩
  · exact ⟨rfl, rfl, rfl⟩

theorem presEffect_erases : presEffect ⟨2, arg⟩ s = [2, 5, 1, 7].foldl (fun st t => recordPut t [] st) s.erased := rfl

theorem presEffect_erase_keeps : (presEffect ⟨2, arg⟩ s).idGen = s.idGen + 1 ∧ (presEffect ⟨2, arg⟩ s).lodge.store = [] ∧ (presEffect ⟨2, arg⟩ s).ws = s.ws := by
  obtain ⟨hid, hstore, hws⟩ := s.erased_keeps
  rw [presEffect_erases]
  exact ⟨(foldl_keeps State.idGen (fun _ _ => recordPut_idGen ..) _ _).trans hid,
    (foldl_keeps (fun t : State => t.lodge.store) (fun _ _ => recordPut_store ..) _ _).trans hstore,
    (foldl_keeps State.ws (fun _ _ => recordPut_ws ..) _ _).trans hws⟩

theorem presEffect_clears : (presEffect ⟨4, arg⟩ s).ws.keys = [] ∧ (presEffect ⟨4, arg⟩ s).lodge.store = [] :=
  ⟨congrArg Wstream.keys (recordPut_ws 7 [] (State.clearKeys { s with lodge := { s.lodge with store := [] } })), recordPut_store ..⟩

end

/-! ## The jumper, and the commit of n_svn (R393, R402) -/

section
variable {s : State} {v : W64} {f : Bundle}

theorem jumper_open (h : s.lodge.opened = true) : jumper s = presConfirm s := by
  rw [jumper, if_pos h]

theorem jumper_seal (h : s.lodge.opened = false) : jumper s = presConfirm (recordPut 8 [1] { s with lodge := { s.lodge with opened := true } }) := by
  rw [jumper, if_neg (ne_true_of_eq_false h)]

theorem recordPut_opened (type : Nat) (payload : List Byte) (s : State) : (recordPut type payload s).lodge.opened = s.lodge.opened := by
  unfold recordPut
  split <;> rfl

theorem presEffect_opened (c : Staged) (s : State) : (presEffect c s).lodge.opened = s.lodge.opened := by
  unfold presEffect
  dsimp only
  split
  · split <;> rfl
  · refine (foldl_keeps (fun t : State => t.lodge.opened) (fun _ _ => recordPut_opened ..) _ _).trans ?_
    split
    · exact recordPut_opened ..
    · rfl
  · rfl
  · exact recordPut_opened ..
  · exact recordPut_opened ..
  · rfl
  · rfl

theorem presConfirm_opened (s : State) : (presConfirm s).lodge.opened = s.lodge.opened := by
  unfold presConfirm
  split
  · exact State.bump_lodge_opened ..
  · exact (State.raiseDev_lodge_opened ..).trans (presEffect_opened _ _)

theorem fwCommit_none (h : v.getLsbD 0 = false ∨ s.fwCopy s.fwActive = none) : fwCommit v s = s := by
  unfold fwCommit
  split
  case h_1 f hf =>
    refine if_neg fun ⟨hv, _⟩ => ?_
    rcases h with h | h
    · exact Bool.false_ne_true (h.symm.trans hv)
    · exact Option.some_ne_none f (hf.symm.trans h)
  case h_2 => rfl

theorem fwCommit_some (hf : s.fwCopy s.fwActive = some f) : fwCommit v s =
    if v.getLsbD 0 ∧ s.lodge.nsvn < f.svn.toNat ∧ s.lodge.micro = some f then
      recordPut 3 (leBytes 4 f.svn.toNat) { s with lodge := { s.lodge with nsvn := f.svn.toNat } } else s := by
  rw [fwCommit, hf]

end

/-- Settles O57, from a press and a timeout, the effects of Table 17-10, the jumper and the commit. -/
theorem presence : Obligations.Presence := by
  unfold Obligations.Presence
  refine ⟨fun s h => ?_, fun s c h => ?_, fun s arg => ?_, fun s h => ?_, fun s h => ?_, fun v s => ?_⟩
  · rw [exec_presenceButton, exec_presenceTimeout, presConfirm_idle h, presTimeout_idle h]
    exact ⟨rfl, rfl⟩
  · have hsome : s.lodge.staged.isSome = true := by rw [h]; rfl
    rw [exec_presenceButton, exec_presenceTimeout, presConfirm_staged h, presTimeout_staged h]
    refine ⟨rfl, rfl, _, (exec_presenceTimeout s).trans (congrArg _ (presTimeout_staged h)), ?_, ?_, ?_, ?_, ?_, ?_⟩
    · rw [State.raiseDev_lodge_staged, presDiscard_some hsome]
      rfl
    · exact (fld_raise _ _ _ _ _ F.SEC_PRES_STS_code (by decide)).trans (presDiscard_code hsome)
    · exact (State.flag_congr (f := F.SEC_PRES_STS_pending) (reg_raise _ _ _ _ _ _ (by decide))).trans (presDiscard_pending hsome)
    · rw [State.raiseDev_mem, presDiscard_some hsome]
      rfl
    · rw [State.raiseDev_ws, presDiscard_some hsome]
      rfl
    · rw [State.raiseDev_cores, presDiscard_some hsome]
      rfl
  · obtain ⟨hid, hstore, hws⟩ := presEffect_erase_keeps (s := s) (arg := arg)
    obtain ⟨hkeys, hcleared⟩ := presEffect_clears (s := s) (arg := arg)
    exact ⟨fun f ha hf hn => presEffect_permits ha hf hn, presEffect_foreign, fun f hf hn => presEffect_current hf hn, hid, hstore, hws, rfl, hkeys, hcleared,
      rfl, rfl⟩
  · rw [exec_serviceJumperClose, exec_presenceButton, jumper_open h]
  · refine ⟨_, (exec_serviceJumperClose s).trans (congrArg _ (jumper_seal h)), ?_, (exec_presenceButton _).symm⟩
    rw [presConfirm_opened, recordPut_opened]
  · rw [exec_secFwCommit]
    refine ⟨fun h => congrArg _ (fwCommit_none h), fun f hv hf => ⟨fun h => congrArg _ ((fwCommit_some hf).trans (if_neg ?_)),
      fun hn hm => congrArg _ ((fwCommit_some hf).trans (if_pos ⟨hv, hn, hm⟩))⟩⟩
    rintro ⟨_, hn, hm⟩
    exact h.elim (Nat.not_le.2 hn) (· hm)

end Sys2Proof.Machine
end

section
/-! # The Lodge: restarts, boot chain, records, keys and events (O55; spec/17 R384, R385, R390-R398, R406; spec/15 R349, R361; spec/20 R446) -/

namespace Sys2Proof.Machine

theorem exec_lodgeWatchdogExpiry (w : BitVec 3) (s : State) : exec (.lodgeWatchdogExpiry w) s = .next (lodgeRestart 0 s) := by rfl
theorem exec_lodgeMemoryError (s : State) : exec .lodgeMemoryError s = .next (lodgeRestart 1 s) := by rfl
theorem exec_devLodgeRestart (v : W64) (s : State) : exec (.devLodgeRestart v) s = .next (if v.getLsbD 0 then lodgeRestart 2 s else s) := by rfl
theorem exec_lodgeRestartDone (b : BootIn) (s : State) : exec (.lodgeRestartDone b) s = .next (lodgeDone b s) := by rfl
theorem exec_powerLoopWatchdog (s : State) : exec .powerLoopWatchdog s = .next (loopWatchdog s) := by rfl
theorem exec_holdupEnd (s : State) : exec .holdupEnd s = .next (if s.pwr.failed then
    (let s1 := startReset true s
    { s1 with boot := { s1.boot with present := false } }) else s) := by rfl
theorem exec_coolantLeak (sensor : BitVec 2) (s : State) : exec (.coolantLeak sensor) s = .next (coolantLeak sensor.toNat s) := by rfl
theorem exec_evtSubscribePush (k : BitVec 4) (s : State) : exec (.evtSubscribePush k) s = .next (evtPush k.toNat s) := by rfl

/-! ## Events while the Lodge restarts, and when it is back -/

section
variable {s : State}

theorem State.bumpQuiet_lodge (s : State) (f : Fld) (n : Nat) : (s.bumpQuiet f n).1.lodge = s.lodge := by
  unfold State.bumpQuiet
  dsimp only
  split <;> rfl

theorem State.bumpQuiet_events (s : State) (f : Fld) (n : Nat) : (s.bumpQuiet f n).1.events = s.events := by
  unfold State.bumpQuiet
  dsimp only
  split <;> rfl

theorem State.appendEvent_lodge (s : State) (r : EvtRec) : (s.appendEvent r).lodge = s.lodge := by
  unfold State.appendEvent
  dsimp only
  split
  · exact State.bumpQuiet_lodge ..
  · rfl

/-- In a restart an event waits at a bridge, or is lost. -/
theorem State.putEvent_held (h : s.lodge.restart.isSome = true) (r : EvtRec) :
    (s.putEvent r).events = s.events ∧ (s.putEvent r).lodge.restart.isSome = true := by
  unfold State.putEvent
  rw [if_neg (by rw [← Option.not_isSome, h]; decide)]
  dsimp only
  split
  · exact ⟨rfl, h⟩
  · exact ⟨State.bumpQuiet_events .., by rw [State.bumpQuiet_lodge]; exact h⟩

theorem State.raiseQuiet_held (h : s.lodge.restart.isSome = true) (c k src : Nat) (p : List Byte) :
    (s.raiseQuiet c k src p).events = s.events ∧ (s.raiseQuiet c k src p).lodge.restart.isSome = true := by
  unfold State.raiseQuiet
  split
  · refine List.foldlRecOn _ _ (motive := fun t : State => t.events = s.events ∧ t.lodge.restart.isSome = true) ⟨rfl, h⟩ fun t ⟨he, hr⟩ x _ => ?_
    exact ⟨(State.putEvent_held hr _).1.trans he, (State.putEvent_held hr _).2⟩
  · exact ⟨State.bumpQuiet_events .., by rw [State.bumpQuiet_lodge]; exact h⟩

theorem State.satReport_held (s0 : State) (f : Fld) (h : s.lodge.restart.isSome = true) :
    (s0.satReport f s).events = s.events ∧ (s0.satReport f s).lodge.restart.isSome = true := by
  unfold State.satReport
  dsimp only
  split
  · exact State.raiseQuiet_held h ..
  · exact ⟨rfl, h⟩

theorem State.raise_events_held (h : s.lodge.restart.isSome = true) (c k src : Nat) (p : List Byte) : (s.raise c k src p).events = s.events := by
  obtain ⟨he, hr⟩ := State.raiseQuiet_held h c k src p
  obtain ⟨he1, hr1⟩ := State.satReport_held s F.EVT_LOST_CNT hr
  obtain ⟨he2, hr2⟩ := State.satReport_held s F.EVT_MASKED_CNT hr1
  exact (State.satReport_held (s.satReport F.EVT_LOST_CNT (s.raiseQuiet c k src p)) F.EVT_LOST_CNT hr2).1.trans (he2.trans (he1.trans he))

/-- While the Lodge runs, events leave its state as it is. -/
theorem State.raiseQuiet_lodge (h : s.lodge.restart = none) (c k src : Nat) (p : List Byte) : (s.raiseQuiet c k src p).lodge = s.lodge := by
  unfold State.raiseQuiet
  split
  · refine List.foldlRecOn _ _ (motive := fun t : State => t.lodge = s.lodge) rfl fun t ht x _ => ?_
    rw [State.putEvent, if_pos (by rw [ht, h]; rfl), State.appendEvent_lodge, ht]
  · exact State.bumpQuiet_lodge ..

theorem State.satReport_lodge (s0 : State) (f : Fld) (h : s.lodge.restart = none) : (s0.satReport f s).lodge = s.lodge := by
  unfold State.satReport
  dsimp only
  split
  · exact State.raiseQuiet_lodge h ..
  · rfl

theorem State.ringReports_lodge (s0 : State) (h : s.lodge.restart = none) : (s0.ringReports s).lodge = s.lodge := by
  have h1 := State.satReport_lodge s0 F.EVT_LOST_CNT h
  have h2 := State.satReport_lodge s0 F.EVT_MASKED_CNT (s := s0.satReport F.EVT_LOST_CNT s) (by rw [h1, h])
  exact (State.satReport_lodge (s0.satReport F.EVT_LOST_CNT s) F.EVT_LOST_CNT (by rw [h2, h1, h])).trans (h2.trans h1)

theorem State.ringReports_self (s : State) : s.ringReports s = s := by
  have hsat : ∀ f, s.satReport f s = s := fun f => if_neg (by cases (s.reg (f.addr + 8)).getLsbD 0 <;> simp)
  rw [State.ringReports, hsat, hsat, hsat]

end

/-- The Lodge back with its own settings, before the events that have waited enter the ring (spec/15 R343). -/
def State.resettled (s : State) : State :=
  { s with
    lodge := { s.lodge with restart := none, buf := [] }
    pwr := { s.pwr with telCap := s.fld F.PWR_TEL_RING_frames, frames := s.pwr.frames.take (s.fld F.PWR_TEL_RING_frames) } }

theorem lodgeBack_eq (s : State) : lodgeBack s =
    s.resettled.ringReports (s.lodge.buf.foldr (fun p (st : State) => st.appendEvent { p.2 with seq := st.evSeq }) s.resettled) := rfl

theorem lodgeBack_lodge (s : State) : (lodgeBack s).lodge = { s.lodge with restart := none, buf := [] } := by
  have hfold : (s.lodge.buf.foldr (fun p (st : State) => st.appendEvent { p.2 with seq := st.evSeq }) s.resettled).lodge = s.resettled.lodge :=
    List.foldrRecOn _ _ (motive := fun t : State => t.lodge = s.resettled.lodge) rfl fun t ht p _ => (State.appendEvent_lodge ..).trans ht
  rw [lodgeBack_eq, State.ringReports_lodge _ (by rw [hfold]; rfl), hfold]
  rfl

theorem lodgeBack_cores (s : State) : (lodgeBack s).cores = s.cores := by
  rw [lodgeBack_eq, (quiet_ringReports _ _).field State.cores fun _ _ _ _ _ => rfl]
  exact List.foldrRecOn _ _ (motive := fun t : State => t.cores = s.cores) rfl fun t ht p _ =>
    ((quiet_appendEvent _ _).field State.cores fun _ _ _ _ _ => rfl).trans ht

theorem lodgeBack_events {s : State} (h : s.lodge.buf = []) : (lodgeBack s).events = s.events := by
  rw [lodgeBack_eq, h, List.foldr_nil, State.ringReports_self]
  rfl

/-! ## Restarts (R384, R385) -/

/-- The state in which a restart of the Lodge begins. -/
def State.restarting (s : State) (cause : Nat) (r : Option Nat) : State :=
  let d := presDiscard s
  State.raiseDev { d with lodge := { d.lodge with restart := r, sessions := [], recovery := false } } EV.LODGE_RESTART (leBytes 1 cause)

section
variable {cause : Nat} {s : State}

theorem presDiscard_restart (s : State) : (presDiscard s).lodge.restart = s.lodge.restart := by
  unfold presDiscard
  split <;> rfl

theorem presDiscard_events (s : State) : (presDiscard s).events = s.events := by
  unfold presDiscard
  split <;> rfl

theorem lodgeRestart_early (h : s.fld F.DEV_BOOT_STS_stage < 3) : lodgeRestart cause s = s := if_pos h

theorem lodgeRestart_late (h : 3 ≤ s.fld F.DEV_BOOT_STS_stage) : lodgeRestart cause s =
    s.restarting cause (if s.fld F.DEV_BOOT_STS_stage = 3 then (presDiscard s).lodge.restart else some cause) := if_neg (Nat.not_lt.2 h)

theorem lodgeRestart_three (h : s.fld F.DEV_BOOT_STS_stage = 3) : lodgeRestart cause s = s.restarting cause s.lodge.restart := by
  rw [lodgeRestart_late (Nat.le_of_eq h.symm), if_pos h, presDiscard_restart]

theorem lodgeRestart_running (h : 3 < s.fld F.DEV_BOOT_STS_stage) : lodgeRestart cause s = s.restarting cause (some cause) := by
  rw [lodgeRestart_late (Nat.le_of_lt h), if_neg (Nat.ne_of_gt h)]

theorem State.restarting_events (s : State) (cause r : Nat) : (s.restarting cause (some r)).events = s.events :=
  (State.raise_events_held rfl ..).trans (presDiscard_events s)

/-- What each cause of a restart does. -/
theorem lodgeRestart_cases (cause : Nat) (s : State) :
    (s.fld F.DEV_BOOT_STS_stage < 3 → lodgeRestart cause s = s)
    ∧ (s.fld F.DEV_BOOT_STS_stage = 3 → lodgeRestart cause s = s.restarting cause s.lodge.restart)
    ∧ (3 < s.fld F.DEV_BOOT_STS_stage → lodgeRestart cause s = s.restarting cause (some cause) ∧ (s.restarting cause (some cause)).events = s.events) :=
  ⟨lodgeRestart_early, lodgeRestart_three, fun h => ⟨lodgeRestart_running h, s.restarting_events cause cause⟩⟩

end

section
variable {b : BootIn} {s : State}

theorem lodgeDone_none (h : s.lodge.restart = none) : lodgeDone b s = s := if_pos (by rw [h]; rfl)

theorem lodgeDone_some (h : s.lodge.restart.isSome = true) : lodgeDone b s =
    (let s1 := bootChain false b { s with lodge := { s.lodge with sessions := [] } }
    if s1.lodge.recovery then s1 else lodgeBack s1) := if_neg (by rw [← Option.not_isSome, h]; decide)

theorem loopWatchdog_idle (h : s.lodgeRuns = false ∨ s.pwr.off = true) : loopWatchdog s = s :=
  if_pos (by rcases h with h | h <;> rw [h] <;> simp)

theorem loopWatchdog_acts (h : s.lodgeRuns = true) (ho : s.pwr.off = false) :
    loopWatchdog s = if s.flag F.PWR_STS_clamp then engage 5 s else (engage 5 s).setFld F.PWR_CLAMP_STS_stretch 32 :=
  if_neg (by rw [h, ho]; decide)

end

theorem slice0_lodgeRestarts : Slice0.LodgeRestarts := by
  unfold Slice0.LodgeRestarts
  refine ⟨fun c hc s => ?_, fun w v s => ?_, fun s => ?_, fun b s => ?_, fun s => ?_, fun s => ?_⟩
  · have hexec : exec c.1 s = .next (lodgeRestart c.2 s) := by
      simp only [List.mem_cons, List.not_mem_nil, or_false] at hc
      rcases hc with rfl | rfl | rfl
      · exact exec_lodgeWatchdogExpiry 0 s
      · exact exec_lodgeMemoryError s
      · exact (exec_devLodgeRestart 1 s).trans (congrArg _ (if_pos rfl))
    obtain ⟨hearly, hthree, hrunning⟩ := lodgeRestart_cases c.2 s
    rw [hexec]
    exact ⟨fun h => congrArg _ (hearly h), fun h => congrArg _ (hthree h), fun h => ⟨congrArg _ (hrunning h).1, (hrunning h).2⟩⟩
  · rw [exec_lodgeWatchdogExpiry, exec_lodgeWatchdogExpiry, exec_devLodgeRestart, exec_devLodgeRestart]
    exact ⟨rfl, fun h => congrArg _ (if_neg (ne_true_of_eq_false h)), fun h => congrArg _ ((if_pos h).trans (if_pos rfl).symm)⟩
  · exact ⟨presDiscard_none, fun h => ⟨by rw [presDiscard_some h]; rfl, presDiscard_pending h, presDiscard_code h⟩⟩
  · intro s1
    rw [exec_lodgeRestartDone]
    exact ⟨fun h => congrArg _ (lodgeDone_none h), fun h hr => congrArg _ ((lodgeDone_some h).trans (if_pos hr)),
      fun h hr => congrArg _ ((lodgeDone_some h).trans (if_neg (ne_true_of_eq_false hr)))⟩
  · exact ⟨by rw [lodgeBack_lodge], by rw [lodgeBack_lodge], lodgeBack_mem s, lodgeBack_cores s, lodgeBack_events⟩
  · rw [exec_powerLoopWatchdog]
    exact ⟨fun h => congrArg _ (loopWatchdog_idle h), fun h ho hc => congrArg _ ((loopWatchdog_acts h ho).trans (if_pos hc)),
      fun h ho hc => congrArg _ ((loopWatchdog_acts h ho).trans (if_neg (ne_true_of_eq_false hc)))⟩

/-! ## The boot chain (R390, R391, R393) -/

section
variable {b : BootIn} {down : Option Nat} {c st code : Nat} {sts : List Nat} {s : State} {f : Bundle}

theorem fwFails_none (h : s.fwCopy c = none) : fwFails b down c s st = some E.FW_SIG := by
  rw [fwFails, h]

theorem fwFails_some (h : s.fwCopy c = some f) : fwFails b down c s st =
    if b.fwBad.any (fun p => decide (p.1.toNat = c ∧ p.2 = st)) ∨ (st = 0 ∧ f.root ≠ s.lodge.rom) then some E.FW_SIG
    else if f.svn.toNat < s.lodge.nsvn ∧ down ≠ some c then some E.FW_ROLLBACK else none := by
  rw [fwFails, h]

theorem not_spoilt (hb : b.fwBad.any (fun p => decide (p.1.toNat = c ∧ p.2 = st)) = false) (hr : st = 0 → f.root = s.lodge.rom) :
    ¬ (b.fwBad.any (fun p => decide (p.1.toNat = c ∧ p.2 = st)) = true ∨ (st = 0 ∧ f.root ≠ s.lodge.rom)) :=
  fun h => h.elim (ne_true_of_eq_false hb) fun ⟨h0, hne⟩ => hne (hr h0)

theorem fwFirst_none : fwFirst b down c sts s = none ↔ ∀ st ∈ sts, fwFails b down c s st = none := by
  rw [fwFirst, List.findSome?_eq_none_iff]
  exact forall₂_congr fun st _ => Option.map_eq_none_iff

/-- The state in which a boot turns to the other copy (R391). -/
def fwFallback (c st code : Nat) (s : State) : State :=
  let s1 := (s.raiseDev EV.BOOT_FALLBACK (leBytes 1 st ++ leBytes 2 code)).setFld F.SEC_FW_STS_code code
  if c = s1.fwActive then s1 else fwStaged 2 s1

theorem fwLoad_good (h : ∀ st ∈ sts, fwFails b down c s st = none) : fwLoad b down c sts s = (fwMeasure c sts s, some c) := by
  rw [fwLoad, fwFirst_none.2 h]

theorem fwLoad_bad (h : fwFirst b down c sts s = some (st, code)) : fwLoad b down c sts s = match fwFirst b none (1 - c) sts (fwFallback c st code s) with
    | none => (fwMeasure (1 - c) sts (fwFallback c st code s), some (1 - c))
    | some _ => ({ fwFallback c st code s with lodge := { (fwFallback c st code s).lodge with recovery := true } }, none) := by
  rw [fwLoad, h]
  rfl

theorem fwLoad_other (h : fwFirst b down c sts s = some (st, code)) (ho : ∀ st2 ∈ sts, fwFails b none (1 - c) (fwFallback c st code s) st2 = none) :
    fwLoad b down c sts s = (fwMeasure (1 - c) sts (fwFallback c st code s), some (1 - c)) := by
  rw [fwLoad_bad h, fwFirst_none.2 ho]

theorem fwLoad_neither (h : fwFirst b down c sts s = some (st, code))
    (ho : ∃ st2 ∈ sts, (fwFails b none (1 - c) (fwFallback c st code s) st2).isSome = true) :
    (fwLoad b down c sts s).2 = none ∧ (fwLoad b down c sts s).1.lodge.recovery = true := by
  obtain ⟨st2, hm, h2⟩ := ho
  rw [fwLoad_bad h]
  cases hf : fwFirst b none (1 - c) sts (fwFallback c st code s) with
  | none =>
    rw [fwFirst_none.1 hf st2 hm] at h2
    exact absurd h2 Bool.false_ne_true
  | some _ => exact ⟨rfl, rfl⟩

/-- The measurement registers that a boot chain resets. -/
def State.unmeasured (s : State) (full : Bool) : State := ([0, 1, 2, 5, 6, 7] ++ if full then [3, 4] else []).foldl (fun st i => measReset i st) s

theorem measReset_cores (i : Nat) (s : State) : (measReset i s).cores = s.cores := State.setGroup_keeps State.cores (fun _ _ _ => rfl) _ _ _

theorem unmeasured_cores (full : Bool) (s : State) : (s.unmeasured full).cores = s.cores :=
  foldl_keeps (f := fun st i => measReset i st) State.cores (fun st i => measReset_cores i st) _ _

theorem bootChain_noPuf (full : Bool) (h : b.pufFail = true) : bootChain full b s =
    (let s1 := keysBoot false (s.unmeasured full)
    State.raiseDev { s1 with lodge := { s1.lodge with recovery := true } } EV.REC_FAIL (leBytes 1 0 ++ leBytes 2 E.REC_SIG)) := if_pos h

theorem bootChain_recovers (full : Bool) (h : b.pufFail = true) : (bootChain full b s).lodge.recovery = true ∧ (bootChain full b s).lodge.keys = false
    ∧ (bootChain full b s).mem = s.mem ∧ (bootChain full b s).cores = s.cores := by
  refine ⟨?_, ?_, bootChain_mem full b s, ?_⟩
  · rw [bootChain_noPuf full h]
    exact State.raiseDev_lodge_recovery ..
  · rw [bootChain_noPuf full h]
    exact State.raiseDev_lodge_keys ..
  · rw [bootChain_noPuf full h]
    have hcores := unmeasured_cores full s
    generalize s.unmeasured full = u at hcores ⊢
    exact (State.raiseDev_cores ..).trans hcores

theorem group_measure (i : Nat) (digest : List Byte) (s : State) : (measure i digest s).group (measFld i).addr 8 =
    wordsOf (sha512 (s.groupBytes (measFld i) 8 ++ digest)) := by
  have hlen : (wordsOf (sha512 (s.groupBytes (measFld i) 8 ++ digest))).length = 8 := by rw [length_wordsOf, length_sha512]
  have hgroup := State.group_setGroup s (measFld i).addr (wordsOf (sha512 (s.groupBytes (measFld i) 8 ++ digest)))
  rwa [hlen] at hgroup

theorem group_measReset (i : Nat) (s : State) : (measReset i s).group (measFld i).addr 8 = List.replicate 8 0 :=
  State.group_setGroup s (measFld i).addr (List.replicate 8 0)

end

theorem slice0_firmwareBoot : Slice0.FirmwareBoot := by
  unfold Slice0.FirmwareBoot
  refine ⟨fun b down c st s => ⟨fwFails_none, fun f hf => ?_⟩, fun b down c sts s => ?_, fun full b s h => bootChain_recovers full h, fun i digest s => ?_⟩
  · rw [fwFails_some hf]
    refine ⟨fun h => if_pos h, fun hb hr => ⟨fun hn hd => ?_, fun h => ?_⟩⟩
    · rw [if_neg (not_spoilt hb hr), if_pos ⟨hn, hd⟩]
    · rw [if_neg (not_spoilt hb hr), if_neg fun ⟨hn, hd⟩ => h.elim (Nat.not_le.2 hn) hd]
  · refine ⟨fwLoad_good, fun st code h => ?_⟩
    intro s1 s2
    have hs2 : s2 = fwFallback c st code s := rfl
    clear_value s2
    subst hs2
    exact ⟨fwLoad_other h, fwLoad_neither h⟩
  · refine ⟨?_, group_measReset i s⟩
    rw [group_measure, List.take_of_length_le (by rw [length_wordsOf, length_sha512])]

/-! ## Records (R394, R395, Table 17-7) -/

section
variable {type : Nat} {s : State} {c : RecCopy}

theorem recordBoot_some (h : s.recordCopy type = some c) : recordBoot s type = recordUse type c s := by
  rw [recordBoot, h]

theorem recordBoot_none (h : s.recordCopy type = none) : recordBoot s type = recordFails type s := by
  rw [recordBoot, h]

theorem recordCopy_valid (h : s.recordCopy type = some c) : c.intact = true ∧ c.wcount = Sparse.get s.lodge.held 0 type := by
  have := List.find?_some h
  rwa [Bool.and_eq_true, decide_eq_true_iff] at this

theorem recs_recordUse : (recordUse type c s).lodge.recs = Sparse.put s.lodge.recs type c.payload := by
  unfold recordUse
  dsimp only
  split <;> rfl

theorem recordCode_cases (s : State) (type : Nat) : s.recordCode type = E.REC_REPLAY ∨ s.recordCode type = E.REC_SIG := by
  unfold State.recordCode
  split
  · split
    · exact Or.inl rfl
    · exact Or.inr rfl
  · exact Or.inr rfl

theorem recs_recordFails (s : State) (type : Nat) : (recordFails type s).lodge.recs = Sparse.drop s.lodge.recs type := by
  unfold recordFails
  rw [State.raiseDev_lodge_recs]
  split <;> rfl

theorem find_recordFails (s : State) (type : Nat) : Sparse.find (recordFails type s).lodge.recs type = none := by
  rw [recs_recordFails, Sparse.find_drop, if_pos rfl]

theorem ownerKey_recordFails (s : State) : (recordFails 2 s).ownerKey = none := by
  rw [State.ownerKey, State.record, find_recordFails]
  rfl

theorem siteState_recordFails (s : State) {p : Nat} (hp : p < 1024) : (recordFails 4 s).siteState p = s.siteState p :=
  fld_raise _ _ _ _ _ (F.CORE_MAP_SITE_STATE_state p) (quietWord_site hp).2.1

theorem newMap_old (h : (Sparse.find s.lodge.recs 4).isSome = true) : newMap s = s := if_pos h

theorem newMap_spare (h : Sparse.find s.lodge.recs 4 = none) : newMap s = (List.range 1024).foldl (fun st p => st.setSite p siSpare 0) s :=
  if_neg (by rw [h]; decide)

theorem siteState_spares (n : Nat) {p : Nat} (hp : p < n) (s : State) : ((List.range n).foldl (fun st p => st.setSite p siSpare 0) s).siteState p = siSpare := by
  induction n with
  | zero => exact absurd hp (Nat.not_lt_zero p)
  | succ n ih =>
    rw [List.range_succ, List.foldl_append, List.foldl_cons, List.foldl_nil, State.siteState_setSite]
    split
    · rfl
    · exact ih (by omega)

end

theorem slice0_recordsBoot : Slice0.RecordsBoot := by
  unfold Slice0.RecordsBoot
  refine ⟨fun type s => ⟨fun c h => ?_, fun h => ⟨recordBoot_none h, recordCode_cases s type⟩⟩, fun s => ?_⟩
  · obtain ⟨hintact, hcount⟩ := recordCopy_valid h
    refine ⟨recordBoot_some h, hintact, hcount, ?_⟩
    rw [recordBoot_some h, recs_recordUse, Sparse.find_put, if_pos rfl]
  · refine ⟨State.raiseDev_lodge_nsvn .., State.raiseDev_lodge_store .., State.raiseDev_lodge_noCal .., State.raiseDev_lodge_opened ..,
      State.raiseDev_lodge_noIv .., ownerKey_recordFails s, congrArg Power.crev (State.raiseDev_pwr ..), find_recordFails s 4,
      fun p hp => siteState_recordFails s hp, fun h p hp => ?_, newMap_old⟩
    rw [newMap_spare h, siteState_spares 1024 hp]

/-! ## Keys at rest (R396-R398) -/

section
variable {slot purpose : Nat} {w key : List Byte} {s : State}

theorem keyDeposit_early (h : 64 ≤ slot ∨ s.lodge.keys = false) : keyDeposit slot purpose w s = s :=
  if_pos (h.imp_right fun hk => Or.inl (by rw [hk]; rfl))

/-- A key of at most 512 bytes is wrapped with the PUF key, and flash holds the store. -/
theorem keyDeposit_opened (h : oaepOpen (Config.wk s.idGen).n (Config.wk s.idGen).d [] w = some key) : keyDeposit slot purpose w s =
    if 64 ≤ slot ∨ !s.lodge.keys ∨ s.lodge.debug then s
    else if 512 < key.length then s
    else
      (let iv := (List.range 12).map (fun j => Config.freeByte s.free j)
      let st := Sparse.put s.lodge.store slot { purpose := purpose, iv := iv, ct := (keyWrap iv key).1, tag := (keyWrap iv key).2 }
      (recordPut 7 (storePayload st) { s with lodge := { s.lodge with store := st } }).tick) := by
  unfold keyDeposit
  dsimp only
  rw [h]

theorem keyDeposit_long (h : oaepOpen (Config.wk s.idGen).n (Config.wk s.idGen).d [] w = some key) (hk : 512 < key.length) : keyDeposit slot purpose w s = s := by
  rw [keyDeposit_opened h, if_pos hk, ite_self]

theorem keyDeposit_stores (h : oaepOpen (Config.wk s.idGen).n (Config.wk s.idGen).d [] w = some key) (hk : key.length ≤ 512) (hs : slot < 64)
    (hkeys : s.lodge.keys = true) (hd : s.lodge.debug = false) : ∃ e, Sparse.find (keyDeposit slot purpose w s).lodge.store slot = some e ∧ e.purpose = purpose
      ∧ e.ct = (keyWrap e.iv key).1 ∧ e.tag = (keyWrap e.iv key).2 := by
  rw [keyDeposit_opened h, if_neg (by rw [hkeys, hd]; simpa using hs), if_neg (Nat.not_lt.2 hk)]
  dsimp only
  rw [State.tick_lodge, recordPut_store]
  exact ⟨_, (Sparse.find_put ..).trans (if_pos rfl), rfl, rfl, rfl⟩

theorem storeEntry_some {e : KeySlot} (h : Sparse.find s.lodge.store slot = some e) :
    s.storeEntry slot purpose = if e.purpose = purpose then keyUnseal s.lodge.keys e.iv e.ct e.tag else none := by
  rw [State.storeEntry, h]

end

theorem slice0_keysAtRest : Slice0.KeysAtRest := by
  unfold Slice0.KeysAtRest
  refine ⟨fun _ _ _ => rfl, fun slot purpose w s => ?_⟩
  exact ⟨keyDeposit_early, fun key h hk => keyDeposit_long h hk, fun key h hk hs hkeys hd => keyDeposit_stores h hk hs hkeys hd,
    fun e h hp => (storeEntry_some h).trans (if_neg hp), fun e h => (storeEntry_some h).trans (if_pos rfl)⟩

/-! ## The end of hold-up, leaks and pushed events (R361, R406, R446) -/

theorem Sparse.find_filterMap_none {α β : Type} {m : Sparse α} {f : Nat × α → Option (Nat × β)} {j : Nat} (hkey : ∀ p q, f p = some q → q.1 = p.1)
    (hj : ∀ x, f (j, x) = none) : Sparse.find (m.filterMap f) j = none := by
  induction m with
  | nil => rfl
  | cons p m ih =>
    obtain ⟨a, x⟩ := p
    cases hf : f (a, x) with
    | none => rwa [List.filterMap_cons_none hf]
    | some q =>
      obtain ⟨b, y⟩ := q
      have hb : b = a := hkey _ _ hf
      have hne : j ≠ b := fun he => Option.some_ne_none (b, y) (hf.symm.trans (hb ▸ he ▸ hj x))
      rw [List.filterMap_cons_some hf, Sparse.find, if_neg hne, ih]

/-- No word of the boot stage is kept over a start (R427). -/
theorem find_keptRegs_stage (cold : Bool) (regs : Sparse W64) : Sparse.find (keptRegs cold regs) F.DEV_BOOT_STS_stage.addr = none := by
  have hmask : keptMask cold F.DEV_BOOT_STS_stage.addr = 0#64 := by cases cold <;> decide
  refine Sparse.find_filterMap_none (fun p q h => ?_) fun x => ?_
  · dsimp only at h
    split at h
    · exact absurd h.symm (Option.some_ne_none q)
    · exact (congrArg Prod.fst (Option.some.inj h)).symm
  · dsimp only
    rw [hmask, BitVec.not_zero, BitVec.and_allOnes, BitVec.and_zero, BitVec.or_zero, if_pos rfl]

/-- The state of a start before the flags of the stored stacks and the count of the SPARE sites are written. -/
theorem startReset_writes (cold : Bool) (s : State) : ∃ b : State, ∃ stored : Nat → Bool,
    startReset cold s = countSpares ((List.range 16).foldl (fun st m => if stored m then st.setFlag (F.RIM_STACK_STS_stored m) true else st) b)
    ∧ (∃ regs, b.regs = keptRegs cold regs) ∧ (cold = true → b.events = []) ∧ b.jobLoaded = false ∧ b.joined = false :=
  ⟨_, _, rfl, ⟨_, rfl⟩, fun h => by subst h; rfl, rfl, rfl⟩

theorem startReset_cold (s : State) : (startReset true s).events = [] ∧ (startReset true s).jobLoaded = false ∧ (startReset true s).joined = false
    ∧ (startReset true s).fld F.DEV_BOOT_STS_stage = State.reset.fld F.DEV_BOOT_STS_stage := by
  obtain ⟨b, stored, hstart, ⟨regs, hregs⟩, hevents, hjob, hjoined⟩ := startReset_writes true s
  have hkeeps : ∀ {β : Type} (g : State → β), (∀ (t : State) (f : Fld) (v : Bool), f.addr ≠ F.DEV_BOOT_STS_stage.addr → g (t.setFlag f v) = g t) →
      g ((List.range 16).foldl (fun st m => if stored m then st.setFlag (F.RIM_STACK_STS_stored m) true else st) b) = g b := fun g hg => by
    refine List.foldlRecOn _ _ (motive := fun t => g t = g b) rfl fun t ht m hm => ?_
    split
    · exact (hg _ _ _ (by have := List.mem_range.1 hm; dsimp only; omega)).trans ht
    · exact ht
  rw [hstart]
  refine ⟨(hkeeps State.events fun _ _ _ _ => rfl).trans (hevents rfl), (hkeeps State.jobLoaded fun _ _ _ _ => rfl).trans hjob,
    (hkeeps State.joined fun _ _ _ _ => rfl).trans hjoined, ?_⟩
  refine (State.fld_setFld_addr _ F.CORE_MAP_SPARE_CNT _ _ (by decide)).trans ((hkeeps (·.fld F.DEV_BOOT_STS_stage) fun t f v h => ?_).trans ?_)
  · exact State.fld_setFld_addr _ _ _ _ h.symm
  · refine State.fld_congr ?_
    rw [State.reg, hregs, find_keptRegs_stage]
    rfl

section
variable {sensor : Nat} {s : State}

/-- The report of a leak (R361). -/
def State.leaked (s : State) (sensor : Nat) : State := (s.raiseDev EV.COOLANT_LEAK (leBytes 1 sensor)).setFlag F.PWR_SERVICE_STS_leak true

theorem State.fld_leaked : (s.leaked sensor).fld F.PWR_LEAK_CFG_action = s.fld F.PWR_LEAK_CFG_action :=
  (State.fld_setFld_addr _ F.PWR_SERVICE_STS_leak _ _ (by decide)).trans (fld_raise _ _ _ _ _ _ (by decide))

theorem State.leaked_pwr : (s.leaked sensor).pwr = s.pwr := (State.setFlag_pwr ..).trans (State.raiseDev_pwr ..)

theorem coolantLeak_eq : coolantLeak sensor s = match s.fld F.PWR_LEAK_CFG_action with
    | 1 => runoutNow (s.leaked sensor)
    | 2 => if s.pwr.off then s.leaked sensor else
        enterHold 2 { s.leaked sensor with pwr := { (s.leaked sensor).pwr with leak := true } }
    | _ => s.leaked sensor := by
  rw [← State.fld_leaked (s := s) (sensor := sensor), ← State.leaked_pwr (s := s) (sensor := sensor)]
  rfl

end

/-- A session after a push of the records since `next` (R406). -/
def Session.pushed (ses : Session) (rs : List EvtRec) (next : Nat) (gone : Bool) : Session :=
  { ses with sub := some (((rs.getLast?.map (·.seq)).getD next + 1) % 2 ^ 32), gap := ses.gap || gone }

/-- A push of the records `r` to a session that is subscribed from `next` on. -/
def evtPushOf (k next : Nat) (r : List EvtRec × Bool) (s : State) : State :=
  if !s.lodgeRuns then s
  else
    match r.1 with
    | [] => s
    | _ :: _ =>
      let e := (Sparse.get s.lodge.sessions ({ role := 0 } : Session) k).pushed r.1 next r.2
      State.out { s with lodge := { s.lodge with sessions := Sparse.put s.lodge.sessions k e } } (.mgmt k (mgmtMsg 0x000C 0 0 (evtBody r.1 next)))

section
variable {k next : Nat} {s : State} {ses : Session} {r : EvtRec} {l : List EvtRec}

theorem evtPush_stopped (h : s.lodgeRuns = false) : evtPush k s = s := by
  unfold evtPush
  split
  · rw [h]
    rfl
  · rfl

theorem evtPush_closed (h : Sparse.find s.lodge.sessions k = none) : evtPush k s = s := by
  rw [evtPush, h]

theorem evtPush_unsubscribed (h : Sparse.find s.lodge.sessions k = some ses) (hs : ses.sub = none) : evtPush k s = s := by
  obtain ⟨role, sub, gap⟩ := ses
  cases hs
  rw [evtPush, h]

theorem evtPush_subscribed (h : Sparse.find s.lodge.sessions k = some ses) (hs : ses.sub = some next) : evtPush k s = evtPushOf k next (evtFrom next 32767 s) s := by
  obtain ⟨role, sub, gap⟩ := ses
  cases hs
  unfold evtPush
  split
  case h_1 role' next' gap' h' =>
    obtain ⟨_, hnext, _⟩ := Session.mk.inj (Option.some.inj (h.symm.trans h'))
    obtain rfl := Option.some.inj hnext
    generalize evtFrom next 32767 s = r
    obtain ⟨l, gone⟩ := r
    cases l <;> rfl
  case h_2 hne => exact absurd h (hne role next gap)

theorem evtPushOf_nothing {gone : Bool} : evtPushOf k next ([], gone) s = s := ite_self s

/-- What a push leaves: the message, and the session's new place in the ring. -/
theorem evtPushOf_leaves {gone : Bool} (hr : s.lodgeRuns = true) (h : Sparse.find s.lodge.sessions k = some ses) :
    (evtPushOf k next (r :: l, gone) s).net.sent = .mgmt k (mgmtMsg 0x000C 0 0 (evtBody (r :: l) next)) :: s.net.sent
    ∧ Sparse.find (evtPushOf k next (r :: l, gone) s).lodge.sessions k = some (ses.pushed (r :: l) next gone)
    ∧ (evtPushOf k next (r :: l, gone) s).events = s.events ∧ (evtPushOf k next (r :: l, gone) s).mem = s.mem
    ∧ (evtPushOf k next (r :: l, gone) s).regs = s.regs := by
  have hget : Sparse.get s.lodge.sessions ({ role := 0 } : Session) k = ses := by rw [Sparse.get, h, Option.getD_some]
  have hpush : evtPushOf k next (r :: l, gone) s = State.out
      { s with lodge := { s.lodge with sessions := Sparse.put s.lodge.sessions k (ses.pushed (r :: l) next gone) } }
      (.mgmt k (mgmtMsg 0x000C 0 0 (evtBody (r :: l) next))) := by
    rw [← hget]
    exact if_neg (by rw [hr]; decide)
  rw [hpush]
  exact ⟨rfl, (Sparse.find_put ..).trans (if_pos rfl), rfl, rfl, rfl⟩

end

theorem slice0_lodgeEvents : Slice0.LodgeEvents := by
  unfold Slice0.LodgeEvents
  refine ⟨fun s => ⟨fun h => ?_, fun h => ?_⟩, fun sensor s => ?_, fun k s => ?_⟩
  · rw [exec_holdupEnd, if_neg (ne_true_of_eq_false h)]
  · obtain ⟨hevents, hjob, hjoined, hstage⟩ := startReset_cold s
    refine ⟨_, (exec_holdupEnd s).trans (congrArg _ (if_pos h)), ?_⟩
    generalize startReset true s = x at hevents hjob hjoined hstage ⊢
    exact ⟨rfl, hstage, hevents, hjob, hjoined⟩
  · intro s1 a
    rw [exec_coolantLeak, coolantLeak_eq]
    refine ⟨fun h => ?_, fun h => ?_, fun h ho => ?_, fun h ho => ?_⟩
    · rcases h with h | h
      · rw [show s.fld F.PWR_LEAK_CFG_action = 0 from h]
        rfl
      · rw [show s.fld F.PWR_LEAK_CFG_action = 3 from h]
        rfl
    · rw [show s.fld F.PWR_LEAK_CFG_action = 1 from h]
      rfl
    · rw [show s.fld F.PWR_LEAK_CFG_action = 2 from h]
      exact congrArg _ (if_pos ho)
    · rw [show s.fld F.PWR_LEAK_CFG_action = 2 from h]
      exact congrArg _ (if_neg (ne_true_of_eq_false ho))
  · rw [exec_evtSubscribePush]
    refine ⟨fun h => congrArg _ (h.elim evtPush_stopped evtPush_closed), fun ses h => ⟨fun hs => congrArg _ (evtPush_unsubscribed h hs), fun first hs hf => ?_,
      fun first r l hs hrun hf => ⟨_, (exec_evtSubscribePush k s).trans (congrArg _ (evtPush_subscribed h hs)), ?_⟩⟩⟩
    · rw [evtPush_subscribed h hs]
      generalize evtFrom first 32767 s = push at hf ⊢
      obtain ⟨_, gone⟩ := push
      cases hf
      rw [evtPushOf_nothing]
    · generalize evtFrom first 32767 s = push at hf ⊢
      obtain ⟨_, gone⟩ := push
      cases hf
      exact evtPushOf_leaves hrun h

/-- Settles O55, from the restarts, the boot chain, the records, the keys and the events. -/
theorem lodge : Obligations.Lodge := ⟨slice0_lodgeRestarts, slice0_firmwareBoot, slice0_recordsBoot, slice0_keysAtRest, slice0_lodgeEvents⟩

end Sys2Proof.Machine
end

section
/-! # The management protocol (O56; spec/15 R347; spec/17 R386-R389, R392-R394, R399-R403, R406) -/

namespace Sys2Proof.Machine

theorem exec_mgmtConnect (k : BitVec 4) (c : ClientIn) (s : State) : exec (.mgmtConnect k c) s = .next (mgmtConnect k.toNat c s) := by rfl

/-! ## Requests and responses (R387, R406) -/

section
variable {op : Nat} {layout : List Byte → Bool} {allowed : Session → List Byte → Bool} {f : MgmtOp} {r : MgmtReq} {s : State} {ses : Session}

theorem request_closed (h : Sparse.find s.lodge.sessions r.session.toNat = none ∨ s.portUp = false) : request op layout allowed f r s = s := by
  unfold request
  dsimp only
  split
  case h_1 => rfl
  case h_2 ses hs =>
    rcases h with h | h
    · exact absurd (hs.symm.trans h) (Option.some_ne_none ses)
    · rw [h]
      rfl

/-- The answer to a request of an open session, rule by rule. -/
theorem request_open (h : Sparse.find s.lodge.sessions r.session.toNat = some ses) (hp : s.portUp = true) : request op layout allowed f r s =
    if r.reserved.isSome then respond ((r.reserved.map (·.toNat)).getD op) r.session.toNat r.tag.toNat E.MGMT_FORMAT [] s
    else if r.rsv ≠ 0 ∨ r.status ≠ 0 ∨ 2 ^ 20 < r.body.length ∨ !layout r.body ∨ (s.lodge.recovery ∧ op ≠ 0x0009) then
      respond op r.session.toNat r.tag.toNat E.MGMT_FORMAT [] s
    else if !allowed ses r.body then respond op r.session.toNat r.tag.toNat E.MGMT_ROLE [] s
    else respond op r.session.toNat r.tag.toNat (f ses r.body s).2.1 (f ses r.body s).2.2 (f ses r.body s).1 := by
  unfold request
  dsimp only
  rw [h]
  exact if_neg (by rw [hp]; decide)

theorem request_reserved {o : BitVec 16} (h : Sparse.find s.lodge.sessions r.session.toNat = some ses) (hp : s.portUp = true) (ho : r.reserved = some o) :
    request op layout allowed f r s = respond o.toNat r.session.toNat r.tag.toNat E.MGMT_FORMAT [] s := by
  rw [request_open h hp, ho]
  rfl

theorem request_format (h : Sparse.find s.lodge.sessions r.session.toNat = some ses) (hp : s.portUp = true) (ho : r.reserved = none)
    (hf : r.rsv ≠ 0 ∨ r.status ≠ 0 ∨ 2 ^ 20 < r.body.length ∨ layout r.body = false ∨ (s.lodge.recovery = true ∧ op ≠ 9)) :
    request op layout allowed f r s = respond op r.session.toNat r.tag.toNat E.MGMT_FORMAT [] s := by
  rw [request_open h hp, ho, if_neg (by decide), if_pos (by rwa [Bool.not_eq_true'])]

theorem request_good (h : Sparse.find s.lodge.sessions r.session.toNat = some ses) (hp : s.portUp = true) (ho : r.reserved = none) (hr : r.rsv = 0)
    (hs : r.status = 0) (hl : r.body.length ≤ 2 ^ 20) (hb : layout r.body = true) (hrec : s.lodge.recovery = false ∨ op = 9) :
    request op layout allowed f r s = if !allowed ses r.body then respond op r.session.toNat r.tag.toNat E.MGMT_ROLE [] s
      else respond op r.session.toNat r.tag.toNat (f ses r.body s).2.1 (f ses r.body s).2.2 (f ses r.body s).1 := by
  rw [request_open h hp, ho, if_neg (by decide), if_neg]
  rintro (h | h | h | h | ⟨h1, h2⟩)
  · exact h hr
  · exact h hs
  · exact Nat.not_lt.2 hl h
  · rw [hb] at h
    exact Bool.false_ne_true h
  · exact hrec.elim (fun h => ne_true_of_eq_false h h1) h2

end

theorem slice0_requests : Slice0.Requests := by
  unfold Slice0.Requests
  intro s e he r ses k
  have hexec : exec (e.1 r) s = .next (request e.2.1 e.2.2.1 e.2.2.2.1 (e.2.2.2.2 r) r s) := by
    simp only [List.mem_cons, List.not_mem_nil, or_false] at he
    rcases he with rfl | rfl | rfl | rfl | rfl | rfl | rfl | rfl | rfl | rfl | rfl | rfl <;> rfl
  rw [hexec]
  refine ⟨fun h => congrArg _ (request_closed h), fun h hp => ⟨fun o ho => congrArg _ (request_reserved h hp ho), fun ho hf => congrArg _ (request_format h hp ho hf),
    fun ho hr hs hl hb hrec => ?_⟩⟩
  rw [request_good h hp ho hr hs hl hb hrec]
  exact ⟨fun ha => congrArg _ (if_pos (by rw [ha]; rfl)), fun ha => congrArg _ (if_neg (by rw [ha]; decide))⟩

theorem slice0_answers : Slice0.Answers := by
  unfold Slice0.Answers
  intro op k tag status body s ses good
  refine ⟨fun h => if_neg ?_, fun hg h => if_pos ⟨hg, h⟩⟩
  rintro ⟨hgap, hgood⟩
  exact h.elim (fun h => ne_true_of_eq_false h hgap) (· hgood)

/-! ## Sessions (R386, Table 17-3) -/

section
variable {k role : Nat} {c : ClientIn} {s : State} {key : List Byte}

theorem mgmtConnect_down (h : s.portUp = false) : mgmtConnect k c s = s := if_pos (by rw [h]; rfl)

theorem mgmtConnect_refused (h : s.portUp = true) (hc : clientRole c s = none) :
    mgmtConnect k c s = s.raiseDev EV.MGMT_AUTH_FAIL (leBytes 8 (c.keyDigest.toNat % 2 ^ 64)) := by
  rw [mgmtConnect, if_neg (by rw [h]; decide), hc]

theorem mgmtConnect_role (h : s.portUp = true) (hc : clientRole c s = some role) : mgmtConnect k c s =
    if (Sparse.find s.lodge.sessions k).isSome then s
    else { s with lodge := { s.lodge with sessions := Sparse.put s.lodge.sessions k { role := role } } } := by
  rw [mgmtConnect, if_neg (by rw [h]; decide), hc]

theorem clientRole_unproven (h : c.proven = false) : clientRole c s = none := if_pos (by rw [h]; rfl)

theorem clientRole_unowned (h : c.proven = true) (hr : s.record 2 = none) : clientRole c s = some 0 := by
  rw [clientRole, if_neg (by rw [h]; decide), hr]

theorem clientRole_owner (h : c.proven = true) (hr : s.record 2 = some key) (hk : sha512 key = leBytes 64 c.keyDigest.toNat) : clientRole c s = some 2 := by
  rw [clientRole, if_neg (by rw [h]; decide), hr]
  exact if_pos hk

end

theorem slice0_sessions : Slice0.Sessions := by
  unfold Slice0.Sessions
  intro k c s
  rw [exec_mgmtConnect]
  refine ⟨fun h => congrArg _ (mgmtConnect_down h), fun h => ⟨fun hc => congrArg _ (mgmtConnect_refused h hc), fun role hc => ?_⟩, clientRole_unproven,
    clientRole_unowned, fun key h hr hk => clientRole_owner h hr hk⟩
  rw [mgmtConnect_role h hc]
  exact ⟨fun hs => congrArg _ (if_pos hs), fun hs => congrArg _ (if_neg (by rw [hs]; decide))⟩

/-! ## The effects of requests (R389, R394, R399, R401, R403) -/

section
variable {ses : Session} {b : List Byte} {s : State}

theorem regWriteOp_hole (h : s.wordsOk (numAt b 0 8) 1 = false) : regWriteOp ses b s = (s, E.MGMT_FORMAT, []) := if_pos (by rw [h]; rfl)

theorem regWriteOp_ok (h : s.wordsOk (numAt b 0 8) 1 = true) : regWriteOp ses b s =
    if 0x3000B000000 ≤ numAt b 0 8 ∧ numAt b 0 8 < 0x3000C000000 then (s, E.MGMT_ROLE, []) else (regWriteBytes none (numAt b 0 8) (b.drop 8) s, 0, []) :=
  if_neg (by rw [h]; decide)

theorem regReadOp_hole (h : s.wordsOk (numAt b 0 8) (numAt b 8 2) = false) : regReadOp ses b s = (s, E.MGMT_FORMAT, []) := if_pos (by rw [h]; rfl)

theorem regReadOp_one (hn : numAt b 8 2 = 1) (h : s.wordsOk (numAt b 0 8) 1 = true) :
    regReadOp ses b s = ((s.regBytes (numAt b 0 8) 8).1, 0, (s.regBytes (numAt b 0 8) 8).2) := by
  unfold regReadOp
  dsimp only
  rw [hn, if_neg (by rw [h]; decide)]
  rfl

theorem recOp_unsigned (h : s.ownerSigned b = false) : recOp ses b s = (s, E.REC_SIG, []) := if_neg (ne_true_of_eq_false h)

theorem recOp_signed (h : s.ownerSigned b = true) : recOp ses b s = (recordPut (numAt b 0 1) ((b.drop 16).take (numAt b 8 4)) s, 0, []) := if_pos h

theorem presOp_job (h : s.jobLoaded = true) : presOp ses b s = (newNonce s, E.PRES_JOB, []) := if_pos h

theorem presOp_busy (h : s.jobLoaded = false) (hs : s.lodge.staged.isSome = true) : presOp ses b s = (newNonce s, E.PRES_BUSY, []) :=
  (if_neg (ne_true_of_eq_false h)).trans (if_pos hs)

/-- Whether a presence command carries the nonce, and the owner's signature where there is an owner (R401). -/
def State.presSigned (s : State) (b : List Byte) : Prop :=
  (b.drop 8).take 64 = s.groupBytes F.SEC_PRES_NONCE_w0 8 ∧ (s.ownerKey = none ∨ s.ownerSigned b = true)

theorem presOp_free (h : s.jobLoaded = false) (hs : s.lodge.staged = none) : presOp ses b s =
    if (b.drop 8).take 64 ≠ s.groupBytes F.SEC_PRES_NONCE_w0 8 ∨ (s.ownerKey.isSome ∧ !s.ownerSigned b) then (newNonce s, E.PRES_SIG, [])
    else
      (let s1 := newNonce s
      let s2 := { s1 with lodge := { s1.lodge with staged := some { cmd := numAt b 0 1, arg := (b.drop 72).take (presArg (numAt b 0 1)) } } }
      ((s2.setFld F.SEC_PRES_STS_cmd (numAt b 0 1)).setFlag F.SEC_PRES_STS_pending true, 0, [])) :=
  (if_neg (ne_true_of_eq_false h)).trans (if_neg (by rw [hs]; decide))

theorem presSigned_iff : ¬ s.presSigned b ↔ (b.drop 8).take 64 ≠ s.groupBytes F.SEC_PRES_NONCE_w0 8 ∨ (s.ownerKey.isSome ∧ !s.ownerSigned b) := by
  unfold State.presSigned
  rw [not_and_or, not_or, ← ne_eq s.ownerKey, Option.ne_none_iff_isSome, Bool.not_eq_true']
  simp only [Bool.not_eq_true, ne_eq]

theorem presOp_unsigned (h : s.jobLoaded = false) (hs : s.lodge.staged = none) (hn : ¬ s.presSigned b) : presOp ses b s = (newNonce s, E.PRES_SIG, []) :=
  (presOp_free h hs).trans (if_pos (presSigned_iff.1 hn))

theorem newNonce_lodge (s : State) : (newNonce s).lodge = s.lodge := State.setGroup_keeps State.lodge (fun _ _ _ => rfl) s _ _

theorem presOp_signed (h : s.jobLoaded = false) (hs : s.lodge.staged = none) (hn : s.presSigned b) : (presOp ses b s).2.1 = 0
    ∧ (presOp ses b s).1.flag F.SEC_PRES_STS_pending = true ∧ (presOp ses b s).1.fld F.SEC_PRES_STS_cmd = numAt b 0 1 % 8
    ∧ (presOp ses b s).1.lodge = { s.lodge with staged := some { cmd := numAt b 0 1, arg := (b.drop 72).take (presArg (numAt b 0 1)) } } := by
  rw [presOp_free h hs, if_neg (mt presSigned_iff.2 (not_not.2 hn))]
  refine ⟨rfl, State.flag_setFlag _ _ _ (by decide) (by decide), ?_, ?_⟩
  · exact (State.fld_setFld_bits _ F.SEC_PRES_STS_pending F.SEC_PRES_STS_cmd _ (by decide)).trans (State.fld_setFld _ F.SEC_PRES_STS_cmd _ (by decide))
  · rw [← newNonce_lodge s]
    rfl

theorem capOp_stale (h : numAt b 8 4 ≤ s.fld F.PWR_CAP_STS_seq) : (capOp ses b s).2.1 = E.CAP_SEQ := if_pos h

theorem capOp_new (h : s.fld F.PWR_CAP_STS_seq < numAt b 8 4) : (capOp ses b s).2.1 = 0 := if_neg (Nat.not_le.2 h)

theorem State.length_groupBytes (s : State) (f : Fld) (n : Nat) : (s.groupBytes f n).length = 8 * n := by
  simp only [State.groupBytes, State.group, List.length_flatMap, length_leBytes, List.map_const', List.length_map, List.length_range, List.sum_replicate_nat]
  exact Nat.mul_comm n 8

theorem length_measurements (s : State) : ((List.range 8).flatMap (fun i => s.groupBytes (measFld i) 8)).length = 512 := by
  simp only [List.length_flatMap, State.length_groupBytes, List.map_const', List.length_range, List.sum_replicate_nat]

/-- A report is 1,792 bytes before its signature (Table 17-9). -/
theorem length_reportBody {nonce : List Byte} (h : nonce.length = 64) : (reportBody nonce s).length = 1792 := by
  unfold reportBody
  extract_lets ak wk flags
  clear_value ak wk flags
  repeat rw [List.length_append]
  rw [h, length_sha512, length_measurements]
  simp only [length_leBytes, List.length_cons, List.length_nil]

theorem attestOp_report (h : b.length = 64) : ((attestOp ses b s).2.2).take 1792 = reportBody b s := by
  rw [attestOp, List.append_assoc]
  exact List.take_left' (length_reportBody h)

end

theorem slice0_requestEffects : Slice0.RequestEffects := by
  unfold Slice0.RequestEffects
  intro ses b s a
  refine ⟨regWriteOp_hole, fun h h1 h2 => (regWriteOp_ok h).trans (if_pos ⟨h1, h2⟩), fun h h1 => (regWriteOp_ok h).trans (if_neg ?_), regReadOp_hole,
    fun hn h => regReadOp_one hn h, recOp_unsigned, recOp_signed, presOp_job, presOp_busy, fun h hs => ⟨presOp_unsigned h hs, presOp_signed h hs⟩,
    capOp_stale, capOp_new, ⟨rfl, rfl, attestOp_report⟩, ⟨rfl, rfl, rfl⟩, rfl, fun k => (Sparse.find_put ..).trans (if_pos rfl)⟩
  rintro ⟨h2, h3⟩
  exact h1.elim (Nat.not_lt.2 h2) (Nat.not_le.2 h3)

/-! ## The pieces of a bundle (R392, R393) -/

/-- The state in which a first piece arrives: the copy not in use is cleared. -/
def State.stagingFrom (s : State) (total : Nat) : State :=
  fwStaged 0 { s with lodge := { s.lodge with piece := some { total := total, data := [] }, fw := s.lodge.fw.set (1 - s.fwActive) none, downgrade := false } }

/-- A piece joins those before it. -/
def fwJoin (total : Nat) (data : List Byte) (s : State) : State × Nat × List Byte :=
  if data.length < total then ({ s with lodge := { s.lodge with piece := some { total := total, data := data } } }, 0, [])
  else ((fwWhole data s).1, (fwWhole data s).2, [])

section
variable {ses : Session} {b : List Byte} {s : State} {p : Piece}

theorem fwOp_first (h : numAt b 0 4 = 0) : fwOp ses b s = fwJoin (numAt b 4 4) (b.drop 16) (s.stagingFrom (numAt b 4 4)) := by
  unfold fwOp
  dsimp only
  have hpiece : (s.stagingFrom (numAt b 4 4)).lodge.piece = some { total := numAt b 4 4, data := [] } := rfl
  unfold State.stagingFrom at hpiece ⊢
  rw [h, if_pos rfl, hpiece]
  exact if_neg fun hw => hw.elim (· rfl) (· rfl)

theorem fwOp_alone (h : numAt b 0 4 ≠ 0) (hp : s.lodge.piece = none) : fwOp ses b s = (s, E.MGMT_FORMAT, []) := by
  unfold fwOp
  dsimp only
  rw [if_neg h, hp]

theorem fwOp_next (h : numAt b 0 4 ≠ 0) (hp : s.lodge.piece = some p) : fwOp ses b s =
    if p.total ≠ numAt b 4 4 ∨ p.data.length ≠ numAt b 0 4 then (s, E.MGMT_FORMAT, []) else fwJoin (numAt b 4 4) (p.data ++ b.drop 16) s := by
  unfold fwOp
  dsimp only
  rw [if_neg h, hp]
  rfl

theorem fwJoin_part {total : Nat} {data : List Byte} (h : data.length < total) :
    fwJoin total data s = ({ s with lodge := { s.lodge with piece := some { total := total, data := data } } }, 0, []) := if_pos h

theorem fwJoin_whole {total : Nat} {data : List Byte} (h : total ≤ data.length) : fwJoin total data s = ((fwWhole data s).1, (fwWhole data s).2, []) :=
  if_neg (Nat.not_lt.2 h)

end

/-- The state of a whole bundle before its verdict: the copy not in use holds it. -/
def State.bundled (s : State) (bytes : List Byte) (x : Option Bundle) : State :=
  { s with lodge := { s.lodge with piece := none, fw := s.lodge.fw.set (1 - s.fwActive) x, fwDigest := sha512 bytes } }

/-- A verdict on a staged bundle. -/
def fwVerdict (k code : Nat) (s : State) : State × Nat := ((fwStaged k s).setFld F.SEC_FW_STS_code code, code)

theorem fwWhole_eq (bytes : List Byte) (s : State) : fwWhole bytes s = match (Config.bundle bytes).filter (fun f => decide (f.root = s.lodge.rom)) with
    | none => fwVerdict 2 E.FW_SIG (s.bundled bytes none)
    | some f => if f.svn.toNat < s.lodge.nsvn then fwVerdict 2 E.FW_ROLLBACK (s.bundled bytes (some f)) else fwVerdict 1 0 (s.bundled bytes (some f)) := by
  rfl

/-- What a verdict shows (R392). -/
theorem fwVerdict_shows {k code : Nat} (hk : k < 4) (hc : code < 2 ^ 16) (s : State) : (fwVerdict k code s).2 = code
    ∧ (fwVerdict k code s).1.fld F.SEC_FW_STS_staged = k ∧ (fwVerdict k code s).1.lodge = { s.lodge with ready := decide (k = 1) }
    ∧ (fwVerdict k code s).1.fld F.SEC_FW_STS_code = code := by
  refine ⟨rfl, ?_, rfl, ?_⟩
  · rw [fwVerdict, State.fld_setFld_bits _ _ _ _ (by decide), fwStaged, State.fld_setFld _ _ _ (by decide)]
    exact Nat.mod_eq_of_lt hk
  · rw [fwVerdict, State.fld_setFld _ _ _ (by decide)]
    exact Nat.mod_eq_of_lt hc

/-- The three verdicts on a whole bundle: no bundle of this module's root, one below n_svn, a good one. -/
theorem fwWhole_cases (bytes : List Byte) (s : State) :
    let f := (Config.bundle bytes).filter (fun f => decide (f.root = s.lodge.rom))
    (f = none ∧ fwWhole bytes s = fwVerdict 2 E.FW_SIG (s.bundled bytes f))
    ∨ (∃ x, f = some x ∧ x.svn.toNat < s.lodge.nsvn ∧ fwWhole bytes s = fwVerdict 2 E.FW_ROLLBACK (s.bundled bytes f))
    ∨ (∃ x, f = some x ∧ s.lodge.nsvn ≤ x.svn.toNat ∧ fwWhole bytes s = fwVerdict 1 0 (s.bundled bytes f)) := by
  intro f
  have hwhole := fwWhole_eq bytes s
  cases hf : (Config.bundle bytes).filter (fun f => decide (f.root = s.lodge.rom)) with
  | none =>
    rw [hf] at hwhole
    exact .inl ⟨hf, hwhole.trans (congrArg (fun o => fwVerdict 2 E.FW_SIG (s.bundled bytes o)) hf.symm)⟩
  | some x =>
    rw [hf] at hwhole
    by_cases hn : x.svn.toNat < s.lodge.nsvn
    · exact .inr (.inl ⟨x, hf, hn, (hwhole.trans (if_pos hn)).trans (congrArg (fun o => fwVerdict 2 E.FW_ROLLBACK (s.bundled bytes o)) hf.symm)⟩)
    · exact .inr (.inr ⟨x, hf, Nat.not_lt.1 hn, (hwhole.trans (if_neg hn)).trans (congrArg (fun o => fwVerdict 1 0 (s.bundled bytes o)) hf.symm)⟩)

theorem slice0_bundleStaging : Slice0.BundleStaging := by
  unfold Slice0.BundleStaging
  refine ⟨fun ses b s => ?_, fun bytes s => ?_⟩
  · intro off total clear
    refine ⟨fun h hl => ?_, fun h hl => ?_, fwOp_alone, fun p h hp => ⟨fun hw => ?_, fun ht hd hl => ?_, fun ht hd hl => ?_⟩⟩
    · exact (fwOp_first h).trans (fwJoin_part hl)
    · exact (fwOp_first h).trans (fwJoin_whole hl)
    · exact (fwOp_next h hp).trans (if_pos hw)
    · exact ((fwOp_next h hp).trans (if_neg fun hw => hw.elim (· ht) (· hd))).trans (fwJoin_part hl)
    · exact ((fwOp_next h hp).trans (if_neg fun hw => hw.elim (· ht) (· hd))).trans (fwJoin_whole hl)
  · intro f r
    have hsome : ∀ x y : Bundle, f = some x → f = some y → x = y := fun x y hx hy => Option.some.inj (hx.symm.trans hy)
    have hdef : r = fwWhole bytes s := rfl
    clear_value r
    subst hdef
    rcases fwWhole_cases bytes s with ⟨hf, hw⟩ | ⟨x, hf, hn, hw⟩ | ⟨x, hf, hn, hw⟩
    · obtain ⟨hcode, hstaged, hlodge, hshown⟩ := fwVerdict_shows (k := 2) (code := E.FW_SIG) (by decide) (by decide) (s.bundled bytes f)
      rw [hw, hlodge]
      exact ⟨rfl, rfl, rfl, fun _ => ⟨rfl, hstaged, rfl⟩, fun y hy _ => absurd (hf.symm.trans hy) (Option.some_ne_none y).symm,
        fun y hy _ => absurd (hf.symm.trans hy) (Option.some_ne_none y).symm, hshown⟩
    · obtain ⟨hcode, hstaged, hlodge, hshown⟩ := fwVerdict_shows (k := 2) (code := E.FW_ROLLBACK) (by decide) (by decide) (s.bundled bytes f)
      rw [hw, hlodge]
      exact ⟨rfl, rfl, rfl, fun hnone => absurd (hf.symm.trans hnone) (Option.some_ne_none x), fun _ _ _ => ⟨rfl, hstaged, rfl⟩,
        fun y hy hy' => absurd (hsome x y hf hy ▸ hn) (Nat.not_lt.2 hy'), hshown⟩
    · obtain ⟨hcode, hstaged, hlodge, hshown⟩ := fwVerdict_shows (k := 1) (code := 0) (by decide) (by decide) (s.bundled bytes f)
      rw [hw, hlodge]
      exact ⟨rfl, rfl, rfl, fun hnone => absurd (hf.symm.trans hnone) (Option.some_ne_none x),
        fun y hy hy' => absurd (hsome x y hf hy ▸ hn) (Nat.not_le.2 hy'), fun _ _ _ => ⟨rfl, hstaged, rfl⟩, hshown⟩

/-- Settles O56, from the requests and their answers, the sessions, the effects of requests and the pieces of a bundle. -/
theorem management : Obligations.Management := ⟨slice0_requests, slice0_answers, slice0_sessions, slice0_requestEffects, slice0_bundleStaging⟩

end Sys2Proof.Machine
end

section
/-! # Values at reset (O60; spec/19 R427, R432, Tables 19-4 to 19-12) -/

namespace Sys2Proof.Machine

/-! ## The rows of an array of instances -/

/-- The offset of a row's last inner instance. -/
def Row.span (r : Row) : Nat := (r.icount - 1) * r.istride

section
variable {r : Row} {a blk S s n lo k j : Nat}

/-- Hits of a row within its first outer instance. -/
theorem Row.hits_first (h : r.ocount ≤ 1 ∨ a - r.base < r.ostride) : r.hits a = true ↔
    r.base ≤ a ∧ if r.icount ≤ 1 then a - r.base = 0
      else (a - r.base) / r.istride < r.icount ∧ a - r.base = (a - r.base) / r.istride * r.istride := by
  have hi : (if r.ocount ≤ 1 then 0 else (a - r.base) / r.ostride) = 0 := by
    split
    · rfl
    · exact Nat.div_eq_of_lt (h.resolve_left ‹_›)
  unfold Row.hits
  dsimp only
  rw [hi]
  by_cases hb : a < r.base
  · simp [hb]
  · by_cases hc : r.icount ≤ 1
    · simp [hb, hc, Nat.not_lt.1 hb]
      omega
    · simp [hb, hc, Nat.not_lt.1 hb]
      omega

/-- Past its last inner instance a row hits nothing. -/
theorem Row.hits_past (h : r.ocount ≤ 1 ∨ a - r.base < r.ostride) (ha : r.base + r.span < a) : r.hits a = false := by
  rw [← Bool.not_eq_true, Row.hits_first h]
  rintro ⟨_, hi⟩
  split at hi
  · have : 0 ≤ r.span := Nat.zero_le _
    omega
  · obtain ⟨hlt, heq⟩ := hi
    have hle : (a - r.base) / r.istride * r.istride ≤ r.span := Nat.mul_le_mul_right _ (by omega)
    omega

/-- Below its base a row hits nothing. -/
theorem Row.hits_below (h : a < r.base) : r.hits a = false := if_pos h

/-- The row lies in one instance of a block of `C` instances with stride `S` that begins at `blk`, and repeats with it. -/
def Row.outer (blk S C : Nat) (r : Row) : Bool := decide (r.ostride = S ∧ r.ocount = C ∧ 1 < C ∧ blk ≤ r.base ∧ r.base + r.span < blk + S)

theorem Row.outer_iff {C : Nat} : r.outer blk S C = true ↔ r.ostride = S ∧ r.ocount = C ∧ 1 < C ∧ blk ≤ r.base ∧ r.base + r.span < blk + S :=
  decide_eq_true_iff

theorem div_instance {d S i : Nat} (hd : d < S) : (d + S * i) / S = i := by
  rw [Nat.add_mul_div_left _ _ (Nat.zero_lt_of_lt hd), Nat.div_eq_of_lt hd, Nat.zero_add]

/-- Offset `d` of outer instance `i` is hit where the instance exists and the first one is hit there. -/
theorem Row.hits_instance {d i : Nat} (hC : 1 < r.ocount) (hd : d < r.ostride) :
    r.hits (r.base + d + r.ostride * i) = (decide (i < r.ocount) && r.hits (r.base + d)) := by
  have h0 : r.base + d - r.base = d := by omega
  have hi : r.base + d + r.ostride * i - r.base = d + r.ostride * i := by omega
  have hsub : d + r.ostride * i - i * r.ostride = d := by rw [Nat.mul_comm i]; omega
  unfold Row.hits
  dsimp only
  have hb : ¬ r.base + d + r.ostride * i < r.base := by omega
  have hb0 : ¬ r.base + d < r.base := by omega
  rw [if_neg hb, if_neg hb0, h0, hi, if_neg (Nat.not_le.2 hC), if_neg (Nat.not_le.2 hC), div_instance hd, Nat.div_eq_of_lt hd, hsub]
  have hpos : 0 < r.ocount := by omega
  simp [hpos, Nat.not_le.2 hC, Bool.and_assoc]

/-- A row hits instance `k` of its block where it hits the first. -/
theorem Row.hits_outer {C : Nat} (hr : r.outer blk S C = true) (hlo : blk ≤ a) (hhi : a < blk + S) (hk : k < C) : r.hits (a + S * k) = r.hits a := by
  obtain ⟨rfl, rfl, hC, hbase, hspan⟩ := Row.outer_iff.1 hr
  by_cases hb : r.base ≤ a
  · obtain ⟨d, rfl⟩ := Nat.exists_eq_add_of_le hb
    rw [Row.hits_instance hC (by omega), decide_eq_true hk, Bool.true_and]
  · cases k with
    | zero => rfl
    | succ k =>
      have hpast : r.hits (r.base + (a + r.ostride - r.base)) = false := Row.hits_past (.inr (by omega)) (by omega)
      have hnext : a + r.ostride * (k + 1) = r.base + (a + r.ostride - r.base) + r.ostride * k := by rw [Nat.mul_succ]; omega
      rw [hnext, Row.hits_instance hC (by omega), hpast, Bool.and_false, Row.hits_below (by omega)]

/-- The row stays apart from an array of `n` instances with stride `s` from `lo` on, or lies in one instance of it and repeats with it. -/
def Row.inner (lo s n : Nat) (r : Row) : Bool :=
  decide (r.base + r.span < lo ∨ lo + s * n ≤ r.base ∨ (r.istride = s ∧ r.icount = n ∧ 1 < n ∧ lo ≤ r.base ∧ r.base < lo + s))

theorem Row.inner_iff : r.inner lo s n = true ↔
    r.base + r.span < lo ∨ lo + s * n ≤ r.base ∨ (r.istride = s ∧ r.icount = n ∧ 1 < n ∧ lo ≤ r.base ∧ r.base < lo + s) := decide_eq_true_iff

/-- A row hits instance `j` of an array where it hits the first. -/
theorem Row.hits_inner (hr : r.inner lo s n = true) (hlo : lo ≤ a) (hhi : a < lo + s) (hj : j < n) (hfirst : r.ocount ≤ 1 ∨ a + s * j - r.base < r.ostride) :
    r.hits (a + s * j) = r.hits a := by
  have hle : s * (j + 1) ≤ s * n := Nat.mul_le_mul_left s hj
  rw [Nat.mul_succ] at hle
  have hfirst0 : r.ocount ≤ 1 ∨ a - r.base < r.ostride := by omega
  rcases Row.inner_iff.1 hr with h | h | ⟨rfl, rfl, hn, hb0, hb1⟩
  · rw [Row.hits_past hfirst (by omega), Row.hits_past hfirst0 (by omega)]
  · rw [Row.hits_below (by omega), Row.hits_below (by omega)]
  · have hn' : ¬ r.icount ≤ 1 := Nat.not_le.2 hn
    rw [Bool.eq_iff_iff, Row.hits_first hfirst, Row.hits_first hfirst0, if_neg hn', if_neg hn']
    by_cases hb : r.base ≤ a
    · have hd : a - r.base < r.istride := by omega
      have hsub : a + r.istride * j - r.base = a - r.base + r.istride * j := by omega
      rw [hsub, div_instance hd, Nat.div_eq_of_lt hd, Nat.mul_comm j]
      omega
    · refine iff_of_false (fun ⟨hle, _, heq⟩ => ?_) fun h => hb h.1
      obtain ⟨i, rfl⟩ : ∃ i, j = i + 1 := Nat.exists_eq_succ_of_ne_zero fun h0 => hb (by rw [h0] at hle; omega)
      have hsub : a + r.istride * (i + 1) - r.base = a + r.istride - r.base + r.istride * i := by rw [Nat.mul_succ]; omega
      rw [hsub, div_instance (by omega), Nat.mul_comm i] at heq
      omega

end

/-! ## Reset words of an array of instances -/

theorem resetWord_congr {a b : Nat} (ht : Table.ofAddr a = Table.ofAddr b) (h : ∀ r ∈ Table.ofAddr b, r.hits a = r.hits b) : resetWord a = resetWord b := by
  rw [resetWord, resetWord, rowsAt, rowsAt, ht, List.filter_congr h]

theorem ofAddr_link {a : Nat} (hlo : 0x30005000000 ≤ a) (hhi : a < 0x30006000000) : Table.ofAddr a = Table.link := by
  rw [Table.ofAddr, if_neg (by omega), show (a - 0x30000000000) / 0x1000000 = 5 by omega]
  rfl

theorem ofAddr_pwr {a : Nat} (hlo : 0x30009000000 ≤ a) (hhi : a < 0x3000A000000) : Table.ofAddr a = Table.pwr := by
  rw [Table.ofAddr, if_neg (by omega), show (a - 0x30000000000) / 0x1000000 = 9 by omega]
  rfl

theorem ofAddr_core {a : Nat} (h : a < 0x30000000000) : Table.ofAddr a = Table.core := if_pos h

/-- Every row of the link block is one of the 32 links' (spec/19 R435). -/
theorem link_outer : ∀ r ∈ Table.link, r.outer 0x30005000000 65536 32 = true := by decide +kernel

/-- Every row of the core block is one of the 896 cores'. -/
theorem core_outer : ∀ r ∈ Table.core, r.outer 0x20000000000 67108864 896 = true := by decide +kernel

/-- The records of the 256 queue pairs lie apart from the link's other registers. -/
theorem link_queuePairs : ∀ r ∈ Table.link, r.inner 0x30005008000 64 256 = true ∧ r.base ≤ 0x3000500C000 ∧ 0x30005000000 ≤ r.base ∧ r.ostride = 65536 := by decide +kernel

/-- The status words of the 1,024 sites lie apart from the power block's other registers. -/
theorem pwr_sites : ∀ r ∈ Table.pwr, r.inner 0x30009003000 8 1024 = true ∧ r.ocount ≤ 1 := by decide +kernel

theorem resetWord_link {a k : Nat} (hlo : 0x30005000000 ≤ a) (hhi : a < 0x30005010000) (hk : k < 32) : resetWord (a + 65536 * k) = resetWord a := by
  have ht : Table.ofAddr a = Table.link := ofAddr_link hlo (by omega)
  refine resetWord_congr ((ofAddr_link (by omega) (by omega)).trans ht.symm) fun r hr => ?_
  exact Row.hits_outer (link_outer r (ht ▸ hr)) hlo hhi hk

theorem resetWord_core {a k : Nat} (hlo : 0x20000000000 ≤ a) (hhi : a < 0x20004000000) (hk : k < 896) : resetWord (a + 67108864 * k) = resetWord a := by
  have ht : Table.ofAddr a = Table.core := ofAddr_core (by omega)
  refine resetWord_congr ((ofAddr_core (by omega)).trans ht.symm) fun r hr => ?_
  exact Row.hits_outer (core_outer r (ht ▸ hr)) hlo hhi hk

theorem resetWord_site {p : Nat} (hp : p < 1024) : resetWord (0x30009003000 + 8 * p) = resetWord 0x30009003000 := by
  have ht : Table.ofAddr 0x30009003000 = Table.pwr := ofAddr_pwr (by decide) (by decide)
  refine resetWord_congr ((ofAddr_pwr (by omega) (by omega)).trans ht.symm) fun r hr => ?_
  obtain ⟨hinner, hone⟩ := pwr_sites r (ht ▸ hr)
  exact Row.hits_inner hinner (Nat.le_refl _) (by decide) hp (.inl hone)

theorem resetWord_queuePair {a j : Nat} (hlo : 0x30005008000 ≤ a) (hhi : a < 0x30005008040) (hj : j < 256) : resetWord (a + 64 * j) = resetWord a := by
  have ht : Table.ofAddr a = Table.link := ofAddr_link (by omega) (by omega)
  refine resetWord_congr ((ofAddr_link (by omega) (by omega)).trans ht.symm) fun r hr => ?_
  obtain ⟨hinner, _, hbase, hstride⟩ := link_queuePairs r (ht ▸ hr)
  exact Row.hits_inner hinner hlo hhi hj (.inr (by omega))

/-! ## Fields at reset -/

theorem State.reset_reg (a : Nat) : State.reset.reg a = resetWord a := rfl

theorem reset_fld {f g : Fld} (hlo : f.lo = g.lo) (hw : f.w = g.w) (h : resetWord f.addr = resetWord g.addr) : State.reset.fld f = State.reset.fld g := by
  obtain ⟨a, lo, w⟩ := f
  obtain ⟨b, lo', w'⟩ := g
  obtain rfl : lo = lo' := hlo
  obtain rfl : w = w' := hw
  exact congrArg (fun x : W64 => (x.extractLsb' lo w).toNat) h

/-- A field of link `k`, of the link's queue pair `j`, and of core `n`. -/
def Fld.ofLink (f : Fld) (k : Nat) : Fld := ⟨f.addr + 65536 * k, f.lo, f.w⟩
def Fld.ofQueuePair (f : Fld) (k j : Nat) : Fld := ⟨f.addr + 65536 * k + 64 * j, f.lo, f.w⟩
def Fld.ofCore (f : Fld) (n : Nat) : Fld := ⟨f.addr + 67108864 * n, f.lo, f.w⟩

theorem reset_ofLink {f : Fld} {k : Nat} (hf : 0x30005000000 ≤ f.addr ∧ f.addr < 0x30005010000) (hk : k < 32) :
    State.reset.fld (f.ofLink k) = State.reset.fld f := reset_fld rfl rfl (resetWord_link hf.1 hf.2 hk)

theorem reset_ofQueuePair {f : Fld} {k j : Nat} (hf : 0x30005008000 ≤ f.addr ∧ f.addr < 0x30005008040) (hk : k < 32) (hj : j < 256) :
    State.reset.fld (f.ofQueuePair k j) = State.reset.fld f := by
  obtain ⟨hlo, hhi⟩ := hf
  refine reset_fld rfl rfl ?_
  rw [Fld.ofQueuePair, Nat.add_right_comm, resetWord_link (by omega) (by omega) hk, resetWord_queuePair hlo hhi hj]

theorem reset_ofCore {f : Fld} {n : Nat} (hf : 0x20000000000 ≤ f.addr ∧ f.addr < 0x20004000000) (hn : n < 896) :
    State.reset.fld (f.ofCore n) = State.reset.fld f := reset_fld rfl rfl (resetWord_core hf.1 hf.2 hn)

/-- The fields of a link, and of a queue pair, with a reset value other than 0 (spec/19 Table 19-7). -/
def linkResets : List (Fld × Nat) := [(F.LINK_CFG_auto_retrain 0, 1), (F.LINK_TRAIN_TMO_ms 0, 10000), (F.LINK_FEC_CFG_lane_thr 0, 4096), (F.LINK_CREDIT_TMO_us 0, 1000),
  (F.LINK_VC_CREDIT0_min 0, 16), (F.LINK_VC_CREDIT1_min 0, 256), (F.LINK_VC_CREDIT2_min 0, 512), (F.LINK_VC_CREDIT3_min 0, 512)]
def queuePairResets : List (Fld × Nat) := [(F.LINK_QP_cc_step 0 0, 64), (F.LINK_QP_timeout 0 0, 14), (F.LINK_QP_retry 0 0, 7), (F.LINK_QP_mtu 0 0, 2),
  (F.LINK_QP_cc_recover_us 0 0, 1000)]

theorem linkResets_first : ∀ e ∈ linkResets, (0x30005000000 ≤ e.1.addr ∧ e.1.addr < 0x30005010000) ∧ State.reset.fld e.1 = e.2 := by decide +kernel

theorem queuePairResets_first : ∀ e ∈ queuePairResets, (0x30005008000 ≤ e.1.addr ∧ e.1.addr < 0x30005008040) ∧ State.reset.fld e.1 = e.2 := by decide +kernel

theorem credits_first : ∀ j, j < 12 → (0x30005000000 ≤ (F.LINK_VC_CREDIT4_min 0 j).addr ∧ (F.LINK_VC_CREDIT4_min 0 j).addr < 0x30005010000)
    ∧ State.reset.fld (F.LINK_VC_CREDIT4_min 0 j) = 128 := by decide +kernel

theorem linkResets_all {k : Nat} (hk : k < 32) : ∀ e ∈ linkResets.map (fun e => (e.1.ofLink k, e.2)), State.reset.fld e.1 = e.2 := by
  simp only [List.mem_map, forall_exists_index, and_imp, forall_apply_eq_imp_iff₂]
  intro e he
  obtain ⟨hf, hv⟩ := linkResets_first e he
  exact (reset_ofLink hf hk).trans hv

theorem queuePairResets_all {k j : Nat} (hk : k < 32) (hj : j < 256) : ∀ e ∈ queuePairResets.map (fun e => (e.1.ofQueuePair k j, e.2)), State.reset.fld e.1 = e.2 := by
  simp only [List.mem_map, forall_exists_index, and_imp, forall_apply_eq_imp_iff₂]
  intro e he
  obtain ⟨hf, hv⟩ := queuePairResets_first e he
  exact (reset_ofQueuePair hf hk hj).trans hv

/-! ## The event enables (R432) -/

/-- The classes of events, with the last number that names one. -/
def eventClasses : List (Nat × Nat) := [(0x02, 5), (0x03, 2), (0x08, 1), (0x09, 3), (0x0A, 2), (0x0B, 6), (0x0C, 8), (0x0D, 6), (0x0E, 11), (0x0F, 15), (0x10, 7), (0x11, 8),
  (0x12, 7)]

/-- The four words of a class: the first enables its events, the others none. -/
theorem eventClasses_words : ∀ p ∈ eventClasses, (2 ≤ p.1 ∧ p.2 < 16) ∧ ∀ m, m < 4 → resetWord (F.EVT_ENABLE (4 * (p.1 - 2) + m)).addr =
    if m = 0 then BitVec.ofNat 64 (2 ^ (p.2 + 1) - 2) else 0#64 := by decide +kernel

theorem enableBits : ∀ n, n < 16 → ∀ i, i < 64 → (BitVec.ofNat 64 (2 ^ (n + 1) - 2)).getLsbD i = decide (1 ≤ i ∧ i ≤ n) := by decide +kernel

theorem reset_evEnabled {p : Nat × Nat} (hp : p ∈ eventClasses) {k : Nat} (hk : k < 256) : State.reset.evEnabled (256 * p.1 + k) = true ↔ 1 ≤ k ∧ k ≤ p.2 := by
  obtain ⟨⟨h2, h16⟩, hwords⟩ := eventClasses_words p hp
  have hword : (256 * p.1 + k - 0x200) / 64 = 4 * (p.1 - 2) + k / 64 := by omega
  have hbit : (256 * p.1 + k - 0x200) % 64 = k % 64 := by omega
  unfold State.evEnabled
  dsimp only
  rw [hword, hbit, State.reset_reg, hwords (k / 64) (by omega)]
  split
  · rw [enableBits p.2 h16 _ (Nat.mod_lt _ (by decide)), decide_eq_true_iff]
    omega
  · rw [BitVec.getLsbD_zero]
    exact iff_of_false Bool.false_ne_true (by omega)

/-! ## Values at reset -/

theorem fixedResets : ∀ e ∈ ([(F.DEV_ID_bc, 1), (F.DEV_ID_stepping, 0xB0), (F.DEV_NODE_ID_node_id, 0x3FFFFF), (F.DEV_RSP_TMO_us, 1000), (F.DEV_LODGE_WDT_ms, 1000),
    (F.DEV_RUNOUT_CFG_drain_ms, 120000), (F.DEV_RUNOUT_CFG_wait_ms, 60000), (F.CORE_MAP_SPARE_WARN, 8), (F.FABRIC_PRESS_CFG_thr0, 192), (F.FABRIC_PRESS_CFG_thr1, 192),
    (F.FABRIC_PRESS_CFG_thr2, 192), (F.FABRIC_PRESS_CFG_thr3, 192), (F.FABRIC_PRESS_CFG_thr4, 192), (F.FABRIC_PRESS_CFG_win_log2, 20), (F.WSTREAM_KEY_TMO_ms, 1000),
    (F.WSTREAM_VERSION_CFG_track, 1), (F.WSTREAM_TREE_TMO_ms, 20), (F.WSTREAM_JOIN_TOL_ns, 5000), (F.RED_POISON_CFG_ev_max, 16), (F.RED_LOSS_SCALE, 0x47800000),
    (F.CKPT_VOTE_NCORES, 1), (F.CKPT_VOTE_TMO_ms, 200), (F.CKPT_CMP_CFG_tmo_ms, 10000), (F.CKPT_FRZ_CFG_period_s, 300), (F.CKPT_DRAIN_RATE_mbps, 20000),
    (F.CKPT_POOL_vc, 1), (F.CKPT_POOL_keep, 2), (F.PWR_STS_eff_cap_watts, 30000), (F.PWR_STS_common_mhz, 3600), (F.PWR_CAP_CTL_cap_watts, 30000),
    (F.PWR_CAP_CFG_fallback_watts, 15000), (F.PWR_CAP_CFG_rise_w, 2000), (F.PWR_CAP_CFG_step_w, 1000), (F.PWR_CLAMP_STS_stretch, 64), (F.PWR_CLAMP_CFG_floor_watts, 12000),
    (F.PWR_HOLD_CFG_hyst_w, 500), (F.PWR_THERM_CFG_target, 92), (F.PWR_LEAK_CFG_action, 1), (F.PWR_TEL_RING_frames, 1024), (F.CLK_IDLE_TO_ns, 2000),
    (F.CLK_PTP_CFG_holdover_ns, 5000), (F.CLK_PTP_CFG_loss_ms, 3000), (F.CLK_PTP_STS_err_ns, 2 ^ 32 - 1), (F.CLK_WEAR_CFG_warn_days, 180), (F.CLK_WEAR_CFG_plan_days, 30),
    (F.CLK_WEAR_CFG_guard_ps, 15), (F.CLK_WEAR_STS_days_spare, 2 ^ 32 - 1), (F.CLK_WEAR_STS_days_top, 2 ^ 32 - 1), (F.EVT_RING_CFG_entries, 65536)] : List (Fld × Nat)),
    State.reset.fld e.1 = e.2 := by decide +kernel

theorem site_reset {p : Nat} (hp : p < 1024) : State.reset.fld (F.PWR_SITE_STS_phases p) = 8 ∧ State.reset.fld (F.PWR_SITE_STS_state p) = 0 :=
  ⟨(reset_fld (f := F.PWR_SITE_STS_phases p) (g := F.PWR_SITE_STS_phases 0) rfl rfl (resetWord_site hp)).trans (by decide +kernel),
    (reset_fld (f := F.PWR_SITE_STS_state p) (g := F.PWR_SITE_STS_state 0) rfl rfl (resetWord_site hp)).trans (by decide +kernel)⟩

theorem core_reset {n : Nat} (hn : n < 896) : State.reset.fld (F.CORE_CTX_SLICE_cycles n) = 4096 ∧ State.reset.fld (F.CORE_SRAM_CFG_swizzle n) = 1 :=
  ⟨(reset_ofCore (f := F.CORE_CTX_SLICE_cycles 0) (by decide) hn).trans (by decide +kernel),
    (reset_ofCore (f := F.CORE_SRAM_CFG_swizzle 0) (by decide) hn).trans (by decide +kernel)⟩

/-- Settles O60, from the rows of the single registers, of the links, the sites and the cores, and of the event enables. -/
theorem resetValues : Obligations.ResetValues := by
  unfold Obligations.ResetValues
  intro r
  refine ⟨fixedResets, fun k hk => ⟨?_, linkResets_all hk, fun j hj => ?_, fun j hj => queuePairResets_all hk hj⟩, fun p hp => site_reset hp, fun n hn => core_reset hn,
    fun p hp k hk => reset_evEnabled hp hk, by decide +kernel, by decide +kernel, fun n k => ⟨rfl, rfl, fun j => ite_self 0⟩, fun n j => rfl, rfl, rfl, rfl⟩
  · exact (reset_ofLink (f := F.LINK_STS_state 0) (by decide) hk).trans (by decide +kernel)
  · obtain ⟨hf, hv⟩ := credits_first j hj
    have haddr : (F.LINK_VC_CREDIT4_min k j).addr = ((F.LINK_VC_CREDIT4_min 0 j).ofLink k).addr := Nat.add_right_comm ..
    exact (reset_fld (f := F.LINK_VC_CREDIT4_min k j) (g := (F.LINK_VC_CREDIT4_min 0 j).ofLink k) rfl rfl (congrArg resetWord haddr)).trans
      ((reset_ofLink hf hk).trans hv)

end Sys2Proof.Machine
end
